-- ==== Sys2Proof/Word.lean ====
section
/-!
DEFINITION. The words of the HW-128: 32-bit register words and parameters, 8-bit bytes of packets and memory.
-/

namespace Sys2Proof

/-- A register word (R372). -/
abbrev Word := BitVec 32

/-- A byte of a packet or of memory. -/
abbrev Byte := BitVec 8

end Sys2Proof
end

