-- ==== Sys2Proof/Syntax.lean ====
section
/-!
DEFINITION. The commands of the HW-128: one constructor of `Instr` per row of spec/opcode_table.json, in the table's
order, with the operands the row's step is given from outside. Units are numbered as R19 numbers them.
-/

namespace Sys2Proof

/-- The header of a command that has passed framing and its tag (R358, R366 steps 1, 3 and 4): the port it arrived
on, the source address and port it is bound to (R362), and the header fields. -/
structure Hdr where
  port : Fin 2
  addr : BitVec 128
  udp : BitVec 16
  session : BitVec 16
  role : BitVec 8
  group : BitVec 8
  seq : BitVec 32
  atCourse : Bool
  course : BitVec 64
  deriving DecidableEq, Repr

/-- A state of the input pins of a position channel, and how many PSCLK samples in a row have shown it (R48). -/
structure PinSample where
  pins : BitVec 3
  samples : Nat
  deriving DecidableEq, Repr

/-- A level of the Z pin of a position channel, and how many PSCLK samples in a row have shown it (R48, R69). -/
structure ZSample where
  p : Fin 8
  z : Bool
  samples : Nat
  deriving DecidableEq, Repr

/-- An ALIGN block: its marker count, and the block at which it came (R91, R123). -/
structure AlignBlock where
  marker : BitVec 16
  place : Nat
  deriving DecidableEq, Repr

/-- The commands and events of the device, one constructor per row of spec/opcode_table.json, in its order. -/
inductive Instr where
  /-- PORN_RISE (R414): A rising edge of PORN starts cast-on from step 1, which runs the numbered steps of the sequence table. -/
  | pornRise (fusesAgree : Bool) (fails : List (Fin 10 × Nat))
  /-- PORN_FALL (R415): PORN going low resets the whole device, including the always-on domain, and abandons all work, even during bind-off. -/
  | pornFall
  /-- AON_UNDERVOLT (R701): VDD_AON below 0.70 V for 1 µs is treated as PORN low. -/
  | aonUndervolt
  /-- XA_STABLE_DELAY_END (R420): The XTAL_DLY delay expires and XA is measured against FOSC; a frequency out of range sets XA_FAIL and halts cast-on. -/
  | xaStableDelayEnd (hz : Nat)
  /-- CAST_ON_WATCHDOG (R416): Ready not reached within 10 s of the start of step 4 fails the image attempt with code 0x0C. -/
  | castOnWatchdog
  /-- READY (R437): At the end of step 10 READY is set, CAST_TIME is latched, the command port opens and the first announcement is sent. -/
  | ready
  /-- ANNOUNCE_PERIODIC (R439): Every ANN_PER seconds the device sends a KIND 0x02 announcement. -/
  | announcePeriodic
  /-- DEGRADED_CHANGE (R439): A change of DEGRADED sets DEGRADE_EV and sends a KIND 0x04 announcement within 100 ms. -/
  | degradedChange
  /-- ANNOUNCE_RECEIVED (R440): An announcement with a valid TAG, this device's DEVNUM and a different SERIAL sets DUPLICATE_DEVICE and DUP_EV and stops records. -/
  | announceReceived (frame : List Byte)
  /-- FUSE_PROG_GO (R421): A write of FUSE_PROG_CTRL with KEY 0xF05E and GO = 1 starts blowing the addressed fuse bit. -/
  | fuseProgGo (bit : Fin 4096)
  /-- FUSE_PROG_DONE (R421): After the 20 µs blow the bit is read back, PROG_ERR is set if it does not read 1, and DEBUG_LOCK takes effect at once. -/
  | fuseProgDone (readsOne : Bool)
  /-- XSPI_READ (R425): An XSPI_CTRL GO with OP read copies flash to device memory. -/
  | xspiRead
  /-- XSPI_PROGRAM (R425): An XSPI_CTRL GO with OP program copies device memory to flash; a session below service gets NOT_PERMITTED. -/
  | xspiProgram
  /-- XSPI_ERASE (R425): An XSPI_CTRL GO with OP erase clears 64 KiB flash sectors; a session below service gets NOT_PERMITTED. -/
  | xspiErase
  /-- XSPI_DONE (R425): An XSPI operation ends, setting DONE, and ERR on a flash or memory error. -/
  | xspiDone (err : Bool)
  /-- EXTEST (R442): The JTAG EXTEST instruction, kept with DEBUG_LOCK blown. -/
  | extest
  /-- SAMPLE_PRELOAD (R442): The JTAG SAMPLE/PRELOAD instruction, kept with DEBUG_LOCK blown. -/
  | samplePreload
  /-- IDCODE (R442): The JTAG IDCODE instruction, which reads 0x1012_8BB3. -/
  | idcode
  /-- DBG_ACCESS (R443): The JTAG DBG_ACCESS instruction gives register and memory access through the active core pair, only while DEBUG_LOCK is unblown and DBG_EN = 1. -/
  | dbgAccess (write : Bool) (mem : Bool) (addr : BitVec 40) (data : BitVec 32)
  /-- SCAN_TEST (R443): The JTAG SCAN_TEST instruction, which acts only while DEBUG_LOCK is unblown and DBG_EN = 1. -/
  | scanTest
  /-- HIGHZ (R442): The JTAG HIGHZ instruction, which acts as BYPASS with DEBUG_LOCK blown. -/
  | highz
  /-- CLAMP (R442): The JTAG CLAMP instruction, which acts as BYPASS with DEBUG_LOCK blown. -/
  | clamp
  /-- BYPASS (R442): The JTAG BYPASS instruction, also taken for every unlisted code. -/
  | bypass
  /-- LOCKSTEP_FAULT (R441): A lockstep fault of the active pair fails the attempt before Ready, or hands service to the standby pair after Ready and sets CORE_SINGLE. -/
  | lockstepFault
  /-- ENCODER_TRANSITION (R50): A filtered transition of a quadrature or Hall position channel moves POS_COUNT, and the divider, compare units and wake logic follow it. -/
  | encoderTransition (p : Fin 8) (pins : PinSample)
  /-- HALL_SPEED_TIMEOUT (R56): No Hall state change for 2^24 PSCLK cycles makes POS_SPEED read zero. -/
  | hallSpeedTimeout (p : Fin 8)
  /-- POS_RUN_SET (R47): A write that raises RUN of a position channel resumes counting from the held value and restarts the speed windows. -/
  | posRunSet (p : Fin 8)
  /-- SER_FRAME_REQUEST (R57): Every SER_PER µs the channel requests a serial frame and latches the sample instant and course view. -/
  | serFrameRequest (p : Fin 8)
  /-- SER_FRAME_RECEIVED (R59): A received serial frame is checked; a good frame adds its signed position difference to POS_COUNT, and a bad one sets SER_CRC or SER_ERRBIT. -/
  | serFrameReceived (p : Fin 8) (err : Bool) (pos : BitVec 48) (crc : BitVec 16)
  /-- SER_TIMEOUT (R58): No start bit within SER_TMO SCK periods of a request sets SER_TIMEOUT and makes the channel invalid. -/
  | serTimeout (p : Fin 8)
  /-- SPEED_WINDOW_END (R60): At the end of each 2^18-cycle window POS_SPEED is updated from the change of POS_COUNT. -/
  | speedWindowEnd (p : Fin 8)
  /-- INDEX_EVENT (R70): An accepted Z edge is an index event; it sets the reference or is checked against IDX_PERIOD. -/
  | indexEvent (e : ZSample)
  /-- COURSE_TIMER_EXPIRY (R75): The course timer reaches (n + 1) × TIMER_PER and triggers course n. -/
  | courseTimerExpiry (g : Fin 16)
  /-- OVERRATE_DELAY_END (R67): A course delayed under the minimum period triggers 2.000 µs after the previous trigger, with OVERRATE set. -/
  | overrateDelayEnd (g : Fin 16)
  /-- COURSESYNC_EDGE (R77): A rising COURSESYNC edge starts an armed follower's group at course 0, or is checked against the follower's own course. -/
  | coursesyncEdge
  /-- COURSE_CLOSE (R38): The close instant of a course, its trigger plus CLOSE_DLY, passes; later inputs stamped with that course are late. -/
  | courseClose (g : Fin 16)
  /-- STAMPED_INPUT_ARRIVAL (R39): A stamped input reaches its consumer and is given its effective course, on time or late. -/
  | stampedInputArrival (cls : Fin 8) (source : Nat)
  /-- LOS_ASSERT (R88): Forward amplitude below LOS_THR for 100 ns sets LOS. -/
  | losAssert (l : Fin 128)
  /-- LOS_CLEAR (R88): Amplitude above LOS_THR + LOS_HYS for 1 µs clears LOS. -/
  | losClear (l : Fin 128)
  /-- INSERT_DEBOUNCE (R116): LOS clear for 10 ms in NO_CAMERA sets INSERT and starts training. -/
  | insertDebounce (l : Fin 128)
  /-- BLOCK_LOCK (R87): 64 consecutive valid sync headers declare LOCK. -/
  | blockLock (l : Fin 128) (bad : Nat)
  /-- LOCK_LOSS (R87): 16 invalid headers in the last 64 lose LOCK, setting LOL_EV unless announced by idle entry. -/
  | lockLoss (l : Fin 128) (bad : Nat)
  /-- LOL_GRACE_EXPIRY (R119): Loss of lock lasting 100 µs makes a joined lane leave. -/
  | lolGraceExpiry (l : Fin 128)
  /-- LOS_REMOVE_TIMEOUT (R116): Unannounced LOS lasting 100 µs sets REMOVE and takes the lane to NO_CAMERA. -/
  | losRemoveTimeout (l : Fin 128)
  /-- TRAINING_FRAME_RECEIVED (R112): A training frame is received; requests are applied within four frames and training ends after eight frames of RX_READY both ways. -/
  | trainingFrameReceived (l : Fin 128) (trn : BitVec 64) (ready : Bool)
  /-- TRAINING_TIMEOUT (R113): Training not ended within 500 ms sets TRAIN_FAIL and enters FAILED. -/
  | trainingTimeout (l : Fin 128)
  /-- FAILED_RETRY (R113): 1 s in FAILED starts training again. -/
  | failedRetry (l : Fin 128)
  /-- LOCKING_TIMEOUT (R116): No LOCK within 10 ms in LOCKING returns the lane to TRAINING. -/
  | lockingTimeout (l : Fin 128)
  /-- IDENT_TIMEOUT (R116): No IDENT within 10 ms in IDENT takes the lane to FAILED. -/
  | identTimeout (l : Fin 128)
  /-- IDENT_RECEIVED (R110): An IDENT packet fills CAM_ID0 to CAM_ID2 and takes the lane to READY, or ends or starts a hold. -/
  | identReceived (l : Fin 128) (words : List (BitVec 64))
  /-- LINE_PACKET_RECEIVED (R128): A line packet is checked in table order and accepted into slot v mod 8 or discarded and counted. -/
  | linePacketReceived (l : Fin 128) (words : List (BitVec 64)) (cut : Bool)
  /-- CAMERA_DATA_PACKET (R98): A packet bound for the camera-data ring is written as 256-byte entries, or discarded if CAM_RING is disabled. -/
  | cameraDataPacket (l : Fin 128) (words : List (BitVec 64)) (cut : Bool)
  /-- CONTROL_REPLY_RECEIVED (R109): A control reply from the camera completes the host's CAMERA_CTRL command. -/
  | controlReplyReceived (l : Fin 128) (words : List (BitVec 64))
  /-- CONTROL_REPLY_TIMEOUT (R109): No control reply within 10 ms completes the command with HW_FAULT. -/
  | controlReplyTimeout (l : Fin 128) (tag : Fin 16)
  /-- IDLE_ENT_RECEIVED (R114): IDLE_ENT makes the receiver treat the following LOS as idle and hold its CTLE and DFE. -/
  | idleEntReceived (l : Fin 128)
  /-- ALIGN_RECEIVED (R123): ALIGN blocks deskew a bond; a skew above 32 blocks sets BOND_SKEW. -/
  | alignReceived (l : Fin 128) (block : AlignBlock)
  /-- LINE_TIMEOUT (R131): A line not accepted by close plus LINE_TMO is declared missing: filled, masked, MISSING set and MISS_CNT raised. -/
  | lineTimeout (l : Fin 128)
  /-- LANE_ENABLE (R116): A write of EN takes the lane from OFF to NO_CAMERA, or with 0 takes it to OFF. -/
  | laneEnable (l : Fin 128) (on : Bool)
  /-- LANE_IDLE_REQ (R114): IDLE_REQ written 1 sends four IDLE_ENT blocks and puts the lane into electrical idle. -/
  | laneIdleReq (l : Fin 128)
  /-- LANE_WAKE_REQ (R115): IDLE_REQ written 0 sends a training frame and a WAKE block to the camera. -/
  | laneWakeReq (l : Fin 128)
  /-- WAKE_BURST_TIMEOUT (R115): No burst within 100 µs of WAKE sets IDLE_TMO and treats the lane as removed. -/
  | wakeBurstTimeout (l : Fin 128)
  /-- CHANNEL_COURSE_START (R43): A channel starts pixel work on a course once it has closed and its line is accepted or declared missing, and runs correction and statistics. -/
  | channelCourseStart (ch : Fin 128) (ecc : List Nat)
  /-- GAUGE_JOB_START (R165): The region's gauge engine starts the next pending computation in order of request course and channel. -/
  | gaugeJobStart (region : Fin 8)
  /-- GAUGE_JOB_COMPLETE (R158): A gauge computation finishes, or is abandoned with GAUGE_BAD, GAUGE_CRC or GAUGE_MEMERR. -/
  | gaugeJobComplete (region : Fin 8)
  /-- SEAM_OUTPUT_START (R215): A channel starts seam output of a course once its corrected line and the neighbour's overlap samples are present. -/
  | seamOutputStart (ch : Fin 128)
  /-- REG_BLOCK_END (R204): At the end of a registration block each seam is evaluated: skipped, invalid or stepped, with a state change. -/
  | regBlockEnd (g : Fin 16)
  /-- SEAM_LINK_FAULT (R216): A seam link fault stops every group whose run crosses it and is logged. -/
  | seamLinkFault (ch : Fin 128)
  /-- SEGMENT_MAP_COURSE (R240): Once seam output of course c + D_F + D_M is present, map course c is filtered, thresholded, morphed and labelled into runs. -/
  | segmentMapCourse (g : Fin 16)
  /-- RESOLUTION (R245): Once every channel's message for a course has arrived, the controller joins, grants, closes, splits and frees components. -/
  | resolution (g : Fin 16)
  /-- DESCRIPTOR_HAND (R258): A handed segment is written to DESC_RING, the resolution waiting while the ring lacks room. -/
  | descriptorHand (g : Fin 16)
  /-- MASK_HOLD_NOW (R229): A write of 1 to NOW in MASK_HOLD starts a mask hold at the next course boundary. -/
  | maskHoldNow (g : Fin 16)
  /-- JOB_DISPATCH (R269): The dispatcher sends the next descriptor to the lowest available engine of the mask. -/
  | jobDispatch (g : Fin 16)
  /-- JOB_COMPLETE (R272): A job's record is built and its patch written or dropped, and its chunks return to the run-store pool. -/
  | jobComplete (e : Fin 128)
  /-- RECORD_RELEASE (R303): A completed record is released to each enabled result ring, in order with ORDER = 1, waiting or dropping on a full ring. -/
  | recordRelease (g : Fin 16)
  /-- ENGINE_FAULT (R306): A parity or residue fault takes the engine offline and re-dispatches its job. -/
  | engineFault (e : Fin 128) (residue : Bool)
  /-- ENGINE_WATCHDOG (R306): A job running longer than TMO is treated as an engine fault. -/
  | engineWatchdog (e : Fin 128)
  /-- DRAIN_END (R273): When DESC_RING is empty and every job of a stopped group has released its record, DRAIN clears. -/
  | drainEnd (g : Fin 16)
  /-- TE_RESTORE (R309): A write of RESTORE brings an offline tally engine back online. -/
  | teRestore (e : Fin 128)
  /-- CMP_ENABLE (R316): EN of a compare unit rising sets CHWM to POS_COUNT of SRC after the fill check. -/
  | cmpEnable (u : Fin 16)
  /-- CMP_LATE_FIRE (R321): With LATE_MODE = 1 a late entry fires in the PSCLK cycle after its insertion. -/
  | cmpLateFire (u : Fin 16)
  /-- CMP_PULSE_END (R319): PULSE_W after the last fire CMPO returns to its inactive level. -/
  | cmpPulseEnd (u : Fin 16)
  /-- CMP_FILL_RECORD (R324): A record read from FILL_RING that meets every condition inserts an entry at ENC_CEN + DIST. -/
  | cmpFillRecord (u : Fin 16)
  /-- LIST_INSERT (R326): LIST_CMD with INSERT = 1 inserts LIST_POS and LIST_ID, or discards it on a full list or as late. -/
  | listInsert (u : Fin 16)
  /-- LIST_CLEAR (R351): LIST_CMD with CLEAR = 1 empties the compare list. -/
  | listClear (u : Fin 16)
  /-- MARK_HOLD_CTRL_WRITE (R323): A write of HOLD in MARK_HOLD_CTRL sets or clears the marking hold. -/
  | markHoldCtrlWrite (hold : Bool)
  /-- TH_ENABLE (R348): TH_EN rising enables the tag head and authenticates the cassette. -/
  | thEnable
  /-- AUTH_REQ (R348): A write of AUTH_REQ = 1 runs cassette authentication. -/
  | authReq
  /-- TAG_JOB_START (R343): The next tag job starts once conditions are clear and, with AT_POS, its start position is reached; the cassette is decremented first. -/
  | tagJobStart
  /-- TAG_LINE_START (R336): A dot line starts, no sooner than LINE_PER after the last, with its band fixed and its passes shifted and strobed. -/
  | tagLineStart (arrived : Bool)
  /-- TAG_STROBE_END (R335): A pass's strobe of D_k µs ends and the next pass or the feed step follows. -/
  | tagStrobeEnd
  /-- TAG_UNDERRUN_TIMEOUT (R331): A row wait longer than 1 ms voids the tag with status 0x05. -/
  | tagUnderrunTimeout
  /-- TAG_SENSOR_EDGE (R337): A filtered head-open, jam or stock edge stops tags or voids the tag in progress. -/
  | tagSensorEdge (sensor : Fin 3) (level : Bool)
  /-- TAG_JOB_RESULT (R345): A finished tag job writes its result entry to RES_RING. -/
  | tagJobResult
  /-- CASS_OPEN_CLEAR_DELAY (R348): 100 ms after TH_OPEN clears, the cassette is authenticated. -/
  | cassOpenClearDelay
  /-- CASS_RESPONSE (R346): The cassette answers a command; AUTH or DEC is checked and CASS_OK, CASS_COUNT or CASS_FAIL are set. -/
  | cassResponse (bytes : List Byte)
  /-- CASS_RETRY (R346): A cassette that does not acknowledge its address is retried every 1 ms. -/
  | cassRetry
  /-- CASS_EXCHANGE_TIMEOUT (R346): 50 ms without a response ends the cassette exchange as failed. -/
  | cassExchangeTimeout
  /-- SESSION_TIMEOUT (R363): A session that receives no valid command for TIMEOUT seconds closes. -/
  | sessionTimeout (session : BitVec 16)
  /-- COMMAND_COMPLETE (R370): A command whose effect took time completes and its reply is sent. -/
  | commandComplete (session : BitVec 16) (seq : BitVec 32)
  /-- DEVICE_INFO (R383): Returns the device number, serial, firmware, state, image and DEGRADED bits. -/
  | deviceInfo (h : Hdr)
  /-- SESSION_OPEN (R361): Opens a session bound to role, address and port and derives its session key. -/
  | sessionOpen (h : Hdr) (nonce : BitVec 128) (timeout : BitVec 16) (maxDgram : BitVec 16)
  /-- SESSION_CLOSE (R363): Closes the session. -/
  | sessionClose (h : Hdr)
  /-- KEEPALIVE (R363): Keeps the session open. -/
  | keepalive (h : Hdr)
  /-- SESSION_LIST (R381): Returns the open sessions. -/
  | sessionList (h : Hdr)
  /-- SESSION_KILL (R363): A service session closes another session. -/
  | sessionKill (h : Hdr) (session : BitVec 16)
  /-- REG_READ (R376): Reads COUNT register words from the active or shadow set, clearing RC fields. -/
  | regRead (h : Hdr) (addr : BitVec 32) (count : BitVec 16) (set : BitVec 8)
  /-- REG_WRITE (R373): Writes every field of the words covered, all or nothing, for registers with no row of their own. -/
  | regWrite (h : Hdr) (addr : BitVec 32) (count : BitVec 16) (set : BitVec 8) (words : List Word)
  /-- REG_MODIFY (R373): Writes the fields selected by MASK, all or nothing, and returns the old word. -/
  | regModify (h : Hdr) (addr : BitVec 32) (set : BitVec 8) (mask : Word) (value : Word)
  /-- PATTERN_SWAP (R394): Requests a swap of a pattern set at a course, freezing the shadow set. -/
  | patternSwap (h : Hdr) (group : BitVec 8) (when : BitVec 8) (course : BitVec 64)
  /-- PATTERN_REVERT (R404): Copies the active set into the shadow set, discarding shadow writes. -/
  | patternRevert (h : Hdr) (group : BitVec 8)
  /-- PATTERN_STATUS (R412): Returns the phase, swap course and swap count of a set. -/
  | patternStatus (h : Hdr) (group : BitVec 8)
  /-- GROUP_START (R62): Starts or arms a web group after the start checks of every chapter. -/
  | groupStart (h : Hdr) (group : BitVec 8) (flags : BitVec 8)
  /-- GROUP_STOP (R382): Stops a group's courses, closes open components, cancels late swaps and discards held commands. -/
  | groupStop (h : Hdr) (group : BitVec 8)
  /-- GROUP_STATUS (R382): Returns the group's state, course, HWM, CSW and late counters. -/
  | groupStatus (h : Hdr) (group : BitVec 8)
  /-- EXPOSURE (R106): Sends an exposure command to a camera for a target course. -/
  | exposure (h : Hdr) (channel : BitVec 16) (expId : BitVec 16) (exp : BitVec 32) (gain : BitVec 16) (rsv : BitVec 16) (target : BitVec 64)
  /-- CAMERA_CTRL (R109): Reads or writes camera registers through a control request. -/
  | cameraCtrl (h : Hdr) (channel : BitVec 16) (op : BitVec 8) (addr : BitVec 32) (count : BitVec 8) (data : List (BitVec 64))
  /-- CAMERA_IDENT (R110): Asks the camera to send IDENT again. -/
  | cameraIdent (h : Hdr) (channel : BitVec 16)
  /-- AUXSYNC (R658): Makes an aux filter sync and, with DRIVE, pulses AUXSYNC. -/
  | auxsync (h : Hdr)
  /-- RING_CONFIG (R513): Configures a ring's context. -/
  | ringConfig (h : Hdr) (ring : BitVec 32) (base : BitVec 64) (depthLog : BitVec 8) (entry : BitVec 8)
  /-- RING_RELEASE (R513): Clears VALID of a ring. -/
  | ringRelease (h : Hdr) (ring : BitVec 32)
  /-- RING_SUBSCRIBE (R520): Makes a network subscriber of a ring. -/
  | ringSubscribe (h : Hdr) (ring : BitVec 32) (flags : BitVec 16) (udp : BitVec 16) (addr : BitVec 128)
  /-- RING_UNSUBSCRIBE (R523): Removes a network subscriber and recomputes the tail. -/
  | ringUnsubscribe (h : Hdr) (sub : BitVec 16)
  /-- RING_READ (R519): Returns ring entries without moving any cursor. -/
  | ringRead (h : Hdr) (ring : BitVec 32) (index : BitVec 32) (count : BitVec 16)
  /-- RING_STATUS (R519): Returns PROD, tail index and DROPS. -/
  | ringStatus (h : Hdr) (ring : BitVec 32)
  /-- RING_CONSUME (R518): Sets CONS of a ring with no subscriber. -/
  | ringConsume (h : Hdr) (ring : BitVec 32) (index : BitVec 32)
  /-- MEM_READ (R382): Reads device memory. -/
  | memRead (h : Hdr) (addr : BitVec 64) (len : BitVec 32)
  /-- MEM_WRITE (R382): Writes device memory, all or nothing. -/
  | memWrite (h : Hdr) (addr : BitVec 64) (data : List Byte)
  /-- DMA_START (R528): Starts a DMA channel at a descriptor, or rings its doorbell with DESC = 0. -/
  | dmaStart (h : Hdr) (channel : BitVec 8) (desc : BitVec 64)
  /-- DMA_ABORT (R536): Aborts a DMA channel and returns it to IDLE. -/
  | dmaAbort (h : Hdr) (channel : BitVec 8)
  /-- DMA_STATUS (R536): Returns the DMA state, address and residue. -/
  | dmaStatus (h : Hdr) (channel : BitVec 8)
  /-- CAL_REQUEST (R382): Places gauge recomputation requests under R163 case 4. -/
  | calRequest (h : Hdr) (channel : BitVec 16)
  /-- CAL_STATUS (R381): Returns a channel's calibration count, course, temperature and pending flag. -/
  | calStatus (h : Hdr) (channel : BitVec 16)
  /-- LANE_ADAPT (R381): Asks for adaptation of a lane. -/
  | laneAdapt (h : Hdr) (lane : BitVec 16)
  /-- TIME_GET (R603): Returns local time, selected domain and lock state. -/
  | timeGet (h : Hdr)
  /-- TIME_SET (R382): Steps the local clock, unless a group runs or a domain is locked. -/
  | timeSet (h : Hdr) (sec : BitVec 64) (ns : BitVec 32)
  /-- PTP_STATUS (R603): Returns the state and offset of both PTP domains. -/
  | ptpStatus (h : Hdr)
  /-- PTP_PREFER (R602): Sets the preferred domain, switching at once if it is locked. -/
  | ptpPrefer (h : Hdr) (domain : BitVec 8)
  /-- MARK_INSERT (R382): Inserts a compare list entry. -/
  | markInsert (h : Hdr) (unit : BitVec 8) (pos : BitVec 64) (id : BitVec 64)
  /-- MARK_CLEAR (R381): Empties a compare list. -/
  | markClear (h : Hdr) (unit : BitVec 8)
  /-- MARK_HOLD (R323): Sets or clears the marking hold. -/
  | markHold (h : Hdr) (hold : BitVec 8)
  /-- CASS_AUTH (R348): Runs cassette authentication and replies when the exchange ends. -/
  | cassAuth (h : Hdr)
  /-- TAG_STATUS (R381): Returns TH_STATUS and the cassette counter. -/
  | tagStatus (h : Hdr)
  /-- CAPTURE_FREEZE (R672): Triggers a freeze of the replay window. -/
  | captureFreeze (h : Hdr)
  /-- CAPTURE_REARM (R664): Returns the replay block from FROZEN to ARMED. -/
  | captureRearm (h : Hdr)
  /-- BUNDLE_EXPORT (R675): Writes the frozen bundle onto a ring. -/
  | bundleExport (h : Hdr) (ring : BitVec 32)
  /-- RERUN_START (R677): Checks and starts a re-run of a bundle. -/
  | rerunStart (h : Hdr) (addr : BitVec 64)
  /-- RERUN_STATUS (R693): Returns RSTATE, RR_COURSE and RR_MISMATCH. -/
  | rerunStatus (h : Hdr)
  /-- LOG_READ (R690): Returns fault log entries from INDEX. -/
  | logRead (h : Hdr) (index : BitVec 32) (count : BitVec 16)
  /-- LOG_CLEAR (R690): Discards every fault log entry. -/
  | logClear (h : Hdr)
  /-- SELFTEST (R689): Runs the self-test of a unit. -/
  | selftest (h : Hdr) (cls : BitVec 8) (index : BitVec 16)
  /-- FAULT_INJECT (R689): Makes a covered fault in a unit, if DEBUG_LOCK is intact. -/
  | faultInject (h : Hdr) (cls : BitVec 8) (index : BitVec 16)
  /-- POWER_STATE (R474): Requests a power-state transition. -/
  | powerState (h : Hdr) (st : BitVec 8)
  /-- DOMAIN_POWER (R468): Powers a switched domain on or off. -/
  | domainPower (h : Hdr) (domain : BitVec 8) (on : BitVec 8)
  /-- BIND_OFF (R445): Starts the orderly shutdown after its reply. -/
  | bindOff (h : Hdr)
  /-- RESET (R23): Resets a unit, cluster, region or die and everything below it. -/
  | reset (h : Hdr) (level : BitVec 8) (index : BitVec 16)
  /-- COPY_BACK_START (R399): A block begins copy-back once all work governed by the old bank has finished. -/
  | copyBackStart (set : Fin 17)
  /-- COPY_BACK_END (R400): When the last block has copied, PHASE returns to idle, SWAPS increments and SWAP_EV is set. -/
  | copyBackEnd (set : Fin 17)
  /-- BIND_OFF_FLUSH_END (R445): Groups drained and rings, lists and queues emptied, or FLUSH_TMO expired, bind-off idles the lanes and powers off the loom dies. -/
  | bindOffFlushEnd
  /-- XA_FAIL (R455): XA failing after Ready returns the AON loop to FOSC, drops every other loop and stops every group. -/
  | xaFail
  /-- LOOP_LOSS_OF_LOCK (R456): A loop losing lock gates its outputs, sets LOL_EV and stops the groups it feeds. -/
  | loopLossOfLock (loop : Fin 16)
  /-- LOOP_RELOCK (R456): A loop relocks by itself. -/
  | loopRelock (loop : Fin 16)
  /-- THERMAL_SAMPLE (R476): Every 10 µs each die sensor is sampled and the highest reading is compared with the limits. -/
  | thermalSample (die : Fin 5) (temp : BitVec 16)
  /-- AUTO_IDLE_ENTRY (R471): No course for IDLE_DLY ms with AUTO_IDLE enters IDLE and idles joined lanes. -/
  | autoIdleEntry
  /-- WAKE_COUNT_REACHED (R473): In SLEEP, WAKE_COUNTS forward counts on WAKE_SRC wake the device and run cast-on from step 2. -/
  | wakeCountReached
  /-- DOMAIN_POWER_ON_DONE (R469): A powered domain becomes usable with reset values, or DOM_FAULT is set. -/
  | domainPowerOnDone (d : Fin 96) (ok : Bool)
  /-- REFRESH_SLOT (R490): At its slot a GDDR7 device issues an all-bank refresh and stalls for tRFC. -/
  | refreshSlot (d : Fin 16)
  /-- MEM_TEMP_READ (R491): Every 1 ms the controller reads device temperature and updates HOT. -/
  | memTempRead (d : Fin 16) (temp : BitVec 16)
  /-- MEM_REQUEST_SERVE (R494): A controller serves the next waiting request in class order. -/
  | memRequestServe (d : Fin 16) (crc : Nat)
  /-- MEM_DEVICE_FAIL (R502): The fault manager declares a GDDR7 device failed and serves its mirror range from the survivor. -/
  | memDeviceFail (d : Fin 16)
  /-- SCRUB_PASS (R498): The scrubber reads every block once in SCRUB_PER hours. -/
  | scrubPass (d : Fin 16)
  /-- RETRAIN_STEP (R503): A retraining step runs in slot d + 16 of a device that is not hot. -/
  | retrainStep (d : Fin 16) (ch : Fin 4) (ok : Bool)
  /-- RETRAIN_WAIT (R503): A channel waiting 100 ms for a step because its device is hot sets RETRAIN_WAIT. -/
  | retrainWait (d : Fin 16)
  /-- RING_RESERVE (R515): A producer obtains a whole reservation, or waits or discards with DROPS and FULL_EV. -/
  | ringReserve (ring : BitVec 20) (n : Nat)
  /-- PROD_ADVANCE (R516): PROD advances over a reservation once all its entries and earlier ones have arrived. -/
  | prodAdvance (ring : BitVec 20)
  /-- RING_DOORBELL (R517): A write of RING_DB_PROD moves PROD of a host-produced ring after checks. -/
  | ringDoorbell (ring : BitVec 20) (prod : BitVec 32)
  /-- SUB_EVICTION (R522): A stalled network subscriber on a full ring is evicted after SUB_TMO ms. -/
  | subEviction (sub : Fin 1024)
  /-- CONTEXT_LOAD (R525): A context missing from the cache is loaded from the table, or reloaded after a parity failure. -/
  | contextLoad (ring : BitVec 20) (parity : Bool)
  /-- DMA_DESC_FETCH (R529): A fetched DMA descriptor is checked and its copy started, or the channel halts with CODE 4. -/
  | dmaDescFetch (c : Fin 64)
  /-- DMA_DESC_END (R532): A descriptor ends: status written back, DONE_EV set, and the channel follows LINK or parks. -/
  | dmaDescEnd (c : Fin 64)
  /-- DMA_BUS_ERROR (R535): An error response halts the channel with CODE 3 and latches address, direction and residue. -/
  | dmaBusError (c : Fin 64)
  /-- HANK_JOB_TAKE (R559): A codec takes the next host job from its ring onto a host lane, or ends it with BAD_JOB. -/
  | hankJobTake (codec : Fin 9)
  /-- HANK_BLOCK_DONE (R547): A lane finishes compressing or decoding one block, or stops at a decode error. -/
  | hankBlockDone (codec : Fin 9) (lane : Fin 32)
  /-- HANK_DISABLE (R560): Clearing EN lets running jobs finish their block and end with STOPPED. -/
  | hankDisable (codec : Fin 9)
  /-- ETH_FRAME_RECEIVED (R567): A received frame is checked and accepted or discarded, and handed to ARP, ICMP, PTP, PRP or the command layer. -/
  | ethFrameReceived (port : Fin 2) (frame : List Byte) (fcsOk : Bool)
  /-- LINK_UP (R568): PCS alignment and FEC lock held for 100 ms bring a port's link up. -/
  | linkUp (port : Fin 2)
  /-- LINK_DOWN (R568): Loss or remote fault for 10 µs takes a port's link down. -/
  | linkDown (port : Fin 2) (remFault : Bool)
  /-- PORT_REVERT (R575): With REVERT, the device returns to PREF_PORT after its link has been up 10 s. -/
  | portRevert
  /-- NEIGHBOUR_TIMEOUT (R571): A frame waiting 1 s for address resolution is discarded. -/
  | neighbourTimeout (port : Fin 2)
  /-- PRP_SUPERVISION (R576): Every 2 s under PRP a supervision frame is sent. -/
  | prpSupervision
  /-- LAUNCH_DUE (R581): A launch queue's head frame is sent at its launch time, or handled as late. -/
  | launchDue (q : Fin 8)
  /-- STREAM_FLUSH_TIMER (R587): The oldest unsent entry visible for FLUSH_US sends a datagram. -/
  | streamFlushTimer (sub : Fin 1024)
  /-- SENT_HOLD_EXPIRY (R588): A network subscriber's cursor passes an entry SENT_HOLD µs after its datagram left. -/
  | sentHoldExpiry (sub : Fin 1024)
  /-- TIME_ADJ_WRITE (R591): A write of TIME_ADJ adds DELTA to the increment for TICKS ticks. -/
  | timeAdjWrite (delta : BitVec 32) (ticks : BitVec 32)
  /-- TIME_ADJ_END (R591): After TICKS ticks the adjustment ends. -/
  | timeAdjEnd
  /-- TIME_INCR_WRITE (R600): A firmware write of TIME_INCR sets the increment and ends a servo fall-back. -/
  | timeIncrWrite (incr : BitVec 48)
  /-- TIME_STEP_WRITE (R593): A write of TIME_STEP steps the clock while no group runs and sets STEP_EV. -/
  | timeStepWrite (step : BitVec 64)
  /-- PTP_ANNOUNCE_RECEIVED (R596): An Announce feeds the domain's best-master selection. -/
  | ptpAnnounceReceived (port : Fin 2) (frame : List Byte)
  /-- PTP_SYNC_RECEIVED (R597): A completed Sync yields an offset and path delay, updates lock state and drives the servo. -/
  | ptpSyncReceived (port : Fin 2) (domain : Fin 2) (t1 : Int) (t2 : Int)
  /-- PTP_DELAY_REQ_SEND (R596): A Delay_Req is sent at the interval given by the master. -/
  | ptpDelayReqSend (domain : Fin 2)
  /-- PTP_DELAY_RESP_RECEIVED (R597): A Delay_Resp completes the delay measurement. -/
  | ptpDelayRespReceived (domain : Fin 2) (t4 : Int)
  /-- ANNOUNCE_TIMEOUT (R598): An Announce receipt timeout loses LOCKED, sets LOSS_A_EV or LOSS_B_EV and may switch domain. -/
  | announceTimeout (domain : Fin 2)
  /-- SERVO_FALLBACK (R600): No firmware TIME_INCR write for FW_TMO ms starts the hardware servo and sets FB_EV. -/
  | servoFallback
  /-- PTP_RETURN (R601): PREF locked for RETURN_S seconds switches back to PREF. -/
  | ptpReturn
  /-- VIEW_ROW (R613): A view row is produced once its last course's seam output is complete, or skipped under load. -/
  | viewRow (v : Fin 16) (skip : Bool)
  /-- LOOKBACK_ROW (R615): Every 4 courses a look-back row is written to the circular store. -/
  | lookbackRow (g : Fin 16)
  /-- LOOKBACK_PACE (R616): A look-back view produces one row every PACE µs, or stops with LB_END. -/
  | lookbackPace (v : Fin 16)
  /-- VBLANK_LATCH (R621): At each vertical blank the source latches each view's newest complete row. -/
  | vblankLatch
  /-- HPD_PLUG (R619): HPD high for 100 ms is a plug; DPCD and EDID are read and the link trained. -/
  | hpdPlug (maxRate : Fin 5) (maxLanes : Fin 5) (edid : List Byte) (trains : List (Fin 5 × Fin 5))
  /-- HPD_UNPLUG (R619): HPD low for more than 2 ms is an unplug and output stops. -/
  | hpdUnplug
  /-- IRQ_HPD (R619): A low pulse of 0.25 to 2 ms reads the link status and retrains if lost. -/
  | irqHpd (linkLost : Bool) (trains : List (Fin 5 × Fin 5))
  /-- TOUCH_READ (R623): PNL_INT low, then every 1 ms while it stays low, starts a touch read. -/
  | touchRead
  /-- TOUCH_READ_DONE (R623): A touch read ends, writing a panel entry or counting TOUCH_NACK. -/
  | touchReadDone (ack : Bool) (bytes : List Byte)
  /-- I2C_CMD (R624): A write of I2C_CMD starts a host transfer on the panel bus. -/
  | i2cCmd (addr : BitVec 7) (wlen : BitVec 6) (rlen : BitVec 6)
  /-- I2C_DONE (R624): A host panel transfer ends, setting DONE or NACK. -/
  | i2cDone (ack : Bool) (bytes : List Byte)
  /-- KEY_SAMPLE (R625): Every 0.5 ms keys are sampled; an accepted change makes a press or release event. -/
  | keySample (levels : BitVec 16)
  /-- LED_BLINK_TOGGLE (R626): Blinking LEDs toggle at 1 Hz or 4 Hz in phase. -/
  | ledBlinkToggle (fast : Bool)
  /-- BUZ_START (R627): START in BUZ_CTRL starts the buzzer pattern from its beginning. -/
  | buzStart
  /-- BUZ_STOP (R627): STOP in BUZ_CTRL silences the buzzer. -/
  | buzStop
  /-- BUZ_PHASE_END (R627): The end of a BUZ_ON or BUZ_OFF interval advances the buzzer pattern. -/
  | buzPhaseEnd
  /-- PRODUCER_FIRE (R633): A producer fires and every yarn channel whose mask holds it fires its forks to their task inputs. -/
  | producerFire (n : Fin 256)
  /-- YARN_FIRE (R645): A write of YARN_FIRE fires a channel as a producer would. -/
  | yarnFire (c : Fin 64)
  /-- STORM_WINDOW_END (R647): At each window end channel counts are copied and compared; a storm sets STORM_CH and fires YARN_STORM. -/
  | stormWindowEnd
  /-- AUX_CLK_WRITE (R649): A write of MDIV_k restarts modulator clock k from a low pin. -/
  | auxClkWrite (k : Fin 4) (mdiv : BitVec 8)
  /-- AUX_RUN_RISE (R654): RUN rising clears the filter state, after the MAC-load check. -/
  | auxRunRise (c : Fin 32)
  /-- AUX_RUN_FALL (R654): RUN falling stops the channel at once and writes a partial ring entry. -/
  | auxRunFall (c : Fin 32)
  /-- AUX_OUTPUT (R655): A y3 sample updates AUX_VALUE and the consumers, the threshold and the ring, as a class 3 input. -/
  | auxOutput (c : Fin 32) (mdat : List (Bool × Bool))
  /-- AUX_SYNC_WRITE (R658): A write of SYNC makes a sync and, with DRIVE, pulses AUXSYNC. -/
  | auxSyncWrite
  /-- AUXSYNC_EDGE (R658): A rising edge on the AUXSYNC pin makes a sync. -/
  | auxsyncEdge
  /-- SYNC_PHASE_RESET (R658): At the next modulator edge after a sync each running channel resets its decimation phase. -/
  | syncPhaseReset (c : Fin 32)
  /-- REPLAY_ARM (R664): ARM written 1 empties the stores and enters ARMED. -/
  | replayArm
  /-- REPLAY_DISARM (R664): ARM written 0 enters DISARMED. -/
  | replayDisarm
  /-- FREEZE_INSTANT (R673): At the boundary where the device course view reaches T + POST, the window is frozen and FREEZE_EV set. -/
  | freezeInstant
  /-- EXPORT_END (R675): The bundle is written, the state returns to FROZEN and EXPORT_EV is set. -/
  | exportEnd
  /-- RERUN_COURSE (R678): The re-run issues the next course no closer than RR_PERIOD, applying journal records and captured lines. -/
  | rerunCourse (g : Fin 16)
  /-- CHANNEL_FAULT_DETECT (R683): A parity or residue check fails in a channel stage; the course commits nothing and the fault is logged. -/
  | channelFaultDetect (ch : Fin 128)
  /-- SPARE_TAKEOVER (R684): The spare takes the failed channel's lane and starts at its oldest uncommitted course, or the channel is masked. -/
  | spareTakeover (region : Fin 8)
  /-- RGN_RESTORE (R685): A write of RGN_RESTORE returns a failed channel to service while its group is stopped. -/
  | rgnRestore (region : Fin 8) (mask : BitVec 16)
  /-- CLUSTER_FAULT (R22): A detected fault outside a single unit stops the cluster's pixel work and is reported with a CLUSTER_FAULT log entry. -/
  | clusterFault (c : Fin 32)
  /-- REGION_FAULT (R688): A detected region-level fault stops the region's pixel work, is contained there, and is reported with a REGION_FAULT log entry. -/
  | regionFault (region : Fin 8)
  /-- DIE_LINK_FAULT (R22): A fault of a die link sets FAULT_EV, stops every group whose run crosses that link and writes a DIE_LINK log entry. -/
  | dieLinkFault (l : Fin 7)
  /-- RERUN_LOADED (R678): When the re-run has copied its sections and loaded the K0 checkpoints, it disables the ring fields, switches the captured lanes to the memory source, and RSTATE moves from loading to running. -/
  | rerunLoaded
  deriving DecidableEq, Repr

end Sys2Proof
end

