-- ==== Sys2Proof/Decode.lean ====
section
/-!
DEFINITION. The table's words. spec/opcode_table.json gives no row any bits (every row's list of fields is empty), so
no word spells a command, and the reader of words answers none.
-/

namespace Sys2Proof

/-- The command a word of `nbits` bits spells by the table's bits: none, since no row has any. -/
def decodeTableWord (_nbits _w : Nat) : Option Instr := none

end Sys2Proof
end

