-- ==== Sys2Proof/Config.lean ====
section
/-!
DEFINITION. The constants of the machine that nothing fixes: free values. Each is an uninterpreted function of a plain
counter of the state (or of the operands it depends on); nothing can be proved of its value.
-/

namespace Sys2Proof

/-- A free value of `w` bits, fresh for each value of the state's counter (log entry 6). -/
opaque Config.freeBits : (w : Nat) → Nat → BitVec w

/-- The bytes of a checkpoint, whose layout the firmware defines (R671, log entry 12). -/
opaque Config.ckptBytes : {α : Type} → α → List Byte

/-- The state read from the bytes of a checkpoint (R678, log entry 12). -/
opaque Config.ckptState : (α : Type) → List Byte → Option α

/-- The hub die revision that the fuse array gives (R449): the spec names no bits for it (log entry 27). -/
opaque Config.dieRev : BitVec 8

end Sys2Proof
end

