-- ==== Sys2Proof/Machine/RegTable.lean ====
section
/-!
DEFINITION. The register map: every register field of the spec's register tables (its offset in its block, its bits,
its reset value, and whether it is a pattern field), the base address of every block (R406 to R410), and the table
by which a 32-bit register address is decoded (R5, R7, R372). Field names are the manual's: `F.<REGISTER>_<FIELD>`,
the index letter of a repeated register left out (`Fld.nth` gives its copies). Fields whose Reset column reads
"image" or "fuse" are 0 until cast-on sets them (log entry 2).
-/

namespace Sys2Proof.Machine

/-- A register field: byte offset in its block, top and low bit, reset value, `pat` for a P field (R7, R10), and
`stride`, the distance of the copies of a repeated register. -/
structure Fld where
  off : Nat
  hi : Nat
  lo : Nat
  rst : Nat
  pat : Bool
  stride : Nat
  deriving DecidableEq, Repr

/-- Copy `k` of a repeated register's field. -/
def Fld.nth (f : Fld) (k : Nat) : Fld :=
  { off := f.off + k * f.stride, hi := f.hi, lo := f.lo, rst := f.rst, pat := f.pat, stride := f.stride }

/-- The width of a field in bits. -/
def Fld.width (f : Fld) : Nat := f.hi - f.lo + 1

/-- The key of a field of the block at address `b` in the register file: address and low bit together. -/
def Fld.key (f : Fld) (b : Nat) : Nat := (b + f.off) * 64 + f.lo

/-- The Access column (R5). -/
inductive Acc where
  | rw | ro | w1c | wo | rc
  deriving DecidableEq, Repr

/-- The Kind column (R7). -/
inductive Kind where
  | L | P | S
  deriving DecidableEq, Repr

/-- One row of a register table: the field, its access, its kind, and the range rule of its Effect column. -/
structure FldSpec where
  name : String
  fld : Fld
  acc : Acc
  kind : Kind
  ok : Nat → Bool

/-- A register: its name, offset, the stride and number of its copies, its width in bits, and its fields. -/
structure RegSpec where
  name : String
  off : Nat
  stride : Nat
  count : Nat
  bits : Nat
  fields : List FldSpec

/-- The blocks of R407 to R410, and the parts of them whose registers repeat. -/
inductive Area where
  | pos | crs | syncR | ing | corr | cal | seam | gseam | seg | gseg | gtally | te | cmp | cmpG | th | cmd | pat | dev | fuse | cores | clk | pwr | therm | dlink | cl | mc | ring | dma | dmaG | hkHub | hkRgn | eth | net | tim | view | lb | pal | dp | dw | pnl | yc | yarn | aux | auxG | auxC | rep | fm | spare | rgn
  deriving DecidableEq, Repr

/-- A range rule: the least and the greatest value. -/
def rng (lo hi v : Nat) : Bool := decide (lo ≤ v) && decide (v ≤ hi)

/-- An alignment rule. -/
def aligned (n v : Nat) : Bool := v % n == 0

/-- MDIV_k: 0, or 4 to 124 (R649). -/
def mdivOk (v : Nat) : Bool := v == 0 || rng 4 124 v

/-- No range rule: every value the field's bits can hold. -/
def anyVal (_ : Nat) : Bool := true


/-! R82 (02_courses) -/
def F.POS_CTRL_IDX_MODE : Fld := ⟨0x0, 9, 9, 0, false, 0⟩
def F.POS_CTRL_ZPOL : Fld := ⟨0x0, 8, 8, 0, false, 0⟩
def F.POS_CTRL_FILT : Fld := ⟨0x0, 7, 4, 3, false, 0⟩
def F.POS_CTRL_DIR : Fld := ⟨0x0, 3, 3, 0, false, 0⟩
def F.POS_CTRL_RUN : Fld := ⟨0x0, 2, 2, 0, false, 0⟩
def F.POS_CTRL_MODE : Fld := ⟨0x0, 1, 0, 0, false, 0⟩
def F.POS_COUNT_COUNT : Fld := ⟨0x8, 63, 0, 0, false, 0⟩
def F.POS_STATUS_VALID : Fld := ⟨0x10, 8, 8, 0, false, 0⟩
def F.POS_STATUS_INDEX_SLIP : Fld := ⟨0x10, 7, 7, 0, false, 0⟩
def F.POS_STATUS_OVERSPEED : Fld := ⟨0x10, 6, 6, 0, false, 0⟩
def F.POS_STATUS_SER_TIMEOUT : Fld := ⟨0x10, 5, 5, 0, false, 0⟩
def F.POS_STATUS_SER_ERRBIT : Fld := ⟨0x10, 4, 4, 0, false, 0⟩
def F.POS_STATUS_SER_CRC : Fld := ⟨0x10, 3, 3, 0, false, 0⟩
def F.POS_STATUS_HALL_SKIP : Fld := ⟨0x10, 2, 2, 0, false, 0⟩
def F.POS_STATUS_HALL_STATE : Fld := ⟨0x10, 1, 1, 0, false, 0⟩
def F.POS_STATUS_QUAD_ERR : Fld := ⟨0x10, 0, 0, 0, false, 0⟩
def F.POS_SPEED_SPEED : Fld := ⟨0x14, 31, 0, 0, false, 0⟩
def F.IDX_PERIOD : Fld := ⟨0x18, 31, 0, 0, false, 0⟩
def F.IDX_CFG_IDX_EN : Fld := ⟨0x1C, 16, 16, 0, false, 0⟩
def F.IDX_CFG_IDX_TOL : Fld := ⟨0x1C, 15, 0, 0, false, 0⟩
def F.IDX_ERR : Fld := ⟨0x20, 31, 0, 0, false, 0⟩
def F.IDX_ERR_POS : Fld := ⟨0x28, 63, 0, 0, false, 0⟩
def F.SER_CFG_SER_TMO : Fld := ⟨0x30, 31, 24, 0x10, false, 0⟩
def F.SER_CFG_SCK_DIV : Fld := ⟨0x30, 23, 16, 0x19, false, 0⟩
def F.SER_CFG_SER_PER : Fld := ⟨0x30, 15, 10, 1, false, 0⟩
def F.SER_CFG_CRC_LEN : Fld := ⟨0x30, 9, 6, 6, false, 0⟩
def F.SER_CFG_WIDTH : Fld := ⟨0x30, 5, 0, 0x18, false, 0⟩
def F.SER_POLY : Fld := ⟨0x34, 15, 0, 3, false, 0⟩
def F.CRS_CTRL_CLOSE_DLY : Fld := ⟨0x0, 26, 16, 0xc8, false, 0⟩
def F.CRS_CTRL_TIMER : Fld := ⟨0x0, 3, 3, 0, false, 0⟩
def F.CRS_CTRL_SRC : Fld := ⟨0x0, 2, 0, 0, false, 0⟩
def F.CRS_N_N : Fld := ⟨0x4, 24, 0, 1, false, 0⟩
def F.CRS_D_D : Fld := ⟨0x8, 24, 0, 1, false, 0⟩
def F.CRS_PHASE_PHASE_INIT : Fld := ⟨0xC, 24, 0, 0, false, 0⟩
def F.CRS_TIMER_TIMER_PER : Fld := ⟨0x10, 31, 0, 0x1f40000, false, 0⟩
def F.CRS_PITCH_PITCH : Fld := ⟨0x14, 31, 0, 0, false, 0⟩
def F.CRS_COUNT_COURSE : Fld := ⟨0x18, 63, 0, 0, false, 0⟩
def F.CRS_HWM_HWM : Fld := ⟨0x20, 63, 0, 0, false, 0⟩
def F.CRS_STATUS_SRC_FAULT : Fld := ⟨0x28, 2, 2, 0, false, 0⟩
def F.CRS_STATUS_OVERRATE : Fld := ⟨0x28, 1, 1, 0, false, 0⟩
def F.CRS_STATUS_SYNC_SLIP : Fld := ⟨0x28, 0, 0, 0, false, 0⟩
def F.CRS_DROPS_DROPS : Fld := ⟨0x2C, 31, 0, 0, false, 0⟩
def F.CRS_LATE_COUNT : Fld := ⟨0x48, 31, 0, 0, false, 4⟩
def F.SYNC_CTRL_SYNC_TOL : Fld := ⟨0x0, 31, 24, 8, false, 0⟩
def F.SYNC_CTRL_SYNC_LOG : Fld := ⟨0x0, 15, 11, 0, false, 0⟩
def F.SYNC_CTRL_SYNC_GROUP : Fld := ⟨0x0, 6, 3, 0, false, 0⟩
def F.SYNC_CTRL_SYNC_MODE : Fld := ⟨0x0, 1, 0, 0, false, 0⟩

/-! R140 (03_skein_link) -/
def F.LANE_CTRL_IDLE_REQ : Fld := ⟨0x0, 11, 11, 0, false, 0⟩
def F.LANE_CTRL_ADAPT_FREEZE : Fld := ⟨0x0, 10, 10, 0, false, 0⟩
def F.LANE_CTRL_FIR_OVR : Fld := ⟨0x0, 9, 9, 0, false, 0⟩
def F.LANE_CTRL_PRECODE_ALLOW : Fld := ⟨0x0, 8, 8, 1, false, 0⟩
def F.LANE_CTRL_BOND : Fld := ⟨0x0, 7, 6, 0, false, 0⟩
def F.LANE_CTRL_EXPECT_EN : Fld := ⟨0x0, 5, 5, 0, false, 0⟩
def F.LANE_CTRL_SRC_SEL : Fld := ⟨0x0, 4, 4, 0, false, 0⟩
def F.LANE_CTRL_PACE : Fld := ⟨0x0, 3, 3, 0, false, 0⟩
def F.LANE_CTRL_EN : Fld := ⟨0x0, 0, 0, 0, false, 0⟩
def F.LANE_STATUS_STATE : Fld := ⟨0x4, 7, 4, 0, false, 0⟩
def F.LANE_STATUS_PRECODE_RX : Fld := ⟨0x4, 3, 3, 0, false, 0⟩
def F.LANE_STATUS_PRECODE_TX : Fld := ⟨0x4, 2, 2, 0, false, 0⟩
def F.LANE_STATUS_LOS : Fld := ⟨0x4, 1, 1, 1, false, 0⟩
def F.LANE_STATUS_LOCK : Fld := ⟨0x4, 0, 0, 0, false, 0⟩
def F.LANE_EVENT_IDLE_TMO : Fld := ⟨0x8, 9, 9, 0, false, 0⟩
def F.LANE_EVENT_HCRC_ERR : Fld := ⟨0x8, 8, 8, 0, false, 0⟩
def F.LANE_EVENT_VC_ERR : Fld := ⟨0x8, 7, 7, 0, false, 0⟩
def F.LANE_EVENT_BOND_SKEW : Fld := ⟨0x8, 6, 6, 0, false, 0⟩
def F.LANE_EVENT_IDENT_MISMATCH : Fld := ⟨0x8, 5, 5, 0, false, 0⟩
def F.LANE_EVENT_TRAIN_FAIL : Fld := ⟨0x8, 4, 4, 0, false, 0⟩
def F.LANE_EVENT_LOL_EV : Fld := ⟨0x8, 3, 3, 0, false, 0⟩
def F.LANE_EVENT_LOS_EV : Fld := ⟨0x8, 2, 2, 0, false, 0⟩
def F.LANE_EVENT_REMOVE : Fld := ⟨0x8, 1, 1, 0, false, 0⟩
def F.LANE_EVENT_INSERT : Fld := ⟨0x8, 0, 0, 0, false, 0⟩
def F.LANE_HDR_ERR_HDR_ERR : Fld := ⟨0xC, 31, 0, 0, false, 0⟩
def F.LANE_PKT_ERR_HCRC_CNT : Fld := ⟨0x10, 31, 16, 0, false, 0⟩
def F.LANE_PKT_ERR_PCRC_CNT : Fld := ⟨0x10, 15, 0, 0, false, 0⟩
def F.LANE_RXEQ_CTLE : Fld := ⟨0x14, 3, 0, 0, false, 0⟩
def F.LANE_DFE_TAPS : Fld := ⟨0x18, 63, 0, 0, false, 0⟩
def F.LANE_TXFIR_POST : Fld := ⟨0x20, 20, 16, 0, false, 0⟩
def F.LANE_TXFIR_MAIN : Fld := ⟨0x20, 13, 8, 0x28, false, 0⟩
def F.LANE_TXFIR_PRE : Fld := ⟨0x20, 3, 0, 0, false, 0⟩
def F.LANE_LOS_LOS_HYS : Fld := ⟨0x24, 15, 8, 5, false, 0⟩
def F.LANE_LOS_LOS_THR : Fld := ⟨0x24, 7, 0, 0xf, false, 0⟩
def F.CAM_ID0_ID0 : Fld := ⟨0x28, 63, 0, 0, false, 0⟩
def F.CAM_ID1_ID1 : Fld := ⟨0x30, 63, 0, 0, false, 0⟩
def F.CAM_ID2_ID2 : Fld := ⟨0x38, 63, 0, 0, false, 0⟩
def F.CAM_EXPECT_VENDOR : Fld := ⟨0x40, 31, 16, 0, false, 0⟩
def F.CAM_EXPECT_MODEL : Fld := ⟨0x40, 15, 0, 0, false, 0⟩

/-! R141 (03_skein_link) -/
def F.ING_CFG_FILL : Fld := ⟨0x100, 31, 16, 0, true, 0⟩
def F.ING_CFG_LINE_LEN : Fld := ⟨0x100, 14, 0, 0x2000, false, 0⟩
def F.ING_FMT_PLANE_SEL : Fld := ⟨0x104, 9, 8, 0, false, 0⟩
def F.ING_FMT_DT_EXPECT : Fld := ⟨0x104, 7, 0, 3, false, 0⟩
def F.ING_TMO_LINE_TMO : Fld := ⟨0x108, 15, 0, 0x1f4, false, 0⟩
def F.ING_TIME_TIME_PER : Fld := ⟨0x10C, 15, 0, 0x1000, false, 0⟩
def F.ING_STATUS_DUAL_UPPER : Fld := ⟨0x110, 1, 1, 0, false, 0⟩
def F.ING_STATUS_JOINED : Fld := ⟨0x110, 0, 0, 0, false, 0⟩
def F.ING_LAST_LINE_CAM_LINE : Fld := ⟨0x114, 31, 0, 0, false, 0⟩
def F.ING_LAST_EXP_TEMP : Fld := ⟨0x118, 31, 16, 0, false, 0⟩
def F.ING_LAST_EXP_EXP_ID : Fld := ⟨0x118, 15, 0, 0, false, 0⟩
def F.SHORT_CNT_COUNT : Fld := ⟨0x120, 31, 0, 0, false, 0⟩
def F.LONG_CNT_COUNT : Fld := ⟨0x124, 31, 0, 0, false, 0⟩
def F.MISS_CNT_COUNT : Fld := ⟨0x128, 31, 0, 0, false, 0⟩
def F.CRC_CNT_COUNT : Fld := ⟨0x12C, 31, 0, 0, false, 0⟩
def F.LATE_LINE_COUNT : Fld := ⟨0x130, 31, 0, 0, false, 0⟩
def F.DUP_LINE_COUNT : Fld := ⟨0x134, 31, 0, 0, false, 0⟩
def F.ECHO_ERR_COUNT : Fld := ⟨0x138, 31, 0, 0, false, 0⟩
def F.DT_ERR_COUNT : Fld := ⟨0x13C, 31, 0, 0, false, 0⟩
def F.BUF_OVR_COUNT : Fld := ⟨0x140, 31, 0, 0, false, 0⟩
def F.CAM_RING_CAM_EN : Fld := ⟨0x148, 31, 31, 0, false, 0⟩
def F.CAM_RING_RING : Fld := ⟨0x148, 19, 0, 0, false, 0⟩
def F.MSRC_RING_RING : Fld := ⟨0x14C, 19, 0, 0, false, 0⟩

/-! R142 (03_skein_link) -/
def F.CRS_CSW_RING_CSW_EN : Fld := ⟨0x40, 31, 31, 0, false, 0⟩
def F.CRS_CSW_RING_RING : Fld := ⟨0x40, 19, 0, 0, false, 0⟩
def F.CRS_LAST_CSW_CSW : Fld := ⟨0x44, 31, 0, 0, false, 0⟩

/-! R183 (04_correction_gauge) -/
def F.CORR_CTRL_GAUGE_SINGLE : Fld := ⟨0x0, 8, 8, 0, false, 0⟩
def F.CORR_CTRL_STAT_COR_EN : Fld := ⟨0x0, 7, 7, 0, false, 0⟩
def F.CORR_CTRL_STAT_RAW_EN : Fld := ⟨0x0, 6, 6, 0, false, 0⟩
def F.CORR_CTRL_LAMP_EN : Fld := ⟨0x0, 5, 5, 0, true, 0⟩
def F.CORR_CTRL_FF_EN : Fld := ⟨0x0, 4, 4, 0, false, 0⟩
def F.CORR_CTRL_DPR_EN : Fld := ⟨0x0, 3, 3, 0, true, 0⟩
def F.CORR_CTRL_LUT_EN : Fld := ⟨0x0, 2, 2, 0, true, 0⟩
def F.CORR_STATUS_LAMP_ORDER : Fld := ⟨0x4, 8, 8, 0, false, 0⟩
def F.CORR_STATUS_GAUGE_STALE : Fld := ⟨0x4, 7, 7, 0, false, 0⟩
def F.CORR_STATUS_GAUGE_PEND : Fld := ⟨0x4, 6, 6, 0, false, 0⟩
def F.CORR_STATUS_GAUGE_EXTRAP : Fld := ⟨0x4, 5, 5, 0, false, 0⟩
def F.CORR_STATUS_GAUGE_BAD : Fld := ⟨0x4, 4, 4, 0, false, 0⟩
def F.CORR_STATUS_GAUGE_CRC : Fld := ⟨0x4, 3, 3, 0, false, 0⟩
def F.CORR_STATUS_GAUGE_MEMERR : Fld := ⟨0x4, 2, 2, 0, false, 0⟩
def F.CORR_STATUS_LAMP_INVALID : Fld := ⟨0x4, 1, 1, 0, false, 0⟩
def F.CORR_STATUS_DPR_ORDER : Fld := ⟨0x4, 0, 0, 0, false, 0⟩
def F.CLAMP_LO_COUNT : Fld := ⟨0x10, 31, 0, 0, false, 0⟩
def F.CLAMP_HI_COUNT : Fld := ⟨0x14, 31, 0, 0, false, 0⟩
def F.STAT_DROP_COUNT : Fld := ⟨0x18, 31, 0, 0, false, 0⟩
def F.GAUGE_ECC_COUNT : Fld := ⟨0x1C, 31, 0, 0, false, 0⟩
def F.DPR_USED_USED : Fld := ⟨0x20, 10, 0, 0, false, 0⟩
def F.DPR_COUNT_COUNT : Fld := ⟨0x24, 10, 0, 0, true, 0⟩
def F.GAUGE_BASE_A_ADDR : Fld := ⟨0x40, 39, 0, 0, false, 0⟩
def F.GAUGE_BASE_B_ADDR : Fld := ⟨0x48, 39, 0, 0, false, 0⟩
def F.GAUGE_CFG_SEL : Fld := ⟨0x50, 16, 16, 0, true, 0⟩
def F.GAUGE_CFG_THRESH : Fld := ⟨0x50, 15, 0, 0x40, false, 0⟩
def F.CAL_COUNT_COUNT : Fld := ⟨0x54, 31, 0, 0, false, 0⟩
def F.CAL_LAST_COURSE_COURSE : Fld := ⟨0x58, 63, 0, 0, false, 0⟩
def F.CAL_LAST_SEC_SEC : Fld := ⟨0x60, 63, 0, 0, false, 0⟩
def F.CAL_LAST_NS_NS : Fld := ⟨0x68, 31, 0, 0, false, 0⟩
def F.CAL_LAST_TEMP_TEMP : Fld := ⟨0x6C, 15, 0, 0, false, 0⟩
def F.LAMP_KNOT_KEN : Fld := ⟨0x80, 31, 31, 0, true, 16⟩
def F.LAMP_KNOT_AUX_CH : Fld := ⟨0x80, 20, 16, 0, true, 16⟩
def F.LAMP_KNOT_POS : Fld := ⟨0x80, 13, 0, 0, true, 16⟩
def F.LAMP_REF_REF : Fld := ⟨0x84, 31, 0, 0, true, 16⟩
def F.LAMP_GAIN_GAIN : Fld := ⟨0x88, 15, 0, 0x4000, false, 16⟩
def F.LAMP_SAMPLE_SAMPLE : Fld := ⟨0x8C, 31, 0, 0, false, 16⟩
def F.STAT_CFG_STAT_LEN : Fld := ⟨0x100, 31, 16, 0x1000, false, 0⟩
def F.STAT_CFG_PROF_SHIFT : Fld := ⟨0x100, 15, 12, 4, false, 0⟩
def F.STAT_CFG_PROF_EN : Fld := ⟨0x100, 11, 11, 0, false, 0⟩
def F.STAT_RING_RING : Fld := ⟨0x104, 19, 0, 0, false, 0⟩
def F.LUT_ENTRY_HI : Fld := ⟨0x2000, 31, 16, 0, true, 4⟩
def F.LUT_ENTRY_LO : Fld := ⟨0x2000, 15, 0, 0, true, 4⟩
def F.DPR_ENTRY : Fld := ⟨0x4000, 31, 0, 0, true, 4⟩

/-! R184 (04_correction_gauge) -/
def F.CAL_DEV_COUNT_COUNT : Fld := ⟨0x0, 63, 0, 0, false, 0⟩
def F.CAL_DEV_LAST_SEC_SEC : Fld := ⟨0x8, 63, 0, 0, false, 0⟩
def F.CAL_DEV_LAST_NS_NS : Fld := ⟨0x10, 31, 0, 0, false, 0⟩
def F.CAL_DEV_LAST_CH_CHANNEL : Fld := ⟨0x14, 7, 0, 0, false, 0⟩

/-! R220 (05_seam) -/
def F.SEAM_GEOM_OVL_LO : Fld := ⟨0x0, 26, 16, 0, false, 0⟩
def F.SEAM_GEOM_SPAN : Fld := ⟨0x0, 14, 0, 0x2000, false, 0⟩
def F.SEAM_ALONG_A0 : Fld := ⟨0x4, 6, 0, 0x20, true, 0⟩
def F.WARP_X0_X0 : Fld := ⟨0x8, 31, 0, 0, true, 0⟩
def F.WARP_C1_C1 : Fld := ⟨0xC, 31, 0, 0x40000000, true, 0⟩
def F.WARP_C2_C2 : Fld := ⟨0x10, 31, 0, 0, true, 0⟩
def F.WARP_C3_C3 : Fld := ⟨0x14, 31, 0, 0, true, 0⟩
def F.SEAM_INIT_DX_INIT : Fld := ⟨0x18, 31, 16, 0, true, 0⟩
def F.SEAM_INIT_DY_INIT : Fld := ⟨0x18, 7, 0, 0, true, 0⟩
def F.SEAM_BLEND_HARD : Fld := ⟨0x1C, 16, 16, 0, true, 0⟩
def F.SEAM_BLEND_CUT : Fld := ⟨0x1C, 10, 0, 0, true, 0⟩
def F.SEAM_WALE_WALE_BASE : Fld := ⟨0x20, 21, 0, 0, false, 0⟩
def F.SEAM_OWN_OWNED : Fld := ⟨0x24, 14, 0, 0, false, 0⟩
def F.CAM_DX_DX : Fld := ⟨0x28, 15, 0, 0, false, 0⟩
def F.CAM_DY_DY : Fld := ⟨0x2C, 7, 0, 0, false, 0⟩
def F.REG_STATE_HOLD_RUN : Fld := ⟨0x30, 31, 24, 0, false, 0⟩
def F.REG_STATE_STATE : Fld := ⟨0x30, 1, 0, 0, false, 0⟩
def F.REG_LAST_MX : Fld := ⟨0x34, 31, 16, 0, false, 0⟩
def F.REG_LAST_MY : Fld := ⟨0x34, 15, 0, 0, false, 0⟩
def F.REG_Q_Q : Fld := ⟨0x38, 8, 0, 0, false, 0⟩
def F.SEAM_STATUS_REG_EDGE : Fld := ⟨0x3C, 3, 3, 0, false, 0⟩
def F.SEAM_STATUS_SEAM_RANGE : Fld := ⟨0x3C, 2, 2, 0, false, 0⟩
def F.SEAM_STATUS_SEAM_LOST : Fld := ⟨0x3C, 1, 1, 0, false, 0⟩
def F.SEAM_STATUS_HOLD_EV : Fld := ⟨0x3C, 0, 0, 0, false, 0⟩
def F.REG_SKIP_COUNT : Fld := ⟨0x40, 31, 0, 0, false, 0⟩
def F.HOLD_CNT_COUNT : Fld := ⟨0x44, 31, 0, 0, false, 0⟩
def F.OOR_CNT_COUNT : Fld := ⟨0x48, 31, 0, 0, false, 0⟩

/-! R221 (05_seam) -/
def F.GRP_SEAM_ANCHOR : Fld := ⟨0x0, 22, 16, 0, false, 0⟩
def F.GRP_SEAM_COUNT : Fld := ⟨0x0, 15, 8, 1, false, 0⟩
def F.GRP_SEAM_FIRST_CH : Fld := ⟨0x0, 6, 0, 0, false, 0⟩
def F.REG_CFG_REG_EN : Fld := ⟨0x4, 31, 31, 0, true, 0⟩
def F.REG_CFG_REG_LOG : Fld := ⟨0x4, 30, 28, 0, true, 0⟩
def F.REG_CFG_REG_GAIN : Fld := ⟨0x4, 20, 16, 8, true, 0⟩
def F.REG_CFG_SLEW_Y : Fld := ⟨0x4, 15, 8, 4, true, 0⟩
def F.REG_CFG_SLEW_X : Fld := ⟨0x4, 7, 0, 4, true, 0⟩
def F.REG_CFG2_QMIN : Fld := ⟨0x8, 31, 24, 0x80, true, 0⟩
def F.REG_CFG2_ACQ_SLEW : Fld := ⟨0x8, 23, 16, 0x20, true, 0⟩
def F.REG_CFG2_REG_WIDTH : Fld := ⟨0x8, 9, 0, 0x80, true, 0⟩
def F.REG_CFG3_HOLD_MAX : Fld := ⟨0xC, 31, 24, 0x40, true, 0⟩
def F.REG_CFG3_EMIN : Fld := ⟨0xC, 15, 0, 0x40, true, 0⟩
def F.GRP_PITCH_PITCH : Fld := ⟨0x10, 31, 0, 0, true, 0⟩
def F.GRP_ORIGIN_ORIGIN : Fld := ⟨0x18, 47, 0, 0, true, 0⟩
def F.GRP_WIDTH_WIDTH : Fld := ⟨0x20, 21, 0, 0, false, 0⟩
def F.SELV_CFG_SELV_EN : Fld := ⟨0x24, 31, 31, 0, true, 0⟩
def F.SELV_CFG_POL : Fld := ⟨0x24, 30, 30, 0, true, 0⟩
def F.SELV_CFG_MASK_EN : Fld := ⟨0x24, 29, 29, 0, true, 0⟩
def F.SELV_CFG_AVG_LOG : Fld := ⟨0x24, 27, 24, 4, true, 0⟩
def F.SELV_CFG_THR : Fld := ⟨0x24, 15, 0, 0x8000, true, 0⟩
def F.SELV_LWIN_MAX : Fld := ⟨0x28, 53, 32, 0, true, 0⟩
def F.SELV_LWIN_MIN : Fld := ⟨0x28, 21, 0, 0, true, 0⟩
def F.SELV_RWIN_MAX : Fld := ⟨0x30, 53, 32, 0, true, 0⟩
def F.SELV_RWIN_MIN : Fld := ⟨0x30, 21, 0, 0, true, 0⟩
def F.SELV_MARGIN_MARGIN : Fld := ⟨0x38, 15, 0, 0x10, true, 0⟩
def F.SELV_POS_RIGHT : Fld := ⟨0x40, 63, 32, 0, false, 0⟩
def F.SELV_POS_LEFT : Fld := ⟨0x40, 31, 0, 0, false, 0⟩
def F.SELV_STATUS_RIGHT_LOST : Fld := ⟨0x48, 1, 1, 0, false, 0⟩
def F.SELV_STATUS_LEFT_LOST : Fld := ⟨0x48, 0, 0, 0, false, 0⟩
def F.SEAM_RING_RING_EN : Fld := ⟨0x4C, 31, 31, 0, false, 0⟩
def F.SEAM_RING_RING : Fld := ⟨0x4C, 19, 0, 0, false, 0⟩
def F.GRP_HOLD_HOLDING : Fld := ⟨0x50, 7, 0, 0, false, 0⟩

/-! R261 (06_segmentation) -/
def F.SEG_CH_CFG_WMASK_EN : Fld := ⟨0x0, 0, 0, 0, true, 0⟩
def F.SEG_RUNS_COUNT : Fld := ⟨0x4, 31, 0, 0, false, 0⟩
def F.SEG_HALO_WAIT_COUNT : Fld := ⟨0x8, 31, 0, 0, false, 0⟩
def F.WMASK_MASK : Fld := ⟨0x400, 31, 0, 0, true, 4⟩

/-! R262 (06_segmentation) -/
def F.SEG_CTRL_SEG_EN : Fld := ⟨0x0, 31, 31, 0, false, 0⟩
def F.SEG_CTRL_BRIDGE_EN : Fld := ⟨0x0, 30, 30, 0, true, 0⟩
def F.SEG_CTRL_FREEZE_FG : Fld := ⟨0x0, 29, 29, 1, true, 0⟩
def F.SEG_CTRL_CLASS_EN : Fld := ⟨0x0, 7, 0, 0, true, 0⟩
def F.FILT_CFG_FILT_EN : Fld := ⟨0x4, 31, 31, 0, true, 0⟩
def F.FILT_CFG_KY : Fld := ⟨0x4, 25, 24, 0, true, 0⟩
def F.FILT_CFG_KX : Fld := ⟨0x4, 17, 16, 0, true, 0⟩
def F.FILT_CFG_SHY : Fld := ⟨0x4, 12, 8, 0, true, 0⟩
def F.FILT_CFG_SHX : Fld := ⟨0x4, 4, 0, 0, true, 0⟩
def F.FILT_X_CX_HI : Fld := ⟨0x8, 31, 16, 0, true, 4⟩
def F.FILT_X_CX_LO : Fld := ⟨0x8, 15, 0, 0, true, 4⟩
def F.FILT_Y_CY_HI : Fld := ⟨0x18, 31, 16, 0, true, 4⟩
def F.FILT_Y_CY_LO : Fld := ⟨0x18, 15, 0, 0, true, 4⟩
def F.BG_CFG_BG_WARM : Fld := ⟨0x28, 31, 16, 0x1000, true, 0⟩
def F.BG_CFG_BG_LOG : Fld := ⟨0x28, 4, 0, 0xa, true, 0⟩
def F.THR_D_REL_D : Fld := ⟨0x30, 31, 16, 0, true, 8⟩
def F.THR_D_ABS_D : Fld := ⟨0x30, 15, 0, 0, true, 8⟩
def F.THR_B_REL_B : Fld := ⟨0x34, 31, 16, 0, true, 8⟩
def F.THR_B_ABS_B : Fld := ⟨0x34, 15, 0, 0, true, 8⟩
def F.MORPH_SHAPE_0 : Fld := ⟨0x50, 2, 2, 0, true, 0⟩
def F.MORPH_SHAPE_1 : Fld := ⟨0x50, 6, 6, 0, true, 0⟩
def F.MORPH_SHAPE_2 : Fld := ⟨0x50, 10, 10, 0, true, 0⟩
def F.MORPH_SHAPE_3 : Fld := ⟨0x50, 14, 14, 0, true, 0⟩
def F.MORPH_OP_0 : Fld := ⟨0x50, 1, 0, 0, true, 0⟩
def F.MORPH_OP_1 : Fld := ⟨0x50, 5, 4, 0, true, 0⟩
def F.MORPH_OP_2 : Fld := ⟨0x50, 9, 8, 0, true, 0⟩
def F.MORPH_OP_3 : Fld := ⟨0x50, 13, 12, 0, true, 0⟩
def F.LAB_CFG_SPLIT_LEN : Fld := ⟨0x54, 31, 16, 0x1000, true, 0⟩
def F.LAB_CFG_RUN_MARGIN : Fld := ⟨0x54, 4, 0, 4, false, 0⟩
def F.RUN_MAX : Fld := ⟨0x58, 23, 0, 0x100000, true, 0⟩
def F.COMP_MAX : Fld := ⟨0x5C, 16, 0, 0x10000, false, 0⟩
def F.RS_BASE_ADDR : Fld := ⟨0x60, 39, 0, 0, false, 0⟩
def F.RS_CFG_CHUNKS : Fld := ⟨0x68, 23, 0, 0, false, 0⟩
def F.DESC_RING_RING : Fld := ⟨0x6C, 19, 0, 0, false, 0⟩
def F.MASK_HOLD_NOW : Fld := ⟨0x70, 31, 31, 0, false, 0⟩
def F.MASK_HOLD_HOLD_LEN : Fld := ⟨0x70, 15, 0, 0, false, 0⟩
def F.SEG_STATUS_RUNSTORE_FULL : Fld := ⟨0x74, 3, 3, 0, false, 0⟩
def F.SEG_STATUS_OVF_EV : Fld := ⟨0x74, 2, 2, 0, false, 0⟩
def F.SEG_STATUS_HOLD_ACTIVE : Fld := ⟨0x74, 1, 1, 0, false, 0⟩
def F.SEG_STATUS_WARM : Fld := ⟨0x74, 0, 0, 0, false, 0⟩
def F.COMP_OPEN_OPEN : Fld := ⟨0x78, 16, 0, 0, false, 0⟩
def F.COMP_PEAK_PEAK : Fld := ⟨0x7C, 16, 0, 0, false, 0⟩
def F.OVF_PIX_COUNT : Fld := ⟨0x80, 63, 0, 0, false, 0⟩
def F.OVF_COURSES_COUNT : Fld := ⟨0x88, 31, 0, 0, false, 0⟩
def F.RUN_DROP_COUNT : Fld := ⟨0x8C, 31, 0, 0, false, 0⟩
def F.DESC_WAIT_COUNT : Fld := ⟨0x90, 31, 0, 0, false, 0⟩
def F.RS_FREE_FREE : Fld := ⟨0x94, 23, 0, 0, false, 0⟩
def F.DESC_COUNT_COUNT : Fld := ⟨0x98, 63, 0, 0, false, 0⟩
def F.FILT_SAT_COUNT : Fld := ⟨0xA0, 31, 0, 0, false, 0⟩

/-! R312 (07_tally_records) -/
def F.TALLY_CTRL_TALLY_EN : Fld := ⟨0x0, 31, 31, 0, false, 0⟩
def F.TALLY_CTRL_TMO : Fld := ⟨0x0, 15, 0, 0x2710, false, 0⟩
def F.TALLY_SEQ_SEQ : Fld := ⟨0x8, 45, 0, 0, false, 0⟩
def F.ENG_MASK_MASK : Fld := ⟨0x10, 31, 0, 0, false, 4⟩
def F.HIST_BASE_ADDR : Fld := ⟨0x20, 39, 0, 0, false, 0⟩
def F.ENC0 : Fld := ⟨0x28, 63, 0, 0, false, 0⟩
def F.PATCH_CFG_PATCH_EN : Fld := ⟨0x30, 31, 31, 0, true, 0⟩
def F.PATCH_CFG_PATCH_8BIT : Fld := ⟨0x30, 30, 30, 0, true, 0⟩
def F.PATCH_CFG_FILL_MODE : Fld := ⟨0x30, 29, 29, 0, true, 0⟩
def F.PATCH_CFG_PATCH_MAX : Fld := ⟨0x30, 24, 16, 0x100, true, 0⟩
def F.PATCH_CFG_PATCH_FILL : Fld := ⟨0x30, 15, 0, 0, true, 0⟩
def F.PATCH_RING_RING : Fld := ⟨0x34, 19, 0, 0, false, 0⟩
def F.RES_RING_EN : Fld := ⟨0x38, 31, 31, 0, false, 4⟩
def F.RES_RING_ORDER : Fld := ⟨0x38, 30, 30, 0, false, 4⟩
def F.RES_RING_FULL_DROP : Fld := ⟨0x38, 29, 29, 0, false, 4⟩
def F.RES_RING_RING : Fld := ⟨0x38, 19, 0, 0, false, 4⟩
def F.TALLY_STATUS_DRAIN : Fld := ⟨0x48, 4, 4, 0, false, 0⟩
def F.TALLY_STATUS_HIST_LOST_EV : Fld := ⟨0x48, 3, 3, 0, false, 0⟩
def F.TALLY_STATUS_PATCH_DROP_EV : Fld := ⟨0x48, 2, 2, 0, false, 0⟩
def F.TALLY_STATUS_TALLY_FAIL : Fld := ⟨0x48, 1, 1, 0, false, 0⟩
def F.TALLY_STATUS_ENG_FAULT : Fld := ⟨0x48, 0, 0, 0, false, 0⟩
def F.JOBS_OPEN_OPEN : Fld := ⟨0x4C, 15, 0, 0, false, 0⟩
def F.REDISPATCH_COUNT : Fld := ⟨0x50, 31, 0, 0, false, 0⟩
def F.PATCH_DROP_COUNT : Fld := ⟨0x54, 31, 0, 0, false, 0⟩
def F.RES_DROP_COUNT : Fld := ⟨0x58, 31, 0, 0, false, 4⟩
def F.REC_COUNT_COUNT : Fld := ⟨0x68, 63, 0, 0, false, 0⟩
def F.SLOT_CTRL_EN : Fld := ⟨0x80, 31, 31, 0, true, 16⟩
def F.SLOT_CTRL_CLASS_MASK : Fld := ⟨0x80, 7, 0, 0, true, 16⟩
def F.SLOT_AMIN_AREA_MIN : Fld := ⟨0x84, 31, 0, 0, true, 16⟩
def F.SLOT_AMAX_AREA_MAX : Fld := ⟨0x88, 31, 0, 0xffffffff, true, 16⟩
def F.SLOT_DESC_ADDR : Fld := ⟨0x8C, 31, 0, 0, true, 16⟩

/-! R313 (07_tally_records) -/
def F.TE_STATUS_GROUP : Fld := ⟨0x0, 15, 8, 0, false, 0⟩
def F.TE_STATUS_PARITY : Fld := ⟨0x0, 5, 5, 0, false, 0⟩
def F.TE_STATUS_RESIDUE : Fld := ⟨0x0, 4, 4, 0, false, 0⟩
def F.TE_STATUS_TIMEOUT : Fld := ⟨0x0, 3, 3, 0, false, 0⟩
def F.TE_STATUS_STATE : Fld := ⟨0x0, 1, 0, 0, false, 0⟩
def F.TE_CTRL_RESTORE : Fld := ⟨0x4, 0, 0, 0, false, 0⟩
def F.TE_JOBS_COUNT : Fld := ⟨0x8, 63, 0, 0, false, 0⟩
def F.TE_FAULTS_COUNT : Fld := ⟨0x10, 31, 0, 0, false, 0⟩

/-! R351 (08_marking) -/
def F.CMP_CTRL_EN : Fld := ⟨0x0, 31, 31, 0, false, 0⟩
def F.CMP_CTRL_FILL_EN : Fld := ⟨0x0, 30, 30, 0, false, 0⟩
def F.CMP_CTRL_FIRST_ONLY : Fld := ⟨0x0, 29, 29, 0, false, 0⟩
def F.CMP_CTRL_LATE_MODE : Fld := ⟨0x0, 28, 28, 0, false, 0⟩
def F.CMP_CTRL_POL : Fld := ⟨0x0, 27, 27, 0, false, 0⟩
def F.CMP_CTRL_OUT_SEL : Fld := ⟨0x0, 26, 26, 0, false, 0⟩
def F.CMP_CTRL_HOLD_EN : Fld := ⟨0x0, 25, 25, 1, false, 0⟩
def F.CMP_CTRL_FLOG_EN : Fld := ⟨0x0, 24, 24, 0, false, 0⟩
def F.CMP_CTRL_FILL_GROUP : Fld := ⟨0x0, 23, 20, 0, false, 0⟩
def F.CMP_CTRL_SRC : Fld := ⟨0x0, 2, 0, 0, false, 0⟩
def F.CMP_PULSE_LEAD_US : Fld := ⟨0x4, 31, 16, 0, false, 0⟩
def F.CMP_PULSE_PULSE_W : Fld := ⟨0x4, 15, 0, 0x3e8, false, 0⟩
def F.CMP_DIST_DIST : Fld := ⟨0x8, 63, 0, 0, false, 0⟩
def F.CMP_XMIN_XMIN : Fld := ⟨0x10, 63, 0, 0x8000000000000000, false, 0⟩
def F.CMP_XMAX_XMAX : Fld := ⟨0x18, 63, 0, 0x7fffffffffffffff, false, 0⟩
def F.CMP_SCORE_SCORE_MIN : Fld := ⟨0x20, 15, 0, 0x8000, false, 0⟩
def F.CMP_FILL_RING_RING : Fld := ⟨0x24, 19, 0, 0, false, 0⟩
def F.CMP_FLOG_RING_RING : Fld := ⟨0x28, 19, 0, 0, false, 0⟩
def F.CMP_LABEL_MASK : Fld := ⟨0x30, 31, 0, 0, false, 4⟩
def F.CMP_HWM_CHWM : Fld := ⟨0x50, 63, 0, 0, false, 0⟩
def F.CMP_NEXT_POS : Fld := ⟨0x58, 63, 0, 0x7fffffffffffffff, false, 0⟩
def F.CMP_STATUS_ENTRIES : Fld := ⟨0x60, 28, 16, 0, false, 0⟩
def F.CMP_STATUS_ACTIVE : Fld := ⟨0x60, 3, 3, 0, false, 0⟩
def F.CMP_STATUS_FIRE_EV : Fld := ⟨0x60, 2, 2, 0, false, 0⟩
def F.CMP_STATUS_LATE : Fld := ⟨0x60, 1, 1, 0, false, 0⟩
def F.CMP_STATUS_FULL : Fld := ⟨0x60, 0, 0, 0, false, 0⟩
def F.CMP_LEAD_CNT_LEAD_CNT : Fld := ⟨0x64, 31, 0, 0, false, 0⟩
def F.CMP_FIRES_COUNT : Fld := ⟨0x68, 31, 0, 0, false, 0⟩
def F.CMP_LATE_COUNT : Fld := ⟨0x6C, 31, 0, 0, false, 0⟩
def F.CMP_DROP_COUNT : Fld := ⟨0x70, 31, 0, 0, false, 0⟩
def F.CMP_MERGE_COUNT : Fld := ⟨0x74, 31, 0, 0, false, 0⟩
def F.CMP_HELD_COUNT : Fld := ⟨0x78, 31, 0, 0, false, 0⟩
def F.FLOG_DROP_COUNT : Fld := ⟨0x7C, 31, 0, 0, false, 0⟩
def F.LIST_POS_POS : Fld := ⟨0x80, 63, 0, 0, false, 0⟩
def F.LIST_ID_ID : Fld := ⟨0x88, 63, 0, 0, false, 0⟩
def F.LIST_CMD_CLEAR : Fld := ⟨0x90, 1, 1, 0, false, 0⟩
def F.LIST_CMD_INSERT : Fld := ⟨0x90, 0, 0, 0, false, 0⟩
def F.MARK_HOLD_CTRL_HOLD : Fld := ⟨0x1000, 0, 0, 0, false, 0⟩

/-! R352 (08_marking) -/
def F.TH_CTRL_TH_EN : Fld := ⟨0x0, 31, 31, 0, false, 0⟩
def F.TH_CTRL_STAGGER : Fld := ⟨0x0, 30, 30, 0, false, 0⟩
def F.TH_CTRL_TEMP_INV : Fld := ⟨0x0, 29, 29, 0, false, 0⟩
def F.TH_CTRL_AUTH_REQ : Fld := ⟨0x0, 28, 28, 0, false, 0⟩
def F.TH_CTRL_TH_AUX : Fld := ⟨0x0, 20, 16, 0, false, 0⟩
def F.TH_CTRL_TH_SRC : Fld := ⟨0x0, 14, 12, 0, false, 0⟩
def F.TH_CTRL_DOTS : Fld := ⟨0x0, 11, 0, 0x800, false, 0⟩
def F.TH_TIME_CLK_DIV : Fld := ⟨0x4, 31, 24, 6, false, 0⟩
def F.TH_TIME_LINE_PER : Fld := ⟨0x4, 15, 0, 0x3e8, false, 0⟩
def F.TH_BAND_BAND : Fld := ⟨0x8, 31, 0, 0, false, 4⟩
def F.TH_SOFT_SOFT : Fld := ⟨0x18, 31, 0, 0x7fffffff, false, 0⟩
def F.TH_HARD_HARD : Fld := ⟨0x1C, 31, 0, 0x7fffffff, false, 0⟩
def F.TH_HYST_HYST : Fld := ⟨0x20, 31, 0, 0, false, 0⟩
def F.TH_ENERGY_E_HI : Fld := ⟨0x40, 27, 16, 0, false, 4⟩
def F.TH_ENERGY_E_LO : Fld := ⟨0x40, 11, 0, 0, false, 4⟩
def F.TH_JOB_RING_RING : Fld := ⟨0x60, 19, 0, 0, false, 0⟩
def F.TH_RES_RING_RING : Fld := ⟨0x64, 19, 0, 0, false, 0⟩
def F.TH_DMA_CHANNEL : Fld := ⟨0x68, 5, 0, 0, false, 0⟩
def F.TPL_BASE_ADDR : Fld := ⟨0x70, 39, 0, 0, false, 0⟩
def F.TPL_CFG_TPL_FEED : Fld := ⟨0x78, 31, 16, 0, false, 0⟩
def F.TPL_CFG_TPL_LINES : Fld := ⟨0x78, 15, 0, 0, false, 0⟩
def F.TH_STATUS_TEMP_WAIT : Fld := ⟨0x80, 9, 9, 1, false, 0⟩
def F.TH_STATUS_BUSY : Fld := ⟨0x80, 8, 8, 0, false, 0⟩
def F.TH_STATUS_CASS_OK : Fld := ⟨0x80, 7, 7, 0, false, 0⟩
def F.TH_STATUS_CASS_FAIL : Fld := ⟨0x80, 6, 6, 0, false, 0⟩
def F.TH_STATUS_CASS_EV : Fld := ⟨0x80, 5, 5, 0, false, 0⟩
def F.TH_STATUS_VOID_EV : Fld := ⟨0x80, 4, 4, 0, false, 0⟩
def F.TH_STATUS_SOFT_EV : Fld := ⟨0x80, 3, 3, 0, false, 0⟩
def F.TH_STATUS_JAM : Fld := ⟨0x80, 2, 2, 0, false, 0⟩
def F.TH_STATUS_STOCK : Fld := ⟨0x80, 1, 1, 0, false, 0⟩
def F.TH_STATUS_OPEN : Fld := ⟨0x80, 0, 0, 0, false, 0⟩
def F.CASS_COUNT_COUNT : Fld := ⟨0x84, 31, 0, 0, false, 0⟩
def F.CASS_SERIAL_SERIAL : Fld := ⟨0x88, 63, 0, 0, false, 0⟩
def F.VOID_CNT_COUNT : Fld := ⟨0x90, 31, 0, 0, false, 0⟩
def F.SOFT_CNT_COUNT : Fld := ⟨0x94, 31, 0, 0, false, 0⟩
def F.UNDERRUN_COUNT : Fld := ⟨0x98, 31, 0, 0, false, 0⟩
def F.AUTO_DROP_COUNT : Fld := ⟨0x9C, 31, 0, 0, false, 0⟩
def F.TH_REMAP_SLOT_HI : Fld := ⟨0x1000, 31, 16, 0, false, 4⟩
def F.TH_REMAP_SLOT_LO : Fld := ⟨0x1000, 15, 0, 0, false, 4⟩

/-! R385 (09_commands) -/
def F.CMD_CFG_UDP_PORT : Fld := ⟨0x0, 31, 16, 0x9e3e, false, 0⟩
def F.CMD_CFG_AUTH_RATE : Fld := ⟨0x0, 15, 0, 0x64, false, 0⟩
def F.CMD_STATUS_SESSIONS : Fld := ⟨0x4, 23, 16, 0, false, 0⟩
def F.CMD_STATUS_HELD : Fld := ⟨0x4, 12, 0, 0, false, 0⟩
def F.CMD_EVENT_HELD_EV : Fld := ⟨0x8, 1, 1, 0, false, 0⟩
def F.CMD_EVENT_AUTH_EV : Fld := ⟨0x8, 0, 0, 0, false, 0⟩
def F.CMD_FRAME_DROP_COUNT : Fld := ⟨0xC, 31, 0, 0, false, 0⟩
def F.CMD_AUTH_FAIL_COUNT : Fld := ⟨0x10, 31, 0, 0, false, 0⟩
def F.CMD_NO_SESSION_COUNT : Fld := ⟨0x14, 31, 0, 0, false, 0⟩
def F.CMD_RATE_DROP_COUNT : Fld := ⟨0x18, 31, 0, 0, false, 0⟩
def F.CMD_HELD_DISCARD_COUNT : Fld := ⟨0x1C, 31, 0, 0, false, 0⟩
def F.CMD_COUNT_COUNT : Fld := ⟨0x20, 63, 0, 0, false, 0⟩

/-! R412 (10_patterns_registers) -/
def F.PAT_STATUS_CANCEL_EV : Fld := ⟨0x0, 9, 9, 0, false, 0⟩
def F.PAT_STATUS_SWAP_EV : Fld := ⟨0x0, 8, 8, 0, false, 0⟩
def F.PAT_STATUS_PHASE : Fld := ⟨0x0, 1, 0, 0, false, 0⟩
def F.PAT_REJECT_COUNT : Fld := ⟨0x4, 31, 0, 0, false, 0⟩
def F.PAT_SWAP_COURSE_COURSE : Fld := ⟨0x8, 63, 0, 0, false, 0⟩
def F.PAT_SWAPS_COUNT : Fld := ⟨0x10, 63, 0, 0, false, 0⟩

/-! R449 (11_cast_on) -/
def F.DEV_PART_PART : Fld := ⟨0x0, 31, 16, 0x128, false, 0⟩
def F.DEV_PART_DIE_REV : Fld := ⟨0x0, 15, 8, 0, false, 0⟩
def F.DEV_NUM_DEVNUM : Fld := ⟨0x4, 13, 0, 0, false, 0⟩
def F.DEV_SERIAL_SERIAL : Fld := ⟨0x8, 63, 0, 0, false, 0⟩
def F.FW_VERSION_FW_VER : Fld := ⟨0x10, 31, 0, 0, false, 0⟩
def F.IMAGE_VERSION_IMAGE_VER : Fld := ⟨0x14, 31, 0, 0, false, 0⟩
def F.CAST_STATUS_BINDING : Fld := ⟨0x18, 10, 10, 0, false, 0⟩
def F.CAST_STATUS_BIND_DONE : Fld := ⟨0x18, 9, 9, 0, false, 0⟩
def F.CAST_STATUS_READY : Fld := ⟨0x18, 8, 8, 0, false, 0⟩
def F.CAST_STATUS_IMAGE : Fld := ⟨0x18, 4, 4, 0, false, 0⟩
def F.CAST_STATUS_PHASE : Fld := ⟨0x18, 3, 0, 0xa, false, 0⟩
def F.DEGRADED_BITS : Fld := ⟨0x1C, 31, 0, 0, false, 0⟩
def F.DEV_EVENT_DEGRADE_EV : Fld := ⟨0x20, 1, 1, 0, false, 0⟩
def F.DEV_EVENT_DUP_EV : Fld := ⟨0x20, 0, 0, 0, false, 0⟩
def F.ANN_CFG_ANN_PORT : Fld := ⟨0x24, 31, 16, 0, false, 0⟩
def F.ANN_CFG_ANN_PER : Fld := ⟨0x24, 15, 0, 0xa, false, 0⟩
def F.BIND_CFG_FLUSH_TMO : Fld := ⟨0x28, 15, 0, 0x7d0, false, 0⟩
def F.CAST_TIME_MS : Fld := ⟨0x2C, 31, 0, 0, false, 0⟩
def F.BOOT_COUNT_COUNT : Fld := ⟨0x30, 31, 0, 0, false, 0⟩
def F.REGION_EN_EN : Fld := ⟨0x34, 7, 0, 0, false, 0⟩

/-! R450 (11_cast_on) -/
def F.FUSE_STATUS_DEBUG_LOCKED : Fld := ⟨0x0, 3, 3, 0, false, 0⟩
def F.FUSE_STATUS_PROG_ERR : Fld := ⟨0x0, 2, 2, 0, false, 0⟩
def F.FUSE_STATUS_PROG_BUSY : Fld := ⟨0x0, 1, 1, 0, false, 0⟩
def F.BOOT_STATUS_ATTEMPTS : Fld := ⟨0x4, 19, 16, 0, false, 0⟩
def F.BOOT_STATUS_B_CODE : Fld := ⟨0x4, 15, 8, 0xff, false, 0⟩
def F.BOOT_STATUS_A_CODE : Fld := ⟨0x4, 7, 0, 0xff, false, 0⟩
def F.FUSE_PROG_ADDR_BIT : Fld := ⟨0x10, 11, 0, 0, false, 0⟩
def F.FUSE_PROG_CTRL_KEY : Fld := ⟨0x14, 31, 16, 0, false, 0⟩
def F.FUSE_PROG_CTRL_GO : Fld := ⟨0x14, 0, 0, 0, false, 0⟩
def F.FUSE_READ_ADDR_WORD : Fld := ⟨0x18, 6, 0, 0, false, 0⟩
def F.FUSE_READ_DATA : Fld := ⟨0x1C, 31, 0, 0, false, 0⟩
def F.DBG_CTRL_DBG_EN : Fld := ⟨0x20, 0, 0, 0, false, 0⟩
def F.XSPI_CTRL_GO : Fld := ⟨0x30, 31, 31, 0, false, 0⟩
def F.XSPI_CTRL_OP : Fld := ⟨0x30, 30, 29, 0, false, 0⟩
def F.XSPI_CTRL_CS : Fld := ⟨0x30, 28, 28, 0, false, 0⟩
def F.XSPI_ADDR_ADDR : Fld := ⟨0x38, 31, 0, 0, false, 0⟩
def F.XSPI_LEN_LEN : Fld := ⟨0x3C, 31, 0, 0, false, 0⟩
def F.XSPI_MEM_ADDR : Fld := ⟨0x40, 39, 0, 0, false, 0⟩
def F.XSPI_STATUS_ERR : Fld := ⟨0x48, 2, 2, 0, false, 0⟩
def F.XSPI_STATUS_DONE : Fld := ⟨0x48, 1, 1, 0, false, 0⟩
def F.XSPI_STATUS_BUSY : Fld := ⟨0x48, 0, 0, 0, false, 0⟩

/-! R451 (11_cast_on) -/
def F.CORE_STATUS_TAKEOVER_EV : Fld := ⟨0x0, 4, 4, 0, false, 0⟩
def F.CORE_STATUS_LOCKSTEP_EV : Fld := ⟨0x0, 3, 3, 0, false, 0⟩
def F.CORE_STATUS_STANDBY_OK : Fld := ⟨0x0, 2, 2, 0, false, 0⟩
def F.CORE_STATUS_ACTIVE : Fld := ⟨0x0, 0, 0, 0, false, 0⟩
def F.TAKEOVERS_COUNT : Fld := ⟨0x4, 31, 0, 0, false, 0⟩
def F.HEARTBEAT_MS : Fld := ⟨0x8, 31, 0, 0, false, 0⟩

/-! R477 (12_clocks_power) -/
def F.CLK_SRC_NET_REF : Fld := ⟨0x0, 2, 2, 0, false, 0⟩
def F.CLK_SRC_XB_OK : Fld := ⟨0x0, 1, 1, 0, false, 0⟩
def F.CLK_SRC_XA_OK : Fld := ⟨0x0, 0, 0, 0, false, 0⟩
def F.LOOP_STATUS_LOL_EV : Fld := ⟨0x4, 21, 16, 0, false, 0⟩
def F.LOOP_STATUS_LOCK : Fld := ⟨0x4, 5, 0, 0, false, 0⟩
def F.SSC_CFG_DEPTH_T : Fld := ⟨0x8, 28, 24, 0, false, 0⟩
def F.SSC_CFG_DEPTH_F : Fld := ⟨0x8, 20, 16, 0, false, 0⟩
def F.SSC_CFG_DEPTH_H : Fld := ⟨0x8, 12, 8, 0, false, 0⟩
def F.SSC_CFG_RATE : Fld := ⟨0x8, 3, 0, 0, false, 0⟩
def F.XA_MEAS_HZ : Fld := ⟨0xC, 31, 0, 0, false, 0⟩

/-! R478 (12_clocks_power) -/
def F.PWR_STATE_AUTO_IDLE : Fld := ⟨0x0, 8, 8, 0, false, 0⟩
def F.PWR_STATE_STATE : Fld := ⟨0x0, 3, 0, 1, false, 0⟩
def F.IDLE_CFG_IDLE_DLY : Fld := ⟨0x4, 15, 0, 0x3e8, false, 0⟩
def F.WAKE_CFG_WAKE_EN : Fld := ⟨0x8, 31, 31, 0, false, 0⟩
def F.WAKE_CFG_WAKE_SRC : Fld := ⟨0x8, 26, 24, 0, false, 0⟩
def F.WAKE_CFG_WAKE_COUNTS : Fld := ⟨0x8, 23, 0, 0x400, false, 0⟩
def F.WAKE_CAUSE_CAUSE : Fld := ⟨0xC, 1, 0, 0, false, 0⟩
def F.DOM_ON_ON : Fld := ⟨0x10, 31, 0, 0, false, 4⟩
def F.PWR_EVENT_WAKE_EV : Fld := ⟨0x20, 2, 2, 0, false, 0⟩
def F.PWR_EVENT_IDLE_EV : Fld := ⟨0x20, 1, 1, 0, false, 0⟩
def F.PWR_EVENT_DOM_FAULT : Fld := ⟨0x20, 0, 0, 0, false, 0⟩

/-! R479 (12_clocks_power) -/
def F.THERM_DIE_TEMP : Fld := ⟨0x0, 15, 0, 0, false, 4⟩
def F.THERM_CFG_WARN : Fld := ⟨0x20, 31, 24, 0x5f, false, 0⟩
def F.THERM_CFG_THROTTLE : Fld := ⟨0x20, 23, 16, 0x64, false, 0⟩
def F.THERM_CFG_TRIP : Fld := ⟨0x20, 15, 8, 0x6e, false, 0⟩
def F.THERM_STATUS_TRIP_EV : Fld := ⟨0x24, 2, 2, 0, false, 0⟩
def F.THERM_STATUS_THROTTLED : Fld := ⟨0x24, 1, 1, 0, false, 0⟩
def F.THERM_STATUS_WARN_EV : Fld := ⟨0x24, 0, 0, 0, false, 0⟩
def F.THERM_MAX_TEMP : Fld := ⟨0x28, 15, 0, 0, false, 0⟩

/-! R480 (12_clocks_power) -/
def F.LINK_STATUS_RESET_SEEN : Fld := ⟨0x0, 3, 3, 0, false, 0⟩
def F.LINK_STATUS_FAULT_EV : Fld := ⟨0x0, 2, 2, 0, false, 0⟩
def F.LINK_STATUS_OVERRUN : Fld := ⟨0x0, 1, 1, 0, false, 0⟩
def F.LINK_STATUS_UP : Fld := ⟨0x0, 0, 0, 0, false, 0⟩
def F.LINK_RETRY_COUNT : Fld := ⟨0x4, 31, 0, 0, false, 0⟩
def F.LINK_OVR_COUNT : Fld := ⟨0x8, 31, 0, 0, false, 0⟩

/-! R481 (12_clocks_power) -/
def F.CL_STATUS_OVERRUN : Fld := ⟨0x0, 4, 4, 0, false, 0⟩
def F.CL_STATUS_FAULT : Fld := ⟨0x0, 3, 3, 0, false, 0⟩
def F.CL_STATUS_CLK_GATED : Fld := ⟨0x0, 2, 2, 0, false, 0⟩
def F.CL_STATUS_QUAD_ON : Fld := ⟨0x0, 1, 1, 0, false, 0⟩
def F.CL_STATUS_PIX_ON : Fld := ⟨0x0, 0, 0, 0, false, 0⟩
def F.CL_OVR_COUNT : Fld := ⟨0x4, 31, 0, 0, false, 0⟩
def F.CL_FLUSH_COUNT : Fld := ⟨0x8, 31, 0, 0, false, 0⟩

/-! R505 (13_memory) -/
def F.MC_CFG_ORDER : Fld := ⟨0x0, 1, 0, 0, false, 0⟩
def F.MC_STATUS_RETRAIN_WAIT : Fld := ⟨0x4, 5, 5, 0, false, 0⟩
def F.MC_STATUS_HOT : Fld := ⟨0x4, 4, 4, 0, false, 0⟩
def F.MC_STATUS_MIRROR_OK : Fld := ⟨0x4, 3, 3, 0, false, 0⟩
def F.MC_STATUS_STATE : Fld := ⟨0x4, 2, 0, 0, false, 0⟩
def F.MC_EVENT_FAIL_EV : Fld := ⟨0x8, 2, 2, 0, false, 0⟩
def F.MC_EVENT_UE_EV : Fld := ⟨0x8, 1, 1, 0, false, 0⟩
def F.MC_EVENT_CE_EV : Fld := ⟨0x8, 0, 0, 0, false, 0⟩
def F.MC_MIRROR_MIR_SIZE : Fld := ⟨0x10, 63, 32, 0, false, 0⟩
def F.MC_MIRROR_MIR_BASE : Fld := ⟨0x10, 31, 0, 0, false, 0⟩
def F.UE_ADDR_ADDR : Fld := ⟨0x18, 39, 0, 0, false, 0⟩
def F.CE_CNT_COUNT : Fld := ⟨0x20, 31, 0, 0, false, 0⟩
def F.UE_CNT_COUNT : Fld := ⟨0x24, 31, 0, 0, false, 0⟩
def F.CRC_RETRY_COUNT : Fld := ⟨0x28, 31, 0, 0, false, 0⟩
def F.RETRAIN_CNT_COUNT : Fld := ⟨0x2C, 31, 0, 0, false, 0⟩
def F.REFRESH_CNT_COUNT : Fld := ⟨0x30, 63, 0, 0, false, 0⟩
def F.MC_TEMP_TEMP : Fld := ⟨0x38, 15, 0, 0, false, 0⟩
def F.SCRUB_CFG_SCRUB_PER : Fld := ⟨0x3C, 15, 0, 0x18, false, 0⟩

/-! R538 (14_rings_dma) -/
def F.RING_CTX_BASE_ADDR : Fld := ⟨0x0, 39, 0, 0, false, 0⟩
def F.RING_DB_ID_RING : Fld := ⟨0x8, 19, 0, 0, false, 0⟩
def F.RING_DB_PROD_PROD : Fld := ⟨0xC, 31, 0, 0, false, 0⟩
def F.RING_CFG_SUB_TMO : Fld := ⟨0x10, 15, 0, 0x3e8, false, 0⟩
def F.RING_EVENT_CONS_IRQ_EV : Fld := ⟨0x14, 2, 2, 0, false, 0⟩
def F.RING_EVENT_EVICT_EV : Fld := ⟨0x14, 1, 1, 0, false, 0⟩
def F.RING_EVENT_FULL_EV : Fld := ⟨0x14, 0, 0, 0, false, 0⟩
def F.RING_IRQ_ID_RING : Fld := ⟨0x18, 19, 0, 0, false, 0⟩
def F.RING_PINNED_COUNT : Fld := ⟨0x1C, 12, 0, 0, false, 0⟩
def F.CTX_HITS_COUNT : Fld := ⟨0x20, 63, 0, 0, false, 0⟩
def F.CTX_MISSES_COUNT : Fld := ⟨0x28, 63, 0, 0, false, 0⟩
def F.CTX_ECC_COUNT : Fld := ⟨0x30, 31, 0, 0, false, 0⟩
def F.SUBS_OPEN_COUNT : Fld := ⟨0x34, 10, 0, 0, false, 0⟩
def F.SUB_EVICTS_COUNT : Fld := ⟨0x38, 31, 0, 0, false, 0⟩

/-! R539 (14_rings_dma) -/
def F.DMA_STATE_CODE : Fld := ⟨0x0, 19, 16, 0, false, 0⟩
def F.DMA_STATE_BOUND : Fld := ⟨0x0, 10, 10, 0, false, 0⟩
def F.DMA_STATE_DB_PEND : Fld := ⟨0x0, 9, 9, 0, false, 0⟩
def F.DMA_STATE_DIR : Fld := ⟨0x0, 8, 8, 0, false, 0⟩
def F.DMA_STATE_STATE : Fld := ⟨0x0, 1, 0, 0, false, 0⟩
def F.DMA_DESC_ADDR : Fld := ⟨0x8, 39, 0, 0, false, 0⟩
def F.DMA_ADDR_ADDR : Fld := ⟨0x10, 39, 0, 0, false, 0⟩
def F.DMA_RESIDUE_BYTES : Fld := ⟨0x18, 31, 0, 0, false, 0⟩
def F.DMA_EVENT_ABORT_EV : Fld := ⟨0x1C, 2, 2, 0, false, 0⟩
def F.DMA_EVENT_ERR_EV : Fld := ⟨0x1C, 1, 1, 0, false, 0⟩
def F.DMA_EVENT_DONE_EV : Fld := ⟨0x1C, 0, 0, 0, false, 0⟩
def F.DMA_BYTES_COUNT : Fld := ⟨0x20, 63, 0, 0, false, 0⟩
def F.DMA_DONE_SUM_DONE : Fld := ⟨0x1000, 63, 0, 0, false, 0⟩
def F.DMA_ERR_SUM_ERR : Fld := ⟨0x1008, 63, 0, 0, false, 0⟩

/-! R563 (15_hank_codec) -/
def F.HK_CTRL_EN : Fld := ⟨0x0, 31, 31, 0, false, 0⟩
def F.HK_CTRL_HOST_LANES : Fld := ⟨0x0, 5, 0, 0, false, 0⟩
def F.HK_JOB_RING_RING : Fld := ⟨0x4, 19, 0, 0, false, 0⟩
def F.HK_RES_RING_RING : Fld := ⟨0x8, 19, 0, 0, false, 0⟩
def F.HK_STATUS_BUSY : Fld := ⟨0xC, 21, 16, 0, false, 0⟩
def F.HK_STATUS_ERR_EV : Fld := ⟨0xC, 1, 1, 0, false, 0⟩
def F.HK_STATUS_SPACE_EV : Fld := ⟨0xC, 0, 0, 0, false, 0⟩
def F.HK_JOBS_COUNT : Fld := ⟨0x10, 63, 0, 0, false, 0⟩
def F.HK_BLOCKS_COUNT : Fld := ⟨0x18, 63, 0, 0, false, 0⟩
def F.HK_IN_BYTES_COUNT : Fld := ⟨0x20, 63, 0, 0, false, 0⟩
def F.HK_OUT_BYTES_COUNT : Fld := ⟨0x28, 63, 0, 0, false, 0⟩
def F.HK_ERR_CNT_COUNT : Fld := ⟨0x30, 31, 0, 0, false, 0⟩

/-! R605 (16_network_time) -/
def F.ETH_CTRL_EN : Fld := ⟨0x0, 31, 31, 1, false, 0⟩
def F.ETH_CTRL_FEC_BYP : Fld := ⟨0x0, 8, 8, 0, false, 0⟩
def F.ETH_CTRL_JUMBO : Fld := ⟨0x0, 4, 4, 0, false, 0⟩
def F.ETH_STATUS_ACTIVE : Fld := ⟨0x4, 3, 3, 0, false, 0⟩
def F.ETH_STATUS_REM_FAULT : Fld := ⟨0x4, 2, 2, 0, false, 0⟩
def F.ETH_STATUS_FEC_LOCK : Fld := ⟨0x4, 1, 1, 0, false, 0⟩
def F.ETH_STATUS_LINK_UP : Fld := ⟨0x4, 0, 0, 0, false, 0⟩
def F.ETH_EVENT_FAILOVER_EV : Fld := ⟨0x8, 2, 2, 0, false, 0⟩
def F.ETH_EVENT_LINK_DN_EV : Fld := ⟨0x8, 1, 1, 0, false, 0⟩
def F.ETH_EVENT_LINK_UP_EV : Fld := ⟨0x8, 0, 0, 0, false, 0⟩
def F.TS_EXT_TX_EXT : Fld := ⟨0xC, 31, 16, 0, false, 0⟩
def F.TS_EXT_RX_EXT : Fld := ⟨0xC, 15, 0, 0, false, 0⟩
def F.TS_LAT_TX_LAT : Fld := ⟨0x10, 31, 16, 0x3cc0, false, 0⟩
def F.TS_LAT_RX_LAT : Fld := ⟨0x10, 15, 0, 0x8320, false, 0⟩
def F.RX_FRAMES_COUNT : Fld := ⟨0x18, 63, 0, 0, false, 0⟩
def F.TX_FRAMES_COUNT : Fld := ⟨0x20, 63, 0, 0, false, 0⟩
def F.RX_DROP_COUNT : Fld := ⟨0x28, 31, 0, 0, false, 0⟩
def F.FEC_CORR_COUNT : Fld := ⟨0x2C, 31, 0, 0, false, 0⟩
def F.FEC_UNCORR_COUNT : Fld := ⟨0x30, 31, 0, 0, false, 0⟩

/-! R606 (16_network_time) -/
def F.NET_MAC_MAC : Fld := ⟨0x800, 47, 0, 0, false, 0⟩
def F.NET_IPV4_ADDR : Fld := ⟨0x808, 31, 0, 0, false, 0⟩
def F.NET_IPV4_PFX_LEN : Fld := ⟨0x80C, 5, 0, 0, false, 0⟩
def F.NET_GW4_ADDR : Fld := ⟨0x810, 31, 0, 0, false, 0⟩
def F.NET_IPV6_ADDR : Fld := ⟨0x820, 31, 0, 0, false, 4⟩
def F.NET_IPV6_PFX_LEN : Fld := ⟨0x830, 7, 0, 0, false, 0⟩
def F.NET_GW6_ADDR : Fld := ⟨0x840, 31, 0, 0, false, 4⟩
def F.ANN_ADDR_ADDR : Fld := ⟨0x850, 31, 0, 0, false, 4⟩
def F.NET_CTRL_PRP_EN : Fld := ⟨0x860, 31, 31, 0, false, 0⟩
def F.NET_CTRL_REVERT : Fld := ⟨0x860, 30, 30, 0, false, 0⟩
def F.NET_CTRL_PREF_PORT : Fld := ⟨0x860, 29, 29, 0, false, 0⟩
def F.NET_CTRL_VLAN_EN : Fld := ⟨0x860, 12, 12, 0, false, 0⟩
def F.NET_CTRL_VID : Fld := ⟨0x860, 11, 0, 0, false, 0⟩
def F.NET_PCP_PCP_PTP : Fld := ⟨0x864, 14, 12, 7, false, 0⟩
def F.NET_PCP_PCP_CMD : Fld := ⟨0x864, 10, 8, 6, false, 0⟩
def F.NET_PCP_PCP_RES : Fld := ⟨0x864, 6, 4, 5, false, 0⟩
def F.NET_PCP_PCP_VIEW : Fld := ⟨0x864, 2, 0, 3, false, 0⟩
def F.STREAM_CFG_FLUSH_US : Fld := ⟨0x868, 31, 16, 0x64, false, 0⟩
def F.STREAM_CFG_SENT_HOLD : Fld := ⟨0x868, 15, 0, 0x3e8, false, 0⟩
def F.PRP_DUP_COUNT : Fld := ⟨0x86C, 31, 0, 0, false, 0⟩
def F.PRP_WRONG_LAN_COUNT : Fld := ⟨0x870, 31, 0, 0, false, 0⟩
def F.STREAM_RESENT_COUNT : Fld := ⟨0x874, 31, 0, 0, false, 0⟩
def F.LQ_CFG_EN : Fld := ⟨0x900, 31, 31, 0, false, 16⟩
def F.LQ_CFG_LATE_FLAG : Fld := ⟨0x900, 30, 30, 0, false, 16⟩
def F.LQ_CFG_RING : Fld := ⟨0x900, 19, 0, 0, false, 16⟩
def F.LQ_LATE_COUNT : Fld := ⟨0x904, 31, 0, 0, false, 16⟩
def F.LQ_SENT_COUNT : Fld := ⟨0x908, 63, 0, 0, false, 16⟩

/-! R607 (16_network_time) -/
def F.TIME_SEC_SEC : Fld := ⟨0x0, 63, 0, 0, false, 0⟩
def F.TIME_NS_NS : Fld := ⟨0x8, 29, 0, 0, false, 0⟩
def F.TIME_SUBNS_SUBNS : Fld := ⟨0xC, 23, 0, 0, false, 0⟩
def F.TIME_INCR_INCR : Fld := ⟨0x10, 47, 0, 0x20000000000, false, 0⟩
def F.TIME_ADJ_TICKS : Fld := ⟨0x18, 63, 32, 0, false, 0⟩
def F.TIME_ADJ_DELTA : Fld := ⟨0x18, 31, 0, 0, false, 0⟩
def F.TIME_STEP_STEP : Fld := ⟨0x20, 63, 0, 0, false, 0⟩
def F.PTP_CTRL_EN_A : Fld := ⟨0x28, 31, 31, 0, false, 0⟩
def F.PTP_CTRL_EN_B : Fld := ⟨0x28, 30, 30, 0, false, 0⟩
def F.PTP_CTRL_PREF : Fld := ⟨0x28, 29, 29, 0, false, 0⟩
def F.PTP_CTRL_SERVO_SEL : Fld := ⟨0x28, 28, 28, 0, false, 0⟩
def F.PTP_CTRL_DOMAIN_B : Fld := ⟨0x28, 15, 8, 1, false, 0⟩
def F.PTP_CTRL_DOMAIN_A : Fld := ⟨0x28, 7, 0, 0, false, 0⟩
def F.SERVO_CFG_KP_LOG : Fld := ⟨0x2C, 31, 24, 8, false, 0⟩
def F.SERVO_CFG_KI_LOG : Fld := ⟨0x2C, 23, 16, 0xc, false, 0⟩
def F.SERVO_CFG_FW_TMO : Fld := ⟨0x2C, 15, 0, 0x32, false, 0⟩
def F.SLEW_CFG_MAX_PPB : Fld := ⟨0x30, 31, 16, 0x1f4, false, 0⟩
def F.SLEW_CFG_SWITCH_PPB : Fld := ⟨0x30, 15, 0, 0x64, false, 0⟩
def F.LOCK_CFG_LOCK_THR : Fld := ⟨0x34, 31, 16, 0x64, false, 0⟩
def F.LOCK_CFG_STEP_THR : Fld := ⟨0x34, 15, 0, 0x3e8, false, 0⟩
def F.RETURN_CFG_RETURN_S : Fld := ⟨0x38, 15, 0, 0x3c, false, 0⟩
def F.PTP_STATE_HOLDOVER : Fld := ⟨0x3C, 20, 20, 0, false, 0⟩
def F.PTP_STATE_SERVO_FB : Fld := ⟨0x3C, 19, 19, 0, false, 0⟩
def F.PTP_STATE_SEL : Fld := ⟨0x3C, 18, 18, 0, false, 0⟩
def F.PTP_STATE_LOCK_B : Fld := ⟨0x3C, 17, 17, 0, false, 0⟩
def F.PTP_STATE_LOCK_A : Fld := ⟨0x3C, 16, 16, 0, false, 0⟩
def F.PTP_STATE_STATE_B : Fld := ⟨0x3C, 7, 4, 0, false, 0⟩
def F.PTP_STATE_STATE_A : Fld := ⟨0x3C, 3, 0, 0, false, 0⟩
def F.PTP_EVENT_STEP_EV : Fld := ⟨0x40, 4, 4, 0, false, 0⟩
def F.PTP_EVENT_SWITCH_EV : Fld := ⟨0x40, 3, 3, 0, false, 0⟩
def F.PTP_EVENT_FB_EV : Fld := ⟨0x40, 2, 2, 0, false, 0⟩
def F.PTP_EVENT_LOSS_B_EV : Fld := ⟨0x40, 1, 1, 0, false, 0⟩
def F.PTP_EVENT_LOSS_A_EV : Fld := ⟨0x40, 0, 0, 0, false, 0⟩
def F.OFFSET_A_OFFSET : Fld := ⟨0x48, 63, 0, 0, false, 0⟩
def F.OFFSET_B_OFFSET : Fld := ⟨0x50, 63, 0, 0, false, 0⟩
def F.MPD_A_DELAY : Fld := ⟨0x58, 63, 0, 0, false, 0⟩
def F.MPD_B_DELAY : Fld := ⟨0x60, 63, 0, 0, false, 0⟩
def F.GM_A_IDENTITY : Fld := ⟨0x68, 63, 0, 0, false, 0⟩
def F.GM_B_IDENTITY : Fld := ⟨0x70, 63, 0, 0, false, 0⟩
def F.PTP_SWITCHES_COUNT : Fld := ⟨0x78, 31, 0, 0, false, 0⟩

/-! R629 (17_views_panel) -/
def F.VIEW_CTRL_EN : Fld := ⟨0x0, 31, 31, 0, false, 0⟩
def F.VIEW_CTRL_SRC : Fld := ⟨0x0, 30, 30, 0, false, 0⟩
def F.VIEW_CTRL_FMT : Fld := ⟨0x0, 29, 29, 0, false, 0⟩
def F.VIEW_CTRL_RING_EN : Fld := ⟨0x0, 28, 28, 0, false, 0⟩
def F.VIEW_CTRL_DP_EN : Fld := ⟨0x0, 27, 27, 0, false, 0⟩
def F.VIEW_CTRL_GROUP : Fld := ⟨0x0, 19, 16, 0, false, 0⟩
def F.VIEW_CTRL_SX_LOG : Fld := ⟨0x0, 14, 12, 0, false, 0⟩
def F.VIEW_CTRL_SY_LOG : Fld := ⟨0x0, 10, 8, 0, false, 0⟩
def F.VIEW_CROP_WIDTH : Fld := ⟨0x8, 53, 32, 0, false, 0⟩
def F.VIEW_CROP_W0 : Fld := ⟨0x8, 21, 0, 0, false, 0⟩
def F.VIEW_MAP_VGAIN : Fld := ⟨0x10, 31, 16, 0x100, false, 0⟩
def F.VIEW_MAP_BLACK : Fld := ⟨0x10, 15, 0, 0, false, 0⟩
def F.VIEW_MASK_MASK_VAL : Fld := ⟨0x14, 7, 0, 0, false, 0⟩
def F.VIEW_RING_RING : Fld := ⟨0x18, 19, 0, 0, false, 0⟩
def F.VIEW_START_START : Fld := ⟨0x20, 63, 0, 0, false, 0⟩
def F.VIEW_PACE_PACE : Fld := ⟨0x28, 15, 0, 0x64, false, 0⟩
def F.DBUF_BASE_ADDR : Fld := ⟨0x30, 39, 0, 0, false, 0⟩
def F.DBUF_CFG_ROWS : Fld := ⟨0x38, 15, 0, 0, false, 0⟩
def F.VIEW_STATUS_LB_END : Fld := ⟨0x3C, 2, 2, 0, false, 0⟩
def F.VIEW_STATUS_DROP_EV : Fld := ⟨0x3C, 1, 1, 0, false, 0⟩
def F.VIEW_STATUS_ACTIVE : Fld := ⟨0x3C, 0, 0, 0, false, 0⟩
def F.VIEW_ROWS_ROWS : Fld := ⟨0x40, 63, 0, 0, false, 0⟩
def F.ROW_SKIP_COUNT : Fld := ⟨0x48, 31, 0, 0, false, 0⟩
def F.LB_CFG_LB_EN : Fld := ⟨0x0, 31, 31, 0, false, 0⟩
def F.LB_CFG_LB_ROWS : Fld := ⟨0x0, 23, 0, 0, false, 0⟩
def F.LB_BASE_ADDR : Fld := ⟨0x8, 39, 0, 0, false, 0⟩
def F.PALETTE_RGB : Fld := ⟨0x0, 23, 0, 0, false, 4⟩

/-! R630 (17_views_panel) -/
def F.DP_CTRL_EN : Fld := ⟨0x0, 31, 31, 0, false, 0⟩
def F.DP_CTRL_AUTO : Fld := ⟨0x0, 30, 30, 1, false, 0⟩
def F.DP_STATUS_MODE_FAIL : Fld := ⟨0x4, 8, 8, 0, false, 0⟩
def F.DP_STATUS_LANES : Fld := ⟨0x4, 7, 5, 0, false, 0⟩
def F.DP_STATUS_RATE : Fld := ⟨0x4, 4, 2, 0, false, 0⟩
def F.DP_STATUS_TRAINED : Fld := ⟨0x4, 1, 1, 0, false, 0⟩
def F.DP_STATUS_HPD : Fld := ⟨0x4, 0, 0, 0, false, 0⟩
def F.DP_EVENT_TRAIN_FAIL_EV : Fld := ⟨0x8, 2, 2, 0, false, 0⟩
def F.DP_EVENT_UNPLUG_EV : Fld := ⟨0x8, 1, 1, 0, false, 0⟩
def F.DP_EVENT_PLUG_EV : Fld := ⟨0x8, 0, 0, 0, false, 0⟩
def F.DP_H_H_TOTAL : Fld := ⟨0x10, 31, 16, 0x898, false, 0⟩
def F.DP_H_H_ACTIVE : Fld := ⟨0x10, 15, 0, 0x780, false, 0⟩
def F.DP_HS_H_SWIDTH : Fld := ⟨0x14, 31, 16, 0x2c, false, 0⟩
def F.DP_HS_H_SSTART : Fld := ⟨0x14, 15, 0, 0x7d8, false, 0⟩
def F.DP_V_V_TOTAL : Fld := ⟨0x18, 31, 16, 0x465, false, 0⟩
def F.DP_V_V_ACTIVE : Fld := ⟨0x18, 15, 0, 0x438, false, 0⟩
def F.DP_VS_V_SWIDTH : Fld := ⟨0x1C, 31, 16, 5, false, 0⟩
def F.DP_VS_V_SSTART : Fld := ⟨0x1C, 15, 0, 0x43c, false, 0⟩
def F.DP_PCLK_KHZ : Fld := ⟨0x20, 19, 0, 0x24414, false, 0⟩
def F.DP_BG_BG : Fld := ⟨0x24, 23, 0, 0, false, 0⟩
def F.DW_POS_WIN_Y : Fld := ⟨0x0, 31, 16, 0, false, 0⟩
def F.DW_POS_WIN_X : Fld := ⟨0x0, 15, 0, 0, false, 0⟩
def F.DW_SIZE_DIR : Fld := ⟨0x4, 31, 31, 0, false, 0⟩
def F.DW_SIZE_WIN_H : Fld := ⟨0x4, 27, 16, 0, false, 0⟩
def F.DW_SIZE_WIN_W : Fld := ⟨0x4, 12, 0, 0, false, 0⟩

/-! R631 (17_views_panel) -/
def F.PNL_TOUCH_TOUCH_EN : Fld := ⟨0x0, 31, 31, 0, false, 0⟩
def F.PNL_TOUCH_FREQ : Fld := ⟨0x0, 29, 28, 1, false, 0⟩
def F.PNL_TOUCH_TOUCH_ADDR : Fld := ⟨0x0, 22, 16, 0, false, 0⟩
def F.PNL_TOUCH_TOUCH_REG : Fld := ⟨0x0, 15, 8, 0, false, 0⟩
def F.PNL_TOUCH_TOUCH_LEN : Fld := ⟨0x0, 5, 0, 1, false, 0⟩
def F.I2C_CMD_ADDR : Fld := ⟨0x4, 22, 16, 0, false, 0⟩
def F.I2C_CMD_WLEN : Fld := ⟨0x4, 13, 8, 0, false, 0⟩
def F.I2C_CMD_RLEN : Fld := ⟨0x4, 5, 0, 0, false, 0⟩
def F.I2C_STATUS_NACK : Fld := ⟨0x8, 2, 2, 0, false, 0⟩
def F.I2C_STATUS_DONE : Fld := ⟨0x8, 1, 1, 0, false, 0⟩
def F.I2C_STATUS_BUSY : Fld := ⟨0x8, 0, 0, 0, false, 0⟩
def F.I2C_DATA_DATA : Fld := ⟨0x10, 31, 0, 0, false, 4⟩
def F.KEY_CFG_KEY_POL : Fld := ⟨0x30, 31, 16, 0, false, 0⟩
def F.KEY_CFG_DEB : Fld := ⟨0x30, 7, 0, 0x14, false, 0⟩
def F.KEY_STATE_ACTIVE : Fld := ⟨0x34, 15, 0, 0, false, 0⟩
def F.LED_MODE_MODE_0 : Fld := ⟨0x38, 1, 0, 0, false, 0⟩
def F.LED_MODE_MODE_1 : Fld := ⟨0x38, 3, 2, 0, false, 0⟩
def F.LED_MODE_MODE_2 : Fld := ⟨0x38, 5, 4, 0, false, 0⟩
def F.LED_MODE_MODE_3 : Fld := ⟨0x38, 7, 6, 0, false, 0⟩
def F.LED_MODE_MODE_4 : Fld := ⟨0x38, 9, 8, 0, false, 0⟩
def F.LED_MODE_MODE_5 : Fld := ⟨0x38, 11, 10, 0, false, 0⟩
def F.LED_MODE_MODE_6 : Fld := ⟨0x38, 13, 12, 0, false, 0⟩
def F.LED_MODE_MODE_7 : Fld := ⟨0x38, 15, 14, 0, false, 0⟩
def F.LED_MODE_MODE_8 : Fld := ⟨0x38, 17, 16, 0, false, 0⟩
def F.LED_MODE_MODE_9 : Fld := ⟨0x38, 19, 18, 0, false, 0⟩
def F.LED_MODE_MODE_10 : Fld := ⟨0x38, 21, 20, 0, false, 0⟩
def F.LED_MODE_MODE_11 : Fld := ⟨0x38, 23, 22, 0, false, 0⟩
def F.LED_MODE_MODE_12 : Fld := ⟨0x38, 25, 24, 0, false, 0⟩
def F.LED_MODE_MODE_13 : Fld := ⟨0x38, 27, 26, 0, false, 0⟩
def F.LED_MODE_MODE_14 : Fld := ⟨0x38, 29, 28, 0, false, 0⟩
def F.LED_MODE_MODE_15 : Fld := ⟨0x38, 31, 30, 0, false, 0⟩
def F.LED_ACK_MASK_ACK_MASK : Fld := ⟨0x3C, 15, 0, 0, false, 0⟩
def F.BUZ_CFG_BUZ_REP : Fld := ⟨0x40, 63, 48, 1, false, 0⟩
def F.BUZ_CFG_BUZ_OFF : Fld := ⟨0x40, 47, 32, 0x64, false, 0⟩
def F.BUZ_CFG_BUZ_ON : Fld := ⟨0x40, 31, 16, 0x64, false, 0⟩
def F.BUZ_CFG_BUZ_HZ : Fld := ⟨0x40, 15, 0, 0x7d0, false, 0⟩
def F.BUZ_CTRL_STOP : Fld := ⟨0x48, 1, 1, 0, false, 0⟩
def F.BUZ_CTRL_START : Fld := ⟨0x48, 0, 0, 0, false, 0⟩
def F.PNL_RING_EN : Fld := ⟨0x4C, 31, 31, 0, false, 0⟩
def F.PNL_RING_RING : Fld := ⟨0x4C, 19, 0, 0, false, 0⟩
def F.TOUCH_NACK_COUNT : Fld := ⟨0x50, 31, 0, 0, false, 0⟩

/-! R662 (18_yarn_aux) -/
def F.YC_PROD_MASK : Fld := ⟨0x0, 31, 0, 0, false, 4⟩
def F.YC_FORK_EN_HI : Fld := ⟨0x20, 31, 31, 0, false, 4⟩
def F.YC_FORK_TASK_HI : Fld := ⟨0x20, 24, 16, 0, false, 4⟩
def F.YC_FORK_EN_LO : Fld := ⟨0x20, 15, 15, 0, false, 4⟩
def F.YC_FORK_TASK_LO : Fld := ⟨0x20, 8, 0, 0, false, 4⟩
def F.YARN_CFG_STORM_THR : Fld := ⟨0x1000, 31, 16, 0x2710, false, 0⟩
def F.YARN_CFG_STORM_WIN : Fld := ⟨0x1000, 15, 0, 0x3e8, false, 0⟩
def F.YARN_STATUS_STORM_EV : Fld := ⟨0x1004, 0, 0, 0, false, 0⟩
def F.STORM_CH_CH : Fld := ⟨0x1008, 63, 0, 0, false, 0⟩
def F.YARN_RING_EN : Fld := ⟨0x1010, 31, 31, 0, false, 0⟩
def F.YARN_RING_RING : Fld := ⟨0x1010, 19, 0, 0, false, 0⟩
def F.OFF_DROP_COUNT : Fld := ⟨0x1014, 31, 0, 0, false, 0⟩
def F.YARN_FIRE_CHANNEL : Fld := ⟨0x1018, 5, 0, 0, false, 0⟩
def F.YC_ACT_COUNT : Fld := ⟨0x1100, 15, 0, 0, false, 4⟩
def F.TASK_MERGE_COUNT : Fld := ⟨0x1200, 31, 0, 0, false, 4⟩

/-! R663 (18_yarn_aux) -/
def F.AUX_CTRL_RUN : Fld := ⟨0x0, 31, 31, 0, false, 0⟩
def F.AUX_CTRL_CLK_EDGE : Fld := ⟨0x0, 30, 30, 0, false, 0⟩
def F.AUX_CTRL_CLK_SEL : Fld := ⟨0x0, 29, 28, 0, false, 0⟩
def F.AUX_CTRL_CIC_N : Fld := ⟨0x0, 26, 24, 3, false, 0⟩
def F.AUX_CTRL_CIC_SHIFT : Fld := ⟨0x0, 21, 16, 0, false, 0⟩
def F.AUX_CTRL_CIC_R : Fld := ⟨0x0, 12, 0, 0x40, false, 0⟩
def F.AUX_FIR_FIR_TAPS : Fld := ⟨0x4, 24, 16, 0, false, 0⟩
def F.AUX_FIR_FIR_SHIFT : Fld := ⟨0x4, 12, 8, 0, false, 0⟩
def F.AUX_FIR_FIR_DEC : Fld := ⟨0x4, 4, 0, 1, false, 0⟩
def F.AUX_POST_THR_MODE : Fld := ⟨0x8, 31, 30, 0, false, 0⟩
def F.AUX_POST_MED_LEN : Fld := ⟨0x8, 3, 0, 0, false, 0⟩
def F.AUX_VALUE_Y3 : Fld := ⟨0xC, 31, 0, 0, false, 0⟩
def F.AUX_THR_HI_THR_HI : Fld := ⟨0x10, 31, 0, 0x7fffffff, false, 0⟩
def F.AUX_THR_LO_THR_LO : Fld := ⟨0x14, 31, 0, 0x80000000, false, 0⟩
def F.AUX_RING_RING_EN : Fld := ⟨0x18, 31, 31, 0, false, 0⟩
def F.AUX_RING_RING : Fld := ⟨0x18, 19, 0, 0, false, 0⟩
def F.AUX_RDIV_RING_DIV : Fld := ⟨0x1C, 15, 0, 1, false, 0⟩
def F.AUX_STATUS_OUT : Fld := ⟨0x20, 3, 3, 0, false, 0⟩
def F.AUX_STATUS_SYNC_SEEN : Fld := ⟨0x20, 2, 2, 0, false, 0⟩
def F.AUX_STATUS_SAT_EV : Fld := ⟨0x20, 1, 1, 0, false, 0⟩
def F.AUX_STATUS_THR_EV : Fld := ⟨0x20, 0, 0, 0, false, 0⟩
def F.AUX_SAT_COUNT : Fld := ⟨0x24, 31, 0, 0, false, 0⟩
def F.AUX_COUNT_COUNT : Fld := ⟨0x28, 63, 0, 0, false, 0⟩
def F.AUX_CLK_MDIV_0 : Fld := ⟨0x3000, 7, 0, 0, false, 0⟩
def F.AUX_CLK_MDIV_1 : Fld := ⟨0x3000, 15, 8, 0, false, 0⟩
def F.AUX_CLK_MDIV_2 : Fld := ⟨0x3000, 23, 16, 0, false, 0⟩
def F.AUX_CLK_MDIV_3 : Fld := ⟨0x3000, 31, 24, 0, false, 0⟩
def F.AUX_SYNC_DRIVE : Fld := ⟨0x3004, 1, 1, 0, false, 0⟩
def F.AUX_SYNC_SYNC : Fld := ⟨0x3004, 0, 0, 0, false, 0⟩
def F.AUX_SYNC_CNT_COUNT : Fld := ⟨0x3008, 31, 0, 0, false, 0⟩
def F.AUX_COEF_C_HI : Fld := ⟨0x0, 31, 16, 0, false, 4⟩
def F.AUX_COEF_C_LO : Fld := ⟨0x0, 15, 0, 0, false, 4⟩

/-! R693 (19_replay_faults) -/
def F.REPLAY_CTRL_ARM : Fld := ⟨0x0, 31, 31, 0, false, 0⟩
def F.REPLAY_CTRL_FRZ_FAULT : Fld := ⟨0x0, 30, 30, 0, false, 0⟩
def F.REPLAY_CTRL_FRZ_SEV : Fld := ⟨0x0, 29, 28, 3, false, 0⟩
def F.REPLAY_CTRL_CKPT_LOG : Fld := ⟨0x0, 20, 16, 0x10, false, 0⟩
def F.REPLAY_POST_POST : Fld := ⟨0x4, 31, 0, 0, false, 0⟩
def F.REPLAY_STATUS_RERUN_EV : Fld := ⟨0x8, 11, 11, 0, false, 0⟩
def F.REPLAY_STATUS_GAP_EV : Fld := ⟨0x8, 10, 10, 0, false, 0⟩
def F.REPLAY_STATUS_EXPORT_EV : Fld := ⟨0x8, 9, 9, 0, false, 0⟩
def F.REPLAY_STATUS_FREEZE_EV : Fld := ⟨0x8, 8, 8, 0, false, 0⟩
def F.REPLAY_STATUS_STATE : Fld := ⟨0x8, 2, 0, 0, false, 0⟩
def F.CAP_CH_MASK : Fld := ⟨0x10, 31, 0, 0, false, 4⟩
def F.JRN_RING_RING : Fld := ⟨0x20, 19, 0, 0, false, 0⟩
def F.CKPT_RING_RING : Fld := ⟨0x24, 19, 0, 0, false, 0⟩
def F.CAP_RING_RING : Fld := ⟨0x40, 19, 0, 0, false, 4⟩
def F.FREEZE_SEC_SEC : Fld := ⟨0x60, 63, 0, 0, false, 0⟩
def F.FREEZE_NS_NS : Fld := ⟨0x68, 29, 0, 0, false, 0⟩
def F.FREEZE_COURSE_COURSE : Fld := ⟨0x70, 63, 0, 0, false, 0⟩
def F.CAP_GAPS_COUNT : Fld := ⟨0x78, 31, 0, 0, false, 0⟩
def F.RR_RING_RING : Fld := ⟨0x80, 19, 0, 0, false, 0⟩
def F.RR_PATCH_RING_RING : Fld := ⟨0x84, 19, 0, 0, false, 0⟩
def F.RR_PERIOD_CYCLES : Fld := ⟨0x88, 31, 0, 0x1f4, false, 0⟩
def F.RR_STATUS_RSTATE : Fld := ⟨0x8C, 2, 0, 0, false, 0⟩
def F.RR_COURSE_COURSE : Fld := ⟨0x90, 63, 0, 0, false, 0⟩
def F.RR_MISMATCH_COUNT : Fld := ⟨0x98, 31, 0, 0, false, 0⟩
def F.RR_BASE_ADDR : Fld := ⟨0xA0, 39, 0, 0, false, 0⟩
def F.RR_SIZE_BYTES : Fld := ⟨0xA8, 39, 0, 0, false, 0⟩
def F.JRN_RECORDS_COUNT : Fld := ⟨0xB0, 63, 0, 0, false, 0⟩

/-! R694 (19_replay_faults) -/
def F.FM_CTRL_AUTO_SPARE : Fld := ⟨0x0, 0, 0, 1, false, 0⟩
def F.LOG_BASE_ADDR : Fld := ⟨0x8, 39, 0, 0, false, 0⟩
def F.LOG_OLDEST_INDEX : Fld := ⟨0x10, 31, 0, 0, false, 0⟩
def F.LOG_NEXT_INDEX : Fld := ⟨0x14, 31, 0, 0, false, 0⟩
def F.LOG_LOST_COUNT : Fld := ⟨0x18, 31, 0, 0, false, 0⟩

/-! R695 (19_replay_faults) -/
def F.SPARE_STATUS_FOR : Fld := ⟨0x0, 15, 8, 0, false, 0⟩
def F.SPARE_STATUS_STATE : Fld := ⟨0x0, 1, 0, 0, false, 0⟩
def F.SPARE_COURSES_COUNT : Fld := ⟨0x8, 63, 0, 0, false, 0⟩
def F.SPARE_TAKES_COUNT : Fld := ⟨0x10, 31, 0, 0, false, 0⟩
def F.RGN_FAILED_CH : Fld := ⟨0x0, 15, 0, 0, false, 0⟩
def F.RGN_RESTORE_CH : Fld := ⟨0x4, 15, 0, 0, false, 0⟩
def F.RGN_XBAR_SPARE_LANE : Fld := ⟨0x8, 4, 0, 0x1f, false, 0⟩

def regsOf_pos : List RegSpec :=
  [
  ⟨"POS_CTRL", 0x0, 0, 1, 32, [⟨"POS_CTRL_IDX_MODE", F.POS_CTRL_IDX_MODE, .rw, .S, anyVal⟩, ⟨"POS_CTRL_ZPOL", F.POS_CTRL_ZPOL, .rw, .S, anyVal⟩, ⟨"POS_CTRL_FILT", F.POS_CTRL_FILT, .rw, .S, anyVal⟩, ⟨"POS_CTRL_DIR", F.POS_CTRL_DIR, .rw, .S, anyVal⟩, ⟨"POS_CTRL_RUN", F.POS_CTRL_RUN, .rw, .L, anyVal⟩, ⟨"POS_CTRL_MODE", F.POS_CTRL_MODE, .rw, .S, anyVal⟩]⟩,
  ⟨"POS_COUNT", 0x8, 0, 1, 64, [⟨"POS_COUNT_COUNT", F.POS_COUNT_COUNT, .ro, .L, anyVal⟩]⟩,
  ⟨"POS_STATUS", 0x10, 0, 1, 32, [⟨"POS_STATUS_VALID", F.POS_STATUS_VALID, .ro, .L, anyVal⟩, ⟨"POS_STATUS_INDEX_SLIP", F.POS_STATUS_INDEX_SLIP, .w1c, .L, anyVal⟩, ⟨"POS_STATUS_OVERSPEED", F.POS_STATUS_OVERSPEED, .w1c, .L, anyVal⟩, ⟨"POS_STATUS_SER_TIMEOUT", F.POS_STATUS_SER_TIMEOUT, .w1c, .L, anyVal⟩, ⟨"POS_STATUS_SER_ERRBIT", F.POS_STATUS_SER_ERRBIT, .w1c, .L, anyVal⟩, ⟨"POS_STATUS_SER_CRC", F.POS_STATUS_SER_CRC, .w1c, .L, anyVal⟩, ⟨"POS_STATUS_HALL_SKIP", F.POS_STATUS_HALL_SKIP, .w1c, .L, anyVal⟩, ⟨"POS_STATUS_HALL_STATE", F.POS_STATUS_HALL_STATE, .w1c, .L, anyVal⟩, ⟨"POS_STATUS_QUAD_ERR", F.POS_STATUS_QUAD_ERR, .w1c, .L, anyVal⟩]⟩,
  ⟨"POS_SPEED", 0x14, 0, 1, 32, [⟨"POS_SPEED_SPEED", F.POS_SPEED_SPEED, .ro, .L, anyVal⟩]⟩,
  ⟨"IDX_PERIOD", 0x18, 0, 1, 32, [⟨"IDX_PERIOD", F.IDX_PERIOD, .rw, .S, anyVal⟩]⟩,
  ⟨"IDX_CFG", 0x1C, 0, 1, 32, [⟨"IDX_CFG_IDX_EN", F.IDX_CFG_IDX_EN, .rw, .S, anyVal⟩, ⟨"IDX_CFG_IDX_TOL", F.IDX_CFG_IDX_TOL, .rw, .S, anyVal⟩]⟩,
  ⟨"IDX_ERR", 0x20, 0, 1, 32, [⟨"IDX_ERR", F.IDX_ERR, .ro, .L, anyVal⟩]⟩,
  ⟨"IDX_ERR_POS", 0x28, 0, 1, 64, [⟨"IDX_ERR_POS", F.IDX_ERR_POS, .ro, .L, anyVal⟩]⟩,
  ⟨"SER_CFG", 0x30, 0, 1, 32, [⟨"SER_CFG_SER_TMO", F.SER_CFG_SER_TMO, .rw, .S, anyVal⟩, ⟨"SER_CFG_SCK_DIV", F.SER_CFG_SCK_DIV, .rw, .S, rng 12 255⟩, ⟨"SER_CFG_SER_PER", F.SER_CFG_SER_PER, .rw, .S, rng 1 63⟩, ⟨"SER_CFG_CRC_LEN", F.SER_CFG_CRC_LEN, .rw, .S, fun v => !(v == 1 || v == 2)⟩, ⟨"SER_CFG_WIDTH", F.SER_CFG_WIDTH, .rw, .S, rng 8 48⟩]⟩,
  ⟨"SER_POLY", 0x34, 0, 1, 32, [⟨"SER_POLY", F.SER_POLY, .rw, .S, anyVal⟩]⟩]

def regsOf_crs : List RegSpec :=
  [
  ⟨"CRS_CTRL", 0x0, 0, 1, 32, [⟨"CRS_CTRL_CLOSE_DLY", F.CRS_CTRL_CLOSE_DLY, .rw, .S, rng 20 2000⟩, ⟨"CRS_CTRL_TIMER", F.CRS_CTRL_TIMER, .rw, .S, anyVal⟩, ⟨"CRS_CTRL_SRC", F.CRS_CTRL_SRC, .rw, .S, anyVal⟩]⟩,
  ⟨"CRS_N", 0x4, 0, 1, 32, [⟨"CRS_N_N", F.CRS_N_N, .rw, .S, rng 1 16777216⟩]⟩,
  ⟨"CRS_D", 0x8, 0, 1, 32, [⟨"CRS_D_D", F.CRS_D_D, .rw, .S, rng 1 16777216⟩]⟩,
  ⟨"CRS_PHASE", 0xC, 0, 1, 32, [⟨"CRS_PHASE_PHASE_INIT", F.CRS_PHASE_PHASE_INIT, .rw, .S, anyVal⟩]⟩,
  ⟨"CRS_TIMER", 0x10, 0, 1, 32, [⟨"CRS_TIMER_TIMER_PER", F.CRS_TIMER_TIMER_PER, .rw, .S, rng 0x1F40000 0xFFFFFFFF⟩]⟩,
  ⟨"CRS_PITCH", 0x14, 0, 1, 32, [⟨"CRS_PITCH_PITCH", F.CRS_PITCH_PITCH, .rw, .S, anyVal⟩]⟩,
  ⟨"CRS_COUNT", 0x18, 0, 1, 64, [⟨"CRS_COUNT_COURSE", F.CRS_COUNT_COURSE, .ro, .L, anyVal⟩]⟩,
  ⟨"CRS_HWM", 0x20, 0, 1, 64, [⟨"CRS_HWM_HWM", F.CRS_HWM_HWM, .ro, .L, anyVal⟩]⟩,
  ⟨"CRS_STATUS", 0x28, 0, 1, 32, [⟨"CRS_STATUS_SRC_FAULT", F.CRS_STATUS_SRC_FAULT, .w1c, .L, anyVal⟩, ⟨"CRS_STATUS_OVERRATE", F.CRS_STATUS_OVERRATE, .w1c, .L, anyVal⟩, ⟨"CRS_STATUS_SYNC_SLIP", F.CRS_STATUS_SYNC_SLIP, .w1c, .L, anyVal⟩]⟩,
  ⟨"CRS_DROPS", 0x2C, 0, 1, 32, [⟨"CRS_DROPS_DROPS", F.CRS_DROPS_DROPS, .rc, .L, anyVal⟩]⟩,
  ⟨"CRS_CSW_RING", 0x40, 0, 1, 32, [⟨"CRS_CSW_RING_CSW_EN", F.CRS_CSW_RING_CSW_EN, .rw, .S, anyVal⟩, ⟨"CRS_CSW_RING_RING", F.CRS_CSW_RING_RING, .rw, .S, anyVal⟩]⟩,
  ⟨"CRS_LAST_CSW", 0x44, 0, 1, 32, [⟨"CRS_LAST_CSW_CSW", F.CRS_LAST_CSW_CSW, .ro, .L, anyVal⟩]⟩] ++
  [
  ⟨"CRS_LATE", 0x48, 4, 6, 32, [⟨"CRS_LATE_COUNT", F.CRS_LATE_COUNT, .rc, .L, anyVal⟩]⟩]

def regsOf_syncR : List RegSpec :=
  [
  ⟨"SYNC_CTRL", 0x0, 0, 1, 32, [⟨"SYNC_CTRL_SYNC_TOL", F.SYNC_CTRL_SYNC_TOL, .rw, .S, anyVal⟩, ⟨"SYNC_CTRL_SYNC_LOG", F.SYNC_CTRL_SYNC_LOG, .rw, .S, fun v => v == 0 || rng 10 24 v⟩, ⟨"SYNC_CTRL_SYNC_GROUP", F.SYNC_CTRL_SYNC_GROUP, .rw, .S, anyVal⟩, ⟨"SYNC_CTRL_SYNC_MODE", F.SYNC_CTRL_SYNC_MODE, .rw, .S, rng 0 2⟩]⟩]

def regsOf_ing : List RegSpec :=
  [
  ⟨"LANE_CTRL", 0x0, 0, 1, 32, [⟨"LANE_CTRL_IDLE_REQ", F.LANE_CTRL_IDLE_REQ, .rw, .L, anyVal⟩, ⟨"LANE_CTRL_ADAPT_FREEZE", F.LANE_CTRL_ADAPT_FREEZE, .rw, .L, anyVal⟩, ⟨"LANE_CTRL_FIR_OVR", F.LANE_CTRL_FIR_OVR, .rw, .S, anyVal⟩, ⟨"LANE_CTRL_PRECODE_ALLOW", F.LANE_CTRL_PRECODE_ALLOW, .rw, .S, anyVal⟩, ⟨"LANE_CTRL_BOND", F.LANE_CTRL_BOND, .rw, .S, rng 0 3⟩, ⟨"LANE_CTRL_EXPECT_EN", F.LANE_CTRL_EXPECT_EN, .rw, .S, anyVal⟩, ⟨"LANE_CTRL_SRC_SEL", F.LANE_CTRL_SRC_SEL, .rw, .S, anyVal⟩, ⟨"LANE_CTRL_PACE", F.LANE_CTRL_PACE, .rw, .S, anyVal⟩, ⟨"LANE_CTRL_EN", F.LANE_CTRL_EN, .rw, .L, anyVal⟩]⟩,
  ⟨"LANE_STATUS", 0x4, 0, 1, 32, [⟨"LANE_STATUS_STATE", F.LANE_STATUS_STATE, .ro, .L, anyVal⟩, ⟨"LANE_STATUS_PRECODE_RX", F.LANE_STATUS_PRECODE_RX, .ro, .L, anyVal⟩, ⟨"LANE_STATUS_PRECODE_TX", F.LANE_STATUS_PRECODE_TX, .ro, .L, anyVal⟩, ⟨"LANE_STATUS_LOS", F.LANE_STATUS_LOS, .ro, .L, anyVal⟩, ⟨"LANE_STATUS_LOCK", F.LANE_STATUS_LOCK, .ro, .L, anyVal⟩]⟩,
  ⟨"LANE_EVENT", 0x8, 0, 1, 32, [⟨"LANE_EVENT_IDLE_TMO", F.LANE_EVENT_IDLE_TMO, .w1c, .L, anyVal⟩, ⟨"LANE_EVENT_HCRC_ERR", F.LANE_EVENT_HCRC_ERR, .w1c, .L, anyVal⟩, ⟨"LANE_EVENT_VC_ERR", F.LANE_EVENT_VC_ERR, .w1c, .L, anyVal⟩, ⟨"LANE_EVENT_BOND_SKEW", F.LANE_EVENT_BOND_SKEW, .w1c, .L, anyVal⟩, ⟨"LANE_EVENT_IDENT_MISMATCH", F.LANE_EVENT_IDENT_MISMATCH, .w1c, .L, anyVal⟩, ⟨"LANE_EVENT_TRAIN_FAIL", F.LANE_EVENT_TRAIN_FAIL, .w1c, .L, anyVal⟩, ⟨"LANE_EVENT_LOL_EV", F.LANE_EVENT_LOL_EV, .w1c, .L, anyVal⟩, ⟨"LANE_EVENT_LOS_EV", F.LANE_EVENT_LOS_EV, .w1c, .L, anyVal⟩, ⟨"LANE_EVENT_REMOVE", F.LANE_EVENT_REMOVE, .w1c, .L, anyVal⟩, ⟨"LANE_EVENT_INSERT", F.LANE_EVENT_INSERT, .w1c, .L, anyVal⟩]⟩,
  ⟨"LANE_HDR_ERR", 0xC, 0, 1, 32, [⟨"LANE_HDR_ERR_HDR_ERR", F.LANE_HDR_ERR_HDR_ERR, .rc, .L, anyVal⟩]⟩,
  ⟨"LANE_PKT_ERR", 0x10, 0, 1, 32, [⟨"LANE_PKT_ERR_HCRC_CNT", F.LANE_PKT_ERR_HCRC_CNT, .rc, .L, anyVal⟩, ⟨"LANE_PKT_ERR_PCRC_CNT", F.LANE_PKT_ERR_PCRC_CNT, .rc, .L, anyVal⟩]⟩,
  ⟨"LANE_RXEQ", 0x14, 0, 1, 32, [⟨"LANE_RXEQ_CTLE", F.LANE_RXEQ_CTLE, .ro, .L, anyVal⟩]⟩,
  ⟨"LANE_DFE", 0x18, 0, 1, 64, [⟨"LANE_DFE_TAPS", F.LANE_DFE_TAPS, .ro, .L, anyVal⟩]⟩,
  ⟨"LANE_TXFIR", 0x20, 0, 1, 32, [⟨"LANE_TXFIR_POST", F.LANE_TXFIR_POST, .rw, .S, rng 0 16⟩, ⟨"LANE_TXFIR_MAIN", F.LANE_TXFIR_MAIN, .rw, .S, rng 20 40⟩, ⟨"LANE_TXFIR_PRE", F.LANE_TXFIR_PRE, .rw, .S, rng 0 10⟩]⟩,
  ⟨"LANE_LOS", 0x24, 0, 1, 32, [⟨"LANE_LOS_LOS_HYS", F.LANE_LOS_LOS_HYS, .rw, .S, anyVal⟩, ⟨"LANE_LOS_LOS_THR", F.LANE_LOS_LOS_THR, .rw, .S, anyVal⟩]⟩,
  ⟨"CAM_ID0", 0x28, 0, 1, 64, [⟨"CAM_ID0_ID0", F.CAM_ID0_ID0, .ro, .L, anyVal⟩]⟩,
  ⟨"CAM_ID1", 0x30, 0, 1, 64, [⟨"CAM_ID1_ID1", F.CAM_ID1_ID1, .ro, .L, anyVal⟩]⟩,
  ⟨"CAM_ID2", 0x38, 0, 1, 64, [⟨"CAM_ID2_ID2", F.CAM_ID2_ID2, .ro, .L, anyVal⟩]⟩] ++
  [
  ⟨"CAM_EXPECT", 0x40, 0, 1, 32, [⟨"CAM_EXPECT_VENDOR", F.CAM_EXPECT_VENDOR, .rw, .S, anyVal⟩, ⟨"CAM_EXPECT_MODEL", F.CAM_EXPECT_MODEL, .rw, .S, anyVal⟩]⟩,
  ⟨"ING_CFG", 0x100, 0, 1, 32, [⟨"ING_CFG_FILL", F.ING_CFG_FILL, .rw, .P, anyVal⟩, ⟨"ING_CFG_LINE_LEN", F.ING_CFG_LINE_LEN, .rw, .S, rng 1 16384⟩]⟩,
  ⟨"ING_FMT", 0x104, 0, 1, 32, [⟨"ING_FMT_PLANE_SEL", F.ING_FMT_PLANE_SEL, .rw, .S, anyVal⟩, ⟨"ING_FMT_DT_EXPECT", F.ING_FMT_DT_EXPECT, .rw, .S, anyVal⟩]⟩,
  ⟨"ING_TMO", 0x108, 0, 1, 32, [⟨"ING_TMO_LINE_TMO", F.ING_TMO_LINE_TMO, .rw, .S, rng 10 65535⟩]⟩,
  ⟨"ING_TIME", 0x10C, 0, 1, 32, [⟨"ING_TIME_TIME_PER", F.ING_TIME_TIME_PER, .rw, .S, anyVal⟩]⟩,
  ⟨"ING_STATUS", 0x110, 0, 1, 32, [⟨"ING_STATUS_DUAL_UPPER", F.ING_STATUS_DUAL_UPPER, .ro, .L, anyVal⟩, ⟨"ING_STATUS_JOINED", F.ING_STATUS_JOINED, .ro, .L, anyVal⟩]⟩,
  ⟨"ING_LAST_LINE", 0x114, 0, 1, 32, [⟨"ING_LAST_LINE_CAM_LINE", F.ING_LAST_LINE_CAM_LINE, .ro, .L, anyVal⟩]⟩,
  ⟨"ING_LAST_EXP", 0x118, 0, 1, 32, [⟨"ING_LAST_EXP_TEMP", F.ING_LAST_EXP_TEMP, .ro, .L, anyVal⟩, ⟨"ING_LAST_EXP_EXP_ID", F.ING_LAST_EXP_EXP_ID, .ro, .L, anyVal⟩]⟩,
  ⟨"SHORT_CNT", 0x120, 0, 1, 32, [⟨"SHORT_CNT_COUNT", F.SHORT_CNT_COUNT, .rc, .L, anyVal⟩]⟩,
  ⟨"LONG_CNT", 0x124, 0, 1, 32, [⟨"LONG_CNT_COUNT", F.LONG_CNT_COUNT, .rc, .L, anyVal⟩]⟩,
  ⟨"MISS_CNT", 0x128, 0, 1, 32, [⟨"MISS_CNT_COUNT", F.MISS_CNT_COUNT, .rc, .L, anyVal⟩]⟩,
  ⟨"CRC_CNT", 0x12C, 0, 1, 32, [⟨"CRC_CNT_COUNT", F.CRC_CNT_COUNT, .rc, .L, anyVal⟩]⟩] ++
  [
  ⟨"LATE_LINE", 0x130, 0, 1, 32, [⟨"LATE_LINE_COUNT", F.LATE_LINE_COUNT, .rc, .L, anyVal⟩]⟩,
  ⟨"DUP_LINE", 0x134, 0, 1, 32, [⟨"DUP_LINE_COUNT", F.DUP_LINE_COUNT, .rc, .L, anyVal⟩]⟩,
  ⟨"ECHO_ERR", 0x138, 0, 1, 32, [⟨"ECHO_ERR_COUNT", F.ECHO_ERR_COUNT, .rc, .L, anyVal⟩]⟩,
  ⟨"DT_ERR", 0x13C, 0, 1, 32, [⟨"DT_ERR_COUNT", F.DT_ERR_COUNT, .rc, .L, anyVal⟩]⟩,
  ⟨"BUF_OVR", 0x140, 0, 1, 32, [⟨"BUF_OVR_COUNT", F.BUF_OVR_COUNT, .rc, .L, anyVal⟩]⟩,
  ⟨"CAM_RING", 0x148, 0, 1, 32, [⟨"CAM_RING_CAM_EN", F.CAM_RING_CAM_EN, .rw, .S, anyVal⟩, ⟨"CAM_RING_RING", F.CAM_RING_RING, .rw, .S, anyVal⟩]⟩,
  ⟨"MSRC_RING", 0x14C, 0, 1, 32, [⟨"MSRC_RING_RING", F.MSRC_RING_RING, .rw, .S, anyVal⟩]⟩]

def regsOf_corr : List RegSpec :=
  [
  ⟨"CORR_CTRL", 0x0, 0, 1, 32, [⟨"CORR_CTRL_GAUGE_SINGLE", F.CORR_CTRL_GAUGE_SINGLE, .rw, .S, anyVal⟩, ⟨"CORR_CTRL_STAT_COR_EN", F.CORR_CTRL_STAT_COR_EN, .rw, .S, anyVal⟩, ⟨"CORR_CTRL_STAT_RAW_EN", F.CORR_CTRL_STAT_RAW_EN, .rw, .S, anyVal⟩, ⟨"CORR_CTRL_LAMP_EN", F.CORR_CTRL_LAMP_EN, .rw, .P, anyVal⟩, ⟨"CORR_CTRL_FF_EN", F.CORR_CTRL_FF_EN, .rw, .S, anyVal⟩, ⟨"CORR_CTRL_DPR_EN", F.CORR_CTRL_DPR_EN, .rw, .P, anyVal⟩, ⟨"CORR_CTRL_LUT_EN", F.CORR_CTRL_LUT_EN, .rw, .P, anyVal⟩]⟩,
  ⟨"CORR_STATUS", 0x4, 0, 1, 32, [⟨"CORR_STATUS_LAMP_ORDER", F.CORR_STATUS_LAMP_ORDER, .w1c, .L, anyVal⟩, ⟨"CORR_STATUS_GAUGE_STALE", F.CORR_STATUS_GAUGE_STALE, .w1c, .L, anyVal⟩, ⟨"CORR_STATUS_GAUGE_PEND", F.CORR_STATUS_GAUGE_PEND, .ro, .L, anyVal⟩, ⟨"CORR_STATUS_GAUGE_EXTRAP", F.CORR_STATUS_GAUGE_EXTRAP, .w1c, .L, anyVal⟩, ⟨"CORR_STATUS_GAUGE_BAD", F.CORR_STATUS_GAUGE_BAD, .w1c, .L, anyVal⟩, ⟨"CORR_STATUS_GAUGE_CRC", F.CORR_STATUS_GAUGE_CRC, .w1c, .L, anyVal⟩, ⟨"CORR_STATUS_GAUGE_MEMERR", F.CORR_STATUS_GAUGE_MEMERR, .w1c, .L, anyVal⟩, ⟨"CORR_STATUS_LAMP_INVALID", F.CORR_STATUS_LAMP_INVALID, .w1c, .L, anyVal⟩, ⟨"CORR_STATUS_DPR_ORDER", F.CORR_STATUS_DPR_ORDER, .w1c, .L, anyVal⟩]⟩,
  ⟨"CLAMP_LO", 0x10, 0, 1, 32, [⟨"CLAMP_LO_COUNT", F.CLAMP_LO_COUNT, .rc, .L, anyVal⟩]⟩,
  ⟨"CLAMP_HI", 0x14, 0, 1, 32, [⟨"CLAMP_HI_COUNT", F.CLAMP_HI_COUNT, .rc, .L, anyVal⟩]⟩,
  ⟨"STAT_DROP", 0x18, 0, 1, 32, [⟨"STAT_DROP_COUNT", F.STAT_DROP_COUNT, .rc, .L, anyVal⟩]⟩,
  ⟨"GAUGE_ECC", 0x1C, 0, 1, 32, [⟨"GAUGE_ECC_COUNT", F.GAUGE_ECC_COUNT, .rc, .L, anyVal⟩]⟩,
  ⟨"DPR_USED", 0x20, 0, 1, 32, [⟨"DPR_USED_USED", F.DPR_USED_USED, .ro, .L, anyVal⟩]⟩,
  ⟨"DPR_COUNT", 0x24, 0, 1, 32, [⟨"DPR_COUNT_COUNT", F.DPR_COUNT_COUNT, .rw, .P, rng 0 1024⟩]⟩,
  ⟨"GAUGE_BASE_A", 0x40, 0, 1, 64, [⟨"GAUGE_BASE_A_ADDR", F.GAUGE_BASE_A_ADDR, .rw, .S, aligned 256⟩]⟩,
  ⟨"GAUGE_BASE_B", 0x48, 0, 1, 64, [⟨"GAUGE_BASE_B_ADDR", F.GAUGE_BASE_B_ADDR, .rw, .S, aligned 256⟩]⟩,
  ⟨"GAUGE_CFG", 0x50, 0, 1, 32, [⟨"GAUGE_CFG_SEL", F.GAUGE_CFG_SEL, .rw, .P, anyVal⟩, ⟨"GAUGE_CFG_THRESH", F.GAUGE_CFG_THRESH, .rw, .L, anyVal⟩]⟩,
  ⟨"CAL_COUNT", 0x54, 0, 1, 32, [⟨"CAL_COUNT_COUNT", F.CAL_COUNT_COUNT, .ro, .L, anyVal⟩]⟩] ++
  [
  ⟨"CAL_LAST_COURSE", 0x58, 0, 1, 64, [⟨"CAL_LAST_COURSE_COURSE", F.CAL_LAST_COURSE_COURSE, .ro, .L, anyVal⟩]⟩,
  ⟨"CAL_LAST_SEC", 0x60, 0, 1, 64, [⟨"CAL_LAST_SEC_SEC", F.CAL_LAST_SEC_SEC, .ro, .L, anyVal⟩]⟩,
  ⟨"CAL_LAST_NS", 0x68, 0, 1, 32, [⟨"CAL_LAST_NS_NS", F.CAL_LAST_NS_NS, .ro, .L, anyVal⟩]⟩,
  ⟨"CAL_LAST_TEMP", 0x6C, 0, 1, 32, [⟨"CAL_LAST_TEMP_TEMP", F.CAL_LAST_TEMP_TEMP, .ro, .L, anyVal⟩]⟩,
  ⟨"LAMP_KNOT", 0x80, 16, 8, 32, [⟨"LAMP_KNOT_KEN", F.LAMP_KNOT_KEN, .rw, .P, anyVal⟩, ⟨"LAMP_KNOT_AUX_CH", F.LAMP_KNOT_AUX_CH, .rw, .P, anyVal⟩, ⟨"LAMP_KNOT_POS", F.LAMP_KNOT_POS, .rw, .P, anyVal⟩]⟩,
  ⟨"LAMP_REF", 0x84, 16, 8, 32, [⟨"LAMP_REF_REF", F.LAMP_REF_REF, .rw, .P, anyVal⟩]⟩,
  ⟨"LAMP_GAIN", 0x88, 16, 8, 32, [⟨"LAMP_GAIN_GAIN", F.LAMP_GAIN_GAIN, .ro, .L, anyVal⟩]⟩,
  ⟨"LAMP_SAMPLE", 0x8C, 16, 8, 32, [⟨"LAMP_SAMPLE_SAMPLE", F.LAMP_SAMPLE_SAMPLE, .ro, .L, anyVal⟩]⟩,
  ⟨"STAT_CFG", 0x100, 0, 1, 32, [⟨"STAT_CFG_STAT_LEN", F.STAT_CFG_STAT_LEN, .rw, .S, rng 1 65535⟩, ⟨"STAT_CFG_PROF_SHIFT", F.STAT_CFG_PROF_SHIFT, .rw, .S, rng 0 8⟩, ⟨"STAT_CFG_PROF_EN", F.STAT_CFG_PROF_EN, .rw, .S, anyVal⟩]⟩,
  ⟨"STAT_RING", 0x104, 0, 1, 32, [⟨"STAT_RING_RING", F.STAT_RING_RING, .rw, .S, anyVal⟩]⟩,
  ⟨"LUT", 0x2000, 4, 2048, 32, [⟨"LUT_ENTRY_HI", F.LUT_ENTRY_HI, .rw, .P, anyVal⟩, ⟨"LUT_ENTRY_LO", F.LUT_ENTRY_LO, .rw, .P, anyVal⟩]⟩,
  ⟨"DPR", 0x4000, 4, 1024, 32, [⟨"DPR_ENTRY", F.DPR_ENTRY, .rw, .P, anyVal⟩]⟩]

def regsOf_cal : List RegSpec :=
  [
  ⟨"CAL_DEV_COUNT", 0x0, 0, 1, 64, [⟨"CAL_DEV_COUNT_COUNT", F.CAL_DEV_COUNT_COUNT, .ro, .L, anyVal⟩]⟩,
  ⟨"CAL_DEV_LAST_SEC", 0x8, 0, 1, 64, [⟨"CAL_DEV_LAST_SEC_SEC", F.CAL_DEV_LAST_SEC_SEC, .ro, .L, anyVal⟩]⟩,
  ⟨"CAL_DEV_LAST_NS", 0x10, 0, 1, 32, [⟨"CAL_DEV_LAST_NS_NS", F.CAL_DEV_LAST_NS_NS, .ro, .L, anyVal⟩]⟩,
  ⟨"CAL_DEV_LAST_CH", 0x14, 0, 1, 32, [⟨"CAL_DEV_LAST_CH_CHANNEL", F.CAL_DEV_LAST_CH_CHANNEL, .ro, .L, anyVal⟩]⟩]

def regsOf_seam : List RegSpec :=
  [
  ⟨"SEAM_GEOM", 0x0, 0, 1, 32, [⟨"SEAM_GEOM_OVL_LO", F.SEAM_GEOM_OVL_LO, .rw, .S, rng 0 1024⟩, ⟨"SEAM_GEOM_SPAN", F.SEAM_GEOM_SPAN, .rw, .S, rng 1 16384⟩]⟩,
  ⟨"SEAM_ALONG", 0x4, 0, 1, 32, [⟨"SEAM_ALONG_A0", F.SEAM_ALONG_A0, .rw, .P, rng 0 64⟩]⟩,
  ⟨"WARP_X0", 0x8, 0, 1, 32, [⟨"WARP_X0_X0", F.WARP_X0_X0, .rw, .P, anyVal⟩]⟩,
  ⟨"WARP_C1", 0xC, 0, 1, 32, [⟨"WARP_C1_C1", F.WARP_C1_C1, .rw, .P, anyVal⟩]⟩,
  ⟨"WARP_C2", 0x10, 0, 1, 32, [⟨"WARP_C2_C2", F.WARP_C2_C2, .rw, .P, anyVal⟩]⟩,
  ⟨"WARP_C3", 0x14, 0, 1, 32, [⟨"WARP_C3_C3", F.WARP_C3_C3, .rw, .P, anyVal⟩]⟩,
  ⟨"SEAM_INIT", 0x18, 0, 1, 32, [⟨"SEAM_INIT_DX_INIT", F.SEAM_INIT_DX_INIT, .rw, .P, anyVal⟩, ⟨"SEAM_INIT_DY_INIT", F.SEAM_INIT_DY_INIT, .rw, .P, anyVal⟩]⟩,
  ⟨"SEAM_BLEND", 0x1C, 0, 1, 32, [⟨"SEAM_BLEND_HARD", F.SEAM_BLEND_HARD, .rw, .P, anyVal⟩, ⟨"SEAM_BLEND_CUT", F.SEAM_BLEND_CUT, .rw, .P, anyVal⟩]⟩,
  ⟨"SEAM_WALE", 0x20, 0, 1, 32, [⟨"SEAM_WALE_WALE_BASE", F.SEAM_WALE_WALE_BASE, .ro, .L, anyVal⟩]⟩,
  ⟨"SEAM_OWN", 0x24, 0, 1, 32, [⟨"SEAM_OWN_OWNED", F.SEAM_OWN_OWNED, .ro, .L, anyVal⟩]⟩,
  ⟨"CAM_DX", 0x28, 0, 1, 32, [⟨"CAM_DX_DX", F.CAM_DX_DX, .ro, .L, anyVal⟩]⟩,
  ⟨"CAM_DY", 0x2C, 0, 1, 32, [⟨"CAM_DY_DY", F.CAM_DY_DY, .ro, .L, anyVal⟩]⟩] ++
  [
  ⟨"REG_STATE", 0x30, 0, 1, 32, [⟨"REG_STATE_HOLD_RUN", F.REG_STATE_HOLD_RUN, .ro, .L, anyVal⟩, ⟨"REG_STATE_STATE", F.REG_STATE_STATE, .ro, .L, anyVal⟩]⟩,
  ⟨"REG_LAST", 0x34, 0, 1, 32, [⟨"REG_LAST_MX", F.REG_LAST_MX, .ro, .L, anyVal⟩, ⟨"REG_LAST_MY", F.REG_LAST_MY, .ro, .L, anyVal⟩]⟩,
  ⟨"REG_Q", 0x38, 0, 1, 32, [⟨"REG_Q_Q", F.REG_Q_Q, .ro, .L, anyVal⟩]⟩,
  ⟨"SEAM_STATUS", 0x3C, 0, 1, 32, [⟨"SEAM_STATUS_REG_EDGE", F.SEAM_STATUS_REG_EDGE, .w1c, .L, anyVal⟩, ⟨"SEAM_STATUS_SEAM_RANGE", F.SEAM_STATUS_SEAM_RANGE, .w1c, .L, anyVal⟩, ⟨"SEAM_STATUS_SEAM_LOST", F.SEAM_STATUS_SEAM_LOST, .w1c, .L, anyVal⟩, ⟨"SEAM_STATUS_HOLD_EV", F.SEAM_STATUS_HOLD_EV, .w1c, .L, anyVal⟩]⟩,
  ⟨"REG_SKIP", 0x40, 0, 1, 32, [⟨"REG_SKIP_COUNT", F.REG_SKIP_COUNT, .rc, .L, anyVal⟩]⟩,
  ⟨"HOLD_CNT", 0x44, 0, 1, 32, [⟨"HOLD_CNT_COUNT", F.HOLD_CNT_COUNT, .rc, .L, anyVal⟩]⟩,
  ⟨"OOR_CNT", 0x48, 0, 1, 32, [⟨"OOR_CNT_COUNT", F.OOR_CNT_COUNT, .rc, .L, anyVal⟩]⟩]

def regsOf_gseam : List RegSpec :=
  [
  ⟨"GRP_SEAM", 0x0, 0, 1, 32, [⟨"GRP_SEAM_ANCHOR", F.GRP_SEAM_ANCHOR, .rw, .S, anyVal⟩, ⟨"GRP_SEAM_COUNT", F.GRP_SEAM_COUNT, .rw, .S, rng 1 128⟩, ⟨"GRP_SEAM_FIRST_CH", F.GRP_SEAM_FIRST_CH, .rw, .S, anyVal⟩]⟩,
  ⟨"REG_CFG", 0x4, 0, 1, 32, [⟨"REG_CFG_REG_EN", F.REG_CFG_REG_EN, .rw, .P, anyVal⟩, ⟨"REG_CFG_REG_LOG", F.REG_CFG_REG_LOG, .rw, .P, rng 0 6⟩, ⟨"REG_CFG_REG_GAIN", F.REG_CFG_REG_GAIN, .rw, .P, rng 1 16⟩, ⟨"REG_CFG_SLEW_Y", F.REG_CFG_SLEW_Y, .rw, .P, anyVal⟩, ⟨"REG_CFG_SLEW_X", F.REG_CFG_SLEW_X, .rw, .P, anyVal⟩]⟩,
  ⟨"REG_CFG2", 0x8, 0, 1, 32, [⟨"REG_CFG2_QMIN", F.REG_CFG2_QMIN, .rw, .P, anyVal⟩, ⟨"REG_CFG2_ACQ_SLEW", F.REG_CFG2_ACQ_SLEW, .rw, .P, anyVal⟩, ⟨"REG_CFG2_REG_WIDTH", F.REG_CFG2_REG_WIDTH, .rw, .P, fun v => v % 16 == 0 && rng 16 512 v⟩]⟩,
  ⟨"REG_CFG3", 0xC, 0, 1, 32, [⟨"REG_CFG3_HOLD_MAX", F.REG_CFG3_HOLD_MAX, .rw, .P, anyVal⟩, ⟨"REG_CFG3_EMIN", F.REG_CFG3_EMIN, .rw, .P, anyVal⟩]⟩,
  ⟨"GRP_PITCH", 0x10, 0, 1, 32, [⟨"GRP_PITCH_PITCH", F.GRP_PITCH_PITCH, .rw, .P, anyVal⟩]⟩,
  ⟨"GRP_ORIGIN", 0x18, 0, 1, 64, [⟨"GRP_ORIGIN_ORIGIN", F.GRP_ORIGIN_ORIGIN, .rw, .P, anyVal⟩]⟩,
  ⟨"GRP_WIDTH", 0x20, 0, 1, 32, [⟨"GRP_WIDTH_WIDTH", F.GRP_WIDTH_WIDTH, .ro, .L, anyVal⟩]⟩,
  ⟨"SELV_CFG", 0x24, 0, 1, 32, [⟨"SELV_CFG_SELV_EN", F.SELV_CFG_SELV_EN, .rw, .P, anyVal⟩, ⟨"SELV_CFG_POL", F.SELV_CFG_POL, .rw, .P, anyVal⟩, ⟨"SELV_CFG_MASK_EN", F.SELV_CFG_MASK_EN, .rw, .P, anyVal⟩, ⟨"SELV_CFG_AVG_LOG", F.SELV_CFG_AVG_LOG, .rw, .P, rng 0 8⟩, ⟨"SELV_CFG_THR", F.SELV_CFG_THR, .rw, .P, anyVal⟩]⟩,
  ⟨"SELV_LWIN", 0x28, 0, 1, 64, [⟨"SELV_LWIN_MAX", F.SELV_LWIN_MAX, .rw, .P, anyVal⟩, ⟨"SELV_LWIN_MIN", F.SELV_LWIN_MIN, .rw, .P, anyVal⟩]⟩,
  ⟨"SELV_RWIN", 0x30, 0, 1, 64, [⟨"SELV_RWIN_MAX", F.SELV_RWIN_MAX, .rw, .P, anyVal⟩, ⟨"SELV_RWIN_MIN", F.SELV_RWIN_MIN, .rw, .P, anyVal⟩]⟩,
  ⟨"SELV_MARGIN", 0x38, 0, 1, 32, [⟨"SELV_MARGIN_MARGIN", F.SELV_MARGIN_MARGIN, .rw, .P, anyVal⟩]⟩,
  ⟨"SELV_POS", 0x40, 0, 1, 64, [⟨"SELV_POS_RIGHT", F.SELV_POS_RIGHT, .ro, .L, anyVal⟩, ⟨"SELV_POS_LEFT", F.SELV_POS_LEFT, .ro, .L, anyVal⟩]⟩] ++
  [
  ⟨"SELV_STATUS", 0x48, 0, 1, 32, [⟨"SELV_STATUS_RIGHT_LOST", F.SELV_STATUS_RIGHT_LOST, .w1c, .L, anyVal⟩, ⟨"SELV_STATUS_LEFT_LOST", F.SELV_STATUS_LEFT_LOST, .w1c, .L, anyVal⟩]⟩,
  ⟨"SEAM_RING", 0x4C, 0, 1, 32, [⟨"SEAM_RING_RING_EN", F.SEAM_RING_RING_EN, .rw, .S, anyVal⟩, ⟨"SEAM_RING_RING", F.SEAM_RING_RING, .rw, .S, anyVal⟩]⟩,
  ⟨"GRP_HOLD", 0x50, 0, 1, 32, [⟨"GRP_HOLD_HOLDING", F.GRP_HOLD_HOLDING, .ro, .L, anyVal⟩]⟩]

def regsOf_seg : List RegSpec :=
  [
  ⟨"SEG_CH_CFG", 0x0, 0, 1, 32, [⟨"SEG_CH_CFG_WMASK_EN", F.SEG_CH_CFG_WMASK_EN, .rw, .P, anyVal⟩]⟩,
  ⟨"SEG_RUNS", 0x4, 0, 1, 32, [⟨"SEG_RUNS_COUNT", F.SEG_RUNS_COUNT, .rc, .L, anyVal⟩]⟩,
  ⟨"SEG_HALO_WAIT", 0x8, 0, 1, 32, [⟨"SEG_HALO_WAIT_COUNT", F.SEG_HALO_WAIT_COUNT, .rc, .L, anyVal⟩]⟩,
  ⟨"WMASK", 0x400, 4, 512, 32, [⟨"WMASK_MASK", F.WMASK_MASK, .rw, .P, anyVal⟩]⟩]

def regsOf_gseg : List RegSpec :=
  [
  ⟨"SEG_CTRL", 0x0, 0, 1, 32, [⟨"SEG_CTRL_SEG_EN", F.SEG_CTRL_SEG_EN, .rw, .S, anyVal⟩, ⟨"SEG_CTRL_BRIDGE_EN", F.SEG_CTRL_BRIDGE_EN, .rw, .P, anyVal⟩, ⟨"SEG_CTRL_FREEZE_FG", F.SEG_CTRL_FREEZE_FG, .rw, .P, anyVal⟩, ⟨"SEG_CTRL_CLASS_EN", F.SEG_CTRL_CLASS_EN, .rw, .P, anyVal⟩]⟩,
  ⟨"FILT_CFG", 0x4, 0, 1, 32, [⟨"FILT_CFG_FILT_EN", F.FILT_CFG_FILT_EN, .rw, .P, anyVal⟩, ⟨"FILT_CFG_KY", F.FILT_CFG_KY, .rw, .P, anyVal⟩, ⟨"FILT_CFG_KX", F.FILT_CFG_KX, .rw, .P, anyVal⟩, ⟨"FILT_CFG_SHY", F.FILT_CFG_SHY, .rw, .P, rng 0 20⟩, ⟨"FILT_CFG_SHX", F.FILT_CFG_SHX, .rw, .P, rng 0 20⟩]⟩,
  ⟨"FILT_X", 0x8, 4, 4, 32, [⟨"FILT_X_CX_HI", F.FILT_X_CX_HI, .rw, .P, anyVal⟩, ⟨"FILT_X_CX_LO", F.FILT_X_CX_LO, .rw, .P, anyVal⟩]⟩,
  ⟨"FILT_Y", 0x18, 4, 4, 32, [⟨"FILT_Y_CY_HI", F.FILT_Y_CY_HI, .rw, .P, anyVal⟩, ⟨"FILT_Y_CY_LO", F.FILT_Y_CY_LO, .rw, .P, anyVal⟩]⟩,
  ⟨"BG_CFG", 0x28, 0, 1, 32, [⟨"BG_CFG_BG_WARM", F.BG_CFG_BG_WARM, .rw, .P, anyVal⟩, ⟨"BG_CFG_BG_LOG", F.BG_CFG_BG_LOG, .rw, .P, rng 1 16⟩]⟩,
  ⟨"THR_D", 0x30, 8, 4, 32, [⟨"THR_D_REL_D", F.THR_D_REL_D, .rw, .P, anyVal⟩, ⟨"THR_D_ABS_D", F.THR_D_ABS_D, .rw, .P, anyVal⟩]⟩,
  ⟨"THR_B", 0x34, 8, 4, 32, [⟨"THR_B_REL_B", F.THR_B_REL_B, .rw, .P, anyVal⟩, ⟨"THR_B_ABS_B", F.THR_B_ABS_B, .rw, .P, anyVal⟩]⟩,
  ⟨"MORPH", 0x50, 0, 1, 32, [⟨"MORPH_SHAPE_0", F.MORPH_SHAPE_0, .rw, .P, anyVal⟩, ⟨"MORPH_SHAPE_1", F.MORPH_SHAPE_1, .rw, .P, anyVal⟩, ⟨"MORPH_SHAPE_2", F.MORPH_SHAPE_2, .rw, .P, anyVal⟩, ⟨"MORPH_SHAPE_3", F.MORPH_SHAPE_3, .rw, .P, anyVal⟩, ⟨"MORPH_OP_0", F.MORPH_OP_0, .rw, .P, rng 0 2⟩, ⟨"MORPH_OP_1", F.MORPH_OP_1, .rw, .P, rng 0 2⟩, ⟨"MORPH_OP_2", F.MORPH_OP_2, .rw, .P, rng 0 2⟩, ⟨"MORPH_OP_3", F.MORPH_OP_3, .rw, .P, rng 0 2⟩]⟩,
  ⟨"LAB_CFG", 0x54, 0, 1, 32, [⟨"LAB_CFG_SPLIT_LEN", F.LAB_CFG_SPLIT_LEN, .rw, .P, rng 256 65535⟩, ⟨"LAB_CFG_RUN_MARGIN", F.LAB_CFG_RUN_MARGIN, .rw, .S, rng 0 16⟩]⟩,
  ⟨"RUN_MAX", 0x58, 0, 1, 32, [⟨"RUN_MAX", F.RUN_MAX, .rw, .P, rng 1024 16777215⟩]⟩,
  ⟨"COMP_MAX", 0x5C, 0, 1, 32, [⟨"COMP_MAX", F.COMP_MAX, .rw, .S, rng 1 65536⟩]⟩,
  ⟨"RS_BASE", 0x60, 0, 1, 64, [⟨"RS_BASE_ADDR", F.RS_BASE_ADDR, .rw, .S, aligned 4096⟩]⟩] ++
  [
  ⟨"RS_CFG", 0x68, 0, 1, 32, [⟨"RS_CFG_CHUNKS", F.RS_CFG_CHUNKS, .rw, .S, anyVal⟩]⟩,
  ⟨"DESC_RING", 0x6C, 0, 1, 32, [⟨"DESC_RING_RING", F.DESC_RING_RING, .rw, .S, anyVal⟩]⟩,
  ⟨"MASK_HOLD", 0x70, 0, 1, 32, [⟨"MASK_HOLD_NOW", F.MASK_HOLD_NOW, .wo, .L, anyVal⟩, ⟨"MASK_HOLD_HOLD_LEN", F.MASK_HOLD_HOLD_LEN, .rw, .L, anyVal⟩]⟩,
  ⟨"SEG_STATUS", 0x74, 0, 1, 32, [⟨"SEG_STATUS_RUNSTORE_FULL", F.SEG_STATUS_RUNSTORE_FULL, .w1c, .L, anyVal⟩, ⟨"SEG_STATUS_OVF_EV", F.SEG_STATUS_OVF_EV, .w1c, .L, anyVal⟩, ⟨"SEG_STATUS_HOLD_ACTIVE", F.SEG_STATUS_HOLD_ACTIVE, .ro, .L, anyVal⟩, ⟨"SEG_STATUS_WARM", F.SEG_STATUS_WARM, .ro, .L, anyVal⟩]⟩,
  ⟨"COMP_OPEN", 0x78, 0, 1, 32, [⟨"COMP_OPEN_OPEN", F.COMP_OPEN_OPEN, .ro, .L, anyVal⟩]⟩,
  ⟨"COMP_PEAK", 0x7C, 0, 1, 32, [⟨"COMP_PEAK_PEAK", F.COMP_PEAK_PEAK, .rc, .L, anyVal⟩]⟩,
  ⟨"OVF_PIX", 0x80, 0, 1, 64, [⟨"OVF_PIX_COUNT", F.OVF_PIX_COUNT, .rc, .L, anyVal⟩]⟩,
  ⟨"OVF_COURSES", 0x88, 0, 1, 32, [⟨"OVF_COURSES_COUNT", F.OVF_COURSES_COUNT, .rc, .L, anyVal⟩]⟩,
  ⟨"RUN_DROP", 0x8C, 0, 1, 32, [⟨"RUN_DROP_COUNT", F.RUN_DROP_COUNT, .rc, .L, anyVal⟩]⟩,
  ⟨"DESC_WAIT", 0x90, 0, 1, 32, [⟨"DESC_WAIT_COUNT", F.DESC_WAIT_COUNT, .rc, .L, anyVal⟩]⟩,
  ⟨"RS_FREE", 0x94, 0, 1, 32, [⟨"RS_FREE_FREE", F.RS_FREE_FREE, .ro, .L, anyVal⟩]⟩,
  ⟨"DESC_COUNT", 0x98, 0, 1, 64, [⟨"DESC_COUNT_COUNT", F.DESC_COUNT_COUNT, .ro, .L, anyVal⟩]⟩] ++
  [
  ⟨"FILT_SAT", 0xA0, 0, 1, 32, [⟨"FILT_SAT_COUNT", F.FILT_SAT_COUNT, .rc, .L, anyVal⟩]⟩]

def regsOf_gtally : List RegSpec :=
  [
  ⟨"TALLY_CTRL", 0x0, 0, 1, 32, [⟨"TALLY_CTRL_TALLY_EN", F.TALLY_CTRL_TALLY_EN, .rw, .S, anyVal⟩, ⟨"TALLY_CTRL_TMO", F.TALLY_CTRL_TMO, .rw, .S, rng 1 65535⟩]⟩,
  ⟨"TALLY_SEQ", 0x8, 0, 1, 64, [⟨"TALLY_SEQ_SEQ", F.TALLY_SEQ_SEQ, .rw, .S, anyVal⟩]⟩,
  ⟨"ENG_MASK", 0x10, 4, 4, 32, [⟨"ENG_MASK_MASK", F.ENG_MASK_MASK, .rw, .S, anyVal⟩]⟩,
  ⟨"HIST_BASE", 0x20, 0, 1, 64, [⟨"HIST_BASE_ADDR", F.HIST_BASE_ADDR, .rw, .S, aligned 2097152⟩]⟩,
  ⟨"ENC0", 0x28, 0, 1, 64, [⟨"ENC0", F.ENC0, .ro, .L, anyVal⟩]⟩,
  ⟨"PATCH_CFG", 0x30, 0, 1, 32, [⟨"PATCH_CFG_PATCH_EN", F.PATCH_CFG_PATCH_EN, .rw, .P, anyVal⟩, ⟨"PATCH_CFG_PATCH_8BIT", F.PATCH_CFG_PATCH_8BIT, .rw, .P, anyVal⟩, ⟨"PATCH_CFG_FILL_MODE", F.PATCH_CFG_FILL_MODE, .rw, .P, anyVal⟩, ⟨"PATCH_CFG_PATCH_MAX", F.PATCH_CFG_PATCH_MAX, .rw, .P, rng 16 256⟩, ⟨"PATCH_CFG_PATCH_FILL", F.PATCH_CFG_PATCH_FILL, .rw, .P, anyVal⟩]⟩,
  ⟨"PATCH_RING", 0x34, 0, 1, 32, [⟨"PATCH_RING_RING", F.PATCH_RING_RING, .rw, .S, anyVal⟩]⟩,
  ⟨"RES_RING", 0x38, 4, 4, 32, [⟨"RES_RING_EN", F.RES_RING_EN, .rw, .S, anyVal⟩, ⟨"RES_RING_ORDER", F.RES_RING_ORDER, .rw, .S, anyVal⟩, ⟨"RES_RING_FULL_DROP", F.RES_RING_FULL_DROP, .rw, .S, anyVal⟩, ⟨"RES_RING_RING", F.RES_RING_RING, .rw, .S, anyVal⟩]⟩,
  ⟨"TALLY_STATUS", 0x48, 0, 1, 32, [⟨"TALLY_STATUS_DRAIN", F.TALLY_STATUS_DRAIN, .ro, .L, anyVal⟩, ⟨"TALLY_STATUS_HIST_LOST_EV", F.TALLY_STATUS_HIST_LOST_EV, .w1c, .L, anyVal⟩, ⟨"TALLY_STATUS_PATCH_DROP_EV", F.TALLY_STATUS_PATCH_DROP_EV, .w1c, .L, anyVal⟩, ⟨"TALLY_STATUS_TALLY_FAIL", F.TALLY_STATUS_TALLY_FAIL, .w1c, .L, anyVal⟩, ⟨"TALLY_STATUS_ENG_FAULT", F.TALLY_STATUS_ENG_FAULT, .w1c, .L, anyVal⟩]⟩,
  ⟨"JOBS_OPEN", 0x4C, 0, 1, 32, [⟨"JOBS_OPEN_OPEN", F.JOBS_OPEN_OPEN, .ro, .L, anyVal⟩]⟩,
  ⟨"REDISPATCH", 0x50, 0, 1, 32, [⟨"REDISPATCH_COUNT", F.REDISPATCH_COUNT, .rc, .L, anyVal⟩]⟩,
  ⟨"PATCH_DROP", 0x54, 0, 1, 32, [⟨"PATCH_DROP_COUNT", F.PATCH_DROP_COUNT, .rc, .L, anyVal⟩]⟩] ++
  [
  ⟨"RES_DROP", 0x58, 4, 4, 32, [⟨"RES_DROP_COUNT", F.RES_DROP_COUNT, .rc, .L, anyVal⟩]⟩,
  ⟨"REC_COUNT", 0x68, 0, 1, 64, [⟨"REC_COUNT_COUNT", F.REC_COUNT_COUNT, .ro, .L, anyVal⟩]⟩,
  ⟨"SLOT_CTRL", 0x80, 16, 8, 32, [⟨"SLOT_CTRL_EN", F.SLOT_CTRL_EN, .rw, .P, anyVal⟩, ⟨"SLOT_CTRL_CLASS_MASK", F.SLOT_CTRL_CLASS_MASK, .rw, .P, anyVal⟩]⟩,
  ⟨"SLOT_AMIN", 0x84, 16, 8, 32, [⟨"SLOT_AMIN_AREA_MIN", F.SLOT_AMIN_AREA_MIN, .rw, .P, anyVal⟩]⟩,
  ⟨"SLOT_AMAX", 0x88, 16, 8, 32, [⟨"SLOT_AMAX_AREA_MAX", F.SLOT_AMAX_AREA_MAX, .rw, .P, anyVal⟩]⟩,
  ⟨"SLOT_DESC", 0x8C, 16, 8, 32, [⟨"SLOT_DESC_ADDR", F.SLOT_DESC_ADDR, .rw, .P, anyVal⟩]⟩]

def regsOf_te : List RegSpec :=
  [
  ⟨"TE_STATUS", 0x0, 0, 1, 32, [⟨"TE_STATUS_GROUP", F.TE_STATUS_GROUP, .ro, .L, anyVal⟩, ⟨"TE_STATUS_PARITY", F.TE_STATUS_PARITY, .w1c, .L, anyVal⟩, ⟨"TE_STATUS_RESIDUE", F.TE_STATUS_RESIDUE, .w1c, .L, anyVal⟩, ⟨"TE_STATUS_TIMEOUT", F.TE_STATUS_TIMEOUT, .w1c, .L, anyVal⟩, ⟨"TE_STATUS_STATE", F.TE_STATUS_STATE, .ro, .L, anyVal⟩]⟩,
  ⟨"TE_CTRL", 0x4, 0, 1, 32, [⟨"TE_CTRL_RESTORE", F.TE_CTRL_RESTORE, .wo, .L, anyVal⟩]⟩,
  ⟨"TE_JOBS", 0x8, 0, 1, 64, [⟨"TE_JOBS_COUNT", F.TE_JOBS_COUNT, .ro, .L, anyVal⟩]⟩,
  ⟨"TE_FAULTS", 0x10, 0, 1, 32, [⟨"TE_FAULTS_COUNT", F.TE_FAULTS_COUNT, .rc, .L, anyVal⟩]⟩]

def regsOf_cmp : List RegSpec :=
  [
  ⟨"CMP_CTRL", 0x0, 0, 1, 32, [⟨"CMP_CTRL_EN", F.CMP_CTRL_EN, .rw, .L, anyVal⟩, ⟨"CMP_CTRL_FILL_EN", F.CMP_CTRL_FILL_EN, .rw, .S, anyVal⟩, ⟨"CMP_CTRL_FIRST_ONLY", F.CMP_CTRL_FIRST_ONLY, .rw, .S, anyVal⟩, ⟨"CMP_CTRL_LATE_MODE", F.CMP_CTRL_LATE_MODE, .rw, .S, anyVal⟩, ⟨"CMP_CTRL_POL", F.CMP_CTRL_POL, .rw, .S, anyVal⟩, ⟨"CMP_CTRL_OUT_SEL", F.CMP_CTRL_OUT_SEL, .rw, .S, anyVal⟩, ⟨"CMP_CTRL_HOLD_EN", F.CMP_CTRL_HOLD_EN, .rw, .S, anyVal⟩, ⟨"CMP_CTRL_FLOG_EN", F.CMP_CTRL_FLOG_EN, .rw, .S, anyVal⟩, ⟨"CMP_CTRL_FILL_GROUP", F.CMP_CTRL_FILL_GROUP, .rw, .S, anyVal⟩, ⟨"CMP_CTRL_SRC", F.CMP_CTRL_SRC, .rw, .S, anyVal⟩]⟩,
  ⟨"CMP_PULSE", 0x4, 0, 1, 32, [⟨"CMP_PULSE_LEAD_US", F.CMP_PULSE_LEAD_US, .rw, .S, anyVal⟩, ⟨"CMP_PULSE_PULSE_W", F.CMP_PULSE_PULSE_W, .rw, .S, rng 1 65535⟩]⟩,
  ⟨"CMP_DIST", 0x8, 0, 1, 64, [⟨"CMP_DIST_DIST", F.CMP_DIST_DIST, .rw, .S, anyVal⟩]⟩,
  ⟨"CMP_XMIN", 0x10, 0, 1, 64, [⟨"CMP_XMIN_XMIN", F.CMP_XMIN_XMIN, .rw, .S, anyVal⟩]⟩,
  ⟨"CMP_XMAX", 0x18, 0, 1, 64, [⟨"CMP_XMAX_XMAX", F.CMP_XMAX_XMAX, .rw, .S, anyVal⟩]⟩,
  ⟨"CMP_SCORE", 0x20, 0, 1, 32, [⟨"CMP_SCORE_SCORE_MIN", F.CMP_SCORE_SCORE_MIN, .rw, .S, anyVal⟩]⟩,
  ⟨"CMP_FILL_RING", 0x24, 0, 1, 32, [⟨"CMP_FILL_RING_RING", F.CMP_FILL_RING_RING, .rw, .S, anyVal⟩]⟩,
  ⟨"CMP_FLOG_RING", 0x28, 0, 1, 32, [⟨"CMP_FLOG_RING_RING", F.CMP_FLOG_RING_RING, .rw, .S, anyVal⟩]⟩,
  ⟨"CMP_LABEL", 0x30, 4, 8, 32, [⟨"CMP_LABEL_MASK", F.CMP_LABEL_MASK, .rw, .S, anyVal⟩]⟩,
  ⟨"CMP_HWM", 0x50, 0, 1, 64, [⟨"CMP_HWM_CHWM", F.CMP_HWM_CHWM, .ro, .L, anyVal⟩]⟩,
  ⟨"CMP_NEXT", 0x58, 0, 1, 64, [⟨"CMP_NEXT_POS", F.CMP_NEXT_POS, .ro, .L, anyVal⟩]⟩,
  ⟨"CMP_STATUS", 0x60, 0, 1, 32, [⟨"CMP_STATUS_ENTRIES", F.CMP_STATUS_ENTRIES, .ro, .L, anyVal⟩, ⟨"CMP_STATUS_ACTIVE", F.CMP_STATUS_ACTIVE, .ro, .L, anyVal⟩, ⟨"CMP_STATUS_FIRE_EV", F.CMP_STATUS_FIRE_EV, .w1c, .L, anyVal⟩, ⟨"CMP_STATUS_LATE", F.CMP_STATUS_LATE, .w1c, .L, anyVal⟩, ⟨"CMP_STATUS_FULL", F.CMP_STATUS_FULL, .w1c, .L, anyVal⟩]⟩] ++
  [
  ⟨"CMP_LEAD_CNT", 0x64, 0, 1, 32, [⟨"CMP_LEAD_CNT_LEAD_CNT", F.CMP_LEAD_CNT_LEAD_CNT, .ro, .L, anyVal⟩]⟩,
  ⟨"CMP_FIRES", 0x68, 0, 1, 32, [⟨"CMP_FIRES_COUNT", F.CMP_FIRES_COUNT, .rc, .L, anyVal⟩]⟩,
  ⟨"CMP_LATE", 0x6C, 0, 1, 32, [⟨"CMP_LATE_COUNT", F.CMP_LATE_COUNT, .rc, .L, anyVal⟩]⟩,
  ⟨"CMP_DROP", 0x70, 0, 1, 32, [⟨"CMP_DROP_COUNT", F.CMP_DROP_COUNT, .rc, .L, anyVal⟩]⟩,
  ⟨"CMP_MERGE", 0x74, 0, 1, 32, [⟨"CMP_MERGE_COUNT", F.CMP_MERGE_COUNT, .rc, .L, anyVal⟩]⟩,
  ⟨"CMP_HELD", 0x78, 0, 1, 32, [⟨"CMP_HELD_COUNT", F.CMP_HELD_COUNT, .rc, .L, anyVal⟩]⟩,
  ⟨"FLOG_DROP", 0x7C, 0, 1, 32, [⟨"FLOG_DROP_COUNT", F.FLOG_DROP_COUNT, .rc, .L, anyVal⟩]⟩,
  ⟨"LIST_POS", 0x80, 0, 1, 64, [⟨"LIST_POS_POS", F.LIST_POS_POS, .wo, .L, anyVal⟩]⟩,
  ⟨"LIST_ID", 0x88, 0, 1, 64, [⟨"LIST_ID_ID", F.LIST_ID_ID, .wo, .L, anyVal⟩]⟩,
  ⟨"LIST_CMD", 0x90, 0, 1, 32, [⟨"LIST_CMD_CLEAR", F.LIST_CMD_CLEAR, .wo, .L, anyVal⟩, ⟨"LIST_CMD_INSERT", F.LIST_CMD_INSERT, .wo, .L, anyVal⟩]⟩]

def regsOf_cmpG : List RegSpec :=
  [
  ⟨"MARK_HOLD_CTRL", 0x1000, 0, 1, 32, [⟨"MARK_HOLD_CTRL_HOLD", F.MARK_HOLD_CTRL_HOLD, .rw, .L, anyVal⟩]⟩]

def regsOf_th : List RegSpec :=
  [
  ⟨"TH_CTRL", 0x0, 0, 1, 32, [⟨"TH_CTRL_TH_EN", F.TH_CTRL_TH_EN, .rw, .L, anyVal⟩, ⟨"TH_CTRL_STAGGER", F.TH_CTRL_STAGGER, .rw, .S, anyVal⟩, ⟨"TH_CTRL_TEMP_INV", F.TH_CTRL_TEMP_INV, .rw, .S, anyVal⟩, ⟨"TH_CTRL_AUTH_REQ", F.TH_CTRL_AUTH_REQ, .wo, .L, anyVal⟩, ⟨"TH_CTRL_TH_AUX", F.TH_CTRL_TH_AUX, .rw, .S, anyVal⟩, ⟨"TH_CTRL_TH_SRC", F.TH_CTRL_TH_SRC, .rw, .S, anyVal⟩, ⟨"TH_CTRL_DOTS", F.TH_CTRL_DOTS, .rw, .S, fun v => v % 4 == 0 && rng 64 2048 v⟩]⟩,
  ⟨"TH_TIME", 0x4, 0, 1, 32, [⟨"TH_TIME_CLK_DIV", F.TH_TIME_CLK_DIV, .rw, .S, rng 6 255⟩, ⟨"TH_TIME_LINE_PER", F.TH_TIME_LINE_PER, .rw, .S, anyVal⟩]⟩,
  ⟨"TH_BAND", 0xC, 4, 3, 32, [⟨"TH_BAND_BAND", F.TH_BAND_BAND, .rw, .S, anyVal⟩]⟩,
  ⟨"TH_SOFT", 0x18, 0, 1, 32, [⟨"TH_SOFT_SOFT", F.TH_SOFT_SOFT, .rw, .S, anyVal⟩]⟩,
  ⟨"TH_HARD", 0x1C, 0, 1, 32, [⟨"TH_HARD_HARD", F.TH_HARD_HARD, .rw, .S, anyVal⟩]⟩,
  ⟨"TH_HYST", 0x20, 0, 1, 32, [⟨"TH_HYST_HYST", F.TH_HYST_HYST, .rw, .S, anyVal⟩]⟩,
  ⟨"TH_ENERGY", 0x40, 4, 8, 32, [⟨"TH_ENERGY_E_HI", F.TH_ENERGY_E_HI, .rw, .S, anyVal⟩, ⟨"TH_ENERGY_E_LO", F.TH_ENERGY_E_LO, .rw, .S, anyVal⟩]⟩,
  ⟨"TH_JOB_RING", 0x60, 0, 1, 32, [⟨"TH_JOB_RING_RING", F.TH_JOB_RING_RING, .rw, .S, anyVal⟩]⟩,
  ⟨"TH_RES_RING", 0x64, 0, 1, 32, [⟨"TH_RES_RING_RING", F.TH_RES_RING_RING, .rw, .S, anyVal⟩]⟩,
  ⟨"TH_DMA", 0x68, 0, 1, 32, [⟨"TH_DMA_CHANNEL", F.TH_DMA_CHANNEL, .rw, .S, anyVal⟩]⟩,
  ⟨"TPL_BASE", 0x70, 0, 1, 64, [⟨"TPL_BASE_ADDR", F.TPL_BASE_ADDR, .rw, .S, aligned 32⟩]⟩,
  ⟨"TPL_CFG", 0x78, 0, 1, 32, [⟨"TPL_CFG_TPL_FEED", F.TPL_CFG_TPL_FEED, .rw, .S, anyVal⟩, ⟨"TPL_CFG_TPL_LINES", F.TPL_CFG_TPL_LINES, .rw, .S, anyVal⟩]⟩] ++
  [
  ⟨"TH_STATUS", 0x80, 0, 1, 32, [⟨"TH_STATUS_TEMP_WAIT", F.TH_STATUS_TEMP_WAIT, .ro, .L, anyVal⟩, ⟨"TH_STATUS_BUSY", F.TH_STATUS_BUSY, .ro, .L, anyVal⟩, ⟨"TH_STATUS_CASS_OK", F.TH_STATUS_CASS_OK, .ro, .L, anyVal⟩, ⟨"TH_STATUS_CASS_FAIL", F.TH_STATUS_CASS_FAIL, .w1c, .L, anyVal⟩, ⟨"TH_STATUS_CASS_EV", F.TH_STATUS_CASS_EV, .w1c, .L, anyVal⟩, ⟨"TH_STATUS_VOID_EV", F.TH_STATUS_VOID_EV, .w1c, .L, anyVal⟩, ⟨"TH_STATUS_SOFT_EV", F.TH_STATUS_SOFT_EV, .w1c, .L, anyVal⟩, ⟨"TH_STATUS_JAM", F.TH_STATUS_JAM, .ro, .L, anyVal⟩, ⟨"TH_STATUS_STOCK", F.TH_STATUS_STOCK, .ro, .L, anyVal⟩, ⟨"TH_STATUS_OPEN", F.TH_STATUS_OPEN, .ro, .L, anyVal⟩]⟩,
  ⟨"CASS_COUNT", 0x84, 0, 1, 32, [⟨"CASS_COUNT_COUNT", F.CASS_COUNT_COUNT, .ro, .L, anyVal⟩]⟩,
  ⟨"CASS_SERIAL", 0x88, 0, 1, 64, [⟨"CASS_SERIAL_SERIAL", F.CASS_SERIAL_SERIAL, .ro, .L, anyVal⟩]⟩,
  ⟨"VOID_CNT", 0x90, 0, 1, 32, [⟨"VOID_CNT_COUNT", F.VOID_CNT_COUNT, .rc, .L, anyVal⟩]⟩,
  ⟨"SOFT_CNT", 0x94, 0, 1, 32, [⟨"SOFT_CNT_COUNT", F.SOFT_CNT_COUNT, .rc, .L, anyVal⟩]⟩,
  ⟨"UNDERRUN", 0x98, 0, 1, 32, [⟨"UNDERRUN_COUNT", F.UNDERRUN_COUNT, .rc, .L, anyVal⟩]⟩,
  ⟨"AUTO_DROP", 0x9C, 0, 1, 32, [⟨"AUTO_DROP_COUNT", F.AUTO_DROP_COUNT, .rc, .L, anyVal⟩]⟩,
  ⟨"TH_REMAP", 0x1000, 4, 1024, 32, [⟨"TH_REMAP_SLOT_HI", F.TH_REMAP_SLOT_HI, .rw, .S, anyVal⟩, ⟨"TH_REMAP_SLOT_LO", F.TH_REMAP_SLOT_LO, .rw, .S, anyVal⟩]⟩]

def regsOf_cmd : List RegSpec :=
  [
  ⟨"CMD_CFG", 0x0, 0, 1, 32, [⟨"CMD_CFG_UDP_PORT", F.CMD_CFG_UDP_PORT, .ro, .L, anyVal⟩, ⟨"CMD_CFG_AUTH_RATE", F.CMD_CFG_AUTH_RATE, .rw, .L, anyVal⟩]⟩,
  ⟨"CMD_STATUS", 0x4, 0, 1, 32, [⟨"CMD_STATUS_SESSIONS", F.CMD_STATUS_SESSIONS, .ro, .L, anyVal⟩, ⟨"CMD_STATUS_HELD", F.CMD_STATUS_HELD, .ro, .L, anyVal⟩]⟩,
  ⟨"CMD_EVENT", 0x8, 0, 1, 32, [⟨"CMD_EVENT_HELD_EV", F.CMD_EVENT_HELD_EV, .w1c, .L, anyVal⟩, ⟨"CMD_EVENT_AUTH_EV", F.CMD_EVENT_AUTH_EV, .w1c, .L, anyVal⟩]⟩,
  ⟨"CMD_FRAME_DROP", 0xC, 0, 1, 32, [⟨"CMD_FRAME_DROP_COUNT", F.CMD_FRAME_DROP_COUNT, .rc, .L, anyVal⟩]⟩,
  ⟨"CMD_AUTH_FAIL", 0x10, 0, 1, 32, [⟨"CMD_AUTH_FAIL_COUNT", F.CMD_AUTH_FAIL_COUNT, .rc, .L, anyVal⟩]⟩,
  ⟨"CMD_NO_SESSION", 0x14, 0, 1, 32, [⟨"CMD_NO_SESSION_COUNT", F.CMD_NO_SESSION_COUNT, .rc, .L, anyVal⟩]⟩,
  ⟨"CMD_RATE_DROP", 0x18, 0, 1, 32, [⟨"CMD_RATE_DROP_COUNT", F.CMD_RATE_DROP_COUNT, .rc, .L, anyVal⟩]⟩,
  ⟨"CMD_HELD_DISCARD", 0x1C, 0, 1, 32, [⟨"CMD_HELD_DISCARD_COUNT", F.CMD_HELD_DISCARD_COUNT, .rc, .L, anyVal⟩]⟩,
  ⟨"CMD_COUNT", 0x20, 0, 1, 64, [⟨"CMD_COUNT_COUNT", F.CMD_COUNT_COUNT, .ro, .L, anyVal⟩]⟩]

def regsOf_pat : List RegSpec :=
  [
  ⟨"PAT_STATUS", 0x0, 0, 1, 32, [⟨"PAT_STATUS_CANCEL_EV", F.PAT_STATUS_CANCEL_EV, .w1c, .L, anyVal⟩, ⟨"PAT_STATUS_SWAP_EV", F.PAT_STATUS_SWAP_EV, .w1c, .L, anyVal⟩, ⟨"PAT_STATUS_PHASE", F.PAT_STATUS_PHASE, .ro, .L, anyVal⟩]⟩,
  ⟨"PAT_REJECT", 0x4, 0, 1, 32, [⟨"PAT_REJECT_COUNT", F.PAT_REJECT_COUNT, .rc, .L, anyVal⟩]⟩,
  ⟨"PAT_SWAP_COURSE", 0x8, 0, 1, 64, [⟨"PAT_SWAP_COURSE_COURSE", F.PAT_SWAP_COURSE_COURSE, .ro, .L, anyVal⟩]⟩,
  ⟨"PAT_SWAPS", 0x10, 0, 1, 64, [⟨"PAT_SWAPS_COUNT", F.PAT_SWAPS_COUNT, .ro, .L, anyVal⟩]⟩]

def regsOf_dev : List RegSpec :=
  [
  ⟨"DEV_PART", 0x0, 0, 1, 32, [⟨"DEV_PART_PART", F.DEV_PART_PART, .ro, .L, anyVal⟩, ⟨"DEV_PART_DIE_REV", F.DEV_PART_DIE_REV, .ro, .L, anyVal⟩]⟩,
  ⟨"DEV_NUM", 0x4, 0, 1, 32, [⟨"DEV_NUM_DEVNUM", F.DEV_NUM_DEVNUM, .rw, .S, anyVal⟩]⟩,
  ⟨"DEV_SERIAL", 0x8, 0, 1, 64, [⟨"DEV_SERIAL_SERIAL", F.DEV_SERIAL_SERIAL, .ro, .L, anyVal⟩]⟩,
  ⟨"FW_VERSION", 0x10, 0, 1, 32, [⟨"FW_VERSION_FW_VER", F.FW_VERSION_FW_VER, .ro, .L, anyVal⟩]⟩,
  ⟨"IMAGE_VERSION", 0x14, 0, 1, 32, [⟨"IMAGE_VERSION_IMAGE_VER", F.IMAGE_VERSION_IMAGE_VER, .ro, .L, anyVal⟩]⟩,
  ⟨"CAST_STATUS", 0x18, 0, 1, 32, [⟨"CAST_STATUS_BINDING", F.CAST_STATUS_BINDING, .ro, .L, anyVal⟩, ⟨"CAST_STATUS_BIND_DONE", F.CAST_STATUS_BIND_DONE, .ro, .L, anyVal⟩, ⟨"CAST_STATUS_READY", F.CAST_STATUS_READY, .ro, .L, anyVal⟩, ⟨"CAST_STATUS_IMAGE", F.CAST_STATUS_IMAGE, .ro, .L, anyVal⟩, ⟨"CAST_STATUS_PHASE", F.CAST_STATUS_PHASE, .ro, .L, anyVal⟩]⟩,
  ⟨"DEGRADED", 0x1C, 0, 1, 32, [⟨"DEGRADED_BITS", F.DEGRADED_BITS, .ro, .L, anyVal⟩]⟩,
  ⟨"DEV_EVENT", 0x20, 0, 1, 32, [⟨"DEV_EVENT_DEGRADE_EV", F.DEV_EVENT_DEGRADE_EV, .w1c, .L, anyVal⟩, ⟨"DEV_EVENT_DUP_EV", F.DEV_EVENT_DUP_EV, .w1c, .L, anyVal⟩]⟩,
  ⟨"ANN_CFG", 0x24, 0, 1, 32, [⟨"ANN_CFG_ANN_PORT", F.ANN_CFG_ANN_PORT, .ro, .L, anyVal⟩, ⟨"ANN_CFG_ANN_PER", F.ANN_CFG_ANN_PER, .rw, .L, anyVal⟩]⟩,
  ⟨"BIND_CFG", 0x28, 0, 1, 32, [⟨"BIND_CFG_FLUSH_TMO", F.BIND_CFG_FLUSH_TMO, .rw, .L, anyVal⟩]⟩,
  ⟨"CAST_TIME", 0x2C, 0, 1, 32, [⟨"CAST_TIME_MS", F.CAST_TIME_MS, .ro, .L, anyVal⟩]⟩,
  ⟨"BOOT_COUNT", 0x30, 0, 1, 32, [⟨"BOOT_COUNT_COUNT", F.BOOT_COUNT_COUNT, .ro, .L, anyVal⟩]⟩] ++
  [
  ⟨"REGION_EN", 0x34, 0, 1, 32, [⟨"REGION_EN_EN", F.REGION_EN_EN, .ro, .L, anyVal⟩]⟩]

def regsOf_fuse : List RegSpec :=
  [
  ⟨"FUSE_STATUS", 0x0, 0, 1, 32, [⟨"FUSE_STATUS_DEBUG_LOCKED", F.FUSE_STATUS_DEBUG_LOCKED, .ro, .L, anyVal⟩, ⟨"FUSE_STATUS_PROG_ERR", F.FUSE_STATUS_PROG_ERR, .w1c, .L, anyVal⟩, ⟨"FUSE_STATUS_PROG_BUSY", F.FUSE_STATUS_PROG_BUSY, .ro, .L, anyVal⟩]⟩,
  ⟨"BOOT_STATUS", 0x4, 0, 1, 32, [⟨"BOOT_STATUS_ATTEMPTS", F.BOOT_STATUS_ATTEMPTS, .ro, .L, anyVal⟩, ⟨"BOOT_STATUS_B_CODE", F.BOOT_STATUS_B_CODE, .ro, .L, anyVal⟩, ⟨"BOOT_STATUS_A_CODE", F.BOOT_STATUS_A_CODE, .ro, .L, anyVal⟩]⟩,
  ⟨"FUSE_PROG_ADDR", 0x10, 0, 1, 32, [⟨"FUSE_PROG_ADDR_BIT", F.FUSE_PROG_ADDR_BIT, .rw, .L, anyVal⟩]⟩,
  ⟨"FUSE_PROG_CTRL", 0x14, 0, 1, 32, [⟨"FUSE_PROG_CTRL_KEY", F.FUSE_PROG_CTRL_KEY, .wo, .L, anyVal⟩, ⟨"FUSE_PROG_CTRL_GO", F.FUSE_PROG_CTRL_GO, .wo, .L, anyVal⟩]⟩,
  ⟨"FUSE_READ_ADDR", 0x18, 0, 1, 32, [⟨"FUSE_READ_ADDR_WORD", F.FUSE_READ_ADDR_WORD, .rw, .L, anyVal⟩]⟩,
  ⟨"FUSE_READ", 0x1C, 0, 1, 32, [⟨"FUSE_READ_DATA", F.FUSE_READ_DATA, .ro, .L, anyVal⟩]⟩,
  ⟨"DBG_CTRL", 0x20, 0, 1, 32, [⟨"DBG_CTRL_DBG_EN", F.DBG_CTRL_DBG_EN, .rw, .L, anyVal⟩]⟩,
  ⟨"XSPI_CTRL", 0x30, 0, 1, 32, [⟨"XSPI_CTRL_GO", F.XSPI_CTRL_GO, .wo, .L, anyVal⟩, ⟨"XSPI_CTRL_OP", F.XSPI_CTRL_OP, .rw, .L, rng 0 2⟩, ⟨"XSPI_CTRL_CS", F.XSPI_CTRL_CS, .rw, .L, anyVal⟩]⟩,
  ⟨"XSPI_ADDR", 0x38, 0, 1, 32, [⟨"XSPI_ADDR_ADDR", F.XSPI_ADDR_ADDR, .rw, .L, anyVal⟩]⟩,
  ⟨"XSPI_LEN", 0x3C, 0, 1, 32, [⟨"XSPI_LEN_LEN", F.XSPI_LEN_LEN, .rw, .L, anyVal⟩]⟩,
  ⟨"XSPI_MEM", 0x40, 0, 1, 64, [⟨"XSPI_MEM_ADDR", F.XSPI_MEM_ADDR, .rw, .L, anyVal⟩]⟩,
  ⟨"XSPI_STATUS", 0x48, 0, 1, 32, [⟨"XSPI_STATUS_ERR", F.XSPI_STATUS_ERR, .w1c, .L, anyVal⟩, ⟨"XSPI_STATUS_DONE", F.XSPI_STATUS_DONE, .w1c, .L, anyVal⟩, ⟨"XSPI_STATUS_BUSY", F.XSPI_STATUS_BUSY, .ro, .L, anyVal⟩]⟩]

def regsOf_cores : List RegSpec :=
  [
  ⟨"CORE_STATUS", 0x0, 0, 1, 32, [⟨"CORE_STATUS_TAKEOVER_EV", F.CORE_STATUS_TAKEOVER_EV, .w1c, .L, anyVal⟩, ⟨"CORE_STATUS_LOCKSTEP_EV", F.CORE_STATUS_LOCKSTEP_EV, .w1c, .L, anyVal⟩, ⟨"CORE_STATUS_STANDBY_OK", F.CORE_STATUS_STANDBY_OK, .ro, .L, anyVal⟩, ⟨"CORE_STATUS_ACTIVE", F.CORE_STATUS_ACTIVE, .ro, .L, anyVal⟩]⟩,
  ⟨"TAKEOVERS", 0x4, 0, 1, 32, [⟨"TAKEOVERS_COUNT", F.TAKEOVERS_COUNT, .rc, .L, anyVal⟩]⟩,
  ⟨"HEARTBEAT", 0x8, 0, 1, 32, [⟨"HEARTBEAT_MS", F.HEARTBEAT_MS, .ro, .L, anyVal⟩]⟩]

def regsOf_clk : List RegSpec :=
  [
  ⟨"CLK_SRC", 0x0, 0, 1, 32, [⟨"CLK_SRC_NET_REF", F.CLK_SRC_NET_REF, .ro, .L, anyVal⟩, ⟨"CLK_SRC_XB_OK", F.CLK_SRC_XB_OK, .ro, .L, anyVal⟩, ⟨"CLK_SRC_XA_OK", F.CLK_SRC_XA_OK, .ro, .L, anyVal⟩]⟩,
  ⟨"LOOP_STATUS", 0x4, 0, 1, 32, [⟨"LOOP_STATUS_LOL_EV", F.LOOP_STATUS_LOL_EV, .w1c, .L, anyVal⟩, ⟨"LOOP_STATUS_LOCK", F.LOOP_STATUS_LOCK, .ro, .L, anyVal⟩]⟩,
  ⟨"SSC_CFG", 0x8, 0, 1, 32, [⟨"SSC_CFG_DEPTH_T", F.SSC_CFG_DEPTH_T, .rw, .S, rng 0 20⟩, ⟨"SSC_CFG_DEPTH_F", F.SSC_CFG_DEPTH_F, .rw, .S, rng 0 20⟩, ⟨"SSC_CFG_DEPTH_H", F.SSC_CFG_DEPTH_H, .rw, .S, rng 0 20⟩, ⟨"SSC_CFG_RATE", F.SSC_CFG_RATE, .rw, .S, anyVal⟩]⟩,
  ⟨"XA_MEAS", 0xC, 0, 1, 32, [⟨"XA_MEAS_HZ", F.XA_MEAS_HZ, .ro, .L, anyVal⟩]⟩]

def regsOf_pwr : List RegSpec :=
  [
  ⟨"PWR_STATE", 0x0, 0, 1, 32, [⟨"PWR_STATE_AUTO_IDLE", F.PWR_STATE_AUTO_IDLE, .rw, .L, anyVal⟩, ⟨"PWR_STATE_STATE", F.PWR_STATE_STATE, .ro, .L, anyVal⟩]⟩,
  ⟨"IDLE_CFG", 0x4, 0, 1, 32, [⟨"IDLE_CFG_IDLE_DLY", F.IDLE_CFG_IDLE_DLY, .rw, .L, rng 1 65535⟩]⟩,
  ⟨"WAKE_CFG", 0x8, 0, 1, 32, [⟨"WAKE_CFG_WAKE_EN", F.WAKE_CFG_WAKE_EN, .rw, .L, anyVal⟩, ⟨"WAKE_CFG_WAKE_SRC", F.WAKE_CFG_WAKE_SRC, .rw, .L, anyVal⟩, ⟨"WAKE_CFG_WAKE_COUNTS", F.WAKE_CFG_WAKE_COUNTS, .rw, .L, anyVal⟩]⟩,
  ⟨"WAKE_CAUSE", 0xC, 0, 1, 32, [⟨"WAKE_CAUSE_CAUSE", F.WAKE_CAUSE_CAUSE, .ro, .L, anyVal⟩]⟩,
  ⟨"DOM_ON", 0x10, 4, 3, 32, [⟨"DOM_ON_ON", F.DOM_ON_ON, .ro, .L, anyVal⟩]⟩,
  ⟨"PWR_EVENT", 0x20, 0, 1, 32, [⟨"PWR_EVENT_WAKE_EV", F.PWR_EVENT_WAKE_EV, .w1c, .L, anyVal⟩, ⟨"PWR_EVENT_IDLE_EV", F.PWR_EVENT_IDLE_EV, .w1c, .L, anyVal⟩, ⟨"PWR_EVENT_DOM_FAULT", F.PWR_EVENT_DOM_FAULT, .w1c, .L, anyVal⟩]⟩]

def regsOf_therm : List RegSpec :=
  [
  ⟨"THERM_DIE", 0x0, 4, 5, 32, [⟨"THERM_DIE_TEMP", F.THERM_DIE_TEMP, .ro, .L, anyVal⟩]⟩,
  ⟨"THERM_CFG", 0x20, 0, 1, 32, [⟨"THERM_CFG_WARN", F.THERM_CFG_WARN, .rw, .L, anyVal⟩, ⟨"THERM_CFG_THROTTLE", F.THERM_CFG_THROTTLE, .rw, .L, anyVal⟩, ⟨"THERM_CFG_TRIP", F.THERM_CFG_TRIP, .rw, .L, rng 0 115⟩]⟩,
  ⟨"THERM_STATUS", 0x24, 0, 1, 32, [⟨"THERM_STATUS_TRIP_EV", F.THERM_STATUS_TRIP_EV, .w1c, .L, anyVal⟩, ⟨"THERM_STATUS_THROTTLED", F.THERM_STATUS_THROTTLED, .ro, .L, anyVal⟩, ⟨"THERM_STATUS_WARN_EV", F.THERM_STATUS_WARN_EV, .w1c, .L, anyVal⟩]⟩,
  ⟨"THERM_MAX", 0x28, 0, 1, 32, [⟨"THERM_MAX_TEMP", F.THERM_MAX_TEMP, .rc, .L, anyVal⟩]⟩]

def regsOf_dlink : List RegSpec :=
  [
  ⟨"LINK_STATUS", 0x0, 0, 1, 32, [⟨"LINK_STATUS_RESET_SEEN", F.LINK_STATUS_RESET_SEEN, .w1c, .L, anyVal⟩, ⟨"LINK_STATUS_FAULT_EV", F.LINK_STATUS_FAULT_EV, .w1c, .L, anyVal⟩, ⟨"LINK_STATUS_OVERRUN", F.LINK_STATUS_OVERRUN, .w1c, .L, anyVal⟩, ⟨"LINK_STATUS_UP", F.LINK_STATUS_UP, .ro, .L, anyVal⟩]⟩,
  ⟨"LINK_RETRY", 0x4, 0, 1, 32, [⟨"LINK_RETRY_COUNT", F.LINK_RETRY_COUNT, .rc, .L, anyVal⟩]⟩,
  ⟨"LINK_OVR", 0x8, 0, 1, 32, [⟨"LINK_OVR_COUNT", F.LINK_OVR_COUNT, .rc, .L, anyVal⟩]⟩]

def regsOf_cl : List RegSpec :=
  [
  ⟨"CL_STATUS", 0x0, 0, 1, 32, [⟨"CL_STATUS_OVERRUN", F.CL_STATUS_OVERRUN, .w1c, .L, anyVal⟩, ⟨"CL_STATUS_FAULT", F.CL_STATUS_FAULT, .w1c, .L, anyVal⟩, ⟨"CL_STATUS_CLK_GATED", F.CL_STATUS_CLK_GATED, .ro, .L, anyVal⟩, ⟨"CL_STATUS_QUAD_ON", F.CL_STATUS_QUAD_ON, .ro, .L, anyVal⟩, ⟨"CL_STATUS_PIX_ON", F.CL_STATUS_PIX_ON, .ro, .L, anyVal⟩]⟩,
  ⟨"CL_OVR", 0x4, 0, 1, 32, [⟨"CL_OVR_COUNT", F.CL_OVR_COUNT, .rc, .L, anyVal⟩]⟩,
  ⟨"CL_FLUSH", 0x8, 0, 1, 32, [⟨"CL_FLUSH_COUNT", F.CL_FLUSH_COUNT, .rc, .L, anyVal⟩]⟩]

def regsOf_mc : List RegSpec :=
  [
  ⟨"MC_CFG", 0x0, 0, 1, 32, [⟨"MC_CFG_ORDER", F.MC_CFG_ORDER, .ro, .L, fun v => v != 3⟩]⟩,
  ⟨"MC_STATUS", 0x4, 0, 1, 32, [⟨"MC_STATUS_RETRAIN_WAIT", F.MC_STATUS_RETRAIN_WAIT, .ro, .L, anyVal⟩, ⟨"MC_STATUS_HOT", F.MC_STATUS_HOT, .ro, .L, anyVal⟩, ⟨"MC_STATUS_MIRROR_OK", F.MC_STATUS_MIRROR_OK, .ro, .L, anyVal⟩, ⟨"MC_STATUS_STATE", F.MC_STATUS_STATE, .ro, .L, anyVal⟩]⟩,
  ⟨"MC_EVENT", 0x8, 0, 1, 32, [⟨"MC_EVENT_FAIL_EV", F.MC_EVENT_FAIL_EV, .w1c, .L, anyVal⟩, ⟨"MC_EVENT_UE_EV", F.MC_EVENT_UE_EV, .w1c, .L, anyVal⟩, ⟨"MC_EVENT_CE_EV", F.MC_EVENT_CE_EV, .w1c, .L, anyVal⟩]⟩,
  ⟨"MC_MIRROR", 0x10, 0, 1, 64, [⟨"MC_MIRROR_MIR_SIZE", F.MC_MIRROR_MIR_SIZE, .ro, .L, anyVal⟩, ⟨"MC_MIRROR_MIR_BASE", F.MC_MIRROR_MIR_BASE, .ro, .L, anyVal⟩]⟩,
  ⟨"UE_ADDR", 0x18, 0, 1, 64, [⟨"UE_ADDR_ADDR", F.UE_ADDR_ADDR, .ro, .L, anyVal⟩]⟩,
  ⟨"CE_CNT", 0x20, 0, 1, 32, [⟨"CE_CNT_COUNT", F.CE_CNT_COUNT, .rc, .L, anyVal⟩]⟩,
  ⟨"UE_CNT", 0x24, 0, 1, 32, [⟨"UE_CNT_COUNT", F.UE_CNT_COUNT, .rc, .L, anyVal⟩]⟩,
  ⟨"CRC_RETRY", 0x28, 0, 1, 32, [⟨"CRC_RETRY_COUNT", F.CRC_RETRY_COUNT, .rc, .L, anyVal⟩]⟩,
  ⟨"RETRAIN_CNT", 0x2C, 0, 1, 32, [⟨"RETRAIN_CNT_COUNT", F.RETRAIN_CNT_COUNT, .ro, .L, anyVal⟩]⟩,
  ⟨"REFRESH_CNT", 0x30, 0, 1, 64, [⟨"REFRESH_CNT_COUNT", F.REFRESH_CNT_COUNT, .ro, .L, anyVal⟩]⟩,
  ⟨"MC_TEMP", 0x38, 0, 1, 32, [⟨"MC_TEMP_TEMP", F.MC_TEMP_TEMP, .ro, .L, anyVal⟩]⟩,
  ⟨"SCRUB_CFG", 0x3C, 0, 1, 32, [⟨"SCRUB_CFG_SCRUB_PER", F.SCRUB_CFG_SCRUB_PER, .rw, .L, anyVal⟩]⟩]

def regsOf_ring : List RegSpec :=
  [
  ⟨"RING_CTX_BASE", 0x0, 0, 1, 64, [⟨"RING_CTX_BASE_ADDR", F.RING_CTX_BASE_ADDR, .ro, .L, anyVal⟩]⟩,
  ⟨"RING_DB_ID", 0x8, 0, 1, 32, [⟨"RING_DB_ID_RING", F.RING_DB_ID_RING, .rw, .L, anyVal⟩]⟩,
  ⟨"RING_DB_PROD", 0xC, 0, 1, 32, [⟨"RING_DB_PROD_PROD", F.RING_DB_PROD_PROD, .wo, .L, anyVal⟩]⟩,
  ⟨"RING_CFG", 0x10, 0, 1, 32, [⟨"RING_CFG_SUB_TMO", F.RING_CFG_SUB_TMO, .rw, .L, anyVal⟩]⟩,
  ⟨"RING_EVENT", 0x14, 0, 1, 32, [⟨"RING_EVENT_CONS_IRQ_EV", F.RING_EVENT_CONS_IRQ_EV, .w1c, .L, anyVal⟩, ⟨"RING_EVENT_EVICT_EV", F.RING_EVENT_EVICT_EV, .w1c, .L, anyVal⟩, ⟨"RING_EVENT_FULL_EV", F.RING_EVENT_FULL_EV, .w1c, .L, anyVal⟩]⟩,
  ⟨"RING_IRQ_ID", 0x18, 0, 1, 32, [⟨"RING_IRQ_ID_RING", F.RING_IRQ_ID_RING, .ro, .L, anyVal⟩]⟩,
  ⟨"RING_PINNED", 0x1C, 0, 1, 32, [⟨"RING_PINNED_COUNT", F.RING_PINNED_COUNT, .ro, .L, anyVal⟩]⟩,
  ⟨"CTX_HITS", 0x20, 0, 1, 64, [⟨"CTX_HITS_COUNT", F.CTX_HITS_COUNT, .ro, .L, anyVal⟩]⟩,
  ⟨"CTX_MISSES", 0x28, 0, 1, 64, [⟨"CTX_MISSES_COUNT", F.CTX_MISSES_COUNT, .ro, .L, anyVal⟩]⟩,
  ⟨"CTX_ECC", 0x30, 0, 1, 32, [⟨"CTX_ECC_COUNT", F.CTX_ECC_COUNT, .rc, .L, anyVal⟩]⟩,
  ⟨"SUBS_OPEN", 0x34, 0, 1, 32, [⟨"SUBS_OPEN_COUNT", F.SUBS_OPEN_COUNT, .ro, .L, anyVal⟩]⟩,
  ⟨"SUB_EVICTS", 0x38, 0, 1, 32, [⟨"SUB_EVICTS_COUNT", F.SUB_EVICTS_COUNT, .rc, .L, anyVal⟩]⟩]

def regsOf_dma : List RegSpec :=
  [
  ⟨"DMA_STATE", 0x0, 0, 1, 32, [⟨"DMA_STATE_CODE", F.DMA_STATE_CODE, .ro, .L, anyVal⟩, ⟨"DMA_STATE_BOUND", F.DMA_STATE_BOUND, .ro, .L, anyVal⟩, ⟨"DMA_STATE_DB_PEND", F.DMA_STATE_DB_PEND, .ro, .L, anyVal⟩, ⟨"DMA_STATE_DIR", F.DMA_STATE_DIR, .ro, .L, anyVal⟩, ⟨"DMA_STATE_STATE", F.DMA_STATE_STATE, .ro, .L, anyVal⟩]⟩,
  ⟨"DMA_DESC", 0x8, 0, 1, 64, [⟨"DMA_DESC_ADDR", F.DMA_DESC_ADDR, .ro, .L, anyVal⟩]⟩,
  ⟨"DMA_ADDR", 0x10, 0, 1, 64, [⟨"DMA_ADDR_ADDR", F.DMA_ADDR_ADDR, .ro, .L, anyVal⟩]⟩,
  ⟨"DMA_RESIDUE", 0x18, 0, 1, 32, [⟨"DMA_RESIDUE_BYTES", F.DMA_RESIDUE_BYTES, .ro, .L, anyVal⟩]⟩,
  ⟨"DMA_EVENT", 0x1C, 0, 1, 32, [⟨"DMA_EVENT_ABORT_EV", F.DMA_EVENT_ABORT_EV, .w1c, .L, anyVal⟩, ⟨"DMA_EVENT_ERR_EV", F.DMA_EVENT_ERR_EV, .w1c, .L, anyVal⟩, ⟨"DMA_EVENT_DONE_EV", F.DMA_EVENT_DONE_EV, .w1c, .L, anyVal⟩]⟩,
  ⟨"DMA_BYTES", 0x20, 0, 1, 64, [⟨"DMA_BYTES_COUNT", F.DMA_BYTES_COUNT, .ro, .L, anyVal⟩]⟩]

def regsOf_dmaG : List RegSpec :=
  [
  ⟨"DMA_DONE_SUM", 0x1000, 0, 1, 64, [⟨"DMA_DONE_SUM_DONE", F.DMA_DONE_SUM_DONE, .ro, .L, anyVal⟩]⟩,
  ⟨"DMA_ERR_SUM", 0x1008, 0, 1, 64, [⟨"DMA_ERR_SUM_ERR", F.DMA_ERR_SUM_ERR, .ro, .L, anyVal⟩]⟩]

def regsOf_hkHub : List RegSpec :=
  [
  ⟨"HK_CTRL", 0x0, 0, 1, 32, [⟨"HK_CTRL_EN", F.HK_CTRL_EN, .rw, .L, anyVal⟩, ⟨"HK_CTRL_HOST_LANES", F.HK_CTRL_HOST_LANES, .rw, .S, rng 0 16⟩]⟩,
  ⟨"HK_JOB_RING", 0x4, 0, 1, 32, [⟨"HK_JOB_RING_RING", F.HK_JOB_RING_RING, .rw, .S, anyVal⟩]⟩,
  ⟨"HK_RES_RING", 0x8, 0, 1, 32, [⟨"HK_RES_RING_RING", F.HK_RES_RING_RING, .rw, .S, anyVal⟩]⟩,
  ⟨"HK_STATUS", 0xC, 0, 1, 32, [⟨"HK_STATUS_BUSY", F.HK_STATUS_BUSY, .ro, .L, anyVal⟩, ⟨"HK_STATUS_ERR_EV", F.HK_STATUS_ERR_EV, .w1c, .L, anyVal⟩, ⟨"HK_STATUS_SPACE_EV", F.HK_STATUS_SPACE_EV, .w1c, .L, anyVal⟩]⟩,
  ⟨"HK_JOBS", 0x10, 0, 1, 64, [⟨"HK_JOBS_COUNT", F.HK_JOBS_COUNT, .ro, .L, anyVal⟩]⟩,
  ⟨"HK_BLOCKS", 0x18, 0, 1, 64, [⟨"HK_BLOCKS_COUNT", F.HK_BLOCKS_COUNT, .ro, .L, anyVal⟩]⟩,
  ⟨"HK_IN_BYTES", 0x20, 0, 1, 64, [⟨"HK_IN_BYTES_COUNT", F.HK_IN_BYTES_COUNT, .ro, .L, anyVal⟩]⟩,
  ⟨"HK_OUT_BYTES", 0x28, 0, 1, 64, [⟨"HK_OUT_BYTES_COUNT", F.HK_OUT_BYTES_COUNT, .ro, .L, anyVal⟩]⟩,
  ⟨"HK_ERR_CNT", 0x30, 0, 1, 32, [⟨"HK_ERR_CNT_COUNT", F.HK_ERR_CNT_COUNT, .rc, .L, anyVal⟩]⟩]

def regsOf_hkRgn : List RegSpec :=
  [
  ⟨"HK_CTRL", 0x0, 0, 1, 32, [⟨"HK_CTRL_EN", F.HK_CTRL_EN, .rw, .L, anyVal⟩, ⟨"HK_CTRL_HOST_LANES", F.HK_CTRL_HOST_LANES, .rw, .S, rng 0 32⟩]⟩,
  ⟨"HK_JOB_RING", 0x4, 0, 1, 32, [⟨"HK_JOB_RING_RING", F.HK_JOB_RING_RING, .rw, .S, anyVal⟩]⟩,
  ⟨"HK_RES_RING", 0x8, 0, 1, 32, [⟨"HK_RES_RING_RING", F.HK_RES_RING_RING, .rw, .S, anyVal⟩]⟩,
  ⟨"HK_STATUS", 0xC, 0, 1, 32, [⟨"HK_STATUS_BUSY", F.HK_STATUS_BUSY, .ro, .L, anyVal⟩, ⟨"HK_STATUS_ERR_EV", F.HK_STATUS_ERR_EV, .w1c, .L, anyVal⟩, ⟨"HK_STATUS_SPACE_EV", F.HK_STATUS_SPACE_EV, .w1c, .L, anyVal⟩]⟩,
  ⟨"HK_JOBS", 0x10, 0, 1, 64, [⟨"HK_JOBS_COUNT", F.HK_JOBS_COUNT, .ro, .L, anyVal⟩]⟩,
  ⟨"HK_BLOCKS", 0x18, 0, 1, 64, [⟨"HK_BLOCKS_COUNT", F.HK_BLOCKS_COUNT, .ro, .L, anyVal⟩]⟩,
  ⟨"HK_IN_BYTES", 0x20, 0, 1, 64, [⟨"HK_IN_BYTES_COUNT", F.HK_IN_BYTES_COUNT, .ro, .L, anyVal⟩]⟩,
  ⟨"HK_OUT_BYTES", 0x28, 0, 1, 64, [⟨"HK_OUT_BYTES_COUNT", F.HK_OUT_BYTES_COUNT, .ro, .L, anyVal⟩]⟩,
  ⟨"HK_ERR_CNT", 0x30, 0, 1, 32, [⟨"HK_ERR_CNT_COUNT", F.HK_ERR_CNT_COUNT, .rc, .L, anyVal⟩]⟩]

def regsOf_eth : List RegSpec :=
  [
  ⟨"ETH_CTRL", 0x0, 0, 1, 32, [⟨"ETH_CTRL_EN", F.ETH_CTRL_EN, .rw, .L, anyVal⟩, ⟨"ETH_CTRL_FEC_BYP", F.ETH_CTRL_FEC_BYP, .rw, .S, anyVal⟩, ⟨"ETH_CTRL_JUMBO", F.ETH_CTRL_JUMBO, .rw, .S, anyVal⟩]⟩,
  ⟨"ETH_STATUS", 0x4, 0, 1, 32, [⟨"ETH_STATUS_ACTIVE", F.ETH_STATUS_ACTIVE, .ro, .L, anyVal⟩, ⟨"ETH_STATUS_REM_FAULT", F.ETH_STATUS_REM_FAULT, .ro, .L, anyVal⟩, ⟨"ETH_STATUS_FEC_LOCK", F.ETH_STATUS_FEC_LOCK, .ro, .L, anyVal⟩, ⟨"ETH_STATUS_LINK_UP", F.ETH_STATUS_LINK_UP, .ro, .L, anyVal⟩]⟩,
  ⟨"ETH_EVENT", 0x8, 0, 1, 32, [⟨"ETH_EVENT_FAILOVER_EV", F.ETH_EVENT_FAILOVER_EV, .w1c, .L, anyVal⟩, ⟨"ETH_EVENT_LINK_DN_EV", F.ETH_EVENT_LINK_DN_EV, .w1c, .L, anyVal⟩, ⟨"ETH_EVENT_LINK_UP_EV", F.ETH_EVENT_LINK_UP_EV, .w1c, .L, anyVal⟩]⟩,
  ⟨"TS_EXT", 0xC, 0, 1, 32, [⟨"TS_EXT_TX_EXT", F.TS_EXT_TX_EXT, .rw, .S, anyVal⟩, ⟨"TS_EXT_RX_EXT", F.TS_EXT_RX_EXT, .rw, .S, anyVal⟩]⟩,
  ⟨"TS_LAT", 0x10, 0, 1, 32, [⟨"TS_LAT_TX_LAT", F.TS_LAT_TX_LAT, .ro, .L, anyVal⟩, ⟨"TS_LAT_RX_LAT", F.TS_LAT_RX_LAT, .ro, .L, anyVal⟩]⟩,
  ⟨"RX_FRAMES", 0x18, 0, 1, 64, [⟨"RX_FRAMES_COUNT", F.RX_FRAMES_COUNT, .ro, .L, anyVal⟩]⟩,
  ⟨"TX_FRAMES", 0x20, 0, 1, 64, [⟨"TX_FRAMES_COUNT", F.TX_FRAMES_COUNT, .ro, .L, anyVal⟩]⟩,
  ⟨"RX_DROP", 0x28, 0, 1, 32, [⟨"RX_DROP_COUNT", F.RX_DROP_COUNT, .rc, .L, anyVal⟩]⟩,
  ⟨"FEC_CORR", 0x2C, 0, 1, 32, [⟨"FEC_CORR_COUNT", F.FEC_CORR_COUNT, .rc, .L, anyVal⟩]⟩,
  ⟨"FEC_UNCORR", 0x30, 0, 1, 32, [⟨"FEC_UNCORR_COUNT", F.FEC_UNCORR_COUNT, .rc, .L, anyVal⟩]⟩]

def regsOf_net : List RegSpec :=
  [
  ⟨"NET_MAC", 0x800, 0, 1, 64, [⟨"NET_MAC_MAC", F.NET_MAC_MAC, .ro, .L, anyVal⟩]⟩,
  ⟨"NET_IPV4", 0x808, 0, 1, 32, [⟨"NET_IPV4_ADDR", F.NET_IPV4_ADDR, .ro, .L, anyVal⟩]⟩,
  ⟨"NET_IPV4_PFX", 0x80C, 0, 1, 32, [⟨"NET_IPV4_PFX_LEN", F.NET_IPV4_PFX_LEN, .ro, .L, anyVal⟩]⟩,
  ⟨"NET_GW4", 0x810, 0, 1, 32, [⟨"NET_GW4_ADDR", F.NET_GW4_ADDR, .ro, .L, anyVal⟩]⟩,
  ⟨"NET_IPV6", 0x820, 4, 4, 32, [⟨"NET_IPV6_ADDR", F.NET_IPV6_ADDR, .ro, .L, anyVal⟩]⟩,
  ⟨"NET_IPV6_PFX", 0x830, 0, 1, 32, [⟨"NET_IPV6_PFX_LEN", F.NET_IPV6_PFX_LEN, .ro, .L, anyVal⟩]⟩,
  ⟨"NET_GW6", 0x840, 4, 4, 32, [⟨"NET_GW6_ADDR", F.NET_GW6_ADDR, .ro, .L, anyVal⟩]⟩,
  ⟨"ANN_ADDR", 0x850, 4, 4, 32, [⟨"ANN_ADDR_ADDR", F.ANN_ADDR_ADDR, .ro, .L, anyVal⟩]⟩,
  ⟨"NET_CTRL", 0x860, 0, 1, 32, [⟨"NET_CTRL_PRP_EN", F.NET_CTRL_PRP_EN, .ro, .L, anyVal⟩, ⟨"NET_CTRL_REVERT", F.NET_CTRL_REVERT, .rw, .L, anyVal⟩, ⟨"NET_CTRL_PREF_PORT", F.NET_CTRL_PREF_PORT, .rw, .L, anyVal⟩, ⟨"NET_CTRL_VLAN_EN", F.NET_CTRL_VLAN_EN, .ro, .L, anyVal⟩, ⟨"NET_CTRL_VID", F.NET_CTRL_VID, .ro, .L, anyVal⟩]⟩,
  ⟨"NET_PCP", 0x864, 0, 1, 32, [⟨"NET_PCP_PCP_PTP", F.NET_PCP_PCP_PTP, .rw, .L, anyVal⟩, ⟨"NET_PCP_PCP_CMD", F.NET_PCP_PCP_CMD, .rw, .L, anyVal⟩, ⟨"NET_PCP_PCP_RES", F.NET_PCP_PCP_RES, .rw, .L, anyVal⟩, ⟨"NET_PCP_PCP_VIEW", F.NET_PCP_PCP_VIEW, .rw, .L, anyVal⟩]⟩,
  ⟨"STREAM_CFG", 0x868, 0, 1, 32, [⟨"STREAM_CFG_FLUSH_US", F.STREAM_CFG_FLUSH_US, .rw, .L, rng 1 65535⟩, ⟨"STREAM_CFG_SENT_HOLD", F.STREAM_CFG_SENT_HOLD, .rw, .L, rng 1 65535⟩]⟩,
  ⟨"PRP_DUP", 0x86C, 0, 1, 32, [⟨"PRP_DUP_COUNT", F.PRP_DUP_COUNT, .rc, .L, anyVal⟩]⟩] ++
  [
  ⟨"PRP_WRONG_LAN", 0x870, 0, 1, 32, [⟨"PRP_WRONG_LAN_COUNT", F.PRP_WRONG_LAN_COUNT, .rc, .L, anyVal⟩]⟩,
  ⟨"STREAM_RESENT", 0x874, 0, 1, 32, [⟨"STREAM_RESENT_COUNT", F.STREAM_RESENT_COUNT, .rc, .L, anyVal⟩]⟩,
  ⟨"LQ_CFG", 0x900, 16, 8, 32, [⟨"LQ_CFG_EN", F.LQ_CFG_EN, .rw, .L, anyVal⟩, ⟨"LQ_CFG_LATE_FLAG", F.LQ_CFG_LATE_FLAG, .rw, .S, anyVal⟩, ⟨"LQ_CFG_RING", F.LQ_CFG_RING, .rw, .S, anyVal⟩]⟩,
  ⟨"LQ_LATE", 0x904, 16, 8, 32, [⟨"LQ_LATE_COUNT", F.LQ_LATE_COUNT, .rc, .L, anyVal⟩]⟩,
  ⟨"LQ_SENT", 0x908, 16, 8, 64, [⟨"LQ_SENT_COUNT", F.LQ_SENT_COUNT, .ro, .L, anyVal⟩]⟩]

def regsOf_tim : List RegSpec :=
  [
  ⟨"TIME_SEC", 0x0, 0, 1, 64, [⟨"TIME_SEC_SEC", F.TIME_SEC_SEC, .ro, .L, anyVal⟩]⟩,
  ⟨"TIME_NS", 0x8, 0, 1, 32, [⟨"TIME_NS_NS", F.TIME_NS_NS, .ro, .L, anyVal⟩]⟩,
  ⟨"TIME_SUBNS", 0xC, 0, 1, 32, [⟨"TIME_SUBNS_SUBNS", F.TIME_SUBNS_SUBNS, .ro, .L, anyVal⟩]⟩,
  ⟨"TIME_INCR", 0x10, 0, 1, 64, [⟨"TIME_INCR_INCR", F.TIME_INCR_INCR, .rw, .L, anyVal⟩]⟩,
  ⟨"TIME_ADJ", 0x18, 0, 1, 64, [⟨"TIME_ADJ_TICKS", F.TIME_ADJ_TICKS, .rw, .L, anyVal⟩, ⟨"TIME_ADJ_DELTA", F.TIME_ADJ_DELTA, .rw, .L, anyVal⟩]⟩,
  ⟨"TIME_STEP", 0x20, 0, 1, 64, [⟨"TIME_STEP_STEP", F.TIME_STEP_STEP, .wo, .L, anyVal⟩]⟩,
  ⟨"PTP_CTRL", 0x28, 0, 1, 32, [⟨"PTP_CTRL_EN_A", F.PTP_CTRL_EN_A, .rw, .L, anyVal⟩, ⟨"PTP_CTRL_EN_B", F.PTP_CTRL_EN_B, .rw, .L, anyVal⟩, ⟨"PTP_CTRL_PREF", F.PTP_CTRL_PREF, .rw, .L, anyVal⟩, ⟨"PTP_CTRL_SERVO_SEL", F.PTP_CTRL_SERVO_SEL, .rw, .L, anyVal⟩, ⟨"PTP_CTRL_DOMAIN_B", F.PTP_CTRL_DOMAIN_B, .rw, .L, rng 0 127⟩, ⟨"PTP_CTRL_DOMAIN_A", F.PTP_CTRL_DOMAIN_A, .rw, .L, rng 0 127⟩]⟩,
  ⟨"SERVO_CFG", 0x2C, 0, 1, 32, [⟨"SERVO_CFG_KP_LOG", F.SERVO_CFG_KP_LOG, .rw, .L, rng 1 40⟩, ⟨"SERVO_CFG_KI_LOG", F.SERVO_CFG_KI_LOG, .rw, .L, rng 1 40⟩, ⟨"SERVO_CFG_FW_TMO", F.SERVO_CFG_FW_TMO, .rw, .L, anyVal⟩]⟩,
  ⟨"SLEW_CFG", 0x30, 0, 1, 32, [⟨"SLEW_CFG_MAX_PPB", F.SLEW_CFG_MAX_PPB, .rw, .L, rng 1 10000⟩, ⟨"SLEW_CFG_SWITCH_PPB", F.SLEW_CFG_SWITCH_PPB, .rw, .L, rng 1 10000⟩]⟩,
  ⟨"LOCK_CFG", 0x34, 0, 1, 32, [⟨"LOCK_CFG_LOCK_THR", F.LOCK_CFG_LOCK_THR, .rw, .L, anyVal⟩, ⟨"LOCK_CFG_STEP_THR", F.LOCK_CFG_STEP_THR, .rw, .L, anyVal⟩]⟩,
  ⟨"RETURN_CFG", 0x38, 0, 1, 32, [⟨"RETURN_CFG_RETURN_S", F.RETURN_CFG_RETURN_S, .rw, .L, anyVal⟩]⟩,
  ⟨"PTP_STATE", 0x3C, 0, 1, 32, [⟨"PTP_STATE_HOLDOVER", F.PTP_STATE_HOLDOVER, .ro, .L, anyVal⟩, ⟨"PTP_STATE_SERVO_FB", F.PTP_STATE_SERVO_FB, .ro, .L, anyVal⟩, ⟨"PTP_STATE_SEL", F.PTP_STATE_SEL, .ro, .L, anyVal⟩, ⟨"PTP_STATE_LOCK_B", F.PTP_STATE_LOCK_B, .ro, .L, anyVal⟩, ⟨"PTP_STATE_LOCK_A", F.PTP_STATE_LOCK_A, .ro, .L, anyVal⟩, ⟨"PTP_STATE_STATE_B", F.PTP_STATE_STATE_B, .ro, .L, anyVal⟩, ⟨"PTP_STATE_STATE_A", F.PTP_STATE_STATE_A, .ro, .L, anyVal⟩]⟩] ++
  [
  ⟨"PTP_EVENT", 0x40, 0, 1, 32, [⟨"PTP_EVENT_STEP_EV", F.PTP_EVENT_STEP_EV, .w1c, .L, anyVal⟩, ⟨"PTP_EVENT_SWITCH_EV", F.PTP_EVENT_SWITCH_EV, .w1c, .L, anyVal⟩, ⟨"PTP_EVENT_FB_EV", F.PTP_EVENT_FB_EV, .w1c, .L, anyVal⟩, ⟨"PTP_EVENT_LOSS_B_EV", F.PTP_EVENT_LOSS_B_EV, .w1c, .L, anyVal⟩, ⟨"PTP_EVENT_LOSS_A_EV", F.PTP_EVENT_LOSS_A_EV, .w1c, .L, anyVal⟩]⟩,
  ⟨"OFFSET_A", 0x48, 0, 1, 64, [⟨"OFFSET_A_OFFSET", F.OFFSET_A_OFFSET, .ro, .L, anyVal⟩]⟩,
  ⟨"OFFSET_B", 0x50, 0, 1, 64, [⟨"OFFSET_B_OFFSET", F.OFFSET_B_OFFSET, .ro, .L, anyVal⟩]⟩,
  ⟨"MPD_A", 0x58, 0, 1, 64, [⟨"MPD_A_DELAY", F.MPD_A_DELAY, .ro, .L, anyVal⟩]⟩,
  ⟨"MPD_B", 0x60, 0, 1, 64, [⟨"MPD_B_DELAY", F.MPD_B_DELAY, .ro, .L, anyVal⟩]⟩,
  ⟨"GM_A", 0x68, 0, 1, 64, [⟨"GM_A_IDENTITY", F.GM_A_IDENTITY, .ro, .L, anyVal⟩]⟩,
  ⟨"GM_B", 0x70, 0, 1, 64, [⟨"GM_B_IDENTITY", F.GM_B_IDENTITY, .ro, .L, anyVal⟩]⟩,
  ⟨"PTP_SWITCHES", 0x78, 0, 1, 32, [⟨"PTP_SWITCHES_COUNT", F.PTP_SWITCHES_COUNT, .rc, .L, anyVal⟩]⟩]

def regsOf_view : List RegSpec :=
  [
  ⟨"VIEW_CTRL", 0x0, 0, 1, 32, [⟨"VIEW_CTRL_EN", F.VIEW_CTRL_EN, .rw, .L, anyVal⟩, ⟨"VIEW_CTRL_SRC", F.VIEW_CTRL_SRC, .rw, .S, anyVal⟩, ⟨"VIEW_CTRL_FMT", F.VIEW_CTRL_FMT, .rw, .S, anyVal⟩, ⟨"VIEW_CTRL_RING_EN", F.VIEW_CTRL_RING_EN, .rw, .S, anyVal⟩, ⟨"VIEW_CTRL_DP_EN", F.VIEW_CTRL_DP_EN, .rw, .S, anyVal⟩, ⟨"VIEW_CTRL_GROUP", F.VIEW_CTRL_GROUP, .rw, .S, anyVal⟩, ⟨"VIEW_CTRL_SX_LOG", F.VIEW_CTRL_SX_LOG, .rw, .S, rng 0 6⟩, ⟨"VIEW_CTRL_SY_LOG", F.VIEW_CTRL_SY_LOG, .rw, .S, rng 0 6⟩]⟩,
  ⟨"VIEW_CROP", 0x8, 0, 1, 64, [⟨"VIEW_CROP_WIDTH", F.VIEW_CROP_WIDTH, .rw, .S, anyVal⟩, ⟨"VIEW_CROP_W0", F.VIEW_CROP_W0, .rw, .S, anyVal⟩]⟩,
  ⟨"VIEW_MAP", 0x10, 0, 1, 32, [⟨"VIEW_MAP_VGAIN", F.VIEW_MAP_VGAIN, .rw, .L, anyVal⟩, ⟨"VIEW_MAP_BLACK", F.VIEW_MAP_BLACK, .rw, .L, anyVal⟩]⟩,
  ⟨"VIEW_MASK", 0x14, 0, 1, 32, [⟨"VIEW_MASK_MASK_VAL", F.VIEW_MASK_MASK_VAL, .rw, .L, anyVal⟩]⟩,
  ⟨"VIEW_RING", 0x18, 0, 1, 32, [⟨"VIEW_RING_RING", F.VIEW_RING_RING, .rw, .S, anyVal⟩]⟩,
  ⟨"VIEW_START", 0x20, 0, 1, 64, [⟨"VIEW_START_START", F.VIEW_START_START, .rw, .S, anyVal⟩]⟩,
  ⟨"VIEW_PACE", 0x28, 0, 1, 32, [⟨"VIEW_PACE_PACE", F.VIEW_PACE_PACE, .rw, .S, anyVal⟩]⟩,
  ⟨"DBUF_BASE", 0x30, 0, 1, 64, [⟨"DBUF_BASE_ADDR", F.DBUF_BASE_ADDR, .rw, .S, aligned 64⟩]⟩,
  ⟨"DBUF_CFG", 0x38, 0, 1, 32, [⟨"DBUF_CFG_ROWS", F.DBUF_CFG_ROWS, .rw, .S, anyVal⟩]⟩,
  ⟨"VIEW_STATUS", 0x3C, 0, 1, 32, [⟨"VIEW_STATUS_LB_END", F.VIEW_STATUS_LB_END, .w1c, .L, anyVal⟩, ⟨"VIEW_STATUS_DROP_EV", F.VIEW_STATUS_DROP_EV, .w1c, .L, anyVal⟩, ⟨"VIEW_STATUS_ACTIVE", F.VIEW_STATUS_ACTIVE, .ro, .L, anyVal⟩]⟩,
  ⟨"VIEW_ROWS", 0x40, 0, 1, 64, [⟨"VIEW_ROWS_ROWS", F.VIEW_ROWS_ROWS, .ro, .L, anyVal⟩]⟩,
  ⟨"ROW_SKIP", 0x48, 0, 1, 32, [⟨"ROW_SKIP_COUNT", F.ROW_SKIP_COUNT, .rc, .L, anyVal⟩]⟩]

def regsOf_lb : List RegSpec :=
  [
  ⟨"LB_CFG", 0x0, 0, 1, 32, [⟨"LB_CFG_LB_EN", F.LB_CFG_LB_EN, .rw, .S, anyVal⟩, ⟨"LB_CFG_LB_ROWS", F.LB_CFG_LB_ROWS, .rw, .S, anyVal⟩]⟩,
  ⟨"LB_BASE", 0x8, 0, 1, 64, [⟨"LB_BASE_ADDR", F.LB_BASE_ADDR, .rw, .S, aligned 64⟩]⟩]

def regsOf_pal : List RegSpec :=
  [
  ⟨"PALETTE", 0x0, 4, 256, 32, [⟨"PALETTE_RGB", F.PALETTE_RGB, .rw, .L, anyVal⟩]⟩]

def regsOf_dp : List RegSpec :=
  [
  ⟨"DP_CTRL", 0x0, 0, 1, 32, [⟨"DP_CTRL_EN", F.DP_CTRL_EN, .rw, .L, anyVal⟩, ⟨"DP_CTRL_AUTO", F.DP_CTRL_AUTO, .rw, .S, anyVal⟩]⟩,
  ⟨"DP_STATUS", 0x4, 0, 1, 32, [⟨"DP_STATUS_MODE_FAIL", F.DP_STATUS_MODE_FAIL, .ro, .L, anyVal⟩, ⟨"DP_STATUS_LANES", F.DP_STATUS_LANES, .ro, .L, anyVal⟩, ⟨"DP_STATUS_RATE", F.DP_STATUS_RATE, .ro, .L, anyVal⟩, ⟨"DP_STATUS_TRAINED", F.DP_STATUS_TRAINED, .ro, .L, anyVal⟩, ⟨"DP_STATUS_HPD", F.DP_STATUS_HPD, .ro, .L, anyVal⟩]⟩,
  ⟨"DP_EVENT", 0x8, 0, 1, 32, [⟨"DP_EVENT_TRAIN_FAIL_EV", F.DP_EVENT_TRAIN_FAIL_EV, .w1c, .L, anyVal⟩, ⟨"DP_EVENT_UNPLUG_EV", F.DP_EVENT_UNPLUG_EV, .w1c, .L, anyVal⟩, ⟨"DP_EVENT_PLUG_EV", F.DP_EVENT_PLUG_EV, .w1c, .L, anyVal⟩]⟩,
  ⟨"DP_H", 0x10, 0, 1, 32, [⟨"DP_H_H_TOTAL", F.DP_H_H_TOTAL, .rw, .S, anyVal⟩, ⟨"DP_H_H_ACTIVE", F.DP_H_H_ACTIVE, .rw, .S, anyVal⟩]⟩,
  ⟨"DP_HS", 0x14, 0, 1, 32, [⟨"DP_HS_H_SWIDTH", F.DP_HS_H_SWIDTH, .rw, .S, anyVal⟩, ⟨"DP_HS_H_SSTART", F.DP_HS_H_SSTART, .rw, .S, anyVal⟩]⟩,
  ⟨"DP_V", 0x18, 0, 1, 32, [⟨"DP_V_V_TOTAL", F.DP_V_V_TOTAL, .rw, .S, anyVal⟩, ⟨"DP_V_V_ACTIVE", F.DP_V_V_ACTIVE, .rw, .S, anyVal⟩]⟩,
  ⟨"DP_VS", 0x1C, 0, 1, 32, [⟨"DP_VS_V_SWIDTH", F.DP_VS_V_SWIDTH, .rw, .S, anyVal⟩, ⟨"DP_VS_V_SSTART", F.DP_VS_V_SSTART, .rw, .S, anyVal⟩]⟩,
  ⟨"DP_PCLK", 0x20, 0, 1, 32, [⟨"DP_PCLK_KHZ", F.DP_PCLK_KHZ, .rw, .S, anyVal⟩]⟩,
  ⟨"DP_BG", 0x24, 0, 1, 32, [⟨"DP_BG_BG", F.DP_BG_BG, .rw, .L, anyVal⟩]⟩]

def regsOf_dw : List RegSpec :=
  [
  ⟨"DW_POS", 0x0, 0, 1, 32, [⟨"DW_POS_WIN_Y", F.DW_POS_WIN_Y, .rw, .L, anyVal⟩, ⟨"DW_POS_WIN_X", F.DW_POS_WIN_X, .rw, .L, anyVal⟩]⟩,
  ⟨"DW_SIZE", 0x4, 0, 1, 32, [⟨"DW_SIZE_DIR", F.DW_SIZE_DIR, .rw, .L, anyVal⟩, ⟨"DW_SIZE_WIN_H", F.DW_SIZE_WIN_H, .rw, .L, anyVal⟩, ⟨"DW_SIZE_WIN_W", F.DW_SIZE_WIN_W, .rw, .L, anyVal⟩]⟩]

def regsOf_pnl : List RegSpec :=
  [
  ⟨"PNL_TOUCH", 0x0, 0, 1, 32, [⟨"PNL_TOUCH_TOUCH_EN", F.PNL_TOUCH_TOUCH_EN, .rw, .L, anyVal⟩, ⟨"PNL_TOUCH_FREQ", F.PNL_TOUCH_FREQ, .rw, .L, rng 0 2⟩, ⟨"PNL_TOUCH_TOUCH_ADDR", F.PNL_TOUCH_TOUCH_ADDR, .rw, .L, anyVal⟩, ⟨"PNL_TOUCH_TOUCH_REG", F.PNL_TOUCH_TOUCH_REG, .rw, .L, anyVal⟩, ⟨"PNL_TOUCH_TOUCH_LEN", F.PNL_TOUCH_TOUCH_LEN, .rw, .L, rng 1 32⟩]⟩,
  ⟨"I2C_CMD", 0x4, 0, 1, 32, [⟨"I2C_CMD_ADDR", F.I2C_CMD_ADDR, .wo, .L, anyVal⟩, ⟨"I2C_CMD_WLEN", F.I2C_CMD_WLEN, .wo, .L, rng 0 32⟩, ⟨"I2C_CMD_RLEN", F.I2C_CMD_RLEN, .wo, .L, rng 0 32⟩]⟩,
  ⟨"I2C_STATUS", 0x8, 0, 1, 32, [⟨"I2C_STATUS_NACK", F.I2C_STATUS_NACK, .w1c, .L, anyVal⟩, ⟨"I2C_STATUS_DONE", F.I2C_STATUS_DONE, .w1c, .L, anyVal⟩, ⟨"I2C_STATUS_BUSY", F.I2C_STATUS_BUSY, .ro, .L, anyVal⟩]⟩,
  ⟨"I2C_DATA", 0x10, 4, 8, 32, [⟨"I2C_DATA_DATA", F.I2C_DATA_DATA, .rw, .L, anyVal⟩]⟩,
  ⟨"KEY_CFG", 0x30, 0, 1, 32, [⟨"KEY_CFG_KEY_POL", F.KEY_CFG_KEY_POL, .rw, .L, anyVal⟩, ⟨"KEY_CFG_DEB", F.KEY_CFG_DEB, .rw, .L, rng 1 255⟩]⟩,
  ⟨"KEY_STATE", 0x34, 0, 1, 32, [⟨"KEY_STATE_ACTIVE", F.KEY_STATE_ACTIVE, .ro, .L, anyVal⟩]⟩,
  ⟨"LED_MODE", 0x38, 0, 1, 32, [⟨"LED_MODE_MODE_0", F.LED_MODE_MODE_0, .rw, .L, anyVal⟩, ⟨"LED_MODE_MODE_1", F.LED_MODE_MODE_1, .rw, .L, anyVal⟩, ⟨"LED_MODE_MODE_2", F.LED_MODE_MODE_2, .rw, .L, anyVal⟩, ⟨"LED_MODE_MODE_3", F.LED_MODE_MODE_3, .rw, .L, anyVal⟩, ⟨"LED_MODE_MODE_4", F.LED_MODE_MODE_4, .rw, .L, anyVal⟩, ⟨"LED_MODE_MODE_5", F.LED_MODE_MODE_5, .rw, .L, anyVal⟩, ⟨"LED_MODE_MODE_6", F.LED_MODE_MODE_6, .rw, .L, anyVal⟩, ⟨"LED_MODE_MODE_7", F.LED_MODE_MODE_7, .rw, .L, anyVal⟩, ⟨"LED_MODE_MODE_8", F.LED_MODE_MODE_8, .rw, .L, anyVal⟩, ⟨"LED_MODE_MODE_9", F.LED_MODE_MODE_9, .rw, .L, anyVal⟩, ⟨"LED_MODE_MODE_10", F.LED_MODE_MODE_10, .rw, .L, anyVal⟩, ⟨"LED_MODE_MODE_11", F.LED_MODE_MODE_11, .rw, .L, anyVal⟩, ⟨"LED_MODE_MODE_12", F.LED_MODE_MODE_12, .rw, .L, anyVal⟩, ⟨"LED_MODE_MODE_13", F.LED_MODE_MODE_13, .rw, .L, anyVal⟩, ⟨"LED_MODE_MODE_14", F.LED_MODE_MODE_14, .rw, .L, anyVal⟩, ⟨"LED_MODE_MODE_15", F.LED_MODE_MODE_15, .rw, .L, anyVal⟩]⟩,
  ⟨"LED_ACK_MASK", 0x3C, 0, 1, 32, [⟨"LED_ACK_MASK_ACK_MASK", F.LED_ACK_MASK_ACK_MASK, .rw, .L, anyVal⟩]⟩,
  ⟨"BUZ_CFG", 0x40, 0, 1, 64, [⟨"BUZ_CFG_BUZ_REP", F.BUZ_CFG_BUZ_REP, .rw, .L, anyVal⟩, ⟨"BUZ_CFG_BUZ_OFF", F.BUZ_CFG_BUZ_OFF, .rw, .L, anyVal⟩, ⟨"BUZ_CFG_BUZ_ON", F.BUZ_CFG_BUZ_ON, .rw, .L, anyVal⟩, ⟨"BUZ_CFG_BUZ_HZ", F.BUZ_CFG_BUZ_HZ, .rw, .L, rng 500 8000⟩]⟩,
  ⟨"BUZ_CTRL", 0x48, 0, 1, 32, [⟨"BUZ_CTRL_STOP", F.BUZ_CTRL_STOP, .wo, .L, anyVal⟩, ⟨"BUZ_CTRL_START", F.BUZ_CTRL_START, .wo, .L, anyVal⟩]⟩,
  ⟨"PNL_RING", 0x4C, 0, 1, 32, [⟨"PNL_RING_EN", F.PNL_RING_EN, .rw, .L, anyVal⟩, ⟨"PNL_RING_RING", F.PNL_RING_RING, .rw, .L, anyVal⟩]⟩,
  ⟨"TOUCH_NACK", 0x50, 0, 1, 32, [⟨"TOUCH_NACK_COUNT", F.TOUCH_NACK_COUNT, .rc, .L, anyVal⟩]⟩]

def regsOf_yc : List RegSpec :=
  [
  ⟨"YC_PROD", 0x0, 4, 8, 32, [⟨"YC_PROD_MASK", F.YC_PROD_MASK, .rw, .L, anyVal⟩]⟩,
  ⟨"YC_FORK", 0x20, 4, 8, 32, [⟨"YC_FORK_EN_HI", F.YC_FORK_EN_HI, .rw, .L, anyVal⟩, ⟨"YC_FORK_TASK_HI", F.YC_FORK_TASK_HI, .rw, .L, anyVal⟩, ⟨"YC_FORK_EN_LO", F.YC_FORK_EN_LO, .rw, .L, anyVal⟩, ⟨"YC_FORK_TASK_LO", F.YC_FORK_TASK_LO, .rw, .L, anyVal⟩]⟩]

def regsOf_yarn : List RegSpec :=
  [
  ⟨"YARN_CFG", 0x1000, 0, 1, 32, [⟨"YARN_CFG_STORM_THR", F.YARN_CFG_STORM_THR, .rw, .L, anyVal⟩, ⟨"YARN_CFG_STORM_WIN", F.YARN_CFG_STORM_WIN, .rw, .L, rng 1 65535⟩]⟩,
  ⟨"YARN_STATUS", 0x1004, 0, 1, 32, [⟨"YARN_STATUS_STORM_EV", F.YARN_STATUS_STORM_EV, .w1c, .L, anyVal⟩]⟩,
  ⟨"STORM_CH", 0x1008, 0, 1, 64, [⟨"STORM_CH_CH", F.STORM_CH_CH, .w1c, .L, anyVal⟩]⟩,
  ⟨"YARN_RING", 0x1010, 0, 1, 32, [⟨"YARN_RING_EN", F.YARN_RING_EN, .rw, .L, anyVal⟩, ⟨"YARN_RING_RING", F.YARN_RING_RING, .rw, .L, anyVal⟩]⟩,
  ⟨"OFF_DROP", 0x1014, 0, 1, 32, [⟨"OFF_DROP_COUNT", F.OFF_DROP_COUNT, .rc, .L, anyVal⟩]⟩,
  ⟨"YARN_FIRE", 0x1018, 0, 1, 32, [⟨"YARN_FIRE_CHANNEL", F.YARN_FIRE_CHANNEL, .wo, .L, anyVal⟩]⟩,
  ⟨"YC_ACT", 0x1100, 4, 64, 32, [⟨"YC_ACT_COUNT", F.YC_ACT_COUNT, .ro, .L, anyVal⟩]⟩,
  ⟨"TASK_MERGE", 0x1200, 4, 64, 32, [⟨"TASK_MERGE_COUNT", F.TASK_MERGE_COUNT, .rc, .L, anyVal⟩]⟩]

def regsOf_aux : List RegSpec :=
  [
  ⟨"AUX_CTRL", 0x0, 0, 1, 32, [⟨"AUX_CTRL_RUN", F.AUX_CTRL_RUN, .rw, .L, anyVal⟩, ⟨"AUX_CTRL_CLK_EDGE", F.AUX_CTRL_CLK_EDGE, .rw, .S, anyVal⟩, ⟨"AUX_CTRL_CLK_SEL", F.AUX_CTRL_CLK_SEL, .rw, .S, anyVal⟩, ⟨"AUX_CTRL_CIC_N", F.AUX_CTRL_CIC_N, .rw, .S, rng 1 5⟩, ⟨"AUX_CTRL_CIC_SHIFT", F.AUX_CTRL_CIC_SHIFT, .rw, .S, rng 0 40⟩, ⟨"AUX_CTRL_CIC_R", F.AUX_CTRL_CIC_R, .rw, .S, rng 8 4096⟩]⟩,
  ⟨"AUX_FIR", 0x4, 0, 1, 32, [⟨"AUX_FIR_FIR_TAPS", F.AUX_FIR_FIR_TAPS, .rw, .S, rng 0 256⟩, ⟨"AUX_FIR_FIR_SHIFT", F.AUX_FIR_FIR_SHIFT, .rw, .S, rng 0 31⟩, ⟨"AUX_FIR_FIR_DEC", F.AUX_FIR_FIR_DEC, .rw, .S, rng 1 16⟩]⟩,
  ⟨"AUX_POST", 0x8, 0, 1, 32, [⟨"AUX_POST_THR_MODE", F.AUX_POST_THR_MODE, .rw, .L, anyVal⟩, ⟨"AUX_POST_MED_LEN", F.AUX_POST_MED_LEN, .rw, .S, fun v => v == 0 || (v % 2 == 1 && rng 3 15 v)⟩]⟩,
  ⟨"AUX_VALUE", 0xC, 0, 1, 32, [⟨"AUX_VALUE_Y3", F.AUX_VALUE_Y3, .ro, .L, anyVal⟩]⟩,
  ⟨"AUX_THR_HI", 0x10, 0, 1, 32, [⟨"AUX_THR_HI_THR_HI", F.AUX_THR_HI_THR_HI, .rw, .L, anyVal⟩]⟩,
  ⟨"AUX_THR_LO", 0x14, 0, 1, 32, [⟨"AUX_THR_LO_THR_LO", F.AUX_THR_LO_THR_LO, .rw, .L, anyVal⟩]⟩,
  ⟨"AUX_RING", 0x18, 0, 1, 32, [⟨"AUX_RING_RING_EN", F.AUX_RING_RING_EN, .rw, .S, anyVal⟩, ⟨"AUX_RING_RING", F.AUX_RING_RING, .rw, .S, anyVal⟩]⟩,
  ⟨"AUX_RDIV", 0x1C, 0, 1, 32, [⟨"AUX_RDIV_RING_DIV", F.AUX_RDIV_RING_DIV, .rw, .S, rng 1 65535⟩]⟩,
  ⟨"AUX_STATUS", 0x20, 0, 1, 32, [⟨"AUX_STATUS_OUT", F.AUX_STATUS_OUT, .ro, .L, anyVal⟩, ⟨"AUX_STATUS_SYNC_SEEN", F.AUX_STATUS_SYNC_SEEN, .w1c, .L, anyVal⟩, ⟨"AUX_STATUS_SAT_EV", F.AUX_STATUS_SAT_EV, .w1c, .L, anyVal⟩, ⟨"AUX_STATUS_THR_EV", F.AUX_STATUS_THR_EV, .w1c, .L, anyVal⟩]⟩,
  ⟨"AUX_SAT", 0x24, 0, 1, 32, [⟨"AUX_SAT_COUNT", F.AUX_SAT_COUNT, .rc, .L, anyVal⟩]⟩,
  ⟨"AUX_COUNT", 0x28, 0, 1, 64, [⟨"AUX_COUNT_COUNT", F.AUX_COUNT_COUNT, .ro, .L, anyVal⟩]⟩]

def regsOf_auxG : List RegSpec :=
  [
  ⟨"AUX_CLK", 0x3000, 0, 1, 32, [⟨"AUX_CLK_MDIV_0", F.AUX_CLK_MDIV_0, .rw, .S, mdivOk⟩, ⟨"AUX_CLK_MDIV_1", F.AUX_CLK_MDIV_1, .rw, .S, mdivOk⟩, ⟨"AUX_CLK_MDIV_2", F.AUX_CLK_MDIV_2, .rw, .S, mdivOk⟩, ⟨"AUX_CLK_MDIV_3", F.AUX_CLK_MDIV_3, .rw, .S, mdivOk⟩]⟩,
  ⟨"AUX_SYNC", 0x3004, 0, 1, 32, [⟨"AUX_SYNC_DRIVE", F.AUX_SYNC_DRIVE, .rw, .L, anyVal⟩, ⟨"AUX_SYNC_SYNC", F.AUX_SYNC_SYNC, .wo, .L, anyVal⟩]⟩,
  ⟨"AUX_SYNC_CNT", 0x3008, 0, 1, 32, [⟨"AUX_SYNC_CNT_COUNT", F.AUX_SYNC_CNT_COUNT, .rc, .L, anyVal⟩]⟩]

def regsOf_auxC : List RegSpec :=
  [
  ⟨"AUX_COEF", 0x0, 4, 128, 32, [⟨"AUX_COEF_C_HI", F.AUX_COEF_C_HI, .rw, .S, anyVal⟩, ⟨"AUX_COEF_C_LO", F.AUX_COEF_C_LO, .rw, .S, anyVal⟩]⟩]

def regsOf_rep : List RegSpec :=
  [
  ⟨"REPLAY_CTRL", 0x0, 0, 1, 32, [⟨"REPLAY_CTRL_ARM", F.REPLAY_CTRL_ARM, .rw, .L, anyVal⟩, ⟨"REPLAY_CTRL_FRZ_FAULT", F.REPLAY_CTRL_FRZ_FAULT, .rw, .L, anyVal⟩, ⟨"REPLAY_CTRL_FRZ_SEV", F.REPLAY_CTRL_FRZ_SEV, .rw, .L, anyVal⟩, ⟨"REPLAY_CTRL_CKPT_LOG", F.REPLAY_CTRL_CKPT_LOG, .rw, .S, rng 14 24⟩]⟩,
  ⟨"REPLAY_POST", 0x4, 0, 1, 32, [⟨"REPLAY_POST_POST", F.REPLAY_POST_POST, .rw, .S, anyVal⟩]⟩,
  ⟨"REPLAY_STATUS", 0x8, 0, 1, 32, [⟨"REPLAY_STATUS_RERUN_EV", F.REPLAY_STATUS_RERUN_EV, .w1c, .L, anyVal⟩, ⟨"REPLAY_STATUS_GAP_EV", F.REPLAY_STATUS_GAP_EV, .w1c, .L, anyVal⟩, ⟨"REPLAY_STATUS_EXPORT_EV", F.REPLAY_STATUS_EXPORT_EV, .w1c, .L, anyVal⟩, ⟨"REPLAY_STATUS_FREEZE_EV", F.REPLAY_STATUS_FREEZE_EV, .w1c, .L, anyVal⟩, ⟨"REPLAY_STATUS_STATE", F.REPLAY_STATUS_STATE, .ro, .L, anyVal⟩]⟩,
  ⟨"CAP_CH", 0x10, 4, 4, 32, [⟨"CAP_CH_MASK", F.CAP_CH_MASK, .rw, .S, anyVal⟩]⟩,
  ⟨"JRN_RING", 0x20, 0, 1, 32, [⟨"JRN_RING_RING", F.JRN_RING_RING, .rw, .S, anyVal⟩]⟩,
  ⟨"CKPT_RING", 0x24, 0, 1, 32, [⟨"CKPT_RING_RING", F.CKPT_RING_RING, .rw, .S, anyVal⟩]⟩,
  ⟨"CAP_RING", 0x40, 4, 8, 32, [⟨"CAP_RING_RING", F.CAP_RING_RING, .rw, .S, anyVal⟩]⟩,
  ⟨"FREEZE_SEC", 0x60, 0, 1, 64, [⟨"FREEZE_SEC_SEC", F.FREEZE_SEC_SEC, .ro, .L, anyVal⟩]⟩,
  ⟨"FREEZE_NS", 0x68, 0, 1, 32, [⟨"FREEZE_NS_NS", F.FREEZE_NS_NS, .ro, .L, anyVal⟩]⟩,
  ⟨"FREEZE_COURSE", 0x70, 0, 1, 64, [⟨"FREEZE_COURSE_COURSE", F.FREEZE_COURSE_COURSE, .ro, .L, anyVal⟩]⟩,
  ⟨"CAP_GAPS", 0x78, 0, 1, 32, [⟨"CAP_GAPS_COUNT", F.CAP_GAPS_COUNT, .rc, .L, anyVal⟩]⟩,
  ⟨"RR_RING", 0x80, 0, 1, 32, [⟨"RR_RING_RING", F.RR_RING_RING, .rw, .L, anyVal⟩]⟩] ++
  [
  ⟨"RR_PATCH_RING", 0x84, 0, 1, 32, [⟨"RR_PATCH_RING_RING", F.RR_PATCH_RING_RING, .rw, .L, anyVal⟩]⟩,
  ⟨"RR_PERIOD", 0x88, 0, 1, 32, [⟨"RR_PERIOD_CYCLES", F.RR_PERIOD_CYCLES, .rw, .L, rng 500 0xFFFFFFFF⟩]⟩,
  ⟨"RR_STATUS", 0x8C, 0, 1, 32, [⟨"RR_STATUS_RSTATE", F.RR_STATUS_RSTATE, .ro, .L, anyVal⟩]⟩,
  ⟨"RR_COURSE", 0x90, 0, 1, 64, [⟨"RR_COURSE_COURSE", F.RR_COURSE_COURSE, .ro, .L, anyVal⟩]⟩,
  ⟨"RR_MISMATCH", 0x98, 0, 1, 32, [⟨"RR_MISMATCH_COUNT", F.RR_MISMATCH_COUNT, .ro, .L, anyVal⟩]⟩,
  ⟨"RR_BASE", 0xA0, 0, 1, 64, [⟨"RR_BASE_ADDR", F.RR_BASE_ADDR, .rw, .L, aligned 4096⟩]⟩,
  ⟨"RR_SIZE", 0xA8, 0, 1, 64, [⟨"RR_SIZE_BYTES", F.RR_SIZE_BYTES, .rw, .L, anyVal⟩]⟩,
  ⟨"JRN_RECORDS", 0xB0, 0, 1, 64, [⟨"JRN_RECORDS_COUNT", F.JRN_RECORDS_COUNT, .ro, .L, anyVal⟩]⟩]

def regsOf_fm : List RegSpec :=
  [
  ⟨"FM_CTRL", 0x0, 0, 1, 32, [⟨"FM_CTRL_AUTO_SPARE", F.FM_CTRL_AUTO_SPARE, .rw, .L, anyVal⟩]⟩,
  ⟨"LOG_BASE", 0x8, 0, 1, 64, [⟨"LOG_BASE_ADDR", F.LOG_BASE_ADDR, .ro, .L, anyVal⟩]⟩,
  ⟨"LOG_OLDEST", 0x10, 0, 1, 32, [⟨"LOG_OLDEST_INDEX", F.LOG_OLDEST_INDEX, .ro, .L, anyVal⟩]⟩,
  ⟨"LOG_NEXT", 0x14, 0, 1, 32, [⟨"LOG_NEXT_INDEX", F.LOG_NEXT_INDEX, .ro, .L, anyVal⟩]⟩,
  ⟨"LOG_LOST", 0x18, 0, 1, 32, [⟨"LOG_LOST_COUNT", F.LOG_LOST_COUNT, .rc, .L, anyVal⟩]⟩]

def regsOf_spare : List RegSpec :=
  [
  ⟨"SPARE_STATUS", 0x0, 0, 1, 32, [⟨"SPARE_STATUS_FOR", F.SPARE_STATUS_FOR, .ro, .L, anyVal⟩, ⟨"SPARE_STATUS_STATE", F.SPARE_STATUS_STATE, .ro, .L, anyVal⟩]⟩,
  ⟨"SPARE_COURSES", 0x8, 0, 1, 64, [⟨"SPARE_COURSES_COUNT", F.SPARE_COURSES_COUNT, .ro, .L, anyVal⟩]⟩,
  ⟨"SPARE_TAKES", 0x10, 0, 1, 32, [⟨"SPARE_TAKES_COUNT", F.SPARE_TAKES_COUNT, .rc, .L, anyVal⟩]⟩]

def regsOf_rgn : List RegSpec :=
  [
  ⟨"RGN_FAILED", 0x0, 0, 1, 32, [⟨"RGN_FAILED_CH", F.RGN_FAILED_CH, .ro, .L, anyVal⟩]⟩,
  ⟨"RGN_RESTORE", 0x4, 0, 1, 32, [⟨"RGN_RESTORE_CH", F.RGN_RESTORE_CH, .wo, .L, anyVal⟩]⟩,
  ⟨"RGN_XBAR", 0x8, 0, 1, 32, [⟨"RGN_XBAR_SPARE_LANE", F.RGN_XBAR_SPARE_LANE, .ro, .L, anyVal⟩]⟩]

/-- The registers of each area. -/
def Area.regs : Area → List RegSpec
  | .pos => regsOf_pos
  | .crs => regsOf_crs
  | .syncR => regsOf_syncR
  | .ing => regsOf_ing
  | .corr => regsOf_corr
  | .cal => regsOf_cal
  | .seam => regsOf_seam
  | .gseam => regsOf_gseam
  | .seg => regsOf_seg
  | .gseg => regsOf_gseg
  | .gtally => regsOf_gtally
  | .te => regsOf_te
  | .cmp => regsOf_cmp
  | .cmpG => regsOf_cmpG
  | .th => regsOf_th
  | .cmd => regsOf_cmd
  | .pat => regsOf_pat
  | .dev => regsOf_dev
  | .fuse => regsOf_fuse
  | .cores => regsOf_cores
  | .clk => regsOf_clk
  | .pwr => regsOf_pwr
  | .therm => regsOf_therm
  | .dlink => regsOf_dlink
  | .cl => regsOf_cl
  | .mc => regsOf_mc
  | .ring => regsOf_ring
  | .dma => regsOf_dma
  | .dmaG => regsOf_dmaG
  | .hkHub => regsOf_hkHub
  | .hkRgn => regsOf_hkRgn
  | .eth => regsOf_eth
  | .net => regsOf_net
  | .tim => regsOf_tim
  | .view => regsOf_view
  | .lb => regsOf_lb
  | .pal => regsOf_pal
  | .dp => regsOf_dp
  | .dw => regsOf_dw
  | .pnl => regsOf_pnl
  | .yc => regsOf_yc
  | .yarn => regsOf_yarn
  | .aux => regsOf_aux
  | .auxG => regsOf_auxG
  | .auxC => regsOf_auxC
  | .rep => regsOf_rep
  | .fm => regsOf_fm
  | .spare => regsOf_spare
  | .rgn => regsOf_rgn

/-- The first address of each area (R407 to R410). -/
def Area.base : Area → Nat
  | .pos => 0x00030000
  | .crs => 0x00031000
  | .syncR => 0x00032000
  | .ing => 0x10000000
  | .corr => 0x10008000
  | .cal => 0x00070000
  | .seam => 0x10001000
  | .gseam => 0x00040000
  | .seg => 0x10002000
  | .gseg => 0x00050000
  | .gtally => 0x00060000
  | .te => 0x10600000
  | .cmp => 0x00080000
  | .cmpG => 0x00080000
  | .th => 0x00090000
  | .cmd => 0x00010000
  | .pat => 0x00020000
  | .dev => 0x00000000
  | .fuse => 0x000A0000
  | .cores => 0x001B0000
  | .clk => 0x000B0000
  | .pwr => 0x000C0000
  | .therm => 0x000D0000
  | .dlink => 0x001C0000
  | .cl => 0x10040000
  | .mc => 0x10700000
  | .ring => 0x00100000
  | .dma => 0x00110000
  | .dmaG => 0x00110000
  | .hkHub => 0x00120000
  | .hkRgn => 0x10800000
  | .eth => 0x00130000
  | .net => 0x00130000
  | .tim => 0x00150000
  | .view => 0x00160000
  | .lb => 0x00164000
  | .pal => 0x00168000
  | .dp => 0x00170000
  | .dw => 0x00170100
  | .pnl => 0x00180000
  | .yc => 0x00190000
  | .yarn => 0x00190000
  | .aux => 0x001A0000
  | .auxG => 0x001A0000
  | .auxC => 0x001A8000
  | .rep => 0x000F0000
  | .fm => 0x000E0000
  | .spare => 0x10400000
  | .rgn => 0x10500000

/-- How an area repeats: the strides and counts from the outermost (region) inwards (R19, R408 to R410). -/
def Area.dims : Area → List (Nat × Nat)
  | .pos => [(0x100, 8)]
  | .crs => [(0x100, 16)]
  | .syncR => []
  | .ing => [(0x1000000, 8), (0x100000, 4), (0x10000, 4)]
  | .corr => [(0x1000000, 8), (0x100000, 4), (0x10000, 4)]
  | .cal => []
  | .seam => [(0x1000000, 8), (0x100000, 4), (0x10000, 4)]
  | .gseam => [(0x100, 16)]
  | .seg => [(0x1000000, 8), (0x100000, 4), (0x10000, 4)]
  | .gseg => [(0x100, 16)]
  | .gtally => [(0x100, 16)]
  | .te => [(0x1000000, 8), (0x100, 16)]
  | .cmp => [(0x100, 16)]
  | .cmpG => []
  | .th => []
  | .cmd => []
  | .pat => [(0x20, 17)]
  | .dev => []
  | .fuse => []
  | .cores => []
  | .clk => []
  | .pwr => []
  | .therm => []
  | .dlink => [(0x100, 7)]
  | .cl => [(0x1000000, 8), (0x100000, 4)]
  | .mc => [(0x1000000, 8), (0x10000, 2)]
  | .ring => []
  | .dma => [(0x40, 64)]
  | .dmaG => []
  | .hkHub => []
  | .hkRgn => [(0x1000000, 8)]
  | .eth => [(0x10000, 2)]
  | .net => []
  | .tim => []
  | .view => [(0x100, 16)]
  | .lb => [(0x20, 16)]
  | .pal => [(0x400, 16)]
  | .dp => []
  | .dw => [(0x10, 16)]
  | .pnl => []
  | .yc => [(0x40, 64)]
  | .yarn => []
  | .aux => [(0x100, 32)]
  | .auxG => []
  | .auxC => [(0x200, 32)]
  | .rep => []
  | .fm => []
  | .spare => [(0x1000000, 8)]
  | .rgn => [(0x1000000, 8)]

/-- Every area, in the order in which an address is looked up. -/
def Area.all : List Area :=
  [.pos, .crs, .syncR, .ing, .corr, .cal, .seam, .gseam, .seg, .gseg, .gtally, .te, .cmp, .cmpG, .th, .cmd, .pat, .dev, .fuse, .cores, .clk, .pwr, .therm, .dlink, .cl, .mc, .ring, .dma, .dmaG, .hkHub, .hkRgn, .eth, .net, .tim, .view, .lb, .pal, .dp, .dw, .pnl, .yc, .yarn, .aux, .auxG, .auxC, .rep, .fm, .spare, .rgn]

/-- The number of an area's copy at given indices: channel, engine and controller numbers as R19 derives them. -/
def flatIndex : List (Nat × Nat) → Nat → Nat → Option (Nat × Nat)
  | [], rem, acc => some (acc, rem)
  | (st, cnt) :: ds, rem, acc =>
    if rem / st < cnt then flatIndex ds (rem % st) (acc * cnt + rem / st) else none

/-- The address of copy `i` of an area (the inverse of `flatIndex`). -/
def flatAddr : List (Nat × Nat) → Nat → Nat
  | [], _ => 0
  | (st, _) :: ds, i =>
    let inner := (ds.map (·.2)).foldl (· * ·) 1
    (i / inner) * st + flatAddr ds (i % inner)

/-- The address of copy `i` of area `a`. -/
def Area.addr (a : Area) (i : Nat) : Nat := a.base + flatAddr a.dims i


end Sys2Proof.Machine
end

