-- ==== Sys2Proof/Machine/State.lean ====
section
/-!
DEFINITION. The state of the HW-128, as plain data: the register file, memory and flash, and for each chapter of the
spec the state it names that is no register. `State.reset` is the device held in reset by PORN (R415): every
register at its Reset column, nothing listed in memory.
-/

namespace Sys2Proof.Machine

/-! ## What the device sends (kept in the order sent) -/

/-- The output pins whose pulses and levels the device drives. -/
inductive Pin where
  | coursesync | auxsync | cmpo (u : Nat) | buzzer | led (k : Nat) | posSck (p : Nat) | strobe
  | thDat (k : Nat) | thClk | thLatn | thStep | mclk (k : Nat) | xspiCs (k : Nat) | xspiRstn
  deriving DecidableEq, Repr

/-- What a ball is at: high impedance, or driven (R702, R705). -/
inductive PinLevel where
  | z | low | high
  deriving DecidableEq, Repr

/-- The reset level of a ball (R705): COURSESYNC and AUXSYNC are inputs but for their own pulses, and the table gives the
RS-422 pairs none. -/
def Pin.resetLevel : Pin → PinLevel
  | .coursesync | .auxsync | .posSck _ => .z
  | .thLatn | .xspiCs _ | .xspiRstn => .high
  | .cmpo _ | .buzzer | .led _ | .strobe | .thDat _ | .thClk | .thStep | .mclk _ => .low

/-- One thing the device sends or drives. -/
inductive Out where
  /-- An Ethernet frame: port, the sequence number of its PRP trailer where it has one, and its bytes from the destination
  address on, without trailer and FCS. -/
  | eth (port : Nat) (rct : Option Nat) (bytes : List Byte)
  /-- Blocks on the back channel of a lane, each with whether it is a control block, and their levels on the wire (R84 to
  R86, R91). -/
  | back (lane : Nat) (blocks : List (Bool × Nat)) (levels : List Int)
  /-- A pulse of a pin, in ns. -/
  | pulse (pin : Pin) (ns : Nat)
  /-- A pin driven to a level. -/
  | level (pin : Pin) (high : Bool)
  /-- A pin driven with a square wave of `num` / `den` Hz until it is next driven (R627, R649). -/
  | wave (pin : Pin) (num den : Nat)
  /-- A group of balls goes to high impedance: all outputs, or the boot flash (R428, R702). -/
  | hiz (balls : String)
  /-- A command to the boot flash: chip select, whether it is in 8D-8D-8D, its bytes and its dummy cycles (R424). -/
  | flash (cs : Nat) (octal : Bool) (bytes : List Byte) (dummy : Nat)
  /-- The DisplayPort stream begins with a mode: its pixel clock in kHz; active pixels, total, start and width of the horizontal sync;
  the same of the lines; or it stops, with no mode (R619, R620). -/
  | video (mode : List Nat)
  /-- Bytes on the bus of a named unit: TH_CS, the cassette. -/
  | bus (name : String) (bytes : List Byte)
  /-- A transfer on the I²C bus of the panel: the address, the bytes written, and how many bytes are then read (R623, R624). -/
  | i2c (addr : Nat) (bytes : List Byte) (reads : Nat)
  /-- An interrupt to the firmware, with its number (R635). -/
  | irq (n : Nat)
  /-- Data shifted out of the JTAG port. -/
  | jtag (bits : Nat) (value : Nat)
  /-- The shift of one pass of a dot line: the bits sent as 1, each with its TH_DAT line and its clock position (R330). -/
  | shift (bits : List (Nat × Nat))
  /-- A pulse of TH_LATN (R336). -/
  | latch
  /-- Strobe groups of TH_STB that fire together, and their time in µs (R335, R336). -/
  | strobe (groups : List Nat) (us : Nat)
  /-- Steps of the tag head's feed. -/
  | feed (lines : Nat)
  deriving DecidableEq, Repr

/-! ## Courses (02_courses) and the course-stamp contract (01_architecture) -/

/-- A position channel's state that is no register. -/
structure PosCh where
  /-- the filtered state of A and B, or of U, V and W (R48) -/
  pins : Nat := 0
  /-- the last valid Hall state (R55); 0 before the first -/
  hall : Nat := 0
  /-- the level at each pin itself, and for how many samples in a row each has held it, up to 16 (R48) -/
  raw : Nat := 0
  held : List Nat := [0, 0, 0]
  /-- the filtered level of Z (R69), the raw one (R634), and for how many samples in a row Z has held it, up to 16 (R48) -/
  z : Bool := false
  zRaw : Bool := false
  zHeld : Nat := 0
  /-- cycle of the last count, or of the last Hall change -/
  lastCount : Option Nat := none
  /-- the position of the last good serial frame (R59) -/
  serRef : Option Nat := none
  /-- sample instant and device course view of the outstanding serial request (R57) -/
  serAt : Option (Nat × Int) := none
  /-- POS_COUNT at the start of the speed window (R60) -/
  winPos : Int := 0
  /-- the last direction of motion -/
  dir : Int := 1
  /-- POS_COUNT and direction of the last index event (R70) -/
  idx : Option (Int × Int) := none
  deriving DecidableEq, Repr

/-- A web group's state that is no register. -/
structure Grp where
  /-- 0 stopped, 1 armed, 2 running, 3 draining (R382) -/
  st : Nat := 0
  acc : Nat := 0
  /-- the cycle in which HWM last advanced (R63) -/
  counted : Option Nat := none
  /-- the course that is open; none before course 0 triggers (R714) -/
  openC : Option Nat := none
  /-- the cycle of the last trigger -/
  lastTrig : Option Nat := none
  /-- the encoder sample of the one course pending under R67 -/
  dueC : Option Int := none
  /-- the last course that has closed -/
  closed : Option Nat := none
  /-- the last course triggered before the stop -/
  last : Option Nat := none
  deriving DecidableEq, Repr

/-- One field write: key, value, and whether it clears (W1C). -/
structure FieldWrite where
  key : Nat
  val : Nat
  w1c : Bool
  deriving DecidableEq, Repr

/-- COURSESYNC of a follower (R77, R78): pulses since the start, the last course whose number is a multiple of the
interval with the cycle of its trigger, and a check that waits: the course and the cycle of its edge. -/
structure Sync where
  n : Nat := 0
  trig : Option (Nat × Nat) := none
  due : Option (Nat × Nat) := none
  deriving DecidableEq, Repr

/-- What a stamped input does when it is consumed. -/
inductive Payload where
  /-- an aux sample (R172) -/
  | aux (ch : Nat) (y3 : Int)
  /-- a start of the group's mask hold (R229) -/
  | segHold
  /-- an accepted register write or modify (R371, R670): session, OP, SET, address and words for the journal, and the
  L fields of the group that it writes (R8) -/
  | write (session : Nat) (modify : Bool) (set : Nat) (addr : Nat) (words : List Nat) (items : List FieldWrite)
  /-- a start (1) or stop (2) of the group, for the journal: session, OP, FLAGS (R670) -/
  | run (session : Nat) (op : Nat) (flags : Nat)
  /-- a sample of a die's temperature, with the changes of the thermal limit that it brings, for the journal: LIMITs (R476,
  R670) -/
  | thermal (limits : List Nat)
  deriving DecidableEq, Repr

/-- A stamped input (R29): group, class, source, stamp (−1 before course 0, R714) and what it does. `eff` is its
effective course once it has arrived (R38, R39). `dev` marks an input of no group: its stamp is the device course view,
and `grp` the group that the view followed (R32). `no` counts the commands and writes accepted before it (R371). -/
structure Stamped where
  grp : Nat
  cls : Nat
  src : Nat
  stamp : Int
  eff : Int
  what : Payload
  dev : Bool
  no : Nat := 0
  deriving DecidableEq, Repr

/-- A write of an L field of a group that waits for its boundary (R8): group, the course before the first one that it governs,
write, and its place in the order of acceptance. -/
structure LiveWrite where
  grp : Nat
  stamp : Int
  items : List FieldWrite
  no : Nat := 0
  deriving DecidableEq, Repr

/-- A command held for its course (R378), with its place in the order of acceptance. -/
structure Held where
  session : Nat
  grp : Nat
  course : Nat
  items : List FieldWrite
  no : Nat := 0
  deriving DecidableEq, Repr

/-- A pattern set after its swap (R399): the set, the channels it served at the swap, the swap course, and whether the
copy-back of its segmentation blocks and of its tally block has begun; that of every other block begins at the swap. -/
structure CopyBack where
  set : Nat
  chans : List Nat
  course : Int
  seg : Bool
  tally : Bool
  deriving DecidableEq, Repr

/-! ## Lanes and channels (03_skein_link, 04_correction_gauge) -/

/-- A lane's state that is no register. -/
structure Lane where
  /-- IDLE_ENT has been seen and no LOS or LOCK since (R114) -/
  announced : Bool := false
  /-- on hold after an IDENT that sets IDENT_MISMATCH (R111) -/
  hold : Bool := false
  /-- the bond's markers are aligned (R123) -/
  aligned : Bool := false
  /-- marker count of the last ALIGN, and the block at which it came (R123) -/
  align : Option (Nat × Nat) := none
  /-- scrambler of the back channel, and its last precoded symbol (R85, R86) -/
  scr : Nat := 0
  sym : Nat := 0
  /-- a WAKE has been sent and no burst has begun (R115) -/
  waking : Bool := false
  /-- cycle at which electrical idle began (R115) -/
  idleSince : Nat := 0
  /-- consecutive training frames with RX_READY both ways (R112) -/
  trnReady : Nat := 0
  /-- frame count of the device's training frames -/
  frame : Nat := 0
  /-- coefficients of the back-channel FIR in use (R90) -/
  pre : Nat := 0
  post : Nat := 0
  /-- next SEQ of each VC on the back channel (R96) -/
  seqTx : List Nat := [0, 0, 0, 0]
  /-- last SEQ received on each VC, and the gaps counted (R96) -/
  seqRx : List (Nat × Nat) := []
  seqGaps : Nat := 0
  /-- tags of control requests not yet answered: tag, session and sequence of the command, operation (R109) -/
  tags : List (Nat × Nat × Nat × Nat) := []
  nextTag : Nat := 0
  /-- extended course, CAM_LINE and EXP_ID of the last line accepted (R98, R106) -/
  last : Option (Nat × Nat × Nat) := none
  /-- a line has been accepted since the join (R106) -/
  lineSince : Bool := false
  /-- the memory source's own line count (R137) -/
  memLine : Nat := 0
  deriving DecidableEq, Repr

/-- A line of a course held by a channel (R127 to R131): its raw samples (those present, at most LINE_LEN), their
width, exposure, temperature, flags (bit 0 SAT, bit 1 TEST, bit 2 OVERTEMP), and whether it was declared missing. -/
structure Line where
  course : Nat
  missing : Bool := false
  samples : List Nat := []
  width : Nat := 8
  exp : Nat := 0
  temp : Int := 0
  flags : Nat := 0
  cam : Nat := 0
  upper : Bool := false
  long : Bool := false
  image : List Byte := []
  deriving DecidableEq, Repr

/-- A statistics block being accumulated (R174 to R178). -/
structure Stat where
  first : Nat := 0
  exp : Option Nat := none
  partialRun : Bool := false
  flags : Nat := 0
  lines : Nat := 0
  excluded : Nat := 0
  sum : Nat := 0
  sumsq : Nat := 0
  min : Nat := 65535
  max : Nat := 0
  sat : Nat := 0
  hist : List (Nat × Nat) := []
  prof : List (Nat × Nat × Nat) := []
  deriving DecidableEq, Repr

/-- A gauge computation (R163, R164): the course of its request, its temperature, and for a rewrite in place the
pages it covers. -/
structure GaugeReq where
  course : Int
  temp : Int
  pages : List Nat := []
  /-- SEL when the computation began (R168) -/
  sel : Nat := 0
  deriving DecidableEq, Repr

/-- A computed gauge table that waits for its installation: OFFSET and GAIN of each pixel, temperature, SEL. -/
structure GaugeTab where
  tab : List (Int × Nat) := []
  temp : Int := 0
  sel : Nat := 0
  deriving DecidableEq, Repr

/-- A channel's state that is no register. -/
structure Chan where
  /-- spans of courses for which the channel is joined: first, and the first after it where it has left -/
  spans : List (Nat × Option Nat) := []
  /-- a leave condition has occurred since the last boundary (R119) -/
  leaving : Bool := false
  /-- the oldest course not yet started -/
  next : Nat := 0
  /-- lines accepted and courses declared missing, until the seam stage commits their course (R127, R683) -/
  lines : List Line := []
  /-- upper copies of a dual-attach pair that have not been used, and courses whose lower copy failed (R125) -/
  uppers : List Line := []
  lowerBad : List Nat := []
  /-- EXP_ID of the last accepted line since the start or join (R134) -/
  lastExp : Option Nat := none
  /-- course and TEMP of the lines accepted last (R163) -/
  temps : List (Nat × Int) := []
  /-- corrected lines waiting for the seam engine: value and mask bit of each pixel (R144) -/
  out : List (Nat × List (Nat × Bool)) := []
  statRaw : Option Stat := none
  statCor : Option Stat := none
  /-- the gauge tables installed, newest first, with the first course each governs (R160, R161, R166) -/
  gauges : List (Nat × GaugeTab) := []
  /-- aux samples that apply from their effective course on: course, aux channel, y3 (R172) -/
  lampQ : List (Int × Nat × Int) := []
  /-- the latest sample of each aux channel that applies (R171, R172) -/
  lampV : List (Nat × Int) := []
  /-- the time of the installation is still to be recorded (R170) -/
  calDue : Bool := false
  /-- the lane has accepted a line (R162) -/
  everLine : Bool := false
  running : Option GaugeReq := none
  pendingReq : Option GaugeReq := none
  done : Option GaugeTab := none
  /-- the pool pages of a rewrite in place that is complete (R169) -/
  rewrite : Option (List Nat) := none
  /-- uncorrectable pool entries, until they are written again: the first course that the table governs, and the pixel
  (R161) -/
  badPool : List (Nat × Nat) := []
  /-- the channel is out of service (R24): its wales are masked from this course on -/
  lostAt : Option Nat := none
  /-- the spans of courses that the spare processes: first, and the first after it where it has ended (R146, R684) -/
  spares : List (Nat × Option Nat) := []
  deriving DecidableEq, Repr

/-- The course status word of a course under way (R134), and the blocks of the group that have finished it. -/
structure Csw where
  grp : Nat
  course : Nat
  bits : Nat := 0
  miss : Nat := 0
  deriving DecidableEq, Repr

/-- The seam stage of a channel (R187 to R222): the course it outputs next, the offsets DX and DY with the first course
each governs (newest first), and the registration of its low-side seam: the 15 scores of R203 by shift, N, E_a, E_b,
and the contributions of both cameras to the zone in the course before. -/
structure SeamCh where
  next : Nat := 0
  offs : List (Nat × Int × Int) := []
  score : List (Nat × Int) := []
  n : Nat := 0
  ea : Nat := 0
  eb : Nat := 0
  prev : Option (Nat × List (Option Int) × List (Option Int)) := none
  /-- output of the wales owned, newest course first (R191) -/
  rows : List (Nat × List (Nat × Bool)) := []
  deriving DecidableEq, Repr

/-- The seam engine of a group: the course it opens next, the first course of the registration block in progress, the
course whose selvages it searches next, the selvages found (with the course after which each holds, newest first; none before the first finding), whether the
next finding is the first after a loss, and the sides lost in the block. -/
structure SeamGrp where
  next : Nat := 0
  block : Nat := 2
  selv : Nat := 0
  left : List (Nat × Int) := []
  right : List (Nat × Int) := []
  freshL : Bool := true
  freshR : Bool := true
  lostL : Bool := false
  lostR : Bool := false
  deriving DecidableEq, Repr

/-- A run (R241, R255): channel, first wale, wales, class bits, TOUCH_MASK, LEFT_CLIP, RIGHT_CLIP, and the values of the
run and its margins. -/
structure Run where
  ch : Nat
  wale : Nat
  len : Nat
  cls : Nat
  touch : Bool := false
  clipL : Bool := false
  clipR : Bool := false
  vals : List Nat := []
  deriving DecidableEq, Repr

/-- The open segment of a component (R252, R254, R258): SEG_INDEX, first course, runs, wale range, area, class bits,
FLAGS, and its chunks in the order of the chain with the stream bytes in the last. -/
structure Seg where
  idx : Nat := 0
  first : Nat := 0
  runs : Nat := 0
  lo : Nat := 0
  hi : Nat := 0
  area : Nat := 0
  cls : Nat := 0
  flags : Nat := 0
  chunks : List Nat := []
  used : Nat := 0
  deriving DecidableEq, Repr

/-- An open component (R244 to R253): key, open segment, an ended segment that is still to be handed with its last
course, the last course with a pixel, its runs there (first wale, wales), and whether a masked course was bridged. -/
structure Comp where
  keyC : Nat := 0
  keyW : Nat := 0
  seg : Seg := {}
  pend : Option (Seg × Nat) := none
  last : Nat := 0
  front : List (Nat × Nat) := []
  gap : Bool := false
  deriving DecidableEq, Repr

/-- The segmentation of a group: courses combined, thresholded, labelled and resolved next; combined rows and
thresholded rows (value, mask, class bits) newest first; background and course of initialisation per channel; mask
holds (first course, first after); components and the overflow component; runs not yet resolved; descriptors not yet
handed; the run-store pool (chunks never used begin at index `fresh`, and those returned); the courses of the last log
entries; and whether a descriptor waits. -/
structure SegGrp where
  comb : Nat := 0
  thr : Nat := 0
  next : Nat := 0
  res : Nat := 0
  combRows : List (Nat × List (Nat × Bool)) := []
  clsRows : List (Nat × List (Bool × Nat)) := []
  bg : List (Nat × List (Option Nat)) := []
  init : List (Nat × Nat) := []
  holds : List (Nat × Nat) := []
  comps : List Comp := []
  overC : Option Comp := none
  runs : List (Nat × List Run) := []
  hand : List (List Byte) := []
  fresh : Nat := 0
  back : List Nat := []
  logOvf : Option Nat := none
  logFull : Option Nat := none
  wait : Bool := false
  deriving DecidableEq, Repr

/-- A tally job under way (R266 to R270, R306): sequence number, descriptor, record ID of the chain's segment before, the
engine that runs it (none while it waits for one again), and the engines that have failed on it. -/
structure Job where
  seq : Nat
  desc : List Byte
  prev : Nat
  engine : Option Nat
  fails : List Nat := []
  deriving DecidableEq, Repr

/-- The tally of a group: jobs, chain entries by chain key and that of the overflow component (R299), and completed
records with the result rings they still have to reach (R302 to R304). -/
structure TalGrp where
  jobs : List Job := []
  chain : List (Nat × Nat) := []
  overChain : Option Nat := none
  done : List (Nat × List Byte × List Nat) := []
  deriving DecidableEq, Repr

/-- A course's history (R281): encoder sample and local time of the trigger. -/
structure Hist where
  course : Nat
  enc : Int
  sec : Nat
  ns : Nat
  deriving DecidableEq, Repr

/-! ## Command sessions (09_commands) -/

/-- A command whose reply has not been sent (R370): its header, opcode, the unit it names, and its result once it is
known. -/
structure Outstanding where
  hdr : Hdr
  op : Nat
  arg : Nat
  result : Option (Nat × List Byte)
  deriving DecidableEq, Repr

/-- An open session (R361 to R363, R367 to R369). -/
structure Session where
  id : Nat
  role : Nat
  port : Nat
  addr : Nat
  udp : Nat
  hostNonce : Nat
  devNonce : Nat
  /-- seconds; the default 30 is already in place of 0 -/
  timeout : Nat
  maxDgram : Nat
  /-- cycle of the last command with a valid tag -/
  heard : Nat
  hi : Nat
  /-- received sequence numbers of the window -/
  seen : List Nat
  /-- cached replies of the window -/
  cache : List (Nat × List Byte)
  outst : List Outstanding
  openReply : List Byte
  deriving DecidableEq, Repr

/-! ## Memory, rings, DMA (13_memory, 14_rings_dma) -/

/-- A ring context (R511). -/
structure RingCtx where
  base : Nat := 0
  depthLog : Nat := 0
  valid : Bool := false
  e256 : Bool := false
  devProd : Bool := false
  bound : Bool := false
  prod : Nat := 0
  cons : Nat := 0
  drops : Nat := 0
  subs : List Nat := []
  deriving DecidableEq, Repr

/-- A reservation whose entries have not all arrived (R515, R516). -/
structure Reservation where
  ring : Nat
  first : Nat
  n : Nat
  done : Bool
  deriving DecidableEq, Repr

/-- Who a subscriber is (R520). -/
inductive Subscriber where
  /-- an internal subscriber: the number of the block that reads the ring -/
  | block (b : Nat)
  /-- a network subscriber: Hank flag, UDP port, address, Ethernet port -/
  | net (hank : Bool) (udp : Nat) (addr : Nat) (port : Nat)
  deriving DecidableEq, Repr

/-- A subscription (R520 to R522, R586 to R588). -/
structure Sub where
  ring : Nat
  who : Subscriber
  cursor : Nat
  /-- cycle at which the cursor last moved -/
  moved : Nat
  /-- next entry to send -/
  sent : Nat
  /-- datagrams sent and not yet past SENT_HOLD: last index and cycle -/
  inFlight : List (Nat × Nat)
  seq : Nat
  /-- K_sub of a network subscriber (R586) -/
  key : List Byte
  /-- cycle at which the oldest unsent entry became visible (R587) -/
  since : Option Nat
  /-- the entries below this index are sent again after a failover (R588) -/
  resendTo : Nat
  deriving DecidableEq, Repr

/-- A request waiting in a memory controller's queue (R494): class, read or write, address, length, unit. -/
structure MemReq where
  dev : Nat
  cls : Nat
  write : Bool
  addr : Nat
  unit : Nat
  age : Nat
  deriving DecidableEq, Repr

/-- What is counted of a GDDR7 device (R484, R502, R687). -/
structure Dram where
  /-- how often in a row its next transfer fails the data CRC -/
  crc : Nat := 0
  /-- transfers in a row that have exhausted their CRC retries -/
  run : Nat := 0
  /-- the cycles of its last uncorrectable blocks, newest first -/
  ues : List Nat := []
  /-- the device has failed, and its patches are still to be handled -/
  recut : Bool := false
  deriving DecidableEq, Repr

/-- A DMA channel's state that is no register (R526 to R536): the fields of the fetched descriptor. -/
structure Dma where
  src : Nat := 0
  dst : Nat := 0
  len : Nat := 0
  ctrl : Nat := 0
  fetched : Bool := false
  copied : Nat := 0
  deriving DecidableEq, Repr

/-- A host job on a lane of a codec (R551 to R560): operation, index flag, input, index address and ID; its output buffers
(address, length); blocks and input bytes completed, output position; and its status once it has ended, with the offset
of the failing block. -/
structure HankJob where
  op : Nat := 0
  index : Bool := false
  src : Nat := 0
  len : Nat := 0
  idx : Nat := 0
  id : Nat := 0
  bufs : List (Nat × Nat) := []
  blocks : Nat := 0
  used : Nat := 0
  pos : Nat := 0
  status : Option Nat := none
  fail : Nat := 0
  /-- EN has been cleared while the job ran (R560) -/
  stop : Bool := false
  deriving DecidableEq, Repr

/-! ## Marking (08_marking) -/

/-- A compare unit's state that is no register: its list in ascending position (R320), the late entries that fire in
the next cycle (R321), and the end of the active pulse (R319). -/
structure Cmp where
  list : List (Int × Nat) := []
  late : List (Int × Nat) := []
  pulseEnd : Option Nat := none
  deriving DecidableEq, Repr

/-- A tag job (R341, R342); `auto` for a job of the automatic queue. -/
structure TagJob where
  image : Nat := 0
  lines : Nat := 0
  feedAfter : Nat := 0
  atPos : Bool := false
  reprint : Bool := false
  irq : Bool := false
  startPos : Int := 0
  id : Nat := 0
  deriving DecidableEq, Repr

/-- Where the job at the head of the tag head stands. -/
inductive TagPhase where
  /-- no job -/
  | idle
  /-- the job waits for its start position (R343) -/
  | position
  /-- its decrement is under way (R344) -/
  | decrement
  /-- between lines -/
  | lines
  /-- a pass strobes -/
  | strobe
  /-- voided, with the feed waiting for the conditions to clear (R339) -/
  | void
  /-- over, with its result still to be written (R345) -/
  | ended
  deriving DecidableEq, Repr

/-- The tag head's state that is no register. -/
structure Tag where
  autoQ : List TagJob := []
  again : List TagJob := []
  job : TagJob := {}
  phase : TagPhase := .idle
  status : Nat := 0
  line : Nat := 0
  /-- the bits of the line in print, and of the two lines before it (R332) -/
  dots : List Bool := []
  prev1 : List Bool := []
  prev2 : List Bool := []
  band : Nat := 0
  /-- passes of the line that are still to be strobed: e_k and D_k (R335) -/
  passes : List (Nat × Nat) := []
  sec : Nat := 0
  ns : Nat := 0
  /-- the temperature value, when it exists (R334) -/
  temp : Option Int := none
  /-- at the soft limit (R337) -/
  hot : Bool := false
  /-- the buffer of four rows: the rows that TH_DMA has brought for the line in wait and the lines after it (R331) -/
  rows : List (List Byte) := []
  /-- the line waits for its row (R331) -/
  waiting : Bool := false
  /-- printing is stopped until the next authentication (R344) -/
  stopped : Bool := false
  deriving DecidableEq, Repr

/-- The cassette exchange under way (R346 to R349): the command (0 none, 1 INFO, 2 AUTH, 3 DEC), its nonce, and what
INFO returned. -/
structure Cass where
  cmd : Nat := 0
  nonce : List Byte := []
  serial : Nat := 0
  counter : Nat := 0
  /-- TH_OPEN has cleared and the 100 ms have not passed -/
  closing : Bool := false
  /-- an authentication was asked for while a decrement was under way (R348) -/
  again : Bool := false
  deriving DecidableEq, Repr

/-! ## Yarn and aux (18_yarn_aux) -/

/-- An aux filter channel's state that is no register (R650 to R658): the CIC registers of 61 bits and its decimation
phase, the FIR delay line and its phase, the median window, the AUX_RING entry being filled, and a sync not yet seen. -/
structure AuxCh where
  integ : List Nat := []
  comb : List Nat := []
  cicPhase : Nat := 0
  cicOut : Nat := 0
  firLine : List Int := []
  firPhase : Nat := 0
  med : List Int := []
  ringPhase : Nat := 0
  ringAcc : List Int := []
  ringIdx : Nat := 0
  ringSec : Nat := 0
  ringNs : Nat := 0
  ringView : Nat := 0
  syncWait : Bool := false
  syncNew : Bool := false
  deriving DecidableEq, Repr

/-- Yarn's state that is no register. -/
structure Yarn where
  /-- producers that have fired and have not been routed -/
  due : List Nat := []
  /-- fires of each channel in the open storm window (R647) -/
  fires : List (Nat × Nat) := []
  /-- cycle of the last fire of each task input (R643) -/
  taskAt : List (Nat × Nat) := []
  /-- fires of NOTIFY[n] merged since its previous entry (R639) -/
  merged : List (Nat × Nat) := []
  /-- firmware interrupts held in SLEEP (R637) -/
  heldIrq : List Nat := []
  deriving DecidableEq, Repr

/-! ## Panel and DisplayPort (17_views_panel) -/

/-- The panel port's state that is no register (R623 to R627). -/
structure Panel where
  /-- the bus: 0 idle, 1 a touch read, 2 a host transfer -/
  bus : Nat := 0
  touchDue : Bool := false
  hostDue : Bool := false
  /-- of each key, the equal samples of a level not yet accepted -/
  keyCnt : List (Nat × Nat) := []
  slowOn : Bool := false
  fastOn : Bool := false
  /-- the buzzer: 0 silent, 1 sound, 2 pause -/
  buz : Nat := 0
  buzLeft : Nat := 0
  /-- the cycle of the last start of the pattern (R627) -/
  buzAt : Option Nat := none
  /-- events of this PSCLK cycle, each with KIND and INDEX, whose entries are still to be written (R628) -/
  due : List (Nat × Nat × List Byte) := []
  deriving DecidableEq, Repr

/-- What the display buffer of a view holds (R621): its base, its rows and its pixels a row as they were at the last row written,
and the numbers of the rows in it. -/
structure DispBuf where
  base : Nat := 0
  rows : Nat := 0
  pw : Nat := 0
  held : List Nat := []
  deriving DecidableEq, Repr

/-- What the DisplayPort source has read from the monitor: its highest rate code and lane count, its EDID and the
settings (rate, lanes) its link trains at (R618, R619). -/
structure Monitor where
  rate : Nat := 0
  lanes : Nat := 0
  edid : List Byte := []
  trains : List (Nat × Nat) := []
  deriving DecidableEq, Repr

/-! ## Network (16_network_time) -/

/-- A frame in the transmit queue of a port: its priority of R578 (1 PTP event messages, 2 launch frames, 3 replies,
announcements, address protocols and PRP supervision, 4 result streams, 5 view streams), and what is sent. -/
structure TxFrame where
  port : Nat
  prio : Nat
  frame : Out
  deriving DecidableEq, Repr

/-- An IP packet that waits for its next hop (R571): its port, its priority of R578, whether it is IPv4, and its bytes. -/
structure IpPkt where
  port : Nat
  prio : Nat
  v4 : Bool
  bytes : List Byte
  deriving DecidableEq, Repr

/-- The shared network state that is no register. -/
structure Net where
  /-- neighbour cache: address and MAC, oldest first (R571) -/
  neigh : List (Nat × Nat) := []
  /-- packets waiting for a next hop: cycle queued, next hop, packet (R571) -/
  wait : List (Nat × Nat × IpPkt) := []
  /-- the transmit queues of both ports, oldest first (R578) -/
  txq : List TxFrame := []
  /-- next PRP sequence number -/
  prpSeq : Nat := 0
  /-- PRP frames seen: source MAC, sequence number, cycle (R576) -/
  prpSeen : List (Nat × Nat × Nat) := []
  /-- NO_SESSION and AUTH_FAIL replies sent in the open second, per port, with the cycle it began (R367) -/
  authWin : List (Nat × Nat × Nat) := []
  /-- cycle at which each port's link came up (R575) -/
  upAt : List (Nat × Nat) := []
  /-- announcements sent, modulo 2^16 (R438) -/
  annSeq : Nat := 0
  /-- PRP supervision frames sent, modulo 2^16 (R576) -/
  supSeq : Nat := 0
  /-- local time in ns at which the last launch frame has left the port (R581) -/
  lqBusy : Nat := 0
  /-- launch queues whose head entry was due, and waits for that of a lower queue (R581) -/
  lqWait : List Nat := []
  deriving DecidableEq, Repr

/-! ## Replay (19_replay_faults) -/

/-- One item of a capture or checkpoint ring, or one entry of the journal ring, that is still held (R667): its ring,
first entry, number of entries, kind (1 capture, 2 checkpoint, 3 journal), channel or group (for a journal entry: how many of its first records continue the
entry before), and course. -/
structure RepItem where
  ring : Nat
  first : Nat
  n : Nat
  kind : Nat
  unit : Nat
  course : Nat
  /-- an earlier run of the group wrote it (R674) -/
  past : Bool := false
  deriving DecidableEq, Repr

/-- The replay block's state that is no register. -/
structure Replay where
  /-- the trigger course T (R672) -/
  trig : Int := 0
  /-- journal records waiting for their entry (R668) -/
  jbuf : List (List Byte) := []
  /-- how many of them, from the first on, continue a record of the entry before (R669) -/
  lead : Nat := 0
  items : List RepItem := []
  /-- of the freeze instant: the run of each group (first channel, channels), and the spans of each channel (R674) -/
  runs : List (Nat × Nat × Nat) := []
  spans : List (Nat × List (Nat × Option Nat)) := []
  /-- bytes of the bundle still to be written, and the ring they go to (R675) -/
  exportRing : Nat := 0
  exportLeft : List Byte := []
  /-- the bundle under re-run: address, next and last course per group -/
  rrAddr : Nat := 0
  rrNext : List (Nat × Nat) := []
  rrLast : List (Nat × Nat) := []
  /-- ring fields of the groups kept for the end of the re-run (key, value) -/
  rrSaved : List (Nat × Nat) := []
  /-- runs that the re-run drops: group, course, wale, length (R678) -/
  rrDrops : List (Nat × Nat × Nat × Nat) := []
  /-- RECORD records of the bundle: record ID, SOURCE, CRC, PATCH_IDX (R678, R679) -/
  rrRecs : List (Nat × Nat × Nat × Nat) := []
  /-- device number of the bundle under re-run -/
  rrDev : Option Nat := none
  /-- the channel records kept for the end of the re-run -/
  rrKeep : List (Nat × Chan) := []
  deriving DecidableEq, Repr

/-! ## Cast-on and power (11_cast_on, 12_clocks_power) -/

/-- Cast-on's state that is no register (R414 to R437). -/
structure Boot where
  /-- the step of R414 under way: 0 while PORN is low, 10 from Ready on -/
  step : Nat := 0
  /-- why cast-on has halted: 0 it has not, 1 FUSE_FAIL, 2 XA_FAIL, 3 BOOT_FAIL (R418, R420, R428) -/
  halt : Nat := 0
  /-- cast-on began at a wake from SLEEP (R473) -/
  wake : Bool := false
  /-- cycle at which cast-on began -/
  start : Nat := 0
  /-- attempts made, image of the attempt under way, core pair it runs on (R428, R441) -/
  tries : Nat := 0
  image : Nat := 0
  pair : Nat := 0
  /-- XA as last measured (R420) -/
  hz : Nat := 0
  /-- failures that loom bring-up and hub initialisation meet: kind and unit (R433, R434) -/
  fails : List (Nat × Nat) := []
  /-- the fuses as the last cast-on sensed them (R418, R422) -/
  sensed : Nat := 0
  /-- cycle of Ready -/
  readyAt : Nat := 0
  /-- ports on which the announcement of Ready waits for the link (R439) -/
  annWait : List Nat := []
  /-- the return from STANDBY to RUN is under way (R446) -/
  resume : Bool := false
  /-- regions brought up, one bit each, and regions unavailable through a fault (R432, R433) -/
  avail : Nat := 0
  faulty : Nat := 0
  /-- the fuse bit that is being blown (R421) -/
  fuseAt : Nat := 0
  deriving DecidableEq, Repr

/-- What power and thermal protection hold beside their registers: domains being powered in order (R468), whether WARN
and TRIP act, TRIP on the loom dies and on the hub die (R476), whether bind-off has been accepted (R444), and whether THERM_MAX
holds a sample taken since its last read (R479). -/
structure Power where
  queue : List Nat := []
  warn : Bool := false
  trip : Bool := false
  hubTrip : Bool := false
  bind : Bool := false
  maxSeen : Bool := false
  deriving DecidableEq, Repr

/-- A master heard in a PTP domain (R596): its source port identity, its Announce data set, its grandmaster, the cycle of its
last Announce and the interval that gives (the byte of the message), whether it is qualified, the ports on which it is heard,
and its transport (0 IEEE 802.3, 1 IPv4, 2 IPv6). -/
structure Master where
  src : Nat
  key : Nat
  gm : Nat
  last : Nat
  log : Nat
  qual : Bool
  ports : List Nat
  trans : Nat
  deriving DecidableEq, Repr

/-- The exchange of a PTP domain with its master on one port (R577, R597): the timestamps of the last Sync, that of a Delay_Req
whose answer is still to come, t4 − t3 of the last answered one, the next sequence number, and a two-step Sync whose
Follow_Up is still to come: its sequence number and its arrival less its correction. -/
structure PtpEx where
  t1 : Option Int := none
  t2 : Int := 0
  t3 : Option Int := none
  back : Option Int := none
  seq : Nat := 0
  twoStep : Option (Nat × Int) := none
  deriving DecidableEq, Repr

/-- A PTP domain tracked (R595 to R598): the domain number in effect, the masters heard in it, the source chosen, the ports on
which it is heard and its transport, the exchange of each port, consecutive offsets inside and outside LOCK_THR, whether a
Sync has been delivered, and the interval that the last Delay_Resp gave for PTP_DELAY_REQ_SEND (the byte of the message). -/
structure Ptp where
  dom : Nat := 0
  masters : List Master := []
  best : Option Nat := none
  ports : List Nat := []
  trans : Nat := 0
  ex : List (Nat × PtpEx) := []
  good : Nat := 0
  bad : Nat := 0
  synced : Bool := false
  reqLog : Option Nat := none
  deriving DecidableEq, Repr

/-- The local clock's state that is no register: the adjustment that runs, the domain that drives the correction, the
integral of the servo, and the increment held at a switch while its clamp acts (R591, R599, R601). -/
structure TimeSt where
  delta : Int := 0
  ticks : Nat := 0
  sel : Option Nat := none
  integ : Int := 0
  held : Option Int := none
  deriving DecidableEq, Repr

/-- The whole machine. -/
structure State where
  /-- PSCLK cycles since the model's start -/
  now : Nat := 0
  /-- L, S, RO and RC fields, by `Fld.key` -/
  regs : List (Nat × Nat) := []
  /-- P fields of the active bank -/
  act : List (Nat × Nat) := []
  /-- P fields of the shadow bank -/
  shd : List (Nat × Nat) := []
  /-- device memory -/
  mem : List Host.Cell := []
  /-- the flash of both images -/
  flash : List (Nat × Byte) := []
  out : List Out := []
  freeCtr : Nat := 0
  pos : List (Nat × PosCh) := []
  grp : List (Nat × Grp) := []
  flight : List Stamped := []
  arrived : List Stamped := []
  live : List LiveWrite := []
  held : List Held := []
  devView : Nat := 0
  sync : Sync := {}
  /-- pattern sets whose copy-back is under way (R399) -/
  copying : List CopyBack := []
  /-- how many commands and writes the command processor has accepted as stamped inputs (R371) -/
  accepts : Nat := 0
  /-- POS_COUNT of the wake source when SLEEP was entered (R472) -/
  wakeFrom : Int := 0
  /-- the local clock, in units of 2^-40 ns -/
  localT : Nat := 0
  time : TimeSt := {}
  /-- the two PTP domains -/
  ptp : List (Nat × Ptp) := []
  lane : List (Nat × Lane) := []
  chan : List (Nat × Chan) := []
  seam : List (Nat × SeamCh) := []
  seamG : List (Nat × SeamGrp) := []
  segG : List (Nat × SegGrp) := []
  tal : List (Nat × TalGrp) := []
  /-- the group whose job was sent to an engine last (R269) -/
  tallyLast : Nat := 15
  csw : List Csw := []
  /-- trigger histories of the courses of each run of a group -/
  hist : List (Nat × List Hist) := []
  /-- earlier values of the L and P fields of running groups, oldest first: key, last course governed, value (R8, R399) -/
  oldL : List (Nat × Int × Nat) := []
  sess : List Session := []
  rings : List (Nat × RingCtx) := []
  resv : List Reservation := []
  subs : List (Nat × Sub) := []
  ctxCache : List Nat := []
  /-- bindings: ring, binder (a block address), whether the binder writes entries (R514) -/
  binds : List (Nat × Nat × Bool) := []
  /-- producers waiting for a reservation: ring and entries (R515, R523) -/
  ringWait : List (Nat × Nat) := []
  /-- rings on which a producer waits or discards (R522) -/
  starved : List Nat := []
  dma : List (Nat × Dma) := []
  memQ : List MemReq := []
  /-- host jobs under way, by 64 × codec + lane -/
  hank : List (Nat × HankJob) := []
  memBad : List (Nat × Nat) := []
  /-- what the fault manager counts of each GDDR7 device (R484, R502) -/
  dram : List (Nat × Dram) := []
  /-- steps done of the retraining under way, and retrainings failed in a row, by 4 × device + channel (R503) -/
  retrain : List (Nat × Nat × Nat) := []
  cmp : List (Nat × Cmp) := []
  /-- re-zeroes of R73: group, course at which it took effect, correction (R322) -/
  rezero : List (Nat × Int × Int) := []
  tag : Tag := {}
  cass : Cass := {}
  /-- CASS_KEY of the image (R347) -/
  cassKey : List Byte := []
  aux : List (Nat × AuxCh) := []
  /-- cycle of the last write of each MDIV_k (R649) -/
  mclkAt : List (Nat × Nat) := []
  yarn : Yarn := {}
  pnl : Panel := {}
  dpMon : Monitor := {}
  /-- next row of each view (R610, R616) -/
  view : List (Nat × Nat) := []
  /-- per view and register field: the value that the row in progress was started with, where a write has changed it since
  (R9, R614) -/
  viewOld : List (Nat × Nat × Nat) := []
  /-- next look-back row of each group (R615) -/
  lbNext : List (Nat × Nat) := []
  /-- rows of the look-back stores that were never written: group and row (R616) -/
  lbGone : List (Nat × Nat) := []
  /-- the row of each view latched at the last vertical blank (R621) -/
  dpRow : List (Nat × Nat) := []
  dpBuf : List (Nat × DispBuf) := []
  rep : Replay := {}
  /-- clusters whose pixel work a fault has stopped, one bit each (R22) -/
  stopped : Nat := 0
  /-- failed channels for which the crossbar is giving the lane to the spare (R684) -/
  spareDue : List Nat := []
  net : Net := {}
  boot : Boot := {}
  /-- blown fuses: bit n of the number is fuse n (R419) -/
  fuses : Nat := 0
  power : Power := {}
  /-- the instruction in the JTAG instruction register (R442) -/
  jtag : Nat := 0x02
  /-- pins driven to another level than their reset level (R705) -/
  pins : List (Pin × Bool) := []
  /-- the I/O banks hold their outputs at high impedance (R702) -/
  banksOff : Bool := false
  /-- the loops that gate their outputs, bit n for loop n, from a loss of lock until they have relocked (R456) -/
  gated : Nat := 0
  /-- the DEGRADED bits last announced (R439) -/
  degShown : Nat := 0
  /-- ANN_KEY of the image (R438) -/
  annKey : List Byte := []
  /-- the role keys K_r of the image: role and 32 bytes -/
  keys : List (Nat × List Byte) := []
  /-- another device's announcement has carried this device's number (R26, R440) -/
  dup : Bool := false
  /-- the commands that are waiting, first in, first out -/
  pending : List Instr := []
  deriving DecidableEq, Repr

/-- The faults of the model. The spec gives every command an effect (a reply, an event, or none), so no meaning ends in
one; the type has the one name that an outcome type needs. -/
inductive Fault where
  /-- Raised by nobody. Safe: no state of the model reaches it. -/
  | none
  deriving DecidableEq, Repr

/-- The refusals of the model: the one constructor the host names. -/
inductive Refusal where
  /-- A row of the table without a meaning. Raised by nobody: every arm of `exec` calls a meaning. Safe. -/
  | notModelled (mnemonic : String)
  deriving DecidableEq, Repr

/-- The device right after reset, held by PORN low (R415): registers at their Reset columns, fields that the image or
the fuses fill at 0 (log entry 2), memory with nothing listed (R432), no command waiting. -/
def State.reset : State := {}

end Sys2Proof.Machine
end

