-- ==== Sys2Proof/Machine/Ops.lean ====
section
/-!
DEFINITION. The named operations every meaning is built from: tables, the register file (one copy of each L and S
field, two banks of each P field), and 64-bit two's-complement numbers.
-/

namespace Sys2Proof.Machine

/-! ## Tables -/

/-- Write `v` at key `k` of a table kept in rising key order. -/
def Tab.put {β : Type} (k : Nat) (v : β) : List (Nat × β) → List (Nat × β)
  | [] => [(k, v)]
  | (j, w) :: t =>
    if k < j then (k, v) :: (j, w) :: t
    else if k = j then (k, v) :: t
    else (j, w) :: Tab.put k v t

/-- Remove key `k`. -/
def Tab.del {β : Type} (k : Nat) : List (Nat × β) → List (Nat × β)
  | [] => []
  | (j, w) :: t => if k = j then t else (j, w) :: Tab.del k t

/-- The entry at key `k`. -/
def Tab.find {β : Type} (k : Nat) : List (Nat × β) → Option β
  | [] => none
  | (j, w) :: t => if k = j then some w else Tab.find k t

/-- The entry at key `k`, or `d` where the table lists none. -/
def Tab.get {β : Type} (d : β) (k : Nat) (t : List (Nat × β)) : β := (Tab.find k t).getD d

/-- Write into a table that lists no entry equal to the default `d`. -/
def Tab.putD {β : Type} [DecidableEq β] (d : β) (k : Nat) (v : β) (t : List (Nat × β)) : List (Nat × β) :=
  if v = d then Tab.del k t else Tab.put k v t

/-- Keys strictly rising. -/
def Tab.rising {β : Type} : List (Nat × β) → Bool
  | [] => true
  | [_] => true
  | (j, _) :: (k, w) :: t => decide (j < k) && Tab.rising ((k, w) :: t)

/-! ## Numbers -/

/-- The signed value of the low `w` bits of `n`. -/
def toInt (w n : Nat) : Int :=
  if 2 * (n % 2 ^ w) < 2 ^ w then Int.ofNat (n % 2 ^ w) else Int.ofNat (n % 2 ^ w) - Int.ofNat (2 ^ w)

/-- The `w`-bit two's-complement code of `i`. -/
def ofInt (w : Nat) (i : Int) : Nat := (i % Int.ofNat (2 ^ w)).toNat

/-- `v` clamped to `lo` and `hi`. -/
def clampI (lo hi v : Int) : Int := if v < lo then lo else if hi < v then hi else v

/-- A counter of `w` bits that saturates. -/
def satAdd (w a b : Nat) : Nat := if a + b < 2 ^ w then a + b else 2 ^ w - 1

/-- Bits `hi` down to `lo` of `n`. -/
def bits (n hi lo : Nat) : Nat := n / 2 ^ lo % 2 ^ (hi - lo + 1)

/-- Whether bit `i` of `n` is set. -/
def bit (n i : Nat) : Bool := n / 2 ^ i % 2 == 1

/-- `n` with bit `i` set. -/
def setBit (n i : Nat) : Nat := if bit n i then n else n + 2 ^ i

/-- `n` with bit `i` clear. -/
def clrBit (n i : Nat) : Nat := if bit n i then n - 2 ^ i else n

/-! ## The register file -/

/-- The value of field `f` of the block at address `b`: for a P field that of the active bank (R392). -/
def State.getF (s : State) (b : Nat) (f : Fld) : Nat :=
  Tab.get f.rst (f.key b) (if f.pat then s.act else s.regs)

/-- The value of field `f` in the shadow bank (a field of another kind has one copy). -/
def State.getSh (s : State) (b : Nat) (f : Fld) : Nat :=
  Tab.get f.rst (f.key b) (if f.pat then s.shd else s.regs)

/-- Write field `f`, cut to its width: for a P field into the active bank. -/
def State.setF (s : State) (b : Nat) (f : Fld) (v : Nat) : State :=
  if f.pat then { s with act := Tab.put (f.key b) (v % 2 ^ f.width) s.act }
  else { s with regs := Tab.put (f.key b) (v % 2 ^ f.width) s.regs }

/-- Write field `f` of the shadow bank. -/
def State.setSh (s : State) (b : Nat) (f : Fld) (v : Nat) : State :=
  if f.pat then { s with shd := Tab.put (f.key b) (v % 2 ^ f.width) s.shd }
  else { s with regs := Tab.put (f.key b) (v % 2 ^ f.width) s.regs }

/-- A one-bit field read as a Boolean. -/
def State.flag (s : State) (b : Nat) (f : Fld) : Bool := s.getF b f == 1

/-- The signed value of a field. -/
def State.getI (s : State) (b : Nat) (f : Fld) : Int := toInt f.width (s.getF b f)

/-- Write a signed value. -/
def State.setI (s : State) (b : Nat) (f : Fld) (v : Int) : State := s.setF b f (ofInt f.width v)

/-- Add to a counter field that wraps. -/
def State.incF (s : State) (b : Nat) (f : Fld) (n : Nat) : State := s.setF b f (s.getF b f + n)

/-- Add to a counter field that saturates. -/
def State.satF (s : State) (b : Nat) (f : Fld) (n : Nat) : State := s.setF b f (satAdd f.width (s.getF b f) n)

/-! ## Block addresses (R19, R407 to R410) -/

/-- Position channel `p`. -/
def posB (p : Nat) : Nat := 0x30000 + p * 0x100
/-- Course registers of group `g`. -/
def crsB (g : Nat) : Nat := 0x31000 + g * 0x100
def syncB : Nat := 0x32000
/-- The window of channel `n` (R411). -/
def chB (n : Nat) : Nat := 0x10000000 + n / 16 * 0x1000000 + n / 4 % 4 * 0x100000 + n % 4 * 0x10000
def ingB (n : Nat) : Nat := chB n
def seamB (n : Nat) : Nat := chB n + 0x1000
def segB (n : Nat) : Nat := chB n + 0x2000
def corrB (n : Nat) : Nat := chB n + 0x8000
def gseamB (g : Nat) : Nat := 0x40000 + g * 0x100
def gsegB (g : Nat) : Nat := 0x50000 + g * 0x100
def gtalB (g : Nat) : Nat := 0x60000 + g * 0x100
def calB : Nat := 0x70000
def cmpB (u : Nat) : Nat := 0x80000 + u * 0x100
def cmpG : Nat := 0x80000
def thB : Nat := 0x90000
def cmdB : Nat := 0x10000
def patB (g : Nat) : Nat := 0x20000 + g * 0x20
def devB : Nat := 0
def fuseB : Nat := 0xA0000
def clkB : Nat := 0xB0000
def pwrB : Nat := 0xC0000
def thmB : Nat := 0xD0000
def fmB : Nat := 0xE0000
def repB : Nat := 0xF0000
def ringB : Nat := 0x100000
def dmaB (c : Nat) : Nat := 0x110000 + c * 0x40
def dmaG : Nat := 0x110000
/-- Hank codec `k`: 0 to 7 the region codecs, 8 the hub codec. -/
def hkB (k : Nat) : Nat := if k < 8 then 0x10800000 + k * 0x1000000 else 0x120000
/-- Ethernet port `p` of two. -/
def ethB (p : Nat) : Nat := 0x130000 + p % 2 * 0x10000
def netB : Nat := 0x130000
def timB : Nat := 0x150000
def viewB (v : Nat) : Nat := 0x160000 + v * 0x100
def lbB (g : Nat) : Nat := 0x164000 + g * 0x20
def palB (v : Nat) : Nat := 0x168000 + v * 0x400
def dpB : Nat := 0x170000
def dwB (v : Nat) : Nat := 0x170100 + v * 0x10
def pnlB : Nat := 0x180000
def ycB (c : Nat) : Nat := 0x190000 + c * 0x40
def yarnB : Nat := 0x190000
def auxB (c : Nat) : Nat := 0x1A0000 + c * 0x100
def auxG : Nat := 0x1A0000
def auxCB (c : Nat) : Nat := 0x1A8000 + c * 0x200
def coreB : Nat := 0x1B0000
def dlB (l : Nat) : Nat := 0x1C0000 + l * 0x100
/-- Tally engine `e`. -/
def teB (e : Nat) : Nat := 0x10600000 + e / 16 * 0x1000000 + e % 16 * 0x100
/-- Cluster `c`, 0 to 31. -/
def clB (c : Nat) : Nat := 0x10040000 + c / 4 * 0x1000000 + c % 4 * 0x100000
/-- GDDR7 controller `d`, 0 to 15. -/
def mcB (d : Nat) : Nat := 0x10700000 + d / 2 * 0x1000000 + d % 2 * 0x10000

/-- The number of the unit to which a block belongs (R19, R497, R713): channel, group, region, or index of the hub block. -/
def blockUnit (b : Nat) : Nat :=
  if 0x10000000 ≤ b then
    let r := (b - 0x10000000) / 0x1000000
    if b % 0x1000000 < 0x400000 then 16 * r + 4 * (b / 0x100000 % 16) + b / 0x10000 % 4 else r
  else if b / 0x1000 = 0x31 ∨ b / 0x10000 = 4 ∨ b / 0x10000 = 5 ∨ b / 0x10000 = 6 then b / 0x100 % 16
  else if b / 0x1000 = 0x80 then b / 0x100 % 128
  else b / 0x10000

def spareB (n : Nat) : Nat := 0x10400000 + n * 0x1000000
def rgnB (n : Nat) : Nat := 0x10500000 + n * 0x1000000

/-! ## Sequencing helpers -/

/-- Do `f i` for `i` from 0 to `n - 1`, in order. -/
def forN (n : Nat) (f : Nat → State → State) (s : State) : State :=
  (List.range n).foldl (fun t i => f i t) s

/-- Do `f x` for each `x` of a list, in order. -/
def forL {α : Type} (l : List α) (f : α → State → State) (s : State) : State :=
  l.foldl (fun t x => f x t) s

end Sys2Proof.Machine
end

