-- ==== Sys2Proof/Machine/Operands.lean ====
section
/-!
DEFINITION. The byte forms of operands: little-endian structures of device memory (R2), fields of the Ethernet ports
sent most significant byte first (R1), the checks CRC-8, CRC-16 and CRC-32C, and rounding.
-/

namespace Sys2Proof.Machine

/-- `n` bytes of `v`, least significant first (R2). -/
def le : Nat → Nat → List Byte
  | 0, _ => []
  | n + 1, v => BitVec.ofNat 8 v :: le n (v / 256)

/-- `n` bytes of `v`, most significant first (R1). -/
def be (n v : Nat) : List Byte := (le n v).reverse

/-- The value of bytes stored least significant first. -/
def leVal : List Byte → Nat
  | [] => 0
  | b :: bs => b.toNat + 256 * leVal bs

/-- The value of bytes sent most significant first. -/
def beVal (bs : List Byte) : Nat := leVal bs.reverse

/-- `n` zero bytes. -/
def zeros (n : Nat) : List Byte := List.replicate n 0

/-- Bytes `off` to `off + n - 1`. -/
def sliceB (bs : List Byte) (off n : Nat) : List Byte := (bs.drop off).take n

/-- The little-endian field of `n` bytes at `off`. -/
def leAt (bs : List Byte) (off n : Nat) : Nat := leVal (sliceB bs off n)

/-- The big-endian field of `n` bytes at `off`. -/
def beAt (bs : List Byte) (off n : Nat) : Nat := beVal (sliceB bs off n)

/-- `bs` filled with zero bytes, or cut, to `n` bytes. -/
def padTo (n : Nat) (bs : List Byte) : List Byte := bs.take n ++ zeros (n - bs.length)

/-- One step of a reflected CRC of polynomial `poly`. -/
def crcBitR (poly c : Nat) : Nat := if c % 2 == 1 then (c / 2) ^^^ poly else c / 2

/-- CRC-32C (Castagnoli, reflected, initial value and final XOR all ones) of bytes. -/
def crc32c (bs : List Byte) : Nat :=
  (bs.foldl (fun c b => (List.range 8).foldl (fun x _ => crcBitR 0x82F63B78 x) (c ^^^ b.toNat)) 0xFFFFFFFF)
    ^^^ 0xFFFFFFFF

/-- A CRC of `w` bits, most significant bit first, over a list of bits, from the initial value `init`. -/
def crcMsb (w poly init : Nat) (bs : List Bool) : Nat :=
  bs.foldl (fun c b =>
    let top := c / 2 ^ (w - 1) % 2 == 1
    let c' := c * 2 % 2 ^ w
    if top == b then c' else c' ^^^ poly) init

/-- The low `w` bits of `v`, most significant first. -/
def bitsMsb (w v : Nat) : List Bool := ((List.range w).reverse).map (fun i => bit v i)

/-- The bits of bytes, each byte most significant bit first. -/
def bytesMsb (bs : List Byte) : List Bool := (bs.map (fun b => bitsMsb 8 b.toNat)).flatten

/-- Division that truncates toward zero. -/
def truncDiv (a b : Int) : Int := Int.tdiv a b

/-- Rounding half up of `x / 2^n`. -/
def rnd (n : Nat) (x : Int) : Int := if n = 0 then x else Int.fdiv (x + 2 ^ (n - 1)) (2 ^ n)

/-- Convergent rounding of `x / 2^n` (R650). -/
def rndE (n : Nat) (x : Int) : Int :=
  if n = 0 then x
  else
    let q := Int.fdiv x (2 ^ n)
    let r := x - q * 2 ^ n
    if r > 2 ^ (n - 1) ∨ (r = 2 ^ (n - 1) ∧ q % 2 = 1) then q + 1 else q

/-- The median of a list of odd length. -/
def insertInt (x : Int) : List Int → List Int
  | [] => [x]
  | y :: ys => if x ≤ y then x :: y :: ys else y :: insertInt x ys

def sortInt (l : List Int) : List Int := l.foldr insertInt []

def medianInt (l : List Int) : Int := (sortInt l).getD (l.length / 2) 0

/-! ## Order by key -/

/-- The smaller key first (R244). -/
def keyLt (a b : Nat × Nat) : Bool := decide (a.1 < b.1) || (a.1 == b.1 && decide (a.2 < b.2))

/-- Insert into a list in ascending order of key. -/
def insKey {α : Type} (key : α → Nat × Nat) (a : α) : List α → List α
  | [] => [a]
  | b :: bs => if keyLt (key b) (key a) then b :: insKey key a bs else a :: b :: bs

/-- Sort by ascending key, keeping the order of equal keys. -/
def sortKey {α : Type} (key : α → Nat × Nat) (l : List α) : List α := l.foldr (insKey key) []

end Sys2Proof.Machine
end

