-- ==== Sys2Proof/Machine/HankCode.lean ====
section
/-!
DEFINITION. The Hank code (15_hank_codec R541 to R549): the block form, compression by greedy longest match, and
decompression with its error statuses.
-/

namespace Sys2Proof.Machine

/-- The width of code `n`: the smallest `w ≥ 9` with `2^w ≥ 258 + n`, never above 16 (R545, log entry 44). -/
def hankWidth (n : Nat) : Nat := ((List.range 8).map (· + 9)).find? (fun w => 258 + n ≤ 2 ^ w) |>.getD 16

/-- The compressor's state in R547: dictionary (keys `p * 256 + b`), next entry, position, current code, and the
codes emitted with their widths, newest first. -/
structure HankEnc where
  dict : List (Nat × Nat)
  nxt : Nat
  n : Nat
  p : Nat
  out : List (Nat × Nat)

/-- One byte of the loop of R547. -/
def HankEnc.step (e : HankEnc) (b : Byte) : HankEnc :=
  match Tab.find (e.p * 256 + b.toNat) e.dict with
  | some c => { e with p := c }
  | none =>
    let out := (e.p, hankWidth e.n) :: e.out
    if e.nxt + 1 = 65536 then
      { dict := [], nxt := 258, n := 0, p := b.toNat, out := (256, hankWidth (e.n + 1)) :: out }
    else
      { dict := Tab.put (e.p * 256 + b.toNat) e.nxt e.dict, nxt := e.nxt + 1, n := e.n + 1, p := b.toNat, out := out }

/-- The bits of a code, least significant first (R544). -/
def bitsLsb (w v : Nat) : List Bool := (List.range w).map (fun i => bit v i)

/-- Pack bits into bytes, bit 0 first, the last byte filled with zero bits. -/
def packLsb : Nat → List Bool → List Byte
  | 0, _ => []
  | n + 1, bs =>
    if bs.isEmpty then []
    else BitVec.ofNat 8 (((bs.take 8).zipIdx.map (fun p => if p.1 then 2 ^ p.2 else 0)).sum) :: packLsb n (bs.drop 8)

/-- The code stream of a block (R547). -/
def hankStream : List Byte → List Byte
  | [] => []
  | b :: bs =>
    let e := bs.foldl HankEnc.step ⟨[], 258, 0, b.toNat, []⟩
    let codes := ((257, hankWidth (e.n + 1)) :: (e.p, hankWidth e.n) :: e.out).reverse
    let bits := codes.flatMap (fun c => bitsLsb c.2 c.1)
    packLsb (bits.length / 8 + 1) bits

/-- One block: header and data (R542, R543, R547). -/
def hankBlock (orig : List Byte) : List Byte :=
  let code := hankStream orig
  let stored := decide (orig.length < code.length)
  let data := if stored then orig else code
  le 2 0x484B ++ [1, if stored then 1 else 0] ++ le 4 orig.length ++ le 4 data.length ++ le 4 (crc32c orig) ++ data

/-- The value of bits, least significant first. -/
def valLsb : List Bool → Nat
  | [] => 0
  | b :: bs => (if b then 1 else 0) + 2 * valLsb bs

/-- The bytes read so far end before END and before any error. -/
def hankMore : Nat := 9

/-- Read codes until END (R544 to R546, R548, R549): remaining bits, position, string of the code before, dictionary
strings, output so far. Answers the output, or the status of the first error with the bytes put out before it: a code that
overruns puts out none (R550). -/
def hankCodes (origLen : Nat) : Nat → List Bool → Nat → Nat → List Byte → List (List Byte) → List Byte →
    Except (Nat × Nat) (List Byte)
  | 0, _, _, _, _, _, out => .error (hankMore, out.length)
  | fuel + 1, bits, used, n, prev, dict, out =>
    let w := hankWidth n
    if bits.length < w then .error (hankMore, out.length)
    else
      let c := valLsb (bits.take w)
      let rest := bits.drop w
      if n = 0 ∧ 256 ≤ c then .error (2, out.length)
      else if 258 + n ≤ c then .error (3, out.length)
      else if c = 256 then hankCodes origLen fuel rest (used + w) 0 [] [] out
      else if c = 257 then
        if out.length < origLen then .error (4, out.length)
        else if (rest.take ((8 - (used + w) % 8) % 8)).any id then .error (2, out.length)
        else .ok out
      else
        let str := if c < 256 then [BitVec.ofNat 8 c]
                   else if c = 258 + n - 1 then prev ++ prev.take 1
                   else dict.getD (c - 258) []
        let dict' := if n = 0 then dict else dict ++ [prev ++ str.take 1]
        if origLen < out.length + str.length then .error (4, out.length)
        else hankCodes origLen fuel rest (used + w) (n + 1) str dict' (out ++ str)

/-- The header of a block breaks MAGIC, VERSION or FLAGS, as far as its bytes are there (R542, R549). -/
def hankHeadBad (src : List Byte) : Bool :=
  (decide (2 ≤ src.length) && leAt src 0 2 != 0x484B) || (decide (3 ≤ src.length) && leAt src 2 1 != 1) ||
    (decide (4 ≤ src.length) && decide (2 ≤ leAt src 3 1))

/-- The checks of a header `h` with `left` bytes of input from it on: status 0, or that of the first error (R549). -/
def hankHead (h : List Byte) (left : Nat) : Nat :=
  if hankHeadBad h then 2
  else if left < 16 then 4
  else if leAt h 4 4 < 1 ∨ 65536 < leAt h 4 4 then 4
  else if left < 16 + leAt h 8 4 then 4
  else if leAt h 3 1 = 1 ∧ leAt h 8 4 ≠ leAt h 4 4 then 4
  else 0

/-- Decode the data bytes of a block with header `h` as far as they have been read (R549, R550): the original bytes, or the
status of the first error, `hankMore` where none is met in them, with the number of bytes put out before it. -/
def hankData (h data : List Byte) : Except (Nat × Nat) (List Byte) :=
  let comp := leAt h 8 4
  let r := if leAt h 3 1 = 1 then (if data.length < comp then .error (hankMore, data.length) else .ok data)
    else hankCodes (leAt h 4 4) (8 * comp + 1) (data.flatMap (fun b => bitsLsb 8 b.toNat)) 0 0 [] [] []
  match r with
  | .error e => .error (if e.1 = hankMore ∧ comp ≤ data.length then 4 else e.1, e.2)
  | .ok out => if crc32c out = leAt h 12 4 then .ok out else .error (5, out.length)

/-- Decode the block at the front of `src`; answers the original bytes and the length of the block, or the status of
the first error with the bytes written before it (R549, R550). -/
def hankDecode (src : List Byte) : Except (Nat × Nat) (List Byte × Nat) :=
  let h := src.take 16
  if hankHead h src.length ≠ 0 then .error (hankHead h src.length, 0)
  else
    match hankData h (sliceB src 16 (leAt h 8 4)) with
    | .error e => .error e
    | .ok out => .ok (out, 16 + leAt h 8 4)

/-- Fill to the next multiple of 8 bytes (R541). -/
def pad8 (bs : List Byte) : List Byte := bs ++ zeros ((8 - bs.length % 8) % 8)

/-- A compressed stream from its blocks: each begins at the next multiple of 8 (R541). -/
def joinBlocks (l : List (List Byte)) : List Byte := l.foldl (fun acc b => pad8 acc ++ b) []

end Sys2Proof.Machine
end

