-- ==== Sys2Proof/Machine/Flags.lean ====
section
/-!
DEFINITION. Status flags: power domains (R467), the firing of Yarn producers by the flags (R633, R634), the local
clock's readings, and the course views (R30 to R32, R714).
-/

namespace Sys2Proof.Machine

/-- Whether switched domain `d` is on (R467, DOM_ON). -/
def State.domOn (s : State) (d : Nat) : Bool := bit (s.getF pwrB (F.DOM_ON_ON.nth (d / 32))) (d % 32)

/-- Write DOM_ON of domain `d`. -/
def State.setDom (s : State) (d : Nat) (on : Bool) : State :=
  let f := F.DOM_ON_ON.nth (d / 32)
  let v := s.getF pwrB f
  s.setF pwrB f (if on then setBit v (d % 32) else clrBit v (d % 32))

/-- The switched domains that hold the sources of a producer (R634, R467); none for a source in the always-on domain, which the
AON_LOOP's part of LOL_EV is. -/
def prodDomains (n : Nat) : List Nat :=
  let each := fun (k : Nat) => (List.range 8).map (fun r => 64 + 3 * r + k)
  if 0x60 ≤ n ∧ n ≤ 0x6F then [95]
  else if 0x70 ≤ n ∧ n ≤ 0x7F then [91]
  else if 0x80 ≤ n ∧ n ≤ 0x9F then [95]
  else if 0xB0 ≤ n ∧ n ≤ 0xB9 then (List.range 32).map (· + 32)
  else if 0xBA ≤ n ∧ n ≤ 0xC1 then List.range 32
  else if 0xC2 ≤ n ∧ n ≤ 0xC9 then [91]
  else if 0xCA ≤ n ∧ n ≤ 0xCF then [95]
  else if 0xD1 ≤ n ∧ n ≤ 0xD8 then [91]
  else if 0xDA ≤ n ∧ n ≤ 0xDC then [91]
  else if n = 0xDF then [91]
  else if n = 0xE0 ∨ n = 0xE1 then each 2
  else if 0xE2 ≤ n ∧ n ≤ 0xE6 then [91]
  else if n = 0xE7 ∨ n = 0xE8 then each 2 ++ [93]
  else if n = 0xE9 ∨ n = 0xEA then [90]
  else if n = 0xEB ∨ n = 0xEC then [92]
  else if 0xED ≤ n ∧ n ≤ 0xF1 then [91]
  else if 0xF2 ≤ n ∧ n ≤ 0xF4 then [94]
  else []

/-- Whether some source of a producer has power (R633). -/
def State.prodOn (s : State) (n : Nat) : Bool := (prodDomains n).isEmpty || (prodDomains n).any s.domOn

/-- A producer fires (R633): the fire is due at the router. A producer in a domain that is off never fires. -/
def State.fire (s : State) (n : Nat) : State :=
  if s.prodOn n then { s with yarn := { s.yarn with due := s.yarn.due ++ [n] } } else s

/-- Set a flag that is a producer: the producer fires once for each occurrence, whether or not the flag is already
set (R633). -/
def State.raise (s : State) (b : Nat) (f : Fld) (prod : Nat) : State := (s.setF b f 1).fire prod

/-- Set a flag that is no producer. -/
def State.mark (s : State) (b : Nat) (f : Fld) : State := s.setF b f 1

/-- Seconds of the local clock. -/
def State.sec (s : State) : Nat := s.localT / 2 ^ 40 / 1000000000

/-- Nanoseconds of the local clock. -/
def State.ns (s : State) : Nat := s.localT / 2 ^ 40 % 1000000000

/-- The record of group `g`. -/
def State.g (s : State) (g : Nat) : Grp := Tab.get {} g s.grp

def State.setG (s : State) (g : Nat) (r : Grp) : State := { s with grp := Tab.put g r s.grp }

/-- Whether bring-up meets a failure (R433): 0 self-test of a region, 1 link of a die, 2 GDDR7 device, 3 channel, 4 engine, 5
lane quad of a cluster, 6 XB absent, 7 core pair, 8 Ethernet port; 9 a lockstep fault before Ready of a core pair. -/
def State.failsAt (s : State) (kind unit : Nat) : Bool := s.boot.fails.contains (kind, unit)

/-- Whether the outputs of loop `n` run: a loop that lost its lock gates them until it has relocked (R454, R456). -/
def State.clk (s : State) (n : Nat) : Bool := !bit s.gated n

/-- CLK_GATED of a cluster: FCLK is gated in IDLE, and while PIX_LOOP gates it (R456, R471, R481). -/
def State.clkGated (s : State) (c : Nat) : Nat :=
  if s.domOn c ∧ (s.getF pwrB F.PWR_STATE_STATE = 2 ∨ !s.clk 2) then 1 else 0

/-- CLK_GATED of every cluster as it stands. -/
def State.clkShow (s : State) : State := forN 32 (fun c t => t.setF (clB c) F.CL_STATUS_CLK_GATED (t.clkGated c)) s

/-- Whether group `g` runs (started and not stopped). -/
def State.running (s : State) (g : Nat) : Bool := (s.g g).st == 2

/-- The groups that run, in ascending order. -/
def State.runningGroups (s : State) : List Nat := (List.range 16).filter s.running

/-- The groups that run or are armed, in ascending order. An armed group starts at its edge with no check after that of its
GROUP_START (R77), so what it will take counts as taken (DEDUCED, log entry 49). -/
def State.startedGroups (s : State) : List Nat := (List.range 16).filter (fun g => (s.g g).st == 1 || (s.g g).st == 2)

def State.anyRunning (s : State) : Bool := !s.runningGroups.isEmpty

/-- The course stamp of group `g`: the open course, or −1 before course 0 has triggered (R714). -/
def State.stampG (s : State) (g : Nat) : Int :=
  if s.running g then
    match (s.g g).openC with
    | some k => Int.ofNat k
    | none => -1
  else Int.ofNat (s.getF (crsB g) F.CRS_COUNT_COURSE)

/-- The group the device course view follows: the lowest-numbered running group (R32). -/
def State.followed (s : State) : Option Nat := s.runningGroups.head?

/-- The device course view (R32): the followed group's, or its last value while no group runs. -/
def State.stampDev (s : State) : Int :=
  match s.followed with
  | some g => s.stampG g
  | none => toInt 64 s.devView

/-- The stamp against a GROUP code: 0 to 15 a group, any other the device course view. -/
def State.stampOf (s : State) (g : Nat) : Int := if g < 16 then s.stampG g else s.stampDev

/-- A course view as a 64-bit field: −1 is all ones (R714). -/
def State.viewOf (s : State) (g : Nat) : Nat := ofInt 64 (s.stampOf g)

/-- The run of group `g` (R21): its first channel and the number of its channels. -/
def State.runFirst (s : State) (g : Nat) : Nat := s.getF (gseamB g) F.GRP_SEAM_FIRST_CH
def State.runCount (s : State) (g : Nat) : Nat := s.getF (gseamB g) F.GRP_SEAM_COUNT

/-- The channels of a group's run, in cross-web order. -/
def State.runChans (s : State) (g : Nat) : List Nat := (List.range (s.runCount g)).map (· + s.runFirst g)

/-- Whether channel `ch` lies in the run of group `g`. -/
def State.inRun (s : State) (g ch : Nat) : Bool :=
  decide (s.runFirst g ≤ ch) && decide (ch < s.runFirst g + s.runCount g)

/-- The running group a channel belongs to (R21). -/
def State.groupOf (s : State) (ch : Nat) : Option Nat :=
  s.runningGroups.find? (fun g => s.inRun g ch)

/-- The group whose courses a channel still processes: the one it runs in, or else the one that drains. -/
def State.workGroup (s : State) (ch : Nat) : Option Nat :=
  match s.groupOf ch with
  | some g => some g
  | none => (List.range 16).find? (fun g => (s.g g).st == 3 && s.inRun g ch)

/-- The same as a log entry's GROUP: 0xFF for none. -/
def State.groupCode (s : State) (ch : Nat) : Nat := (s.groupOf ch).getD 0xFF

/-- The pins away from their reset levels after an output; one that carries a square wave counts as high. -/
def pinsAfter (o : Out) (t : List (Pin × Bool)) : List (Pin × Bool) :=
  match o with
  | .level p v =>
    let rest := t.filter (fun e => e.1 != p)
    if p.resetLevel = (if v then .high else .low) then rest else rest ++ [(p, v)]
  | .wave p _ _ => t.filter (fun e => e.1 != p) ++ [(p, true)]
  | _ => t

/-- Add one thing the device sends. -/
def State.emit (s : State) (o : Out) : State := { s with out := s.out ++ [o], pins := pinsAfter o s.pins }

/-- What is sent or driven one after another. -/
def State.emits (s : State) (l : List Out) : State := forL l (fun o t => t.emit o) s

/-- What a ball is at (R702, R705): with the banks off, and under the JTAG instruction HIGHZ, at high impedance. -/
def State.pinAt (s : State) (p : Pin) : PinLevel :=
  if s.banksOff || s.jtag == 0x12 then .z
  else
    match s.pins.find? (fun e => e.1 == p) with
    | some e => if e.2 then .high else .low
    | none => p.resetLevel

/-- Pins whose block no longer drives them go back to their reset levels (R705). -/
def State.pinsRest (s : State) (which : Pin → Bool) : State :=
  forL (s.pins.filter (fun e => which e.1)) (fun e t => t.emit (.level e.1 (!e.2))) s

/-- A fresh number for a free value: the counter is plain data, its values are constants of Config. -/
def State.tickFree (s : State) : State := { s with freeCtr := s.freeCtr + 1 }

end Sys2Proof.Machine
end

