-- ==== Sys2Proof/Machine/RegAccess.lean ====
section
/-!
DEFINITION. Register words: how a 32-bit register address decodes to a block and a register (R25, R406 to R411), and
how a word is put together from its fields (R3, R5, R372).
-/

namespace Sys2Proof.Machine

/-- Where a word address falls: the area, the number of its copy, the register, the address of the register's first
word, and whether the word is the upper half of a 64-bit register. -/
structure RegHit where
  area : Area
  idx : Nat
  spec : RegSpec
  addr : Nat
  upper : Bool

/-- Copy of register `r` at offset `off` of its area, with its offset. -/
def RegSpec.hit (r : RegSpec) (off : Nat) : Option (Nat × Bool) :=
  if off < r.off then none
  else if r.stride = 0 then
    if off = r.off then some (r.off, false)
    else if r.bits = 64 ∧ off = r.off + 4 then some (r.off, true) else none
  else
    let k := (off - r.off) / r.stride
    let rem := (off - r.off) % r.stride
    if r.count ≤ k then none
    else if rem = 0 then some (r.off + k * r.stride, false)
    else if r.bits = 64 ∧ rem = 4 then some (r.off + k * r.stride, true) else none

/-- The first register of a list that covers offset `off`. -/
def findIn (off : Nat) : List RegSpec → Option (RegSpec × Nat × Bool)
  | [] => none
  | r :: rs =>
    match r.hit off with
    | some (o, u) => some (r, o, u)
    | none => findIn off rs

/-- Look an address up in one area. -/
def Area.look (a : Area) (addr : Nat) : Option RegHit :=
  if addr < a.base then none
  else
    match flatIndex a.dims (addr - a.base) 0 with
    | none => none
    | some (i, off) =>
      match findIn off a.regs with
      | none => none
      | some (r, o, u) => some ⟨a, i, r, addr - off + o, u⟩

/-- The register at a word address, in the areas given. -/
def lookIn (addr : Nat) : List Area → Option RegHit
  | [] => none
  | a :: as =>
    match a.look addr with
    | some h => some h
    | none => lookIn addr as

/-- The register at a word address (R406 to R411). -/
def lookReg (addr : Nat) : Option RegHit := lookIn addr Area.all

/-- Whether an address decodes to a block (R25, R406 to R411): hub blocks 0x000 to 0x01C; in a region window the
blocks of R408, in a cluster window those of R409, in a channel window those of R410. -/
def inBlock (addr : Nat) : Bool :=
  if addr < 0x10000000 then decide (addr / 0x10000 ≤ 0x1C)
  else if 0x18000000 ≤ addr then false
  else
    let o := addr % 0x1000000
    if o < 0x400000 then
      let c := o % 0x100000
      if c < 0x40000 then
        let w := c % 0x10000
        decide (w < 0x3000) || (decide (0x8000 ≤ w) && decide (w < 0xD000))
      else decide (c < 0x50000)
    else decide (o / 0x10000 = 0x40) || decide (o / 0x10000 = 0x50) || decide (o / 0x10000 = 0x60) ||
      decide (o / 0x10000 = 0x70) || decide (o / 0x10000 = 0x71) || decide (o / 0x10000 = 0x80)

/-- The part of a field that lies in the word: its lowest bit in the word, how many low bits of the field lie in the
word below, and how many of its bits are here; none where it lies wholly in the other word. -/
def Fld.part (f : Fld) (upper : Bool) : Option (Nat × Nat × Nat) :=
  if upper then
    if f.hi < 32 then none
    else if f.lo < 32 then some (0, 32 - f.lo, f.hi - 31)
    else some (f.lo - 32, 0, f.hi - f.lo + 1)
  else
    if 32 ≤ f.lo then none
    else if 32 ≤ f.hi then some (f.lo, 0, 32 - f.lo)
    else some (f.lo, 0, f.hi - f.lo + 1)

/-- The reset value of a field at an address: that of its Reset column, or of its rule for a register whose reset
depends on the copy (PALETTE, TH_REMAP). -/
def resetAt (f : Fld) (addr : Nat) : Nat :=
  if 0x168000 ≤ addr ∧ addr < 0x16C000 then addr % 0x400 / 4 * 0x010101
  else if 0x91000 ≤ addr ∧ addr < 0x92000 then
    if f.lo = 0 then 2 * ((addr - 0x91000) / 4) else 2 * ((addr - 0x91000) / 4) + 1
  else f.rst

/-- The stored value of the field `f` of the register at `addr`: from the active or the shadow bank. -/
def State.fieldAt (s : State) (shadow : Bool) (addr : Nat) (f : Fld) : Nat :=
  let tab := if f.pat then (if shadow then s.shd else s.act) else s.regs
  Tab.get (resetAt f addr) (addr * 64 + f.lo) tab

/-- The bits a field contributes to a word. -/
def fieldBits (f : Fld) (upper : Bool) (v : Nat) : Nat :=
  match f.part upper with
  | none => 0
  | some (lo, skip, n) => v / 2 ^ skip % 2 ^ n * 2 ^ lo

/-- The word a register holds: its readable fields, reserved bits zero (R3); write-only fields read zero (R5). -/
def State.wordOf (s : State) (shadow : Bool) (h : RegHit) : Nat :=
  (h.spec.fields.map (fun fs =>
    if fs.acc = .wo then 0 else fieldBits fs.fld h.upper (s.fieldAt shadow h.addr fs.fld))).sum

/-- The word at a register address as it stands, zero where no register is. -/
def State.peekReg (s : State) (addr : Nat) : Nat :=
  match lookReg addr with
  | some h => s.wordOf false h
  | none => 0

end Sys2Proof.Machine
end

