-- ==== Sys2Proof/Machine/Faults.lean ====
section
/-!
DEFINITION. The fault log (R690 to R692, R713): its codes, their severities and levels, and the writing of an entry
into the log ring in device memory, with the freeze that an entry may trigger (R672).
-/

namespace Sys2Proof.Machine

/-- The codes of the fault log (R691). -/
inductive LogCode where
  | indexSlip | syncSlip | remove | trainFail | identMismatch | bondSkew | dualLane | gaugeBad | gaugeCrc | gaugeMemerr | seamLost | seamLink | segOverflow | runstoreFull | engFault | tallyFail | softPause | tagVoid | cassFail | heldDiscard | swapCancel | selftestFail | duplicateDevice | lockstep | takeover | bindOff | xaFail | loopLol | domFault | throttle | trip | dieLink | memUe | memFail | ringEvict | dmaErr | patchRecut | patchLost | portFailover | linkDown | servoFb | ptpLoss | ptpSwitch | yarnStorm | channelSpared | channelLost | rerunMismatch | capGap | clusterFault | regionFault
  deriving DecidableEq, Repr

/-- The number of a code: the base of its range plus its place in the list (R691). -/
def LogCode.num : LogCode → Nat
  | .indexSlip => 0x0101
  | .syncSlip => 0x0102
  | .remove => 0x0201
  | .trainFail => 0x0202
  | .identMismatch => 0x0203
  | .bondSkew => 0x0204
  | .dualLane => 0x0205
  | .gaugeBad => 0x0301
  | .gaugeCrc => 0x0302
  | .gaugeMemerr => 0x0303
  | .seamLost => 0x0401
  | .seamLink => 0x0402
  | .segOverflow => 0x0403
  | .runstoreFull => 0x0404
  | .engFault => 0x0501
  | .tallyFail => 0x0502
  | .softPause => 0x0601
  | .tagVoid => 0x0602
  | .cassFail => 0x0603
  | .heldDiscard => 0x0701
  | .swapCancel => 0x0702
  | .selftestFail => 0x0801
  | .duplicateDevice => 0x0802
  | .lockstep => 0x0803
  | .takeover => 0x0804
  | .bindOff => 0x0805
  | .xaFail => 0x0901
  | .loopLol => 0x0902
  | .domFault => 0x0903
  | .throttle => 0x0904
  | .trip => 0x0905
  | .dieLink => 0x0906
  | .memUe => 0x0A01
  | .memFail => 0x0A02
  | .ringEvict => 0x0A03
  | .dmaErr => 0x0A04
  | .patchRecut => 0x0A05
  | .patchLost => 0x0A06
  | .portFailover => 0x0B01
  | .linkDown => 0x0B02
  | .servoFb => 0x0B03
  | .ptpLoss => 0x0B04
  | .ptpSwitch => 0x0B05
  | .yarnStorm => 0x0C01
  | .channelSpared => 0x0D01
  | .channelLost => 0x0D02
  | .rerunMismatch => 0x0D03
  | .capGap => 0x0D04
  | .clusterFault => 0x0D05
  | .regionFault => 0x0D06

/-- SEVERITY of a code; where R713 gives several, the entry's writer says which. -/
def LogCode.severity : LogCode → Nat
  | .indexSlip => 0
  | .syncSlip => 0
  | .remove => 0
  | .trainFail => 2
  | .identMismatch => 2
  | .bondSkew => 2
  | .dualLane => 1
  | .gaugeBad => 2
  | .gaugeCrc => 2
  | .gaugeMemerr => 2
  | .seamLost => 2
  | .seamLink => 3
  | .segOverflow => 2
  | .runstoreFull => 2
  | .engFault => 1
  | .tallyFail => 3
  | .softPause => 0
  | .tagVoid => 2
  | .cassFail => 2
  | .heldDiscard => 0
  | .swapCancel => 0
  | .selftestFail => 2
  | .duplicateDevice => 3
  | .lockstep => 1
  | .takeover => 1
  | .bindOff => 0
  | .xaFail => 3
  | .loopLol => 3
  | .domFault => 2
  | .throttle => 2
  | .trip => 3
  | .dieLink => 3
  | .memUe => 2
  | .memFail => 1
  | .ringEvict => 0
  | .dmaErr => 2
  | .patchRecut => 1
  | .patchLost => 2
  | .portFailover => 1
  | .linkDown => 2
  | .servoFb => 0
  | .ptpLoss => 2
  | .ptpSwitch => 1
  | .yarnStorm => 2
  | .channelSpared => 1
  | .channelLost => 2
  | .rerunMismatch => 0
  | .capGap => 0
  | .clusterFault => 3
  | .regionFault => 3

/-- LEVEL of a code (R713). -/
def LogCode.level : LogCode → Nat
  | .indexSlip => 0
  | .syncSlip => 5
  | .remove => 0
  | .trainFail => 0
  | .identMismatch => 0
  | .bondSkew => 0
  | .dualLane => 0
  | .gaugeBad => 0
  | .gaugeCrc => 0
  | .gaugeMemerr => 0
  | .seamLost => 0
  | .seamLink => 1
  | .segOverflow => 4
  | .runstoreFull => 4
  | .engFault => 0
  | .tallyFail => 0
  | .softPause => 3
  | .tagVoid => 3
  | .cassFail => 3
  | .heldDiscard => 3
  | .swapCancel => 3
  | .selftestFail => 0
  | .duplicateDevice => 5
  | .lockstep => 0
  | .takeover => 0
  | .bindOff => 4
  | .xaFail => 4
  | .loopLol => 4
  | .domFault => 4
  | .throttle => 3
  | .trip => 3
  | .dieLink => 3
  | .memUe => 0
  | .memFail => 0
  | .ringEvict => 3
  | .dmaErr => 3
  | .patchRecut => 4
  | .patchLost => 4
  | .portFailover => 3
  | .linkDown => 3
  | .servoFb => 3
  | .ptpLoss => 5
  | .ptpSwitch => 5
  | .yarnStorm => 3
  | .channelSpared => 0
  | .channelLost => 0
  | .rerunMismatch => 4
  | .capGap => 0
  | .clusterFault => 1
  | .regionFault => 2

/-! ## Raw memory -/

/-- The first address of GDDR7 device `d` (R485). -/
def devStart (d : Nat) : Nat := d * 0x1E0000000

/-- The GDDR7 device of a data address (R485). -/
def devOf (a : Nat) : Nat := a / 0x1E0000000

/-- The byte held at address `a`; an unlisted byte reads 0 (R432). -/
def memGet (m : List Host.Cell) (a : Nat) : Byte := Tab.get 0 a m

/-- Write one byte, keeping the canonical form. -/
def memPut (m : List Host.Cell) (a : Nat) (v : Byte) : List Host.Cell := Tab.putD 0 a v m

/-- Write bytes at rising addresses. -/
def memPuts (m : List Host.Cell) (a : Nat) : List Byte → List Host.Cell
  | [] => m
  | b :: bs => memPuts (memPut m a b) (a + 1) bs

/-- Read `n` bytes. -/
def memGets (m : List Host.Cell) (a n : Nat) : List Byte := (List.range n).map (fun i => memGet m (a + i))

/-- The mirror range of region `n` as addresses of device 2n: its start and its end (R499). -/
def State.mirrorRange (s : State) (n : Nat) : Nat × Nat :=
  let b := devStart (2 * n) + s.getF (mcB (2 * n)) F.MC_MIRROR_MIR_BASE * 0x4000000
  (b, b + s.getF (mcB (2 * n)) F.MC_MIRROR_MIR_SIZE * 0x4000000)

/-- Whether data address `a` lies in a mirror range (R499). -/
def State.mirrored (s : State) (a : Nat) : Bool :=
  devOf a % 2 == 0 && decide ((s.mirrorRange (devOf a / 2)).1 ≤ a) && decide (a < (s.mirrorRange (devOf a / 2)).2)

/-- Whether data address `a` lies in the range of a device 2n + 1 that holds only the copy (R499). -/
def State.isCopy (s : State) (a : Nat) : Bool :=
  devOf a % 2 == 1 && decide (0x1E0000000 ≤ a) && s.mirrored (a - 0x1E0000000)

/-- State of the controller of device `d`: 0 off, 1 training, 2 ready, 3 failed. -/
def State.mcState (s : State) (d : Nat) : Nat := s.getF (mcB d) F.MC_STATUS_STATE

/-- Memory domain of a device's region (R467). -/
def memDom (d : Nat) : Nat := 66 + 3 * (d / 2)

/-- Write bytes at `a`, and at the copy when the range is mirrored; a failed device, or one whose domain is off, takes
no write (R469, R499, R502). -/
def State.pokes (s : State) (a : Nat) (bs : List Byte) : State :=
  let m1 := if s.mcState (devOf a) = 3 ∨ !s.domOn (memDom (devOf a)) then s.mem else memPuts s.mem a bs
  let m2 := if s.mirrored a && s.mcState (devOf a + 1) == 2 then memPuts m1 (a + 0x1E0000000) bs else m1
  { s with mem := m2 }

/-- Read bytes at `a`, from the copy when the device of a mirrored range has failed (R500, R502). -/
def State.peeks (s : State) (a n : Nat) : List Byte :=
  if s.mirrored a && s.mcState (devOf a) == 3 then memGets s.mem (a + 0x1E0000000) n else memGets s.mem a n

/-! ## Status codes (R384) -/

def stOk : Nat := 0
def stAccepted : Nat := 1
def stBadOpcode : Nat := 0x0100
def stBadParam : Nat := 0x0101
def stBadLength : Nat := 0x0102
def stAuthFail : Nat := 0x0200
def stNotPermitted : Nat := 0x0201
def stNoSession : Nat := 0x0202
def stBusy : Nat := 0x0300
def stShadowFrozen : Nat := 0x0301
def stActiveReadOnly : Nat := 0x0302
def stSeqRange : Nat := 0x0303
def stCoursePassed : Nat := 0x0304
def stPoweredOff : Nat := 0x0305
def stNoResource : Nat := 0x0400
def stHwFault : Nat := 0x0500
def stMemErr : Nat := 0x0501

/-! ## Outstanding commands -/

/-- Give outstanding commands of an opcode their result (R370). -/
def finishIn (op : Nat) (status : Nat) (params : List Byte) (o : Outstanding) : Outstanding :=
  if o.op = op ∧ o.result = none then { o with result := some (status, params) } else o

/-- Give every outstanding command of opcode `op` (of those that `sel` picks by its header) its result. -/
def State.finishOp (s : State) (op : Nat) (sel : Outstanding → Bool) (status : Nat) (params : List Byte) : State :=
  { s with sess := s.sess.map (fun e =>
      { e with outst := e.outst.map (fun o => if sel o then finishIn op status params o else o) }) }

/-! ## The freeze (R672, R673) -/

/-- The freeze instant: FREEZE_EV, the latched time and course, state FROZEN, and the replies to CAPTURE_FREEZE
(R673). -/
def State.freezeInst (s : State) : State :=
  let s := s.mark repB F.REPLAY_STATUS_FREEZE_EV
  let s := s.setF repB F.FREEZE_SEC_SEC s.sec
  let s := s.setF repB F.FREEZE_NS_NS s.ns
  let s := s.setF repB F.FREEZE_COURSE_COURSE (ofInt 64 s.stampDev)
  let s := s.setF repB F.REPLAY_STATUS_STATE 3
  let s := { s with rep := { s.rep with
    runs := (List.range 16).map (fun g => (g, s.runFirst g, s.runCount g))
    spans := s.chan.map (fun (e : Nat × Chan) => (e.1, e.2.spans)) } }
  s.finishOp 0x0900 (fun _ => true) 0 (be 8 s.sec ++ be 4 s.ns)

/-- A freeze trigger (R672, R673): in ARMED, the trigger course is the device course view; with no group running the
freeze instant is the trigger itself. A trigger in any other state is ignored. -/
def State.freezeTrigger (s : State) : State :=
  if s.getF repB F.REPLAY_STATUS_STATE = 1 then
    let s := { s with rep := { s.rep with trig := s.stampDev } }
    let s := s.setF repB F.REPLAY_STATUS_STATE 2
    if s.anyRunning then s else s.freezeInst
  else s

/-! ## Log entries -/

/-- The 64 bytes of a log entry (R690). -/
def logBytes (index code sev level unit grp view sec ns : Nat) (payload : List Byte) : List Byte :=
  le 4 index ++ le 2 code ++ le 1 sev ++ le 1 level ++ le 2 unit ++ le 1 grp ++ zeros 5 ++ le 8 view ++
    le 4 sec ++ le 4 ns ++ padTo 32 payload

/-- Write a log entry with a severity and level of its own: at the next place of the log ring; when the ring is full
the newest entry replaces the oldest and LOG_LOST rises (R690). With FRZ_FAULT an entry of at least FRZ_SEV triggers
a freeze (R672). The fault manager lies in the hub base: while that is off it writes nothing. While the memory of the
log is off, the entry is counted and its bytes are lost (log entry 15). -/
def State.logAs (s : State) (code : LogCode) (sev level unit grp : Nat) (payload : List Byte) : State :=
  if !s.domOn 91 then s else
  let ix := s.getF fmB F.LOG_NEXT_INDEX
  let a := s.getF fmB F.LOG_BASE_ADDR + ix % 65536 * 64
  let s := s.pokes a (logBytes ix code.num sev level unit grp (s.viewOf grp) s.sec s.ns payload)
  let s := s.setF fmB F.LOG_NEXT_INDEX (ix + 1)
  let held := (ix + 1 + 2 ^ 32 - s.getF fmB F.LOG_OLDEST_INDEX) % 2 ^ 32
  let s := if 65536 < held then (s.setF fmB F.LOG_OLDEST_INDEX (s.getF fmB F.LOG_OLDEST_INDEX + 1)).satF fmB F.LOG_LOST_COUNT 1
           else s
  if s.flag repB F.REPLAY_CTRL_FRZ_FAULT && decide (s.getF repB F.REPLAY_CTRL_FRZ_SEV ≤ sev) then s.freezeTrigger else s

/-- Write a log entry with the severity and level of its code (R713). -/
def State.log (s : State) (code : LogCode) (unit grp : Nat) (payload : List Byte) : State :=
  s.logAs code code.severity code.level unit grp payload

/-- The payload that names a flag's register and its word (R692). -/
def State.payReg (s : State) (addr : Nat) : List Byte := le 4 addr ++ le 4 (s.peekReg addr)

/-- A log entry whose payload is the register that holds the flag (R692). -/
def State.logReg (s : State) (code : LogCode) (unit grp addr : Nat) : State :=
  s.log code unit grp (s.payReg addr)

end Sys2Proof.Machine
end

