-- ==== Sys2Proof/Machine/Memory.lean ====
section
/-!
DEFINITION. GDDR7 memory (13_memory): decode of the data range (R485), the physical place of a block (R486, R489),
correction and errors of the inline code (R487, R496, R497), mirror ranges (R499 to R502), and reads and writes of
byte ranges as the requesters make them (R488). The code is modelled by the number of wrong symbols a stored block
has (State.memBad), and the data CRC by how often the next transfer of a device fails it (Dram.crc).
-/

namespace Sys2Proof.Machine

/-- The canonical form of memory: addresses strictly rising, no byte listed that equals what an unlisted one reads as. -/
def Memory.wf (m : List Host.Cell) : Bool := Tab.rising m && m.all (fun c => c.2 != 0)

/-- The error responses of a memory access: outside what the address space decodes, a device whose domain is off, an
uncorrectable block. -/
inductive MemErr where
  | decode | off | ue
  deriving DecidableEq, Repr

/-- What an address decodes to (R485, R499): none when an access may go on. -/
def State.memCheck (s : State) (a : Nat) : Option MemErr :=
  if 0x1E00000000 ≤ a then some .decode
  else if !s.domOn (memDom (devOf a)) then some .off
  else if s.isCopy a then some .decode
  else none

/-- Physical location in its device of the data byte at offset `o` (R486). -/
def physOf (o : Nat) : Nat := o / 64 / 15 * 1024 + o / 64 % 15 * 64 + o % 64

/-- Location in its device of the check bytes of the block at offset `o` (R486). -/
def checkOf (o : Nat) : Nat := o / 64 / 15 * 1024 + 960 + 4 * (o / 64 % 15)

/-- Channel, bank, row and column of the physical location `p` under ORDER (R489). -/
def mapOrder (order p : Nat) : Nat × Nat × Nat × Nat :=
  let row := bits p 32 17
  if order = 0 then (bits p 12 11, bits p 16 13, row, bits p 10 0)
  else
    let col := bits p 16 16 * 1024 + bits p 9 0
    if order = 1 then (bits p 11 10, bits p 15 12, row, col)
    else (bits p 11 10 ^^^ bits p 22 21, bits p 15 12 ^^^ bits p 20 17, row, col)

/-- Wrong symbols in the stored block that holds address `a`. -/
def State.badOf (s : State) (a : Nat) : Nat := Tab.get 0 (a / 64) s.memBad

/-- Set the number of wrong symbols of a block. -/
def State.setBad (s : State) (a n : Nat) : State := { s with memBad := Tab.putD 0 (a / 64) n s.memBad }

/-- The payload of a MEM_UE entry (R497). -/
def State.uePayload (s : State) (a kind cls unit mirror : Nat) : List Byte :=
  let d := devOf a
  let (ch, bank, row, col) := mapOrder (s.getF (mcB d) F.MC_CFG_ORDER) (physOf (a % 0x1E0000000))
  le 8 (a / 64 * 64) ++ le 1 d ++ le 1 (bank * 16 + ch) ++ le 2 row ++ le 2 col ++ le 1 kind ++ le 1 cls ++
    le 2 unit ++ le 1 mirror

/-- What is counted of device `d`. -/
def State.dr (s : State) (d : Nat) : Dram := Tab.get {} d s.dram
def State.setDr (s : State) (d : Nat) (x : Dram) : State := { s with dram := Tab.put d x s.dram }

/-- The other device of a pair. -/
def pairOf (d : Nat) : Nat := if d % 2 = 0 then d + 1 else d - 1

/-- A device fails (R502): STATE, FAIL_EV and the log entry; its requests are gone, and its patches are to be handled (R687). -/
def State.memDown (s : State) (d : Nat) : State :=
  let size := s.getF (mcB (d / 2 * 2)) F.MC_MIRROR_MIR_SIZE
  let served := size == 0 || s.mcState (pairOf d) == 2
  let s := ((s.setF (mcB d) F.MC_STATUS_STATE 3).setF (mcB d) F.MC_STATUS_MIRROR_OK 0).setF (mcB (pairOf d)) F.MC_STATUS_MIRROR_OK 0
  let s := { s with memQ := s.memQ.filter (fun q => q.dev != d) }.setDr d { recut := true }
  let s := s.raise (mcB d) F.MC_EVENT_FAIL_EV 0xE0
  s.logAs .memFail (if served then 1 else 2) 0 d 0xFF (s.payReg (mcB d + 8))

/-- One more uncorrectable block of a device: 64 in 1 ms make it fail (R502). -/
def State.ueNote (s : State) (d : Nat) : State :=
  let l := (s.now :: (s.dr d).ues).take 64
  let s := s.setDr d { s.dr d with ues := l }
  if s.mcState d = 2 ∧ l.length = 64 ∧ s.now - l.getLastD 0 ≤ 250000 then s.memDown d else s

/-- One transfer of device `d`: up to four retries after data CRC failures, and whether it got through; 16 in a row that did
not make the device fail (R484, R502). -/
def State.xfer (s : State) (d : Nat) : State × Bool :=
  let m := s.dr d
  if m.crc = 0 then (if m.run = 0 then s else s.setDr d { m with run := 0 }, true)
  else
    let s := s.satF (mcB d) F.CRC_RETRY_COUNT (min m.crc 4)
    if m.crc ≤ 4 then (s.setDr d { m with crc := 0, run := 0 }, true)
    else
      let s := s.setDr d { m with crc := 0, run := m.run + 1 }
      (if s.mcState d = 2 ∧ 16 ≤ m.run + 1 then s.memDown d else s, false)

/-- An uncorrectable block (R497): UE_CNT, UE_EV, UE_ADDR of the first since UE_EV was cleared, and the log entry. -/
def State.ueEvent (s : State) (a kind cls unit mirror : Nat) : State :=
  let d := devOf a
  let s := if s.flag (mcB d) F.MC_EVENT_UE_EV then s else s.setF (mcB d) F.UE_ADDR_ADDR (a / 64 * 64)
  let s := s.satF (mcB d) F.UE_CNT_COUNT 1
  let s := s.raise (mcB d) F.MC_EVENT_UE_EV 0xE1
  (s.logAs .memUe (if mirror = 1 then 1 else if mirror = 2 then 3 else 2) 0 d 0xFF (s.uePayload a kind cls unit mirror)).ueNote d

/-- A corrected symbol (R496): CE_CNT rises, CE_EV is set, and the write-back of the block waits at class 2. -/
def State.ceEvent (s : State) (d a : Nat) : State :=
  let s := s.satF (mcB d) F.CE_CNT_COUNT 1
  let s := s.mark (mcB d) F.MC_EVENT_CE_EV
  if s.memQ.any (fun q => q.addr == a / 64 * 64) then s
  else { s with memQ := s.memQ ++ [(⟨d, 2, true, a / 64 * 64, d, s.now⟩ : MemReq)] }

/-- A block whose write-back still waits is written before it is read (R495). -/
def State.drain (s : State) (a : Nat) : State :=
  if s.memQ.any (fun q => q.write && q.addr == a / 64 * 64) then
    { s with memQ := s.memQ.filter (fun q => !(q.write && q.addr == a / 64 * 64)) }.setBad a 0
  else s

/-- One copy of a block as its controller reads it: none where the data are good, else the KIND of the error (R484, R496,
R497). `kind` is the one for two or more wrong symbols (0x04 in a partial write). -/
def State.readOne (s : State) (kind a : Nat) : State × Option Nat :=
  let x := (s.drain a).xfer (devOf a)
  if !x.2 then (x.1, some 2)
  else if x.1.badOf a = 0 then (x.1, none)
  else if x.1.badOf a = 1 then (x.1.ceEvent (devOf a) a, none)
  else (x.1, some kind)

/-- Read one block for a requester: correct, fall back to the mirror copy, or fail (R496, R497, R500, R502). Answers
whether the data are good. -/
def State.readBlock (s : State) (kind cls unit a : Nat) : State × Bool :=
  let d := devOf a
  let copyOk := s.mirrored a && s.mcState (d + 1) == 2
  if s.mcState d = 3 then
    if copyOk then
      let r := s.readOne kind (a + 0x1E0000000)
      match r.2 with
      | none => (r.1, true)
      | some k => (r.1.ueEvent a k cls unit 2, false)
    else (s.ueEvent a 3 cls unit 0, false)
  else
    let r := s.readOne kind a
    match r.2 with
    | none => (r.1, true)
    | some k =>
      if copyOk then
        let q := r.1.readOne kind (a + 0x1E0000000)
        if q.2.isNone then ((q.1.ueEvent a k cls unit 1).setBad a 0, true) else (q.1.ueEvent a k cls unit 2, false)
      else (r.1.ueEvent a k cls unit 0, false)

/-- The block numbers that a range of `n` bytes at `a` touches. -/
def blocksOf (a n : Nat) : List Nat :=
  if n = 0 then [] else (List.range ((a + n - 1) / 64 + 1 - a / 64)).map (· + a / 64)

/-- The first address of a range that does not decode. -/
def State.rangeCheck (s : State) (a n : Nat) : Option MemErr :=
  if 0x1E00000000 < a + n then some .decode
  else (blocksOf a n).findSome? (fun b => s.memCheck (b * 64))

/-- Read blocks until one fails. -/
def State.readBlocks (s : State) (kind cls unit : Nat) : List Nat → State × Bool
  | [] => (s, true)
  | b :: bs =>
    let (s', ok) := s.readBlock kind cls unit (b * 64)
    if ok then s'.readBlocks kind cls unit bs else (s', false)

/-- Read `n` bytes at `a` for a requester of class `cls` (R494) and number `unit`. -/
def State.memRead (s : State) (cls unit a n : Nat) : State × Except MemErr (List Byte) :=
  match s.rangeCheck a n with
  | some e => (s, .error e)
  | none =>
    let (s', ok) := s.readBlocks 1 cls unit (blocksOf a n)
    (s', if ok then .ok (s'.peeks a n) else .error .ue)

/-- Bytes for a reader that goes on after an error response: what cannot be read carries no meaning (R497; log entry 64). -/
def State.readFree (s : State) (cls unit a n : Nat) : State × List Byte :=
  let r := s.memRead cls unit a n
  match r.2 with
  | .ok b => (r.1, b)
  | .error _ =>
    ({ r.1 with freeCtr := r.1.freeCtr + n }, (List.range n).map (fun i => Config.freeBits 8 (r.1.freeCtr + i)))

/-- Whether the part of block `b` that the range covers is the whole block. -/
def wholeBlock (a n b : Nat) : Bool := decide (a ≤ b * 64) && decide (b * 64 + 64 ≤ a + n)

/-- The blocks of a range that it covers only in part (R488). -/
def partials (a n : Nat) : List Nat := (blocksOf a n).filter (fun b => !wholeBlock a n b)

/-- Whether a write may reach block `b`: its device works, or the mirror's survivor does (R502). -/
def State.canWrite (s : State) (b : Nat) : Bool :=
  s.mcState (devOf (b * 64)) != 3 || (s.mirrored (b * 64) && s.mcState (devOf (b * 64) + 1) == 2)

/-- The transfers of a write to the blocks of a range: each through the device that takes it; the first that exhausts its CRC
retries is an uncorrectable error (R484). -/
def State.xferBlocks (s : State) (cls unit : Nat) : List Nat → State × Bool
  | [] => (s, true)
  | b :: bs =>
    let d := devOf (b * 64)
    let x := s.xfer (if s.mcState d = 3 then d + 1 else d)
    if x.2 then x.1.xferBlocks cls unit bs else (x.1.ueEvent (b * 64) 2 cls unit 0, false)

/-- Put the bytes of a range into memory and into the mirror copy, block by block; a block written anew, whole or
merged with what was read and corrected, has no wrong symbols (R488, R499). -/
def State.putRange (s : State) (a : Nat) (bs : List Byte) : State :=
  let s' := forL (blocksOf a bs.length) (fun b t =>
    let lo := max a (b * 64)
    let hi := min (a + bs.length) (b * 64 + 64)
    let t := t.pokes lo (sliceB bs (lo - a) (hi - lo))
    let t := t.setBad (b * 64) 0
    if t.mirrored (b * 64) then t.setBad (b * 64 + 0x1E0000000) 0 else t) s
  s'

/-- Write bytes at `a` for a requester (R488): a partial block is read first, and where that read fails nothing of
the range is written. -/
def State.memWrite (s : State) (cls unit a : Nat) (bs : List Byte) : State × Option MemErr :=
  match s.rangeCheck a bs.length with
  | some e => (s, some e)
  | none =>
    let (s1, ok) := s.readBlocks 4 cls unit (partials a bs.length)
    if !ok then (s1, some .ue)
    else
      match (blocksOf a bs.length).find? (fun b => !s1.canWrite b) with
      | some b => (s1.ueEvent (b * 64) 3 cls unit 0, some .ue)
      | none =>
        let x := s1.xferBlocks cls unit (blocksOf a bs.length)
        if x.2 then (x.1.putRange a bs, none) else (x.1, some .ue)

end Sys2Proof.Machine
end

