-- ==== Sys2Proof/Machine/Net.lean ====
section
/-!
DEFINITION. Sending on the Ethernet ports: next hops and the neighbour cache (R571), VLAN priorities (R572), the
active port (R573), and PRP (R576).
-/

namespace Sys2Proof.Machine

/-- ::FFFF:0:0, the prefix of an IPv4 address written as 128 bits. -/
def v4Base : Nat := 0xFFFF * 2 ^ 32

/-- Whether a 128-bit address is an IPv4 address. -/
def isV4 (a : Nat) : Bool := a / 2 ^ 32 == 0xFFFF

/-- The address held in four registers, word 0 the most significant. -/
def State.addr6 (s : State) (f : Fld) : Nat :=
  (List.range 4).foldl (fun v i => v * 2 ^ 32 + s.getF netB (f.nth i)) 0

/-- The next hop of a destination (R571): itself inside the on-link prefix, the gateway of its family outside. -/
def State.nextHop (s : State) (a : Nat) : Nat :=
  if isV4 a then
    let p := s.getF netB F.NET_IPV4_PFX_LEN
    if a % 2 ^ 32 / 2 ^ (32 - p) = s.getF netB F.NET_IPV4_ADDR / 2 ^ (32 - p) then a
    else v4Base + s.getF netB F.NET_GW4_ADDR
  else
    let p := s.getF netB F.NET_IPV6_PFX_LEN
    if a / 2 ^ (128 - p) = s.addr6 F.NET_IPV6_ADDR / 2 ^ (128 - p) then a else s.addr6 F.NET_GW6_ADDR

/-- A multicast address needs no resolution. -/
def isMulticast (a : Nat) : Bool :=
  if isV4 a then a % 2 ^ 32 / 2 ^ 28 == 14 else a / 2 ^ 120 == 0xFF

/-- The active port (R573). -/
def State.activePort (s : State) : Nat := if s.flag (ethB 1) F.ETH_STATUS_ACTIVE then 1 else 0

/-- Whether a port's link is up. -/
def State.linkIsUp (s : State) (p : Nat) : Bool := s.flag (ethB p) F.ETH_STATUS_LINK_UP

/-- Hand a frame to the transmit queue of a port (R578). -/
def State.toPort (s : State) (port prio : Nat) (o : Out) : State :=
  { s with net := { s.net with txq := s.net.txq ++ [⟨port, prio, o⟩] } }

/-- The frame that a port sends next: of those in its queue, the oldest of the highest priority (R578); of launch frames that
wait together, that of the lowest queue (R581). -/
def State.txNext (s : State) (port : Nat) : Option TxFrame :=
  (List.range 48).findSome? (fun c => s.net.txq.find? (fun f => f.port == port && f.prio == c / 8 + c % 8 * 8))

/-- The priority of a launch frame of queue `q`: class 2, with the queue above it (R578, R581). -/
def launchPrio (q : Nat) : Nat := 2 + 8 * q

/-- A port whose link is up sends the next frame of its queue, and counts it. -/
def State.txOne (s : State) (port : Nat) : State :=
  if s.linkIsUp port then
    match s.txNext port with
    | some f => ({ s with net := { s.net with txq := s.net.txq.erase f } }.emit f.frame).incF (ethB port) F.TX_FRAMES_COUNT 1
    | none => s
  else s

/-- Both ports send (log entry 63). -/
def State.transmit (s : State) : State := (s.txOne 0).txOne 1

/-- Both ports send all that is queued. -/
def State.transmitAll (s : State) : State := forN s.net.txq.length (fun _ t => t.transmit) s

/-- The queue of a port is lost with its link (log entry 63). -/
def State.txDrop (s : State) (port : Nat) : State :=
  { s with net := { s.net with txq := s.net.txq.filter (fun f => f.port != port) } }

/-- The priority of the frames that a PCP field of R572 belongs to (R578). -/
def prioOf (f : Fld) : Nat :=
  if f == F.NET_PCP_PCP_PTP then 1 else if f == F.NET_PCP_PCP_RES then 4 else if f == F.NET_PCP_PCP_VIEW then 5 else 3

/-- The PCP field of the frames of a priority (R572, R578). -/
def pcpFld (prio : Nat) : Fld :=
  if prio = 1 then F.NET_PCP_PCP_PTP else if prio = 4 then F.NET_PCP_PCP_RES else if prio = 5 then F.NET_PCP_PCP_VIEW
  else F.NET_PCP_PCP_CMD

/-- The same frame on another port. -/
def Out.onPort (o : Out) (p : Nat) (rct : Option Nat) : Out :=
  match o with
  | .eth _ _ bs => .eth p rct bs
  | o => o

/-- Send a frame of a priority: on its port, or with PRP_EN on both ports with the redundancy trailer (R576). -/
def State.sendOn (s : State) (port prio : Nat) (o : Out) : State :=
  if s.flag netB F.NET_CTRL_PRP_EN then
    let q := s.net.prpSeq
    let s := { s with net := { s.net with prpSeq := (q + 1) % 65536 } }
    forL ((List.range 2).filter s.linkIsUp) (fun p t => t.toPort p prio (o.onPort p (some q))) s
  else s.toPort port prio (o.onPort port none)

/-- The MAC address of a next hop, if the neighbour cache holds it. -/
def State.macOf (s : State) (hop : Nat) : Option Nat := (s.net.neigh.find? (fun e => e.1 == hop)).map (·.2)

/-! ## Frames of the address protocols (their forms are those of their RFCs, PRESUMED, log entry 20) -/

/-- The sum of the 16-bit words of bytes. -/
def wordSum : List Byte → Nat
  | a :: b :: t => a.toNat * 256 + b.toNat + wordSum t
  | [a] => a.toNat * 256
  | [] => 0

/-- Fold the carries of a ones'-complement sum. -/
def fold16 (n : Nat) : Nat :=
  let m := n / 65536 + n % 65536
  m / 65536 + m % 65536

/-- The internet checksum of bytes. -/
def csum16 (bs : List Byte) : Nat := 65535 - fold16 (fold16 (wordSum bs))

/-- Replace the bytes at `off`. -/
def patchB (bs : List Byte) (off : Nat) (v : List Byte) : List Byte := bs.take off ++ v ++ bs.drop (off + v.length)

/-- An IPv4 packet; `opt` are its options, of whole words. -/
def ip4Packet (src dst proto ttl : Nat) (opt payload : List Byte) : List Byte :=
  let h := [BitVec.ofNat 8 (0x45 + opt.length / 4), 0] ++ be 2 (20 + opt.length + payload.length) ++ zeros 4 ++
    [BitVec.ofNat 8 ttl, BitVec.ofNat 8 proto] ++ zeros 2 ++ be 4 src ++ be 4 dst ++ opt
  patchB h 10 (be 2 (csum16 h)) ++ payload

/-- An ICMPv6 message with its checksum, `body` having zero in its place. -/
def icmp6 (src dst : Nat) (body : List Byte) : List Byte :=
  patchB body 2 (be 2 (csum16 (be 16 src ++ be 16 dst ++ be 4 body.length ++ be 4 58 ++ body)))

/-- An IPv6 packet. -/
def ip6Packet (src dst next hop : Nat) (payload : List Byte) : List Byte :=
  be 4 0x60000000 ++ be 2 payload.length ++ [BitVec.ofNat 8 next, BitVec.ofNat 8 hop] ++ be 16 src ++ be 16 dst ++ payload

/-- A frame that the device builds, with its VLAN tag where VLAN_EN is set (R572). -/
def State.frameBytes (s : State) (dst ethType : Nat) (pcp : Fld) (payload : List Byte) : List Byte :=
  be 6 dst ++ be 6 (s.getF netB F.NET_MAC_MAC) ++
    (if s.flag netB F.NET_CTRL_VLAN_EN then be 2 0x8100 ++ be 2 (s.getF netB pcp * 8192 + s.getF netB F.NET_CTRL_VID) else []) ++
    be 2 ethType ++ payload

def State.ip4 (s : State) : Nat := s.getF netB F.NET_IPV4_ADDR
def State.ip6 (s : State) : Nat := s.addr6 F.NET_IPV6_ADDR
def State.mac (s : State) : Nat := s.getF netB F.NET_MAC_MAC

/-- An ARP message of the device: operation, target address and MAC, destination MAC (R570, R571, R574). -/
def State.arpBytes (s : State) (op target tmac dst : Nat) : List Byte :=
  s.frameBytes dst 0x0806 F.NET_PCP_PCP_CMD
    (be 2 1 ++ be 2 0x0800 ++ [6, 4] ++ be 2 op ++ be 6 s.mac ++ be 4 s.ip4 ++ be 6 tmac ++ be 4 target)

/-- The MAC address of an IPv6 multicast address. -/
def mac6 (a : Nat) : Nat := 0x333300000000 + a % 2 ^ 32

/-- The solicited-node address of an IPv6 address. -/
def solNode (a : Nat) : Nat := 0xFF0200000000000000000001FF000000 + a % 2 ^ 24

/-- A neighbour solicitation (135) or advertisement (136) for `target`, sent to address `dst` at MAC `dmac`; `fl` are
the flags of an advertisement. -/
def State.ndFrame (s : State) (ty target dst dmac fl : Nat) : List Byte :=
  let body := [BitVec.ofNat 8 ty, 0] ++ zeros 2 ++ be 4 (fl * 2 ^ 29) ++ be 16 target ++
    [if ty = 136 then 2 else 1, 1] ++ be 6 s.mac
  s.frameBytes dmac 0x86DD F.NET_PCP_PCP_CMD (ip6Packet s.ip6 dst 58 255 (icmp6 s.ip6 dst body))

/-- Ask for the MAC address of a next hop: ARP, or neighbour solicitation to its solicited-node address. -/
def State.solicit (s : State) (port hop : Nat) : State :=
  if isV4 hop then s.sendOn port 3 (.eth port none (s.arpBytes 1 (hop % 2 ^ 32) 0 (2 ^ 48 - 1)))
  else s.sendOn port 3 (.eth port none (s.ndFrame 135 hop (solNode hop) (mac6 (solNode hop)) 0))

/-- The MAC address of an IPv4 multicast address. -/
def mac4 (a : Nat) : Nat := 0x01005E000000 + a % 2 ^ 23

/-- The MAC address of a multicast address. -/
def mcMac (a : Nat) : Nat := if isV4 a then mac4 a else mac6 a

/-- Whether the family of an address is in use: an address of zeros disables it (R606). -/
def State.canIp (s : State) (a : Nat) : Bool := if isV4 a then s.ip4 != 0 else s.ip6 != 0

/-- The UDP datagram to an address with its checksum (R570), in its IP packet (log entry 20). -/
def State.udpPacket (s : State) (dst dport sport : Nat) (data : List Byte) : List Byte :=
  let n := 8 + data.length
  let h := be 2 sport ++ be 2 dport ++ be 2 n
  let pseudo := if isV4 dst then be 4 s.ip4 ++ be 4 (dst % 2 ^ 32) else be 16 s.ip6 ++ be 16 dst
  let c := csum16 (pseudo ++ be 4 n ++ be 4 17 ++ h ++ zeros 2 ++ data)
  let u := h ++ be 2 (if c = 0 then 65535 else c) ++ data
  if isV4 dst then ip4Packet s.ip4 (dst % 2 ^ 32) 17 64 [] u else ip6Packet s.ip6 dst 17 64 u

/-- The frame of an IP packet to a MAC address. -/
def State.ipFrame (s : State) (port prio mac : Nat) (v4 : Bool) (bytes : List Byte) : Out :=
  .eth port none (s.frameBytes mac (if v4 then 0x0800 else 0x86DD) (pcpFld prio) bytes)

/-- Send an IP packet to an address: to a multicast group or a next hop that is known at once, else when its next hop has been
resolved (R571). A family that is disabled sends nothing (R606). -/
def State.sendIp (s : State) (port prio dst : Nat) (bytes : List Byte) : State :=
  if !s.canIp dst then s
  else if isMulticast dst then s.sendOn port prio (s.ipFrame port prio (mcMac dst) (isV4 dst) bytes)
  else
    let hop := s.nextHop dst
    match s.macOf hop with
    | some mac => s.sendOn port prio (s.ipFrame port prio mac (isV4 dst) bytes)
    | none =>
      ({ s with net := { s.net with wait := s.net.wait ++ [(s.now, hop, IpPkt.mk port prio (isV4 dst) bytes)] } }).solicit port hop

/-- Send a UDP datagram with the PCP and the priority of a class (R572, R578). -/
def State.sendUdp (s : State) (port addr dport sport : Nat) (pcpF : Fld) (payload : List Byte) : State :=
  s.sendIp port (prioOf pcpF) addr (s.udpPacket addr dport sport payload)

/-- Send a packet that has waited: a stream on the port that is now active, any other on its own (R573). -/
def State.sendWaited (s : State) (mac : Nat) (w : IpPkt) : State :=
  let port := if 4 ≤ w.prio then s.activePort else w.port
  s.sendOn port w.prio (s.ipFrame port w.prio mac w.v4 w.bytes)

/-- A next hop has been resolved: it enters the cache of 256 entries, and the packets that wait for it are sent. -/
def State.learn (s : State) (addr mac : Nat) : State :=
  let old := s.net.neigh.filter (fun e => e.1 != addr)
  let kept := if old.length < 256 then old else old.drop 1
  let mine := s.net.wait.filter (fun w => w.2.1 == addr)
  let s := { s with net := { s.net with neigh := kept ++ [(addr, mac)], wait := s.net.wait.filter (fun w => w.2.1 != addr) } }
  forL mine (fun w t => t.sendWaited mac w.2.2) s

end Sys2Proof.Machine
end

