-- ==== Sys2Proof/Machine/Rings.lean ====
section
/-!
DEFINITION. Purl rings (14_rings_dma R508 to R525): contexts and their cache, binding, reservations, subscribers, and
the streams that carry entries to network subscribers (16_network_time R584 to R588).
-/

namespace Sys2Proof.Machine

/-- Lanes of a codec: 32 in a region codec, 16 in the hub codec. -/
def hkLanes (k : Nat) : Nat := if k < 8 then 32 else 16

/-- Whether a codec has a lane that is no host lane, for its internal users (R559). -/
def State.hkSpare (s : State) (k : Nat) : Bool := decide (s.getF (hkB k) F.HK_CTRL_HOST_LANES < hkLanes k)

/-- A codec has worked off a job of an internal user (R563): codec, blocks, input bytes, output bytes. -/
def State.hkCount (s : State) (k blocks inN outN : Nat) : State :=
  let s := (s.incF (hkB k) F.HK_JOBS_COUNT 1).incF (hkB k) F.HK_BLOCKS_COUNT blocks
  (s.incF (hkB k) F.HK_IN_BYTES_COUNT inN).incF (hkB k) F.HK_OUT_BYTES_COUNT outN

/-- A codec has met an input error of an internal user (R549, R563). -/
def State.hkFail (s : State) (k : Nat) : State :=
  (s.incF (hkB k) F.HK_JOBS_COUNT 1).satF (hkB k) F.HK_ERR_CNT_COUNT 1

/-- A codec decompresses a block for an internal user; `none` where it fails (R549, R563). -/
def State.hkUnpack (s : State) (k : Nat) (block : List Byte) : State × Option (List Byte) :=
  match hankDecode block with
  | .ok y => (s.hkCount k 1 y.2 y.1.length, some y.1)
  | .error _ => (s.hkFail k, none)

/-! ## Contexts -/

/-- The context of a ring. -/
def State.ring (s : State) (id : Nat) : RingCtx := Tab.get {} id s.rings

/-- The 64 bytes of a context (R511). -/
def RingCtx.bytes (c : RingCtx) : List Byte :=
  le 8 c.base ++ le 1 c.depthLog ++
    le 1 ((if c.valid then 1 else 0) + (if c.e256 then 2 else 0) + (if c.devProd then 4 else 0) + (if c.bound then 8 else 0)) ++
    le 1 c.subs.length ++ zeros 5 ++ le 4 c.prod ++ le 4 c.cons ++ le 4 c.drops ++ zeros 4 ++
    (((c.subs ++ List.replicate (8 - c.subs.length) 0xFFFF).map (le 2)).flatten) ++ zeros 16

/-- A ring's context is pinned in the cache while the ring is bound or has a subscriber (R525). -/
def RingCtx.pinned (c : RingCtx) : Bool := c.bound || !c.subs.isEmpty

/-- The number of pinned contexts. -/
def State.pinnedCount (s : State) : Nat := (s.rings.filter (fun e => e.2.pinned)).length

/-- Change a context: the change reaches the context table in memory too (R525). -/
def State.setRing (s : State) (id : Nat) (c : RingCtx) : State :=
  let s := { s with rings := Tab.put id c s.rings }
  let s := s.pokes (s.getF ringB F.RING_CTX_BASE_ADDR + 64 * id) c.bytes
  s.setF ringB F.RING_PINNED_COUNT s.pinnedCount

/-- The context that 64 bytes of the context table hold (R511). -/
def ctxOf (b : List Byte) : RingCtx :=
  let flags := leAt b 9 1
  { base := leAt b 0 5
    depthLog := leAt b 8 1
    valid := bit flags 0
    e256 := bit flags 1
    devProd := bit flags 2
    bound := bit flags 3
    prod := leAt b 16 4
    cons := leAt b 20 4
    drops := leAt b 24 4
    subs := (List.range (min 8 (leAt b 10 1))).map (fun i => leAt b (32 + 2 * i) 2) }

/-- A context is read from the context table at class 1 (R510, R525); where the table cannot be read the hub keeps what it
has. -/
def State.loadCtx (s : State) (id : Nat) : State :=
  let r := s.memRead 1 (blockUnit ringB) (s.getF ringB F.RING_CTX_BASE_ADDR + 64 * id) 64
  match r.2 with
  | .ok b => { r.1 with rings := Tab.put id (ctxOf b) r.1.rings }
  | .error _ => r.1

/-- A context is used: a hit, or a load that evicts the least recently used context that is not pinned (R525). -/
def State.touchRing (s : State) (id : Nat) : State :=
  if s.ctxCache.contains id then
    ({ s with ctxCache := id :: s.ctxCache.filter (· != id) }).incF ringB F.CTX_HITS_COUNT 1
  else
    let keep := if s.ctxCache.length < 4096 then s.ctxCache
      else match s.ctxCache.reverse.find? (fun i => !(s.ring i).pinned) with
        | some v => s.ctxCache.filter (· != v)
        | none => s.ctxCache
    ({ s.loadCtx id with ctxCache := id :: keep }).incF ringB F.CTX_MISSES_COUNT 1

/-- The context of a ring that a command or a doorbell names is used, and loaded where it is not cached, before anything is read
of it (R525); a number that has no context is not. -/
def State.ringUse (s : State) (id : Nat) : State := if 0x100 ≤ id ∧ id ≤ 0xFFFFF then s.touchRing id else s

/-- The size of an entry in bytes. -/
def RingCtx.esize (c : RingCtx) : Nat := if c.e256 then 256 else 64

def RingCtx.depth (c : RingCtx) : Nat := 2 ^ c.depthLog

/-- The address of entry `i` (R512). -/
def RingCtx.entryAddr (c : RingCtx) (i : Nat) : Nat := c.base + i % c.depth * c.esize

/-- `(a - b) mod 2^32`. -/
def diff32 (a b : Nat) : Nat := (a + 2 ^ 32 - b % 2 ^ 32) % 2 ^ 32

/-- The cursor with the largest distance behind PROD. -/
def farthest (prod : Nat) : List Nat → Nat
  | [] => prod
  | [c] => c
  | c :: cs => if diff32 prod (farthest prod cs) ≤ diff32 prod c then c else farthest prod cs

/-- The tail index (R512). -/
def State.tail (s : State) (id : Nat) : Nat :=
  let c := s.ring id
  if c.subs.isEmpty then c.cons
  else farthest c.prod (c.subs.map (fun n => ((Tab.find n s.subs).map (·.cursor)).getD c.prod))

/-- Entries filled, and free (R512). -/
def State.fill (s : State) (id : Nat) : Nat := diff32 (s.ring id).prod (s.tail id)
def State.free (s : State) (id : Nat) : Nat := (s.ring id).depth - s.fill id

/-- Entries reserved and not yet visible. -/
def State.reserved (s : State) (id : Nat) : Nat := ((s.resv.filter (fun r => r.ring == id)).map (·.n)).sum

/-- Room for a new reservation (R515). -/
def State.room (s : State) (id : Nat) : Nat := s.free id - s.reserved id

/-- A ring a block may name: configured, no device ring, entries of the size the block needs (R508, R509). -/
def State.ringOk (s : State) (id : Nat) (e256 : Bool) : Bool :=
  decide (0x100 ≤ id) && (s.ring id).valid && (s.ring id).e256 == e256

/-! ## Binding (R514) -/

/-- The binder of the export ring. -/
def exportBinder : Nat := repB + 1

/-- Bring BOUND and DEV_PROD of a ring in line with its bindings. -/
def State.rebind (s : State) (id : Nat) : State :=
  let mine := s.binds.filter (fun b => b.1 == id)
  s.setRing id { s.ring id with bound := !mine.isEmpty, devProd := mine.any (fun b => b.2.2) }

/-- Bind a ring to a block: its context is in the cache from then on (R525). -/
def State.bind (s : State) (id binder : Nat) (writes : Bool) : State :=
  (({ s with binds := s.binds ++ [(id, binder, writes)] }).touchRing id).rebind id

/-- Release every binding of a block. -/
def State.unbind (s : State) (binder : Nat) : State :=
  let ids := (s.binds.filter (fun b => b.2.1 == binder)).map (·.1)
  let s := { s with binds := s.binds.filter (fun b => b.2.1 != binder) }
  forL ids (fun id t => t.rebind id) s

/-- Whether pinning the rings named would stay within 3,584 contexts (R525). -/
def State.canPin (s : State) (ids : List Nat) : Bool :=
  decide (s.pinnedCount + (ids.eraseDups.filter (fun id => !(s.ring id).pinned)).length ≤ 3584)

/-! ## Streams (R584 to R588) -/

/-- The most bytes of entries a datagram holds on a port (R585). -/
def State.streamLimit (s : State) (port : Nat) : Nat := if s.flag (ethB port) F.ETH_CTRL_JUMBO then 8192 else 1280

/-- Whether a ring is produced by a view block (R572). -/
def State.viewRing (s : State) (id : Nat) : Bool :=
  s.binds.any (fun b => b.1 == id && decide (0x160000 ≤ b.2.1) && decide (b.2.1 < 0x161000) && b.2.2)

/-- The bytes of entries `first` to `first + n - 1`. -/
def State.entriesAt (s : State) (id first n : Nat) : List Byte :=
  let c := s.ring id
  (List.range n).flatMap (fun i => s.peeks (c.entryAddr (first + i)) c.esize)

/-- Read entries `first` to `first + n - 1` for a unit that goes on after an error; the bytes of one that cannot be read are free
(log entry 64). -/
def State.streamRead (s : State) (unit id first : Nat) : Nat → State × List Byte
  | 0 => (s, [])
  | n + 1 =>
    let c := s.ring id
    let r := s.readFree 1 unit (c.entryAddr first) c.esize
    let q := r.1.streamRead unit id (first + 1) n
    (q.1, r.2 ++ q.2)

/-- The header of a stream datagram of `n` entries of subscription `b`, numbered `k` (R584). -/
def State.streamHdr (s : State) (k : Nat) (b : Sub) (hank resent : Bool) (n : Nat) : List Byte :=
  be 2 0x4853 ++ [1, BitVec.ofNat 8 ((if hank then 1 else 0) + (if resent then 2 else 0))] ++
    be 2 (s.getF devB F.DEV_NUM_DEVNUM) ++ be 2 k ++ be 4 b.ring ++ be 4 b.sent ++ be 2 n ++
    [if (s.ring b.ring).e256 then 1 else 0, 0] ++ be 4 b.seq ++ be 4 s.sec ++ be 4 s.ns

/-- Send one datagram of `n` entries to subscriber `k` (R584 to R587). -/
def State.sendStream (s : State) (k n : Nat) : State :=
  match Tab.find k s.subs with
  | none => s
  | some b =>
    match b.who with
    | .block _ => s
    | .net hank udp addr _ =>
      if !s.canIp addr then s else
      let port := s.activePort
      let resent := decide (0 < diff32 b.resendTo b.sent) && decide (diff32 b.resendTo b.sent < 2 ^ 31)
      let n := if resent then min n (diff32 b.resendTo b.sent) else n
      let r := s.streamRead (blockUnit netB) b.ring b.sent n
      let data := r.2
      let s := r.1
      let body := s.streamHdr k b hank resent n ++ (if hank then hankBlock data else data)
      let s := if hank then s.hkCount 8 1 data.length (hankBlock data).length else s
      let s := s.sendUdp port addr udp (s.getF cmdB F.CMD_CFG_UDP_PORT + 1)
        (if s.viewRing b.ring then F.NET_PCP_PCP_VIEW else F.NET_PCP_PCP_RES) (body ++ tag16 b.key body)
      let s := if resent then s.satF netB F.STREAM_RESENT_COUNT n else s
      let nxt := (b.sent + n) % 2 ^ 32
      let left := diff32 (s.ring b.ring).prod nxt
      let b' : Sub :=
        { b with
          sent := nxt
          seq := (b.seq + 1) % 2 ^ 32
          inFlight := b.inFlight ++ [(nxt, s.now)]
          since := if left = 0 then none else some s.now }
      { s with subs := Tab.put k b' s.subs }

/-- Whether streams can leave: the link of the active port is up, or under PRP that of either port (R573, R576). -/
def State.streamUp (s : State) : Bool :=
  if s.flag netB F.NET_CTRL_PRP_EN then s.linkIsUp 0 || s.linkIsUp 1 else s.linkIsUp s.activePort

/-- The full datagrams that wait for subscriber `k` (R587). -/
def State.streamDue (s : State) (k : Nat) : Nat :=
  match Tab.find k s.subs with
  | some b => diff32 (s.ring b.ring).prod b.sent / (s.streamLimit s.activePort / (s.ring b.ring).esize)
  | none => 0

/-- Whether a subscriber's datagrams can be made: one that is compressed takes a lane of the hub codec (R559; DESIGN CHOICE, log
entry 19). -/
def State.streamMade (s : State) (b : Sub) : Bool :=
  match b.who with
  | .net true _ _ _ => s.hkSpare 8
  | _ => true

/-- Send subscriber `k` one datagram, where its unsent entries fill the payload limit (R587). -/
def State.streamOne (s : State) (k : Nat) : State :=
  match Tab.find k s.subs with
  | none => s
  | some b =>
    let per := s.streamLimit s.activePort / (s.ring b.ring).esize
    if per ≤ diff32 (s.ring b.ring).prod b.sent ∧ 0 < per ∧ s.streamUp ∧ s.streamMade b then s.sendStream k per else s

/-- Send all full datagrams that wait for subscribers, round robin (R587). -/
def State.streamServe (s : State) (ks : List Nat) : State :=
  forN ((ks.map s.streamDue).foldl max 0 + 1) (fun _ t => forL ks (fun k u => u.streamOne k) t) s

/-- The network subscribers among some. -/
def State.netSubs (s : State) (ks : List Nat) : List Nat :=
  ks.filter (fun k => match Tab.find k s.subs with
    | none => false
    | some b =>
      match b.who with
      | .block _ => false
      | .net .. => true)

/-- After PROD has moved: note when entries became visible to each network subscriber, and send what fills a
datagram, round robin (R587). -/
def State.streamKick (s : State) (id : Nat) : State :=
  let ks := s.netSubs (s.ring id).subs
  let s := forL ks (fun k t =>
    match Tab.find k t.subs with
    | none => t
    | some b => { t with subs := Tab.put k { b with since := some (b.since.getD t.now) } t.subs }) s
  s.streamServe ks

/-! ## Producing (R515, R516) -/

/-- Advance PROD over the reservations at the front that are covered (R516): `l` is the ring's reservations. -/
def advanceLen : List Reservation → Nat
  | [] => 0
  | r :: rs => if r.done then r.n + advanceLen rs else 0

def dropDone : List Reservation → List Reservation
  | [] => []
  | r :: rs => if r.done then dropDone rs else r :: rs

/-- PROD advances over every reservation that is written and has no uncovered one before it (R516). -/
def State.advance (s : State) (id : Nat) : State :=
  let mine := s.resv.filter (fun r => r.ring == id)
  let n := advanceLen mine
  if n = 0 then s
  else
    let c := s.ring id
    let s := { s with resv := s.resv.filter (fun (r : Reservation) => r.ring != id) ++ dropDone mine }
    (s.setRing id { c with prod := (c.prod + n) % 2 ^ 32 }).streamKick id

/-- The class and the unit under which the entries of a ring are written: patches and captured lines are class 0 (R494,
R497). -/
def State.ringUser (s : State) (id : Nat) : Nat × Nat :=
  match s.binds.find? (fun b => b.1 == id && b.2.2) with
  | some b =>
    let urgent := (b.2.1 / 0x1000 == 0x60 && (s.ring id).e256) ||
      (b.2.1 == repB && (List.range 8).any (fun r => s.getF repB (F.CAP_RING_RING.nth r) == id))
    (if urgent then 0 else 1, blockUnit b.2.1)
  | none => (1, blockUnit ringB)

/-- Write the entries of an item from entry `first` on. -/
def State.writeEntries (s : State) (id first : Nat) (item : List Byte) : Nat → State
  | 0 => s
  | n + 1 =>
    let c := s.ring id
    let u := s.ringUser id
    let s := (s.memWrite u.1 u.2 (c.entryAddr first) (padTo c.esize item)).1
    s.writeEntries id (first + 1) (item.drop c.esize) n

/-- An item is discarded for lack of room (R515): DROPS and FULL_EV. -/
def State.ringDrop (s : State) (id : Nat) : State :=
  let c := s.ring id
  let s := s.setRing id { c with drops := satAdd 32 c.drops 1 }
  let s := { s with starved := if s.starved.contains id then s.starved else id :: s.starved }
  s.raise ringB F.RING_EVENT_FULL_EV 0xE2

/-- The entries an item of bytes takes. -/
def RingCtx.entriesFor (c : RingCtx) (len : Nat) : Nat := (len + c.esize - 1) / c.esize

/-- Reserve, write and make visible an item whose room has been checked (R515, R516). -/
def State.ringWrite (s : State) (id : Nat) (item : List Byte) : State :=
  let s := s.touchRing id
  let c := s.ring id
  let n := c.entriesFor item.length
  let first := (c.prod + s.reserved id) % 2 ^ 32
  let s := s.writeEntries id first item n
  let s := { s with resv := s.resv ++ [(⟨id, first, n, true⟩ : Reservation)], starved := s.starved.filter (· != id) }
  s.advance id

/-- Whether an item of `len` bytes has room (R515). -/
def State.ringFits (s : State) (id len : Nat) : Bool := decide ((s.ring id).entriesFor len ≤ s.room id)

/-- Whether the memory of the next `n` entries takes writes (R502). -/
def State.ringAlive (s : State) (id n : Nat) : Bool :=
  (List.range n).all (fun i => s.canWrite ((s.ring id).entryAddr ((s.ring id).prod + s.reserved id + i) / 64))

/-- A producer that discards an item for which a full ring has no room (R515); answers whether it was written. -/
def State.ringPush (s : State) (id : Nat) (item : List Byte) : State × Bool :=
  if s.ringFits id item.length then (s.ringWrite id item, true) else (s.ringDrop id, false)

/-- A producer that waits: nothing is written, and the ring counts as one on which a producer waits (R522). -/
def State.ringStarve (s : State) (id : Nat) : State :=
  { s with starved := if s.starved.contains id then s.starved else id :: s.starved }

/-! ## Subscribers (R520 to R524) -/

/-- The lowest subscriber number that is free. -/
def State.freeSub (s : State) : Option Nat := (List.range 1024).find? (fun k => (Tab.find k s.subs).isNone)

/-- Whether one more subscription to each of the rings named fits (R520). -/
def State.canSubs (s : State) (ids : List Nat) : Bool :=
  decide (s.subs.length + ids.length ≤ 1024) && ids.all (fun id => decide ((s.ring id).subs.length + ids.count id ≤ 8))

/-- Whether one more subscription fits (R520). -/
def State.canSub (s : State) (id : Nat) : Bool := s.canSubs [id]

/-- Make subscriber `k`; a network subscriber starts at PROD, an internal one at the tail index (R520). -/
def State.addSub (s : State) (k id : Nat) (who : Subscriber) (key : List Byte) : State :=
  let c := s.ring id
  let cur := match who with
    | .block _ => s.tail id
    | .net .. => c.prod
  let s := { s with subs := Tab.put k ⟨id, who, cur, s.now, cur, [], 0, key, none, cur⟩ s.subs }
  let s := s.setRing id { c with subs := c.subs ++ [k] }
  s.setF ringB F.SUBS_OPEN_COUNT s.subs.length

/-- A producer that waits for `w.2` entries of ring `w.1` is granted its reservation if the free count allows it (R523). -/
def State.grantOne (s : State) (w : Nat × Nat) : State :=
  if w.2 ≤ s.room w.1 then
    let r : Reservation := ⟨w.1, ((s.ring w.1).prod + s.reserved w.1) % 2 ^ 32, w.2, false⟩
    { s with ringWait := s.ringWait.erase w, starved := s.starved.filter (· != w.1), resv := s.resv ++ [r] }
  else s

/-- Every waiting producer of a ring whose entries the free count allows is granted them, the one that asked first before
the others (R523). -/
def State.grant (s : State) (id : Nat) : State := forL (s.ringWait.filter (fun w => w.1 == id)) (fun w t => t.grantOne w) s

/-- Remove subscriber `k`; when it was the last, CONS takes its cursor (R521, R523). -/
def State.dropSub (s : State) (k : Nat) : State :=
  match Tab.find k s.subs with
  | none => s
  | some b =>
    let c := s.ring b.ring
    let left := c.subs.filter (· != k)
    let s := { s with subs := Tab.del k s.subs }
    let s := s.setRing b.ring { c with subs := left, cons := if left.isEmpty then b.cursor else c.cons }
    (s.setF ringB F.SUBS_OPEN_COUNT s.subs.length).grant b.ring

/-- The internal subscriber of block `b` on a ring. -/
def State.subOf (s : State) (id b : Nat) : Option Nat :=
  (s.ring id).subs.find? (fun k => match Tab.find k s.subs with
    | some e => e.who == .block b
    | none => false)

/-- The cursor of a block on a ring. -/
def State.cursorOf (s : State) (id b : Nat) : Nat :=
  match s.subOf id b with
  | some k => ((Tab.find k s.subs).map (·.cursor)).getD 0
  | none => 0

/-- Entries a block has not taken yet. -/
def State.avail (s : State) (id b : Nat) : Nat :=
  match s.subOf id b with
  | some _ => diff32 (s.ring id).prod (s.cursorOf id b)
  | none => 0

/-- Move subscriber `k` past `n` entries. -/
def State.moveSub (s : State) (k n : Nat) : State :=
  match Tab.find k s.subs with
  | none => s
  | some b =>
    ({ s with subs := Tab.put k { b with cursor := (b.cursor + n) % 2 ^ 32, moved := s.now } s.subs }).grant b.ring

/-- A block takes `n` entries of a ring it reads (R521). -/
def State.take (s : State) (id b n : Nat) : State :=
  match s.subOf id b with
  | some k => s.moveSub k n
  | none => s

/-- The entries a block would take next, as read from memory; `none` when the read is uncorrectable. -/
def State.readEntry (s : State) (id b off : Nat) (unit : Nat) : State × Except MemErr (List Byte) :=
  let c := s.ring id
  s.memRead 1 unit (c.entryAddr (s.cursorOf id b + off)) c.esize

/-- A consumer has moved past an entry that asks for an interrupt (R524). -/
def State.consIrq (s : State) (id : Nat) : State :=
  (s.setF ringB F.RING_IRQ_ID_RING id).raise ringB F.RING_EVENT_CONS_IRQ_EV 0xE4

/-- Make block `b` an internal subscriber of a ring, if it is not one yet. -/
def State.subBlock (s : State) (id b : Nat) : State :=
  match s.subOf id b with
  | some _ => s
  | none =>
    match s.freeSub with
    | some k => s.addSub k id (.block b) []
    | none => s

/-- The internal subscriptions of block `b` end. -/
def State.unsubAll (s : State) (b : Nat) : State :=
  forL ((s.subs.filter (fun e => e.2.who == .block b)).map (·.1)) (fun k t => t.dropSub k) s

/-- End block `b`'s subscription. -/
def State.unsubBlock (s : State) (id b : Nat) : State :=
  match s.subOf id b with
  | some k => s.dropSub k
  | none => s

/-- The reads and writes of the ring rows themselves: a producer obtains a whole reservation, or waits or discards
(RING_RESERVE). -/
def State.reserve (s : State) (id n : Nat) (waits : Bool) : State :=
  if n ≤ s.room id then
    let r : Reservation := ⟨id, ((s.ring id).prod + s.reserved id) % 2 ^ 32, n, false⟩
    { s with resv := s.resv ++ [r], starved := s.starved.filter (· != id) }
  else if waits then { s.ringStarve id with ringWait := s.ringWait ++ [(id, n)] }
  else s.ringDrop id

/-- The oldest reservation of a ring that is not covered is covered. -/
def coverFirst (id : Nat) : List Reservation → List Reservation
  | [] => []
  | r :: rs => if r.ring = id ∧ !r.done then { r with done := true } :: rs else r :: coverFirst id rs

end Sys2Proof.Machine
end

