-- ==== Sys2Proof/Machine/Hank.lean ====
section
/-!
DEFINITION. Host jobs of the Hank codecs (15_hank_codec R551 to R560): taking a job, its blocks, output buffers and
index, and its result. The commands HANK_JOB_TAKE, HANK_BLOCK_DONE and HANK_DISABLE.
-/

namespace Sys2Proof.Machine

def State.hkJob (s : State) (k l : Nat) : Option HankJob := Tab.find (64 * k + l) s.hank
def State.setJob (s : State) (k l : Nat) (j : HankJob) : State := { s with hank := Tab.put (64 * k + l) j s.hank }

/-- The power domain of a codec (R467). -/
def hkDom (k : Nat) : Nat := if k < 8 then 66 + 3 * k else 93

/-- BUSY: lanes that run a job (R563). -/
def State.hkShow (s : State) (k : Nat) : State :=
  s.setF (hkB k) F.HK_STATUS_BUSY (s.hank.filter (fun e => e.1 / 64 == k)).length

/-- What a rise of EN answers (R509, R520, R525). -/
def State.hkStatus (s : State) (k : Nat) : Nat :=
  let jr := s.getF (hkB k) F.HK_JOB_RING_RING
  let rr := s.getF (hkB k) F.HK_RES_RING_RING
  if !s.ringOk jr false || !s.ringOk rr false then stBadParam
  else if !s.canPin [jr, rr] || !s.canSub jr then stNoResource
  else stOk

/-- EN rises: the rings are bound, and the codec reads its job ring. -/
def State.hkStart (s : State) (k : Nat) : State :=
  let s := s.setF (hkB k) F.HK_CTRL_EN 1
  let jr := s.getF (hkB k) F.HK_JOB_RING_RING
  ((s.bind jr (hkB k) false).subBlock jr (hkB k)).bind (s.getF (hkB k) F.HK_RES_RING_RING) (hkB k) true

/-- With EN = 0 the rings are released once no job runs (R514, R560). -/
def State.hkRelease (s : State) (k : Nat) : State :=
  if !s.flag (hkB k) F.HK_CTRL_EN && (s.hank.filter (fun e => e.1 / 64 == k)).isEmpty then
    (s.unsubBlock (s.getF (hkB k) F.HK_JOB_RING_RING) (hkB k)).unbind (hkB k)
  else s

/-! ## Taking a job -/

/-- Whether the fields of a job entry are in order (R551, R554). A decompress job has no index (R553). -/
def hkEntryOk (e : List Byte) : Bool :=
  (leAt e 0 1 == 1 || leAt e 0 1 == 2) && decide (leAt e 1 1 < 2) && leAt e 2 6 == 0 && decide (leAt e 8 8 < 2 ^ 40) &&
    decide (1 ≤ leAt e 0x10 4) && leAt e 0x14 4 == 0 && decide (leAt e 0x18 8 < 2 ^ 40) && leAt e 0x18 8 % 16 == 0 &&
    decide (1 ≤ leAt e 0x20 2) && decide (leAt e 0x20 2 ≤ 4096) && leAt e 0x22 6 == 0 &&
    decide (leAt e 0x28 8 < 2 ^ 40) && leAt e 0x38 8 == 0 &&
    decide (leAt e 8 8 + leAt e 0x10 4 ≤ 0x1E00000000) &&
    decide (leAt e 0x18 8 + 16 * leAt e 0x20 2 ≤ 0x1E00000000) &&
    (leAt e 1 1 == 0 || leAt e 0 1 == 2 || decide (leAt e 0x28 8 + 8 * ((leAt e 0x10 4 + 65535) / 65536) ≤ 0x1E00000000))

/-- Whether an entry of the output chain is in order (R552, R554). -/
def hkBufOk (b : List Byte) : Bool :=
  decide (leAt b 0 8 < 2 ^ 40) && decide (1 ≤ leAt b 8 4) && leAt b 12 4 == 0 &&
    decide (leAt b 0 8 + leAt b 8 4 ≤ 0x1E00000000)

/-- Cut bytes into `m` pieces of `n`. -/
def chunksB (n : Nat) : Nat → List Byte → List (List Byte)
  | 0, _ => []
  | m + 1, bs => bs.take n :: chunksB n m (bs.drop n)

/-- The job of an entry: ready to run, BAD_JOB (R554), or MEM_ERR where its output chain cannot be read (R557). -/
def State.hkMake (s : State) (k : Nat) (e : List Byte) : State × HankJob :=
  let j : HankJob :=
    { op := leAt e 0 1
      index := leAt e 1 1 % 2 == 1
      src := leAt e 8 8
      len := leAt e 0x10 4
      idx := leAt e 0x28 8
      id := leAt e 0x30 8 }
  if !hkEntryOk e then (s, { j with status := some 6 })
  else
    let r := s.memRead 1 k (leAt e 0x18 8) (16 * leAt e 0x20 2)
    match r.2 with
    | .error _ => (r.1, { j with status := some 7 })
    | .ok c =>
      let es := chunksB 16 (leAt e 0x20 2) c
      if !es.all hkBufOk then (r.1, { j with status := some 6 })
      else (r.1, { j with bufs := es.map (fun b => (leAt b 0 8, leAt b 8 4)) })

/-- The lane that takes the next job: the lowest of the highest HOST_LANES that is free (R559, log entry 19). -/
def State.hkFree (s : State) (k : Nat) : Option Nat :=
  let h := s.getF (hkB k) F.HK_CTRL_HOST_LANES
  ((List.range h).map (· + (hkLanes k - h))).find? (fun l => (s.hkJob k l).isNone)

/-! ## Output -/

/-- The room of a job's output chain. -/
def HankJob.room (j : HankJob) : Nat := (j.bufs.map (·.2)).sum

/-- The address of position `p` of the output stream, with the room left in its buffer and the buffer's index. -/
def placeIn (p i : Nat) : List (Nat × Nat) → Option (Nat × Nat × Nat)
  | [] => none
  | b :: bs => if p < b.2 then some (b.1 + p, b.2 - p, i) else placeIn (p - b.2) (i + 1) bs

/-- Write bytes at position `p` of the output stream; answers whether memory took them (R552). -/
def State.hkPut (s : State) (k : Nat) (bufs : List (Nat × Nat)) (p : Nat) (bs : List Byte) : Nat → State × Bool
  | 0 => (s, true)
  | fuel + 1 =>
    if bs.isEmpty then (s, true)
    else
      match placeIn p 0 bufs with
      | none => (s, true)
      | some (a, n, _) =>
        let r := s.memWrite 1 k a (bs.take n)
        match r.2 with
        | some _ => (r.1, false)
        | none => r.1.hkPut k bufs (p + n) (bs.drop n) fuel

/-- Bytes that carry no meaning (R550, R556): `n` of them from position `p` on, as far as the chain reaches; answers whether
memory took them. -/
def State.hkJunk (s : State) (k : Nat) (j : HankJob) (p n : Nat) : State × Bool :=
  let m := min n (j.room - p)
  let bs := (List.range m).map (fun i => Config.freeBits 8 (s.freeCtr + i))
  { s with freeCtr := s.freeCtr + m }.hkPut k j.bufs p bs (j.bufs.length + 1)

/-- A block ends its job with status `st` after `n` bytes that carry no meaning: where the chain is full before, with
OUT_OF_SPACE (R556), and where memory does not take them, with MEM_ERR (R557). -/
def State.hkBreak (s : State) (k l : Nat) (j : HankJob) (n st : Nat) : State :=
  let r := s.hkJunk k j j.pos n
  r.1.setJob k l { j with status := some (if !r.2 then 7 else if j.room < j.pos + n then 1 else st), fail := j.used }

/-! ## Blocks -/

/-- The bytes of block `k` of a compress job, and how long they are (R541). -/
def HankJob.inLen (j : HankJob) : Nat := min 65536 (j.len - j.used)

/-- The output of a block is written, with its index entry, and counted; or the job ends with OUT_OF_SPACE or MEM_ERR
(R553, R556, R557). `gap` is the padding before the block, `n` the input it consumes. -/
def State.hkEmit (s : State) (k l : Nat) (j : HankJob) (gap : Nat) (bs : List Byte) (n : Nat) : State :=
  if j.room < j.pos + gap + bs.length then s.hkBreak k l j (gap + bs.length) 1
  else
    let w := s.hkPut k j.bufs j.pos (zeros gap ++ bs) (j.bufs.length + 1)
    let at' := (placeIn (j.pos + gap) 0 j.bufs).getD (0, 0, 0)
    let x := if w.2 && j.index && j.op == 1 then w.1.memWrite 1 k (j.idx + 8 * j.blocks) (le 8 at'.1) else (w.1, none)
    if !w.2 || x.2.isSome then x.1.hkBreak k l j (gap + bs.length) 7
    else
      let s := (x.1.incF (hkB k) F.HK_BLOCKS_COUNT 1).incF (hkB k) F.HK_IN_BYTES_COUNT (min n (j.len - j.used))
      let s := s.incF (hkB k) F.HK_OUT_BYTES_COUNT (gap + bs.length)
      let used := j.used + n
      let st := if j.stop then some 8 else if j.len ≤ used then some 0 else none
      s.setJob k l { j with blocks := j.blocks + 1, used := min used j.len, pos := j.pos + gap + bs.length, status := st }

/-- The next block of a compress job (R541, R547). -/
def State.hkCompress (s : State) (k l : Nat) (j : HankJob) : State :=
  let r := s.memRead 1 k (j.src + j.used) j.inLen
  match r.2 with
  | .error _ => r.1.setJob k l { j with status := some 7, fail := j.used }
  | .ok bs => r.1.hkEmit k l j ((8 - j.pos % 8) % 8) (hankBlock bs) j.inLen

/-- Read up to `n` bytes from `a` on, one block of memory after the other, and no further than the decompressor reads: `stop`
tells of the bytes read so far that it has met an error in them. Answers the bytes, and whether every read has succeeded. -/
def State.hkFetch (s : State) (k : Nat) (stop : List Byte → Bool) : Nat → Nat → Nat → List Byte → State × List Byte × Bool
  | 0, _, _, acc => (s, acc, true)
  | fuel + 1, a, n, acc =>
    if n = 0 ∨ stop acc then (s, acc, true)
    else
      let m := min n (64 - a % 64)
      let r := s.memRead 1 k a m
      match r.2 with
      | .error _ => (r.1, acc, false)
      | .ok b => r.1.hkFetch k stop fuel (a + m) (n - m) (acc ++ b)

/-- Whether the decompressor stops in the data read so far: at an error, or because the output chain is full. -/
def HankJob.stops (j : HankJob) (h data : List Byte) : Bool :=
  match hankData h data with
  | .error e => e.1 != hankMore || decide (j.room < j.pos + e.2)
  | .ok _ => true

/-- The next block of a decompress job (R549, R550, R555). What ends the job is what comes first as the block is read: an error
of its bytes, a read that fails (R557), or output that reaches the end of the chain (R556). -/
def State.hkDecode (s : State) (k l : Nat) (j : HankJob) : State :=
  let left := j.len - j.used
  let a := j.src + j.used
  let h := s.hkFetch k hankHeadBad 2 a (min 16 left) []
  let hd := h.2.1
  if !h.2.2 then h.1.hkBreak k l j 0 7
  else if hankHead hd left ≠ 0 then h.1.hkBreak k l j 0 (hankHead hd left)
  else
    let comp := leAt hd 8 4
    let r := h.1.hkFetch k (j.stops hd) (comp / 64 + 2) (a + 16) comp []
    match hankData hd r.2.1 with
    | .error e => r.1.hkBreak k l j e.2 (if e.1 = hankMore then 7 else e.1)
    | .ok out => r.1.hkEmit k l j 0 out ((16 + comp + 7) / 8 * 8)

/-! ## Results -/

/-- The 64-byte result of a job that has ended (R558): LAST_BUF is free where no byte is counted. -/
def hkResult (l : Nat) (j : HankJob) (status lastBuf : Nat) : List Byte :=
  let failing := (decide (2 ≤ status) && decide (status ≤ 5)) || status == 7
  padTo 64 (le 8 j.id ++ le 1 status ++ le 1 l ++ zeros 2 ++ le 4 j.blocks ++ le 8 j.pos ++ le 4 (j.len - j.used) ++
    le 2 lastBuf ++ zeros 2 ++ le 8 (if failing then j.fail else 0))

/-- The result ring of a codec has no room for a result. -/
def State.hkWaits (s : State) (k : Nat) : Bool := !s.ringFits (s.getF (hkB k) F.HK_RES_RING_RING) 64

/-- A job that has ended writes its result, or waits for room on the ring (R558). -/
def State.hkEnd (s : State) (k l : Nat) (j : HankJob) (status : Nat) : State :=
  let rr := s.getF (hkB k) F.HK_RES_RING_RING
  if s.hkWaits k then s.ringStarve rr
  else
    let b := hkB k
    let last := match placeIn (j.pos - 1) 0 j.bufs with
      | some e => if j.pos = 0 then (Config.freeBits 16 s.freeCtr).toNat else e.2.2
      | none => (Config.freeBits 16 s.freeCtr).toNat
    let s := (s.tickFree).ringWrite rr (hkResult l j status last)
    let s := ({ s with hank := Tab.del (64 * k + l) s.hank }).incF b F.HK_JOBS_COUNT 1
    let s := if 2 ≤ status ∧ status ≤ 5 then s.satF b F.HK_ERR_CNT_COUNT 1 else s
    let s := if (2 ≤ status ∧ status ≤ 5) ∨ status = 7 then s.raise b F.HK_STATUS_ERR_EV 0xE7 else s
    let s := if status = 1 then s.raise b F.HK_STATUS_SPACE_EV 0xE8 else s
    (s.hkShow k).hkRelease k

/-- HANK_JOB_TAKE: the codec takes the next job of its ring, in ring order (R551, R559). An entry that cannot be read
ends as MEM_ERR; its JOB_ID is then free (log entry 6). A job that reads no input ends at once (R554, R557). -/
def execHankJobTake (codec : Fin 9) (s : State) : Host.Outcome State Fault Refusal :=
  let k := codec.val
  let jr := s.getF (hkB k) F.HK_JOB_RING_RING
  .next (if !s.clk 4 || !s.flag (hkB k) F.HK_CTRL_EN || s.avail jr (hkB k) == 0 then s
    else
      match s.hkFree k with
      | none => s
      | some l =>
        let r := s.readEntry jr (hkB k) 0 k
        let s := r.1.take jr (hkB k) 1
        let m := match r.2 with
          | .ok e => s.hkMake k e
          | .error _ => (s.tickFree, { id := (Config.freeBits 64 s.freeCtr).toNat, status := some 7 })
        let s := (m.1.setJob k l m.2).hkShow k
        match m.2.status with
        | some st => s.hkEnd k l m.2 st
        | none => s)

/-- Jobs that have ended and wait for room on their result ring write their results as soon as it has room (R515, R523). -/
def State.hkRetry (s : State) : State :=
  forL s.hank (fun e t =>
    match e.2.status with
    | some st => if t.hkWaits (e.1 / 64) then t else t.hkEnd (e.1 / 64) (e.1 % 64) e.2 st
    | none => t) s

/-- HANK_BLOCK_DONE: a lane finishes a block of its job, and writes the result where that ends it (R547 to R560). -/
def execHankBlockDone (codec : Fin 9) (lane : Fin 32) (s : State) : Host.Outcome State Fault Refusal :=
  let k := codec.val
  let l := lane.val
  .next (match (if s.clk 4 then s.hkJob k l else none) with
    | none => s
    | some j =>
      let s := if j.status.isSome then s else if j.op = 1 then s.hkCompress k l j else s.hkDecode k l j
      match s.hkJob k l with
      | none => s
      | some j' =>
        match j'.status with
        | some st => s.hkEnd k l j' st
        | none => s)

/-- EN falls (R560): jobs that run finish their block and stop, also where EN rises again before; those not started stay on the
ring. -/
def State.hkStop (s : State) (k : Nat) : State :=
  let s := { s with hank := s.hank.map (fun (e : Nat × HankJob) =>
    if e.1 / 64 = k ∧ e.2.status.isNone then (e.1, { e.2 with stop := true }) else e) }
  (s.setF (hkB k) F.HK_CTRL_EN 0).hkRelease k

/-- HANK_DISABLE (R560). -/
def execHankDisable (codec : Fin 9) (s : State) : Host.Outcome State Fault Refusal :=
  .next (if s.flag (hkB codec) F.HK_CTRL_EN then s.hkStop codec else s)

end Sys2Proof.Machine
end

