-- ==== Sys2Proof/Machine/BootCrypto.lean ====
section
/-!
DEFINITION. The functions that cast-on checks an image with (11_cast_on R426, R427): SHA-384, ECDSA over P-384 and
AES-256-GCM. The spec names them and does not define them; their definitions are those of FIPS 180-4, FIPS 186-5, SP 800-186,
FIPS 197 and SP 800-38D (PRESUMED, log entry 5).
-/

namespace Sys2Proof.Machine

/-! ## SHA-384 -/

/-- The round constants: the first 64 bits of the fractions of the cube roots of the first 80 primes. -/
def sha5K : List Nat :=
  [0x428A2F98D728AE22, 0x7137449123EF65CD, 0xB5C0FBCFEC4D3B2F, 0xE9B5DBA58189DBBC] ++
  [0x3956C25BF348B538, 0x59F111F1B605D019, 0x923F82A4AF194F9B, 0xAB1C5ED5DA6D8118] ++
  [0xD807AA98A3030242, 0x12835B0145706FBE, 0x243185BE4EE4B28C, 0x550C7DC3D5FFB4E2] ++
  [0x72BE5D74F27B896F, 0x80DEB1FE3B1696B1, 0x9BDC06A725C71235, 0xC19BF174CF692694] ++
  [0xE49B69C19EF14AD2, 0xEFBE4786384F25E3, 0x0FC19DC68B8CD5B5, 0x240CA1CC77AC9C65] ++
  [0x2DE92C6F592B0275, 0x4A7484AA6EA6E483, 0x5CB0A9DCBD41FBD4, 0x76F988DA831153B5] ++
  [0x983E5152EE66DFAB, 0xA831C66D2DB43210, 0xB00327C898FB213F, 0xBF597FC7BEEF0EE4] ++
  [0xC6E00BF33DA88FC2, 0xD5A79147930AA725, 0x06CA6351E003826F, 0x142929670A0E6E70] ++
  [0x27B70A8546D22FFC, 0x2E1B21385C26C926, 0x4D2C6DFC5AC42AED, 0x53380D139D95B3DF] ++
  [0x650A73548BAF63DE, 0x766A0ABB3C77B2A8, 0x81C2C92E47EDAEE6, 0x92722C851482353B] ++
  [0xA2BFE8A14CF10364, 0xA81A664BBC423001, 0xC24B8B70D0F89791, 0xC76C51A30654BE30] ++
  [0xD192E819D6EF5218, 0xD69906245565A910, 0xF40E35855771202A, 0x106AA07032BBD1B8] ++
  [0x19A4C116B8D2D0C8, 0x1E376C085141AB53, 0x2748774CDF8EEB99, 0x34B0BCB5E19B48A8] ++
  [0x391C0CB3C5C95A63, 0x4ED8AA4AE3418ACB, 0x5B9CCA4F7763E373, 0x682E6FF3D6B2B8A3] ++
  [0x748F82EE5DEFB2FC, 0x78A5636F43172F60, 0x84C87814A1F0AB72, 0x8CC702081A6439EC] ++
  [0x90BEFFFA23631E28, 0xA4506CEBDE82BDE9, 0xBEF9A3F7B2C67915, 0xC67178F2E372532B] ++
  [0xCA273ECEEA26619C, 0xD186B8C721C0C207, 0xEADA7DD6CDE0EB1E, 0xF57D4F7FEE6ED178] ++
  [0x06F067AA72176FBA, 0x0A637DC5A2C898A6, 0x113F9804BEF90DAE, 0x1B710B35131C471B] ++
  [0x28DB77F523047D84, 0x32CAAB7B40C72493, 0x3C9EBE0A15C9BEBC, 0x431D67C49C100D4C] ++
  [0x4CC5D4BECB3E42B6, 0x597F299CFC657E2A, 0x5FCB6FAB3AD6FAEC, 0x6C44198C4A475817]

/-- The initial hash value: the first 64 bits of the fractions of the square roots of the 9th to 16th primes. -/
def sha384H0 : List Nat :=
  [0xCBBB9D5DC1059ED8, 0x629A292A367CD507, 0x9159015A3070DD17, 0x152FECD8F70E5939] ++
  [0x67332667FFC00B31, 0x8EB44A8768581511, 0xDB0C2E0D64F98FA7, 0x47B5481DBEFA4FA4]

/-- Rotate a 64-bit word right. -/
def rotr64 (x n : Nat) : Nat := x / 2 ^ n + x * 2 ^ (64 - n) % 2 ^ 64

def sha5s0 (x : Nat) : Nat := rotr64 x 1 ^^^ rotr64 x 8 ^^^ x / 2 ^ 7
def sha5s1 (x : Nat) : Nat := rotr64 x 19 ^^^ rotr64 x 61 ^^^ x / 2 ^ 6
def sha5B0 (x : Nat) : Nat := rotr64 x 28 ^^^ rotr64 x 34 ^^^ rotr64 x 39
def sha5B1 (x : Nat) : Nat := rotr64 x 14 ^^^ rotr64 x 18 ^^^ rotr64 x 41

/-- Extend the 16 words of a block by `n` more; the list is kept newest first. -/
def sha5Extend : Nat → List Nat → List Nat
  | 0, w => w
  | n + 1, w =>
    sha5Extend n ((sha5s1 (w.getD 1 0) + w.getD 6 0 + sha5s0 (w.getD 14 0) + w.getD 15 0) % 2 ^ 64 :: w)

/-- One round on the eight working words. -/
def sha5Round (v : List Nat) (kw : Nat) : List Nat :=
  match v with
  | [a, b, c, d, e, f, g, h] =>
    let t1 := h + sha5B1 e + ((e &&& f) ^^^ ((2 ^ 64 - 1 - e) &&& g)) + kw
    let t2 := sha5B0 a + ((a &&& b) ^^^ (a &&& c) ^^^ (b &&& c))
    [(t1 + t2) % 2 ^ 64, a, b, c, (d + t1) % 2 ^ 64, e, f, g]
  | _ => v

/-- The 16 words of a block of 128 bytes. -/
def words64 (blk : List Byte) : List Nat := (List.range 16).map (fun i => beAt blk (8 * i) 8)

/-- One block of 128 bytes. -/
def sha5Block (hs : List Nat) (blk : List Byte) : List Nat :=
  let w := (sha5Extend 64 (words64 blk).reverse).reverse
  let v := (List.zipWith (fun k x => k + x) sha5K w).foldl sha5Round hs
  List.zipWith (fun x y => (x + y) % 2 ^ 64) hs v

/-- The blocks of a message, `n` of them. -/
def sha5Blocks : Nat → List Nat → List Byte → List Nat
  | 0, hs, _ => hs
  | n + 1, hs, bs => sha5Blocks n (sha5Block hs (bs.take 128)) (bs.drop 128)

/-- SHA-384. -/
def sha384 (bs : List Byte) : List Byte :=
  let m := bs ++ [0x80] ++ zeros ((239 - bs.length % 128) % 128) ++ be 16 (8 * bs.length)
  ((sha5Blocks (m.length / 128) sha384H0 m).take 6).flatMap (be 8)

/-! ## ECDSA over P-384 -/

def p384 : Nat := 2 ^ 384 - 2 ^ 128 - 2 ^ 96 + 2 ^ 32 - 1
def p384n : Nat :=
  0xFFFFFFFFFFFFFFFFFFFFFFFFFFFFFFFFFFFFFFFFFFFFFFFFC7634D81F4372DDF581A0DB248B0A77AECEC196ACCC52973
def p384b : Nat :=
  0xB3312FA7E23EE7E4988E056BE3F82D19181D9C6EFE8141120314088F5013875AC656398D8A2ED19D2A85C8EDD3EC2AEF
def p384gx : Nat :=
  0xAA87CA22BE8B05378EB1C71EF320AD746E1D3B628BA79B9859F741E082542A385502F25DBF55296C3A545E3872760AB7
def p384gy : Nat :=
  0x3617DE4A96262C6F5D9E98BF9292DC29F8F41DBD289A147CE9DA3113B5F0B8C00A60B1CE1D7E819D7A431D7C90EA0E5F

/-- `a ^ e mod m` over the bits of `e`, most significant first. -/
def powMod (m a e bitsN : Nat) : Nat :=
  ((List.range bitsN).reverse).foldl (fun r i => let q := r * r % m; if e / 2 ^ i % 2 = 1 then q * a % m else q) 1

/-- The inverse modulo a prime of 384 bits. -/
def invMod (m a : Nat) : Nat := powMod m a (m - 2) 384

/-- The point at infinity is `none`. -/
abbrev Pt384 := Option (Nat × Nat)

/-- The sum of two points of the curve y² = x³ − 3x + b. -/
def ptAdd : Pt384 → Pt384 → Pt384
  | none, q => q
  | p, none => p
  | some (x1, y1), some (x2, y2) =>
    if x1 = x2 ∧ (y1 + y2) % p384 = 0 then none
    else
      let l :=
        if x1 = x2 then (3 * x1 * x1 + (p384 - 3)) * invMod p384 (2 * y1 % p384) % p384
        else (y2 + p384 - y1) * invMod p384 ((x2 + p384 - x1) % p384) % p384
      let x3 := (l * l + 2 * p384 - x1 - x2) % p384
      some (x3, (l * (x1 + p384 - x3) + p384 - y1) % p384)

/-- The multiple of a point. -/
def ptMul (k : Nat) (p : Pt384) : Pt384 :=
  ((List.range 384).reverse).foldl (fun r i => let d := ptAdd r r; if k / 2 ^ i % 2 = 1 then ptAdd d p else d) none

/-- Whether an uncompressed public key is a point of the curve. -/
def keyPoint (key : List Byte) : Pt384 :=
  let x := beAt key 1 48
  let y := beAt key 49 48
  if key.length = 97 ∧ beAt key 0 1 = 4 ∧ x < p384 ∧ y < p384 ∧ y * y % p384 = (x * x * x + (p384 - 3) * x + p384b) % p384 then
    some (x, y)
  else none

/-- Whether the signature r ‖ s verifies under a key over a hash of 48 bytes. -/
def ecdsaOk (key sig hash : List Byte) : Bool :=
  let r := beAt sig 0 48
  let v := beAt sig 48 48
  match keyPoint key with
  | none => false
  | some q =>
    if r = 0 ∨ p384n ≤ r ∨ v = 0 ∨ p384n ≤ v then false
    else
      let w := invMod p384n v
      let u1 := beVal hash * w % p384n
      let u2 := r * w % p384n
      match ptAdd (ptMul u1 (some (p384gx, p384gy))) (ptMul u2 (some q)) with
      | none => false
      | some (x, _) => x % p384n == r

/-! ## AES-256-GCM -/

/-- The product of two bytes in the field of AES. -/
def aesMul (a b : Nat) : Nat :=
  (List.range 8).foldl (fun r i =>
    let x := (List.range i).foldl (fun y _ => if 128 ≤ y then (2 * y) % 256 ^^^ 0x1B else 2 * y) a
    if bit b i then r ^^^ x else r) 0

/-- The S-box: the inverse a^254, and the affine map. -/
def aesSbox (a : Nat) : Nat :=
  let inv := (List.range 253).foldl (fun r _ => aesMul r a) a
  let rot := fun (n : Nat) => (inv * 2 ^ n) % 256 + inv / 2 ^ (8 - n)
  inv ^^^ rot 1 ^^^ rot 2 ^^^ rot 3 ^^^ rot 4 ^^^ 0x63

/-- The S-box as a table. -/
def aesTable : List Nat := (List.range 256).map aesSbox

def aesSub (t : List Nat) (b : Nat) : Nat := t.getD b 0

/-- The words of the key schedule, each four bytes, newest first: `n` more. -/
def aesExpand (t : List Nat) : Nat → Nat → List (List Nat) → List (List Nat)
  | 0, _, w => w
  | n + 1, i, w =>
    let last := w.headD []
    let x :=
      if i % 8 = 0 then
        match last with
        | [a, b, c, d] => [aesSub t b ^^^ 2 ^ (i / 8 - 1), aesSub t c, aesSub t d, aesSub t a]
        | _ => last
      else if i % 8 = 4 then last.map (aesSub t)
      else last
    aesExpand t n (i + 1) (List.zipWith (· ^^^ ·) x (w.getD 7 []) :: w)

/-- The 15 round keys of 16 bytes. -/
def aesKeys (t : List Nat) (key : List Byte) : List (List Nat) :=
  let w0 := (List.range 8).map (fun i => (sliceB key (4 * i) 4).map BitVec.toNat)
  let w := (aesExpand t 52 8 w0.reverse).reverse
  (List.range 15).map (fun r => ((w.drop (4 * r)).take 4).flatten)

/-- Byte `i` moves from its row's shifted place. -/
def aesShift (v : List Nat) : List Nat := (List.range 16).map (fun i => v.getD ((i + 4 * (i % 4)) % 16) 0)

/-- Mix one column. -/
def aesMix (v : List Nat) : List Nat :=
  (List.range 16).map (fun i =>
    let c := i / 4 * 4
    let g := fun (k : Nat) => v.getD (c + (i + k) % 4) 0
    aesMul (g 0) 2 ^^^ aesMul (g 1) 3 ^^^ g 2 ^^^ g 3)

/-- AES-256 of one block. -/
def aesBlock (t : List Nat) (ks : List (List Nat)) (blk : List Nat) : List Nat :=
  let v0 := List.zipWith (· ^^^ ·) blk (ks.headD [])
  let v := ((ks.drop 1).take 13).foldl (fun v k => List.zipWith (· ^^^ ·) (aesMix (aesShift (v.map (aesSub t)))) k) v0
  List.zipWith (· ^^^ ·) (aesShift (v.map (aesSub t))) (ks.getD 14 [])

/-- The product of GHASH, on 128-bit numbers whose most significant bit is bit 0 of the standard. -/
def ghMul (x y : Nat) : Nat :=
  ((List.range 128).foldl (fun (e : Nat × Nat) i =>
    (if bit x (127 - i) then e.1 ^^^ e.2 else e.1, if e.2 % 2 = 1 then e.2 / 2 ^^^ 0xE1 * 2 ^ 120 else e.2 / 2)) (0, y)).1

/-- Blocks of 16 bytes as numbers, the last filled with zeros. -/
def blocks16 : Nat → List Byte → List Nat
  | 0, _ => []
  | n + 1, bs => if bs.isEmpty then [] else beVal (padTo 16 bs) :: blocks16 n (bs.drop 16)

/-- Decrypt with AES-256-GCM, a 12-byte IV and no additional data: the plaintext where the tag verifies. -/
def gcmOpen (key iv ct tag : List Byte) : Option (List Byte) :=
  let t := aesTable
  let ks := aesKeys t key
  let enc := fun (n : Nat) => aesBlock t ks ((be 16 n).map BitVec.toNat)
  let num := fun (v : List Nat) => v.foldl (fun a b => a * 256 + b) 0
  let h := num (enc 0)
  let j0 := beVal iv * 2 ^ 32 + 1
  let g := (blocks16 (ct.length + 1) ct ++ [8 * ct.length]).foldl (fun y b => ghMul (y ^^^ b) h) 0
  if (g ^^^ num (enc j0)) = beVal tag then
    let stream := (List.range (ct.length / 16 + 1)).flatMap (fun i => enc (j0 + 1 + i))
    some (List.zipWith (fun (c : Byte) (k : Nat) => c ^^^ BitVec.ofNat 8 k) ct stream)
  else none

end Sys2Proof.Machine
end

