-- ==== Sys2Proof/Machine/Flash.lean ====
section
/-!
DEFINITION. The boot flash (11_cast_on R423 to R425): its bytes, and the operations of the XSPI registers. The commands
XSPI_READ, XSPI_PROGRAM, XSPI_ERASE and XSPI_DONE.
-/

namespace Sys2Proof.Machine

/-- The place of a flash byte: chip select 0 holds image A, 1 image B. -/
def flashKey (cs addr : Nat) : Nat := cs * 2 ^ 32 + addr % 2 ^ 32

/-- The canonical form of the flash: places strictly rising, no byte listed that reads as an erased one. -/
def Flash.wf (t : List (Nat × Byte)) : Bool := Tab.rising t && t.all (fun c => c.2 != 0xFF)

/-- A byte of the flash. A byte that nothing has written, or that has been erased, reads 0xFF (PRESUMED, log entry 27). -/
def State.flashGet (s : State) (cs addr : Nat) : Byte := Tab.get 0xFF (flashKey cs addr) s.flash

/-- `n` bytes of the flash. -/
def State.flashGets (s : State) (cs addr n : Nat) : List Byte := (List.range n).map (fun i => s.flashGet cs (addr + i))

/-- Write bytes to the flash. -/
def flashPuts (cs : Nat) : Nat → List Byte → List (Nat × Byte) → List (Nat × Byte)
  | _, [], t => t
  | a, b :: bs, t => flashPuts cs (a + 1) bs (Tab.putD 0xFF (flashKey cs a) b t)

/-- Clear the 64 KiB sectors that the range touches (R425). -/
def flashErase (cs addr len : Nat) (t : List (Nat × Byte)) : List (Nat × Byte) :=
  t.filter (fun e => e.1 / 2 ^ 32 != cs || decide (e.1 % 2 ^ 32 / 0x10000 < addr / 0x10000) ||
    decide ((addr + len + 0xFFFF) / 0x10000 ≤ e.1 % 2 ^ 32 / 0x10000))

/-! ## The commands on its bus (R423, R424) -/

/-- A read of the flash as the header `h` sets it up: in 8D-8D-8D with OCT_RD, or in 1S-1S-1S. -/
def flashRead (cs : Nat) (h : List Byte) (addr : Nat) : Out :=
  if leAt h 6 1 = 1 then .flash cs true (sliceB h 0x11 1 ++ be 4 addr) (leAt h 0x12 1) else .flash cs false (0x0C :: be 4 addr) 8

/-- Pages of bytes from a flash address: each ends at a multiple of 256. -/
def flashPages (addr : Nat) (bs : List Byte) : List (Nat × List Byte) :=
  (List.range ((addr % 256 + bs.length + 255) / 256)).map (fun i =>
    let first := i * 256 - addr % 256
    (addr + first, (bs.drop first).take (i * 256 + 256 - addr % 256 - first)))

/-- The commands that program bytes, in 1S-1S-1S: for each page write enable and page program with a four-byte address (R423;
the codes are PRESUMED, log entry 27). -/
def flashProgs (cs addr : Nat) (bs : List Byte) : List Out :=
  (flashPages addr bs).flatMap (fun p => [.flash cs false [0x06] 0, .flash cs false (0x12 :: be 4 p.1 ++ p.2) 0])

/-- The commands that erase the sectors of a range, in 1S-1S-1S (R423, R425; the codes are PRESUMED, log entry 27). -/
def flashErases (cs addr len : Nat) : List Out :=
  (List.range ((addr + len + 0xFFFF) / 0x10000 - addr / 0x10000)).flatMap (fun i =>
    [.flash cs false [0x06] 0, .flash cs false (0xDC :: be 4 ((addr / 0x10000 + i) * 0x10000)) 0])

/-- An operation starts (R425): 0 read copies flash to memory, 1 program copies memory to flash, 2 erase. An error of memory
shows in ERR. -/
def State.xspiGo (s : State) (op : Nat) : State :=
  let cs := s.getF fuseB F.XSPI_CTRL_CS
  let a := s.getF fuseB F.XSPI_ADDR_ADDR
  let n := s.getF fuseB F.XSPI_LEN_LEN
  let m := s.getF fuseB F.XSPI_MEM_ADDR
  let s := s.setF fuseB F.XSPI_STATUS_BUSY 1
  if op = 0 then
    let s := s.emit (flashRead cs (s.flashGets cs 0 256) a)
    let r := s.memWrite 2 (blockUnit fuseB) m (s.flashGets cs a n)
    if r.2.isSome then r.1.mark fuseB F.XSPI_STATUS_ERR else r.1
  else if op = 1 then
    let r := s.memRead 2 (blockUnit fuseB) m n
    match r.2 with
    | .ok bs => { r.1.emits (flashProgs cs a bs) with flash := flashPuts cs a bs r.1.flash }
    | .error _ => r.1.mark fuseB F.XSPI_STATUS_ERR
  else { s.emits (flashErases cs a n) with flash := flashErase cs a n s.flash }

/-- The status of a GO of the flash (R425), for a role. -/
def State.xspiStatus (s : State) (op role : Nat) : Nat :=
  if op ≠ 0 ∧ role < 3 then stNotPermitted
  else if s.flag fuseB F.XSPI_STATUS_BUSY then stBusy
  else if op = 2 ∧ s.getF fuseB F.XSPI_ADDR_ADDR % 0x10000 ≠ 0 then stBadParam
  else stOk

/-- A GO with an operation, written by a service session. -/
def State.xspiRow (s : State) (op : Nat) : State :=
  if s.boot.step = 10 ∧ s.domOn 91 ∧ s.xspiStatus op 3 = stOk then (s.setF fuseB F.XSPI_CTRL_OP op).xspiGo op else s

/-- XSPI_READ: GO with OP read (R425). -/
def execXspiRead (s : State) : Host.Outcome State Fault Refusal := .next (s.xspiRow 0)

/-- XSPI_PROGRAM: GO with OP program, of a service session (R425). -/
def execXspiProgram (s : State) : Host.Outcome State Fault Refusal := .next (s.xspiRow 1)

/-- XSPI_ERASE: GO with OP erase, of a service session (R425). -/
def execXspiErase (s : State) : Host.Outcome State Fault Refusal := .next (s.xspiRow 2)

/-- XSPI_DONE: the operation under way ends (R425, R450); `err` for a flash error. -/
def execXspiDone (err : Bool) (s : State) : Host.Outcome State Fault Refusal :=
  .next (if s.flag fuseB F.XSPI_STATUS_BUSY then
      let s := (s.setF fuseB F.XSPI_STATUS_BUSY 0).mark fuseB F.XSPI_STATUS_DONE
      if err then s.mark fuseB F.XSPI_STATUS_ERR else s
    else s)

end Sys2Proof.Machine
end

