-- ==== Sys2Proof/Machine/Panel.lean ====
section
/-!
DEFINITION. The operator panel and the DisplayPort link (17_views_panel R618 to R620, R623 to R628): touch, host bus
transfers, keys, LEDs, buzzer, the panel ring, and the link's training. The commands HPD_PLUG to BUZ_PHASE_END.
-/

namespace Sys2Proof.Machine

/-- An event of the panel ring (R628): its entry waits for the end of its PSCLK cycle. -/
def State.pnlEvent (s : State) (kind index code : Nat) (touch : List Byte) : State :=
  if s.flag pnlB F.PNL_RING_EN then
    let item := [BitVec.ofNat 8 kind, BitVec.ofNat 8 index, BitVec.ofNat 8 code, BitVec.ofNat 8 touch.length] ++ zeros 4 ++
      le 8 s.sec ++ le 4 s.ns ++ zeros 4 ++ le 8 (s.viewOf 255) ++ padTo 32 touch
    { s with pnl := { s.pnl with due := s.pnl.due ++ [(kind, index, item)] } }
  else s

/-- The entries of a PSCLK cycle are written, in ascending KIND, then ascending INDEX (R628). -/
def State.pnlFlush (s : State) : State :=
  let due := sortKey (fun (e : Nat × Nat × List Byte) => (e.1, e.2.1)) s.pnl.due
  forL due (fun e t => (t.ringPush (t.getF pnlB F.PNL_RING_RING) e.2.2).1) { s with pnl := { s.pnl with due := [] } }

/-! ## The bus -/

def State.setPnl (s : State) (p : Panel) : State := { s with pnl := p }

/-- The bytes of I2C_DATA from byte 0 on. -/
def State.i2cBytes (s : State) (n : Nat) : List Byte :=
  (((List.range 8).map (fun k => le 4 (s.getF pnlB (F.I2C_DATA_DATA.nth k)))).flatten).take n

/-- Start what waits for the panel bus: a touch read first (R624). -/
def State.pnlNext (s : State) : State :=
  if s.pnl.bus ≠ 0 then s
  else if s.pnl.touchDue then
    let s := s.setPnl { s.pnl with bus := 1, touchDue := false }
    s.emit (.i2c (s.getF pnlB F.PNL_TOUCH_TOUCH_ADDR) [BitVec.ofNat 8 (s.getF pnlB F.PNL_TOUCH_TOUCH_REG)]
      (s.getF pnlB F.PNL_TOUCH_TOUCH_LEN))
  else if s.pnl.hostDue then
    let s := s.setPnl { s.pnl with bus := 2, hostDue := false }
    s.emit (.i2c (s.getF pnlB F.I2C_CMD_ADDR) (s.i2cBytes (s.getF pnlB F.I2C_CMD_WLEN)) (s.getF pnlB F.I2C_CMD_RLEN))
  else s

/-- TOUCH_READ: PNL_INT is low, and a touch read falls due (R623). -/
def execTouchRead (s : State) : Host.Outcome State Fault Refusal :=
  .next (if s.domOn 91 && s.flag pnlB F.PNL_TOUCH_TOUCH_EN && s.pnl.bus != 1 then
    (s.setPnl { s.pnl with touchDue := true }).pnlNext
  else s)

/-- TOUCH_READ_DONE: a touch read ends: an entry with its bytes, or TOUCH_NACK (R623, R628). -/
def execTouchReadDone (ack : Bool) (bytes : List Byte) (s : State) : Host.Outcome State Fault Refusal :=
  .next (if s.pnl.bus = 1 then
    let s := s.setPnl { s.pnl with bus := 0 }
    let s := if ack then s.pnlEvent 1 0 0 (bytes.take (s.getF pnlB F.PNL_TOUCH_TOUCH_LEN))
      else s.satF pnlB F.TOUCH_NACK_COUNT 1
    s.pnlNext
  else s)

/-- Whether a write of I2C_CMD may act (R624, R631). -/
def State.i2cStatus (s : State) (wlen rlen : Nat) : Nat :=
  if 32 < wlen ∨ 32 < rlen then stBadParam
  else if s.flag pnlB F.I2C_STATUS_BUSY then stBusy
  else 0

/-- Start a host transfer (R624). -/
def State.i2cStart (s : State) (addr wlen rlen : Nat) : State :=
  let s := ((s.setF pnlB F.I2C_CMD_ADDR addr).setF pnlB F.I2C_CMD_WLEN wlen).setF pnlB F.I2C_CMD_RLEN rlen
  ((s.setF pnlB F.I2C_STATUS_BUSY 1).setPnl { s.pnl with hostDue := true }).pnlNext

/-- I2C_CMD: a write of I2C_CMD starts a host transfer (R624). -/
def execI2cCmd (addr : BitVec 7) (wlen : BitVec 6) (rlen : BitVec 6) (s : State) : Host.Outcome State Fault Refusal :=
  .next (if s.domOn 91 && s.i2cStatus wlen.toNat rlen.toNat == 0 then s.i2cStart addr.toNat wlen.toNat rlen.toNat else s)

/-- Put bytes into I2C_DATA from byte 0 on. -/
def State.i2cPut (s : State) (bs : List Byte) : State :=
  forN bs.length (fun i t =>
    let f := F.I2C_DATA_DATA.nth (i / 4)
    let w := t.getF pnlB f
    let old := w / 2 ^ (8 * (i % 4)) % 256
    t.setF pnlB f (w - old * 2 ^ (8 * (i % 4)) + ((bs.getD i 0).toNat) * 2 ^ (8 * (i % 4)))) s

/-- I2C_DONE: a host transfer ends, with DONE or NACK (R624). -/
def execI2cDone (ack : Bool) (bytes : List Byte) (s : State) : Host.Outcome State Fault Refusal :=
  .next (if s.pnl.bus = 2 then
    let s := (s.setPnl { s.pnl with bus := 0 }).setF pnlB F.I2C_STATUS_BUSY 0
    let s := if ack then (s.i2cPut (bytes.take (s.getF pnlB F.I2C_CMD_RLEN))).mark pnlB F.I2C_STATUS_DONE
      else s.mark pnlB F.I2C_STATUS_NACK
    s.pnlNext
  else s)

/-! ## Keys, LEDs, buzzer -/

/-- One sample of key `k` at pin level `high` (R625). -/
def State.keyOne (s : State) (k : Nat) (high : Bool) : State :=
  let active := high == bit (s.getF pnlB F.KEY_CFG_KEY_POL) k
  let st := s.getF pnlB F.KEY_STATE_ACTIVE
  if active == bit st k then s.setPnl { s.pnl with keyCnt := Tab.putD 0 k 0 s.pnl.keyCnt }
  else
    let n := Tab.get 0 k s.pnl.keyCnt + 1
    if n < s.getF pnlB F.KEY_CFG_DEB then s.setPnl { s.pnl with keyCnt := Tab.putD 0 k n s.pnl.keyCnt }
    else
      let s := s.setPnl { s.pnl with keyCnt := Tab.putD 0 k 0 s.pnl.keyCnt }
      let s := s.setF pnlB F.KEY_STATE_ACTIVE (if active then setBit st k else clrBit st k)
      let s := if active then s.fire (0x70 + k) else s
      s.pnlEvent 2 k (if active then 1 else 0) []

/-- KEY_SAMPLE: the keys are sampled, every 0.5 ms (R625). -/
def execKeySample (levels : BitVec 16) (s : State) : Host.Outcome State Fault Refusal :=
  .next (if s.domOn 91 then forN 16 (fun k t => t.keyOne k (bit levels.toNat k)) s else s)

/-- The mode field of LED `k`. -/
def ledF (k : Nat) : Fld := { F.LED_MODE_MODE_0 with hi := 2 * k + 1, lo := 2 * k }

/-- Drive LED `k` by its mode (R626). -/
def State.ledDrive (s : State) (k : Nat) : State :=
  let m := s.getF pnlB (ledF k)
  s.emit (.level (.led k) (if m = 0 then false else if m = 1 then true else if m = 2 then s.pnl.slowOn else s.pnl.fastOn))

/-- LED_BLINK_TOGGLE: the 1 Hz phase, or with `fast` the 4 Hz phase, toggles (R626). -/
def execLedBlinkToggle (fast : Bool) (s : State) : Host.Outcome State Fault Refusal :=
  .next (if s.domOn 91 then
    let p := s.pnl
    let s := s.setPnl (if fast then { p with fastOn := !p.fastOn } else { p with slowOn := !p.slowOn })
    forN 16 (fun k t => if t.getF pnlB (ledF k) = (if fast then 3 else 2) then t.ledDrive k else t) s
  else s)

/-- BUZ carries a square wave at BUZ_HZ (R627). -/
def State.buzSound (s : State) : State := s.emit (.wave .buzzer (s.getF pnlB F.BUZ_CFG_BUZ_HZ) 1)

/-- The buzzer's pattern starts from its beginning (R627). -/
def State.buzStart (s : State) : State :=
  (s.setPnl { s.pnl with buz := 1, buzLeft := s.getF pnlB F.BUZ_CFG_BUZ_REP, buzAt := some s.now }).buzSound

/-- The buzzer is silenced (R627). A start in the same cycle is taken after the stop, so its pattern goes on. -/
def State.buzStop (s : State) : State :=
  if s.pnl.buzAt = some s.now then s else (s.setPnl { s.pnl with buz := 0, buzLeft := 0 }).emit (.level .buzzer false)

/-- BUZ_START: START is written 1 (R627). -/
def execBuzStart (s : State) : Host.Outcome State Fault Refusal := .next (if s.domOn 91 then s.buzStart else s)

/-- BUZ_STOP: STOP is written 1 (R627). -/
def execBuzStop (s : State) : Host.Outcome State Fault Refusal := .next (if s.domOn 91 then s.buzStop else s)

/-- BUZ_PHASE_END: the end of a BUZ_ON or BUZ_OFF interval (R627). -/
def execBuzPhaseEnd (s : State) : Host.Outcome State Fault Refusal :=
  .next (
    if s.pnl.buz = 1 then (s.setPnl { s.pnl with buz := 2 }).emit (.level .buzzer false)
    else if s.pnl.buz = 2 then
      if s.pnl.buzLeft = 1 then s.setPnl { s.pnl with buz := 0, buzLeft := 0 }
      else (s.setPnl { s.pnl with buz := 1, buzLeft := s.pnl.buzLeft - 1 }).buzSound
    else s)

/-- PNL_ACK (R626, R627): blinking LEDs of ACK_MASK turn on, and the buzzer is silenced. -/
def State.pnlAck (s : State) : State :=
  let s := forN 16 (fun k t =>
    if bit (t.getF pnlB F.LED_ACK_MASK_ACK_MASK) k && decide (2 ≤ t.getF pnlB (ledF k)) then
      (t.setF pnlB (ledF k) 1).ledDrive k
    else t) s
  s.buzStop

/-! ## The DisplayPort link -/

/-- The bit rate of a rate code in kb/s per lane: RBR, HBR, HBR2, HBR3 (R618). -/
def dpKbps (r : Nat) : Nat := if r = 1 then 1620000 else if r = 2 then 2700000 else if r = 3 then 5400000 else 8100000

/-- The settings in the order they are tried: rates from the highest, lane counts from the highest at each rate
(R619). -/
def dpSettings (rate lanes : Nat) : List (Nat × Nat) :=
  ([4, 3, 2, 1].filter (fun r => decide (r ≤ rate))).flatMap (fun r =>
    ([4, 2, 1].filter (fun l => decide (l ≤ lanes))).map (fun l => (r, l)))

/-- A display mode: pixel clock in kHz; active pixels, total, start and width of the sync; the same of the lines (R620, R630). -/
structure DpMode where
  khz : Nat
  ha : Nat
  ht : Nat
  hs : Nat
  hw : Nat
  va : Nat
  vt : Nat
  vs : Nat
  vw : Nat
  deriving DecidableEq, Repr

/-- The numbers of a mode in order. -/
def DpMode.nums (m : DpMode) : List Nat := [m.khz, m.ha, m.ht, m.hs, m.hw, m.va, m.vt, m.vs, m.vw]

/-- Whether a mode is within 3840 × 2160, 60 Hz and 600 MHz (R618; log entry 40). -/
def DpMode.ok (m : DpMode) : Bool :=
  decide (m.khz ≤ 600000) && decide (m.ha ≤ 3840) && decide (m.va ≤ 2160) && decide (m.khz * 1000 ≤ 60 * (m.ht * m.vt))

/-- The first detailed timing of an EDID (bytes 54 to 71); none where the EDID has none. PRESUMED from the EDID standard (log
entry 8). -/
def edidTiming (e : List Byte) : Option DpMode :=
  let b := fun (i : Nat) => leAt e i 1
  let khz := 10 * leAt e 54 2
  if e.length < 128 ∨ khz = 0 then none
  else
    let ha := b 56 + b 58 / 16 * 256
    let va := b 59 + b 61 / 16 * 256
    some
      { khz := khz, ha := ha, ht := ha + (b 57 + b 58 % 16 * 256)
        hs := ha + (b 62 + b 65 / 64 * 256), hw := b 63 + b 65 / 16 % 4 * 256
        va := va, vt := va + (b 60 + b 61 % 16 * 256)
        vs := va + (b 64 / 16 + b 65 / 4 % 4 * 16), vw := b 64 % 16 + b 65 % 4 * 16 }

/-- 1920 × 1080 at 60 Hz, with the totals and syncs of the reset values (R620, R630). -/
def mode1080 : DpMode := ⟨148500, 1920, 2200, 2008, 44, 1080, 1125, 1084, 5⟩

/-- The mode (R620). -/
def State.dpMode (s : State) : DpMode :=
  if s.flag dpB F.DP_CTRL_AUTO then
    match edidTiming s.dpMon.edid with
    | some m => if m.ok then m else mode1080
    | none => mode1080
  else
    { khz := s.getF dpB F.DP_PCLK_KHZ
      ha := s.getF dpB F.DP_H_H_ACTIVE, ht := s.getF dpB F.DP_H_H_TOTAL
      hs := s.getF dpB F.DP_HS_H_SSTART, hw := s.getF dpB F.DP_HS_H_SWIDTH
      va := s.getF dpB F.DP_V_V_ACTIVE, vt := s.getF dpB F.DP_V_V_TOTAL
      vs := s.getF dpB F.DP_VS_V_SSTART, vw := s.getF dpB F.DP_VS_V_SWIDTH }

/-- The link is not trained, and output stops. -/
def State.dpDown (s : State) : State :=
  let s := if s.flag dpB F.DP_STATUS_TRAINED then s.emit (.video []) else s
  ((s.setF dpB F.DP_STATUS_TRAINED 0).setF dpB F.DP_STATUS_RATE 0).setF dpB F.DP_STATUS_LANES 0

/-- Train the link (R619, R620): the first setting that trains and carries 24 bits a pixel over 8b/10b; output of the mode
follows. -/
def State.dpTrain (s : State) : State :=
  let s := s.dpDown
  let m := s.dpMon
  let mode := s.dpMode
  let ok := (dpSettings m.rate m.lanes).filter (fun x => m.trains.contains x)
  match ok.find? (fun x => mode.ok && decide (mode.khz * 24 ≤ dpKbps x.1 * x.2 * 8 / 10)) with
  | some (r, l) =>
    let s := ((s.setF dpB F.DP_STATUS_TRAINED 1).setF dpB F.DP_STATUS_RATE r).setF dpB F.DP_STATUS_LANES l
    ((s.setF dpB F.DP_STATUS_MODE_FAIL 0).emit (.video mode.nums)).pnlEvent 3 0 2 []
  | none =>
    let s := if ok.isEmpty then s.mark dpB F.DP_EVENT_TRAIN_FAIL_EV else s.setF dpB F.DP_STATUS_MODE_FAIL 1
    s.pnlEvent 3 0 3 []

/-- What the monitor supports and the settings its link trains at. -/
def monitorOf (rate lanes : Nat) (edid : List Byte) (trains : List (Fin 5 × Fin 5)) : Monitor :=
  { rate := rate, lanes := lanes, edid := edid, trains := trains.map (fun x => (x.1.val, x.2.val)) }

/-- HPD_PLUG: HPD has been high for 100 ms: DPCD and EDID are read and the link is trained (R619). -/
def execHpdPlug (maxRate : Fin 5) (maxLanes : Fin 5) (edid : List Byte) (trains : List (Fin 5 × Fin 5)) (s : State) :
    Host.Outcome State Fault Refusal :=
  .next (if s.domOn 94 && !s.flag dpB F.DP_STATUS_HPD then
    let s := { s with dpMon := monitorOf maxRate.val maxLanes.val edid trains }
    let s := (s.setF dpB F.DP_STATUS_HPD 1).raise dpB F.DP_EVENT_PLUG_EV 0xF2
    let s := s.pnlEvent 3 0 1 []
    if s.flag dpB F.DP_CTRL_EN then s.dpTrain else s
  else s)

/-- HPD_UNPLUG: HPD has been low for more than 2 ms: output stops (R619). -/
def execHpdUnplug (s : State) : Host.Outcome State Fault Refusal :=
  .next (if s.domOn 94 && s.flag dpB F.DP_STATUS_HPD then
    let s := ({ s with dpMon := {} }).dpDown
    let s := (s.setF dpB F.DP_STATUS_HPD 0).setF dpB F.DP_STATUS_MODE_FAIL 0
    (s.raise dpB F.DP_EVENT_UNPLUG_EV 0xF3).pnlEvent 3 0 0 []
  else s)

/-- IRQ_HPD: a low pulse of 0.25 to 2 ms: the link status is read, and a lost link is trained again (R619). -/
def execIrqHpd (linkLost : Bool) (trains : List (Fin 5 × Fin 5)) (s : State) : Host.Outcome State Fault Refusal :=
  .next (if s.domOn 94 && s.flag dpB F.DP_STATUS_HPD && s.flag dpB F.DP_CTRL_EN && linkLost then
    ({ s with dpMon := { s.dpMon with trains := trains.map (fun (x : Fin 5 × Fin 5) => (x.1.val, x.2.val)) } }).dpTrain
  else s)

end Sys2Proof.Machine
end

