-- ==== Sys2Proof/Machine/Marking.lean ====
section
/-!
DEFINITION. Marking (08_marking): the compare units (R316 to R328), the tag head (R329 to R345) and the cassette
exchange (R346 to R349). The commands CMP_ENABLE to CASS_EXCHANGE_TIMEOUT.
-/

namespace Sys2Proof.Machine

/-- Whether a re-run is loading or running, until its groups have drained: marking then drives no pins, consumes no count and
writes no ring entry (R315, R678). -/
def State.reRunning (s : State) : Bool :=
  s.getF repB F.RR_STATUS_RSTATE == 1 || s.getF repB F.RR_STATUS_RSTATE == 2 || !s.rep.rrLast.isEmpty

/-- Whether group `g` belongs to the bundle under re-run: its courses come from the journal alone (R678). -/
def State.rerunG (s : State) (g : Nat) : Bool := s.reRunning && (Tab.find g s.rep.rrLast).isSome

/-- An output of a compare unit or of the tag head: none in re-run mode (R315). -/
def State.markEmit (s : State) (o : Out) : State := if s.reRunning then s else s.emit o

/-- The position of channel `p`, signed. -/
def State.posCount (s : State) (p : Nat) : Int := s.getI (posB p) F.POS_COUNT_COUNT

/-- Whether channel `p` is valid. -/
def State.posValid (s : State) (p : Nat) : Bool := s.flag (posB p) F.POS_STATUS_VALID

/-! ## Compare units -/

/-- The record of compare unit `u`. -/
def State.c (s : State) (u : Nat) : Cmp := Tab.get {} u s.cmp

/-- Write a unit's record; CMP_NEXT and ENTRIES follow the list (R351). -/
def State.setC (s : State) (u : Nat) (c : Cmp) : State :=
  let s := { s with cmp := Tab.put u c s.cmp }
  let s := s.setI (cmpB u) F.CMP_NEXT_POS ((c.list.head?.map (·.1)).getD 0x7FFFFFFFFFFFFFFF)
  s.setF (cmpB u) F.CMP_STATUS_ENTRIES c.list.length

def State.cmpOn (s : State) (u : Nat) : Bool := s.flag (cmpB u) F.CMP_CTRL_EN

/-- CHWM of a unit (R316). -/
def State.chwm (s : State) (u : Nat) : Int := s.getI (cmpB u) F.CMP_HWM_CHWM

/-- The fire point of a position (R317). -/
def State.firePoint (s : State) (u : Nat) (pos : Int) : Int :=
  pos - Int.ofNat (s.getF (cmpB u) F.CMP_LEAD_CNT_LEAD_CNT)

/-- Insert an entry in ascending position, after entries of equal position (R320). -/
def cmpPlace (e : Int × Nat) : List (Int × Nat) → List (Int × Nat)
  | [] => [e]
  | x :: xs => if e.1 < x.1 then e :: x :: xs else x :: cmpPlace e xs

/-- The marking hold acts on unit `u` (R323). -/
def State.cmpHeld (s : State) (u : Nat) : Bool :=
  s.flag cmpG F.MARK_HOLD_CTRL_HOLD && s.flag (cmpB u) F.CMP_CTRL_HOLD_EN

/-- Write a fire-log entry (R328); a full ring discards it and raises FLOG_DROP. -/
def State.flog (s : State) (u : Nat) (e : Int × Nat) (flags : Nat) : State :=
  if s.flag (cmpB u) F.CMP_CTRL_FLOG_EN && !s.reRunning then
    let tagBit := if s.flag (cmpB u) F.CMP_CTRL_OUT_SEL then 8 else 0
    let item := le 8 e.2 ++ le 8 (ofInt 64 e.1) ++ le 8 (s.getF (cmpB u) F.CMP_HWM_CHWM) ++ le 8 s.sec ++ le 4 s.ns ++
      [BitVec.ofNat 8 u, BitVec.ofNat 8 (flags + tagBit)] ++ zeros 26
    let r := s.ringPush (s.getF (cmpB u) F.CMP_FLOG_RING_RING) item
    if r.2 then r.1 else r.1.satF (cmpB u) F.FLOG_DROP_COUNT 1
  else s

/-- Queue an automatic tag job (R342); TPL_LINES = 0 disables automatic jobs (R352). -/
def State.autoJob (s : State) (id : Nat) : State :=
  if s.getF thB F.TPL_CFG_TPL_LINES = 0 then s
  else if s.tag.autoQ.length < 64 then
    let j : TagJob :=
      { image := s.getF thB F.TPL_BASE_ADDR
        lines := s.getF thB F.TPL_CFG_TPL_LINES
        feedAfter := s.getF thB F.TPL_CFG_TPL_FEED
        id := id }
    { s with tag := { s.tag with autoQ := s.tag.autoQ ++ [j] } }
  else s.satF thB F.AUTO_DROP_COUNT 1

/-- Drive CMPO to its active or inactive level (R319). -/
def State.cmpPin (s : State) (u : Nat) (active : Bool) : State :=
  let s := s.setF (cmpB u) F.CMP_STATUS_ACTIVE (if active then 1 else 0)
  s.markEmit (.level (.cmpo u) (active != s.flag (cmpB u) F.CMP_CTRL_POL))

/-- One entry fires (R318, R319, R323, R327, R328): `extra` when another entry fired in the same cycle. -/
def State.cmpFireOne (s : State) (u : Nat) (extra : Bool) (e : Int × Nat) : State :=
  let s := s.satF (cmpB u) F.CMP_FIRES_COUNT 1
  let s := s.raise (cmpB u) F.CMP_STATUS_FIRE_EV (0x60 + u)
  let pin := !s.cmpHeld u && !s.flag (cmpB u) F.CMP_CTRL_OUT_SEL
  let merged := extra || (pin && (s.c u).pulseEnd.isSome)
  let s := if merged then s.satF (cmpB u) F.CMP_MERGE_COUNT 1 else s
  if s.cmpHeld u then (s.satF (cmpB u) F.CMP_HELD_COUNT 1).flog u e (1 + if merged then 4 else 0)
  else if s.flag (cmpB u) F.CMP_CTRL_OUT_SEL then
    let s := if s.reRunning then s else s.autoJob e.2
    s.flog u e (if merged then 4 else 0)
  else
    let s := if s.reRunning then s
      else
        let s := if (s.c u).pulseEnd.isSome then s else s.cmpPin u true
        s.setC u { s.c u with pulseEnd := some (s.now + 250 * s.getF (cmpB u) F.CMP_PULSE_PULSE_W) }
    s.flog u e (if merged then 4 else 0)

/-- Entries fire together: the first, then the extra ones. -/
def State.cmpFireAll (s : State) (u : Nat) : List (Int × Nat) → State
  | [] => s
  | e :: es => forL es (fun x t => t.cmpFireOne u true x) (s.cmpFireOne u false e)

/-- The entries of unit `u` whose fire points CHWM has reached fire and leave the list (R318). -/
def State.cmpScan (s : State) (u : Nat) : State :=
  let c := s.c u
  let due := c.list.takeWhile (fun e => decide (s.firePoint u e.1 ≤ s.chwm u))
  if due.isEmpty then s
  else (s.setC u { c with list := c.list.drop due.length }).cmpFireAll u due

/-- A cycle in which SRC of unit `u` is at its present position (R316): CHWM follows it, and entries fire. -/
def State.cmpFollow (s : State) (u : Nat) : State :=
  if s.cmpOn u then
    let p := s.getF (cmpB u) F.CMP_CTRL_SRC
    let s := if s.posValid p then s.setI (cmpB u) F.CMP_HWM_CHWM (max (s.chwm u) (s.posCount p)) else s
    s.cmpScan u
  else s

/-- The units that take position channel `p`. -/
def State.cmpUnits (s : State) (p : Nat) : List Nat :=
  (List.range 16).filter (fun u => s.getF (cmpB u) F.CMP_CTRL_SRC == p)

/-- Every compare unit of channel `p` follows its position. -/
def State.cmpMove (s : State) (p : Nat) : State := forL (s.cmpUnits p) (fun u t => t.cmpFollow u) s

/-- LEAD_CNT at the present speed (R317). -/
def State.leadCnt (s : State) (u : Nat) : State :=
  let v := s.getI (posB (s.getF (cmpB u) F.CMP_CTRL_SRC)) F.POS_SPEED_SPEED
  s.setF (cmpB u) F.CMP_LEAD_CNT_LEAD_CNT ((max 0 v).toNat * s.getF (cmpB u) F.CMP_PULSE_LEAD_US / 1000000)

/-- POS_SPEED of channel `p` has been updated (R317). -/
def State.cmpSpeed (s : State) (p : Nat) : State := forL (s.cmpUnits p) (fun u t => (t.leadCnt u).cmpFollow u) s

/-- A re-zero of channel `p` by `d` (R322): CHWM and every position of its units move by the correction. -/
def State.cmpRezero (s : State) (p : Nat) (d : Int) : State :=
  forL (s.cmpUnits p) (fun u t =>
    let t := t.setI (cmpB u) F.CMP_HWM_CHWM (t.chwm u + d)
    let c := t.c u
    t.setC u { c with list := c.list.map (fun e => (e.1 + d, e.2)), late := c.late.map (fun e => (e.1 + d, e.2)) }) s

/-- Insert an entry (R320, R321, R326): into the list, or late, or discarded. -/
def State.cmpInsert (s : State) (u : Nat) (e : Int × Nat) : State :=
  let c := s.c u
  if 4096 ≤ c.list.length + c.late.length then
    (s.raise (cmpB u) F.CMP_STATUS_FULL 0xCA).satF (cmpB u) F.CMP_DROP_COUNT 1
  else if s.cmpOn u && decide (s.firePoint u e.1 ≤ s.chwm u) then
    let s := (s.raise (cmpB u) F.CMP_STATUS_LATE 0xCB).satF (cmpB u) F.CMP_LATE_COUNT 1
    let s := s.flog u e 2
    if s.flag (cmpB u) F.CMP_CTRL_LATE_MODE then s.setC u { s.c u with late := (s.c u).late ++ [e] } else s
  else s.setC u { c with list := cmpPlace e c.list }

/-- Empty the list of unit `u` (R351). -/
def State.cmpClear (s : State) (u : Nat) : State := s.setC u { s.c u with list := [], late := [] }

/-- The corrections that took effect after a course of the fill group (R322). -/
def State.rezeroSince (s : State) (g : Nat) (course : Int) : Int :=
  ((s.rezero.filter (fun r => r.1 == g && decide (course < r.2.1))).map (fun r => r.2.2)).sum

/-- Whether a record meets every condition of R324; `r` is its 128 bytes. -/
def State.cmpWants (s : State) (u : Nat) (r : List Byte) : Bool :=
  let b := cmpB u
  let label := leAt r 0x21 1
  let x := toInt 64 (leAt r 0x48 8)
  bits (leAt r 0 8) 49 46 == s.getF b F.CMP_CTRL_FILL_GROUP &&
    bit (s.getF b (F.CMP_LABEL_MASK.nth (label / 32))) (label % 32) &&
    decide (s.getI b F.CMP_SCORE_SCORE_MIN ≤ toInt 16 (leAt r 0x32 2)) &&
    decide (s.getI b F.CMP_XMIN_XMIN ≤ x) && decide (x ≤ s.getI b F.CMP_XMAX_XMAX) &&
    !bit (leAt r 0x24 2) 10 &&
    (!s.flag b F.CMP_CTRL_FIRST_ONLY || leAt r 0x20 1 == 1 || leAt r 0x26 2 == 0)

/-- The entry a record gives (R322, R324). -/
def State.cmpEntry (s : State) (u : Nat) (r : List Byte) : Int × Nat :=
  (toInt 64 (leAt r 0x50 8) + s.getI (cmpB u) F.CMP_DIST_DIST +
    s.rezeroSince (s.getF (cmpB u) F.CMP_CTRL_FILL_GROUP) (toInt 64 (leAt r 0x28 8)), leAt r 0 8)

/-- Whether the rings a unit names may be bound, and its sources agree (R325, R509). -/
def State.cmpStatus (s : State) (u : Nat) : Nat :=
  let b := cmpB u
  let fill := s.flag b F.CMP_CTRL_FILL_EN
  let flogOn := s.flag b F.CMP_CTRL_FLOG_EN
  let fr := s.getF b F.CMP_FILL_RING_RING
  let lr := s.getF b F.CMP_FLOG_RING_RING
  let g := s.getF b F.CMP_CTRL_FILL_GROUP
  if fill && (s.getF (crsB g) F.CRS_CTRL_SRC != s.getF b F.CMP_CTRL_SRC || !s.ringOk fr false) then stBadParam
  else if flogOn && !s.ringOk lr false then stBadParam
  else if (fill && (s.subOf fr b).isNone && !s.canSub fr) ||
      !s.canPin ((if fill then [fr] else []) ++ (if flogOn then [lr] else [])) then stNoResource
  else 0

/-- EN of unit `u` rises (R316): CHWM takes the position, and the rings are bound. -/
def State.cmpStart (s : State) (u : Nat) : State :=
  let b := cmpB u
  let s := s.setF b F.CMP_CTRL_EN 1
  let s := s.setI b F.CMP_HWM_CHWM (s.posCount (s.getF b F.CMP_CTRL_SRC))
  let s := s.leadCnt u
  let s := if s.flag b F.CMP_CTRL_FILL_EN then
      (s.bind (s.getF b F.CMP_FILL_RING_RING) b false).subBlock (s.getF b F.CMP_FILL_RING_RING) b
    else s
  let s := if s.flag b F.CMP_CTRL_FLOG_EN then s.bind (s.getF b F.CMP_FLOG_RING_RING) b true else s
  s.cmpFollow u

/-- EN of unit `u` falls: the rings are released. -/
def State.cmpStop (s : State) (u : Nat) : State :=
  let b := cmpB u
  let s := s.setF b F.CMP_CTRL_EN 0
  (s.unsubBlock (s.getF b F.CMP_FILL_RING_RING) b).unbind b

/-- CMP_ENABLE: EN of a unit rises, where R325 and R509 let it. -/
def execCmpEnable (u : Fin 16) (s : State) : Host.Outcome State Fault Refusal :=
  .next (if !s.cmpOn u && s.cmpStatus u == 0 then s.cmpStart u else s)

/-- The strobe is cut where one is under way. -/
def State.strobeCut (s : State) : State := if s.tag.phase == .strobe then s.emit (.level .strobe false) else s

/-- Re-run mode begins (R315): the compare outputs and the strobe go to their inactive levels. -/
def State.markQuiet (s : State) : State :=
  (forL (List.range 16) (fun u t =>
    if (t.c u).pulseEnd.isSome then (t.setC u { t.c u with pulseEnd := none }).cmpPin u false else t) s).strobeCut

/-- CMP_LATE_FIRE: the cycle after a late insertion with LATE_MODE = 1 (R321). -/
def execCmpLateFire (u : Fin 16) (s : State) : Host.Outcome State Fault Refusal :=
  let l := (s.c u).late
  .next (if s.cmpOn u then (s.setC u { s.c u with late := [] }).cmpFireAll u l else s)

/-- CMP_PULSE_END: PULSE_W after the last fire the output returns to its inactive level (R319). -/
def execCmpPulseEnd (u : Fin 16) (s : State) : Host.Outcome State Fault Refusal :=
  .next (if (s.c u).pulseEnd.isSome then (s.setC u { s.c u with pulseEnd := none }).cmpPin u false else s)

/-- CMP_FILL_RECORD: the unit takes the next record of FILL_RING (R322, R324). -/
def execCmpFillRecord (u : Fin 16) (s : State) : Host.Outcome State Fault Refusal :=
  let b := cmpB u
  let ring := s.getF b F.CMP_FILL_RING_RING
  .next (if s.cmpOn u && s.flag b F.CMP_CTRL_FILL_EN && decide (2 ≤ s.avail ring b) then
    let (s1, e1) := s.readEntry ring b 0 (blockUnit b)
    let (s2, e2) := s1.readEntry ring b 1 (blockUnit b)
    let s3 := s2.take ring b 2
    match e1, e2 with
    | .ok x, .ok y => if s3.cmpWants u (x ++ y) then s3.cmpInsert u (s3.cmpEntry u (x ++ y)) else s3
    | _, _ => s3
  else s)

/-- LIST_INSERT: LIST_CMD is written with INSERT = 1 (R326). -/
def execListInsert (u : Fin 16) (s : State) : Host.Outcome State Fault Refusal :=
  .next (s.cmpInsert u (s.getI (cmpB u) F.LIST_POS_POS, s.getF (cmpB u) F.LIST_ID_ID))

/-- LIST_CLEAR: LIST_CMD is written with CLEAR = 1 (R351). -/
def execListClear (u : Fin 16) (s : State) : Host.Outcome State Fault Refusal := .next (s.cmpClear u)

/-- Set or clear the marking hold (R323). -/
def State.markHold (s : State) (on : Bool) : State := s.setF cmpG F.MARK_HOLD_CTRL_HOLD (if on then 1 else 0)

/-- MARK_HOLD_CTRL_WRITE: the HOLD bit is written (R323). -/
def execMarkHoldCtrlWrite (hold : Bool) (s : State) : Host.Outcome State Fault Refusal := .next (s.markHold hold)

/-! ## The cassette exchange -/

/-- A nonce of 16 fresh bytes from the random generator (R347): a free value. -/
def State.freshNonce (s : State) : State × List Byte := (s.tickFree, le 16 (Config.freeBits 128 s.freeCtr).toNat)

/-- Send the cassette command under way (R346). -/
def State.cassSend (s : State) : State := s.markEmit (.bus "TH_CS" (BitVec.ofNat 8 s.cass.cmd :: s.cass.nonce))

/-- Start a cassette command with a nonce. -/
def State.cassStart (s : State) (cmd : Nat) (nonce : List Byte) : State :=
  ({ s with cass := { s.cass with cmd := cmd, nonce := nonce } }).cassSend

/-- Begin an authentication (R348): one asked for during a decrement runs after it, and one under way serves every
request that comes meanwhile (log entry 59). -/
def State.authenticate (s : State) : State :=
  if s.cass.cmd = 0 then s.cassStart 1 []
  else if s.cass.cmd = 3 then { s with cass := { s.cass with again := true } }
  else s

/-- The exchange under way is over; an authentication that waited for a decrement begins. -/
def State.cassEnd (s : State) : State :=
  let again := s.cass.again
  let s := { s with cass := { s.cass with cmd := 0, nonce := [], again := false } }
  if again then s.authenticate else s

/-- An exchange fails (R348, R349): CASS_OK clears, CASS_FAIL is set and logged; a job that waits for its decrement
ends with status 0x11, and CASS_AUTH is answered HW_FAULT. -/
def State.cassFail (s : State) : State :=
  let wasDec := s.cass.cmd == 3
  let s := s.setF thB F.TH_STATUS_CASS_OK 0
  let s := s.raise thB F.TH_STATUS_CASS_FAIL 0xCF
  let s := (s.logReg .cassFail 9 0xFF (thB + 0x80)).pnlEvent 5 0 2 []
  let s := if wasDec && s.tag.phase == .decrement then
      let s := s.raise thB F.TH_STATUS_CASS_EV 0xCE
      { s with tag := { s.tag with phase := .ended, status := 0x11, stopped := true } }
    else s
  let s := s.cassEnd
  if wasDec then s else s.finishOp 0x0803 (fun _ => true) stHwFault []

/-- K_c and MAC (R347). -/
def State.cassMac (s : State) (tag : List Byte) (serial counter : Nat) : List Byte :=
  tag16 (hmac s.cassKey (be 8 serial)) (tag ++ be 8 serial ++ be 4 counter ++ s.cass.nonce)

/-! ## The tag head -/

def State.thOn (s : State) : Bool := s.flag thB F.TH_CTRL_TH_EN

def State.setTag (s : State) (t : Tag) : State := { s with tag := t }

/-- Write a tag phase. -/
def State.tagPhase (s : State) (p : TagPhase) : State := { s with tag := { s.tag with phase := p } }

/-- Whether a tag is under way: its decrement made and its lines not over. -/
def Tag.active (t : Tag) : Bool := t.phase == .lines || t.phase == .strobe

/-- The first void cause that stands, in the order of R339. -/
def State.tagCause (s : State) : Option Nat :=
  let hard := match s.tag.temp with
    | some t => decide (s.getI thB F.TH_HARD_HARD ≤ t)
    | none => true
  if hard then some 1
  else if s.flag thB F.TH_STATUS_OPEN then some 2
  else if s.flag thB F.TH_STATUS_JAM then some 4
  else if s.flag thB F.TH_STATUS_STOCK then some 3
  else none

/-- Every condition of R337 is clear. -/
def State.tagClear (s : State) : Bool := s.tagCause.isNone && !s.tag.hot

/-- A voided tag of status 0x01 or 0x03 leaves the head once every condition is clear (R339). -/
def State.tagFeed (s : State) : State :=
  if s.tag.phase == .void && s.tagClear then
    (s.markEmit (.feed (s.tag.job.lines - s.tag.line + s.tag.job.feedAfter))).tagPhase .ended
  else s

/-- Void the tag under way (R337, R339, R340): the strobe is cut, VOID_CNT and VOID_EV rise, the log entry is
written, and a job with REPRINT is queued again. -/
def State.tagVoid (s : State) (status : Nat) : State :=
  let s := s.markEmit (.level .strobe false)
  let s := s.satF thB F.VOID_CNT_COUNT 1
  let s := s.raise thB F.TH_STATUS_VOID_EV 0xCC
  let s := s.logReg .tagVoid 9 0xFF (thB + 0x80)
  let s := s.setF thB F.TH_STATUS_BUSY 0
  let t := s.tag
  let s := s.setTag
    { t with
      status := status
      passes := []
      rows := []
      waiting := false
      phase := if status = 1 ∨ status = 3 then .void else .ended
      again := if t.job.reprint then t.again ++ [t.job] else t.again }
  s.tagFeed

/-- Act on the conditions of R337 during a tag. -/
def State.tagCheck (s : State) : State :=
  match s.tagCause with
  | some c => if s.tag.active then s.tagVoid c else s
  | none => s.tagFeed

/-- A temperature sample of TH_AUX (R333, R334, R337, R338). -/
def State.tagTemp (s : State) (y3 : Int) : State :=
  if s.thOn then
    let t := if s.flag thB F.TH_CTRL_TEMP_INV then -y3 else y3
    let s := s.setF thB F.TH_STATUS_TEMP_WAIT 0
    let soft := s.getI thB F.TH_SOFT_SOFT
    let wasHot := s.tag.hot
    let hot := if soft ≤ t then true
      else if t < soft - Int.ofNat (s.getF thB F.TH_HYST_HYST) then false else wasHot
    let s := { s with tag := { s.tag with temp := some t, hot := hot } }
    let s := if hot && !wasHot && s.tag.active && decide (t < s.getI thB F.TH_HARD_HARD) then
        ((s.satF thB F.SOFT_CNT_COUNT 1).raise thB F.TH_STATUS_SOFT_EV 0xCD).logReg .softPause 9 0xFF (thB + 0x80)
      else s
    s.tagCheck
  else s

/-- The temperature value ceases to exist (R334). -/
def State.tagNoTemp (s : State) : State :=
  let s := s.setF thB F.TH_STATUS_TEMP_WAIT 1
  let s := { s with tag := { s.tag with temp := none, hot := false } }
  s.tagCheck

/-- Whether the rings the tag head names may be bound (R345, R509). -/
def State.thStatus (s : State) : Nat :=
  let jr := s.getF thB F.TH_JOB_RING_RING
  let rr := s.getF thB F.TH_RES_RING_RING
  if !s.ringOk jr false || !s.ringOk rr false then stBadParam
  else if ((s.subOf jr thB).isNone && !s.canSub jr) || !s.canPin [jr, rr] then stNoResource
  else 0

/-- TH_EN rises (R334, R348). -/
def State.thStart (s : State) : State :=
  let s := s.setF thB F.TH_CTRL_TH_EN 1
  let jr := s.getF thB F.TH_JOB_RING_RING
  let s := ((s.bind jr thB false).subBlock jr thB).bind (s.getF thB F.TH_RES_RING_RING) thB true
  let s := s.setF thB F.TH_STATUS_TEMP_WAIT 1
  let s := s.setF (dmaB (s.getF thB F.TH_DMA_CHANNEL)) F.DMA_STATE_BOUND 1
  let s := { s with tag := { s.tag with temp := none, hot := false } }
  s.authenticate

/-- TH_EN falls: the rings are released, and no tag is under way. -/
def State.thStop (s : State) : State :=
  let s := s.setF thB F.TH_CTRL_TH_EN 0
  let s := s.setF (dmaB (s.getF thB F.TH_DMA_CHANNEL)) F.DMA_STATE_BOUND 0
  let s := s.setF thB F.TH_STATUS_BUSY 0
  let s := s.setF thB F.TH_STATUS_TEMP_WAIT 1
  let s := if s.tag.phase == .strobe then s.markEmit (.level .strobe false) else s
  let s := { s with tag := { s.tag with phase := .idle, temp := none, passes := [], rows := [], waiting := false } }
  (s.unsubBlock (s.getF thB F.TH_JOB_RING_RING) thB).unbind thB

/-- TH_ENABLE: TH_EN rises, where the rings allow it. -/
def execThEnable (s : State) : Host.Outcome State Fault Refusal :=
  .next (if !s.thOn && s.thStatus == 0 then s.thStart else s)

/-- AUTH_REQ: AUTH_REQ is written 1 (R348). -/
def execAuthReq (s : State) : Host.Outcome State Fault Refusal := .next (if s.thOn then s.authenticate else s)

/-- A job from its 64 bytes (R341): IMAGE is [39:0] of its word, and the reserved bits above are ignored (R3). -/
def jobOf (e : List Byte) : TagJob :=
  { image := leAt e 0 8 % 2 ^ 40
    lines := leAt e 8 2
    feedAfter := leAt e 10 2
    atPos := bit (leAt e 12 2) 0
    reprint := bit (leAt e 12 2) 1
    irq := bit (leAt e 12 2) 2
    startPos := toInt 64 (leAt e 16 8)
    id := leAt e 24 8 }

/-- ROW_BYTES (R329). -/
def State.rowBytes (s : State) : Nat := 32 * ((s.getF thB F.TH_CTRL_DOTS + 255) / 256)

/-- Take the job that is next: a voided one, the automatic queue, then TAG_RING (R339, R343). -/
def State.nextJob (s : State) : State × Option TagJob :=
  match s.tag.again, s.tag.autoQ with
  | j :: js, _ => ({ s with tag := { s.tag with again := js } }, some j)
  | [], j :: js => ({ s with tag := { s.tag with autoQ := js } }, some j)
  | [], [] =>
    let jr := s.getF thB F.TH_JOB_RING_RING
    if s.avail jr thB = 0 then (s, none)
    else
      let (s1, e) := s.readEntry jr thB 0 (blockUnit thB)
      let s2 := s1.take jr thB 1
      match e with
      | .ok b => (if (jobOf b).irq then s2.consIrq jr else s2, some (jobOf b))
      | .error _ => (s2, some {})

/-- End the job at the head with a status and no print. -/
def State.jobEnd (s : State) (status : Nat) : State :=
  { s with tag := { s.tag with phase := .ended, status := status } }

/-- Begin the tag of the job at the head (R343, R344). -/
def State.jobBegin (s : State) : State :=
  if !s.flag thB F.TH_STATUS_CASS_OK || s.getF thB F.CASS_COUNT_COUNT == 0 then
    let code := if s.flag thB F.TH_STATUS_CASS_OK then 0x10 else 0x11
    let s := s.raise thB F.TH_STATUS_CASS_EV 0xCE
    let s := { s with tag := { s.tag with stopped := true } }
    s.jobEnd code
  else if s.cass.cmd ≠ 0 then s.tagPhase .position
  else
    let (s, n) := s.freshNonce
    (s.tagPhase .decrement).cassStart 3 n

/-- Look at the job that has reached the head of the queue (R343, R345). -/
def State.jobHead (s : State) (j : TagJob) : State :=
  let t := s.tag
  let s := s.setTag { t with job := j, line := 0, status := 0, prev1 := [], prev2 := [], sec := 0, ns := 0, rows := [], waiting := false }
  if j.lines = 0 ∨ j.image % 32 ≠ 0 ∨ 0x1E00000000 < j.image + j.lines * s.rowBytes then s.jobEnd 0x12
  else if j.atPos && decide (j.startPos < s.posCount (s.getF thB F.TH_CTRL_TH_SRC)) then s.jobEnd 0x13
  else s.tagPhase .position

/-- TAG_JOB_START: the next tag job is taken, or the one at the head starts (R337, R343, R344). -/
def execTagJobStart (s : State) : Host.Outcome State Fault Refusal :=
  .next (if s.thOn && s.tagCause.isNone && !s.tag.stopped && !s.reRunning then
    let s1 := if s.tag.phase == .idle then
        match s.nextJob with
        | (s', some j) => s'.jobHead j
        | (s', none) => s'
      else s
    if s1.tag.phase == .position &&
        (!s1.tag.job.atPos || decide (s1.tag.job.startPos ≤ s1.posCount (s1.getF thB F.TH_CTRL_TH_SRC))) then s1.jobBegin
    else s1
  else s)

/-- ENERGY[h][b] (R335, R352). -/
def State.energy (s : State) (h b : Nat) : Nat :=
  let i := 4 * h + b
  s.getF thB (if i % 2 = 1 then F.TH_ENERGY_E_HI.nth (i / 2) else F.TH_ENERGY_E_LO.nth (i / 2))

/-- The band of a temperature (R333). -/
def State.bandOf (s : State) (t : Int) : Nat :=
  if t < s.getI thB (F.TH_BAND_BAND.nth 1) then 0
  else if t < s.getI thB (F.TH_BAND_BAND.nth 2) then 1
  else if t < s.getI thB (F.TH_BAND_BAND.nth 3) then 2 else 3

/-- Insert into an ascending list. -/
def insertNat (x : Nat) : List Nat → List Nat
  | [] => [x]
  | y :: ys => if x ≤ y then x :: y :: ys else y :: insertNat x ys

/-- The passes of a line from its four energies: e_k and D_k, a pass with D_k = 0 left out (R335). -/
def passesOf (prev : Nat) : List Nat → List (Nat × Nat)
  | [] => []
  | e :: es => if e = prev then passesOf e es else (e, e - prev) :: passesOf e es

/-- The dot that shift slot `k` takes: none for a slot sent as 0 (R330). -/
def State.remap (s : State) (k : Nat) : Option Nat :=
  let a := thB + 0x1000 + 4 * (k / 2)
  let v := s.fieldAt false a (if k % 2 = 1 then F.TH_REMAP_SLOT_HI else F.TH_REMAP_SLOT_LO)
  if bit v 15 || decide (s.getF thB F.TH_CTRL_DOTS ≤ v % 2048) then none else some (v % 2048)

/-- The history of a dot (R332). -/
def Tag.history (t : Tag) (d : Nat) : Nat :=
  2 * (if t.prev1.getD d false then 1 else 0) + (if t.prev2.getD d false then 1 else 0)

/-- The TH_DAT line and the clock position of shift slot `k` (R330). -/
def slotPin (dots k : Nat) : Nat × Nat := (k / (dots / 4), k % (dots / 4))

/-- The slots loaded as 1 in the pass of threshold `e` (R330, R335). -/
def State.passSlots (s : State) (e : Nat) : List Nat :=
  (List.range (s.getF thB F.TH_CTRL_DOTS)).filter (fun k =>
    match s.remap k with
    | some d => s.tag.dots.getD d false && decide (e ≤ s.energy (s.tag.history d) s.tag.band)
    | none => false)

/-- The line is over: the feed steps, and after the last line the tag is printed and FEED_AFTER lines are fed
(R336, R341). -/
def State.lineEnd (s : State) : State :=
  let s := s.markEmit (.feed 1)
  let t := s.tag
  let s := s.setTag { t with line := t.line + 1, prev1 := t.dots, prev2 := t.prev1, phase := .lines }
  if s.tag.line < s.tag.job.lines then s
  else ((s.markEmit (.feed s.tag.job.feedAfter)).setF thB F.TH_STATUS_BUSY 0).jobEnd 0

/-- The outputs of a pass in order (R330, R336): the shift of its slots, the latch, and the strobe groups, one after
another with STAGGER = 1 and together without. -/
def State.passOuts (s : State) (e d : Nat) : List Out :=
  [.shift ((s.passSlots e).map (slotPin (s.getF thB F.TH_CTRL_DOTS))), .latch] ++
    (if s.flag thB F.TH_CTRL_STAGGER then [[0], [1], [2], [3]] else [[0, 1, 2, 3]]).map (fun g => Out.strobe g d)

/-- Strobe the next pass, or end the line. -/
def State.nextPass (s : State) : State :=
  match s.tag.passes with
  | [] => s.lineEnd
  | (e, d) :: ps =>
    let s := forL (s.passOuts e d) (fun o t => t.markEmit o) s
    { s with tag := { s.tag with passes := ps, phase := .strobe } }

/-- Fetch the row of line `n` of the tag into the buffer; a row that cannot be read has not arrived (R331; log
entry 60). -/
def State.fetchRow (s : State) (n : Nat) : State :=
  let a := s.tag.job.image + n * s.rowBytes
  let s := s.setF (dmaB (s.getF thB F.TH_DMA_CHANNEL)) F.DMA_ADDR_ADDR a
  let r := s.memRead 1 (s.getF thB F.TH_DMA_CHANNEL) a s.rowBytes
  match r.2 with
  | .ok b => { r.1 with tag := { r.1.tag with rows := r.1.tag.rows ++ [b] } }
  | .error _ => r.1

/-- TH_DMA fills the buffer of four rows, whose first is the row of line `n` (R331). -/
def State.fetchRows (s : State) (n : Nat) : State :=
  forL (List.range 4) (fun i t =>
    if t.tag.rows.length = i ∧ n + i < t.tag.job.lines then t.fetchRow (n + i) else t) s

/-- A row that TH_DMA has brought is printed: its passes begin, and the buffer takes the row that follows (R331 to
R335). -/
def State.lineBegin (s : State) (row : List Byte) (rest : List (List Byte)) : State :=
  let band := s.bandOf (s.tag.temp.getD 0)
  let t := s.tag
  let first := t.line == 0
  let s := s.setTag
    { t with
      waiting := false
      rows := rest
      dots := (row.map (fun b => (List.range 8).map (fun i => bit b.toNat i))).flatten
      band := band
      sec := if first then s.sec else t.sec
      ns := if first then s.ns else t.ns
      passes := passesOf 0 (((List.range 4).map (fun h => s.energy h band)).foldr insertNat []) }
  (s.fetchRows (t.line + 1)).nextPass

/-- The row of the line that is due has not arrived: an underrun, counted once for a line (R331). -/
def State.underrun (s : State) : State :=
  if s.tag.waiting then s
  else ({ s with tag := { s.tag with waiting := true } }).satF thB F.UNDERRUN_COUNT 1

/-- TAG_LINE_START: the next dot line is due (R329 to R337). `arrived` tells whether TH_DMA has brought its row. -/
def execTagLineStart (arrived : Bool) (s : State) : Host.Outcome State Fault Refusal :=
  .next (if s.thOn && s.tag.phase == .lines && s.tagClear then
    let t := if arrived then s.fetchRows s.tag.line else s
    match arrived, t.tag.rows with
    | true, row :: rest => t.lineBegin row rest
    | _, _ => t.underrun
  else s)

/-- TAG_STROBE_END: the strobe of a pass ends (R335, R336). -/
def execTagStrobeEnd (s : State) : Host.Outcome State Fault Refusal :=
  .next (if s.tag.phase == .strobe then s.nextPass else s)

/-- TAG_UNDERRUN_TIMEOUT: a line has waited longer than 1 ms for its row (R331). -/
def execTagUnderrunTimeout (s : State) : Host.Outcome State Fault Refusal :=
  .next (if s.tag.phase == .lines && s.tag.waiting then s.tagVoid 5 else s)

/-- TAG_SENSOR_EDGE: a filtered sensor changes: 0 head open, 1 stock out, 2 jam (R337). -/
def execTagSensorEdge (sensor : Fin 3) (level : Bool) (s : State) : Host.Outcome State Fault Refusal :=
  let v := if level then 1 else 0
  .next (
    if sensor = 0 then
      let s := s.setF thB F.TH_STATUS_OPEN v
      let s := if level then (s.setF thB F.TH_STATUS_CASS_OK 0).pnlEvent 5 0 3 [] else s
      let s := { s with cass := { s.cass with closing := !level } }
      s.tagCheck
    else if sensor = 1 then (s.setF thB F.TH_STATUS_STOCK v).tagCheck
    else (s.setF thB F.TH_STATUS_JAM v).tagCheck)

/-- TAG_JOB_RESULT: the job at the head is over, and its result is written on RES_RING (R345). -/
def execTagJobResult (s : State) : Host.Outcome State Fault Refusal :=
  .next (if s.tag.phase == .ended && !s.reRunning then
    let t := s.tag
    let item := le 8 t.job.id ++ le 4 t.status ++ le 4 (s.getF thB F.CASS_COUNT_COUNT) ++ le 8 t.sec ++ le 4 t.ns ++
      zeros 36
    (s.ringPush (s.getF thB F.TH_RES_RING_RING) item).1.tagPhase .idle
  else s)

/-- CASS_OPEN_CLEAR_DELAY: 100 ms after TH_OPEN has cleared the cassette is authenticated (R348). -/
def execCassOpenClearDelay (s : State) : Host.Outcome State Fault Refusal :=
  .next (if s.thOn && s.cass.closing && !s.flag thB F.TH_STATUS_OPEN then
    ({ s with cass := { s.cass with closing := false } }).authenticate
  else s)

/-- CASS_RESPONSE: the cassette answers the command under way (R346 to R349); no authentication succeeds while TH_OPEN is
active (R337). -/
def execCassResponse (bytes : List Byte) (s : State) : Host.Outcome State Fault Refusal :=
  .next (
    if s.cass.cmd = 1 then
      if bytes.length ≠ 16 ∨ beAt bytes 0 1 ≠ 1 then s.cassFail
      else
        let s := { s with cass := { s.cass with counter := beAt bytes 4 4, serial := beAt bytes 8 8 } }
        let s := s.setF thB F.CASS_SERIAL_SERIAL s.cass.serial
        let s := s.setF thB F.CASS_COUNT_COUNT s.cass.counter
        let (s, n) := s.freshNonce
        s.cassStart 2 n
    else if s.cass.cmd = 2 then
      let counter := beAt bytes 0 4
      if bytes.length = 20 ∧ counter = s.cass.counter ∧
          sliceB bytes 4 16 = s.cassMac [0x41, 0x55] s.cass.serial counter ∧ !s.flag thB F.TH_STATUS_OPEN then
        let s := s.setF thB F.TH_STATUS_CASS_OK 1
        let s := { s.cassEnd with tag := { s.tag with stopped := false } }
        (s.pnlEvent 5 0 1 []).finishOp 0x0803 (fun _ => true) 0 (be 4 counter ++ be 8 s.cass.serial)
      else s.cassFail
    else if s.cass.cmd = 3 then
      let counter := beAt bytes 0 4
      if bytes.length = 20 ∧ counter + 1 = s.getF thB F.CASS_COUNT_COUNT ∧
          sliceB bytes 4 16 = s.cassMac [0x44, 0x43] (s.getF thB F.CASS_SERIAL_SERIAL) counter then
        let s := s.setF thB F.CASS_COUNT_COUNT counter
        let s := if counter = 0 then s.pnlEvent 5 0 4 [] else s
        let s := s.cassEnd
        if s.tag.phase == .decrement then
          (((s.tagPhase .lines).fetchRows 0).setF thB F.TH_STATUS_BUSY 1).tagCheck
        else s
      else s.cassFail
    else s)

/-- CASS_RETRY: a cassette that did not acknowledge is addressed again (R346). -/
def execCassRetry (s : State) : Host.Outcome State Fault Refusal :=
  .next (if s.cass.cmd = 0 then s else s.cassSend)

/-- CASS_EXCHANGE_TIMEOUT: 50 ms have passed without a response (R346). -/
def execCassExchangeTimeout (s : State) : Host.Outcome State Fault Refusal :=
  .next (if s.cass.cmd = 0 then s else s.cassFail)

end Sys2Proof.Machine
end

