-- ==== Sys2Proof/Machine/Dma.lean ====
section
/-!
DEFINITION. DMA chains (14_rings_dma R526 to R536): channels, descriptors, copies through the byte funnel, doorbells and
aborts. The commands DMA_DESC_FETCH, DMA_DESC_END and DMA_BUS_ERROR, and the operations of DMA_START, DMA_ABORT and
DMA_STATUS.
-/

namespace Sys2Proof.Machine

def State.dm (s : State) (c : Nat) : Dma := Tab.get {} c s.dma
def State.setDm (s : State) (c : Nat) (d : Dma) : State := { s with dma := Tab.put c d s.dma }

/-- STATE of a channel: 0 idle, 1 running, 2 parked, 3 halted (R527). -/
def State.dmaState (s : State) (c : Nat) : Nat := s.getF (dmaB c) F.DMA_STATE_STATE

/-- A channel that a block names is bound to it (R528): TH_DMA while the tag head is enabled (R331). -/
def State.dmaBound (s : State) (c : Nat) : Bool := s.thOn && s.getF thB F.TH_DMA_CHANNEL == c

/-- The summaries of DONE_EV and ERR_EV (R539). -/
def State.dmaSums (s : State) : State :=
  let sum (f : Fld) : Nat := ((List.range 64).map (fun c => s.getF (dmaB c) f * 2 ^ c)).sum
  (s.setF dmaG F.DMA_DONE_SUM_DONE (sum F.DMA_EVENT_DONE_EV)).setF dmaG F.DMA_ERR_SUM_ERR (sum F.DMA_EVENT_ERR_EV)

/-- Go to descriptor `a`: the channel runs, and the descriptor is fetched next. -/
def State.dmaGo (s : State) (c a : Nat) : State :=
  let s := (s.setF (dmaB c) F.DMA_STATE_STATE 1).setF (dmaB c) F.DMA_DESC_ADDR a
  (s.setF (dmaB c) F.DMA_ADDR_ADDR a).setDm c {}

/-- A halt: state, CODE, the address latched, ERR_EV and the log entry (R529, R535). -/
def State.dmaHalt (s : State) (c code addr : Nat) : State :=
  let b := dmaB c
  let s := ((s.setF b F.DMA_STATE_STATE 3).setF b F.DMA_STATE_CODE code).setF b F.DMA_ADDR_ADDR addr
  ((s.raise b F.DMA_EVENT_ERR_EV 0xE6).dmaSums).logReg .dmaErr c 0xFF (b + 0x1C)

/-- Park on the descriptor in DMA_DESC. -/
def State.dmaPark (s : State) (c : Nat) : State :=
  (s.setF (dmaB c) F.DMA_STATE_STATE 2).setF (dmaB c) F.DMA_STATE_CODE 1

/-- Write STATUS of the channel's descriptor when WB is set (R526); answers whether it was written. -/
def State.dmaStatusByte (s : State) (c v : Nat) : State × Bool :=
  if bit (s.dm c).ctrl 2 then
    let r := s.memWrite 1 c (s.getF (dmaB c) F.DMA_DESC_ADDR + 0x15) (le 1 v)
    (r.1, r.2.isNone)
  else (s, true)

/-- A read or write of the channel has met an error response (R535). -/
def State.dmaBusErr (s : State) (c addr dir : Nat) : State :=
  let b := dmaB c
  let d := s.dm c
  let s := (s.setF b F.DMA_RESIDUE_BYTES (d.len - d.copied)).setF b F.DMA_STATE_DIR dir
  let s := (s.dmaStatusByte c 3).1
  s.dmaHalt c 3 addr

/-- Read the LINK word of the descriptor in DMA_DESC and follow it (R532, R533); a bus error of that read halts the
channel. Answers whether the channel stays. -/
def State.dmaLink (s : State) (c : Nat) : State × Bool :=
  let a := s.getF (dmaB c) F.DMA_DESC_ADDR
  let r := s.memRead 1 c (a + 0x18) 8
  match r.2 with
  | .error _ => (r.1.dmaBusErr c (a + 0x18) 0, false)
  | .ok w => if bit (leVal w) 0 then (r.1, true) else (r.1.dmaGo c (bits (leVal w) 39 5 * 32), false)

/-- A descriptor has ended: LINK decides what follows (R532). -/
def State.dmaNext (s : State) (c : Nat) : State :=
  let r := s.dmaLink c
  if !r.2 then r.1
  else
    let s := r.1.dmaPark c
    if s.flag (dmaB c) F.DMA_STATE_DB_PEND then
      let s := s.setF (dmaB c) F.DMA_STATE_DB_PEND 0
      (s.dmaLink c).1
    else s

/-- DMA_START (R528, R533). -/
def State.dmaStart (s : State) (c desc : Nat) : State × Nat :=
  let st := s.dmaState c
  if s.dmaBound c then (s, stBusy)
  else if st = 3 then (s, if desc % 32 = 0 then stBusy else stBadParam)
  else if desc % 32 ≠ 0 ∨ (st = 0 ∧ desc = 0) then (s, stBadParam)
  else if st = 0 then (s.dmaGo c (desc % 2 ^ 40), stOk)
  else if desc ≠ 0 then (s, stBusy)
  else if st = 1 then (s.setF (dmaB c) F.DMA_STATE_DB_PEND 1, stOk)
  else ((s.dmaLink c).1, stOk)

/-- Whether a descriptor is bad (R529): LEN 0, a reserved bit set, a range beyond the data range, or ranges that
overlap. -/
def badDesc (d : List Byte) : Bool :=
  let src := leAt d 0 8
  let dst := leAt d 8 8
  let len := leAt d 0x10 4
  let link := leAt d 0x18 8
  len == 0 || decide (2 ^ 40 ≤ src) || decide (2 ^ 40 ≤ dst) || decide (8 ≤ leAt d 0x14 1) || leAt d 0x16 2 != 0 ||
    decide (2 ^ 40 ≤ link) || bits link 4 1 != 0 || decide (0x1E00000000 < src + len) ||
    decide (0x1E00000000 < dst + len) || (decide (src < dst + len) && decide (dst < src + len))

/-- A channel fetches its descriptor at class 1, which halts it where the descriptor is bad or cannot be read (R529). -/
def State.dmaFetch (s : State) (c : Nat) : State :=
  let a := s.getF (dmaB c) F.DMA_DESC_ADDR
  let r := s.memRead 1 c a 32
  match r.2 with
  | .error _ => r.1.dmaHalt c 4 a
  | .ok d =>
    if badDesc d then r.1.dmaHalt c 4 a
    else r.1.setDm c { src := leAt d 0 8, dst := leAt d 8 8, len := leAt d 0x10 4, ctrl := leAt d 0x14 1, fetched := true }

/-- DMA_DESC_FETCH: a running channel fetches its descriptor (R529), while HCLK runs (R456). -/
def execDmaDescFetch (c : Fin 64) (s : State) : Host.Outcome State Fault Refusal :=
  .next (if s.clk 1 ∧ s.dmaState c = 1 ∧ !(s.dm c).fetched then s.dmaFetch c else s)

/-- Read whole source blocks until one fails: its address (R530, R535). -/
def State.dmaRead (s : State) (c : Nat) : List Nat → State × Option Nat
  | [] => (s, none)
  | b :: bs =>
    let r := s.memRead 1 c (b * 64) 64
    match r.2 with
    | .ok _ => r.1.dmaRead c bs
    | .error _ => (r.1, some (b * 64))

/-- The parts in which the funnel writes a destination: the head, whole blocks, the tail (R530). -/
def dmaParts (dst len : Nat) : List (Nat × Nat) :=
  (blocksOf dst len).map (fun b => (max dst (b * 64), min (dst + len) (b * 64 + 64) - max dst (b * 64)))

/-- Copy the parts in ascending order; answers the failing address and its direction (0 read, 1 write). -/
def State.dmaCopy (s : State) (c : Nat) (d : Dma) : List (Nat × Nat) → State × Option (Nat × Nat)
  | [] => (s, none)
  | p :: ps =>
    let src := d.src + (p.1 - d.dst)
    let r := s.dmaRead c (blocksOf src p.2)
    match r.2 with
    | some a => (r.1, some (a, 0))
    | none =>
      let w := r.1.memWrite 1 c p.1 (r.1.peeks src p.2)
      match w.2 with
      | some _ => (w.1, some (p.1, 1))
      | none =>
        let s := w.1.incF (dmaB c) F.DMA_BYTES_COUNT p.2
        (s.setDm c { s.dm c with copied := (s.dm c).copied + p.2 }).dmaCopy c d ps

/-- The whole of a copy and what ends it: the end of the descriptor (R532), or the halt. -/
def State.dmaRun (s : State) (c : Nat) : State :=
  let d := s.dm c
  let r := s.dmaCopy c d (dmaParts d.dst d.len)
  match r.2 with
  | some e => r.1.dmaBusErr c e.1 e.2
  | none =>
    let w := r.1.dmaStatusByte c 1
    if !w.2 then w.1.dmaBusErr c (w.1.getF (dmaB c) F.DMA_DESC_ADDR + 0x15) 1
    else
      let s := if bit d.ctrl 0 then (w.1.raise (dmaB c) F.DMA_EVENT_DONE_EV 0xE5).dmaSums else w.1
      s.dmaNext c

/-- What a running channel has done of its descriptor when an abort finds it: it has fetched it, and has copied as many of its
parts as a free value gives, unless it has met an error first (R535, R536; log entry 17). -/
def State.dmaSoFar (s : State) (c : Nat) : State :=
  let s := if (s.dm c).fetched then s else s.dmaFetch c
  let d := s.dm c
  let parts := dmaParts d.dst d.len
  let n := (Config.freeBits 32 s.freeCtr).toNat % (parts.length + 1)
  let r := s.tickFree.dmaCopy c d (parts.take n)
  match r.2 with
  | some e => r.1.dmaBusErr c e.1 e.2
  | none => r.1

/-- DMA_ABORT (R536). -/
def State.dmaAbort (s : State) (c : Nat) : State :=
  let b := dmaB c
  let s := if s.dmaState c = 1 then s.dmaSoFar c else s
  let st := s.dmaState c
  let s := if st = 1 then
      let s := (s.dmaStatusByte c 2).1
      (s.setF b F.DMA_RESIDUE_BYTES ((s.dm c).len - (s.dm c).copied)).setF b F.DMA_STATE_CODE 2
    else if st = 2 then (s.setF b F.DMA_RESIDUE_BYTES 0).setF b F.DMA_STATE_CODE 2
    else s
  let s := ((s.setF b F.DMA_STATE_STATE 0).setF b F.DMA_STATE_DB_PEND 0).mark b F.DMA_EVENT_ABORT_EV
  (s.setF b F.DMA_ADDR_ADDR (s.getF b F.DMA_DESC_ADDR)).setDm c {}

/-- DMA_DESC_END: the descriptor under way has copied its bytes (R530 to R532), while HCLK runs (R456). -/
def execDmaDescEnd (c : Fin 64) (s : State) : Host.Outcome State Fault Refusal :=
  .next (if s.clk 1 ∧ s.dmaState c = 1 ∧ (s.dm c).fetched then s.dmaRun c else s)

/-- DMA_BUS_ERROR: the copy under way meets an error response of memory (R535). -/
def execDmaBusError (c : Fin 64) (s : State) : Host.Outcome State Fault Refusal :=
  let d := s.dm c
  .next (if s.clk 1 ∧ s.dmaState c = 1 ∧ d.fetched ∧ (s.dmaCopy c d (dmaParts d.dst d.len)).2.isSome then s.dmaRun c else s)

end Sys2Proof.Machine
end

