-- ==== Sys2Proof/Machine/Journal.lean ====
section
/-!
DEFINITION. The control journal and the writers of the replay stores (19_replay_faults R664, R667 to R671): records,
entries of up to seven records, and the removal of the oldest items when a store lacks room.
-/

namespace Sys2Proof.Machine

/-- Capture, journal and checkpoints are written in ARMED and FREEZING (R664). -/
def State.armed (s : State) : Bool :=
  s.getF repB F.REPLAY_STATUS_STATE == 1 || s.getF repB F.REPLAY_STATUS_STATE == 2

/-- Remove the oldest items of a replay ring until `len` bytes fit; the replay block is the ring's subscriber
(R667). `fuel` is the number of items held. -/
def State.evictItems (s : State) (ring len : Nat) : Nat → State
  | 0 => s
  | fuel + 1 =>
    if s.ringFits ring len then s
    else
      match s.rep.items.find? (fun i => i.ring == ring) with
      | none => s
      | some i =>
        let s := { s with rep := { s.rep with items := s.rep.items.erase i } }
        (s.take ring repB i.n).evictItems ring len fuel

/-- Write one item to a replay ring; answers whether there was room once the oldest had gone (R667). -/
def State.repWrite (s : State) (ring : Nat) (item : List Byte) (kind unit course : Nat) : State × Bool :=
  let s := s.evictItems ring item.length s.rep.items.length
  if s.ringFits ring item.length then
    let c := s.ring ring
    let it : RepItem := ⟨ring, (c.prod + s.reserved ring) % 2 ^ 32, c.entriesFor item.length, kind, unit, course, false⟩
    let s := s.ringWrite ring item
    ({ s with rep := { s.rep with items := s.rep.items ++ [it] } }, true)
  else (s, false)

/-- The journal entry of the records waiting (R668). -/
def State.jrnEntry (s : State) : List Byte :=
  let n := s.rep.jbuf.length
  le 2 0x4A4E ++ le 2 n ++ zeros 4 ++ le 8 (s.getF repB F.JRN_RECORDS_COUNT + 2 ^ 64 - n) ++ zeros 16 ++
    padTo 224 s.rep.jbuf.flatten

/-- Write the waiting records as one entry (R668). -/
def State.jrnFlush (s : State) : State :=
  if s.rep.jbuf.isEmpty then s
  else
    let e := s.jrnEntry
    let lead := s.rep.lead
    let s := { s with rep := { s.rep with jbuf := [], lead := 0 } }
    (s.repWrite (s.getF repB F.JRN_RING_RING) e 3 lead 0).1

/-- Add one 32-byte record, or one that continues a record; seven make an entry. -/
def State.jrnPut (s : State) (cont : Bool) (r : List Byte) : State :=
  let lead := if cont && s.rep.lead == s.rep.jbuf.length then s.rep.lead + 1 else s.rep.lead
  let s := { s with rep := { s.rep with jbuf := s.rep.jbuf ++ [padTo 32 r], lead := lead } }
  let s := s.incF repB F.JRN_RECORDS_COUNT 1
  if s.rep.jbuf.length < 7 then s else s.jrnFlush

/-- Cut bytes into pieces of `n`. -/
def chunks (n : Nat) : Nat → List Byte → List (List Byte)
  | 0, _ => []
  | fuel + 1, bs => if bs.isEmpty then [] else bs.take n :: chunks n fuel (bs.drop n)

/-- A journal record (R669): TYPE, GROUP, CLASS, SOURCE, LAG, STAMP and DATA; data beyond 16 bytes go on in
continuation records of 32 raw bytes. -/
def State.jrn (s : State) (ty grp cls src : Nat) (lag stamp : Int) (data : List Byte) : State :=
  if s.armed then
    let more := chunks 32 (data.length + 1) (data.drop 16)
    let head := le 1 ty ++ le 1 grp ++ le 1 cls ++ le 1 more.length ++ le 2 src ++ le 2 (ofInt 16 lag) ++
      le 8 (ofInt 64 stamp) ++ padTo 16 data
    forL more (fun r t => t.jrnPut true r) (s.jrnPut false head)
  else s

/-- Whether channel `ch` is named by CAP_CH (R665). -/
def State.capBit (s : State) (ch : Nat) : Bool := bit (s.getF repB (F.CAP_CH_MASK.nth (ch / 32))) (ch % 32)

/-- The header of a capture item (R665). -/
def capHeader (kind flags ch course bytes entries : Nat) : List Byte :=
  le 2 0x4350 ++ le 1 kind ++ le 1 flags ++ le 2 ch ++ zeros 2 ++ le 8 course ++ le 4 bytes ++ le 4 entries ++ zeros 8

/-- A gap in the capture (R666): item of KIND 0x03, GAP_EV, CAP_GAPS, the GAP record and the log entry. -/
def State.capGap (s : State) (g ch course : Nat) : State :=
  let s := (s.repWrite (s.getF repB (F.CAP_RING_RING.nth (ch / 16))) (capHeader 3 0 ch course 0 1) 1 ch course).1
  let s := s.mark repB F.REPLAY_STATUS_GAP_EV
  let s := s.satF repB F.CAP_GAPS_COUNT 1
  let s := s.jrn 0x0C g 0 ch 0 (Int.ofNat course) []
  s.logReg .capGap ch g (repB + 8)

/-- The region codec has no lane for capture: THROTTLE acts, or every lane is a host lane (R666, R681). -/
def State.capStuck (s : State) (ch : Nat) : Bool :=
  s.flag thmB F.THERM_STATUS_THROTTLED || !s.hkSpare (ch / 16)

/-- A capture item (R665): KIND 0x01 with the block of the packet image, or KIND 0x02 for a missing line. A line that
the codec cannot take, and an item for which the ring has no room, is a gap (R666). -/
def State.capItem (s : State) (g ch course : Nat) (upper : Bool) (image : Option (List Byte)) : State :=
  if s.armed && s.capBit ch then
    match image with
    | none =>
      let r := s.repWrite (s.getF repB (F.CAP_RING_RING.nth (ch / 16))) (capHeader 2 0 ch course 0 1) 1 ch course
      if r.2 then r.1 else r.1.capGap g ch course
    | some im =>
      if s.capStuck ch then s.capGap g ch course
      else
        let blk := hankBlock im
        let s := s.hkCount (ch / 16) 1 im.length blk.length
        let item := capHeader 1 (if upper then 1 else 0) ch course blk.length ((32 + blk.length + 255) / 256) ++ blk
        let r := s.repWrite (s.getF repB (F.CAP_RING_RING.nth (ch / 16))) item 1 ch course
        if r.2 then r.1 else s.capGap g ch course
  else s

end Sys2Proof.Machine
end

