-- ==== Sys2Proof/Machine/Csw.lean ====
section
/-!
DEFINITION. What belongs to a course: its status word (R134, R135), the history of its trigger (R281), and the values
that govern it (R8, R45, R398 to R401).
-/

namespace Sys2Proof.Machine

/-- Numbers of the bits of a course status word (R134). -/
def cswShort : Nat := 0
def cswLong : Nat := 1
def cswMissing : Nat := 2
def cswCrc : Nat := 3
def cswLate : Nat := 4
def cswJoin : Nat := 5
def cswLeave : Nat := 6
def cswSpare : Nat := 7
def cswFailover : Nat := 8
def cswExposure : Nat := 9
def cswSeamHold : Nat := 10
def cswOverflow : Nat := 11
def cswMasked : Nat := 12

/-- The status word of course `k` of group `g` so far. -/
def State.cswOf (s : State) (g k : Nat) : Csw :=
  (s.csw.find? (fun c => c.grp == g && c.course == k)).getD { grp := g, course := k }

def State.setCsw (s : State) (c : Csw) : State :=
  { s with csw := c :: s.csw.filter (fun x => !(x.grp == c.grp && x.course == c.course)) }

/-- Set a bit of the status word of course `k`. -/
def State.cswSet (s : State) (g k b : Nat) : State :=
  let c := s.cswOf g k
  s.setCsw { c with bits := setBit c.bits b }

/-- Count a dropped stitch in course `k` (R131). -/
def State.cswMiss (s : State) (g k : Nat) : State :=
  let c := s.cswOf g k
  s.setCsw { c with bits := setBit c.bits cswMissing, miss := satAdd 16 c.miss 1 }

/-- The word itself: MISS_COUNT above the flags. -/
def Csw.word (c : Csw) : Nat := c.miss * 65536 + c.bits

/-- The history of course `k` of group `g`. -/
def State.histOf (s : State) (g k : Nat) : Option Hist :=
  (Tab.get [] g s.hist).find? (fun h => h.course == k)

/-- Every block has finished with course `k`: CRS_LAST_CSW takes the word, and with CSW_EN an entry is written
(R135). -/
def State.cswFinish (s : State) (g k : Nat) : State :=
  let c := s.cswOf g k
  let s := s.setF (crsB g) F.CRS_LAST_CSW_CSW c.word
  let s := { s with csw := s.csw.filter (fun x => !(x.grp == g && x.course == k)) }
  if s.flag (crsB g) F.CRS_CSW_RING_CSW_EN then
    let h := (s.histOf g k).getD ⟨k, 0, 0, 0⟩
    let item := le 8 k ++ le 8 (ofInt 64 h.enc) ++ le 8 h.sec ++ le 4 h.ns ++ le 4 c.word ++ zeros 32
    (s.ringPush (s.getF (crsB g) F.CRS_CSW_RING_RING) item).1
  else s

/-- The value of a field that governs course `k`: the one before the writes stamped in `k` or later (R8), and before the
swaps that take effect after it (R398, R399). -/
def State.getK (s : State) (_g : Nat) (k : Int) (b : Nat) (f : Fld) : Nat :=
  match s.oldL.find? (fun o => o.1 == f.key b && decide (k ≤ o.2.1)) with
  | some o => o.2.2
  | none => s.getF b f

/-- The same as a Boolean and as a signed number. -/
def State.flagK (s : State) (g : Nat) (k : Int) (b : Nat) (f : Fld) : Bool := s.getK g k b f == 1
def State.getIK (s : State) (g : Nat) (k : Int) (b : Nat) (f : Fld) : Int := toInt f.width (s.getK g k b f)

end Sys2Proof.Machine
end

