-- ==== Sys2Proof/Machine/LinkCode.lean ====
section
/-!
DEFINITION. The wire form of the Skein link (03_skein_link R84 to R86): 64b/66b blocks with their sync header and
scrambler, the Gray mapping of bit pairs to PAM4 symbols and their levels, and precoding. What a transmitter does here
its receiver undoes; the rows of the forward direction carry what the receiver has recovered (log entry 52).
-/

namespace Sys2Proof.Machine

/-- The 64 payload bits of a block in the order of transmission (R86, R91): octet 0 first, each octet least significant
bit first, as in Clause 49. -/
def blockBits (w : Nat) : List Bool := (be 8 w).flatMap (fun o => (List.range 8).map (bit o.toNat))

/-- The word of 64 payload bits in the order of transmission. -/
def bitsBlock (bs : List Bool) : Nat :=
  beVal ((List.range 8).map (fun i =>
    BitVec.ofNat 8 ((((bs.drop (8 * i)).take 8).foldr (fun b a => 2 * a + if b then 1 else 0) 0))))

/-- The scrambler x^58 + x^39 + 1: `st` holds the last 58 bits sent, the newest in bit 0 (R86). -/
def scramble (st : Nat) : List Bool → List Bool × Nat
  | [] => ([], st)
  | b :: bs =>
    let o := Bool.xor b (Bool.xor (bit st 38) (bit st 57))
    let r := scramble ((2 * st + if o then 1 else 0) % 2 ^ 58) bs
    (o :: r.1, r.2)

/-- The descrambler: `st` holds the last 58 bits received. -/
def descramble (st : Nat) : List Bool → List Bool × Nat
  | [] => ([], st)
  | o :: bs =>
    let r := descramble ((2 * st + if o then 1 else 0) % 2 ^ 58) bs
    (Bool.xor o (Bool.xor (bit st 38) (bit st 57)) :: r.1, r.2)

/-- The 66 bits of a block: the sync header 0b10 of a control block or 0b01 of a data block, then the scrambled payload
(R86). -/
def codedBlock (st : Nat) (ctrl : Bool) (w : Nat) : List Bool × Nat :=
  let r := scramble st (blockBits w)
  (ctrl :: (!ctrl) :: r.1, r.2)

/-- The bits of blocks one after the other. -/
def codedBlocks (st : Nat) : List (Bool × Nat) → List Bool × Nat
  | [] => ([], st)
  | b :: bs =>
    let r := codedBlock st b.1 b.2
    let q := codedBlocks r.2 bs
    (r.1 ++ q.1, q.2)

/-- The Gray symbol of a bit pair, the first bit in time the more significant (R84). -/
def graySym (a b : Bool) : Nat := if a then (if b then 2 else 3) else (if b then 1 else 0)

/-- The bit pair of a symbol. -/
def grayBits (x : Nat) : Bool × Bool := (decide (2 ≤ x), x == 1 || x == 2)

/-- The symbols of a bit stream. -/
def graySyms : List Bool → List Nat
  | a :: b :: bs => graySym a b :: graySyms bs
  | _ => []

/-- Precoding: y(k) = (x(k) − y(k−1)) mod 4, from the symbol `y` before (R85). -/
def precode (y : Nat) : List Nat → List Nat × Nat
  | [] => ([], y)
  | x :: xs =>
    let z := (x + 4 - y % 4) % 4
    let r := precode z xs
    (z :: r.1, r.2)

/-- The receiver's x(k) = (y(k) + y(k−1)) mod 4 (R85). -/
def unprecode (y : Nat) : List Nat → List Nat
  | [] => []
  | z :: zs => (z + y) % 4 :: unprecode z zs

/-- The level of a symbol: −3, −1, +1 or +3 (R84). -/
def pamLevel (x : Nat) : Int := 2 * Int.ofNat x - 3

/-- The levels of blocks on the wire, with precoding `on`, from the scrambler state and the last symbol; and both after
them. -/
def wireForm (on : Bool) (st y : Nat) (bs : List (Bool × Nat)) : List Int × Nat × Nat :=
  let c := codedBlocks st bs
  let x := graySyms c.1
  let p := if on then precode y x else (x, 0)
  (p.1.map pamLevel, c.2, p.2)

end Sys2Proof.Machine
end

