-- ==== Sys2Proof/Machine/Lanes.lean ====
section
/-!
DEFINITION. The Skein link (03_skein_link): packets and their checks, the back channel, training, lane states,
joining and leaving, ingest of line packets, and the memory source. The commands LOS_ASSERT to WAKE_BURST_TIMEOUT.
A block of the link is a 64-bit word with octet 0 in its top byte (R91).
-/

namespace Sys2Proof.Machine

def State.ln (s : State) (l : Nat) : Lane := Tab.get {} l s.lane
def State.setLn (s : State) (l : Nat) (x : Lane) : State := { s with lane := Tab.put l x s.lane }
def State.ch (s : State) (c : Nat) : Chan := Tab.get {} c s.chan
def State.setCh (s : State) (c : Nat) (x : Chan) : State := { s with chan := Tab.put c x s.chan }

/-- The state of a lane that is no register is lost with its power or by its reset. The tags of control requests stay:
their commands still end at the reply timeout (R109). -/
def State.clearLane (s : State) (l : Nat) : State :=
  s.setLn l { tags := (s.ln l).tags, nextTag := (s.ln l).nextTag }

/-- A lane's STATE (R116). -/
def State.laneState (s : State) (l : Nat) : Nat := s.getF (ingB l) F.LANE_STATUS_STATE
def State.setLane (s : State) (l st : Nat) : State := s.setF (ingB l) F.LANE_STATUS_STATE st

/-- A LANE_EVENT bit, its producer, and its log entry where it has one (R143). -/
def State.laneEvent (s : State) (l : Nat) (f : Fld) : State := s.raise (ingB l) f (0xB0 + f.lo)
def State.laneLog (s : State) (code : LogCode) (l : Nat) : State := s.logReg code l (s.groupCode l) (ingB l + 8)

/-! ## Octets, CRC-8 and packets -/

/-- Octet `i` of a block. -/
def octet (w i : Nat) : Nat := w / 2 ^ (56 - 8 * i) % 256

/-- The 8 octets of a block. -/
def octets (w : Nat) : List Byte := be 8 w

/-- CRC-8 over octets 1 to 6 (R94). -/
def crc8 (w : Nat) : Nat := crcMsb 8 0x07 0xFF (bytesMsb (sliceB (octets w) 1 6))

/-- PCRC: CRC-32C over the payload octets (R95). -/
def pcrc (ws : List Nat) : Nat := crc32c ((ws.map octets).flatten)

/-- The blocks of a packet (R93). -/
def packet (vc dt seq : Nat) (ws : List Nat) : List Nat :=
  let sop := 0x55 * 2 ^ 56 + vc * 2 ^ 54 + dt * 2 ^ 48 + ws.length * 2 ^ 32 + seq * 2 ^ 24
  (sop + crc8 sop) :: ws ++ [0xAA * 2 ^ 56 + pcrc ws * 2 ^ 24]

/-- What becomes of a received packet. -/
inductive PktCheck where
  | hcrc | pcrc | vc
  /-- no packet: its first block is no SOP (R91, R93) -/
  | none
  | ok (vc dt seq : Nat) (payload : List Nat)
  deriving DecidableEq, Repr

/-- Whether a forward VC and DT pair as R97 lists them. -/
def vcPairs (vc dt : Nat) : Bool :=
  (vc == 0 && rng 1 5 dt) || (vc == 1 && rng 0x20 0x21 dt) || (vc == 2 && rng 0x30 0x31 dt) || (vc == 3 && rng 0x38 0x3F dt)

/-- Check a forward packet (R92 to R97): `cut` when a foreign control block ended it. -/
def checkPacket (ws : List Nat) (cut : Bool) : PktCheck :=
  let sop := ws.headD 0
  let body := (ws.drop 1).dropLast
  let eop := ws.getLastD 0
  let len := octet sop 2 * 256 + octet sop 3
  if octet sop 0 ≠ 0x55 then .none
  else if octet sop 7 ≠ crc8 sop then .hcrc
  else if cut ∨ len < 1 ∨ 4100 < len ∨ body.length ≠ len ∨ ws.length < 2 ∨ octet eop 0 ≠ 0xAA ∨
      eop / 2 ^ 24 % 2 ^ 32 ≠ pcrc body then .pcrc
  else if !vcPairs (octet sop 1 / 64) (octet sop 1 % 64) then .vc
  else .ok (octet sop 1 / 64) (octet sop 1 % 64) (octet sop 4) body

/-- Count a packet that a check has discarded on lane `l` (R94, R95, R97). -/
def State.pktBad (s : State) (l : Nat) : PktCheck → State
  | .hcrc => (s.satF (ingB l) F.LANE_PKT_ERR_HCRC_CNT 1).laneEvent l F.LANE_EVENT_HCRC_ERR
  | .pcrc => s.satF (ingB l) F.LANE_PKT_ERR_PCRC_CNT 1
  | .vc => s.laneEvent l F.LANE_EVENT_VC_ERR
  | .none => s
  | .ok .. => s

/-- Note the SEQ of a packet; a gap is counted (R96). -/
def State.seqNote (s : State) (l vc seq : Nat) : State :=
  let x := s.ln l
  let gap := match Tab.find vc x.seqRx with
    | some p => decide (seq ≠ (p + 1) % 256)
    | none => false
  s.setLn l { x with seqRx := Tab.put vc seq x.seqRx, seqGaps := if gap then x.seqGaps + 1 else x.seqGaps }

/-! ## The back channel -/

/-- Send blocks on the back channel of lane `l` (R84 to R86). -/
def State.sendBlocks (s : State) (l : Nat) (bs : List (Bool × Nat)) : State :=
  let x := s.ln l
  let w := wireForm (s.flag (ingB l) F.LANE_STATUS_PRECODE_TX) x.scr x.sym bs
  (s.setLn l { x with scr := w.2.1, sym := w.2.2 }).emit (.back l bs w.1)

/-- The blocks of a packet: SOP and EOP are control blocks (R93). -/
def packetBlocks (ws : List Nat) : List (Bool × Nat) :=
  (true, ws.headD 0) :: ((ws.drop 1).dropLast.map (fun w => (false, w))) ++ [(true, ws.getLastD 0)]

/-- Send a packet on the back channel of lane `l` with the next SEQ of its VC (R93, R96). -/
def State.sendBack (s : State) (l vc dt : Nat) (ws : List Nat) : State :=
  let x := s.ln l
  let q := x.seqTx.getD vc 0
  let s := s.setLn l { x with seqTx := x.seqTx.set vc ((q + 1) % 256) }
  s.sendBlocks l (packetBlocks (packet vc dt q ws))

/-- A TRIG block for course `c` (R104). -/
def trigBlock (c : Nat) : Nat := 0x66 * 2 ^ 56 + c % 2 ^ 32 * 2 ^ 24

/-- A control request (R109): operation, tag, count, address and data. -/
def controlWords (op tag count addr : Nat) (data : List Nat) : List Nat :=
  (op * 2 ^ 56 + tag * 2 ^ 48 + count * 2 ^ 40 + addr) :: data

/-- The lowest tag of a lane that is not outstanding, from the next one on. -/
def State.freeTag (s : State) (l : Nat) : Nat :=
  let x := s.ln l
  (((List.range 256).map (fun i => (x.nextTag + i) % 256)).find? (fun t => (Tab.find t x.tags).isNone)).getD 0

/-! ## Bonds (R122 to R126) -/

/-- BOND of a lane. -/
def State.bond (s : State) (l : Nat) : Nat := s.getF (ingB l) F.LANE_CTRL_BOND

/-- The lanes of the bond or pair that lane `l` belongs to. -/
def State.bondLanes (s : State) (l : Nat) : List Nat :=
  let n := if s.bond l = 0 then 1 else if s.bond l = 2 then 4 else 2
  (List.range n).map (· + (l - l % n))

/-- The channels that lane `l` feeds (R124, R125). -/
def State.fedBy (s : State) (l : Nat) : List Nat :=
  if s.bond l = 3 then [l - l % 2] else s.bondLanes l

/-- Whether lane `l` takes its lines from memory (R138). -/
def State.fromMem (s : State) (l : Nat) : Bool := s.flag (ingB l) F.LANE_CTRL_SRC_SEL

/-- A lane that may join (R117): READY or JOINED, and not on hold. -/
def State.laneOk (s : State) (l : Nat) : Bool :=
  (s.laneState l == 5 || s.laneState l == 6) && !(s.ln l).hold

/-- Whether the join condition of channel `ch` holds: its lane, every lane of its bond locked and aligned, or either
lane of its pair (R117, R123, R125, R126). -/
def State.chanReady (s : State) (ch : Nat) : Bool :=
  if s.bond ch = 0 then s.laneOk ch
  else if s.bond ch = 3 then ch % 2 == 0 && (s.laneOk ch || s.laneOk (ch + 1))
  else (s.bondLanes ch).all (fun l =>
    s.laneOk l && (s.fromMem l || (s.flag (ingB l) F.LANE_STATUS_LOCK && (s.ln l).aligned)))

def State.joined (s : State) (ch : Nat) : Bool := s.flag (ingB ch) F.ING_STATUS_JOINED

/-- Whether course `k` lies in one of a list of spans: first course, and the first after it where it has ended. -/
def inSpans (l : List (Nat × Option Nat)) (k : Nat) : Bool :=
  l.any (fun p => decide (p.1 ≤ k) && match p.2 with
    | some e => decide (k < e)
    | none => true)

/-- Whether channel `ch` is joined at course `k` (R117 to R119). -/
def Chan.expects (c : Chan) (k : Nat) : Bool := inSpans c.spans k

/-- Whether the spare of its region processes course `k` of the channel (R684). -/
def Chan.spareAt (c : Chan) (k : Nat) : Bool := inSpans c.spares k

/-- A leave condition of lane `l` (R119, R124, R126): the channels it feeds leave at the next boundary. -/
def State.laneLeaves (s : State) (l : Nat) : State :=
  let other := if l % 2 = 0 then l + 1 else l - 1
  if s.bond l = 3 ∧ s.laneState other = 6 then s.laneLog .dualLane l
  else forL ((s.fedBy l).filter s.joined) (fun ch t => t.setCh ch { t.ch ch with leaving := true }) s

/-- The markers of lane `l` are no longer aligned (R123). -/
def State.unalign (s : State) (l : Nat) : State := s.setLn l { s.ln l with aligned := false, align := none }

/-- The state of lane `l` changes; a joined lane that goes leaves, also one that goes idle (log entry 53). A lane that trains
or goes idle loses its alignment. -/
def State.laneTo (s : State) (l st : Nat) : State :=
  let was := s.laneState l
  let s := s.setLane l st
  let s := if st < 3 ∨ 7 ≤ st then s.unalign l else s
  if was = 6 ∧ st ≠ 6 then s.laneLeaves l else s

/-- REMOVE (R116, R119). -/
def State.laneRemove (s : State) (l : Nat) : State :=
  let s := (s.laneEvent l F.LANE_EVENT_REMOVE).laneLog .remove l
  let s := (s.laneTo l 1).pnlEvent 4 l 2 []
  s.setLn l { s.ln l with announced := false, hold := false, waking := false }

/-- A lane joins (R96, R117): it is JOINED, and SEQ starts from zero. So does the own CAM_LINE count of a memory source, whose
start R137 leaves open (DESIGN CHOICE, log entry 65). -/
def State.laneJoin (s : State) (l : Nat) : State :=
  (s.setLane l 6).setLn l { s.ln l with seqTx := [0, 0, 0, 0], lineSince := false, memLine := 0 }

/-- A join of channel `ch` from course `c` (R117, R121): its lanes are JOINED, SEQ starts from zero. -/
def State.chanJoin (s : State) (g ch c : Nat) : State :=
  let s := s.setF (ingB ch) F.ING_STATUS_JOINED 1
  let x := s.ch ch
  let s := s.setCh ch { x with spans := x.spans ++ [(c, none)], leaving := false, lastExp := none }
  let s := forL ((s.bondLanes ch).filter s.laneOk) (fun l t => t.laneJoin l) s
  let s := s.cswSet g c cswJoin
  (s.pnlEvent 4 ch 3 []).jrn 0x08 g 6 ch 0 (Int.ofNat c) [1]

/-- Close the open span of a channel at course `c`. -/
def endSpan (c : Nat) : List (Nat × Option Nat) → List (Nat × Option Nat)
  | [] => []
  | (a, none) :: ps => (a, some c) :: endSpan c ps
  | p :: ps => p :: endSpan c ps

/-- The joined lanes of a bond or pair that channel `ch` has left go back to READY, unless another channel of the bond
stays (R116, R124). -/
def State.lanesBack (s : State) (ch : Nat) : State :=
  if (s.bondLanes ch).any (fun c => s.joined c && !(s.ch c).leaving) then s
  else forL ((s.bondLanes ch).filter (fun l => s.laneState l == 6)) (fun l t => t.setLane l 5) s

/-- A leave of channel `ch` at the boundary before course `c` (R119, R121, R124). -/
def State.chanLeave (s : State) (g ch c : Nat) : State :=
  let s := s.setF (ingB ch) F.ING_STATUS_JOINED 0
  let x := s.ch ch
  let s := (s.setCh ch { x with spans := endSpan c x.spans, leaving := false }).lanesBack ch
  let s := s.cswSet g c cswLeave
  (s.pnlEvent 4 ch 4 []).jrn 0x08 g 6 ch 0 (Int.ofNat c) [2]

/-- The joins and leaves at the boundary that opens course `c` of group `g` (R117, R119): a channel that leaves there and
whose lane is READY again joins at the same boundary (log entry 9). -/
def State.members (s : State) (g c : Nat) : State :=
  forL (s.runChans g) (fun ch t =>
    let t := if (t.ch ch).leaving && t.joined ch then t.chanLeave g ch c else t
    if !t.joined ch && (t.ch ch).lostAt.isNone && t.chanReady ch then t.chanJoin g ch c
    else if t.joined ch && t.bond ch == 3 then
      forL ((t.bondLanes ch).filter (fun l => t.laneState l == 5 && t.laneOk l)) (fun l u => u.laneJoin l) t
    else t) s

/-- The lanes on which channel `ch` of group `g` is sent TRIG blocks (R124, R125): those of a bond go on its lowest lane,
once for all its joined channels. -/
def State.trigLanes (s : State) (g ch : Nat) : List Nat :=
  if s.bond ch = 3 then [ch, ch + 1].filter (fun l => s.laneState l == 6)
  else if s.bond ch = 0 then [ch]
  else if (s.bondLanes ch).find? (fun c => s.inRun g c && s.joined c) = some ch then [(s.bondLanes ch).headD ch]
  else []

/-- TRIG blocks and time packets at the trigger of course `c` (R104, R108); a lane with the memory source sends
nothing (R138). -/
def State.sendTrigs (s : State) (g c : Nat) : State :=
  forL ((s.runChans g).filter s.joined) (fun ch t =>
    forL ((t.trigLanes g ch).filter (fun l => !t.fromMem l)) (fun l u =>
      let u := u.sendBlocks l [(true, trigBlock c)]
      let per := u.getF (ingB ch) F.ING_TIME_TIME_PER
      if per ≠ 0 ∧ c % per = 0 then u.sendBack l 2 0x42 [c % 2 ^ 32 * 2 ^ 32 + u.ns, u.sec] else u) t) s

/-! ## Accepting lines (R127 to R133) -/

/-- Cut a bit stream, most significant bit first, into samples of `w` bits. -/
def samplesOf (w : Nat) : Nat → List Bool → List Nat
  | 0, _ => []
  | n + 1, bs =>
    if bs.length < w then []
    else ((bs.take w).foldl (fun a b => 2 * a + if b then 1 else 0) 0) :: samplesOf w n (bs.drop w)

/-- The bits of payload words, in wire order (R99). -/
def wordBits (ws : List Nat) : List Bool := (ws.map (bitsMsb 64)).flatten

/-- The sample width of a line, none for a DEPTH code out of range (R99, R102). -/
def lineWidth (dt depth : Nat) : Option Nat :=
  if dt = 1 then some 8 else if dt = 2 then some 10 else if dt = 3 then some 12 else if dt = 4 then some 16
  else if depth = 1 then some 8 else if depth = 2 then some 10 else if depth = 3 then some 12
  else if depth = 4 then some 16 else none

/-- The extended course of an echo against the course view `v` (R101). -/
def extendEcho (v : Int) (echo : Nat) : Int :=
  let lo := v - 2 ^ 31 + 1
  lo + (Int.ofNat echo - lo) % 2 ^ 32

/-- Whether course `k` of channel `ch` is already decided (R128). -/
def State.decided (s : State) (ch : Nat) (k : Int) : Bool :=
  let x := s.ch ch
  decide (k < Int.ofNat x.next) || !x.expects k.toNat ||
    x.lines.any (fun l => Int.ofNat l.course == k && l.missing)

/-- Whether channel `ch` holds a line of course `k`. -/
def Chan.holds (c : Chan) (k : Nat) : Bool := c.lines.any (fun l => l.course == k && !l.missing)

/-- Courses of a channel that are neither started nor decided and have no line, oldest first. -/
def State.waitingCourses (s : State) (g ch : Nat) : List Nat :=
  let x := s.ch ch
  let v := (s.stampG g + 1).toNat
  ((List.range (v - x.next)).map (· + x.next)).filter (fun k => x.expects k && !x.lines.any (fun l => l.course == k))

/-- The course to which a discarded packet is attributed (R134, bit 3). -/
def State.crcCourse (s : State) (g ch : Nat) : Nat :=
  ((s.waitingCourses g ch).head?).getD (s.stampG g).toNat

/-- Course `k` of channel `ch` is declared missing (R129, R131). -/
def State.declareMissing (s : State) (g ch k : Nat) : State :=
  let x := s.ch ch
  let s := s.setCh ch { x with lines := x.lines.filter (fun l => l.course != k) ++ [({ course := k, missing := true } : Line)] }
  let s := (s.satF (ingB ch) F.MISS_CNT_COUNT 1).cswMiss g k
  s.capItem g ch k false none

/-- The parts of a line packet that the checks and the slot need. -/
def lineOf (lineLen course : Nat) (w : Nat) (ws : List Nat) (image : List Byte) (upper : Bool) : Line :=
  let w1 := ws.getD 1 0
  let pixels := bits w1 31 16
  let got := samplesOf w (min pixels lineLen) (wordBits (ws.drop 2))
  { course := course, samples := got, width := w, exp := bits w1 63 48, temp := toInt 16 (bits w1 47 32),
    flags := bits w1 2 0, cam := bits (ws.headD 0) 63 32, upper := upper,
    long := decide (lineLen < min pixels ((ws.length - 2) * 64 / w)), image := image }

/-- The courses before `k` that map to its slot and are still undecided or unstarted (R129). -/
def State.slotBefore (s : State) (ch k : Nat) : List Nat :=
  ((List.range (k / 8)).map (fun i => k % 8 + 8 * i)).filter (fun j =>
    decide ((s.ch ch).next ≤ j) && !s.decided ch (Int.ofNat j))

/-- A line is accepted into its slot (R127, R129, R130): the last-line registers, the counters and flags of R130, the
EXPOSURE and FAILOVER flags of R134. -/
def State.acceptLine (s : State) (g ch l : Nat) (ln : Line) : State :=
  let k := ln.course
  let s := forL (s.slotBefore ch k) (fun j t => (t.declareMissing g ch j).satF (ingB ch) F.BUF_OVR_COUNT 1) s
  let b := ingB ch
  let x := s.ch ch
  let s := s.setCh ch
    { x with
      lines := x.lines.filter (fun o => !(o.course % 8 == k % 8 && o.course < x.next)) ++ [ln]
      lastExp := some ln.exp
      everLine := true
      temps := ((k, ln.temp) :: x.temps).take 16
      uppers := x.uppers.filter (fun o => o.course != k)
      lowerBad := x.lowerBad.filter (· != k) }
  let s := s.setF b F.ING_LAST_LINE_CAM_LINE ln.cam
  let s := s.setF b F.ING_LAST_EXP_EXP_ID ln.exp
  let s := s.setI b F.ING_LAST_EXP_TEMP ln.temp
  let s := s.setF b F.ING_STATUS_DUAL_UPPER (if ln.upper then 1 else 0)
  let on := if s.bond ch = 1 ∨ s.bond ch = 2 then s.bondLanes ch else [l]
  let s := forL on (fun m t => t.setLn m { t.ln m with last := some (k, ln.cam, ln.exp), lineSince := true }) s
  let short := decide (ln.samples.length < s.getF b F.ING_CFG_LINE_LEN)
  let s := if short then (s.satF b F.SHORT_CNT_COUNT 1).cswSet g k cswShort else s
  let s := if ln.long then (s.satF b F.LONG_CNT_COUNT 1).cswSet g k cswLong else s
  let s := if x.lastExp ≠ none ∧ x.lastExp ≠ some ln.exp then s.cswSet g k cswExposure else s
  if ln.upper then s.cswSet g k cswFailover else s

/-- A line packet that failed HCRC or PCRC on a joined channel (R125, R128, R134). -/
def State.lineBad (s : State) (g ch l : Nat) : State :=
  let s := s.satF (ingB ch) F.CRC_CNT_COUNT 1
  let k := s.crcCourse g ch
  let s := s.cswSet g k cswCrc
  if s.bond ch = 3 ∧ l = ch then
    let x := s.ch ch
    match x.uppers.find? (fun o => o.course == k) with
    | some u => s.acceptLine g ch (l + 1) u
    | none => s.setCh ch { x with lowerBad := k :: x.lowerBad }
  else s

/-- The check table of R128 for channel `ch`, for a packet of lane `l` that passed its CRCs; `dt` and the payload. The silent
discard of a plane not selected (R102) stands after LEN and before DEPTH and the slot, and an upper copy whose course already
holds the lower one counts in DUP_LINE (R125): DESIGN CHOICE, log entry 65. -/
def State.lineChecks (s : State) (g ch l dt : Nat) (ws : List Nat) (image : List Byte) : State :=
  let b := ingB ch
  let depth := bits (ws.getD 1 0) 11 8
  let plane := bits (ws.getD 1 0) 15 12
  let len := s.getF b F.ING_CFG_LINE_LEN
  if dt ≠ s.getF b F.ING_FMT_DT_EXPECT then s.satF b F.DT_ERR_COUNT 1
  else if ws.length < 2 then s.satF b F.DT_ERR_COUNT 1
  else if dt = 5 ∧ plane ≠ s.getF b F.ING_FMT_PLANE_SEL then s
  else
    match lineWidth dt depth with
    | none => s.satF b F.DT_ERR_COUNT 1
    | some w =>
      if dt = 5 ∧ 196608 < w * len then s.satF b F.DT_ERR_COUNT 1
      else
        let v := extendEcho (s.stampG g) (bits (ws.headD 0) 31 0)
        if s.stampG g + 1 < v then s.satF b F.ECHO_ERR_COUNT 1
        else if v < 0 ∨ s.decided ch v then s.satF b F.LATE_LINE_COUNT 1
        else if (s.ch ch).holds v.toNat then s.satF b F.DUP_LINE_COUNT 1
        else
          let upper := s.bond ch == 3 && l != ch
          let ln := lineOf len v.toNat w ws image upper
          let x := s.ch ch
          if upper && s.laneState ch == 6 && !x.lowerBad.contains v.toNat then
            s.setCh ch { x with uppers := x.uppers ++ [ln] }
          else s.acceptLine g ch l ln

/-- The image of a packet (R136). -/
def imageOf (ws : List Nat) : List Byte := (ws.map octets).flatten

/-- The channel of a group that has stopped is no longer joined once each of its courses is decided: its lanes go back to
READY (R21, R128, R131; log entry 54). -/
def State.settle (s : State) (g ch : Nat) : State :=
  if (s.g g).st == 3 && s.joined ch && (s.waitingCourses g ch).isEmpty then
    (s.setF (ingB ch) F.ING_STATUS_JOINED 0).lanesBack ch
  else s

/-- The lines that lane `l` brings: each channel it feeds that is joined takes them in its group (R124, R128). -/
def State.lineTo (s : State) (l : Nat) (f : Nat → Nat → State → State) : State :=
  forL ((s.fedBy l).filter s.joined) (fun ch t =>
    match t.workGroup ch with
    | some g => (f g ch t).settle g ch
    | none => t) s

/-- A line packet of lane `l`: each channel the lane feeds checks it while it is joined (R124, R128). -/
def State.linePacket (s : State) (l : Nat) (ws : List Nat) (cut : Bool) : State :=
  let r := checkPacket ws cut
  let s := s.pktBad l r
  match r with
  | .vc | .none => s
  | .ok vc dt seq body =>
    let s := s.seqNote l vc seq
    if vc ≠ 0 then s else s.lineTo l (fun g ch t => t.lineChecks g ch l dt body (imageOf ws))
  | _ => s.lineTo l (fun g ch t => t.lineBad g ch l)

/-- LINE_PACKET_RECEIVED: a line packet arrives on a lane that is not in OFF and takes the wire (R128, R136). -/
def execLinePacketReceived (l : Fin 128) (words : List (BitVec 64)) (cut : Bool) (s : State) :
    Host.Outcome State Fault Refusal :=
  .next (if s.laneState l ≠ 0 ∧ !s.fromMem l then s.linePacket l (words.map BitVec.toNat) cut
    else s)

/-- LINE_TIMEOUT: LINE_TMO after its close, the oldest course of the lane's channel that is closed and undecided is
declared missing; a dual-attach channel first takes the upper copy (R125, R131). -/
def execLineTimeout (l : Fin 128) (s : State) : Host.Outcome State Fault Refusal :=
  .next (match s.workGroup l with
    | some g =>
      match (s.waitingCourses g l).head? with
      | some k =>
        if (s.g g).closed.any (fun c => decide (k ≤ c)) then
          (match ((s.ch l).uppers.find? (fun (o : Line) => o.course == k)) with
          | some u => s.acceptLine g l (l + 1) u
          | none => s.declareMissing g l k).settle g l
        else s
      | none => s
    | none => s)

/-! ## The memory source (R136 to R138) -/

/-- The 64-bit words of a packet image. -/
def imageWords (bs : List Byte) : List Nat := (chunks 8 (bs.length + 1) bs).map beVal

/-- Lanes that take lines from memory are READY while their ring is configured (R138). -/
def State.msrcUpdate (s : State) : State :=
  forN 128 (fun l t =>
    if t.fromMem l && t.flag (ingB l) F.LANE_CTRL_EN then
      let ok := t.ringOk (t.getF (ingB l) F.MSRC_RING_RING) false
      if ok && t.laneState l != 5 && t.laneState l != 6 then t.setLane l 5
      else if !ok then t.laneTo l 1 else t
    else t) s

/-- The rings that the block of a lane names, with whether it writes them, which is also whether their entries have 256 bytes:
the camera-data ring and the memory-source ring (R98, R136, R509). -/
def State.laneRings (s : State) (l : Nat) : List (Nat × Bool) :=
  (if s.flag (ingB l) F.CAM_RING_CAM_EN then [(s.getF (ingB l) F.CAM_RING_RING, true)] else []) ++
    if s.fromMem l then [(s.getF (ingB l) F.MSRC_RING_RING, false)] else []

/-- The status of enabling a lane with its rings (R509, R520, R525). -/
def State.laneStatus (s : State) (l : Nat) : Nat :=
  let rs := s.laneRings l
  let new := (rs.filter (fun r => !r.2 && (s.subOf r.1 (ingB l)).isNone)).map (·.1)
  if !rs.all (fun r => s.ringOk r.1 r.2) then stBadParam
  else if !s.canPin (rs.map (·.1)) || !s.canSubs new then stNoResource
  else stOk

/-- The rings of an enabled lane are bound, and it is a subscriber of the one it reads (R514, R520). -/
def State.laneBind (s : State) (l : Nat) : State :=
  let b := ingB l
  let want := if s.flag b F.LANE_CTRL_EN then s.laneRings l else []
  if s.binds.filter (fun e => e.2.1 == b) == want.map (fun r => (r.1, b, r.2)) then s
  else
    forL want (fun r t =>
      let t := t.bind r.1 b r.2
      if r.2 then t else t.subBlock r.1 b) ((s.unsubAll b).unbind b)

/-- What the memory source of lane `l` makes of an image for course `c` (R128, R137): CRS_ECHO is overwritten with the course
and CAM_LINE with the lane's own count; `none` is an image whose decompression failed, which counts as a packet whose PCRC
failed (R561). -/
def State.msrcLine (s : State) (l c count : Nat) (im : Option (List Byte)) : State :=
  match im with
  | none => (s.pktBad l .pcrc).lineTo l (fun g ch t => t.lineBad g ch l)
  | some im =>
    match checkPacket (imageWords im) false with
    | .ok 0 dt _ (_ :: rest) =>
      s.lineTo l (fun g ch t => t.lineChecks g ch l dt ((count * 2 ^ 32 + c % 2 ^ 32) :: rest) im)
    | .ok .. | .none => s
    | .vc => s.pktBad l .vc
    | bad => (s.pktBad l bad).lineTo l (fun g ch t => t.lineBad g ch l)

/-- The memory source of lane `l` delivers its next entry for course `c` (R136, R137). With an empty ring no line comes, and
the course is declared missing as on the wire (R131; DEDUCED, log entry 65). Nor does one come of a compressed image while
every lane of the codec serves host jobs (R559; DESIGN CHOICE, log entry 19). -/
def State.msrcDeliver (s : State) (l c : Nat) : State :=
  let ring := s.getF (ingB l) F.MSRC_RING_RING
  let blk := ingB l
  if s.avail ring blk = 0 then s
  else
    let p := s.readEntry ring blk 0 l
    let s := p.1.take ring blk 1
    match p.2 with
    | .error _ => s
    | .ok b =>
      let s := if bit (leAt b 12 4) 1 then s.consIrq ring else s
      let x := s.ln l
      let s := s.setLn l { x with memLine := (x.memLine + 1) % 2 ^ 32 }
      let q := s.memRead 0 l (leAt b 0 5) (leAt b 8 4)
      match q.2 with
      | .error _ => q.1
      | .ok raw =>
        if !bit (leAt b 12 4) 0 then q.1.msrcLine l c x.memLine (some raw)
        else if q.1.hkSpare (l / 16) then
          let r := q.1.hkUnpack (l / 16) raw
          r.1.msrcLine l c x.memLine r.2
        else q.1

/-- The lanes from which channel `ch` of group `g` takes lines: its own, both of a pair, and those of a bond once for all its
joined channels (R124, R125). -/
def State.lineLanes (s : State) (g ch : Nat) : List Nat :=
  if s.bond ch = 3 then [ch, ch + 1]
  else if s.bond ch = 0 then [ch]
  else if (s.bondLanes ch).find? (fun c => s.inRun g c && s.joined c) = some ch then s.bondLanes ch
  else []

/-- The memory sources with PACE = 0 deliver at the trigger of course `c` (R137). -/
def State.msrcTrigger (s : State) (g c : Nat) : State :=
  forL ((s.runChans g).filter s.joined) (fun ch t =>
    forL ((t.lineLanes g ch).filter (fun l => t.fromMem l && t.laneState l == 6 && !t.flag (ingB l) F.LANE_CTRL_PACE))
      (fun l u => u.msrcDeliver l c) t) s

/-! ## Camera data, control replies, identification -/

/-- A packet bound for the camera-data ring (R98), which is bound while the lane is enabled (R514). The places of the six
header values are log entry 10. -/
def State.camData (s : State) (l vc dt : Nat) (ws : List Nat) : State :=
  let b := ingB l
  if s.flag b F.CAM_RING_CAM_EN && s.ringOk (s.getF b F.CAM_RING_RING) true &&
      s.binds.contains (s.getF b F.CAM_RING_RING, b, true) then
    let last := (s.ln l).last.getD (0, 0, 0)
    let head := le 1 l ++ le 1 vc ++ le 1 dt ++ zeros 1 ++ le 2 ws.length ++ le 2 last.2.2 ++ le 8 last.1
    (s.ringPush (s.getF b F.CAM_RING_RING) (head ++ imageOf ws)).1
  else s

/-- CAMERA_DATA_PACKET: a packet of VC 1, VC 3, or housekeeping of another subtype (R97, R98). -/
def execCameraDataPacket (l : Fin 128) (words : List (BitVec 64)) (cut : Bool) (s : State) :
    Host.Outcome State Fault Refusal :=
  .next (if s.laneState l = 0 then s else
    match checkPacket (words.map BitVec.toNat) cut with
    | .ok vc dt seq body =>
      let s := s.seqNote l vc seq
      if vc = 1 ∨ vc = 3 ∨ (vc = 2 ∧ dt = 0x30 ∧ octet (body.headD 0) 0 ≠ 1) then s.camData l vc dt body else s
    | bad => s.pktBad l bad)

/-- Give the command that sent the request of a tag its result (R109). -/
def State.tagDone (s : State) (l tag status : Nat) (params : List Byte) : State :=
  match Tab.find tag (s.ln l).tags with
  | none => s
  | some (sess, seq, _) =>
    let x := s.ln l
    let s := s.setLn l { x with tags := Tab.del tag x.tags }
    { s with sess := s.sess.map (fun e =>
        if e.id = sess then { e with outst := e.outst.map (fun o =>
          if o.hdr.seq.toNat = seq then finishIn 0x0304 status params o else o) } else e) }

/-- CONTROL_REPLY_RECEIVED: a control reply (DT 0x31) completes the host's command; it also goes to the camera-data
ring (R97, R109). -/
def execControlReplyReceived (l : Fin 128) (words : List (BitVec 64)) (s : State) : Host.Outcome State Fault Refusal :=
  .next (if s.laneState l = 0 then s else
    match checkPacket (words.map BitVec.toNat) false with
    | .ok vc dt seq body =>
      let s := s.seqNote l vc seq
      if vc = 2 ∧ dt = 0x31 then
        let w := body.headD 0
        let tag := octet w 1
        let op := ((Tab.find tag (s.ln l).tags).map (fun t => t.2.2)).getD 0
        let data := if op = 1 then ((body.drop 1).take (octet w 2)).flatMap (be 8) else []
        (s.camData l vc dt body).tagDone l tag 0 (be 1 (octet w 0) ++ zeros 3 ++ data)
      else s
    | bad => s.pktBad l bad)

/-- CONTROL_REPLY_TIMEOUT: a reply has not come within 10 ms (R109). -/
def execControlReplyTimeout (l : Fin 128) (tag : Fin 16) (s : State) : Host.Outcome State Fault Refusal :=
  .next (match (s.ln l).tags[tag.val]? with
    | some t => s.tagDone l t.1 stHwFault []
    | none => s)

/-- Whether an IDENT sets IDENT_MISMATCH (R110, R111). -/
def State.identBad (s : State) (l : Nat) (ws : List Nat) : Bool :=
  let w0 := ws.headD 0
  let w2 := ws.getD 2 0
  let b := ingB l
  let attach := bits w2 39 38
  let size := bits w2 37 36
  let idx := bits w2 35 32
  let bondOk := match s.bond l with
    | 0 => attach == 0
    | 1 => attach == 1 && size == 1 && idx == l % 2
    | 2 => attach == 1 && size == 2 && idx == l % 4
    | _ => attach == 2 && size == 1 && idx == l % 2
  decide (ws.length ≠ 4) || bits w0 55 48 != 1 || !bondOk ||
    (s.flag b F.LANE_CTRL_EXPECT_EN &&
      !(bits w0 47 32 == s.getF b F.CAM_EXPECT_VENDOR && bits w0 31 16 == s.getF b F.CAM_EXPECT_MODEL))

/-- An IDENT (R110, R111, R116, R119). -/
def State.ident (s : State) (l : Nat) (ws : List Nat) : State :=
  let b := ingB l
  let bad := s.identBad l ws
  let changed := s.laneState l == 6 && ws.getD 1 0 != s.getF b F.CAM_ID1_ID1
  let s := s.setF b F.CAM_ID0_ID0 (ws.headD 0)
  let s := s.setF b F.CAM_ID1_ID1 (ws.getD 1 0)
  let s := s.setF b F.CAM_ID2_ID2 (ws.getD 2 0)
  let s := s.setLn l { s.ln l with hold := bad }
  let s := if bad then
      ((s.laneEvent l F.LANE_EVENT_IDENT_MISMATCH).laneLog .identMismatch l).pnlEvent 4 l 5 []
    else s
  if s.laneState l = 4 then s.laneTo l 5
  else if s.laneState l = 6 ∧ (bad ∨ changed) then s.laneTo l 5
  else s

/-- IDENT_RECEIVED: a packet of DT 0x30 and subtype 0x01 (R110, R111). -/
def execIdentReceived (l : Fin 128) (words : List (BitVec 64)) (s : State) : Host.Outcome State Fault Refusal :=
  .next (if s.laneState l = 0 then s else
    match checkPacket (words.map BitVec.toNat) false with
    | .ok vc dt seq body =>
      let s := s.seqNote l vc seq
      if vc = 2 ∧ dt = 0x30 ∧ octet (body.headD 0) 0 = 1 then s.ident l body else s
    | bad => s.pktBad l bad)

/-! ## Signal, lock and training -/

/-- LOS_ASSERT: the amplitude stays below LOS_THR for 100 ns (R88). -/
def execLosAssert (l : Fin 128) (s : State) : Host.Outcome State Fault Refusal :=
  .next (if s.laneState l = 0 then s else (s.setF (ingB l) F.LANE_STATUS_LOS 1).laneEvent l F.LANE_EVENT_LOS_EV)

/-- LOS_CLEAR: the amplitude stays above LOS_THR + LOS_HYS for 1 µs (R88): what IDLE_ENT announced is over (R114). -/
def execLosClear (l : Fin 128) (s : State) : Host.Outcome State Fault Refusal :=
  .next (if s.laneState l = 0 then s
    else (s.setF (ingB l) F.LANE_STATUS_LOS 0).setLn l { s.ln l with waking := false, announced := false })

/-- A step of a coefficient: its new value and the code of its status (R90, R112): 0 no change, 1 updated, 2 at
limit, 3 refused because MAIN would fall below 20. -/
def firStep (req v top other : Nat) : Nat × Nat :=
  if req = 1 then (if v = top then (v, 2) else if 20 ≤ v + other then (v, 3) else (v + 1, 1))
  else if req = 2 then (if v = 0 then (v, 2) else (v - 1, 1))
  else (v, 0)

/-- The device's training control block: PRESET, statuses, RX_READY, precoding, frame count, ROLE and CRC-8 (R112, R115).
The device requests no step of the camera's coefficients: its policy is its own. -/
def trnBlock (preset : Bool) (preSt postSt frame : Nat) (ready preReq preOn : Bool) : Nat :=
  let w := 0x33 * 2 ^ 56 + (if preset then 8 else 0) * 2 ^ 48 + (preSt * 64 + postSt * 16) * 2 ^ 40 +
    ((if ready then 128 else 0) + (if preReq then 64 else 0) + (if preOn then 32 else 0)) * 2 ^ 32 +
    frame % 256 * 2 ^ 24 + 128 * 2 ^ 16
  w + crc8 w

/-- Send a training frame: the TRN block and 255 data blocks whose payload is zero (R112). -/
def State.sendFrame (s : State) (l trn : Nat) : State :=
  (s.sendBlocks l ((true, trn) :: List.replicate 255 (false, 0))).setLn l { s.ln l with frame := ((s.ln l).frame + 1) % 256 }

/-- The training starts anew: the preset of the FIR, or LANE_TXFIR, and no precoding (R90, R112, R113); the device sends
training frames, with PRESET after a long idle period (R115). -/
def State.trainStart (s : State) (l : Nat) (preset : Bool := false) : State :=
  let b := ingB l
  let ovr := s.flag b F.LANE_CTRL_FIR_OVR
  let s := s.setF b F.LANE_STATUS_PRECODE_RX 0
  let s := s.setF b F.LANE_STATUS_PRECODE_TX 0
  let s := s.setLn l { s.ln l with
    trnReady := 0
    pre := if ovr then s.getF b F.LANE_TXFIR_PRE else 0
    post := if ovr then s.getF b F.LANE_TXFIR_POST else 0 }
  let s := s.laneTo l 2
  s.sendFrame l (trnBlock preset 0 0 (s.ln l).frame false (s.flag b F.LANE_CTRL_PRECODE_ALLOW) false)

/-- INSERT_DEBOUNCE: LOS has been clear for 10 ms in NO_CAMERA (R116). -/
def execInsertDebounce (l : Fin 128) (s : State) : Host.Outcome State Fault Refusal :=
  .next (if s.laneState l = 1 ∧ !s.flag (ingB l) F.LANE_STATUS_LOS ∧ !s.fromMem l then
    ((s.laneEvent l F.LANE_EVENT_INSERT).pnlEvent 4 l 1 []).trainStart l
  else s)

/-- BLOCK_LOCK: 64 consecutive valid headers; `bad` invalid ones were seen before (R87, R115, R116). -/
def execBlockLock (l : Fin 128) (bad : Nat) (s : State) : Host.Outcome State Fault Refusal :=
  .next (if s.laneState l = 0 then s else
    let s := s.satF (ingB l) F.LANE_HDR_ERR_HDR_ERR bad
    let s := s.setF (ingB l) F.LANE_STATUS_LOCK 1
    let s := s.setLn l { s.ln l with announced := false, waking := false }
    if s.laneState l = 3 then s.laneTo l 4 else if s.laneState l = 7 then s.laneTo l 5 else s)

/-- LOCK_LOSS: 16 of the last 64 headers are invalid; `bad` invalid ones were seen since the last report (R87). -/
def execLockLoss (l : Fin 128) (bad : Nat) (s : State) : Host.Outcome State Fault Refusal :=
  .next (if s.laneState l = 0 then s else
    let s := s.satF (ingB l) F.LANE_HDR_ERR_HDR_ERR bad
    let s := (s.setF (ingB l) F.LANE_STATUS_LOCK 0).unalign l
    if (s.ln l).announced then s else s.laneEvent l F.LANE_EVENT_LOL_EV)

/-- LOL_GRACE_EXPIRY: loss of lock has lasted 100 µs: a joined lane leaves (R119, R120). R116 names NO_CAMERA or READY as the
next state; the model takes NO_CAMERA (DESIGN CHOICE, log entry 65). -/
def execLolGraceExpiry (l : Fin 128) (s : State) : Host.Outcome State Fault Refusal :=
  .next (if s.laneState l = 6 ∧ !s.flag (ingB l) F.LANE_STATUS_LOCK ∧ !s.fromMem l then s.laneTo l 1 else s)

/-- LOS_REMOVE_TIMEOUT: LOS that no IDLE_ENT announced has lasted 100 µs (R116, R119). -/
def execLosRemoveTimeout (l : Fin 128) (s : State) : Host.Outcome State Fault Refusal :=
  .next (if 2 ≤ s.laneState l ∧ s.flag (ingB l) F.LANE_STATUS_LOS ∧ !(s.ln l).announced ∧ !s.fromMem l then s.laneRemove l
    else s)

/-- Codes of the eight DFE taps as LMS has left them: −127 to 127 steps each, which ones the spec does not fix (R89). -/
def tapCodes (free : Nat) : Nat :=
  ((List.range 8).map (fun i => ofInt 8 (Int.ofNat (free / 2 ^ (8 * i) % 256 % 255) - 127) * 2 ^ (8 * i))).sum

/-- The DFE adapts (R89); ADAPT_FREEZE holds it. -/
def State.dfeAdapts (s : State) (l : Nat) : State :=
  if s.flag (ingB l) F.LANE_CTRL_ADAPT_FREEZE then s
  else (s.setF (ingB l) F.LANE_DFE_TAPS (tapCodes (Config.freeBits 64 s.freeCtr).toNat)).tickFree

/-- The receiver has adapted: its codes are as it has found them, which the spec does not fix; ADAPT_FREEZE holds them
(R89, R140). -/
def State.adapted (s : State) (l : Nat) : State :=
  if s.flag (ingB l) F.LANE_CTRL_ADAPT_FREEZE then s
  else ((s.setF (ingB l) F.LANE_RXEQ_CTLE (Config.freeBits 4 s.freeCtr).toNat).tickFree).dfeAdapts l

/-- Training has ended (R112, R116): IDLE blocks follow, and the lane waits for LOCK, which it may already have. -/
def State.trainEnd (s : State) (l : Nat) : State :=
  let s := (s.sendBlocks l [(true, 0x1E * 2 ^ 56)]).laneTo l 3
  if s.flag (ingB l) F.LANE_STATUS_LOCK then s.laneTo l 4 else s

/-- TRAINING_FRAME_RECEIVED: the camera's training frame; `ready` tells whether the device's receiver has adapted
(R112, R113). -/
def execTrainingFrameReceived (l : Fin 128) (trn : BitVec 64) (ready : Bool) (s : State) :
    Host.Outcome State Fault Refusal :=
  let w := trn.toNat
  let b := ingB l
  .next (if s.laneState l ≠ 2 ∨ octet w 0 ≠ 0x33 ∨ octet w 7 ≠ crc8 w then s else
    let x := s.ln l
    let ovr := s.flag b F.LANE_CTRL_FIR_OVR
    let preset := bit (octet w 1) 3 && !ovr
    let p := if ovr then (x.pre, 3) else if preset then (0, 1) else firStep (bits (octet w 1) 7 6) x.pre 10 x.post
    let q := if ovr then (x.post, 3) else if preset then (0, 1) else firStep (bits (octet w 1) 5 4) x.post 16 p.1
    let s := if bit (octet w 3) 5 then s.setF b F.LANE_STATUS_PRECODE_RX 1 else s
    let n := if bit (octet w 3) 7 && ready then x.trnReady + 1 else 0
    let s := s.setLn l { x with pre := p.1, post := q.1, trnReady := n, waking := false }
    -- the frame that grants precoding is the last one without it (R85, R112)
    let on := s.flag b F.LANE_STATUS_PRECODE_TX || bit (octet w 3) 6
    let s := s.sendFrame l (trnBlock false p.2 q.2 x.frame ready (s.flag b F.LANE_CTRL_PRECODE_ALLOW) on)
    let s := if on then s.setF b F.LANE_STATUS_PRECODE_TX 1 else s
    if 8 ≤ n then (s.adapted l).trainEnd l else s)

/-- TRAINING_TIMEOUT: training has not ended within 500 ms (R113). -/
def execTrainingTimeout (l : Fin 128) (s : State) : Host.Outcome State Fault Refusal :=
  .next (if s.laneState l = 2 then
    ((((s.laneEvent l F.LANE_EVENT_TRAIN_FAIL).laneTo l 8).laneLog .trainFail l).pnlEvent 4 l 6 [])
  else s)

/-- FAILED_RETRY: 1 s in FAILED (R113). -/
def execFailedRetry (l : Fin 128) (s : State) : Host.Outcome State Fault Refusal :=
  .next (if s.laneState l = 8 then s.trainStart l else s)

/-- LOCKING_TIMEOUT: no LOCK within 10 ms (R116). -/
def execLockingTimeout (l : Fin 128) (s : State) : Host.Outcome State Fault Refusal :=
  .next (if s.laneState l = 3 ∧ !s.flag (ingB l) F.LANE_STATUS_LOCK then s.trainStart l else s)

/-- IDENT_TIMEOUT: no IDENT within 10 ms (R116). -/
def execIdentTimeout (l : Fin 128) (s : State) : Host.Outcome State Fault Refusal :=
  .next (if s.laneState l = 4 then s.laneTo l 8 else s)

/-- IDLE_ENT_RECEIVED: the LOS that follows is idle, not removal (R114); the idle entry takes a joined lane to IDLE (R116), and
one that is READY as well (log entry 65). -/
def execIdleEntReceived (l : Fin 128) (s : State) : Host.Outcome State Fault Refusal :=
  .next (if s.laneState l = 0 then s
    else
      let s := s.setLn l { s.ln l with announced := true }
      if (s.laneState l = 5 ∨ s.laneState l = 6) ∧ !s.fromMem l then
        (s.setLn l { s.ln l with idleSince := s.now }).laneTo l 7
      else s)

/-- The skew of the last markers of lanes: how many blocks lie between the first and the last of one marker count; none
while a lane has not sent that marker. -/
def skewOf (marker : Nat) (l : List (Option (Nat × Nat))) : Option Nat :=
  if l.all (fun a => a.any (fun p => p.1 == marker)) then
    let at' := l.map (fun a => (a.map (·.2)).getD 0)
    some (at'.foldl max 0 - at'.foldl min (at'.headD 0))
  else none

/-- ALIGN_RECEIVED: an ALIGN block of a bonded lane, with its marker count and the block at which it came (R123). Once every
lane of the bond has sent the marker, the bond is aligned, or its skew is too large. -/
def execAlignReceived (l : Fin 128) (block : AlignBlock) (s : State) : Host.Outcome State Fault Refusal :=
  .next (if s.laneState l < 3 ∨ s.bond l = 0 ∨ s.bond l = 3 then s
    else
      let s := s.setLn l { s.ln l with align := some (block.marker.toNat, block.place) }
      let set (v : Bool) (t : State) := forL (t.bondLanes l) (fun m u => u.setLn m { u.ln m with aligned := v }) t
      match skewOf block.marker.toNat ((s.bondLanes l).map (fun m => (s.ln m).align)) with
      | none => s
      | some k =>
        if 32 < k then ((set false s).laneEvent l F.LANE_EVENT_BOND_SKEW).laneLog .bondSkew ((s.bondLanes l).headD l)
        else set true s)

/-- Whether the lane quad of a lane is powered (R467). -/
def State.quadOn (s : State) (l : Nat) : Bool := s.domOn (32 + l / 4)

/-- Whether EN takes a lane out of OFF: its quad is powered, its line rate has its reference (R434), and the quad passed its
calibration or the lane is a memory source, which needs none (R433). -/
def State.laneCan (s : State) (l : Nat) : Bool :=
  s.quadOn l && !s.flag clkB F.CLK_SRC_NET_REF && (!s.failsAt 5 (l / 4) || s.fromMem l)

/-- EN of a lane is written (R116, R119, R138): its rings are bound or released (R514). -/
def State.laneEn (s : State) (l : Nat) (on : Bool) : State :=
  let s := (s.setF (ingB l) F.LANE_CTRL_EN (if on then 1 else 0)).laneBind l
  if on then
    if s.laneState l = 0 ∧ s.laneCan l then (s.setLane l 1).msrcUpdate else s
  else
    let s := (s.laneTo l 0).setF (ingB l) F.LANE_STATUS_LOCK 0
    s.setLn l { s.ln l with announced := false, hold := false, waking := false }

/-- Whether every lane of the set of lane `l` carries its BOND value, as it must when the lane is enabled (R122). -/
def State.bondWhole (s : State) (l : Nat) : Bool := (s.bondLanes l).all (fun k => s.bond k == s.bond l)

/-- LANE_ENABLE: a write of EN (R116) whose checks pass (R122, R509); with XB absent every lane stays OFF (R434). -/
def execLaneEnable (l : Fin 128) (on : Bool) (s : State) : Host.Outcome State Fault Refusal :=
  .next (if !on || (s.bondWhole l && s.laneStatus l == stOk) then s.laneEn l on else s)

/-- Enter electrical idle (R114): four IDLE_ENT blocks. A memory source has no back channel (R138). The request acts in READY
as in JOINED; one that is made in another state has no later effect (DESIGN CHOICE, log entry 65). -/
def State.laneIdle (s : State) (l : Nat) : State :=
  if (s.laneState l = 5 ∨ s.laneState l = 6) ∧ !s.fromMem l then
    let s := s.sendBlocks l (List.replicate 4 (true, 0x78 * 2 ^ 56))
    let s := s.setLn l { s.ln l with idleSince := s.now }
    s.laneTo l 7
  else s

/-- LANE_IDLE_REQ: IDLE_REQ is written 1 (R114). -/
def execLaneIdleReq (l : Fin 128) (s : State) : Host.Outcome State Fault Refusal :=
  .next ((s.setF (ingB l) F.LANE_CTRL_IDLE_REQ 1).laneIdle l)

/-- Wake a camera (R115): a training frame and a WAKE block; after more than 10 s of idle, PRESET and full training. -/
def State.laneWake (s : State) (l : Nat) : State :=
  if s.laneState l = 7 ∧ !s.fromMem l then
    let long := decide (2500000000 < s.now - (s.ln l).idleSince)
    let s := s.sendFrame l (trnBlock long 0 0 (s.ln l).frame false false (s.flag (ingB l) F.LANE_STATUS_PRECODE_TX))
    let s := s.sendBlocks l [(true, 0x87 * 2 ^ 56)]
    let s := s.setLn l { s.ln l with waking := true }
    if long then s.trainStart l true else s
  else s

/-- LANE_WAKE_REQ: IDLE_REQ is written 0 (R115). -/
def execLaneWakeReq (l : Fin 128) (s : State) : Host.Outcome State Fault Refusal :=
  .next ((s.setF (ingB l) F.LANE_CTRL_IDLE_REQ 0).laneWake l)

/-- WAKE_BURST_TIMEOUT: no burst within 100 µs of the WAKE (R115). -/
def execWakeBurstTimeout (l : Fin 128) (s : State) : Host.Outcome State Fault Refusal :=
  .next (if (s.ln l).waking ∧ (s.laneState l = 7 ∨ s.laneState l = 2) then (s.laneEvent l F.LANE_EVENT_IDLE_TMO).laneRemove l else s)

end Sys2Proof.Machine
end

