-- ==== Sys2Proof/Machine/Correction.lean ====
section
/-!
DEFINITION. Pixel correction, gauge tables, lamp gain and statistics (04_correction_gauge). The commands
CHANNEL_COURSE_START, GAUGE_JOB_START and GAUGE_JOB_COMPLETE.
-/

namespace Sys2Proof.Machine

def State.sm (s : State) (ch : Nat) : SeamCh := Tab.get {} ch s.seam
def State.setSm (s : State) (ch : Nat) (x : SeamCh) : State := { s with seam := Tab.put ch x s.seam }

/-! ## Linearisation and defective pixels -/

/-- LUT[i] as it governs course `k` (R148). -/
def State.lut (s : State) (g : Nat) (k : Int) (ch i : Nat) : Nat :=
  let i := min i 4095
  s.getK g k (corrB ch) (if i % 2 = 1 then F.LUT_ENTRY_HI.nth (i / 2) else F.LUT_ENTRY_LO.nth (i / 2))

/-- Linearise a sample of width `w` (R148, R149). -/
def State.linear (s : State) (g : Nat) (k : Int) (ch w x : Nat) : Nat :=
  if s.flagK g k (corrB ch) F.CORR_CTRL_LUT_EN then
    if w = 16 then
      let a := s.lut g k ch (x / 16)
      let b := s.lut g k ch (x / 16 + 1)
      (Int.ofNat a + rnd 4 ((Int.ofNat b - Int.ofNat a) * Int.ofNat (x % 16))).toNat
    else s.lut g k ch (x * 2 ^ (12 - w))
  else x * 2 ^ (16 - w)

/-- The defect entries in use: pixel and METHOD; and whether one stood out of order (R150, R151). -/
def dprUse (lineLen : Nat) (prev : Option Nat) : List Nat → List (Nat × Nat) × Bool
  | [] => ([], false)
  | e :: es =>
    let p := e % 16384
    if prev.any (fun q => decide (p ≤ q)) then ([], true)
    else
      let r := dprUse lineLen (some p) es
      (if p < lineLen then (p, e / 16384 % 4) :: r.1 else r.1, r.2)

/-- The defect entries of channel `ch` as they govern course `k`. -/
def State.dprEntries (s : State) (g : Nat) (k : Int) (ch : Nat) : List Nat :=
  (List.range (min 1024 (s.getK g k (corrB ch) F.DPR_COUNT_COUNT))).map (fun n => s.getK g k (corrB ch) (F.DPR_ENTRY.nth n))

/-- A pixel on its way through the stage: its value and its mask bit (R145). -/
abbrev Pix := Nat × Bool

/-- The nearest usable pixel within 8 of `p`, on the side `step` gives (R152). -/
def dprSource (line : List Pix) (bad : List (Nat × Nat)) (p : Nat) (left : Bool) : Option Nat :=
  ((List.range 8).map (· + 1)).findSome? (fun d =>
    if left ∧ p < d then none
    else
      let q := if left then p - d else p + d
      match getElem? line q with
      | some (v, m) => if m || bad.any (fun b => b.1 == q) then none else some v
      | none => none)

/-- The replacement of a named pixel; none where it is masked (R153). -/
def dprValue (line : List Pix) (bad : List (Nat × Nat)) (p method : Nat) : Option Nat :=
  let a := dprSource line bad p true
  let b := dprSource line bad p false
  if method = 3 then none
  else match a, b with
    | none, none => none
    | some x, none => some x
    | none, some y => some y
    | some x, some y => some (if method = 0 then x else if method = 1 then y else (x + y + 1) / 2)

/-- Number the elements of a list from 0. -/
def indexed {α : Type} (l : List α) : List (Nat × α) := (List.range l.length).zip l

/-- Step 3 (R153). A pixel masked at ingest passes unchanged (R145). -/
def dprLine (line : List Pix) (bad : List (Nat × Nat)) (fill : Nat) : List Pix :=
  (indexed line).map (fun e =>
    if e.2.2 then e.2
    else match bad.find? (fun b => b.1 == e.1) with
      | none => e.2
      | some b => match dprValue line bad e.1 b.2 with
        | some v => (v, false)
        | none => (fill, true))

/-! ## Flat field and lamp gain -/

/-- The gauge table that governs course `k`, with the first course it governs: the newest installed at or before it
(R166). -/
def Chan.tableAt (c : Chan) (k : Nat) : Nat × GaugeTab := (c.gauges.find? (fun t => decide (t.1 ≤ k))).getD (0, {})

def Chan.table (c : Chan) (k : Nat) : GaugeTab := (c.tableAt k).2

/-- The pixels with an uncorrectable pool entry in the table that course `k` uses (R161). -/
def Chan.badAt (c : Chan) (k : Nat) : List Nat := (c.badPool.filter (fun p => p.1 == (c.tableAt k).1)).map (·.2)

/-- A channel installs a table that governs from course `c` on (R166). Uncorrectable entries go with the pages of the tables
that no course uses any more. -/
def Chan.install (x : Chan) (c : Nat) (tab : GaugeTab) : Chan :=
  let l := ((c, tab) :: x.gauges).take 8
  { x with gauges := l, calDue := true, badPool := x.badPool.filter (fun p => p.1 != c && l.any (fun t => t.1 == p.1)) }

/-- The enabled knots in the order taken: POS and G; and whether one was ignored (R173). -/
def knotsOf (prev : Option Nat) : List (Nat × Nat) → List (Nat × Nat) × Bool
  | [] => ([], false)
  | (p, gn) :: ks =>
    if prev.any (fun q => decide (p ≤ q)) then ((knotsOf prev ks).1, true)
    else
      let r := knotsOf (some p) ks
      ((p, gn) :: r.1, r.2)

/-- S(j) from the knots taken (R173). -/
def segGain (j : Nat) : List (Nat × Nat) → Int
  | [] => 16384
  | [(_, gn)] => Int.ofNat gn
  | (p0, g0) :: (p1, g1) :: ks =>
    if j ≤ p0 then Int.ofNat g0
    else if p1 ≤ j then segGain j ((p1, g1) :: ks)
    else
      let kk := rnd 16 (truncDiv ((Int.ofNat g1 - Int.ofNat g0) * 2 ^ 32) (Int.ofNat p1 - Int.ofNat p0))
      Int.ofNat g0 + rnd 16 (kk * (Int.ofNat j - Int.ofNat p0))

/-- A sample of an aux channel applies to a channel's knots (R171, R172). -/
def State.lampApply (s : State) (g : Nat) (k : Int) (ch aux : Nat) (v : Int) : State :=
  let b := corrB ch
  let s := s.setCh ch { s.ch ch with lampV := Tab.put aux v (s.ch ch).lampV }
  forN 8 (fun z t =>
    if t.flagK g k b (F.LAMP_KNOT_KEN.nth z) && t.getK g k b (F.LAMP_KNOT_AUX_CH.nth z) == aux then
      let t := t.setI b (F.LAMP_SAMPLE_SAMPLE.nth z) v
      if v ≤ 0 then t.raise b F.CORR_STATUS_LAMP_INVALID 0xBE else t
    else t) s

/-- G of knot `z` from the latest sample of its aux channel and its REF, both as they govern course `k`; a sample of 0 or
less leaves it (R171, log entry 55). -/
def State.lampGain (s : State) (g : Nat) (k : Int) (ch z : Nat) : State :=
  let b := corrB ch
  if !s.flagK g k b (F.LAMP_KNOT_KEN.nth z) then s
  else
    match Tab.find (s.getK g k b (F.LAMP_KNOT_AUX_CH.nth z)) (s.ch ch).lampV with
    | none => s.setF b (F.LAMP_GAIN_GAIN.nth z) 16384
    | some v =>
      if v ≤ 0 then s
      else s.setF b (F.LAMP_GAIN_GAIN.nth z)
        (min 65535 (rnd 1 (truncDiv (Int.ofNat (s.getK g k b (F.LAMP_REF_REF.nth z)) * 32768) v)).toNat)

/-- The samples of a channel that apply to course `k`, and the gains of its knots (R171, R172). -/
def State.lampCourse (s : State) (g ch k : Nat) : State :=
  let x := s.ch ch
  let due := x.lampQ.filter (fun q => decide (q.1 ≤ Int.ofNat k))
  let s := s.setCh ch { x with lampQ := x.lampQ.filter (fun q => !decide (q.1 ≤ Int.ofNat k)) }
  let s := forL due (fun q t => t.lampApply g (Int.ofNat k) ch q.2.1 q.2.2) s
  forN 8 (fun z t => t.lampGain g (Int.ofNat k) ch z) s

/-- The knots of channel `ch` for course `k`: POS and G. -/
def State.knots (s : State) (g : Nat) (k : Int) (ch : Nat) : List (Nat × Nat) × Bool :=
  let b := corrB ch
  knotsOf none (((List.range 8).filter (fun z => s.flagK g k b (F.LAMP_KNOT_KEN.nth z))).map (fun z =>
    (s.getK g k b (F.LAMP_KNOT_POS.nth z), s.getF b (F.LAMP_GAIN_GAIN.nth z))))

/-- Flat field of one pixel (R154). -/
def flatField (v : Nat) (e : Int × Nat) : Int := rnd 14 ((Int.ofNat v - e.1) * Int.ofNat e.2)

/-! ## Statistics (R174 to R180) -/

/-- Add the unmasked pixels of a line to a block (R177, R178). -/
def Stat.addPix (profOn : Bool) (shift : Nat) (st : Stat) (e : Nat × Pix) : Stat :=
  if e.2.2 then st
  else
    let v := e.2.1
    let p := Tab.get (0, 0) (e.1 / 2 ^ shift) st.prof
    { st with
      sum := st.sum + v
      sumsq := st.sumsq + v * v
      min := Nat.min st.min v
      max := Nat.max st.max v
      sat := if v = 65535 then st.sat + 1 else st.sat
      hist := Tab.put (v / 256) (satAdd 32 (Tab.get 0 (v / 256) st.hist) 1) st.hist
      prof := if profOn then Tab.put (e.1 / 2 ^ shift) (p.1 + 1, p.2 + v) st.prof else st.prof }

/-- The bytes of a block of `kind` that ends at course `last` (R178). Of a block with no unmasked pixel the spec gives no MIN
and MAX, and of one with no line no EXP_ID: they read 65,535, 0 and 0 (DESIGN CHOICE, log entry 66). -/
def State.statBytes (s : State) (ch kind last : Nat) (st : Stat) : List Byte :=
  let b := corrB ch
  let shift := s.getF b F.STAT_CFG_PROF_SHIFT
  let bins := if s.flag b F.STAT_CFG_PROF_EN then (s.getF (ingB ch) F.ING_CFG_LINE_LEN + 2 ^ shift - 1) / 2 ^ shift else 0
  let body := ((List.range 256).map (fun i => le 4 (Tab.get 0 i st.hist))).flatten ++
    ((List.range bins).map (fun i => let p := Tab.get (0, 0) i st.prof
      le 8 (p.1 * 2 ^ 40 + p.2))).flatten
  let flags := (if st.partialRun then 1 else 0) + st.flags
  le 2 0x5354 ++ le 1 kind ++ le 1 flags ++ le 2 ch ++ le 2 (st.exp.getD 0) ++ le 8 st.first ++ le 8 last ++
    le 4 st.lines ++ le 4 st.excluded ++ le 8 st.sum ++ le 8 st.sumsq ++ le 2 st.min ++ le 2 st.max ++ le 4 st.sat ++
    le 2 bins ++ le 1 shift ++ zeros 1 ++ le 4 (crc32c body) ++ body

/-- Close a block and write it, or discard it whole (R178, R180). -/
def State.statClose (s : State) (ch kind last : Nat) (st : Stat) : State :=
  let r := s.ringPush (s.getF (corrB ch) F.STAT_RING_RING) (s.statBytes ch kind last st)
  if r.2 then r.1 else r.1.satF (corrB ch) F.STAT_DROP_COUNT 1

/-- A block that starts at course `k`. -/
def statNew (k : Nat) (part : Bool) (exp : Option Nat) : Stat := { first := k, partialRun := part, exp := exp }

/-- The contribution of course `k` to the tap `kind` of channel `ch`: `acc` is its block, `line` the accepted line or
none, `pix` the pixels at the tap (R174 to R177). Answers the block that goes on. A block that begins after a join or start
at a course that is no multiple of STAT_LEN carries PARTIAL also where it runs to its aligned end (DESIGN CHOICE, log
entry 66: R176 does not say). -/
def State.statCourse (s : State) (ch kind k : Nat) (acc : Option Stat) (line : Option Line) (spare : Bool)
    (pix : List Pix) : State × Option Stat :=
  let b := corrB ch
  let len := s.getF b F.STAT_CFG_STAT_LEN
  let changed := match acc, line with
    | some st, some l => st.exp.any (fun e => decide (e ≠ l.exp))
    | _, _ => false
  let s1 := if changed then
      match acc with
      | some st => s.statClose ch kind (k - 1) { st with partialRun := true }
      | none => s
    else s
  let open1 := match acc, line with
    | some st, some l =>
      if changed then some (statNew k true (some l.exp)) else some { st with exp := some (st.exp.getD l.exp) }
    | some st, none => some st
    | none, some l => some (statNew k (decide (k % len ≠ 0)) (some l.exp))
    | none, none => none
  let open2 := open1.map (fun st =>
    match line with
    | some l =>
      let st := { st with
        lines := st.lines + 1
        flags := st.flags ||| (2 * (l.flags % 2) + 4 * (l.flags / 4 % 2) + 8 * (l.flags / 2 % 2) + (if spare then 16 else 0)) }
      (indexed pix).foldl (Stat.addPix (s.flag b F.STAT_CFG_PROF_EN) (s.getF b F.STAT_CFG_PROF_SHIFT)) st
    | none => { st with excluded := st.excluded + 1, flags := st.flags ||| (if spare then 16 else 0) })
  if (k + 1) % len = 0 then
    match open2 with
    | some st => (s1.statClose ch kind k st, some (statNew (k + 1) false none))
    | none => (s1, none)
  else (s1, open2)

/-- Close the blocks of a channel that has left or whose group has stopped; `last` is the last course covered
(R176). -/
def State.statEnd (s : State) (ch last : Nat) : State :=
  let x := s.ch ch
  let fin (kind : Nat) (o : Option Stat) (t : State) : State :=
    match o with
    | some st => if st.lines + st.excluded = 0 then t else t.statClose ch kind last { st with partialRun := true }
    | none => t
  let s := fin 2 x.statCor (fin 1 x.statRaw s)
  s.setCh ch { s.ch ch with statRaw := none, statCor := none }

/-! ## Gauge tables -/

/-- Show in GAUGE_PEND whether a computation runs or waits (R183). -/
def State.gaugePend (s : State) (ch : Nat) : State :=
  let x := s.ch ch
  s.setF (corrB ch) F.CORR_STATUS_GAUGE_PEND (if x.running.isSome || x.pendingReq.isSome then 1 else 0)

/-- Request a recomputation (R164): a new request replaces a pending one, and keeps its course. -/
def State.gaugeReq (s : State) (ch : Nat) (course temp : Int) (pages : List Nat) : State :=
  let x := s.ch ch
  let c := match x.pendingReq with
    | some r => r.course
    | none => course
  let old := match x.pendingReq with
    | some r => r.pages
    | none => []
  (s.setCh ch { x with pendingReq := some ⟨c, temp, (old ++ pages).eraseDups, 0⟩ }).gaugePend ch

/-- The TEMP of the last accepted line with course stamp at or before `c`, among those since the group start. -/
def Chan.tempAt (x : Chan) (c : Int) : Option Int :=
  ((x.temps.filter (fun t => decide (Int.ofNat t.1 ≤ c))).foldl (fun (a : Option (Nat × Int)) t =>
    match a with
    | some b => if b.1 < t.1 then some t else a
    | none => some t) none).map (·.2)

/-- The temperature of a request of cases 2 to 4 (R163). -/
def State.reqTemp (s : State) (ch : Nat) (c : Int) : Int :=
  ((s.ch ch).tempAt c).getD (s.getI (corrB ch) F.CAL_LAST_TEMP_TEMP)

/-- Double mode with flat field: the channel computes tables while it runs (R161, R163). -/
def State.gaugeDouble (s : State) (ch : Nat) : Bool :=
  s.flag (corrB ch) F.CORR_CTRL_FF_EN && !s.flag (corrB ch) F.CORR_CTRL_GAUGE_SINGLE

/-- The temperature check at course `c`, a multiple of 256 (R163 case 1, R169). -/
def State.tempCheck (s : State) (g c : Nat) : State :=
  if c % 256 ≠ 0 then s
  else forL (s.runChans g) (fun ch t =>
    let b := corrB ch
    match (t.ch ch).tempAt (Int.ofNat c) with
    | none => t
    | some v =>
      let d := v - t.getI b F.CAL_LAST_TEMP_TEMP
      if !t.flag b F.CORR_CTRL_FF_EN || decide (Int.ofNat d.natAbs ≤ Int.ofNat (t.getK g (Int.ofNat c) b F.GAUGE_CFG_THRESH)) then t
      else if t.flag b F.CORR_CTRL_GAUGE_SINGLE then t.raise b F.CORR_STATUS_GAUGE_STALE 0xBD
      else t.gaugeReq ch (Int.ofNat c) v []) s

/-- Read a gauge entry: OFFSET and GAIN (R154). -/
def gaugeEntry (w : Nat) : Int × Nat := (toInt 16 (w % 65536), w / 65536)

/-- How a computation is abandoned (R158). -/
inductive GaugeErr where
  | bad | crc | memerr
  deriving DecidableEq, Repr

/-- Read a range for a gauge computation, at the lowest class (R165, R494). -/
def State.gaugeRead (s : State) (ch a n : Nat) : State × Option (List Byte) :=
  let r := s.memRead 2 ch a n
  match r.2 with
  | .ok b => (r.1, some b)
  | .error _ => (r.1, none)

/-- Read and check one point of a set (R157, R158). -/
def State.gaugePoint (s : State) (ch base npix i crc : Nat) : State × Except GaugeErr (List (Int × Nat)) :=
  let step := (npix * 4 + 255) / 256 * 256
  let r := s.gaugeRead ch (base + 0x100 + i * step) (npix * 4)
  match r.2 with
  | none => (r.1, .error .memerr)
  | some b =>
    if crc32c b ≠ crc then (r.1, .error .crc)
    else (r.1, .ok ((chunks 4 npix b).map (fun w => gaugeEntry (leVal w))))

/-- Interpolate two points with weight `w` (R160). -/
def gaugeMix (w : Int) (a b : Int × Nat) : Int × Nat :=
  (a.1 + rnd 16 ((b.1 - a.1) * w), (Int.ofNat a.2 + rnd 16 ((Int.ofNat b.2 - Int.ofNat a.2) * w)).toNat)

/-- Whether temperatures rise strictly. -/
def risingI : List Int → Bool
  | [] => true
  | [_] => true
  | a :: b :: l => decide (a < b) && risingI (b :: l)

/-- Compute a table for channel `ch` from set `sel` at temperature `temp`; none takes TEMP[0] (R158, R160, R162). A
temperature outside the points of a set that is well formed sets GAUGE_EXTRAP, whatever becomes of the reads. -/
def State.gaugeCompute (s : State) (ch sel : Nat) (temp : Option Int) : State × Except GaugeErr GaugeTab :=
  let b := corrB ch
  let base := s.getF b (if sel = 0 then F.GAUGE_BASE_A_ADDR else F.GAUGE_BASE_B_ADDR)
  let r := s.gaugeRead ch base 256
  let s := r.1
  match r.2 with
  | none => (s, .error .memerr)
  | some h =>
    let npts := leAt h 3 1
    let npix := leAt h 4 2
    let temps := (List.range npts).map (fun i => toInt 16 (leAt h (8 + 2 * i) 2))
    let crcs := (List.range npts).map (fun i => leAt h (16 + 4 * i) 4)
    if leAt h 0 2 ≠ 0x4755 ∨ leAt h 2 1 ≠ 1 ∨ npts < 1 ∨ 4 < npts ∨ npix ≠ s.getF (ingB ch) F.ING_CFG_LINE_LEN ∨
        !risingI temps then (s, .error .bad)
    else
      let t := temp.getD (temps.headD 0)
      let s := if 1 < npts ∧ (t < temps.headD 0 ∨ temps.getD (npts - 1) 0 < t) then s.mark b F.CORR_STATUS_GAUGE_EXTRAP else s
      let one (i : Nat) : State × Except GaugeErr GaugeTab :=
        let p := s.gaugePoint ch base npix i (crcs.getD i 0)
        (p.1, p.2.map (fun e => { tab := e, temp := t, sel := sel }))
      if npts = 1 ∨ t ≤ temps.headD 0 then one 0
      else if temps.getD (npts - 1) 0 ≤ t then one (npts - 1)
      else
        let i := (temps.filter (fun x => decide (x ≤ t))).length - 1
        let t0 := temps.getD i 0
        let t1 := temps.getD (i + 1) 0
        let w := rnd 1 (truncDiv ((t - t0) * 131072) (t1 - t0))
        let p := s.gaugePoint ch base npix i (crcs.getD i 0)
        match p.2 with
        | .error e => (p.1, .error e)
        | .ok ea =>
          let q := p.1.gaugePoint ch base npix (i + 1) (crcs.getD (i + 1) 0)
          (q.1, q.2.map (fun eb => { tab := List.zipWith (gaugeMix w) ea eb, temp := t, sel := sel }))

/-- The flag, producer and log entry of an abandoned computation (R158, R185). -/
def State.gaugeFail (s : State) (ch : Nat) (e : GaugeErr) : State :=
  let b := corrB ch
  let go (f : Fld) (p : Nat) (c : LogCode) : State := (s.raise b f p).logReg c ch (s.groupCode ch) (b + 4)
  match e with
  | .bad => go F.CORR_STATUS_GAUGE_BAD 0xBA .gaugeBad
  | .crc => go F.CORR_STATUS_GAUGE_CRC 0xBB .gaugeCrc
  | .memerr => go F.CORR_STATUS_GAUGE_MEMERR 0xBC .gaugeMemerr

/-- An installation of a table that is in force from course `c` on: the counts, and the course and temperature of the
channel's record (R170, R184). -/
def State.calRecord (s : State) (ch c : Nat) (temp : Int) : State :=
  let b := corrB ch
  let s := s.incF b F.CAL_COUNT_COUNT 1
  let s := s.setF b F.CAL_LAST_COURSE_COURSE c
  let s := s.setI b F.CAL_LAST_TEMP_TEMP temp
  s.incF calB F.CAL_DEV_COUNT_COUNT 1

/-- The time of an installation, once its course has triggered, and the device's record of it (R170, R184). -/
def State.calStamp (s : State) (ch sec ns : Nat) : State :=
  let b := corrB ch
  let s := (s.setF b F.CAL_LAST_SEC_SEC sec).setF b F.CAL_LAST_NS_NS ns
  let s := (s.setF calB F.CAL_DEV_LAST_SEC_SEC sec).setF calB F.CAL_DEV_LAST_NS_NS ns
  (s.setF calB F.CAL_DEV_LAST_CH_CHANNEL ch).setCh ch { s.ch ch with calDue := false }

/-- The time of an installation, read now. -/
def State.calTime (s : State) (ch : Nat) : State := s.calStamp ch s.sec s.ns

/-- The CRC-32C of a table's entries (R167). -/
def tabCrc (t : GaugeTab) : Nat := crc32c ((t.tab.map (fun e => le 4 (e.2 * 65536 + ofInt 16 e.1))).flatten)

/-- The journal record of an installation (R167, R670). -/
def State.jrnGauge (s : State) (g ch c : Nat) (t : GaugeTab) : State :=
  s.jrn 0x07 g 6 ch 0 (Int.ofNat c) (le 2 (ofInt 16 t.temp) ++ le 1 t.sel ++ zeros 1 ++ le 4 (tabCrc t))

/-- At the trigger of course `c`: a completed table becomes active and governs from course `c + 1` on; the time of an
installation that governs from `c` is recorded; a rewrite in place takes effect (R166, R169, R170). -/
def State.gaugeTrigger (s : State) (g c : Nat) : State :=
  forL (s.runChans g) (fun ch t =>
    let x := t.ch ch
    let t := if x.calDue then t.calTime ch else t
    let x := t.ch ch
    let t := match x.rewrite with
      | some ps => t.setCh ch { x with rewrite := none, badPool := x.badPool.filter (fun p => !ps.contains (p.2 / 1024)) }
      | none => t
    let x := t.ch ch
    match x.done with
    | none => t
    | some tab =>
      let t := t.setCh ch { x.install (c + 1) tab with done := none }
      (t.calRecord ch (c + 1) tab.temp).jrnGauge g ch (c + 1) tab) s

/-- Pool pages a channel takes (R161). -/
def State.gaugePages (s : State) (ch : Nat) : Nat :=
  if s.flag (corrB ch) F.CORR_CTRL_FF_EN then
    (if s.flag (corrB ch) F.CORR_CTRL_GAUGE_SINGLE then 1 else 2) * ((s.getF (ingB ch) F.ING_CFG_LINE_LEN + 1023) / 1024)
  else 0

/-- Whether the pools of all regions can supply the groups that have started, armed ones among them, and group `g` (R161). -/
def State.poolOk (s : State) (g : Nat) : Bool :=
  (List.range 8).all (fun r =>
    let chans := ((s.startedGroups ++ [g]).eraseDups.map s.runChans).flatten.filter (fun ch => ch / 16 == r)
    decide ((chans.map s.gaugePages).sum ≤ 256))

/-- Compute and install the first table of each channel at a group start (R162); answers whether all succeeded. Channels
come in order, and one whose computation fails ends it: a table installed before it stays counted and journalled (DESIGN
CHOICE, log entry 66: R170 does not say whether it counts in a start that returns BAD_PARAM). -/
def State.gaugeFirst (s : State) (g : Nat) : List Nat → State × Bool
  | [] => (s, true)
  | ch :: chs =>
    if !s.flag (corrB ch) F.CORR_CTRL_FF_EN then s.gaugeFirst g chs
    else
      let x := s.ch ch
      let temp := if x.everLine then some (s.getI (ingB ch) F.ING_LAST_EXP_TEMP) else none
      let r := s.gaugeCompute ch (s.getF (corrB ch) F.GAUGE_CFG_SEL) temp
      match r.2 with
      | .error e => (r.1.gaugeFail ch e, false)
      | .ok tab =>
        let t := r.1
        let t := t.setCh ch { t.ch ch with gauges := [(0, tab)], badPool := [] }
        (((t.calRecord ch 0 tab.temp).calTime ch).jrnGauge g ch 0 tab).gaugeFirst g chs

/-! ## One course of one channel (R43, R144) -/

/-- The pixels of course `k` at step 1 and 2: values L with mask bits (R118, R130, R131, R149). -/
def State.ingestPix (s : State) (g : Nat) (k ch : Nat) (line : Option Line) : List Pix :=
  let fill := s.getK g (Int.ofNat k) (ingB ch) F.ING_CFG_FILL
  let n := s.getF (ingB ch) F.ING_CFG_LINE_LEN
  match line with
  | none => List.replicate n (fill, true)
  | some l =>
    let v := (l.samples.take n).map (fun x => (s.linear g (Int.ofNat k) ch l.width x, false))
    v ++ List.replicate (n - v.length) (fill, true)

/-- Steps 4 and 5 of an unmasked pixel: its value before the clamp (R154, R155). -/
def corrValue (ff lamp : Bool) (tab : List (Int × Nat)) (knots : List (Nat × Nat)) (j v : Nat) : Int :=
  let f := if ff then flatField v (tab.getD j (0, 0)) else Int.ofNat v
  if lamp then rnd 14 (f * segGain j knots) else f

/-- The corrected line (R154, R155, R161): pixels with an uncorrectable pool entry are masked. -/
def corrLine (ff lamp : Bool) (tab : List (Int × Nat)) (knots : List (Nat × Nat)) (bad : List Nat) (fill : Nat)
    (line : List Pix) : List Pix × Nat × Nat :=
  let r := (indexed line).map (fun e =>
    if e.2.2 then (e.2, 0, 0)
    else if ff && bad.contains e.1 then ((fill, true), 0, 0)
    else
      let y := corrValue ff lamp tab knots e.1 e.2.1
      (((clampI 0 65535 y).toNat, false), (if y < 0 then 1 else 0), (if 65535 < y then 1 else 0)))
  (r.map (·.1), (r.map (·.2.1)).sum, (r.map (·.2.2)).sum)

/-- The capture item of a course whose line was accepted is written as its pixel work starts: until then R129 may still declare
it missing, and each course has one item (R665; DESIGN CHOICE, log entry 67). -/
def State.capLine (s : State) (g ch k : Nat) : State :=
  match (s.ch ch).lines.find? (fun l => l.course == k && !l.missing) with
  | some l => if (s.ch ch).expects k then s.capItem g ch k l.upper (some l.image) else s
  | none => s

/-- Correction and statistics of course `k` of channel `ch`; `ecc` names the pixels whose pool entries become
uncorrectable. Every uncorrectable entry that the course meets masks its pixel for the course, is counted and requests a
recomputation (R161, R163); it stays so until it is written again. -/
def State.correctCourse (s : State) (g ch k : Nat) (ecc : List Nat) : State :=
  let b := corrB ch
  let kk := Int.ofNat k
  let x := s.ch ch
  let member := x.expects k && !(x.lostAt.any (fun c => decide (c ≤ k)))
  -- a channel that has left and joined again at this boundary closes its blocks (R176)
  let s := if x.spans.any (fun p => p.1 == k) then s.statEnd ch (k - 1) else s
  let line := if member then x.lines.find? (fun l => l.course == k && !l.missing) else none
  let spare := x.spareAt k
  let s := s.lampCourse g ch k
  let pix := s.ingestPix g k ch line
  -- raw tap
  let r1 := if member && s.flag b F.CORR_CTRL_STAT_RAW_EN then s.statCourse ch 1 k (s.ch ch).statRaw line spare pix
    else (s, none)
  let s := r1.1
  -- defective pixels
  let fill := s.getK g kk (ingB ch) F.ING_CFG_FILL
  let dpr := dprUse pix.length none (s.dprEntries g kk ch)
  let s := s.setF b F.DPR_USED_USED dpr.1.length
  let s := if dpr.2 then s.mark b F.CORR_STATUS_DPR_ORDER else s
  let pix3 := if s.flagK g kk b F.CORR_CTRL_DPR_EN then dprLine pix dpr.1 fill else pix
  -- flat field and lamp gain
  let ff := s.flag b F.CORR_CTRL_FF_EN
  let lamp := s.flagK g kk b F.CORR_CTRL_LAMP_EN
  let bad := (((s.ch ch).badAt k ++ ecc).eraseDups).filter (fun p => decide (p < pix.length))
  let used := ((s.ch ch).tableAt k).1
  let s := if ff && !bad.isEmpty then
      let s := s.satF b F.GAUGE_ECC_COUNT bad.length
      let s := s.setCh ch { s.ch ch with badPool := (s.ch ch).badPool.filter (fun p => p.1 != used) ++ bad.map (fun p => (used, p)) }
      if s.gaugeDouble ch then s.gaugeReq ch kk (s.reqTemp ch kk) []
      else s.gaugeReq ch kk ((s.ch ch).table k).temp (bad.map (· / 1024)).eraseDups
    else s
  let kn := s.knots g kk ch
  let s := if kn.2 then s.mark b F.CORR_STATUS_LAMP_ORDER else s
  let out := corrLine ff lamp ((s.ch ch).table k).tab kn.1 bad fill pix3
  let s := (s.satF b F.CLAMP_LO_COUNT out.2.1).satF b F.CLAMP_HI_COUNT out.2.2
  -- corrected tap
  let r2 := if member && s.flag b F.CORR_CTRL_STAT_COR_EN then
      s.statCourse ch 2 k (s.ch ch).statCor line spare out.1 else (s, none)
  let s := r2.1
  let s := if member then s.setCh ch { s.ch ch with statRaw := r1.2, statCor := r2.2 }
    else (s.statEnd ch (k - 1)).cswSet g k cswMasked
  let s := if spare then (s.cswSet g k cswSpare).incF (spareB (ch / 16)) F.SPARE_COURSES_COUNT 1 else s
  s.setCh ch { s.ch ch with out := (s.ch ch).out ++ [(k, out.1)], next := k + 1 }

/-- A corrected line whose samples are lost: it stands masked. -/
def maskedPix (fill : Nat) (row : List Pix) : List Pix := row.map (fun _ => (fill, true))

/-- The oldest course that channel `ch` has not committed: one that its seam stage has still to commit (R683). -/
def State.uncommitted (s : State) (ch : Nat) : Nat := min (s.ch ch).next (s.sm ch).next

/-- The courses from `k` on whose corrected lines wait for the seam. -/
def Chan.waitsFrom (c : Chan) (k : Nat) : List Nat := (c.out.map (·.1)).filter (fun j => decide (k ≤ j))

/-- Whether the spare of its region serves channel `ch` (R20, R695). -/
def State.spared (s : State) (ch : Nat) : Bool :=
  s.getF (spareB (ch / 16)) F.SPARE_STATUS_STATE == 1 && s.getF (spareB (ch / 16)) F.SPARE_STATUS_FOR == ch

/-- Whether channel `ch` is out of service (R685, R695). -/
def State.outOfService (s : State) (ch : Nat) : Bool := bit (s.getF (rgnB (ch / 16)) F.RGN_FAILED_CH) (ch % 16)

/-- Whether pixel work of channel `ch` goes on: its cluster has not stopped (R22) and has its clock (R456), and the channel works, or a spare
works for it, or it is masked (R24, R684). -/
def State.pixelsOn (s : State) (ch : Nat) : Bool :=
  !bit s.stopped (ch / 4) && s.clk 2 && (!s.outOfService ch || s.spared ch || (s.ch ch).lostAt.isSome)

/-- Whether course `k` of channel `ch` may start: it has closed, its line is accepted, declared missing, or masked (R43,
R128, R132), and the seam stage, which waits where R215, R246 or R258 make it wait, has fewer than 4 lines in hand (log
entry 56). -/
def State.mayStart (s : State) (g ch k : Nat) : Bool :=
  s.pixelsOn ch && (s.g g).closed.any (fun c => decide (k ≤ c)) && decide (k < (s.sm ch).next + 4) &&
    (!(s.ch ch).expects k || (s.ch ch).lines.any (fun l => l.course == k))

/-- CHANNEL_COURSE_START: the channel starts pixel work on its next course (R43). -/
def execChannelCourseStart (ch : Fin 128) (ecc : List Nat) (s : State) : Host.Outcome State Fault Refusal :=
  .next (match s.workGroup ch with
    | some g =>
      let k := (s.ch ch).next
      if s.mayStart g ch k then (s.capLine g ch k).correctCourse g ch k ecc else s
    | none => s)

/-! ## The gauge engine -/

/-- The request that the engine of a region takes next: the oldest course, then the lowest channel (R165). -/
def State.nextGauge (s : State) (r : Nat) : Option (Int × Nat) :=
  ((List.range 16).map (· + 16 * r)).foldl (fun (a : Option (Int × Nat)) ch =>
    match (s.ch ch).pendingReq with
    | none => a
    | some q =>
      match a with
      | some b => if q.course < b.1 then some (q.course, ch) else a
      | none => some (q.course, ch)) none

/-- The channel whose job the engine of a region runs. -/
def State.gaugeBusy (s : State) (r : Nat) : Option Nat :=
  ((List.range 16).map (· + 16 * r)).find? (fun ch => (s.ch ch).running.isSome)

/-- GAUGE_JOB_START: the region's gauge engine takes its next job (R165). -/
def execGaugeJobStart (region : Fin 8) (s : State) : Host.Outcome State Fault Refusal :=
  .next (match s.gaugeBusy region, s.nextGauge region with
    | none, some (_, ch) =>
      let x := s.ch ch
      let sel := s.getF (corrB ch) F.GAUGE_CFG_SEL
      (s.setCh ch { x with running := x.pendingReq.map (fun q => { q with sel := sel }), pendingReq := none }).gaugePend ch
    | _, _ => s)

/-- GAUGE_JOB_COMPLETE: the computation ends with a table of the set that was selected when it began, or is abandoned (R158,
R164, R166, R168); in single mode the pages of the request are rewritten (R169). -/
def execGaugeJobComplete (region : Fin 8) (s : State) : Host.Outcome State Fault Refusal :=
  .next (match s.gaugeBusy region with
    | none => s
    | some ch =>
      let x := s.ch ch
      match x.running with
      | none => s
      | some q =>
        let s := s.setCh ch { x with running := none }
        let s := s.gaugePend ch
        if s.flag (corrB ch) F.CORR_CTRL_GAUGE_SINGLE then
          let cur := (x.gauges.head?.map (·.2)).getD {}
          let r := s.gaugeCompute ch cur.sel (some cur.temp)
          match r.2 with
          | .error e => r.1.gaugeFail ch e
          | .ok _ => r.1.setCh ch { r.1.ch ch with rewrite := some q.pages }
        else
          let r := s.gaugeCompute ch q.sel (some q.temp)
          match r.2 with
          | .error e => r.1.gaugeFail ch e
          | .ok tab =>
            r.1.setCh ch { r.1.ch ch with done := some tab })

end Sys2Proof.Machine
end

