-- ==== Sys2Proof/Machine/Seam.lean ====
section
/-!
DEFINITION. The seam engine (05_seam): wale bases, resampling, blending, registration, selvages and the seam ring. The
commands SEAM_OUTPUT_START and REG_BLOCK_END.
-/

namespace Sys2Proof.Machine

def State.smG (s : State) (g : Nat) : SeamGrp := Tab.get {} g s.seamG
def State.setSmG (s : State) (g : Nat) (x : SeamGrp) : State := { s with seamG := Tab.put g x s.seamG }

/-! ## Geometry (R187 to R192) -/

def State.span (s : State) (ch : Nat) : Nat := s.getF (seamB ch) F.SEAM_GEOM_SPAN
def State.ovl (s : State) (ch : Nat) : Nat := s.getF (seamB ch) F.SEAM_GEOM_OVL_LO

/-- The last channel of a group's run. -/
def State.runLast (s : State) (g : Nat) : Nat := s.runFirst g + s.runCount g - 1

/-- W_k of channel `ch` of a run (R190). -/
def State.waleOf (s : State) (first : Nat) : Nat → Nat
  | 0 => 0
  | k + 1 => s.waleOf first k + s.span (first + k) - s.ovl (first + k + 1)

/-- The width of a group (R190). -/
def State.widthOf (s : State) (g : Nat) : Nat :=
  s.waleOf (s.runFirst g) (s.runCount g - 1) + s.span (s.runLast g)

/-- The wales that the channel owns (R191). -/
def State.ownedOf (s : State) (g ch : Nat) : Nat :=
  if ch = s.runLast g then s.span ch else s.span ch - s.ovl (ch + 1)

/-- Write the bases, owned wales and width at a group start (R190, R191). -/
def State.seamGeometry (s : State) (g : Nat) : State :=
  let t := forL (s.runChans g) (fun ch t =>
    (t.setF (seamB ch) F.SEAM_WALE_WALE_BASE (t.waleOf (t.runFirst g) (ch - t.runFirst g))).setF (seamB ch)
      F.SEAM_OWN_OWNED (t.ownedOf g ch)) s
  t.setF (gseamB g) F.GRP_WIDTH_WIDTH (t.widthOf g)

/-- The cross-web position of a point in 1/64 wale, in nm, as it governs course `k` (R192). -/
def State.crossPos (s : State) (g : Nat) (k w64 : Int) : Int :=
  s.getIK g k (gseamB g) F.GRP_ORIGIN_ORIGIN + rnd 18 (w64 * Int.ofNat (s.getK g k (gseamB g) F.GRP_PITCH_PITCH))

/-! ## Offsets (R193, R207, R210) -/

/-- DX and DY of a channel as they govern course `k`. -/
def SeamCh.off (x : SeamCh) (k : Nat) : Int × Int :=
  ((x.offs.find? (fun o => decide (o.1 ≤ k))).map (·.2)).getD (0, 0)

/-- Put an offset that governs from course `k` on into the list; one that stands at `k` already is kept when `keep`. -/
def putOff (keep : Bool) (k : Nat) (d : Int × Int) : List (Nat × Int × Int) → List (Nat × Int × Int)
  | [] => [(k, d)]
  | o :: os =>
    if o.1 < k then (k, d) :: o :: os
    else if o.1 = k then (if keep then o :: os else (k, d) :: os)
    else o :: putOff keep k d os

/-- Note offsets that govern from course `k` on; CAM_DX and CAM_DY show the newest. -/
def State.setOff (s : State) (ch k : Nat) (keep : Bool) (d : Int × Int) : State :=
  let x := s.sm ch
  let offs := (putOff keep k d x.offs).take 8
  let s := s.setSm ch { x with offs := offs }
  let new := ((offs.head?).map (·.2)).getD (0, 0)
  (s.setI (seamB ch) F.CAM_DX_DX new.1).setI (seamB ch) F.CAM_DY_DY new.2

/-- A camera takes its INIT values from course `k` on (R210). -/
def State.initOff (s : State) (g ch k : Nat) : State :=
  s.setOff ch k false (s.getIK g (Int.ofNat k) (seamB ch) F.SEAM_INIT_DX_INIT, s.getIK g (Int.ofNat k) (seamB ch) F.SEAM_INIT_DY_INIT)

/-- The cameras that join at the boundary that opens course `c` take their INIT values (R210). -/
def State.seamJoins (s : State) (g c : Nat) : State :=
  forL ((s.runChans g).filter (fun ch => (s.ch ch).spans.any (fun p => p.1 == c))) (fun ch t => t.initOff g ch c) s

/-- The seam engine of a group at its start (R190, R210). -/
def State.seamStart (s : State) (g : Nat) : State :=
  let s := s.seamGeometry g
  let s := s.setSmG g {}
  let s := s.setF (gseamB g) F.GRP_HOLD_HOLDING 0
  forL (s.runChans g) (fun ch t =>
    let t := t.setSm ch {}
    let t := (t.setF (seamB ch) F.REG_STATE_STATE 0).setF (seamB ch) F.REG_STATE_HOLD_RUN 0
    t.initOff g ch 0) s

/-! ## Resampling (R193 to R196) -/

/-- The warp of a camera for one course: X0 + DX, C1, C2, C3 and the phase `a`. -/
structure Warp where
  x0 : Int
  c1 : Int
  c2 : Int
  c3 : Int
  a : Int

/-- x64 (R193). -/
def Warp.x64 (w : Warp) (u : Int) : Int := w.x0 + rnd 24 (w.c1 * u) + rnd 40 (w.c2 * (u * u)) + rnd 56 (w.c3 * (u * u * u))

/-- A sample: its value, none where it is masked; and whether its index lies outside the line (R194). -/
def tapAt (line : List Pix) (i : Int) : Option Nat × Bool :=
  if i < 0 then (none, true)
  else match getElem? line i.toNat with
    | none => (none, true)
    | some (v, m) => (if m then none else some v, false)

/-- h of one line at a source position, and whether an index outside the line masked it (R194). -/
def lineAt (line : List Pix) (x64 : Int) : Option Int × Bool :=
  let i := Int.fdiv x64 64
  let f := x64 - 64 * i
  let p := tapAt line i
  if f = 0 then (p.1.map Int.ofNat, p.2)
  else
    let q := tapAt line (i + 1)
    match p.1, q.1 with
    | some x, some y => (some (rnd 6 (Int.ofNat x * (64 - f) + Int.ofNat y * f)), false)
    | _, _ => (none, p.2 || q.2)

/-- The contribution of a camera at wale offset `u`, from its current and previous line (R195); and whether it is
masked because of an index outside the line (R196). -/
def Warp.contrib (w : Warp) (cur prev : List Pix) (u : Nat) : Option Int × Bool :=
  let x := w.x64 (Int.ofNat u)
  let h := lineAt cur x
  match h.1 with
  | none => (none, h.2)
  | some c =>
    match (lineAt prev x).1 with
    | none => (some c, false)
    | some p => (some (rnd 6 (c * (64 - w.a) + p * w.a)), false)

/-- The warp of a channel for course `k`, and A0 + DY before the clamp (R193, R195). -/
def State.warp (s : State) (g ch k : Nat) : Warp × Int :=
  let b := seamB ch
  let kk := Int.ofNat k
  let d := (s.sm ch).off k
  let a := Int.ofNat (s.getK g kk b F.SEAM_ALONG_A0) + d.2
  (⟨s.getIK g kk b F.WARP_X0_X0 + d.1, s.getIK g kk b F.WARP_C1_C1, s.getIK g kk b F.WARP_C2_C2,
    s.getIK g kk b F.WARP_C3_C3, clampI 0 64 a⟩, a)

/-- The corrected line of course `k` of a channel; all masked where it has none. -/
def State.corrected (s : State) (ch : Nat) (k : Int) : List Pix :=
  (((s.ch ch).out.find? (fun o => Int.ofNat o.1 == k)).map (·.2)).getD
    (List.replicate (s.getF (ingB ch) F.ING_CFG_LINE_LEN) (0, true))

/-- Contributions of a channel to course `k` at the offsets given, and how many an index masked. -/
def State.contribs (s : State) (g ch k : Nat) (us : List Nat) : List (Option Int) × Nat :=
  let w := (s.warp g ch k).1
  let cur := s.corrected ch (Int.ofNat k)
  let prev := s.corrected ch (Int.ofNat k - 1)
  let r := us.map (w.contrib cur prev)
  (r.map (·.1), (r.filter (·.2)).length)

/-! ## Blending (R197 to R200) -/

/-- One wale of an overlap zone of width `o` at index `t`; none where it is masked. -/
def blend (hard : Bool) (cut o t : Nat) (a b : Option Int) : Option Int :=
  match a, b with
  | none, b => b
  | a, none => a
  | some a, some b =>
    if hard then (if t < cut then some a else some b)
    else
      let al := Int.ofNat ((t + 1) * 65536 / (o + 1))
      some (rnd 16 (a * (65536 - al) + b * al))

/-- An output wale: its value, FILL where it is masked (R200). -/
def toPix (fill : Nat) : Option Int → Pix
  | none => (fill, true)
  | some v => (v.toNat, false)

/-- The output of a channel: the zone blended with the neighbour's samples, then its own wales (R191, R199). -/
def seamRow (hard : Bool) (cut o fill : Nat) (left own : List (Option Int)) : List Pix :=
  (indexed own).map (fun e =>
    if e.1 < o then toPix fill (blend hard cut o e.1 (left.getD e.1 none) e.2) else toPix fill e.2)

/-! ## Registration: measurement (R201 to R203) -/

/-- The shifts sx and sy of the 15 scores, by number 5 × (sy + 1) + sx + 2. -/
def shiftX (i : Nat) : Int := Int.ofNat (i % 5) - 2
def shiftY (i : Nat) : Int := Int.ofNat (i / 5) - 1

/-- Detail values at zone indices from `lo` on, `n` of them: v(t + 1) − v(t − 1) (R203). -/
def details (v : List (Option Int)) (lo n : Nat) : List (Option Int) :=
  (List.range n).map (fun i =>
    match v.getD (lo + i + 1) none, v.getD (lo + i - 1) none with
    | some x, some y => some (x - y)
    | _, _ => none)

/-- The terms of a score: products of the pairs both of which are present. -/
def terms : List (Option Int) → List (Option Int) → List (Int × Int)
  | some x :: xs, some y :: ys => (x, y) :: terms xs ys
  | _ :: xs, _ :: ys => terms xs ys
  | _, _ => []

def dot (l : List (Int × Int)) : Int := (l.map (fun p => p.1 * p.2)).sum

/-- REG_WIDTH of course `k`. -/
def State.regWidth (s : State) (g k : Nat) : Nat := s.getK g (Int.ofNat k) (gseamB g) F.REG_CFG2_REG_WIDTH

/-- Whether the low-side seam of channel `ch` registers in course `k` (R202). -/
def State.registers (s : State) (g ch k : Nat) : Bool :=
  decide (s.runFirst g < ch) && s.flagK g (Int.ofNat k) (gseamB g) F.REG_CFG_REG_EN &&
    (s.ch ch).expects k && (s.ch (ch - 1)).expects k && decide (s.regWidth g k + 6 ≤ s.ovl ch)

/-- Add the terms of course `k` to the low-side seam of `ch`: `za` and `zb` are the contributions over the zone. -/
def State.measure (s : State) (g ch k : Nat) (za zb : List (Option Int)) : State :=
  let w := s.regWidth g k
  let o := s.ovl ch
  let x := s.sm ch
  let x1 := { x with prev := some (k, za, zb) }
  if o < w + 6 then s.setSm ch x1
  else
    let t0 := (o - w) / 2
    let ga := details za t0 w
    let gb := details zb (t0 - 2) (w + 4)
    let back : List (Option Int) × List (Option Int) := match x.prev with
      | some (c, pa, pb) => if c + 1 = k then (details pa t0 w, details pb (t0 - 2) (w + 4)) else ([], [])
      | none => ([], [])
    let one (i : Nat) : Int :=
      let a := if shiftY i = -1 then back.1 else ga
      let b := if shiftY i = 1 then back.2 else gb
      dot (terms a (b.drop (i % 5)))
    let mid := terms ga (gb.drop 2)
    let x := x1
    if s.registers g ch k ∧ 2 ≤ k then
      s.setSm ch { x with
        score := (List.range 15).map (fun i => (i, Tab.get 0 i x.score + one i))
        n := x.n + mid.length
        ea := x.ea + (mid.map (fun p => (p.1 * p.1).toNat)).sum
        eb := x.eb + (mid.map (fun p => (p.2 * p.2).toNat)).sum }
    else s.setSm ch x

/-! ## Registration: evaluation (R204 to R209) -/

/-- The length of the blocks as it governs course `k` (R201). -/
def State.blockLen (s : State) (g k : Nat) : Nat := 256 * 2 ^ s.getK g (Int.ofNat k) (gseamB g) F.REG_CFG_REG_LOG

/-- Whether a block starts at course `k`, other than the first (R201). -/
def State.blockStart (s : State) (g k : Nat) : Bool := decide (2 < k) && (k - 2) % s.blockLen g k == 0

/-- State of the low-side seam of a channel (R208): 0 IDLE, 1 ACQUIRE, 2 TRACK, 3 HOLD. -/
def State.seamState (s : State) (ch : Nat) : Nat := s.getF (seamB ch) F.REG_STATE_STATE

/-- GRP_HOLD: the seams in HOLD. -/
def State.showHold (s : State) (g : Nat) : State :=
  s.setF (gseamB g) F.GRP_HOLD_HOLDING ((s.runChans g).filter (fun ch => s.seamState ch == 3)).length

/-- A seam changes state; entering HOLD sets HOLD_EV. -/
def State.seamTo (s : State) (ch st : Nat) : State :=
  let was := s.seamState ch
  let s := s.setF (seamB ch) F.REG_STATE_STATE st
  if st = 3 ∧ was ≠ 3 then s.raise (seamB ch) F.SEAM_STATUS_HOLD_EV 0xBF else s

/-- Empty the sums of a seam. -/
def SeamCh.clear (x : SeamCh) : SeamCh := { x with score := [], n := 0, ea := 0, eb := 0 }

/-- The better of two peaks: the larger score, then the smallest |sx| + |sy|, then sy, then sx (R204 step 2). -/
def betterPeak (a b : Nat × Int) : Nat × Int :=
  let rank (i : Nat) : Nat := ((shiftX i).natAbs + (shiftY i).natAbs) * 16 + i
  if a.2 < b.2 then b
  else if a.2 = b.2 ∧ rank b.1 < rank a.1 then b
  else a

/-- The largest q up to 256 with q² E_a E_b ≤ 65,536 C². -/
def matchQ (ea eb : Nat) (c : Int) : Nat :=
  if c ≤ 0 then 0
  else ((List.range 257).filter (fun q => decide (q * q * ea * eb ≤ 65536 * (c * c).toNat))).getLastD 0

/-- The fraction on an axis (R205). -/
def peakFrac (cm c0 cp : Int) : Int :=
  let d := 2 * c0 - cm - cp
  if d ≤ 0 then 0 else clampI (-32) 32 (rnd 1 (truncDiv ((cp - cm) * 64) d))

/-- What a block gives for one seam: FLAGS of R219, m_x, m_y, the step, Q and N. -/
structure RegRes where
  ch : Nat
  flags : Nat := 0
  mx : Int := 0
  my : Int := 0
  sx : Int := 0
  sy : Int := 0
  q : Nat := 0
  n : Nat := 0

/-- Evaluate the low-side seam of `ch` over a block of `len` courses that ends at course `c` (R204, R205, R206, R208,
R209). -/
def State.evalSeam (s : State) (g ch c len : Nat) : State × RegRes :=
  let b := seamB ch
  let gb := gseamB g
  let cc := Int.ofNat c
  let x := s.sm ch
  let r : RegRes := { ch := ch, n := x.n }
  if 2 * x.n < s.regWidth g c * len then (s.satF b F.REG_SKIP_COUNT 1, { r with flags := 1 })
  else
    let sc (i : Nat) : Int := Tab.get 0 i x.score
    let pk := ((List.range 15).map (fun i => (i, sc i))).foldl betterPeak (7, sc 7)
    let q := matchQ x.ea x.eb pk.2
    let s := s.setF b F.REG_Q_Q q
    let r := { r with q := q }
    let emin := s.getK g cc gb F.REG_CFG3_EMIN
    if x.ea < emin * x.n ∨ x.eb < emin * x.n ∨ q < s.getK g cc gb F.REG_CFG2_QMIN then
      let was := s.getF b F.REG_STATE_HOLD_RUN
      let run := satAdd 8 was 1
      let s := s.satF b F.HOLD_CNT_COUNT 1
      let s := (s.setF b F.REG_STATE_HOLD_RUN run).seamTo ch 3
      let hm := s.getK g cc gb F.REG_CFG3_HOLD_MAX
      let s := if hm ≠ 0 ∧ was < hm ∧ hm ≤ run then
          (s.raise b F.SEAM_STATUS_SEAM_LOST 0xC0).logReg .seamLost ch g (b + 0x3C)
        else s
      (s, { r with flags := 2 })
    else
      let px := shiftX pk.1
      let py := shiftY pk.1
      let ex := px.natAbs == 2
      let ey := py.natAbs == 1
      let mx := 64 * px + if ex then 0 else peakFrac (sc (pk.1 - 1)) pk.2 (sc (pk.1 + 1))
      let my := 64 * py + if ey then 0 else peakFrac (sc (pk.1 - 5)) pk.2 (sc (pk.1 + 5))
      let s := if ex || ey then s.mark b F.SEAM_STATUS_REG_EDGE else s
      let s := (s.setI b F.REG_LAST_MX mx).setI b F.REG_LAST_MY my
      let gain := Int.ofNat (s.getK g cc gb F.REG_CFG_REG_GAIN)
      let acq := Int.ofNat (s.getK g cc gb F.REG_CFG2_ACQ_SLEW)
      let track := s.seamState ch == 2
      let lx := if track then Int.ofNat (s.getK g cc gb F.REG_CFG_SLEW_X) else acq
      let ly := if track then Int.ofNat (s.getK g cc gb F.REG_CFG_SLEW_Y) else acq
      let st := s.seamState ch
      let s := s.setF b F.REG_STATE_HOLD_RUN 0
      let s := if st = 1 ∧ mx.natAbs ≤ 2 ∧ my.natAbs ≤ 2 then s.seamTo ch 2 else if st = 3 then s.seamTo ch 1 else s
      (s, { r with
        flags := if ex || ey then 4 else 0
        mx := mx
        my := my
        sx := clampI (-lx) lx (rnd 4 (mx * gain))
        sy := clampI (-ly) ly (rnd 4 (my * gain)) })

/-- A step reduced toward zero until it takes no camera past its range (R207): `v` are the cameras' values, moved by
the step times `sign`. -/
def limitStep (lo hi sign : Int) (v : List Int) (st : Int) : Int :=
  v.foldl (fun (t : Int) x =>
    let d := clampI (min (lo - x) 0) (max (hi - x) 0) (sign * t)
    sign * d) st

/-- Limit the steps of the seams in ascending order, and add them up (R206, R207): `off` holds DX and A0 + DY of every
camera. -/
def limitAll (first last anchor : Nat) : List RegRes → List (Nat × Int × Int) → List RegRes × List (Nat × Int × Int)
  | [], off => ([], off)
  | r :: rs, off =>
    let hiSide := decide (first + anchor < r.ch)
    let sign : Int := if hiSide then 1 else -1
    let moved (ch : Nat) : Bool := if hiSide then decide (r.ch ≤ ch) && decide (ch ≤ last) else decide (ch < r.ch)
    let mine := off.filter (fun o => moved o.1)
    let sx := limitStep (-32768) 32767 sign (mine.map (fun o => o.2.1)) r.sx
    let sy := limitStep 0 64 sign (mine.map (fun o => o.2.2)) r.sy
    let off := off.map (fun o => if moved o.1 then (o.1, o.2.1 + sign * sx, o.2.2 + sign * sy) else o)
    let rest := limitAll first last anchor rs off
    ({ r with sx := sx, sy := sy, flags := if sx = r.sx ∧ sy = r.sy then r.flags else r.flags + 8 } :: rest.1, rest.2)

/-- A 64-byte seam entry of a registration (R219). -/
def State.regEntry (s : State) (g course : Nat) (r : RegRes) : List Byte :=
  le 2 0x534D ++ le 1 1 ++ le 1 (s.seamState r.ch) ++ le 2 (r.ch - s.runFirst g - 1) ++ le 2 r.flags ++ le 8 course ++
    le 2 (ofInt 16 r.mx) ++ le 2 (ofInt 16 r.my) ++ le 2 (ofInt 16 r.sx) ++ le 2 (ofInt 16 r.sy) ++ le 2 r.q ++ zeros 2 ++
    le 4 (min r.n (2 ^ 32 - 1)) ++ zeros 32

/-- A 64-byte selvage entry (R219). -/
def State.selvEntry (s : State) (g course : Nat) : List Byte :=
  let x := s.smG g
  le 2 0x534D ++ le 1 2 ++ le 1 0 ++ le 2 0xFFFF ++ le 2 ((if x.lostL then 16 else 0) + (if x.lostR then 32 else 0)) ++
    le 8 course ++ zeros 16 ++ le 4 (s.getF (gseamB g) F.SELV_POS_LEFT) ++ le 4 (s.getF (gseamB g) F.SELV_POS_RIGHT) ++
    zeros 24

/-- Write an entry to the seam ring (R219). -/
def State.seamPush (s : State) (g : Nat) (e : List Byte) : State :=
  if s.flag (gseamB g) F.SEAM_RING_RING_EN then (s.ringPush (s.getF (gseamB g) F.SEAM_RING_RING) e).1 else s

/-- Evaluate the seams of a list in ascending order. -/
def State.evalSeams (s : State) (g c len : Nat) : List Nat → State × List RegRes
  | [] => (s, [])
  | ch :: chs =>
    let a := s.evalSeam g ch c len
    let r := a.1.evalSeams g c len chs
    (r.1, a.2 :: r.2)

/-- The end of the block before course `k` (R204 to R209, R219). -/
def State.blockEnd (s : State) (g k : Nat) : State :=
  let c := k - 1
  let x := s.smG g
  let seams := (s.runChans g).filter (fun ch => decide (s.runFirst g < ch) && s.seamState ch != 0)
  let ev := s.evalSeams g c (k - x.block) seams
  let s := ev.1
  let off := (s.runChans g).map (fun ch =>
    let d := (s.sm ch).off c
    (ch, d.1, Int.ofNat (s.getK g (Int.ofNat c) (seamB ch) F.SEAM_ALONG_A0) + d.2))
  let lim := limitAll (s.runFirst g) (s.runLast g) (s.getF (gseamB g) F.GRP_SEAM_ANCHOR) ev.2 off
  let s := forL lim.1 (fun r t => if 8 ≤ r.flags then t.raise (seamB r.ch) F.SEAM_STATUS_SEAM_RANGE 0xC1 else t) s
  let s := forL (off.zip lim.2) (fun p t =>
    if p.1 = p.2 then t
    else
      let d := (t.sm p.1.1).off c
      t.setOff p.1.1 k true (d.1 + (p.2.2.1 - p.1.2.1), d.2 + (p.2.2.2 - p.1.2.2))) s
  let s := forL (s.runChans g) (fun ch t => t.setSm ch (t.sm ch).clear) s
  let s := s.showHold g
  let s := forL lim.1 (fun r t => t.seamPush g (t.regEntry g k r)) s
  let s := if s.flagK g (Int.ofNat c) (gseamB g) F.SELV_CFG_SELV_EN then s.seamPush g (s.selvEntry g k) else s
  s.setSmG g { s.smG g with block := k, lostL := false, lostR := false }

/-! ## Opening a course (R208, R210) -/

/-- Whether the end of the block before course `k` has something to evaluate or write. -/
def State.blockWork (s : State) (g k : Nat) : Bool :=
  (s.runChans g).any (fun ch => s.seamState ch != 0) || s.flagK g (Int.ofNat k - 1) (gseamB g) F.SELV_CFG_SELV_EN

/-- Whether course `k`, not yet opened, waits for the evaluation of the block before it (R214). -/
def State.blockDue (s : State) (g k : Nat) : Bool :=
  s.blockStart g k && decide ((s.smG g).block < k) && s.blockWork g k

/-- Whether channel `ch` joins at course `k`. -/
def Chan.joinsAt (c : Chan) (k : Nat) : Bool := c.spans.any (fun p => p.1 == k)

/-- The seam engine of a group opens course `k`: each seam enters ACQUIRE or IDLE as R202 has become true or false, and ACQUIRE
also where a camera of it joins there that has left at the same boundary; SEAM_HOLD is set while a seam holds (R208 to
R210). -/
def State.seamOpen (s : State) (g k : Nat) : State :=
  let x := s.smG g
  let s := if s.blockStart g k && decide (x.block < k) then
      forL (s.runChans g) (fun ch t => t.setSm ch (t.sm ch).clear) (s.setSmG g { x with block := k, lostL := false, lostR := false })
    else s
  let s := forL ((s.runChans g).filter (fun ch => decide (s.runFirst g < ch))) (fun ch t =>
    let ok := t.registers g ch k
    if ok && (t.seamState ch == 0 || (t.ch ch).joinsAt k || (t.ch (ch - 1)).joinsAt k) then
      ((t.setSm ch (t.sm ch).clear).setF (seamB ch) F.REG_STATE_HOLD_RUN 0).seamTo ch 1
    else if !ok && t.seamState ch != 0 then t.seamTo ch 0 else t) s
  let s := s.showHold g
  let s := if (s.runChans g).any (fun ch => s.seamState ch == 3) then s.cswSet g k cswSeamHold else s
  s.setSmG g { s.smG g with next := k + 1 }

/-! ## Selvage (R211 to R213) -/

/-- The crossing of a pair in 1/64 wale; `up` for s(w) < THR ≤ s(w + 1) (R212). -/
def crossing (up : Bool) (thr : Int) (w : Nat) (p q : Pix) : Option Int :=
  let a := Int.ofNat p.1
  let b := Int.ofNat q.1
  if p.2 || q.2 then none
  else if (up && decide (a < thr) && decide (thr ≤ b)) || (!up && decide (b < thr) && decide (thr ≤ a)) then
    some (64 * Int.ofNat w + truncDiv ((thr - a) * 64) (b - a))
  else none

/-- Search a window for its edge: wales in the order given, `base` the first wale of the row (R212). -/
def edgeIn (up : Bool) (thr : Int) (base : Nat) (row : List Pix) (ws : List Nat) : Option Int :=
  ws.findSome? (fun w =>
    match row[w - base]?, row[w + 1 - base]? with
    | some p, some q => crossing up thr w p q
    | _, _ => none)

/-- P after a finding (R213). -/
def selvNew (avg : Nat) (fresh : Bool) (old : Option Int) (e : Int) : Int :=
  match old with
  | none => e
  | some p => if avg = 0 ∨ fresh then e else p + rnd avg (e - p)

/-- The channel that owns wale `w` (R191, R211). -/
def State.ownerOf (s : State) (g w : Nat) : Option Nat :=
  (s.runChans g).find? (fun ch =>
    let base := s.getF (seamB ch) F.SEAM_WALE_WALE_BASE
    decide (base ≤ w) && decide (w < base + s.getF (seamB ch) F.SEAM_OWN_OWNED))

/-- The edge that the search of a window of course `k` finds in the output of the channel that owns it (R211, R212). -/
def State.selvEdge (s : State) (g k : Nat) (up : Bool) (lo : Nat) (ws : List Nat) : Option Int :=
  match s.ownerOf g lo with
  | none => none
  | some ch =>
    let row := (((s.sm ch).rows.find? (fun r => r.1 == k)).map (·.2)).getD []
    edgeIn up (Int.ofNat (s.getK g (Int.ofNat k) (gseamB g) F.SELV_CFG_THR)) (s.getF (seamB ch) F.SEAM_WALE_WALE_BASE) row ws

/-- The selvage searches of course `k` (R211 to R213). A loss shows in the entry of the block that holds the course. -/
def State.selvCourse (s : State) (g k : Nat) : State :=
  let b := gseamB g
  let kk := Int.ofNat k
  if !s.flagK g kk b F.SELV_CFG_SELV_EN then s
  else
    let avg := s.getK g kk b F.SELV_CFG_AVG_LOG
    let pol := s.flagK g kk b F.SELV_CFG_POL
    let lmin := s.getK g kk b F.SELV_LWIN_MIN
    let lmax := s.getK g kk b F.SELV_LWIN_MAX
    let rmin := s.getK g kk b F.SELV_RWIN_MIN
    let rmax := s.getK g kk b F.SELV_RWIN_MAX
    let x := s.smG g
    let s := match s.selvEdge g k (!pol) lmin ((List.range (lmax - lmin)).map (· + lmin)) with
      | some e =>
        let p := selvNew avg x.freshL (x.left.head?.map (fun (q : Nat × Int) => q.2)) e
        (s.setSmG g { x with left := ((k, p) :: x.left).take 128, freshL := false }).setI b F.SELV_POS_LEFT p
      | none => (s.setSmG g { x with freshL := true, lostL := x.lostL || decide (x.block ≤ k) }).raise b F.SELV_STATUS_LEFT_LOST 0xC2
    let x := s.smG g
    match s.selvEdge g k pol rmin (((List.range (rmax - rmin)).map (· + rmin)).reverse) with
    | some e =>
      let p := selvNew avg x.freshR (x.right.head?.map (fun (q : Nat × Int) => q.2)) e
      (s.setSmG g { x with right := ((k, p) :: x.right).take 128, freshR := false }).setI b F.SELV_POS_RIGHT p
    | none => (s.setSmG g { x with freshR := true, lostR := x.lostR || decide (x.block ≤ k) }).raise b F.SELV_STATUS_RIGHT_LOST 0xC3

/-- Whether the channels that the searches of course `k` read have output it: with none to search, any channel. -/
def State.selvReady (s : State) (g k : Nat) : Bool :=
  let b := gseamB g
  let kk := Int.ofNat k
  let has (w : Nat) : Bool := match s.ownerOf g w with
    | some ch => decide (k < (s.sm ch).next)
    | none => true
  if s.flagK g kk b F.SELV_CFG_SELV_EN then has (s.getK g kk b F.SELV_LWIN_MIN) && has (s.getK g kk b F.SELV_RWIN_MIN)
  else (s.runChans g).any (fun ch => decide (k < (s.sm ch).next))

/-- The selvages are searched course by course, whichever channels own their windows (R213): every course that is ready,
at most `fuel`. -/
def State.selvRun (s : State) (g : Nat) : Nat → State
  | 0 => s
  | fuel + 1 =>
    let k := (s.smG g).selv
    if decide (k < (s.smG g).next) && s.selvReady g k then
      let s := s.selvCourse g k
      (s.setSmG g { s.smG g with selv := k + 1 }).selvRun g fuel
    else s

/-- P as it stood after course `k` (R213). -/
def selvAt (l : List (Nat × Int)) (k : Int) : Option Int := (l.find? (fun p => decide (Int.ofNat p.1 ≤ k))).map (·.2)

/-- The wales of course `k` that the selvages leave unmasked for segmentation (R213): first and last. With the search off, P is
held. -/
def State.selvBounds (s : State) (g : Nat) (k : Nat) : Int × Int :=
  let b := gseamB g
  let kk := Int.ofNat k
  let w := Int.ofNat (s.getF b F.GRP_WIDTH_WIDTH)
  if s.flagK g kk b F.SELV_CFG_MASK_EN then
    let m := Int.ofNat (s.getK g kk b F.SELV_MARGIN_MARGIN)
    let x := s.smG g
    let lo := match selvAt x.left (kk - 1) with
      | some p => Int.fdiv p 64 - m
      | none => 0
    let hi := match selvAt x.right (kk - 1) with
      | some p => Int.fdiv p 64 + m
      | none => w - 1
    (lo, hi)
  else (0, w - 1)

/-! ## The output of a course (R215) -/

/-- Whether every channel of the group has output course `k`. -/
def State.seamDone (s : State) (g k : Nat) : Bool := (s.runChans g).all (fun ch => decide (k < (s.sm ch).next))

/-- Whether segmentation takes seam output of course `k`: while it waits, the stages before it wait too (R246, R258); it
holds at most 16 courses beyond the next map course (log entry 56). -/
def State.segTakes (s : State) (g k : Nat) : Bool :=
  !s.flag (gsegB g) F.SEG_CTRL_SEG_EN || decide (k < (Tab.get {} g s.segG).next + 16)

/-- Whether a channel may start output of course `k` (R215): its own corrected line and the neighbour's samples are
there, and the buffer of the next channel has room for its own samples. -/
def State.seamReady (s : State) (g ch k : Nat) : Bool :=
  s.segTakes g k &&
  (s.ch ch).out.any (fun o => o.1 == k) &&
    (ch == s.runFirst g || (s.ch (ch - 1)).out.any (fun o => o.1 == k)) &&
    (ch == s.runLast g || decide (k < (s.sm (ch + 1)).next + 4)) &&
    (decide (k < (s.smG g).next) || !s.blockDue g k)

/-- The seam stage has committed course `k`: its ingest slot is free (R683). -/
def State.slotFree (s : State) (ch k : Nat) : State :=
  s.setCh ch { s.ch ch with lines := (s.ch ch).lines.filter (fun l => l.course != k) }

/-- Drop corrected lines that neither the channel nor the next one needs. -/
def State.seamTrim (s : State) (g ch : Nat) : State :=
  let own := (s.sm ch).next
  let need := if ch = s.runLast g then own else min own (s.sm (ch + 1)).next
  let x := s.ch ch
  s.setCh ch { x with out := x.out.filter (fun o => decide (need ≤ o.1 + 1)) }

/-- The segmentation stage of a channel waits for the halo of course `k` where a neighbour in the group has not output it
(R233, R261). -/
def State.haloWait (s : State) (g ch k : Nat) : State :=
  let lacks (n : Nat) : Bool := (s.runChans g).contains n && decide ((s.sm n).next ≤ k)
  if s.flag (gsegB g) F.SEG_CTRL_SEG_EN && ((decide (0 < ch) && lacks (ch - 1)) || lacks (ch + 1)) then
    s.satF (segB ch) F.SEG_HALO_WAIT_COUNT 1
  else s

/-- Seam output of course `k` of channel `ch` (R193 to R200, R203, R212). -/
def State.seamCourse (s : State) (g ch k : Nat) : State :=
  let b := seamB ch
  let kk := Int.ofNat k
  let s := if (s.smG g).next ≤ k then s.seamOpen g k else s
  let o := if ch = s.runFirst g then 0 else s.ovl ch
  let own := s.contribs g ch k (List.range (s.span ch))
  let left := if o = 0 then [] else (s.contribs g (ch - 1) k ((List.range o).map (· + (s.span (ch - 1) - o)))).1
  let s := s.satF b F.OOR_CNT_COUNT own.2
  let a := (s.warp g ch k).2
  let s := if a < 0 ∨ 64 < a then s.raise b F.SEAM_STATUS_SEAM_RANGE 0xC1 else s
  let row := seamRow (s.flagK g kk b F.SEAM_BLEND_HARD) (s.getK g kk b F.SEAM_BLEND_CUT) o
    (s.getK g kk (ingB ch) F.ING_CFG_FILL) left (own.1.take (s.getF b F.SEAM_OWN_OWNED))
  let s := if o = 0 then s else s.measure g ch k left (own.1.take o)
  let x := s.sm ch
  let s := s.setSm ch { x with next := k + 1, rows := ((k, row) :: x.rows).take (max 128 (k + 1 - (s.smG g).selv)) }
  let s := s.selvRun g 128
  let s := s.haloWait g ch k
  let s := (s.slotFree ch k).seamTrim g ch
  let s := if ch = s.runFirst g then s else s.seamTrim g (ch - 1)
  if s.seamDone g k && !s.flag (gsegB g) F.SEG_CTRL_SEG_EN then s.cswFinish g k else s

/-- SEAM_OUTPUT_START: the channel starts seam output of its next course (R215). -/
def execSeamOutputStart (ch : Fin 128) (s : State) : Host.Outcome State Fault Refusal :=
  .next (match s.workGroup ch with
    | some g => if s.pixelsOn ch && s.seamReady g ch (s.sm ch).next then s.seamCourse g ch (s.sm ch).next else s
    | none => s)

/-- REG_BLOCK_END: every channel has output the last course of the block, and the seams are evaluated (R204). The
length that governs the next course is known once that course has triggered, or the group has stopped. -/
def execRegBlockEnd (g : Fin 16) (s : State) : Host.Outcome State Fault Refusal :=
  let k := (s.smG g).next
  .next (if ((s.g g).st = 2 ∨ (s.g g).st = 3) ∧ (Int.ofNat k ≤ s.stampG g ∨ (s.g g).st = 3) ∧ s.blockDue g k ∧
      s.seamDone g (k - 1) then s.blockEnd g k
    else s)

end Sys2Proof.Machine
end

