-- ==== Sys2Proof/Machine/Segment.lean ====
section
/-!
DEFINITION. Segmentation (06_segmentation): masks and mask holds, pre-filter, background, thresholds, morphology, runs,
resolution into components, the run store, and descriptors. The commands SEGMENT_MAP_COURSE, RESOLUTION,
DESCRIPTOR_HAND and MASK_HOLD_NOW.
-/

namespace Sys2Proof.Machine

def State.sg (s : State) (g : Nat) : SegGrp := Tab.get {} g s.segG
def State.setSg (s : State) (g : Nat) (x : SegGrp) : State := { s with segG := Tab.put g x s.segG }

/-! ## Group start and join (R236, R250) -/

/-- Segmentation at a group start. -/
def State.segStart (s : State) (g : Nat) : State :=
  let s := s.setSg g { init := (s.runChans g).map (fun ch => (ch, 0)) }
  let s := s.setF (gsegB g) F.COMP_OPEN_OPEN 0
  let s := s.setF (gsegB g) F.RS_FREE_FREE (s.getF (gsegB g) F.RS_CFG_CHUNKS)
  let s := s.setF (gsegB g) F.SEG_STATUS_HOLD_ACTIVE 0
  s.setF (gsegB g) F.SEG_STATUS_WARM (if s.flag (gsegB g) F.SEG_CTRL_SEG_EN && decide (0 < s.getF (gsegB g) F.BG_CFG_BG_WARM) then 1 else 0)

/-- The channels that join at the boundary that opens course `c`. -/
def State.joinsAt (s : State) (g c : Nat) : List Nat :=
  (s.runChans g).filter (fun ch => (s.ch ch).spans.any (fun p => p.1 == c))

/-- WARM rises at a join: the wales of the channel are in warm-up from course `c` on (R236). Map course `c` initialises
them. -/
def State.segJoins (s : State) (g c : Nat) : State :=
  if s.flag (gsegB g) F.SEG_CTRL_SEG_EN && !(s.joinsAt g c).isEmpty && decide (0 < s.getK g (Int.ofNat c) (gsegB g) F.BG_CFG_BG_WARM)
  then s.setF (gsegB g) F.SEG_STATUS_WARM 1 else s

/-- The first course of warm-up of a channel of a group: its initialisation, or a join that map courses have not reached. -/
def State.warmFrom (s : State) (g ch : Nat) : Nat :=
  (s.ch ch).spans.foldl (fun m p => max m p.1) (Tab.get 0 ch (s.sg g).init)

/-! ## Mask holds (R229) -/

/-- Whether a mask hold covers course `c`. -/
def SegGrp.held (x : SegGrp) (c : Nat) : Bool := x.holds.any (fun h => decide (h.1 ≤ c) && decide (c < h.2))

/-- HOLD_ACTIVE follows the open course. -/
def State.holdShow (s : State) (g : Nat) : State :=
  let on := match (s.g g).openC with
    | some c => (s.sg g).held c
    | none => false
  s.setF (gsegB g) F.SEG_STATUS_HOLD_ACTIVE (if on then 1 else 0)

/-- A trigger whose effective course is `c`: HOLD_LEN courses from there; during a hold the later end stands. Holds that
end before the courses still to be combined are forgotten. -/
def State.holdFrom (s : State) (g c : Nat) : State :=
  let len := s.getK g (Int.ofNat c) (gsegB g) F.MASK_HOLD_HOLD_LEN
  let x := s.sg g
  let low := if s.flag (gsegB g) F.SEG_CTRL_SEG_EN then x.comb else c
  if len = 0 then s
  else (s.setSg g { x with holds := (c, c + len) :: x.holds.filter (fun h => decide (low < h.2)) }).holdShow g

/-! ## Mask combining (R227, R228) -/

/-- Whether seam output of course `k` is complete, or will never come because the group has stopped before it: the output of
its last course is then complete. -/
def State.seamPresent (s : State) (g k : Nat) : Bool :=
  s.seamDone g k || ((s.g g).st == 3 && match (s.g g).last with
    | some l => decide (l < k) && s.seamDone g l
    | none => true)

/-- The output of the wales a channel owns in course `k`; all masked where the group stopped before it. -/
def State.seamRowOf (s : State) (g ch k : Nat) : List Pix :=
  (((s.sm ch).rows.find? (fun r => r.1 == k)).map (·.2)).getD
    (List.replicate (s.getF (seamB ch) F.SEAM_OWN_OWNED) (s.getK g (Int.ofNat k) (ingB ch) F.ING_CFG_FILL, true))

/-- The combined row of the wales of one channel: value (FILL where masked) and mask. -/
def State.combChan (s : State) (g ch k : Nat) (lo hi : Int) (hold : Bool) : List Pix :=
  let kk := Int.ofNat k
  let base := s.getF (seamB ch) F.SEAM_WALE_WALE_BASE
  let fill := s.getK g kk (ingB ch) F.ING_CFG_FILL
  let en := s.flagK g kk (segB ch) F.SEG_CH_CFG_WMASK_EN
  let past := match (s.g g).last with
    | some l => decide (l < k)
    | none => false
  (indexed (s.seamRowOf g ch k)).map (fun e =>
    let w := Int.ofNat (base + e.1)
    let m := e.2.2 || past || decide (w < lo) || decide (hi < w) || hold ||
      (en && bit (s.getK g kk (segB ch) (F.WMASK_MASK.nth (e.1 / 32))) (e.1 % 32))
    if m then (fill, true) else e.2)

/-- The combined row of course `k` of a group. -/
def State.combRow (s : State) (g k : Nat) : List Pix :=
  let b := s.selvBounds g k
  let hold := (s.sg g).held k
  ((s.runChans g).map (fun ch => s.combChan g ch k b.1 b.2 hold)).flatten

/-- Combine courses up to `k`. -/
def State.combTo (s : State) (g k : Nat) : State :=
  let n := (s.sg g).comb
  forL ((List.range (k + 1 - n)).map (· + n)) (fun c t =>
    let x := t.sg g
    t.setSg g { x with combRows := ((c, t.combRow g c) :: x.combRows).take 32, comb := c + 1 }) s

/-- A combined row; all masked before course 0. -/
def SegGrp.combAt (x : SegGrp) (k : Int) : List Pix :=
  ((x.combRows.find? (fun r => Int.ofNat r.1 == k)).map (·.2)).getD []

/-! ## Pre-filter (R231 to R233) -/

/-- Taps of a coded axis. -/
def tapsOf (code : Nat) : Nat := 2 * code + 1

/-- D_F of map course `k` (R233). -/
def State.delayF (s : State) (g : Nat) (k : Int) : Nat :=
  if s.flagK g k (gsegB g) F.FILT_CFG_FILT_EN then s.getK g k (gsegB g) F.FILT_CFG_KY else 0

/-- A seven-entry coefficient table: register pairs LO and HI. -/
def State.coefs (s : State) (g : Nat) (k : Int) (lo hi : Fld) : List Int :=
  (List.range 7).map (fun i => if i % 2 = 0 then s.getIK g k (gsegB g) (lo.nth (i / 2)) else s.getIK g k (gsegB g) (hi.nth (i / 2)))

/-- One axis of the filter: `tap i` is the input at offset `i`, none where it is masked or outside (R232). -/
def filterSum (code : Nat) (co : List Int) (centre : Int) (tap : Int → Option Int) : Int :=
  ((List.range (tapsOf code)).map (fun j =>
    let i := Int.ofNat j - Int.ofNat code
    co.getD (i + 3).toNat 0 * (if i = 0 then centre else (tap i).getD centre))).sum

/-- The value at a place of a row, none where it is masked or outside. -/
def pixAt (row : List Pix) (w : Int) : Option Int :=
  if w < 0 then none
  else match row[w.toNat]? with
    | some (v, false) => some (Int.ofNat v)
    | _ => none

/-- h of one row: none where the centre is masked; and whether it was clamped (R231). -/
def filterX (kx shx : Nat) (cx : List Int) (row : List Pix) : List (Option Int × Bool) :=
  (indexed row).map (fun e =>
    if e.2.2 then (none, false)
    else
      let h := rnd shx (filterSum kx cx (Int.ofNat e.2.1) (fun i => pixAt row (Int.ofNat e.1 + i)))
      let c := clampI (-8388608) 8388607 h
      (some c, decide (c ≠ h)))

/-- y of a course: `rows` are the h of the courses from c − (KY − 1)/2 on (R231). -/
def filterY (ky shy : Nat) (cy : List Int) (rows : List (List (Option Int))) : List (Option Nat) :=
  (indexed (rows.getD ky [])).map (fun e =>
    e.2.map (fun h =>
      (clampI 0 65535 (rnd shy (filterSum ky cy h (fun j => ((rows.getD (j + Int.ofNat ky).toNat []).getD e.1 none))))).toNat))

/-- y of map course `k`, none where masked; and the clamps of its h. -/
def State.filtered (s : State) (g k : Nat) : List (Option Nat) × Nat :=
  let b := gsegB g
  let kk := Int.ofNat k
  let x := s.sg g
  let row := x.combAt kk
  if s.flagK g kk b F.FILT_CFG_FILT_EN then
    let ky := s.getK g kk b F.FILT_CFG_KY
    let cx := s.coefs g kk F.FILT_X_CX_LO F.FILT_X_CX_HI
    let cy := s.coefs g kk F.FILT_Y_CY_LO F.FILT_Y_CY_HI
    let fx := filterX (s.getK g kk b F.FILT_CFG_KX) (s.getK g kk b F.FILT_CFG_SHX) cx
    let hs := (List.range (tapsOf ky)).map (fun j => (fx (x.combAt (kk + Int.ofNat j - Int.ofNat ky))).map (·.1))
    (filterY ky (s.getK g kk b F.FILT_CFG_SHY) cy hs, ((fx row).filter (·.2)).length)
  else (row.map (fun p => if p.2 then none else some p.1), 0)

/-! ## Background and thresholds (R234 to R237) -/

/-- A threshold pair: ABS and REL, dark and bright. -/
structure ThrPair where
  absD : Nat
  relD : Nat
  absB : Nat
  relB : Nat

/-- Class bits of one pixel before CLASS_EN (R237). -/
def classBits (y bg : Int) : Nat → List ThrPair → Nat
  | _, [] => 0
  | p, t :: ts =>
    let td := max 1 (Int.ofNat t.absD + rnd 16 (bg * Int.ofNat t.relD))
    let tb := max 1 (Int.ofNat t.absB + rnd 16 (bg * Int.ofNat t.relB))
    (if y ≤ bg - td then 4 ^ p else 0) + (if bg + tb ≤ y then 2 * 4 ^ p else 0) + classBits y bg (p + 1) ts

/-- One pixel: class bits and the new background (R235 to R237). -/
def thrPixel (pairs : List ThrPair) (en bgLog : Nat) (freeze warm : Bool) (bq : Option Nat) (y : Option Nat) :
    Nat × Option Nat :=
  match y, bq with
  | none, q => (0, q)
  | some y, none => (0, some (256 * y))
  | some y, some q =>
    let cls := if warm then 0 else classBits (Int.ofNat y) (rnd 8 (Int.ofNat q)) 0 pairs &&& en
    if freeze ∧ cls ≠ 0 then (cls, some q)
    else (cls, some (Int.ofNat q + rnd bgLog (256 * Int.ofNat y - Int.ofNat q)).toNat)

/-- Threshold and background of map course `k` (steps 2 to 4 of R224). The wales of a channel that joins at it are
initialised first (R236). -/
def State.thrCourse (s : State) (g k : Nat) : State :=
  let b := gsegB g
  let kk := Int.ofNat k
  let f := s.filtered g k
  let s := s.satF b F.FILT_SAT_COUNT f.2
  let pairs := (List.range 4).map (fun p => (⟨s.getK g kk b (F.THR_D_ABS_D.nth p), s.getK g kk b (F.THR_D_REL_D.nth p),
    s.getK g kk b (F.THR_B_ABS_B.nth p), s.getK g kk b (F.THR_B_REL_B.nth p)⟩ : ThrPair))
  let en := s.getK g kk b F.SEG_CTRL_CLASS_EN
  let lg := s.getK g kk b F.BG_CFG_BG_LOG
  let fr := s.flagK g kk b F.SEG_CTRL_FREEZE_FG
  let warmLen := s.getK g kk b F.BG_CFG_BG_WARM
  let joins := s.joinsAt g k
  let x := s.sg g
  let x := { x with
    bg := joins.foldl (fun t ch => Tab.del ch t) x.bg
    init := joins.foldl (fun t ch => Tab.put ch k t) x.init }
  let one (ch : Nat) : Nat × List (Nat × Option Nat) :=
    let n := s.getF (seamB ch) F.SEAM_OWN_OWNED
    let base := s.getF (seamB ch) F.SEAM_WALE_WALE_BASE
    let bg := Tab.get (List.replicate n none) ch x.bg
    let warm := decide (k < Tab.get 0 ch x.init + warmLen)
    (ch, (bg.zip ((f.1.drop base).take n)).map (fun p => thrPixel pairs en lg fr warm p.1 p.2))
  let out := (s.runChans g).map one
  let warmNow := (s.runChans g).any (fun ch => decide (k + 1 < s.warmFrom g ch + warmLen))
  let row := ((out.map (fun o => o.2.map (·.1))).flatten).zip (x.combAt kk)
  let s := s.setSg g { x with
    bg := out.foldl (fun t o => Tab.put o.1 (o.2.map (·.2)) t) x.bg
    clsRows := ((k, row.map (fun p => (p.2.2, p.1))) :: x.clsRows).take 16
    thr := k + 1 }
  s.setF b F.SEG_STATUS_WARM (if warmNow then 1 else 0)

/-- Threshold courses up to `k`. -/
def State.thrTo (s : State) (g k : Nat) : State :=
  let n := (s.sg g).thr
  forL ((List.range (k + 1 - n)).map (· + n)) (fun c t =>
    (t.combTo g (c + t.delayF g (Int.ofNat c))).thrCourse g c) s

/-! ## Morphology (R238 to R240) -/

/-- OP and SHAPE of the four steps that govern course `k`, those that are none left out. -/
def State.morphSteps (s : State) (g : Nat) (k : Int) : List (Nat × Bool) :=
  ([(F.MORPH_OP_0, F.MORPH_SHAPE_0), (F.MORPH_OP_1, F.MORPH_SHAPE_1), (F.MORPH_OP_2, F.MORPH_SHAPE_2),
    (F.MORPH_OP_3, F.MORPH_SHAPE_3)].map (fun p => (s.getK g k (gsegB g) p.1, s.flagK g k (gsegB g) p.2))).filter
      (fun p => p.1 == 1 || p.1 == 2)

/-- D_M of course `k`. -/
def State.delayM (s : State) (g : Nat) (k : Int) : Nat := (s.morphSteps g k).length

/-- Class bits at a place, none where it is masked or outside the group. -/
def clsAt (row : List (Bool × Nat)) (w : Int) : Option Nat :=
  if w < 0 then none
  else match row[w.toNat]? with
    | some (false, c) => some c
    | _ => none

/-- The pixels of the element around `w`. -/
def element (cross : Bool) (p c n : List (Bool × Nat)) (w : Int) : List (Option Nat) :=
  if cross then [clsAt p w, clsAt c (w - 1), clsAt c w, clsAt c (w + 1), clsAt n w]
  else ([p, c, n].map (fun r => [clsAt r (w - 1), clsAt r w, clsAt r (w + 1)])).flatten

/-- One step on a row between its neighbours (R239). -/
def morphRow (op : Nat) (cross : Bool) (p c n : List (Bool × Nat)) : List (Bool × Nat) :=
  (indexed c).map (fun e =>
    if e.2.1 then (true, 0)
    else
      let el := element cross p c n (Int.ofNat e.1)
      if op = 1 then (false, if el.all (fun o => o.all (· != 0)) then e.2.2 else 0)
      else (false, el.foldl (fun a o => a ||| o.getD 0) 0))

/-- One step on consecutive rows: the first and the last are used up. -/
def morphRows (op : Nat) (cross : Bool) : List (List (Bool × Nat)) → List (List (Bool × Nat))
  | p :: c :: n :: rest => morphRow op cross p c n :: morphRows op cross (c :: n :: rest)
  | _ => []

/-- The final class bits of map course `k`. -/
def State.morphed (s : State) (g k : Nat) : List (Bool × Nat) :=
  let st := s.morphSteps g (Int.ofNat k)
  let x := s.sg g
  let at' (c : Int) : List (Bool × Nat) := ((x.clsRows.find? (fun r => Int.ofNat r.1 == c)).map (·.2)).getD []
  let rows := (List.range (2 * st.length + 1)).map (fun j => at' (Int.ofNat k + Int.ofNat j - Int.ofNat st.length))
  (st.foldl (fun l p => morphRows p.1 p.2 l) rows).headD []

/-! ## Runs (R241, R255) -/

/-- Maximal stretches of non-zero class bits: first place, length, class bits. -/
def stretches (i : Nat) (cur : Option (Nat × Nat × Nat)) : List Nat → List (Nat × Nat × Nat)
  | [] => cur.toList
  | c :: cs =>
    if c = 0 then cur.toList ++ stretches (i + 1) none cs
    else
      match cur with
      | some (a, n, k) => stretches (i + 1) (some (a, n + 1, k ||| c)) cs
      | none => stretches (i + 1) (some (i, 1, c)) cs

/-- The runs of a channel in map course `k`. -/
def State.runsOf (s : State) (g ch : Nat) (row : List Pix) (fin : List (Bool × Nat)) : List Run :=
  let base := s.getF (seamB ch) F.SEAM_WALE_WALE_BASE
  let n := s.getF (seamB ch) F.SEAM_OWN_OWNED
  let mg := s.getF (gsegB g) F.LAB_CFG_RUN_MARGIN
  let w := row.length
  let edge (i : Int) : Bool := (clsAt fin i).isNone
  (stretches 0 none (((fin.drop base).take n).map (·.2))).map (fun r =>
    let a := base + r.1
    let z := a + r.2.1
    { ch := ch, wale := a, len := r.2.1, cls := r.2.2
      touch := edge (Int.ofNat a - 1) || edge (Int.ofNat z)
      clipL := decide (a < mg)
      clipR := decide (w < z + mg)
      vals := (List.range (r.2.1 + 2 * mg)).map (fun i => if a + i < mg then 0 else ((row[a + i - mg]?).map (·.1)).getD 0) })

/-- The last course whose seam output the threshold of courses up to c + D_M needs (R240). -/
def State.mapNeeds (s : State) (g c : Nat) : Nat :=
  (List.range (s.delayM g (Int.ofNat c) + 1)).foldl (fun m j => max m (c + j + s.delayF g (Int.ofNat (c + j)))) c

/-- Map course `c` is labelled: its runs go to the resolution (R240, R243). -/
def State.mapCourse (s : State) (g c : Nat) : State :=
  let s := s.thrTo g (c + s.delayM g (Int.ofNat c))
  let fin := s.morphed g c
  let row := (s.sg g).combAt (Int.ofNat c)
  let runs := (s.runChans g).map (fun ch => (ch, s.runsOf g ch row fin))
  let s := forL runs (fun r t => t.satF (segB r.1) F.SEG_RUNS_COUNT r.2.length) s
  let x := s.sg g
  s.setSg g { x with next := c + 1, runs := x.runs ++ [(c, (runs.map (·.2)).flatten)] }

/-- Whether map course `c` exists: it has triggered and lies at or before the last course of a stopped group. -/
def State.hasCourse (s : State) (g c : Nat) : Bool :=
  match (s.g g).last with
  | some l => decide (c ≤ l)
  | none => (s.g g).st == 2

/-- SEGMENT_MAP_COURSE: the next map course is filtered, thresholded, morphed and labelled once the seam output it
needs is there (R240), at most 4 courses ahead of the resolution (R246). -/
def execSegmentMapCourse (g : Fin 16) (s : State) : Host.Outcome State Fault Refusal :=
  let c := (s.sg g).next
  .next (if ((s.g g).st = 2 ∨ (s.g g).st = 3) ∧ s.flag (gsegB g) F.SEG_CTRL_SEG_EN ∧ s.hasCourse g c ∧
      s.seamPresent g (c + s.delayF g (Int.ofNat c) + s.delayM g (Int.ofNat c)) ∧ s.seamPresent g (s.mapNeeds g c) ∧
      c < (s.sg g).res + 4 then s.mapCourse g c
    else s)

/-! ## The run store (R254 to R257) -/

/-- A run record (R255). -/
def runRecord (c : Nat) (r : Run) : List Byte :=
  let b := le 8 c ++ le 4 r.wale ++ le 2 r.len ++ le 1 r.cls ++
    le 1 ((if r.touch then 1 else 0) + (if r.clipL then 2 else 0) + (if r.clipR then 4 else 0)) ++ (r.vals.map (le 2)).flatten
  b ++ zeros ((16 - b.length % 16) % 16)

/-- Free chunks of a group's pool. -/
def State.freeChunks (s : State) (g : Nat) : Nat :=
  let x := s.sg g
  s.getF (gsegB g) F.RS_CFG_CHUNKS - x.fresh + x.back.length

/-- Take a free chunk: a returned one first (log entry 11). -/
def State.takeChunk (s : State) (g : Nat) : State × Nat :=
  let x := s.sg g
  let r : SegGrp × Nat := match x.back with
    | c :: cs => ({ x with back := cs }, c)
    | [] => ({ x with fresh := x.fresh + 1 }, s.getF (gsegB g) F.RS_BASE_ADDR + 4096 * x.fresh)
  let s := s.setSg g r.1
  (s.setF (gsegB g) F.RS_FREE_FREE (s.freeChunks g), r.2)

/-- A chunk's header: NEXT and USED (R254). -/
def chunkHead (next used : Nat) : List Byte := le 8 next ++ le 4 used ++ zeros 4

/-- Append stream bytes to a segment's chain; `fuel` bounds the pieces. Answers whether memory took them. -/
def State.appendRun (s : State) (g : Nat) (seg : Seg) (bs : List Byte) : Nat → State × Seg × Bool
  | 0 => (s, seg, true)
  | fuel + 1 =>
    if bs.isEmpty then (s, seg, true)
    else
      let full := seg.chunks.isEmpty || seg.used == 4080
      let r := if full then s.takeChunk g else (s, seg.chunks.getLastD 0)
      let s := r.1
      let cur := r.2
      let w0 := if full && !seg.chunks.isEmpty then s.memWrite 0 g (seg.chunks.getLastD 0) (chunkHead cur 4080) else (s, none)
      let s := w0.1
      let seg := if full then { seg with chunks := seg.chunks ++ [cur], used := 0 } else seg
      let n := min bs.length (4080 - seg.used)
      let w1 := s.memWrite 0 g (cur + 16 + seg.used) (bs.take n)
      let w2 := w1.1.memWrite 0 g cur (chunkHead 0 (seg.used + n))
      let seg := { seg with used := seg.used + n }
      if w0.2.isSome || w1.2.isSome || w2.2.isSome then (w2.1, seg, false)
      else w2.1.appendRun g seg (bs.drop n) fuel

/-- Whether the re-run's journal holds a RUN_DROP record of this run (R678 step 5). -/
def State.rerunDrops (s : State) (g c : Nat) (r : Run) : Bool :=
  s.rep.rrDrops.any (fun d => d.1 == g && d.2.1 == c && d.2.2.1 == r.wale && d.2.2.2 == r.len)

/-- A run that is not stored (R257). -/
def State.runDropped (s : State) (g c : Nat) (r : Run) : State :=
  let b := gsegB g
  let s := s.raise b F.SEG_STATUS_RUNSTORE_FULL 0xC5
  let s := s.satF b F.RUN_DROP_COUNT 1
  let s := s.jrn 0x0A g 0 r.ch 0 (Int.ofNat c) (le 4 r.wale ++ le 2 r.len)
  let x := s.sg g
  if x.logFull.any (fun k => decide (c < k + 65536)) then s
  else (s.setSg g { x with logFull := some c }).logReg .runstoreFull g g (b + 0x74)

/-- Write a run of course `c` to the store, or drop it (R257). -/
def State.storeRun (s : State) (g c : Nat) (seg : Seg) (r : Run) : State × Seg :=
  let bs := runRecord c r
  let room := (if seg.chunks.isEmpty then 0 else 4080 - seg.used) + 4080 * s.freeChunks g
  if room < bs.length ∨ s.rerunDrops g c r then (s.runDropped g c r, { seg with flags := setBit seg.flags 3 })
  else
    let a := s.appendRun g seg bs (bs.length + 1)
    if a.2.2 then (a.1, a.2.1) else (a.1.runDropped g c r, { a.2.1 with flags := setBit a.2.1.flags 3 })

/-! ## Components (R244, R247 to R253) -/

/-- Add a run of course `c` to a segment; runs of the overflow component are not stored (R251, R258). -/
def State.segAdd (s : State) (g c : Nat) (overC : Bool) (seg : Seg) (r : Run) : State × Seg :=
  let spare := (s.ch r.ch).spareAt c
  let f := if r.touch then setBit seg.flags 0 else seg.flags
  let f := if spare then setBit f 6 else f
  let f := if overC then setBit f 3 else f
  let seg := { seg with
    lo := if seg.runs = 0 then r.wale else min seg.lo r.wale
    hi := if seg.runs = 0 then r.wale + r.len - 1 else max seg.hi (r.wale + r.len - 1)
    runs := seg.runs + 1
    area := seg.area + r.len
    cls := seg.cls ||| r.cls
    flags := f }
  if overC then (s, seg) else s.storeRun g c seg r

/-- Add the runs of a set. -/
def State.segAddAll (s : State) (g c : Nat) (overC : Bool) (seg : Seg) : List Run → State × Seg
  | [] => (s, seg)
  | r :: rs =>
    let a := s.segAdd g c overC seg r
    a.1.segAddAll g c overC a.2 rs

/-- Link an absorbed segment behind the root's (R253, R256). -/
def State.segJoin (s : State) (g : Nat) (a b : Seg) : State × Seg :=
  let m := { a with
    first := min a.first b.first
    lo := if a.runs = 0 then b.lo else if b.runs = 0 then a.lo else min a.lo b.lo
    hi := if a.runs = 0 then b.hi else if b.runs = 0 then a.hi else max a.hi b.hi
    runs := a.runs + b.runs
    area := a.area + b.area
    cls := a.cls ||| b.cls
    flags := a.flags ||| b.flags }
  if b.chunks.isEmpty then (s, m)
  else if a.chunks.isEmpty then (s, { m with chunks := b.chunks, used := b.used })
  else
    ((s.memWrite 0 g (a.chunks.getLastD 0) (chunkHead (b.chunks.headD 0) a.used)).1,
      { m with chunks := a.chunks ++ b.chunks, used := b.used })

/-- CHAIN_KEY (R258). -/
def chainKey (c : Comp) : Nat := c.keyC % 2 ^ 42 * 2 ^ 22 + c.keyW

/-- A descriptor waiting to be handed, with its place in the order (R245 step 6). -/
structure Desc where
  keyC : Nat
  keyW : Nat
  idx : Nat
  bytes : List Byte

/-- The descriptor of a segment whose last course is `last` (R258): one of the overflow component has RUNS_TRUNC, whether or
not it holds a run. -/
def descOf (g : Nat) (c : Comp) (kind : Nat) (seg : Seg) (last mergeKey : Nat) : Desc :=
  { keyC := c.keyC, keyW := c.keyW, idx := seg.idx
    bytes := le 1 kind ++ le 1 seg.cls ++ le 2 (if 4 ≤ kind then setBit seg.flags 3 else seg.flags) ++ le 1 g ++ zeros 1 ++ le 2 (min seg.idx 0xFFFF) ++
      le 8 seg.first ++ le 4 (last + 1 - seg.first) ++ le 4 seg.runs ++ le 4 seg.lo ++ le 4 seg.hi ++ le 8 seg.area ++
      le 8 (if 4 ≤ kind then 0 else chainKey c) ++ le 8 mergeKey ++ le 8 (seg.chunks.headD 0) }

/-- The descriptors of a component that closes (R247, R252). -/
def closeDescs (g : Nat) (overC : Bool) (c : Comp) : List Desc :=
  let lastKind := if overC then 4 else 3
  match c.pend with
  | some (p, l) => [descOf g c lastKind p l 0]
  | none => [descOf g c (if overC then 4 else if c.seg.idx = 0 then 1 else 3) c.seg c.last 0]

/-- The descriptors of a chain that a root with key `mk` absorbs (R253). -/
def mergeDescs (g mk : Nat) (c : Comp) : List Desc :=
  let flag (s : Seg) : Seg := { s with flags := setBit s.flags 1 }
  match c.pend with
  | some (p, l) => [descOf g c 3 (flag p) l mk]
  | none => if c.seg.idx = 0 then [] else [descOf g c 3 (flag c.seg) c.last mk]

/-- The ended segment of a component that goes on (R252). -/
def pendDescs (g : Nat) (overC : Bool) (c : Comp) : List Desc :=
  match c.pend with
  | some (p, l) => [descOf g c (if overC then 5 else 2) p l 0]
  | none => []

/-- Whether a run is adjacent to the frontier of a component (R242, R248). -/
def touches (r : Run) (c : Comp) : Bool :=
  c.front.any (fun f => decide (r.wale ≤ f.1 + f.2) && decide (f.1 ≤ r.wale + r.len))

/-- A set of runs of one course that belong together: runs, keys of the real components they touch, and whether one
touches the overflow component (R245 step 1). -/
structure RunSet where
  runs : List Run
  keys : List (Nat × Nat)
  overC : Bool

/-- Whether two sets belong together: adjacent runs in the course, or a component in common. -/
def RunSet.meets (a b : RunSet) : Bool :=
  a.runs.any (fun x => b.runs.any (fun y => x.wale + x.len == y.wale || y.wale + y.len == x.wale)) ||
    a.keys.any (fun k => b.keys.contains k)

/-- Add a set to a list of sets that do not meet. -/
def addSet (n : RunSet) (sets : List RunSet) : List RunSet :=
  let hit := sets.filter n.meets
  let rest := sets.filter (fun x => !n.meets x)
  rest ++ [hit.foldl (fun a b => ⟨b.runs ++ a.runs, (b.keys ++ a.keys).eraseDups, b.overC || a.overC⟩) n]

/-- The sets of the runs of a course. -/
def runSets (x : SegGrp) (runs : List Run) : List RunSet :=
  runs.foldl (fun sets r =>
    addSet ⟨[r], (x.comps.filter (touches r)).map (fun c => (c.keyC, c.keyW)), x.overC.any (touches r)⟩ sets) []

/-- The lowest wale of a set. -/
def RunSet.low (a : RunSet) : Nat := (a.runs.map (·.wale)).foldl min ((a.runs.map (·.wale)).headD 0)

/-- The work of one resolution in progress: components that go on, descriptors, entries granted. -/
structure ResWork where
  alive : List Comp := []
  descs : List Desc := []
  granted : Nat := 0
  overC : List Run := []

/-- The frontier that runs leave. -/
def frontOf (rs : List Run) : List (Nat × Nat) := rs.map (fun r => (r.wale, r.len))

/-- A set that touches real components: the root absorbs the others and takes the runs (R244, R253). -/
def State.resolveReal (s : State) (g c : Nat) (x : SegGrp) (w : ResWork) (r : RunSet) : State × ResWork :=
  let mine := sortKey (fun (k : Comp) => (k.keyC, k.keyW)) (x.comps.filter (fun k => r.keys.contains (k.keyC, k.keyW)))
  match mine with
  | [] => (s, w)
  | root :: others =>
    let descs := (others.map (mergeDescs g (chainKey root))).flatten
    let plain := others.filter (fun k => k.seg.idx == 0 && k.pend.isNone)
    let j := plain.foldl (fun (a : State × Seg) k => a.1.segJoin g a.2 k.seg) (s, root.seg)
    let a := j.1.segAddAll g c false j.2 r.runs
    (a.1, { w with
      alive := w.alive ++ [{ root with seg := a.2, last := c, front := frontOf r.runs, gap := false, pend := none }]
      descs := w.descs ++ descs ++ pendDescs g false root })

/-- A set that touches no component: it is granted an entry, or goes to the overflow component (R250, R251). -/
def State.resolveNew (s : State) (g c avail : Nat) (w : ResWork) (r : RunSet) : State × ResWork :=
  if w.granted < avail then
    let a := s.segAddAll g c false { first := c } r.runs
    let k : Comp := { keyC := c, keyW := r.low, seg := a.2, last := c, front := frontOf r.runs }
    (a.1, { w with alive := w.alive ++ [k], granted := w.granted + 1 })
  else (s, { w with overC := w.overC ++ r.runs })

/-- Whether every wale of a component's frontier span is masked in a row; wales outside count as masked (R248). -/
def spanMasked (row : List (Bool × Nat)) (c : Comp) : Bool :=
  let lo := (c.front.map (·.1)).foldl min ((c.front.map (·.1)).headD 0)
  let hi := (c.front.map (fun f => f.1 + f.2 - 1)).foldl max 0
  (List.range (hi + 3 - lo)).all (fun i => (clsAt row (Int.ofNat (lo + i) - 1)).isNone)

/-- A component that gains no pixel in a course: it is bridged, or closes (R247, R248). Answers the component when it
goes on. -/
def idleComp (g : Nat) (overC bridge : Bool) (row : List (Bool × Nat)) (c : Comp) : Option Comp × List Desc :=
  if bridge && !c.gap && spanMasked row c then
    (some { c with gap := true, pend := none, seg := { c.seg with flags := setBit c.seg.flags 4 } }, pendDescs g overC c)
  else (none, closeDescs g overC c)

/-- A component that goes on splits when its segment is long enough (R252). -/
def splitComp (splitLen runMax c : Nat) (k : Comp) : Comp :=
  let byRuns := decide (runMax ≤ k.seg.runs)
  if splitLen ≤ c + 1 - k.seg.first ∨ byRuns then
    let ended := if byRuns then { k.seg with flags := setBit k.seg.flags 2 } else k.seg
    { k with pend := some (ended, c), seg := { idx := k.seg.idx + 1, first := c + 1 } }
  else k

/-- A component that the stop of its group closes (R249). -/
def stopDescs (g : Nat) (overC : Bool) (k : Comp) : List Desc :=
  let flag (s : Seg) : Seg := { s with flags := setBit s.flags 5 }
  closeDescs g overC { k with seg := flag k.seg, pend := k.pend.map (fun p => (flag p.1, p.2)) }

/-- The descriptors in the order in which they are handed (R245 step 6). -/
def orderDescs (l : List Desc) : List (List Byte) :=
  (sortKey (fun (d : Desc) => (d.keyC, d.keyW)) (l.foldr (insKey (fun (d : Desc) => (d.idx, 0))) [])).map (·.bytes)

/-- COMP_OPEN and COMP_PEAK. -/
def State.showOpen (s : State) (g : Nat) : State :=
  let n := (s.sg g).comps.length
  let s := s.setF (gsegB g) F.COMP_OPEN_OPEN n
  s.setF (gsegB g) F.COMP_PEAK_PEAK (max n (s.getF (gsegB g) F.COMP_PEAK_PEAK))

/-- Pixels go to the overflow component in course `c` (R251, R264). -/
def State.overNote (s : State) (g c pix : Nat) : State :=
  let b := gsegB g
  if pix = 0 then s
  else
    let s := s.raise b F.SEG_STATUS_OVF_EV 0xC4
    let s := (s.satF b F.OVF_PIX_COUNT pix).satF b F.OVF_COURSES_COUNT 1
    let s := s.cswSet g c cswOverflow
    let x := s.sg g
    if x.logOvf.any (fun k => decide (c < k + 65536)) then s
    else (s.setSg g { x with logOvf := some c }).logReg .segOverflow g g (b + 0x74)

/-- The overflow component after the runs of a course (R251). -/
def State.resolveOver (s : State) (g c : Nat) (x : SegGrp) (runs : List Run) (bridge : Bool) (row : List (Bool × Nat)) :
    State × Option Comp × List Desc :=
  if runs.isEmpty then
    match x.overC with
    | none => (s, none, [])
    | some o =>
      let r := idleComp g true bridge row o
      (s, r.1, r.2)
  else
    let low := (runs.map (·.wale)).foldl min ((runs.map (·.wale)).headD 0)
    let o := x.overC.getD { keyC := c, keyW := low, seg := { first := c } }
    let a := s.segAddAll g c true o.seg runs
    (a.1, some { o with seg := a.2, last := c, front := frontOf runs, gap := false, pend := none }, pendDescs g true o)

/-- The resolution of map course `c` (R245). -/
def State.resolve (s : State) (g c : Nat) (runs : List Run) : State :=
  let b := gsegB g
  let cc := Int.ofNat c
  let x := s.sg g
  let bridge := s.flagK g cc b F.SEG_CTRL_BRIDGE_EN
  let row := ((x.clsRows.find? (fun r => r.1 == c)).map (·.2)).getD []
  let sets := sortKey (fun (r : RunSet) => (0, r.low)) (runSets x runs)
  let avail := s.getF b F.COMP_MAX - x.comps.length
  -- joined sets and absorbed chains
  let real := sets.filter (fun r => !r.keys.isEmpty)
  let p := real.foldl (fun (a : State × ResWork) r => a.1.resolveReal g c x a.2 r) (s, {})
  -- new components
  let fresh := sets.filter (fun r => r.keys.isEmpty && !r.overC)
  let q := fresh.foldl (fun (a : State × ResWork) r => a.1.resolveNew g c avail a.2 r) p
  let overRuns := ((sets.filter (fun r => r.keys.isEmpty && r.overC)).map (·.runs)).flatten ++ q.2.overC
  let s := q.1
  -- components without a pixel
  let used := (real.map (·.keys)).flatten
  let idle := (x.comps.filter (fun k => !used.contains (k.keyC, k.keyW))).map (idleComp g false bridge row)
  let o := s.resolveOver g c x overRuns bridge row
  let s := o.1.overNote g c ((overRuns.map (·.len)).sum)
  let alive := q.2.alive ++ (idle.map (fun i => i.1.toList)).flatten
  let descs := q.2.descs ++ (idle.map (·.2)).flatten ++ o.2.2
  let stop := (s.g g).last == some c && (s.g g).st == 3
  let sl := s.getK g cc b F.LAB_CFG_SPLIT_LEN
  let rm := s.getK g cc b F.RUN_MAX
  let y := s.sg g
  let comps := alive.map (splitComp sl rm c)
  let overC := o.2.1.map (splitComp sl rm c)
  let s := if stop then
      s.setSg g { y with
        comps := []
        overC := none
        hand := y.hand ++ orderDescs (descs ++ (comps.map (stopDescs g false)).flatten ++ (overC.toList.map (stopDescs g true)).flatten)
        res := c + 1 }
    else
      s.setSg g { y with
        comps := comps
        overC := overC
        hand := y.hand ++ orderDescs descs
        res := c + 1 }
  (s.showOpen g).cswFinish g c

/-- RESOLUTION: the next labelled course is resolved; it waits while a descriptor of an earlier course waits for room
(R245, R258). -/
def execResolution (g : Fin 16) (s : State) : Host.Outcome State Fault Refusal :=
  let x := s.sg g
  .next (match x.runs with
    | (c, rs) :: rest => if x.hand.isEmpty then (s.setSg g { x with runs := rest }).resolve g c rs else s
    | [] => s)

/-- The stop of a group all of whose courses are resolved closes every open component (R249). -/
def State.segStop (s : State) (g : Nat) : State :=
  let x := s.sg g
  let all := (s.g g).last.all (fun l => decide (l < x.res))
  if s.flag (gsegB g) F.SEG_CTRL_SEG_EN && all then
    (s.setSg g { x with
      comps := []
      overC := none
      hand := x.hand ++ orderDescs ((x.comps.map (stopDescs g false)).flatten ++ (x.overC.toList.map (stopDescs g true)).flatten) }).showOpen g
  else s

/-- DESCRIPTOR_HAND: the next descriptor is written to DESC_RING, or waits for room (R258). -/
def execDescriptorHand (g : Fin 16) (s : State) : Host.Outcome State Fault Refusal :=
  let x := s.sg g
  let ring := s.getF (gsegB g) F.DESC_RING_RING
  .next (match x.hand with
    | d :: ds =>
      if s.ringFits ring 64 then
        ((s.ringWrite ring d).setSg g { x with hand := ds, wait := false }).incF (gsegB g) F.DESC_COUNT_COUNT 1
      else (s.ringStarve ring).setSg g { x with wait := true }
    | [] => s)

/-- A course triggers while a descriptor waits (R258). -/
def State.descWait (s : State) (g : Nat) : State :=
  if (s.sg g).wait then s.satF (gsegB g) F.DESC_WAIT_COUNT 1 else s

end Sys2Proof.Machine
end

