-- ==== Sys2Proof/Machine/Classify.lean ====
section
/-!
DEFINITION. Classifiers (07_tally_records R288 to R295): descriptors and their checks, tree ensembles, linear models and
networks over the feature vector and the patch.
-/

namespace Sys2Proof.Machine

/-- The rounded mean of `n` values with sum `t` (R279). -/
def meanR (t n : Nat) : Nat := (2 * t + n) / (2 * n)

/-- A patch: pixels per row, rows, and the pixels row by row. -/
structure Patch where
  pw : Nat
  ph : Nat
  pix : List Nat

/-- Feature `i`, 0 above index 22 (R280). -/
def featAt (fv : List Int) (i : Nat) : Int := fv.getD i 0

/-- Clamp to int8. -/
def clamp8 (x : Int) : Int := clampI (-128) 127 x

/-- A signed byte of a descriptor. -/
def s8At (bs : List Byte) (off : Nat) : Int := toInt 8 (leAt bs off 1)

/-! ## Tree ensembles (R291) -/

/-- Walk a tree at byte offset `base`: the leaf's LABEL and VOTE; `fuel` bounds the depth. -/
def treeLeaf (bs : List Byte) (fv : List Int) (base n : Nat) : Nat → Nat × Int
  | 0 => (0, 0)
  | fuel + 1 =>
    let w := leAt bs (base + 8 * n) 8
    if bit w 23 then (bits w 47 40, toInt 16 (bits w 63 48))
    else if featAt fv (bits w 31 24) ≤ toInt 32 (bits w 63 32) then treeLeaf bs fv base (2 * n + 1) fuel
    else treeLeaf bs fv base (2 * n + 2) fuel

/-- Scores of an ensemble of `count` trees. -/
def treeScores (bs : List Byte) (fv : List Int) (nl count : Nat) : List Int :=
  (List.range count).foldl (fun (sc : List Int) t =>
    let l := treeLeaf bs fv (0x1000 * (t + 1)) 0 9
    sc.set l.1 (sc.getD l.1 0 + l.2)) (List.replicate nl 0)

/-- Whether the nodes of a tree that can be reached obey R291. -/
def treeOk (bs : List Byte) (base nl n : Nat) : Nat → Bool
  | 0 => false
  | fuel + 1 =>
    let w := leAt bs (base + 8 * n) 8
    if bit w 23 then decide (bits w 47 40 < nl)
    else decide (n < 255) && treeOk bs base nl (2 * n + 1) fuel && treeOk bs base nl (2 * n + 2) fuel

/-! ## Linear models (R292) -/

/-- Scores of a linear model of `count` features. -/
def linearScores (bs : List Byte) (fv : List Int) (nl count : Nat) : List Int :=
  let q := (List.range count).map (fun i =>
    let e := leAt bs (0x40 + 8 * i) 8
    clamp8 (rnd (bits e 15 8) (featAt fv (bits e 7 0) - toInt 32 (bits e 63 32))))
  let b0 := 0x40 + 8 * count
  let w0 := b0 + 4 * nl
  (List.range nl).map (fun l =>
    toInt 32 (leAt bs (b0 + 4 * l) 4) + ((indexed q).map (fun e => s8At bs (w0 + l * count + e.1) * e.2)).sum)

/-! ## Networks (R293, R294) -/

/-- A tensor, stored as [y][x][c]. -/
structure Tensor where
  w : Nat
  h : Nat
  c : Nat
  d : List Int

/-- An element, 0 outside. -/
def Tensor.at' (t : Tensor) (y x : Int) (c : Nat) : Int :=
  if y < 0 ∨ x < 0 ∨ Int.ofNat t.h ≤ y ∨ Int.ofNat t.w ≤ x then 0
  else t.d.getD ((y.toNat * t.w + x.toNat) * t.c + c) 0

/-- A layer entry (R294). -/
structure Layer where
  ty : Nat
  relu : Bool
  stride : Nat
  cin : Nat
  cout : Nat
  shift : Nat
  mult : Int
  woff : Nat

def layerAt (bs : List Byte) (i : Nat) : Layer :=
  let o := 0x40 + 32 * i
  { ty := leAt bs o 1, relu := bit (leAt bs (o + 1) 1) 0, stride := if bit (leAt bs (o + 1) 1) 1 then 2 else 1
    cin := leAt bs (o + 2) 2, cout := leAt bs (o + 4) 2, shift := leAt bs (o + 6) 1
    mult := toInt 16 (leAt bs (o + 8) 2), woff := leAt bs (o + 12) 4 }

/-- Weights per output of a layer over `n` inputs with a kernel of `k` × `k`. -/
def Layer.bias (l : Layer) (bs : List Byte) (perOut co : Nat) : Int :=
  toInt 32 (leAt bs (l.woff + (l.cout * perOut + 3) / 4 * 4 + 4 * co) 4)

/-- acc of a convolution of kernel `k` at an output place. -/
def Layer.conv (l : Layer) (bs : List Byte) (k : Nat) (t : Tensor) (y x co : Nat) : Int :=
  let per := l.cin * k * k
  let h := Int.ofNat (k / 2)
  l.bias bs per co + ((List.range per).map (fun j =>
    s8At bs (l.woff + co * per + j) *
      t.at' (Int.ofNat (y * l.stride + j / k % k) - h) (Int.ofNat (x * l.stride + j % k) - h) (j / (k * k)))).sum

/-- acc of a fully connected layer. -/
def Layer.full (l : Layer) (bs : List Byte) (t : Tensor) (co : Nat) : Int :=
  l.bias bs l.cin co + ((indexed (t.d.take l.cin)).map (fun e => s8At bs (l.woff + co * l.cin + e.1) * e.2)).sum

/-- The output of acc (R294). -/
def Layer.act (l : Layer) (acc : Int) : Int :=
  let v := clamp8 (rnd l.shift (acc * l.mult))
  if l.relu then max 0 v else v

/-- Width or height of a layer's output. -/
def Layer.dim (l : Layer) (n : Nat) : Nat :=
  if l.ty = 1 ∨ l.ty = 2 then (n + l.stride - 1) / l.stride else if l.ty = 3 then n / 2 else 1

/-- Channels of a layer's output. -/
def Layer.chans (l : Layer) (c : Nat) : Nat := if l.ty = 3 ∨ l.ty = 4 then c else l.cout

/-- One layer that is not the last. -/
def Layer.run (l : Layer) (bs : List Byte) (t : Tensor) : Tensor :=
  let w := l.dim t.w
  let h := l.dim t.h
  let c := l.chans t.c
  let places := (List.range (w * h * c)).map (fun i => (i / c / w, i / c % w, i % c))
  let val (p : Nat × Nat × Nat) : Int :=
    if l.ty = 1 then l.act (l.conv bs 3 t p.1 p.2.1 p.2.2)
    else if l.ty = 2 then l.act (l.conv bs 1 t p.1 p.2.1 p.2.2)
    else if l.ty = 3 then
      let v (dy dx : Nat) : Int := t.at' (Int.ofNat (2 * p.1 + dy)) (Int.ofNat (2 * p.2.1 + dx)) p.2.2
      max (max (v 0 0) (v 0 1)) (max (v 1 0) (v 1 1))
    else if l.ty = 4 then
      let n := Int.ofNat (t.w * t.h)
      let sum := ((List.range (t.w * t.h)).map (fun i => t.d.getD (i * t.c + p.2.2) 0)).sum
      clamp8 (Int.fdiv (2 * sum + n) (2 * n))
    else l.act (l.full bs t p.2.2)
  ⟨w, h, c, places.map val⟩

/-- Run the layers: the last one's acc values are the scores. -/
def netScores (bs : List Byte) (t : Tensor) : List Layer → List Int
  | [] => []
  | [l] => (List.range l.cout).map (l.full bs t)
  | l :: ls => netScores bs (l.run bs t) ls

/-- The smallest exponent at most `fuel` for which `ceil(n / 2^k) ≤ top`. -/
def scaleFor (n top : Nat) : Nat → Nat → Nat
  | k, 0 => k
  | k, fuel + 1 => if (n + 2 ^ k - 1) / 2 ^ k ≤ top then k else scaleFor n top (k + 1) fuel

/-- Reduce a patch by 2^m on both axes; every pixel of it counts as covered (R293). -/
def Patch.reduce (p : Patch) (m : Nat) : Patch :=
  let b := 2 ^ m
  let w := (p.pw + b - 1) / b
  let h := (p.ph + b - 1) / b
  let cell (i : Nat) : Nat :=
    let ys := (List.range b).map (· + i / w * b)
    let xs := (List.range b).map (· + i % w * b)
    let v := (ys.filter (· < p.ph)).flatMap (fun y => (xs.filter (· < p.pw)).map (fun x => p.pix.getD (y * p.pw + x) 0))
    meanR v.sum v.length
  ⟨w, h, (List.range (w * h)).map cell⟩

/-- The input canvas of a network (R293). -/
def netInput (bs : List Byte) (p : Patch) : Tensor :=
  let iw := leAt bs 0x10 2
  let ih := leAt bs 0x12 2
  let m := max (scaleFor p.pw iw 0 16) (scaleFor p.ph ih 0 16)
  let q := p.reduce m
  let ox := (iw - q.pw) / 2
  let oy := (ih - q.ph) / 2
  let zero := Int.ofNat (leAt bs 0x14 2)
  let sh := leAt bs 0x16 1
  let pad := s8At bs 0x17
  ⟨iw, ih, 1, (List.range (iw * ih)).map (fun i =>
    let x := i % iw
    let y := i / iw
    if ox ≤ x ∧ x < ox + q.pw ∧ oy ≤ y ∧ y < oy + q.ph then
      clamp8 (rnd sh (Int.ofNat (q.pix.getD ((y - oy) * q.pw + (x - ox)) 0) - zero))
    else pad)⟩

/-- The layers of a network descriptor. -/
def layersOf (bs : List Byte) : List Layer := (List.range (leAt bs 6 2)).map (layerAt bs)

/-- Whether the layers obey the limits of R294, from an input of `w` × `h` × `c`. -/
def layersOk (bytes nl : Nat) : Bool → Nat → Nat → Nat → List Layer → Bool
  | _, _, _, _, [] => false
  | first, w, h, c, l :: ls =>
    let fc := l.ty == 5
    let conv := l.ty == 1 || l.ty == 2
    let n := w * h * c
    let per := if l.ty = 1 then l.cin * 9 else l.cin
    let size := (l.cout * per + 3) / 4 * 4 + 4 * l.cout
    let own := decide (1 ≤ l.ty) && decide (l.ty ≤ 5) && decide (l.shift ≤ 55) && (!first || l.cin == 1) &&
      (if fc then l.cin == n else l.cin == c) && (!conv || (decide (l.cin ≤ 64) && decide (l.cout ≤ 64) && decide (1 ≤ l.cout))) &&
      (!(conv || fc) || decide (l.woff + size ≤ bytes)) && (!(l.ty == 3) || l.cout == l.cin)
    if ls.isEmpty then own && fc && l.cout == nl
    else
      own && (!fc || (decide (l.cout ≤ 1024) && decide (1 ≤ l.cout))) &&
        decide (l.dim w * l.dim h * l.chans c ≤ 262144) && decide (1 ≤ l.dim w * l.dim h) &&
        layersOk bytes nl false (l.dim w) (l.dim h) (l.chans c) ls

/-! ## Descriptors (R289, R290) -/

/-- Whether the bytes of a descriptor pass the checks of R290. -/
def clsOk (bs : List Byte) : Bool :=
  let kind := leAt bs 2 1
  let nl := leAt bs 4 2
  let count := leAt bs 6 2
  let bytes := leAt bs 8 4
  let head := leAt bs 0 2 == 0x544C && leAt bs 3 1 == 1 && decide (1 ≤ nl) && decide (nl ≤ 254) && decide (1 ≤ count) &&
    decide (0x40 ≤ bytes) && leAt bs 12 4 == crc32c (sliceB bs 0x40 (bytes - 0x40))
  let body :=
    if kind = 1 then
      decide (count ≤ 4096) && decide (0x1000 * count + 4088 ≤ bytes) &&
        (List.range count).all (fun t => treeOk bs (0x1000 * (t + 1)) nl 0 9)
    else if kind = 2 then
      decide (count ≤ 23) && decide (0x40 + 8 * count + 4 * nl + nl * count ≤ bytes) &&
        (List.range count).all (fun i => decide (leAt bs (0x41 + 8 * i) 1 ≤ 31))
    else if kind = 3 then
      let iw := leAt bs 0x10 2
      let ih := leAt bs 0x12 2
      decide (count ≤ 8) && decide (bytes ≤ 4194304) && decide (8 ≤ iw) && decide (iw ≤ 128) && decide (8 ≤ ih) &&
        decide (ih ≤ 128) && decide (leAt bs 0x16 1 ≤ 16) && decide (0x40 + 32 * count ≤ bytes) &&
        layersOk bytes nl true iw ih 1 (layersOf bs)
    else false
  head && body

/-- Read a classifier descriptor: header first, then BYTES (R289). -/
def State.readCls (s : State) (unit a : Nat) : State × Option (List Byte) :=
  let r := s.memRead 1 unit a 64
  match r.2 with
  | .error _ => (r.1, none)
  | .ok h =>
    let q := r.1.memRead 1 unit a (max 64 (leAt h 8 4))
    match q.2 with
    | .error _ => (q.1, none)
    | .ok b => (q.1, some b)

/-- Check the descriptors of the enabled slots of a group, of the active or the shadow set (R290). -/
def State.slotsOk (s : State) (g : Nat) (shadow : Bool) : List Nat → State × Bool
  | [] => (s, true)
  | i :: is =>
    let get (f : Fld) : Nat := if shadow then s.getSh (gtalB g) f else s.getF (gtalB g) f
    if get (F.SLOT_CTRL_EN.nth i) = 0 then s.slotsOk g shadow is
    else
      let r := s.readCls g (get (F.SLOT_DESC_ADDR.nth i) * 256)
      match r.2 with
      | none => (r.1, false)
      | some b => if clsOk b then r.1.slotsOk g shadow is else (r.1, false)

/-- The winner among scores, from label `i` on: label and score (R295). -/
def bestScore (i : Nat) (best : Option (Nat × Int)) : List Int → Option (Nat × Int)
  | [] => best
  | x :: xs =>
    match best with
    | some b => if b.2 < x then bestScore (i + 1) (some (i, x)) xs else bestScore (i + 1) best xs
    | none => bestScore (i + 1) (some (i, x)) xs

/-- LABEL, SCORE and SCORE2 of a list of scores (R295). -/
def rankScores (sc : List Int) : Nat × Int × Int :=
  match bestScore 0 none sc with
  | none => (0xFF, -32768, -32768)
  | some b =>
    let rest := (indexed sc).filter (fun e => e.1 != b.1)
    let second := (bestScore 0 none (rest.map (·.2))).map (·.2)
    (b.1, clampI (-32768) 32767 b.2, match second with
      | some x => clampI (-32768) 32767 x
      | none => -32768)

/-- The scores of a classifier on a feature vector and a patch; none where it gives LABEL 0xFF (R291 to R294). -/
def clsScores (bs : List Byte) (fv : List Int) (p : Option Patch) : Option (List Int) :=
  let nl := leAt bs 4 2
  let count := leAt bs 6 2
  let kind := leAt bs 2 1
  if kind = 1 then some (treeScores bs fv nl count)
  else if kind = 2 then some (linearScores bs fv nl count)
  else p.map (fun q => netScores bs (netInput bs q) (layersOf bs))

end Sys2Proof.Machine
end

