-- ==== Sys2Proof/Machine/Tally.lean ====
section
/-!
DEFINITION. Tally engines, defect records and patches (07_tally_records). The commands JOB_DISPATCH, JOB_COMPLETE,
RECORD_RELEASE, ENGINE_FAULT, ENGINE_WATCHDOG, DRAIN_END and TE_RESTORE.
-/

namespace Sys2Proof.Machine

def State.tg (s : State) (g : Nat) : TalGrp := Tab.get {} g s.tal
def State.setTg (s : State) (g : Nat) (x : TalGrp) : State := { s with tal := Tab.put g x s.tal }

/-! ## Engines (R269, R270) -/

/-- Whether engine `e` is in the mask of group `g`; a mask of zeros takes the regions of the run (R270). -/
def State.inMask (s : State) (g e : Nat) : Bool :=
  let w (n : Nat) : Nat := s.getF (gtalB g) (F.ENG_MASK_MASK.nth n)
  if w 0 + w 1 + w 2 + w 3 = 0 then (s.runChans g).any (fun ch => ch / 16 == e / 16)
  else bit (w (e / 32)) (e % 32)

/-- STATE of an engine: 0 idle, 1 busy, 2 offline. -/
def State.teState (s : State) (e : Nat) : Nat := s.getF (teB e) F.TE_STATUS_STATE

/-- Whether the tally domain of an engine is on (R467). -/
def State.teOn (s : State) (e : Nat) : Bool := s.domOn (65 + 3 * (e / 16))

/-- The engine a job of group `g` goes to (R269). -/
def State.pickEngine (s : State) (g : Nat) : Option Nat :=
  (List.range 128).find? (fun e => s.inMask g e && s.teState e == 0 && s.teOn e)

/-- JOBS_OPEN. -/
def State.showJobs (s : State) (g : Nat) : State :=
  let x := s.tg g
  s.setF (gtalB g) F.JOBS_OPEN_OPEN (x.jobs.length + x.done.length)

/-- The record ID of a sequence number (R296); a re-run uses the bundle's device number (R678). -/
def State.recordId (s : State) (g seq : Nat) : Nat :=
  (s.rep.rrDev.getD (s.getF devB F.DEV_NUM_DEVNUM)) % 2 ^ 14 * 2 ^ 50 + g % 16 * 2 ^ 46 + seq % 2 ^ 46

/-- Give a job to an engine. -/
def State.giveJob (s : State) (g e : Nat) (j : Job) : State :=
  let x := s.tg g
  let s := s.setTg g { x with jobs := x.jobs.filter (fun k => k.seq != j.seq) ++ [{ j with engine := some e }] }
  (s.setF (teB e) F.TE_STATUS_STATE 1).setF (teB e) F.TE_STATUS_GROUP g

/-- PREV_ID of a descriptor, and the chain entries after it (R299). -/
def TalGrp.chainStep (x : TalGrp) (kind key id : Nat) : Nat × TalGrp :=
  if 4 ≤ kind then
    (x.overChain.getD 0, { x with overChain := if kind = 4 then none else some id })
  else
    ((Tab.find key x.chain).getD 0,
      { x with chain := if kind = 2 then Tab.put key id x.chain else Tab.del key x.chain })

/-- Whether the dispatcher of a group works: the group runs with tally, or drains (R273). -/
def State.dispatching (s : State) (g : Nat) : Bool :=
  s.flag (gtalB g) F.TALLY_CTRL_TALLY_EN && (s.running g || s.flag (gtalB g) F.TALLY_STATUS_DRAIN)

/-- Whether the dispatcher may take another descriptor: it works, a descriptor waits, and the completed records with those
that the jobs under way will add stay at 1,024 or below (R273, R304). -/
def State.mayTake (s : State) (g : Nat) : Bool :=
  let x := s.tg g
  s.dispatching g && decide (x.done.length + x.jobs.length < 1024) &&
    decide (0 < s.avail (s.getF (gsegB g) F.DESC_RING_RING) (gtalB g))

/-- Whether a group has a job for an engine. -/
def State.jobWaits (s : State) (g : Nat) : Bool := (s.tg g).jobs.any (fun j => j.engine.isNone) || s.mayTake g

/-- Whether group `g` is the next to be served on engine `e`: groups with jobs waiting that share it take turns in order of
group number (R269). -/
def State.tallyTurn (s : State) (g e : Nat) : Bool :=
  ((List.range 16).map (fun i => (s.tallyLast + 1 + i) % 16)).find? (fun h => s.jobWaits h && s.inMask h e) == some g

/-- JOB_DISPATCH: on the group's turn, a job that waits for another engine, or the next descriptor, goes to the lowest
available engine of the mask; none while 1,024 completed records wait (R267, R269, R304). -/
def execJobDispatch (g : Fin 16) (s : State) : Host.Outcome State Fault Refusal :=
  let x := s.tg g
  let ring := s.getF (gsegB g) F.DESC_RING_RING
  .next (match s.pickEngine g with
    | none => s
    | some e =>
      if !s.tallyTurn g e then s
      else
      let s := { s with tallyLast := g.val }
      match x.jobs.find? (fun j => j.engine.isNone) with
      | some j => s.giveJob g e j
      | none =>
        if s.mayTake g then
          let r := s.readEntry ring (gtalB g) 0 g
          match r.2 with
          | .error _ => r.1
          | .ok d =>
            let s := r.1.take ring (gtalB g) 1
            let seq := s.getF (gtalB g) F.TALLY_SEQ_SEQ
            let s := s.setF (gtalB g) F.TALLY_SEQ_SEQ (seq + 1)
            let c := (s.tg g).chainStep (leAt d 0 1) (leAt d 0x28 8) (s.recordId g seq)
            let s := s.setTg g c.2
            (s.giveJob g e { seq := seq, desc := d, prev := c.1, engine := none }).showJobs g
        else s)

/-! ## The stored runs of a job -/

/-- A stored run read back: course, first wale, wales, FLAGS and values with margins. -/
structure StoredRun where
  course : Nat
  wale : Nat
  len : Nat
  flags : Nat
  vals : List Nat

/-- Bytes that were read, none where one of them could not be. -/
def known (l : List (Option Byte)) : Option (List Byte) := l.mapM id

/-- Split a stream into run records (R255). A record with a byte that could not be read counts as not stored; the records
behind one whose length could not be read cannot be found (R300). -/
def parseRuns (mg : Nat) (bs : List (Option Byte)) : Nat → List StoredRun
  | 0 => []
  | fuel + 1 =>
    if bs.length < 16 then []
    else
      match known ((bs.drop 12).take 2) with
      | none => []
      | some l =>
        let len := leVal l
        let n := len + 2 * mg
        let size := (16 + 2 * n + 15) / 16 * 16
        if bs.length < 16 + 2 * n then []
        else
          let rest := parseRuns mg (bs.drop size) fuel
          match known (bs.take (16 + 2 * n)) with
          | none => rest
          | some b =>
            { course := leAt b 0 8, wale := leAt b 8 4 % 2 ^ 22, len := len, flags := leAt b 15 1
              vals := (chunks 2 n (sliceB b 16 (2 * n))).map leVal } :: rest

/-- Read a range block by block: each byte, none where its block is uncorrectable (R300). -/
def State.readPieces (s : State) (unit a n : Nat) : Nat → State × List (Option Byte)
  | 0 => (s, [])
  | fuel + 1 =>
    if n = 0 then (s, [])
    else
      let k := min n (64 - a % 64)
      let r := s.memRead 1 unit a k
      let q := r.1.readPieces unit (a + k) (n - k) fuel
      (q.1, (match r.2 with
        | .ok b => b.map some
        | .error _ => List.replicate k none) ++ q.2)

/-- Read the stream of a chain: its bytes, the chunks met, and whether every read was good (R254, R300). The chain ends at a
chunk whose header could not be read. -/
def State.readChain (s : State) (unit a : Nat) : Nat → State × List (Option Byte) × List Nat × Bool
  | 0 => (s, [], [], true)
  | fuel + 1 =>
    if a = 0 then (s, [], [], true)
    else
      let h := s.memRead 1 unit a 16
      match h.2 with
      | .error _ => (h.1, [], [a], false)
      | .ok hd =>
        let b := h.1.readPieces unit (a + 16) (min 4080 (leAt hd 8 4)) 65
        let r := b.1.readChain unit (leAt hd 0 5) fuel
        (r.1, b.2 ++ r.2.1, a :: r.2.2.1, r.2.2.2 && b.2.all (·.isSome))

/-! ## Integer functions (R265, R276, R277) -/

/-- Bits of the square root from bit `b - 1` down. -/
def isqrtFrom (n : Nat) : Nat → Nat → Nat
  | 0, r => r
  | b + 1, r => let t := r + 2 ^ b
    isqrtFrom n b (if t * t ≤ n then t else r)

/-- The largest integer whose square does not exceed `n`. -/
def isqrt (n : Nat) : Nat := isqrtFrom n (n.log2 / 2 + 1) 0

/-- π in units of 2^-160. -/
def piFix : Int := 4591442807048218921384805199743311128454155024418

/-- The series of sine and cosine in units of 2^-160: terms from `n` on, alternating in sign. -/
def trigSeries (x2 term : Int) (n : Nat) : Nat → Int
  | 0 => 0
  | fuel + 1 => term + trigSeries x2 (-(Int.fdiv (Int.fdiv (term * x2) (2 ^ 160)) (Int.ofNat ((n + 1) * (n + 2))))) (n + 2) fuel

/-- T[j] = round(2^32 tan(j π / 16,384)) (R276), computed from the series of sine and cosine. -/
def tanTable (j : Nat) : Int :=
  let x := Int.fdiv (piFix * Int.ofNat j) 16384
  let x2 := Int.fdiv (x * x) (2 ^ 160)
  let sn := trigSeries x2 x 1 24
  let cs := trigSeries x2 (2 ^ 160) 0 24
  Int.fdiv (2 ^ 33 * sn + cs) (2 * cs)

/-- oct(y, x): the largest j up to 4,096 with T[j] x ≤ y 2^32 (R276). -/
def octFrom (y x : Int) : Nat → Nat → Nat
  | 0, r => r
  | b + 1, r =>
    let t := r + 2 ^ b
    octFrom y x b (if t ≤ 4096 ∧ tanTable t * x ≤ y * 2 ^ 32 then t else r)

def octAngle (y x : Int) : Nat := octFrom y x 13 0

/-- Halve two numbers until both are below 2^31 (R276). -/
def shrink (y x : Nat) : Nat → Nat × Nat
  | 0 => (y, x)
  | fuel + 1 => if 2 ^ 31 ≤ y ∨ 2 ^ 31 ≤ x then shrink (y / 2) (x / 2) fuel else (y, x)

/-- ORIENT (R276). -/
def orient (a b : Int) : Nat :=
  let p := shrink a.natAbs b.natAbs (a.natAbs + b.natAbs).log2.succ
  if p.1 = 0 ∧ p.2 = 0 then 0
  else
    let e := if p.1 ≤ p.2 then octAngle (Int.ofNat p.1) (Int.ofNat p.2) else 8192 - octAngle (Int.ofNat p.2) (Int.ofNat p.1)
    let e := if b < 0 then 16384 - e else e
    if a < 0 then (32768 - e) % 32768 else e

/-- ELONG (R277). -/
def elong (m20 m02 m11 : Int) : Nat :=
  let q := Int.ofNat (isqrt ((m20 - m02) * (m20 - m02) + 4 * m11 * m11).toNat)
  let l1 := m20 + m02 + q
  let l2 := m20 + m02 - q
  if l2 ≤ 0 then 65535 else min 65535 (Int.fdiv (256 * l1) l2).toNat

/-! ## Features (R274 to R280) -/

/-- What a job knows of its segment: the fields of the descriptor, and the stored runs. -/
structure SegData where
  kind : Nat
  cls : Nat
  flags : Nat
  idx : Nat
  first : Nat
  length : Nat
  runsN : Nat
  lo : Nat
  hi : Nat
  area : Nat
  chain : Nat
  merge : Nat
  head : Nat
  stored : List StoredRun := []

/-- The fields of a descriptor (R258). -/
def segData (d : List Byte) : SegData :=
  { kind := leAt d 0 1, cls := leAt d 1 1, flags := leAt d 2 2, idx := leAt d 6 2, first := leAt d 8 8
    length := leAt d 0x10 4, runsN := leAt d 0x14 4, lo := leAt d 0x18 4 % 2 ^ 22, hi := leAt d 0x1C 4 % 2 ^ 22
    area := leAt d 0x20 8, chain := leAt d 0x28 8, merge := leAt d 0x30 8, head := leAt d 0x38 8 % 2 ^ 40 }

/-- Whether a pixel is a feature pixel (R274). -/
def SegData.isIn (d : SegData) (c w : Nat) : Bool :=
  d.stored.any (fun r => r.course == c && decide (r.wale ≤ w) && decide (w < r.wale + r.len))

/-- The feature pixels: u, r and x (R274). -/
def SegData.pixels (d : SegData) (mg : Nat) : List (Nat × Nat × Nat) :=
  (d.stored.map (fun r => (List.range r.len).map (fun i => (r.wale + i - d.lo, r.course - d.first, r.vals.getD (mg + i) 0)))).flatten

/-- Sum of a function over the pixels. -/
def sumOf (l : List (Nat × Nat × Nat)) (f : Nat × Nat × Nat → Nat) : Nat := (l.map f).sum

/-- The stored value that covers a pixel, run or margin (R284). -/
def SegData.cover (d : SegData) (mg c w : Nat) : Option Nat :=
  (d.stored.find? (fun r => r.course == c && decide (r.wale ≤ w + mg) && decide (w < r.wale + r.len + mg))).map
    (fun r => r.vals.getD (w + mg - r.wale) 0)

/-- The margin values of a run that are not in S nor outside the group, with their wales (R279). -/
def SegData.marginOf (d : SegData) (mg width : Nat) (r : StoredRun) : List (Nat × Nat) :=
  if bit r.flags 0 then []
  else ((List.range (r.len + 2 * mg)).filterMap (fun i =>
    if r.wale + i < mg then none
    else
      let w := r.wale + i - mg
      if width ≤ w ∨ d.isIn r.course w then none else some (w, r.vals.getD i 0)))

/-- The margin set: each wale of a course once (R279). -/
def SegData.margin (d : SegData) (mg width : Nat) : List (Nat × Nat × Nat) :=
  d.stored.foldl (fun (acc : List (Nat × Nat × Nat)) r =>
    (d.marginOf mg width r).foldl (fun acc e =>
      if acc.any (fun a => a.1 == r.course && a.2.1 == e.1) then acc else (r.course, e.1, e.2) :: acc) acc) []

/-- Pixel edges toward pixels that are not in S (R278). -/
def SegData.edges (d : SegData) : Nat :=
  (d.stored.map (fun r => ((List.range r.len).map (fun i =>
    let w := r.wale + i
    let c := r.course
    let out (y w : Int) : Nat := if w < 0 ∨ y < Int.ofNat d.first ∨ Int.ofNat (d.first + d.length) ≤ y then 1
      else if d.isIn y.toNat w.toNat then 0 else 1
    out (Int.ofNat c) (Int.ofNat w - 1) + out (Int.ofNat c) (Int.ofNat w + 1) + out (Int.ofNat c - 1) w + out (Int.ofNat c + 1) w)).sum)).sum

/-- The features computed from the pixels. -/
structure Feat where
  n : Nat := 0
  cenW : Int := 0
  cenC : Int := 0
  sdW : Nat := 0
  sdC : Nat := 0
  orient : Nat := 0
  elong : Nat := 0
  perim : Nat := 0
  mean : Nat := 0
  sdev : Nat := 0
  lo : Nat := 0
  hi : Nat := 0
  mmean : Nat := 0
  contrast : Int := 0
  noMargin : Bool := true

/-- Features of a segment (R274 to R279). -/
def SegData.feat (d : SegData) (mg width : Nat) : Feat :=
  let px := d.pixels mg
  let n := px.length
  if n = 0 then
    { cenW := 32 * (Int.ofNat d.lo + Int.ofNat d.hi), cenC := 32 * (Int.ofNat d.length - 1) }
  else
    let su := sumOf px (fun p => p.1)
    let sr := sumOf px (fun p => p.2.1)
    let sx := sumOf px (fun p => p.2.2)
    let m20 := n * sumOf px (fun p => p.1 * p.1) - su * su
    let m02 := n * sumOf px (fun p => p.2.1 * p.2.1) - sr * sr
    let m11 := Int.ofNat (n * sumOf px (fun p => p.1 * p.2.1)) - Int.ofNat (su * sr)
    let xs := px.map (fun p => p.2.2)
    let mar := d.margin mg width
    let mean := meanR sx n
    let mm := if mar.isEmpty then 0 else meanR (mar.map (fun e => e.2.2)).sum mar.length
    { n := n
      cenW := Int.ofNat (64 * d.lo + (128 * su + n) / (2 * n))
      cenC := Int.ofNat ((128 * sr + n) / (2 * n))
      sdW := isqrt (4096 * m20 / (n * n))
      sdC := isqrt (4096 * m02 / (n * n))
      orient := orient (2 * m11) (Int.ofNat m20 - Int.ofNat m02)
      elong := elong (Int.ofNat m20) (Int.ofNat m02) m11
      perim := min (2 ^ 32 - 1) (rnd 8 (Int.ofNat d.edges * 243)).toNat
      mean := mean
      sdev := isqrt ((n * sumOf px (fun p => p.2.2 * p.2.2) - sx * sx) / (n * n))
      lo := xs.foldl Nat.min 65535
      hi := xs.foldl Nat.max 0
      mmean := mm
      contrast := if mar.isEmpty then 0 else clampI (-32768) 32767 (Int.ofNat mean - Int.ofNat mm)
      noMargin := mar.isEmpty }

/-- The feature vector (R280); `fill` is feature 17. Entries are signed 32-bit values: one below that range is clamped too (log
entry 58). -/
def featVector (d : SegData) (f : Feat) (fill : Nat) (xnm : Int) : List Int :=
  ([Int.ofNat d.area, Int.ofNat d.length, Int.ofNat d.hi - Int.ofNat d.lo + 1, Int.ofNat d.runsN,
    f.cenW - 64 * Int.ofNat d.lo, f.cenC, Int.ofNat f.sdW, Int.ofNat f.sdC, Int.ofNat f.orient, Int.ofNat f.elong,
    Int.ofNat f.perim, Int.ofNat f.mean, Int.ofNat f.sdev, Int.ofNat f.lo, Int.ofNat f.hi, Int.ofNat f.mmean, f.contrast,
    Int.ofNat fill, Int.ofNat d.cls, Int.ofNat (d.flags % 128), Int.ofNat d.idx, truncDiv xnm 1000, Int.ofNat f.n]).map
    (clampI (-2 ^ 31) (2 ^ 31 - 1))

/-! ## Patches (R284 to R287) -/

/-- A patch rendered: its first wale, exponents, and pixels. -/
structure Rendered where
  w0 : Nat
  kw : Nat
  kh : Nat
  patch : Patch

/-- Render the patch of a segment; `fill` is the value of R284. -/
def SegData.render (d : SegData) (mg width top fill : Nat) : Rendered :=
  let w0 := d.lo - mg
  let w1 := min (width - 1) (d.hi + mg)
  let w := w1 + 1 - w0
  let kw := scaleFor w top 0 32
  let kh := scaleFor d.length top 0 32
  let pw := (w + 2 ^ kw - 1) / 2 ^ kw
  let ph := (d.length + 2 ^ kh - 1) / 2 ^ kh
  let cell (i : Nat) : Nat :=
    let ys := ((List.range (2 ^ kh)).map (· + i / pw * 2 ^ kh)).filter (· < d.length)
    let xs := ((List.range (2 ^ kw)).map (· + i % pw * 2 ^ kw)).filter (· < w)
    let v := ys.flatMap (fun y => xs.filterMap (fun x => d.cover mg (d.first + y) (w0 + x)))
    if v.isEmpty then fill else meanR v.sum v.length
  ⟨w0, kw, kh, ⟨pw, ph, (List.range (pw * ph)).map cell⟩⟩

/-- The bytes of a patch (R286). SCALE holds the low four bits of each exponent (log entry 58). -/
def patchBytes (r : Rendered) (eight : Bool) (id course : Nat) : List Byte :=
  let px := (r.patch.pix.map (fun v => if eight then le 1 (v / 256) else le 2 v)).flatten
  le 2 0x5043 ++ le 1 (if eight then 2 else 1) ++ le 1 (r.kh % 16 * 16 + r.kw % 16) ++ le 2 r.patch.pw ++ le 2 r.patch.ph ++
    le 8 id ++ le 4 r.w0 ++ le 4 ((64 + px.length + 255) / 256) ++ le 8 course ++ le 4 px.length ++ le 4 (crc32c px) ++
    zeros 24 ++ px

/-! ## Positions (R281 to R283) -/

/-- Write the course history entry of a trigger (R281). -/
def State.histWrite (s : State) (g c : Nat) (enc : Int) : State :=
  if s.flag (gtalB g) F.TALLY_CTRL_TALLY_EN then
    (s.memWrite 1 g (s.getF (gtalB g) F.HIST_BASE_ADDR + 16 * (c % 131072))
      (le 8 (ofInt 64 enc) ++ le 4 s.sec ++ le 4 s.ns)).1
  else s

/-- Read a history entry: sample, seconds, nanoseconds. -/
def State.histRead (s : State) (g unit : Nat) (c : Int) : State × Option (Int × Nat × Nat) :=
  let r := s.memRead 1 unit (s.getF (gtalB g) F.HIST_BASE_ADDR + 16 * (c % 131072).toNat) 16
  match r.2 with
  | .error _ => (r.1, none)
  | .ok b => (r.1, some (toInt 64 (leAt b 0 8), leAt b 8 4, leAt b 12 4))

/-- Where and when: ENC_CEN, ALONG_NM, TIME_SEC, TIME_NS. -/
structure Place where
  enc : Int := 0
  along : Int := 0
  sec : Nat := 0
  ns : Nat := 0

/-- The position of a record along the web (R282, R283): the place, whether history was lost, and whether a read was
uncorrectable; then the spec gives no value to what that entry gives, and it is free. -/
def State.placeOf (s : State) (g unit : Nat) (d : SegData) (f : Feat) : State × Place × Bool × Bool :=
  let i := Int.ofNat d.first + Int.fdiv f.cenC 64
  let fr := f.cenC - 64 * Int.fdiv f.cenC 64
  let newest := Int.ofNat (s.getF (crsB g) F.CRS_COUNT_COURSE)
  let lost := s.rep.rrRecs.any (fun r => r.1 == unit && r.2.1 % 2 == 1) || decide (i + 131072 ≤ newest)
  if lost then (s, {}, true, false)
  else
    let a := s.histRead g unit i
    let b := if fr = 0 then (a.1, a.2) else a.1.histRead g unit (i + 1)
    match a.2, b.2 with
    | some p, some q =>
      let enc := p.1 + rnd 6 ((q.1 - p.1) * fr)
      let e0 := s.getI (gtalB g) F.ENC0
      (b.1, ⟨enc, rnd 16 ((enc - e0) * Int.ofNat (s.getK g (Int.ofNat d.first) (crsB g) F.CRS_PITCH_PITCH)), p.2.1, p.2.2⟩, false, false)
    | p, _ =>
      let n := b.1.freeCtr
      let s := b.1.tickFree.tickFree.tickFree.tickFree
      let time := (p.map (·.2)).getD ((Config.freeBits 32 (n + 2)).toNat, (Config.freeBits 32 (n + 3)).toNat)
      (s, ⟨toInt 64 (Config.freeBits 64 n).toNat, toInt 64 (Config.freeBits 64 (n + 1)).toNat, time.1, time.2⟩, false, true)

/-! ## The record (R288, R297, R298) -/

/-- The first enabled slot that a job matches (R288). -/
def State.pickSlot (s : State) (g : Nat) (h : Int) (d : SegData) : Option Nat :=
  let b := gtalB g
  let area := min d.area (2 ^ 32 - 1)
  if 4 ≤ d.kind then none
  else (List.range 8).find? (fun i => s.flagK g h b (F.SLOT_CTRL_EN.nth i) &&
    (d.cls &&& s.getK g h b (F.SLOT_CTRL_CLASS_MASK.nth i)) != 0 &&
    decide (s.getK g h b (F.SLOT_AMIN_AREA_MIN.nth i) ≤ area) && decide (area ≤ s.getK g h b (F.SLOT_AMAX_AREA_MAX.nth i)))

/-- What classification gives. -/
structure Label where
  label : Nat := 0xFF
  slot : Nat := 0xFF
  score : Int := -32768
  score2 : Int := -32768
  memErr : Bool := false

/-- Classify a job (R288, R295, R300). Where no scores exist although a slot was used, SCORE and SCORE2 are free. -/
def State.classify (s : State) (g unit : Nat) (h : Int) (d : SegData) (fv : List Int) (p : Option Patch) : State × Label :=
  match s.pickSlot g h d with
  | none => (s, { label := if 4 ≤ d.kind then 0xFE else 0xFF })
  | some i =>
    let r := s.readCls unit (s.getK g h (gtalB g) (F.SLOT_DESC_ADDR.nth i) * 256)
    let free (t : State) (bad : Bool) : State × Label :=
      (t.tickFree.tickFree, { slot := i, score := toInt 16 (Config.freeBits 16 t.freeCtr).toNat
                              score2 := toInt 16 (Config.freeBits 16 (t.freeCtr + 1)).toNat, memErr := bad })
    match r.2 with
    | none => free r.1 true
    | some bs =>
      match clsScores bs fv p with
      | none => free r.1 false
      | some sc =>
        let k := rankScores sc
        (r.1, { label := k.1, slot := i, score := k.2.1, score2 := k.2.2 })

/-- The bytes of a record (R297). -/
def recordBytes (id prev : Nat) (d : SegData) (f : Feat) (l : Label) (flags : Nat) (xnm : Int) (p : Place) (idx : Nat) :
    List Byte :=
  le 8 id ++ le 8 prev ++ le 8 (if 4 ≤ d.kind then 0 else d.chain) ++ le 8 d.merge ++ le 1 d.kind ++ le 1 l.label ++
    le 1 d.cls ++ le 1 l.slot ++ le 2 flags ++ le 2 d.idx ++ le 8 d.first ++ le 2 d.length ++ le 2 (ofInt 16 l.score) ++
    le 4 (min d.area (2 ^ 32 - 1)) ++ le 4 d.lo ++ le 4 d.hi ++ le 4 (ofInt 32 f.cenW) ++ le 4 (ofInt 32 f.cenC) ++
    le 8 (ofInt 64 xnm) ++ le 8 (ofInt 64 p.enc) ++ le 8 (ofInt 64 p.along) ++ le 4 p.sec ++ le 4 p.ns ++ le 2 f.orient ++
    le 2 f.elong ++ le 4 f.perim ++ le 2 f.mean ++ le 2 f.sdev ++ le 2 f.lo ++ le 2 f.hi ++ le 2 (ofInt 16 f.contrast) ++
    le 2 (ofInt 16 l.score2) ++ le 4 idx

/-- Return chunks to a group's pool (R272). -/
def State.returnChunks (s : State) (g : Nat) (cs : List Nat) : State :=
  let x := s.sg g
  let s := s.setSg g { x with back := x.back ++ cs }
  s.setF (gsegB g) F.RS_FREE_FREE (s.freeChunks g)

/-- Compare a record of a re-run with the journal (R679). -/
def State.rerunCompare (s : State) (g id : Nat) (bytes : List Byte) : State :=
  match s.rep.rrRecs.find? (fun r => r.1 == id) with
  | none => s
  | some r =>
    let c := crc32c bytes
    if c = r.2.2.1 then s
    else
      (s.satF repB F.RR_MISMATCH_COUNT 1).log .rerunMismatch g g (le 8 id ++ le 4 r.2.2.1 ++ le 4 c)

/-- A record is complete: its patch is done, its chunks return, and it waits for its rings (R272, R302). -/
def State.recordDone (s : State) (g : Nat) (j : Job) (course : Nat) (bytes : List Byte) (src idx : Nat) (chunks : List Nat) :
    State :=
  let s := s.returnChunks g chunks
  let id := s.recordId g j.seq
  let s := s.jrn 0x0B g 0 src 0 (Int.ofNat course) (le 8 id ++ le 4 (crc32c bytes) ++ le 4 idx)
  let s := s.rerunCompare g id bytes
  let rings := (List.range 4).filter (fun r => s.flag (gtalB g) (F.RES_RING_EN.nth r))
  let x := s.tg g
  let s := s.setTg g { x with
    jobs := x.jobs.filter (fun k => k.seq != j.seq)
    done := if rings.isEmpty then x.done else x.done ++ [(j.seq, bytes, rings)] }
  (s.incF (gtalB g) F.REC_COUNT_COUNT 1).showJobs g

/-- Write the patch of a job; answers PATCH_IDX and whether it was dropped (R287, R687). A re-run takes both from its journal
(R678). -/
def State.patchWrite (s : State) (g id : Nat) (en : Bool) (bytes : List Byte) : State × Nat × Bool :=
  let ring := s.getF (gtalB g) F.PATCH_RING_RING
  match s.rep.rrRecs.find? (fun r => r.1 == id) with
  | some r =>
    let dropped := bit r.2.1 1
    let s := if en && !dropped && s.ringOk ring true then (s.ringPush ring bytes).1 else s
    (s, r.2.2.2, dropped)
  | none =>
    if !en then (s, 0xFFFFFFFF, false)
    else
      let first := ((s.ring ring).prod + s.reserved ring) % 2 ^ 32
      let r := if s.ringAlive ring ((s.ring ring).entriesFor bytes.length) then s.ringPush ring bytes else (s, false)
      if r.2 then (r.1, first, false)
      else ((r.1.raise (gtalB g) F.TALLY_STATUS_PATCH_DROP_EV 0xC8).satF (gtalB g) F.PATCH_DROP_COUNT 1, 0xFFFFFFFF, true)

/-- Feature 17 (R280); the spec gives none for a segment of length 0. -/
def State.fillOf (s : State) (d : SegData) : State × Nat :=
  let box := (d.hi + 1 - d.lo) * d.length
  if box = 0 then (s.tickFree, min 65536 (Config.freeBits 17 s.freeCtr).toNat)
  else (s, min 65536 (65536 * d.area / box))

/-- A read of a re-run has proved uncorrectable: RSTATE reads 4, and the re-run stops at its next course (R680). -/
def State.rerunFails (s : State) (g : Nat) (bad : Bool) : State :=
  if bad && (Tab.find g s.rep.rrLast).isSome && s.getF repB F.RR_STATUS_RSTATE == 2 then s.setF repB F.RR_STATUS_RSTATE 4 else s

/-- Build the record of a job (R274 to R298): `failed` for a job that failed on three engines (R308). What is no pattern field
is as it stood while the group ran (R271). -/
def State.completeJob (s : State) (g unit : Nat) (j : Job) (failed : Bool) : State :=
  let d0 := segData j.desc
  let id := s.recordId g j.seq
  let h := Int.ofNat (d0.first + d0.length)
  let b := gtalB g
  let mg := s.getK g (Int.ofNat d0.first) (gsegB g) F.LAB_CFG_RUN_MARGIN
  let width := s.getF (gseamB g) F.GRP_WIDTH_WIDTH
  let rd := s.readChain unit d0.head (s.getF (gsegB g) F.RS_CFG_CHUNKS + 1)
  let s := rd.1
  let d := if failed then d0 else { d0 with stored := parseRuns mg rd.2.1 (d0.runsN + 1) }
  let f := d.feat mg width
  let xnm := s.crossPos g h f.cenW
  let pl := s.placeOf g (if s.rep.rrRecs.isEmpty then unit else id) d f
  let s := if pl.2.2.1 then pl.1.raise b F.TALLY_STATUS_HIST_LOST_EV 0xC9 else pl.1
  let fillV := if s.flagK g h b F.PATCH_CFG_FILL_MODE then f.mmean else s.getK g h b F.PATCH_CFG_PATCH_FILL
  let img := if f.n = 0 then none else some (d.render mg width (s.getK g h b F.PATCH_CFG_PATCH_MAX) fillV)
  let fl := s.fillOf d
  let s := fl.1
  let lab := if failed then (s, ({} : Label)) else s.classify g unit h d (featVector d f fl.2 xnm) (img.map (·.patch))
  let s := lab.1
  let pw := match img with
    | none => (s, 0xFFFFFFFF, false)
    | some r => s.patchWrite g id (s.flagK g h b F.PATCH_CFG_PATCH_EN)
        (patchBytes r (s.flagK g h b F.PATCH_CFG_PATCH_8BIT) id d.first)
  let bad := !rd.2.2.2 || pl.2.2.2 || lab.2.memErr
  let s := pw.1.rerunFails g bad
  let on (c : Bool) (n : Nat) : Nat := if c then 2 ^ n else 0
  let flags := d.flags % 128 + on (decide (2 ^ 32 ≤ d.area)) 7 + on pw.2.2 8 +
    on (img.any (fun r => r.kw != 0 || r.kh != 0)) 9 + on pl.2.2.1 10 + on f.noMargin 11 +
    on bad 12 + on failed 13
  let bytes := recordBytes id j.prev d f lab.2 flags xnm pl.2.1 pw.2.1
  s.recordDone g j (d.first + d.length) bytes ((if pl.2.2.1 then 1 else 0) + if pw.2.2 then 2 else 0) pw.2.1 rd.2.2.1

/-- The job an engine runs: its group and itself. -/
def State.jobOf (s : State) (e : Nat) : Option (Nat × Job) :=
  s.tal.findSome? (fun t => (t.2.jobs.find? (fun j => j.engine == some e)).map (fun j => (t.1, j)))

/-- JOB_COMPLETE: the engine's job completes (R272), while TCLK runs (R456). -/
def execJobComplete (e : Fin 128) (s : State) : Host.Outcome State Fault Refusal :=
  .next (if s.clk 3 then
      match s.jobOf e with
      | none => s
      | some (g, j) =>
        let s := s.completeJob g e j false
        (s.setF (teB e) F.TE_STATUS_STATE 0).incF (teB e) F.TE_JOBS_COUNT 1
    else s)

/-! ## Releasing records (R302 to R305) -/

/-- Whether a completed record may go to ring slot `r`: with ORDER, no job before it is under way (R303). -/
def State.mayRelease (s : State) (g r seq : Nat) : Bool :=
  !s.flag (gtalB g) (F.RES_RING_ORDER.nth r) ||
    ((s.tg g).jobs.all (fun j => decide (seq < j.seq)) &&
      (s.tg g).done.all (fun d => !d.2.2.contains r || decide (seq ≤ d.1)))

/-- Release the next record to ring slot `r` (R303, R305). -/
def State.releaseTo (s : State) (g r : Nat) : State :=
  let x := s.tg g
  match x.done.find? (fun d => d.2.2.contains r && s.mayRelease g r d.1) with
  | none => s
  | some d =>
    let ring := s.getF (gtalB g) (F.RES_RING_RING.nth r)
    let gone (t : State) : State :=
      let y := t.tg g
      t.setTg g { y with done := y.done.map (fun k => if k.1 = d.1 then (k.1, k.2.1, k.2.2.filter (· != r)) else k) }
    if s.ringFits ring d.2.1.length then gone (s.ringWrite ring d.2.1)
    else if s.flag (gtalB g) (F.RES_RING_FULL_DROP.nth r) then
      gone ((s.ringPush ring d.2.1).1.satF (gtalB g) (F.RES_DROP_COUNT.nth r) 1)
    else s.ringStarve ring

/-- RECORD_RELEASE: the next record of the group is released to each enabled ring (R303); a device that shares its
number with another sends none (R26). -/
def execRecordRelease (g : Fin 16) (s : State) : Host.Outcome State Fault Refusal :=
  .next (if s.dup then s else
    let s := forN 4 (fun r t => t.releaseTo g r) s
    let x := s.tg g
    (s.setTg g { x with done := x.done.filter (fun d => !d.2.2.isEmpty) }).showJobs g)

/-! ## Engine faults (R306 to R309) -/

/-- Every engine of the mask of group `g` is offline (R309). -/
def State.maskOffline (s : State) (g : Nat) : Bool :=
  let mine := (List.range 128).filter (s.inMask g)
  mine.all (fun e => s.teState e == 2)

/-- An engine fault: the engine goes offline, which every group with it in its mask sees (R312), and its job is dispatched
again, or completes as failed once three engines have failed on it (R306, R308). -/
def State.engineFails (s : State) (e : Nat) (f : Fld) : State :=
  let s := (s.setF (teB e) f 1).satF (teB e) F.TE_FAULTS_COUNT 1
  let job := s.jobOf e
  let s := s.setF (teB e) F.TE_STATUS_STATE 2
  let s := forL ((List.range 16).filter (fun g => s.inMask g e)) (fun g t => t.raise (gtalB g) F.TALLY_STATUS_ENG_FAULT 0xC6) s
  let grp := (job.map (·.1)).getD 0xFF
  let s := s.logReg .engFault e grp (teB e)
  match job with
  | none => s
  | some (g, j) =>
    let x := s.tg g
    let j := { j with engine := none, fails := (e :: j.fails).eraseDups }
    let s := s.setTg g { x with jobs := x.jobs.map (fun k => if k.seq = j.seq then j else k) }
    if 3 ≤ j.fails.length then
      let s := (s.raise (gtalB g) F.TALLY_STATUS_TALLY_FAIL 0xC7).logReg .tallyFail e g (gtalB g + 0x48)
      s.completeJob g e j true
    else s.satF (gtalB g) F.REDISPATCH_COUNT 1

/-- ENGINE_FAULT: a parity or residue fault of an engine (R306). -/
def execEngineFault (e : Fin 128) (residue : Bool) (s : State) : Host.Outcome State Fault Refusal :=
  .next (s.engineFails e (if residue then F.TE_STATUS_RESIDUE else F.TE_STATUS_PARITY))

/-- ENGINE_WATCHDOG: a job has run longer than TMO (R306). -/
def execEngineWatchdog (e : Fin 128) (s : State) : Host.Outcome State Fault Refusal :=
  .next (if s.clk 3 && (s.jobOf e).isSome then s.engineFails e F.TE_STATUS_TIMEOUT else s)

/-- RESTORE of an engine (R309). -/
def State.teRestore (s : State) (e : Nat) : State :=
  if s.teState e = 2 then s.setF (teB e) F.TE_STATUS_STATE 0 else s

/-- TE_RESTORE: a write of RESTORE (R309). -/
def execTeRestore (e : Fin 128) (s : State) : Host.Outcome State Fault Refusal := .next (s.teRestore e)

/-! ## Draining (R273, R514) -/

/-- Whether every descriptor of a stopped group has been handed and taken, and every record released. -/
def State.drained (s : State) (g : Nat) : Bool :=
  let x := s.tg g
  (s.sg g).hand.isEmpty && (s.sg g).runs.isEmpty && (s.sg g).comps.isEmpty && (s.sg g).overC.isNone &&
    s.avail (s.getF (gsegB g) F.DESC_RING_RING) (gtalB g) == 0 && x.jobs.isEmpty && x.done.isEmpty

/-- Whether the pixel path has finished the courses of a stopped group. -/
def State.pixelsDone (s : State) (g : Nat) : Bool :=
  match (s.g g).last with
  | none => true
  | some l => if s.flag (gsegB g) F.SEG_CTRL_SEG_EN then decide (l < (s.sg g).res) else s.seamDone g l

/-- The rings of a group's blocks are released when the group has drained (R514, R523). -/
def State.releaseRings (s : State) (g : Nat) : State :=
  let s := s.unsubAll (gtalB g)
  let s := forL [crsB g, gseamB g, gsegB g, gtalB g] (fun b t => t.unbind b) s
  forL (s.runChans g) (fun ch t => t.unbind (corrB ch)) s

/-- DRAIN_END: a stopped group has nothing left to do: DRAIN clears, its rings are released and it is stopped (R273,
R382). -/
def execDrainEnd (g : Fin 16) (s : State) : Host.Outcome State Fault Refusal :=
  .next (if (s.g g).st = 3 ∧ s.drained g ∧ s.pixelsDone g then
    let s := s.setF (gtalB g) F.TALLY_STATUS_DRAIN 0
    let s := forL (s.runChans g) (fun ch t => t.statEnd ch (((t.g g).last).getD 0)) s
    (s.releaseRings g).setG g { s.g g with st := 0 }
  else s)

end Sys2Proof.Machine
end

