-- ==== Sys2Proof/Machine/AuxChain.lean ====
section
/-!
DEFINITION. The aux filter chain (18_yarn_aux R649 to R660): CIC, FIR and median of 32 channels, their thresholds and
rings, and syncs. The commands AUX_CLK_WRITE to SYNC_PHASE_RESET.
-/

namespace Sys2Proof.Machine

/-- The record of aux channel `c`. -/
def State.ax (s : State) (c : Nat) : AuxCh := Tab.get {} c s.aux
def State.setAx (s : State) (c : Nat) (a : AuxCh) : State := { s with aux := Tab.put c a s.aux }
def State.auxRun (s : State) (c : Nat) : Bool := s.flag (auxB c) F.AUX_CTRL_RUN

/-- The field MDIV_k. -/
def mdivF (k : Nat) : Fld :=
  if k = 0 then F.AUX_CLK_MDIV_0 else if k = 1 then F.AUX_CLK_MDIV_1
  else if k = 2 then F.AUX_CLK_MDIV_2 else F.AUX_CLK_MDIV_3

/-- The level of modulator clock `k` now (R649). -/
def State.mclkLevel (s : State) (k : Nat) : Bool :=
  let m := s.getF auxG (mdivF k)
  m != 0 && (s.now - Tab.get 0 k s.mclkAt) / (m + 1) % 2 == 1

/-! ## Stamped inputs -/

/-- Stamp an input of a running group and send it over its crossing (R29 to R31). -/
def State.submit (s : State) (g cls src : Nat) (what : Payload) : State :=
  { s with flight := s.flight ++ [(⟨g, cls, src, s.stampOf g, 0, what, false, s.accepts⟩ : Stamped)] }

/-- The command processor accepts a command that is a stamped input (R371). -/
def State.accept (s : State) : State := { s with accepts := s.accepts + 1 }

/-- A write of 1 to NOW: a class 5 input, journalled as the modify of that bit that it is, which starts the hold at the next
course boundary (R229, R670). With no course of the group to come it does nothing. The row names no session: SOURCE is 0
(DESIGN CHOICE, log entry 67). -/
def State.holdNow (s : State) (g : Nat) : State :=
  if s.running g then
    (s.submit g 5 0 (.write 0 true 0 (gsegB g + 0x70) [2 ^ 31, 2 ^ 31] [⟨F.MASK_HOLD_NOW.key (gsegB g), 1, false⟩])).accept
  else s

/-- MASK_HOLD_NOW (R229). -/
def execMaskHoldNow (g : Fin 16) (s : State) : Host.Outcome State Fault Refusal := .next (s.holdNow g)

/-- Whether a channel of group `g` takes aux channel `c` at a lamp knot (R171). -/
def State.lampUses (s : State) (g c : Nat) : Bool :=
  (s.runChans g).any (fun ch => (List.range 8).any (fun z =>
    s.flag (corrB ch) (F.LAMP_KNOT_KEN.nth z) && s.getF (corrB ch) (F.LAMP_KNOT_AUX_CH.nth z) == c))

/-! ## The filter -/

/-- Count a clamp of channel `c` (R650). -/
def State.auxSat (s : State) (c : Nat) : State :=
  (s.satF (auxB c) F.AUX_SAT_COUNT 1).mark (auxB c) F.AUX_STATUS_SAT_EV

/-- sat_w (R650). -/
def State.auxClamp (s : State) (c w : Nat) (v : Int) : State × Int :=
  let r := clampI (-(2 ^ (w - 1))) (2 ^ (w - 1) - 1) v
  (if r = v then s else s.auxSat c, r)

/-- The integrators take one input, each adding the one before (R651). Words of 62 bits hold ±CIC_R^CIC_N exactly, up to ±2^60,
as the rule has it of 61 bits, which are then those of the magnitude (DEDUCED, log entry 69). -/
def cicIntegrate (x : Nat) : List Nat → List Nat × Nat
  | [] => ([], x)
  | r :: rs =>
    let v := (r + x) % 2 ^ 62
    let (rs', y) := cicIntegrate v rs
    (v :: rs', y)

/-- The combs take one decimated value, with a differential delay of 1 (R651). -/
def cicComb (x : Nat) : List Nat → List Nat × Nat
  | [] => ([], x)
  | d :: ds =>
    let (ds', y) := cicComb ((x + 2 ^ 62 - d) % 2 ^ 62) ds
    (x :: ds', y)

/-- FIR coefficient `i` of channel `c`, signed. -/
def State.coef (s : State) (c i : Nat) : Int :=
  s.getI (auxCB c) (if i % 2 = 1 then F.AUX_COEF_C_HI.nth (i / 2) else F.AUX_COEF_C_LO.nth (i / 2))

/-- Σ C[i] × y1(n − i) over the delay line, newest first (R652). -/
def State.firSum (s : State) (c : Nat) : Nat → List Int → Int
  | _, [] => 0
  | i, y :: ys => s.coef c i * y + s.firSum c (i + 1) ys

/-- Write the AUX_RING entry of channel `c`, unused samples zero (R657). -/
def State.auxRingPut (s : State) (c : Nat) : State :=
  let a := s.ax c
  let item := le 1 c ++ zeros 3 ++ le 4 a.ringIdx ++ le 8 a.ringSec ++ le 4 a.ringNs ++ zeros 4 ++ le 8 a.ringView ++
    padTo 32 (a.ringAcc.map (fun v => le 4 (ofInt 32 v))).flatten
  let s := (s.ringPush (s.getF (auxB c) F.AUX_RING_RING) item).1
  s.setAx c { s.ax c with ringAcc := [] }

/-- The ring stage of a sample (R657). -/
def State.auxRing (s : State) (c : Nat) (y3 : Int) : State :=
  if s.flag (auxB c) F.AUX_RING_RING_EN then
    let a := s.ax c
    if a.ringPhase + 1 < s.getF (auxB c) F.AUX_RDIV_RING_DIV then s.setAx c { a with ringPhase := a.ringPhase + 1 }
    else
      let a := if a.ringAcc.isEmpty then
          { a with
            ringIdx := s.getF (auxB c) F.AUX_COUNT_COUNT % 2 ^ 32
            ringSec := s.sec
            ringNs := s.ns
            ringView := s.viewOf 255 }
        else a
      let s := s.setAx c { a with ringPhase := 0, ringAcc := a.ringAcc ++ [y3] }
      if a.ringAcc.length + 1 < 8 then s else s.auxRingPut c
  else s

/-- The threshold stage of a sample (R655). -/
def State.auxThreshold (s : State) (c : Nat) (y3 : Int) : State :=
  let m := s.getF (auxB c) F.AUX_POST_THR_MODE
  let hi := decide (s.getI (auxB c) F.AUX_THR_HI_THR_HI ≤ y3)
  let lo := decide (y3 ≤ s.getI (auxB c) F.AUX_THR_LO_THR_LO)
  let out := (bit m 0 && hi) || (bit m 1 && lo)
  let was := s.flag (auxB c) F.AUX_STATUS_OUT
  let s := s.setF (auxB c) F.AUX_STATUS_OUT (if out then 1 else 0)
  if out && !was then s.raise (auxB c) F.AUX_STATUS_THR_EV (0x80 + c) else s

/-- One output sample y3 (R655, R656): value, consumers, threshold, ring. -/
def State.auxSample (s : State) (c : Nat) (y3 : Int) : State :=
  let b := auxB c
  let s := s.setI b F.AUX_VALUE_Y3 y3
  let s := forL s.runningGroups (fun g t => t.submit g 3 c (.aux c y3)) s
  let s := if s.getF thB F.TH_CTRL_TH_AUX = c then s.tagTemp y3 else s
  let s := s.auxThreshold c y3
  let s := s.auxRing c y3
  let s := s.incF b F.AUX_COUNT_COUNT 1
  if (s.ax c).syncNew then (s.setAx c { s.ax c with syncNew := false }).mark b F.AUX_STATUS_SYNC_SEEN else s

/-- The median stage (R653, R654): the window is first filled with the first y2. -/
def State.auxMedian (s : State) (c : Nat) (y2 : Int) : State :=
  let n := s.getF (auxB c) F.AUX_POST_MED_LEN
  if n = 0 then s.auxSample c y2
  else
    let a := s.ax c
    let w := if a.med.isEmpty then List.replicate n y2 else a.med.drop 1 ++ [y2]
    (s.setAx c { a with med := w }).auxSample c (medianInt w)

/-- The FIR stage of one y1 (R652, R654). -/
def State.auxFir (s : State) (c : Nat) (y1 : Int) : State :=
  let b := auxB c
  let a := s.ax c
  let taps := s.getF b F.AUX_FIR_FIR_TAPS
  let line := (y1 :: a.firLine).take taps
  let n := a.cicOut + 1
  if a.firPhase + 1 < s.getF b F.AUX_FIR_FIR_DEC then
    s.setAx c { a with firLine := line, cicOut := n, firPhase := a.firPhase + 1 }
  else
    let s := s.setAx c { a with firLine := line, cicOut := n, firPhase := 0 }
    if n < s.getF b F.AUX_CTRL_CIC_N ∨ n < taps then s
    else if taps = 0 then s.auxMedian c y1
    else
      let acc := toInt 48 (ofInt 48 (s.firSum c 0 line))
      let r := s.auxClamp c 32 (rndE (s.getF b F.AUX_FIR_FIR_SHIFT) acc)
      r.1.auxMedian c r.2

/-- One modulator bit: +1 or −1 into the CIC; every CIC_R-th gives a y1 (R649, R651). -/
def State.auxBit (s : State) (c : Nat) (v : Bool) : State :=
  let b := auxB c
  let a := s.ax c
  let (ig, y) := cicIntegrate (if v then 1 else 2 ^ 62 - 1) a.integ
  if a.cicPhase + 1 < s.getF b F.AUX_CTRL_CIC_R then s.setAx c { a with integ := ig, cicPhase := a.cicPhase + 1 }
  else
    let (cb, z) := cicComb y a.comb
    let s := s.setAx c { a with integ := ig, comb := cb, cicPhase := 0 }
    let r := s.auxClamp c 24 (rndE (s.getF b F.AUX_CTRL_CIC_SHIFT) (toInt 62 z))
    r.1.auxFir c r.2

/-! ## Run, clocks and syncs -/

/-- The multiply load of channel `c` per second, as a fraction (R659). -/
def State.auxLoad (s : State) (c : Nat) : Nat × Nat :=
  let b := auxB c
  let m := s.getF auxG (mdivF (s.getF b F.AUX_CTRL_CLK_SEL))
  if m = 0 then (0, 1)
  else (s.getF b F.AUX_FIR_FIR_TAPS * 250000000,
    2 * (m + 1) * (s.getF b F.AUX_CTRL_CIC_R * s.getF b F.AUX_FIR_FIR_DEC))

/-- Whether a sum of fractions is above 2 × 10^9. -/
def loadAbove (l : List (Nat × Nat)) : Bool :=
  let t := l.foldl (fun (x : Nat × Nat) (y : Nat × Nat) => (x.1 * y.2 + y.1 * x.2, x.2 * y.2)) (0, 1)
  decide (2000000000 * t.2 < t.1)

/-- Whether RUN of channel `c` may rise (R509, R525, R659). -/
def State.auxStatus (s : State) (c : Nat) : Nat :=
  let ring := s.getF (auxB c) F.AUX_RING_RING
  let en := s.flag (auxB c) F.AUX_RING_RING_EN
  if en && !s.ringOk ring false then stBadParam
  else if loadAbove (((List.range 32).filter (fun k => s.auxRun k || k == c)).map s.auxLoad) then stNoResource
  else if en && !s.canPin [ring] then stNoResource
  else 0

/-- RUN rises (R654): the filter state is cleared. -/
def State.auxStart (s : State) (c : Nat) : State :=
  let n := s.getF (auxB c) F.AUX_CTRL_CIC_N
  let s := s.setF (auxB c) F.AUX_CTRL_RUN 1
  let s := s.setAx c { integ := List.replicate n 0, comb := List.replicate n 0 }
  if s.flag (auxB c) F.AUX_RING_RING_EN then s.bind (s.getF (auxB c) F.AUX_RING_RING) (auxB c) true else s

/-- RUN falls (R334, R654, R657): the partial ring entry is written, and the tag head loses its temperature. -/
def State.auxStop (s : State) (c : Nat) : State :=
  let s := if (s.ax c).ringAcc.isEmpty then s else s.auxRingPut c
  let s := (s.setF (auxB c) F.AUX_CTRL_RUN 0).unbind (auxB c)
  let s := s.setAx c {}
  if s.getF thB F.TH_CTRL_TH_AUX = c ∧ s.thOn then s.tagNoTemp else s

/-- A sync (R658): every running channel resets its phases at its next modulator edge. -/
def State.auxSync (s : State) : State :=
  let s := s.satF auxG F.AUX_SYNC_CNT_COUNT 1
  forL ((List.range 32).filter s.auxRun) (fun c t => t.setAx c { t.ax c with syncWait := true, syncNew := true }) s

/-- A sync made by the device (R658): with DRIVE = 1 it also drives a pulse on the pin, whose rising edge is a
producer but no second sync. -/
def State.auxSyncDrive (s : State) : State :=
  let s := s.auxSync
  if s.flag auxG F.AUX_SYNC_DRIVE then (s.emit (.pulse .auxsync 40)).fire 0xA9 else s

/-- Whether MDIV_k may be written (R649). -/
def State.mdivStatus (s : State) (k v : Nat) : Nat :=
  if !mdivOk v then stBadParam
  else if (List.range 32).any (fun c => s.auxRun c && s.getF (auxB c) F.AUX_CTRL_CLK_SEL == k) then stBusy
  else 0

/-- Write MDIV_k: the pin is low, and the phase of the clock, PSCLK / (2 × (MDIV_k + 1)), starts anew (R649). -/
def State.mdivWrite (s : State) (k v : Nat) : State :=
  let s := s.setF auxG (mdivF k) v
  let s := ({ s with mclkAt := Tab.put k s.now s.mclkAt }).emit (.level (.mclk k) false)
  if v = 0 then s else s.emit (.wave (.mclk k) 250000000 (2 * (v + 1)))

/-- AUX_CLK_WRITE: MDIV_k is written (R649). -/
def execAuxClkWrite (k : Fin 4) (mdiv : BitVec 8) (s : State) : Host.Outcome State Fault Refusal :=
  .next (if s.domOn 95 && s.mdivStatus k mdiv.toNat == 0 then s.mdivWrite k mdiv.toNat else s)

/-- AUX_RUN_RISE: RUN of a channel rises, where its load and its ring allow it (R654, R659). -/
def execAuxRunRise (c : Fin 32) (s : State) : Host.Outcome State Fault Refusal :=
  .next (if s.domOn 95 && !s.auxRun c && s.auxStatus c == 0 then s.auxStart c else s)

/-- AUX_RUN_FALL: RUN of a channel falls (R654, R657). -/
def execAuxRunFall (c : Fin 32) (s : State) : Host.Outcome State Fault Refusal :=
  .next (if s.auxRun c then s.auxStop c else s)

/-- The level of MDAT that a channel samples in a period of its clock: of `m`, the levels at the rising and at the falling edge,
the one that CLK_EDGE selects (R649). -/
def State.mdatOf (s : State) (c : Nat) (m : Bool × Bool) : Bool := if s.flag (auxB c) F.AUX_CTRL_CLK_EDGE then m.2 else m.1

/-- The modulator clock of a channel runs (R649). -/
def State.mclkRuns (s : State) (c : Nat) : Bool := s.getF auxG (mdivF (s.getF (auxB c) F.AUX_CTRL_CLK_SEL)) != 0

/-- AUX_OUTPUT: periods of a running channel's clock have passed, with MDAT[c] as `mdat` gives it at the two edges of each; the
filter takes each sampled bit, and every y3 they give takes its effects (R649 to R657). -/
def execAuxOutput (c : Fin 32) (mdat : List (Bool × Bool)) (s : State) : Host.Outcome State Fault Refusal :=
  .next (if s.clk 0 && s.domOn 95 && s.auxRun c && s.mclkRuns c then forL mdat (fun m t => t.auxBit c (t.mdatOf c m)) s else s)

/-- AUX_SYNC_WRITE: SYNC is written 1 (R658). -/
def execAuxSyncWrite (s : State) : Host.Outcome State Fault Refusal :=
  .next (if s.domOn 95 then s.auxSyncDrive else s)

/-- AUXSYNC_EDGE: a rising edge on the AUXSYNC pin: a producer (R634) and a sync (R658). -/
def execAuxsyncEdge (s : State) : Host.Outcome State Fault Refusal :=
  .next (let s := s.fire 0xA9
    if s.domOn 95 then s.auxSync else s)

/-- SYNC_PHASE_RESET: the next edge of the channel's modulator clock after a sync (R658). -/
def execSyncPhaseReset (c : Fin 32) (s : State) : Host.Outcome State Fault Refusal :=
  .next (if s.auxRun c && (s.ax c).syncWait then
    s.setAx c { s.ax c with syncWait := false, cicPhase := 0, firPhase := 0 }
  else s)

end Sys2Proof.Machine
end

