-- ==== Sys2Proof/Machine/Views.lean ====
section
/-!
DEFINITION. Live views, the look-back store and the display (17_views_panel R609 to R622). The commands VIEW_ROW,
LOOKBACK_ROW, LOOKBACK_PACE and VBLANK_LATCH.
-/

namespace Sys2Proof.Machine

/-- Whether a view may start (R609, R610, R616, R617): crop, row length, scale, ring. -/
def State.viewStatus (s : State) (v : Nat) : Nat :=
  let b := viewB v
  let sx := s.getF b F.VIEW_CTRL_SX_LOG
  let w := s.getF b F.VIEW_CROP_WIDTH
  if s.widthOf (s.getF b F.VIEW_CTRL_GROUP) < s.getF b F.VIEW_CROP_W0 + w then stBadParam
  else if 16384 < (w + 2 ^ sx - 1) / 2 ^ sx then stBadParam
  else if s.flag b F.VIEW_CTRL_SRC && (decide (sx < 2) || decide (s.getF b F.VIEW_CTRL_SY_LOG < 2)) then stBadParam
  else if s.flag b F.VIEW_CTRL_RING_EN && !s.ringOk (s.getF b F.VIEW_RING_RING) true then stBadParam
  else if s.flag b F.VIEW_CTRL_RING_EN && !s.canPin [s.getF b F.VIEW_RING_RING] then stNoResource
  else stOk

/-- The oldest course whose output some channel of the group has still to start. -/
def State.seamFront (s : State) (g : Nat) : Nat :=
  match (s.runChans g).map (fun ch => (s.sm ch).next) with
  | [] => 0
  | n :: ns => ns.foldl min n

/-- ACTIVE of a view: it runs, and has rows to produce (R613, R616). -/
def State.viewShow (s : State) (v : Nat) (on : Bool) : State := s.setF (viewB v) F.VIEW_STATUS_ACTIVE (if on then 1 else 0)

/-- A view starts: a live view at its first whole row that is still to come, a look-back view at the row that holds
START (R616). -/
def State.viewStart (s : State) (v : Nat) : State :=
  let b := viewB v
  let g := s.getF b F.VIEW_CTRL_GROUP
  let sy := s.getF b F.VIEW_CTRL_SY_LOG
  let live := !s.flag b F.VIEW_CTRL_SRC
  let next := if live then (s.seamFront g + 2 ^ sy - 1) / 2 ^ sy else s.getF b F.VIEW_START_START / 2 ^ sy
  let s := { s with
    view := Tab.put v (if live && !s.running g then 0 else next) s.view
    viewOld := s.viewOld.filter (fun o => o.1 != v) }
  let s := if s.flag b F.VIEW_CTRL_RING_EN then s.bind (s.getF b F.VIEW_RING_RING) b true else s
  s.viewShow v (if live then s.running g else true)

/-- A view stops: EN is written 0. -/
def State.viewStop (s : State) (v : Nat) : State := (s.unbind (viewB v)).viewShow v false

/-- The live views of a group that starts begin at row 0; its look-back store begins anew (R613, R615). -/
def State.viewsGroup (s : State) (g : Nat) (on : Bool) : State :=
  let s := if on then { s with lbNext := Tab.put g 0 s.lbNext, lbGone := s.lbGone.filter (fun e => e.1 != g) } else s
  forN 16 (fun v t =>
    let b := viewB v
    if t.getF b F.VIEW_CTRL_GROUP = g ∧ t.flag b F.VIEW_CTRL_EN ∧ !t.flag b F.VIEW_CTRL_SRC then
      ({ t with
        view := if on then Tab.put v 0 t.view else t.view
        viewOld := t.viewOld.filter (fun o => o.1 != v) }).viewShow v on
    else t) s

/-! ## Rows (R610 to R612) -/

/-- A row of a live view is in progress: some channel of its group has put out the row's first course (R613). -/
def State.rowBegun (s : State) (v : Nat) : Bool :=
  let b := viewB v
  let g := s.getF b F.VIEW_CTRL_GROUP
  s.flag b F.VIEW_CTRL_EN && !s.flag b F.VIEW_CTRL_SRC && s.running g &&
    (s.runChans g).any (fun ch => decide (2 ^ s.getF b F.VIEW_CTRL_SY_LOG * Tab.get 0 v s.view < (s.sm ch).next))

/-- A write is about to change a field that maps the pixels of view `v`: the row in progress keeps the value `old` that it
started with (R9, R614). -/
def State.viewKeep (s : State) (v key old : Nat) : State :=
  if s.rowBegun v && !s.viewOld.any (fun o => o.1 == v && o.2.1 == key) then { s with viewOld := s.viewOld ++ [(v, key, old)] }
  else s

/-- The registers as the row in progress of view `v` was started with. -/
def State.viewAs (s : State) (v : Nat) : State :=
  { s with regs := (s.viewOld.filter (fun o => o.1 == v)).foldl (fun t o => Tab.put o.2.1 o.2.2 t) s.regs }

/-- The output of the whole group in course `k`; none where it is no longer held. -/
def State.waleRow (s : State) (g k : Nat) : Option (List Pix) :=
  ((s.runChans g).mapM (fun ch => ((s.sm ch).rows.find? (fun r => r.1 == k)).map (·.2))).map List.flatten

/-- g of a mean (R611). -/
def State.greyOf (s : State) (v mean : Nat) : Nat :=
  (clampI 0 255 (rnd 16 ((Int.ofNat mean - Int.ofNat (s.getF (viewB v) F.VIEW_MAP_BLACK)) *
    Int.ofNat (s.getF (viewB v) F.VIEW_MAP_VGAIN)))).toNat

/-- The unmasked values of wales `lo` to `hi - 1` in rows. -/
def blockVals (rows : List (List Pix)) (lo hi : Nat) : List Nat :=
  rows.flatMap (fun r => ((r.drop lo).take (hi - lo)).filterMap (fun p => if p.2 then none else some p.1))

/-- PALETTE[i] of a view. -/
def State.palette (s : State) (v i : Nat) : Nat := s.fieldAt false (palB v + 4 * i) (F.PALETTE_RGB.nth i)

/-- The bytes of a pixel on a ring: B, G, R of its colour, or its grey value (R612, R617, log entry 40). -/
def pixBytes (rgb : Bool) (p : Nat × Nat) : List Byte := if rgb then le 3 p.2 else [BitVec.ofNat 8 p.1]

/-- The three bytes of a pixel in the display buffer (R621). -/
def dpBytes (rgb : Bool) (p : Nat × Nat) : List Byte := if rgb then le 3 p.2 else List.replicate 3 (BitVec.ofNat 8 p.1)

/-- The pixels of a row with their colours (R612). -/
def State.coloured (s : State) (v : Nat) (px : List Nat) : List (Nat × Nat) := px.map (fun g => (g, s.palette v g))

/-- The pixels of a live row over the rows of its courses: grey values, and whether a block is masked (R611). -/
def State.livePixels (s : State) (v : Nat) (rows : List (List Pix)) : List Nat × Bool :=
  let b := viewB v
  let sx := s.getF b F.VIEW_CTRL_SX_LOG
  let w0 := s.getF b F.VIEW_CROP_W0
  let w := s.getF b F.VIEW_CROP_WIDTH
  let px := (List.range ((w + 2 ^ sx - 1) / 2 ^ sx)).map (fun i =>
    let vals := blockVals rows (w0 + i * 2 ^ sx) (w0 + min w ((i + 1) * 2 ^ sx))
    if vals.isEmpty then none else some (s.greyOf v (meanR vals.sum vals.length)))
  (px.map (·.getD (s.getF b F.VIEW_MASK_MASK_VAL)), px.any (·.isNone))

/-- The time of the trigger of course `k`: from the trigger history, else from the course history in memory (R281),
else free, since the spec keeps it nowhere. -/
def State.trigTime (s : State) (g k : Nat) : State × Nat × Nat :=
  match s.histOf g k with
  | some h => (s, h.sec % 2 ^ 32, h.ns)
  | none =>
    if s.flag (gtalB g) F.TALLY_CTRL_TALLY_EN && decide (s.getF (crsB g) F.CRS_COUNT_COURSE < k + 131072) then
      let r := s.readFree 1 (blockUnit (gtalB g)) (s.getF (gtalB g) F.HIST_BASE_ADDR + 16 * (k % 131072)) 16
      (r.1, leAt r.2 8 4, leAt r.2 12 4)
    else (s.tickFree.tickFree, (Config.freeBits 32 s.freeCtr).toNat, (Config.freeBits 32 (s.freeCtr + 1)).toNat)

/-! ## The display buffer (R621) -/

/-- The address of row `m` in the display buffer of a view whose rows have `pw` pixels. -/
def State.dpAddr (s : State) (v pw m : Nat) : Nat :=
  s.getF (viewB v) F.DBUF_BASE_ADDR + m % s.getF (viewB v) F.DBUF_CFG_ROWS * (3 * pw)

/-- What the display buffer of a view holds, as it is set up for rows of `pw` pixels: nothing yet where it was another. -/
def State.dpNow (s : State) (v pw : Nat) : DispBuf :=
  let d := Tab.get {} v s.dpBuf
  let base := s.getF (viewB v) F.DBUF_BASE_ADDR
  let rows := s.getF (viewB v) F.DBUF_CFG_ROWS
  if d.base = base ∧ d.rows = rows ∧ d.pw = pw then d else { base := base, rows := rows, pw := pw }

/-- Row `m` is in the display buffer, in place of the one that had its slot. -/
def State.dpHold (s : State) (v pw m : Nat) : State :=
  let d := s.dpNow v pw
  { s with dpBuf := Tab.put v { d with held := m :: d.held.filter (fun k => k % d.rows != m % d.rows) } s.dpBuf }

/-- A row of grey values with their colours is produced: onto the ring and into the display buffer (R617, R621). -/
def State.putRow (s : State) (v course : Nat) (px : List (Nat × Nat)) (flags : Nat) : State :=
  let b := viewB v
  let g := s.getF b F.VIEW_CTRL_GROUP
  let rgb := s.flag b F.VIEW_CTRL_FMT
  let m := s.getF b F.VIEW_ROWS_ROWS
  let t := s.trigTime g course
  let s := t.1
  let s := if s.flag b F.VIEW_CTRL_RING_EN then
      let head := le 2 0x5657 ++ le 1 v ++ le 1 (flags + if rgb then 1 else 0) ++ le 2 px.length ++
        le 1 (s.getF b F.VIEW_CTRL_SY_LOG * 16 + s.getF b F.VIEW_CTRL_SX_LOG) ++ le 1 g ++ le 8 course ++
        le 4 (s.getF b F.VIEW_CROP_W0) ++ le 4 m ++ le 4 t.2.1 ++ le 4 t.2.2
      let r := s.ringPush (s.getF b F.VIEW_RING_RING) (head ++ px.flatMap (pixBytes rgb))
      if r.2 then r.1 else r.1.raise b F.VIEW_STATUS_DROP_EV 0xF4
    else s
  let s := if s.flag b F.VIEW_CTRL_DP_EN then
      if s.getF b F.DBUF_CFG_ROWS = 0 then s
      else ((s.memWrite 1 v (s.dpAddr v px.length m) (px.flatMap (dpBytes rgb))).1).dpHold v px.length m
    else s
  s.incF b F.VIEW_ROWS_ROWS 1

/-- VIEW_ROW: the next row of a live view of a running group is produced once its last course is complete, mapped as when it was
started; or it is skipped under load or because its courses are no longer held (R613, R614). -/
def execViewRow (v : Fin 16) (skip : Bool) (s : State) : Host.Outcome State Fault Refusal :=
  let b := viewB v
  let g := s.getF b F.VIEW_CTRL_GROUP
  let n := 2 ^ s.getF b F.VIEW_CTRL_SY_LOG
  let r := Tab.get 0 v s.view
  .next (if s.flag b F.VIEW_CTRL_EN ∧ !s.flag b F.VIEW_CTRL_SRC ∧ s.running g ∧ s.seamDone g (n * (r + 1) - 1) then
    let old := s.viewAs v
    let t := { s with view := Tab.put v.val (r + 1) s.view, viewOld := s.viewOld.filter (fun o => o.1 != v.val) }
    match if skip then none else ((List.range n).map (· + n * r)).mapM (s.waleRow g) with
    | none => t.satF b F.ROW_SKIP_COUNT 1
    | some rows =>
      let px := old.livePixels v rows
      t.putRow v (n * r) (old.coloured v px.1) (if px.2 then 4 else 0)
  else s)

/-! ## Look-back (R615, R616) -/

/-- The stored columns of a group, and the bytes of a stored row. -/
def State.lbCols (s : State) (g : Nat) : Nat := (s.getF (gseamB g) F.GRP_WIDTH_WIDTH + 3) / 4
def State.lbRowBytes (s : State) (g : Nat) : Nat := (2 * s.lbCols g + 63) / 64 * 64
def State.lbAddr (s : State) (g r : Nat) : Nat :=
  s.getF (lbB g) F.LB_BASE_ADDR + r % (s.getF (lbB g) F.LB_CFG_LB_ROWS) * s.lbRowBytes g

/-- The mean of a block; the spec gives no value where the whole block is masked. -/
def lbValue (ctr : Nat) (vals : List Nat) : Nat :=
  if vals.isEmpty then (Config.freeBits 16 ctr).toNat else meanR vals.sum vals.length

/-- LOOKBACK_ROW: the next look-back row of a group is written once its four courses are complete (R615); where their output is no
longer held, it is passed over. -/
def execLookbackRow (g : Fin 16) (s : State) : Host.Outcome State Fault Refusal :=
  let r := Tab.get 0 g s.lbNext
  .next (if s.flag (lbB g) F.LB_CFG_LB_EN ∧ ((s.g g).st = 2 ∨ (s.g g).st = 3) ∧ s.getF (lbB g) F.LB_CFG_LB_ROWS ≠ 0 ∧
      s.seamDone g (4 * r + 3) then
    let t := { s with lbNext := Tab.put g.val (r + 1) s.lbNext }
    match ((List.range 4).map (· + 4 * r)).mapM (s.waleRow g) with
    | none => { t with lbGone := t.lbGone ++ [(g.val, r)] }
    | some rows =>
      let n := s.lbCols g
      let vals := (List.range n).map (fun i => lbValue (s.freeCtr + i) (blockVals rows (4 * i) (4 * i + 4)))
      let t := { t with freeCtr := t.freeCtr + n }
      (t.memWrite 0 g (s.lbAddr g r) (padTo (s.lbRowBytes g) (vals.flatMap (le 2)))).1
  else s)

/-- A stored row read back; the values are free where the read is uncorrectable. -/
def State.lbRead (s : State) (g v r : Nat) : State × List Nat :=
  let n := s.lbCols g
  let q := s.memRead 0 v (s.lbAddr g r) (2 * n)
  match q.2 with
  | .ok b => (q.1, (chunks 2 n b).map leVal)
  | .error _ => ({ q.1 with freeCtr := q.1.freeCtr + n }, (List.range n).map (fun i => (Config.freeBits 16 (q.1.freeCtr + i)).toNat))

/-- Read several stored rows. -/
def State.lbReads (s : State) (g v : Nat) : List Nat → State × List (List Nat)
  | [] => (s, [])
  | r :: rs =>
    let a := s.lbRead g v r
    let b := a.1.lbReads g v rs
    (b.1, a.2 :: b.2)

/-- Whether rows `a` to `b - 1` of a look-back store can no longer come (R616): the first has been overwritten, one was never
written, or the store is written no more. -/
def State.lbLost (s : State) (g a b : Nat) : Bool :=
  let newest := Tab.get 0 g s.lbNext
  decide (a + s.getF (lbB g) F.LB_CFG_LB_ROWS < newest) || s.lbGone.any (fun e => e.1 == g && decide (a ≤ e.2) && decide (e.2 < b)) ||
    (decide (newest < b) && (!s.flag (lbB g) F.LB_CFG_LB_EN || ((s.g g).st != 2 && (s.g g).st != 3)))

/-- LOOKBACK_PACE: a look-back view produces its next row, waits for one still to come, or stops with LB_END (R616). -/
def execLookbackPace (v : Fin 16) (s : State) : Host.Outcome State Fault Refusal :=
  let b := viewB v
  let g := s.getF b F.VIEW_CTRL_GROUP
  let n := 2 ^ (s.getF b F.VIEW_CTRL_SY_LOG - 2)
  let sx := 2 ^ (s.getF b F.VIEW_CTRL_SX_LOG - 2)
  let r := Tab.get 0 v s.view
  let newest := Tab.get 0 g s.lbNext
  .next (if s.flag b F.VIEW_CTRL_EN ∧ s.flag b F.VIEW_CTRL_SRC ∧ s.flag b F.VIEW_STATUS_ACTIVE then
    if s.lbLost g (r * n) (r * n + n) then
      (s.viewShow v false).mark b F.VIEW_STATUS_LB_END
    else if newest < r * n + n then s
    else
      let q := s.lbReads g v ((List.range n).map (· + r * n))
      let w0 := s.getF b F.VIEW_CROP_W0
      let w := s.getF b F.VIEW_CROP_WIDTH
      let last := (w0 + w + 3) / 4
      let px := (List.range ((w + 4 * sx - 1) / (4 * sx))).map (fun i =>
        let vals := q.2.flatMap (fun row => (row.drop (w0 / 4 + i * sx)).take (min (w0 / 4 + (i + 1) * sx) last - (w0 / 4 + i * sx)))
        s.greyOf v (meanR vals.sum vals.length))
      ({ q.1 with view := Tab.put v.val (r + 1) q.1.view }).putRow v (r * n * 4) (s.coloured v px) 2
  else s)

/-! ## The display (R621) -/

/-- The pixels of a row of a view (R610). -/
def State.viewPw (s : State) (v : Nat) : Nat :=
  (s.getF (viewB v) F.VIEW_CROP_WIDTH + 2 ^ s.getF (viewB v) F.VIEW_CTRL_SX_LOG - 1) / 2 ^ s.getF (viewB v) F.VIEW_CTRL_SX_LOG

/-- The row of a view that stands `back` rows before the one latched, where it has been written and is still in the buffer. -/
def State.dpShown (s : State) (v back : Nat) : Option Nat :=
  match Tab.find v s.dpRow with
  | some m => if back ≤ m ∧ (s.dpNow v (s.viewPw v)).held.contains (m - back) then some (m - back) else none
  | none => none

/-- The source reads the rows that the frame shows of a view; an uncorrectable block has its effects (R497; log entry 44). -/
def State.dpRead (s : State) (v : Nat) : State :=
  forN (s.getF (dwB v) F.DW_SIZE_WIN_H) (fun j t =>
    match t.dpShown v j with
    | some m => (t.readFree 1 (blockUnit dpB) (t.dpAddr v (t.viewPw v) m) (3 * t.viewPw v)).1
    | none => t) s

/-- Whether output is sent (R619, R620). -/
def State.dpSends (s : State) : Bool := s.flag dpB F.DP_STATUS_TRAINED && !s.flag dpB F.DP_STATUS_MODE_FAIL

/-- VBLANK_LATCH: at the start of the vertical blank the newest complete row of each view is latched. -/
def execVblankLatch (s : State) : Host.Outcome State Fault Refusal :=
  .next (if s.dpSends then
    forN 16 (fun v t =>
      let n := t.getF (viewB v) F.VIEW_ROWS_ROWS
      if t.flag (viewB v) F.VIEW_CTRL_DP_EN && decide (0 < n) then { t with dpRow := Tab.put v (n - 1) t.dpRow }.dpRead v
      else { t with dpRow := Tab.del v t.dpRow }) s
  else s)

/-- Whether a screen position lies in the window of a view. -/
def State.inWindow (s : State) (v x y : Nat) : Bool :=
  let b := dwB v
  s.flag (viewB v) F.VIEW_CTRL_DP_EN && decide (s.getF b F.DW_POS_WIN_X ≤ x) &&
    decide (x < s.getF b F.DW_POS_WIN_X + s.getF b F.DW_SIZE_WIN_W) && decide (s.getF b F.DW_POS_WIN_Y ≤ y) &&
    decide (y < s.getF b F.DW_POS_WIN_Y + s.getF b F.DW_SIZE_WIN_H)

/-- The colour that output shows at a position: the highest view whose window holds it, and BG where there is none, beyond PW, and
for a row not yet written (R621). Without output, or outside the active size of the mode (R620), there is none. -/
def State.dpPixel (s : State) (x y : Nat) : Option Nat :=
  let bg := s.getF dpB F.DP_BG_BG
  if !s.dpSends ∨ s.dpMode.ha ≤ x ∨ s.dpMode.va ≤ y then none
  else
    match ((List.range 16).reverse).find? (fun v => s.inWindow v x y) with
    | none => some bg
    | some v =>
      let pw := s.viewPw v
      let j := y - s.getF (dwB v) F.DW_POS_WIN_Y
      let i := x - s.getF (dwB v) F.DW_POS_WIN_X
      let back := if s.flag (dwB v) F.DW_SIZE_DIR then s.getF (dwB v) F.DW_SIZE_WIN_H - 1 - j else j
      match s.dpShown v back with
      | none => some bg
      | some m => some (if pw ≤ i then bg else leVal (s.readFree 1 (blockUnit dpB) (s.dpAddr v pw m + 3 * i) 3).2)

end Sys2Proof.Machine
end

