-- ==== Sys2Proof/Machine/Boundary.lean ====
section
/-!
DEFINITION. The course-stamp contract (01_architecture): stamped inputs in flight, on time and late, their consumption
in the order of R33, live and held writes at a boundary (R8, R45, R378), and the exchange of the banks of a pattern
set (R390, R392, R398, R400).
-/

namespace Sys2Proof.Machine

/-! ## To whom a field belongs -/

/-- The channel in whose window a register address lies. -/
def chOfAddr (a : Nat) : Option Nat :=
  if a < 0x10000000 ∨ 0x18000000 ≤ a then none
  else
    let o := a % 0x1000000
    if o < 0x400000 ∧ o % 0x100000 < 0x40000 then
      some ((a - 0x10000000) / 0x1000000 * 16 + o / 0x100000 * 4 + o % 0x100000 / 0x10000)
    else none

/-- The group whose own block a register address lies in: group seam, segmentation and tally, and the group registers
of the position block. -/
def groupOfAddr (a : Nat) : Option Nat :=
  if (0x40000 ≤ a ∧ a < 0x41000) ∨ (0x50000 ≤ a ∧ a < 0x51000) ∨ (0x60000 ≤ a ∧ a < 0x61000) ∨ (0x31000 ≤ a ∧ a < 0x32000)
  then some (a % 0x1000 / 0x100) else none

/-- The group a field at a register address serves: of its own blocks always, of a channel while the group that holds
the channel in its run runs (R21, R390). -/
def State.groupAt (s : State) (a : Nat) : Option Nat :=
  match groupOfAddr a with
  | some g => some g
  | none =>
    match chOfAddr a with
    | some ch => s.groupOf ch
    | none => none

/-- The pattern set of a field (R390). -/
def State.setAt (s : State) (a : Nat) : Nat := (s.groupAt a).getD 16

/-! ## Writes -/

/-- The value a write leaves: a W1C field clears the bits written 1 (R5). -/
def FieldWrite.new (w : FieldWrite) (old : Nat) : Nat := if w.w1c then old - (old &&& w.val) else w.val

/-- Store a field by its key: the plain effect of an L or S write. -/
def State.putKey (s : State) (w : FieldWrite) (rst : Nat) : State :=
  { s with regs := Tab.put w.key (w.new (Tab.get rst w.key s.regs)) s.regs }

/-- The effect of a write of an L field of a group or of a channel: the enable and idle request of a lane act on the
lane, NOW starts a mask hold from course `c` (R114 to R116, R229); any other is stored. -/
def State.applyL (s : State) (g : Nat) (c : Option Nat) (w : FieldWrite) : State :=
  let a := w.key / 64
  match chOfAddr a with
  | some ch =>
    if w.key = F.LANE_CTRL_EN.key (ingB ch) then s.laneEn ch (w.val == 1)
    else if w.key = F.LANE_CTRL_IDLE_REQ.key (ingB ch) then
      if w.val = 1 then (s.putKey w 0).laneIdle ch else (s.putKey w 0).laneWake ch
    else s.putKey w 0
  | none =>
    if w.key = F.MASK_HOLD_NOW.key (gsegB g) then
      match c with
      | some k => if w.val = 1 then s.holdFrom g k else s
      | none => s
    else s.putKey w 0

/-- The reset value of the field with key `k`. -/
def rstOf (k : Nat) : Nat :=
  match lookReg (k / 64) with
  | some h =>
    match h.spec.fields.find? (fun f => f.fld.lo == k % 64) with
    | some f => resetAt f.fld (k / 64)
    | none => 0
  | none => 0

/-- The value a field key holds now. -/
def State.keyNow (s : State) (k : Nat) : Nat := Tab.get (rstOf k) k s.regs

/-- Courses before `c` keep the value that a field has now (R8, R387). -/
def State.keepOld (s : State) (c : Nat) (w : FieldWrite) : State :=
  if w.w1c then s else { s with oldL := s.oldL ++ [(w.key, Int.ofNat c - 1, s.keyNow w.key)] }

/-- Apply a write at the boundary that opens course `c`: earlier courses keep the value before it (R8, R387). -/
def State.applyAt (s : State) (g c : Nat) (w : FieldWrite) : State := (s.keepOld c w).applyL g (some c) w

/-- Apply the writes of one command at the boundary that opens course `c`: a new HOLD_LEN bears on the NOW of the same
command (R229). -/
def State.applyAll (s : State) (g c : Nat) (l : List FieldWrite) : State :=
  let now := fun (w : FieldWrite) => w.key == F.MASK_HOLD_NOW.key (gsegB g)
  forL (l.filter (fun w => !now w) ++ l.filter now) (fun w t => t.applyAt g c w) s

/-- Held and live writes in the order in which they were accepted (R371, R387). -/
def byAccept (h : List Held) (l : List LiveWrite) : List (List FieldWrite) :=
  (sortKey (fun (e : Nat × List FieldWrite) => (e.1, 0)) (h.map (fun x => (x.no, x.items)) ++ l.map (fun x => (x.no, x.items)))).map
    (·.2)

/-- The held and live writes of group `g` that govern from course `c` on, in their order of acceptance (R45, R371, R378,
R387). -/
def State.writesAt (s : State) (g c : Nat) : State :=
  let h := s.held.filter (fun h => h.grp == g && decide (h.course < c))
  let l := s.live.filter (fun w => w.grp == g && decide (w.stamp < Int.ofNat c))
  let s := { s with
    held := s.held.filter (fun h => !(h.grp == g && decide (h.course < c)))
    live := s.live.filter (fun w => !(w.grp == g && decide (w.stamp < Int.ofNat c))) }
  let s := s.setF cmdB F.CMD_STATUS_HELD s.held.length
  forL (byAccept h l) (fun w t => t.applyAll g c w) s

/-- The first course after the last one of a group that stops. -/
def State.afterLast (s : State) (g : Nat) : Nat :=
  match (s.g g).last with
  | some k => k + 1
  | none => 0

/-- Whether a field key belongs to the blocks of group `g` or of a channel of its run. -/
def State.keyServes (s : State) (g k : Nat) : Bool :=
  groupOfAddr (k / 64) == some g || (chOfAddr (k / 64)).any (s.inRun g)

/-- The course before which a field changed now keeps its value: the first after the last course of a group that has
stopped and still drains, where the field is one of its blocks or channels (R8, R34). -/
def State.drainsAt (s : State) (addr : Nat) : Option Nat :=
  if (s.groupAt addr).any s.running then none
  else ((List.range 16).find? (fun g => (s.g g).st == 3 && s.keyServes g (addr * 64))).map s.afterLast

/-- A stopped group has no boundary to come: what waits takes effect at once, and the courses still under way keep the
values before it (R8, R34); held commands of courses after the last are discarded (R379). -/
def State.writesStop (s : State) (g : Nat) : State :=
  let last : Int := match (s.g g).last with
    | some k => Int.ofNat k
    | none => -1
  let gone := s.held.filter (fun h => h.grp == g && decide (last < Int.ofNat h.course))
  let keep := s.held.filter (fun h => h.grp == g && !decide (last < Int.ofNat h.course))
  let l := s.live.filter (fun w => w.grp == g)
  let s := { s with
    held := s.held.filter (fun h => h.grp != g)
    live := s.live.filter (fun w => w.grp != g) }
  let s := s.setF cmdB F.CMD_STATUS_HELD s.held.length
  let s := forL (byAccept keep l) (fun w t => t.applyAll g (t.afterLast g) w) s
  forL gone (fun _ t =>
    ((t.satF cmdB F.CMD_HELD_DISCARD_COUNT 1).raise cmdB F.CMD_EVENT_HELD_EV 0xD2).log .heldDiscard 1 g
      (t.payReg (cmdB + 8))) s

/-! ## Stamped inputs -/

/-- The 16 bytes and what follows of a WRITE record (R670). -/
def writeData (modify : Bool) (set addr : Nat) (words : List Nat) : List Byte :=
  le 4 addr ++ le 2 words.length ++ le 1 set ++ le 1 (if modify then 1 else 0) ++ (words.map (le 4)).flatten

/-- A stamped input is consumed at its effective course (R33, R42): its journal record and its effect. One whose
effective course is −1 governs from course 0 (R714). -/
def State.consumeOne (s : State) (i : Stamped) : State :=
  let lag := i.eff - i.stamp
  let code := if i.dev then 0xFF else i.grp
  match i.what with
  | .aux c y3 =>
    let s := if s.lampUses i.grp c then s.jrn 0x02 i.grp 3 c lag i.stamp (le 4 (ofInt 32 y3)) else s
    forL (s.runChans i.grp) (fun ch t => t.setCh ch { t.ch ch with lampQ := (t.ch ch).lampQ ++ [(i.eff, c, y3)] }) s
  | .segHold => (s.jrn 0x03 i.grp 4 i.src lag i.stamp []).holdFrom i.grp i.eff.toNat
  | .write session modify set addr words _ => s.jrn 0x04 code 5 session lag i.stamp (writeData modify set addr words)
  | .run session op flags => s.jrn 0x05 code 5 session lag i.stamp [BitVec.ofNat 8 op, BitVec.ofNat 8 flags]
  | .thermal limits => forL limits (fun l t => t.jrn 0x09 code 2 i.src lag i.stamp [BitVec.ofNat 8 l]) s

/-- The inputs of effective course `k` of group `g` are consumed, in ascending class and source, those of one source in the
order of their creation (R33, R45, R371). -/
def State.consumeAt (s : State) (g : Nat) (k : Int) : State :=
  let l := s.arrived.filter (fun i => i.grp == g && i.eff == k)
  let s := { s with arrived := s.arrived.filter (fun i => !(i.grp == g && i.eff == k)) }
  forL (sortKey (fun (i : Stamped) => (i.cls, i.src)) (sortKey (fun (i : Stamped) => (i.no, 0)) l)) (fun i t => t.consumeOne i) s

/-- The first course of group `g` that has not closed. -/
def State.nextClose (s : State) (g : Nat) : Nat :=
  match (s.g g).closed with
  | some k => k + 1
  | none => 0

/-- An input that belongs to no group is stamped against the device course view; with no running group it takes effect at
once (R32). -/
def State.submitDev (s : State) (cls src : Nat) (what : Payload) : State :=
  match s.followed with
  | some g => { s with flight := s.flight ++ [(⟨g, cls, src, s.stampDev, 0, what, true, s.accepts⟩ : Stamped)] }
  | none => s.consumeOne ⟨0, cls, src, s.stampDev, s.stampDev, what, true, s.accepts⟩

/-- The course before the first one that an L write governs (R8, R45, R377): its stamp, or, where it is so late that the
course after that has closed, the one before its effective course (R39; log entry 48). -/
def beforeGoverned (stamp eff : Int) : Int := max stamp (eff - 1)

/-- The L fields of a write that has arrived govern from the course after `before` on: they wait for that boundary, or, where
it has passed or will not come, are applied at once. -/
def State.takeWrite (s : State) (g : Nat) (before : Int) (items : List FieldWrite) (no : Nat) : State :=
  let c := (before + 1).toNat
  let passed := match (s.g g).openC with
    | some o => decide (c ≤ o)
    | none => false
  if items.isEmpty then s
  else if passed || (s.g g).st != 2 then s.applyAll g c items
  else { s with live := s.live ++ [(⟨g, before, items, no⟩ : LiveWrite)] }

/-- The L fields that a stamped input writes. -/
def Stamped.items (i : Stamped) : List FieldWrite :=
  match i.what with
  | .write _ _ _ _ _ l => l
  | _ => []

/-- Remove the first element that a test picks. -/
def pick {α : Type} (p : α → Bool) : List α → Option (α × List α)
  | [] => none
  | x :: xs => if p x then some (x, xs) else
    match pick p xs with
    | some (y, ys) => some (y, x :: ys)
    | none => none

/-- The effective course of an input that arrives now (R38, R39, R714; log entry 48): its stamp while that course has not
closed, else the first course that has not; −1 stays until course 0 has closed. -/
def State.effOf (s : State) (i : Stamped) : Int :=
  match (s.g i.grp).closed with
  | none => i.stamp
  | some k => if i.stamp ≤ Int.ofNat k then Int.ofNat k + 1 else i.stamp

/-- Whether a course of group `g` whose inputs are still to be consumed has number `k`: none after the last course of a
group that has stopped; −1 stands for the boundary that opens course 0. -/
def State.awaits (s : State) (g : Nat) (k : Int) : Bool :=
  let r := s.g g
  if k < 0 then r.openC.isNone && (r.st == 1 || r.st == 2)
  else r.st == 2 || r.last.any (fun l => decide (k ≤ Int.ofNat l))

/-- A stamped input reaches its consumer (R38 to R40, R714): on time before the close of its course, else late in the
first course that has not closed, which is counted; with no course to come it is consumed at once. -/
def State.arrive (s : State) (i : Stamped) : State :=
  let eff := s.effOf i
  let waits := s.awaits i.grp eff
  let s := if i.stamp < eff then s.satF (crsB i.grp) (F.CRS_LATE_COUNT.nth (i.cls - 1)) 1 else s
  let s := if i.stamp < eff && waits then s.cswSet i.grp eff.toNat cswLate else s
  let s := s.takeWrite i.grp (beforeGoverned i.stamp eff) i.items i.no
  if waits then { s with arrived := s.arrived ++ [{ i with eff := eff }] } else s.consumeOne { i with eff := eff }

/-- Every input of a group that is on its crossing arrives. -/
def State.flightEnds (s : State) (g : Nat) : State :=
  forL (s.flight.filter (fun i => i.grp == g)) (fun i t => t.arrive i)
    { s with flight := s.flight.filter (fun i => i.grp != g) }

/-- STAMPED_INPUT_ARRIVAL: the oldest input of a class and source that is on its crossing arrives (R33, R38 to R40). -/
def execStampedInputArrival (cls : Fin 8) (source : Nat) (s : State) : Host.Outcome State Fault Refusal :=
  .next (match pick (fun i => i.cls == cls.val && i.src == source) s.flight with
    | some (i, rest) => { s with flight := rest }.arrive i
    | none => s)

/-! ## Pattern sets -/

/-- The P fields of a bank that belong to a set. -/
def State.ofSet (s : State) (set : Nat) (bank : List (Nat × Nat)) : List (Nat × Nat) :=
  bank.filter (fun e => s.setAt (e.1 / 64) == set)

/-- Put the fields of a list into a bank. -/
def putAll (l : List (Nat × Nat)) (bank : List (Nat × Nat)) : List (Nat × Nat) :=
  l.foldl (fun b e => Tab.put e.1 e.2 b) bank

/-- A bank without the fields of a set. -/
def State.dropSet (s : State) (set : Nat) (bank : List (Nat × Nat)) : List (Nat × Nat) :=
  bank.filter (fun e => s.setAt (e.1 / 64) != set)

/-- The select bit of a set flips (R392, R398): the two banks change places. -/
def State.flip (s : State) (set : Nat) : State :=
  { s with
    act := putAll (s.ofSet set s.shd) (s.dropSet set s.act)
    shd := putAll (s.ofSet set s.act) (s.dropSet set s.shd) }

/-- The shadow bank of a set becomes a copy of its active bank (R404). -/
def State.copyBank (s : State) (set : Nat) : State :=
  { s with shd := putAll (s.ofSet set s.act) (s.dropSet set s.shd) }

/-- Whether a field key belongs to the blocks that a copy-back copies: those that the set served at the swap. -/
def CopyBack.covers (e : CopyBack) (k : Nat) : Bool :=
  match groupOfAddr (k / 64) with
  | some g => g == e.set
  | none => match chOfAddr (k / 64) with
    | some ch => e.chans.contains ch
    | none => e.set == 16

/-- Copy-back: the other bank of every field of the blocks becomes a copy of the active one (R400). -/
def State.copyBack (s : State) (e : CopyBack) : State :=
  { s with shd := putAll (s.act.filter (fun f => e.covers f.1)) (s.shd.filter (fun f => !e.covers f.1)) }

/-- The value of a P field in a bank. -/
def bankAt (bank : List (Nat × Nat)) (k : Nat) : Nat := Tab.get (rstOf k) k bank

/-- The P fields that a swap of a set changes keep their old value for the courses before the swap course (R399): `c` of
the group that runs, or the first after the last course of one that drains. -/
def State.keepBank (s : State) (set : Nat) (c : Int) : State :=
  let ks := (((s.ofSet set s.act) ++ s.ofSet set s.shd).map (·.1)).eraseDups.filter (fun k => bankAt s.act k != bankAt s.shd k)
  let from' (k : Nat) : Option Int := if s.running set then some c else (s.drainsAt (k / 64)).map Int.ofNat
  { s with oldL := s.oldL ++ ks.filterMap (fun k => (from' k).map (fun d => (k, d - 1, bankAt s.act k))) }

/-- The channels whose blocks a set serves (R390). -/
def State.setChans (s : State) (set : Nat) : List Nat :=
  (List.range 128).filter (fun ch => (s.groupOf ch).getD 16 == set)

/-- The swap of a set: the flip, its journal record, and a gauge request of each double-mode channel whose SEL has
changed (R163, R398, R403). Requests carry course `c`. -/
def State.swapNow (s : State) (set : Nat) (c : Int) : State :=
  let sel := fun (t : State) (ch : Nat) => t.getF (corrB ch) F.GAUGE_CFG_SEL
  let chs := s.setChans set
  let old := chs.map (sel s)
  let run := s.running set
  let s := (s.keepBank set c).flip set
  let s := s.setF (patB set) F.PAT_STATUS_PHASE 2
  let s := { s with copying := s.copying.filter (fun (e : CopyBack) => e.set != set) ++ [(⟨set, chs, c, !run, !run⟩ : CopyBack)] }
  let s := s.jrn 0x06 (if set < 16 then set else 0xFF) 0 set 0 c []
  forL (chs.zip old) (fun e t =>
    if sel t e.1 != e.2 && (t.groupOf e.1).isSome && t.gaugeDouble e.1 then t.gaugeReq e.1 c (t.reqTemp e.1 c) [] else t) s

/-- A pending swap of a set that is due at course `c` (R398). -/
def State.swapDue (s : State) (set c : Nat) : State :=
  if s.getF (patB set) F.PAT_STATUS_PHASE = 1 ∧ s.getF (patB set) F.PAT_SWAP_COURSE_COURSE = c then s.swapNow set c
  else s

/-- A pending swap is cancelled (R402). -/
def State.swapCancel (s : State) (set : Nat) : State :=
  let s := s.setF (patB set) F.PAT_STATUS_PHASE 0
  let s := s.raise (patB set) F.PAT_STATUS_CANCEL_EV 0xD4
  s.logReg .swapCancel 2 (if set < 16 then set else 0xFF) (patB set)

/-- Exit from IDLE (R472): clocks ungated, every idle lane woken. -/
def State.idleEnd (s : State) : State :=
  if s.getF pwrB F.PWR_STATE_STATE = 2 then
    let s := (s.setF pwrB F.PWR_STATE_STATE 1).clkShow
    forN 128 (fun l t => t.laneWake l) s
  else s

end Sys2Proof.Machine
end

