-- ==== Sys2Proof/Machine/Courses.lean ====
section
/-!
DEFINITION. Courses from motion (02_courses): position channels in their three modes, the course divider and the
course timer, the trigger and the close of a course, COURSESYNC, and the checkpoint that replay writes at a boundary
(R671). The commands ENCODER_TRANSITION to COURSE_CLOSE.
-/

namespace Sys2Proof.Machine

/-! ## Checkpoints (R671) -/

/-- The state that governs a course of a group (R671): both banks and the other fields of its blocks and channels, and
its records of correction, seam, segmentation, tally and history, its run store, and the descriptors not yet taken. -/
structure GroupImage where
  grp : Nat
  course : Nat
  act : List (Nat × Nat)
  shd : List (Nat × Nat)
  regs : List (Nat × Nat)
  chans : List (Nat × Chan)
  seams : List (Nat × SeamCh)
  seamG : SeamGrp
  segG : SegGrp
  tal : TalGrp
  hist : List Hist
  store : List Host.Cell
  descs : List (List Byte)
  oldL : List (Nat × Int × Nat)

/-- The image of group `g` at the boundary before course `c`. -/
def State.imageOf (s : State) (g c : Nat) : GroupImage :=
  let a := s.getF (gsegB g) F.RS_BASE_ADDR
  { grp := g
    course := c
    act := s.ofSet g s.act
    -- copy-back alters no result (R403): an image shows the bank that it leaves
    shd := s.ofSet g (if s.getF (patB g) F.PAT_STATUS_PHASE = 2 then s.act else s.shd)
    regs := s.ofSet g s.regs
    chans := (s.runChans g).map (fun ch => (ch, s.ch ch))
    seams := (s.runChans g).map (fun ch => (ch, s.sm ch))
    seamG := s.smG g
    segG := s.sg g
    tal := Tab.get {} g s.tal
    hist := (Tab.get [] g s.hist).filter (fun h => decide (c ≤ h.course + 65536))
    store := s.mem.filter (fun m => decide (a ≤ m.1) && decide (m.1 < a + s.getF (gsegB g) F.RS_CFG_CHUNKS * 4096))
    descs :=
      let d := s.getF (gsegB g) F.DESC_RING_RING
      chunks 64 (s.avail d (gtalB g)) (s.entriesAt d (s.cursorOf d (gtalB g)) (s.avail d (gtalB g)))
    oldL := s.oldL.filter (fun o => s.setAt (o.1 / 64) == g) }

/-- A checkpoint before course `c`, where one is due (R671), as one compressed stream (R541). It is skipped where it has no room,
and where every lane of the hub codec serves host jobs (R559; DESIGN CHOICE, log entry 19). -/
def State.checkpoint (s : State) (g c : Nat) : State :=
  if s.armed && (s.runChans g).any s.capBit && c % 2 ^ s.getF repB F.REPLAY_CTRL_CKPT_LOG == 2 && s.hkSpare 8 then
    let ring := s.getF repB F.CKPT_RING_RING
    let bytes := Config.ckptBytes (s.imageOf g c)
    let blocks := (chunks 65536 bytes.length bytes).map hankBlock
    let item := joinBlocks blocks
    let s := s.hkCount 8 blocks.length bytes.length item.length
    let ix := ((s.ring ring).prod + s.reserved ring) % 2 ^ 32
    let r := s.repWrite ring item 2 g c
    if r.2 then r.1.jrn 0x0D g 0 g 0 (Int.ofNat c) (le 8 ix) else r.1
  else s

/-- The freeze instant comes at the boundary at which the device course view reaches T + POST (R673). -/
def State.freezeDue (s : State) : State :=
  if s.getF repB F.REPLAY_STATUS_STATE = 2 ∧ s.rep.trig + Int.ofNat (s.getF repB F.REPLAY_POST_POST) ≤ s.stampDev then
    s.jrnFlush.freezeInst
  else s

/-! ## COURSESYNC (R76 to R78) -/

/-- Whether course `c` is one at which COURSESYNC pulses. -/
def State.syncCourse (s : State) (c : Nat) : Bool :=
  c == 0 || (s.getF syncB F.SYNC_CTRL_SYNC_LOG != 0 && c % 2 ^ s.getF syncB F.SYNC_CTRL_SYNC_LOG == 0)

/-- A check has failed (R78). -/
def State.syncSlip (s : State) : State :=
  let g := s.getF syncB F.SYNC_CTRL_SYNC_GROUP
  (s.raise (crsB g) F.CRS_STATUS_SYNC_SLIP 0xD0).logReg .syncSlip g g (crsB g + 0x28)

/-- The trigger of course `c` of the served group: in DRIVE mode the 40 ns pulse; in FOLLOW mode the end of a check
that waits for this course. -/
def State.syncTrigger (s : State) (g c : Nat) : State :=
  let mode := s.getF syncB F.SYNC_CTRL_SYNC_MODE
  if s.getF syncB F.SYNC_CTRL_SYNC_GROUP != g || !s.syncCourse c then s
  else if mode = 1 then (s.emit (.pulse .coursesync 40)).fire 0xA8
  else if mode = 2 then
    let s := { s with sync := { s.sync with trig := some (c, s.now) } }
    match s.sync.due with
    | some (k, t) =>
      if k = c then
        let s := { s with sync := { s.sync with due := none } }
        if s.now - t ≤ s.getF syncB F.SYNC_CTRL_SYNC_TOL then s else s.syncSlip
      else s
    | none => s
  else s

/-- A check whose course has not come within the tolerance. -/
def State.syncExpire (s : State) : State :=
  match s.sync.due with
  | some (_, t) =>
    if s.getF syncB F.SYNC_CTRL_SYNC_TOL < s.now - t then { s with sync := { s.sync with due := none } }.syncSlip else s
  | none => s

/-! ## The trigger of a course -/

/-- Both sets for which a boundary of group `g` counts: its own, and set 16 while the device course view follows it. -/
def State.swapsAt (s : State) (g c : Nat) : State :=
  let s := s.swapDue g c
  if s.followed = some g then s.swapDue 16 c else s

/-- Everything that follows the opening of course `c`: history, TRIG blocks, the memory source, requests and counters
that the trigger drives. -/
def State.courseOpened (s : State) (g c : Nat) (enc : Int) : State :=
  let s := if c = 0 then s.setI (gtalB g) F.ENC0 enc else s
  let s := s.histWrite g c enc
  let s := s.seamJoins g c
  let s := s.segJoins g c
  let s := s.sendTrigs g c
  let s := s.msrcTrigger g c
  let s := s.tempCheck g c
  let s := s.descWait g
  let s := s.holdShow g
  let s := s.syncTrigger g c
  s.freezeDue

/-- The trigger of the next course of group `g` with its encoder sample (R30, R36, R43, R45, R62, R65, R398): the
boundary before it in the order of R45, then the course itself. -/
def State.trigger (s : State) (g : Nat) (enc : Int) : State :=
  let c := match (s.g g).openC with
    | some k => k + 1
    | none => 0
  let s := if c = 0 then s.consumeAt g (-1) else s
  let s := s.gaugeTrigger g c
  let s := s.swapsAt g c
  let s := s.writesAt g c
  let s := s.members g c
  let s := s.checkpoint g c
  let s := s.setG g { s.g g with openC := some c, lastTrig := some s.now, dueC := none }
  let s := s.setF (crsB g) F.CRS_COUNT_COURSE c
  let s := { s with hist := Tab.put g (Tab.get [] g s.hist ++ [(⟨c, enc, s.sec, s.ns⟩ : Hist)]) s.hist }
  s.courseOpened g c enc

/-- A course falls due (R67, R68): not before 500 cycles after the trigger before it, and at most one may wait. -/
def State.issueCourse (s : State) (g : Nat) (enc : Int) : State :=
  let r := s.g g
  if r.dueC.isSome then s.satF (crsB g) F.CRS_DROPS_DROPS 1
  else
    let early := match r.lastTrig with
      | some t => decide (s.now - t < 500)
      | none => false
    if early then (s.raise (crsB g) F.CRS_STATUS_OVERRATE (0x41 + 2 * g)).setG g { r with dueC := some enc }
    else s.trigger g enc

/-! ## The divider (R61 to R68) -/

def State.srcOf (s : State) (g : Nat) : Nat := s.getF (crsB g) F.CRS_CTRL_SRC
def State.timerOn (s : State) (g : Nat) : Bool := s.flag (crsB g) F.CRS_CTRL_TIMER
def State.hwm (s : State) (g : Nat) : Int := s.getI (crsB g) F.CRS_HWM_HWM

/-- The divider of group `g` in the present cycle (R63): HWM advances by one count at most. A count above the HWM of a
running group ends IDLE (R472). -/
def State.divideOnce (s : State) (g : Nat) : State :=
  if s.running g && !s.rerunG g && !s.timerOn g && s.posValid (s.srcOf g) && decide (s.hwm g < s.posCount (s.srcOf g)) &&
      (s.g g).counted != some s.now then
    let s := s.idleEnd
    let h := s.hwm g + 1
    let s := s.setI (crsB g) F.CRS_HWM_HWM h
    let r := { s.g g with counted := some s.now }
    let acc := r.acc + s.getF (crsB g) F.CRS_N_N
    let d := s.getF (crsB g) F.CRS_D_D
    if d ≤ acc then (s.setG g { r with acc := acc - d }).issueCourse g h else s.setG g { r with acc := acc }
  else s

/-- The running groups whose divider position channel `p` drives. -/
def State.drivenBy (s : State) (p : Nat) : List Nat :=
  s.runningGroups.filter (fun g => !s.timerOn g && s.srcOf g == p)

/-- The start of the courses of group `g` (R62, R66); the pulses of COURSESYNC are counted from it on (R78, log entry 49). -/
def State.courseStart (s : State) (g : Nat) : State :=
  let b := crsB g
  let s := s.setI b F.CRS_HWM_HWM (s.posCount (s.srcOf g))
  let s := s.setF b F.CRS_COUNT_COURSE 0
  let s := s.setG g { s.g g with
    acc := s.getF b F.CRS_PHASE_PHASE_INIT
    counted := none
    openC := none
    lastTrig := none
    dueC := none
    closed := none
    last := none }
  let s := { s with hist := Tab.del g s.hist, rezero := s.rezero.filter (fun r => r.1 != g) }
  let s := if s.getF syncB F.SYNC_CTRL_SYNC_GROUP = g then { s with sync := {} } else s
  if !s.timerOn g && !s.posValid (s.srcOf g) then s.raise b F.CRS_STATUS_SRC_FAULT (0x40 + 2 * g) else s

/-! ## Position channels -/

def State.px (s : State) (p : Nat) : PosCh := Tab.get {} p s.pos
def State.setPx (s : State) (p : Nat) (x : PosCh) : State := { s with pos := Tab.put p x s.pos }
def State.posMode (s : State) (p : Nat) : Nat := s.getF (posB p) F.POS_CTRL_MODE

/-- The channel runs while RUN = 1 and MODE is not off (R47), and PSCLK runs (R456). -/
def State.posRun (s : State) (p : Nat) : Bool := s.clk 0 && s.flag (posB p) F.POS_CTRL_RUN && s.posMode p != 0

/-- Set a flag of POS_STATUS, with its producer (R81, R634). -/
def State.posFlag (s : State) (p : Nat) (f : Fld) : State := s.raise (posB p) f (8 * p + f.lo)

/-- VALID changes; the groups that an invalid channel drives set SRC_FAULT (R66). -/
def State.setValid (s : State) (p : Nat) (v : Bool) : State :=
  let was := s.posValid p
  let s := s.setF (posB p) F.POS_STATUS_VALID (if v then 1 else 0)
  if was && !v then forL (s.drivenBy p) (fun g t => t.raise (crsB g) F.CRS_STATUS_SRC_FAULT (0x40 + 2 * g)) s else s

/-- POS_COUNT moves by `d` counts (R47): the compare units and the dividers of the channel follow it. -/
def State.posMove (s : State) (p : Nat) (d : Int) : State :=
  if d = 0 then s
  else
    let s := s.setI (posB p) F.POS_COUNT_COUNT (s.posCount p + d)
    let s := s.setPx p { s.px p with dir := if d < 0 then -1 else 1 }
    let s := s.cmpMove p
    forL (s.drivenBy p) (fun g t => t.divideOnce g) s

/-- A value for a signed register of 32 bits; one that does not fit is a free value (log entry 6). -/
def State.put32 (s : State) (b : Nat) (f : Fld) (v : Int) : State :=
  if -(2 ^ 31) ≤ v ∧ v < 2 ^ 31 then s.setI b f v
  else (s.setF b f (Config.freeBits 32 s.freeCtr).toNat).tickFree

/-- An update of POS_SPEED (R56, R60, R317). -/
def State.posSpeed (s : State) (p : Nat) (v : Int) : State := (s.put32 (posB p) F.POS_SPEED_SPEED v).cmpSpeed p

/-- The place of a state in the forward order: 00, A, AB, B in quadrature (log entry 13), 001 to 101 in Hall mode. -/
def quadPlace (pins : Nat) : Nat := [0, 1, 3, 2].getD (pins % 4) 0
def hallPlace (pins : Nat) : Option Nat := [none, some 0, some 2, some 1, some 4, some 5, some 3, none].getD (pins % 8) none

/-- The sign DIR gives to the forward sense. -/
def State.posSign (s : State) (p : Nat) : Int := if s.flag (posB p) F.POS_CTRL_DIR then -1 else 1

/-- A change of the filtered A/B state in cycle `now` (R50 to R52). -/
def State.quadChange (s : State) (p pins now : Nat) : State :=
  let x := s.px p
  let d := (quadPlace pins + 4 - quadPlace x.pins) % 4
  let s := s.setPx p { x with pins := pins }
  if d = 0 then s
  else if d = 2 then s.posFlag p F.POS_STATUS_QUAD_ERR
  else
    let fast := match x.lastCount with
      | some t => decide (now - t < 5)
      | none => false
    let s := s.setPx p { s.px p with lastCount := some now }
    let s := if fast then s.posFlag p F.POS_STATUS_OVERSPEED else s
    s.posMove p (if d = 1 then s.posSign p else -s.posSign p)

/-- A change between two valid Hall states `d` steps on, in cycle `now` (R53, R54, R56). The quotient of POS_SPEED truncates, and after a
change of three steps it keeps the sign of the last motion (log entry 47). -/
def State.hallStep (s : State) (p d now : Nat) : State :=
  let x := s.px p
  let n : Int := (if d = 1 then 1 else if d = 2 then 2 else if d = 4 then -2 else if d = 5 then -1 else 0) * s.posSign p
  let s := if d = 2 ∨ d = 3 ∨ d = 4 then s.posFlag p F.POS_STATUS_HALL_SKIP else s
  let s := s.setPx p { x with lastCount := some now }
  let s := s.posMove p n
  let dir := if n < 0 then -1 else if 0 < n then 1 else x.dir
  match x.lastCount with
  | some t => s.posSpeed p (dir * Int.ofNat (250000000 / max 1 (now - t)))
  | none => s

/-- A change of the filtered U, V, W state in cycle `now` (R53 to R55). For POS_SPEED only a change between valid states
counts as a state change (log entry 47). -/
def State.hallChange (s : State) (p pins now : Nat) : State :=
  let x := s.px p
  let s := s.setPx p { x with pins := pins }
  match hallPlace pins with
  | none => (s.posFlag p F.POS_STATUS_HALL_STATE).setValid p false
  | some b =>
    let s := (s.setPx p { s.px p with hall := pins }).setValid p true
    match hallPlace x.hall with
    | none => s
    | some a => if a = b then s else s.hallStep p ((b + 6 - a) % 6) now

/-! ### The glitch filter (R48) -/

/-- How many samples in a row a level must hold to be accepted. -/
def State.filterNeed (s : State) (p : Nat) : Nat := s.getF (posB p) F.POS_CTRL_FILT + 1

/-- For how many samples pin `i` has held its level in `raw` before the present samples. -/
def PosCh.heldAt (x : PosCh) (raw i : Nat) : Nat := if bit x.raw i == bit raw i then x.held.getD i 0 else 0

/-- The pins whose level in `raw` is accepted at sample `k` of the present ones. -/
def PosCh.acceptAt (x : PosCh) (need raw k : Nat) : List Nat :=
  (List.range 3).filter (fun i => bit raw i != bit x.pins i && need - x.heldAt raw i == k)

/-- The changes of the filtered state while the pins are at `raw` for `n` samples: the sample of each and the pins accepted
there. Each pin passes its own filter. -/
def PosCh.accepted (x : PosCh) (need raw n : Nat) : List (Nat × List Nat) :=
  (List.range (min n need + 1)).filterMap (fun k =>
    let l := x.acceptAt need raw k
    if l.isEmpty then none else some (k, l))

/-- The filtered state after the pins of a list have changed. -/
def flipPins (pins : Nat) (l : List Nat) : Nat := l.foldl (fun v i => if bit v i then clrBit v i else setBit v i) pins

/-- The filtered state of the pins changes in cycle `now`: a running channel decodes it (R47, R50 to R55). -/
def State.pinsTo (s : State) (p pins now : Nat) : State :=
  if s.posRun p && s.posMode p == 1 then s.quadChange p pins now
  else if s.posRun p && s.posMode p == 2 then s.hallChange p pins now
  else s.setPx p { s.px p with pins := pins }

/-- ENCODER_TRANSITION: the input pins of a position channel have held a new state for some PSCLK samples (R47 to R55), with
`pins` that state: A in bit 0 and B in bit 1 in quadrature mode, U, V, W from bit 2 down in Hall mode (log entry
13). The row comes at the last of the samples. -/
def execEncoderTransition (p : Fin 8) (pins : PinSample) (s : State) : Host.Outcome State Fault Refusal :=
  let x := s.px p
  let raw := pins.pins.toNat
  let l := x.accepted (s.filterNeed p) raw pins.samples
  let s := s.setPx p { x with
    raw := raw
    held := (List.range 3).map (fun i => min 16 (x.heldAt raw i + pins.samples)) }
  .next (forL l (fun e t => t.pinsTo p (flipPins (t.px p).pins e.2) (t.now - (pins.samples - e.1))) s)

/-- HALL_SPEED_TIMEOUT: no change for 2^24 cycles (R56). -/
def execHallSpeedTimeout (p : Fin 8) (s : State) : Host.Outcome State Fault Refusal :=
  .next (if s.posRun p && s.posMode p == 2 then s.posSpeed p 0 else s)

/-- RUN rises (R47, R60, R70): counting resumes from the held value; windows, index and serial references begin
anew. -/
def State.posStart (s : State) (p : Nat) : State :=
  let s := s.setF (posB p) F.POS_CTRL_RUN 1
  let x := s.px p
  let s := s.setPx p { x with
    hall := x.pins
    lastCount := none
    serRef := none
    serAt := none
    winPos := s.posCount p
    idx := none }
  let s := s.setF (posB p) F.POS_SPEED_SPEED 0
  let bad := s.posMode p == 2 && (hallPlace x.pins).isNone
  let s := if bad then s.posFlag p F.POS_STATUS_HALL_STATE else s
  s.setValid p ((s.posMode p == 1 || s.posMode p == 2) && !bad)

/-- RUN falls (R47): the channel is stopped and its source is invalid. -/
def State.posStop (s : State) (p : Nat) : State := (s.setF (posB p) F.POS_CTRL_RUN 0).setValid p false

/-- POS_RUN_SET (R47). -/
def execPosRunSet (p : Fin 8) (s : State) : Host.Outcome State Fault Refusal :=
  .next (if s.flag (posB p) F.POS_CTRL_RUN then s else s.posStart p)

/-- SER_FRAME_REQUEST (R57): the sample instant and the course view are latched at the first SCK edge. -/
def execSerFrameRequest (p : Fin 8) (s : State) : Host.Outcome State Fault Refusal :=
  .next (if s.posRun p && s.posMode p == 3 then
      (s.setPx p { s.px p with serAt := some (s.now, s.stampDev) }).emit
        (.pulse (.posSck p) (4 * (s.getF (posB p) F.SER_CFG_SCK_DIV + 1)))
    else s)

/-- CRC_LEN in bits: code 0 is 16 (R82). -/
def State.serCrcLen (s : State) (p : Nat) : Nat :=
  if s.getF (posB p) F.SER_CFG_CRC_LEN = 0 then 16 else s.getF (posB p) F.SER_CFG_CRC_LEN

/-- The CRC of a serial frame: error bit and position (R58). -/
def State.serCrc (s : State) (p : Nat) (err : Bool) (pos : Nat) : Nat :=
  let n := s.serCrcLen p
  crcMsb n (s.getF (posB p) F.SER_POLY % 2 ^ n) (2 ^ n - 1) (err :: bitsMsb (s.getF (posB p) F.SER_CFG_WIDTH) pos)

/-- A good frame (R59): the first sets the reference, each later one moves POS_COUNT in the sense that DIR gives (R47; log
entry 47). -/
def State.serGood (s : State) (p pos : Nat) : State :=
  let w := s.getF (posB p) F.SER_CFG_WIDTH
  let x := s.px p
  let s := (s.setPx p { x with serRef := some pos }).setValid p true
  match x.serRef with
  | some r => s.posMove p (s.posSign p * toInt w (pos + 2 ^ w - r))
  | none => s

/-- SER_FRAME_RECEIVED (R58, R59): error bit, position and CRC of the frame requested. -/
def execSerFrameReceived (p : Fin 8) (err : Bool) (pos : BitVec 48) (crc : BitVec 16) (s : State) :
    Host.Outcome State Fault Refusal :=
  .next (if s.posRun p && s.posMode p == 3 && (s.px p).serAt.isSome then
      let s := s.setPx p { s.px p with serAt := none }
      let n := s.serCrcLen p
      let v := pos.toNat % 2 ^ s.getF (posB p) F.SER_CFG_WIDTH
      let badCrc := decide (s.serCrc p err v ≠ crc.toNat % 2 ^ n)
      let s := if badCrc then s.posFlag p F.POS_STATUS_SER_CRC else s
      let s := if err then s.posFlag p F.POS_STATUS_SER_ERRBIT else s
      if badCrc || err then s.setValid p false else s.serGood p v
    else s)

/-- SER_TIMEOUT: no start bit within SER_TMO periods (R58). -/
def execSerTimeout (p : Fin 8) (s : State) : Host.Outcome State Fault Refusal :=
  .next (if s.posRun p && s.posMode p == 3 && (s.px p).serAt.isSome then
      ((s.setPx p { s.px p with serAt := none }).posFlag p F.POS_STATUS_SER_TIMEOUT).setValid p false
    else s)

/-- SPEED_WINDOW_END: the end of a window of 2^18 cycles (R60). -/
def execSpeedWindowEnd (p : Fin 8) (s : State) : Host.Outcome State Fault Refusal :=
  .next (if s.posRun p && s.posMode p != 2 then
      let d := s.posCount p - (s.px p).winPos
      (s.setPx p { s.px p with winPos := s.posCount p }).posSpeed p (truncDiv (d * 250000000) (2 ^ 18))
    else s)

/-- The re-zero of R73: POS_COUNT and the HWM of every group sourced from the channel take the same correction, which the
courses of a running or draining group up to now have not had, with TIMER = 0 or 1 (R322, R75). -/
def State.posRezero (s : State) (p : Nat) (d : Int) : State :=
  let s := s.setI (posB p) F.POS_COUNT_COUNT (s.posCount p + d)
  let s := forL ((List.range 16).filter (fun g => s.srcOf g == p)) (fun g t =>
    let next : Int := match (t.g g).openC with
      | some k => Int.ofNat k + 1
      | none => 0
    let t := t.setI (crsB g) F.CRS_HWM_HWM (t.hwm g + d)
    if 2 ≤ (t.g g).st then { t with rezero := t.rezero ++ [(g, next, d)] } else t) s
  s.cmpRezero p d

/-- An index event of a channel (R70 to R73): it sets the reference or is checked. -/
def State.indexEvent (s : State) (p : Nat) : State :=
  let x := s.px p
  let pos := s.posCount p
  match x.idx with
  | none => s.setPx p { x with idx := some (pos, x.dir) }
  | some (prev, dir) =>
    let dist := pos - prev
    let off := x.dir * dist - Int.ofNat (s.getF (posB p) F.IDX_PERIOD)
    if dir ≠ x.dir ∨ off.natAbs ≤ s.getF (posB p) F.IDX_CFG_IDX_TOL then s.setPx p { x with idx := some (pos, x.dir) }
    else
      let b := posB p
      let s := if s.flag b F.POS_STATUS_INDEX_SLIP then s
        else (s.put32 b F.IDX_ERR dist).setI b F.IDX_ERR_POS pos
      let s := (s.posFlag p F.POS_STATUS_INDEX_SLIP).logReg .indexSlip p 0xFF (b + 0x10)
      if s.flag b F.POS_CTRL_IDX_MODE then
        let new := prev + x.dir * Int.ofNat (s.getF b F.IDX_PERIOD)
        (s.setPx p { s.px p with idx := some (new, x.dir) }).posRezero p (new - pos)
      else s.setPx p { s.px p with idx := some (pos, x.dir) }

/-- The edge of Z that ZPOL selects (R69): the level after it. -/
def State.zLevel (s : State) (p : Nat) : Bool := !s.flag (posB p) F.POS_CTRL_ZPOL

/-- The raw level of Z over `n` samples (R48): its rising edge, unfiltered, is producer 0xA0 + p (R634). -/
def State.zRaw (s : State) (p : Nat) (z : Bool) (n : Nat) : State :=
  let x := s.px p
  let s := s.setPx p { x with zRaw := z, zHeld := min 16 (if x.zRaw == z then x.zHeld + n else n) }
  if z && !x.zRaw then s.fire (0xA0 + p) else s

/-- INDEX_EVENT: Z has held a level for some PSCLK samples (R48). An accepted edge of the polarity that ZPOL selects is an
index event (R69). -/
def execIndexEvent (e : ZSample) (s : State) : Host.Outcome State Fault Refusal :=
  .next (let s := s.zRaw e.p e.z e.samples
    if (s.px e.p).zHeld < s.filterNeed e.p then s
    else
      let edge := (s.px e.p).z != e.z && e.z == s.zLevel e.p
      let s := s.setPx e.p { s.px e.p with z := e.z }
      if edge && s.posRun e.p && s.flag (posB e.p) F.IDX_CFG_IDX_EN then s.indexEvent e.p else s)

/-! ## Courses -/

/-- COURSE_TIMER_EXPIRY (R74, R75): the sample is POS_COUNT of SRC while that is valid, else zero. -/
def execCourseTimerExpiry (g : Fin 16) (s : State) : Host.Outcome State Fault Refusal :=
  .next (if s.clk 0 && s.running g && s.timerOn g && !s.rerunG g then
      s.trigger g (if s.posValid (s.srcOf g) then s.posCount (s.srcOf g) else 0)
    else s)

/-- OVERRATE_DELAY_END: 2.000 µs have passed since the trigger before the pending course (R67); it triggers even if SRC has
become invalid since it fell due (log entry 49). -/
def execOverrateDelayEnd (g : Fin 16) (s : State) : Host.Outcome State Fault Refusal :=
  .next (match (s.g g).dueC with
    | some enc => if s.running g then s.trigger g enc else s
    | none => s)

/-- COURSESYNC_EDGE: a rising edge of the pin. A follower starts its armed group and issues course 0, whether or not SRC is
valid, which ends IDLE as any group start (R472); later pulses are checked, with SYNC_LOG = 0 against course 0 (R77, R78; log
entry 49). The edge is also producer 0xA8 (R634). -/
def execCoursesyncEdge (s : State) : Host.Outcome State Fault Refusal :=
  let s := s.fire 0xA8
  let g := s.getF syncB F.SYNC_CTRL_SYNC_GROUP
  let log := s.getF syncB F.SYNC_CTRL_SYNC_LOG
  .next (if s.getF syncB F.SYNC_CTRL_SYNC_MODE ≠ 2 then s
    else if (s.g g).st = 1 then
      let s := (s.idleEnd.setG g { s.g g with st := 2 }).courseStart g
      s.trigger g (if s.timerOn g && !s.posValid (s.srcOf g) then 0 else s.posCount (s.srcOf g))
    else if s.running g then
      let n := s.sync.n + 1
      let k := if log = 0 then 0 else n * 2 ^ log
      let s := { s with sync := { s.sync with n := n } }
      match s.sync.trig with
      | some (c, t) =>
        if c < k then { s with sync := { s.sync with due := some (k, s.now) } }
        else if c = k ∧ s.now - t ≤ s.getF syncB F.SYNC_CTRL_SYNC_TOL then s
        else s.syncSlip
      | none => { s with sync := { s.sync with due := some (k, s.now) } }
    else s)

/-- COURSE_CLOSE: the close instant of the oldest course that has triggered and not closed (R36, R38, R45): its
encoder sample is journalled, and its stamped inputs are consumed. -/
def execCourseClose (g : Fin 16) (s : State) : Host.Outcome State Fault Refusal :=
  let k := s.nextClose g
  .next (match (s.g g).openC with
    | some o =>
      if k ≤ o then
        let s := s.setG g { s.g g with closed := some k }
        let h := (s.histOf g k).getD ⟨k, 0, 0, 0⟩
        let src := if s.timerOn g then 0xFF else s.srcOf g
        let s := s.jrn 0x01 g 1 src 0 (Int.ofNat k) (le 8 (ofInt 64 h.enc) ++ le 4 h.sec ++ le 4 h.ns)
        s.consumeAt g (Int.ofNat k)
      else s
    | none => s)

end Sys2Proof.Machine
end

