-- ==== Sys2Proof/Machine/Groups.lean ====
section
/-!
DEFINITION. Run control (R382): the checks of a group start in chapter order, the start, and the stop of a group.
-/

namespace Sys2Proof.Machine

/-! ## The checks of a start -/

/-- The crossing bound of a group in 10 ns: 1,800 ns when a channel of its run has LAMP_EN in either bank (R466). -/
def State.crossBound (s : State) (g : Nat) : Nat :=
  if (s.runChans g).any (fun ch => s.flag (corrB ch) F.CORR_CTRL_LAMP_EN || s.getSh (corrB ch) F.CORR_CTRL_LAMP_EN == 1)
  then 180 else 20

/-- PROF_BINS of every channel is at most 1,024 (R179). -/
def State.profOk (s : State) (g : Nat) : Bool :=
  (s.runChans g).all (fun ch =>
    !s.flag (corrB ch) F.STAT_CFG_PROF_EN ||
      decide (s.getF (ingB ch) F.ING_CFG_LINE_LEN ≤ 1024 * 2 ^ s.getF (corrB ch) F.STAT_CFG_PROF_SHIFT))

/-- The value of a P field in the bank that a check looks at. -/
def State.bankF (s : State) (shadow : Bool) (b : Nat) (f : Fld) : Nat := if shadow then s.getSh b f else s.getF b f

/-- A selvage window lies within the wales one channel owns, MIN below MAX (R211). -/
def State.windowOk (s : State) (g lo hi : Nat) : Bool :=
  decide (lo < hi) && (s.runChans g).any (fun ch =>
    let base := s.waleOf (s.runFirst g) (ch - s.runFirst g)
    decide (base ≤ lo) && decide (hi < base + s.ownedOf g ch))

/-- The selvage windows of a bank (R211). -/
def State.selvOk (s : State) (g : Nat) (shadow : Bool) : Bool :=
  let b := gseamB g
  s.bankF shadow b F.SELV_CFG_SELV_EN == 0 ||
    (s.windowOk g (s.bankF shadow b F.SELV_LWIN_MIN) (s.bankF shadow b F.SELV_LWIN_MAX) &&
      s.windowOk g (s.bankF shadow b F.SELV_RWIN_MIN) (s.bankF shadow b F.SELV_RWIN_MAX))

/-- A0 + DY_INIT of every camera lies from 0 to 64 (R195), and no CUT lies beyond its overlap (R198). -/
def State.alongOk (s : State) (g : Nat) (shadow : Bool) : Bool :=
  (s.runChans g).all (fun ch =>
    let a := Int.ofNat (s.bankF shadow (seamB ch) F.SEAM_ALONG_A0) +
      toInt F.SEAM_INIT_DY_INIT.width (s.bankF shadow (seamB ch) F.SEAM_INIT_DY_INIT)
    decide (0 ≤ a) && decide (a ≤ 64) &&
      (ch == s.runFirst g || decide (s.bankF shadow (seamB ch) F.SEAM_BLEND_CUT ≤ s.ovl ch)))

/-- The geometry of a run (R188). -/
def State.geometryOk (s : State) (g : Nat) : Bool :=
  let first := s.runFirst g
  let m := s.runCount g
  decide (1 ≤ m) && decide (first + m ≤ 128) &&
    s.startedGroups.all (fun h => h == g || (s.runChans g).all (fun ch => !s.inRun h ch)) &&
    decide (s.getF (gseamB g) F.GRP_SEAM_ANCHOR < m) &&
    ((List.range m).all (fun k =>
      (k == 0 || k + 1 == m || decide (s.ovl (first + k) + s.ovl (first + k + 1) < s.span (first + k))) &&
      (k == 0 || (decide (s.ovl (first + k) ≤ 1024) && decide (s.ovl (first + k) ≤ s.span (first + k)) &&
        decide (s.ovl (first + k) ≤ s.span (first + k - 1)))))) &&
    decide (s.widthOf g ≤ 2097152)

/-- Whether the value of one field key of a bank lies in its range. -/
def keyOk (e : Nat × Nat) : Bool :=
  match lookReg (e.1 / 64) with
  | none => true
  | some h => h.spec.fields.all (fun f => f.fld.lo != e.1 % 64 || f.ok e.2)

/-- Every P field of a set's bank lies in its stated range (R263, R395). -/
def State.rangesOk (s : State) (set : Nat) (shadow : Bool) : Bool :=
  (s.ofSet set (if shadow then s.shd else s.act)).all keyOk

/-- COMP_MAX over the groups that have started, armed ones among them, and group `g` (R250). -/
def State.compsOk (s : State) (g : Nat) : Bool :=
  decide ((((s.startedGroups.filter (· != g)) ++ [g]).map (fun h => s.getF (gsegB h) F.COMP_MAX)).sum ≤ 262144)

/-- The checks of segmentation with SEG_EN = 1 (R263, R301). -/
def State.segOk (s : State) (g : Nat) : Bool :=
  let b := gsegB g
  !s.flag b F.SEG_CTRL_SEG_EN ||
    (decide (0 < s.getF b F.RS_CFG_CHUNKS) && decide (s.getF b F.RS_BASE_ADDR + 4096 * s.getF b F.RS_CFG_CHUNKS ≤ 2 ^ 40) &&
      s.ringOk (s.getF b F.DESC_RING_RING) false && s.rangesOk g false)

/-- The result rings that are enabled. -/
def State.resRings (s : State) (g : Nat) : List Nat :=
  ((List.range 4).filter (fun r => s.flag (gtalB g) (F.RES_RING_EN.nth r))).map (fun r => s.getF (gtalB g) (F.RES_RING_RING.nth r))

/-- The checks of tally (R301). -/
def State.tallyOk (s : State) (g : Nat) : Bool :=
  let b := gtalB g
  if s.flag b F.TALLY_CTRL_TALLY_EN then
    (s.resRings g).all (fun r => s.ringOk r false) &&
      (!s.flag b F.PATCH_CFG_PATCH_EN || s.ringOk (s.getF b F.PATCH_RING_RING) true) &&
      decide (s.getF b F.HIST_BASE_ADDR % 0x200000 = 0)
  else !s.flag (gsegB g) F.SEG_CTRL_SEG_EN

/-- An engine of the mask is powered and online (R301). -/
def State.engineOk (s : State) (g : Nat) : Bool :=
  !s.flag (gtalB g) F.TALLY_CTRL_TALLY_EN ||
    (List.range 128).any (fun e => s.inMask g e && s.teOn e && s.teState e != 2)

/-- Whether a channel writes statistics. -/
def State.statsOn (s : State) (ch : Nat) : Bool :=
  s.flag (corrB ch) F.CORR_CTRL_STAT_RAW_EN || s.flag (corrB ch) F.CORR_CTRL_STAT_COR_EN

/-- The rings of a group's blocks with their binder and whether the device writes them (R509, R514). -/
def State.groupRings (s : State) (g : Nat) : List (Nat × Nat × Bool × Bool) :=
  (if s.flag (crsB g) F.CRS_CSW_RING_CSW_EN then [(s.getF (crsB g) F.CRS_CSW_RING_RING, crsB g, true, false)] else []) ++
  (((s.runChans g).filter s.statsOn).map (fun ch => (s.getF (corrB ch) F.STAT_RING_RING, corrB ch, true, true))) ++
  (if s.flag (gseamB g) F.SEAM_RING_RING_EN then [(s.getF (gseamB g) F.SEAM_RING_RING, gseamB g, true, false)] else []) ++
  (if s.flag (gsegB g) F.SEG_CTRL_SEG_EN then [(s.getF (gsegB g) F.DESC_RING_RING, gsegB g, true, false)] else []) ++
  (if s.flag (gtalB g) F.TALLY_CTRL_TALLY_EN then
    (s.resRings g).map (fun r => (r, gtalB g, true, false)) ++
    (if s.flag (gtalB g) F.PATCH_CFG_PATCH_EN then [(s.getF (gtalB g) F.PATCH_RING_RING, gtalB g, true, true)] else [])
   else [])

/-- The ring of which tally becomes a subscriber with the start (R520). -/
def State.groupSubs (s : State) (g : Nat) : List Nat :=
  if s.flag (gsegB g) F.SEG_CTRL_SEG_EN then [s.getF (gsegB g) F.DESC_RING_RING] else []

/-- The status of a start, its checks in chapter order (R382); the state holds what failed checks leave (R158). -/
def State.startStatus (s : State) (g : Nat) : State × Nat :=
  if (s.g g).st ≠ 0 then (s, stBusy)
  else if !s.timerOn g && !s.flag (posB (s.srcOf g)) F.POS_CTRL_RUN then (s, stBusy)
  else if !s.geometryOk g && decide (128 < s.runFirst g + s.runCount g) then (s, stBadParam)
  else if !s.poolOk g then (s, stNoResource)
  else
    let f := s.gaugeFirst g (s.runChans g)
    if !f.2 then (f.1, stBadParam)
    else if !s.profOk g then (s, stBadParam)
    else if !s.geometryOk g || !s.alongOk g false || !s.selvOk g false then (s, stBadParam)
    else if !s.compsOk g then (s, stNoResource)
    else if !s.segOk g then (s, stBadParam)
    else
      let c := s.slotsOk g false (List.range 8)
      let s := c.1
      if !c.2 || !s.tallyOk g then (s, stBadParam)
      else if !s.engineOk g then (s, stNoResource)
      else if s.getF (patB 16) F.PAT_STATUS_PHASE ≠ 0 then (s, stBusy)
      else if s.getF (crsB g) F.CRS_CTRL_CLOSE_DLY < s.crossBound g then (s, stBadParam)
      else if !(s.groupRings g).all (fun r => s.ringOk r.1 r.2.2.2) then (s, stBadParam)
      else if !s.canPin ((s.groupRings g).map (·.1)) || !s.canSubs (s.groupSubs g) then (s, stNoResource)
      else (s, stOk)

/-! ## The start -/

/-- A channel's record at a group start: what earlier runs left is gone, but for a fault that keeps it out of
service (R685). -/
def Chan.fresh (x : Chan) : Chan :=
  { everLine := x.everLine
    running := none
    lostAt := x.lostAt.map (fun _ => 0)
    spares := if x.spares.any (fun p => p.2.isNone) then [(0, none)] else [] }

/-- Bind the rings of a group (R514). -/
def State.bindGroup (s : State) (g : Nat) : State :=
  let s := forL (s.groupRings g) (fun r t => t.bind r.1 r.2.1 r.2.2.1) s
  forL (s.groupSubs g) (fun id t => t.subBlock id (gtalB g)) s

/-- The channels of a run that a group drained in before are no longer joined when a group starts with them. -/
def State.lanesFree (s : State) (g : Nat) : State :=
  forL ((s.runChans g).filter s.joined) (fun ch t => (t.setF (ingB ch) F.ING_STATUS_JOINED 0).lanesBack ch) s

/-- The items of the replay stores that earlier runs of a group have left belong to no window of the run that begins (R674). -/
def State.pastItems (s : State) (g : Nat) : State :=
  { s with rep := { s.rep with items := s.rep.items.map (fun i =>
    if (i.kind == 1 && s.inRun g i.unit) || (i.kind == 2 && i.unit == g) then { i with past := true } else i) } }

/-- A group starts, or is armed for COURSESYNC (R62, R77, R162, R190, R210, R236, R250, R472). -/
def State.groupStart (s : State) (g : Nat) (arm : Bool) : State :=
  let s := (s.flightEnds g).idleEnd
  let s := { s with oldL := s.oldL.filter (fun o => !s.keyServes g o.1), csw := s.csw.filter (fun c => c.grp != g) }
  let s := (s.lanesFree g).pastItems g
  let s := forL (s.runChans g) (fun ch t => (t.setCh ch (t.ch ch).fresh).gaugePend ch) s
  let s := (s.gaugeFirst g (s.runChans g)).1
  let s := s.setG g { st := if arm then 1 else 2 }
  let s := s.courseStart g
  let s := s.seamStart g
  let s := s.segStart g
  let s := s.setTg g {}
  let s := s.viewsGroup g true
  s.bindGroup g

/-! ## The stop -/


/-- The channels of a group that stops take part up to its last course; each stays joined until its triggered courses are
decided (R128, R131). -/
def State.lanesStop (s : State) (g : Nat) : State :=
  forL ((s.runChans g).filter s.joined) (fun ch t =>
    (t.setCh ch { t.ch ch with spans := endSpan (t.afterLast g) (t.ch ch).spans, leaving := false }).settle g ch) s

/-- Stamped inputs of a group that has stopped and that have no course to come, and those stamped against the device course
view (R32), are consumed at once. -/
def State.inputsStop (s : State) (g : Nat) : State :=
  let ends := fun (i : Stamped) => i.grp == g && (i.dev || !s.awaits g i.eff)
  forL (s.arrived.filter ends) (fun i t => t.consumeOne i) { s with arrived := s.arrived.filter (fun i => !ends i) }

/-- The stop of an armed group, which has issued no course: what waits is done with as at any stop (R32, R379). -/
def State.disarm (s : State) (g : Nat) : State :=
  let s := s.setG g { s.g g with st := 0 }
  let s := (s.writesStop g).inputsStop g
  (s.viewsGroup g false).releaseRings g

/-- Pending swaps that a stop cancels: of the group, and of set 16 when the device course view follows it (R402). -/
def State.swapsStop (s : State) (g : Nat) : State :=
  let s := if s.getF (patB g) F.PAT_STATUS_PHASE = 1 then s.swapCancel g else s
  if s.followed = some g ∧ s.getF (patB 16) F.PAT_STATUS_PHASE = 1 then s.swapCancel 16 else s

/-- A running group stops (R32, R249, R273, R379, R382, R402). -/
def State.groupStop (s : State) (g : Nat) : State :=
  if (s.g g).st = 1 then s.disarm g
  else if !s.running g then s
  else
    let s := s.swapsStop g
    let s := if s.followed = some g then { s with devView := ofInt 64 s.stampDev } else s
    let s := s.setG g { s.g g with st := 3, last := (s.g g).openC, dueC := none }
    let s := s.setF (gtalB g) F.TALLY_STATUS_DRAIN 1
    let s := s.writesStop g
    let s := s.inputsStop g
    let s := s.lanesStop g
    let s := s.segStop g
    s.viewsGroup g false

/-- A group that has not drained is stopped for good: at the end of FLUSH_TMO (R445), or where what it drains through loses its
power. -/
def State.forceStop (s : State) (g : Nat) : State :=
  if (s.g g).st = 0 then s
  else
    let s := s.setF (gtalB g) F.TALLY_STATUS_DRAIN 0
    let s := (s.releaseRings g).setTg g {}
    ((s.setSg g {}).showJobs g).setG g { s.g g with st := 0 }

/-- Groups that do not run end: an armed one is disarmed, a draining one drains no more. -/
def State.endGroup (s : State) (g : Nat) : State :=
  if (s.g g).st = 1 then s.disarm g else if s.running g then s else s.forceStop g

/-- Every running or armed group stops. -/
def State.stopAll (s : State) : State := forN 16 (fun g t => t.groupStop g) s

/-- The groups that a test picks stop. -/
def State.stopGroups (s : State) (p : Nat → Bool) : State := forL ((List.range 16).filter p) (fun g t => t.groupStop g) s

end Sys2Proof.Machine
end

