-- ==== Sys2Proof/Machine/Power.lean ====
section
/-!
DEFINITION. Clocks and power (12_clocks_power): loss and return of loops, the thermal limits, the power domains and
what each holds, and the entries to IDLE, STANDBY and SLEEP. The commands XA_FAIL, LOOP_LOSS_OF_LOCK, LOOP_RELOCK,
THERMAL_SAMPLE, AUTO_IDLE_ENTRY, WAKE_COUNT_REACHED and DOMAIN_POWER_ON_DONE.
-/

namespace Sys2Proof.Machine

/-! ## Domains (R467) -/

/-- The parent of a switched domain; none for the hub base, whose parent is the always-on domain. -/
def domParent (d : Nat) : Option Nat :=
  if d < 32 then some (64 + 3 * (d / 4))
  else if d < 64 then some (64 + 3 * ((d - 32) / 4))
  else if d < 88 then (if (d - 64) % 3 = 0 then some 91 else some (d - (d - 64) % 3))
  else if d = 91 then none
  else some 91

/-- The region of a domain of a loom die. -/
def domRegion (d : Nat) : Nat := if d < 64 then d % 32 / 4 else (d - 64) / 3

/-- The domain of a register block of the hub (R407, R467); none for the always-on domain. -/
def hubDomain (a : Nat) : Option Nat :=
  let b := a / 0x10000
  if b = 0x03 ∨ b = 0x0D ∨ b = 0x19 then none
  else if b = 0x0C then (if a % 0x10000 = 8 ∨ a % 0x10000 = 0xC then none else some 91)
  else if b = 0x08 ∨ b = 0x09 ∨ b = 0x1A then some 95
  else if b = 0x0F ∨ b = 0x12 then some 93
  else if b = 0x13 then (if a % 0x10000 < 0x800 then some 90 else some 91)
  else if b = 0x14 then (if a % 0x10000 < 0x800 then some 92 else some 91)
  else if b = 0x16 ∨ b = 0x17 then some 94
  else some 91

/-- The domain that holds the register at an address: none for the always-on domain (R408 to R410, R467). -/
def domainOf (a : Nat) : Option Nat :=
  if a < 0x10000000 then hubDomain a
  else
    let r := (a - 0x10000000) / 0x1000000
    let o := a % 0x1000000
    if o < 0x400000 then
      let cl := 4 * r + o / 0x100000
      if o % 0x100000 < 0x40000 then some (if o % 0x10000 < 0x100 then 32 + cl else cl) else some (64 + 3 * r)
    else if o / 0x10000 = 0x60 then some (65 + 3 * r)
    else if o / 0x10000 = 0x70 ∨ o / 0x10000 = 0x71 ∨ o / 0x10000 = 0x80 then some (66 + 3 * r)
    else some (64 + 3 * r)

/-- Whether the block at an address is powered (R376). -/
def State.powered (s : State) (a : Nat) : Bool :=
  match domainOf a with
  | some d => s.domOn d
  | none => true

/-- The GDDR7 devices of a memory domain. -/
def memDevs (d : Nat) : List Nat := [2 * domRegion d, 2 * domRegion d + 1]

/-- The pins that the blocks of domain 95 drive. -/
def markPin : Pin → Bool
  | .cmpo _ | .strobe | .thDat _ | .thClk | .thLatn | .thStep | .mclk _ => true
  | _ => false

/-- The state of a domain that is no register, as it is after the domain is powered on (R469). The contexts of the table in
memory are lost with that memory, those in the hub's cache are not (R525). -/
def State.hiddenOff (s : State) (d : Nat) : State :=
  if d < 32 then
    forN 4 (fun i t => { t with chan := Tab.del (4 * d + i) t.chan, seam := Tab.del (4 * d + i) t.seam })
      { s with stopped := clrBit s.stopped d }
  else if d < 64 then forN 4 (fun i t => t.clearLane (4 * (d - 32) + i)) s
  else if d < 88 then
    if (d - 64) % 3 = 2 then
      { s with
        hank := s.hank.filter (fun e => e.1 / 64 != domRegion d)
        mem := s.mem.filter (fun c => !(memDevs d).contains (devOf c.1))
        memBad := s.memBad.filter (fun c => !(memDevs d).contains (devOf (c.1 * 64)))
        retrain := s.retrain.filter (fun c => !(memDevs d).contains (c.1 / 4))
        memQ := s.memQ.filter (fun q => !(memDevs d).contains q.dev)
        rings := if (memDevs d).contains (devOf (s.getF ringB F.RING_CTX_BASE_ADDR)) then s.rings.filter (fun e => s.ctxCache.contains e.1)
          else s.rings }
    else s
  else if d = 93 then { s with rep := {}, hank := s.hank.filter (fun e => e.1 / 64 != 8) }
  else if d = 94 then { s with view := [], viewOld := [], lbNext := [], lbGone := [], dpRow := [], dpBuf := [], dpMon := {} }
  else if d = 95 then
    { (s.strobeCut.pinsRest markPin) with cmp := [], tag := {}, cass := {}, aux := [], mclkAt := [] }
  else s

/-- The fields that a SETTINGS entry may name: those whose Reset column reads "image", and UDP_PORT (R354, R431; log entry
26): block and field. MC_MIRROR of an odd controller reads zero (R505) and takes none. -/
def settingFlds : List (Nat × Fld) :=
  [(devB, F.DEV_NUM_DEVNUM), (devB, F.FW_VERSION_FW_VER), (devB, F.IMAGE_VERSION_IMAGE_VER), (devB, F.CAST_STATUS_IMAGE), (devB, F.ANN_CFG_ANN_PORT), (devB, F.REGION_EN_EN),
    (cmdB, F.CMD_CFG_UDP_PORT), (ringB, F.RING_CTX_BASE_ADDR), (fmB, F.LOG_BASE_ADDR)] ++
  (List.range 16).map (fun d => (mcB d, F.MC_CFG_ORDER)) ++
  (List.range 8).flatMap (fun r =>
    [(mcB (2 * r), F.MC_MIRROR_MIR_SIZE), (mcB (2 * r), F.MC_MIRROR_MIR_BASE)]) ++
  [(netB, F.NET_MAC_MAC), (netB, F.NET_IPV4_ADDR), (netB, F.NET_IPV4_PFX_LEN), (netB, F.NET_GW4_ADDR),
    (netB, F.NET_IPV6_PFX_LEN), (netB, F.NET_CTRL_PRP_EN), (netB, F.NET_CTRL_VLAN_EN), (netB, F.NET_CTRL_VID)] ++
  (List.range 4).flatMap (fun i =>
    [(netB, F.NET_IPV6_ADDR.nth i), (netB, F.NET_GW6_ADDR.nth i), (netB, F.ANN_ADDR_ADDR.nth i)])

/-- The fields that hold a value from the image or from the fuses, which no reset of a block changes. -/
def imageFields : List (Nat × Fld) := (devB, F.DEV_PART_DIE_REV) :: (devB, F.DEV_SERIAL_SERIAL) :: settingFlds

/-- The keys of the fields that an image may set. -/
def settingKeys : List Nat := settingFlds.map (fun e => e.2.key e.1)

/-- Their keys. -/
def imageKeys : List Nat := imageFields.map (fun e => e.2.key e.1)

/-- The registers of a domain go to their Reset values, both banks of each P field (R6, R469): for an "image" field that is
the value of the image. -/
def State.regsOff (s : State) (d : Nat) : State :=
  let keep := fun (e : Nat × Nat) => domainOf (e.1 / 64) != some d || imageKeys.contains e.1
  { s with regs := s.regs.filter keep, act := s.act.filter keep, shd := s.shd.filter keep }

/-- What the power of a domain shows in the registers of its parent (R481). -/
def State.showDom (s : State) (d : Nat) (on : Bool) : State :=
  let v := if on then 1 else 0
  if d < 32 then (s.setF (clB d) F.CL_STATUS_PIX_ON v).setF (clB d) F.CL_STATUS_CLK_GATED (s.clkGated d)
  else if d < 64 then s.setF (clB (d - 32)) F.CL_STATUS_QUAD_ON v
  else if d = 89 - s.getF coreB F.CORE_STATUS_ACTIVE then s.setF coreB F.CORE_STATUS_STANDBY_OK v
  else s

/-- The blocks of a domain that goes off hold no ring any more: their bindings end, and their subscriptions. -/
def State.releaseDom (s : State) (d : Nat) : State :=
  let mine := fun (b : Nat) => domainOf b == some d
  let s := forL (((s.binds.map (fun (b : Nat × Nat × Bool) => b.2.1)).filter mine).eraseDups) (fun b t => t.unbind b) s
  let gone := s.subs.filter (fun (e : Nat × Sub) => match e.2.who with
    | .block b => mine b
    | .net .. => false)
  forL gone (fun (e : Nat × Sub) t => t.dropSub e.1) s

/-- A domain loses power: every register and memory value of it is lost (R469). -/
def State.domainOff (s : State) (d : Nat) : State :=
  if s.domOn d then
    let s := ((((s.releaseDom d).regsOff d).hiddenOff d).setDom d false).showDom d false
    -- a ring context lost with its memory leaves its lanes without their source (R138)
    if 64 ≤ d ∧ d < 88 then s.msrcUpdate else s
  else s

/-- MIRROR_OK of a region: whether both copies are in service. -/
def State.mirrorShow (s : State) (r : Nat) : State :=
  let ok := if s.getF (mcB (2 * r)) F.MC_MIRROR_MIR_SIZE ≠ 0 ∧ s.mcState (2 * r) = 2 ∧ s.mcState (2 * r + 1) = 2 then 1 else 0
  (s.setF (mcB (2 * r)) F.MC_STATUS_MIRROR_OK ok).setF (mcB (2 * r + 1)) F.MC_STATUS_MIRROR_OK ok

/-- A domain has been powered on (R469); the controllers of a memory domain have been trained (R432). -/
def State.domainOn (s : State) (d : Nat) : State :=
  let s := (((s.regsOff d).hiddenOff d).setDom d true).showDom d true
  if 64 ≤ d ∧ d < 88 ∧ (d - 64) % 3 = 2 then
    (forL (memDevs d) (fun v t => t.setF (mcB v) F.MC_STATUS_STATE 2) s).mirrorShow (domRegion d)
  else s

/-- The domains on the loom dies, children before their parents. -/
def loomDomains : List Nat :=
  (List.range 64) ++ (List.range 24).filterMap (fun i => if i % 3 = 0 then none else some (64 + i)) ++
    (List.range 8).map (fun r => 64 + 3 * r)

/-- The loom dies are powered off. -/
def State.loomOff (s : State) : State :=
  let s := forL loomDomains (fun d t => t.domainOff d) s
  forN 7 (fun l t => t.setF (dlB l) F.LINK_STATUS_UP 0) s

/-! ## Power states (R470 to R474) -/

def State.pwrState (s : State) : Nat := s.getF pwrB F.PWR_STATE_STATE

/-- Whether a running group takes its courses from the timer (R471). -/
def State.timerRuns (s : State) : Bool := s.runningGroups.any s.timerOn

/-- Entry to IDLE (R471): joined lanes enter electrical idle, the clocks of the powered clusters are gated. -/
def State.idleEnter (s : State) : State :=
  let s := forL ((List.range 128).filter (fun l => s.laneState l == 6)) (fun l t => t.laneIdle l) s
  (s.setF pwrB F.PWR_STATE_STATE 2).clkShow.raise pwrB F.PWR_EVENT_IDLE_EV 0xDB

/-- Loom domains that wait to be powered are powered no more; their commands get BUSY, as in STANDBY (R470). -/
def State.loomQueueEnd (s : State) : State :=
  let gone := s.power.queue.filter (fun d => decide (d < 88))
  ({ s with power := { s.power with queue := s.power.queue.filter (fun d => decide (88 ≤ d)) } }).finishOp 0x0B01
    (fun o => gone.contains o.arg) stBusy []

/-- Entry to STANDBY: the loom dies are off, with what groups still drained through them; the hub keeps what it holds. -/
def State.standbyEnter (s : State) : State :=
  (forN 16 (fun g t => t.endGroup g) s).loomQueueEnd.loomOff.setF pwrB F.PWR_STATE_STATE 3

/-- Entry to SLEEP (R470, R473): only the always-on domain keeps its state: the position block, Yarn, the thermal
sensors, the wake logic. What the device has sent, its flash and its fuses are no state of a domain. A cast-on or a return to
RUN under way is abandoned: only a wake or PORN restarts the device (R476). -/
def State.sleepEnter (s : State) : State :=
  let keep := fun (e : Nat × Nat) => (domainOf (e.1 / 64)).isNone
  let s := s.strobeCut.pinsRest (fun _ => true)
  let t : State :=
    { now := s.now, regs := s.regs.filter keep, act := s.act.filter keep, shd := s.shd.filter keep, flash := s.flash,
      out := s.out, freeCtr := s.freeCtr, pos := s.pos, yarn := s.yarn,
      wakeFrom := s.posCount (s.getF pwrB F.WAKE_CFG_WAKE_SRC),
      boot := { s.boot with resume := false, wake := false }, fuses := s.fuses, jtag := s.jtag,
      power := { s.power with queue := [], bind := false }, pending := s.pending, gated := s.gated % 2 }
  t.setF pwrB F.PWR_STATE_STATE 4

/-- Wake from SLEEP (R473): cast-on runs from step 2, and XA is measured as soon as step 3 begins, its stable delay being
skipped. Whether the readings of the fuse array agree (R418) is a free value (log entry 62). WAKE_CAUSE 1 is the encoder, 2 is
Yarn. -/
def State.wake (s : State) (cause : Nat) : State :=
  if s.pwrState = 4 ∧ s.boot.halt = 0 ∧ !s.boot.wake ∧ s.flag pwrB F.WAKE_CFG_WAKE_EN then
    let s := s.setF pwrB F.WAKE_CAUSE_CAUSE cause
    let agree := Config.freeBits 1 s.freeCtr == 1
    let s := s.tickFree.setF devB F.CAST_STATUS_PHASE (if agree then 3 else 2)
    { s with boot :=
        { s.boot with
          step := if agree then 3 else 2
          halt := if agree then 0 else 1
          sensed := if agree then s.fuses else s.boot.sensed
          wake := true
          start := s.now
          tries := 0
          image := 0
          pair := 0
          resume := false } }
  else s

/-- AUTO_IDLE_ENTRY: no running group has issued a course for IDLE_DLY ms (R471). -/
def execAutoIdleEntry (s : State) : Host.Outcome State Fault Refusal :=
  .next (if s.pwrState = 1 && s.flag pwrB F.PWR_STATE_AUTO_IDLE && s.anyRunning && !s.timerRuns then s.idleEnter else s)

/-- WAKE_COUNT_REACHED: POS_COUNT of WAKE_SRC has moved WAKE_COUNTS forward counts since the entry to SLEEP (R473). -/
def execWakeCountReached (s : State) : Host.Outcome State Fault Refusal :=
  .next (if Int.ofNat (s.getF pwrB F.WAKE_CFG_WAKE_COUNTS) ≤ s.posCount (s.getF pwrB F.WAKE_CFG_WAKE_SRC) - s.wakeFrom
    then s.wake 1 else s)

/-! ## Clock loops (R454 to R456) -/

/-- A loop loses lock: its LOCK bit clears and LOL_EV is set. -/
def State.loopLost (s : State) (n : Nat) : State :=
  let s := s.setF clkB F.LOOP_STATUS_LOCK (clrBit (s.getF clkB F.LOOP_STATUS_LOCK) n)
  (s.setF clkB F.LOOP_STATUS_LOL_EV (setBit (s.getF clkB F.LOOP_STATUS_LOL_EV) n)).fire 0xD9

/-- Whether a group uses a domain that loop `n` feeds: TCLK only with tally, the other loops always (R454, R459). -/
def State.usesLoop (s : State) (n g : Nat) : Bool := n != 3 || s.flag (gtalB g) F.TALLY_CTRL_TALLY_EN

/-- XA_FAIL: XA fails after Ready. The AON_LOOP returns to FOSC, every other loop loses lock, every group stops
(R455). -/
def execXaFail (s : State) : Host.Outcome State Fault Refusal :=
  .next (if s.flag clkB F.CLK_SRC_XA_OK && s.boot.step == 10 then
      let s := s.setF clkB F.CLK_SRC_XA_OK 0
      let s := forN 5 (fun i t => t.loopLost (i + 1)) s
      s.stopAll.logReg .xaFail 0 0xFF (clkB + 4)
    else s)

/-- LOOP_LOSS_OF_LOCK: a loop loses lock for another cause: it gates its outputs, and the groups that use a domain it feeds stop
(R456). -/
def execLoopLossOfLock (loop : Fin 16) (s : State) : Host.Outcome State Fault Refusal :=
  .next (if bit (s.getF clkB F.LOOP_STATUS_LOCK) loop.val && decide (loop.val < 6) then
      let s := { s.loopLost loop.val with gated := setBit s.gated loop.val }.clkShow
      (s.stopGroups (s.usesLoop loop.val)).logReg .loopLol loop.val 0xFF (clkB + 4)
    else s)

/-- LOOP_RELOCK: a loop locks again by itself (R456); one whose reference is XA does so only while XA is present. -/
def execLoopRelock (loop : Fin 16) (s : State) : Host.Outcome State Fault Refusal :=
  .next (if loop.val = 0 ∨ (loop.val = 5 ∧ !s.flag clkB F.CLK_SRC_NET_REF) ∨ (loop.val < 6 ∧ s.flag clkB F.CLK_SRC_XA_OK) then
      { s.setF clkB F.LOOP_STATUS_LOCK (setBit (s.getF clkB F.LOOP_STATUS_LOCK) loop.val) with
        gated := clrBit s.gated loop.val }.clkShow
    else s)

/-! ## Thermal protection (R476) -/

/-- The reading of die `d`, in 1/128 °C. -/
def State.dieTemp (s : State) (d : Nat) : Int := s.getI thmB (F.THERM_DIE_TEMP.nth d)

/-- The highest reading of the five dies. -/
def State.hottest (s : State) : Int := (List.range 5).foldl (fun m d => max m (s.dieTemp d)) (s.dieTemp 0)

/-- A limit with its hysteresis of 5 °C: whether it acts after a sample. -/
def limitActs (was : Bool) (t : Int) (limit : Nat) : Bool :=
  if was then decide (Int.ofNat (128 * limit) - 640 < t) else decide (Int.ofNat (128 * limit) ≤ t)

/-- The highest reading of the dies on which a TRIP acts as on die `d`: the hub die, or the loom dies. -/
def State.hottestLike (s : State) (d : Nat) : Int :=
  if d = 4 then s.dieTemp 4 else (List.range 4).foldl (fun m k => max m (s.dieTemp k)) (s.dieTemp 0)

/-- Whether THROTTLE acts after a sample. -/
def State.throttleOn (s : State) : Bool :=
  limitActs (s.flag thmB F.THERM_STATUS_THROTTLED) s.hottest (s.getF thmB F.THERM_CFG_THROTTLE)

/-- Whether TRIP has acted on the dies of the kind of die `d`. -/
def Power.tripped (p : Power) (d : Nat) : Bool := if d = 4 then p.hubTrip else p.trip

/-- Whether TRIP acts on the dies of the kind of die `d` after a sample. -/
def State.tripOn (s : State) (d : Nat) : Bool :=
  limitActs (s.power.tripped d) (s.hottestLike d) (s.getF thmB F.THERM_CFG_TRIP)

/-- The changes of the thermal limit that a sample of die `d` brings (R670): 0 clear, 1 THROTTLE, 2 TRIP. -/
def State.limitChanges (s : State) (d : Nat) : List Nat :=
  (if s.throttleOn == s.flag thmB F.THERM_STATUS_THROTTLED then [] else if s.throttleOn then [1] else [0]) ++
    if s.tripOn d && !s.power.tripped d then [2] else []

/-- WARN: WARN_EV at the sample that reaches the limit. -/
def State.thermWarn (s : State) : State :=
  let on := limitActs s.power.warn s.hottest (s.getF thmB F.THERM_CFG_WARN)
  let s' := { s with power := { s.power with warn := on } }
  if on && !s.power.warn then s'.raise thmB F.THERM_STATUS_WARN_EV 0xDD else s'

/-- THROTTLE: TCLK is halved. -/
def State.thermThrottle (s : State) (die : Nat) : State :=
  let was := s.flag thmB F.THERM_STATUS_THROTTLED
  if s.throttleOn && !was then (s.setF thmB F.THERM_STATUS_THROTTLED 1).logReg .throttle die 0xFF (thmB + 0x24)
  else if was && !s.throttleOn then s.setF thmB F.THERM_STATUS_THROTTLED 0
  else s

/-- What a TRIP powers off (R476). -/
def State.tripOff (s : State) (die : Nat) : State :=
  if die == 4 then (s.setF pwrB F.WAKE_CFG_WAKE_EN 0).sleepEnter else if s.pwrState == 4 then s else s.standbyEnter

/-- TRIP: every group stops; the loom dies go off, or the hub goes to SLEEP from which only PORN restarts it. A TRIP of the
loom dies and one of the hub die are told apart. -/
def State.thermTrip (s : State) (die : Nat) : State :=
  let on := s.tripOn die
  let s' := { s with power := if die = 4 then { s.power with hubTrip := on } else { s.power with trip := on } }
  if on && !s.power.tripped die then
    ((s'.raise thmB F.THERM_STATUS_TRIP_EV 0xDE).logReg .trip die 0xFF (thmB + 0x24)).stopAll.tripOff die
  else s'

/-- THERMAL_SAMPLE: the sensor of a die is sampled: a class 2 stamped input; the highest reading of all dies acts (R476, R479).
Die 4 is the hub (R17). -/
def execThermalSample (die : Fin 5) (temp : BitVec 16) (s : State) : Host.Outcome State Fault Refusal :=
  if !s.clk 0 then .next s
  else
  let s := s.setF thmB (F.THERM_DIE_TEMP.nth die.val) temp.toNat
  let t := toInt 16 temp.toNat
  let s := if !s.power.maxSeen ∨ s.getI thmB F.THERM_MAX_TEMP < t then s.setI thmB F.THERM_MAX_TEMP t else s
  let s := { s with power := { s.power with maxSeen := true } }
  let s := s.submitDev 2 die.val (.thermal (s.limitChanges die.val))
  .next (((s.thermWarn).thermThrottle die.val).thermTrip die.val)

/-! ## DOMAIN_POWER (R468, R469) -/

/-- Whether group `g`, which has not stopped, is served by domain `d` (R468). -/
def State.groupUses (s : State) (g d : Nat) : Bool :=
  let chs := s.runChans g
  let held := fun (v : Nat) (a : Nat) => devOf a == 2 * v || devOf a == 2 * v + 1
  if d < 32 then chs.any (fun ch => ch / 4 == d)
  else if d < 64 then chs.any (fun ch => ch / 4 == d - 32)
  else if d < 88 then
    let r := domRegion d
    if (d - 64) % 3 = 0 then chs.any (fun ch => ch / 16 == r)
    else if (d - 64) % 3 = 1 then
      s.flag (gtalB g) F.TALLY_CTRL_TALLY_EN && (List.range 16).any (fun i => s.inMask g (16 * r + i))
    else chs.any (fun ch => ch / 16 == r) || held r (s.getF (gsegB g) F.RS_BASE_ADDR) ||
      held r (s.getF (gtalB g) F.HIST_BASE_ADDR) || (s.groupRings g).any (fun e => held r (s.ring e.1).base)
  else if d = 93 then (s.armed && chs.any s.capBit) || s.rerunG g
  else if d = 94 then (List.range 16).any (fun v => s.getF (viewB v) F.VIEW_CTRL_GROUP == g && s.flag (viewB v) F.VIEW_CTRL_EN)
  else if d = 95 then
    (List.range 32).any (fun c => s.lampUses g c) || (s.thOn && s.getF thB F.TH_CTRL_TH_SRC == s.srcOf g) ||
      (List.range 16).any (fun u =>
        s.flag (cmpB u) F.CMP_CTRL_EN && s.flag (cmpB u) F.CMP_CTRL_FILL_EN && s.getF (cmpB u) F.CMP_CTRL_FILL_GROUP == g)
  else false

/-- Whether powering domain `d` off is refused (R468): of the groups only one that runs stands against it; `port` is the port on
which the command arrived. -/
def State.domOffBusy (s : State) (d port : Nat) : Bool :=
  (List.range 96).any (fun c => domParent c == some d && s.domOn c) ||
    (List.range 16).any (fun g => s.running g && s.groupUses g d) ||
    d == 91 || d == 88 + s.getF coreB F.CORE_STATUS_ACTIVE || d == (if port = 0 then 90 else 92)

/-- The domains to power for `d`, parents first, of those that are off. -/
def State.powerPath (s : State) (d : Nat) : List Nat :=
  let p := domParent d
  let pp := p.bind domParent
  ((pp.toList ++ p.toList) ++ [d]).filter (fun x => !s.domOn x)

/-- DOMAIN_POWER_ON_DONE: the oldest domain being powered is usable, or has failed to power (R469, R478). -/
def execDomainPowerOnDone (d : Fin 96) (ok : Bool) (s : State) : Host.Outcome State Fault Refusal :=
  .next (match s.power.queue with
    | x :: rest =>
      if x ≠ d.val then s
      else if ok then
        let s := { s with power := { s.power with queue := rest } }
        let s := s.domainOn x
        let s := if 32 ≤ x ∧ x < 64 then forN 4 (fun i t => t.laneEn (4 * (x - 32) + i) (t.flag (ingB (4 * (x - 32) + i)) F.LANE_CTRL_EN)) s else s
        s.finishOp 0x0B01 (fun o => o.arg == x) stOk []
      else
        -- the domains that wait behind it for the same command fail with it
        let gone := rest.takeWhile (fun y => domParent y == some x || (domParent y).bind domParent == some x)
        let s := { s with power := { s.power with queue := rest.drop gone.length } }
        let s := (s.raise pwrB F.PWR_EVENT_DOM_FAULT 0xDC).logReg .domFault x 0xFF (pwrB + 0x20)
        s.finishOp 0x0B01 (fun o => (x :: gone).contains o.arg) stHwFault []
    | [] => s)

end Sys2Proof.Machine
end

