-- ==== Sys2Proof/Machine/Time.lean ====
section
/-!
DEFINITION. The local clock and PTP (16_network_time R589 to R603): steps and adjustments, the two domains, the
hardware servo, holdover and switches. The commands TIME_ADJ_WRITE to PTP_RETURN.
-/

namespace Sys2Proof.Machine

/-! ## The clock (R589 to R593) -/

/-- The range of the clock: SEC has 64 bits. -/
def clockMod : Int := 2 ^ 64 * 1000000000 * 2 ^ 40

/-- Move the clock. -/
def State.clockMove (s : State) (d : Int) : State := { s with localT := ((Int.ofNat s.localT + d) % clockMod).toNat }

/-- A step of the clock (R593). -/
def State.clockStep (s : State) (d : Int) : State := (s.clockMove d).raise timB F.PTP_EVENT_STEP_EV 0xF1

/-- One time tick (R589, R591): the increment, plus DELTA while an adjustment runs. -/
def State.timeTick (s : State) : State :=
  let inc := Int.ofNat (s.getF timB F.TIME_INCR_INCR)
  if s.time.ticks = 0 then s.clockMove inc
  else { s with time := { s.time with ticks := s.time.ticks - 1 } }.clockMove (inc + s.time.delta)

/-- A write of TIME_ADJ (R591): a new adjustment replaces one that runs. -/
def State.timeAdj (s : State) (delta : Int) (ticks : Nat) : State :=
  { s with time := { s.time with delta := delta, ticks := ticks } }

/-- TIME_ADJ_WRITE: firmware writes TIME_ADJ (R591). -/
def execTimeAdjWrite (delta ticks : BitVec 32) (s : State) : Host.Outcome State Fault Refusal :=
  let s := (s.setF timB F.TIME_ADJ_DELTA delta.toNat).setF timB F.TIME_ADJ_TICKS ticks.toNat
  .next (s.timeAdj (toInt 32 delta.toNat) ticks.toNat)

/-- TIME_ADJ_END: the TICKS ticks of the adjustment have passed; in all it moves the phase by TICKS × DELTA (R591,
log entry 21). -/
def execTimeAdjEnd (s : State) : Host.Outcome State Fault Refusal :=
  .next ({ s with time := { s.time with ticks := 0 } }.clockMove (Int.ofNat s.time.ticks * s.time.delta))

/-- Units of increment for a rate in ppb: 2 × ppb × 2^40 / 10^9, rounded (R599). -/
def ppbUnits (ppb : Nat) : Int := Int.ofNat ((2 * ppb * 2 ^ 40 + 500000000) / 1000000000)

/-- After a switch, the increment stays within SWITCH_PPB of the one held at the switch, whoever drives the correction (R601,
DEDUCED from its worked example, log entry 21). -/
def State.nearHeld (s : State) (incr : Int) : Int :=
  match s.time.held with
  | some h =>
    let w := ppbUnits (s.getF timB F.SLEW_CFG_SWITCH_PPB)
    clampI (h - w) (h + w) incr
  | none => incr

/-- A write of TIME_INCR by firmware, which ends a fall-back (R590, R600, R601). -/
def State.timeIncr (s : State) (incr : Nat) : State :=
  (s.setI timB F.TIME_INCR_INCR (s.nearHeld (Int.ofNat incr))).setF timB F.PTP_STATE_SERVO_FB 0

/-- TIME_INCR_WRITE. -/
def execTimeIncrWrite (incr : BitVec 48) (s : State) : Host.Outcome State Fault Refusal := .next (s.timeIncr incr.toNat)

/-- A write of TIME_STEP (R593): signed ns, while no group runs. -/
def State.timeStep (s : State) (ns : Int) : State := s.clockStep (ns * 2 ^ 40)

/-- TIME_STEP_WRITE: firmware writes TIME_STEP. -/
def execTimeStepWrite (step : BitVec 64) (s : State) : Host.Outcome State Fault Refusal :=
  .next (if s.anyRunning then s else s.timeStep (toInt 64 step.toNat))

/-! ## Domains (R595 to R598) -/

def State.pt (s : State) (d : Nat) : Ptp := Tab.get {} d s.ptp
def State.setPt (s : State) (d : Nat) (p : Ptp) : State := { s with ptp := Tab.put d p s.ptp }

/-- The exchange of domain `d` on a port (R577). -/
def Ptp.on (p : Ptp) (port : Nat) : PtpEx := Tab.get {} port p.ex
def State.setEx (s : State) (d port : Nat) (e : PtpEx) : State :=
  s.setPt d { s.pt d with ex := Tab.put port e (s.pt d).ex }

/-- The fields of domain A or B. -/
def ptpF (d : Nat) (a b : Fld) : Fld := if d = 0 then a else b

def State.ptpEn (s : State) (d : Nat) : Bool := s.flag timB (ptpF d F.PTP_CTRL_EN_A F.PTP_CTRL_EN_B)
def State.ptpState (s : State) (d : Nat) : Nat := s.getF timB (ptpF d F.PTP_STATE_STATE_A F.PTP_STATE_STATE_B)
def State.setPtpState (s : State) (d v : Nat) : State := s.setF timB (ptpF d F.PTP_STATE_STATE_A F.PTP_STATE_STATE_B) v
def State.ptpLocked (s : State) (d : Nat) : Bool := s.flag timB (ptpF d F.PTP_STATE_LOCK_A F.PTP_STATE_LOCK_B)
def State.ptpOffset (s : State) (d : Nat) : Int := s.getI timB (ptpF d F.OFFSET_A_OFFSET F.OFFSET_B_OFFSET)
def State.ptpPref (s : State) : Nat := s.getF timB F.PTP_CTRL_PREF

/-- The local time in 2^-16 ns. -/
def State.local16 (s : State) : Int := Int.ofNat (s.localT / 2 ^ 24)

/-- The time in 2^-16 ns at which a frame captured now was at the balls of a port: received, or sent (R594). -/
def State.rxStamp (s : State) (port : Nat) : Int :=
  s.local16 - (Int.ofNat (s.getF (ethB port) F.TS_LAT_RX_LAT) + toInt 16 (s.getF (ethB port) F.TS_EXT_RX_EXT)) * 512

def State.txStamp (s : State) (port : Nat) : Int :=
  s.local16 + (Int.ofNat (s.getF (ethB port) F.TS_LAT_TX_LAT) + toInt 16 (s.getF (ethB port) F.TS_EXT_TX_EXT)) * 512

/-- The nominal increment (R590). -/
def nominal : Int := 2 ^ 41

/-- The selected domain becomes `d` where another drove the correction: a switch (R601). -/
def State.ptpSwitch (s : State) (d : Nat) : State :=
  let s := { s with time := { s.time with sel := some d, held := some (Int.ofNat (s.getF timB F.TIME_INCR_INCR)) } }
  let s := (s.setF timB F.PTP_STATE_SEL d).setF timB F.PTP_STATE_HOLDOVER 0
  let s := (s.raise timB F.PTP_EVENT_SWITCH_EV 0xEF).satF timB F.PTP_SWITCHES_COUNT 1
  s.logReg .ptpSwitch d 0xFF (timB + 0x40)

/-- A step where R593 allows one: no group runs and the offset exceeds STEP_THR. -/
def State.ptpStep (s : State) (d : Nat) : State :=
  let off := s.ptpOffset d
  if !s.anyRunning && decide (s.getF timB F.LOCK_CFG_STEP_THR * 65536 < off.natAbs) then s.clockStep (-(off * 2 ^ 24)) else s

/-- The selection after a change of LOCKED or of PREF (R601, R602): PREF takes over from the other domain only where
`now` says so; `first` tells that the domain that drives the correction has just come into lock. -/
def State.ptpSelect (s : State) (now' : Bool) : State :=
  let p := s.ptpPref
  let want := if s.ptpLocked p then some p else if s.ptpLocked (1 - p) then some (1 - p) else none
  match want with
  | none =>
    if s.time.sel.isSome then
      { s with time := { s.time with sel := none } }.setF timB F.PTP_STATE_HOLDOVER 1
    else s
  | some d =>
    match s.time.sel with
    | none =>
      -- the first lock, or a return from holdover
      let was := s.getF timB F.PTP_STATE_SEL
      let back := s.flag timB F.PTP_STATE_HOLDOVER
      let s := if back && was != d then s.ptpSwitch d
        else { s with time := { s.time with sel := some d } }.setF timB F.PTP_STATE_SEL d
      (s.setF timB F.PTP_STATE_HOLDOVER 0).ptpStep d
    | some c =>
      if c = d then s
      else if !s.ptpLocked c ∨ now' then s.ptpSwitch d
      else s

/-- A domain loses LOCKED (R598). -/
def State.ptpLose (s : State) (d : Nat) : State :=
  if s.ptpLocked d then
    let s := s.setF timB (ptpF d F.PTP_STATE_LOCK_A F.PTP_STATE_LOCK_B) 0
    let s := s.raise timB (ptpF d F.PTP_EVENT_LOSS_A_EV F.PTP_EVENT_LOSS_B_EV) (0xED + d)
    let s := s.logAs .ptpLoss (if s.ptpLocked (1 - d) then 1 else 2) 5 d 0xFF (s.payReg (timB + 0x40))
    s.ptpSelect false
  else s

/-- EN_A or EN_B is written: the domain number takes effect when it rises; a domain that is disabled is tracked no
more. -/
def State.ptpEnable (s : State) (d : Nat) (on : Bool) : State :=
  let f := ptpF d F.PTP_CTRL_EN_A F.PTP_CTRL_EN_B
  if on && !s.ptpEn d then
    (((s.setF timB f 1).setPt d { dom := s.getF timB (ptpF d F.PTP_CTRL_DOMAIN_A F.PTP_CTRL_DOMAIN_B) })).setPtpState d 1
  else if !on && s.ptpEn d then
    let s := ((s.setF timB f 0).setPt d {}).setPtpState d 0
    (s.setF timB (ptpF d F.PTP_STATE_LOCK_A F.PTP_STATE_LOCK_B) 0).ptpSelect false
  else s

/-! ## Announce (R596) -/

/-- The data set of an Announce message by which masters are compared, the lower the better: priority 1, class,
accuracy, variance, priority 2, identity, steps removed (PRESUMED from IEEE 1588-2019, log entry 22). -/
def announceKey (m : List Byte) : Nat :=
  ((((((beAt m 47 1) * 256 + beAt m 48 1) * 256 + beAt m 49 1) * 65536 + beAt m 50 2) * 256 + beAt m 52 1) * 2 ^ 64 +
    beAt m 53 8) * 65536 + beAt m 61 2

/-- The best of the masters heard: the lowest data set, then the lowest source. -/
def bestOf : List Master → Option Master
  | [] => none
  | m :: ms =>
    match bestOf ms with
    | none => some m
    | some b => if m.key < b.key ∨ (m.key = b.key ∧ m.src < b.src) then some m else some b

/-- The PSCLK cycles of an interval that a message gives as a power of two of seconds (R454). -/
def logCycles (b : Nat) : Nat := if 128 ≤ b then 250000000 / 2 ^ (256 - b) else 250000000 * 2 ^ b

/-- The masters that are still heard: one whose last Announce lies more than four of its intervals back is dropped; the best
master goes by ANNOUNCE_TIMEOUT (PRESUMED from IEEE 1588-2019, log entry 22). -/
def State.liveMasters (s : State) (p : Ptp) : List Master :=
  p.masters.filter (fun m => p.best == some m.src || decide (s.now ≤ m.last + 4 * logCycles m.log))

/-- A master becomes the best of domain `d`, or stays so. -/
def State.ptpBest (s : State) (d : Nat) (ms : List Master) (b : Master) : State :=
  let p := s.pt d
  let s := s.setF timB (ptpF d F.GM_A_IDENTITY F.GM_B_IDENTITY) b.gm
  if p.best = some b.src then s.setPt d { p with masters := ms, ports := b.ports, trans := b.trans }
  else
    (s.setPt d
      { dom := p.dom
        masters := ms
        best := some b.src
        ports := b.ports
        trans := b.trans
        ex := p.ex.map (fun e => (e.1, { seq := e.2.seq })) }).setPtpState d 2

/-- An Announce message of domain `d` heard on a port: its master is qualified once a second one comes in time, and the best of
the qualified masters is the domain's (R596, log entry 22). -/
def State.ptpAnnounce (s : State) (d port trans : Nat) (m : List Byte) : State :=
  let p := s.pt d
  let src := beAt m 20 10
  let live := s.liveMasters p
  let old := live.find? (·.src == src)
  let heard := match old with
    | some e => if e.ports.contains port then e.ports else port :: e.ports
    | none => [port]
  let ms := ⟨src, announceKey m, beAt m 53 8, s.now, beAt m 33 1, old.isSome, heard, trans⟩ :: live.filter (·.src != src)
  match bestOf (ms.filter (·.qual)) with
  | none => s.setPt d { p with masters := ms }
  | some b => s.ptpBest d ms b

/-- A message of IEEE 1588-2019 from its header on: its version is 2, and its sdoId, in two parts, the 0 of the default profile
(R595, log entry 22). -/
def ptpOurs (m : List Byte) : Bool :=
  decide (44 ≤ m.length) && beAt m 1 1 % 16 == 2 && beAt m 0 1 / 16 == 0 && beAt m 5 1 == 0

/-- An Announce message goes to each domain tracked that it names (R595, R596). -/
def State.ptpAnnounceAll (s : State) (port trans : Nat) (m : List Byte) : State :=
  if m.length < 64 ∨ !ptpOurs m ∨ beAt m 0 1 % 16 ≠ 0xB then s
  else forN 2 (fun d t => if t.ptpEn d && (t.pt d).dom == beAt m 4 1 then t.ptpAnnounce d port trans m else t) s

/-- PTP_ANNOUNCE_RECEIVED: an Announce message, from its header on, at a port. -/
def execPtpAnnounceReceived (port : Fin 2) (frame : List Byte) (s : State) : Host.Outcome State Fault Refusal :=
  .next (s.ptpAnnounceAll port 0 frame)

/-- The best master of a domain is heard no more: another qualified one takes its place, if there is one (R596). -/
def State.ptpGone (s : State) (d : Nat) : State :=
  let p := s.pt d
  let ms := (s.liveMasters p).filter (fun m => p.best != some m.src)
  let s := (s.setPt d { dom := p.dom, masters := ms, ex := p.ex.map (fun e => (e.1, { seq := e.2.seq })) }).setPtpState d 1
  match bestOf (ms.filter (·.qual)) with
  | some b => s.ptpBest d ms b
  | none => s

/-- ANNOUNCE_TIMEOUT: the Announce receipt of a domain has timed out (R598). -/
def execAnnounceTimeout (domain : Fin 2) (s : State) : Host.Outcome State Fault Refusal :=
  .next (if s.ptpEn domain ∧ (s.pt domain).best.isSome then (s.ptpGone domain).ptpLose domain else s)

/-! ## The servo (R599, R601) -/

/-- The hardware servo at an offset of the selected domain. -/
def State.servo (s : State) (e : Int) : State :=
  let i := s.time.integ - rnd (s.getF timB F.SERVO_CFG_KI_LOG) e
  let raw := nominal + i - rnd (s.getF timB F.SERVO_CFG_KP_LOG) e
  let w := ppbUnits (s.getF timB F.SLEW_CFG_MAX_PPB)
  let incr := if s.time.held.isSome then s.nearHeld raw else clampI (nominal - w) (nominal + w) raw
  { s with time := { s.time with integ := i } }.setI timB F.TIME_INCR_INCR incr

/-- Whether the hardware servo acts (R599, R600). -/
def State.servoOn (s : State) : Bool := s.flag timB F.PTP_CTRL_SERVO_SEL || s.flag timB F.PTP_STATE_SERVO_FB

/-! ## Sync and delay (R596, R597) -/

/-- The port whose exchange a domain uses (R577). -/
def State.ptpPort (s : State) (p : Ptp) : Nat := if p.ports.contains 0 && (s.linkIsUp 0 || !p.ports.contains 1) then 0 else 1

/-- The count of consecutive offsets, and what it does to LOCKED (R598). -/
def State.ptpCount (s : State) (d : Nat) (off : Int) : State :=
  let p := s.pt d
  let inside := decide (off.natAbs ≤ s.getF timB F.LOCK_CFG_LOCK_THR * 65536)
  let p := if inside then { p with good := p.good + 1, bad := 0 } else { p with good := 0, bad := p.bad + 1 }
  let s := s.setPt d p
  if 16 ≤ p.good && !s.ptpLocked d then
    (s.setF timB (ptpF d F.PTP_STATE_LOCK_A F.PTP_STATE_LOCK_B) 1).ptpSelect false
  else if 16 ≤ p.bad then s.ptpLose d
  else s

/-- The mean path delay of domain `d` from the exchange of a port, where a Delay_Req has been answered (R597). -/
def State.ptpDelay (s : State) (d : Nat) (e : PtpEx) : State :=
  match e.t1, e.back with
  | some t1, some back => s.setI timB (ptpF d F.MPD_A_DELAY F.MPD_B_DELAY) (Int.fdiv ((e.t2 - t1) + back) 2)
  | _, _ => s

/-- An offset of a domain: it is shown, counted, and where the domain drives the correction it ends the clamp of R601 below 8 ns
and feeds the servo. -/
def State.ptpMeasure (s : State) (d : Nat) (off : Int) : State :=
  let s := s.setPtpState d 3
  let s := s.setI timB (ptpF d F.OFFSET_A_OFFSET F.OFFSET_B_OFFSET) off
  let s := s.ptpCount d off
  let s := if s.time.sel = some d ∧ off.natAbs < 8 * 65536 then { s with time := { s.time with held := none } } else s
  if s.time.sel = some d && s.servoOn then s.servo off else s

/-- A completed Sync of a domain at a port (R597): `t1` from the master and `t2` at the device, in 2^-16 ns with the
corrections applied. On the port that the domain uses (R577) the mean path delay and then the offset, local time minus master
time, are computed. -/
def State.ptpSync (s : State) (d port : Nat) (t1 t2 : Int) : State :=
  let e := { (s.pt d).on port with t1 := some t1, t2 := t2 }
  let s := s.setEx d port e
  if s.ptpPort (s.pt d) = port then
    let s := (s.setPt d { s.pt d with synced := true }).ptpDelay d e
    s.ptpMeasure d (t2 - t1 - s.getI timB (ptpF d F.MPD_A_DELAY F.MPD_B_DELAY))
  else s

/-- PTP_SYNC_RECEIVED: a Sync, with its Follow_Up, is complete at a port (R597). -/
def execPtpSyncReceived (port : Fin 2) (domain : Fin 2) (t1 t2 : Int) (s : State) : Host.Outcome State Fault Refusal :=
  .next (if s.ptpEn domain ∧ (s.pt domain).best.isSome then s.ptpSync domain port t1 t2 else s)

/-- The Delay_Req message of a domain (PRESUMED from IEEE 1588-2019, log entry 22). -/
def State.delayReq (s : State) (dom seq : Nat) : List Byte :=
  let m := s.mac
  [0x01, 0x02] ++ be 2 44 ++ [BitVec.ofNat 8 dom, 0] ++ zeros 2 ++ zeros 8 ++ zeros 4 ++
    be 8 (m / 2 ^ 24 * 2 ^ 40 + 0xFFFE * 2 ^ 24 + m % 2 ^ 24) ++ be 2 1 ++ be 2 seq ++ [0x01, 0x7F] ++ zeros 10

/-- The frame of a Delay_Req over the transport of the domain's master: IEEE 802.3, IPv4 or IPv6 (R595). -/
def State.ptpOut (s : State) (port trans : Nat) (m : List Byte) : Out :=
  if trans = 0 then .eth port none (s.frameBytes 0x011B19000000 0x88F7 F.NET_PCP_PCP_PTP m)
  else
    let a := if trans = 1 then v4Base + 0xE0000181 else 0xFF0E0000000000000000000000000181
    s.ipFrame port 1 (mcMac a) (isV4 a) (s.udpPacket a 319 319 m)

/-- A Delay_Req of domain `d` leaves on a port; its transmit time is latched (R577, R594). -/
def State.delayReqOn (s : State) (d port : Nat) : State :=
  let e := (s.pt d).on port
  (s.setEx d port { e with t3 := some (s.txStamp port), seq := (e.seq + 1) % 65536 }).toPort port 1
    (s.ptpOut port (s.pt d).trans (s.delayReq (s.pt d).dom e.seq))

/-- PTP_DELAY_REQ_SEND: the Delay_Req of a domain falls due, at the interval that its master gives, and leaves on each port whose
link is up (R573, R596). -/
def execPtpDelayReqSend (domain : Fin 2) (s : State) : Host.Outcome State Fault Refusal :=
  .next (if s.ptpEn domain ∧ (s.pt domain).best.isSome ∧ 2 ≤ s.ptpState domain then
      forL ((List.range 2).filter s.linkIsUp) (fun q t => t.delayReqOn domain q) s
    else s)

/-- The answer to the last Delay_Req on a port (R597): `t4` is the master's receive time with the correction applied. -/
def State.ptpResp (s : State) (d port : Nat) (t4 : Int) : State :=
  let e := (s.pt d).on port
  match e.t3 with
  | none => s
  | some t3 =>
    let e := { e with t3 := none, back := some (t4 - t3) }
    let s := s.setEx d port e
    if s.ptpPort (s.pt d) = port then s.ptpDelay d e else s

/-- PTP_DELAY_RESP_RECEIVED: the master's receive time of the last Delay_Req on the port that the domain uses (R597). -/
def execPtpDelayRespReceived (domain : Fin 2) (t4 : Int) (s : State) : Host.Outcome State Fault Refusal :=
  .next (if s.ptpEn domain then s.ptpResp domain (s.ptpPort (s.pt domain)) t4 else s)

/-- SERVO_FALLBACK: firmware has not written TIME_INCR for FW_TMO while the selected domain delivers Syncs (R600). -/
def execServoFallback (s : State) : Host.Outcome State Fault Refusal :=
  let fed := match s.time.sel with
    | some d => (s.pt d).synced
    | none => false
  .next (if fed && !s.servoOn then
      let i := Int.ofNat (s.getF timB F.TIME_INCR_INCR) - nominal
      let s := { s with time := { s.time with integ := i } }.setF timB F.PTP_STATE_SERVO_FB 1
      (s.raise timB F.PTP_EVENT_FB_EV 0xF0).logReg .servoFb 0x015 0xFF (timB + 0x40)
    else s)

/-- PTP_RETURN: PREF has been LOCKED for RETURN_S seconds (R601). -/
def execPtpReturn (s : State) : Host.Outcome State Fault Refusal :=
  .next (if s.ptpLocked s.ptpPref then s.ptpSelect true else s)

end Sys2Proof.Machine
end

