-- ==== Sys2Proof/Machine/Ports.lean ====
section
/-!
DEFINITION. The Ethernet ports (16_network_time R565 to R588): links, the active port and failover, PRP supervision, timed
launch, streams to network subscribers, and the announcements with the DEGRADED bits (11_cast_on R438 to R440,
09_commands R383). The commands LINK_UP to SENT_HOLD_EXPIRY and ANNOUNCE_PERIODIC, DEGRADED_CHANGE, ANNOUNCE_RECEIVED.
-/

namespace Sys2Proof.Machine

/-! ## DEGRADED and STATE (R383) -/

/-- The bit of a condition. -/
def bitIf (c : Bool) (n : Nat) : Nat := if c then 2 ^ n else 0

/-- Whether port `p` is enabled and its link is down. -/
def State.portDown (s : State) (p : Nat) : Bool := s.flag (ethB p) F.ETH_CTRL_EN && !s.linkIsUp p

/-- The DEGRADED bits: each reads 1 while its condition holds (R383, R434, R568, R598); wales are masked under R24 while a
channel of a running group is lost. -/
def State.degraded (s : State) : Nat :=
  let rs := List.range 8
  let up := fun r => bit s.boot.avail r
  bitIf (s.boot.avail == 0 || s.flag clkB F.CLK_SRC_NET_REF) 0 +
  bitIf (rs.any (fun r => s.getF (spareB r) F.SPARE_STATUS_STATE == 1)) 1 +
  bitIf ((List.range 128).any (fun ch => (s.ch ch).lostAt.isSome && (s.groupOf ch).isSome)) 2 +
  bitIf (s.portDown 0 != s.portDown 1) 3 +
  bitIf (s.ptpEn 0 && s.ptpEn 1 && (s.ptpLocked 0 != s.ptpLocked 1)) 4 +
  bitIf (!s.flag coreB F.CORE_STATUS_STANDBY_OK) 5 +
  bitIf ((List.range 128).any (fun e => s.getF (teB e) F.TE_STATUS_STATE == 2)) 6 +
  bitIf (rs.any (fun r => up r && s.domOn (66 + 3 * r) && (s.mcState (2 * r) == 3 || s.mcState (2 * r + 1) != 2))) 7 +
  bitIf (s.flag devB F.CAST_STATUS_IMAGE) 8 +
  bitIf (s.boot.faulty != 0) 9 +
  bitIf s.dup 10

/-- The STATE byte of DEVICE_INFO and of announcements (R383). -/
def State.stateByte (s : State) : Nat :=
  s.pwrState + (if s.reRunning then 0x10 else 0) + (if s.power.bind then 0x20 else 0)

/-! ## Announcements (R438, R439) -/

/-- An announcement of a kind. -/
def State.annBytes (s : State) (kind : Nat) : List Byte :=
  let m := be 2 0x4841 ++ [1, BitVec.ofNat 8 kind] ++ be 2 (s.getF devB F.DEV_NUM_DEVNUM) ++
    [BitVec.ofNat 8 (s.getF devB F.CAST_STATUS_IMAGE), BitVec.ofNat 8 s.stateByte] ++
    be 8 (s.getF devB F.DEV_SERIAL_SERIAL) ++ be 4 (s.getF devB F.FW_VERSION_FW_VER) ++ be 4 s.degraded ++
    be 2 (s.getF cmdB F.CMD_CFG_UDP_PORT) ++ be 2 s.net.annSeq ++ zeros 4
  m ++ tag16 s.annKey m

/-- The ports from which an announcement is sent: each whose link is up; under PRP one goes out on both (R439, R573, R576);
none while the family of its address is disabled (R606). -/
def State.annPorts (s : State) : List Nat :=
  let up := (List.range 2).filter s.linkIsUp
  if !s.canIp (s.addr6 F.ANN_ADDR_ADDR) then []
  else if s.flag netB F.NET_CTRL_PRP_EN then up.take 1 else up

/-- Send an announcement; ANN_SEQ counts those sent (R438). -/
def State.announce (s : State) (kind : Nat) : State :=
  let bs := s.annBytes kind
  let port := s.getF devB F.ANN_CFG_ANN_PORT
  let ps := s.annPorts
  let s := if ps.isEmpty then s else { s with net := { s.net with annSeq := (s.net.annSeq + 1) % 65536 } }
  forL ps (fun p t => t.sendUdp p (t.addr6 F.ANN_ADDR_ADDR) port port F.NET_PCP_PCP_CMD bs) s

/-- ANNOUNCE_PERIODIC: ANN_PER seconds have passed since the last one (R439). -/
def execAnnouncePeriodic (s : State) : Host.Outcome State Fault Refusal :=
  .next (if s.boot.step = 10 ∧ s.pwrState ≠ 4 ∧ s.getF devB F.ANN_CFG_ANN_PER ≠ 0 then s.announce 2 else s)

/-- DEGRADED_CHANGE: a DEGRADED bit has changed (R439, R449). -/
def execDegradedChange (s : State) : Host.Outcome State Fault Refusal :=
  .next (if s.boot.step = 10 ∧ s.pwrState ≠ 4 ∧ s.degraded ≠ s.degShown then
      let s := { s.setF devB F.DEGRADED_BITS s.degraded with degShown := s.degraded }
      (s.raise devB F.DEV_EVENT_DEGRADE_EV 0xD6).announce 4
    else s)

/-- An announcement of another device is received (R26, R439, R440). -/
def State.annReceived (s : State) (m : List Byte) : State :=
  if m.length = 48 ∧ beAt m 0 2 = 0x4841 ∧ beAt m 2 1 = 1 ∧ tag16 s.annKey (m.take 32) = m.drop 32 ∧
      beAt m 4 2 % 0x4000 = s.getF devB F.DEV_NUM_DEVNUM ∧ beAt m 8 8 ≠ s.getF devB F.DEV_SERIAL_SERIAL then
    let was := s.dup
    let s := { s with dup := true }.raise devB F.DEV_EVENT_DUP_EV 0xD5
    if was then s else s.logReg .duplicateDevice (s.getF devB F.DEV_NUM_DEVNUM) 0xFF (devB + 0x20)
  else s

/-- ANNOUNCE_RECEIVED: an announcement datagram of another device arrives. -/
def execAnnounceReceived (frame : List Byte) (s : State) : Host.Outcome State Fault Refusal :=
  .next (if s.boot.step = 10 then s.annReceived frame else s)

/-! ## Streams (R587, R588) -/

/-- How far the entries of a subscriber have been sent before: the larger of what is sent now and what a restart that still goes
on has to send again (R588). -/
def Sub.sentTo (b : Sub) : Nat :=
  if 0 < diff32 b.resendTo b.sent ∧ diff32 b.resendTo b.sent < 2 ^ 31 then b.resendTo else b.sent

/-- The sending of every network subscriber restarts at its cursor (R588). -/
def State.streamRestart (s : State) : State :=
  { s with subs := s.subs.map (fun e => (e.1,
      match e.2.who with
      | .net .. => { e.2 with resendTo := e.2.sentTo, sent := e.2.cursor, inFlight := [] }
      | .block _ => e.2)) }

/-- Full datagrams that wait are sent to every network subscriber. -/
def State.streamAll (s : State) : State := s.streamServe (s.netSubs (s.subs.map (·.1)))

/-- STREAM_FLUSH_TIMER: the oldest unsent entry of a subscriber has been visible for FLUSH_US (R587). -/
def execStreamFlushTimer (sub : Fin 1024) (s : State) : Host.Outcome State Fault Refusal :=
  .next (match Tab.find sub.val s.subs with
    | none => s
    | some b =>
      let n := diff32 (s.ring b.ring).prod b.sent
      let per := s.streamLimit s.activePort / (s.ring b.ring).esize
      if n = 0 ∨ !s.streamUp ∨ !s.streamMade b then s else s.sendStream sub.val (min n per))

/-- SENT_HOLD_EXPIRY: the oldest datagram of a subscriber left SENT_HOLD µs ago on a link that stayed up: the cursor
passes its entries (R588). -/
def execSentHoldExpiry (sub : Fin 1024) (s : State) : Host.Outcome State Fault Refusal :=
  .next (match Tab.find sub.val s.subs with
    | none => s
    | some b =>
      match b.inFlight with
      | [] => s
      | e :: rest =>
        ({ s with subs := Tab.put sub.val { b with inFlight := rest, cursor := e.1, moved := s.now } s.subs }).grant b.ring)

/-! ## Links (R568, R570, R573 to R575) -/

/-- The multicast groups the device has joined, of one family (R569). -/
def State.groups4 (s : State) : List Nat :=
  let a := s.addr6 F.ANN_ADDR_ADDR
  if s.ip4 = 0 then [] else 0xE0000181 :: (if isV4 a && isMulticast a then [a % 2 ^ 32] else [])

def State.groups6 (s : State) : List Nat :=
  let a := s.addr6 F.ANN_ADDR_ADDR
  if s.ip6 = 0 then []
  else [0xFF0E0000000000000000000000000181, solNode s.ip6] ++ (if !isV4 a && isMulticast a then [a] else [])

/-- An IGMPv2 report of a group (R570; form of RFC 2236, log entry 20). -/
def State.igmpFrame (s : State) (grp : Nat) : List Byte :=
  let m := [0x16, 0] ++ zeros 2 ++ be 4 grp
  s.frameBytes (0x01005E000000 + grp % 2 ^ 23) 0x0800 F.NET_PCP_PCP_CMD
    (ip4Packet s.ip4 grp 2 1 [0x94, 0x04, 0, 0] (patchB m 2 (be 2 (csum16 m))))

/-- An MLDv2 report of the joined groups; `ty` is the record type (form of RFC 3810, log entry 20). -/
def State.mldFrame (s : State) (ty : Nat) : List Byte :=
  let dst := 0xFF020000000000000000000000000016
  let recs := s.groups6.flatMap (fun a => [BitVec.ofNat 8 ty, 0, 0, 0] ++ be 16 a)
  let m := [143, 0] ++ zeros 4 ++ be 2 s.groups6.length ++ recs
  s.frameBytes (mac6 dst) 0x86DD F.NET_PCP_PCP_CMD
    (ip6Packet s.ip6 dst 0 1 ([58, 0, 5, 2, 0, 0, 1, 0] ++ icmp6 s.ip6 dst m))

/-- The membership reports of a port (R570). -/
def State.reports (s : State) (p ty : Nat) : State :=
  let s := forL s.groups4 (fun a t => t.sendOn p 3 (.eth p none (t.igmpFrame a))) s
  if s.groups6.isEmpty then s else s.sendOn p 3 (.eth p none (s.mldFrame ty))

/-- The gratuitous ARP request and the unsolicited neighbour advertisement of a new active port, three of each (R574). -/
def State.gratuitous (s : State) (p : Nat) : State :=
  let allNodes := 0xFF020000000000000000000000000001
  forN 3 (fun _ t =>
    let t := if t.ip4 = 0 then t else t.sendOn p 3 (.eth p none (t.arpBytes 1 t.ip4 0 (2 ^ 48 - 1)))
    if t.ip6 = 0 then t else t.sendOn p 3 (.eth p none (t.ndFrame 136 t.ip6 allNodes (mac6 allNodes) 1))) s

/-- Port `p` becomes the active port (R574, R588). -/
def State.failover (s : State) (p : Nat) : State :=
  let s := (s.setF (ethB (1 - p)) F.ETH_STATUS_ACTIVE 0).setF (ethB p) F.ETH_STATUS_ACTIVE 1
  let s := s.gratuitous p
  let s := (s.raise (ethB p) F.ETH_EVENT_FAILOVER_EV (0xE9 + 2 * p)).logReg .portFailover p 0xFF (ethB p + 8)
  s.streamRestart.streamAll

/-- The link of a port comes up (R568, R570). -/
def State.linkRise (s : State) (p : Nat) : State :=
  let s := ((s.setF (ethB p) F.ETH_STATUS_LINK_UP 1).setF (ethB p) F.ETH_STATUS_FEC_LOCK 1).setF (ethB p) F.ETH_STATUS_REM_FAULT 0
  let s := s.mark (ethB p) F.ETH_EVENT_LINK_UP_EV
  let s := { s with net := { s.net with upAt := Tab.put p s.now s.net.upAt } }
  if s.boot.step = 10 then
    let s := s.reports p 4
    let s := if s.boot.annWait.isEmpty then s else { s with boot := { s.boot with annWait := [] } }.announce 1
    if s.flag netB F.NET_CTRL_PRP_EN then s.streamAll
    else if s.activePort = p then s.streamAll
    else if s.linkIsUp (1 - p) then s
    else s.failover p
  else s

/-- LINK_UP: PCS alignment and FEC lock of a port have held for 100 ms (R568). -/
def execLinkUp (port : Fin 2) (s : State) : Host.Outcome State Fault Refusal :=
  .next (if s.domOn (if port.val = 0 then 90 else 92) && s.flag (ethB port) F.ETH_CTRL_EN && !s.linkIsUp port &&
      decide (7 ≤ s.boot.step) && s.boot.halt == 0 && !s.boot.fails.contains (8, port.val) then s.linkRise port else s)

/-- The link of a port goes down (R568, R574). -/
def State.linkFall (s : State) (p : Nat) (remFault : Bool) : State :=
  let s := s.setF (ethB p) F.ETH_STATUS_LINK_UP 0
  let s := (s.setF (ethB p) F.ETH_STATUS_FEC_LOCK (if remFault then 1 else 0)).setF (ethB p) F.ETH_STATUS_REM_FAULT (if remFault then 1 else 0)
  let s := { s with net := { s.net with upAt := Tab.del p s.net.upAt } }.txDrop p
  let s := (s.raise (ethB p) F.ETH_EVENT_LINK_DN_EV (0xEA + 2 * p)).logReg .linkDown p 0xFF (ethB p + 8)
  if s.flag netB F.NET_CTRL_PRP_EN ∨ s.activePort ≠ p then s
  else if s.linkIsUp (1 - p) then s.failover (1 - p)
  else s.streamRestart

/-- LINK_DOWN: alignment or lock has been lost, or a remote fault received, for 10 µs. -/
def execLinkDown (port : Fin 2) (remFault : Bool) (s : State) : Host.Outcome State Fault Refusal :=
  .next (if s.linkIsUp port then s.linkFall port remFault else s)

/-- PORT_REVERT: with REVERT = 1, PREF_PORT's link has been up for 10 s (R575). -/
def execPortRevert (s : State) : Host.Outcome State Fault Refusal :=
  let p := s.getF netB F.NET_CTRL_PREF_PORT
  .next (if s.flag netB F.NET_CTRL_REVERT && !s.flag netB F.NET_CTRL_PRP_EN && s.activePort != p && s.linkIsUp p then
      s.failover p
    else s)

/-- NEIGHBOUR_TIMEOUT: the oldest packet of a port that waits for its next hop has waited 1 s and is discarded (R571). -/
def execNeighbourTimeout (port : Fin 2) (s : State) : Host.Outcome State Fault Refusal :=
  .next (match s.net.wait.find? (fun w => w.2.2.port == port.val) with
    | some w => { s with net := { s.net with wait := s.net.wait.erase w } }
    | none => s)

/-- PRP_SUPERVISION: every 2 s under PRP (R576; form of IEC 62439-3, log entry 20). -/
def execPrpSupervision (s : State) : Host.Outcome State Fault Refusal :=
  .next (if s.flag netB F.NET_CTRL_PRP_EN ∧ s.boot.step = 10 then
      let body := be 2 1 ++ be 2 s.net.supSeq ++ [20, 6] ++ be 6 s.mac ++ [0, 0]
      let f := s.frameBytes 0x01154E000100 0x88FB F.NET_PCP_PCP_CMD (padTo 46 body)
      { s with net := { s.net with supSeq := (s.net.supSeq + 1) % 65536 } }.sendOn 0 3 (.eth 0 none f)
    else s)

/-! ## Timed launch (R579 to R583) -/

/-- The block that reads the ring of launch queue `q`. -/
def lqBlock (q : Nat) : Nat := netB + 0x900 + 0x10 * q

/-- The status of enabling a launch queue (R509, R525). -/
def State.lqStatus (s : State) (q : Nat) : Nat :=
  let id := s.getF netB (F.LQ_CFG_RING.nth q)
  if !s.ringOk id false then stBadParam
  else if !s.canPin [id] || !s.canSub id then stNoResource
  else stOk

/-- A launch queue is enabled: it becomes an internal subscriber of its ring (R579). -/
def State.lqStart (s : State) (q : Nat) : State :=
  let id := s.getF netB (F.LQ_CFG_RING.nth q)
  (s.bind id (lqBlock q) false).subBlock id (lqBlock q)

/-- A launch queue is disabled. -/
def State.lqStop (s : State) (q : Nat) : State :=
  let s := { s with net := { s.net with lqWait := s.net.lqWait.filter (· != q) } }
  (s.unsubBlock (s.getF netB (F.LQ_CFG_RING.nth q)) (lqBlock q)).unbind (lqBlock q)

/-- Write STATUS, and before it the transmit time, into the head entry, and move past it (R583). -/
def State.lqEnd (s : State) (q status txSec txNs : Nat) : State :=
  let id := s.getF netB (F.LQ_CFG_RING.nth q)
  let a := (s.ring id).entryAddr (s.cursorOf id (lqBlock q))
  let s := (s.memWrite 1 (blockUnit netB) (a + 0x20) (le 8 txSec ++ le 4 txNs)).1
  let s := (s.memWrite 1 (blockUnit netB) (a + 0x1C) (le 1 status)).1
  s.take id (lqBlock q) 1

/-- An entry that sends nothing has no transmit time: what is written for it is free. -/
def State.lqNone (s : State) (q status : Nat) : State :=
  let sec := (Config.freeBits 64 s.freeCtr).toNat
  let ns := (Config.freeBits 32 (s.freeCtr + 1)).toNat
  ({ s with freeCtr := s.freeCtr + 2 }).lqEnd q status sec ns

/-- The ones'-complement sum with the carry brought round. -/
def add1c (a b : Nat) : Nat := (a + b) / 65536 + (a + b) % 65536

/-- A late frame: FLAG_MASK ORed into byte FLAG_OFF, and the checksum updated for its word (R582). -/
def lateFrame (f : List Byte) (off mask csum : Nat) : List Byte :=
  let g := patchB f off [BitVec.ofNat 8 ((beAt f off 1) ||| mask)]
  if csum = 0 ∨ f.length < csum + 2 then g
  else
    let w := fun (b : List Byte) => beVal (padTo 2 (sliceB b (off / 2 * 2) 2))
    let c := add1c (add1c (65535 - beAt g csum 2) (65535 - w f)) (w g)
    patchB g csum (be 2 (65535 - c))

/-- The time in ns that a launch frame of `n` bytes takes at 100 Gb/s, with its preamble, FCS and gap, and under PRP its
trailer (log entry 23). -/
def State.frameNs (s : State) (n : Nat) : Nat := ((n + 24 + if s.flag netB F.NET_CTRL_PRP_EN then 6 else 0) * 2 + 24) / 25

/-- A frame of a launch queue is sent, no sooner than the launch frame before it has left: counted, with its transmit time in ns
(R580, R581, R583, R594). -/
def State.lqSend (s : State) (q status : Nat) (frame : List Byte) (due : Nat) : State :=
  let tx := max due s.net.lqBusy
  let s := { s with net := { s.net with lqBusy := tx + s.frameNs frame.length } }
  let s := s.sendOn s.activePort (launchPrio q) (.eth s.activePort none frame)
  let s := s.incF netB (F.LQ_SENT_COUNT.nth q) 1
  s.lqEnd q status (tx / 1000000000) (tx % 1000000000)

/-- The launch time of an entry, in ns. -/
def lqTime (e : List Byte) : Nat := leAt e 0x10 8 * 1000000000 + leAt e 0x18 4

/-- Whether an entry can be sent (R580). -/
def State.lqGood (s : State) (e : List Byte) : Bool :=
  let len := leAt e 8 2
  decide (60 ≤ len) && decide (len ≤ if s.flag (ethB s.activePort) F.ETH_CTRL_JUMBO then 9212 else 1518) &&
    decide (leAt e 0xA 2 < len) && leAt e 0xE 2 % 2 == 0

/-- Whether launch queue `q` has an entry to send. -/
def State.lqRuns (s : State) (q : Nat) : Bool :=
  s.flag netB (F.LQ_CFG_EN.nth q) && s.avail (s.getF netB (F.LQ_CFG_RING.nth q)) (lqBlock q) != 0

/-- The bytes of the head entry of launch queue `q`. -/
def State.lqHead (s : State) (q : Nat) : List Byte :=
  let id := s.getF netB (F.LQ_CFG_RING.nth q)
  s.peeks ((s.ring id).entryAddr (s.cursorOf id (lqBlock q))) 64

/-- Whether a lower queue than `q` has a frame whose launch time lies within one frame time of that of entry `e`: it goes first
(R581). -/
def State.lqBehind (s : State) (q : Nat) (e : List Byte) : Bool :=
  (List.range q).any (fun p =>
    s.lqRuns p && s.lqGood (s.lqHead p) &&
      decide ((Int.ofNat (lqTime (s.lqHead p)) - Int.ofNat (lqTime e)).natAbs ≤ s.frameNs (max (leAt e 8 2) (leAt (s.lqHead p) 8 2))))

/-- The local time in ns at which a frame that is handed to a port now leaves it (R594): the capture, the latency of the port
mode and the external delay. -/
def State.txNow (s : State) (port : Nat) : Nat := (s.txStamp port / 65536).toNat

/-- The bytes of the frame of an entry; what cannot be read ends the entry with STATUS 0x04 (R580). -/
def State.lqWith (s : State) (q : Nat) (e : List Byte) (f : State → List Byte → State) : State :=
  let r := s.memRead 1 (blockUnit netB) (leAt e 0 5) (leAt e 8 2)
  match r.2 with
  | .error _ => r.1.lqNone q 4
  | .ok b => f r.1 b

/-- The head entry of a queue leaves at its launch time: within ±8 ns of it, where in that span is free (log entry 23). -/
def State.lqOnTime (s : State) (q : Nat) (e : List Byte) : State :=
  s.lqWith q e (fun t f => t.tickFree.lqSend q 1 f (lqTime e + (Config.freeBits 8 t.freeCtr).toNat % 17 - 8))

/-- The head entry of a queue reaches the port late (R582). -/
def State.lqLate (s : State) (q : Nat) (e : List Byte) : State :=
  s.lqWith q e (fun t f =>
    let t := t.satF netB (F.LQ_LATE_COUNT.nth q) 1
    if t.flag netB (F.LQ_CFG_LATE_FLAG.nth q) then
      t.lqSend q 2 (lateFrame f (leAt e 0xA 2) (leAt e 0xC 1) (leAt e 0xE 2)) (t.txNow t.activePort)
    else t.lqNone q 3)

/-- The head entry of a launch queue at its launch time, or when it reaches the port after it (R580 to R583). An entry whose
launch time has not come waits; so does one that is due while a lower queue has a frame within one frame time of it. -/
def State.launch (s : State) (q : Nat) (e : List Byte) : State :=
  if !s.lqGood e then s.lqNone q 4
  else if s.localT + 8 * 2 ^ 40 < lqTime e * 2 ^ 40 then s
  else if s.localT ≤ (lqTime e + 8) * 2 ^ 40 then
    if s.lqBehind q e then { s with net := { s.net with lqWait := q :: s.net.lqWait.filter (· != q) } } else s.lqOnTime q e
  else s.lqLate q e

/-- The queues that waited for a lower one whose frame has now left send theirs, the lowest first (R581). -/
def State.lqServe (s : State) : State :=
  forN 8 (fun q t =>
    if t.net.lqWait.contains q && t.lqRuns q && !t.lqBehind q (t.lqHead q) then
      { t with net := { t.net with lqWait := t.net.lqWait.filter (· != q) } }.lqOnTime q (t.lqHead q)
    else t) s

/-- The head entry of a queue is read and handled, where it does not wait already. -/
def State.lqDue (s : State) (q : Nat) : State :=
  if s.net.lqWait.contains q then s
  else
    let r := s.readEntry (s.getF netB (F.LQ_CFG_RING.nth q)) (lqBlock q) 0 (blockUnit netB)
    match r.2 with
    | .ok e => r.1.launch q e
    | .error _ => r.1.lqNone q 4

/-- LAUNCH_DUE: the launch time of a queue's head entry falls due, or the entry reaches the port late (R581). -/
def execLaunchDue (q : Fin 8) (s : State) : Host.Outcome State Fault Refusal :=
  .next (if s.lqRuns q && s.streamUp then (s.lqDue q).lqServe else s)

end Sys2Proof.Machine
end

