-- ==== Sys2Proof/Machine/FaultRows.lean ====
section
/-!
DEFINITION. Faults of channels, clusters, regions and links (19_replay_faults R682 to R688, 01_architecture R22 to R24,
05_seam R216). The commands CHANNEL_FAULT_DETECT, SPARE_TAKEOVER, RGN_RESTORE, CLUSTER_FAULT, REGION_FAULT, DIE_LINK_FAULT
and SEAM_LINK_FAULT.
-/

namespace Sys2Proof.Machine

/-! ## Channels and spares (R683 to R685) -/

/-- Whether the spare of region `r` is free to serve: powered, idle, and not about to take a channel. -/
def State.spareFree (s : State) (r : Nat) : Bool :=
  s.domOn (64 + 3 * r) && s.getF (spareB r) F.SPARE_STATUS_STATE == 0 && !s.spareDue.any (fun ch => ch / 16 == r)

/-- Channel `ch` is masked from its oldest uncommitted course on, also where its correction stage has committed it (R24,
R670, R683). -/
def State.maskLost (s : State) (ch : Nat) : State :=
  let k := s.uncommitted ch
  let x := s.ch ch
  let fill := s.getF (ingB ch) F.ING_CFG_FILL
  let s := s.setCh ch
    { x with
      lostAt := some k
      spares := endSpan k x.spares
      out := x.out.map (fun o => if k ≤ o.1 then (o.1, maskedPix fill o.2) else o) }
  let s := match s.workGroup ch with
    | some g => forL (x.waitsFrom k) (fun j t => t.cswSet g j cswMasked) s
    | none => s
  let s := match s.groupOf ch with
    | some g => s.jrn 0x08 g 6 ch 0 (Int.ofNat k) [3]
    | none => s
  s.logReg .channelLost ch (s.groupCode ch) (rgnB (ch / 16))

/-- A fault of a channel pipeline is detected (R683, R684). The course at which it was found commits nothing; the channel is
out of service, and the spare takes its lane where AUTO_SPARE is set and the spare is free. A fault found while the spare
works for the channel is a fault of the spare. -/
def State.channelFails (s : State) (ch : Nat) : State :=
  let r := ch / 16
  if s.outOfService ch then
    if s.spared ch then
      let s := (s.setF (spareB r) F.SPARE_STATUS_STATE 2).setF (rgnB r) F.RGN_XBAR_SPARE_LANE 0x1F
      s.maskLost ch
    else s
  else
    let s := s.setF (rgnB r) F.RGN_FAILED_CH (setBit (s.getF (rgnB r) F.RGN_FAILED_CH) (ch % 16))
    if s.flag fmB F.FM_CTRL_AUTO_SPARE && s.spareFree r then
      let s := { s with spareDue := s.spareDue ++ [ch] }
      s.log .channelSpared ch (s.groupCode ch) (le 2 ch ++ zeros 6 ++ le 8 (s.uncommitted ch))
    else s.maskLost ch

/-- CHANNEL_FAULT_DETECT: a parity or residue check fails in a stage of the channel. -/
def execChannelFaultDetect (ch : Fin 128) (s : State) : Host.Outcome State Fault Refusal := .next (s.channelFails ch.val)

/-- The spare works for channel `ch` from its oldest uncommitted course on; a course that only the seam stage has still to
commit carries SPARE as well (R683, R684). -/
def State.spareBegins (s : State) (ch : Nat) : State :=
  let x := s.ch ch
  let k := s.uncommitted ch
  let s := s.setCh ch { x with spares := x.spares ++ [(k, none)] }
  match s.workGroup ch with
  | some g => forL (x.waitsFrom k) (fun j t =>
      (t.cswSet g j cswSpare).incF (spareB (ch / 16)) F.SPARE_COURSES_COUNT 1) s
  | none => s

/-- SPARE_TAKEOVER: the crossbar has given the lane of the failed channel to the spare of the region, which starts at the
oldest course not committed (R684); a spare that has failed meanwhile leaves the channel masked. -/
def execSpareTakeover (region : Fin 8) (s : State) : Host.Outcome State Fault Refusal :=
  let r := region.val
  .next (match s.spareDue.find? (fun ch => ch / 16 == r) with
    | none => s
    | some ch =>
      let s := { s with spareDue := s.spareDue.erase ch }
      if s.getF (spareB r) F.SPARE_STATUS_STATE = 0 then
        let s := (s.setF (spareB r) F.SPARE_STATUS_STATE 1).setF (spareB r) F.SPARE_STATUS_FOR ch
        let s := (s.satF (spareB r) F.SPARE_TAKES_COUNT 1).setF (rgnB r) F.RGN_XBAR_SPARE_LANE (ch % 16)
        s.spareBegins ch
      else s.maskLost ch)

/-- A channel comes back into service (R685). -/
def State.restoreChan (s : State) (ch : Nat) : State :=
  let r := ch / 16
  let s := if s.spared ch then
      ((s.setF (spareB r) F.SPARE_STATUS_STATE 0).setF (spareB r) F.SPARE_STATUS_FOR 0).setF (rgnB r) F.RGN_XBAR_SPARE_LANE 0x1F
    else s
  let s := s.setF (rgnB r) F.RGN_FAILED_CH (clrBit (s.getF (rgnB r) F.RGN_FAILED_CH) (ch % 16))
  { s.setCh ch { s.ch ch with lostAt := none, spares := endSpan (s.uncommitted ch) (s.ch ch).spares } with spareDue := s.spareDue.filter (· != ch) }

/-- A write of RGN_RESTORE: the channels whose bits are 1 and whose group is stopped return. -/
def State.rgnRestore (s : State) (r mask : Nat) : State :=
  forL ((List.range 16).filter (fun i => bit mask i && (s.groupOf (16 * r + i)).isNone)) (fun i t => t.restoreChan (16 * r + i)) s

/-- RGN_RESTORE: a write of the register (R685). -/
def execRgnRestore (region : Fin 8) (mask : BitVec 16) (s : State) : Host.Outcome State Fault Refusal :=
  .next (s.rgnRestore region.val mask.toNat)

/-! ## Clusters, regions and links -/

/-- The pixel work of a cluster stops (R22). -/
def State.stopCluster (s : State) (c : Nat) : State := { s with stopped := setBit s.stopped c }

/-- A fault of a cluster outside a single unit: it is reported and not masked (R22, R688). -/
def State.clusterFails (s : State) (c : Nat) : State :=
  ((s.stopCluster c).mark (clB c) F.CL_STATUS_FAULT).logReg .clusterFault c 0xFF (clB c)

/-- CLUSTER_FAULT. -/
def execClusterFault (c : Fin 32) (s : State) : Host.Outcome State Fault Refusal := .next (s.clusterFails c.val)

/-- REGION_FAULT: the pixel work of the region stops; it is unavailable through a fault (R22, R383, R688). -/
def execRegionFault (region : Fin 8) (s : State) : Host.Outcome State Fault Refusal :=
  let s := forN 4 (fun i t => t.stopCluster (4 * region.val + i)) s
  let s := { s with boot := { s.boot with avail := clrBit s.boot.avail region.val, faulty := setBit s.boot.faulty region.val } }
  .next (s.log .regionFault region.val 0xFF [])

/-- Whether the run of group `g` crosses die link `l` (R480): a link between loom dies when it has channels on both, a link
to the hub when it has channels on the die. -/
def State.crosses (s : State) (l g : Nat) : Bool :=
  let on := fun (d : Nat) => (s.runChans g).any (fun ch => ch / 32 == d)
  if l < 4 then on l else on (l - 4) && on (l - 3)

/-- DIE_LINK_FAULT: FAULT_EV, every group whose run crosses the link stops, and the log entry (R22). -/
def execDieLinkFault (l : Fin 7) (s : State) : Host.Outcome State Fault Refusal :=
  let s := s.raise (dlB l) F.LINK_STATUS_FAULT_EV 0xDF
  let s := s.stopGroups (fun g => s.crosses l g)
  .next (s.logReg .dieLink l 0xFF (dlB l))

/-- SEAM_LINK_FAULT: the link that joins channel `ch` to channel `ch` + 1 fails (R216); between loom dies it is the die
link of R480. -/
def execSeamLinkFault (ch : Fin 128) (s : State) : Host.Outcome State Fault Refusal :=
  let c := ch.val
  .next (if c = 127 then s
    else
      let die := c % 32 == 31
      let l := 4 + c / 32
      let s := if die then s.raise (dlB l) F.LINK_STATUS_FAULT_EV 0xDF else s
      let s := s.stopGroups (fun g => s.inRun g c && s.inRun g (c + 1))
      if die then s.logAs .seamLink 3 3 l 0xFF (s.payReg (dlB l)) else s.log .seamLink (c / 4) 0xFF [])

end Sys2Proof.Machine
end

