-- ==== Sys2Proof/Machine/Patterns.lean ====
section
/-!
DEFINITION. Pattern sets (10_patterns_registers R390 to R404): the checks of a swap, the swap of a stopped set, revert,
and copy-back. The commands COPY_BACK_START and COPY_BACK_END.
-/

namespace Sys2Proof.Machine

/-- PHASE of a set: 0 idle, 1 pending, 2 copy-back. -/
def State.phase (s : State) (set : Nat) : Nat := s.getF (patB set) F.PAT_STATUS_PHASE

/-- Whether the copy-back of another set covers a channel that has passed to this one (R391, R402). -/
def State.lentTo (s : State) (set : Nat) : Bool :=
  s.copying.any (fun e => e.set != set && (s.setChans set).any e.chans.contains)

/-- Whether the shadow copy of a register is frozen: a swap of its set is in progress, or the copy-back of the set that it
left when its group stopped (R397, R402). -/
def State.frozenAt (s : State) (addr : Nat) : Bool :=
  s.phase (s.setAt addr) != 0 || s.copying.any (fun e => (chOfAddr addr).any e.chans.contains)

/-- Whether a set serves a running group, or for set 16 whether any group runs (R401). -/
def State.setRuns (s : State) (set : Nat) : Bool := if set < 16 then s.running set else s.anyRunning

/-- The course view of a set (R394, R401). -/
def State.setStamp (s : State) (set : Nat) : Int := if set < 16 then s.stampG set else s.stampDev

/-- No CUT of the channels of a set lies beyond its overlap (R198). -/
def State.cutsOk (s : State) (set : Nat) : Bool :=
  (s.setChans set).all (fun ch => decide (s.getSh (seamB ch) F.SEAM_BLEND_CUT ≤ s.ovl ch))

/-- The shadow-set check (R395): ranges, R195, R198, R211, and the descriptors of R290. An armed group counts as running. -/
def State.shadowOk (s : State) (set : Nat) : State × Bool :=
  if !s.rangesOk set true || !s.cutsOk set then (s, false)
  else if set < 16 then
    let run := s.startedGroups.contains set
    if run && (!s.alongOk set true || !s.selvOk set true) then (s, false)
    else s.slotsOk set true (List.range 8)
  else (s, true)

/-- Whether a set serves a group under re-run, or channels of one (R380). -/
def State.rerunSet (s : State) (set : Nat) : Bool :=
  (decide (set < 16) && s.rerunG set) ||
    (List.range 16).any (fun g => s.rerunG g && (s.setChans set).any (s.inRun g))

/-- PATTERN_SWAP (R394 to R396, R401): status, course of the reply, and the state. -/
def State.swapReq (s : State) (set when' : Nat) (course : Nat) : State × Nat × Int :=
  let v := s.setStamp set
  let b := patB set
  if s.phase set ≠ 0 || s.lentTo set || s.rerunSet set then (s, stBusy, v)
  else if set < 16 && s.flag (gtalB set) F.TALLY_STATUS_DRAIN then (s, stBusy, v)
  else
    let run := s.setRuns set
    let c : Int := if when' = 0 then v + 1 else Int.ofNat course
    if run && when' == 1 && decide (c ≤ v) then (s, stCoursePassed, v)
    else if run && when' == 1 && decide (v + 2 ^ 32 < c) then (s, stBadParam, v)
    else
      let k := s.shadowOk set
      let s := k.1
      if !k.2 then (s.satF b F.PAT_REJECT_COUNT 1, stBadParam, v)
      else if run then
        ((s.setF b F.PAT_STATUS_PHASE 1).setI b F.PAT_SWAP_COURSE_COURSE c, stAccepted, c)
      else
        -- a stopped set swaps at once (R401); its copy-back follows
        ((s.setI b F.PAT_SWAP_COURSE_COURSE v).swapNow set v, stOk, v)

/-- PATTERN_REVERT (R396, R404). -/
def State.revertReq (s : State) (set : Nat) : State × Nat :=
  if s.phase set ≠ 0 || s.lentTo set || s.rerunSet set then (s, stBusy) else (s.copyBank set, stOk)

/-- The hand course of a descriptor and of a record: FIRST_COURSE + LENGTH (R258, R268, R297). -/
def descHand (d : List Byte) : Nat := leAt d 0x08 8 + leAt d 0x10 4
def recordHand (r : List Byte) : Nat := leAt r 0x28 8 + leAt r 0x30 2

/-- The descriptors that wait on DESC_RING of a group. -/
def State.ringDescs (s : State) (g : Nat) : List (List Byte) :=
  let r := s.getF (gsegB g) F.DESC_RING_RING
  (List.range (s.avail r (gtalB g))).map (fun i => s.entriesAt r (s.cursorOf r (gtalB g) + i) 1)

/-- Whether the resolution of map course `c` − 1 of a group is complete (R399). -/
def State.segDone (s : State) (g : Nat) (c : Int) : Bool :=
  decide (16 ≤ g) || (s.g g).st == 0 || !s.flag (gsegB g) F.SEG_CTRL_SEG_EN || decide (c ≤ Int.ofNat (s.sg g).res)

/-- Whether no open component, descriptor, job or record of a group has or can take a hand course before `c` (R399). -/
def State.talliesDone (s : State) (g : Nat) (c : Int) : Bool :=
  let x := s.sg g
  decide (16 ≤ g) || (s.g g).st == 0 || !s.flag (gtalB g) F.TALLY_CTRL_TALLY_EN ||
    (s.segDone g c &&
      (x.comps ++ x.overC.toList).all (fun k => decide (c ≤ Int.ofNat k.last + 1) && k.pend.all (fun p => decide (c ≤ Int.ofNat p.2 + 1))) &&
      (x.hand ++ s.ringDescs g ++ (s.tg g).jobs.map (·.desc)).all (fun d => decide (c ≤ Int.ofNat (descHand d))) &&
      (s.tg g).done.all (fun r => decide (c ≤ Int.ofNat (recordHand r.2.1))))

/-- The blocks of a set that have finished the work governed by the old bank begin their copy-back (R399). -/
def State.copyStarts (s : State) (e : CopyBack) : CopyBack :=
  { e with seg := e.seg || s.segDone e.set e.course, tally := e.tally || s.talliesDone e.set e.course }

/-- COPY_BACK_START: group segmentation begins once the resolution of map course c − 1 is complete, group tally once every
job with hand course before c has released its record (R399). -/
def execCopyBackStart (set : Fin 17) (s : State) : Host.Outcome State Fault Refusal :=
  .next { s with copying := s.copying.map (fun e => if e.set = set.val then s.copyStarts e else e) }

/-- The copy-back of a set ends, where one is under way: the shadow bank equals the active one, PHASE is idle, SWAPS rises and
SWAP_EV is set (R400). -/
def State.copyEnd (s : State) (set : Nat) : State :=
  match s.copying.find? (fun e => e.set == set) with
  | some e =>
    if s.phase set = 2 then
      let s := { s with copying := s.copying.filter (fun x => x.set != set) }
      let s := (s.copyBack e).setF (patB set) F.PAT_STATUS_PHASE 0
      (s.incF (patB set) F.PAT_SWAPS_COUNT 1).raise (patB set) F.PAT_STATUS_SWAP_EV 0xD3
    else s
  | none => s

/-- COPY_BACK_END: the last block has copied (R400). -/
def execCopyBackEnd (set : Fin 17) (s : State) : Host.Outcome State Fault Refusal :=
  .next (match s.copying.find? (fun e => e.set == set.val) with
    | some e => if e.seg ∧ e.tally then s.copyEnd set else s
    | none => s)

end Sys2Proof.Machine
end

