-- ==== Sys2Proof/Machine/RingRows.lean ====
section
/-!
DEFINITION. The commands of the ring manager (14_rings_dma): RING_RESERVE, PROD_ADVANCE, RING_DOORBELL, SUB_EVICTION and
CONTEXT_LOAD.
-/

namespace Sys2Proof.Machine

/-- Whether the device producer of a ring waits for room: a group's descriptors and records do, the results of a codec and an
export; the others discard (R260, R303, R515, R558, R675). -/
def State.prodWaits (s : State) (id : Nat) : Bool :=
  s.binds.any (fun b => b.1 == id && b.2.2 &&
    (b.2.1 / 0x1000 == 0x50 || (b.2.1 / 0x1000 == 0x60 && !(s.ring id).e256) || (List.range 9).any (fun k => b.2.1 == hkB k) ||
      b.2.1 == exportBinder))

/-- The rings of armed replay: the replay block makes room by moving its cursor (R667). -/
def State.replayRing (s : State) (id : Nat) : Bool := s.armed && s.binds.contains (id, repB, true)

/-- RING_RESERVE: a device producer asks for the `n` entries of one item; it receives all of them, or waits, or
discards the item (R515); on a ring of armed replay the oldest items go first (R667). -/
def execRingReserve (ring : BitVec 20) (n : Nat) (s : State) : Host.Outcome State Fault Refusal :=
  .next (if (s.ring ring.toNat).valid ∧ (s.ring ring.toNat).devProd ∧ n ≠ 0 then
      let s := if s.replayRing ring.toNat then
          s.evictItems ring.toNat (n * (s.ring ring.toNat).esize) s.rep.items.length
        else s
      s.reserve ring.toNat n (s.prodWaits ring.toNat)
    else s)

/-- PROD_ADVANCE: the entries of the oldest reservation that is not covered have all arrived; PROD advances over every
covered reservation with none uncovered before it (R516). -/
def execProdAdvance (ring : BitVec 20) (s : State) : Host.Outcome State Fault Refusal :=
  .next ({ s with resv := coverFirst ring.toNat s.resv }.advance ring.toNat)

/-- The doorbell of a ring that the host produces for (R517). -/
def State.doorbell (s : State) (id prod : Nat) : State × Nat :=
  let s := s.ringUse id
  let c := s.ring id
  let d := diff32 prod c.prod
  if id < 0x100 then (s, stNotPermitted)
  else if !c.valid then (s, stBadParam)
  else if c.devProd then (s, stBadParam)
  else if d = 0 then (s, stOk)
  else if s.free id < d then (s, stBadParam)
  else ((s.setRing id { c with prod := prod }).streamKick id, stOk)

/-- RING_DOORBELL: a write of RING_DB_PROD (R517). -/
def execRingDoorbell (ring : BitVec 20) (prod : BitVec 32) (s : State) : Host.Outcome State Fault Refusal :=
  .next (s.doorbell ring.toNat prod.toNat).1

/-- Whether a network subscriber is to be evicted, but for the time that has passed (R522). -/
def State.evictable (s : State) (k : Nat) : Bool :=
  match Tab.find k s.subs with
  | some b =>
    (match b.who with
      | .net .. => true
      | .block _ => false) &&
      s.free b.ring == 0 && s.starved.contains b.ring && b.cursor == s.tail b.ring &&
      s.getF ringB F.RING_CFG_SUB_TMO != 0
  | none => false

/-- SUB_EVICTION: the cursor of the subscriber that holds its full ring has not moved for SUB_TMO (R522, R523). -/
def execSubEviction (sub : Fin 1024) (s : State) : Host.Outcome State Fault Refusal :=
  .next (if s.evictable sub then
      let s := (s.dropSub sub).satF ringB F.SUB_EVICTS_COUNT 1
      (s.raise ringB F.RING_EVENT_EVICT_EV 0xE3).logReg .ringEvict sub 0xFF (ringB + 0x14)
    else s)

/-- CONTEXT_LOAD: a context is used; where its cache entry fails the parity check it is reloaded from the table (R525). -/
def execContextLoad (ring : BitVec 20) (parity : Bool) (s : State) : Host.Outcome State Fault Refusal :=
  .next (if parity && s.ctxCache.contains ring.toNat then (s.loadCtx ring.toNat).satF ringB F.CTX_ECC_COUNT 1
    else s.touchRing ring.toNat)

end Sys2Proof.Machine
end

