-- ==== Sys2Proof/Machine/Yarn.lean ====
section
/-!
DEFINITION. Yarn, the event router (18_yarn_aux R633 to R647): producers, channels and forks, task inputs with their
re-arm and merging, the tasks, and the storm windows. The commands PRODUCER_FIRE, YARN_FIRE and STORM_WINDOW_END.
-/

namespace Sys2Proof.Machine

/-- Whether a number holds a producer (R634). -/
def isProducer (n : Nat) : Bool :=
  decide (n < 0xF6) && !(decide (0xAA ≤ n) && decide (n ≤ 0xAF))

/-- Whether a number holds a task (R635). -/
def isTask (t : Nat) : Bool :=
  decide (t ≤ 0x016) || (decide (0x020 ≤ t) && decide (t ≤ 0x02F)) || (decide (0x040 ≤ t) && decide (t < 0x180))

/-- The domain of a task's block (R637); none for one that acts in every power state (WAKE, FW_IRQ). -/
def taskDomain (t : Nat) : Option Nat :=
  if t = 0x010 ∨ t = 0x011 ∨ t = 0x016 ∨ (0x020 ≤ t ∧ t ≤ 0x02F) then some 95
  else if t = 0x012 then some 93
  else if t = 0x015 ∨ (0x040 ≤ t ∧ t ≤ 0x07F) then none
  else some 91

/-- TASK_MERGE of a task, counted for tasks 0x000 to 0x03F; a merged NOTIFY counts for its next entry; FW_IRQ has no
counter (R635, R639, R643). -/
def State.taskMerge (s : State) (t : Nat) : State :=
  if t < 0x40 then s.satF yarnB (F.TASK_MERGE_COUNT.nth t) 1
  else if 0x80 ≤ t then
    { s with yarn := { s.yarn with merged := Tab.put (t - 0x80) (satAdd 16 (Tab.get 0 (t - 0x80) s.yarn.merged) 1) s.yarn.merged } }
  else s

/-- The entry of NOTIFY[n] (R639). -/
def State.notifyBytes (s : State) (n : Nat) : List Byte :=
  padTo 64 (le 2 (0x80 + n) ++ le 2 (Tab.get 0 n s.yarn.merged) ++ zeros 4 ++ le 8 s.sec ++ le 4 s.ns ++ zeros 4 ++
    le 8 (s.viewOf 0xFF))

/-- NOTIFY[n] (R639): with no room on the ring the entry is discarded and MERGED goes on counting. -/
def State.notify (s : State) (n : Nat) : State :=
  if s.flag yarnB F.YARN_RING_EN then
    let r := s.ringPush (s.getF yarnB F.YARN_RING_RING) (s.notifyBytes n)
    if r.2 then { r.1 with yarn := { r.1.yarn with merged := Tab.del n r.1.yarn.merged } } else r.1
  else s

/-- FW_IRQ[n]: in SLEEP it is held until the cores run again (R637). -/
def State.fwIrq (s : State) (n : Nat) : State :=
  if s.pwrState = 4 ∧ !(s.boot.wake && decide (7 ≤ s.boot.step)) then { s with yarn := { s.yarn with heldIrq := s.yarn.heldIrq ++ [n] } } else s.emit (.irq n)

/-- CMP_MARK of unit `u` (R638). -/
def State.cmpMark (s : State) (u : Nat) : State :=
  if s.flag (cmpB u) F.CMP_CTRL_EN then s.cmpInsert u (s.chwm u + s.getI (cmpB u) F.CMP_DIST_DIST, 0) else s

/-- SEG_HOLD of group `g`: a class 4 input with the group's course view (R229, R636). -/
def State.segHoldTask (s : State) (g : Nat) : State := if s.running g then s.submit g 4 g .segHold else s

/-- The action of a task (R635). -/
def State.taskAct (s : State) (t : Nat) : State :=
  if t < 0x10 then s.segHoldTask t
  else if t = 0x010 then s.markHold true
  else if t = 0x011 then s.markHold false
  else if t = 0x012 then s.freezeTrigger
  else if t = 0x013 then s.pnlAck
  else if t = 0x014 then s.buzStart
  else if t = 0x015 then s.wake 2
  else if t = 0x016 then s.auxSyncDrive
  else if t < 0x30 then s.cmpMark (t - 0x20)
  else if t < 0x80 then s.fwIrq (t - 0x40)
  else s.notify (t - 0x80)

/-- A task whose domain is off, and in SLEEP every task but WAKE and FW_IRQ, discards its fire (R637). -/
def State.taskOff (s : State) (t : Nat) : Bool :=
  match taskDomain t with
  | some d => s.pwrState == 4 || !s.domOn d
  | none => false

/-- An event arrives at a task input (R637, R643): within 8 ns, two cycles, of the input's last fire it merges into
that fire. -/
def State.taskFire (s : State) (t : Nat) : State :=
  if !isTask t then s
  else
    let recent := match Tab.find t s.yarn.taskAt with
      | some c => decide (s.now - c < 2)
      | none => false
    if recent then s.taskMerge t
    else
      let s := { s with yarn := { s.yarn with taskAt := Tab.put t s.now s.yarn.taskAt } }
      if s.taskOff t then s.satF yarnB F.OFF_DROP_COUNT 1 else s.taskAct t

/-- The tasks of the enabled forks of channel `c`, in fork order (R641). -/
def State.forksOf (s : State) (c : Nat) : List Nat :=
  (List.range 8).flatMap (fun m =>
    (if s.flag (ycB c) (F.YC_FORK_EN_LO.nth m) then [s.getF (ycB c) (F.YC_FORK_TASK_LO.nth m)] else []) ++
    (if s.flag (ycB c) (F.YC_FORK_EN_HI.nth m) then [s.getF (ycB c) (F.YC_FORK_TASK_HI.nth m)] else []))

/-- Channel `c` fires (R641, R647). -/
def State.yarnFire (s : State) (c : Nat) : State :=
  let n := satAdd 16 (Tab.get 0 c s.yarn.fires) 1
  let s := { s with yarn := { s.yarn with fires := Tab.put c n s.yarn.fires } }
  forL (s.forksOf c) (fun t u => u.taskFire t) s

/-- The channels whose mask holds producer `n` (R640). -/
def State.listeners (s : State) (n : Nat) : List Nat :=
  (List.range 64).filter (fun c => bit (s.getF (ycB c) (F.YC_PROD_MASK.nth (n / 32))) (n % 32))

/-- PRODUCER_FIRE: producer `n` fires and every channel whose mask holds it fires (R633, R640). Of the fires that
flags have made due, the oldest of this producer is the one that is routed (log entry 16). -/
def execProducerFire (n : Fin 256) (s : State) : Host.Outcome State Fault Refusal :=
  .next (if isProducer n.val && s.prodOn n.val then
      let s := { s with yarn := { s.yarn with due := s.yarn.due.erase n.val } }
      forL (s.listeners n.val) (fun c t => t.yarnFire c) s
    else s)

/-- YARN_FIRE: a write of YARN_FIRE fires a channel (R645). -/
def execYarnFire (c : Fin 64) (s : State) : Host.Outcome State Fault Refusal := .next (s.yarnFire c.val)

/-- The end of a storm window for channel `c` (R647): the log entry once until the STORM_CH bit is cleared. -/
def State.stormOne (s : State) (c : Nat) : State :=
  let n := Tab.get 0 c s.yarn.fires
  let s := s.setF yarnB (F.YC_ACT_COUNT.nth c) n
  if s.getF yarnB F.YARN_CFG_STORM_THR ≤ n then
    let old := s.getF yarnB F.STORM_CH_CH
    let s := s.setF yarnB F.STORM_CH_CH (setBit old c)
    let s := s.raise yarnB F.YARN_STATUS_STORM_EV 0xF5
    if bit old c then s else s.logReg .yarnStorm c 0xFF (yarnB + 0x1004)
  else s

/-- STORM_WINDOW_END (R647). -/
def execStormWindowEnd (s : State) : Host.Outcome State Fault Refusal :=
  let s := forN 64 (fun c t => t.stormOne c) s
  .next { s with yarn := { s.yarn with fires := [] } }

end Sys2Proof.Machine
end

