-- ==== Sys2Proof/Machine/RegWrite.lean ====
section
/-!
DEFINITION. Register access by commands (R25, R61, R127, R372 to R380, R388, R411): reads with their clears, writes and
modifies with every check of R374, the effects of the registers that act when they are written, and writes held for a
course.
-/

namespace Sys2Proof.Machine

/-! ## What a write covers -/

/-- Who writes: session, role, the port of the command, SET, and whether it is a PATTERN entry of the image, which
writes both banks and any S field (R436). -/
structure WriteCtx where
  session : Nat
  role : Nat
  port : Nat
  shadow : Bool
  preset : Bool

/-- A field that a write writes: the register's address, area and copy, the field, its new value (for a W1C field the
bits written 1), and the address of the first word that covers it. -/
structure WItem where
  addr : Nat
  area : Area
  idx : Nat
  fs : FldSpec
  val : Nat
  word : Nat

/-- The key of the field. -/
def WItem.key (i : WItem) : Nat := i.addr * 64 + i.fs.fld.lo

/-- The new value of a field of which one word is written. -/
def putBits (f : Fld) (upper : Bool) (old word : Nat) : Nat :=
  match f.part upper with
  | none => old
  | some (lo, skip, n) => old - old / 2 ^ skip % 2 ^ n * 2 ^ skip + word / 2 ^ lo % 2 ^ n * 2 ^ skip

/-- Whether a mask selects a field of a word (R373). -/
def maskHits (f : Fld) (upper : Bool) (mask : Nat) : Bool :=
  match f.part upper with
  | none => false
  | some (lo, _, n) => mask / 2 ^ lo % 2 ^ n != 0

/-- The access kinds that a write writes (R375). -/
def Acc.writable (a : Acc) : Bool :=
  match a with
  | .rw | .w1c | .wo => true
  | .ro | .rc => false

/-- Add what one word writes of one field to the fields written so far. -/
def State.addField (s : State) (c : WriteCtx) (h : RegHit) (word value : Nat) (fs : FldSpec) (acc : List WItem) :
    List WItem :=
  if acc.any (fun i => i.addr == h.addr && i.fs.fld == fs.fld) then
    acc.map (fun i => if i.addr == h.addr && i.fs.fld == fs.fld then { i with val := putBits fs.fld h.upper i.val value } else i)
  else
    let base := if fs.acc = .w1c then 0 else s.fieldAt c.shadow h.addr fs.fld
    acc ++ [(⟨h.addr, h.area, h.idx, fs, putBits fs.fld h.upper base value, word⟩ : WItem)]

/-- The fields a word writes. -/
def State.addWord (s : State) (c : WriteCtx) (h : RegHit) (word value mask : Nat) (acc : List WItem) : List WItem :=
  (h.spec.fields.filter (fun fs => fs.acc.writable && maskHits fs.fld h.upper mask)).foldl
    (fun a fs => s.addField c h word value fs a) acc

/-- What an address without a register gives (R25, R376, R411); 0 where the register is there and powered. -/
def State.addrStatus (s : State) (a : Nat) : Nat :=
  if a % 4 ≠ 0 ∨ !inBlock a then stBadParam
  else if !s.powered a then stPoweredOff
  else stOk

/-- The fields that the words from address `a` on write, up to the first word that has no register, with that word's
address and status. -/
def State.collect (s : State) (c : WriteCtx) (a : Nat) : List (Nat × Nat) → List WItem → List WItem × Option (Nat × Nat)
  | [], acc => (acc, none)
  | (v, m) :: rest, acc =>
    let st := s.addrStatus a
    if st ≠ 0 then (acc, some (st, a))
    else
      match lookReg a with
      | none => (acc, some (stBadParam, a))
      | some h => s.collect c (a + 4) rest (s.addWord c h a v m acc)

/-! ## The checks of one field (R374) -/

/-- Whether group `g` is started (R80): an armed group counts as started, a draining one as stopped (log entry 50). -/
def State.started (s : State) (g : Nat) : Bool := (s.g g).st == 1 || s.running g

/-- Whether the block that holds an S field runs, as its register table says (R13). -/
def State.sBusy (s : State) (a : Area) (u addr : Nat) : Bool :=
  match a with
  | .pos => s.flag (posB u) F.POS_CTRL_RUN
  | .crs | .gseam | .gseg => s.started u
  | .gtally => s.started u || s.flag (gtalB u) F.TALLY_STATUS_DRAIN
  | .syncR => s.started (s.getF syncB F.SYNC_CTRL_SYNC_GROUP)
  | .ing => s.flag (ingB u) F.LANE_CTRL_EN && (decide (addr % 0x1000 < 0x100) || (s.groupOf u).isSome)
  | .corr | .seam | .seg => (s.groupOf u).isSome
  | .cmp => s.cmpOn u
  | .th => s.thOn
  | .dev | .clk => s.anyRunning
  | .hkHub => s.flag (hkB 8) F.HK_CTRL_EN
  | .hkRgn => s.flag (hkB u) F.HK_CTRL_EN
  | .eth => s.flag (ethB u) F.ETH_CTRL_EN
  | .net => s.flag netB (F.LQ_CFG_EN.nth ((addr - netB - 0x900) / 0x10))
  | .view => s.flag (viewB u) F.VIEW_CTRL_EN
  | .lb => s.started u
  | .dp => s.flag dpB F.DP_CTRL_EN
  | .aux | .auxC => s.auxRun u
  | .rep => s.getF repB F.REPLAY_STATUS_STATE != 0
  | _ => false

/-- Fields that only a service session writes (R421, R443, R449, R591). -/
def serviceField (i : WItem) : Bool :=
  let f := i.fs.fld
  match i.area with
  | .dev => f == F.DEV_NUM_DEVNUM
  | .fuse => f == F.FUSE_PROG_CTRL_KEY || f == F.FUSE_PROG_CTRL_GO || f == F.DBG_CTRL_DBG_EN
  | .tim => f == F.TIME_INCR_INCR || f == F.TIME_ADJ_TICKS || f == F.TIME_ADJ_DELTA
  | _ => false

/-- DEBUG_LOCK is blown (R419). -/
def State.debugLocked (s : State) : Bool := bit s.fuses 1998

/-- The status of one field written (R11 to R13, R375, R380, R397, and its range). -/
def State.fieldStatus (s : State) (c : WriteCtx) (i : WItem) : Nat :=
  let p := i.fs.kind == .P
  let range := if i.fs.acc = .w1c || i.fs.ok i.val then stOk else stBadParam
  if c.preset then
    if serviceField i then stNotPermitted else range
  else if c.shadow && !p then stBadParam
  else if !c.shadow && p then stActiveReadOnly
  else if c.shadow && s.frozenAt i.addr then stShadowFrozen
  else if i.fs.kind == .S && s.sBusy i.area i.idx i.addr then stBusy
  else if (match s.groupAt i.addr with
    | some g => s.rerunG g
    | none => false) then stBusy
  else if serviceField i && decide (c.role < 3) then stNotPermitted
  else if i.area == .fuse && i.fs.fld == F.DBG_CTRL_DBG_EN && s.debugLocked then stNotPermitted
  else range

/-- The first field that fails, with its word. -/
def firstBad (f : WItem → Nat) : List WItem → Option (Nat × Nat)
  | [] => none
  | i :: is => if f i ≠ 0 then some (f i, i.word) else firstBad f is

/-! ## Plain stores -/

/-- Fields whose own operation stores them: enables and requests. -/
def acts (i : WItem) : Bool :=
  let f := i.fs.fld
  match i.area with
  | .pos => f == F.POS_CTRL_RUN
  | .ing => f == F.LANE_CTRL_EN || f == F.LANE_CTRL_IDLE_REQ
  | .gseg => f == F.MASK_HOLD_NOW
  | .te => f == F.TE_CTRL_RESTORE
  | .cmp => f == F.CMP_CTRL_EN
  | .th => f == F.TH_CTRL_TH_EN
  | .hkHub | .hkRgn => f == F.HK_CTRL_EN
  | .aux => f == F.AUX_CTRL_RUN
  | .auxG => f == F.AUX_CLK_MDIV_0 || f == F.AUX_CLK_MDIV_1 || f == F.AUX_CLK_MDIV_2 || f == F.AUX_CLK_MDIV_3
  | .tim => f == F.PTP_CTRL_EN_A || f == F.PTP_CTRL_EN_B
  | .view => f == F.VIEW_CTRL_EN
  | .net => f == F.LQ_CFG_EN
  | .eth => f == F.ETH_CTRL_EN
  | .dp => f == F.DP_CTRL_EN
  | .rep => f == F.REPLAY_CTRL_ARM
  | _ => false

/-- The write of an item as the register file takes it. -/
def WItem.write (i : WItem) : FieldWrite := ⟨i.key, i.val, i.fs.acc == .w1c⟩

/-- Store an item (R9, R10, R388): a P field in the shadow bank, and from the image in both. -/
def State.storeItem (s : State) (c : WriteCtx) (i : WItem) : State :=
  if i.fs.kind == .P then
    let s := { s with shd := Tab.put i.key i.val s.shd }
    if c.preset then { s with act := Tab.put i.key i.val s.act } else s
  else if acts i then s
  else
    let s := match s.drainsAt i.addr with
      | some k => s.keepOld k i.write
      | none => s
    s.putKey i.write (resetAt i.fs.fld i.addr)

/-! ## Checks over the values that the whole write leaves -/

/-- R61 for group `g`. -/
def State.dividerOk (s : State) (g : Nat) : Bool :=
  let n := s.getF (crsB g) F.CRS_N_N
  let d := s.getF (crsB g) F.CRS_D_D
  decide (n ≤ d) && decide (s.getF (crsB g) F.CRS_PHASE_PHASE_INIT < d)

/-- Bits of a pixel under DT_EXPECT (R127). -/
def dtBits (dt : Nat) : Nat := if dt = 5 then 0 else (lineWidth dt 0).getD 0

/-- Whether the lanes of a quad agree on their bonds (R122, log entry 25): every lane of a bond or pair that is set carries
its value; while every lane of the set is stopped, some may carry none yet. -/
def State.bondsOk (s : State) (l : Nat) : Bool :=
  ((List.range 4).map (· + (l - l % 4))).all (fun m =>
    s.bond m == 0 || s.bondWhole m ||
      (s.bondLanes m).all (fun k => (s.bond k == s.bond m || s.bond k == 0) && !s.flag (ingB k) F.LANE_CTRL_EN))

/-- The status of an item on the state that the write leaves. -/
def State.jointStatus (s : State) (c : WriteCtx) (i : WItem) : Nat :=
  let f := i.fs.fld
  let u := i.idx
  let bad : Bool :=
    match i.area with
    | .crs =>
      ((f == F.CRS_N_N || f == F.CRS_D_D || f == F.CRS_PHASE_PHASE_INIT) && !s.dividerOk u) ||
        (f == F.CRS_CTRL_CLOSE_DLY && decide (i.val < s.crossBound u))
    | .ing =>
      ((f == F.LANE_TXFIR_PRE || f == F.LANE_TXFIR_MAIN || f == F.LANE_TXFIR_POST) &&
        s.getF (ingB u) F.LANE_TXFIR_PRE + s.getF (ingB u) F.LANE_TXFIR_MAIN + s.getF (ingB u) F.LANE_TXFIR_POST != 40) ||
      ((f == F.ING_CFG_LINE_LEN || f == F.ING_FMT_DT_EXPECT) &&
        decide (196608 < dtBits (s.getF (ingB u) F.ING_FMT_DT_EXPECT) * s.getF (ingB u) F.ING_CFG_LINE_LEN)) ||
      (f == F.LANE_CTRL_BOND && !s.bondsOk u) || (f == F.LANE_CTRL_EN && i.val == 1 && !s.bondWhole u)
    | .corr =>
      c.shadow && f == F.CORR_CTRL_LAMP_EN && i.val == 1 && (match s.groupOf u with
        | some g => decide (s.getF (crsB g) F.CRS_CTRL_CLOSE_DLY < 180)
        | none => false)
    | .seam => f == F.SEAM_BLEND_CUT && decide (s.ovl u < i.val)
    | _ => false
  if bad then stBadParam else stOk

/-! ## Registers that act when they are written -/

/-- The fuses that VEND_LOCK closes, and those that PROV_LOCK closes (R419, R422). -/
def vendorFuse (n : Nat) : Bool :=
  decide (n < 384) || (decide (1856 ≤ n) && decide (n < 1920)) || (decide (1984 ≤ n) && decide (n < 1994)) || n == 2000 ||
    decide (2048 ≤ n)
def ownerFuse (n : Nat) : Bool :=
  (decide (384 ≤ n) && decide (n < 1536)) || (decide (1600 ≤ n) && decide (n < 1856)) ||
    (decide (1994 ≤ n) && decide (n < 1998)) || n == 1999

/-- Whether a fuse may no longer be blown (R422): a lock acts from the cast-on after it is blown. -/
def State.fuseClosed (s : State) (n : Nat) : Bool :=
  (bit s.boot.sensed 2000 && vendorFuse n) || (bit s.boot.sensed 1999 && ownerFuse n)

/-- The status of a write of FUSE_PROG_CTRL (R421). -/
def State.fuseStatus (s : State) : Nat :=
  if s.anyRunning then stBusy
  else if s.getF fuseB F.FUSE_PROG_CTRL_KEY ≠ 0xF05E then stBadParam
  else if s.fuseClosed (s.getF fuseB F.FUSE_PROG_ADDR_BIT) then stBadParam
  else stOk

/-- A blow of the addressed bit starts (R421). -/
def State.fuseBlow (s : State) : State :=
  { s.setF fuseB F.FUSE_STATUS_PROG_BUSY 1 with boot := { s.boot with fuseAt := s.getF fuseB F.FUSE_PROG_ADDR_BIT } }

/-- The status of naming a ring that a block writes to on its own (R509, R525). -/
def State.eventRing (s : State) (on : Bool) (ring : Nat) : Nat :=
  if !on then stOk
  else if !s.ringOk ring false then stBadParam
  else if !s.canPin [ring] then stNoResource
  else stOk

/-- Whether the ring of ring registers is one that armed replay may take (R509, R665, R667). -/
def State.replayRings (s : State) : List Nat :=
  let caps := (List.range 8).filter (fun r => (List.range 16).any (fun i => s.capBit (16 * r + i)))
  s.getF repB F.JRN_RING_RING :: s.getF repB F.CKPT_RING_RING :: caps.map (fun r => s.getF repB (F.CAP_RING_RING.nth r))

/-- The status of a write of ARM = 1 (R509, R525, R664). -/
def State.armStatus (s : State) : Nat :=
  let rs := s.replayRings
  if !rs.all (fun r => s.ringOk r true) then stBadParam
  else if !s.canPin rs || !s.canSubs rs.eraseDups then stNoResource
  else stOk

/-- Empty the replay rings and enter ARMED (R664). -/
def State.rearm (s : State) : State :=
  let s := forL s.replayRings.eraseDups (fun r t => t.take r repB (t.avail r repB)) s
  let s := { s with rep := { s.rep with jbuf := [], lead := 0, items := [], runs := [], spans := [] } }
  s.setF repB F.REPLAY_STATUS_STATE 1

/-- ARM is written 1 in DISARMED (R514, R664): the rings are bound and emptied. -/
def State.armReplay (s : State) : State :=
  let s := forL s.replayRings (fun r t => (t.bind r repB true).subBlock r repB) s
  (s.setF repB F.REPLAY_CTRL_ARM 1).rearm

/-- ARM is written 0 (R664). FREEZING is left by the freeze instant alone. -/
def State.disarmReplay (s : State) : State :=
  if s.getF repB F.REPLAY_STATUS_STATE = 2 then s.setF repB F.REPLAY_CTRL_ARM 0
  else
    let s := forL s.replayRings.eraseDups (fun r t => t.unsubBlock r repB) s
    let s := (s.unbind repB).setF repB F.REPLAY_CTRL_ARM 0
    let s := { s with rep := { s.rep with jbuf := [], lead := 0, items := [] } }
    s.setF repB F.REPLAY_STATUS_STATE 0

/-- The channels that a write of RGN_RESTORE names and whose group runs (R685, R695). -/
def State.rgnBusy (s : State) (r mask : Nat) : Bool :=
  (List.range 16).any (fun i => bit mask i && (s.groupOf (16 * r + i)).isSome)

/-- The codec of an area. -/
def hkOf (a : Area) (u : Nat) : Nat := if a = .hkHub then 8 else u

/-- The launch queue of a register address. -/
def lqOf (addr : Nat) : Nat := (addr - netB - 0x900) / 0x10

/-- The status of an acting field, on the state that the plain stores leave. -/
def State.actStatus (s : State) (c : WriteCtx) (i : WItem) : Nat :=
  let f := i.fs.fld
  let u := i.idx
  let on := i.val == 1
  match i.area with
  | .ing =>
    if (f == F.LANE_CTRL_EN && on) || (s.flag (ingB u) F.LANE_CTRL_EN &&
        (f == F.CAM_RING_CAM_EN || f == F.CAM_RING_RING || f == F.MSRC_RING_RING)) then s.laneStatus u
    else stOk
  | .cmp => if f == F.CMP_CTRL_EN && on && !s.cmpOn u then s.cmpStatus u else stOk
  | .th => if f == F.TH_CTRL_TH_EN && on && !s.thOn then s.thStatus else stOk
  | .fuse =>
    if f == F.FUSE_PROG_CTRL_KEY || f == F.FUSE_PROG_CTRL_GO then s.fuseStatus
    else if f == F.XSPI_CTRL_GO && on then s.xspiStatus (s.getF fuseB F.XSPI_CTRL_OP) c.role
    else stOk
  | .ring => if f == F.RING_DB_PROD_PROD then (s.doorbell (s.getF ringB F.RING_DB_ID_RING) i.val).2 else stOk
  | .hkHub | .hkRgn =>
    if f == F.HK_CTRL_EN && on && !s.flag (hkB (hkOf i.area u)) F.HK_CTRL_EN then s.hkStatus (hkOf i.area u) else stOk
  | .eth => if f == F.ETH_CTRL_EN && !on && c.port == u && !c.preset then stBusy else stOk
  | .net =>
    if f == F.LQ_CFG_EN && on && !s.flag netB (F.LQ_CFG_EN.nth (lqOf i.addr)) then s.lqStatus (lqOf i.addr) else stOk
  | .tim => if f == F.TIME_STEP_STEP && s.anyRunning then stBusy else stOk
  | .view => if f == F.VIEW_CTRL_EN && on && !s.flag (viewB u) F.VIEW_CTRL_EN then s.viewStatus u else stOk
  | .pnl =>
    if f == F.I2C_CMD_ADDR || f == F.I2C_CMD_WLEN || f == F.I2C_CMD_RLEN then
      s.i2cStatus (s.getF pnlB F.I2C_CMD_WLEN) (s.getF pnlB F.I2C_CMD_RLEN)
    else if f == F.PNL_RING_EN || f == F.PNL_RING_RING then
      s.eventRing (s.flag pnlB F.PNL_RING_EN) (s.getF pnlB F.PNL_RING_RING)
    else stOk
  | .yarn =>
    if f == F.YARN_RING_EN || f == F.YARN_RING_RING then
      s.eventRing (s.flag yarnB F.YARN_RING_EN) (s.getF yarnB F.YARN_RING_RING)
    else stOk
  | .aux => if f == F.AUX_CTRL_RUN && on && !s.auxRun u then s.auxStatus u else stOk
  | .auxG => if acts i then s.mdivStatus (f.lo / 8) i.val else stOk
  | .rep =>
    if f == F.REPLAY_CTRL_ARM then
      let st := s.getF repB F.REPLAY_STATUS_STATE
      if on then (if st = 0 then s.armStatus else stOk) else (if st = 4 then stBusy else stOk)
    else stOk
  | .rgn => if f == F.RGN_RESTORE_CH && s.rgnBusy u i.val then stBusy else stOk
  | _ => stOk

/-- Bind the ring that a block of events writes to, or none, by its fields. -/
def State.bindEvent (s : State) (b : Nat) (on : Bool) (ring : Nat) : State :=
  let s := s.unbind b
  if on then s.bind ring b true else s

/-- An enable that has an operation for each direction. -/
def State.enable (s : State) (was on : Bool) (up down : State → State) : State :=
  if on && !was then up s else if !on && was then down s else s

/-- The effects of network and time registers. -/
def State.actNet (s : State) (i : WItem) : State :=
  let f := i.fs.fld
  let u := i.idx
  let on := i.val == 1
  match i.area with
  | .eth =>
    if f == F.ETH_CTRL_EN then
      let s := s.setF (ethB u) F.ETH_CTRL_EN i.val
      if !on && s.linkIsUp u then s.linkFall u false else s
    else if f == F.ETH_CTRL_FEC_BYP then s.setF (ethB u) F.TS_LAT_RX_LAT (if on then 24352 else 33568)
    else s
  | .net =>
    if f == F.LQ_CFG_EN then
      let q := lqOf i.addr
      let was := s.flag netB (F.LQ_CFG_EN.nth q)
      (s.enable was on (·.lqStart q) (·.lqStop q)).setF netB (F.LQ_CFG_EN.nth q) i.val
    else s
  | .tim =>
    if f == F.TIME_INCR_INCR then s.timeIncr i.val
    else if f == F.TIME_ADJ_DELTA || f == F.TIME_ADJ_TICKS then
      s.timeAdj (s.getI timB F.TIME_ADJ_DELTA) (s.getF timB F.TIME_ADJ_TICKS)
    else if f == F.TIME_STEP_STEP then s.timeStep (toInt 64 i.val)
    else if f == F.PTP_CTRL_EN_A then s.ptpEnable 0 on
    else if f == F.PTP_CTRL_EN_B then s.ptpEnable 1 on
    else if f == F.PTP_CTRL_PREF then s.ptpSelect true
    else s
  | _ => s

/-- The effects of panel, display, view, Yarn and aux registers. -/
def State.actSide (s : State) (i : WItem) (last : Bool) : State :=
  let f := i.fs.fld
  let u := i.idx
  let on := i.val == 1
  match i.area with
  | .view =>
    if f == F.VIEW_CTRL_EN then
      (s.enable (s.flag (viewB u) F.VIEW_CTRL_EN) on (·.viewStart u) (·.viewStop u)).setF (viewB u) F.VIEW_CTRL_EN i.val
    else s
  | .dp =>
    if f == F.DP_CTRL_EN then
      let was := s.flag dpB F.DP_CTRL_EN
      (s.setF dpB F.DP_CTRL_EN i.val).enable was on (fun t => if t.flag dpB F.DP_STATUS_HPD then t.dpTrain else t) (·.dpDown)
    else s
  | .pnl =>
    if f == F.I2C_CMD_ADDR || f == F.I2C_CMD_WLEN || f == F.I2C_CMD_RLEN then
      if last then s.i2cStart (s.getF pnlB F.I2C_CMD_ADDR) (s.getF pnlB F.I2C_CMD_WLEN) (s.getF pnlB F.I2C_CMD_RLEN) else s
    else if f.off == F.LED_MODE_MODE_0.off then s.ledDrive (f.lo / 2)
    else if f == F.BUZ_CTRL_START then (if on then s.buzStart else s)
    else if f == F.BUZ_CTRL_STOP then (if on then s.buzStop else s)
    else if f == F.PNL_RING_EN || f == F.PNL_RING_RING then
      s.bindEvent pnlB (s.flag pnlB F.PNL_RING_EN) (s.getF pnlB F.PNL_RING_RING)
    else s
  | .yarn =>
    if f == F.YARN_FIRE_CHANNEL then s.yarnFire i.val
    else if f == F.YARN_RING_EN || f == F.YARN_RING_RING then
      s.bindEvent yarnB (s.flag yarnB F.YARN_RING_EN) (s.getF yarnB F.YARN_RING_RING)
    else s
  | .aux => if f == F.AUX_CTRL_RUN then s.enable (s.auxRun u) on (·.auxStart u) (·.auxStop u) else s
  | .auxG =>
    if acts i then s.mdivWrite (f.lo / 8) i.val
    else if f == F.AUX_SYNC_SYNC && on then s.auxSyncDrive
    else s
  | _ => s

/-- The effect of an acting field beyond its store; `last` tells that no later item is of the same register. -/
def State.actItem (s : State) (i : WItem) (last : Bool) : State :=
  let f := i.fs.fld
  let u := i.idx
  let on := i.val == 1
  match i.area with
  | .pos =>
    if f == F.POS_CTRL_RUN then s.enable (s.flag (posB u) F.POS_CTRL_RUN) on (·.posStart u) (·.posStop u) else s
  | .ing => ((if acts i then s.applyL 0 none i.write else s).laneBind u).msrcUpdate
  | .te => if acts i && on then s.teRestore u else s
  | .cmp =>
    if f == F.CMP_CTRL_EN then s.enable (s.cmpOn u) on (·.cmpStart u) (·.cmpStop u)
    else if f == F.CMP_CTRL_POL then s.cmpPin u (s.c u).pulseEnd.isSome
    else if f == F.LIST_CMD_CLEAR then (if on then s.cmpClear u else s)
    else if f == F.LIST_CMD_INSERT then
      (if on then s.cmpInsert u (s.getI (cmpB u) F.LIST_POS_POS, s.getF (cmpB u) F.LIST_ID_ID) else s)
    else s
  | .th =>
    if f == F.TH_CTRL_TH_EN then s.enable s.thOn on (·.thStart) (·.thStop)
    else if f == F.TH_CTRL_AUTH_REQ && on && s.thOn then s.authenticate
    else s
  | .dev => if f == F.DEV_NUM_DEVNUM then { s with dup := false } else s
  | .fuse =>
    if f == F.FUSE_PROG_CTRL_GO && on then s.fuseBlow
    else if f == F.XSPI_CTRL_GO && on then s.xspiGo (s.getF fuseB F.XSPI_CTRL_OP)
    else s
  | .ring => if f == F.RING_DB_PROD_PROD then (s.doorbell (s.getF ringB F.RING_DB_ID_RING) i.val).1 else s
  | .dma => s.dmaSums
  | .hkHub | .hkRgn =>
    let k := hkOf i.area u
    if f == F.HK_CTRL_EN then s.enable (s.flag (hkB k) F.HK_CTRL_EN) on (·.hkStart k) (·.hkStop k) else s
  | .rep =>
    if f == F.REPLAY_CTRL_ARM then
      s.enable (s.getF repB F.REPLAY_STATUS_STATE != 0) on (·.armReplay) (·.disarmReplay)
    else s
  | .rgn => if f == F.RGN_RESTORE_CH then s.rgnRestore u i.val else s
  | .eth | .net | .tim => s.actNet i
  | .view | .dp | .pnl | .yarn | .aux | .auxG => s.actSide i last
  | _ => s

/-- The effects of the items in order. -/
def State.actAll (s : State) : List WItem → State
  | [] => s
  | i :: is => (s.actItem i (!is.any (fun j => j.addr == i.addr))).actAll is

/-! ## Writes -/

/-- The running group whose boundary an item waits for (R8): that of an L field of a group. -/
def State.waitsFor (s : State) (i : WItem) : Option Nat :=
  if i.fs.kind == .L then
    match s.groupAt i.addr with
    | some g => if s.running g then some g else none
    | none => none
  else none

/-- Every check of a write (R374): its fields, or the first failure with its word. -/
def State.planWrite (s : State) (c : WriteCtx) (addr : Nat) (words : List (Nat × Nat)) : Except (Nat × Nat) (List WItem) :=
  let k := s.collect c addr words []
  match firstBad (s.fieldStatus c) k.1 with
  | some e => .error e
  | none =>
    match k.2 with
    | some e => .error e
    | none =>
      let t := forL k.1 (fun i u => u.storeItem c i) s
      match firstBad (t.jointStatus c) k.1 with
      | some e => .error e
      | none =>
        match firstBad (t.actStatus c) k.1 with
        | some e => .error e
        | none => .ok k.1

/-- A field that maps the pixels of a view is about to be written (R9, R614). -/
def State.keepRow (s : State) (i : WItem) : State :=
  let f := i.fs.fld
  let maps := match i.area with
    | .view => f == F.VIEW_MAP_VGAIN || f == F.VIEW_MAP_BLACK || f == F.VIEW_MASK_MASK_VAL
    | .pal => true
    | _ => false
  if maps then s.viewKeep i.idx i.key (Tab.get (resetAt f i.addr) i.key s.regs) else s

/-- Store the items that wait for no boundary, and do what they do. -/
def State.writeNow (s : State) (c : WriteCtx) (l : List WItem) : State :=
  (forL l (fun i t => (t.keepRow i).storeItem c i) s).actAll l

/-- An accepted write as a stamped input (R29, R371, R670), of each running group whose fields it writes, with the L fields
that wait for that group's boundary; of none, against the device course view (R32). The command processor is one source. -/
def State.submitWrite (s : State) (groups : List Nat) (later : List (Nat × FieldWrite)) (what : List FieldWrite → Payload) :
    State :=
  if groups.isEmpty then s.submitDev 5 0 (what [])
  else forL groups (fun g t => t.submit g 5 0 (what ((later.filter (fun e => e.1 == g)).map (·.2)))) s

/-- The record that the journal holds of a write: the words, or MASK and VALUE of a modify. -/
def wordsOf (modify : Bool) (words : List (Nat × Nat)) : List Nat :=
  if modify then words.flatMap (fun w => [w.2, w.1]) else words.map (·.1)

/-- Carry out a write whose checks have passed: P and immediate fields now, L fields of running groups at the next
boundary (R8 to R10). Answers the status and, where it waits, the first course governed. -/
def State.carryOut (s : State) (c : WriteCtx) (modify : Bool) (addr : Nat) (words : List (Nat × Nat)) (l : List WItem) :
    State × Nat × Option Int :=
  let later := l.filterMap (fun i => (s.waitsFor i).map (fun g => (g, i)))
  let now := l.filter (fun i => (s.waitsFor i).isNone)
  let course := ((later.head?).map (·.1)).map (fun g => s.stampG g + 1)
  let groups := s.runningGroups.filter (fun g => l.any (fun i => s.groupAt i.addr == some g))
  let s := s.submitWrite groups (later.map (fun e => (e.1, e.2.write)))
    (.write c.session modify (if c.shadow then 1 else 0) addr (wordsOf modify words))
  (s.accept.writeNow c now, if later.isEmpty then stOk else stAccepted, course)

/-- REG_WRITE and REG_MODIFY (R373 to R375): the state, the status, the first course governed, and the address of the
word that failed. -/
def State.writeReq (s : State) (c : WriteCtx) (modify : Bool) (addr : Nat) (words : List (Nat × Nat)) :
    State × Nat × Option Int × List Byte :=
  match s.planWrite c addr words with
  | .error e => (s, e.1, none, be 4 e.2)
  | .ok l =>
    let r := s.carryOut c modify addr words l
    (r.1, r.2.1, r.2.2, [])

/-- A write at a course (R378, R379): after its own checks, only for L fields of the group named. -/
def State.writeAt (s : State) (c : WriteCtx) (modify : Bool) (addr : Nat) (words : List (Nat × Nat)) (g : Nat)
    (course : Nat) : State × Nat × Option Int × List Byte :=
  match s.planWrite c addr words with
  | .error e => (s, e.1, none, be 4 e.2)
  | .ok l =>
    let k := s.stampG g
    let at' := Int.ofNat course
    if 16 ≤ g ∨ l.any (fun i => i.fs.kind != .L || s.groupAt i.addr != some g) then (s, stBadParam, none, [])
    else if at' < k then (s, stCoursePassed, none, [])
    else if k + 2 ^ 32 < at' then (s, stBadParam, none, [])
    else if at' = k then
      let r := s.carryOut c modify addr words l
      (r.1, stAccepted, some (k + 1), [])
    else if 4096 ≤ s.held.length then (s, stNoResource, none, [])
    else
      let i : Stamped := ⟨g, 5, 0, at', at', .write c.session modify 0 addr (wordsOf modify words) [], false, s.accepts⟩
      let s := { s.accept with
        held := s.held ++ [(⟨c.session, g, course, l.map WItem.write, s.accepts⟩ : Held)]
        arrived := s.arrived ++ [i] }
      (s.setF cmdB F.CMD_STATUS_HELD s.held.length, stAccepted, some (at' + 1), [])

/-! ## Reads -/

/-- A word of the fuse array; the boot-only bits read 0 (R419). -/
def State.fuseWord (s : State) (w : Nat) : Nat := if 50 ≤ w ∧ w < 58 then 0 else s.fuses / 2 ^ (32 * w) % 2 ^ 32

/-- Bring the registers that show other state in line with it (R383, R419, R451, R539, R592). -/
def State.refresh (s : State) : State :=
  let s := s.setF devB F.DEGRADED_BITS s.degraded
  let s := s.setF timB F.TIME_SEC_SEC s.sec
  let s := s.setF timB F.TIME_NS_NS s.ns
  let s := s.setF timB F.TIME_SUBNS_SUBNS (s.localT % 2 ^ 40 / 2 ^ 16)
  let s := if s.boot.step = 10 then s.setF coreB F.HEARTBEAT_MS ((s.now - s.boot.readyAt) / 250000) else s
  let s := s.setF fuseB F.FUSE_READ_DATA (s.fuseWord (s.getF fuseB F.FUSE_READ_ADDR_WORD))
  let s := s.setF fuseB F.FUSE_STATUS_DEBUG_LOCKED (if s.debugLocked then 1 else 0)
  s.dmaSums

/-- Whether a word holds a P field. -/
def RegHit.hasP (h : RegHit) : Bool := h.spec.fields.any (fun f => f.kind == .P && (f.fld.part h.upper).isSome)

/-- The status of reading a word (R375, R376). -/
def State.readStatus (s : State) (shadow : Bool) (a : Nat) : Nat :=
  let st := s.addrStatus a
  if st ≠ 0 then st
  else if !shadow then stOk
  else
    match lookReg a with
    | some h => if h.hasP then stOk else stBadParam
    | none => stBadParam

/-- The addresses of `n` words. -/
def wordAddrs (addr n : Nat) : List Nat := (List.range n).map (fun i => addr + 4 * i)

/-- LANE_TXFIR as a read gives it: the coefficients in use (R90, R140). -/
def State.firInUse (s : State) (l : Nat) : Nat :=
  let b := ingB l
  let x := s.ln l
  let ovr := s.flag b F.LANE_CTRL_FIR_OVR
  let pre := if ovr then s.getF b F.LANE_TXFIR_PRE else x.pre
  let post := if ovr then s.getF b F.LANE_TXFIR_POST else x.post
  post * 2 ^ 16 + (40 - pre - post) * 2 ^ 8 + pre

/-- A word as a read returns it: an offset with no register reads zero (R411). -/
def State.readWord (s : State) (shadow : Bool) (a : Nat) : Nat :=
  match lookReg a with
  | some h =>
    if h.area = .ing && h.addr == ingB h.idx + F.LANE_TXFIR_PRE.off then (if shadow then 0 else s.firInUse h.idx)
    else s.wordOf shadow h
  | none => 0

/-- A read of the taps of a DFE that adapts returns them as they are at that moment (R14, R89); they are held from IDLE_ENT on
(R114). -/
def State.dfeNow (s : State) (a : Nat) : State :=
  match lookReg a with
  | some h =>
    if h.area = .ing && h.addr == ingB h.idx + F.LANE_DFE_TAPS.off && !h.upper &&
        s.flag (ingB h.idx) F.LANE_STATUS_LOCK && !(s.ln h.idx).announced && s.laneState h.idx != 7 then s.dfeAdapts h.idx
    else s
  | none => s

/-- A counter of events that no command brings rises by what has come since its last read: a free value (log entry 68). -/
def State.countFree (s : State) (b : Nat) (f : Fld) : State := (s.satF b f (Config.freeBits 32 s.freeCtr).toNat).tickFree

/-- Overruns since the last read: their flag, where there were any, and their counter (R462; log entry 68). -/
def State.overruns (s : State) (b : Nat) (flag cnt : Fld) : State :=
  ((if Config.freeBits 32 s.freeCtr == 0 then s else s.mark b flag)).countFree b cnt

/-- What the read of a word first brings up to date of counts whose events no command brings: overruns of a die link and of the
ingest queues of a cluster, transfers that a link corrected, codewords that a port's FEC corrected or could not (R462, R480, R481,
R605; log entry 68). -/
def State.countNow (s : State) (a : Nat) : State :=
  match lookReg a with
  | some h =>
    if h.area = .dlink then
      let b := dlB h.idx
      if !s.flag b F.LINK_STATUS_UP then s
      else if h.addr = b + F.LINK_RETRY_COUNT.off then s.countFree b F.LINK_RETRY_COUNT
      else s.overruns b F.LINK_STATUS_OVERRUN F.LINK_OVR_COUNT
    else if h.area = .cl then
      let b := clB h.idx
      if h.addr = b + F.CL_FLUSH_COUNT.off ∨ !s.flag b F.CL_STATUS_QUAD_ON then s
      else s.overruns b F.CL_STATUS_OVERRUN F.CL_OVR_COUNT
    else if h.area = .eth ∧ s.flag (ethB h.idx) F.ETH_STATUS_LINK_UP then
      let b := ethB h.idx
      if h.addr = b + F.FEC_CORR_COUNT.off then s.countFree b F.FEC_CORR_COUNT
      else if h.addr = b + F.FEC_UNCORR_COUNT.off then s.countFree b F.FEC_UNCORR_COUNT
      else s
    else s
  | none => s

/-- What a read first brings up to date, word by word. -/
def State.readNow (s : State) (as' : List Nat) : State := forL as' (fun a u => (u.dfeNow a).countNow a) s.refresh

/-- The read of a word clears its RC fields (R5): a field that lies in both words of its register is cleared whole by a read
of either (log entry 51). With THERM_MAX its highest sample is forgotten (R479). -/
def State.readClear (s : State) (a : Nat) : State :=
  match lookReg a with
  | some h =>
    let s := if h.addr = thmB + F.THERM_MAX_TEMP.off then { s with power := { s.power with maxSeen := false } } else s
    forL (h.spec.fields.filter (fun f => f.acc == .rc && (f.fld.part h.upper).isSome)) (fun f t =>
      { t with regs := Tab.put (h.addr * 64 + f.fld.lo) 0 t.regs }) s
  | none => s

/-- REG_READ: every word of the range, or the first failure; the RC fields read are cleared. -/
def State.readReq (s : State) (shadow : Bool) (addr n : Nat) : State × Nat × List Nat :=
  let as' := wordAddrs addr n
  match as'.find? (fun a => s.readStatus shadow a != 0) with
  | some a => (s, s.readStatus shadow a, [])
  | none =>
    let t := s.readNow as'
    (forL as' (fun a u => u.readClear a) t, stOk, as'.map (t.readWord shadow))

end Sys2Proof.Machine
end

