-- ==== Sys2Proof/Machine/Image.lean ====
section
/-!
DEFINITION. The configuration image (11_cast_on R426 to R431): its header, section table and sections as read from the flash,
and the checks of R427 that need no other part of the device.
-/

namespace Sys2Proof.Machine

/-- A section table entry (R426). -/
structure Section where
  type : Nat
  len : Nat
  off : Nat
  load : Nat
  hash : List Byte

/-- What the header and the sections of steps 4 to 6 give the device. -/
structure Image where
  ver : Nat
  devnum : Nat
  regionEn : Nat
  fw : Nat
  settings : List (Nat × Nat)
  keys : List (Nat × List Byte)
  cassKey : List Byte
  annKey : List Byte

/-- A field of the fuse array as the last cast-on sensed it (R419, R422). -/
def State.fuse (s : State) (hi lo : Nat) : Nat := bits s.boot.sensed hi lo

/-- The number of blown bits of MIN_VER (R419). -/
def State.minVer (s : State) : Nat := ((List.range 64).filter (fun i => bit s.boot.sensed (1920 + i))).length

/-- A hash as the fuse array holds it: byte i in bits 8i + 7 to 8i (log entry 27). -/
def fuseHash (h : List Byte) : Nat := leVal h

/-- An entry of the section table. -/
def sectionOf (b : List Byte) : Section :=
  { type := leAt b 0 1
    len := leAt b 4 4
    off := leAt b 8 4
    load := leAt b 0x10 8
    hash := sliceB b 0x18 48 }

/-- Whether two ranges overlap. -/
def overlaps (a n b m : Nat) : Bool := decide (a < b + m) && decide (b < a + n)

/-- Every pair of a list, in order, satisfies a test. -/
def pairwiseB {α : Type} (p : α → α → Bool) : List α → Bool
  | [] => true
  | x :: xs => xs.all (p x) && pairwiseB p xs

/-- The section goes to memory. -/
def Section.loads (e : Section) : Bool := e.type == 5 || e.type == 6

/-- FLASH_OFF, LEN and LOAD of a section are in range (R426, R427). -/
def Section.ok (e : Section) : Bool :=
  decide (1 ≤ e.type) && decide (e.type ≤ 6) && e.off % 256 == 0 && decide (e.off + e.len ≤ 2 ^ 32) &&
    (if e.loads then e.load % 256 == 0 && decide (e.load + e.len ≤ 0x1E00000000) else e.load == 0) &&
    (if e.type = 1 then decide (256 ≤ e.len) && decide (e.len ≤ 256 + 0x2000000)
     else if e.type = 2 then e.len == 221
     else if e.type = 3 ∨ e.type = 4 then e.len % 8 == 0
     else true)

/-- The sections of an image fit together (code 0x02). -/
def sectionsOk (l : List Section) : Bool :=
  l.all (·.ok) && pairwiseB (fun a b => !overlaps a.off a.len b.off b.len) l &&
    pairwiseB (fun a b => !(a.loads && b.loads && overlaps a.load a.len b.load b.len)) l &&
    (l.filter (·.type == 1)).length == 1 && (l.filter (·.type == 2)).length == 1 && decide ((l.filter (·.type == 3)).length ≤ 1)

/-- OKEY is accepted (code 0x03). -/
def State.okeyOk (s : State) (slot : Nat) (key : List Byte) : Bool :=
  let h := fuseHash (sha384 key)
  let held := fun (i : Nat) => s.fuse (384 * i + 767) (384 * i + 384)
  if slot < 3 then held slot == h && held slot != 0 && !bit s.boot.sensed (1536 + slot)
  else slot == 0xFF && [0, 1, 2].all (fun i => held i == 0) && s.fuse 383 0 == h

/-- Runs of eight-byte write entries. -/
def entryPairs (bs : List Byte) : List (Nat × Nat) :=
  (List.range (bs.length / 8)).map (fun i => (leAt bs (8 * i) 4, leAt bs (8 * i + 4) 4))

/-- The role keys that PRESENT marks (R426, R430). -/
def roleKeys (plain : List Byte) : List (Nat × List Byte) :=
  ((List.range 4).filter (fun r => bit (leAt plain 0 1) r)).map (fun r => (r, sliceB plain (1 + 32 * r) 32))

/-- The "image" fields that the word at an address holds (R431). -/
def settingFields (h : RegHit) : List FldSpec :=
  h.spec.fields.filter (fun f => settingKeys.contains (h.addr * 64 + f.fld.lo) && (f.fld.part h.upper).isSome)

/-- Whether a SETTINGS entry is accepted: the word holds an "image" field, and each such field takes a value in its range
(R431; log entry 26). -/
def settingOk (e : Nat × Nat) : Bool :=
  match lookReg e.1 with
  | none => false
  | some h =>
    e.1 % 4 == 0 && !(settingFields h).isEmpty &&
      (settingFields h).all (fun f => decide (32 < f.fld.width) || f.ok (putBits f.fld h.upper 0 e.2))

/-- Apply a SETTINGS entry: the "image" fields of the word take their values. -/
def State.setting (s : State) (e : Nat × Nat) : State :=
  match lookReg e.1 with
  | none => s
  | some h =>
    forL (settingFields h) (fun f t =>
      { t with regs := Tab.put (h.addr * 64 + f.fld.lo) (putBits f.fld h.upper (t.fieldAt false h.addr f.fld) e.2) t.regs }) s

/-- A range lies in one mirror range (R499). -/
def State.inMirror (s : State) (a n : Nat) : Bool :=
  (List.range 8).any (fun r => decide ((s.mirrorRange r).1 ≤ a) && decide (a + n ≤ (s.mirrorRange r).2))

/-- What SETTINGS leaves is fit for use: the mirror ranges (R506), the context table (R510) and the fault log (R690). -/
def State.settingsFit (s : State) : Bool :=
  (List.range 8).all (fun r =>
    decide (s.getF (mcB (2 * r)) F.MC_MIRROR_MIR_BASE + s.getF (mcB (2 * r)) F.MC_MIRROR_MIR_SIZE ≤ 120)) &&
  s.getF ringB F.RING_CTX_BASE_ADDR % 0x4000000 == 0 && s.inMirror (s.getF ringB F.RING_CTX_BASE_ADDR) 0x4000000 &&
  s.getF fmB F.LOG_BASE_ADDR % 256 == 0 && s.inMirror (s.getF fmB F.LOG_BASE_ADDR) 0x400000

/-- Read a section and check its hash (code 0x06). -/
def State.readSection (s : State) (cs : Nat) (e : Section) : Except Nat (List Byte) :=
  let b := s.flashGets cs e.off e.len
  if sha384 b = e.hash then .ok b else .error 6

/-- The firmware section is Brynral's (code 0x07): FW_VER. -/
def State.firmware (s : State) (b : List Byte) : Except Nat Nat :=
  if fuseHash (sha384 (sliceB b 4 97)) = s.fuse 383 0 ∧
      ecdsaOk (sliceB b 4 97) (sliceB b 0x68 96) (sha384 (b.take 4 ++ b.drop 256)) then .ok (leAt b 0 4)
  else .error 7

/-- The KEYS section opens under OWNER_KEK (code 0x08, R430). -/
def State.openKeys (s : State) (b : List Byte) : Except Nat (List Byte) :=
  match gcmOpen (le 32 (s.fuse 1855 1600)) (b.take 12) (sliceB b 12 193) (b.drop 205) with
  | some p => .ok p
  | none => .error 8

/-- Do something that may fail for each element, and collect the results. -/
def collectE {α β : Type} (f : α → Except Nat β) : List α → Except Nat (List β)
  | [] => .ok []
  | x :: xs =>
    match f x with
    | .error e => .error e
    | .ok y => (collectE f xs).map (y :: ·)

/-- The sections of a type, read in the order of the table. -/
def State.sectionsOf (s : State) (cs type : Nat) (l : List Section) : Except Nat (List (Section × List Byte)) :=
  collectE (fun e => (s.readSection cs e).map (fun b => (e, b))) (l.filter (·.type == type))

/-- The header and table of an image, and its owner (codes 0x01 to 0x05): the sections. -/
def State.imageHead (s : State) (cs : Nat) : Except Nat (List Byte × List Section) :=
  let h := s.flashGets cs 0 256
  let n := leAt h 5 1
  let table := s.flashGets cs 256 (80 * n)
  let l := (List.range n).map (fun i => sectionOf (sliceB table (80 * i) 80))
  if leAt h 0 4 ≠ 0x48574349 ∨ leAt h 4 1 ≠ 1 then .error 1
  else if n = 0 ∨ 32 < n ∨ !sectionsOk l then .error 2
  else if !s.okeyOk (leAt h 7 1) (sliceB h 0x20 97) then .error 3
  else if !ecdsaOk (sliceB h 0x20 97) (sliceB h 0x88 96) (sha384 (h.take 0x88 ++ table)) then .error 4
  else if leAt h 8 4 < s.minVer then .error 5
  else .ok (h, l)

/-- The part of an image that steps 4 to 6 read, with every check of theirs (R427): what it gives the hub, and the section
table. -/
def State.readHub (s : State) (cs : Nat) : Except Nat (Image × List Section) := do
  let (h, l) ← s.imageHead cs
  let fw ← s.sectionsOf cs 1 l
  let ver ← s.firmware ((fw.head?.map (·.2)).getD [])
  let ks ← s.sectionsOf cs 2 l
  let plain ← s.openKeys ((ks.head?.map (·.2)).getD [])
  let set ← s.sectionsOf cs 3 l
  let settings := set.flatMap (fun e => entryPairs e.2)
  if !settings.all settingOk then throw 9
  if !(forL settings (fun e t => t.setting e) { s with regs := [] }).settingsFit then throw 9
  pure ({
    ver := leAt h 8 4
    devnum := leAt h 0x0C 2 % 2 ^ 14
    regionEn := leAt h 0x0E 1
    fw := ver
    settings := settings
    keys := roleKeys plain
    cassKey := sliceB plain 129 32
    annKey := sliceB plain 161 32 }, l)

/-- The PATTERN entries of an image (step 10). -/
def State.readPatterns (s : State) (cs : Nat) (l : List Section) : Except Nat (List (Nat × Nat)) :=
  (s.sectionsOf cs 4 l).map (fun ps => ps.flatMap (fun e => entryPairs e.2))

/-! ## The commands that read the flash (R424) -/

/-- The commands that step 4 sends: the reset, the header, where XSPI_MODE is 0x01 the write of OCT_VAL, and the table. -/
def State.headReads (s : State) (cs : Nat) : List Out :=
  let h := s.flashGets cs 0 256
  [.pulse .xspiRstn 10000, .flash cs false (0x0C :: be 4 0) 8] ++
    (if leAt h 0 4 ≠ 0x48574349 ∨ leAt h 4 1 ≠ 1 then []
     else
      (if leAt h 6 1 = 1 then
        [.flash cs false [0x06] 0, .flash cs false (sliceB h 0x10 1 ++ be 4 (leAt h 0x14 4) ++ sliceB h 0x13 1) 0]
       else []) ++ [flashRead cs h 256])

/-- The sections that are read in an order, up to the first whose hash fails. -/
def State.readsOf (s : State) (cs : Nat) : List Section → List Out
  | [] => []
  | e :: es =>
    flashRead cs (s.flashGets cs 0 256) e.off :: (if (s.readSection cs e).isOk then s.readsOf cs es else [])

/-- The commands of steps 5 and 6: FIRMWARE, then KEYS and SETTINGS where each check before has passed. -/
def State.hubReads (s : State) (cs : Nat) : List Out :=
  match s.imageHead cs with
  | .error _ => []
  | .ok (_, l) =>
    let fw := l.filter (·.type == 1)
    let ks := l.filter (·.type == 2)
    let fwOk := ((s.sectionsOf cs 1 l).bind (fun e => s.firmware ((e.head?.map (·.2)).getD []))).isOk
    let ksOk := ((s.sectionsOf cs 2 l).bind (fun e => s.openKeys ((e.head?.map (·.2)).getD []))).isOk
    s.readsOf cs fw ++ (if fwOk then s.readsOf cs ks ++ (if ksOk then s.readsOf cs (l.filter (·.type == 3)) else []) else [])

/-- The commands of steps 8 and 10: GAUGE and DATA, then PATTERN. -/
def State.loomReads (s : State) (cs : Nat) : List Out :=
  match s.imageHead cs with
  | .error _ => []
  | .ok (_, l) => s.readsOf cs (l.filter (·.loads) ++ l.filter (·.type == 4))

end Sys2Proof.Machine
end

