-- ==== Sys2Proof/Machine/Boot.lean ====
section
/-!
DEFINITION. Cast-on (11_cast_on R414 to R437), the return from STANDBY (R446), the management cores (R441), fuse programming
(R421) and the JTAG port (R442, R443). The commands PORN_RISE to READY, FUSE_PROG_GO and FUSE_PROG_DONE, EXTEST to BYPASS, and
LOCKSTEP_FAULT. Between PORN_RISE and READY the steps of R414 are taken in three parts: up to the XA check, to the end of step 6, and to Ready
(log entry 28).
-/

namespace Sys2Proof.Machine

/-! ## Loom bring-up (R432 to R434) -/

/-- The regions that step 7 brings up (R432). -/
def State.wanted (s : State) : List Nat :=
  (List.range 8).filter (fun r => bit (s.getF devB F.REGION_EN_EN) r && !bit s.boot.sensed (1984 + r))

/-- A failure takes a whole region off (R433). -/
def State.regionBad (s : State) (r : Nat) : Bool := s.failsAt 0 r || s.failsAt 1 (r / 2) || s.failsAt 2 (2 * r)

/-- Bring up region `r`: its domains; a device 2n + 1 that fails stays out, and no mirror copy is in service (R432, R433). -/
def State.regionOn (s : State) (r : Nat) : State :=
  let cl := (List.range 4).map (· + 4 * r)
  let ds := (List.range 3).map (· + (64 + 3 * r)) ++ cl ++ cl.map (· + 32)
  let s := forL ds (fun d t => t.domainOn d) s
  let s := if s.failsAt 2 (2 * r + 1) then s.setF (mcB (2 * r + 1)) F.MC_STATUS_STATE 3 else s
  s.mirrorShow r

/-- Whether a loom die holds a region that is up. -/
def State.dieUp (s : State) (d : Nat) : Bool := bit s.boot.avail (2 * d) || bit s.boot.avail (2 * d + 1)

/-- The die links that are up: those of the hub to a die that is up, and those between two such dies. -/
def State.linksShow (s : State) : State :=
  forN 7 (fun l t =>
    t.setF (dlB l) F.LINK_STATUS_UP (if (if l < 4 then t.dieUp l else t.dieUp (l - 4) && t.dieUp (l - 3)) then 1 else 0)) s

/-- A channel that has failed its self-test: the spare of the region stands in for it, or where it serves another, its wales are
masked (R24, R433). -/
def State.chanDead (s : State) (ch : Nat) : State :=
  let r := ch / 16
  let s := s.setF (rgnB r) F.RGN_FAILED_CH (setBit (s.getF (rgnB r) F.RGN_FAILED_CH) (ch % 16))
  if s.getF (spareB r) F.SPARE_STATUS_STATE = 0 then
    let s := (s.setF (spareB r) F.SPARE_STATUS_STATE 1).setF (spareB r) F.SPARE_STATUS_FOR ch
    (s.setF (rgnB r) F.RGN_XBAR_SPARE_LANE (ch % 16)).setCh ch { s.ch ch with spares := [(0, none)] }
  else s.setCh ch { s.ch ch with lostAt := some 0 }

/-- The region of a unit that fails, and the level of its log entry (R19, R22, R433). -/
def failPlace (kind unit : Nat) : Option (Nat × Nat) :=
  if kind = 0 then some (unit, 2)
  else if kind = 1 then some (2 * unit, 3)
  else if kind = 2 then some (unit / 2, 0)
  else if kind = 3 ∨ kind = 4 then some (unit / 16, 0)
  else if kind = 5 then some (unit / 4, 1)
  else none

/-- A failure of bring-up takes its effect on the unit and writes its log entry (R433, R713). -/
def State.failShow (s : State) (e : Nat × Nat) : State :=
  match failPlace e.1 e.2 with
  | some (r, level) =>
    if s.wanted.contains r ∨ (e.1 = 1 ∧ s.wanted.contains (r + 1)) then
      let s := if !bit s.boot.avail r then s
        else if e.1 = 3 then s.chanDead e.2
        else if e.1 = 4 then s.setF (teB e.2) F.TE_STATUS_STATE 2
        else s
      s.logAs .selftestFail 2 level e.2 0xFF []
    else s
  | none => if e.1 = 9 ∧ s.boot.step ≠ 10 then s.logAs .lockstep 3 0 e.2 0xFF (s.payReg coreB) else s

/-- Step 7 of R414. -/
def State.loomUp (s : State) : State :=
  let up := s.wanted.filter (fun r => !s.regionBad r)
  let bad := s.wanted.filter s.regionBad
  let s := { s with boot := { s.boot with avail := (up.map (2 ^ ·)).sum, faulty := (bad.map (2 ^ ·)).sum } }
  let s := (forL up (fun r t => t.regionOn r) s).linksShow
  forL s.boot.fails (fun e t => t.failShow e) s

/-! ## Release and Ready (R435 to R437) -/

/-- Whether core pair `p` is in service: no fuse removes it, and it has passed (R419, R434). -/
def State.pairOk (s : State) (p : Nat) : Bool := !bit s.boot.sensed (1992 + p) && !s.failsAt 7 p

/-- The active pair of the attempt (R441). -/
def State.bootPair (s : State) : Nat := if s.pairOk s.boot.pair then s.boot.pair else if s.pairOk (1 - s.boot.pair) then 1 - s.boot.pair else s.boot.pair

/-- The clock registers as cast-on leaves them (R420, R434, R455). -/
def State.clocksShow (s : State) : State :=
  let xb := if s.failsAt 6 0 then 0 else 1
  let s := ((s.setF clkB F.CLK_SRC_XA_OK 1).setF clkB F.CLK_SRC_XB_OK xb).setF clkB F.CLK_SRC_NET_REF (1 - xb)
  (s.setF clkB F.LOOP_STATUS_LOCK 0x3F).setF clkB F.XA_MEAS_HZ s.boot.hz

/-- The identity and boot registers (R427, R428, R449, R450). -/
def State.bootShow (s : State) (im : Image) : State :=
  let s := (s.setF devB F.DEV_PART_DIE_REV Config.dieRev.toNat).setF devB F.DEV_SERIAL_SERIAL (s.fuse 1919 1856)
  let s := (s.setF devB F.DEV_NUM_DEVNUM im.devnum).setF devB F.FW_VERSION_FW_VER im.fw
  let s := (s.setF devB F.IMAGE_VERSION_IMAGE_VER im.ver).setF devB F.REGION_EN_EN im.regionEn
  let s := (s.setF devB F.CAST_STATUS_IMAGE s.boot.image).setF devB F.BOOT_COUNT_COUNT (s.boot.tries + 1)
  let s := s.setF fuseB F.BOOT_STATUS_ATTEMPTS (s.boot.tries + 1)
  s.setF fuseB (if s.boot.image = 0 then F.BOOT_STATUS_A_CODE else F.BOOT_STATUS_B_CODE) 0

/-- Domains 88 to 95 come on: the core pairs in service, the ports, the hub. -/
def State.hubDoms (s : State) : State :=
  forL (((List.range 2).filter s.pairOk).map (· + 88) ++ (List.range 6).map (· + 90)) (fun d u => u.setDom d true) s

/-- The hub after reset, with the settings of an image (R431, R435): every field is at its Reset value, but for what cast-on
itself has found and, on a wake from SLEEP, for the always-on domain, which keeps what it holds. After PORN only the levels
at its inputs stay. -/
def State.release (s : State) (im : Image) : State :=
  let wake := s.boot.wake
  let keep := fun (e : Nat × Nat) => wake && (domainOf (e.1 / 64)).isNone
  let a := s.getF fuseB F.BOOT_STATUS_A_CODE
  let b := s.getF fuseB F.BOOT_STATUS_B_CODE
  let ports := (List.range 2).filter s.linkIsUp
  let t : State :=
    { now := s.now
      regs := s.regs.filter keep
      act := s.act.filter keep
      shd := s.shd.filter keep
      flash := s.flash
      out := s.out
      freeCtr := s.freeCtr
      pos := if wake then s.pos else s.pos.map (fun (e : Nat × PosCh) => (e.1, { pins := e.2.pins, z := e.2.z, zRaw := e.2.zRaw }))
      yarn := if wake then s.yarn else {}
      boot := s.boot
      fuses := s.fuses
      jtag := s.jtag
      pins := s.pins
      power := if wake then { s.power with queue := [], bind := false } else {}
      net := { upAt := s.net.upAt }
      cassKey := im.cassKey
      annKey := im.annKey
      keys := im.keys
      pending := s.pending }
  let t := (t.setF fuseB F.BOOT_STATUS_A_CODE a).setF fuseB F.BOOT_STATUS_B_CODE b
  let t := (t.setF fuseB F.FUSE_STATUS_DEBUG_LOCKED (if s.debugLocked then 1 else 0)).hubDoms
  let t := forL ports (fun p u => (u.setF (ethB p) F.ETH_STATUS_LINK_UP 1).setF (ethB p) F.ETH_STATUS_FEC_LOCK 1) t
  let t := (t.setF coreB F.CORE_STATUS_ACTIVE s.bootPair).setF coreB F.CORE_STATUS_STANDBY_OK (if s.pairOk (1 - s.bootPair) then 1 else 0)
  forL im.settings (fun e u => u.setting e) (t.clocksShow.bootShow im)

/-- GAUGE and DATA are read and copied to memory (step 8): a hash that fails ends it with code 0x06, an uncorrectable memory
error with 0x0A. A section for memory that is off goes nowhere (log entry 28). -/
def State.loadAll (s : State) (cs : Nat) : List Section → Except Nat State
  | [] => .ok s
  | e :: es =>
    match s.readSection cs e with
    | .error c => .error c
    | .ok b =>
      let r := s.memWrite 1 (blockUnit fuseB) e.load b
      if r.2 = some .ue then .error 0x0A else State.loadAll r.1 cs es

/-- The writer of PATTERN entries (R436). -/
def presetCtx : WriteCtx := ⟨0, 3, 2, false, true⟩

/-- Whether an address lies in a region window, and of which region. -/
def windowOf (a : Nat) : Option Nat := if 0x10000000 ≤ a then some ((a - 0x10000000) / 0x1000000) else none

/-- Apply PATTERN entries in order, those of region windows only where `regions` is set; none where one is refused (R436,
R446). -/
def State.patterns (regions : Bool) : List (Nat × Nat) → State → Option State
  | [], s => some s
  | (a, v) :: rest, s =>
    match windowOf a with
    | none =>
      if regions then State.patterns regions rest s
      else
        match s.planWrite presetCtx a [(v, 2 ^ 32 - 1)] with
        | .ok l => State.patterns regions rest (s.writeNow presetCtx l)
        | .error _ => none
    | some r =>
      if !bit s.boot.avail r then none
      else
        match s.planWrite presetCtx a [(v, 2 ^ 32 - 1)] with
        | .ok l => State.patterns regions rest (s.writeNow presetCtx l)
        | .error _ => none

/-- Steps 8 and 10 of R414 on a device whose loom dies are up; `regions` for region windows only (R446). -/
def State.loomLoad (s : State) (l : List Section) (regions : Bool) : Except Nat State :=
  let cs := s.boot.image
  match s.loadAll cs (l.filter (·.loads)) with
  | .error e => .error e
  | .ok t =>
    match t.readPatterns cs l with
    | .error e => .error e
    | .ok ps =>
      match State.patterns regions ps t with
      | none => .error 9
      | some u => .ok u

/-- One image attempt, steps 4 to 10 of R414: the device as it stands before Ready, or the code of the failed check. -/
def State.attempt (s : State) : Except Nat State :=
  match s.readHub s.boot.image with
  | .error e => .error e
  | .ok (im, l) => (s.release im).loomUp.loomLoad l false

/-- The active port at Ready (R573). -/
def State.firstPort (s : State) : State :=
  let p := s.getF netB F.NET_CTRL_PREF_PORT
  s.setF (ethB (if s.linkIsUp p then p else 1 - p)) F.ETH_STATUS_ACTIVE 1

/-- Ready (R437, R439): READY, CAST_TIME, the command port, the first announcement. -/
def State.readyNow (s : State) : State :=
  let wake := s.boot.wake
  let s := (s.setF devB F.CAST_STATUS_READY 1).setF devB F.CAST_TIME_MS ((s.now - s.boot.start) / 250000)
  let s := { s with boot := { s.boot with step := 10, wake := false, readyAt := s.now } }
  let s := s.firstPort
  let s := if wake then s.raise pwrB F.PWR_EVENT_WAKE_EV 0xDA else s
  let s := s.setF devB F.DEGRADED_BITS s.degraded
  let s := { s with degShown := s.degraded }
  let ports := (List.range 2).filter s.linkIsUp
  let s := forL ports (fun p t => t.reports p 4) s
  if ports.isEmpty then { s with boot := { s.boot with annWait := [0, 1] } } else s.announce 1

/-- An image attempt fails with a code (R428, R441): the next attempt runs from step 4 with the other image, or after a lockstep
fault with the same image on the other pair; after the fourth, cast-on halts with the balls of the flash at high impedance. -/
def State.bootFail (s : State) (code : Nat) (lockstep : Bool) : State :=
  let s := s.setF fuseB (if s.boot.image = 0 then F.BOOT_STATUS_A_CODE else F.BOOT_STATUS_B_CODE) code
  let s := s.setF devB F.CAST_STATUS_PHASE 4
  let n := s.boot.tries + 1
  let s := if 4 ≤ n then s.emit (.hiz "XSPI") else s
  { s with boot :=
      { s.boot with
        step := 4
        tries := n
        halt := if 4 ≤ n then 3 else s.boot.halt
        image := if lockstep then s.boot.image else 1 - s.boot.image
        pair := if lockstep && s.pairOk (1 - s.bootPair) then 1 - s.bootPair else s.boot.pair
        fails := if lockstep then s.boot.fails ++ [(9, s.bootPair)] else s.boot.fails } }

/-- The cores run again: the FW_IRQ fires held since SLEEP act (R637). -/
def State.irqsRun (s : State) : State :=
  ({ s with yarn := { s.yarn with heldIrq := [] } }).emits (s.yarn.heldIrq.map Out.irq)

/-- Step 6 ends: the hub is initialised, its firmware runs, the Ethernet PCS has started, and step 7 begins (R414). -/
def State.hubUp (s : State) : State :=
  { s.irqsRun.hubDoms.setF devB F.CAST_STATUS_PHASE 7 with boot := { s.boot with step := 7 } }

/-- Steps 4 to 6 of an image attempt that has not ended them: the device after them, and the code of the check that fails. -/
def State.castHead (s : State) : State × Option Nat :=
  if s.boot.step < 7 then
    let t := s.emits (s.headReads s.boot.image ++ s.hubReads s.boot.image)
    match t.readHub s.boot.image with
    | .error c => (t, some c)
    | .ok _ => (t.hubUp, none)
  else (s, none)

/-- Steps 7 to 10, up to Ready. -/
def State.castTail (s : State) : State × Option Nat :=
  let t := s.emits (s.loomReads s.boot.image)
  match t.attempt with
  | .error c => (t, some c)
  | .ok u => (u.readyNow, none)

/-- What is left of an image attempt. -/
def State.castWhole (s : State) : State × Option Nat :=
  match s.castHead with
  | (t, none) => t.castTail
  | r => r

/-- Image attempts, each as far as `part` takes it, until one passes or cast-on halts (R428). -/
def State.castOn (part : State → State × Option Nat) : Nat → State → State
  | 0, s => s
  | n + 1, s =>
    match part s with
    | (t, none) => t
    | (t, some c) =>
      let u := t.bootFail c false
      if u.boot.halt ≠ 0 then u else State.castOn part n u

/-- The attempt under way fails, and the next one runs up to the end of step 6. -/
def State.castAgain (s : State) (code : Nat) (lockstep : Bool) : State :=
  let u := s.bootFail code lockstep
  if u.boot.halt ≠ 0 then u else State.castOn State.castHead 4 u

/-- Whether the device is in SLEEP with no wake under way (R470, R473). -/
def State.asleep (s : State) : Bool := s.pwrState == 4 && !s.boot.wake

/-- Whether an image attempt is under way: after the XA check and before Ready. -/
def State.casting (s : State) : Bool :=
  decide (4 ≤ s.boot.step) && decide (s.boot.step < 10) && s.boot.halt == 0 && !s.asleep

/-- The return from STANDBY to RUN fails or ends (R446); its command gets its result. -/
def State.resumeEnd (s : State) (status : Nat) : State :=
  ({ s with boot := { s.boot with resume := false } }).finishOp 0x0B00 (fun _ => true) status []

/-- Steps 7 to 10 again, for the return from STANDBY (R446). An image that no longer passes leaves the device in STANDBY
(DEDUCED, log entry 28). -/
def State.resumeRun (s : State) : State :=
  match s.readHub s.boot.image with
  | .error _ => s.resumeEnd stHwFault
  | .ok (_, l) =>
    let s := s.emits (s.loomReads s.boot.image)
    match s.loomUp.loomLoad l true with
    | .error _ => s.resumeEnd stHwFault
    | .ok t => (t.setF pwrB F.PWR_STATE_STATE 1).resumeEnd stOk

/-- READY: the last step ends (R437). The attempts that the flash makes fail end before it, each with its code. -/
def execReady (s : State) : Host.Outcome State Fault Refusal :=
  .next (if s.boot.resume && s.boot.step == 10 then s.resumeRun
    else if s.casting then State.castOn State.castWhole 4 s else s)

/-- CAST_ON_WATCHDOG: Ready has not been reached within 10 s of the start of step 4 (R416). -/
def execCastOnWatchdog (s : State) : Host.Outcome State Fault Refusal := .next (if s.casting then s.castAgain 0x0C false else s)

/-! ## PORN (R414, R415, R701) -/

/-- The whole device is reset: only the flash, the fuses and what has been sent outlast it; every pin goes to its reset level
(R702, R705). -/
def State.pornLow (s : State) : State :=
  { State.reset with
    now := s.now
    flash := s.flash
    out := (s.strobeCut.pinsRest (fun _ => true)).out
    banksOff := s.banksOff
    freeCtr := s.freeCtr
    fuses := s.fuses
    pending := s.pending }

/-- PORN_FALL (R415). -/
def execPornFall (s : State) : Host.Outcome State Fault Refusal := .next s.pornLow

/-- AON_UNDERVOLT: treated as PORN low (R701); with VDD_AON out of range the power-on control of the I/O banks holds every output
at high impedance (R702), until PORN rises with every supply in range (R415). -/
def execAonUndervolt (s : State) : Host.Outcome State Fault Refusal :=
  .next { s.pornLow.emit (.hiz "ALL") with banksOff := true }

/-- PORN_RISE: cast-on begins; the fuse array is sensed, and where no two readings agree it halts with FUSE_FAIL (R414, R418).
`fails` are the failures that the later steps will meet. -/
def execPornRise (fusesAgree : Bool) (fails : List (Fin 10 × Nat)) (s : State) : Host.Outcome State Fault Refusal :=
  .next (if s.boot.step ≠ 0 then s
    else
      let l := (fails.filter (fun e => decide (e.1.val < 9))).map (fun e => (e.1.val, e.2))
      { s.setF devB F.CAST_STATUS_PHASE (if fusesAgree then 3 else 2) with
        banksOff := false
        boot :=
          { step := if fusesAgree then 3 else 2
            halt := if fusesAgree then 0 else 1
            sensed := if fusesAgree then s.fuses else 0
            start := s.now
            fails := l } })

/-- Step 4 begins, with XA at a frequency (R414, R420). -/
def State.stepFour (s : State) (hz : Nat) : State :=
  ({ s.setF clkB F.XA_MEAS_HZ hz with boot := { s.boot with step := 4, hz := hz } }.clocksShow).setF devB F.CAST_STATUS_PHASE 4

/-- XA_STABLE_DELAY_END: XA is measured against FOSC; a frequency outside 25 MHz ± 5% halts cast-on with XA_FAIL (R420). Else
steps 4 to 6 follow, up to the start of loom bring-up. -/
def execXaStableDelayEnd (hz : Nat) (s : State) : Host.Outcome State Fault Refusal :=
  .next (if s.boot.step = 3 ∧ s.boot.halt = 0 ∧ !s.asleep then
      if 23750000 ≤ hz ∧ hz ≤ 26250000 then State.castOn State.castHead 4 (s.stepFour hz)
      else { s.setF clkB F.XA_MEAS_HZ hz with boot := { s.boot with halt := 2, hz := hz } }
    else s)

/-! ## Management cores (R365, R441) -/

/-- A lockstep fault of a core pair after Ready: the standby pair takes over with every session, reply and held command (R365);
a fault of the standby pair leaves none. -/
def State.coreFault (s : State) (pair : Nat) : State :=
  let standby := s.flag coreB F.CORE_STATUS_STANDBY_OK
  let act := s.getF coreB F.CORE_STATUS_ACTIVE
  let s := s.raise coreB F.CORE_STATUS_LOCKSTEP_EV 0xD7
  let s := s.logAs .lockstep (if standby then 1 else 3) 0 pair 0xFF (s.payReg coreB)
  if pair ≠ act then s.setF coreB F.CORE_STATUS_STANDBY_OK 0
  else if standby then
    let s := (s.setF coreB F.CORE_STATUS_ACTIVE (1 - act)).setF coreB F.CORE_STATUS_STANDBY_OK 0
    let s := (s.satF coreB F.TAKEOVERS_COUNT 1).raise coreB F.CORE_STATUS_TAKEOVER_EV 0xD8
    s.logReg .takeover (1 - act) 0xFF coreB
  else s

/-- LOCKSTEP_FAULT: of the active pair (R441). -/
def execLockstepFault (s : State) : Host.Outcome State Fault Refusal :=
  .next (if s.casting then s.castAgain 0x0B true
    else if s.boot.step = 10 ∧ s.domOn 91 then s.coreFault (s.getF coreB F.CORE_STATUS_ACTIVE)
    else s)

/-! ## Fuse programming (R421) -/

/-- FUSE_PROG_GO: a service session writes the bit address, and FUSE_PROG_CTRL with its key and GO. -/
def execFuseProgGo (b : Fin 4096) (s : State) : Host.Outcome State Fault Refusal :=
  .next (if s.boot.step = 10 ∧ s.domOn 91 then
      let t := (s.setF fuseB F.FUSE_PROG_ADDR_BIT b.val).setF fuseB F.FUSE_PROG_CTRL_KEY 0xF05E
      if t.fuseStatus = stOk then t.fuseBlow else s
    else s)

/-- FUSE_PROG_DONE: the bit is read back; DEBUG_LOCK takes effect at once (R421, R422, R443). -/
def execFuseProgDone (readsOne : Bool) (s : State) : Host.Outcome State Fault Refusal :=
  .next (if s.flag fuseB F.FUSE_STATUS_PROG_BUSY then
      let s := s.setF fuseB F.FUSE_STATUS_PROG_BUSY 0
      if readsOne then
        let s := { s with fuses := setBit s.fuses s.boot.fuseAt }
        if s.debugLocked then (s.setF fuseB F.DBG_CTRL_DBG_EN 0).setF fuseB F.FUSE_STATUS_DEBUG_LOCKED 1 else s
      else s.mark fuseB F.FUSE_STATUS_PROG_ERR
    else s)

/-! ## JTAG (R418, R442, R443) -/

/-- Load the instruction register: while cast-on has halted only BYPASS and IDCODE are offered; with DEBUG_LOCK blown only
those that are kept. -/
def State.jtagLoad (s : State) (code : Nat) (kept : Bool) : State :=
  let ok := if s.boot.halt ≠ 0 then code == 0x02 || code == 0xFF else kept || !s.debugLocked
  { s with jtag := if ok then code else 0xFF }

/-- EXTEST. -/
def execExtest (s : State) : Host.Outcome State Fault Refusal := .next (s.jtagLoad 0x00 true)

/-- SAMPLE/PRELOAD. -/
def execSamplePreload (s : State) : Host.Outcome State Fault Refusal := .next (s.jtagLoad 0x01 true)

/-- IDCODE: the identification code is shifted out. -/
def execIdcode (s : State) : Host.Outcome State Fault Refusal := .next ((s.jtagLoad 0x02 true).emit (.jtag 32 0x10128BB3))

/-- SCAN_TEST: it acts only while DEBUG_LOCK is unblown and DBG_EN is 1. -/
def execScanTest (s : State) : Host.Outcome State Fault Refusal :=
  .next (if s.flag fuseB F.DBG_CTRL_DBG_EN then s.jtagLoad 0x11 false else s.jtagLoad 0xFF true)

/-- HIGHZ. -/
def execHighz (s : State) : Host.Outcome State Fault Refusal := .next (s.jtagLoad 0x12 false)

/-- CLAMP. -/
def execClamp (s : State) : Host.Outcome State Fault Refusal := .next (s.jtagLoad 0x13 false)

/-- BYPASS. -/
def execBypass (s : State) : Host.Outcome State Fault Refusal := .next (s.jtagLoad 0xFF true)

/-- The access of DBG_ACCESS, through the active core pair: a word of a register or of memory is written, or read and shifted
out. -/
def State.dbgAccess (s : State) (write mem : Bool) (addr data : Nat) : State :=
  if mem then
    if write then (s.memWrite 1 (blockUnit coreB) addr (le 4 data)).1
    else
      let r := s.memRead 1 (blockUnit coreB) addr 4
      match r.2 with
      | .ok bs => r.1.emit (.jtag 32 (leVal bs))
      | .error _ => r.1
  else if write then (s.writeReq ⟨0, 3, 2, false, false⟩ false addr [(data, 2 ^ 32 - 1)]).1
  else
    let r := s.readReq false addr 1
    if r.2.1 = stOk then r.1.emit (.jtag 32 (r.2.2.headD 0)) else r.1

/-- DBG_ACCESS: it acts only while DEBUG_LOCK is unblown and DBG_EN is 1 (R443). -/
def execDbgAccess (write mem : Bool) (addr : BitVec 40) (data : BitVec 32) (s : State) : Host.Outcome State Fault Refusal :=
  .next (if s.flag fuseB F.DBG_CTRL_DBG_EN && !s.debugLocked && s.boot.step == 10 && s.domOn 91 then
      (s.jtagLoad 0x10 false).dbgAccess write mem addr.toNat data.toNat
    else s.jtagLoad 0xFF true)

end Sys2Proof.Machine
end

