-- ==== Sys2Proof/Machine/Session.lean ====
section
/-!
DEFINITION. The command layer (09_commands R354 to R371): replies and their tags, sessions, the checks of R366 from the
session on, the sequence window and the reply cache, and the rows SESSION_OPEN, SESSION_CLOSE, KEEPALIVE, SESSION_LIST,
SESSION_KILL and SESSION_TIMEOUT.
-/

namespace Sys2Proof.Machine

/-! ## Keys and replies -/

/-- The role key K_r, where the image holds one. -/
def State.roleKey (s : State) (role : Nat) : Option (List Byte) := (s.keys.find? (fun e => e.1 == role)).map (·.2)

/-- The session key K_s (R361). -/
def State.sessKey (s : State) (e : Session) : List Byte :=
  hmac ((s.roleKey e.role).getD []) ([0x53, 0x4B] ++ be 2 e.id ++ be 16 e.hostNonce ++ be 16 e.devNonce)

/-- The bytes of a reply before its tag (R358). -/
def replyBody (h : Hdr) (op session status : Nat) (course : Int) (params : List Byte) : List Byte :=
  be 2 0x4859 ++ [1, 1] ++ be 2 session ++ [h.role, h.group] ++ be 4 h.seq.toNat ++ be 2 op ++ be 2 params.length ++
    be 8 (ofInt 64 course) ++ be 2 status ++ zeros 6 ++ params

/-- Send a reply to the source address and port of its command, on the port on which it arrived (R362). -/
def State.sendReply (s : State) (h : Hdr) (bytes : List Byte) : State :=
  s.sendUdp h.port.val h.addr.toNat h.udp.toNat (s.getF cmdB F.CMD_CFG_UDP_PORT) F.NET_PCP_PCP_CMD bytes

/-- The course view of the header's GROUP (R32, R377). -/
def State.hdrView (s : State) (h : Hdr) : Int := s.stampOf h.group.toNat

/-- A reply that is not cached (R367). Where the role has no key, the spec gives the tag no key: its value is free. -/
def State.quick (s : State) (h : Hdr) (op status : Nat) (key : Option (List Byte)) (params : List Byte) : State :=
  let m := replyBody h op h.session.toNat status (s.hdrView h) params
  match key with
  | some k => s.sendReply h (m ++ tag16 k m)
  | none => s.tickFree.sendReply h (m ++ le 16 (Config.freeBits 128 s.freeCtr).toNat)

/-- A NO_SESSION or AUTH_FAIL reply: counted, and limited to AUTH_RATE a second on its port (R366, R367). -/
def State.deny (s : State) (h : Hdr) (op status : Nat) (key : Option (List Byte)) : State :=
  let s := if status = stAuthFail then
      (s.satF cmdB F.CMD_AUTH_FAIL_COUNT 1).raise cmdB F.CMD_EVENT_AUTH_EV 0xD1
    else s.satF cmdB F.CMD_NO_SESSION_COUNT 1
  let w := Tab.get (0, 0) h.port.val s.net.authWin
  let open' := w.1 != 0 && decide (s.now < w.2 + 250000000)
  let w := if open' then w else (0, s.now)
  if w.1 < s.getF cmdB F.CMD_CFG_AUTH_RATE then
    let s := { s with net := { s.net with authWin := Tab.put h.port.val (w.1 + 1, w.2) s.net.authWin } }
    s.quick h op status key []
  else s.satF cmdB F.CMD_RATE_DROP_COUNT 1

/-- The largest UDP datagram that a port carries to an address (R357). -/
def State.portLimit (s : State) (h : Hdr) : Nat :=
  (if s.flag (ethB h.port.val) F.ETH_CTRL_JUMBO then 9188 else 1494) - (if isV4 h.addr.toNat then 28 else 48)

/-! ## Sessions -/

/-- The open session that a header names, bound to its address, port and role (R366 step 2). -/
def State.findSession (s : State) (h : Hdr) : Option Session :=
  s.sess.find? (fun e => e.id == h.session.toNat && e.role == h.role.toNat && e.addr == h.addr.toNat && e.udp == h.udp.toNat)

/-- Change the session with number `id`. -/
def State.mapSession (s : State) (id : Nat) (f : Session → Session) : State :=
  { s with sess := s.sess.map (fun e => if e.id = id then f e else e) }

/-- The limit of a reply (R357): MAX_DGRAM of the session, or what the port carries. -/
def State.replyLimit (s : State) (h : Hdr) : Nat :=
  match s.findSession h with
  | some e => min e.maxDgram (s.portLimit h)
  | none => s.portLimit h

/-- Whether a reply with `n` bytes of parameters is within the limit. -/
def State.fits (s : State) (h : Hdr) (n : Nat) : Bool := decide (48 + n ≤ s.replyLimit h)

/-- Show the number of open sessions. -/
def State.showSessions (s : State) : State := s.setF cmdB F.CMD_STATUS_SESSIONS s.sess.length

/-- A session closes (R363): its outstanding commands go on, and their replies are not sent. -/
def State.closeSession (s : State) (id : Nat) : State :=
  { s with sess := s.sess.filter (fun e => e.id != id) }.showSessions

/-- SESSION_TIMEOUT: no command with a valid tag has reached the session for TIMEOUT seconds (R363). -/
def execSessionTimeout (session : BitVec 16) (s : State) : Host.Outcome State Fault Refusal :=
  .next (s.closeSession session.toNat)

/-! ## The sequence window (R368, R369) -/

/-- The sequence is above HI. -/
def seqAbove (hi q : Nat) : Bool := decide (1 ≤ diff32 q hi) && decide (diff32 q hi ≤ 1024)

/-- The sequence lies in the window at or below HI. -/
def seqWithin (hi q : Nat) : Bool := diff32 q hi == 0 || decide (2 ^ 32 - 1023 ≤ diff32 q hi)

/-- A new sequence number is taken: HI rises, what has left the window is forgotten, and the command is outstanding
(R369, R370). -/
def Session.take (e : Session) (h : Hdr) (op : Nat) : Session :=
  let q := h.seq.toNat
  let hi := if seqAbove e.hi q then q else e.hi
  { e with
    hi := hi
    seen := (e.seen ++ [q]).filter (seqWithin hi)
    cache := e.cache.filter (fun c => seqWithin hi c.1)
    outst := e.outst ++ [(⟨h, op, 0, none⟩ : Outstanding)] }

/-- What a command answers: status, course (none: the course view of GROUP), parameters, whether its reply follows at its
completion, the unit it then names, and what follows the reply. -/
structure Reply where
  status : Nat := 0
  course : Option Int := none
  params : List Byte := []
  wait : Bool := false
  unit : Nat := 0
  after : State → State := id

/-- A reply of a status alone. -/
def Reply.of (status : Nat) : Reply := { status := status }

/-- The reply of a command leaves: it is cached, and the command is no longer outstanding; a reply above the limit gives
BAD_LENGTH (R357, R367, R370). -/
def State.reply (s : State) (h : Hdr) (op status : Nat) (course : Int) (params : List Byte) : State :=
  match s.findSession h with
  | none => s
  | some e =>
    let fits := s.fits h params.length
    let m := replyBody h op h.session.toNat (if fits then status else stBadLength) course (if fits then params else [])
    let bytes := m ++ tag16 (s.sessKey e) m
    let s := s.mapSession e.id (fun x => { x with
      outst := x.outst.filter (fun o => o.hdr.seq != h.seq)
      cache := x.cache ++ [(h.seq.toNat, bytes)] })
    s.sendReply h bytes

/-- Give an outstanding command its unit. -/
def State.setUnit (s : State) (h : Hdr) (unit : Nat) : State :=
  s.mapSession h.session.toNat (fun x => { x with
    outst := x.outst.map (fun (o : Outstanding) => if o.hdr.seq = h.seq then { o with arg := unit } else o) })

/-- The result that an outstanding command already has. -/
def State.resultOf (s : State) (h : Hdr) : Option (Nat × List Byte) :=
  match s.findSession h with
  | some e => (e.outst.find? (fun o => o.hdr.seq == h.seq)).bind (·.result)
  | none => none

/-- The reply of a command that waits, once its result is known. -/
def State.replyDone (s : State) (h : Hdr) (op : Nat) : State :=
  match s.resultOf h with
  | some r => s.reply h op r.1 (s.hdrView h) r.2
  | none => s

/-- A command that has been carried out: its reply leaves, or it waits for its completion. -/
def State.answer (s : State) (h : Hdr) (op : Nat) (r : Reply) : State :=
  if r.wait then (s.setUnit h r.unit).replyDone h op
  else r.after (s.reply h op r.status (r.course.getD (s.hdrView h)) r.params)

/-- Commands that bind-off lets through (R444); BIND_OFF itself answers BUSY. -/
def allowedInBind (op : Nat) : Bool := [0x0100, 0x0102, 0x0103, 0x0302, 0x0A00].contains op

/-- The command port is open (R437): from Ready on, while the hub has power, and HCLK (R456). -/
def State.portOpen (s : State) : Bool := s.boot.step == 10 && s.domOn 91 && s.pwrState != 4 && s.clk 1

/-- GROUP of a header: a web group or 0xFF (R358). -/
def groupOk (g : Nat) : Bool := decide (g < 16) || g == 0xFF

/-- The checks that come before the opcode's own (R366 steps 8 to 10, R358, R378, R444): `early` is the status of an
unknown opcode or of a PLEN that the opcode does not take, 0 where neither holds. -/
def State.preStatus (s : State) (h : Hdr) (op role early : Nat) : Nat :=
  if early = stBadOpcode then early
  else if h.role.toNat < role then stNotPermitted
  else if early ≠ 0 then early
  else if !groupOk h.group.toNat then stBadParam
  else if s.power.bind && !allowedInBind op then stBusy
  else if h.atCourse && op != 0x0201 && op != 0x0202 then stBadParam
  else stOk

/-- A command that has passed framing and its tag, from step 2 of R366 on: its session, its sequence, and the checks of
its opcode, which lowest role `role` may issue; then its effect. -/
def State.commandE (s : State) (h : Hdr) (op role early : Nat) (body : State → State × Reply) : State :=
  if !s.portOpen then s
  else
    match s.findSession h with
    | none => s.deny h op stNoSession (s.roleKey h.role.toNat)
    | some e =>
      let s := s.mapSession e.id (fun x => { x with heard := s.now })
      let q := h.seq.toNat
      if !seqAbove e.hi q && !seqWithin e.hi q then s.quick h op stSeqRange (some (s.sessKey e)) []
      else if e.seen.contains q then
        match e.cache.find? (fun c => c.1 == q) with
        | some c => s.sendReply h c.2
        | none => s
      else if 256 ≤ e.outst.length then s.quick h op stBusy (some (s.sessKey e)) []
      else
        let s := s.mapSession e.id (fun x => x.take h op)
        let st := s.preStatus h op role early
        if st ≠ 0 then s.answer h op (.of st)
        else
          let r := body (s.incF cmdB F.CMD_COUNT_COUNT 1)
          r.1.answer h op r.2

/-- A command whose PLEN is that of its opcode. -/
def State.command (s : State) (h : Hdr) (op role : Nat) (body : State → State × Reply) : State := s.commandE h op role 0 body

/-! ## SESSION_OPEN (R360 to R364) -/

/-- The `v`-th number from 1 on that no open session has. -/
def freshId (v : Nat) : List Nat → Nat
  | [] => v
  | k :: ks => if k ≤ v then freshId (v + 1) ks else freshId v ks

/-- The numbers of the open sessions in ascending order. -/
def State.sessIds (s : State) : List Nat := ((s.sess.map (fun e => Int.ofNat e.id)).foldr insertInt []).map Int.toNat

/-- A session opens: its number and DEV_NONCE come from the random generator, free values (R361). -/
def State.openSession (s : State) (h : Hdr) (key : List Byte) (nonce timeout maxDgram : Nat) : State :=
  let id := freshId ((Config.freeBits 16 s.freeCtr).toNat % (65535 - s.sess.length) + 1) s.sessIds
  let dev := (Config.freeBits 128 (s.freeCtr + 1)).toNat
  let s := s.tickFree.tickFree
  let m := replyBody h 0x0101 h.session.toNat stOk (s.hdrView h) (be 2 id ++ be 16 dev ++ be 2 256)
  let bytes := m ++ tag16 key m
  let e : Session :=
    { id := id
      role := h.role.toNat
      port := h.port.val
      addr := h.addr.toNat
      udp := h.udp.toNat
      hostNonce := nonce
      devNonce := dev
      timeout := if timeout = 0 then 30 else timeout
      maxDgram := maxDgram
      heard := s.now
      hi := h.seq.toNat
      seen := [h.seq.toNat]
      cache := [(h.seq.toNat, bytes)]
      outst := []
      openReply := bytes }
  (({ s with sess := s.sess ++ [e] }.showSessions).incF cmdB F.CMD_COUNT_COUNT 1).sendReply h bytes

/-- The status of an open whose nonce is new (R362, R363, R378, R382, R444). -/
def State.openStatus (s : State) (h : Hdr) (timeout maxDgram : Nat) : Nat :=
  if !groupOk h.group.toNat then stBadParam
  else if s.power.bind then stBusy
  else if h.atCourse then stBadParam
  else if 3600 < timeout ∨ maxDgram < 512 ∨ 8240 < maxDgram then stBadParam
  else if 64 ≤ s.sess.length then stNoResource
  else stOk

/-- SESSION_OPEN (R360 to R364, R382). One whose SESSION names an open session is not what R358 gives, and answers BAD_PARAM
(log entry 61). -/
def execSessionOpen (h : Hdr) (nonce : BitVec 128) (timeout maxDgram : BitVec 16) (s : State) :
    Host.Outcome State Fault Refusal :=
  .next (if !s.portOpen then s
    else if h.session ≠ 0 then
      if (s.findSession h).isNone then s.deny h 0x0101 stNoSession (s.roleKey h.role.toNat)
      else s.quick h 0x0101 stBadParam (s.roleKey h.role.toNat) []
    else
      match s.roleKey h.role.toNat with
      | none => s.deny h 0x0101 stAuthFail none
      | some key =>
        match s.sess.find? (fun e => e.hostNonce == nonce.toNat && e.addr == h.addr.toNat && e.udp == h.udp.toNat) with
        | some e => s.sendReply h e.openReply
        | none =>
          let st := s.openStatus h timeout.toNat maxDgram.toNat
          if st ≠ 0 then s.quick h 0x0101 st (some key) []
          else s.openSession h key nonce.toNat timeout.toNat maxDgram.toNat)

/-- SESSION_CLOSE (R363): the reply leaves first. -/
def execSessionClose (h : Hdr) (s : State) : Host.Outcome State Fault Refusal :=
  .next (s.command h 0x0102 0 (fun t => (t, { after := (·.closeSession h.session.toNat) })))

/-- KEEPALIVE (R363). -/
def execKeepalive (h : Hdr) (s : State) : Host.Outcome State Fault Refusal := .next (s.command h 0x0103 0 (fun t => (t, {})))

/-- One session of SESSION_LIST (R381). -/
def Session.bytes (e : Session) : List Byte :=
  be 2 e.id ++ be 1 e.role ++ [0] ++ be 2 e.outst.length ++ be 2 e.udp ++ be 16 e.addr

/-- SESSION_LIST (R381). -/
def execSessionList (h : Hdr) (s : State) : Host.Outcome State Fault Refusal :=
  .next (s.command h 0x0104 2 (fun t => (t, { params := t.sess.flatMap (·.bytes) })))

/-- SESSION_KILL (R363). -/
def execSessionKill (h : Hdr) (session : BitVec 16) (s : State) : Host.Outcome State Fault Refusal :=
  .next (s.command h 0x0105 3 (fun t =>
    if t.sess.any (fun e => e.id == session.toNat) then (t, { after := (·.closeSession session.toNat) })
    else (t, .of stBadParam)))

end Sys2Proof.Machine
end

