-- ==== Sys2Proof/Machine/Commands.lean ====
section
/-!
DEFINITION. The commands on the device, registers, pattern sets, groups and cameras (09_commands R381 to R383): the rows
DEVICE_INFO, REG_READ to REG_MODIFY, PATTERN_SWAP to PATTERN_STATUS, GROUP_START to AUXSYNC, and COMMAND_COMPLETE.
-/

namespace Sys2Proof.Machine

/-- A reply that follows at the completion of the command; `unit` is what it names. -/
def Reply.later (unit : Nat) : Reply := { wait := true, unit := unit }

/-- A reply with parameters. -/
def Reply.ok (params : List Byte) : Reply := { params := params }

/-- DEVICE_INFO (R381, R383). -/
def State.deviceInfo (s : State) : List Byte :=
  be 2 (s.getF devB F.DEV_NUM_DEVNUM) ++ be 8 (s.getF devB F.DEV_SERIAL_SERIAL) ++ be 4 (s.getF devB F.FW_VERSION_FW_VER) ++
    be 1 s.stateByte ++ be 1 (s.getF devB F.CAST_STATUS_IMAGE) ++ zeros 2 ++ be 4 s.degraded

/-- DEVICE_INFO. -/
def execDeviceInfo (h : Hdr) (s : State) : Host.Outcome State Fault Refusal :=
  .next (s.command h 0x0100 0 (fun t => (t, .ok t.deviceInfo)))

/-! ## Registers (R372 to R380) -/

/-- REG_READ. -/
def execRegRead (h : Hdr) (addr : BitVec 32) (count : BitVec 16) (set : BitVec 8) (s : State) :
    Host.Outcome State Fault Refusal :=
  .next (s.command h 0x0200 0 (fun t =>
    let n := count.toNat
    if n < 1 ∨ 256 < n ∨ 1 < set.toNat then (t, .of stBadParam)
    else if !t.fits h (4 * n) then (t, .of stBadLength)
    else
      let r := t.readReq (set == 1) addr.toNat n
      if r.2.1 = stOk then (r.1, .ok (r.2.2.flatMap (be 4))) else (r.1, .of r.2.1)))

/-- The writer that a header names. -/
def writerOf (h : Hdr) (set : Nat) : WriteCtx := ⟨h.session.toNat, h.role.toNat, h.port.val, set == 1, false⟩

/-- The write of a command, at once or at its course, with the reply (R374, R377, R378). -/
def State.writeCmd (s : State) (h : Hdr) (set : Nat) (modify : Bool) (addr : Nat) (words : List (Nat × Nat)) (ok : List Byte) :
    State × Reply :=
  let r := if h.atCourse then s.writeAt (writerOf h set) modify addr words h.group.toNat h.course.toNat
    else s.writeReq (writerOf h set) modify addr words
  (r.1, { status := r.2.1, course := r.2.2.1, params := if r.2.1 < 2 then ok else r.2.2.2 })

/-- REG_WRITE. -/
def execRegWrite (h : Hdr) (addr : BitVec 32) (count : BitVec 16) (set : BitVec 8) (words : List Word) (s : State) :
    Host.Outcome State Fault Refusal :=
  .next (s.commandE h 0x0201 2 (if words.length = count.toNat then 0 else stBadLength) (fun t =>
    let n := count.toNat
    if n < 1 ∨ 256 < n ∨ 1 < set.toNat then (t, .of stBadParam)
    else t.writeCmd h set.toNat false addr.toNat (words.map (fun w => (w.toNat, 2 ^ 32 - 1))) []))

/-- REG_MODIFY: OLD is the word before the write (R381). -/
def execRegModify (h : Hdr) (addr : BitVec 32) (set : BitVec 8) (mask value : Word) (s : State) :
    Host.Outcome State Fault Refusal :=
  .next (s.command h 0x0202 2 (fun t =>
    if 1 < set.toNat then (t, .of stBadParam)
    else t.writeCmd h set.toNat true addr.toNat [(value.toNat, mask.toNat)] (be 4 (t.refresh.readWord (set == 1) addr.toNat))))

/-! ## Pattern sets (R394 to R404) -/

/-- The pattern set that a GROUP parameter names: 0xFF the device set. -/
def setOf (g : Nat) : Option Nat := if g < 16 then some g else if g = 0xFF then some 16 else none

/-- PATTERN_SWAP. -/
def execPatternSwap (h : Hdr) (group when' : BitVec 8) (course : BitVec 64) (s : State) : Host.Outcome State Fault Refusal :=
  .next (s.command h 0x0203 1 (fun t =>
    match setOf group.toNat with
    | none => (t, .of stBadParam)
    | some k =>
      if 1 < when'.toNat then (t, .of stBadParam)
      else
        let r := t.swapReq k when'.toNat course.toNat
        (r.1, { status := r.2.1, course := if r.2.1 < 2 then some r.2.2 else none })))

/-- PATTERN_REVERT. -/
def execPatternRevert (h : Hdr) (group : BitVec 8) (s : State) : Host.Outcome State Fault Refusal :=
  .next (s.command h 0x0204 2 (fun t =>
    match setOf group.toNat with
    | none => (t, .of stBadParam)
    | some k => let r := t.revertReq k; (r.1, .of r.2)))

/-- PATTERN_STATUS. -/
def execPatternStatus (h : Hdr) (group : BitVec 8) (s : State) : Host.Outcome State Fault Refusal :=
  .next (s.command h 0x0205 0 (fun t =>
    match setOf group.toNat with
    | none => (t, .of stBadParam)
    | some k =>
      let b := patB k
      (t, .ok (be 1 (t.getF b F.PAT_STATUS_PHASE) ++ zeros 7 ++ be 8 (t.getF b F.PAT_SWAP_COURSE_COURSE) ++
        be 8 (t.getF b F.PAT_SWAPS_COUNT)))))

/-! ## Groups (R382) -/

/-- A start or a stop as a stamped input of its group, in the order of acceptance (R371, R670); a start is stamped −1
(R714). -/
def State.runInput (s : State) (session g op flags : Nat) : State :=
  let stamp : Int := if op = 1 then -1 else s.stampG g
  { s.accept with flight := s.flight ++ [(⟨g, 5, 0, stamp, 0, .run session op flags, false, s.accepts⟩ : Stamped)] }

/-- Whether the pixel domains of a group's run are on. -/
def State.runPowered (s : State) (g : Nat) : Bool := (s.runChans g).all (fun ch => ch < 128 && s.powered (corrB ch))

/-- GROUP_START. A run with a channel whose domain is off is answered POWERED_OFF (DEDUCED from R384, log entry 29). -/
def execGroupStart (h : Hdr) (group flags : BitVec 8) (s : State) : Host.Outcome State Fault Refusal :=
  .next (s.command h 0x0300 1 (fun t =>
    let g := group.toNat
    if 15 < g then (t, .of stBadParam)
    else
      let r := t.startStatus g
      if r.2 ≠ stOk then (r.1, .of r.2)
      else if !t.runPowered g then (t, .of stPoweredOff)
      else ((r.1.groupStart g (bit flags.toNat 0)).runInput h.session.toNat g 1 flags.toNat, {})))

/-- Whether the open components of a group that stops have closed (R249). -/
def State.compsClosed (s : State) (g : Nat) : Bool :=
  let q := s.sg g
  (s.g g).st != 3 || !s.flag (gsegB g) F.SEG_CTRL_SEG_EN ||
    (q.comps.isEmpty && q.overC.isNone && (s.g g).last.all (fun k => decide (k < q.res)))

/-- LAST_COURSE: all ones where no course has triggered. -/
def lastCourse (k : Option Nat) : List Byte := be 8 (k.getD (2 ^ 64 - 1))

/-- What an outstanding GROUP_STOP names: its group, and the last course of it. -/
def stopUnit (g : Nat) (k : Option Nat) : Nat := g + 16 * (match k with
  | some c => c + 1
  | none => 0)

/-- GROUP_STOP: no course after acceptance; the reply follows once open components have closed. -/
def execGroupStop (h : Hdr) (group : BitVec 8) (s : State) : Host.Outcome State Fault Refusal :=
  .next (s.command h 0x0301 1 (fun t =>
    let g := group.toNat
    if 15 < g then (t, .of stBadParam)
    else
      let ran := (t.g g).st == 1 || (t.g g).st == 2
      let t := if ran then t.runInput h.session.toNat g 2 0 else t
      let t := t.groupStop g
      if t.compsClosed g then (t, .ok (lastCourse (t.g g).last)) else (t, .later (stopUnit g (t.g g).last))))

/-- GROUP_STATUS. -/
def execGroupStatus (h : Hdr) (group : BitVec 8) (s : State) : Host.Outcome State Fault Refusal :=
  .next (s.command h 0x0302 0 (fun t =>
    let g := group.toNat
    let b := crsB g
    if 15 < g then (t, .of stBadParam)
    else
      (t, .ok (be 1 (t.g g).st ++ zeros 7 ++ be 8 (t.viewOf g) ++ be 8 (t.getF b F.CRS_HWM_HWM) ++
        be 4 (t.getF b F.CRS_LAST_CSW_CSW) ++ (List.range 6).flatMap (fun i => be 4 (t.getF b (F.CRS_LATE_COUNT.nth i)))))))

/-! ## Cameras (R106, R109, R110) -/

/-- Whether a lane has a back channel for a request: IDENT, READY or JOINED, with its camera as the source. -/
def State.backOk (s : State) (l : Nat) : Bool :=
  (s.laneState l == 4 || s.laneState l == 5 || s.laneState l == 6) && !s.fromMem l

/-- EXPOSURE. A lane whose source is memory has no back channel and is answered BUSY (DEDUCED, log entry 30). -/
def execExposure (h : Hdr) (channel expId : BitVec 16) (exp : BitVec 32) (gain rsv : BitVec 16) (target : BitVec 64)
    (s : State) : Host.Outcome State Fault Refusal :=
  .next (s.command h 0x0303 1 (fun t =>
    let ch := channel.toNat
    let c := target.toNat
    if 127 < ch ∨ exp.toNat < 1 ∨ 16777215 < exp.toNat ∨ rsv ≠ 0 then (t, .of stBadParam)
    else
      match (t.ln ch).last with
      | none => (t, .of stBusy)
      | some (v, line, _) =>
        if t.laneState ch ≠ 6 ∨ !(t.ln ch).lineSince ∨ t.fromMem ch then (t, .of stBusy)
        else if c ≤ v then (t, .of stCoursePassed)
        else if v + 2 ^ 31 ≤ c then (t, .of stBadParam)
        else
          let x := (line + (c - v)) % 2 ^ 32
          (t.sendBack ch 1 0x41 [expId.toNat * 2 ^ 48 + x * 2 ^ 16, exp.toNat * 2 ^ 40 + gain.toNat * 2 ^ 24],
            .ok (be 4 x))))

/-- CAMERA_CTRL. -/
def execCameraCtrl (h : Hdr) (channel : BitVec 16) (op : BitVec 8) (addr : BitVec 32) (count : BitVec 8)
    (data : List (BitVec 64)) (s : State) : Host.Outcome State Fault Refusal :=
  .next (s.commandE h 0x0304 2 (if data.length = (if op = 2 then count.toNat else 0) then 0 else stBadLength) (fun t =>
    let l := channel.toNat
    let o := op.toNat
    let n := count.toNat
    if 127 < l ∨ (o ≠ 1 ∧ o ≠ 2) ∨ n < 1 ∨ 32 < n then (t, .of stBadParam)
    else if !t.backOk l ∨ 16 ≤ (t.ln l).tags.length then (t, .of stBusy)
    else
      let tag := t.freeTag l
      let t := t.setLn l { t.ln l with
        tags := Tab.put tag (h.session.toNat, h.seq.toNat, o) (t.ln l).tags
        nextTag := (tag + 1) % 256 }
      (t.sendBack l 2 0x43 (controlWords o tag n addr.toNat (data.map BitVec.toNat)), .later l)))

/-- CAMERA_IDENT. -/
def execCameraIdent (h : Hdr) (channel : BitVec 16) (s : State) : Host.Outcome State Fault Refusal :=
  .next (s.command h 0x0305 2 (fun t =>
    let l := channel.toNat
    if 127 < l then (t, .of stBadParam)
    else if !t.backOk l then (t, .of stBusy)
    else (t.sendBack l 2 0x43 (controlWords 3 (t.freeTag l) 0 0 []), {})))

/-- AUXSYNC (R658). -/
def execAuxsync (h : Hdr) (s : State) : Host.Outcome State Fault Refusal :=
  .next (s.command h 0x0306 2 (fun t => if t.domOn 95 then (t.auxSyncDrive, {}) else (t, .of stPoweredOff)))

/-! ## COMMAND_COMPLETE (R370) -/

/-- The reply of an outstanding GROUP_STOP, once its components have closed (R382). -/
def State.stopDone (s : State) (o : Outstanding) : State :=
  if s.compsClosed (o.arg % 16) then
    s.reply o.hdr o.op stOk (s.hdrView o.hdr) (lastCourse (if o.arg / 16 = 0 then none else some (o.arg / 16 - 1)))
  else s

/-- COMMAND_COMPLETE: the command of a session with a sequence number is complete; its reply leaves (R370). One that is not
complete goes on. -/
def execCommandComplete (session : BitVec 16) (seq : BitVec 32) (s : State) : Host.Outcome State Fault Refusal :=
  .next (match (s.sess.find? (fun e => e.id == session.toNat)).bind (fun e => e.outst.find? (fun o => o.hdr.seq == seq)) with
    | none => s
    | some o => if o.op = 0x0301 then s.stopDone o else s.replyDone o.hdr o.op)

end Sys2Proof.Machine
end

