-- ==== Sys2Proof/Machine/MemCommands.lean ====
section
/-!
DEFINITION. The commands on Purl rings, memory and DMA chains (14_rings_dma R513 to R536, R715; 09_commands R381, R382): the
rows RING_CONFIG to DMA_STATUS.
-/

namespace Sys2Proof.Machine

/-! ## Rings (R715) -/

/-- The first two checks of a ring opcode (R715): a device ring, and a ring that is not configured. -/
def State.ringNamed (s : State) (id : Nat) : Nat :=
  if id < 0x100 then stNotPermitted else if !(s.ring id).valid then stBadParam else stOk

/-- The state of a ring forbids its configuration or release (R513). -/
def State.ringHeld (s : State) (id : Nat) : Bool := (s.ring id).bound || !(s.ring id).subs.isEmpty

/-- RING_CONFIG (R513). -/
def execRingConfig (h : Hdr) (ring : BitVec 32) (base : BitVec 64) (depthLog entry : BitVec 8) (s : State) :
    Host.Outcome State Fault Refusal :=
  .next (s.command h 0x0400 2 (fun t =>
    let id := ring.toNat
    let t := t.ringUse id
    let c : RingCtx := { base := base.toNat, depthLog := depthLog.toNat, valid := true, e256 := entry == 1 }
    if id < 0x100 then (t, .of stNotPermitted)
    else if 0xFFFFF < id ∨ depthLog.toNat < 6 ∨ 24 < depthLog.toNat ∨ 1 < entry.toNat ∨ base.toNat % 256 ≠ 0 ∨
        0x1E00000000 < base.toNat + c.depth * c.esize then (t, .of stBadParam)
    else if t.ringHeld id then (t, .of stBusy)
    else ((t.setRing id c).msrcUpdate, {})))

/-- RING_RELEASE (R513). -/
def execRingRelease (h : Hdr) (ring : BitVec 32) (s : State) : Host.Outcome State Fault Refusal :=
  .next (s.command h 0x0401 2 (fun t =>
    let id := ring.toNat
    let t := t.ringUse id
    if t.ringNamed id ≠ stOk then (t, .of (t.ringNamed id))
    else if t.ringHeld id then (t, .of stBusy)
    else ((t.setRing id { t.ring id with valid := false }).msrcUpdate, {})))

/-- RING_SUBSCRIBE (R520, R525, R586). -/
def execRingSubscribe (h : Hdr) (ring : BitVec 32) (flags udp : BitVec 16) (addr : BitVec 128) (s : State) :
    Host.Outcome State Fault Refusal :=
  .next (s.command h 0x0402 0 (fun t =>
    let id := ring.toNat
    let t := t.ringUse id
    if t.ringNamed id ≠ stOk then (t, .of (t.ringNamed id))
    else
      match t.freeSub with
      | none => (t, .of stNoResource)
      | some k =>
        if !t.canSub id ∨ !t.canPin [id] then (t, .of stNoResource)
        else
          let key := hmac ((t.roleKey h.role.toNat).getD []) ([0x53, 0x42] ++ be 2 k)
          (t.addSub k id (.net (bit flags.toNat 0) udp.toNat addr.toNat h.port.val) key, .ok (be 2 k))))

/-- RING_UNSUBSCRIBE (R521, R523): of a network subscriber. -/
def execRingUnsubscribe (h : Hdr) (sub : BitVec 16) (s : State) : Host.Outcome State Fault Refusal :=
  .next (s.command h 0x0403 0 (fun t =>
    match Tab.find sub.toNat t.subs with
    | some b =>
      match b.who with
      | .net .. => (t.dropSub sub.toNat, {})
      | .block _ => (t, .of stBadParam)
    | none => (t, .of stBadParam)))

/-- The status of an error response of memory to a command (R485, R502). -/
def memStatus : MemErr → Nat
  | .decode => stBadParam
  | .off => stPoweredOff
  | .ue => stMemErr

/-- Read `n` entries of a ring from index `i` on. -/
def State.readEntries (s : State) (id : Nat) : Nat → Nat → State × Except MemErr (List Byte)
  | 0, _ => (s, .ok [])
  | n + 1, i =>
    let r := s.memRead 1 (blockUnit cmdB) ((s.ring id).entryAddr i) (s.ring id).esize
    match r.2 with
    | .error e => (r.1, .error e)
    | .ok bs =>
      let q := r.1.readEntries id n ((i + 1) % 2 ^ 32)
      (q.1, q.2.map (bs ++ ·))

/-- RING_READ (R519). -/
def execRingRead (h : Hdr) (ring index : BitVec 32) (count : BitVec 16) (s : State) : Host.Outcome State Fault Refusal :=
  .next (s.command h 0x0404 0 (fun t =>
    let id := ring.toNat
    let t := t.ringUse id
    let n := count.toNat
    if t.ringNamed id ≠ stOk then (t, .of (t.ringNamed id))
    else if n = 0 then (t, {})
    else if t.fill id < diff32 index.toNat (t.tail id) + n then (t, .of stBadParam)
    else if !t.fits h (n * (t.ring id).esize) then (t, .of stBadLength)
    else
      let r := t.readEntries id n index.toNat
      match r.2 with
      | .ok bs => (r.1, .ok bs)
      | .error e => (r.1, .of (memStatus e))))

/-- RING_STATUS (R519). -/
def execRingStatus (h : Hdr) (ring : BitVec 32) (s : State) : Host.Outcome State Fault Refusal :=
  .next (s.command h 0x0405 0 (fun t =>
    let id := ring.toNat
    let t := t.ringUse id
    if t.ringNamed id ≠ stOk then (t, .of (t.ringNamed id))
    else (t, .ok (be 4 (t.ring id).prod ++ be 4 (t.tail id) ++ be 4 (t.ring id).drops))))

/-- RING_CONSUME (R518). -/
def execRingConsume (h : Hdr) (ring index : BitVec 32) (s : State) : Host.Outcome State Fault Refusal :=
  .next (s.command h 0x0406 1 (fun t =>
    let id := ring.toNat
    let t := t.ringUse id
    let c := t.ring id
    if t.ringNamed id ≠ stOk then (t, .of (t.ringNamed id))
    else if diff32 c.prod c.cons < diff32 index.toNat c.cons then (t, .of stBadParam)
    else if !c.subs.isEmpty then (t, .of stBusy)
    else ((t.setRing id { c with cons := index.toNat }).grant id, {})))

/-! ## Memory (R382, R485, R510) -/

/-- Whether a range touches the context table (R510). -/
def State.inTable (s : State) (a n : Nat) : Bool :=
  decide (a < s.getF ringB F.RING_CTX_BASE_ADDR + 0x4000000) && decide (s.getF ringB F.RING_CTX_BASE_ADDR < a + n)

/-- MEM_READ. -/
def execMemRead (h : Hdr) (addr : BitVec 64) (len : BitVec 32) (s : State) : Host.Outcome State Fault Refusal :=
  .next (s.command h 0x0500 2 (fun t =>
    let a := addr.toNat
    let n := len.toNat
    if n < 1 ∨ 8176 < n ∨ 2 ^ 40 < a + n then (t, .of stBadParam)
    else if !t.fits h n then (t, .of stBadLength)
    else
      let r := t.memRead 1 (blockUnit cmdB) a n
      match r.2 with
      | .ok bs => (r.1, .ok bs)
      | .error e => (r.1, .of (memStatus e))))

/-- MEM_WRITE. -/
def execMemWrite (h : Hdr) (addr : BitVec 64) (data : List Byte) (s : State) : Host.Outcome State Fault Refusal :=
  .next (s.command h 0x0501 2 (fun t =>
    let a := addr.toNat
    let n := data.length
    if n < 1 ∨ 8176 < n ∨ 2 ^ 40 < a + n ∨ t.inTable a n then (t, .of stBadParam)
    else
      let r := t.memWrite 1 (blockUnit cmdB) a data
      match r.2 with
      | none => (r.1, {})
      | some e => (r.1, .of (memStatus e))))

/-! ## DMA (R528, R536) -/

/-- DMA_START. -/
def execDmaStart (h : Hdr) (channel : BitVec 8) (desc : BitVec 64) (s : State) : Host.Outcome State Fault Refusal :=
  .next (s.command h 0x0502 2 (fun t =>
    if 63 < channel.toNat ∨ 2 ^ 40 ≤ desc.toNat then (t, .of stBadParam)
    else
      let r := t.dmaStart channel.toNat desc.toNat
      (r.1, .of r.2)))

/-- The DMA_STATE word of a channel. -/
def State.dmaWord (s : State) (c : Nat) : List Byte := be 4 (s.peekReg (dmaB c + F.DMA_STATE_STATE.off))

/-- DMA_ABORT. -/
def execDmaAbort (h : Hdr) (channel : BitVec 8) (s : State) : Host.Outcome State Fault Refusal :=
  .next (s.command h 0x0503 2 (fun t =>
    let c := channel.toNat
    if 63 < c then (t, .of stBadParam)
    else if t.dmaBound c then (t, .of stBusy)
    else
      let t := t.dmaAbort c
      (t, .ok (t.dmaWord c ++ be 4 (t.getF (dmaB c) F.DMA_RESIDUE_BYTES)))))

/-- DMA_STATUS. -/
def execDmaStatus (h : Hdr) (channel : BitVec 8) (s : State) : Host.Outcome State Fault Refusal :=
  .next (s.command h 0x0504 0 (fun t =>
    let c := channel.toNat
    if 63 < c then (t, .of stBadParam)
    else (t, .ok (t.dmaWord c ++ be 8 (t.getF (dmaB c) F.DMA_ADDR_ADDR) ++ be 4 (t.getF (dmaB c) F.DMA_RESIDUE_BYTES)))))

end Sys2Proof.Machine
end

