-- ==== Sys2Proof/Machine/Replay.lean ====
section
/-!
DEFINITION. Capture, freeze and export (19_replay_faults R664 to R676, R681): the journal read back, the window of each
group, and the bundle. The commands REPLAY_ARM, REPLAY_DISARM, FREEZE_INSTANT, BUNDLE_EXPORT and EXPORT_END. What the spec
leaves to the layout of a bundle is log entry 24.
-/

namespace Sys2Proof.Machine

/-- REPLAY_ARM: ARM is written 1 in DISARMED (R664). -/
def execReplayArm (s : State) : Host.Outcome State Fault Refusal :=
  .next (if s.domOn 93 && s.getF repB F.REPLAY_STATUS_STATE == 0 && s.armStatus == stOk then s.armReplay else s)

/-- REPLAY_DISARM: ARM is written 0, which is refused while a bundle is exported (R664). -/
def execReplayDisarm (s : State) : Host.Outcome State Fault Refusal :=
  .next (if s.domOn 93 && s.getF repB F.REPLAY_STATUS_STATE != 0 && s.getF repB F.REPLAY_STATUS_STATE != 4 then s.disarmReplay
    else s)

/-- FREEZE_INSTANT: the device course view has reached T + POST (R673). -/
def execFreezeInstant (s : State) : Host.Outcome State Fault Refusal := .next s.freezeDue

/-! ## The journal read back (R668, R669) -/

/-- A journal record with the data of its continuation records. -/
structure JRec where
  ty : Nat
  grp : Nat
  cls : Nat
  src : Nat
  lag : Int
  stamp : Int
  data : List Byte
  deriving DecidableEq, Repr

/-- Records of 32 bytes joined with their continuation records. -/
def joinRecs : Nat → List (List Byte) → List JRec
  | 0, _ => []
  | _, [] => []
  | fuel + 1, r :: rs =>
    let n := leAt r 3 1
    { ty := leAt r 0 1, grp := leAt r 1 1, cls := leAt r 2 1, src := leAt r 4 2, lag := toInt 16 (leAt r 6 2)
      stamp := toInt 64 (leAt r 8 8), data := r.drop 16 ++ (rs.take n).flatten } :: joinRecs fuel (rs.drop n)

/-- The records of journal entries. -/
def journalRecs (bs : List Byte) : List JRec :=
  let l := (chunks 256 bs.length bs).flatMap (fun e => chunks 32 7 (sliceB e 32 (32 * leAt e 2 2)))
  joinRecs l.length l

/-- The journal entries held, from the first that begins with a record. -/
def State.heldJournal (s : State) : List RepItem := (s.rep.items.filter (fun i => i.kind == 3)).dropWhile (fun i => i.unit != 0)

/-- The entries of items of the replay rings, read for the export; what cannot be read is free (R497; log entry 64). -/
def State.itemsRead (s : State) : List RepItem → State × List Byte
  | [] => (s, [])
  | i :: is =>
    let r := s.streamRead (blockUnit repB) i.ring i.first i.n
    let q := r.1.itemsRead is
    (q.1, r.2 ++ q.2)

/-! ## The window of a group (R674) -/

/-- The course of a record of group `g` that a number may name. -/
def JRec.course (r : JRec) : Nat := r.stamp.toNat

/-- Whether a channel was joined at course `c`, by its spans at the freeze instant. -/
def State.wasJoined (s : State) (ch c : Nat) : Bool := ({ spans := Tab.get [] ch s.rep.spans } : Chan).expects c

/-- The channels of the run of group `g` at the freeze instant. -/
def State.frozenRun (s : State) (g : Nat) : List Nat :=
  let r := Tab.get (0, 0) g s.rep.runs
  (List.range r.2).map (· + r.1)

/-- The capture items held of a channel, of the last run of its group. -/
def State.capItems (s : State) (ch : Nat) : List RepItem :=
  s.rep.items.filter (fun i => i.kind == 1 && i.unit == ch && !i.past)

/-- The records of the last run of group `g`: those after its last start, where the journal holds it. -/
def lastRun (recs : List JRec) (g : Nat) : List JRec :=
  ((recs.reverse).takeWhile (fun r => !(r.ty == 5 && r.grp == g && leAt r.data 0 1 == 1))).reverse

/-- Whether every item of course `c` of the captured channels of group `g` is held; where `gone` is set, one that was
written and has been removed counts too. -/
def State.itemsOf (s : State) (g c : Nat) (gone : Bool) : Bool :=
  ((s.frozenRun g).filter s.capBit).all (fun ch =>
    let l := s.capItems ch
    !s.wasJoined ch c || l.any (fun i => i.course == c) || (gone && !l.isEmpty && l.all (fun i => decide (c < i.course))))

/-- K0 and KF of a group, none where it has no checkpoint that qualifies (R674). -/
def State.window (s : State) (recs : List JRec) (g : Nat) : Option (Nat × Nat) :=
  let recs := lastRun recs g
  let cks := (s.rep.items.filter (fun i => i.kind == 2 && i.unit == g && !i.past)).map (·.course)
  let cs := (recs.filter (fun r => r.ty == 1 && r.grp == g)).map JRec.course
  match cks, cs.getLast? with
  | c0 :: _, some l =>
    let n := (((List.range (l + 1 - c0)).map (· + c0)).takeWhile (fun c => s.itemsOf g c true)).length
    if n = 0 then none
    else
      let kf := c0 + n - 1
      (cks.find? (fun k => decide (k ≤ kf) && recs.any (fun r => r.ty == 0x0D && r.grp == g && r.course == k) &&
        ((List.range (kf + 1 - k)).map (· + k)).all (fun c => s.itemsOf g c false))).map (fun k => (k, kf))
  | _, _ => none

/-- The records of a window: those between its checkpoint and the COURSE record of the course after its last, but for those of
the group with a later effective course. The inputs of a course follow its COURSE record (R42, R668). -/
def windowRecs (recs : List JRec) (g k0 kf : Nat) : List JRec :=
  let l := (lastRun recs g).dropWhile (fun r => !(r.ty == 0x0D && r.grp == g && r.course == k0))
  (l.takeWhile (fun r => !(r.ty == 1 && r.grp == g && r.course == kf + 1))).filter (fun r =>
    r.grp != g || decide (r.stamp + r.lag ≤ Int.ofNat kf))

/-- FLAGS of a group (R681). -/
def State.windowFlags (s : State) (recs : List JRec) (g k0 kf : Nat) : Nat :=
  let part := (s.frozenRun g).any (fun ch => !s.capBit ch && ((List.range (kf + 1 - k0)).map (· + k0)).any (s.wasJoined ch))
  let gap := recs.any (fun r => r.ty == 0x0C && r.grp == g && decide (k0 ≤ r.course) && decide (r.course ≤ kf))
  let hot := (windowRecs recs g k0 kf).any (fun r => r.ty == 9 && leAt r.data 0 1 != 0)
  (if part then 1 else 0) + (if gap then 2 else 0) + if hot then 4 else 0

/-! ## The bundle (R676) -/

/-- A section with its content. -/
structure BSect where
  ty : Nat
  grp : Nat
  ch : Nat
  data : List Byte
  deriving DecidableEq, Repr

/-- The bytes of the Hank blocks of a stream, each at a multiple of 8 (R541), up to the first that is none. -/
def unblock : Nat → List Byte → List Byte
  | 0, _ => []
  | fuel + 1, bs =>
    match hankDecode bs with
    | .ok (out, n) => out ++ unblock fuel (bs.drop (max 1 ((n + 7) / 8 * 8)))
    | .error _ => []

/-- The image a checkpoint item holds. -/
def ckptImage (item : List Byte) : Option GroupImage := Config.ckptState GroupImage (unblock item.length item)

/-- The classifier descriptors a checkpoint names: bank and slot, with their address (R676). -/
def GroupImage.slots (im : GroupImage) : List (Nat × Nat) :=
  [im.act, im.shd].zip [0, 1] |>.flatMap (fun b =>
    (List.range 8).filterMap (fun i =>
      if Tab.get 0 ((F.SLOT_CTRL_EN.nth i).key (gtalB im.grp)) b.1 = 1 then
        some (i + 8 * b.2, Tab.get 0 ((F.SLOT_DESC_ADDR.nth i).key (gtalB im.grp)) b.1 * 256)
      else none))

/-- The gauge sets a checkpoint names: channel and SEL, with the address (R676). -/
def GroupImage.sets (im : GroupImage) : List (Nat × Nat × Nat) :=
  im.chans.flatMap (fun (e : Nat × Chan) =>
    let b := corrB e.1
    if Tab.get 0 (F.CORR_CTRL_FF_EN.key b) im.regs = 1 then
      let sel := fun (t : List (Nat × Nat)) => Tab.get 0 (F.GAUGE_CFG_SEL.key b) t
      let both := if sel im.act = sel im.shd then [sel im.act] else [0, 1]
      both.map (fun k => (e.1, k, Tab.get 0 ((if k = 0 then F.GAUGE_BASE_A_ADDR else F.GAUGE_BASE_B_ADDR).key b) im.regs))
    else [])

/-- The bytes of a gauge set (R156, R157), read for the export. -/
def State.setBytes (s : State) (a : Nat) : State × List Byte :=
  let h := s.readFree 1 (blockUnit repB) a 256
  let r := h.1.readFree 1 (blockUnit repB) (a + 256) (leAt h.2 3 1 * ((leAt h.2 4 2 * 4 + 255) / 256 * 256))
  (r.1, h.2 ++ r.2)

/-- The bytes of a classifier descriptor (R289), read for the export. -/
def State.clsBytes (s : State) (a : Nat) : State × List Byte :=
  let h := s.readFree 1 (blockUnit repB) a 64
  let r := h.1.readFree 1 (blockUnit repB) (a + 64) (max 64 (leAt h.2 8 4) - 64)
  (r.1, h.2 ++ r.2)

/-- The capture sections of channels of a group. -/
def State.capSects (s : State) (g k0 kf : Nat) : List Nat → State × List BSect
  | [] => (s, [])
  | ch :: chs =>
    let held := (s.capItems ch).filter (fun i => decide (k0 ≤ i.course + 8) && decide (i.course ≤ kf))
    let r := s.itemsRead (sortKey (fun (i : RepItem) => (i.course, 0)) held)
    let q := r.1.capSects g k0 kf chs
    (q.1, ⟨2, g, ch, r.2⟩ :: q.2)

/-- The sections of classifier descriptors. -/
def State.slotSects (s : State) (g : Nat) : List (Nat × Nat) → State × List BSect
  | [] => (s, [])
  | e :: es =>
    let r := s.clsBytes e.2
    let q := r.1.slotSects g es
    (q.1, ⟨4, g, e.1, r.2⟩ :: q.2)

/-- The sections of gauge sets. -/
def State.setSects (s : State) (g : Nat) : List (Nat × Nat × Nat) → State × List BSect
  | [] => (s, [])
  | e :: es =>
    let r := s.setBytes e.2.2
    let q := r.1.setSects g es
    (q.1, ⟨5, g, e.1, r.2⟩ :: q.2)

/-- The sections of one group. -/
def State.groupSects (s : State) (g k0 kf : Nat) : State × List BSect :=
  let item := s.itemsRead (s.rep.items.filter (fun i => i.kind == 2 && i.unit == g && i.course == k0 && !i.past))
  let caps := item.1.capSects g k0 kf ((s.frozenRun g).filter s.capBit)
  match ckptImage item.2 with
  | none => (caps.1, caps.2 ++ [(⟨3, g, 0, item.2⟩ : BSect)])
  | some im =>
    let slots := caps.1.slotSects g im.slots
    let sets := slots.1.setSects g im.sets
    (sets.1, caps.2 ++ [(⟨3, g, 0, item.2⟩ : BSect)] ++ slots.2 ++ sets.2)

/-- The sections of several groups with their windows. -/
def State.sectsOf (s : State) : List (Nat × Nat × Nat) → State × List BSect
  | [] => (s, [])
  | w :: ws =>
    let r := s.groupSects w.1 w.2.1 w.2.2
    let q := r.1.sectsOf ws
    (q.1, r.2 ++ q.2)

/-- Fill with zero bytes to a boundary. -/
def padUp (n : Nat) (bs : List Byte) : List Byte := bs ++ zeros ((n - bs.length % n) % n)

/-- The section table and the sections behind it, from offset `off` on. -/
def layOut (off : Nat) : List BSect → List Byte × List Byte
  | [] => ([], [])
  | e :: es =>
    let body := padUp 256 e.data
    let r := layOut (off + body.length) es
    (le 1 e.ty ++ le 1 e.grp ++ le 2 e.ch ++ zeros 4 ++ le 8 off ++ le 8 e.data.length ++ le 4 (crc32c e.data) ++ zeros 4 ++ r.1,
      body ++ r.2)

/-- The bundle of the frozen window (R676). -/
def State.bundle (s : State) : State × List Byte :=
  let j := s.itemsRead s.heldJournal
  let recs := journalRecs j.2
  let ws := (List.range 16).filterMap (fun g => (s.window recs g).map (fun w => (g, w.1, w.2)))
  let body := j.1.sectsOf ws
  let sects := (⟨1, 0xFF, 0, j.2⟩ : BSect) :: body.2
  let start := (512 + 32 * sects.length + 255) / 256 * 256
  let r := layOut start sects
  let groups := ws.flatMap (fun w => le 1 w.1 ++ le 1 (s.windowFlags recs w.1 w.2.1 w.2.2) ++ zeros 6 ++ le 8 w.2.1 ++ le 8 w.2.2)
  let head := le 4 0x48424E44 ++ le 1 1 ++ le 1 ws.length ++ le 2 (s.getF devB F.DEV_NUM_DEVNUM % 2 ^ 14) ++
    le 8 (s.getF devB F.DEV_SERIAL_SERIAL) ++ le 4 (s.getF devB F.FW_VERSION_FW_VER) ++ le 4 sects.length ++
    le 8 (start + r.2.length) ++ padTo 384 groups ++ zeros 92
  (body.1, padUp 256 (head ++ le 4 (crc32c (head ++ r.1)) ++ r.1) ++ r.2)

/-! ## The export (R675) -/

/-- Write the entries of the bundle for which the ring has room. -/
def State.pump (s : State) : Nat → State
  | 0 => s
  | fuel + 1 =>
    let id := s.rep.exportRing
    if s.rep.exportLeft.isEmpty then s
    else if s.ringFits id 256 then
      let e := padTo 256 (s.rep.exportLeft.take 256)
      (({ s with rep := { s.rep with exportLeft := s.rep.exportLeft.drop 256 } }).ringWrite id e).pump fuel
    else s.ringStarve id

/-- Write what the ring has room for. -/
def State.pumpAll (s : State) : State := s.pump (s.rep.exportLeft.length / 256 + 1)

/-- An export that waits goes on as soon as its ring has room (R523, R675). -/
def State.exportGo (s : State) : State :=
  if s.getF repB F.REPLAY_STATUS_STATE = 4 ∧ !s.rep.exportLeft.isEmpty ∧ s.ringFits s.rep.exportRing 256 then s.pumpAll else s

/-- BUNDLE_EXPORT: the reply carries the length and leaves before the first entry. -/
def execBundleExport (h : Hdr) (ring : BitVec 32) (s : State) : Host.Outcome State Fault Refusal :=
  .next (s.command h 0x0902 2 (fun t =>
    let id := ring.toNat
    if !t.domOn 93 then (t, .of stPoweredOff)
    else if !t.ringOk id true then (t, .of stBadParam)
    else if t.getF repB F.REPLAY_STATUS_STATE ≠ 3 then (t, .of stBusy)
    else if !t.canPin [id] then (t, .of stNoResource)
    else
      let t := t.jrnFlush
      let b := t.bundle
      let t := { b.1 with rep := { b.1.rep with exportRing := id, exportLeft := b.2 } }
      ((t.bind id exportBinder true).setF repB F.REPLAY_STATUS_STATE 4, { params := be 8 b.2.length, after := (·.pumpAll) })))

/-- EXPORT_END: what is left is written; once all of it is, the state is FROZEN again and EXPORT_EV is set (R675). -/
def execExportEnd (s : State) : Host.Outcome State Fault Refusal :=
  .next (if s.getF repB F.REPLAY_STATUS_STATE = 4 then
    let s := s.pumpAll
    if s.rep.exportLeft.isEmpty then
      ((s.unbind exportBinder).setF repB F.REPLAY_STATUS_STATE 3).mark repB F.REPLAY_STATUS_EXPORT_EV
    else s
  else s)

end Sys2Proof.Machine
end

