-- ==== Sys2Proof/Machine/Clock.lean ====
section
/-!
DEFINITION. The passing of time: one cycle of PSCLK, 250 MHz (R47), which is what a step does when no command waits
(log entry 3): two ticks of the local clock, one cycle of the divider of every running group (R63), the end of
COURSESYNC checks (R78), results of codecs and entries of a bundle that wait for room (R523,
R675), and on each port a frame of its transmit queue (R578, log entry 63).
-/

namespace Sys2Proof.Machine

/-- The local clock runs while the hub base is on and NET_LOOP is locked (R454, R589). -/
def State.timeRuns (s : State) : Bool := s.domOn 91 && bit (s.getF clkB F.LOOP_STATUS_LOCK) 5

/-- One cycle of PSCLK, whose loop may gate it (R456). -/
def State.clockTick (s : State) : State :=
  let s := { s with now := s.now + 1 }
  let s := if s.timeRuns then s.timeTick.timeTick else s
  let s := if s.clk 0 then forL s.runningGroups (fun g t => t.divideOnce g) s else s
  s.syncExpire.hkRetry.exportGo.transmit.pnlFlush

end Sys2Proof.Machine
end

