-- ==== Sys2Proof/Machine/DramRows.lean ====
section
/-!
DEFINITION. The commands of the memory controllers (13_memory R490 to R503, 19_replay_faults R687): REFRESH_SLOT,
MEM_TEMP_READ, MEM_REQUEST_SERVE, MEM_DEVICE_FAIL, SCRUB_PASS, RETRAIN_STEP and RETRAIN_WAIT.
-/

namespace Sys2Proof.Machine

/-- REFRESH_SLOT: an all-bank refresh at slot d, or slot d + 16 of a hot device (R490); a failed device touches no pin
(R502). -/
def execRefreshSlot (d : Fin 16) (s : State) : Host.Outcome State Fault Refusal :=
  .next (if s.mcState d = 2 then s.incF (mcB d) F.REFRESH_CNT_COUNT 1 else s)

/-- MEM_TEMP_READ: the temperature readout every 1 ms; hot above 85 °C until below 80 °C (R491). -/
def execMemTempRead (d : Fin 16) (temp : BitVec 16) (s : State) : Host.Outcome State Fault Refusal :=
  let b := mcB d
  let t := toInt 16 temp.toNat
  .next (if s.mcState d = 2 then
      let s := s.setF b F.MC_TEMP_TEMP temp.toNat
      if 85 * 128 < t then s.setF b F.MC_STATUS_HOT 1
      else if t < 80 * 128 then (s.setF b F.MC_STATUS_HOT 0).setF b F.MC_STATUS_RETRAIN_WAIT 0
      else s
    else s)

/-! ## Service (R494, R496) -/

/-- The class under which a request is served: class 1 is promoted after 2 µs (R494). -/
def State.classNow (s : State) (q : MemReq) : Nat := if q.cls = 1 ∧ 500 ≤ s.now - q.age then 0 else q.cls

/-- The request served next: in class order, oldest first within a class. -/
def State.nextReq (s : State) (d : Nat) : Option MemReq :=
  let mine := s.memQ.filter (fun q => q.dev == d)
  (List.range 3).findSome? (fun k => mine.find? (fun q => s.classNow q == k))

/-- MEM_REQUEST_SERVE: the controller serves the next waiting request. `crc` is how many times in a row its transfer
fails the data CRC: up to four retries, then the access is uncorrectable (R484, R497). Where no request waits, it is the next
access to the device whose transfer fails so often (log entry 44). -/
def execMemRequestServe (d : Fin 16) (crc : Nat) (s : State) : Host.Outcome State Fault Refusal :=
  let t := s.setDr d { s.dr d with crc := crc }
  .next (match (if s.clk 4 then s.nextReq d else none) with
    | none => if s.clk 4 ∧ s.mcState d = 2 then t else s
    | some q =>
      if q.write then
        let x := { t with memQ := t.memQ.erase q }.xfer d
        if x.2 then x.1.setBad q.addr 0 else x.1.ueEvent q.addr 2 q.cls q.unit 0
      else ({ t with memQ := t.memQ.erase q }.readBlock 1 q.cls q.unit q.addr).1)

/-- Symbols of a block have gone wrong (R487): which block of the device, and how many of its symbols, is a free value, for no
command brings such an event (log entry 44). -/
def State.symbolsFail (s : State) (d : Nat) : State :=
  let v := (Config.freeBits 64 s.freeCtr).toNat
  let a := d * 0x1E0000000 + v / 3 % (0x1E0000000 / 64) * 64
  if v % 3 = 0 then s.tickFree else s.tickFree.setBad a (v % 3)

/-- SCRUB_PASS: the scrubber has read every block of the device once (R498). What goes wrong before the next pass follows. -/
def execScrubPass (d : Fin 16) (s : State) : Host.Outcome State Fault Refusal :=
  .next (if s.mcState d = 2 ∧ s.getF (mcB d) F.SCRUB_CFG_SCRUB_PER ≠ 0 then
      (forL ((s.memBad.map (fun e => e.1 * 64)).filter (fun a => devOf a == d.val)) (fun a t => (t.readBlock 1 2 d a).1) s).symbolsFail d
    else s)

/-! ## Device failure (R502, R687) -/

/-- The header of an unconsumed patch: ring position, RECORD_ID, WALE0, ENTRIES, COURSE0, SCALE, PW and PH. -/
structure HeldPatch where
  pos : Nat
  id : Nat
  wale : Nat
  n : Nat
  course : Nat
  kh : Nat
  kw : Nat
  pw : Nat
  ph : Nat
  eight : Bool

/-- The patches of a ring from entry `i` on, `k` entries ahead of PROD (R286). -/
def State.patchesFrom (s : State) (id i : Nat) : Nat → List HeldPatch
  | 0 => []
  | k + 1 =>
    let h := memGets s.mem ((s.ring id).entryAddr i) 64
    let here := if leAt h 0 2 = 0x5043 then
        [(⟨i, leAt h 8 8, leAt h 0x10 4, leAt h 0x14 4, leAt h 0x18 8, leAt h 3 1 / 16, leAt h 3 1 % 16, leAt h 4 2,
          leAt h 6 2, leAt h 2 1 == 2⟩ : HeldPatch)]
      else []
    here ++ s.patchesFrom id ((i + 1) % 2 ^ 32) k

/-- Whether an entry of a patch lies in the failed device, outside its mirror range. -/
def State.patchIn (s : State) (d id : Nat) (p : HeldPatch) : Bool :=
  (List.range p.n).any (fun i =>
    let a := (s.ring id).entryAddr (p.pos + i)
    devOf a == d && !s.mirrored a)

/-- Whether the look-back store of a group still holds every course of a patch (R615). -/
def State.lbHolds (s : State) (g : Nat) (p : HeldPatch) : Bool :=
  let newest := Tab.get 0 g s.lbNext
  let first := p.course / 4
  let last := (p.course + p.ph * 2 ^ p.kh - 1) / 4
  s.flag (lbB g) F.LB_CFG_LB_EN && decide (last < newest) && !s.lbGone.any (fun e => e.1 == g && decide (first ≤ e.2) && decide (e.2 ≤ last)) &&
    decide (newest ≤ first + s.getF (lbB g) F.LB_CFG_LB_ROWS) &&
    (List.range (last + 1 - first)).all (fun i => s.mcState (devOf (s.lbAddr g (first + i))) != 3)

/-- The re-cut patch (R687): each output pixel is the mean of the look-back values whose block meets its own
(log entry 18). -/
def State.recut (s : State) (g : Nat) (p : HeldPatch) : State × List Byte :=
  let kw := p.kw + 2
  let kh := p.kh + 2
  let pw := (p.pw + 3) / 4
  let ph := (p.ph + 3) / 4
  let first := p.course / 4
  let last := (p.course + p.ph * 2 ^ p.kh - 1) / 4
  let r := s.lbReads g g ((List.range (last + 1 - first)).map (· + first))
  let cell (i : Nat) : Nat :=
    let y0 := (p.course + i / pw * 2 ^ kh) / 4 - first
    let y1 := (p.course + (i / pw + 1) * 2 ^ kh + 3) / 4 - first
    let x0 := (p.wale + i % pw * 2 ^ kw) / 4
    let x1 := (p.wale + (i % pw + 1) * 2 ^ kw + 3) / 4
    let v := ((r.2.drop y0).take (y1 - y0)).flatMap (fun row => (row.drop x0).take (x1 - x0))
    meanR v.sum v.length
  (r.1, patchBytes ⟨p.wale, kw, kh, ⟨pw, ph, (List.range (pw * ph)).map cell⟩⟩ p.eight p.id p.course)

/-- One patch that a device failure took: re-cut and written again, or lost (R687). -/
def State.patchFails (s : State) (g id : Nat) (p : HeldPatch) : State :=
  let pay := fun (new : Nat) => le 8 p.id ++ le 4 p.pos ++ le 4 new
  let new := ((s.ring id).prod + s.reserved id) % 2 ^ 32
  if s.lbHolds g p then
    let r := s.recut g p
    if r.1.ringFits id r.2.length && r.1.ringAlive id ((s.ring id).entriesFor r.2.length) then
      (r.1.ringWrite id r.2).log .patchRecut g g (pay new)
    else r.1.log .patchLost g g (pay 0xFFFFFFFF)
  else s.log .patchLost g g (pay 0xFFFFFFFF)

/-- The patch rings in use: group and ring. -/
def State.patchRings (s : State) : List (Nat × Nat) :=
  ((List.range 16).map (fun g => (g, s.getF (gtalB g) F.PATCH_RING_RING))).filter (fun e =>
    s.binds.any (fun b => b.1 == e.2 && b.2.1 == gtalB e.1 && b.2.2) && (s.ring e.2).e256)

/-- The unconsumed patches that lie in a device, with their group and ring. -/
def State.patchesIn (s : State) (d : Nat) : List (Nat × Nat × HeldPatch) :=
  s.patchRings.flatMap (fun e =>
    ((s.patchesFrom e.2 (s.tail e.2) (s.fill e.2)).filter (s.patchIn d e.2)).map (fun p => (e.1, e.2, p)))

/-- The patches of a failed device are re-cut or lost (R687). -/
def State.patchesFail (s : State) (d : Nat) : State :=
  forL (s.patchesIn d) (fun e t => t.patchFails e.1 e.2.1 e.2.2) (s.setDr d {})

/-- A device is declared failed (R502, R687). -/
def State.memFail (s : State) (d : Nat) : State :=
  ({ s with retrain := s.retrain.filter (fun e => e.1 / 4 != d) }.memDown d).patchesFail d

/-- MEM_DEVICE_FAIL (R502): the fault manager declares a device failed. For one that its uncorrectable blocks or CRC failures
have already made fail, the row is the instant at which its patches are handled (log entry 44). -/
def execMemDeviceFail (d : Fin 16) (s : State) : Host.Outcome State Fault Refusal :=
  .next (if s.mcState d = 2 then s.memFail d else if s.mcState d = 3 ∧ (s.dr d).recut then s.patchesFail d else s)

/-! ## Retraining (R503) -/

/-- Whether the retraining of another channel than `k` is under way: one is retrained at a time (R503). -/
def State.retrainBusy (s : State) (k : Nat) : Bool := s.retrain.any (fun e => e.1 != k && e.2.1 != 0)

/-- RETRAIN_STEP: one of the 64 steps of the retraining of a channel; `ok` tells whether the channel trains. A channel
that fails twice in a row makes its device fail (R502). -/
def execRetrainStep (d : Fin 16) (ch : Fin 4) (ok : Bool) (s : State) : Host.Outcome State Fault Refusal :=
  let k := 4 * d.val + ch.val
  let r := Tab.get (0, 0) k s.retrain
  .next (if s.mcState d = 2 ∧ !s.flag (mcB d) F.MC_STATUS_HOT ∧ !s.retrainBusy k then
      if !ok then
        let s := { s with retrain := Tab.put k (0, r.2 + 1) s.retrain }
        if 2 ≤ r.2 + 1 then s.memFail d else s
      else if r.1 + 1 < 64 then { s with retrain := Tab.put k (r.1 + 1, r.2) s.retrain }
      else { s with retrain := Tab.put k (0, 0) s.retrain }.incF (mcB d) F.RETRAIN_CNT_COUNT 1
    else s)

/-- RETRAIN_WAIT: a channel has waited 100 ms for a step because its device is hot (R503). -/
def execRetrainWait (d : Fin 16) (s : State) : Host.Outcome State Fault Refusal :=
  .next (if s.mcState d = 2 ∧ s.flag (mcB d) F.MC_STATUS_HOT then s.setF (mcB d) F.MC_STATUS_RETRAIN_WAIT 1 else s)

end Sys2Proof.Machine
end

