-- ==== Sys2Proof/Machine/Rerun.lean ====
section
/-!
DEFINITION. Re-run of a bundle (19_replay_faults R677 to R681): the checks, the load of the checkpoints into the area at
RR_BASE, the courses with their journal records and captured lines, and the end. The commands RERUN_START, RERUN_STATUS,
RERUN_LOADED and RERUN_COURSE. What the spec leaves to the layout of a bundle and of the area is log entry 24.
-/

namespace Sys2Proof.Machine

/-! ## Reading a bundle (R676) -/

/-- A bundle read from memory: device number, FW_VER, groups with K0 and KF, sections. -/
structure Bundle where
  dev : Nat
  fw : Nat
  groups : List (Nat × Nat × Nat)
  sects : List BSect
  deriving DecidableEq, Repr

/-- Read the sections of a table, entry by entry; the status of the first that fails. -/
def State.readSects (s : State) (a : Nat) : List (List Byte) → State × Except Nat (List BSect)
  | [] => (s, .ok [])
  | e :: es =>
    let r := s.memRead 1 (blockUnit repB) (a + leAt e 8 8) (leAt e 0x10 8)
    match r.2 with
    | .error x => (r.1, .error (memStatus x))
    | .ok d =>
      if crc32c d ≠ leAt e 0x18 4 then (r.1, .error stBadParam)
      else
        let q := r.1.readSects a es
        (q.1, q.2.map (fun l => (⟨leAt e 0 1, leAt e 1 1, leAt e 2 2, d⟩ : BSect) :: l))

/-- Read the bundle at an address with all its checks (R677, first row). -/
def State.readBundle (s : State) (a : Nat) : State × Except Nat Bundle :=
  let h := s.memRead 1 (blockUnit repB) a 512
  match h.2 with
  | .error x => (h.1, .error (memStatus x))
  | .ok b =>
    if leAt b 0 4 ≠ 0x48424E44 ∨ leAt b 4 1 ≠ 1 then (h.1, .error stBadParam)
    else
      let n := leAt b 0x14 4
      let t := h.1.memRead 1 (blockUnit repB) (a + 512) (32 * n)
      match t.2 with
      | .error x => (t.1, .error (memStatus x))
      | .ok tab =>
        if crc32c (b.take 0x1FC ++ tab) ≠ leAt b 0x1FC 4 then (t.1, .error stBadParam)
        else
          let q := t.1.readSects a (chunks 32 n tab)
          (q.1, q.2.map (fun l =>
            { dev := leAt b 6 2 % 2 ^ 14
              fw := leAt b 0x10 4
              groups := (List.range (min 16 (leAt b 5 1))).map (fun i =>
                (leAt b (0x20 + 24 * i) 1 % 16, leAt b (0x28 + 24 * i) 8, leAt b (0x30 + 24 * i) 8))
              sects := l }))

/-- The journal of a bundle. -/
def Bundle.journal (b : Bundle) : List JRec := journalRecs ((b.sects.filter (fun e => e.ty == 1)).flatMap (·.data))

/-- The captured channels of a group. -/
def Bundle.captured (b : Bundle) (g : Nat) : List Nat := (b.sects.filter (fun e => e.ty == 2 && e.grp == g)).map (·.ch)

/-- The image of a group's checkpoint. -/
def Bundle.image (b : Bundle) (g : Nat) : Option GroupImage :=
  (b.sects.find? (fun e => e.ty == 3 && e.grp == g)).bind (fun e => ckptImage e.data)

/-- The classifier descriptors and gauge sets of a group. -/
def Bundle.named (b : Bundle) (g : Nat) : List BSect := b.sects.filter (fun e => (e.ty == 4 || e.ty == 5) && e.grp == g)

/-- A capture item: course, KIND, FLAGS and block. -/
structure CapItem where
  course : Nat
  kind : Nat
  flags : Nat
  block : List Byte

/-- Cut a capture section into its items (R665). -/
def capSplit : Nat → List Byte → List CapItem
  | 0, _ => []
  | fuel + 1, bs =>
    if bs.length < 256 then []
    else
      { course := leAt bs 8 8, kind := leAt bs 2 1, flags := leAt bs 3 1, block := sliceB bs 32 (leAt bs 16 4) } ::
        capSplit fuel (bs.drop (256 * max 1 (leAt bs 20 4)))

/-- The items that decide their course: a line accepted and then declared missing (R129) leaves two, of which the later
decides (R133). -/
def lastItems : List CapItem → List CapItem
  | [] => []
  | i :: rest => if rest.any (fun j => j.course == i.course) then lastItems rest else i :: lastItems rest

/-- The items of a channel. -/
def Bundle.items (b : Bundle) (g ch : Nat) : List CapItem :=
  lastItems ((b.sects.filter (fun e => e.ty == 2 && e.grp == g && e.ch == ch)).flatMap
    (fun e => capSplit (e.data.length / 256) e.data))

/-! ## The area at RR_BASE (R677, R678) -/

/-- The value a field has in an image. -/
def GroupImage.field (im : GroupImage) (b : Nat) (f : Fld) : Nat := Tab.get f.rst (f.key b) (if f.pat then im.act else im.regs)

/-- The bytes of the run store of an image. -/
def GroupImage.storeLen (im : GroupImage) : Nat := 4096 * im.field (gsegB im.grp) F.RS_CFG_CHUNKS

/-- The bytes a group takes in the area: its history, its run store, and each section on a 256-byte boundary. -/
def Bundle.areaOf (b : Bundle) (g : Nat) : Nat :=
  0x200000 + ((b.image g).map (·.storeLen)).getD 0 + ((b.named g).map (fun e => (e.data.length + 255) / 256 * 256)).sum

/-! ## RERUN_START (R677) -/

/-- A channel of the run of a bundle group is out of service while its region's spare serves. -/
def State.rerunSpare (s : State) (b : Bundle) : Bool :=
  b.groups.any (fun w => match b.image w.1 with
    | some im =>
      let first := im.field (gseamB im.grp) F.GRP_SEAM_FIRST_CH
      ((List.range (im.field (gseamB im.grp) F.GRP_SEAM_COUNT)).map (· + first)).any (fun ch =>
        s.outOfService ch && s.getF (spareB (ch / 16)) F.SPARE_STATUS_STATE == 1)
    | none => false)

/-- The status of a re-run of a bundle that has been read (R677). -/
def State.rerunStatus (s : State) (b : Bundle) : Nat :=
  let ring := s.getF repB F.RR_RING_RING
  if b.fw ≠ s.getF devB F.FW_VERSION_FW_VER then stBadParam
  else if !s.ringOk ring false then stBadParam
  else if s.reRunning || s.getF repB F.REPLAY_STATUS_STATE == 4 || s.power.bind then stBusy
  else if b.groups.any (fun w => (s.g w.1).st != 0 || (b.captured w.1).any (fun ch => (s.bondLanes ch).any (fun l => s.flag (ingB l) F.LANE_CTRL_EN))) then stBusy
  else if s.rerunSpare b then stNoResource
  else if s.getF repB F.RR_SIZE_BYTES < (b.groups.map (fun w => b.areaOf w.1)).sum then stNoResource
  else if !s.canPin [ring] then stNoResource
  else stOk

/-- RERUN_START. -/
def execRerunStart (h : Hdr) (addr : BitVec 64) (s : State) : Host.Outcome State Fault Refusal :=
  .next (s.command h 0x0903 2 (fun t =>
    if !t.domOn 93 then (t, .of stPoweredOff)
    else
      let r := t.readBundle addr.toNat
      let t := r.1
      match r.2 with
      | .error e => (t, .of e)
      | .ok b =>
        let st := t.rerunStatus b
        if st ≠ stOk then (t, .of st)
        else
          let t := (t.markQuiet.setF repB F.RR_MISMATCH_COUNT 0).setF repB F.RR_STATUS_RSTATE 1
          ({ t with rep := { t.rep with
              rrAddr := addr.toNat
              rrNext := b.groups.map (fun w => (w.1, w.2.1))
              rrLast := b.groups.map (fun w => (w.1, w.2.2))
              rrSaved := []
              rrKeep := []
              rrDrops := []
              rrRecs := []
              rrDev := none } }, {})))

/-- RERUN_STATUS (R382). -/
def execRerunStatus (h : Hdr) (s : State) : Host.Outcome State Fault Refusal :=
  .next (s.command h 0x0904 0 (fun t =>
    if !t.domOn 93 then (t, .of stPoweredOff)
    else (t, .ok (be 1 (t.getF repB F.RR_STATUS_RSTATE) ++ zeros 7 ++ be 8 (t.getF repB F.RR_COURSE_COURSE) ++
      be 4 (t.getF repB F.RR_MISMATCH_COUNT)))))

/-! ## The load (R678 steps 1 and 2) -/

/-- The ring fields of a group's blocks, and the fields that let a block write to a ring. -/
def State.ringFields (s : State) (g : Nat) : List (Nat × Fld) :=
  [(crsB g, F.CRS_CSW_RING_CSW_EN), (gseamB g, F.SEAM_RING_RING_EN), (gsegB g, F.DESC_RING_RING), (gtalB g, F.PATCH_RING_RING)] ++
  (List.range 4).flatMap (fun r => [F.RES_RING_EN, F.RES_RING_ORDER, F.RES_RING_FULL_DROP, F.RES_RING_RING].map
    (fun f => (gtalB g, f.nth r))) ++
  (s.runChans g).flatMap (fun ch => [(corrB ch, F.CORR_CTRL_STAT_RAW_EN), (corrB ch, F.CORR_CTRL_STAT_COR_EN),
    (ingB ch, F.CAM_RING_CAM_EN)])

/-- The lane fields that a re-run changes. -/
def laneFields (ch : Nat) : List (Nat × Fld) :=
  [(ingB ch, F.LANE_CTRL_SRC_SEL), (ingB ch, F.LANE_CTRL_PACE), (ingB ch, F.LANE_STATUS_STATE)]

/-- Keep the values of fields for the end of the re-run. -/
def State.saveFields (s : State) (l : List (Nat × Fld)) : State :=
  { s with rep := { s.rep with rrSaved := s.rep.rrSaved ++ l.map (fun e => (e.2.key e.1, s.getF e.1 e.2)) } }

/-- Whether a field key belongs to the blocks of group `g` or of its channels; the lane registers, offsets below 0x100 of
a channel's window, belong to the lane. -/
def keyOfGroup (g : Nat) (chs : List Nat) (k : Nat) : Bool :=
  let a := k / 64
  groupOfAddr a == some g || (match chOfAddr a with
    | some ch => chs.contains ch && decide (256 ≤ a - chB ch)
    | none => false)

/-- Put an image's fields in place of those of the group. -/
def loadBank (g : Nat) (chs : List Nat) (img bank : List (Nat × Nat)) : List (Nat × Nat) :=
  putAll (img.filter (fun e => keyOfGroup g chs e.1)) (bank.filter (fun e => !keyOfGroup g chs e.1))

/-- Move an address by the distance the run store moves; 0 stays. -/
def shiftAddr (d : Int) (a : Nat) : Nat := if a = 0 then 0 else (Int.ofNat a + d).toNat

/-- Move the chunk addresses of a segment. -/
def Seg.shift (d : Int) (e : Seg) : Seg := { e with chunks := e.chunks.map (shiftAddr d) }

/-- Move the chunk addresses of a component. -/
def Comp.shift (d : Int) (c : Comp) : Comp := { c with seg := c.seg.shift d, pend := c.pend.map (fun p => (p.1.shift d, p.2)) }

/-- Move the HEAD of a descriptor. -/
def shiftDesc (d : Int) (bs : List Byte) : List Byte := bs.take 0x38 ++ le 8 (shiftAddr d (leAt bs 0x38 8)) ++ bs.drop 0x40

/-- The run store of an image at its new place, the NEXT of each chunk moved with it. -/
def GroupImage.storeBytes (im : GroupImage) (old : Nat) (d : Int) : List Byte :=
  (List.range (im.storeLen / 4096)).flatMap (fun i =>
    let c := memGets im.store (old + 4096 * i) 4096
    le 8 (shiftAddr d (leAt c 0 8)) ++ c.drop 8)

/-- Write a range of the area; whether memory took it. -/
def State.place (s : State) (ok : Bool) (a : Nat) (bs : List Byte) : State × Bool :=
  let r := s.memWrite 1 (blockUnit repB) a bs
  (r.1, ok && r.2.isNone)

/-- Copy the sections of a group to the area from `a` on, and point the registers at them. -/
def State.placeSects (s : State) (ok : Bool) (g : Nat) (sets : List (Nat × Nat × Nat)) : Nat → List BSect → State × Bool × Nat
  | a, [] => (s, ok, a)
  | a, e :: es =>
    let r := s.place ok a e.data
    let a' := a + (e.data.length + 255) / 256 * 256
    if e.ty = 4 then
      let f := F.SLOT_DESC_ADDR.nth (e.ch % 8)
      let t := if e.ch < 8 then r.1.setF (gtalB g) f (a / 256) else r.1.setSh (gtalB g) f (a / 256)
      t.placeSects r.2 g sets a' es
    else
      let sel := ((sets.find? (fun k => k.1 == e.ch)).map (·.2.1)).getD 0
      let t := r.1.setF (corrB e.ch) (if sel = 0 then F.GAUGE_BASE_A_ADDR else F.GAUGE_BASE_B_ADDR) a
      t.placeSects r.2 g (match sets.find? (fun k => k.1 == e.ch) with
        | some k => sets.erase k
        | none => sets) a' es

/-- Registers and hidden state of a group from its image, its run store and history at `a` (R671, R678). -/
def State.loadImage (s : State) (b : Bundle) (im : GroupImage) (g k0 a : Nat) : State × Bool :=
  let desc := s.getF (gsegB g) F.DESC_RING_RING
  let s := { s with regs := loadBank g [] im.regs s.regs }
  let chs := s.runChans g
  let s := forL chs (fun ch t => t.saveFields (laneFields ch)) s
  let s := { s with
    regs := loadBank g chs im.regs s.regs
    act := loadBank g chs im.act s.act
    shd := loadBank g chs im.shd s.shd
    oldL := s.oldL.filter (fun (o : Nat × Int × Nat) => !keyOfGroup g chs o.1) ++ im.oldL
    rep := { s.rep with rrKeep := s.rep.rrKeep ++ chs.map (fun ch => (ch, s.ch ch)) } }
  let old := s.getF (gsegB g) F.RS_BASE_ADDR
  let d := Int.ofNat (a + 0x200000) - Int.ofNat old
  let p := s.place true (a + 0x200000) (im.storeBytes old d)
  let s := (p.1.setF (gsegB g) F.RS_BASE_ADDR (a + 0x200000)).setF (gtalB g) F.HIST_BASE_ADDR a
  let s := forL im.chans (fun (e : Nat × Chan) t => t.setCh e.1 { e.2 with running := none, pendingReq := none, done := none }) s
  let s := forL im.seams (fun (e : Nat × SeamCh) t => t.setSm e.1 e.2) s
  let x := im.segG
  let s := s.setSmG g im.seamG
  let s := s.setSg g { x with
    comps := x.comps.map (Comp.shift d)
    overC := x.overC.map (Comp.shift d)
    hand := (im.descs ++ x.hand).map (shiftDesc d)
    back := x.back.map (shiftAddr d) }
  let s := s.setTg g { im.tal with jobs := im.tal.jobs.map (fun j => { j with desc := shiftDesc d j.desc, engine := none }) }
  let s := { s with hist := Tab.put g im.hist s.hist }
  let s := s.setG g { st := 2, openC := some (k0 - 1), closed := some (k0 - 1) }
  let s := s.setF (gsegB g) F.DESC_RING_RING desc
  let s := s.setF (patB g) F.PAT_STATUS_PHASE 0
  let s := forL ((b.captured g).filter chs.contains) (fun ch t =>
    (((t.setF (ingB ch) F.LANE_CTRL_SRC_SEL 1).setF (ingB ch) F.LANE_CTRL_PACE 1).setLane ch (if t.joined ch then 6 else 5))) s
  let r := im.hist.foldl (fun (acc : State × Bool) h =>
    acc.1.place acc.2 (a + 16 * (h.course % 131072)) (le 8 (ofInt 64 h.enc) ++ le 4 h.sec ++ le 4 h.ns)) (s, p.2)
  (r.1, r.2)

/-- Ring fields as a re-run has them, and the bindings (R678 step 2). -/
def State.rerunRings (s : State) (g : Nat) : State :=
  let s := forL ((s.ringFields g).filter (fun e => e.2 != F.DESC_RING_RING)) (fun e t => t.setF e.1 e.2 0) s
  let b := gtalB g
  let s := (s.setF b (F.RES_RING_EN.nth 0) 1).setF b (F.RES_RING_ORDER.nth 0) 1
  let s := (s.setF b (F.RES_RING_RING.nth 0) (s.getF repB F.RR_RING_RING)).setF b F.PATCH_RING_RING (s.getF repB F.RR_PATCH_RING_RING)
  let s := s.bind (s.getF repB F.RR_RING_RING) b true
  let s := if s.ringOk (s.getF b F.PATCH_RING_RING) true then s.bind (s.getF b F.PATCH_RING_RING) b true else s
  let d := s.getF (gsegB g) F.DESC_RING_RING
  if s.ringOk d false then (s.bind d (gsegB g) true).subBlock d b else s

/-- Fields that no journalled write changes in a re-run. -/
def State.rerunKeeps (s : State) (g : Nat) (i : WItem) : Bool :=
  (s.ringFields g).any (fun e => e.2.key e.1 == i.key) || (match chOfAddr i.addr with
    | some ch => decide (i.addr - chB ch < 0x100)
    | none => false)

/-- A list taken two by two. -/
def pairsOf : List Nat → List (Nat × Nat)
  | a :: b :: l => (a, b) :: pairsOf l
  | _ => []

/-- The items of a WRITE record that belong to group `g` (R670). -/
def State.recordItems (s : State) (g : Nat) (r : JRec) : List WItem × Bool :=
  let n := leAt r.data 4 2
  let shadow := leAt r.data 6 1 = 1
  let raw := (chunks 4 n (sliceB (r.data.drop 8) 0 (4 * n))).map leVal
  let words : List (Nat × Nat) := if leAt r.data 7 1 = 1 then (pairsOf raw).map (fun p => (p.2, p.1)) else raw.map (fun w => (w, 2 ^ 32 - 1))
  let c : WriteCtx := ⟨r.src, 3, 2, shadow, false⟩
  (((s.collect c (leAt r.data 0 4) words []).1.filter (fun i => s.groupAt i.addr == some g && !s.rerunKeeps g i)), shadow)

/-- The first course that a journalled write governs, by its stamp and its effective course (R8, R42). -/
def JRec.governs (r : JRec) : Int := beforeGoverned r.stamp (r.stamp + r.lag) + 1

/-- The L fields of a journalled write govern as they did on the live device (R8, R42). -/
def State.rerunLive (s : State) (g : Nat) (r : JRec) : State :=
  let i := s.recordItems g r
  if i.2 then s else s.applyAll g r.governs.toNat ((i.1.filter (fun k => k.fs.kind == .L)).map WItem.write)

/-- A line of a captured lane: KIND 0x01 is decompressed and accepted, any other is missing (R561, R678 step 4). A line that the
checkpoint holds stays, but where the item tells that R129 declared its course missing afterwards (R133). -/
def State.feed (s : State) (g ch : Nat) (i : CapItem) : State :=
  if !(s.ch ch).expects i.course || decide (i.course < (s.ch ch).next) ||
      (s.ch ch).lines.any (fun l => l.course == i.course && (l.missing || i.kind != 2)) then s
  else if i.kind ≠ 1 then s.declareMissing g ch i.course
  else
    let r := s.hkUnpack (ch / 16) i.block
    let s := r.1
    match r.2 with
    | some im =>
      match checkPacket (imageWords im) false with
      | .ok _ dt _ ws =>
        match lineWidth dt (bits (ws.getD 1 0) 11 8) with
        | some w =>
          let up := bit i.flags 0
          s.acceptLine g ch (if up then ch + 1 else ch) (lineOf (s.getF (ingB ch) F.ING_CFG_LINE_LEN) i.course w ws im up)
        | none => s.declareMissing g ch i.course
      | _ => s.declareMissing g ch i.course
    | none => s.declareMissing g ch i.course

/-- Load one group, with what the journal holds of courses before K0 that the checkpoint does not yet show (log entry 24):
inputs of earlier effective courses and lines of the courses not yet started. -/
def State.loadGroup (s : State) (b : Bundle) (w : Nat × Nat × Nat) (a : Nat) : State × Bool × Nat :=
  match b.image w.1 with
  | none => (s, false, a)
  | some im =>
    let s := s.saveFields (s.ringFields w.1)
    let r := s.loadImage b im w.1 w.2.1 a
    let p := r.1.placeSects r.2 w.1 im.sets (a + 0x200000 + im.storeLen) (b.named w.1)
    let s := p.1.rerunRings w.1
    let mine := (windowRecs b.journal w.1 w.2.1 w.2.2).filter (fun j => j.grp == w.1)
    let s := forL (mine.filter (fun j => j.ty == 4 && decide (j.governs ≤ Int.ofNat w.2.1))) (fun j t => t.rerunLive w.1 j) s
    let early := mine.filter (fun j => (j.ty == 2 || j.ty == 3) && decide (j.stamp + j.lag < Int.ofNat w.2.1))
    let s := forL early (fun j t =>
      t.consumeOne ⟨w.1, j.cls, j.src, j.stamp, j.stamp + j.lag,
        if j.ty = 2 then .aux j.src (toInt 32 (leAt j.data 0 4)) else .segHold, false, 0⟩) s
    let s := forL (b.captured w.1) (fun ch t =>
      forL ((b.items w.1 ch).filter (fun i => decide (i.course < w.2.1))) (fun i u => u.feed w.1 ch i) t) s
    (s, p.2.1, p.2.2)

/-- Load the groups of a bundle one after the other. -/
def State.loadGroups (s : State) (b : Bundle) : Nat → List (Nat × Nat × Nat) → State × Bool
  | _, [] => (s, true)
  | a, w :: ws =>
    let r := s.loadGroup b w a
    if r.2.1 then r.1.loadGroups b r.2.2 ws else (r.1, false)

/-! ## The end (R678 step 6, R680) -/

/-- Restore lanes and ring fields once every group of the bundle has stopped, and forget the bundle. -/
def State.rerunEnd (s : State) : State :=
  if s.rep.rrLast.isEmpty || s.rep.rrLast.any (fun e => (s.g e.1).st != 0) then s
  else
    let s := { s with regs := putAll s.rep.rrSaved s.regs }
    let s := forL s.rep.rrKeep (fun (e : Nat × Chan) t => t.setCh e.1 e.2) s
    let s := { s with rep := { s.rep with
      rrNext := []
      rrLast := []
      rrSaved := []
      rrKeep := []
      rrDrops := []
      rrRecs := []
      rrDev := none } }
    let s := s.mark repB F.REPLAY_STATUS_RERUN_EV
    if s.getF repB F.RR_STATUS_RSTATE = 2 then s.setF repB F.RR_STATUS_RSTATE 3 else s

/-- A re-run stops with RSTATE 4: its groups stop, and it ends when they have drained (R680). -/
def State.rerunStop (s : State) : State :=
  if s.reRunning then
    let s := forL s.rep.rrLast (fun e t => t.groupStop e.1) s
    (s.setF repB F.RR_STATUS_RSTATE 4).rerunEnd
  else s

/-- RERUN_LOADED. -/
def execRerunLoaded (s : State) : Host.Outcome State Fault Refusal :=
  .next (if s.getF repB F.RR_STATUS_RSTATE = 1 then
    let r := s.readBundle s.rep.rrAddr
    match r.2 with
    | .error _ => r.1.rerunStop
    | .ok b =>
      let j := b.journal
      let t := r.1.idleEnd
      let t := { t with rep := { t.rep with
        rrDrops := (j.filter (fun (e : JRec) => e.ty == 0x0A)).map (fun (e : JRec) => (e.grp, e.course, leAt e.data 0 4, leAt e.data 4 2))
        rrRecs := (j.filter (fun (e : JRec) => e.ty == 0x0B)).map (fun (e : JRec) => (leAt e.data 0 8, e.src, leAt e.data 8 4, leAt e.data 12 4))
        rrDev := some b.dev } }
      let q := t.loadGroups b (t.getF repB F.RR_BASE_ADDR) b.groups
      if q.2 then q.1.setF repB F.RR_STATUS_RSTATE 2 else q.1.rerunStop
  else s)

/-! ## A course (R678 steps 3 and 4) -/

/-- A journalled write of the shadow bank, at the boundary of the course that `JRec.governs` gives (R42; log entry 24). -/
def State.rerunShadow (s : State) (g : Nat) (r : JRec) : State :=
  let q := s.recordItems g r
  if q.2 then
    forL (q.1.filter (fun i => i.fs.kind == .P)) (fun i t => { t with shd := Tab.put i.key i.val t.shd }) s
  else s

/-- The records that change the banks of group `g` at the boundary before course `c`: writes of the shadow bank, then the
swap (R45). -/
def bankRecs (recs : List JRec) (g c : Nat) : List JRec × List JRec :=
  (recs.filter (fun r => r.grp == g && r.ty == 4 && leAt r.data 6 1 == 1 && r.governs == Int.ofNat c),
    recs.filter (fun r => r.grp == g && r.ty == 6 && r.course == c))

/-- A journalled swap of group `g` at course `c` (R398 to R400): the banks change places, and the copy-back follows. -/
def State.rerunSwap (s : State) (g c : Nat) : State :=
  let chs := s.setChans g
  let s := (((s.keepBank g (Int.ofNat c)).flip g).setF (patB g) F.PAT_STATUS_PHASE 2).setI (patB g) F.PAT_SWAP_COURSE_COURSE
    (Int.ofNat c)
  { s with copying := s.copying.filter (fun (e : CopyBack) => e.set != g) ++ [(⟨g, chs, Int.ofNat c, false, false⟩ : CopyBack)] }

/-- The changes of the banks at the boundary before course `c`, after the copy-back of the swap before them, which alters no
result (R399, R403). -/
def State.rerunBanks (s : State) (recs : List JRec) (g k0 c : Nat) : State :=
  let q := bankRecs recs g c
  if q.1.isEmpty && q.2.isEmpty then s
  else
    let s := s.copyEnd g
    let s := if k0 < c then forL q.1 (fun r t => t.rerunShadow g r) s else s
    forL q.2 (fun _ t => t.rerunSwap g c) s

/-- A gauge table is computed again, compared and installed (R167, R678, R679); a read that is uncorrectable fails. -/
def State.rerunGauge (s : State) (g : Nat) (r : JRec) : State × Bool :=
  let ch := r.src
  let q := s.gaugeCompute ch (leAt r.data 2 1) (some (toInt 16 (leAt r.data 0 2)))
  let bad (t : State) (c : Nat) : State :=
    (t.satF repB F.RR_MISMATCH_COUNT 1).log .rerunMismatch g g (zeros 8 ++ le 4 (leAt r.data 4 4) ++ le 4 c)
  match q.2 with
  | .error .memerr => (q.1, false)
  | .error _ => (bad q.1 0, true)
  | .ok tab =>
    let t := if tabCrc tab = leAt r.data 4 4 then q.1 else bad q.1 (tabCrc tab)
    let x := t.ch ch
    let t := t.setCh ch (x.install r.course tab)
    (t.calRecord ch r.course tab.temp, true)

/-- The journalled time of course `c`, for the installations that it is the first to follow (R170). -/
def State.rerunTimes (s : State) (mine : List JRec) (g c : Nat) : State :=
  let d := ((mine.find? (fun r => r.ty == 1 && r.course == c)).map (·.data)).getD []
  forL ((s.runChans g).filter (fun ch => (s.ch ch).calDue)) (fun ch t => t.calStamp ch (leAt d 8 4) (leAt d 12 4)) s

/-- The boundary before course `c`: members, gauge tables, swaps and writes as journalled, in the order of R45. -/
def State.rerunBoundary (s : State) (recs : List JRec) (g k0 c : Nat) : State × Bool :=
  let mine := recs.filter (fun r => r.grp == g)
  let s := s.rerunTimes mine g c
  let s := forL (mine.filter (fun r => r.ty == 8 && r.course == c)) (fun r t =>
    let op := leAt r.data 0 1
    if op = 1 then t.chanJoin g r.src c
    else if op = 2 then t.chanLeave g r.src c
    else t.setCh r.src { t.ch r.src with lostAt := some c }) s
  let q := (mine.filter (fun r => r.ty == 7 && r.course == c + 1)).foldl (fun (a : State × Bool) r =>
    let b := a.1.rerunGauge g r
    (b.1, a.2 && b.2)) (s, true)
  let s := q.1.rerunBanks recs g k0 c
  (forL (mine.filter (fun r => r.ty == 4 && r.governs == Int.ofNat c && decide (k0 < c))) (fun r t =>
    t.rerunLive g r) s, q.2)

/-- The trigger of course `c` with the journalled sample and time (R65, R281). -/
def State.rerunTrigger (s : State) (recs : List JRec) (g c : Nat) : State :=
  let r := recs.find? (fun r => r.ty == 1 && r.grp == g && r.course == c)
  let d := (r.map (·.data)).getD []
  let enc := toInt 64 (leAt d 0 8)
  let s := s.checkpoint g c
  let s := s.setG g { s.g g with openC := some c, lastTrig := some s.now, dueC := none }
  let s := s.setF (crsB g) F.CRS_COUNT_COURSE c
  let s := { s with hist := Tab.put g (Tab.get [] g s.hist ++ [(⟨c, enc, leAt d 8 4, leAt d 12 4⟩ : Hist)]) s.hist }
  let s := if s.flag (gtalB g) F.TALLY_CTRL_TALLY_EN then
      (s.memWrite 1 g (s.getF (gtalB g) F.HIST_BASE_ADDR + 16 * (c % 131072)) (d.take 16)).1
    else s
  let s := s.seamJoins g c
  let s := s.segJoins g c
  let s := s.descWait g
  let s := s.holdShow g
  let s := s.syncTrigger g c
  s.freezeDue

/-- The aux samples and holds of effective course `c` (R678 step 4). -/
def State.rerunInputs (s : State) (recs : List JRec) (g c : Nat) : State :=
  let l := recs.filter (fun r => r.grp == g && (r.ty == 2 || r.ty == 3) && r.stamp + r.lag == Int.ofNat c)
  { s with arrived := s.arrived ++ l.map (fun r =>
      (⟨g, r.cls, r.src, r.stamp, r.stamp + r.lag,
        if r.ty = 2 then .aux r.src (toInt 32 (leAt r.data 0 4)) else .segHold, false, 0⟩ : Stamped)) }

/-- RR_PERIOD cycles have passed since the group's last course (R678 step 3). -/
def State.rerunPaced (s : State) (g : Nat) : Bool :=
  match (s.g g).lastTrig with
  | some t => decide (t + s.getF repB F.RR_PERIOD_CYCLES ≤ s.now)
  | none => true

/-- The group is ready for course `c` (R678 step 3): RR_PERIOD has passed, every channel has a slot, no descriptor waits, and
fewer than 1,024 records wait. -/
def State.rerunReady (s : State) (g c : Nat) : Bool :=
  s.rerunPaced g &&
  (s.runChans g).all (fun ch => !(s.ch ch).expects c || decide (c < (s.ch ch).next + 8)) && !(s.sg g).wait &&
    decide ((s.tg g).done.length < 1024)

/-- Issue course `c` of group `g`. -/
def State.rerunIssue (s : State) (b : Bundle) (g k0 c : Nat) : State :=
  let recs := windowRecs b.journal g k0 (((b.groups.find? (fun w => w.1 == g)).map (·.2.2)).getD c)
  let q := s.rerunBoundary recs g k0 c
  if !q.2 then q.1.rerunStop
  else
    let s := (q.1.rerunTrigger recs g c).rerunInputs recs g c
    let s := forL (b.captured g) (fun ch t =>
      forL ((b.items g ch).filter (fun i => i.course == c)) (fun i u => u.feed g ch i) t) s
    let s := s.setF repB F.RR_COURSE_COURSE c
    { s with rep := { s.rep with rrNext := Tab.put g (c + 1) s.rep.rrNext } }

/-- RERUN_COURSE: the next course of a group of the bundle; after KF the group stops, and once every group has drained the
re-run ends. -/
def execRerunCourse (g : Fin 16) (s : State) : Host.Outcome State Fault Refusal :=
  .next (if s.getF repB F.RR_STATUS_RSTATE = 2 then
    match Tab.find g.val s.rep.rrNext, Tab.find g.val s.rep.rrLast with
    | some c, some last =>
      if last < c then (s.groupStop g).rerunEnd
      else if s.rerunReady g c then
        let r := s.readBundle s.rep.rrAddr
        match r.2 with
        | .error _ => r.1.rerunStop
        | .ok b => r.1.rerunIssue b g (((b.groups.find? (fun w => w.1 == g.val)).map (·.2.1)).getD c) c
      else s
    | _, _ => s
  else (forL s.rep.rrLast (fun e t => t.groupStop e.1) s).rerunEnd)

end Sys2Proof.Machine
end

