-- ==== Sys2Proof/Machine/UnitCommands.lean ====
section
/-!
DEFINITION. The commands on units of the device (09_commands R381, R382): calibration, lanes, time, marking, capture, the fault
log and self-tests: the rows CAL_REQUEST to CAPTURE_REARM and LOG_READ to FAULT_INJECT.
-/

namespace Sys2Proof.Machine

/-! ## Calibration and lanes -/

/-- Request a recomputation by command for a channel of a running group (R163 case 4). -/
def State.calOne (s : State) (g ch : Nat) : State := s.gaugeReq ch (s.stampG g) (s.reqTemp ch (s.stampG g)) []

/-- CAL_REQUEST (R163, R169, R382). -/
def execCalRequest (h : Hdr) (channel : BitVec 16) (s : State) : Host.Outcome State Fault Refusal :=
  .next (s.command h 0x0600 1 (fun t =>
    let ch := channel.toNat
    let g := h.group.toNat
    if ch = 0xFFFF then
      if 15 < g then (t, .of stBadParam)
      else if !t.running g then (t, .of stBusy)
      else (forL ((t.runChans g).filter t.gaugeDouble) (fun c u => u.calOne g c) t, {})
    else if 127 < ch then (t, .of stBadParam)
    else
      match t.groupOf ch with
      | some k => if t.gaugeDouble ch then (t.calOne k ch, {}) else (t, .of stBusy)
      | none => (t, .of stBusy)))

/-- CAL_STATUS (R170). -/
def execCalStatus (h : Hdr) (channel : BitVec 16) (s : State) : Host.Outcome State Fault Refusal :=
  .next (s.command h 0x0601 0 (fun t =>
    let b := corrB channel.toNat
    if 127 < channel.toNat then (t, .of stBadParam)
    else if !t.powered b then (t, .of stPoweredOff)
    else
      (t, .ok (be 4 (t.getF b F.CAL_COUNT_COUNT) ++ be 8 (t.getF b F.CAL_LAST_COURSE_COURSE) ++
        be 2 (t.getF b F.CAL_LAST_TEMP_TEMP) ++ be 1 (t.getF b F.CORR_STATUS_GAUGE_PEND) ++ [0]))))

/-- LANE_ADAPT: the receiver adapts anew, to values that the spec does not give, unless ADAPT_FREEZE holds them (R89; log entry
31). -/
def execLaneAdapt (h : Hdr) (lane : BitVec 16) (s : State) : Host.Outcome State Fault Refusal :=
  .next (s.command h 0x0602 2 (fun t =>
    let l := lane.toNat
    if 127 < l then (t, .of stBadParam)
    else if !t.quadOn l then (t, .of stPoweredOff)
    else if t.flag (ingB l) F.LANE_CTRL_ADAPT_FREEZE ∨ t.laneState l < 2 then (t, {})
    else (t.adapted l, {})))

/-! ## Time (R602, R603) -/

/-- TIME_GET. -/
def execTimeGet (h : Hdr) (s : State) : Host.Outcome State Fault Refusal :=
  .next (s.command h 0x0700 0 (fun t =>
    (t, .ok (be 8 t.sec ++ be 4 t.ns ++ be 4 (t.localT % 2 ^ 40 / 2 ^ 16) ++
      (match t.time.sel with
        | some d => be 1 d ++ be 1 (if t.ptpLocked d then 1 else 0)
        | none => [0xFF, 0])))))

/-- TIME_SET: the clock steps to the time given (R382). -/
def execTimeSet (h : Hdr) (sec : BitVec 64) (ns : BitVec 32) (s : State) : Host.Outcome State Fault Refusal :=
  .next (s.command h 0x0701 3 (fun t =>
    if 1000000000 ≤ ns.toNat then (t, .of stBadParam)
    else if t.anyRunning ∨ t.ptpLocked 0 ∨ t.ptpLocked 1 then (t, .of stBusy)
    else (t.clockStep (Int.ofNat ((sec.toNat * 1000000000 + ns.toNat) * 2 ^ 40) - Int.ofNat t.localT), {})))

/-- One domain of PTP_STATUS. -/
def State.ptpBytes (s : State) (d : Nat) : List Byte :=
  be 1 (s.getF timB (if d = 0 then F.PTP_CTRL_DOMAIN_A else F.PTP_CTRL_DOMAIN_B)) ++ be 1 (s.ptpState d) ++ zeros 2 ++
    be 8 (ofInt 64 (s.ptpOffset d))

/-- PTP_STATUS. -/
def execPtpStatus (h : Hdr) (s : State) : Host.Outcome State Fault Refusal :=
  .next (s.command h 0x0702 0 (fun t => (t, .ok (t.ptpBytes 0 ++ t.ptpBytes 1))))

/-- PTP_PREFER: 0 names domain A, 1 domain B. -/
def execPtpPrefer (h : Hdr) (domain : BitVec 8) (s : State) : Host.Outcome State Fault Refusal :=
  .next (s.command h 0x0703 2 (fun t =>
    if 1 < domain.toNat then (t, .of stBadParam)
    else ((t.setF timB F.PTP_CTRL_PREF domain.toNat).ptpSelect true, {})))

/-! ## Marking (R320 to R326, R348) -/

/-- A command on the compare units and the tag head, while their domain is on. -/
def markUnit (unit : Nat) (f : State → State × Reply) (t : State) : State × Reply :=
  if 15 < unit then (t, .of stBadParam) else if !t.domOn 95 then (t, .of stPoweredOff) else f t

/-- MARK_INSERT. -/
def execMarkInsert (h : Hdr) (unit : BitVec 8) (pos id : BitVec 64) (s : State) : Host.Outcome State Fault Refusal :=
  .next (s.command h 0x0800 1 (markUnit unit.toNat (fun t =>
    let t := t.cmpInsert unit.toNat (toInt 64 pos.toNat, id.toNat)
    (t, .ok (be 2 (t.getF (cmpB unit.toNat) F.CMP_STATUS_ENTRIES))))))

/-- MARK_CLEAR. -/
def execMarkClear (h : Hdr) (unit : BitVec 8) (s : State) : Host.Outcome State Fault Refusal :=
  .next (s.command h 0x0801 1 (markUnit unit.toNat (fun t => (t.cmpClear unit.toNat, {}))))

/-- MARK_HOLD (R323). -/
def execMarkHold (h : Hdr) (hold : BitVec 8) (s : State) : Host.Outcome State Fault Refusal :=
  .next (s.command h 0x0802 1 (markUnit 0 (fun t =>
    if 1 < hold.toNat then (t, .of stBadParam) else (t.markHold (hold == 1), {}))))

/-- CASS_AUTH: the reply follows at the end of the exchange (R348). -/
def execCassAuth (h : Hdr) (s : State) : Host.Outcome State Fault Refusal :=
  .next (s.command h 0x0803 1 (markUnit 0 (fun t => (t.authenticate, .later 0))))

/-- TAG_STATUS. -/
def execTagStatus (h : Hdr) (s : State) : Host.Outcome State Fault Refusal :=
  .next (s.command h 0x0804 0 (markUnit 0 (fun t =>
    (t, .ok (be 4 (t.peekReg (thB + F.TH_STATUS_CASS_OK.off)) ++ be 4 (t.getF thB F.CASS_COUNT_COUNT))))))

/-! ## Capture (R664, R672, R673) -/

/-- CAPTURE_FREEZE: the reply leaves at the freeze instant. -/
def execCaptureFreeze (h : Hdr) (s : State) : Host.Outcome State Fault Refusal :=
  .next (s.command h 0x0900 1 (fun t =>
    if !t.domOn 93 then (t, .of stPoweredOff)
    else if t.getF repB F.REPLAY_STATUS_STATE ≠ 1 then (t, .of stBusy)
    else (t.freezeTrigger, .later 0)))

/-- CAPTURE_REARM. -/
def execCaptureRearm (h : Hdr) (s : State) : Host.Outcome State Fault Refusal :=
  .next (s.command h 0x0901 2 (fun t =>
    if !t.domOn 93 then (t, .of stPoweredOff)
    else if t.getF repB F.REPLAY_STATUS_STATE ≠ 3 then (t, .of stBusy)
    else (t.rearm, {})))

/-! ## The fault log (R690) -/

/-- Read `n` log entries from index `i` on. -/
def State.readLog (s : State) : Nat → Nat → State × Except MemErr (List Byte)
  | 0, _ => (s, .ok [])
  | n + 1, i =>
    let r := s.memRead 1 (blockUnit cmdB) (s.getF fmB F.LOG_BASE_ADDR + i % 65536 * 64) 64
    match r.2 with
    | .error e => (r.1, .error e)
    | .ok bs =>
      let q := r.1.readLog n ((i + 1) % 2 ^ 32)
      (q.1, q.2.map (bs ++ ·))

/-- The entries that LOG_READ asks for (R690), of those from `old` up to before `nxt`. -/
def State.logFrom (s : State) (h : Hdr) (i count old nxt : Nat) : State × Reply :=
  if diff32 nxt old < diff32 i old then (s, .of stBadParam)
  else if !s.fits h (64 * min count (diff32 nxt i)) then (s, .of stBadLength)
  else
    let r := s.readLog (min count (diff32 nxt i)) i
    match r.2 with
    | .ok bs => (r.1, .ok bs)
    | .error .off => (r.1, .of stPoweredOff)
    | .error _ => (r.1, .of stMemErr)

/-- What LOG_READ answers. -/
def logRead (h : Hdr) (i count : Nat) (t : State) : State × Reply :=
  t.logFrom h i count (t.getF fmB F.LOG_OLDEST_INDEX) (t.getF fmB F.LOG_NEXT_INDEX)

/-- LOG_READ. -/
def execLogRead (h : Hdr) (index : BitVec 32) (count : BitVec 16) (s : State) : Host.Outcome State Fault Refusal :=
  .next (s.command h 0x0A00 0 (logRead h index.toNat count.toNat))

/-- LOG_CLEAR: every entry is discarded, INDEX runs on. -/
def execLogClear (h : Hdr) (s : State) : Host.Outcome State Fault Refusal :=
  .next (s.command h 0x0A01 2 (fun t => (t.setF fmB F.LOG_OLDEST_INDEX (t.getF fmB F.LOG_NEXT_INDEX), {})))

/-! ## Self-test and fault injection (R689) -/

/-- Units of a class: 1 channel (spares are 128 to 135), 2 lane, 3 Ethernet port, 5 core pair, 6 tally engine, 7 GDDR7 device. -/
def unitCount (cls : Nat) : Nat :=
  if cls = 1 then 136 else if cls = 2 then 128 else if cls = 3 then 2 else if cls = 5 then 2 else if cls = 6 then 128
  else if cls = 7 then 16 else 0

/-- The domain of a unit. -/
def unitDomain (cls i : Nat) : Nat :=
  if cls = 1 then (if i < 128 then i / 4 else 64 + 3 * (i - 128))
  else if cls = 2 then 32 + i / 4
  else if cls = 3 then (if i = 0 then 90 else 92)
  else if cls = 5 then 88 + i
  else if cls = 6 then 65 + 3 * (i / 16)
  else memDom i

/-- Whether a unit serves a running group. -/
def State.unitServes (s : State) (cls i : Nat) : Bool :=
  if cls = 1 then
    if i < 128 then (s.groupOf i).isSome
    else s.getF (spareB (i - 128)) F.SPARE_STATUS_STATE == 1 && (s.groupOf (s.getF (spareB (i - 128)) F.SPARE_STATUS_FOR)).isSome
  else if cls = 2 then (s.fedBy i).any (fun ch => (s.groupOf ch).isSome)
  else if cls = 5 then s.anyRunning && s.getF coreB F.CORE_STATUS_ACTIVE == i
  else if cls = 6 then s.runningGroups.any (fun g => s.flag (gtalB g) F.TALLY_CTRL_TALLY_EN && s.inMask g i)
  else s.runningGroups.any (fun g => s.groupUses g (memDom i))

/-- SELFTEST: RESULT is a free value, 0 for a pass; a failure writes its log entry (R689, R713; log entry 31). -/
def execSelftest (h : Hdr) (cls : BitVec 8) (index : BitVec 16) (s : State) : Host.Outcome State Fault Refusal :=
  .next (s.command h 0x0A02 3 (fun t =>
    let c := cls.toNat
    let i := index.toNat
    if c = 3 ∨ unitCount c ≤ i then (t, .of stBadParam)
    else if !t.domOn (unitDomain c i) then (t, .of stPoweredOff)
    else if t.unitServes c i then (t, .of stBusy)
    else
      let r := (Config.freeBits 32 t.freeCtr).toNat
      let t := t.tickFree
      (if r = 0 then t else t.logAs .selftestFail 2 0 i 0xFF [], .ok (be 4 r))))

/-- A fault of the spare of region `r`. That of an idle spare is logged as the channel it is by number (R19, R682; DEDUCED, log
entry 67). -/
def State.spareFails (s : State) (r : Nat) : State :=
  if s.getF (spareB r) F.SPARE_STATUS_STATE = 1 then s.channelFails (s.getF (spareB r) F.SPARE_STATUS_FOR)
  else (s.setF (spareB r) F.SPARE_STATUS_STATE 2).logReg .channelLost (128 + r) 0xFF (spareB r)

/-- The covered fault of a class in a unit (R682, R689). -/
def State.inject (s : State) (cls i : Nat) : State :=
  if cls = 1 then (if i < 128 then s.channelFails i else s.spareFails (i - 128))
  else if cls = 2 then (if 2 ≤ s.laneState i then s.laneRemove i else s)
  else if cls = 3 then (if s.linkIsUp i then s.linkFall i false else s)
  else if cls = 5 then s.coreFault i
  else if cls = 6 then s.engineFails i F.TE_STATUS_PARITY
  else if s.mcState i = 2 then s.memFail i
  else s

/-- FAULT_INJECT: only while DEBUG_LOCK is intact. -/
def execFaultInject (h : Hdr) (cls : BitVec 8) (index : BitVec 16) (s : State) : Host.Outcome State Fault Refusal :=
  .next (s.command h 0x0A03 3 (fun t =>
    let c := cls.toNat
    let i := index.toNat
    if t.debugLocked then (t, .of stNotPermitted)
    else if unitCount c ≤ i then (t, .of stBadParam)
    else if !t.domOn (unitDomain c i) then (t, .of stPoweredOff)
    else (t.inject c i, {})))

end Sys2Proof.Machine
end

