-- ==== Sys2Proof/Machine/PowerCommands.lean ====
section
/-!
DEFINITION. Power and reset commands (11_cast_on R443 to R448, 12_clocks_power R464, R468 to R474, 01_architecture R22, R23):
the rows POWER_STATE, DOMAIN_POWER, BIND_OFF, BIND_OFF_FLUSH_END and RESET.
-/

namespace Sys2Proof.Machine

/-! ## POWER_STATE (R470 to R474) -/

/-- What a request of a power state does (R474): transitions that R470 does not list answer BUSY. The reply of a return to
RUN waits for READY, those of STANDBY and SLEEP leave first. -/
def State.powerTo (t : State) (code : Nat) : State × Reply :=
  if code < 1 ∨ 4 < code then (t, .of stBadParam)
  else if t.reRunning || t.power.bind then (t, .of stBusy)
  else if t.pwrState = 1 ∧ code = 2 then (if t.timerRuns then (t, .of stBusy) else (t.idleEnter, {}))
  else if t.pwrState = 2 ∧ code = 1 then (t.idleEnd, {})
  else if t.pwrState = 1 ∧ code = 3 then
    if t.anyRunning then (t, .of stBusy) else (t, { after := (·.standbyEnter) })
  else if t.pwrState = 3 ∧ code = 1 ∧ !t.boot.resume then ({ t with boot := { t.boot with resume := true } }, .later 0)
  else if t.pwrState = 3 ∧ code = 4 ∧ !t.boot.resume then (t, { after := fun u => u.transmitAll.sleepEnter })
  else (t, .of stBusy)

/-- POWER_STATE. -/
def execPowerState (h : Hdr) (state : BitVec 8) (s : State) : Host.Outcome State Fault Refusal :=
  .next (s.command h 0x0B00 2 (fun t => t.powerTo state.toNat))

/-! ## DOMAIN_POWER (R468, R469) -/

/-- Power a domain off: an armed group that it would serve is disarmed, one that drains through it drains no more, and the link
of a port's domain falls first. -/
def State.powerOff (t : State) (d : Nat) : State :=
  let t := forL ((List.range 16).filter (fun g => (t.g g).st != 0 && t.groupUses g d)) (fun g u => u.endGroup g) t
  let t := if d = 90 ∧ t.linkIsUp 0 then t.linkFall 0 false else if d = 92 ∧ t.linkIsUp 1 then t.linkFall 1 false else t
  t.domainOff d

/-- What DOMAIN_POWER does; a loom domain is not powered in STANDBY (R470). -/
def State.domainPower (t : State) (d : Nat) (on : Bool) (port : Nat) : State × Reply :=
  if on then
    if t.domOn d then (t, {})
    else if d < 88 ∧ t.pwrState = 3 then (t, .of stBusy)
    else
      let path := (t.powerPath d).filter (fun x => !t.power.queue.contains x)
      ({ t with power := { t.power with queue := t.power.queue ++ path } }, .later d)
  else if !t.domOn d then (t, {})
  else if t.domOffBusy d port then (t, .of stBusy)
  else (t.powerOff d, {})

/-- DOMAIN_POWER. -/
def execDomainPower (h : Hdr) (domain on : BitVec 8) (s : State) : Host.Outcome State Fault Refusal :=
  .next (s.command h 0x0B01 2 (fun t =>
    if 96 ≤ domain.toNat ∨ 1 < on.toNat then (t, .of stBadParam)
    else t.domainPower domain.toNat (on == 1) h.port.val))

/-! ## BIND_OFF (R444, R445) -/

/-- Steps 1 and 2 of R445. -/
def State.bindStart (s : State) : State :=
  let s := s.announce 3
  let s := { s.setF devB F.CAST_STATUS_BINDING 1 with power := { s.power with bind := true } }
  (s.setF devB F.CAST_STATUS_BIND_DONE 0).rerunStop.stopAll

/-- BIND_OFF: bind-off starts once its reply has left. -/
def execBindOff (h : Hdr) (s : State) : Host.Outcome State Fault Refusal :=
  .next (s.command h 0x0B02 2 (fun t =>
    if t.power.bind || t.boot.resume then (t, .of stBusy) else (t, { after := (·.bindStart) })))

/-- Result records that have not been sent: those not yet released, and those a network subscriber has not been sent. -/
def State.recordsUnsent (s : State) : Nat :=
  let rings := ((List.range 16).flatMap s.resRings).eraseDups
  let left := rings.map (fun r =>
    let subs := (s.ring r).subs.filterMap (fun k => (Tab.find k s.subs).bind (fun b => match b.who with
      | .net .. => some b.sent
      | .block _ => none))
    diff32 (s.ring r).prod (farthest (s.ring r).prod subs) / 2)
  left.sum + (s.tal.map (fun (e : Nat × TalGrp) => e.2.jobs.length + e.2.done.length)).sum

/-- Entries of compare units that are still held, the late ones among them, and tag jobs that are still queued. -/
def State.marksLeft (s : State) : Nat := (s.cmp.map (fun (e : Nat × Cmp) => e.2.list.length + e.2.late.length)).sum
def State.tagsLeft (s : State) : Nat :=
  s.tag.autoQ.length + s.tag.again.length + (if s.thOn then s.avail (s.getF thB F.TH_JOB_RING_RING) thB else 0)

/-- BIND_OFF_FLUSH_END: everything has drained, or FLUSH_TMO has expired: steps 4 to 6 of R445. -/
def execBindOffFlushEnd (s : State) : Host.Outcome State Fault Refusal :=
  .next (if s.power.bind then
    let payload := le 4 s.marksLeft ++ le 4 s.tagsLeft ++ le 4 s.recordsUnsent
    let s := forL (s.cmp.map (·.1)) (fun u t => t.cmpClear u) s
    let s := { s with tag := { s.tag with autoQ := [], again := [] } }
    let s := if s.thOn then s.take (s.getF thB F.TH_JOB_RING_RING) thB (s.avail (s.getF thB F.TH_JOB_RING_RING) thB) else s
    let s := forN 16 (fun g t => t.forceStop g) s
    let s := s.rerunEnd
    let s := (forN 128 (fun l t => t.laneIdle l) s).loomOff
    let s := s.log .bindOff 0 0xFF payload
    let s := (s.setF devB F.CAST_STATUS_BINDING 0).setF devB F.CAST_STATUS_BIND_DONE 1
    let s := s.setF pwrB F.PWR_STATE_STATE 3
    { s with power := { s.power with bind := false } }
  else s)

/-! ## RESET (R22, R23, R464) -/

/-- Whether a field key lies in the pipeline of channel `ch`: its window but for the lane registers. -/
def keyOfPipe (ch k : Nat) : Bool := chOfAddr (k / 64) == some ch && decide (chB ch + 0x100 ≤ k / 64)

/-- Whether a field key lies in the block at base `b` of `n` bytes. -/
def keyIn (b n k : Nat) : Bool := decide (b ≤ k / 64) && decide (k / 64 < b + n)

/-- The fields that a test picks go to their Reset values, both banks of each P field (R6); "image" fields keep theirs. -/
def State.resetKeys (s : State) (p : Nat → Bool) : State :=
  let keep := fun (e : Nat × Nat) => !p e.1 || imageKeys.contains e.1
  { s with regs := s.regs.filter keep, act := s.act.filter keep, shd := s.shd.filter keep }

/-- The course that the next boundary of a group opens. -/
def State.nextOpen (s : State) (g : Nat) : Nat :=
  match (s.g g).openC with
  | some k => k + 1
  | none => 0

/-- A channel whose JOINED resets leaves its group from the next course on (R6, R119). -/
def State.resetJoin (s : State) (ch : Nat) : State :=
  match s.groupOf ch with
  | some g => if s.joined ch then s.chanLeave g ch (s.nextOpen g) else s
  | none => s

/-- Reset of a channel pipeline: its registers, and it leaves its group. What its stages have committed to its cluster's
buffer bank, and what region storage holds for it, lie outside the unit and stay (R23, R146, R683): its lines, the corrected
lines its neighbour waits for, offsets, output and statistics, its gauge tables and their requests. -/
def State.resetChan (s : State) (ch : Nat) : State := ((s.resetJoin ch).resetKeys (keyOfPipe ch)).gaugePend ch

/-- Reset of a lane: it is OFF, with its registers at their Reset values. -/
def State.resetLane (s : State) (l : Nat) : State := ((s.laneEn l false).resetKeys (keyIn (ingB l) 0x100)).clearLane l

/-- What a cluster's buffer bank holds of a channel is cleared: its lines, its statistics and the state of its seam stage.
Corrected lines that wait for the seam pass it masked (DESIGN CHOICE, log entry 67). -/
def State.resetLines (s : State) (ch : Nat) : State :=
  let x := s.ch ch
  let fill := s.getF (ingB ch) F.ING_CFG_FILL
  let s := s.setCh ch
    { x with
      lines := []
      uppers := []
      lowerBad := []
      out := x.out.map (fun o => (o.1, maskedPix fill o.2))
      statRaw := none
      statCor := none }
  s.setSm ch { next := (s.sm ch).next }

/-- The stamped inputs on their way to the channels of which `p` holds: a reset flushes its half of their queues, and the sender
sends them again (R463, R464). -/
def State.flushed (s : State) (p : Nat → Bool) : Nat :=
  (s.flight.filter (fun i => (s.runChans i.grp).any p)).length

/-- The lines in the ingest slots of the channels of cluster `c` that have not started. -/
def State.slotLines (s : State) (c : Nat) : Nat :=
  ((List.range 4).map (fun i => let x := s.ch (4 * c + i)
    (x.lines.filter (fun l => !l.missing && decide (x.next ≤ l.course))).length + x.uppers.length)).sum

/-- The entries that a reset of cluster `c` flushes. -/
def State.flushOf (s : State) (c : Nat) : Nat := s.flushed (fun ch => ch / 4 == c) + s.slotLines c

/-- Entries flushed by a reset are counted in the block that owns them (R464, R481). -/
def State.countFlush (s : State) (c n : Nat) : State := s.satF (clB c) F.CL_FLUSH_COUNT n

/-- Reset of a cluster: its channels, its lane quad, its buffer bank and its seam-link endpoints; its pixel work goes on. -/
def State.resetCluster (s : State) (c : Nat) : State :=
  let n := s.flushOf c
  let s := forN 4 (fun i t => ((t.resetLane (4 * c + i)).resetChan (4 * c + i)).resetLines (4 * c + i)) s
  let s := (s.resetKeys (keyIn (clB c) 0x10000)).countFlush c n
  let s := (s.showDom c (s.domOn c)).showDom (32 + c) (s.domOn (32 + c))
  { s with stopped := clrBit s.stopped c }

/-- Reset of one channel by command: the inputs on their way to it are flushed and counted (R464). -/
def State.resetPipe (s : State) (ch : Nat) : State := (s.resetChan ch).countFlush (ch / 4) (s.flushed (· == ch))

/-- The jobs of the engines that a test picks go back to their dispatchers. -/
def State.freeJobs (s : State) (mine : Nat → Bool) : State :=
  { s with tal := s.tal.map (fun (e : Nat × TalGrp) => (e.1, { e.2 with
      jobs := e.2.jobs.map (fun j => match j.engine with
        | some k => if mine k then { j with engine := none } else j
        | none => j) })) }

/-- Reset of a tally engine: its job goes back to the dispatcher. -/
def State.resetEngine (s : State) (e : Nat) : State := (s.freeJobs (· == e)).resetKeys (keyIn (teB e) 0x100)

/-- Reset of a GDDR7 controller: its memory keeps what it holds, its requests under way are dropped, and it serves again. A
failed device stays failed (R502). -/
def State.resetMc (s : State) (d : Nat) : State :=
  let st := if s.mcState d = 3 then 3 else 2
  let s := (s.resetKeys (keyIn (mcB d) 0x10000)).setF (mcB d) F.MC_STATUS_STATE st
  { s with
    retrain := s.retrain.filter (fun (e : Nat × Nat × Nat) => e.1 / 4 != d)
    memQ := s.memQ.filter (fun q => q.dev != d) }.mirrorShow (d / 2)

/-- Reset of a codec lane: the host job in it begins again. -/
def State.resetCodec (s : State) (k l : Nat) : State :=
  match s.hkJob k l with
  | some j => if j.blocks = 0 ∧ j.pos = 0 then s else s.setJob k l { j with blocks := 0, used := 0, pos := 0, fail := 0, status := none }
  | none => s

/-- Reset of a region: everything in its window. -/
def State.resetRegion (s : State) (r : Nat) : State :=
  let n := (List.range 4).map (fun i => s.flushOf (4 * r + i))
  let s := forN 4 (fun i t => t.resetCluster (4 * r + i)) s
  let s := forN 16 (fun i t => t.restoreChan (16 * r + i)) s
  let s := (s.freeJobs (fun e => e / 16 == r)).hkStop r
  let s := s.resetKeys (keyIn (0x10000000 + r * 0x1000000) 0x1000000)
  let s := forN 4 (fun i t => t.countFlush (4 * r + i) (n.getD i 0)) s
  let s := forN 4 (fun i t => (t.showDom (4 * r + i) (t.domOn (4 * r + i))).showDom (32 + 4 * r + i) (t.domOn (32 + 4 * r + i))) s
  let s := if s.domOn (66 + 3 * r) then
      (forL [2 * r, 2 * r + 1] (fun d t => t.setF (mcB d) F.MC_STATUS_STATE 2) s).mirrorShow r
    else s
  { s with
    hank := s.hank.filter (fun (e : Nat × HankJob) => e.1 / 64 != r)
    retrain := s.retrain.filter (fun (e : Nat × Nat × Nat) => e.1 / 8 != r)
    memQ := s.memQ.filter (fun q => q.dev / 2 != r)
    boot := { s.boot with
      avail := if s.domOn (64 + 3 * r) then setBit s.boot.avail r else s.boot.avail
      faulty := clrBit s.boot.faulty r } }

/-- The links of a loom die (R480). -/
def linksOf (d : Nat) : List Nat := d :: ((if d = 0 then [] else [3 + d]) ++ if d = 3 then [] else [4 + d])

/-- Reset of a loom die: its two regions; the other side of each of its links sees the reset (R464). -/
def State.resetDie (s : State) (d : Nat) : State :=
  let s := (s.resetRegion (2 * d)).resetRegion (2 * d + 1)
  forL (linksOf d) (fun l t => t.mark (dlB l) F.LINK_STATUS_RESET_SEEN) s

/-- A unit by its INDEX (log entry 32): the power domain it lies in and its reset. -/
def resetUnit (i : Nat) : Option (Nat × (State → State)) :=
  if i < 128 then some (i / 4, fun t => t.resetPipe i)
  else if i < 136 then some (64 + 3 * (i - 128), fun t => t.resetKeys (keyIn (spareB (i - 128)) 0x10000))
  else if i < 264 then some (65 + 3 * ((i - 136) / 16), fun t => t.resetEngine (i - 136))
  else if i < 280 then some (66 + 3 * ((i - 264) / 2), fun t => t.resetMc (i - 264))
  else if i < 408 then some (32 + (i - 280) / 4, fun t => t.resetLane (i - 280))
  else if i < 664 then some (hkDom ((i - 408) / 32), fun t => t.resetCodec ((i - 408) / 32) ((i - 408) % 32))
  else if i < 680 then some (93, fun t => t.resetCodec 8 (i - 664))
  else none

/-- RESET: level 0 a unit, 1 a cluster, 2 a region, 3 a loom die. -/
def execReset (h : Hdr) (level : BitVec 8) (index : BitVec 16) (s : State) : Host.Outcome State Fault Refusal :=
  .next (s.command h 0x0B03 3 (fun t =>
    let i := index.toNat
    match level.toNat with
    | 0 =>
      match resetUnit i with
      | none => (t, .of stBadParam)
      | some (d, f) => if t.domOn d then (f t, {}) else (t, .of stPoweredOff)
    | 1 => if 32 ≤ i then (t, .of stBadParam) else if t.domOn i then (t.resetCluster i, {}) else (t, .of stPoweredOff)
    | 2 => if 8 ≤ i then (t, .of stBadParam) else if t.domOn (64 + 3 * i) then (t.resetRegion i, {}) else (t, .of stPoweredOff)
    | 3 => if 4 ≤ i then (t, .of stBadParam)
      else if t.domOn (64 + 6 * i) || t.domOn (67 + 6 * i) then (t.resetDie i, {}) else (t, .of stPoweredOff)
    | _ => (t, .of stBadParam)))

end Sys2Proof.Machine
end

