-- ==== Sys2Proof/Machine/Frames.lean ====
section
/-!
DEFINITION. Received Ethernet frames (16_network_time R566 to R577, R595 to R597; 09_commands R354 to R366): acceptance, PRP,
the address protocols, PTP, announcements, and the command datagrams with the checks of R366 from step 1 on. The forms of the
standard protocols are log entries 20 and 22. The command ETH_FRAME_RECEIVED.
-/

namespace Sys2Proof.Machine

/-! ## Command datagrams -/

/-- The state a command leaves. -/
def resultOr (s : State) : Host.Outcome State Fault Refusal → State
  | .next t => t
  | _ => s

/-- Role, bytes of parameters, and the unit by which the parameters may be longer (0: exact) of an opcode (R381). -/
def opShape : List (Nat × Nat × Nat × Nat) :=
  [(0x0100, 0, 0, 0), (0x0101, 0, 20, 0), (0x0102, 0, 0, 0), (0x0103, 0, 0, 0), (0x0104, 2, 0, 0), (0x0105, 3, 2, 0),
    (0x0200, 0, 8, 0), (0x0201, 2, 8, 4), (0x0202, 2, 16, 0), (0x0203, 1, 16, 0), (0x0204, 2, 1, 0), (0x0205, 0, 1, 0),
    (0x0300, 1, 2, 0), (0x0301, 1, 1, 0), (0x0302, 0, 1, 0), (0x0303, 1, 20, 0), (0x0304, 2, 8, 8), (0x0305, 2, 2, 0),
    (0x0306, 2, 0, 0)] ++
  [(0x0400, 2, 16, 0), (0x0401, 2, 4, 0), (0x0402, 0, 24, 0), (0x0403, 0, 2, 0), (0x0404, 0, 10, 0), (0x0405, 0, 4, 0),
    (0x0406, 1, 8, 0), (0x0500, 2, 12, 0), (0x0501, 2, 8, 1), (0x0502, 2, 12, 0), (0x0503, 2, 1, 0), (0x0504, 0, 1, 0),
    (0x0600, 1, 2, 0), (0x0601, 0, 2, 0), (0x0602, 2, 2, 0), (0x0700, 0, 0, 0), (0x0701, 3, 12, 0), (0x0702, 0, 0, 0),
    (0x0703, 2, 1, 0)] ++
  [(0x0800, 1, 24, 0), (0x0801, 1, 1, 0), (0x0802, 1, 1, 0), (0x0803, 1, 0, 0), (0x0804, 0, 0, 0), (0x0900, 1, 0, 0),
    (0x0901, 2, 0, 0), (0x0902, 2, 4, 0), (0x0903, 2, 8, 0), (0x0904, 0, 0, 0), (0x0A00, 0, 6, 0), (0x0A01, 2, 0, 0),
    (0x0A02, 3, 3, 0), (0x0A03, 3, 3, 0), (0x0B00, 2, 1, 0), (0x0B01, 2, 2, 0), (0x0B02, 2, 0, 0), (0x0B03, 3, 4, 0)]

/-- Parameter fields, most significant byte first (R356). -/
def par8 (p : List Byte) (o : Nat) : BitVec 8 := BitVec.ofNat 8 (beAt p o 1)
def par16 (p : List Byte) (o : Nat) : BitVec 16 := BitVec.ofNat 16 (beAt p o 2)
def par32 (p : List Byte) (o : Nat) : BitVec 32 := BitVec.ofNat 32 (beAt p o 4)
def par64 (p : List Byte) (o : Nat) : BitVec 64 := BitVec.ofNat 64 (beAt p o 8)

/-- The commands with opcodes up to 0x03FF, with their parameters as R381 lays them out. -/
def State.runOpLow (s : State) (h : Hdr) (op : Nat) (p : List Byte) : Host.Outcome State Fault Refusal :=
  match op with
  | 0x0100 => execDeviceInfo h s
  | 0x0101 => execSessionOpen h (BitVec.ofNat 128 (beAt p 0 16)) (par16 p 16) (par16 p 18) s
  | 0x0102 => execSessionClose h s
  | 0x0103 => execKeepalive h s
  | 0x0104 => execSessionList h s
  | 0x0105 => execSessionKill h (par16 p 0) s
  | 0x0200 => execRegRead h (par32 p 0) (par16 p 4) (par8 p 6) s
  | 0x0201 => execRegWrite h (par32 p 0) (par16 p 4) (par8 p 6) ((chunks 4 p.length (p.drop 8)).map (fun w => par32 w 0)) s
  | 0x0202 => execRegModify h (par32 p 0) (par8 p 4) (par32 p 8) (par32 p 12) s
  | 0x0203 => execPatternSwap h (par8 p 0) (par8 p 1) (par64 p 8) s
  | 0x0204 => execPatternRevert h (par8 p 0) s
  | 0x0205 => execPatternStatus h (par8 p 0) s
  | 0x0300 => execGroupStart h (par8 p 0) (par8 p 1) s
  | 0x0301 => execGroupStop h (par8 p 0) s
  | 0x0302 => execGroupStatus h (par8 p 0) s
  | 0x0303 => execExposure h (par16 p 0) (par16 p 2) (par32 p 4) (par16 p 8) (par16 p 10) (par64 p 12) s
  | 0x0304 => execCameraCtrl h (par16 p 0) (par8 p 2) (par32 p 4) (par8 p 3) ((chunks 8 p.length (p.drop 8)).map (fun w => par64 w 0)) s
  | 0x0305 => execCameraIdent h (par16 p 0) s
  | 0x0306 => execAuxsync h s
  | _ => .next s

/-- The commands with opcodes from 0x0400 to 0x07FF. -/
def State.runOpMid (s : State) (h : Hdr) (op : Nat) (p : List Byte) : Host.Outcome State Fault Refusal :=
  match op with
  | 0x0400 => execRingConfig h (par32 p 0) (par64 p 4) (par8 p 12) (par8 p 13) s
  | 0x0401 => execRingRelease h (par32 p 0) s
  | 0x0402 => execRingSubscribe h (par32 p 0) (par16 p 4) (par16 p 6) (BitVec.ofNat 128 (beAt p 8 16)) s
  | 0x0403 => execRingUnsubscribe h (par16 p 0) s
  | 0x0404 => execRingRead h (par32 p 0) (par32 p 4) (par16 p 8) s
  | 0x0405 => execRingStatus h (par32 p 0) s
  | 0x0406 => execRingConsume h (par32 p 0) (par32 p 4) s
  | 0x0500 => execMemRead h (par64 p 0) (par32 p 8) s
  | 0x0501 => execMemWrite h (par64 p 0) (p.drop 8) s
  | 0x0502 => execDmaStart h (par8 p 0) (par64 p 4) s
  | 0x0503 => execDmaAbort h (par8 p 0) s
  | 0x0504 => execDmaStatus h (par8 p 0) s
  | 0x0600 => execCalRequest h (par16 p 0) s
  | 0x0601 => execCalStatus h (par16 p 0) s
  | 0x0602 => execLaneAdapt h (par16 p 0) s
  | 0x0700 => execTimeGet h s
  | 0x0701 => execTimeSet h (par64 p 0) (par32 p 8) s
  | 0x0702 => execPtpStatus h s
  | 0x0703 => execPtpPrefer h (par8 p 0) s
  | _ => .next s

/-- The commands with opcodes from 0x0800 on. -/
def State.runOpHigh (s : State) (h : Hdr) (op : Nat) (p : List Byte) : Host.Outcome State Fault Refusal :=
  match op with
  | 0x0800 => execMarkInsert h (par8 p 0) (par64 p 8) (par64 p 16) s
  | 0x0801 => execMarkClear h (par8 p 0) s
  | 0x0802 => execMarkHold h (par8 p 0) s
  | 0x0803 => execCassAuth h s
  | 0x0804 => execTagStatus h s
  | 0x0900 => execCaptureFreeze h s
  | 0x0901 => execCaptureRearm h s
  | 0x0902 => execBundleExport h (par32 p 0) s
  | 0x0903 => execRerunStart h (par64 p 0) s
  | 0x0904 => execRerunStatus h s
  | 0x0A00 => execLogRead h (par32 p 0) (par16 p 4) s
  | 0x0A01 => execLogClear h s
  | 0x0A02 => execSelftest h (par8 p 0) (par16 p 1) s
  | 0x0A03 => execFaultInject h (par8 p 0) (par16 p 1) s
  | 0x0B00 => execPowerState h (par8 p 0) s
  | 0x0B01 => execDomainPower h (par8 p 0) (par8 p 1) s
  | 0x0B02 => execBindOff h s
  | 0x0B03 => execReset h (par8 p 0) (par16 p 2) s
  | _ => .next s

/-- A command whose header, tag and PLEN agree with its datagram: steps 5 and on of R366. -/
def State.runOp (s : State) (h : Hdr) (op : Nat) (p : List Byte) : State :=
  match opShape.find? (fun o => o.1 == op) with
  | none => s.commandE h op 0 stBadOpcode (fun t => (t, {}))
  | some (_, role, len, unit) =>
    if p.length = len ∨ (unit ≠ 0 ∧ len ≤ p.length ∧ (p.length - len) % unit = 0) then
      resultOr s (if op < 0x0400 then s.runOpLow h op p else if op < 0x0800 then s.runOpMid h op p else s.runOpHigh h op p)
    else s.commandE h op role stBadLength (fun t => (t, {}))

/-- The header of a datagram (R358). -/
def dgramHdr (port : Fin 2) (addr udp : Nat) (m : List Byte) : Hdr :=
  { port := port
    addr := BitVec.ofNat 128 addr
    udp := BitVec.ofNat 16 udp
    session := BitVec.ofNat 16 (beAt m 4 2)
    role := BitVec.ofNat 8 (beAt m 6 1)
    group := BitVec.ofNat 8 (beAt m 7 1)
    seq := BitVec.ofNat 32 (beAt m 8 4)
    atCourse := bit (beAt m 3 1) 1
    course := BitVec.ofNat 64 (beAt m 16 8) }

/-- The tag of a datagram with PLEN `n` holds: the 16 bytes that follow the parameters, over all that precedes them (R355,
R359). -/
def tagHolds (k m : List Byte) (n : Nat) : Bool :=
  decide (n + 48 ≤ m.length) && tag16 k (m.take (32 + n)) == sliceB m (32 + n) 16

/-- A datagram at the command port: steps 1 to 4 of R366, then its command. -/
def State.cmdDgram (s : State) (port : Fin 2) (addr udp : Nat) (m : List Byte) : State :=
  if !s.portOpen then s
  else if m.length < 48 ∨ beAt m 0 2 ≠ 0x4859 ∨ beAt m 2 1 ≠ 1 ∨ bit (beAt m 3 1) 0 ∨ 3 < beAt m 6 1 then
    s.satF cmdB F.CMD_FRAME_DROP_COUNT 1
  else
    let h := dgramHdr port addr udp m
    let op := beAt m 12 2
    let n := beAt m 14 2
    let opens := op == 0x0101
    let role := s.roleKey h.role.toNat
    let sess := s.findSession h
    if sess.isNone && !(opens && h.session == 0) then s.deny h op stNoSession role
    else
      match (if opens then role else sess.map (s.sessKey ·)) with
      | none => s.deny h op stAuthFail none
      | some k =>
        if !tagHolds k m n then s.deny h op stAuthFail (some k)
        else
          let t := match sess with
            | some e => s.mapSession e.id (fun x => { x with heard := s.now })
            | none => s
          if m.length ≠ n + 48 ∨ (opens ∧ n ≠ 20) then t.quick h op stBadLength (some k) []
          else t.runOp h op (sliceB m 32 n)

/-! ## PTP messages (R595 to R597; IEEE 1588-2019, log entry 22) -/

/-- A timestamp of a message, in 2^-16 ns. -/
def ptpStamp (m : List Byte) : Int := Int.ofNat ((beAt m 34 6 * 1000000000 + beAt m 40 4) * 65536)

/-- The correction field of a message. -/
def ptpCorr (m : List Byte) : Int := toInt 64 (beAt m 8 8)

/-- The identity of the device's PTP port. -/
def State.ptpMe (s : State) : Nat := (s.mac / 2 ^ 24 * 2 ^ 40 + 0xFFFE * 2 ^ 24 + s.mac % 2 ^ 24) * 65536 + 1

/-- A message other than Announce, of domain `d`, from its best master at a port. -/
def State.ptpOther (s : State) (d port : Nat) (m : List Byte) : State :=
  let e := (s.pt d).on port
  let ty := beAt m 0 1 % 16
  let seq := beAt m 30 2
  if ty = 0 then
    let t2 := s.rxStamp port
    if bit (beAt m 6 1) 1 then s.setEx d port { e with twoStep := some (seq, t2 - ptpCorr m) }
    else s.ptpSync d port (ptpStamp m + ptpCorr m) t2
  else if ty = 8 then
    match e.twoStep with
    | some (q, t2) =>
      if q = seq then (s.setEx d port { e with twoStep := none }).ptpSync d port (ptpStamp m + ptpCorr m) t2 else s
    | none => s
  else if ty = 9 then
    if m.length < 54 ∨ beAt m 44 10 ≠ s.ptpMe ∨ (seq + 1) % 65536 ≠ e.seq then s
    else (s.setPt d { s.pt d with reqLog := some (beAt m 33 1) }).ptpResp d port (ptpStamp m - ptpCorr m)
  else s

/-- A PTP message at a port over a transport: 0 IEEE 802.3, 1 IPv4, 2 IPv6. -/
def State.ptpFrame (s : State) (port trans : Nat) (m : List Byte) : State :=
  if !ptpOurs m then s
  else if beAt m 0 1 % 16 = 0xB then s.ptpAnnounceAll port trans m
  else forN 2 (fun d t =>
    if t.ptpEn d && (t.pt d).dom == beAt m 4 1 && (t.pt d).best == some (beAt m 20 10) then t.ptpOther d port m else t) s

/-! ## UDP, ICMP, IGMP and MLD (R570; log entry 20) -/

/-- A UDP datagram, from its header on: source and destination as 128-bit addresses; `sum` is the checksum that IPv6 and a
checksum other than 0 ask for. -/
def State.udpIn (s : State) (port : Fin 2) (src : Nat) (pseudo : List Byte) (m : List Byte) : State :=
  let n := beAt m 4 2
  if m.length < 8 ∨ n < 8 ∨ m.length < n then s
  else
    let m := m.take n
    let noSum := isV4 src && beAt m 6 2 == 0
    if !noSum && csum16 (pseudo ++ be 4 n ++ be 4 17 ++ m) != 0 then s
    else
      let dp := beAt m 2 2
      let data := m.drop 8
      if dp = 319 ∨ dp = 320 then s.ptpFrame port (if isV4 src then 1 else 2) data
      else if dp = s.getF cmdB F.CMD_CFG_UDP_PORT then s.cmdDgram port src (beAt m 0 2) data
      else if dp = s.getF devB F.ANN_CFG_ANN_PORT then (if s.boot.step = 10 then s.annReceived data else s)
      else s

/-- An IPv4 packet. An IGMP query may carry an option; any other packet with options, and
every fragment, is discarded. -/
def State.ip4In (s : State) (port : Fin 2) (m : List Byte) : State :=
  let ihl := beAt m 0 1 % 16 * 4
  let n := beAt m 2 2
  if m.length < 20 ∨ beAt m 0 1 / 16 ≠ 4 ∨ ihl < 20 ∨ n < ihl ∨ m.length < n ∨ csum16 (m.take ihl) ≠ 0 ∨ beAt m 6 2 % 0x4000 ≠ 0 then s
  else
    let proto := beAt m 9 1
    let src := beAt m 12 4
    let dst := beAt m 16 4
    let body := sliceB m ihl (n - ihl)
    let mine := dst == s.ip4 && s.ip4 != 0
    if proto = 2 then (if 8 ≤ body.length ∧ beAt body 0 1 = 0x11 ∧ csum16 body = 0 then
      forL (s.groups4.filter (fun g => beAt body 4 4 == 0 || beAt body 4 4 == g)) (fun g t => t.sendOn port 3 (.eth port none (t.igmpFrame g))) s
      else s)
    else if ihl ≠ 20 then s
    else if proto = 1 then
      if mine && decide (8 ≤ body.length) && beAt body 0 1 == 8 && csum16 body == 0 then
        let r := patchB (patchB body 0 [0]) 2 [0, 0]
        let r := patchB r 2 (be 2 (csum16 r))
        s.sendIp port 3 (v4Base + src) (ip4Packet s.ip4 src 1 64 [] r)
      else s
    else if proto = 17 && (mine || s.groups4.contains dst) then
      s.udpIn port (v4Base + src) (be 4 src ++ be 4 dst) body
    else s

/-- The link-layer address option of a neighbour message: the first option of type `ty` (R571). -/
def ndOption (ty : Nat) : Nat → List Byte → Option Nat
  | 0, _ => none
  | fuel + 1, bs =>
    if bs.length < 8 ∨ beAt bs 1 1 = 0 then none
    else if beAt bs 0 1 = ty then some (beAt bs 2 6) else ndOption ty fuel (bs.drop (8 * beAt bs 1 1))

/-- An ICMPv6 message. -/
def State.icmp6In (s : State) (port : Fin 2) (mac src dst : Nat) (m : List Byte) : State :=
  if m.length < 8 ∨ csum16 (be 16 src ++ be 16 dst ++ be 4 m.length ++ be 4 58 ++ m) ≠ 0 then s
  else
    let ty := beAt m 0 1
    if ty = 128 ∧ dst = s.ip6 then
      let r := patchB (patchB m 0 [129]) 2 [0, 0]
      s.sendIp port 3 src (ip6Packet s.ip6 src 58 64 (icmp6 s.ip6 src r))
    else if ty = 135 ∧ s.ip6 ≠ 0 ∧ beAt m 8 16 = s.ip6 then
      if src = 0 then
        let all := 0xFF020000000000000000000000000001
        s.sendOn port 3 (.eth port none (s.ndFrame 136 s.ip6 all (mac6 all) 1))
      else
        let s := match ndOption 1 8 (m.drop 24) with
          | some a => s.learn src a
          | none => s
        s.sendOn port 3 (.eth port none (s.ndFrame 136 s.ip6 src mac 3))
    else if ty = 136 then
      match ndOption 2 8 (m.drop 24) with
      | some a => s.learn (beAt m 8 16) a
      | none => s
    else if ty = 130 then (if s.groups6.isEmpty then s else s.sendOn port 3 (.eth port none (s.mldFrame 2)))
    else s

/-- An IPv6 packet. A packet with extension headers is discarded, but for the router alert of an MLD query. -/
def State.ip6In (s : State) (port : Fin 2) (mac : Nat) (m : List Byte) : State :=
  let n := beAt m 4 2
  if s.ip6 = 0 ∨ m.length < 40 ∨ beAt m 0 1 / 16 ≠ 6 ∨ m.length < 40 + n then s
  else
    let next := beAt m 6 1
    let src := beAt m 8 16
    let dst := beAt m 24 16
    let body := sliceB m 40 n
    if next = 58 then s.icmp6In port mac src dst body
    else if next = 0 then
      if beAt body 0 1 = 58 ∧ beAt body 1 1 = 0 ∧ beAt body 8 1 = 130 then s.icmp6In port mac src dst (body.drop 8) else s
    else if next = 17 && ((dst == s.ip6 && s.ip6 != 0) || s.groups6.contains dst) then
      s.udpIn port src (be 16 src ++ be 16 dst) body
    else s

/-- An ARP message: a request for the device's address is answered; requests and replies to the device tell the sender's
MAC address. -/
def State.arpIn (s : State) (port : Fin 2) (m : List Byte) : State :=
  if m.length < 28 ∨ beAt m 0 2 ≠ 1 ∨ beAt m 2 2 ≠ 0x0800 ∨ beAt m 4 2 ≠ 0x0604 ∨ s.ip4 = 0 ∨ beAt m 24 4 ≠ s.ip4 then s
  else
    let from' := beAt m 14 4
    let mac := beAt m 8 6
    let s := if from' = 0 then s else s.learn (v4Base + from') mac
    if beAt m 6 2 = 1 then s.sendOn port 3 (.eth port none (s.arpBytes 2 from' mac mac)) else s

/-! ## Acceptance (R567, R569, R576) -/

/-- The destination addresses the device takes (R569), with those to which membership queries are sent (R570; log entry
33). -/
def State.macMine (s : State) (a : Nat) : Bool :=
  a == s.mac || a == 2 ^ 48 - 1 || a == 0x011B19000000 || s.groups4.any (fun g => mac4 g == a) ||
    s.groups6.any (fun g => mac6 g == a) || (s.flag netB F.NET_CTRL_PRP_EN && a == 0x01154E000100) ||
    (s.ip4 != 0 && a == mac4 0xE0000001) || (s.ip6 != 0 && a == mac6 1)

/-- The frame without its FCS and tag, where the tag is as R569 asks for: destination, source, EtherType and what follows. -/
def State.untag (s : State) (frame : List Byte) : Option (List Byte) :=
  let b := frame.take (frame.length - 4)
  let tagged := beAt b 12 2 == 0x8100
  if s.flag netB F.NET_CTRL_VLAN_EN then
    if tagged && beAt b 14 2 % 4096 == s.getF netB F.NET_CTRL_VID && beAt b 16 2 != 0x8100 then some (b.take 12 ++ b.drop 16) else none
  else if tagged then none else some b

/-- The sequence number and LAN identifier of a PRP trailer, where the frame has one: it ends in the suffix, names LAN A or B, and
gives the size of what follows the EtherType (R576; form of IEC 62439-3, log entry 20). -/
def rctOf (b : List Byte) : Option (Nat × Nat) :=
  let n := b.length
  let lan := beAt b (n - 4) 1 / 16
  if 20 ≤ n ∧ beAt b (n - 2) 2 = 0x88FB ∧ (lan = 0xA ∨ lan = 0xB) ∧ beAt b (n - 4) 2 % 4096 = (n - 14) % 4096 then
    some (beAt b (n - 6) 2, lan)
  else none

/-- Duplicate discard (R576): the state, and whether the frame is discarded. -/
def State.prpCheck (s : State) (port src : Nat) (b : List Byte) : State × Bool :=
  match (if s.flag netB F.NET_CTRL_PRP_EN then rctOf b else none) with
  | none => (s, false)
  | some (seq, lan) =>
    let s := if lan = 0xA + port then s else s.satF netB F.PRP_WRONG_LAN_COUNT 1
    let live := s.net.prpSeen.filter (fun e => decide (s.now < e.2.2 + 100000000))
    if live.any (fun e => e.1 == src && e.2.1 == seq) then
      ({ s with net := { s.net with prpSeen := live } }.satF netB F.PRP_DUP_COUNT 1, true)
    else
      let kept := if live.length < 4096 then live else live.drop 1
      ({ s with net := { s.net with prpSeen := kept ++ [(src, seq, s.now)] } }, false)

/-- An accepted frame goes to its protocol. -/
def State.frameIn (s : State) (port : Fin 2) (b : List Byte) : State :=
  let mac := beAt b 6 6
  let body := b.drop 14
  match beAt b 12 2 with
  | 0x0806 => s.arpIn port body
  | 0x0800 => s.ip4In port body
  | 0x86DD => s.ip6In port mac body
  | 0x88F7 => s.ptpFrame port 0 body
  | _ => s

/-- ETH_FRAME_RECEIVED: `frame` runs from the destination address to the FCS; `fcsOk` tells whether the FCS is good. A port
whose link is down receives nothing. -/
def execEthFrameReceived (port : Fin 2) (frame : List Byte) (fcsOk : Bool) (s : State) : Host.Outcome State Fault Refusal :=
  let p := port.val
  .next (if !s.linkIsUp p then s
    else
      let top := if s.flag (ethB p) F.ETH_CTRL_JUMBO then 9216 else 1522
      let drop := s.satF (ethB p) F.RX_DROP_COUNT 1
      if frame.length < 64 ∨ top < frame.length ∨ !fcsOk then drop
      else
        match s.untag frame with
        | none => drop
        | some b =>
          if !s.macMine (beAt b 0 6) || beAt b 12 2 == 0x8808 then drop
          else
            let s := s.incF (ethB p) F.RX_FRAMES_COUNT 1
            let r := s.prpCheck p (beAt b 6 6) b
            if r.2 then r.1 else r.1.frameIn port b)

end Sys2Proof.Machine
end

