-- ==== Sys2Proof/Machine/Dispatch.lean ====
section
/-! DEFINITION. The meaning of each command of the opcode table: one arm per constructor. -/

namespace Sys2Proof.Machine

/-- The effect of a command on everything but the queue. -/
def exec (i : Instr) (s : State) : Host.Outcome State Fault Refusal :=
  match i with
  | .pornRise fusesAgree fails => Sys2Proof.Machine.execPornRise fusesAgree fails s
  | .pornFall => Sys2Proof.Machine.execPornFall s
  | .aonUndervolt => Sys2Proof.Machine.execAonUndervolt s
  | .xaStableDelayEnd hz => Sys2Proof.Machine.execXaStableDelayEnd hz s
  | .castOnWatchdog => Sys2Proof.Machine.execCastOnWatchdog s
  | .ready => Sys2Proof.Machine.execReady s
  | .announcePeriodic => Sys2Proof.Machine.execAnnouncePeriodic s
  | .degradedChange => Sys2Proof.Machine.execDegradedChange s
  | .announceReceived frame => Sys2Proof.Machine.execAnnounceReceived frame s
  | .fuseProgGo bit => Sys2Proof.Machine.execFuseProgGo bit s
  | .fuseProgDone readsOne => Sys2Proof.Machine.execFuseProgDone readsOne s
  | .xspiRead => Sys2Proof.Machine.execXspiRead s
  | .xspiProgram => Sys2Proof.Machine.execXspiProgram s
  | .xspiErase => Sys2Proof.Machine.execXspiErase s
  | .xspiDone err => Sys2Proof.Machine.execXspiDone err s
  | .extest => Sys2Proof.Machine.execExtest s
  | .samplePreload => Sys2Proof.Machine.execSamplePreload s
  | .idcode => Sys2Proof.Machine.execIdcode s
  | .dbgAccess write mem addr data => Sys2Proof.Machine.execDbgAccess write mem addr data s
  | .scanTest => Sys2Proof.Machine.execScanTest s
  | .highz => Sys2Proof.Machine.execHighz s
  | .clamp => Sys2Proof.Machine.execClamp s
  | .bypass => Sys2Proof.Machine.execBypass s
  | .lockstepFault => Sys2Proof.Machine.execLockstepFault s
  | .encoderTransition p pins => Sys2Proof.Machine.execEncoderTransition p pins s
  | .hallSpeedTimeout p => Sys2Proof.Machine.execHallSpeedTimeout p s
  | .posRunSet p => Sys2Proof.Machine.execPosRunSet p s
  | .serFrameRequest p => Sys2Proof.Machine.execSerFrameRequest p s
  | .serFrameReceived p err pos crc => Sys2Proof.Machine.execSerFrameReceived p err pos crc s
  | .serTimeout p => Sys2Proof.Machine.execSerTimeout p s
  | .speedWindowEnd p => Sys2Proof.Machine.execSpeedWindowEnd p s
  | .indexEvent e => Sys2Proof.Machine.execIndexEvent e s
  | .courseTimerExpiry g => Sys2Proof.Machine.execCourseTimerExpiry g s
  | .overrateDelayEnd g => Sys2Proof.Machine.execOverrateDelayEnd g s
  | .coursesyncEdge => Sys2Proof.Machine.execCoursesyncEdge s
  | .courseClose g => Sys2Proof.Machine.execCourseClose g s
  | .stampedInputArrival cls source => Sys2Proof.Machine.execStampedInputArrival cls source s
  | .losAssert l => Sys2Proof.Machine.execLosAssert l s
  | .losClear l => Sys2Proof.Machine.execLosClear l s
  | .insertDebounce l => Sys2Proof.Machine.execInsertDebounce l s
  | .blockLock l bad => Sys2Proof.Machine.execBlockLock l bad s
  | .lockLoss l bad => Sys2Proof.Machine.execLockLoss l bad s
  | .lolGraceExpiry l => Sys2Proof.Machine.execLolGraceExpiry l s
  | .losRemoveTimeout l => Sys2Proof.Machine.execLosRemoveTimeout l s
  | .trainingFrameReceived l trn ready => Sys2Proof.Machine.execTrainingFrameReceived l trn ready s
  | .trainingTimeout l => Sys2Proof.Machine.execTrainingTimeout l s
  | .failedRetry l => Sys2Proof.Machine.execFailedRetry l s
  | .lockingTimeout l => Sys2Proof.Machine.execLockingTimeout l s
  | .identTimeout l => Sys2Proof.Machine.execIdentTimeout l s
  | .identReceived l words => Sys2Proof.Machine.execIdentReceived l words s
  | .linePacketReceived l words cut => Sys2Proof.Machine.execLinePacketReceived l words cut s
  | .cameraDataPacket l words cut => Sys2Proof.Machine.execCameraDataPacket l words cut s
  | .controlReplyReceived l words => Sys2Proof.Machine.execControlReplyReceived l words s
  | .controlReplyTimeout l tag => Sys2Proof.Machine.execControlReplyTimeout l tag s
  | .idleEntReceived l => Sys2Proof.Machine.execIdleEntReceived l s
  | .alignReceived l block => Sys2Proof.Machine.execAlignReceived l block s
  | .lineTimeout l => Sys2Proof.Machine.execLineTimeout l s
  | .laneEnable l on => Sys2Proof.Machine.execLaneEnable l on s
  | .laneIdleReq l => Sys2Proof.Machine.execLaneIdleReq l s
  | .laneWakeReq l => Sys2Proof.Machine.execLaneWakeReq l s
  | .wakeBurstTimeout l => Sys2Proof.Machine.execWakeBurstTimeout l s
  | .channelCourseStart ch ecc => Sys2Proof.Machine.execChannelCourseStart ch ecc s
  | .gaugeJobStart region => Sys2Proof.Machine.execGaugeJobStart region s
  | .gaugeJobComplete region => Sys2Proof.Machine.execGaugeJobComplete region s
  | .seamOutputStart ch => Sys2Proof.Machine.execSeamOutputStart ch s
  | .regBlockEnd g => Sys2Proof.Machine.execRegBlockEnd g s
  | .seamLinkFault ch => Sys2Proof.Machine.execSeamLinkFault ch s
  | .segmentMapCourse g => Sys2Proof.Machine.execSegmentMapCourse g s
  | .resolution g => Sys2Proof.Machine.execResolution g s
  | .descriptorHand g => Sys2Proof.Machine.execDescriptorHand g s
  | .maskHoldNow g => Sys2Proof.Machine.execMaskHoldNow g s
  | .jobDispatch g => Sys2Proof.Machine.execJobDispatch g s
  | .jobComplete e => Sys2Proof.Machine.execJobComplete e s
  | .recordRelease g => Sys2Proof.Machine.execRecordRelease g s
  | .engineFault e residue => Sys2Proof.Machine.execEngineFault e residue s
  | .engineWatchdog e => Sys2Proof.Machine.execEngineWatchdog e s
  | .drainEnd g => Sys2Proof.Machine.execDrainEnd g s
  | .teRestore e => Sys2Proof.Machine.execTeRestore e s
  | .cmpEnable u => Sys2Proof.Machine.execCmpEnable u s
  | .cmpLateFire u => Sys2Proof.Machine.execCmpLateFire u s
  | .cmpPulseEnd u => Sys2Proof.Machine.execCmpPulseEnd u s
  | .cmpFillRecord u => Sys2Proof.Machine.execCmpFillRecord u s
  | .listInsert u => Sys2Proof.Machine.execListInsert u s
  | .listClear u => Sys2Proof.Machine.execListClear u s
  | .markHoldCtrlWrite hold => Sys2Proof.Machine.execMarkHoldCtrlWrite hold s
  | .thEnable => Sys2Proof.Machine.execThEnable s
  | .authReq => Sys2Proof.Machine.execAuthReq s
  | .tagJobStart => Sys2Proof.Machine.execTagJobStart s
  | .tagLineStart arrived => Sys2Proof.Machine.execTagLineStart arrived s
  | .tagStrobeEnd => Sys2Proof.Machine.execTagStrobeEnd s
  | .tagUnderrunTimeout => Sys2Proof.Machine.execTagUnderrunTimeout s
  | .tagSensorEdge sensor level => Sys2Proof.Machine.execTagSensorEdge sensor level s
  | .tagJobResult => Sys2Proof.Machine.execTagJobResult s
  | .cassOpenClearDelay => Sys2Proof.Machine.execCassOpenClearDelay s
  | .cassResponse bytes => Sys2Proof.Machine.execCassResponse bytes s
  | .cassRetry => Sys2Proof.Machine.execCassRetry s
  | .cassExchangeTimeout => Sys2Proof.Machine.execCassExchangeTimeout s
  | .sessionTimeout session => Sys2Proof.Machine.execSessionTimeout session s
  | .commandComplete session seq => Sys2Proof.Machine.execCommandComplete session seq s
  | .deviceInfo h => Sys2Proof.Machine.execDeviceInfo h s
  | .sessionOpen h nonce timeout maxDgram => Sys2Proof.Machine.execSessionOpen h nonce timeout maxDgram s
  | .sessionClose h => Sys2Proof.Machine.execSessionClose h s
  | .keepalive h => Sys2Proof.Machine.execKeepalive h s
  | .sessionList h => Sys2Proof.Machine.execSessionList h s
  | .sessionKill h session => Sys2Proof.Machine.execSessionKill h session s
  | .regRead h addr count set => Sys2Proof.Machine.execRegRead h addr count set s
  | .regWrite h addr count set words => Sys2Proof.Machine.execRegWrite h addr count set words s
  | .regModify h addr set mask value => Sys2Proof.Machine.execRegModify h addr set mask value s
  | .patternSwap h group when course => Sys2Proof.Machine.execPatternSwap h group when course s
  | .patternRevert h group => Sys2Proof.Machine.execPatternRevert h group s
  | .patternStatus h group => Sys2Proof.Machine.execPatternStatus h group s
  | .groupStart h group flags => Sys2Proof.Machine.execGroupStart h group flags s
  | .groupStop h group => Sys2Proof.Machine.execGroupStop h group s
  | .groupStatus h group => Sys2Proof.Machine.execGroupStatus h group s
  | .exposure h channel expId exp gain rsv target => Sys2Proof.Machine.execExposure h channel expId exp gain rsv target s
  | .cameraCtrl h channel op addr count data => Sys2Proof.Machine.execCameraCtrl h channel op addr count data s
  | .cameraIdent h channel => Sys2Proof.Machine.execCameraIdent h channel s
  | .auxsync h => Sys2Proof.Machine.execAuxsync h s
  | .ringConfig h ring base depthLog entry => Sys2Proof.Machine.execRingConfig h ring base depthLog entry s
  | .ringRelease h ring => Sys2Proof.Machine.execRingRelease h ring s
  | .ringSubscribe h ring flags udp addr => Sys2Proof.Machine.execRingSubscribe h ring flags udp addr s
  | .ringUnsubscribe h sub => Sys2Proof.Machine.execRingUnsubscribe h sub s
  | .ringRead h ring index count => Sys2Proof.Machine.execRingRead h ring index count s
  | .ringStatus h ring => Sys2Proof.Machine.execRingStatus h ring s
  | .ringConsume h ring index => Sys2Proof.Machine.execRingConsume h ring index s
  | .memRead h addr len => Sys2Proof.Machine.execMemRead h addr len s
  | .memWrite h addr data => Sys2Proof.Machine.execMemWrite h addr data s
  | .dmaStart h channel desc => Sys2Proof.Machine.execDmaStart h channel desc s
  | .dmaAbort h channel => Sys2Proof.Machine.execDmaAbort h channel s
  | .dmaStatus h channel => Sys2Proof.Machine.execDmaStatus h channel s
  | .calRequest h channel => Sys2Proof.Machine.execCalRequest h channel s
  | .calStatus h channel => Sys2Proof.Machine.execCalStatus h channel s
  | .laneAdapt h lane => Sys2Proof.Machine.execLaneAdapt h lane s
  | .timeGet h => Sys2Proof.Machine.execTimeGet h s
  | .timeSet h sec ns => Sys2Proof.Machine.execTimeSet h sec ns s
  | .ptpStatus h => Sys2Proof.Machine.execPtpStatus h s
  | .ptpPrefer h domain => Sys2Proof.Machine.execPtpPrefer h domain s
  | .markInsert h unit pos id => Sys2Proof.Machine.execMarkInsert h unit pos id s
  | .markClear h unit => Sys2Proof.Machine.execMarkClear h unit s
  | .markHold h hold => Sys2Proof.Machine.execMarkHold h hold s
  | .cassAuth h => Sys2Proof.Machine.execCassAuth h s
  | .tagStatus h => Sys2Proof.Machine.execTagStatus h s
  | .captureFreeze h => Sys2Proof.Machine.execCaptureFreeze h s
  | .captureRearm h => Sys2Proof.Machine.execCaptureRearm h s
  | .bundleExport h ring => Sys2Proof.Machine.execBundleExport h ring s
  | .rerunStart h addr => Sys2Proof.Machine.execRerunStart h addr s
  | .rerunStatus h => Sys2Proof.Machine.execRerunStatus h s
  | .logRead h index count => Sys2Proof.Machine.execLogRead h index count s
  | .logClear h => Sys2Proof.Machine.execLogClear h s
  | .selftest h cls index => Sys2Proof.Machine.execSelftest h cls index s
  | .faultInject h cls index => Sys2Proof.Machine.execFaultInject h cls index s
  | .powerState h st => Sys2Proof.Machine.execPowerState h st s
  | .domainPower h domain on => Sys2Proof.Machine.execDomainPower h domain on s
  | .bindOff h => Sys2Proof.Machine.execBindOff h s
  | .reset h level index => Sys2Proof.Machine.execReset h level index s
  | .copyBackStart set => Sys2Proof.Machine.execCopyBackStart set s
  | .copyBackEnd set => Sys2Proof.Machine.execCopyBackEnd set s
  | .bindOffFlushEnd => Sys2Proof.Machine.execBindOffFlushEnd s
  | .xaFail => Sys2Proof.Machine.execXaFail s
  | .loopLossOfLock loop => Sys2Proof.Machine.execLoopLossOfLock loop s
  | .loopRelock loop => Sys2Proof.Machine.execLoopRelock loop s
  | .thermalSample die temp => Sys2Proof.Machine.execThermalSample die temp s
  | .autoIdleEntry => Sys2Proof.Machine.execAutoIdleEntry s
  | .wakeCountReached => Sys2Proof.Machine.execWakeCountReached s
  | .domainPowerOnDone d ok => Sys2Proof.Machine.execDomainPowerOnDone d ok s
  | .refreshSlot d => Sys2Proof.Machine.execRefreshSlot d s
  | .memTempRead d temp => Sys2Proof.Machine.execMemTempRead d temp s
  | .memRequestServe d crc => Sys2Proof.Machine.execMemRequestServe d crc s
  | .memDeviceFail d => Sys2Proof.Machine.execMemDeviceFail d s
  | .scrubPass d => Sys2Proof.Machine.execScrubPass d s
  | .retrainStep d ch ok => Sys2Proof.Machine.execRetrainStep d ch ok s
  | .retrainWait d => Sys2Proof.Machine.execRetrainWait d s
  | .ringReserve ring n => Sys2Proof.Machine.execRingReserve ring n s
  | .prodAdvance ring => Sys2Proof.Machine.execProdAdvance ring s
  | .ringDoorbell ring prod => Sys2Proof.Machine.execRingDoorbell ring prod s
  | .subEviction sub => Sys2Proof.Machine.execSubEviction sub s
  | .contextLoad ring parity => Sys2Proof.Machine.execContextLoad ring parity s
  | .dmaDescFetch c => Sys2Proof.Machine.execDmaDescFetch c s
  | .dmaDescEnd c => Sys2Proof.Machine.execDmaDescEnd c s
  | .dmaBusError c => Sys2Proof.Machine.execDmaBusError c s
  | .hankJobTake codec => Sys2Proof.Machine.execHankJobTake codec s
  | .hankBlockDone codec lane => Sys2Proof.Machine.execHankBlockDone codec lane s
  | .hankDisable codec => Sys2Proof.Machine.execHankDisable codec s
  | .ethFrameReceived port frame fcsOk => Sys2Proof.Machine.execEthFrameReceived port frame fcsOk s
  | .linkUp port => Sys2Proof.Machine.execLinkUp port s
  | .linkDown port remFault => Sys2Proof.Machine.execLinkDown port remFault s
  | .portRevert => Sys2Proof.Machine.execPortRevert s
  | .neighbourTimeout port => Sys2Proof.Machine.execNeighbourTimeout port s
  | .prpSupervision => Sys2Proof.Machine.execPrpSupervision s
  | .launchDue q => Sys2Proof.Machine.execLaunchDue q s
  | .streamFlushTimer sub => Sys2Proof.Machine.execStreamFlushTimer sub s
  | .sentHoldExpiry sub => Sys2Proof.Machine.execSentHoldExpiry sub s
  | .timeAdjWrite delta ticks => Sys2Proof.Machine.execTimeAdjWrite delta ticks s
  | .timeAdjEnd => Sys2Proof.Machine.execTimeAdjEnd s
  | .timeIncrWrite incr => Sys2Proof.Machine.execTimeIncrWrite incr s
  | .timeStepWrite step => Sys2Proof.Machine.execTimeStepWrite step s
  | .ptpAnnounceReceived port frame => Sys2Proof.Machine.execPtpAnnounceReceived port frame s
  | .ptpSyncReceived port domain t1 t2 => Sys2Proof.Machine.execPtpSyncReceived port domain t1 t2 s
  | .ptpDelayReqSend domain => Sys2Proof.Machine.execPtpDelayReqSend domain s
  | .ptpDelayRespReceived domain t4 => Sys2Proof.Machine.execPtpDelayRespReceived domain t4 s
  | .announceTimeout domain => Sys2Proof.Machine.execAnnounceTimeout domain s
  | .servoFallback => Sys2Proof.Machine.execServoFallback s
  | .ptpReturn => Sys2Proof.Machine.execPtpReturn s
  | .viewRow v skip => Sys2Proof.Machine.execViewRow v skip s
  | .lookbackRow g => Sys2Proof.Machine.execLookbackRow g s
  | .lookbackPace v => Sys2Proof.Machine.execLookbackPace v s
  | .vblankLatch => Sys2Proof.Machine.execVblankLatch s
  | .hpdPlug maxRate maxLanes edid trains => Sys2Proof.Machine.execHpdPlug maxRate maxLanes edid trains s
  | .hpdUnplug => Sys2Proof.Machine.execHpdUnplug s
  | .irqHpd linkLost trains => Sys2Proof.Machine.execIrqHpd linkLost trains s
  | .touchRead => Sys2Proof.Machine.execTouchRead s
  | .touchReadDone ack bytes => Sys2Proof.Machine.execTouchReadDone ack bytes s
  | .i2cCmd addr wlen rlen => Sys2Proof.Machine.execI2cCmd addr wlen rlen s
  | .i2cDone ack bytes => Sys2Proof.Machine.execI2cDone ack bytes s
  | .keySample levels => Sys2Proof.Machine.execKeySample levels s
  | .ledBlinkToggle fast => Sys2Proof.Machine.execLedBlinkToggle fast s
  | .buzStart => Sys2Proof.Machine.execBuzStart s
  | .buzStop => Sys2Proof.Machine.execBuzStop s
  | .buzPhaseEnd => Sys2Proof.Machine.execBuzPhaseEnd s
  | .producerFire n => Sys2Proof.Machine.execProducerFire n s
  | .yarnFire c => Sys2Proof.Machine.execYarnFire c s
  | .stormWindowEnd => Sys2Proof.Machine.execStormWindowEnd s
  | .auxClkWrite k mdiv => Sys2Proof.Machine.execAuxClkWrite k mdiv s
  | .auxRunRise c => Sys2Proof.Machine.execAuxRunRise c s
  | .auxRunFall c => Sys2Proof.Machine.execAuxRunFall c s
  | .auxOutput c mdat => Sys2Proof.Machine.execAuxOutput c mdat s
  | .auxSyncWrite => Sys2Proof.Machine.execAuxSyncWrite s
  | .auxsyncEdge => Sys2Proof.Machine.execAuxsyncEdge s
  | .syncPhaseReset c => Sys2Proof.Machine.execSyncPhaseReset c s
  | .replayArm => Sys2Proof.Machine.execReplayArm s
  | .replayDisarm => Sys2Proof.Machine.execReplayDisarm s
  | .freezeInstant => Sys2Proof.Machine.execFreezeInstant s
  | .exportEnd => Sys2Proof.Machine.execExportEnd s
  | .rerunCourse g => Sys2Proof.Machine.execRerunCourse g s
  | .channelFaultDetect ch => Sys2Proof.Machine.execChannelFaultDetect ch s
  | .spareTakeover region => Sys2Proof.Machine.execSpareTakeover region s
  | .rgnRestore region mask => Sys2Proof.Machine.execRgnRestore region mask s
  | .clusterFault c => Sys2Proof.Machine.execClusterFault c s
  | .regionFault region => Sys2Proof.Machine.execRegionFault region s
  | .dieLinkFault l => Sys2Proof.Machine.execDieLinkFault l s
  | .rerunLoaded => Sys2Proof.Machine.execRerunLoaded s

end Sys2Proof.Machine
end

