-- ==== Sys2Proof/Safety.lean ====
section
/-!
DEFINITION. What a safe step is: one that ends in a next state; and the canonical form of a state, in which equal
memories, equal flashes and equal register files are equal data.
-/

namespace Sys2Proof.Machine

/-- The state is in canonical form: device memory, flash, the register file and both banks of pattern fields. -/
def State.canon (s : State) : Bool :=
  Memory.wf s.mem && Flash.wf s.flash && Tab.rising s.regs && Tab.rising s.act && Tab.rising s.shd

/-- An access to a range of device memory meets no error: every block of it decodes to a working device without a mirror, has no
wrong symbol, and the next transfer of its device passes the data CRC. -/
def State.memSound (s : State) (a n : Nat) : Bool :=
  (s.rangeCheck a n).isNone && (blocksOf a n).all (fun b =>
    s.badOf (b * 64) == 0 && s.mcState (devOf (b * 64)) == 2 && (s.dr (devOf (b * 64))).crc == 0 && !s.mirrored (b * 64))

/-- The step of a state completes. -/
def Completes (s : State) : Prop := ∃ t, step s = .next t

/-! ## Host commands (R366, R381) -/

/-- The header, the opcode and the lowest role of a host command (the opcode table of R381); none for an event. -/
def Instr.command (i : Instr) : Option (Hdr × Nat × Nat) :=
  match i with
  | .pornRise _ _ => none
  | .pornFall => none
  | .aonUndervolt => none
  | .xaStableDelayEnd _ => none
  | .castOnWatchdog => none
  | .ready => none
  | .announcePeriodic => none
  | .degradedChange => none
  | .announceReceived _ => none
  | .fuseProgGo _ => none
  | .fuseProgDone _ => none
  | .xspiRead => none
  | .xspiProgram => none
  | .xspiErase => none
  | .xspiDone _ => none
  | .extest => none
  | .samplePreload => none
  | .idcode => none
  | .dbgAccess _ _ _ _ => none
  | .scanTest => none
  | .highz => none
  | .clamp => none
  | .bypass => none
  | .lockstepFault => none
  | .encoderTransition _ _ => none
  | .hallSpeedTimeout _ => none
  | .posRunSet _ => none
  | .serFrameRequest _ => none
  | .serFrameReceived _ _ _ _ => none
  | .serTimeout _ => none
  | .speedWindowEnd _ => none
  | .indexEvent _ => none
  | .courseTimerExpiry _ => none
  | .overrateDelayEnd _ => none
  | .coursesyncEdge => none
  | .courseClose _ => none
  | .stampedInputArrival _ _ => none
  | .losAssert _ => none
  | .losClear _ => none
  | .insertDebounce _ => none
  | .blockLock _ _ => none
  | .lockLoss _ _ => none
  | .lolGraceExpiry _ => none
  | .losRemoveTimeout _ => none
  | .trainingFrameReceived _ _ _ => none
  | .trainingTimeout _ => none
  | .failedRetry _ => none
  | .lockingTimeout _ => none
  | .identTimeout _ => none
  | .identReceived _ _ => none
  | .linePacketReceived _ _ _ => none
  | .cameraDataPacket _ _ _ => none
  | .controlReplyReceived _ _ => none
  | .controlReplyTimeout _ _ => none
  | .idleEntReceived _ => none
  | .alignReceived _ _ => none
  | .lineTimeout _ => none
  | .laneEnable _ _ => none
  | .laneIdleReq _ => none
  | .laneWakeReq _ => none
  | .wakeBurstTimeout _ => none
  | .channelCourseStart _ _ => none
  | .gaugeJobStart _ => none
  | .gaugeJobComplete _ => none
  | .seamOutputStart _ => none
  | .regBlockEnd _ => none
  | .seamLinkFault _ => none
  | .segmentMapCourse _ => none
  | .resolution _ => none
  | .descriptorHand _ => none
  | .maskHoldNow _ => none
  | .jobDispatch _ => none
  | .jobComplete _ => none
  | .recordRelease _ => none
  | .engineFault _ _ => none
  | .engineWatchdog _ => none
  | .drainEnd _ => none
  | .teRestore _ => none
  | .cmpEnable _ => none
  | .cmpLateFire _ => none
  | .cmpPulseEnd _ => none
  | .cmpFillRecord _ => none
  | .listInsert _ => none
  | .listClear _ => none
  | .markHoldCtrlWrite _ => none
  | .thEnable => none
  | .authReq => none
  | .tagJobStart => none
  | .tagLineStart _ => none
  | .tagStrobeEnd => none
  | .tagUnderrunTimeout => none
  | .tagSensorEdge _ _ => none
  | .tagJobResult => none
  | .cassOpenClearDelay => none
  | .cassResponse _ => none
  | .cassRetry => none
  | .cassExchangeTimeout => none
  | .sessionTimeout _ => none
  | .commandComplete _ _ => none
  | .deviceInfo h => some (h, 0x0100, 0)
  | .sessionOpen h _ _ _ => some (h, 0x0101, 0)
  | .sessionClose h => some (h, 0x0102, 0)
  | .keepalive h => some (h, 0x0103, 0)
  | .sessionList h => some (h, 0x0104, 2)
  | .sessionKill h _ => some (h, 0x0105, 3)
  | .regRead h _ _ _ => some (h, 0x0200, 0)
  | .regWrite h _ _ _ _ => some (h, 0x0201, 2)
  | .regModify h _ _ _ _ => some (h, 0x0202, 2)
  | .patternSwap h _ _ _ => some (h, 0x0203, 1)
  | .patternRevert h _ => some (h, 0x0204, 2)
  | .patternStatus h _ => some (h, 0x0205, 0)
  | .groupStart h _ _ => some (h, 0x0300, 1)
  | .groupStop h _ => some (h, 0x0301, 1)
  | .groupStatus h _ => some (h, 0x0302, 0)
  | .exposure h _ _ _ _ _ _ => some (h, 0x0303, 1)
  | .cameraCtrl h _ _ _ _ _ => some (h, 0x0304, 2)
  | .cameraIdent h _ => some (h, 0x0305, 2)
  | .auxsync h => some (h, 0x0306, 2)
  | .ringConfig h _ _ _ _ => some (h, 0x0400, 2)
  | .ringRelease h _ => some (h, 0x0401, 2)
  | .ringSubscribe h _ _ _ _ => some (h, 0x0402, 0)
  | .ringUnsubscribe h _ => some (h, 0x0403, 0)
  | .ringRead h _ _ _ => some (h, 0x0404, 0)
  | .ringStatus h _ => some (h, 0x0405, 0)
  | .ringConsume h _ _ => some (h, 0x0406, 1)
  | .memRead h _ _ => some (h, 0x0500, 2)
  | .memWrite h _ _ => some (h, 0x0501, 2)
  | .dmaStart h _ _ => some (h, 0x0502, 2)
  | .dmaAbort h _ => some (h, 0x0503, 2)
  | .dmaStatus h _ => some (h, 0x0504, 0)
  | .calRequest h _ => some (h, 0x0600, 1)
  | .calStatus h _ => some (h, 0x0601, 0)
  | .laneAdapt h _ => some (h, 0x0602, 2)
  | .timeGet h => some (h, 0x0700, 0)
  | .timeSet h _ _ => some (h, 0x0701, 3)
  | .ptpStatus h => some (h, 0x0702, 0)
  | .ptpPrefer h _ => some (h, 0x0703, 2)
  | .markInsert h _ _ _ => some (h, 0x0800, 1)
  | .markClear h _ => some (h, 0x0801, 1)
  | .markHold h _ => some (h, 0x0802, 1)
  | .cassAuth h => some (h, 0x0803, 1)
  | .tagStatus h => some (h, 0x0804, 0)
  | .captureFreeze h => some (h, 0x0900, 1)
  | .captureRearm h => some (h, 0x0901, 2)
  | .bundleExport h _ => some (h, 0x0902, 2)
  | .rerunStart h _ => some (h, 0x0903, 2)
  | .rerunStatus h => some (h, 0x0904, 0)
  | .logRead h _ _ => some (h, 0x0A00, 0)
  | .logClear h => some (h, 0x0A01, 2)
  | .selftest h _ _ => some (h, 0x0A02, 3)
  | .faultInject h _ _ => some (h, 0x0A03, 3)
  | .powerState h _ => some (h, 0x0B00, 2)
  | .domainPower h _ _ => some (h, 0x0B01, 2)
  | .bindOff h => some (h, 0x0B02, 2)
  | .reset h _ _ => some (h, 0x0B03, 3)
  | .copyBackStart _ => none
  | .copyBackEnd _ => none
  | .bindOffFlushEnd => none
  | .xaFail => none
  | .loopLossOfLock _ => none
  | .loopRelock _ => none
  | .thermalSample _ _ => none
  | .autoIdleEntry => none
  | .wakeCountReached => none
  | .domainPowerOnDone _ _ => none
  | .refreshSlot _ => none
  | .memTempRead _ _ => none
  | .memRequestServe _ _ => none
  | .memDeviceFail _ => none
  | .scrubPass _ => none
  | .retrainStep _ _ _ => none
  | .retrainWait _ => none
  | .ringReserve _ _ => none
  | .prodAdvance _ => none
  | .ringDoorbell _ _ => none
  | .subEviction _ => none
  | .contextLoad _ _ => none
  | .dmaDescFetch _ => none
  | .dmaDescEnd _ => none
  | .dmaBusError _ => none
  | .hankJobTake _ => none
  | .hankBlockDone _ _ => none
  | .hankDisable _ => none
  | .ethFrameReceived _ _ _ => none
  | .linkUp _ => none
  | .linkDown _ _ => none
  | .portRevert => none
  | .neighbourTimeout _ => none
  | .prpSupervision => none
  | .launchDue _ => none
  | .streamFlushTimer _ => none
  | .sentHoldExpiry _ => none
  | .timeAdjWrite _ _ => none
  | .timeAdjEnd => none
  | .timeIncrWrite _ => none
  | .timeStepWrite _ => none
  | .ptpAnnounceReceived _ _ => none
  | .ptpSyncReceived _ _ _ _ => none
  | .ptpDelayReqSend _ => none
  | .ptpDelayRespReceived _ _ => none
  | .announceTimeout _ => none
  | .servoFallback => none
  | .ptpReturn => none
  | .viewRow _ _ => none
  | .lookbackRow _ => none
  | .lookbackPace _ => none
  | .vblankLatch => none
  | .hpdPlug _ _ _ _ => none
  | .hpdUnplug => none
  | .irqHpd _ _ => none
  | .touchRead => none
  | .touchReadDone _ _ => none
  | .i2cCmd _ _ _ => none
  | .i2cDone _ _ => none
  | .keySample _ => none
  | .ledBlinkToggle _ => none
  | .buzStart => none
  | .buzStop => none
  | .buzPhaseEnd => none
  | .producerFire _ => none
  | .yarnFire _ => none
  | .stormWindowEnd => none
  | .auxClkWrite _ _ => none
  | .auxRunRise _ => none
  | .auxRunFall _ => none
  | .auxOutput _ _ => none
  | .auxSyncWrite => none
  | .auxsyncEdge => none
  | .syncPhaseReset _ => none
  | .replayArm => none
  | .replayDisarm => none
  | .freezeInstant => none
  | .exportEnd => none
  | .rerunCourse _ => none
  | .channelFaultDetect _ => none
  | .spareTakeover _ => none
  | .rgnRestore _ _ => none
  | .clusterFault _ => none
  | .regionFault _ => none
  | .dieLinkFault _ => none
  | .rerunLoaded => none

/-- A command with header `h` passes every check of R366 up to those of its own opcode: an open port, its session, a
sequence number in the window that has not been seen, fewer than 256 commands outstanding, its role, its GROUP, and no
AT_COURSE where the opcode takes none. -/
def Accepts (s : State) (h : Hdr) (op role : Nat) : Prop :=
  s.portOpen = true ∧ s.preStatus h op role 0 = stOk ∧
    ∃ e, s.findSession h = some e ∧ (seqAbove e.hi h.seq.toNat = true ∨ seqWithin e.hi h.seq.toNat = true) ∧
      e.seen.contains h.seq.toNat = false ∧ e.outst.length < 256

/-- The state in which an accepted command is carried out: its session has heard it and holds it outstanding, and it is
counted. -/
def State.accepted (s : State) (h : Hdr) (op : Nat) : State :=
  ((s.mapSession h.session.toNat (fun x => { x with heard := s.now })).mapSession h.session.toNat (fun x => x.take h op)).incF
    cmdB F.CMD_COUNT_COUNT 1

/-- The reply of a command has left: its session keeps it with that status and those parameters. -/
def Replied (t : State) (h : Hdr) (op status : Nat) (params : List Byte) : Prop :=
  ∃ e ∈ t.sess, e.id = h.session.toNat ∧ ∃ (course : Int) (tag : List Byte),
    (h.seq.toNat, replyBody h op h.session.toNat status course params ++ tag) ∈ e.cache

/-- Every register field but the counter of commands reads as before. -/
def RegsKept (s t : State) : Prop :=
  ∀ (b : Nat) (f : Fld), f.key b ≠ F.CMD_COUNT_COUNT.key cmdB → t.getF b f = s.getF b f

/-- Rows that may give the device or a whole domain its state anew: the resets, Ready, the changes of power, and a frame, which may carry any command. -/
def Instr.renews (i : Instr) : Bool :=
  match i with
  | .pornFall | .aonUndervolt | .ready | .powerState _ _ | .thermalSample _ _ | .ethFrameReceived _ _ _ => true
  | _ => false

/-- Rows that write registers for a host. -/
def Instr.hostWrites (i : Instr) : Bool :=
  match i with
  | .dbgAccess _ _ _ _ | .regWrite _ _ _ _ _ | .regModify _ _ _ _ _ => true
  | _ => false

/-- Rows that may open a course. -/
def Instr.opensCourse (i : Instr) : Bool :=
  match i with
  | .encoderTransition _ _ | .serFrameReceived _ _ _ _ | .courseTimerExpiry _ | .overrateDelayEnd _
  | .coursesyncEdge | .rerunCourse _ | .rerunLoaded => true
  | _ => false

/-- Rows that may stop running groups. -/
def Instr.stopsGroups (i : Instr) : Bool :=
  match i with
  | .seamLinkFault _ | .groupStop _ _ | .bindOff _ | .xaFail | .loopLossOfLock _ | .dieLinkFault _ => true
  | _ => false

/-- Rows that switch domains. -/
def Instr.powers (i : Instr) : Bool :=
  match i with
  | .domainPower _ _ _ | .bindOffFlushEnd | .domainPowerOnDone _ _ => true
  | _ => false

/-! ## What a row leaves alone -/

/-- The parts of the state that few rows write; every part but the registers, the counters of sessions, rings, ports and the
journal, which a log entry, a record or a reply moves. -/
inductive Part where
  | mem | fuses | accepts | annKey | arrived | aux | banksOff | boot | cass | cassKey | chan | cmp | copying
  | csw | degShown | devView | dma | dpBuf | dpMon | dpRow | dup | flash | flight | gated | grp | hank | held
  | hist | jtag | keys | lane | lbGone | lbNext | live | localT | mclkAt | oldL | pnl | pos | power | ptp
  | retrain | rezero | seam | seamG | segG | shd | spareDue | stopped | sync | tag | tal | tallyLast | time
  | view | viewOld | wakeFrom
  deriving DecidableEq, Repr

/-- A part is the same in two states. -/
def Part.same (p : Part) (s t : State) : Prop :=
  match p with
  | .mem => t.mem = s.mem
  | .fuses => t.fuses = s.fuses
  | .accepts => t.accepts = s.accepts
  | .annKey => t.annKey = s.annKey
  | .arrived => t.arrived = s.arrived
  | .aux => t.aux = s.aux
  | .banksOff => t.banksOff = s.banksOff
  | .boot => t.boot = s.boot
  | .cass => t.cass = s.cass
  | .cassKey => t.cassKey = s.cassKey
  | .chan => t.chan = s.chan
  | .cmp => t.cmp = s.cmp
  | .copying => t.copying = s.copying
  | .csw => t.csw = s.csw
  | .degShown => t.degShown = s.degShown
  | .devView => t.devView = s.devView
  | .dma => t.dma = s.dma
  | .dpBuf => t.dpBuf = s.dpBuf
  | .dpMon => t.dpMon = s.dpMon
  | .dpRow => t.dpRow = s.dpRow
  | .dup => t.dup = s.dup
  | .flash => t.flash = s.flash
  | .flight => t.flight = s.flight
  | .gated => t.gated = s.gated
  | .grp => t.grp = s.grp
  | .hank => t.hank = s.hank
  | .held => t.held = s.held
  | .hist => t.hist = s.hist
  | .jtag => t.jtag = s.jtag
  | .keys => t.keys = s.keys
  | .lane => t.lane = s.lane
  | .lbGone => t.lbGone = s.lbGone
  | .lbNext => t.lbNext = s.lbNext
  | .live => t.live = s.live
  | .localT => t.localT = s.localT
  | .mclkAt => t.mclkAt = s.mclkAt
  | .oldL => t.oldL = s.oldL
  | .pnl => t.pnl = s.pnl
  | .pos => t.pos = s.pos
  | .power => t.power = s.power
  | .ptp => t.ptp = s.ptp
  | .retrain => t.retrain = s.retrain
  | .rezero => t.rezero = s.rezero
  | .seam => t.seam = s.seam
  | .seamG => t.seamG = s.seamG
  | .segG => t.segG = s.segG
  | .shd => t.shd = s.shd
  | .spareDue => t.spareDue = s.spareDue
  | .stopped => t.stopped = s.stopped
  | .sync => t.sync = s.sync
  | .tag => t.tag = s.tag
  | .tal => t.tal = s.tal
  | .tallyLast => t.tallyLast = s.tallyLast
  | .time => t.time = s.time
  | .view => t.view = s.view
  | .viewOld => t.viewOld = s.viewOld
  | .wakeFrom => t.wakeFrom = s.wakeFrom

/-- Rows that leave device memory as it is. -/
def Instr.keepsMem (i : Instr) : Bool :=
  match i with
  | .pornRise _ _ | .xaStableDelayEnd _ | .castOnWatchdog | .announcePeriodic | .degradedChange
  | .fuseProgGo _ | .fuseProgDone _ | .xspiDone _ | .extest | .samplePreload | .idcode | .scanTest | .highz
  | .clamp | .bypass | .posRunSet _ | .serFrameRequest _ | .serTimeout _ | .losAssert _ | .losClear _
  | .lockLoss _ _ | .controlReplyTimeout _ _ | .gaugeJobStart _ | .segmentMapCourse _ | .maskHoldNow _
  | .teRestore _ | .cmpPulseEnd _ | .listClear _ | .markHoldCtrlWrite _ | .authReq | .tagStrobeEnd
  | .cassOpenClearDelay | .cassRetry | .sessionTimeout _ | .commandComplete _ _ | .deviceInfo _
  | .sessionOpen _ _ _ _ | .sessionClose _ | .keepalive _ | .sessionList _ | .sessionKill _ _
  | .regRead _ _ _ _ | .patternRevert _ _ | .patternStatus _ _ | .groupStatus _ _ | .exposure _ _ _ _ _ _ _
  | .cameraCtrl _ _ _ _ _ _ | .cameraIdent _ _ | .auxsync _ | .dmaStatus _ _ | .calRequest _ _
  | .calStatus _ _ | .laneAdapt _ _ | .timeGet _ | .timeSet _ _ _ | .ptpStatus _ | .markClear _ _
  | .markHold _ _ | .cassAuth _ | .tagStatus _ | .captureFreeze _ | .captureRearm _ | .rerunStatus _
  | .logClear _ | .copyBackStart _ | .copyBackEnd _ | .loopRelock _ | .wakeCountReached | .refreshSlot _
  | .memTempRead _ _ | .retrainWait _ | .neighbourTimeout _ | .prpSupervision | .sentHoldExpiry _
  | .timeAdjWrite _ _ | .timeAdjEnd | .timeIncrWrite _ | .timeStepWrite _ | .ptpAnnounceReceived _ _
  | .ptpDelayReqSend _ | .ptpDelayRespReceived _ _ | .hpdPlug _ _ _ _ | .hpdUnplug | .irqHpd _ _ | .touchRead
  | .touchReadDone _ _ | .i2cCmd _ _ _ | .i2cDone _ _ | .keySample _ | .ledBlinkToggle _ | .buzStart
  | .buzStop | .buzPhaseEnd | .auxClkWrite _ _ | .auxSyncWrite | .auxsyncEdge | .syncPhaseReset _
  | .rgnRestore _ _ => true
  | _ => false

/-- Whether a row may change a part of the state. -/
def Instr.mayChange (i : Instr) (p : Part) : Bool :=
  match p with
  | .mem => !Instr.keepsMem i
  | .fuses =>
    match i with
    | .fuseProgDone _ => true
    | _ => false
  | .accepts =>
    Instr.renews i || Instr.hostWrites i || (match i with
    | .maskHoldNow _ | .groupStart _ _ _ | .groupStop _ _ => true
    | _ => false)
  | .annKey => Instr.renews i
  | .arrived =>
    Instr.renews i || Instr.opensCourse i || Instr.stopsGroups i || (match i with
    | .courseClose _ | .stampedInputArrival _ _ | .regWrite _ _ _ _ _ | .regModify _ _ _ _ _
    | .groupStart _ _ _ | .domainPower _ _ _ => true
    | _ => false)
  | .aux =>
    Instr.renews i || Instr.hostWrites i || Instr.powers i || (match i with
    | .auxsync _ | .producerFire _ | .yarnFire _ | .auxRunRise _ | .auxRunFall _ | .auxOutput _ _
    | .auxSyncWrite | .auxsyncEdge | .syncPhaseReset _ => true
    | _ => false)
  | .banksOff =>
    Instr.renews i || (match i with
    | .pornRise _ _ => true
    | _ => false)
  | .boot =>
    Instr.renews i || Instr.hostWrites i || (match i with
    | .pornRise _ _ | .xaStableDelayEnd _ | .castOnWatchdog | .fuseProgGo _ | .lockstepFault | .reset _ _ _
    | .wakeCountReached | .linkUp _ | .producerFire _ | .yarnFire _ | .regionFault _ => true
    | _ => false)
  | .cass =>
    Instr.renews i || Instr.hostWrites i || Instr.powers i || (match i with
    | .thEnable | .authReq | .tagJobStart | .tagSensorEdge _ _ | .cassOpenClearDelay | .cassResponse _
    | .cassExchangeTimeout | .cassAuth _ => true
    | _ => false)
  | .cassKey => Instr.renews i
  | .chan =>
    Instr.renews i || Instr.hostWrites i || Instr.opensCourse i || Instr.stopsGroups i || Instr.powers i || (match i with
    | .courseClose _ | .stampedInputArrival _ _ | .insertDebounce _ | .blockLock _ _ | .lolGraceExpiry _
    | .losRemoveTimeout _ | .trainingFrameReceived _ _ _ | .trainingTimeout _ | .failedRetry _
    | .lockingTimeout _ | .identTimeout _ | .identReceived _ _ | .linePacketReceived _ _ _
    | .idleEntReceived _ | .lineTimeout _ | .laneEnable _ _ | .laneIdleReq _ | .laneWakeReq _
    | .wakeBurstTimeout _ | .channelCourseStart _ _ | .gaugeJobStart _ | .gaugeJobComplete _
    | .seamOutputStart _ | .drainEnd _ | .patternSwap _ _ _ _ | .groupStart _ _ _ | .ringConfig _ _ _ _ _
    | .ringRelease _ _ | .calRequest _ _ | .faultInject _ _ _ | .reset _ _ _ | .autoIdleEntry
    | .channelFaultDetect _ | .spareTakeover _ | .rgnRestore _ _ => true
    | _ => false)
  | .cmp =>
    Instr.renews i || Instr.hostWrites i || Instr.powers i || (match i with
    | .encoderTransition _ _ | .hallSpeedTimeout _ | .serFrameReceived _ _ _ _ | .speedWindowEnd _
    | .indexEvent _ | .cmpEnable _ | .cmpLateFire _ | .cmpPulseEnd _ | .cmpFillRecord _ | .listInsert _
    | .listClear _ | .markInsert _ _ _ _ | .markClear _ _ | .rerunStart _ _ | .producerFire _ | .yarnFire _ => true
    | _ => false)
  | .copying =>
    Instr.renews i || (match i with
    | .encoderTransition _ _ | .serFrameReceived _ _ _ _ | .courseTimerExpiry _ | .overrateDelayEnd _
    | .coursesyncEdge | .patternSwap _ _ _ _ | .copyBackStart _ | .copyBackEnd _ | .rerunCourse _ => true
    | _ => false)
  | .csw =>
    Instr.renews i || Instr.opensCourse i || (match i with
    | .stampedInputArrival _ _ | .linePacketReceived _ _ _ | .lineTimeout _ | .channelCourseStart _ _
    | .seamOutputStart _ | .resolution _ | .groupStart _ _ _ | .faultInject _ _ _ | .reset _ _ _
    | .channelFaultDetect _ | .spareTakeover _ => true
    | _ => false)
  | .degShown =>
    Instr.renews i || (match i with
    | .degradedChange => true
    | _ => false)
  | .devView =>
    Instr.renews i || Instr.stopsGroups i || (match i with
    | .rerunCourse _ | .rerunLoaded => true
    | _ => false)
  | .dma =>
    Instr.renews i || (match i with
    | .dmaStart _ _ _ | .dmaAbort _ _ | .dmaDescFetch _ | .dmaDescEnd _ | .dmaBusError _ => true
    | _ => false)
  | .dpBuf =>
    Instr.renews i || Instr.powers i || (match i with
    | .viewRow _ _ | .lookbackPace _ => true
    | _ => false)
  | .dpMon =>
    Instr.renews i || Instr.powers i || (match i with
    | .hpdPlug _ _ _ _ | .hpdUnplug | .irqHpd _ _ => true
    | _ => false)
  | .dpRow =>
    Instr.renews i || Instr.powers i || (match i with
    | .vblankLatch => true
    | _ => false)
  | .dup =>
    Instr.renews i || Instr.hostWrites i || (match i with
    | .announceReceived _ => true
    | _ => false)
  | .flash =>
    Instr.hostWrites i || (match i with
    | .pornFall | .aonUndervolt | .ready | .xspiRead | .xspiProgram | .xspiErase | .ethFrameReceived _ _ _ => true
    | _ => false)
  | .flight =>
    Instr.renews i || Instr.hostWrites i || (match i with
    | .stampedInputArrival _ _ | .maskHoldNow _ | .groupStart _ _ _ | .groupStop _ _ | .producerFire _
    | .yarnFire _ | .auxOutput _ _ => true
    | _ => false)
  | .gated =>
    Instr.renews i || (match i with
    | .loopLossOfLock _ | .loopRelock _ => true
    | _ => false)
  | .grp =>
    Instr.renews i || Instr.opensCourse i || Instr.stopsGroups i || (match i with
    | .courseClose _ | .drainEnd _ | .groupStart _ _ _ | .domainPower _ _ _ | .bindOffFlushEnd => true
    | _ => false)
  | .hank =>
    Instr.renews i || Instr.hostWrites i || Instr.powers i || (match i with
    | .reset _ _ _ | .hankJobTake _ | .hankBlockDone _ _ | .hankDisable _ => true
    | _ => false)
  | .held =>
    Instr.renews i || Instr.opensCourse i || Instr.stopsGroups i || (match i with
    | .regWrite _ _ _ _ _ | .regModify _ _ _ _ _ | .domainPower _ _ _ => true
    | _ => false)
  | .hist =>
    Instr.renews i || Instr.opensCourse i || (match i with
    | .groupStart _ _ _ => true
    | _ => false)
  | .jtag =>
    (match i with
    | .pornFall | .aonUndervolt | .extest | .samplePreload | .idcode | .dbgAccess _ _ _ _ | .scanTest
    | .highz | .clamp | .bypass => true
    | _ => false)
  | .keys => Instr.renews i
  | .lane =>
    Instr.renews i || Instr.hostWrites i || Instr.opensCourse i || Instr.stopsGroups i || Instr.powers i || (match i with
    | .stampedInputArrival _ _ | .losClear _ | .insertDebounce _ | .blockLock _ _ | .lockLoss _ _
    | .lolGraceExpiry _ | .losRemoveTimeout _ | .trainingFrameReceived _ _ _ | .trainingTimeout _
    | .failedRetry _ | .lockingTimeout _ | .identTimeout _ | .identReceived _ _ | .linePacketReceived _ _ _
    | .cameraDataPacket _ _ _ | .controlReplyReceived _ _ | .controlReplyTimeout _ _ | .idleEntReceived _
    | .alignReceived _ _ | .lineTimeout _ | .laneEnable _ _ | .laneIdleReq _ | .laneWakeReq _
    | .wakeBurstTimeout _ | .groupStart _ _ _ | .exposure _ _ _ _ _ _ _ | .cameraCtrl _ _ _ _ _ _
    | .cameraIdent _ _ | .ringConfig _ _ _ _ _ | .ringRelease _ _ | .faultInject _ _ _ | .reset _ _ _
    | .autoIdleEntry => true
    | _ => false)
  | .lbGone =>
    Instr.renews i || Instr.stopsGroups i || Instr.powers i || (match i with
    | .groupStart _ _ _ | .lookbackRow _ | .rerunCourse _ | .rerunLoaded => true
    | _ => false)
  | .lbNext =>
    Instr.renews i || Instr.stopsGroups i || Instr.powers i || (match i with
    | .groupStart _ _ _ | .lookbackRow _ | .rerunCourse _ | .rerunLoaded => true
    | _ => false)
  | .live =>
    Instr.renews i || Instr.opensCourse i || Instr.stopsGroups i || (match i with
    | .stampedInputArrival _ _ | .groupStart _ _ _ | .domainPower _ _ _ => true
    | _ => false)
  | .localT =>
    Instr.renews i || Instr.hostWrites i || (match i with
    | .timeSet _ _ _ | .ptpPrefer _ _ | .timeAdjEnd | .timeStepWrite _ | .ptpSyncReceived _ _ _ _
    | .announceTimeout _ | .ptpReturn => true
    | _ => false)
  | .mclkAt =>
    Instr.renews i || Instr.hostWrites i || Instr.powers i || (match i with
    | .auxClkWrite _ _ => true
    | _ => false)
  | .oldL =>
    Instr.renews i || Instr.hostWrites i || Instr.opensCourse i || Instr.stopsGroups i || (match i with
    | .stampedInputArrival _ _ | .patternSwap _ _ _ _ | .groupStart _ _ _ | .domainPower _ _ _ => true
    | _ => false)
  | .pnl =>
    Instr.renews i || Instr.hostWrites i || (match i with
    | .encoderTransition _ _ | .serFrameReceived _ _ _ _ | .courseTimerExpiry _ | .overrateDelayEnd _
    | .coursesyncEdge | .insertDebounce _ | .losRemoveTimeout _ | .trainingTimeout _ | .identReceived _ _
    | .wakeBurstTimeout _ | .tagSensorEdge _ _ | .cassResponse _ | .cassExchangeTimeout | .faultInject _ _ _
    | .reset _ _ _ | .hpdPlug _ _ _ _ | .hpdUnplug | .irqHpd _ _ | .touchRead | .touchReadDone _ _
    | .i2cCmd _ _ _ | .i2cDone _ _ | .keySample _ | .ledBlinkToggle _ | .buzStart | .buzStop | .buzPhaseEnd
    | .producerFire _ | .yarnFire _ | .rerunCourse _ => true
    | _ => false)
  | .pos =>
    Instr.hostWrites i || (match i with
    | .pornFall | .aonUndervolt | .ready | .encoderTransition _ _ | .posRunSet _ | .serFrameRequest _
    | .serFrameReceived _ _ _ _ | .serTimeout _ | .speedWindowEnd _ | .indexEvent _ | .ethFrameReceived _ _ _ => true
    | _ => false)
  | .power =>
    Instr.renews i || Instr.powers i || (match i with
    | .dbgAccess _ _ _ _ | .regRead _ _ _ _ | .bindOff _ => true
    | _ => false)
  | .ptp =>
    Instr.renews i || Instr.hostWrites i || (match i with
    | .ptpAnnounceReceived _ _ | .ptpSyncReceived _ _ _ _ | .ptpDelayReqSend _ | .ptpDelayRespReceived _ _
    | .announceTimeout _ => true
    | _ => false)
  | .retrain =>
    Instr.renews i || Instr.powers i || (match i with
    | .faultInject _ _ _ | .reset _ _ _ | .memDeviceFail _ | .retrainStep _ _ _ => true
    | _ => false)
  | .rezero =>
    Instr.renews i || (match i with
    | .indexEvent _ | .coursesyncEdge | .groupStart _ _ _ => true
    | _ => false)
  | .seam =>
    Instr.renews i || Instr.opensCourse i || Instr.powers i || (match i with
    | .seamOutputStart _ | .regBlockEnd _ | .groupStart _ _ _ | .reset _ _ _ => true
    | _ => false)
  | .seamG =>
    Instr.renews i || (match i with
    | .seamOutputStart _ | .regBlockEnd _ | .groupStart _ _ _ | .rerunLoaded => true
    | _ => false)
  | .segG =>
    Instr.renews i || Instr.hostWrites i || Instr.opensCourse i || Instr.stopsGroups i || (match i with
    | .courseClose _ | .stampedInputArrival _ _ | .segmentMapCourse _ | .resolution _ | .descriptorHand _
    | .jobComplete _ | .engineFault _ _ | .engineWatchdog _ | .groupStart _ _ _ | .faultInject _ _ _
    | .domainPower _ _ _ | .bindOffFlushEnd => true
    | _ => false)
  | .shd =>
    Instr.renews i || Instr.hostWrites i || Instr.opensCourse i || Instr.powers i || (match i with
    | .patternSwap _ _ _ _ | .patternRevert _ _ | .reset _ _ _ | .copyBackEnd _ => true
    | _ => false)
  | .spareDue =>
    Instr.renews i || Instr.hostWrites i || (match i with
    | .faultInject _ _ _ | .reset _ _ _ | .channelFaultDetect _ | .spareTakeover _ | .rgnRestore _ _ => true
    | _ => false)
  | .stopped =>
    Instr.renews i || Instr.powers i || (match i with
    | .reset _ _ _ | .clusterFault _ | .regionFault _ => true
    | _ => false)
  | .sync =>
    Instr.renews i || (match i with
    | .encoderTransition _ _ | .serFrameReceived _ _ _ _ | .courseTimerExpiry _ | .overrateDelayEnd _
    | .coursesyncEdge | .groupStart _ _ _ | .rerunCourse _ => true
    | _ => false)
  | .tag =>
    Instr.renews i || Instr.hostWrites i || Instr.powers i || (match i with
    | .encoderTransition _ _ | .hallSpeedTimeout _ | .serFrameReceived _ _ _ _ | .speedWindowEnd _
    | .cmpEnable _ | .cmpLateFire _ | .thEnable | .tagJobStart | .tagLineStart _ | .tagStrobeEnd
    | .tagUnderrunTimeout | .tagSensorEdge _ _ | .tagJobResult | .cassResponse _ | .cassExchangeTimeout
    | .auxRunFall _ | .auxOutput _ _ => true
    | _ => false)
  | .tal =>
    Instr.renews i || (match i with
    | .jobDispatch _ | .jobComplete _ | .recordRelease _ | .engineFault _ _ | .engineWatchdog _
    | .groupStart _ _ _ | .faultInject _ _ _ | .domainPower _ _ _ | .reset _ _ _ | .bindOffFlushEnd
    | .rerunLoaded => true
    | _ => false)
  | .tallyLast =>
    Instr.renews i || (match i with
    | .jobDispatch _ => true
    | _ => false)
  | .time =>
    Instr.renews i || Instr.hostWrites i || (match i with
    | .ptpPrefer _ _ | .timeAdjWrite _ _ | .timeAdjEnd | .ptpSyncReceived _ _ _ _ | .announceTimeout _
    | .servoFallback | .ptpReturn => true
    | _ => false)
  | .view =>
    Instr.renews i || Instr.hostWrites i || Instr.stopsGroups i || Instr.powers i || (match i with
    | .groupStart _ _ _ | .viewRow _ _ | .lookbackPace _ | .rerunCourse _ | .rerunLoaded => true
    | _ => false)
  | .viewOld =>
    Instr.renews i || Instr.hostWrites i || Instr.stopsGroups i || Instr.powers i || (match i with
    | .groupStart _ _ _ | .viewRow _ _ | .rerunCourse _ | .rerunLoaded => true
    | _ => false)
  | .wakeFrom => Instr.renews i

/-- The fields that the reply to a command may move: those of the command port that count commands and refusals. -/
def hostKeys : List Nat :=
  [F.CMD_COUNT_COUNT.key cmdB, F.CMD_AUTH_FAIL_COUNT.key cmdB, F.CMD_EVENT_AUTH_EV.key cmdB, F.CMD_NO_SESSION_COUNT.key cmdB,
    F.CMD_RATE_DROP_COUNT.key cmdB]

/-- The register fields that a row may change, where they are few. -/
def Instr.regKeys (i : Instr) : Option (List Nat) :=
  match i with
  | .extest | .samplePreload | .idcode | .scanTest | .highz | .clamp | .bypass | .serFrameRequest _
  | .controlReplyTimeout _ _ | .maskHoldNow _ | .authReq | .cassOpenClearDelay
  | .cassRetry | .copyBackStart _ | .neighbourTimeout _ | .sentHoldExpiry _ | .timeAdjEnd
  | .touchRead | .ledBlinkToggle _ | .buzStart | .buzStop | .buzPhaseEnd | .syncPhaseReset _ | .commandComplete _ _
  | .announcePeriodic | .prpSupervision | .ptpDelayReqSend _ => some []
  | .deviceInfo _ | .keepalive _ | .sessionList _ | .patternRevert _ _ | .patternStatus _ _
  | .groupStatus _ _ | .exposure _ _ _ _ _ _ _ | .cameraCtrl _ _ _ _ _ _ | .cameraIdent _ _ | .dmaStatus _ _
  | .calStatus _ _ | .ptpStatus _ | .timeGet _ | .cassAuth _ | .tagStatus _ | .rerunStatus _ => some hostKeys
  | .sessionOpen _ _ _ _ | .sessionClose _ | .sessionKill _ _ => some (F.CMD_STATUS_SESSIONS.key cmdB :: hostKeys)
  | .auxsync _ => some (F.AUX_SYNC_CNT_COUNT.key auxG :: hostKeys)
  | .calRequest _ ch => some (F.CORR_STATUS_GAUGE_PEND.key (corrB ch.toNat) :: hostKeys)
  | .timeSet _ _ _ => some (F.PTP_EVENT_STEP_EV.key timB :: hostKeys)
  | .markHold _ _ => some (F.MARK_HOLD_CTRL_HOLD.key cmpG :: hostKeys)
  | .captureRearm _ => some (F.REPLAY_STATUS_STATE.key repB :: hostKeys)
  | .logClear _ => some (F.LOG_OLDEST_INDEX.key fmB :: hostKeys)
  | .sessionTimeout _ => some [F.CMD_STATUS_SESSIONS.key cmdB]
  | .pornRise _ _ => some [F.CAST_STATUS_PHASE.key devB]
  | .fuseProgGo _ =>
    some [F.FUSE_PROG_ADDR_BIT.key fuseB, F.FUSE_PROG_CTRL_KEY.key fuseB, F.FUSE_STATUS_PROG_BUSY.key fuseB]
  | .fuseProgDone _ =>
    some [F.FUSE_STATUS_PROG_BUSY.key fuseB, F.FUSE_STATUS_PROG_ERR.key fuseB, F.DBG_CTRL_DBG_EN.key fuseB, F.FUSE_STATUS_DEBUG_LOCKED.key fuseB]
  | .xspiDone _ => some [F.XSPI_STATUS_BUSY.key fuseB, F.XSPI_STATUS_DONE.key fuseB, F.XSPI_STATUS_ERR.key fuseB]
  | .losAssert l =>
    some [F.LANE_STATUS_LOS.key (ingB l), F.LANE_EVENT_LOS_EV.key (ingB l)]
  | .losClear l => some [F.LANE_STATUS_LOS.key (ingB l)]
  | .lockLoss l _ =>
    some [F.LANE_STATUS_LOCK.key (ingB l), F.LANE_HDR_ERR_HDR_ERR.key (ingB l), F.LANE_EVENT_LOL_EV.key (ingB l)]
  | .teRestore e => some [F.TE_STATUS_STATE.key (teB e)]
  | .listClear u => some [F.CMP_NEXT_POS.key (cmpB u), F.CMP_STATUS_ENTRIES.key (cmpB u)]
  | .cmpPulseEnd u =>
    some [F.CMP_NEXT_POS.key (cmpB u), F.CMP_STATUS_ENTRIES.key (cmpB u), F.CMP_STATUS_ACTIVE.key (cmpB u)]
  | .markHoldCtrlWrite _ => some [F.MARK_HOLD_CTRL_HOLD.key cmpG]
  | .tagStrobeEnd => some [F.TH_STATUS_BUSY.key thB]
  | .copyBackEnd p =>
    some [F.PAT_STATUS_PHASE.key (patB p), F.PAT_STATUS_SWAP_EV.key (patB p), F.PAT_SWAPS_COUNT.key (patB p)]
  | .loopRelock _ =>
    some (F.LOOP_STATUS_LOCK.key clkB :: (List.range 32).map (fun c => F.CL_STATUS_CLK_GATED.key (clB c)))
  | .refreshSlot d => some [F.REFRESH_CNT_COUNT.key (mcB d)]
  | .memTempRead d _ =>
    some [F.MC_TEMP_TEMP.key (mcB d), F.MC_STATUS_HOT.key (mcB d), F.MC_STATUS_RETRAIN_WAIT.key (mcB d)]
  | .retrainWait d => some [F.MC_STATUS_RETRAIN_WAIT.key (mcB d)]
  | .timeAdjWrite _ _ => some [F.TIME_ADJ_DELTA.key timB, F.TIME_ADJ_TICKS.key timB]
  | .timeIncrWrite _ => some [F.TIME_INCR_INCR.key timB, F.PTP_STATE_SERVO_FB.key timB]
  | .timeStepWrite _ => some [F.PTP_EVENT_STEP_EV.key timB]
  | .auxSyncWrite | .auxsyncEdge => some [F.AUX_SYNC_CNT_COUNT.key auxG]
  | .i2cCmd _ _ _ =>
    some [F.I2C_CMD_ADDR.key pnlB, F.I2C_CMD_WLEN.key pnlB, F.I2C_CMD_RLEN.key pnlB, F.I2C_STATUS_BUSY.key pnlB]
  | _ => none

end Sys2Proof.Machine
end

