-- ==== Sys2Proof/WellFormed.lean ====
section
/-!
DEFINITION. Well-formed commands: what the operand types leave open. Numbers of units are bounded by their types (R19);
the checks below bound the units of bring-up failures, the counts that a lane reports, and the lengths of what arrives.
A command that fails a check names nothing that can happen on the device; its meaning is total all the same.
-/

namespace Sys2Proof

/-- How many units a kind of bring-up failure has (R432 to R434, R441): regions, loom dies, GDDR7 devices, channels,
tally engines, clusters, XB, core pairs, Ethernet ports. Kind 9 belongs to the model's own record of lockstep faults
and is met by no bring-up. -/
def failUnits (kind : Fin 10) : Nat :=
  if kind = 0 then 8
  else if kind = 1 then 4
  else if kind = 2 then 16
  else if kind = 3 ∨ kind = 4 then 128
  else if kind = 5 then 32
  else if kind = 6 then 1
  else if kind = 7 ∨ kind = 8 then 2
  else 0

/-- The most bytes of what arrives in one piece on a port. A frame longer than R566 lets a port take is still one that
can arrive (it is dropped and counted), so the bound is far above it (DESIGN CHOICE, log entry 34). -/
def maxFrame : Nat := 65535

/-- The checks of a command. -/
def Instr.wf : Instr → Bool
  | .pornRise _ fails => fails.all (fun e => decide (e.2 < failUnits e.1))
  | .xaStableDelayEnd hz => decide (hz < 2 ^ 32)
  | .announceReceived frame => decide (frame.length ≤ maxFrame)
  | .stampedInputArrival _ source => decide (source < 2 ^ 16)
  | .blockLock _ bad => decide (bad < 2 ^ 32)
  | .lockLoss _ bad => decide (16 ≤ bad) && decide (bad < 2 ^ 32)
  | .identReceived _ words => decide (0 < words.length)
  | .linePacketReceived _ words _ => decide (0 < words.length)
  | .cameraDataPacket _ words _ => decide (0 < words.length)
  | .controlReplyReceived _ words => decide (0 < words.length)
  | .encoderTransition _ pins => decide (0 < pins.samples)
  | .indexEvent e => decide (0 < e.samples)
  | .channelCourseStart _ ecc => ecc.all (fun p => decide (p < 16384))
  | .cassResponse bytes => decide (bytes.length ≤ 64)
  | .regWrite _ _ count _ words => decide (words.length = count.toNat)
  | .cameraCtrl _ _ _ _ _ data => decide (data.length ≤ 255)
  | .memWrite _ _ data => decide (data.length ≤ maxFrame)
  | .memRequestServe _ crc => decide (crc ≤ 5)
  | .ringReserve _ n => decide (n < 2 ^ 32)
  | .ethFrameReceived _ frame _ => decide (frame.length ≤ maxFrame)
  | .ptpAnnounceReceived _ frame => decide (frame.length ≤ maxFrame)
  | .hpdPlug _ _ edid trains => decide (edid.length ≤ 512) && decide (trains.length ≤ 25)
  | .irqHpd _ trains => decide (trains.length ≤ 25)
  | .touchReadDone ack bytes => decide (bytes.length ≤ 32) && (ack || bytes.isEmpty)
  | .i2cDone ack bytes => decide (bytes.length ≤ 32) && (ack || bytes.isEmpty)
  | .auxOutput _ mdat => decide (0 < mdat.length)
  | _ => true

end Sys2Proof
end

