-- ==== Sys2Proof/Certificates/Slice0/Obligations.lean ====
section
/-!
DEFINITION. The statements for the provers, chapter by chapter of the spec. Where a clause rests on a choice of the model, its
docstring names the log entry; everything else follows the rules that OBLIGATIONS.json cites.
-/

open Sys2Proof Sys2Proof.Machine

/-! ## The block as a whole -/

/-- A step takes the command at the front of the queue and runs it on the state with the rest of the queue; with an empty
queue one cycle of PSCLK passes (the model's choice, log entry 3). -/
def Obligations.StepTakesFront : Prop :=
  (∀ (s : State) (c : Instr) (rest : List Instr), s.pending = c :: rest →
    step s = exec c { s with pending := rest }) ∧
  (∀ s : State, s.pending = [] → step s = .next s.clockTick ∧ s.clockTick.now = s.now + 1 ∧ s.clockTick.pending = [])

/-- Right after reset every register field of every block reads as its Reset column, the pattern fields in both banks,
memory reads 0, no command waits, no group runs, cast-on has not begun and every output is at its reset level; and the state is
in canonical form. (The value 0 of a field that the image or a fuse gives is the model's choice: log entry 2.) -/
def Obligations.ResetState : Prop :=
  (∀ (b : Nat) (f : Fld), State.reset.getF b f = f.rst ∧ State.reset.getSh b f = f.rst) ∧
  (∀ a : Nat, memGet State.reset.mem a = 0) ∧ State.reset.pending = [] ∧ (∀ g : Nat, State.reset.running g = false) ∧
  State.reset.boot.step = 0 ∧ State.reset.sess = [] ∧ State.reset.out = [] ∧ State.reset.portOpen = false ∧
  (∀ p : Pin, State.reset.pinAt p = p.resetLevel) ∧ State.reset.canon = true

/-- Every step keeps the canonical form: device memory and the flash strictly rising with no default byte listed, the
register file and both banks of pattern fields strictly rising. -/
def Obligations.StepKeepsCanonicalForm : Prop :=
  ∀ s t : State, s.canon = true → step s = .next t → t.canon = true

/-- Every command of the table completes in every state (none ends in a fault or is refused: a row whose condition does not hold
has no effect, log entry 7). It leaves the queue and the model's clock alone, takes back nothing that has been sent, and never
lowers the counter of the free values. -/
def Obligations.CommandFrame : Prop :=
  ∀ (c : Instr) (s : State), ∃ t, exec c s = .next t ∧
    t.pending = s.pending ∧ t.now = s.now ∧ (∃ l, t.out = s.out ++ l) ∧ s.freeCtr ≤ t.freeCtr

/-- The frame of every command, part by part: the command completes, and a part of the state that it is not listed to write
(`Instr.mayChange`) is as before. `Part` names every part but the registers, the journal's and the log's, the sessions', rings'
and ports'. -/
def Obligations.CommandParts : Prop :=
  ∀ (c : Instr) (s : State), ∃ t, exec c s = .next t ∧ ∀ p : Part, Instr.mayChange c p = false → p.same s t

/-- The frame of the commands that write few registers (`Instr.regKeys`): such a command completes, and every other register
field reads as before, every byte of device memory and every group are as before. -/
def Obligations.CommandRegisters : Prop :=
  ∀ (c : Instr) (ks : List Nat) (s : State), Instr.regKeys c = some ks → ∃ t, exec c s = .next t ∧
    (∀ (b : Nat) (f : Fld), f.key b ∉ ks → t.getF b f = s.getF b f) ∧ (∀ a, memGet t.mem a = memGet s.mem a) ∧ t.grp = s.grp

/-- A fuse bit that has been blown stays blown through every step, PORN low included. -/
def Obligations.FusesStayBlown : Prop :=
  ∀ (s t : State) (n : Nat), step s = .next t → bit s.fuses n = true → bit t.fuses n = true

/-! ## Cast-on (11_cast_on) -/

/-- PORN low resets the whole device: only the flash, the fuses, what has been sent and the model's own clock, counter and
queue outlast it, and every output goes to its reset level. An undervoltage of VDD_AON does the same, with every output at high
impedance. -/
def Obligations.PornLow : Prop :=
  ∀ (s : State) (c : Instr), c = .pornFall ∨ c = .aonUndervolt →
    ∃ t, exec c s = .next t ∧ (∀ b f, t.getF b f = f.rst ∧ t.getSh b f = f.rst) ∧ (∀ a, memGet t.mem a = 0) ∧
      t.sess = [] ∧ t.rings = [] ∧ t.boot.step = 0 ∧ (∀ g, t.running g = false) ∧ t.jtag = 0x02 ∧
      (∀ p : Pin, c = .aonUndervolt → t.pinAt p = .z) ∧
      (∀ p : Pin, c = .pornFall → s.banksOff = false → t.pinAt p = p.resetLevel) ∧
      t.flash = s.flash ∧ t.fuses = s.fuses ∧ t.pending = s.pending

/-- A rising edge of PORN runs cast-on: with agreeing fuse readings to step 3, else it halts with FUSE_FAIL. At the end of the
delay XA is measured: within 25 MHz ± 5% image attempts begin at step 4 and go on to the start of step 7 or to BOOT_FAIL, the
first of them where its checks pass; else cast-on halts with XA_FAIL. -/
def Obligations.CastOnBegins : Prop :=
  (∀ (s : State) (agree : Bool) (fails : List (Fin 10 × Nat)), s.boot.step = 0 →
    ∃ t, exec (.pornRise agree fails) s = .next t ∧ t.boot.start = s.now ∧ t.banksOff = false ∧
      (agree = true → t.boot.sensed = s.fuses) ∧ t.boot.step = (if agree then 3 else 2) ∧ t.boot.halt = (if agree then 0 else 1) ∧
      t.getF devB F.CAST_STATUS_PHASE = (if agree then 3 else 2) ∧ t.fuses = s.fuses ∧ t.flash = s.flash) ∧
  (∀ (s : State) (hz : Nat), s.boot.step = 3 → s.boot.halt = 0 → s.asleep = false → hz < 2 ^ 32 →
    ∃ t, exec (.xaStableDelayEnd hz) s = .next t ∧ t.getF clkB F.XA_MEAS_HZ = hz ∧
      (if 23750000 ≤ hz ∧ hz ≤ 26250000 then
        (∀ u, (s.stepFour hz).castHead = (u, none) → t = u) ∧
          ((t.boot.step = 7 ∧ t.boot.halt = 0 ∧ t.getF devB F.CAST_STATUS_PHASE = 7) ∨ (t.boot.step = 4 ∧ t.boot.halt = 3))
       else t.boot.step = 3 ∧ t.boot.halt = 2))

/-- Image attempts. Steps 7 to 10 of one that passes its checks end in Ready: READY reads 1. One that fails, by the checks of
its image, by the watchdog with code 0x0C or by a lockstep fault of the active pair with code 0x0B, leaves its code, and the
next takes the other image, or after a lockstep fault the same one. The fourth failure halts cast-on with BOOT_FAIL and the
balls of the flash at high impedance. Out of cast-on nothing happens at Ready but the end of a return to RUN, which fails where
the image no longer passes. -/
def Obligations.ImageAttempts : Prop :=
  (∀ s : State, s.casting = true → 7 ≤ s.boot.step → ∃ t, exec .ready s = .next t ∧
    ∀ u, (s.emits (s.loomReads s.boot.image)).attempt = .ok u →
      t = u.readyNow ∧ t.boot.step = 10 ∧ t.getF devB F.CAST_STATUS_READY = 1 ∧ t.fuses = u.fuses ∧ t.flash = u.flash) ∧
  (∀ (s : State) (code : Nat), s.casting = true → s.boot.image < 2 → s.boot.tries = 3 →
    s.castWhole.2 = some code →
    ∃ t, exec .ready s = .next t ∧ t.boot.halt = 3 ∧ t.boot.step = 4 ∧ t.getF devB F.CAST_STATUS_PHASE = 4 ∧
      (∃ l, t.out = s.out ++ l ++ [.hiz "XSPI"]) ∧
      t.getF fuseB (if s.boot.image = 0 then F.BOOT_STATUS_A_CODE else F.BOOT_STATUS_B_CODE) =
        code % 2 ^ F.BOOT_STATUS_A_CODE.width) ∧
  (∀ s : State, s.casting = false → s.boot.resume = false → exec .ready s = .next s) ∧
  (∀ (s : State) (e : Nat), s.boot.resume = true → s.boot.step = 10 → s.readHub s.boot.image = .error e →
    exec .ready s = .next (s.resumeEnd stHwFault)) ∧
  (∀ (s : State) (c : Instr) (code : Nat), s.casting = true → s.boot.image < 2 → s.boot.tries < 4 →
    (c = .castOnWatchdog ∧ code = 0x0C) ∨ (c = .lockstepFault ∧ code = 0x0B) →
    ∃ t u, exec c s = .next t ∧ (s.boot.tries = 3 → t = u) ∧
      (s.boot.tries < 3 → ∀ v, u.castHead = (v, none) → t = v) ∧ u.boot.step = 4 ∧ u.boot.tries = s.boot.tries + 1 ∧
      u.getF fuseB (if s.boot.image = 0 then F.BOOT_STATUS_A_CODE else F.BOOT_STATUS_B_CODE) = code ∧
      u.boot.image = (if c = .lockstepFault then s.boot.image else 1 - s.boot.image) ∧
      u.boot.halt = (if s.boot.tries = 3 then 3 else 0) ∧ t.mem = s.mem ∧ t.fuses = s.fuses)

/-- A lockstep fault of the active pair after Ready, with the standby pair in service: LOCKSTEP_EV and TAKEOVER_EV are set, the
other pair becomes active and none stands by, and every session and every held command stays as it is. -/
def Obligations.LockstepTakeover : Prop :=
  ∀ s : State, s.boot.step = 10 → s.domOn 91 = true → s.getF coreB F.CORE_STATUS_STANDBY_OK = 1 →
    s.getF coreB F.CORE_STATUS_ACTIVE < 2 → s.getF repB F.REPLAY_CTRL_FRZ_FAULT = 0 →
    ∃ t, exec .lockstepFault s = .next t ∧ t.getF coreB F.CORE_STATUS_ACTIVE = 1 - s.getF coreB F.CORE_STATUS_ACTIVE ∧
      t.getF coreB F.CORE_STATUS_STANDBY_OK = 0 ∧ t.getF coreB F.CORE_STATUS_LOCKSTEP_EV = 1 ∧
      t.getF coreB F.CORE_STATUS_TAKEOVER_EV = 1 ∧ t.sess = s.sess ∧ t.held = s.held ∧ t.grp = s.grp

/-- The instructions of the JTAG port: each is held as the table's code; while cast-on has halted all but IDCODE act as BYPASS,
and with DEBUG_LOCK blown HIGHZ and CLAMP do, and SCAN_TEST does as well where DBG_EN is 0. IDCODE shifts out its code.
Nothing else of the device changes.
DBG_ACCESS acts only while DEBUG_LOCK is unblown and DBG_EN is 1: else it is BYPASS and changes nothing else. Where it
acts, a write of memory that meets no error leaves the four bytes there, low byte first, and no register of the device's
blocks outside memory, rings and log changes. -/
def Obligations.JtagPort : Prop :=
  (∀ s : State,
    (s.boot.halt = 0 → exec .extest s = .next { s with jtag := 0x00 } ∧ exec .samplePreload s = .next { s with jtag := 0x01 } ∧
      (s.debugLocked = false → exec .highz s = .next { s with jtag := 0x12 } ∧ exec .clamp s = .next { s with jtag := 0x13 } ∧
        (s.getF fuseB F.DBG_CTRL_DBG_EN = 1 → exec .scanTest s = .next { s with jtag := 0x11 })) ∧
      (s.debugLocked = true → exec .highz s = .next { s with jtag := 0xFF } ∧ exec .clamp s = .next { s with jtag := 0xFF } ∧
        exec .scanTest s = .next { s with jtag := 0xFF })) ∧
    (s.boot.halt ≠ 0 → exec .extest s = .next { s with jtag := 0xFF } ∧ exec .samplePreload s = .next { s with jtag := 0xFF } ∧
      exec .highz s = .next { s with jtag := 0xFF } ∧ exec .clamp s = .next { s with jtag := 0xFF } ∧
      exec .scanTest s = .next { s with jtag := 0xFF }) ∧
    (s.getF fuseB F.DBG_CTRL_DBG_EN ≠ 1 → exec .scanTest s = .next { s with jtag := 0xFF }) ∧
    exec .bypass s = .next { s with jtag := 0xFF } ∧
    exec .idcode s = .next { s with jtag := 0x02, out := s.out ++ [.jtag 32 0x10128BB3] }) ∧
  (∀ (s : State) (write mem : Bool) (addr : BitVec 40) (data : BitVec 32),
    (s.debugLocked = true ∨ s.getF fuseB F.DBG_CTRL_DBG_EN ≠ 1 →
      exec (.dbgAccess write mem addr data) s = .next { s with jtag := 0xFF }) ∧
    (s.debugLocked = false → s.getF fuseB F.DBG_CTRL_DBG_EN = 1 → s.boot.step = 10 → s.boot.halt = 0 → s.domOn 91 = true →
      write = true → mem = true → addr.toNat % 64 = 0 → s.canon = true → s.memSound addr.toNat 4 = true →
      ∃ t, exec (.dbgAccess write mem addr data) s = .next t ∧ t.jtag = 0x10 ∧
        (∀ i < 4, memGet t.mem (addr.toNat + i) = (le 4 data.toNat).getD i 0) ∧
        (∀ a, a < addr.toNat ∨ addr.toNat + 4 ≤ a → memGet t.mem a = memGet s.mem a) ∧ t.regs = s.regs))

/-- Fuse programming by a service session: a GO on an open bit while no group runs sets PROG_BUSY for the addressed bit; at the
end of the blow PROG_BUSY clears, and the bit is blown, or PROG_ERR is set where it does not read 1. Blowing DEBUG_LOCK
clears DBG_EN at once. No other fuse changes.
The flash operations of a service session, while no other is under way: an erase makes every byte of the sectors it touches
read 0xFF and leaves every other byte; a read and a program set BUSY. The end clears BUSY and sets DONE, and ERR on an error. -/
def Obligations.FuseAndFlash : Prop :=
  (∀ (s : State) (b : Fin 4096), s.boot.step = 10 → s.domOn 91 = true → s.anyRunning = false → s.fuseClosed b.val = false →
    ∃ t, exec (.fuseProgGo b) s = .next t ∧ t.getF fuseB F.FUSE_STATUS_PROG_BUSY = 1 ∧
      t.getF fuseB F.FUSE_PROG_ADDR_BIT = b.val ∧ t.boot.fuseAt = b.val ∧ t.fuses = s.fuses) ∧
  (∀ (s : State) (one : Bool), s.getF fuseB F.FUSE_STATUS_PROG_BUSY = 1 →
    ∃ t, exec (.fuseProgDone one) s = .next t ∧ t.getF fuseB F.FUSE_STATUS_PROG_BUSY = 0 ∧
      (one = true → bit t.fuses s.boot.fuseAt = true ∧ (∀ n, n ≠ s.boot.fuseAt → bit t.fuses n = bit s.fuses n) ∧
        (s.boot.fuseAt = 1998 → t.getF fuseB F.DBG_CTRL_DBG_EN = 0 ∧ t.getF fuseB F.FUSE_STATUS_DEBUG_LOCKED = 1)) ∧
      (one = false → t.getF fuseB F.FUSE_STATUS_PROG_ERR = 1 ∧ t.fuses = s.fuses)) ∧
  (∀ (s : State) (c : Instr) (op : Nat), (c = .xspiRead ∧ op = 0) ∨ (c = .xspiProgram ∧ op = 1) ∨ (c = .xspiErase ∧ op = 2) →
    s.boot.step = 10 → s.domOn 91 = true → s.getF fuseB F.XSPI_STATUS_BUSY = 0 →
    (op = 2 → s.getF fuseB F.XSPI_ADDR_ADDR % 0x10000 = 0) →
    ∃ t, exec c s = .next t ∧ t.getF fuseB F.XSPI_STATUS_BUSY = 1 ∧ t.getF fuseB F.XSPI_CTRL_OP = op ∧
      (op = 0 → t.flash = s.flash) ∧ (op = 2 → (∀ a, memGet t.mem a = memGet s.mem a)) ∧
      (op = 1 → s.memSound (s.getF fuseB F.XSPI_MEM_ADDR) (s.getF fuseB F.XSPI_LEN_LEN) = true →
        ∀ a, memGet t.mem a = memGet s.mem a) ∧
      (op = 2 → s.canon = true → ∀ cs a, cs < 2 → a < 2 ^ 32 →
        t.flashGet cs a =
          if cs = s.getF fuseB F.XSPI_CTRL_CS ∧ s.getF fuseB F.XSPI_ADDR_ADDR ≤ a ∧
              a / 0x10000 * 0x10000 < s.getF fuseB F.XSPI_ADDR_ADDR + s.getF fuseB F.XSPI_LEN_LEN then 0xFF
          else s.flashGet cs a)) ∧
  (∀ (s : State) (err : Bool), s.getF fuseB F.XSPI_STATUS_BUSY = 1 →
    ∃ t, exec (.xspiDone err) s = .next t ∧ t.getF fuseB F.XSPI_STATUS_BUSY = 0 ∧ t.getF fuseB F.XSPI_STATUS_DONE = 1 ∧
      (err = true → t.getF fuseB F.XSPI_STATUS_ERR = 1) ∧ (err = false → t.getF fuseB F.XSPI_STATUS_ERR = s.getF fuseB F.XSPI_STATUS_ERR) ∧
      t.flash = s.flash ∧ t.mem = s.mem)

/-- Announcements: one goes out every ANN_PER seconds and at every change of DEGRADED, and is counted where some port can send it;
the change sets DEGRADE_EV and shows the
bits; an announcement of another device with this device's number sets DUP_EV and the condition that stops records. -/
def Obligations.Announcements : Prop :=
  (∀ s : State, s.boot.step = 10 → s.pwrState ≠ 4 → s.getF devB F.ANN_CFG_ANN_PER ≠ 0 →
    ∃ t, exec .announcePeriodic s = .next t ∧
      t.net.annSeq = (if s.annPorts.isEmpty then s.net.annSeq else (s.net.annSeq + 1) % 65536)) ∧
  (∀ s : State, s.boot.step = 10 → s.pwrState ≠ 4 → s.degraded ≠ s.degShown →
    ∃ t, exec .degradedChange s = .next t ∧ t.degShown = s.degraded ∧ t.getF devB F.DEV_EVENT_DEGRADE_EV = 1 ∧
      t.net.annSeq = (if s.annPorts.isEmpty then s.net.annSeq else (s.net.annSeq + 1) % 65536)) ∧
  (∀ (s : State) (m : List Byte), s.boot.step = 10 → m.length = 48 → beAt m 0 2 = 0x4841 → beAt m 2 1 = 1 →
    tag16 s.annKey (m.take 32) = m.drop 32 → beAt m 4 2 % 0x4000 = s.getF devB F.DEV_NUM_DEVNUM →
    beAt m 8 8 ≠ s.getF devB F.DEV_SERIAL_SERIAL →
    ∃ t, exec (.announceReceived m) s = .next t ∧ t.dup = true ∧ t.getF devB F.DEV_EVENT_DUP_EV = 1)

/-! ## Courses from motion (02_courses) -/

/-- A course opens: at the expiry of the course timer of a running group that is not re-run, with the position while that is
valid and else 0, or at the end of the 2 µs after the trigger before it, with the sample that waited. The group's course
number, its count register and its history take it, no course waits any more, and no held command of an earlier course is
left. -/
def Obligations.CourseBegins : Prop :=
  ∀ (s : State) (g : Fin 16) (i : Instr) (c : Nat) (enc : Int), s.running g = true →
    c = (match (s.g g).openC with
      | none => 0
      | some k => k + 1) →
    (i = .courseTimerExpiry g ∧ s.clk 0 = true ∧ s.timerOn g = true ∧ s.rerunG g = false ∧
        enc = (if s.posValid (s.srcOf g) then s.posCount (s.srcOf g) else 0)) ∨
      (i = .overrateDelayEnd g ∧ (s.g g).dueC = some enc) →
    ∃ t, exec i s = .next t ∧ (t.g g).openC = some c ∧ (t.g g).lastTrig = some s.now ∧ (t.g g).dueC = none ∧
      (t.g g).st = 2 ∧ t.getF (crsB g) F.CRS_COUNT_COURSE = c % 2 ^ 64 ∧
      Tab.get [] g t.hist = Tab.get [] g s.hist ++ [⟨c, enc, s.sec, s.ns⟩] ∧ (∀ h ∈ t.held, h.grp = g → c ≤ h.course)

/-- The divider of the one running group that a quadrature channel drives, at one accepted change of its pins, a forward count above the high-water mark in a
cycle in which it has not advanced yet: the mark follows the count and N is added to the accumulator. Below D no course falls
due. From D on D is taken off, and a course falls due: it is dropped and counted while one waits, it waits with OVERRATE set
within 2 µs of the trigger before it, and else it triggers at once. -/
def Obligations.CourseDivider : Prop :=
  ∀ (s : State) (g : Fin 16) (p : Fin 8) (pins : BitVec 3) (n k acc : Nat) (l : List Nat) (h : Int), s.posRun p = true →
    s.posMode p = 1 → (s.px p).accepted (s.filterNeed p) pins.toNat n = [(k, l)] → (s.g g).counted ≠ some s.now →
    (quadPlace (flipPins (s.px p).pins l) + 4 - quadPlace (s.px p).pins) % 4 = 1 → s.flag (posB p) F.POS_CTRL_DIR = false →
    s.runningGroups = [g.val] → s.srcOf g = p.val → s.timerOn g = false → s.rerunG g = false → s.posValid p = true →
    s.getF pwrB F.PWR_STATE_STATE ≠ 2 → h = s.posCount p + 1 → h < 2 ^ 63 → s.hwm g = s.posCount p →
    acc = (s.g g).acc + s.getF (crsB g) F.CRS_N_N →
    ∃ t, exec (.encoderTransition p ⟨pins, n⟩) s = .next t ∧ (t.g g).counted = some s.now ∧
      (acc < s.getF (crsB g) F.CRS_D_D →
        t.posCount p = h ∧ t.hwm g = h ∧ (t.g g).acc = acc ∧ (t.g g).openC = (s.g g).openC ∧ t.hist = s.hist) ∧
      (s.getF (crsB g) F.CRS_D_D ≤ acc → (t.g g).acc = acc - s.getF (crsB g) F.CRS_D_D ∧
        ((s.g g).dueC ≠ none → t.hist = s.hist ∧ (t.g g).dueC = (s.g g).dueC ∧
          t.getF (crsB g) F.CRS_DROPS_DROPS = satAdd 32 (s.getF (crsB g) F.CRS_DROPS_DROPS) 1) ∧
        ((s.g g).dueC = none → ∀ last, (s.g g).lastTrig = some last → s.now - last < 500 →
          t.hist = s.hist ∧ (t.g g).dueC = some h ∧ t.getF (crsB g) F.CRS_STATUS_OVERRATE = 1) ∧
        ((s.g g).dueC = none → (∀ last, (s.g g).lastTrig = some last → 500 ≤ s.now - last) →
          ∃ c, (t.g g).openC = some c ∧ c = ((s.g g).openC.map (· + 1)).getD 0 ∧ (t.g g).lastTrig = some s.now ∧
            Tab.get [] g t.hist = Tab.get [] g s.hist ++ [⟨c, h, s.sec, s.ns⟩]))

/-- The pins of a position channel at a state for some samples. While no pin that differs has held its level for FILT + 1 samples,
only the levels and how long they have held are kept. A stopped channel only keeps what is accepted. In quadrature mode, of a
channel that drives no running group, pins accepted at one sample are one change: one step counts one, with the sign of DIR,
and a change of both pins counts nothing and sets QUAD_ERR; pins accepted at two samples are two changes, each with its own
count. In Hall mode a state that is none of the six sets HALL_STATE and makes the channel invalid; from the last valid state to
another it counts one or two either way or, half a turn away, nothing, with HALL_SKIP set for any change but of one step. -/
def Obligations.PositionTransition : Prop :=
  ∀ (s : State) (p : Fin 8) (pins : BitVec 3) (n : Nat),
    ((∀ i < 3, bit pins.toNat i = bit (s.px p).pins i ∨ (s.px p).heldAt pins.toNat i + n < s.filterNeed p) →
      exec (.encoderTransition p ⟨pins, n⟩) s = .next (s.setPx p { s.px p with
        raw := pins.toNat
        held := (List.range 3).map (fun i => min 16 ((s.px p).heldAt pins.toNat i + n)) })) ∧
    (∀ k l q, (s.px p).accepted (s.filterNeed p) pins.toNat n = [(k, l)] → q = flipPins (s.px p).pins l →
      (s.posRun p = false → ∃ t, exec (.encoderTransition p ⟨pins, n⟩) s = .next t ∧ (t.px p).pins = q ∧ t.regs = s.regs) ∧
      (s.posRun p = true → s.drivenBy p = [] →
        ∃ t, exec (.encoderTransition p ⟨pins, n⟩) s = .next t ∧ (t.px p).pins = q ∧
        (∀ d, d = (quadPlace q + 4 - quadPlace (s.px p).pins) % 4 → s.posMode p = 1 →
          t.posCount p = toInt 64 (ofInt 64 (s.posCount p + (if d = 1 then s.posSign p else if d = 3 then -s.posSign p else 0))) ∧
          (d = 2 → t.getF (posB p) F.POS_STATUS_QUAD_ERR = 1)) ∧
        (s.posMode p = 2 → hallPlace q = none → (t.px p).hall = (s.px p).hall ∧
          t.getF (posB p) F.POS_STATUS_HALL_STATE = 1 ∧ t.posValid p = false ∧ t.posCount p = s.posCount p) ∧
        (∀ a b d : Nat, s.posMode p = 2 → hallPlace (s.px p).hall = some a → hallPlace q = some b → d = (b + 6 - a) % 6 →
          (t.px p).hall = q ∧ t.posValid p = true ∧
          t.posCount p = toInt 64 (ofInt 64 (s.posCount p +
            (if d = 1 then 1 else if d = 2 then 2 else if d = 4 then -2 else if d = 5 then -1 else 0) * s.posSign p)) ∧
          (d = 2 ∨ d = 3 ∨ d = 4 → t.getF (posB p) F.POS_STATUS_HALL_SKIP = 1)))) ∧
    (∀ k l k' l' q q' (e e' : Int), (s.px p).accepted (s.filterNeed p) pins.toNat n = [(k, l), (k', l')] →
      q = flipPins (s.px p).pins l → q' = flipPins q l' → s.posRun p = true → s.posMode p = 1 → s.drivenBy p = [] →
      (quadPlace q + 4 - quadPlace (s.px p).pins) % 4 = (if e = 1 then 1 else 3) →
      (quadPlace q' + 4 - quadPlace q) % 4 = (if e' = 1 then 1 else 3) → e = 1 ∨ e = -1 → e' = 1 ∨ e' = -1 →
      ∃ t, exec (.encoderTransition p ⟨pins, n⟩) s = .next t ∧ (t.px p).pins = q' ∧
        t.posCount p = toInt 64 (ofInt 64 (s.posCount p + (e + e') * s.posSign p)))

/-- RUN rises on a stopped channel: POS_COUNT is kept, the speed is 0, and it is valid at once in quadrature mode and in Hall
mode from a valid state; on a running one nothing changes. In Hall mode the timeout sets the speed to 0. In the other modes
the end of a window gives the speed in counts a second, towards zero, where it fits the register. -/
def Obligations.PositionRunAndSpeed : Prop :=
  ∀ (s : State) (p : Fin 8),
    (s.getF (posB p) F.POS_CTRL_RUN = 0 → ∃ t, exec (.posRunSet p) s = .next t ∧ t.getF (posB p) F.POS_CTRL_RUN = 1 ∧
      t.posCount p = s.posCount p ∧ t.getF (posB p) F.POS_SPEED_SPEED = 0 ∧ (t.px p).idx = none ∧ (t.px p).serRef = none ∧
      t.posValid p = (s.posMode p == 1 || (s.posMode p == 2 && (hallPlace (s.px p).pins).isSome)) ∧ t.grp = s.grp) ∧
    (s.getF (posB p) F.POS_CTRL_RUN = 1 → exec (.posRunSet p) s = .next s) ∧
    (s.posRun p = true → s.posMode p = 2 → ∃ t, exec (.hallSpeedTimeout p) s = .next t ∧
      t.getF (posB p) F.POS_SPEED_SPEED = 0 ∧ t.posCount p = s.posCount p ∧ t.grp = s.grp) ∧
    (∀ v, v = truncDiv ((s.posCount p - (s.px p).winPos) * 250000000) (2 ^ 18) → s.posRun p = true → s.posMode p ≠ 2 →
      -(2 ^ 31) ≤ v → v < 2 ^ 31 → ∃ t, exec (.speedWindowEnd p) s = .next t ∧
        t.getI (posB p) F.POS_SPEED_SPEED = v ∧ (t.px p).winPos = s.posCount p ∧ t.posCount p = s.posCount p ∧ t.grp = s.grp)

/-- Serial position: a request latches the instant and the course view and clocks the frame; a timeout sets SER_TIMEOUT and
makes the channel invalid; a frame with the error bit or a wrong CRC sets its flag, moves nothing and makes it invalid; a
good frame makes it valid, the first as the reference, each later one moving POS_COUNT by the signed difference, with the sign
of DIR (the model's choice, log entry 47; here of a channel that drives no running group). -/
def Obligations.SerialPosition : Prop :=
  ∀ (s : State) (p : Fin 8), s.posRun p = true → s.posMode p = 3 →
    (∃ t, exec (.serFrameRequest p) s = .next t ∧ (t.px p).serAt = some (s.now, s.stampDev) ∧ t.regs = s.regs ∧
      t.out = s.out ++ [.pulse (.posSck p) (4 * (s.getF (posB p) F.SER_CFG_SCK_DIV + 1))]) ∧
    ((s.px p).serAt ≠ none →
      (∃ t, exec (.serTimeout p) s = .next t ∧ (t.px p).serAt = none ∧ t.getF (posB p) F.POS_STATUS_SER_TIMEOUT = 1 ∧
        t.posValid p = false ∧ t.posCount p = s.posCount p) ∧
      (∀ (err : Bool) (pos : BitVec 48) (crc : BitVec 16) (v w : Nat), w = s.getF (posB p) F.SER_CFG_WIDTH →
        v = pos.toNat % 2 ^ w → ∃ t, exec (.serFrameReceived p err pos crc) s = .next t ∧ (t.px p).serAt = none ∧
          (err = true → t.getF (posB p) F.POS_STATUS_SER_ERRBIT = 1) ∧
          (s.serCrc p err v ≠ crc.toNat % 2 ^ s.serCrcLen p → t.getF (posB p) F.POS_STATUS_SER_CRC = 1) ∧
          (err = true ∨ s.serCrc p err v ≠ crc.toNat % 2 ^ s.serCrcLen p → t.posValid p = false ∧ t.posCount p = s.posCount p) ∧
          (err = false → s.serCrc p err v = crc.toNat % 2 ^ s.serCrcLen p → s.drivenBy p = [] →
            t.posValid p = true ∧ (t.px p).serRef = some v ∧
            t.posCount p = toInt 64 (ofInt 64 (s.posCount p + (match (s.px p).serRef with
              | none => 0
              | some r => s.posSign p * toInt w (v + 2 ^ w - r)))))))

/-- A level of Z. Until it has held for FILT + 1 samples, only the raw level and how long it has held are kept. Accepted, it is kept too, and an edge of the
polarity that ZPOL selects on a running channel with IDX_EN is an index event. The first only gives the reference, and so does
one after a change of direction or within the tolerance of IDX_PERIOD. Any other sets INDEX_SLIP; in flag mode the count stays,
in re-zero mode it becomes the reference plus or minus one period. -/
def Obligations.IndexEvents : Prop :=
  ∀ (s : State) (p : Fin 8) (z : Bool) (n : Nat),
    ((if (s.px p).zRaw = z then (s.px p).zHeld + n else n) < s.filterNeed p → s.filterNeed p ≤ 16 →
      exec (.indexEvent ⟨p, z, n⟩) s = .next (s.zRaw p z n)) ∧
    (∀ u, s.filterNeed p ≤ (if (s.px p).zRaw = z then (s.px p).zHeld + n else n) → s.filterNeed p ≤ 16 →
      u = (s.zRaw p z n).setPx p { (s.zRaw p z n).px p with z := z } →
      ((s.px p).z = z ∨ z ≠ s.zLevel p ∨ s.posRun p = false ∨ s.getF (posB p) F.IDX_CFG_IDX_EN = 0 →
        exec (.indexEvent ⟨p, z, n⟩) s = .next u) ∧
      ((s.px p).z ≠ z → z = s.zLevel p → s.posRun p = true → s.getF (posB p) F.IDX_CFG_IDX_EN = 1 →
        ∃ t, exec (.indexEvent ⟨p, z, n⟩) s = .next t ∧ t.grp = s.grp ∧
        ((s.px p).idx = none → t = u.setPx p { u.px p with idx := some (s.posCount p, (s.px p).dir) }) ∧
        (∀ prev dir, (s.px p).idx = some (prev, dir) →
          (dir ≠ (s.px p).dir ∨ ((s.px p).dir * (s.posCount p - prev) - Int.ofNat (s.getF (posB p) F.IDX_PERIOD)).natAbs ≤
              s.getF (posB p) F.IDX_CFG_IDX_TOL → t = u.setPx p { u.px p with idx := some (s.posCount p, (s.px p).dir) }) ∧
          (dir = (s.px p).dir → s.getF (posB p) F.IDX_CFG_IDX_TOL <
              ((s.px p).dir * (s.posCount p - prev) - Int.ofNat (s.getF (posB p) F.IDX_PERIOD)).natAbs →
            t.getF (posB p) F.POS_STATUS_INDEX_SLIP = 1 ∧
            (s.getF (posB p) F.POS_CTRL_IDX_MODE = 0 → t.posCount p = s.posCount p ∧
              (t.px p).idx = some (s.posCount p, (s.px p).dir)) ∧
            (s.getF (posB p) F.POS_CTRL_IDX_MODE = 1 → ∀ r, r = prev + dir * Int.ofNat (s.getF (posB p) F.IDX_PERIOD) →
              t.posCount p = toInt 64 (ofInt 64 r) ∧ (t.px p).idx = some (r, dir))))))

/-- A rising edge of COURSESYNC is producer 0xA8. Outside FOLLOW mode, and while the group that the link serves is stopped or
drains, nothing else happens. In FOLLOW mode it starts that group where it is armed and opens course 0, whether or not SRC is
valid (the model's choice, log entry 49); while that group runs, an edge whose checked course triggered longer ago than
SYNC_TOL, or is not the last one that triggered, sets SYNC_SLIP, and the group runs on. -/
def Obligations.CourseSync : Prop :=
  ∀ (s : State) (g : Nat), g = s.getF syncB F.SYNC_CTRL_SYNC_GROUP → g < 16 →
    (s.getF syncB F.SYNC_CTRL_SYNC_MODE ≠ 2 → exec .coursesyncEdge s = .next (s.fire 0xA8)) ∧
    ((s.g g).st ≠ 1 → s.running g = false → exec .coursesyncEdge s = .next (s.fire 0xA8)) ∧
    (s.getF syncB F.SYNC_CTRL_SYNC_MODE = 2 → s.running g = true → s.sync.trig = none →
      exec .coursesyncEdge s = .next { s.fire 0xA8 with sync := { s.sync with
        n := s.sync.n + 1
        due := some (if s.getF syncB F.SYNC_CTRL_SYNC_LOG = 0 then 0
          else (s.sync.n + 1) * 2 ^ s.getF syncB F.SYNC_CTRL_SYNC_LOG, s.now) } }) ∧
    (s.getF syncB F.SYNC_CTRL_SYNC_MODE = 2 → (s.g g).st = 1 →
      ∃ t, exec .coursesyncEdge s = .next t ∧ (t.g g).st = 2 ∧ (t.g g).openC = some 0 ∧ (t.g g).lastTrig = some s.now ∧
        (t.g g).closed = none ∧ t.getF (crsB g) F.CRS_COUNT_COURSE = 0 ∧ ((Tab.get [] g t.hist).getLast?.map (·.course)) = some 0) ∧
    (s.getF syncB F.SYNC_CTRL_SYNC_MODE = 2 → s.running g = true → ∀ c at' k, s.sync.trig = some (c, at') →
      k = (if s.getF syncB F.SYNC_CTRL_SYNC_LOG = 0 then 0 else (s.sync.n + 1) * 2 ^ s.getF syncB F.SYNC_CTRL_SYNC_LOG) →
      ∃ t, exec .coursesyncEdge s = .next t ∧ t.sync.n = s.sync.n + 1 ∧ t.grp = s.grp ∧
        (k < c ∨ (c = k ∧ s.getF syncB F.SYNC_CTRL_SYNC_TOL < s.now - at') → t.getF (crsB g) F.CRS_STATUS_SYNC_SLIP = 1) ∧
        (c = k → s.now - at' ≤ s.getF syncB F.SYNC_CTRL_SYNC_TOL → t.regs = s.regs) ∧
        (c < k → t.sync.due = some (k, s.now) ∧ t.regs = s.regs))

/-- COURSE_CLOSE closes the oldest course that has triggered and not closed, and consumes the stamped inputs whose effective
course it is; with no such course nothing changes. -/
def Obligations.CourseCloses : Prop :=
  ∀ (s : State) (g : Fin 16),
    (∀ o, (s.g g).openC = some o → s.nextClose g ≤ o →
      ∃ t, exec (.courseClose g) s = .next t ∧ (t.g g).closed = some (s.nextClose g) ∧ (t.g g).openC = some o ∧
        t.arrived = s.arrived.filter (fun i => !(i.grp == g.val && i.eff == Int.ofNat (s.nextClose g))) ∧
        t.hist = s.hist ∧ t.held = s.held) ∧
    (((s.g g).openC = none ∨ ∃ o, (s.g g).openC = some o ∧ o < s.nextClose g) → exec (.courseClose g) s = .next s)

/-- The oldest stamped input in flight of a class and source arrives at a running group: before the close of its course it
waits with its stamp as the effective course; after it, in the first course that has not closed, and the group's late count
of the class is raised. The L fields that it writes, if any, wait for the boundary behind its stamp, where that has not come; of
a write so late that this course has closed too, for the boundary before its effective course (that reading is the model's, log
entry 48). With none in flight nothing changes. -/
def Obligations.StampedInputs : Prop :=
  ∀ (s : State) (cls : Fin 8) (source : Nat),
    (pick (fun i => i.cls == cls.val && i.src == source) s.flight = none →
      exec (.stampedInputArrival cls source) s = .next s) ∧
    (∀ i rest, pick (fun i => i.cls == cls.val && i.src == source) s.flight = some (i, rest) → 0 ≤ i.stamp →
      (s.g i.grp).st = 2 → ∀ eff, eff = max i.stamp (Int.ofNat (s.nextClose i.grp)) →
      (i.items = [] ∨ ∀ o, (s.g i.grp).openC = some o → Int.ofNat o ≤ max i.stamp (eff - 1)) →
      ∃ t, exec (.stampedInputArrival cls source) s = .next t ∧ t.flight = rest ∧ t.grp = s.grp ∧
        t.arrived = s.arrived ++ [{ i with eff := eff }] ∧
        t.live = s.live ++ (if i.items = [] then [] else [⟨i.grp, max i.stamp (eff - 1), i.items, i.no⟩]) ∧
        (Int.ofNat (s.nextClose i.grp) ≤ i.stamp → t.regs = s.regs) ∧
        (i.stamp < Int.ofNat (s.nextClose i.grp) →
          t.getF (crsB i.grp) (F.CRS_LATE_COUNT.nth (i.cls - 1)) =
            satAdd 32 (s.getF (crsB i.grp) (F.CRS_LATE_COUNT.nth (i.cls - 1))) 1))

/-! ## The Skein link (03_skein_link) -/

/-- Signal and lock of a lane that is not OFF. LOS sets LOS and LOS_EV and leaves LOCK; its end clears LOS and what an IDLE_ENT
announced; an IDLE_ENT announces the silence that follows and takes a READY or JOINED lane of a camera to IDLE. A camera that
has been there for 10 ms in NO_CAMERA sets INSERT and starts training with a first training frame. In every state, lock and its
loss count the bad headers; lock takes LOCKING to IDENT and IDLE to READY, an unannounced loss sets LOL_EV, and with any loss
the markers are no longer aligned. That a READY lane goes to IDLE by an IDLE_ENT is the model's choice (log entry 65). -/
def Obligations.LaneSignals : Prop :=
  ∀ (s : State) (l : Fin 128), s.laneState l ≠ 0 →
    (∃ t, exec (.losAssert l) s = .next t ∧ t.getF (ingB l) F.LANE_STATUS_LOS = 1 ∧
      t.getF (ingB l) F.LANE_STATUS_LOCK = s.getF (ingB l) F.LANE_STATUS_LOCK ∧
      t.getF (ingB l) F.LANE_EVENT_LOS_EV = 1 ∧ t.laneState l = s.laneState l ∧ t.lane = s.lane ∧ t.chan = s.chan) ∧
    exec (.losClear l) s =
      .next ((s.setF (ingB l) F.LANE_STATUS_LOS 0).setLn l { s.ln l with waking := false, announced := false }) ∧
    ((s.laneState l ≠ 5 ∧ s.laneState l ≠ 6) ∨ s.getF (ingB l) F.LANE_CTRL_SRC_SEL = 1 →
      exec (.idleEntReceived l) s = .next (s.setLn l { s.ln l with announced := true })) ∧
    (s.laneState l = 5 ∨ s.laneState l = 6 → s.getF (ingB l) F.LANE_CTRL_SRC_SEL = 0 →
      ∃ t, exec (.idleEntReceived l) s = .next t ∧ t.laneState l = 7 ∧ (t.ln l).announced = true ∧
        (t.ln l).idleSince = s.now ∧ (t.ln l).aligned = false ∧ ∀ m : Fin 128, m ≠ l → t.laneState m = s.laneState m) ∧
    (s.laneState l = 1 → s.getF (ingB l) F.LANE_STATUS_LOS = 0 → s.getF (ingB l) F.LANE_CTRL_SRC_SEL = 0 →
      ∃ t r lv, exec (.insertDebounce l) s = .next t ∧ t.laneState l = 2 ∧ t.getF (ingB l) F.LANE_EVENT_INSERT = 1 ∧
        (t.ln l).trnReady = 0 ∧ t.getF (ingB l) F.LANE_STATUS_PRECODE_TX = 0 ∧ t.getF (ingB l) F.LANE_STATUS_PRECODE_RX = 0 ∧
        t.chan = s.chan ∧ t.out = s.out ++ r ++ [.back l ((true, trnBlock false 0 0 (s.ln l).frame false
          (s.flag (ingB l) F.LANE_CTRL_PRECODE_ALLOW) false) :: List.replicate 255 (false, 0)) lv]) ∧
    (∀ bad : Nat,
      (∃ t, exec (.blockLock l bad) s = .next t ∧ t.getF (ingB l) F.LANE_STATUS_LOCK = 1 ∧ (t.ln l).announced = false ∧
        (t.ln l).waking = false ∧
        t.getF (ingB l) F.LANE_HDR_ERR_HDR_ERR = satAdd 32 (s.getF (ingB l) F.LANE_HDR_ERR_HDR_ERR) bad ∧
        t.laneState l = (if s.laneState l = 3 then 4 else if s.laneState l = 7 then 5 else s.laneState l) ∧ t.chan = s.chan) ∧
      (∃ t, exec (.lockLoss l bad) s = .next t ∧ t.getF (ingB l) F.LANE_STATUS_LOCK = 0 ∧ t.laneState l = s.laneState l ∧
        t.getF (ingB l) F.LANE_HDR_ERR_HDR_ERR = satAdd 32 (s.getF (ingB l) F.LANE_HDR_ERR_HDR_ERR) bad ∧
        ((s.ln l).announced = false → t.getF (ingB l) F.LANE_EVENT_LOL_EV = 1) ∧
        ((s.ln l).announced = true → t.getF (ingB l) F.LANE_EVENT_LOL_EV = s.getF (ingB l) F.LANE_EVENT_LOL_EV) ∧
        (t.ln l).aligned = false ∧ t.chan = s.chan))

/-- The timeouts of a lane by its state: training fails to FAILED with TRAIN_FAIL, FAILED and, without LOCK, LOCKING train
again, IDENT fails to FAILED; an unannounced LOS of 100 µs and a wake burst that does not come remove the camera, to NO_CAMERA
with REMOVE; a loss of lock of 100 µs takes a JOINED lane to NO_CAMERA, and the channels that it feeds leave, unless its
dual-attach partner is joined; NO_CAMERA, where the spec names READY as well, is the model's choice (log entry 65). No other
lane changes state. -/
def Obligations.LaneTimeouts : Prop :=
  ∀ (s : State) (l : Fin 128),
    (s.laneState l = 2 → ∃ t, exec (.trainingTimeout l) s = .next t ∧ t.laneState l = 8 ∧
      t.getF (ingB l) F.LANE_EVENT_TRAIN_FAIL = 1 ∧ (t.ln l).aligned = false ∧ t.chan = s.chan) ∧
    (s.laneState l = 8 → ∃ t, exec (.failedRetry l) s = .next t ∧ t.laneState l = 2 ∧ (t.ln l).trnReady = 0 ∧ t.chan = s.chan) ∧
    (s.laneState l = 3 → s.getF (ingB l) F.LANE_STATUS_LOCK = 0 →
      ∃ t, exec (.lockingTimeout l) s = .next t ∧ t.laneState l = 2 ∧ (t.ln l).trnReady = 0 ∧ t.chan = s.chan) ∧
    (s.laneState l = 4 → exec (.identTimeout l) s = .next ((s.setF (ingB l) F.LANE_STATUS_STATE 8).unalign l)) ∧
    (2 ≤ s.laneState l → s.getF (ingB l) F.LANE_STATUS_LOS = 1 → (s.ln l).announced = false →
      s.getF (ingB l) F.LANE_CTRL_SRC_SEL = 0 →
      ∃ t, exec (.losRemoveTimeout l) s = .next t ∧ t.laneState l = 1 ∧ t.getF (ingB l) F.LANE_EVENT_REMOVE = 1 ∧
        (t.ln l).hold = false ∧ (t.ln l).aligned = false ∧ ∀ m : Fin 128, m ≠ l → t.laneState m = s.laneState m) ∧
    ((s.ln l).waking = true → s.laneState l = 7 ∨ s.laneState l = 2 →
      ∃ t, exec (.wakeBurstTimeout l) s = .next t ∧ t.laneState l = 1 ∧
      t.getF (ingB l) F.LANE_EVENT_IDLE_TMO = 1 ∧ t.getF (ingB l) F.LANE_EVENT_REMOVE = 1 ∧ (t.ln l).announced = false ∧
      (t.ln l).waking = false ∧ t.chan = s.chan) ∧
    (s.laneState l = 6 → s.getF (ingB l) F.LANE_STATUS_LOCK = 0 → s.getF (ingB l) F.LANE_CTRL_SRC_SEL = 0 →
      ∃ t, exec (.lolGraceExpiry l) s = .next t ∧ t.laneState l = 1 ∧ (t.ln l).aligned = false ∧
        (s.bond l ≠ 3 → ∀ ch ∈ s.fedBy l, s.joined ch = true → (t.ch ch).leaving = true) ∧
        (s.bond l = 3 → s.laneState (if l.val % 2 = 0 then l.val + 1 else l.val - 1) = 6 → t.chan = s.chan) ∧
        ∀ m : Fin 128, m ≠ l → t.laneState m = s.laneState m)

/-- Writes of EN and IDLE_REQ. EN = 1 does nothing where a lane of its bond has another BOND value or its rings fail their checks.
Otherwise it takes a lane with power, its clock and a calibrated quad out of OFF, to NO_CAMERA, where its source is the
camera; without them it stays OFF. EN = 0 turns it off and unlocks it. IDLE_REQ = 1 idles a READY or JOINED lane of a camera
after four IDLE_ENT blocks in their wire form; IDLE_REQ = 0 sends an idle lane a training frame and a WAKE block, and after more
than 10 s, with PRESET, it trains anew. In any other state, and on a lane with the memory source, only the bit is written. -/
def Obligations.LaneRequests : Prop :=
  ∀ (s : State) (l : Fin 128),
    (s.bondWhole l = false ∨ s.laneStatus l ≠ stOk → exec (.laneEnable l true) s = .next s) ∧
    (s.laneState l = 0 → s.getF (ingB l) F.LANE_CTRL_SRC_SEL = 0 → s.bondWhole l = true → s.laneStatus l = stOk →
      ∃ t, exec (.laneEnable l true) s = .next t ∧ t.getF (ingB l) F.LANE_CTRL_EN = 1 ∧
        t.laneState l = (if s.quadOn l = true ∧ s.getF clkB F.CLK_SRC_NET_REF ≠ 1 ∧ s.failsAt 5 (l / 4) = false then 1 else 0)) ∧
    (∃ t, exec (.laneEnable l false) s = .next t ∧ t.getF (ingB l) F.LANE_CTRL_EN = 0 ∧ t.laneState l = 0 ∧
      t.getF (ingB l) F.LANE_STATUS_LOCK = 0 ∧ (t.ln l).announced = false ∧ (t.ln l).hold = false ∧
      (t.ln l).aligned = false ∧ ∀ m : Fin 128, m ≠ l → t.laneState m = s.laneState m) ∧
    (s.laneState l = 5 ∨ s.laneState l = 6 → s.getF (ingB l) F.LANE_CTRL_SRC_SEL = 0 → ∃ t, exec (.laneIdleReq l) s = .next t ∧
      t.getF (ingB l) F.LANE_CTRL_IDLE_REQ = 1 ∧ t.laneState l = 7 ∧ (t.ln l).idleSince = s.now ∧
      ∃ r, t.out = s.out ++ .back l (List.replicate 4 (true, 0x78 * 2 ^ 56))
        (wireForm (s.flag (ingB l) F.LANE_STATUS_PRECODE_TX) (s.ln l).scr (s.ln l).sym
          (List.replicate 4 (true, 0x78 * 2 ^ 56))).1 :: r) ∧
    ((s.laneState l ≠ 5 ∧ s.laneState l ≠ 6) ∨ s.getF (ingB l) F.LANE_CTRL_SRC_SEL = 1 →
      exec (.laneIdleReq l) s = .next (s.setF (ingB l) F.LANE_CTRL_IDLE_REQ 1)) ∧
    (s.laneState l = 7 → s.getF (ingB l) F.LANE_CTRL_SRC_SEL = 0 → ∃ t b lv lw r, exec (.laneWakeReq l) s = .next t ∧
      t.getF (ingB l) F.LANE_CTRL_IDLE_REQ = 0 ∧ (t.ln l).waking = true ∧
      t.out = s.out ++ [.back l ((true, b) :: List.replicate 255 (false, 0)) lv, .back l [(true, 0x87 * 2 ^ 56)] lw] ++ r ∧
      octet b 0 = 0x33 ∧ bit (octet b 1) 3 = decide (2500000000 < s.now - (s.ln l).idleSince) ∧
      t.laneState l = (if 2500000000 < s.now - (s.ln l).idleSince then 2 else 7)) ∧
    (s.laneState l ≠ 7 ∨ s.getF (ingB l) F.LANE_CTRL_SRC_SEL = 1 →
      exec (.laneWakeReq l) s = .next (s.setF (ingB l) F.LANE_CTRL_IDLE_REQ 0))

/-- A training frame of the camera in TRAINING: one frame is answered, the requested step of each coefficient is taken unless
the override holds it, the count of frames with RX_READY on both sides goes on or starts again, and the eighth ends training:
an IDLE block follows, and the lane goes to LOCKING, or with LOCK on to IDENT. A frame whose identification or CRC-8 is wrong
does nothing. -/
def Obligations.LaneTraining : Prop :=
  ∀ (s : State) (l : Fin 128) (trn : BitVec 64) (ready : Bool), s.laneState l = 2 →
    (octet trn.toNat 0 ≠ 0x33 ∨ octet trn.toNat 7 ≠ crc8 trn.toNat → exec (.trainingFrameReceived l trn ready) s = .next s) ∧
    (∀ n, octet trn.toNat 0 = 0x33 → octet trn.toNat 7 = crc8 trn.toNat →
      n = (if bit (octet trn.toNat 3) 7 && ready then (s.ln l).trnReady + 1 else 0) →
      ∃ t b lv lw, exec (.trainingFrameReceived l trn ready) s = .next t ∧
        t.out = s.out ++ .back l ((true, b) :: List.replicate 255 (false, 0)) lv ::
          (if 8 ≤ n then [.back l [(true, 0x1E * 2 ^ 56)] lw] else []) ∧ octet b 0 = 0x33 ∧
        t.laneState l = (if 8 ≤ n then (if s.flag (ingB l) F.LANE_STATUS_LOCK then 4 else 3) else 2) ∧
        (t.ln l).trnReady = n ∧ (t.ln l).frame = ((s.ln l).frame + 1) % 256 ∧
        (s.flag (ingB l) F.LANE_CTRL_FIR_OVR = true → (t.ln l).pre = (s.ln l).pre ∧ (t.ln l).post = (s.ln l).post) ∧
        (s.flag (ingB l) F.LANE_CTRL_FIR_OVR = false → bit (octet trn.toNat 1) 3 = true → (t.ln l).pre = 0 ∧ (t.ln l).post = 0) ∧
        (s.flag (ingB l) F.LANE_CTRL_FIR_OVR = false → bit (octet trn.toNat 1) 3 = false →
          (t.ln l).pre = (firStep (bits (octet trn.toNat 1) 7 6) (s.ln l).pre 10 (s.ln l).post).1 ∧
          (t.ln l).post = (firStep (bits (octet trn.toNat 1) 5 4) (s.ln l).post 16 (t.ln l).pre).1) ∧
        (bit (octet trn.toNat 3) 5 = true → t.getF (ingB l) F.LANE_STATUS_PRECODE_RX = 1) ∧
        (bit (octet trn.toNat 3) 6 = true → t.getF (ingB l) F.LANE_STATUS_PRECODE_TX = 1) ∧ t.chan = s.chan)

/-- Packets of a lane. Blocks that no SOP begins are no packet. A packet that fails HCRC is counted, sets HCRC_ERR and does
nothing else, whichever it was to be; one whose VC and DT do not pair sets VC_ERR. An IDENT fills CAM_ID in every state, takes
IDENT to READY, and holds the lane with IDENT_MISMATCH where it is wrong, which takes JOINED back to READY. A control reply frees its tag and
gives the waiting command its result, and so does its timeout, with HW_FAULT. Camera data without CAM_EN only notes its SEQ;
with CAM_EN it goes to the camera-data ring. The lane is in any state but OFF. -/
def Obligations.LanePackets : Prop :=
  ∀ (s : State) (l : Fin 128) (words : List (BitVec 64)), s.laneState l ≠ 0 →
    (∀ i : Instr, i = .identReceived l words ∨ i = .cameraDataPacket l words false ∨ i = .controlReplyReceived l words →
      (checkPacket (words.map BitVec.toNat) false = .hcrc →
        ∃ t, exec i s = .next t ∧ t.getF (ingB l) F.LANE_EVENT_HCRC_ERR = 1 ∧ t.lane = s.lane ∧ t.chan = s.chan ∧ t.sess = s.sess ∧
          t.getF (ingB l) F.LANE_PKT_ERR_HCRC_CNT = satAdd 16 (s.getF (ingB l) F.LANE_PKT_ERR_HCRC_CNT) 1) ∧
      (checkPacket (words.map BitVec.toNat) false = .vc → exec i s = .next (s.laneEvent l F.LANE_EVENT_VC_ERR)) ∧
      (checkPacket (words.map BitVec.toNat) false = .none → exec i s = .next s)) ∧
    (∀ q body, checkPacket (words.map BitVec.toNat) false = .ok 2 0x30 q body → octet (body.headD 0) 0 = 1 →
      ∃ t, exec (.identReceived l words) s = .next t ∧ t.getF (ingB l) F.CAM_ID0_ID0 = body.headD 0 % 2 ^ 64 ∧
        t.getF (ingB l) F.CAM_ID2_ID2 = body.getD 2 0 % 2 ^ 64 ∧ (t.ln l).hold = s.identBad l body ∧
        (s.identBad l body = true → t.getF (ingB l) F.LANE_EVENT_IDENT_MISMATCH = 1 ∧ t.laneState l ≠ 6) ∧
        (s.laneState l = 4 → t.laneState l = 5) ∧
        (s.laneState l ≠ 4 → s.laneState l ≠ 6 → t.laneState l = s.laneState l) ∧
        (s.laneState l = 6 → body.getD 1 0 ≠ s.getF (ingB l) F.CAM_ID1_ID1 → t.laneState l = 5)) ∧
    (∀ q body sess sq op, checkPacket (words.map BitVec.toNat) false = .ok 2 0x31 q body →
      Tab.find (octet (body.headD 0) 1) (s.ln l).tags = some (sess, sq, op) →
      ∃ t, exec (.controlReplyReceived l words) s = .next t ∧
        (t.ln l).tags = Tab.del (octet (body.headD 0) 1) (s.ln l).tags ∧
        ∀ e ∈ t.sess, e.id = sess → ∀ o ∈ e.outst, o.hdr.seq.toNat = sq → o.op = 0x0304 → o.result ≠ none) ∧
    (∀ (tag : Fin 16) n sess sq op, (s.ln l).tags[tag.val]? = some (n, sess, sq, op) →
      Tab.find n (s.ln l).tags = some (sess, sq, op) →
      ∃ t, exec (.controlReplyTimeout l tag) s = .next t ∧ (t.ln l).tags = Tab.del n (s.ln l).tags ∧ t.regs = s.regs ∧
        ∀ e ∈ t.sess, e.id = sess → ∀ o ∈ e.outst, o.hdr.seq.toNat = sq → o.op = 0x0304 → o.result ≠ none) ∧
    (∀ vc dt q body, vc = 1 ∨ vc = 3 → checkPacket (words.map BitVec.toNat) false = .ok vc dt q body →
      exec (.cameraDataPacket l words false) s = .next ((s.seqNote l vc q).camData l vc dt body) ∧
      (s.getF (ingB l) F.CAM_RING_CAM_EN = 0 → exec (.cameraDataPacket l words false) s = .next (s.seqNote l vc q)))

/-- The markers of a bond, from LOCKING on. Each is held with the block at which it came; once every lane of the bond has sent
that marker, within 32 blocks the whole bond is aligned, and further apart every lane of it is unaligned and BOND_SKEW is set.
On a lane without a bond they do nothing. -/
def Obligations.BondAlignment : Prop :=
  ∀ (s : State) (l : Fin 128) (marker : BitVec 16) (at' : Nat),
    (s.laneState l < 3 ∨ s.bond l = 0 ∨ s.bond l = 3 → exec (.alignReceived l ⟨marker, at'⟩) s = .next s) ∧
    (∀ u, 3 ≤ s.laneState l → s.bond l = 1 ∨ s.bond l = 2 →
      u = s.setLn l { s.ln l with align := some (marker.toNat, at') } →
      (skewOf marker.toNat ((s.bondLanes l).map (fun m => (u.ln m).align)) = none →
        exec (.alignReceived l ⟨marker, at'⟩) s = .next u) ∧
      (∀ k, skewOf marker.toNat ((s.bondLanes l).map (fun m => (u.ln m).align)) = some k →
        ∃ t, exec (.alignReceived l ⟨marker, at'⟩) s = .next t ∧ t.chan = s.chan ∧
          (∀ m ∈ s.bondLanes l, (t.ln m).aligned = decide (k ≤ 32)) ∧
          (32 < k → t.getF (ingB l) F.LANE_EVENT_BOND_SKEW = 1) ∧ (k ≤ 32 → t.regs = s.regs)))

/-- A line packet on a lane of its own with the camera's source. Without a joined channel only its SEQ is noted. For a joined
channel of a running group, a packet that fails HCRC or PCRC is counted; of one that passes, what is wrong is counted and not
kept: the data type, an echo ahead of the group by more than one course, an echo whose course is decided, a second line of a
course; a plane that is not selected is passed over. A line that passes goes into the slot of its course, and the last-line
registers take it. -/
def Obligations.LineAcceptance : Prop :=
  ∀ (s : State) (l : Fin 128) (words : List (BitVec 64)) (cut : Bool),
    s.laneState l ≠ 0 → s.getF (ingB l) F.LANE_CTRL_SRC_SEL = 0 → s.bond l = 0 →
    (∀ dt q body, s.joined l = false → checkPacket (words.map BitVec.toNat) cut = .ok 0 dt q body →
      exec (.linePacketReceived l words cut) s = .next (s.seqNote l 0 q)) ∧
    (∀ g, s.joined l = true → s.groupOf l = some g →
      checkPacket (words.map BitVec.toNat) cut = .hcrc ∨ checkPacket (words.map BitVec.toNat) cut = .pcrc →
      ∃ t, exec (.linePacketReceived l words cut) s = .next t ∧ t.grp = s.grp ∧ t.chan = s.chan ∧ t.lane = s.lane ∧
        t.getF (ingB l) F.CRC_CNT_COUNT = satAdd 32 (s.getF (ingB l) F.CRC_CNT_COUNT) 1) ∧
    (∀ g dt q body v, s.joined l = true → s.groupOf l = some g → checkPacket (words.map BitVec.toNat) cut = .ok 0 dt q body →
      v = extendEcho (s.stampG g) (bits (body.headD 0) 31 0) →
      ∃ t, exec (.linePacketReceived l words cut) s = .next t ∧ t.grp = s.grp ∧
      (dt ≠ s.getF (ingB l) F.ING_FMT_DT_EXPECT ∨ body.length < 2 → t.chan = s.chan ∧
        t.getF (ingB l) F.DT_ERR_COUNT = satAdd 32 (s.getF (ingB l) F.DT_ERR_COUNT) 1) ∧
      (dt = s.getF (ingB l) F.ING_FMT_DT_EXPECT → 2 ≤ body.length → dt = 5 →
        bits (body.getD 1 0) 15 12 ≠ s.getF (ingB l) F.ING_FMT_PLANE_SEL → t = s.seqNote l 0 q) ∧
      (∀ w, dt = s.getF (ingB l) F.ING_FMT_DT_EXPECT → 2 ≤ body.length →
        (dt = 5 → bits (body.getD 1 0) 15 12 = s.getF (ingB l) F.ING_FMT_PLANE_SEL) →
        lineWidth dt (bits (body.getD 1 0) 11 8) = some w → (dt = 5 → w * s.getF (ingB l) F.ING_CFG_LINE_LEN ≤ 196608) →
        (s.stampG g + 1 < v → t.chan = s.chan ∧
          t.getF (ingB l) F.ECHO_ERR_COUNT = satAdd 32 (s.getF (ingB l) F.ECHO_ERR_COUNT) 1) ∧
        (v ≤ s.stampG g + 1 → v < 0 ∨ s.decided l v = true → t.chan = s.chan ∧
          t.getF (ingB l) F.LATE_LINE_COUNT = satAdd 32 (s.getF (ingB l) F.LATE_LINE_COUNT) 1) ∧
        (v ≤ s.stampG g + 1 → 0 ≤ v → s.decided l v = false → (s.ch l).holds v.toNat = true → t.chan = s.chan ∧
          t.getF (ingB l) F.DUP_LINE_COUNT = satAdd 32 (s.getF (ingB l) F.DUP_LINE_COUNT) 1) ∧
        (v ≤ s.stampG g + 1 → 0 ≤ v → s.decided l v = false → (s.ch l).holds v.toNat = false →
          lineOf (s.getF (ingB l) F.ING_CFG_LINE_LEN) v.toNat w body (imageOf (words.map BitVec.toNat)) false ∈ (t.ch l).lines ∧
          t.getF (ingB l) F.ING_LAST_LINE_CAM_LINE = bits (body.headD 0) 63 32 ∧
          (t.ln l).last = some (v.toNat, bits (body.headD 0) 63 32, bits (body.getD 1 0) 63 48))))

/-- LINE_TMO after its close, the oldest closed course of a channel without a line is declared missing and counted, also while
its group drains; a course whose upper copy waits takes that; with no such course nothing changes. -/
def Obligations.LineMissing : Prop :=
  ∀ (s : State) (l : Fin 128),
    (∀ g k c, s.workGroup l = some g → (s.waitingCourses g l).head? = some k → (s.g g).closed = some c → k ≤ c →
      (s.ch l).uppers.find? (fun o => o.course == k) = none →
      ∃ t, exec (.lineTimeout l) s = .next t ∧ ({ course := k, missing := true } : Line) ∈ (t.ch l).lines ∧
        (t.ch l).next = (s.ch l).next ∧ t.grp = s.grp ∧ t.lane = s.lane ∧
        t.getF (ingB l) F.MISS_CNT_COUNT = satAdd 32 (s.getF (ingB l) F.MISS_CNT_COUNT) 1) ∧
    (∀ g k c u, s.workGroup l = some g → (s.waitingCourses g l).head? = some k → (s.g g).closed = some c → k ≤ c →
      (s.ch l).uppers.find? (fun o => o.course == k) = some u →
      ∃ t, exec (.lineTimeout l) s = .next t ∧ u ∈ (t.ch l).lines ∧ t.grp = s.grp) ∧
    (s.workGroup l = none → exec (.lineTimeout l) s = .next s) ∧
    (∀ g, s.workGroup l = some g → (s.waitingCourses g l).head? = none ∨ (s.g g).closed = none →
      exec (.lineTimeout l) s = .next s)

/-! ## Correction, gauge, seam and segmentation (04 to 06) -/

/-- A channel whose next course may start works on that course alone: its line joins the seam engine's queue and the channel
goes on to the course after it. A course without a line comes out as FILL, every pixel masked, where no defective pixel is
replaced. A channel that may not start changes nothing. -/
def Obligations.ChannelCourse : Prop :=
  ∀ (s : State) (ch : Fin 128) (ecc : List Nat) (k : Nat), k = (s.ch ch).next →
    (∀ g, s.workGroup ch = some g → s.mayStart g ch k = true →
      ∃ t pix, exec (.channelCourseStart ch ecc) s = .next t ∧ (t.ch ch).next = k + 1 ∧
        (t.ch ch).out = (s.ch ch).out ++ [(k, pix)] ∧ t.grp = s.grp ∧ t.lane = s.lane ∧
        ((s.ch ch).lines.find? (fun l => l.course == k && !l.missing) = none →
          s.flagK g (Int.ofNat k) (corrB ch) F.CORR_CTRL_DPR_EN = false →
          pix = List.replicate (s.getF (ingB ch) F.ING_CFG_LINE_LEN) (s.getK g (Int.ofNat k) (ingB ch) F.ING_CFG_FILL, true))) ∧
    (s.workGroup ch = none → exec (.channelCourseStart ch ecc) s = .next s) ∧
    (∀ g, s.workGroup ch = some g → s.mayStart g ch k = false → exec (.channelCourseStart ch ecc) s = .next s)

/-- The gauge engine of a region. Idle, it takes the oldest request, with the table SEL names then, and that request waits no
more. At the end of a job the new table waits for the next trigger, or, in single mode, where the table in force is computed
again, the rewrite of the request's pages does; a job that is abandoned sets the flag of its reason and leaves every table as
it is. -/
def Obligations.GaugeJobs : Prop :=
  ∀ (s : State) (r : Fin 8),
    (∀ c ch, s.gaugeBusy r = none → s.nextGauge r = some (c, ch) → ∃ t, exec (.gaugeJobStart r) s = .next t ∧
      (t.ch ch).running = (s.ch ch).pendingReq.map (fun q => { q with sel := s.getF (corrB ch) F.GAUGE_CFG_SEL }) ∧
      (t.ch ch).pendingReq = none ∧ (t.ch ch).gauges = (s.ch ch).gauges ∧ t.getF (corrB ch) F.CORR_STATUS_GAUGE_PEND = 1) ∧
    ((s.gaugeBusy r ≠ none ∨ s.nextGauge r = none) → exec (.gaugeJobStart r) s = .next s) ∧
    (s.gaugeBusy r = none → exec (.gaugeJobComplete r) s = .next s) ∧
    (∀ ch q u cur c, s.gaugeBusy r = some ch → (s.ch ch).running = some q →
      u = (s.setCh ch { s.ch ch with running := none }).gaugePend ch →
      cur = ((s.ch ch).gauges.head?.map (·.2)).getD {} →
      c = (if s.flag (corrB ch) F.CORR_CTRL_GAUGE_SINGLE then u.gaugeCompute ch cur.sel (some cur.temp)
        else u.gaugeCompute ch q.sel (some q.temp)).2 →
      ∃ t, exec (.gaugeJobComplete r) s = .next t ∧ (t.ch ch).running = none ∧ (t.ch ch).gauges = (s.ch ch).gauges ∧
        (∀ tab, c = .ok tab →
          (s.flag (corrB ch) F.CORR_CTRL_GAUGE_SINGLE = false →
            (t.ch ch).done = some tab ∧ (t.ch ch).rewrite = (s.ch ch).rewrite) ∧
          (s.flag (corrB ch) F.CORR_CTRL_GAUGE_SINGLE = true →
            (t.ch ch).rewrite = some q.pages ∧ (t.ch ch).done = (s.ch ch).done)) ∧
        (∀ e, c = .error e → (t.ch ch).done = (s.ch ch).done ∧ (t.ch ch).rewrite = (s.ch ch).rewrite ∧
          t.getF (corrB ch) (match e with
            | .bad => F.CORR_STATUS_GAUGE_BAD
            | .crc => F.CORR_STATUS_GAUGE_CRC
            | .memerr => F.CORR_STATUS_GAUGE_MEMERR) = 1))

/-- Seam output of a channel whose next course is ready ends with that course in its rows; the end of a registration block
starts the next one there, with every score of the group's seams cleared; a fault of the seam path between two channels
stops every group whose run holds both and no other, and channel 127 has no such path. -/
def Obligations.SeamStage : Prop :=
  (∀ (s : State) (ch : Fin 128) (g k : Nat), s.workGroup ch = some g → k = (s.sm ch).next →
    (s.pixelsOn ch = true → s.seamReady g ch k = true → ∃ t row, exec (.seamOutputStart ch) s = .next t ∧
      (t.sm ch).next = k + 1 ∧ (t.sm ch).rows.head? = some (k, row) ∧ t.grp = s.grp ∧ t.lane = s.lane) ∧
    (s.pixelsOn ch = false ∨ s.seamReady g ch k = false → exec (.seamOutputStart ch) s = .next s)) ∧
  (∀ (s : State) (g : Fin 16) (k : Nat), k = (s.smG g).next →
    (((s.g g).st = 2 ∧ Int.ofNat k ≤ s.stampG g) ∨ (s.g g).st = 3 → s.blockDue g k = true → s.seamDone g (k - 1) = true →
      ∃ t, exec (.regBlockEnd g) s = .next t ∧ (t.smG g).block = k ∧ (t.smG g).next = k ∧ (t.smG g).lostL = false ∧
        (∀ ch ∈ s.runChans g, (t.sm ch).score = [] ∧ (t.sm ch).n = 0) ∧ t.grp = s.grp) ∧
    (s.blockDue g k = false → exec (.regBlockEnd g) s = .next s)) ∧
  (∀ (s : State) (ch : Fin 128),
    (ch.val = 127 → exec (.seamLinkFault ch) s = .next s) ∧
    (ch.val ≠ 127 → ∃ t, exec (.seamLinkFault ch) s = .next t ∧
      (∀ g < 16, (s.g g).st = 2 → s.inRun g ch = true → s.inRun g (ch.val + 1) = true →
        (t.g g).st = 3 ∧ (t.g g).last = (s.g g).openC ∧ (t.g g).dueC = none) ∧
      (∀ g < 16, s.inRun g ch = false ∨ s.inRun g (ch.val + 1) = false → t.g g = s.g g) ∧
      ((∀ g < 16, (s.g g).st = 0) → ch.val % 32 = 31 →
        t.getF (dlB (4 + ch.val / 32)) F.LINK_STATUS_FAULT_EV = 1)))

/-- The segmentation of a group. A map course that is due is labelled, and its runs wait in order. The resolution of the
oldest labelled course waits while descriptors are to be handed, takes that course otherwise, and at the last course of a
stopped group leaves no component open. A descriptor is handed where the ring has room and counted, and waits where it has
not. NOW of a running group is an accepted write of the register, an input with the group's stamp that acts at its boundary. -/
def Obligations.SegmentStages : Prop :=
  ∀ (s : State) (g : Fin 16),
    (∀ c, c = (s.sg g).next → (s.g g).st = 2 ∨ (s.g g).st = 3 → s.flag (gsegB g) F.SEG_CTRL_SEG_EN = true →
      s.hasCourse g c = true → s.seamPresent g (c + s.delayF g (Int.ofNat c) + s.delayM g (Int.ofNat c)) = true →
      s.seamPresent g (s.mapNeeds g c) = true → c < (s.sg g).res + 4 →
      ∃ t rs, exec (.segmentMapCourse g) s = .next t ∧ (t.sg g).next = c + 1 ∧ (t.sg g).runs = (s.sg g).runs ++ [(c, rs)] ∧
        (t.sg g).res = (s.sg g).res ∧ t.grp = s.grp ∧ t.mem = s.mem) ∧
    ((s.sg g).res + 4 ≤ (s.sg g).next → exec (.segmentMapCourse g) s = .next s) ∧
    (∀ c rs rest, (s.sg g).runs = (c, rs) :: rest →
      ((s.sg g).hand = [] → ∃ t, exec (.resolution g) s = .next t ∧ (t.sg g).runs = rest ∧ (t.sg g).res = c + 1 ∧
        t.grp = s.grp ∧ ((s.g g).last = some c → (s.g g).st = 3 → (t.sg g).comps = [] ∧ (t.sg g).overC = none)) ∧
      ((s.sg g).hand ≠ [] → exec (.resolution g) s = .next s)) ∧
    ((s.sg g).runs = [] → exec (.resolution g) s = .next s) ∧
    (∀ d ds, (s.sg g).hand = d :: ds →
      (s.ringFits (s.getF (gsegB g) F.DESC_RING_RING) 64 = true → ∃ t, exec (.descriptorHand g) s = .next t ∧
        (t.sg g).hand = ds ∧ (t.sg g).wait = false ∧ (t.sg g).comps = (s.sg g).comps ∧
        t.getF (gsegB g) F.DESC_COUNT_COUNT = (s.getF (gsegB g) F.DESC_COUNT_COUNT + 1) % 2 ^ 64) ∧
      (s.ringFits (s.getF (gsegB g) F.DESC_RING_RING) 64 = false → ∃ t, exec (.descriptorHand g) s = .next t ∧
        (t.sg g).hand = d :: ds ∧ (t.sg g).wait = true ∧
        t.getF (gsegB g) F.DESC_COUNT_COUNT = s.getF (gsegB g) F.DESC_COUNT_COUNT)) ∧
    ((s.sg g).hand = [] → exec (.descriptorHand g) s = .next s) ∧
    (s.running g = true → ∃ t, exec (.maskHoldNow g) s = .next t ∧ t.accepts = s.accepts + 1 ∧ t.regs = s.regs ∧
      t.grp = s.grp ∧ t.live = s.live ∧
      t.flight = s.flight ++ [{ grp := g, cls := 5, src := 0, stamp := s.stampOf g, eff := 0, dev := false, no := s.accepts
                                what := .write 0 true 0 (gsegB g + 0x70) [2 ^ 31, 2 ^ 31]
                                  [⟨F.MASK_HOLD_NOW.key (gsegB g), 1, false⟩] }]) ∧
    (s.running g = false → exec (.maskHoldNow g) s = .next s)

/-! ## Tally (07_tally) -/

/-- Tally jobs. The lowest free engine of the mask, in the turn of this group among those that share it, takes the oldest job
that waits for another engine, else the next descriptor, with the next sequence number, while fewer than 1,024 records are
open. A job that completes, while the tally clock runs, frees its engine, is counted, and its record waits for each enabled
ring. -/
def Obligations.TallyJobs : Prop :=
  (∀ (s : State) (g : Fin 16),
    (s.pickEngine g = none → exec (.jobDispatch g) s = .next s) ∧
    (∀ e, s.pickEngine g = some e → s.tallyTurn g e = false → exec (.jobDispatch g) s = .next s) ∧
    (∀ e j, s.pickEngine g = some e → s.tallyTurn g e = true → (s.tg g).jobs.find? (fun k => k.engine.isNone) = some j →
      ∃ t, exec (.jobDispatch g) s = .next t ∧ t.tallyLast = g.val ∧ t.teState e = 1 ∧
        t.getF (teB e) F.TE_STATUS_GROUP = g.val ∧
        ({ j with engine := some e } : Job) ∈ (t.tg g).jobs ∧ (t.tg g).done = (s.tg g).done) ∧
    (∀ e d, s.pickEngine g = some e → s.tallyTurn g e = true → (s.tg g).jobs.find? (fun k => k.engine.isNone) = none →
      s.dispatching g = true → (s.tg g).done.length + (s.tg g).jobs.length < 1024 →
      0 < s.avail (s.getF (gsegB g) F.DESC_RING_RING) (gtalB g) →
      (s.readEntry (s.getF (gsegB g) F.DESC_RING_RING) (gtalB g) 0 g).2 = .ok d →
      ∃ t prev, exec (.jobDispatch g) s = .next t ∧ t.tallyLast = g.val ∧ t.teState e = 1 ∧
        t.getF (gtalB g) F.TALLY_SEQ_SEQ = (s.getF (gtalB g) F.TALLY_SEQ_SEQ + 1) % 2 ^ F.TALLY_SEQ_SEQ.width ∧
        ({ seq := s.getF (gtalB g) F.TALLY_SEQ_SEQ, desc := d, prev := prev, engine := some e } : Job) ∈ (t.tg g).jobs)) ∧
  (∀ (s : State) (e : Fin 128),
    (s.jobOf e = none ∨ s.clk 3 = false → exec (.jobComplete e) s = .next s) ∧
    (∀ g j, s.clk 3 = true → s.jobOf e = some (g, j) → g < 16 → ∃ t bytes, exec (.jobComplete e) s = .next t ∧ t.teState e = 0 ∧
      t.getF (teB e) F.TE_JOBS_COUNT = (s.getF (teB e) F.TE_JOBS_COUNT + 1) % 2 ^ F.TE_JOBS_COUNT.width ∧
      (∀ k ∈ (t.tg g).jobs, k.seq ≠ j.seq) ∧
      (t.tg g).done = (let rings := (List.range 4).filter (fun r => s.flag (gtalB g) (F.RES_RING_EN.nth r))
        if rings.isEmpty then (s.tg g).done else (s.tg g).done ++ [(j.seq, bytes, rings)])))

/-- Records leave for their rings. A device that shares its number sends none. A record owed to one ring leaves where the ring
has room, is counted as dropped where it has not and FULL_DROP is set, and waits otherwise. -/
def Obligations.RecordRelease : Prop :=
  ∀ (s : State) (g : Fin 16),
    (s.dup = true → exec (.recordRelease g) s = .next s) ∧
    (∀ seq bytes r ring, s.dup = false → r < 4 → (s.tg g).done = [(seq, bytes, [r])] → s.mayRelease g r seq = true →
      ring = s.getF (gtalB g) (F.RES_RING_RING.nth r) →
      ∃ t, exec (.recordRelease g) s = .next t ∧ (t.tg g).jobs = (s.tg g).jobs ∧
        (s.ringFits ring bytes.length = true → (t.tg g).done = []) ∧
        (s.ringFits ring bytes.length = false → s.flag (gtalB g) (F.RES_RING_FULL_DROP.nth r) = true → (t.tg g).done = [] ∧
          t.getF (gtalB g) (F.RES_DROP_COUNT.nth r) = satAdd F.RES_DROP_COUNT.width (s.getF (gtalB g) (F.RES_DROP_COUNT.nth r)) 1) ∧
        (s.ringFits ring bytes.length = false → s.flag (gtalB g) (F.RES_RING_FULL_DROP.nth r) = false →
          (t.tg g).done = (s.tg g).done))

/-- A fault or watchdog of a tally engine takes it offline, with its flag and count, and ENG_FAULT for every group whose mask
holds it; its job waits for another engine, and a job that has failed on three engines sets TALLY_FAIL and ends. RESTORE takes
an offline engine back to idle and changes no other. -/
def Obligations.TallyFaults : Prop :=
  (∀ (s : State) (e : Fin 128) (i : Instr) (f : Fld),
    (i = .engineFault e false ∧ f = F.TE_STATUS_PARITY) ∨ (i = .engineFault e true ∧ f = F.TE_STATUS_RESIDUE) ∨
      (i = .engineWatchdog e ∧ f = F.TE_STATUS_TIMEOUT ∧ s.jobOf e ≠ none ∧ s.clk 3 = true) →
    ∃ t, exec i s = .next t ∧ t.teState e = 2 ∧ t.getF (teB e) f = 1 ∧
      t.getF (teB e) F.TE_FAULTS_COUNT = satAdd F.TE_FAULTS_COUNT.width (s.getF (teB e) F.TE_FAULTS_COUNT) 1 ∧
      (∀ g < 16, s.inMask g e = true → t.getF (gtalB g) F.TALLY_STATUS_ENG_FAULT = 1) ∧
      (∀ g j, s.jobOf e = some (g, j) → g < 16 →
        ((e.val :: j.fails).eraseDups.length < 3 → j ∈ (s.tg g).jobs →
          ({ j with engine := none, fails := (e.val :: j.fails).eraseDups } : Job) ∈ (t.tg g).jobs ∧
          t.getF (gtalB g) F.REDISPATCH_COUNT = satAdd F.REDISPATCH_COUNT.width (s.getF (gtalB g) F.REDISPATCH_COUNT) 1) ∧
        (3 ≤ (e.val :: j.fails).eraseDups.length → t.getF (gtalB g) F.TALLY_STATUS_TALLY_FAIL = 1 ∧ ∀ k ∈ (t.tg g).jobs, k.seq ≠ j.seq))) ∧
  (∀ (s : State) (e : Fin 128), s.jobOf e = none ∨ s.clk 3 = false → exec (.engineWatchdog e) s = .next s) ∧
  (∀ (s : State) (e : Fin 128),
    (s.teState e = 2 → exec (.teRestore e) s = .next (s.setF (teB e) F.TE_STATUS_STATE 0)) ∧
    (s.teState e ≠ 2 → exec (.teRestore e) s = .next s))

/-- A draining group with nothing left to do is stopped: DRAIN clears and no other group changes; else nothing changes. -/
def Obligations.DrainEnds : Prop :=
  ∀ (s : State) (g : Fin 16),
    ((s.g g).st = 3 → s.drained g = true → s.pixelsDone g = true → ∃ t, exec (.drainEnd g) s = .next t ∧ (t.g g).st = 0 ∧
      t.getF (gtalB g) F.TALLY_STATUS_DRAIN = 0 ∧ (∀ h : Fin 16, h ≠ g → t.g h = s.g h) ∧ t.tal = s.tal) ∧
    ((s.g g).st ≠ 3 ∨ s.drained g = false ∨ s.pixelsDone g = false → exec (.drainEnd g) s = .next s)

/-! ## Marking (08_marking) -/

/-- The list of a compare unit. A unit whose list and late entries are full discards an entry, counted, with FULL; one whose
fire point an enabled unit has passed is late, counted, with LATE, and waits for the next cycle only in LATE_MODE; any other
takes its place in the list. CLEAR empties the list. -/
def Obligations.CompareList : Prop :=
  ∀ (s : State) (u : Fin 16) (e : Int × Nat), e = (s.getI (cmpB u) F.LIST_POS_POS, s.getF (cmpB u) F.LIST_ID_ID) →
    (∃ t, exec (.listInsert u) s = .next t ∧ t.grp = s.grp ∧
      (4096 ≤ (s.c u).list.length + (s.c u).late.length → t.cmp = s.cmp ∧ t.getF (cmpB u) F.CMP_STATUS_FULL = 1 ∧
        t.getF (cmpB u) F.CMP_DROP_COUNT = satAdd F.CMP_DROP_COUNT.width (s.getF (cmpB u) F.CMP_DROP_COUNT) 1) ∧
      ((s.c u).list.length + (s.c u).late.length < 4096 →
        (s.cmpOn u = true → s.firePoint u e.1 ≤ s.chwm u →
          t.getF (cmpB u) F.CMP_STATUS_LATE = 1 ∧ (t.c u).list = (s.c u).list ∧
          t.getF (cmpB u) F.CMP_LATE_COUNT = satAdd F.CMP_LATE_COUNT.width (s.getF (cmpB u) F.CMP_LATE_COUNT) 1 ∧
          (t.c u).late = (if s.flag (cmpB u) F.CMP_CTRL_LATE_MODE then (s.c u).late ++ [e] else (s.c u).late)) ∧
        (s.cmpOn u = false ∨ s.chwm u < s.firePoint u e.1 →
          (t.c u).list = cmpPlace e (s.c u).list ∧ (t.c u).late = (s.c u).late ∧ t.out = s.out))) ∧
    (∃ t, exec (.listClear u) s = .next t ∧ (t.c u).list = [] ∧ (t.c u).late = [] ∧
      t.getF (cmpB u) F.CMP_STATUS_ENTRIES = 0 ∧ t.getF (cmpB u) F.CMP_NEXT_POS = 2 ^ 63 - 1 ∧ t.out = s.out)

/-- A compare unit. EN rises where its rings and sources allow it, with the present position as its high-water mark. The
cycle after a late insertion its entry fires: it is counted with FIRE_EV, suppressed and counted while the marking hold
acts on the unit, and else, on its own output, the pulse runs for PULSE_W. At its end the output is inactive again. A record
of the fill ring that meets the conditions becomes an entry. HOLD takes what is written. A re-run drives no output. -/
def Obligations.CompareUnits : Prop :=
  ∀ (s : State) (u : Fin 16),
    (s.cmpOn u = false → s.cmpStatus u = 0 → ∃ t, exec (.cmpEnable u) s = .next t ∧ t.cmpOn u = true ∧
      t.chwm u = s.posCount (s.getF (cmpB u) F.CMP_CTRL_SRC) ∧ t.grp = s.grp) ∧
    (s.cmpOn u = true ∨ s.cmpStatus u ≠ 0 → exec (.cmpEnable u) s = .next s) ∧
    (∀ e, s.cmpOn u = true → (s.c u).late = [e] → ∃ t, exec (.cmpLateFire u) s = .next t ∧ (t.c u).late = [] ∧
      (t.c u).list = (s.c u).list ∧ t.getF (cmpB u) F.CMP_STATUS_FIRE_EV = 1 ∧
      t.getF (cmpB u) F.CMP_FIRES_COUNT = satAdd F.CMP_FIRES_COUNT.width (s.getF (cmpB u) F.CMP_FIRES_COUNT) 1 ∧
      (s.cmpHeld u = true → (t.c u).pulseEnd = (s.c u).pulseEnd ∧
        t.getF (cmpB u) F.CMP_HELD_COUNT = satAdd F.CMP_HELD_COUNT.width (s.getF (cmpB u) F.CMP_HELD_COUNT) 1) ∧
      (s.cmpHeld u = false → s.flag (cmpB u) F.CMP_CTRL_OUT_SEL = false → s.reRunning = false →
        (t.c u).pulseEnd = some (s.now + 250 * s.getF (cmpB u) F.CMP_PULSE_PULSE_W) ∧
        ((s.c u).pulseEnd = none → t.getF (cmpB u) F.CMP_STATUS_ACTIVE = 1 ∧
          ∃ r, t.out = s.out ++ .level (.cmpo u) (true != s.flag (cmpB u) F.CMP_CTRL_POL) :: r))) ∧
    (s.cmpOn u = false → exec (.cmpLateFire u) s = .next s) ∧
    ((s.c u).pulseEnd ≠ none → ∃ t, exec (.cmpPulseEnd u) s = .next t ∧ (t.c u).pulseEnd = none ∧
      t.getF (cmpB u) F.CMP_STATUS_ACTIVE = 0 ∧ (t.c u).list = (s.c u).list ∧
      t.out = (if s.reRunning then s.out else s.out ++ [.level (.cmpo u) (false != s.flag (cmpB u) F.CMP_CTRL_POL)])) ∧
    ((s.c u).pulseEnd = none → exec (.cmpPulseEnd u) s = .next s) ∧
    (∀ ring s1 x y, ring = s.getF (cmpB u) F.CMP_FILL_RING_RING → s.cmpOn u = true →
      s.flag (cmpB u) F.CMP_CTRL_FILL_EN = true → 2 ≤ s.avail ring (cmpB u) →
      s.readEntry ring (cmpB u) 0 (blockUnit (cmpB u)) = (s1, .ok x) →
      (s1.readEntry ring (cmpB u) 1 (blockUnit (cmpB u))).2 = .ok y →
      ∃ t, exec (.cmpFillRecord u) s = .next t ∧ (s.cmpWants u (x ++ y) = false → t.cmp = s.cmp) ∧
        (s.cmpWants u (x ++ y) = true → (s.c u).list.length + (s.c u).late.length < 4096 →
          s.chwm u < s.firePoint u (s.cmpEntry u (x ++ y)).1 →
          (t.c u).list = cmpPlace (s.cmpEntry u (x ++ y)) (s.c u).list)) ∧
    (∀ hold : Bool, exec (.markHoldCtrlWrite hold) s = .next (s.setF cmpG F.MARK_HOLD_CTRL_HOLD (if hold then 1 else 0)))

/-- The tag head. TH_EN rises where its rings allow it, without a temperature, and authenticates the cassette, as AUTH_REQ does
on an enabled head while no exchange runs; one asked for during a decrement waits for its end. With a good cassette the next
automatic job waits for its decrement; one with no lines, or with a misplaced image, is over with status 0x12; with no count
left it is over with 0x10, without an authenticated cassette with 0x11, and printing stops. The result of a job that is over
leaves the head idle. -/
def Obligations.TagJobs : Prop :=
  ∀ s : State,
    (s.thOn = false → s.thStatus = 0 → ∃ t, exec .thEnable s = .next t ∧ t.thOn = true ∧ t.tag.temp = none ∧
      t.getF thB F.TH_STATUS_TEMP_WAIT = 1 ∧ t.cass.cmd = (if s.cass.cmd = 0 then 1 else s.cass.cmd) ∧
      (s.cass.cmd = 3 → t.cass.again = true)) ∧
    (s.thOn = true ∨ s.thStatus ≠ 0 → exec .thEnable s = .next s) ∧
    (s.thOn = true → s.cass.cmd = 0 → ∃ t, exec .authReq s = .next t ∧ t.cass = { s.cass with cmd := 1, nonce := [] } ∧
      t.out = (if s.reRunning then s.out else s.out ++ [.bus "TH_CS" [1]]) ∧ t.regs = s.regs) ∧
    (s.thOn = true → s.cass.cmd = 3 → exec .authReq s = .next { s with cass := { s.cass with again := true } }) ∧
    (s.thOn = false ∨ s.cass.cmd ≠ 0 ∧ s.cass.cmd ≠ 3 → exec .authReq s = .next s) ∧
    (∀ j js, s.thOn = true → s.tagCause = none → s.tag.stopped = false → s.reRunning = false → s.tag.phase = .idle →
      s.tag.again = [] → s.tag.autoQ = j :: js → ∃ t, exec .tagJobStart s = .next t ∧ t.tag.autoQ = js ∧ t.tag.job = j ∧
        (j.lines = 0 ∨ j.image % 32 ≠ 0 → t.tag.phase = .ended ∧ t.tag.status = 0x12) ∧
        (j.lines ≠ 0 → j.image % 32 = 0 → j.image + j.lines * s.rowBytes ≤ 0x1E00000000 → j.atPos = false →
          (s.getF thB F.TH_STATUS_CASS_OK = 1 → s.getF thB F.CASS_COUNT_COUNT ≠ 0 → s.cass.cmd = 0 →
            t.tag.phase = .decrement ∧ t.cass.cmd = 3) ∧
          (s.getF thB F.TH_STATUS_CASS_OK = 1 → s.getF thB F.CASS_COUNT_COUNT = 0 →
            t.tag.phase = .ended ∧ t.tag.status = 0x10 ∧ t.tag.stopped = true ∧ t.getF thB F.TH_STATUS_CASS_EV = 1) ∧
          (s.getF thB F.TH_STATUS_CASS_OK = 0 →
            t.tag.phase = .ended ∧ t.tag.status = 0x11 ∧ t.tag.stopped = true ∧ t.getF thB F.TH_STATUS_CASS_EV = 1))) ∧
    (s.thOn = false ∨ s.tagCause ≠ none ∨ s.tag.stopped = true → exec .tagJobStart s = .next s) ∧
    (s.tag.phase = .ended → s.reRunning = false → ∃ t, exec .tagJobResult s = .next t ∧ t.tag = { s.tag with phase := .idle }) ∧
    (s.tag.phase ≠ .ended → exec .tagJobResult s = .next s)

/-- Printing. A line that is due waits for its row, counted once; with its row it shifts its dots and strobes its first
pass, in the band of the temperature, and a line without a pass is over at once. The end of a strobe goes on to the next pass
or ends the line; the last line ends the tag. A row that is 1 ms late voids the tag with status 5, and an open head with status
2, which also takes CASS_OK; a sensor's level stands in its status bit. When TH_DMA fetches the rows, and that a row it cannot
read has not arrived, are the model's choice (log entry 60). -/
def Obligations.TagPrinting : Prop :=
  ∀ s : State,
    (s.thOn = true → s.tag.phase = .lines → s.tagClear = true →
      (s.tag.waiting = false → ∃ t, exec (.tagLineStart false) s = .next t ∧ t.tag = { s.tag with waiting := true } ∧
        t.getF thB F.UNDERRUN_COUNT = satAdd F.UNDERRUN_COUNT.width (s.getF thB F.UNDERRUN_COUNT) 1) ∧
      (s.tag.waiting = true → exec (.tagLineStart false) s = .next s) ∧
      ((s.fetchRows s.tag.line).tag.rows = [] → exec (.tagLineStart true) s = .next (s.fetchRows s.tag.line).underrun) ∧
      (∀ row rest, (s.fetchRows s.tag.line).tag.rows = row :: rest →
        ∃ t, exec (.tagLineStart true) s = .next t ∧ t.tag.waiting = false ∧ t.tag.band = s.bandOf (s.tag.temp.getD 0) ∧
          t.tag.dots = (row.map (fun b => (List.range 8).map (fun i => bit b.toNat i))).flatten ∧
          ((∃ h < 4, s.energy h (s.bandOf (s.tag.temp.getD 0)) ≠ 0) → t.tag.phase = .strobe ∧ t.tag.line = s.tag.line) ∧
          ((∀ h < 4, s.energy h (s.bandOf (s.tag.temp.getD 0)) = 0) → t.tag.line = s.tag.line + 1))) ∧
    (s.tag.phase ≠ .lines → exec (.tagLineStart true) s = .next s) ∧
    (s.tag.phase = .strobe → ∃ t, exec .tagStrobeEnd s = .next t ∧
      (∀ e d ps, s.tag.passes = (e, d) :: ps → t.tag = { s.tag with passes := ps } ∧
        t.out = (if s.reRunning then s.out else s.out ++ s.passOuts e d)) ∧
      (s.tag.passes = [] → t.tag.line = s.tag.line + 1 ∧ t.tag.prev1 = s.tag.dots ∧ t.tag.prev2 = s.tag.prev1 ∧
        (s.tag.line + 1 < s.tag.job.lines → t.tag.phase = .lines) ∧
        (s.tag.job.lines ≤ s.tag.line + 1 → t.tag.phase = .ended ∧ t.tag.status = 0 ∧ t.getF thB F.TH_STATUS_BUSY = 0))) ∧
    (s.tag.phase ≠ .strobe → exec .tagStrobeEnd s = .next s) ∧
    (s.tag.phase = .lines → s.tag.waiting = true → ∃ t, exec .tagUnderrunTimeout s = .next t ∧ t.tag.phase = .ended ∧
      t.tag.status = 5 ∧ t.getF thB F.TH_STATUS_VOID_EV = 1 ∧ t.getF thB F.TH_STATUS_BUSY = 0 ∧
      t.tag.again = (if s.tag.job.reprint then s.tag.again ++ [s.tag.job] else s.tag.again) ∧
      t.getF thB F.VOID_CNT_COUNT = satAdd F.VOID_CNT_COUNT.width (s.getF thB F.VOID_CNT_COUNT) 1) ∧
    (∀ (n : Fin 3) (level : Bool), ∃ t, exec (.tagSensorEdge n level) s = .next t ∧
      t.getF thB (if n = 0 then F.TH_STATUS_OPEN else if n = 1 then F.TH_STATUS_STOCK else F.TH_STATUS_JAM) =
        (if level then 1 else 0) ∧
      (n = 0 → level = true → t.getF thB F.TH_STATUS_CASS_OK = 0 ∧ t.cass.closing = false ∧
        (∀ v, s.tag.temp = some v → v < s.getI thB F.TH_HARD_HARD → s.tag.active = true →
          t.tag.status = 2 ∧ t.getF thB F.TH_STATUS_VOID_EV = 1)) ∧
      (n = 0 → level = false → t.cass.closing = true ∧ t.getF thB F.TH_STATUS_CASS_OK = s.getF thB F.TH_STATUS_CASS_OK))

/-- The cassette exchange. INFO's answer fills serial and count, and AUTH follows; AUTH's right answer, while the head is
closed, sets CASS_OK and lets printing go on; DEC's right answer takes the new count, and the tag begins. A wrong answer, or
none in 50 ms, clears CASS_OK, sets CASS_FAIL and ends the exchange, and a job that waited for its decrement is over with status
0x11. An authentication that waited for the exchange's end then begins. A retry sends the command again; 100 ms after the head
has closed the cassette is authenticated. -/
def Obligations.CassetteExchange : Prop :=
  (∀ (s : State) (bytes : List Byte),
    (s.cass.cmd = 0 → exec (.cassResponse bytes) s = .next s) ∧
    (s.cass.cmd = 1 → bytes.length = 16 → beAt bytes 0 1 = 1 → ∃ t, exec (.cassResponse bytes) s = .next t ∧ t.cass.cmd = 2 ∧
      t.getF thB F.CASS_COUNT_COUNT = beAt bytes 4 4 % 2 ^ F.CASS_COUNT_COUNT.width ∧
      t.getF thB F.CASS_SERIAL_SERIAL = beAt bytes 8 8 % 2 ^ F.CASS_SERIAL_SERIAL.width ∧ t.tag = s.tag) ∧
    (s.cass.cmd = 2 → bytes.length = 20 → beAt bytes 0 4 = s.cass.counter →
      sliceB bytes 4 16 = s.cassMac [0x41, 0x55] s.cass.serial (beAt bytes 0 4) → s.getF thB F.TH_STATUS_OPEN = 0 →
      ∃ t, exec (.cassResponse bytes) s = .next t ∧ t.cass.cmd = (if s.cass.again then 1 else 0) ∧
        t.getF thB F.TH_STATUS_CASS_OK = 1 ∧ t.tag = { s.tag with stopped := false }) ∧
    (s.cass.cmd = 2 → s.getF thB F.TH_STATUS_OPEN = 1 → ∃ t, exec (.cassResponse bytes) s = .next t ∧
      t.getF thB F.TH_STATUS_CASS_OK = 0 ∧ t.getF thB F.TH_STATUS_CASS_FAIL = 1 ∧ t.tag = s.tag) ∧
    (s.cass.cmd = 3 → bytes.length = 20 → beAt bytes 0 4 + 1 = s.getF thB F.CASS_COUNT_COUNT → s.tagCause = none →
      s.tag.phase = .decrement →
      sliceB bytes 4 16 = s.cassMac [0x44, 0x43] (s.getF thB F.CASS_SERIAL_SERIAL) (beAt bytes 0 4) →
      ∃ t, exec (.cassResponse bytes) s = .next t ∧ t.cass.cmd = (if s.cass.again then 1 else 0) ∧
        t.tag = { s.tag with phase := .lines, rows := t.tag.rows } ∧ t.getF thB F.TH_STATUS_BUSY = 1 ∧
        t.getF thB F.CASS_COUNT_COUNT = beAt bytes 0 4 % 2 ^ F.CASS_COUNT_COUNT.width)) ∧
  (∀ (s : State) (i : Instr), s.cass.cmd ≠ 0 →
    i = .cassExchangeTimeout ∨ (∃ bytes : List Byte, i = .cassResponse bytes ∧ bytes = [] ∧ s.cass.cmd ≤ 3) →
    ∃ t, exec i s = .next t ∧ t.cass.cmd = (if s.cass.again then 1 else 0) ∧ t.getF thB F.TH_STATUS_CASS_OK = 0 ∧ t.getF thB F.TH_STATUS_CASS_FAIL = 1 ∧
      (s.cass.cmd = 3 → s.tag.phase = .decrement → t.tag.phase = .ended ∧ t.tag.status = 0x11 ∧ t.tag.stopped = true) ∧
      (s.cass.cmd ≠ 3 → t.tag = s.tag)) ∧
  (∀ s : State,
    (s.cass.cmd = 0 → exec .cassExchangeTimeout s = .next s ∧ exec .cassRetry s = .next s) ∧
    (s.cass.cmd ≠ 0 → exec .cassRetry s =
      .next (if s.reRunning then s else s.emit (.bus "TH_CS" (BitVec.ofNat 8 s.cass.cmd :: s.cass.nonce)))) ∧
    (s.thOn = true → s.cass.closing = true → s.getF thB F.TH_STATUS_OPEN = 0 → ∃ t, exec .cassOpenClearDelay s = .next t ∧
      t.cass.closing = false ∧ t.cass.cmd = (if s.cass.cmd = 0 then 1 else s.cass.cmd) ∧
      (s.cass.cmd = 3 → t.cass.again = true) ∧ t.regs = s.regs) ∧
    (s.thOn = false ∨ s.cass.closing = false → exec .cassOpenClearDelay s = .next s))

/-! ## The command port (09_commands) -/

/-- What every host command shares. A device whose command port is closed answers none and changes nothing. A command of no
open session is counted. A sequence number already seen has no second effect. A role below the lowest of the opcode is
answered NOT_PERMITTED, with no effect of the opcode. -/
def Obligations.CommandChecks : Prop :=
  ∀ (s : State) (i : Instr) (h : Hdr) (op role : Nat), Instr.command i = some (h, op, role) →
    (s.portOpen = false → exec i s = .next s) ∧
    (s.portOpen = true → op ≠ 0x0101 →
      (s.findSession h = none → ∃ t, exec i s = .next t ∧ t.sess = s.sess ∧ t.mem = s.mem ∧ t.grp = s.grp ∧
        t.rings = s.rings ∧ t.held = s.held ∧
        t.getF cmdB F.CMD_NO_SESSION_COUNT = satAdd F.CMD_NO_SESSION_COUNT.width (s.getF cmdB F.CMD_NO_SESSION_COUNT) 1) ∧
      (∀ e, s.findSession h = some e → seqAbove e.hi h.seq.toNat = true ∨ seqWithin e.hi h.seq.toNat = true →
        (e.seen.contains h.seq.toNat = true → ∃ t, exec i s = .next t ∧
          t.sess = s.sess.map (fun x => if x.id = e.id then { x with heard := s.now } else x) ∧ t.mem = s.mem ∧
          t.grp = s.grp ∧ t.rings = s.rings ∧ t.held = s.held ∧ RegsKept s t) ∧
        (e.seen.contains h.seq.toNat = false → e.outst.length < 256 → h.role.toNat < role → s.fits h 0 = true →
          ∃ t, exec i s = .next t ∧ Replied t h op stNotPermitted [] ∧ t.mem = s.mem ∧ t.grp = s.grp ∧ t.rings = s.rings ∧
            t.held = s.held ∧ RegsKept s t)))

/-- The commands that only report. Each is answered OK with the bytes of its table, and changes no register but the
counters, no memory and no group. -/
def Obligations.QueryCommands : Prop :=
  ∀ (s u : State) (i : Instr) (h : Hdr) (op role : Nat) (params : List Byte), u = s.accepted h op →
    (i = .deviceInfo h ∧ op = 0x0100 ∧ role = 0 ∧
        params = be 2 (s.getF devB F.DEV_NUM_DEVNUM) ++ be 8 (s.getF devB F.DEV_SERIAL_SERIAL) ++
          be 4 (s.getF devB F.FW_VERSION_FW_VER) ++ be 1 s.stateByte ++ be 1 (s.getF devB F.CAST_STATUS_IMAGE) ++ zeros 2 ++
          be 4 s.degraded) ∨
      (i = .keepalive h ∧ op = 0x0103 ∧ role = 0 ∧ params = []) ∨
      (i = .sessionList h ∧ op = 0x0104 ∧ role = 2 ∧ params = u.sess.flatMap (fun e =>
        be 2 e.id ++ be 1 e.role ++ [0] ++ be 2 e.outst.length ++ be 2 e.udp ++ be 16 e.addr)) ∨
      (∃ g k, setOf (g : BitVec 8).toNat = some k ∧ i = .patternStatus h g ∧ op = 0x0205 ∧ role = 0 ∧
        params = be 1 (s.getF (patB k) F.PAT_STATUS_PHASE) ++ zeros 7 ++ be 8 (s.getF (patB k) F.PAT_SWAP_COURSE_COURSE) ++
          be 8 (s.getF (patB k) F.PAT_SWAPS_COUNT)) ∨
      (∃ g : BitVec 8, g.toNat < 16 ∧ i = .groupStatus h g ∧ op = 0x0302 ∧ role = 0 ∧
        params = be 1 (s.g g.toNat).st ++ zeros 7 ++ be 8 (ofInt 64 (s.stampG g.toNat)) ++
          be 8 (s.getF (crsB g.toNat) F.CRS_HWM_HWM) ++ be 4 (s.getF (crsB g.toNat) F.CRS_LAST_CSW_CSW) ++
          (List.range 6).flatMap (fun k => be 4 (s.getF (crsB g.toNat) (F.CRS_LATE_COUNT.nth k)))) ∨
      (∃ c : BitVec 8, c.toNat < 64 ∧ i = .dmaStatus h c ∧ op = 0x0504 ∧ role = 0 ∧
        params = s.dmaWord c.toNat ++ be 8 (s.getF (dmaB c.toNat) F.DMA_ADDR_ADDR) ++
          be 4 (s.getF (dmaB c.toNat) F.DMA_RESIDUE_BYTES)) ∨
      (∃ c : BitVec 16, c.toNat < 128 ∧ s.powered (corrB c.toNat) = true ∧ i = .calStatus h c ∧ op = 0x0601 ∧ role = 0 ∧
        params = be 4 (s.getF (corrB c.toNat) F.CAL_COUNT_COUNT) ++ be 8 (s.getF (corrB c.toNat) F.CAL_LAST_COURSE_COURSE) ++
          be 2 (s.getF (corrB c.toNat) F.CAL_LAST_TEMP_TEMP) ++ be 1 (s.getF (corrB c.toNat) F.CORR_STATUS_GAUGE_PEND) ++ [0]) ∨
      (i = .timeGet h ∧ op = 0x0700 ∧ role = 0 ∧ params = be 8 s.sec ++ be 4 s.ns ++ be 4 (s.localT % 2 ^ 40 / 2 ^ 16) ++
        (match s.time.sel with
          | some d => be 1 d ++ be 1 (if s.ptpLocked d then 1 else 0)
          | none => [0xFF, 0])) ∨
      (i = .ptpStatus h ∧ op = 0x0702 ∧ role = 0 ∧ params = s.ptpBytes 0 ++ s.ptpBytes 1) ∨
      (s.domOn 95 = true ∧ i = .tagStatus h ∧ op = 0x0804 ∧ role = 0 ∧
        params = be 4 (s.peekReg (thB + F.TH_STATUS_CASS_OK.off)) ++ be 4 (s.getF thB F.CASS_COUNT_COUNT)) ∨
      (s.domOn 93 = true ∧ i = .rerunStatus h ∧ op = 0x0904 ∧ role = 0 ∧
        params = be 1 (s.getF repB F.RR_STATUS_RSTATE) ++ zeros 7 ++ be 8 (s.getF repB F.RR_COURSE_COURSE) ++
          be 4 (s.getF repB F.RR_MISMATCH_COUNT)) →
    Accepts s h op role → s.fits h params.length = true →
    ∃ t, exec i s = .next t ∧ Replied t h op 0 params ∧ RegsKept s t ∧ t.mem = s.mem ∧ t.grp = s.grp

/-- Sessions. An open whose nonce is new adds one session, with a number that none has, bound to its role, address and port.
A close answers and ends its own session, a kill the one it names; the others stay. A session that times out ends alone. A
command that is complete is answered with its result, and one that is not goes on; a GROUP_STOP is complete when the open
components of its group have closed. -/
def Obligations.SessionCommands : Prop :=
  (∀ (s : State) (h : Hdr) (nonce : BitVec 128) (tmo dgram : BitVec 16) (key : List Byte), s.portOpen = true →
    h.session = 0 → s.roleKey h.role.toNat = some key → (∀ e ∈ s.sess, e.hostNonce ≠ nonce.toNat) →
    s.openStatus h tmo.toNat dgram.toNat = 0 →
    ∃ t e, exec (.sessionOpen h nonce tmo dgram) s = .next t ∧ t.sess = s.sess ++ [e] ∧ 1 ≤ e.id ∧ e.id ≤ 65535 ∧
      (∀ x ∈ s.sess, x.id ≠ e.id) ∧ e.role = h.role.toNat ∧ e.addr = h.addr.toNat ∧ e.udp = h.udp.toNat ∧
      e.timeout = (if tmo = 0 then 30 else tmo.toNat) ∧ e.maxDgram = dgram.toNat ∧ e.hi = h.seq.toNat ∧
      t.getF cmdB F.CMD_STATUS_SESSIONS = s.sess.length + 1 ∧ t.mem = s.mem ∧ t.grp = s.grp) ∧
  (∀ (s : State) (h : Hdr), Accepts s h 0x0102 0 → ∃ t, exec (.sessionClose h) s = .next t ∧
    t.sess = s.sess.filter (fun e => e.id != h.session.toNat) ∧ t.mem = s.mem ∧ t.grp = s.grp ∧ t.held = s.held) ∧
  (∀ (s : State) (h : Hdr) (id : BitVec 16), Accepts s h 0x0105 3 → (∃ e ∈ s.sess, e.id = id.toNat) →
    ∃ t, exec (.sessionKill h id) s = .next t ∧ (∀ e ∈ t.sess, e.id ≠ id.toNat) ∧
      (∀ e ∈ s.sess, e.id ≠ id.toNat → e.id ≠ h.session.toNat → e ∈ t.sess) ∧ t.mem = s.mem ∧ t.grp = s.grp ∧
      t.held = s.held) ∧
  (∀ (s : State) (id : BitVec 16), ∃ t, exec (.sessionTimeout id) s = .next t ∧
    t.sess = s.sess.filter (fun e => e.id != id.toNat) ∧ t.out = s.out ∧ t.held = s.held ∧ t.mem = s.mem ∧
    t.getF cmdB F.CMD_STATUS_SESSIONS = t.sess.length % 2 ^ F.CMD_STATUS_SESSIONS.width) ∧
  (∀ (s : State) (id : BitVec 16) (seq : BitVec 32) (e : Session) (o : Outstanding),
    s.sess.find? (fun x => x.id == id.toNat) = some e → e.outst.find? (fun x => x.hdr.seq == seq) = some o → o.op ≠ 0x0301 →
    (∀ st ps, o.result = some (st, ps) → s.findSession o.hdr = some e → s.fits o.hdr ps.length = true →
      ∃ t, exec (.commandComplete id seq) s = .next t ∧ Replied t o.hdr o.op st ps ∧ t.mem = s.mem ∧ t.grp = s.grp) ∧
    (o.result = none → s.findSession o.hdr = some e → exec (.commandComplete id seq) s = .next s)) ∧
  (∀ (s : State) (id : BitVec 16) (seq : BitVec 32) (e : Session) (o : Outstanding),
    s.sess.find? (fun x => x.id == id.toNat) = some e → e.outst.find? (fun x => x.hdr.seq == seq) = some o → o.op = 0x0301 →
    (s.compsClosed (o.arg % 16) = true → s.findSession o.hdr = some e → s.fits o.hdr 8 = true →
      ∃ t, exec (.commandComplete id seq) s = .next t ∧ t.mem = s.mem ∧ t.grp = s.grp ∧
        Replied t o.hdr o.op 0 (lastCourse (if o.arg / 16 = 0 then none else some (o.arg / 16 - 1)))) ∧
    (s.compsClosed (o.arg % 16) = false → exec (.commandComplete id seq) s = .next s))

/-- Registers. A read that every word allows is answered with the words, those with read-to-clear fields then cleared (the
taps of a locked lane, and what counters of events have come to, are free values there, log entries 6 and 68); a
word that none may read gives its status. A write or a modify that the checks allow is carried out as the write of a host;
one the checks refuse gives the status and the address, and nothing is written. With AT_COURSE the write of class L fields of
its GROUP to a later course waits for it, ACCEPTED. -/
def Obligations.RegisterCommands : Prop :=
  (∀ (s u : State) (h : Hdr) (addr : BitVec 32) (n : BitVec 16) (set : BitVec 8), u = s.accepted h 0x0200 →
    Accepts s h 0x0200 0 → 1 ≤ n.toNat → n.toNat ≤ 256 → set.toNat ≤ 1 → u.fits h (4 * n.toNat) = true →
    ((∀ a ∈ wordAddrs addr.toNat n.toNat, u.readStatus (set == 1) a = 0) →
      ∃ t, exec (.regRead h addr n set) s = .next t ∧ t.mem = s.mem ∧ t.grp = s.grp ∧
        Replied t h 0x0200 0 ((wordAddrs addr.toNat n.toNat).flatMap (fun a =>
          be 4 ((u.readNow (wordAddrs addr.toNat n.toNat)).readWord (set == 1) a)))) ∧
    (∀ a st, wordAddrs addr.toNat n.toNat = [a] → u.readStatus (set == 1) a = st → st ≠ 0 →
      ∃ t, exec (.regRead h addr n set) s = .next t ∧ Replied t h 0x0200 st [] ∧ RegsKept s t)) ∧
  (∀ (s u : State) (h : Hdr) (i : Instr) (op addr : Nat) (set : BitVec 8) (mod : Bool) (ws : List (Nat × Nat)),
    (∃ (a : BitVec 32) (n : BitVec 16) (words : List Word), i = .regWrite h a n set words ∧ op = 0x0201 ∧ addr = a.toNat ∧
        mod = false ∧ words.length = n.toNat ∧ 1 ≤ n.toNat ∧ n.toNat ≤ 256 ∧
        ws = words.map (fun w => (w.toNat, 2 ^ 32 - 1))) ∨
      (∃ (a : BitVec 32) (mask value : Word), i = .regModify h a set mask value ∧ op = 0x0202 ∧ addr = a.toNat ∧ mod = true ∧
        ws = [(value.toNat, mask.toNat)]) →
    u = s.accepted h op → Accepts s h op 2 → set.toNat ≤ 1 →
    (∀ l, u.planWrite (writerOf h set.toNat) addr ws = .ok l →
      (h.atCourse = false → ∃ t, exec i s = .next t ∧
        (∀ b f, t.getF b f = (u.carryOut (writerOf h set.toNat) mod addr ws l).1.getF b f ∧
          t.getSh b f = (u.carryOut (writerOf h set.toNat) mod addr ws l).1.getSh b f)) ∧
      (∀ g c, h.atCourse = true → h.group.toNat = g → g < 16 → h.course.toNat = c → s.held.length < 4096 →
        (l.all fun x => x.fs.kind == .L && s.groupAt x.addr == some g) = true → s.stampG g < Int.ofNat c →
        Int.ofNat c ≤ s.stampG g + 2 ^ 32 →
        ∃ t, exec i s = .next t ∧ t.held = s.held ++ [(⟨h.session.toNat, g, c, l.map WItem.write, s.accepts⟩ : Held)] ∧
          t.getF cmdB F.CMD_STATUS_HELD = s.held.length + 1 ∧ t.act = s.act ∧ t.shd = s.shd ∧ t.mem = s.mem)) ∧
    (∀ st a, u.planWrite (writerOf h set.toNat) addr ws = .error (st, a) → h.atCourse = false → u.fits h 4 = true →
      1 < st → ∃ t, exec i s = .next t ∧ Replied t h op st (be 4 a) ∧ RegsKept s t ∧ t.act = s.act ∧ t.shd = s.shd ∧
        t.held = s.held))

/-- Pattern sets. A swap of a stopped set exchanges its banks at once and leaves phase 2; one of a running set waits, ACCEPTED,
for its course, with both banks as they were. A revert copies the active bank over the shadow; while a swap, another set's
copy-back over a channel of the set, or a re-run is under way it is BUSY. Each of the two group blocks of copy-back begins when
its own old work is done, and the end of the last brings the shadow to the active bank, phase 0 and the count of swaps. What
the copy-back covers after a stop is the model's choice (log entry 57). -/
def Obligations.PatternCommands : Prop :=
  (∀ (s u : State) (h : Hdr) (group wh : BitVec 8) (course : BitVec 64) (k : Nat), u = s.accepted h 0x0203 →
    Accepts s h 0x0203 1 → setOf group.toNat = some k → wh.toNat ≤ 1 → s.phase k = 0 → s.lentTo k = false →
    s.rerunSet k = false → (k < 16 → s.flag (gtalB k) F.TALLY_STATUS_DRAIN = false) → (u.shadowOk k).2 = true →
    s.canon = true →
    (s.setRuns k = false → ∃ t, exec (.patternSwap h group wh course) s = .next t ∧ t.phase k = 2 ∧
      (∃ e ∈ t.copying, e.set = k ∧ e.chans = s.setChans k) ∧
      (∀ b f, f.pat = true → s.setAt (f.key b / 64) = k → t.getF b f = s.getSh b f ∧ t.getSh b f = s.getF b f) ∧
      (∀ b f, f.pat = true → s.setAt (f.key b / 64) ≠ k → t.getF b f = s.getF b f ∧ t.getSh b f = s.getSh b f)) ∧
    (∀ c : Int, s.setRuns k = true → c = (if wh = 0 then s.setStamp k + 1 else Int.ofNat course.toNat) →
      s.setStamp k < c → c ≤ s.setStamp k + 2 ^ 32 → s.fits h 0 = true →
      ∃ t, exec (.patternSwap h group wh course) s = .next t ∧ Replied t h 0x0203 stAccepted [] ∧ t.phase k = 1 ∧
        t.getF (patB k) F.PAT_SWAP_COURSE_COURSE = ofInt 64 c ∧ t.act = s.act ∧ t.shd = s.shd)) ∧
  (∀ (s : State) (h : Hdr) (group : BitVec 8) (k : Nat), Accepts s h 0x0204 2 → setOf group.toNat = some k →
    s.fits h 0 = true →
    (s.phase k = 0 → s.lentTo k = false → s.rerunSet k = false → s.canon = true →
      ∃ t, exec (.patternRevert h group) s = .next t ∧ Replied t h 0x0204 0 [] ∧
      t.act = s.act ∧ (∀ b f, f.pat = true →
        t.getSh b f = if s.setAt (f.key b / 64) = k then s.getF b f else s.getSh b f)) ∧
    (s.phase k ≠ 0 ∨ s.lentTo k = true ∨ s.rerunSet k = true →
      ∃ t, exec (.patternRevert h group) s = .next t ∧ Replied t h 0x0204 stBusy [] ∧ t.act = s.act ∧ t.shd = s.shd)) ∧
  (∀ (s : State) (k : Fin 17),
    (∃ t, exec (.copyBackStart k) s = .next t ∧ t.regs = s.regs ∧ t.act = s.act ∧ t.shd = s.shd ∧
      t.copying.length = s.copying.length ∧
      (∀ e ∈ s.copying, e.set ≠ k.val → e ∈ t.copying) ∧
      (∀ e ∈ s.copying, e.set = k.val → ({ e with
        seg := e.seg || s.segDone k.val e.course
        tally := e.tally || s.talliesDone k.val e.course } : CopyBack) ∈ t.copying)) ∧
    (∀ e, s.copying.find? (fun x => x.set == k.val) = some e →
      (s.phase k = 2 → e.seg = true → e.tally = true → s.canon = true → ∃ t, exec (.copyBackEnd k) s = .next t ∧
        t.phase k = 0 ∧ (∀ x ∈ t.copying, x.set ≠ k.val) ∧ t.act = s.act ∧
        t.getF (patB k) F.PAT_SWAPS_COUNT = (s.getF (patB k) F.PAT_SWAPS_COUNT + 1) % 2 ^ F.PAT_SWAPS_COUNT.width ∧
        t.getF (patB k) F.PAT_STATUS_SWAP_EV = 1 ∧
        (∀ b f, f.pat = true → t.getSh b f = if e.covers (f.key b) then s.getF b f else s.getSh b f)) ∧
      (s.phase k ≠ 2 ∨ e.seg = false ∨ e.tally = false → exec (.copyBackEnd k) s = .next s)) ∧
    (s.copying.find? (fun x => x.set == k.val) = none → exec (.copyBackEnd k) s = .next s))

/-- Groups, cameras and lanes. A start that its checks allow leaves the group running, or armed by bit 0 of FLAGS, at course
0 with none open; one they refuse gives its status and no group changes. A stop puts a running group in draining, with the
last opened course its last, and an armed one back to stopped. Every other group stays as it is. EXPOSURE of a joined channel
answers the line of the target course and sends the command on the back channel, CAMERA_CTRL sends its request under a free
tag and waits, CAMERA_IDENT sends its own. AUXSYNC counts and waits on each running channel. CAL_REQUEST leaves a request of
the channel, LANE_ADAPT adapts a lane whose taps are not frozen. -/
def Obligations.GroupAndCameraCommands : Prop :=
  (∀ (s u : State) (h : Hdr) (group flags : BitVec 8) (g : Nat), u = s.accepted h 0x0300 → Accepts s h 0x0300 1 →
    g = group.toNat → g < 16 → s.fits h 0 = true →
    ((u.startStatus g).2 = 0 → s.runPowered g = true → ∃ t, exec (.groupStart h group flags) s = .next t ∧
      (t.g g).st = (if bit flags.toNat 0 then 1 else 2) ∧ (t.g g).openC = none ∧ (t.g g).last = none ∧
      t.getF (crsB g) F.CRS_COUNT_COURSE = 0 ∧ (∀ k, k ≠ g → t.g k = s.g k)) ∧
    ((u.startStatus g).2 ≠ 0 → ∃ t, exec (.groupStart h group flags) s = .next t ∧
      Replied t h 0x0300 (u.startStatus g).2 [] ∧ t.grp = s.grp)) ∧
  (∀ (s : State) (h : Hdr) (group : BitVec 8) (g : Nat), Accepts s h 0x0301 1 → g = group.toNat → g < 16 →
    ((s.g g).st = 2 → ∃ t, exec (.groupStop h group) s = .next t ∧ (t.g g).st = 3 ∧ (t.g g).last = (s.g g).openC ∧
      (t.g g).dueC = none ∧ (∀ k, k ≠ g → t.g k = s.g k)) ∧
    ((s.g g).st = 1 → ∃ t, exec (.groupStop h group) s = .next t ∧ (t.g g).st = 0 ∧ (∀ k, k ≠ g → t.g k = s.g k)) ∧
    ((s.g g).st = 0 ∨ (s.g g).st = 3 → s.compsClosed g = true → s.fits h 8 = true → ∃ t, exec (.groupStop h group) s = .next t ∧
      Replied t h 0x0301 0 (lastCourse (s.g g).last) ∧ t.grp = s.grp)) ∧
  (∀ (s : State) (h : Hdr) (chan expId gain : BitVec 16) (exp : BitVec 32) (target : BitVec 64) (v line x w : Nat),
    Accepts s h 0x0303 1 → chan.toNat < 128 → 1 ≤ exp.toNat → exp.toNat ≤ 16777215 →
    (s.ln chan.toNat).last = some (v, line, w) → s.laneState chan.toNat = 6 → (s.ln chan.toNat).lineSince = true →
    s.fromMem chan.toNat = false → v < target.toNat → target.toNat < v + 2 ^ 31 →
    x = (line + (target.toNat - v)) % 2 ^ 32 → s.fits h 4 = true →
    ∃ t wire, exec (.exposure h chan expId exp gain 0 target) s = .next t ∧ Replied t h 0x0303 0 (be 4 x) ∧
      t.out = s.out ++ [.back chan.toNat (packetBlocks (packet 1 0x41 ((s.ln chan.toNat).seqTx.getD 1 0)
        [expId.toNat * 2 ^ 48 + x * 2 ^ 16, exp.toNat * 2 ^ 40 + gain.toNat * 2 ^ 24])) wire] ∧ RegsKept s t ∧ t.grp = s.grp) ∧
  (∀ (s : State) (h : Hdr) (chan : BitVec 16) (op count : BitVec 8) (addr : BitVec 32) (data : List (BitVec 64)) (tag : Nat),
    Accepts s h 0x0304 2 → chan.toNat < 128 → op = 1 ∨ op = 2 → data.length = (if op = 2 then count.toNat else 0) →
    1 ≤ count.toNat → count.toNat ≤ 32 → s.backOk chan.toNat = true → (s.ln chan.toNat).tags.length < 16 →
    tag = s.freeTag chan.toNat →
    ∃ t wire, exec (.cameraCtrl h chan op addr count data) s = .next t ∧
      Tab.find tag (t.ln chan.toNat).tags = some (h.session.toNat, h.seq.toNat, op.toNat) ∧
      t.out = s.out ++ [.back chan.toNat (packetBlocks (packet 2 0x43 ((s.ln chan.toNat).seqTx.getD 2 0)
        ((op.toNat * 2 ^ 56 + tag * 2 ^ 48 + count.toNat * 2 ^ 40 + addr.toNat) :: data.map BitVec.toNat))) wire] ∧
      RegsKept s t ∧ t.grp = s.grp) ∧
  (∀ (s : State) (h : Hdr) (chan : BitVec 16), Accepts s h 0x0305 2 → chan.toNat < 128 → s.backOk chan.toNat = true →
    s.fits h 0 = true →
    ∃ t wire, exec (.cameraIdent h chan) s = .next t ∧ Replied t h 0x0305 0 [] ∧ RegsKept s t ∧
      t.out = s.out ++ [.back chan.toNat (packetBlocks (packet 2 0x43 ((s.ln chan.toNat).seqTx.getD 2 0)
        [3 * 2 ^ 56 + s.freeTag chan.toNat * 2 ^ 48])) wire]) ∧
  (∀ (s : State) (h : Hdr), Accepts s h 0x0306 2 → s.domOn 95 = true → s.fits h 0 = true →
    ∃ t, exec (.auxsync h) s = .next t ∧ Replied t h 0x0306 0 [] ∧ t.grp = s.grp ∧ t.mem = s.mem ∧
      t.getF auxG F.AUX_SYNC_CNT_COUNT = satAdd F.AUX_SYNC_CNT_COUNT.width (s.getF auxG F.AUX_SYNC_CNT_COUNT) 1 ∧
      (∀ c < 32, s.auxRun c = true → (t.ax c).syncWait = true) ∧ (∀ c < 32, s.auxRun c = false → t.ax c = s.ax c)) ∧
  (∀ (s : State) (h : Hdr) (chan : BitVec 16) (ch g : Nat), Accepts s h 0x0600 1 → ch = chan.toNat → ch < 128 →
    s.groupOf ch = some g → s.gaugeDouble ch = true → s.fits h 0 = true →
    ∃ t, exec (.calRequest h chan) s = .next t ∧ Replied t h 0x0600 0 [] ∧ (t.ch ch).pendingReq.isSome = true ∧
      ((s.ch ch).pendingReq = none → (t.ch ch).pendingReq = some ⟨s.stampG g, s.reqTemp ch (s.stampG g), [], 0⟩) ∧
      t.getF (corrB ch) F.CORR_STATUS_GAUGE_PEND = 1 ∧ (∀ k, k ≠ ch → t.ch k = s.ch k) ∧ t.grp = s.grp) ∧
  (∀ (s : State) (h : Hdr) (lane : BitVec 16) (l : Nat), Accepts s h 0x0602 2 → l = lane.toNat → l < 128 →
    s.quadOn l = true → s.fits h 0 = true →
    ∃ t, exec (.laneAdapt h lane) s = .next t ∧ Replied t h 0x0602 0 [] ∧ t.laneState l = s.laneState l ∧ t.lane = s.lane ∧
      (s.flag (ingB l) F.LANE_CTRL_ADAPT_FREEZE = true → RegsKept s t ∧ t.freeCtr = s.freeCtr))

/-- The clock, marking, log and test commands. TIME_SET steps the clock to its time while no group runs and no domain is
locked; PTP_PREFER sets the preferred domain. MARK_INSERT of a free, early entry puts it in the list, MARK_CLEAR empties the
list, MARK_HOLD sets the hold; CASS_AUTH opens the exchange, also with the head disabled. LOG_READ answers the entries it names and LOG_CLEAR discards
them all. SELFTEST of an idle unit answers a result, and FAULT_INJECT makes the unit fail. -/
def Obligations.UnitCommands : Prop :=
  (∀ (s : State) (h : Hdr) (sec : BitVec 64) (ns : BitVec 32), Accepts s h 0x0701 3 → ns.toNat < 1000000000 →
    s.anyRunning = false → s.ptpLocked 0 = false → s.ptpLocked 1 = false → s.fits h 0 = true →
    ∃ t, exec (.timeSet h sec ns) s = .next t ∧ Replied t h 0x0701 0 [] ∧
      t.localT = (sec.toNat * 1000000000 + ns.toNat) * 2 ^ 40 ∧ t.getF timB F.PTP_EVENT_STEP_EV = 1 ∧
      t.grp = s.grp ∧ t.mem = s.mem) ∧
  (∀ (s : State) (h : Hdr) (d : BitVec 8), Accepts s h 0x0703 2 → d.toNat ≤ 1 → s.fits h 0 = true →
    ∃ t, exec (.ptpPrefer h d) s = .next t ∧ Replied t h 0x0703 0 [] ∧ t.getF timB F.PTP_CTRL_PREF = d.toNat ∧
      (s.ptpLocked 0 = false → s.ptpLocked 1 = false → t.localT = s.localT) ∧ t.grp = s.grp) ∧
  (∀ (s : State) (h : Hdr) (unit : BitVec 8) (pos id : BitVec 64) (u : Nat), Accepts s h 0x0800 1 → u = unit.toNat → u < 16 →
    s.domOn 95 = true → (s.c u).list.length + (s.c u).late.length < 4096 →
    s.cmpOn u = false ∨ s.chwm u < s.firePoint u (toInt 64 pos.toNat) → s.fits h 2 = true →
    ∃ t, exec (.markInsert h unit pos id) s = .next t ∧
      Replied t h 0x0800 0 (be 2 ((cmpPlace (toInt 64 pos.toNat, id.toNat) (s.c u).list).length % 2 ^ F.CMP_STATUS_ENTRIES.width)) ∧
      (t.c u).list = cmpPlace (toInt 64 pos.toNat, id.toNat) (s.c u).list ∧ (t.c u).late = (s.c u).late ∧
      (∀ k, k ≠ u → t.c k = s.c k) ∧ t.grp = s.grp) ∧
  (∀ (s : State) (h : Hdr) (unit : BitVec 8) (u : Nat), Accepts s h 0x0801 1 → u = unit.toNat → u < 16 →
    s.domOn 95 = true → s.fits h 0 = true →
    ∃ t, exec (.markClear h unit) s = .next t ∧ Replied t h 0x0801 0 [] ∧ (t.c u).list = [] ∧ (t.c u).late = [] ∧
      (∀ k, k ≠ u → t.c k = s.c k) ∧ t.grp = s.grp) ∧
  (∀ (s : State) (h : Hdr) (hold : BitVec 8), Accepts s h 0x0802 1 → hold.toNat ≤ 1 → s.domOn 95 = true → s.fits h 0 = true →
    ∃ t, exec (.markHold h hold) s = .next t ∧ Replied t h 0x0802 0 [] ∧ t.getF cmpG F.MARK_HOLD_CTRL_HOLD = hold.toNat ∧
      t.cmp = s.cmp ∧ t.grp = s.grp) ∧
  (∀ (s : State) (h : Hdr), Accepts s h 0x0803 1 → s.domOn 95 = true → s.cass.cmd = 0 →
    ∃ t, exec (.cassAuth h) s = .next t ∧ t.cass.cmd = 1 ∧ RegsKept s t ∧
      t.out = (if s.reRunning then s.out else s.out ++ [.bus "TH_CS" [1]])) ∧
  (∀ (s u : State) (h : Hdr) (i : BitVec 32) (n : BitVec 16) (bs : List Byte) (old nxt : Nat), u = s.accepted h 0x0A00 →
    Accepts s h 0x0A00 0 → old = s.getF fmB F.LOG_OLDEST_INDEX → nxt = s.getF fmB F.LOG_NEXT_INDEX →
    diff32 i.toNat old ≤ diff32 nxt old → s.fits h (64 * min n.toNat (diff32 nxt i.toNat)) = true →
    (u.readLog (min n.toNat (diff32 nxt i.toNat)) i.toNat).2 = .ok bs → s.fits h bs.length = true →
    ∃ t, exec (.logRead h i n) s = .next t ∧ Replied t h 0x0A00 0 bs ∧ t.grp = s.grp) ∧
  (∀ (s : State) (h : Hdr), Accepts s h 0x0A01 2 → s.fits h 0 = true →
    ∃ t, exec (.logClear h) s = .next t ∧ Replied t h 0x0A01 0 [] ∧
      t.getF fmB F.LOG_OLDEST_INDEX = s.getF fmB F.LOG_NEXT_INDEX % 2 ^ F.LOG_OLDEST_INDEX.width ∧
      t.getF fmB F.LOG_NEXT_INDEX = s.getF fmB F.LOG_NEXT_INDEX ∧ t.mem = s.mem ∧ t.grp = s.grp) ∧
  (∀ (s : State) (h : Hdr) (cls : BitVec 8) (index : BitVec 16), Accepts s h 0x0A02 3 → cls ≠ 3 →
    index.toNat < unitCount cls.toNat → s.domOn (unitDomain cls.toNat index.toNat) = true →
    s.unitServes cls.toNat index.toNat = false → s.fits h 4 = true →
    ∃ t r, exec (.selftest h cls index) s = .next t ∧ Replied t h 0x0A02 0 (be 4 r) ∧ r < 2 ^ 32 ∧ t.grp = s.grp) ∧
  (∀ (s : State) (h : Hdr) (index : BitVec 16), Accepts s h 0x0A03 3 → s.debugLocked = false →
    index.toNat < 128 →
    (s.domOn (unitDomain 6 index.toNat) = true → ∃ t, exec (.faultInject h 6 index) s = .next t ∧
      t.teState index.toNat = 2 ∧ t.getF (teB index.toNat) F.TE_STATUS_PARITY = 1) ∧
    (index.toNat < 2 → s.domOn (unitDomain 3 index.toNat) = true → s.linkIsUp index.toNat = true →
      ∃ t, exec (.faultInject h 3 index) s = .next t ∧ t.linkIsUp index.toNat = false ∧
        t.getF (ethB index.toNat) F.ETH_EVENT_LINK_DN_EV = 1))

/-! ## Rings, memory and codecs (10_rings, 13_memory, 14_codecs) -/

/-- Rings. A ring that a command names is used first: where its context is not cached it is read from the table. RING_CONFIG makes a ring of its parameters, RING_RELEASE an unconfigured one; neither touches another ring.
RING_SUBSCRIBE adds a subscriber from the producer index on, RING_UNSUBSCRIBE takes it away. RING_READ answers the entries it
names, RING_STATUS the indices, RING_CONSUME moves the consumer index of a ring without subscribers. A device producer
reserves free entries in order, and its index passes the entries that are complete; a host producer rings within the free
entries; on a ring of armed replay the oldest items make room. An idle subscriber of a starved full ring is dropped and counted.
A context that is used is cached, read from the table where it was not, and a parity error in the cache reads it again and is
counted. -/
def Obligations.Rings : Prop :=
  (∀ (s : State) (h : Hdr) (ring : BitVec 32) (base : BitVec 64) (dl entry : BitVec 8) (c : RingCtx) (u : State),
    Accepts s h 0x0400 2 → u = (s.accepted h 0x0400).ringUse ring.toNat →
    c = { base := base.toNat, depthLog := dl.toNat, valid := true, e256 := entry == 1 } → 0x100 ≤ ring.toNat →
    ring.toNat ≤ 0xFFFFF → 6 ≤ dl.toNat → dl.toNat ≤ 24 → entry.toNat ≤ 1 → base.toNat % 256 = 0 →
    base.toNat + c.depth * c.esize ≤ 0x1E00000000 → u.ringHeld ring.toNat = false → s.fits h 0 = true →
    ∃ t, exec (.ringConfig h ring base dl entry) s = .next t ∧ Replied t h 0x0400 0 [] ∧ t.ring ring.toNat = c ∧
      (∀ k, k ≠ ring.toNat → t.ring k = s.ring k) ∧ t.subs = s.subs ∧ t.grp = s.grp) ∧
  (∀ (s : State) (h : Hdr) (ring : BitVec 32) (id : Nat), id = ring.toNat →
    (∀ u : State, u = (s.accepted h 0x0401).ringUse id → Accepts s h 0x0401 2 → u.ringNamed id = 0 → u.ringHeld id = false →
      s.fits h 0 = true →
      ∃ t, exec (.ringRelease h ring) s = .next t ∧ Replied t h 0x0401 0 [] ∧ (t.ring id).valid = false ∧
        (∀ k, k ≠ id → t.ring k = s.ring k) ∧ t.subs = s.subs ∧ t.grp = s.grp) ∧
    (∀ (flags udp : BitVec 16) (addr : BitVec 128) (k : Nat) (u : State), u = (s.accepted h 0x0402).ringUse id →
      Accepts s h 0x0402 0 → u.ringNamed id = 0 → s.freeSub = some k → u.canSub id = true → u.canPin [id] = true →
      s.fits h 2 = true →
      ∃ t b, exec (.ringSubscribe h ring flags udp addr) s = .next t ∧ Replied t h 0x0402 0 (be 2 k) ∧
        Tab.find k t.subs = some b ∧ b.ring = id ∧ b.cursor = (u.ring id).prod ∧ (t.ring id).subs = (u.ring id).subs ++ [k] ∧
        (t.ring id).prod = (u.ring id).prod ∧ t.grp = s.grp) ∧
    (∀ sub : BitVec 16, ∀ b, Accepts s h 0x0403 0 → Tab.find sub.toNat s.subs = some b →
      (∃ hk p a e, b.who = .net hk p a e) → s.fits h 0 = true →
      ∃ t, exec (.ringUnsubscribe h sub) s = .next t ∧ Replied t h 0x0403 0 [] ∧ t.subs = Tab.del sub.toNat s.subs ∧
        sub.toNat ∉ (t.ring b.ring).subs ∧ t.grp = s.grp) ∧
    (∀ (u : State) (index : BitVec 32) (n : BitVec 16) (bs : List Byte), u = (s.accepted h 0x0404).ringUse id →
      Accepts s h 0x0404 0 → u.ringNamed id = 0 → 1 ≤ n.toNat → diff32 index.toNat (u.tail id) + n.toNat ≤ u.fill id →
      s.fits h (n.toNat * (u.ring id).esize) = true → (u.readEntries id n.toNat index.toNat).2 = .ok bs →
      s.fits h bs.length = true →
      ∃ t, exec (.ringRead h ring index n) s = .next t ∧ Replied t h 0x0404 0 bs ∧ t.rings = u.rings ∧ t.grp = s.grp) ∧
    (∀ u : State, u = (s.accepted h 0x0405).ringUse id → Accepts s h 0x0405 0 → u.ringNamed id = 0 → s.fits h 12 = true →
      ∃ t, exec (.ringStatus h ring) s = .next t ∧
        Replied t h 0x0405 0 (be 4 (u.ring id).prod ++ be 4 (u.tail id) ++ be 4 (u.ring id).drops) ∧ t.rings = u.rings ∧
        t.mem = s.mem) ∧
    (∀ (index : BitVec 32) (u : State), u = (s.accepted h 0x0406).ringUse id → Accepts s h 0x0406 1 → u.ringNamed id = 0 →
      diff32 index.toNat (u.ring id).cons ≤ diff32 (u.ring id).prod (u.ring id).cons → (u.ring id).subs = [] →
      s.fits h 0 = true →
      ∃ t, exec (.ringConsume h ring index) s = .next t ∧ Replied t h 0x0406 0 [] ∧
        t.ring id = { u.ring id with cons := index.toNat } ∧ (∀ k, k ≠ id → t.ring k = s.ring k) ∧ t.grp = s.grp)) ∧
  (∀ (s : State) (ring : BitVec 20) (n id : Nat), id = ring.toNat →
    ((s.ring id).valid = true → (s.ring id).devProd = true → n ≠ 0 →
      (s.replayRing id = false → n ≤ s.room id → ∃ t, exec (.ringReserve ring n) s = .next t ∧ t.rings = s.rings ∧
        t.resv = s.resv ++ [⟨id, ((s.ring id).prod + s.reserved id) % 2 ^ 32, n, false⟩]) ∧
      (s.replayRing id = false → s.room id < n → s.prodWaits id = true → ∃ t, exec (.ringReserve ring n) s = .next t ∧ t.rings = s.rings ∧
        t.resv = s.resv ∧ t.ringWait = s.ringWait ++ [(id, n)]) ∧
      (s.replayRing id = false → s.room id < n → s.prodWaits id = false →
        ∃ t, exec (.ringReserve ring n) s = .next t ∧ t.resv = s.resv ∧
        t.ring id = { s.ring id with drops := satAdd 32 (s.ring id).drops 1 } ∧ t.getF ringB F.RING_EVENT_FULL_EV = 1) ∧
      (∀ v : State, s.replayRing id = true → v = s.evictItems id (n * (s.ring id).esize) s.rep.items.length → n ≤ v.room id →
        ∃ t, exec (.ringReserve ring n) s = .next t ∧ t.rings = v.rings ∧ t.rep = v.rep ∧
        t.resv = v.resv ++ [⟨id, ((v.ring id).prod + v.reserved id) % 2 ^ 32, n, false⟩])) ∧
    ((s.ring id).valid = false ∨ (s.ring id).devProd = false ∨ n = 0 → exec (.ringReserve ring n) s = .next s) ∧
    (∀ at' m, s.resv.filter (fun r => r.ring == id) = [⟨id, at', m, false⟩] → m ≠ 0 →
      ∃ t, exec (.prodAdvance ring) s = .next t ∧ (t.ring id).prod = ((s.ring id).prod + m) % 2 ^ 32 ∧
        t.resv = s.resv.filter (fun r => r.ring != id) ∧ (∀ k, k ≠ id → t.ring k = s.ring k) ∧ t.grp = s.grp) ∧
    (∀ (prod : BitVec 32) (u : State), 0x100 ≤ id → u = s.ringUse id → (u.ring id).valid = true → (u.ring id).devProd = false →
      (diff32 prod.toNat (u.ring id).prod ≠ 0 → diff32 prod.toNat (u.ring id).prod ≤ u.free id →
        ∃ t, exec (.ringDoorbell ring prod) s = .next t ∧ t.ring id = { u.ring id with prod := prod.toNat } ∧
          (∀ k, k ≠ id → t.ring k = s.ring k) ∧ t.grp = s.grp) ∧
      (u.free id < diff32 prod.toNat (u.ring id).prod → exec (.ringDoorbell ring prod) s = .next u)) ∧
    (∀ parity : Bool, ∃ t, exec (.contextLoad ring parity) s = .next t ∧ (∀ k, k ≠ id → t.ring k = s.ring k) ∧ t.mem = s.mem ∧
      (parity = true ∨ id ∉ s.ctxCache → ∀ v b,
        s.memRead 1 (blockUnit ringB) (s.getF ringB F.RING_CTX_BASE_ADDR + 64 * id) 64 = (v, .ok b) → t.ring id = ctxOf b) ∧
      (parity = false → id ∈ s.ctxCache → t.rings = s.rings ∧ t.ctxCache.head? = some id ∧
        t.getF ringB F.CTX_HITS_COUNT = (s.getF ringB F.CTX_HITS_COUNT + 1) % 2 ^ F.CTX_HITS_COUNT.width) ∧
      (parity = true → id ∈ s.ctxCache → t.ctxCache = s.ctxCache ∧
        t.getF ringB F.CTX_ECC_COUNT = satAdd F.CTX_ECC_COUNT.width (s.getF ringB F.CTX_ECC_COUNT) 1) ∧
      (id ∉ s.ctxCache → t.ctxCache.head? = some id ∧
        t.getF ringB F.CTX_MISSES_COUNT = (s.getF ringB F.CTX_MISSES_COUNT + 1) % 2 ^ F.CTX_MISSES_COUNT.width))) ∧
  (∀ (s : State) (sub : Fin 1024),
    (s.evictable sub = true → ∃ t, exec (.subEviction sub) s = .next t ∧ t.subs = Tab.del sub.val s.subs ∧
      t.getF ringB F.SUB_EVICTS_COUNT = satAdd F.SUB_EVICTS_COUNT.width (s.getF ringB F.SUB_EVICTS_COUNT) 1 ∧
      t.getF ringB F.RING_EVENT_EVICT_EV = 1) ∧
    (s.evictable sub = false → exec (.subEviction sub) s = .next s))

/-- Device memory. Where no block of it is wrong, a read answers the bytes of its range and a write of a range outside the context
table stores its bytes and no other, on devices that are on, not failed and not mirrored. A refresh slot is counted; a
temperature above 85 °C sets HOT and one below 80 °C clears it. The oldest request of the first class is served, with its CRC
retries counted, up to four, and then an uncorrectable error; where none waits the retries are those of the device's next
transfer (log entry 44). A device that fails holds FAILED, and its patches are handled once; scrubbing an error-free memory
changes no register, a correctable block is counted and waits to be written back, and an uncorrectable one is counted and its
address latched; with SCRUB_PER 0 nothing is scrubbed. One channel retrains at a
time; the 64th step of a retraining counts it, and a hot device waits with it. -/
def Obligations.DeviceMemory : Prop :=
  (∀ (s : State) (h : Hdr) (addr : BitVec 64) (a n : Nat), a = addr.toNat → 1 ≤ n → n ≤ 8176 → s.memSound a n = true →
    s.canon = true →
    (∀ len : BitVec 32, Accepts s h 0x0500 2 → len.toNat = n → s.fits h n = true →
      ∃ t, exec (.memRead h addr len) s = .next t ∧ Replied t h 0x0500 0 (memGets s.mem a n) ∧ t.mem = s.mem ∧
        RegsKept s t) ∧
    (∀ data : List Byte, Accepts s h 0x0501 2 → data.length = n → s.inTable a n = false → s.fits h 0 = true →
      ∃ t, exec (.memWrite h addr data) s = .next t ∧ Replied t h 0x0501 0 [] ∧ RegsKept s t ∧
        (∀ k < n, memGet t.mem (a + k) = data.getD k 0) ∧
        (∀ x, x < a ∨ a + n ≤ x → memGet t.mem x = memGet s.mem x))) ∧
  (∀ (s : State) (d : Fin 16),
    (s.mcState d = 2 →
      (∃ t, exec (.refreshSlot d) s = .next t ∧ t.mem = s.mem ∧
        t.getF (mcB d) F.REFRESH_CNT_COUNT = (s.getF (mcB d) F.REFRESH_CNT_COUNT + 1) % 2 ^ F.REFRESH_CNT_COUNT.width) ∧
      (∀ temp : BitVec 16, ∃ t, exec (.memTempRead d temp) s = .next t ∧ t.getF (mcB d) F.MC_TEMP_TEMP = temp.toNat ∧
        t.getF (mcB d) F.MC_STATUS_HOT = (if 85 * 128 < toInt 16 temp.toNat then 1
          else if toInt 16 temp.toNat < 80 * 128 then 0 else s.getF (mcB d) F.MC_STATUS_HOT) ∧ t.mem = s.mem) ∧
      (∃ t, exec (.memDeviceFail d) s = .next t ∧ t.mcState d = 3 ∧ t.getF (mcB d) F.MC_STATUS_MIRROR_OK = 0 ∧
        t.getF (mcB d) F.MC_EVENT_FAIL_EV = 1 ∧ t.grp = s.grp) ∧
      (s.getF (mcB d) F.SCRUB_CFG_SCRUB_PER = 0 → exec (.scrubPass d) s = .next s) ∧
      (s.memBad = [] → ∃ t, exec (.scrubPass d) s = .next t ∧ t.regs = s.regs ∧ t.mem = s.mem ∧ t.memQ = s.memQ) ∧
      (∀ b n, s.memBad = [(b, n)] → b * 64 < 0x1E00000000 → devOf (b * 64) = d.val → n ≠ 0 →
        s.getF (mcB d) F.SCRUB_CFG_SCRUB_PER ≠ 0 → (s.dr d).crc = 0 → (s.dr d).ues = [] → (∀ q ∈ s.memQ, q.addr ≠ b * 64) →
        (n = 1 → ∃ t, exec (.scrubPass d) s = .next t ∧ t.mem = s.mem ∧ (∃ q ∈ t.memQ, q.addr = b * 64) ∧
          t.getF (mcB d) F.CE_CNT_COUNT = satAdd F.CE_CNT_COUNT.width (s.getF (mcB d) F.CE_CNT_COUNT) 1 ∧
          t.getF (mcB d) F.UE_CNT_COUNT = s.getF (mcB d) F.UE_CNT_COUNT) ∧
        (2 ≤ n → s.mirrored (b * 64) = false → ∃ t, exec (.scrubPass d) s = .next t ∧ t.memQ = s.memQ ∧ t.grp = s.grp ∧
          t.getF (mcB d) F.UE_CNT_COUNT = satAdd F.UE_CNT_COUNT.width (s.getF (mcB d) F.UE_CNT_COUNT) 1 ∧
          t.getF (mcB d) F.MC_EVENT_UE_EV = 1 ∧
          (s.flag (mcB d) F.MC_EVENT_UE_EV = false → t.getF (mcB d) F.UE_ADDR_ADDR = b * 64))) ∧
      (∀ (ch : Fin 4) ok, s.retrainBusy (4 * d.val + ch.val) = true → exec (.retrainStep d ch ok) s = .next s) ∧
      (∀ (ch : Fin 4) r, r = Tab.get (0, 0) (4 * d.val + ch.val) s.retrain → s.flag (mcB d) F.MC_STATUS_HOT = false →
        s.retrainBusy (4 * d.val + ch.val) = false →
        (r.1 + 1 < 64 → ∃ t, exec (.retrainStep d ch true) s = .next t ∧
          Tab.get (0, 0) (4 * d.val + ch.val) t.retrain = (r.1 + 1, r.2) ∧ t.regs = s.regs) ∧
        (64 ≤ r.1 + 1 → ∃ t, exec (.retrainStep d ch true) s = .next t ∧
          Tab.get (0, 0) (4 * d.val + ch.val) t.retrain = (0, 0) ∧
          t.getF (mcB d) F.RETRAIN_CNT_COUNT = (s.getF (mcB d) F.RETRAIN_CNT_COUNT + 1) % 2 ^ F.RETRAIN_CNT_COUNT.width)) ∧
      (s.flag (mcB d) F.MC_STATUS_HOT = true →
        exec (.retrainWait d) s = .next (s.setF (mcB d) F.MC_STATUS_RETRAIN_WAIT 1) ∧
        ∀ ch ok, exec (.retrainStep d ch ok) s = .next s)) ∧
    (s.mcState d ≠ 2 → exec (.refreshSlot d) s = .next s ∧ (∀ temp, exec (.memTempRead d temp) s = .next s) ∧
      exec (.scrubPass d) s = .next s ∧ exec (.retrainWait d) s = .next s ∧
      ∀ ch ok, exec (.retrainStep d ch ok) s = .next s) ∧
    (s.mcState d = 3 → (s.dr d).recut = true → ∃ t, exec (.memDeviceFail d) s = .next t ∧ t.mcState d = 3 ∧
      (t.dr d).recut = false ∧ t.grp = s.grp) ∧
    (s.mcState d ≠ 2 → s.mcState d ≠ 3 ∨ (s.dr d).recut = false → exec (.memDeviceFail d) s = .next s) ∧
    (∀ crc, s.clk 4 = false ∨ (s.nextReq d = none ∧ s.mcState d ≠ 2) → exec (.memRequestServe d crc) s = .next s) ∧
    (∀ crc, s.clk 4 = true → s.nextReq d = none → s.mcState d = 2 →
      exec (.memRequestServe d crc) s = .next (s.setDr d { s.dr d with crc := crc })) ∧
    (∀ crc q, s.clk 4 = true → s.nextReq d = some q →
      (∃ t, exec (.memRequestServe d crc) s = .next t ∧ t.mem = s.mem ∧ t.grp = s.grp) ∧
      (q.write = true → devOf q.addr = d.val → ∃ t, exec (.memRequestServe d crc) s = .next t ∧
        t.getF (mcB d) F.CRC_RETRY_COUNT = satAdd F.CRC_RETRY_COUNT.width (s.getF (mcB d) F.CRC_RETRY_COUNT) (min crc 4) ∧
        (crc ≤ 4 → t.memQ = s.memQ.erase q ∧ t.badOf q.addr = 0 ∧
          t.getF (mcB d) F.UE_CNT_COUNT = s.getF (mcB d) F.UE_CNT_COUNT) ∧
        (4 < crc → t.badOf q.addr = s.badOf q.addr ∧ t.getF (mcB d) F.MC_EVENT_UE_EV = 1 ∧
          t.getF (mcB d) F.UE_CNT_COUNT = satAdd F.UE_CNT_COUNT.width (s.getF (mcB d) F.UE_CNT_COUNT) 1))))

/-- DMA channels and codecs, while their clock runs. A start of an idle channel fetches from its descriptor; an abort leaves the channel idle with
ABORT_EV. A good descriptor is taken and a bad one halts the channel with its address. A copy that completes counts its bytes,
and one that fails halts the channel with the failing address. A codec takes the next entry into a free lane, where one that
reads no input ends at once, a block that compresses moves its job on, the last one ends it, a job that is over leaves with its result where the ring
has room, and a disabled codec takes none: its jobs stop at the end of their block. -/
def Obligations.DmaAndCodecs : Prop :=
  (∀ (s : State) (h : Hdr) (chan : BitVec 8) (c : Nat), c = chan.toNat → c < 64 → s.dmaBound c = false →
    (∀ desc : BitVec 64, Accepts s h 0x0502 2 → s.dmaState c = 0 → desc.toNat % 32 = 0 → desc.toNat ≠ 0 →
      desc.toNat < 2 ^ 40 → s.fits h 0 = true → ∃ t, exec (.dmaStart h chan desc) s = .next t ∧ Replied t h 0x0502 0 [] ∧
      t.dmaState c = 1 ∧ t.getF (dmaB c) F.DMA_DESC_ADDR = desc.toNat ∧ t.mem = s.mem ∧ (∀ k, k ≠ c → t.dm k = s.dm k)) ∧
    (Accepts s h 0x0503 2 → s.fits h 8 = true → ∃ t, exec (.dmaAbort h chan) s = .next t ∧ t.dmaState c = 0 ∧
      Replied t h 0x0503 0 (t.dmaWord c ++ be 4 (t.getF (dmaB c) F.DMA_RESIDUE_BYTES)) ∧
      t.getF (dmaB c) F.DMA_EVENT_ABORT_EV = 1 ∧ (∀ k, k ≠ c → t.dm k = s.dm k))) ∧
  (∀ (s : State) (c : Fin 64) (a : Nat), a = s.getF (dmaB c) F.DMA_DESC_ADDR →
    (s.clk 1 = true → s.dmaState c = 1 → (s.dm c).fetched = false →
      (∀ d, (s.memRead 1 c a 32).2 = .ok d → badDesc d = false → ∃ t, exec (.dmaDescFetch c) s = .next t ∧
        t.dmaState c = 1 ∧ t.dm c =
          { src := leAt d 0 8, dst := leAt d 8 8, len := leAt d 0x10 4, ctrl := leAt d 0x14 1, fetched := true }) ∧
      (∀ d, (s.memRead 1 c a 32).2 = .ok d → badDesc d = true → ∃ t, exec (.dmaDescFetch c) s = .next t ∧
        t.dmaState c = 3 ∧ t.getF (dmaB c) F.DMA_STATE_CODE = 4 ∧ t.getF (dmaB c) F.DMA_EVENT_ERR_EV = 1)) ∧
    (s.clk 1 = false ∨ s.dmaState c ≠ 1 ∨ (s.dm c).fetched = true → exec (.dmaDescFetch c) s = .next s) ∧
    (s.clk 1 = false ∨ s.dmaState c ≠ 1 ∨ (s.dm c).fetched = false → exec (.dmaDescEnd c) s = .next s ∧ exec (.dmaBusError c) s = .next s) ∧
    (s.clk 1 = true → s.dmaState c = 1 → (s.dm c).fetched = true →
      (0 < (s.dm c).len → bit (s.dm c).ctrl 2 = false →
        (s.dmaCopy c (s.dm c) (dmaParts (s.dm c).dst (s.dm c).len)).2 = none →
        exec (.dmaBusError c) s = .next s ∧ ∃ t, exec (.dmaDescEnd c) s = .next t ∧
        t.getF (dmaB c) F.DMA_BYTES_COUNT = (s.getF (dmaB c) F.DMA_BYTES_COUNT + (s.dm c).len) % 2 ^ F.DMA_BYTES_COUNT.width ∧
        (bit (s.dm c).ctrl 0 = true → t.getF (dmaB c) F.DMA_EVENT_DONE_EV = 1)) ∧
      (∀ i x dir, i = .dmaDescEnd c ∨ i = .dmaBusError c →
        (s.dmaCopy c (s.dm c) (dmaParts (s.dm c).dst (s.dm c).len)).2 = some (x, dir) → ∃ t, exec i s = .next t ∧
        t.dmaState c = 3 ∧ t.getF (dmaB c) F.DMA_STATE_CODE = 3 ∧ t.getF (dmaB c) F.DMA_STATE_DIR = dir % 2 ∧
        t.getF (dmaB c) F.DMA_ADDR_ADDR = x % 2 ^ F.DMA_ADDR_ADDR.width ∧ t.getF (dmaB c) F.DMA_EVENT_ERR_EV = 1))) ∧
  (∀ (s : State) (k : Fin 9) (ring : Nat), ring = s.getF (hkB k) F.HK_JOB_RING_RING →
    (s.flag (hkB k) F.HK_CTRL_EN = false → exec (.hankJobTake k) s = .next s ∧ exec (.hankDisable k) s = .next s) ∧
    (s.flag (hkB k) F.HK_CTRL_EN = true →
      (∀ l v e m j, s.clk 4 = true → s.avail ring (hkB k) ≠ 0 → s.hkFree k = some l → s.readEntry ring (hkB k) 0 k = (v, .ok e) →
        (v.take ring (hkB k) 1).hkMake k e = (m, j) →
        (j.status = none → ∃ t, exec (.hankJobTake k) s = .next t ∧ t.hkJob k l = some j ∧ t.grp = s.grp) ∧
        (∀ st, j.status = some st → ∃ t, exec (.hankJobTake k) s = .next t ∧ t.grp = s.grp ∧
          (m.hkWaits k = true → t.hkJob k l = some j) ∧
          (m.hkWaits k = false → t.hank = Tab.del (64 * k.val + l) (Tab.put (64 * k.val + l) j m.hank)))) ∧
      (s.clk 4 = false ∨ s.avail ring (hkB k) = 0 ∨ s.hkFree k = none → exec (.hankJobTake k) s = .next s) ∧
      (∃ t, exec (.hankDisable k) s = .next t ∧ t.flag (hkB k) F.HK_CTRL_EN = false ∧ t.grp = s.grp ∧
        t.hank.map (fun e => (e.1, { e.2 with stop := false })) = s.hank.map (fun e => (e.1, { e.2 with stop := false })) ∧
        ∀ e ∈ t.hank, e.1 / 64 = k.val → e.2.status = none → e.2.stop = true)) ∧
    (∀ (l : Fin 32),
      (s.clk 4 = false ∨ s.hkJob k l = none → exec (.hankBlockDone k l) s = .next s) ∧
      (∀ j st, s.clk 4 = true → s.hkJob k l = some j → j.status = some st →
        (s.ringFits (s.getF (hkB k) F.HK_RES_RING_RING) 64 = true → ∃ t, exec (.hankBlockDone k l) s = .next t ∧
          t.hank = Tab.del (64 * k.val + l.val) s.hank ∧ t.grp = s.grp) ∧
        (s.ringFits (s.getF (hkB k) F.HK_RES_RING_RING) 64 = false → ∃ t, exec (.hankBlockDone k l) s = .next t ∧
          t.hank = s.hank ∧ t.mem = s.mem ∧ t.grp = s.grp)) ∧
      (∀ j bs gap v w, s.clk 4 = true → s.hkJob k l = some j → j.status = none → j.op = 1 → j.index = false → j.stop = false → s.memRead 1 k (j.src + j.used) j.inLen = (v, .ok bs) →
        j.used + j.inLen < j.len → gap = (8 - j.pos % 8) % 8 → j.pos + gap + (hankBlock bs).length ≤ j.room →
        v.hkPut k j.bufs j.pos (zeros gap ++ hankBlock bs) (j.bufs.length + 1) = (w, true) →
        ∃ t, exec (.hankBlockDone k l) s = .next t ∧ t.hkJob k l = some
          { j with blocks := j.blocks + 1, used := j.used + j.inLen, pos := j.pos + gap + (hankBlock bs).length } ∧
          t.getF (hkB k) F.HK_IN_BYTES_COUNT =
            (s.getF (hkB k) F.HK_IN_BYTES_COUNT + j.inLen) % 2 ^ F.HK_IN_BYTES_COUNT.width) ∧
      (∀ j bs gap v w x, s.clk 4 = true → s.hkJob k l = some j → j.status = none → j.op = 1 → j.index = false → j.stop = false →
        s.memRead 1 k (j.src + j.used) j.inLen = (v, .ok bs) → j.len ≤ j.used + j.inLen → gap = (8 - j.pos % 8) % 8 →
        j.pos + gap + (hankBlock bs).length ≤ j.room →
        v.hkPut k j.bufs j.pos (zeros gap ++ hankBlock bs) (j.bufs.length + 1) = (w, true) →
        x = { j with blocks := j.blocks + 1, used := j.len, pos := j.pos + gap + (hankBlock bs).length, status := some 0 } →
        ∃ t, exec (.hankBlockDone k l) s = .next t ∧ t.grp = s.grp ∧ (w.hkWaits k = true → t.hkJob k l = some x) ∧
          (w.hkWaits k = false → t.hank = Tab.del (64 * k.val + l.val) (Tab.put (64 * k.val + l.val) x w.hank)))))

/-! ## Replay and re-run (20_replay) -/

/-- The recorder. ARM starts capture on a stopped recorder whose rings it may take, DISARM ends it, but for one that waits for its
freeze instant. A freeze waits for the
freeze instant while a group runs and is immediate otherwise; at the instant the course is kept. A rearm captures again. An
export begins from a frozen recorder, answering the length of its bundle, and ends when all of it is in the ring. A re-run
starts on a bundle that its checks allow and runs once it is loaded; it issues its courses in order, and stops the group after
the last; one that has been stopped stops its groups. A command in another state is answered BUSY. -/
def Obligations.ReplayCommands : Prop :=
  (∀ (s : State) (h : Hdr), s.domOn 93 = true →
    (Accepts s h 0x0900 1 → s.getF repB F.REPLAY_STATUS_STATE = 1 →
      (s.anyRunning = true → ∃ t, exec (.captureFreeze h) s = .next t ∧ t.getF repB F.REPLAY_STATUS_STATE = 2 ∧
        t.rep.trig = s.stampDev ∧ t.grp = s.grp) ∧
      (s.anyRunning = false → ∃ t, exec (.captureFreeze h) s = .next t ∧ t.getF repB F.REPLAY_STATUS_STATE = 3 ∧
        t.getF repB F.REPLAY_STATUS_FREEZE_EV = 1 ∧ t.getF repB F.FREEZE_COURSE_COURSE = ofInt 64 s.stampDev ∧
        t.grp = s.grp)) ∧
    (Accepts s h 0x0900 1 → s.getF repB F.REPLAY_STATUS_STATE ≠ 1 → s.fits h 0 = true →
      ∃ t, exec (.captureFreeze h) s = .next t ∧ Replied t h 0x0900 stBusy [] ∧ RegsKept s t ∧ t.rep = s.rep) ∧
    (Accepts s h 0x0901 2 → s.fits h 0 = true →
      (s.getF repB F.REPLAY_STATUS_STATE = 3 → ∃ t, exec (.captureRearm h) s = .next t ∧ Replied t h 0x0901 0 [] ∧
        t.getF repB F.REPLAY_STATUS_STATE = 1 ∧ t.rep.items = [] ∧ t.rep.jbuf = [] ∧ t.grp = s.grp) ∧
      (s.getF repB F.REPLAY_STATUS_STATE ≠ 3 → ∃ t, exec (.captureRearm h) s = .next t ∧ Replied t h 0x0901 stBusy [] ∧
        RegsKept s t ∧ t.rep = s.rep)) ∧
    (∀ (u : State) (ring : BitVec 32), u = s.accepted h 0x0902 → Accepts s h 0x0902 2 → s.ringOk ring.toNat true = true →
      s.getF repB F.REPLAY_STATUS_STATE = 3 → s.canPin [ring.toNat] = true → s.fits h 8 = true →
      ∃ t, exec (.bundleExport h ring) s = .next t ∧ Replied t h 0x0902 0 (be 8 u.jrnFlush.bundle.2.length) ∧
        t.getF repB F.REPLAY_STATUS_STATE = 4 ∧ t.rep.exportRing = ring.toNat ∧ t.grp = s.grp) ∧
    (∀ (u : State) (addr : BitVec 64) (b : Bundle), u = s.accepted h 0x0903 → Accepts s h 0x0903 2 →
      (u.readBundle addr.toNat).2 = .ok b → (u.readBundle addr.toNat).1.rerunStatus b = 0 → s.fits h 0 = true →
      ∃ t, exec (.rerunStart h addr) s = .next t ∧ Replied t h 0x0903 0 [] ∧ t.getF repB F.RR_STATUS_RSTATE = 1 ∧
        t.getF repB F.RR_MISMATCH_COUNT = 0 ∧ t.rep.rrAddr = addr.toNat ∧
        t.rep.rrNext = b.groups.map (fun w => (w.1, w.2.1)) ∧ t.rep.rrLast = b.groups.map (fun w => (w.1, w.2.2)) ∧
        t.grp = s.grp)) ∧
  (∀ s : State,
    (s.domOn 93 = true → s.getF repB F.REPLAY_STATUS_STATE = 0 → s.armStatus = 0 → ∃ t, exec .replayArm s = .next t ∧
      t.getF repB F.REPLAY_STATUS_STATE = 1 ∧ t.getF repB F.REPLAY_CTRL_ARM = 1 ∧ t.grp = s.grp) ∧
    (s.domOn 93 = false ∨ s.getF repB F.REPLAY_STATUS_STATE ≠ 0 ∨ s.armStatus ≠ 0 → exec .replayArm s = .next s) ∧
    (s.domOn 93 = true → s.getF repB F.REPLAY_STATUS_STATE ≠ 0 → s.getF repB F.REPLAY_STATUS_STATE ≠ 4 →
      s.getF repB F.REPLAY_STATUS_STATE ≠ 2 → ∃ t, exec .replayDisarm s = .next t ∧ t.getF repB F.REPLAY_STATUS_STATE = 0 ∧ t.getF repB F.REPLAY_CTRL_ARM = 0 ∧
        t.grp = s.grp) ∧
    (s.domOn 93 = true → s.getF repB F.REPLAY_STATUS_STATE = 2 → exec .replayDisarm s = .next (s.setF repB F.REPLAY_CTRL_ARM 0)) ∧
    (s.domOn 93 = false ∨ s.getF repB F.REPLAY_STATUS_STATE = 0 ∨ s.getF repB F.REPLAY_STATUS_STATE = 4 →
      exec .replayDisarm s = .next s) ∧
    (s.getF repB F.REPLAY_STATUS_STATE = 2 → s.rep.trig + Int.ofNat (s.getF repB F.REPLAY_POST_POST) ≤ s.stampDev →
      ∃ t, exec .freezeInstant s = .next t ∧ t.getF repB F.REPLAY_STATUS_STATE = 3 ∧
        t.getF repB F.REPLAY_STATUS_FREEZE_EV = 1 ∧ t.grp = s.grp) ∧
    (s.getF repB F.REPLAY_STATUS_STATE ≠ 2 ∨ s.stampDev < s.rep.trig + Int.ofNat (s.getF repB F.REPLAY_POST_POST) →
      exec .freezeInstant s = .next s) ∧
    (s.getF repB F.REPLAY_STATUS_STATE = 4 → s.rep.exportLeft = [] → ∃ t, exec .exportEnd s = .next t ∧
      t.getF repB F.REPLAY_STATUS_STATE = 3 ∧ t.getF repB F.REPLAY_STATUS_EXPORT_EV = 1 ∧ t.grp = s.grp) ∧
    (s.getF repB F.REPLAY_STATUS_STATE = 4 → s.rep.exportLeft ≠ [] → s.ringFits s.rep.exportRing 256 = false →
      ∃ t, exec .exportEnd s = .next t ∧ t.rep.exportLeft = s.rep.exportLeft ∧ t.regs = s.regs) ∧
    (s.getF repB F.REPLAY_STATUS_STATE ≠ 4 → exec .exportEnd s = .next s) ∧
    (∀ b, s.getF repB F.RR_STATUS_RSTATE = 1 → (s.readBundle s.rep.rrAddr).2 = .ok b → b.groups = [] →
      ∃ t, exec .rerunLoaded s = .next t ∧ t.getF repB F.RR_STATUS_RSTATE = 2 ∧ t.rep.rrDev = some b.dev ∧ t.grp = s.grp) ∧
    (∀ e, s.getF repB F.RR_STATUS_RSTATE = 1 → (s.readBundle s.rep.rrAddr).2 = .error e → s.rep.rrLast = [] →
      ∃ t, exec .rerunLoaded s = .next t ∧ t.getF repB F.RR_STATUS_RSTATE = 4 ∧ t.grp = s.grp) ∧
    (s.getF repB F.RR_STATUS_RSTATE ≠ 1 → exec .rerunLoaded s = .next s)) ∧
  (∀ (s : State) (g : Fin 16),
    (s.getF repB F.RR_STATUS_RSTATE ≠ 2 → s.rep.rrLast = [] → exec (.rerunCourse g) s = .next s) ∧
    (s.getF repB F.RR_STATUS_RSTATE ≠ 2 → s.held = [] → s.live = [] → ∃ t, exec (.rerunCourse g) s = .next t ∧
      ∀ e ∈ s.rep.rrLast, e.1 < 16 → (s.g e.1).st = 2 → (t.g e.1).st = 3) ∧
    (∀ c last, s.getF repB F.RR_STATUS_RSTATE = 2 → Tab.find g.val s.rep.rrNext = some c →
      Tab.find g.val s.rep.rrLast = some last →
      (last < c → (s.g g).st = 2 → ∃ t, exec (.rerunCourse g) s = .next t ∧ (t.g g).st = 3 ∧
        (∀ k : Fin 16, k ≠ g → t.g k = s.g k)) ∧
      (c ≤ last → s.rerunReady g c = false → exec (.rerunCourse g) s = .next s) ∧
      (∀ b v k0, c ≤ last → s.rerunReady g c = true → s.readBundle s.rep.rrAddr = (v, .ok b) →
        k0 = ((b.groups.find? (fun w => w.1 == g.val)).map (·.2.1)).getD c →
        (v.rerunBoundary (windowRecs b.journal g k0 (((b.groups.find? (fun w => w.1 == g.val)).map (·.2.2)).getD c)) g k0 c).2
          = true →
        ∃ t, exec (.rerunCourse g) s = .next t ∧ Tab.find g.val t.rep.rrNext = some (c + 1) ∧
          t.getF repB F.RR_COURSE_COURSE = c % 2 ^ F.RR_COURSE_COURSE.width)))

/-! ## Power and clocks (12_power) -/

/-- Power states, domains, bind-off and reset. RUN and IDLE follow POWER_STATE, STANDBY with no group running takes the
loom's power and stops the groups that are armed or drain, SLEEP follows from STANDBY, and the return to RUN begins. A domain
that goes off is off when its command ends, and with it the armed and draining groups it would serve; one that comes on waits
for its supply. Bind-off stops every running group, and its end leaves the device in STANDBY. RESET of
a channel keeps its lines, its corrected lines, its gauge tables, its groups and every other channel, and counts the inputs that
it flushes; an engine, a controller and a lane reset alone (their INDEX is
the model's choice, log entry 32). A loop that loses lock gates its clock until it locks again and stops the groups on it; XA's
failure stops all. A thermal sample is shown, with the highest since the last read, and THROTTLED by its limit and hysteresis,
and none is taken without PSCLK; a TRIP of a loom die leads to STANDBY, one of the hub die to
SLEEP with WAKE_EN clear. A wake count starts cast-on at step 2, which a free value
for the fuses (log entry 62) ends or halts. -/
def Obligations.PowerAndClocks : Prop :=
  (∀ (s : State) (h : Hdr) (code : BitVec 8), Accepts s h 0x0B00 2 → s.reRunning = false → s.power.bind = false →
    (s.pwrState = 1 → code = 2 → s.timerRuns = false → s.fits h 0 = true → ∃ t, exec (.powerState h code) s = .next t ∧
      Replied t h 0x0B00 0 [] ∧ t.pwrState = 2 ∧ t.getF pwrB F.PWR_EVENT_IDLE_EV = 1 ∧ t.grp = s.grp) ∧
    (s.pwrState = 2 → code = 1 → s.fits h 0 = true → ∃ t, exec (.powerState h code) s = .next t ∧
      Replied t h 0x0B00 0 [] ∧ t.pwrState = 1 ∧ t.grp = s.grp) ∧
    (s.pwrState = 1 → code = 3 → s.anyRunning = false → ∃ t, exec (.powerState h code) s = .next t ∧ t.pwrState = 3 ∧
      (∀ d ∈ loomDomains, t.domOn d = false) ∧ ∀ g < 16, (t.g g).st = 0) ∧
    (s.pwrState = 3 → code = 4 → s.boot.resume = false → ∃ t, exec (.powerState h code) s = .next t ∧ t.pwrState = 4 ∧
      t.sess = [] ∧ t.rings = [] ∧ (∀ a, memGet t.mem a = 0) ∧ t.flash = s.flash ∧ t.fuses = s.fuses) ∧
    (s.pwrState = 3 → code = 1 → s.boot.resume = false → ∃ t, exec (.powerState h code) s = .next t ∧
      t.boot.resume = true ∧ t.pwrState = 3 ∧ t.grp = s.grp) ∧
    (code.toNat < 1 ∨ 4 < code.toNat → s.fits h 0 = true → ∃ t, exec (.powerState h code) s = .next t ∧
      Replied t h 0x0B00 stBadParam [] ∧ RegsKept s t ∧ t.grp = s.grp)) ∧
  (∀ (s : State) (h : Hdr) (d : BitVec 8), Accepts s h 0x0B01 2 → d.toNat < 96 →
    (s.domOn d.toNat = true → s.domOffBusy d.toNat h.port.val = false → ∃ t, exec (.domainPower h d 0) s = .next t ∧
      t.domOn d.toNat = false ∧
      ∀ g < 16, if (s.g g).st ≠ 0 ∧ s.groupUses g d.toNat = true then (t.g g).st = 0 else t.g g = s.g g) ∧
    (s.domOn d.toNat = true → s.domOffBusy d.toNat h.port.val = true → s.fits h 0 = true →
      ∃ t, exec (.domainPower h d 0) s = .next t ∧ Replied t h 0x0B01 stBusy [] ∧ RegsKept s t) ∧
    (s.domOn d.toNat = false → ¬(d.toNat < 88 ∧ s.pwrState = 3) → ∃ t, exec (.domainPower h d 1) s = .next t ∧
      d.toNat ∈ t.power.queue ∧ RegsKept s t ∧ t.grp = s.grp)) ∧
  (∀ (s : State) (d : Fin 96) (ok : Bool),
    (∀ rest, s.power.queue = d.val :: rest →
      (ok = true → ∃ t, exec (.domainPowerOnDone d ok) s = .next t ∧ t.domOn d = true ∧ t.power.queue = rest ∧
        t.grp = s.grp) ∧
      (ok = false → ∃ t, exec (.domainPowerOnDone d ok) s = .next t ∧ t.getF pwrB F.PWR_EVENT_DOM_FAULT = 1 ∧
        t.domOn d = s.domOn d ∧ t.grp = s.grp)) ∧
    (s.power.queue.head? ≠ some d.val → exec (.domainPowerOnDone d ok) s = .next s)) ∧
  (∀ (s : State) (h : Hdr), Accepts s h 0x0B02 2 → s.power.bind = false → s.boot.resume = false →
    ∃ t, exec (.bindOff h) s = .next t ∧ t.power.bind = true ∧ (∀ g < 16, (s.g g).st = 2 → (t.g g).st = 3) ∧
      (∀ g < 16, (s.g g).st = 1 → (t.g g).st = 0) ∧
      (s.held = [] → s.live = [] → s.reRunning = false → t.getF devB F.CAST_STATUS_BINDING = 1)) ∧
  (∀ s : State,
    (s.power.bind = true → ∃ t, exec .bindOffFlushEnd s = .next t ∧ t.pwrState = 3 ∧ t.power.bind = false ∧
      t.getF devB F.CAST_STATUS_BINDING = 0 ∧ t.getF devB F.CAST_STATUS_BIND_DONE = 1 ∧ (∀ g < 16, (t.g g).st = 0)) ∧
    (s.power.bind = false → exec .bindOffFlushEnd s = .next s)) ∧
  (∀ (s : State) (h : Hdr) (level : BitVec 8) (index : BitVec 16) (ch : Nat), Accepts s h 0x0B03 3 → s.fits h 0 = true →
    ch = index.toNat →
    (level = 0 → ch < 128 → s.domOn (ch / 4) = true → ∃ t, exec (.reset h level index) s = .next t ∧ Replied t h 0x0B03 0 [] ∧
      (t.ch ch).next = (s.ch ch).next ∧ (t.ch ch).lines = (s.ch ch).lines ∧ (t.ch ch).out = (s.ch ch).out ∧
      (t.ch ch).gauges = (s.ch ch).gauges ∧ t.getF (clB (ch / 4)) F.CL_FLUSH_COUNT =
        satAdd F.CL_FLUSH_COUNT.width (s.getF (clB (ch / 4)) F.CL_FLUSH_COUNT) (s.flushed (· == ch)) ∧
      t.joined ch = false ∧ (∀ k, k ≠ ch → t.ch k = s.ch k) ∧ t.grp = s.grp ∧ (s.joined ch = false → t.mem = s.mem)) ∧
    (level = 0 → (∀ e, 136 + e = ch → e < 128 → s.domOn (65 + 3 * (e / 16)) = true → ∃ t,
        exec (.reset h level index) s = .next t ∧ Replied t h 0x0B03 0 [] ∧ t.teState e = 0 ∧ t.mem = s.mem ∧ t.grp = s.grp) ∧
      (∀ d, 264 + d = ch → d < 16 → s.domOn (memDom d) = true → ∃ t,
        exec (.reset h level index) s = .next t ∧ Replied t h 0x0B03 0 [] ∧ t.mem = s.mem ∧ t.grp = s.grp ∧
        t.mcState d = if s.mcState d = 3 then 3 else 2) ∧
      (∀ l, 280 + l = ch → l < 128 → s.domOn (32 + l / 4) = true → ∃ t,
        exec (.reset h level index) s = .next t ∧ Replied t h 0x0B03 0 [] ∧ t.laneState l = 0 ∧
        (t.ln l).announced = false ∧ (t.ln l).aligned = false ∧ t.getF (ingB l) F.LANE_STATUS_LOCK = 0)) ∧
    (∀ d, level = 0 → (resetUnit ch).map (·.1) = some d → s.domOn d = false → ∃ t, exec (.reset h level index) s = .next t ∧
      Replied t h 0x0B03 stPoweredOff [] ∧ RegsKept s t) ∧
    (level = 0 → (resetUnit ch).map (·.1) = none → ∃ t, exec (.reset h level index) s = .next t ∧ Replied t h 0x0B03 stBadParam [] ∧
      RegsKept s t) ∧
    (3 < level.toNat → ∃ t, exec (.reset h level index) s = .next t ∧ Replied t h 0x0B03 stBadParam [] ∧ RegsKept s t)) ∧
  (∀ s : State, s.held = [] → s.live = [] →
    (s.flag clkB F.CLK_SRC_XA_OK = true → s.boot.step = 10 → ∃ t, exec .xaFail s = .next t ∧
      t.flag clkB F.CLK_SRC_XA_OK = false ∧ (∀ i, 1 ≤ i → i ≤ 5 → bit (t.getF clkB F.LOOP_STATUS_LOCK) i = false) ∧
      (∀ g < 16, (s.g g).st = 2 → (t.g g).st = 3)) ∧
    (∀ loop : Fin 16, bit (s.getF clkB F.LOOP_STATUS_LOCK) loop = true → loop.val < 6 →
      ∃ t, exec (.loopLossOfLock loop) s = .next t ∧ bit (t.getF clkB F.LOOP_STATUS_LOCK) loop = false ∧
        bit (t.getF clkB F.LOOP_STATUS_LOL_EV) loop = true ∧ t.clk loop = false ∧
        (∀ g < 16, (s.g g).st = 2 → s.usesLoop loop g = true → (t.g g).st = 3) ∧
        (∀ g < 16, s.usesLoop loop g = false → t.g g = s.g g)) ∧
    (∀ (die : Fin 5) (temp : BitVec 16) (u : State), u = s.setF thmB (F.THERM_DIE_TEMP.nth die) temp.toNat →
      s.clk 0 = true → u.tripOn die = true → s.power.tripped die = false →
      (die = 4 → ∃ t, exec (.thermalSample die temp) s = .next t ∧ t.pwrState = 4 ∧ t.flag pwrB F.WAKE_CFG_WAKE_EN = false) ∧
      (die ≠ 4 → s.pwrState ≠ 4 → ∃ t, exec (.thermalSample die temp) s = .next t ∧ t.pwrState = 3 ∧
        (∀ d ∈ loomDomains, t.domOn d = false)))) ∧
  (∀ s : State, (s.flag clkB F.CLK_SRC_XA_OK = false ∨ s.boot.step ≠ 10 → exec .xaFail s = .next s) ∧
    (∀ loop : Fin 16, (loop.val < 6 → s.flag clkB F.CLK_SRC_XA_OK = true → s.flag clkB F.CLK_SRC_NET_REF = false →
      ∃ t, exec (.loopRelock loop) s = .next t ∧ bit (t.getF clkB F.LOOP_STATUS_LOCK) loop = true ∧ t.clk loop = true ∧
        t.grp = s.grp) ∧
      (6 ≤ loop.val → exec (.loopRelock loop) s = .next s ∧ exec (.loopLossOfLock loop) s = .next s)) ∧
    (∀ (die : Fin 5) (temp : BitVec 16) (u : State), u = s.setF thmB (F.THERM_DIE_TEMP.nth die) temp.toNat →
      (s.clk 0 = false → exec (.thermalSample die temp) s = .next s) ∧
      (s.clk 0 = true → u.tripOn die = false →
      ∃ t, exec (.thermalSample die temp) s = .next t ∧ t.getF thmB (F.THERM_DIE_TEMP.nth die) = temp.toNat ∧
        t.flag thmB F.THERM_STATUS_THROTTLED =
          limitActs (s.flag thmB F.THERM_STATUS_THROTTLED) u.hottest (s.getF thmB F.THERM_CFG_THROTTLE) ∧
        t.getI thmB F.THERM_MAX_TEMP = (if s.power.maxSeen = true then max (s.getI thmB F.THERM_MAX_TEMP) (toInt 16 temp.toNat)
          else toInt 16 temp.toNat) ∧
        t.grp = s.grp ∧ t.pwrState = s.pwrState)) ∧
    (s.pwrState = 1 → s.flag pwrB F.PWR_STATE_AUTO_IDLE = true → s.anyRunning = true → s.timerRuns = false →
      ∃ t, exec .autoIdleEntry s = .next t ∧ t.pwrState = 2 ∧ t.getF pwrB F.PWR_EVENT_IDLE_EV = 1 ∧ t.grp = s.grp) ∧
    (s.pwrState ≠ 1 → exec .autoIdleEntry s = .next s) ∧
    (Int.ofNat (s.getF pwrB F.WAKE_CFG_WAKE_COUNTS) ≤ s.posCount (s.getF pwrB F.WAKE_CFG_WAKE_SRC) - s.wakeFrom →
      s.pwrState = 4 → s.boot.halt = 0 → s.boot.wake = false → s.flag pwrB F.WAKE_CFG_WAKE_EN = true →
      ∃ t, exec .wakeCountReached s = .next t ∧ t.boot.wake = true ∧ t.getF pwrB F.WAKE_CAUSE_CAUSE = 1 ∧
        (Config.freeBits 1 s.freeCtr = 1 → t.boot.step = 3 ∧ t.boot.halt = 0 ∧ t.getF devB F.CAST_STATUS_PHASE = 3) ∧
        (Config.freeBits 1 s.freeCtr ≠ 1 → t.boot.step = 2 ∧ t.boot.halt = 1 ∧ t.getF devB F.CAST_STATUS_PHASE = 2)) ∧
    (s.posCount (s.getF pwrB F.WAKE_CFG_WAKE_SRC) - s.wakeFrom < Int.ofNat (s.getF pwrB F.WAKE_CFG_WAKE_COUNTS) →
      exec .wakeCountReached s = .next s))

/-! ## Network and time (16_network, 17_time) -/

/-- Network ports. A frame of a bad length or check is dropped and counted, one that passes is counted, and outside IP no group
changes. A link that rises or falls sets its flags, and a fall of the active port moves the traffic to the other when that is
up; REVERT moves it back. A neighbour that does not answer loses what waited for it. A supervision frame has the next sequence
number and waits on each port. A port sends the oldest frame of its highest priority. A launch entry waits for its time, and for a lower
queue whose frame falls due within one frame time, hands its frame to the port then, no sooner than the launch frame before it
has left, or is counted late. A stream sends what waits when its timer ends, and goes back to the first
unconfirmed entry when a hold expires. -/
def Obligations.Network : Prop :=
  (∀ (s : State) (p : Fin 2) (frame : List Byte) (ok : Bool),
    (s.linkIsUp p = false → exec (.ethFrameReceived p frame ok) s = .next s) ∧
    (s.linkIsUp p = true → frame.length < 64 ∨ 9216 < frame.length ∨ ok = false →
      ∃ t, exec (.ethFrameReceived p frame ok) s = .next t ∧ t.out = s.out ∧ t.net = s.net ∧
        t.getF (ethB p) F.RX_DROP_COUNT = satAdd F.RX_DROP_COUNT.width (s.getF (ethB p) F.RX_DROP_COUNT) 1) ∧
    (∀ b, s.linkIsUp p = true → 64 ≤ frame.length → frame.length ≤ 1522 → ok = true → s.untag frame = some b →
      s.macMine (beAt b 0 6) = true → beAt b 12 2 ≠ 0x8808 → beAt b 12 2 ≠ 0x0800 → beAt b 12 2 ≠ 0x86DD →
      ∃ t, exec (.ethFrameReceived p frame ok) s = .next t ∧
        t.getF (ethB p) F.RX_FRAMES_COUNT = (s.getF (ethB p) F.RX_FRAMES_COUNT + 1) % 2 ^ F.RX_FRAMES_COUNT.width ∧
        t.grp = s.grp)) ∧
  (∀ (s : State) (p : Fin 2),
    (s.domOn (if p.val = 0 then 90 else 92) = true → s.flag (ethB p) F.ETH_CTRL_EN = true → s.linkIsUp p = false →
      7 ≤ s.boot.step → s.boot.halt = 0 → s.boot.fails = [] → ∃ t, exec (.linkUp p) s = .next t ∧ t.linkIsUp p = true ∧
      t.getF (ethB p) F.ETH_EVENT_LINK_UP_EV = 1 ∧ t.getF (ethB p) F.ETH_STATUS_FEC_LOCK = 1) ∧
    (s.linkIsUp p = true ∨ s.flag (ethB p) F.ETH_CTRL_EN = false → exec (.linkUp p) s = .next s) ∧
    (∀ rem : Bool, (s.linkIsUp p = true → ∃ t, exec (.linkDown p rem) s = .next t ∧ t.linkIsUp p = false ∧
        t.getF (ethB p) F.ETH_EVENT_LINK_DN_EV = 1 ∧ t.getF (ethB p) F.ETH_STATUS_REM_FAULT = (if rem then 1 else 0) ∧
        (s.flag netB F.NET_CTRL_PRP_EN = false → s.activePort = p → s.linkIsUp (1 - p.val) = true →
          t.activePort = 1 - p.val)) ∧
      (s.linkIsUp p = false → exec (.linkDown p rem) s = .next s)) ∧
    (s.getF netB F.NET_CTRL_PREF_PORT = p → s.flag netB F.NET_CTRL_REVERT = true → s.flag netB F.NET_CTRL_PRP_EN = false →
      s.activePort ≠ p → s.linkIsUp p = true → ∃ t, exec .portRevert s = .next t ∧ t.activePort = p.val ∧
      t.getF (ethB p) F.ETH_EVENT_FAILOVER_EV = 1) ∧
    (s.flag netB F.NET_CTRL_REVERT = false ∨ s.activePort = s.getF netB F.NET_CTRL_PREF_PORT →
      exec .portRevert s = .next s) ∧
    (∀ w, s.net.wait.find? (fun x => x.2.2.port == p.val) = some w → ∃ t, exec (.neighbourTimeout p) s = .next t ∧
      t.net.wait = s.net.wait.erase w ∧ t.out = s.out ∧ t.regs = s.regs) ∧
    (s.net.wait = [] → exec (.neighbourTimeout p) s = .next s) ∧
    (s.flag netB F.NET_CTRL_PRP_EN = true → s.boot.step = 10 → ∃ t, exec .prpSupervision s = .next t ∧
      t.net.supSeq = (s.net.supSeq + 1) % 65536 ∧ t.regs = s.regs ∧
      (∀ q : Fin 2, s.linkIsUp q = true → ∃ f ∈ t.net.txq, f.port = q.val ∧ f.prio = 3 ∧
        s.net.txq.count f < t.net.txq.count f)) ∧
    (s.flag netB F.NET_CTRL_PRP_EN = false ∨ s.boot.step ≠ 10 → exec .prpSupervision s = .next s) ∧
    (∀ x ∈ s.net.txq, s.linkIsUp p = true → x.port = p.val → x.prio < 48 → x.prio % 8 < 6 →
      ∃ y ∈ s.net.txq, y.port = p.val ∧
        (∀ z ∈ s.net.txq, z.port = p.val → z.prio < 64 → y.prio % 8 * 8 + y.prio / 8 ≤ z.prio % 8 * 8 + z.prio / 8) ∧
        (s.txOne p).out = s.out ++ [y.frame] ∧ (s.txOne p).net.txq = s.net.txq.erase y)) ∧
  (∀ (s : State) (q : Fin 8) (id : Nat), id = s.getF netB (F.LQ_CFG_RING.nth q) →
    (s.flag netB (F.LQ_CFG_EN.nth q) = false ∨ s.avail id (lqBlock q) = 0 ∨ s.streamUp = false →
      exec (.launchDue q) s = .next s) ∧
    (s.net.lqWait = [q.val] → s.lqBehind q (s.lqHead q) = true → exec (.launchDue q) s = .next s) ∧
    (∀ e v len at', s.net.lqWait = [] → s.flag netB (F.LQ_CFG_EN.nth q) = true → s.avail id (lqBlock q) ≠ 0 → s.streamUp = true →
      s.readEntry id (lqBlock q) 0 (blockUnit netB) = (v, .ok e) → len = leAt e 8 2 → 60 ≤ len → len ≤ 1518 →
      leAt e 0xA 2 < len → leAt e 0xE 2 % 2 = 0 → at' = leAt e 0x10 8 * 1000000000 + leAt e 0x18 4 →
      (s.localT + 8 * 2 ^ 40 < at' * 2 ^ 40 → exec (.launchDue q) s = .next v) ∧
      (at' * 2 ^ 40 ≤ s.localT + 8 * 2 ^ 40 → s.localT ≤ (at' + 8) * 2 ^ 40 →
        (v.lqBehind q e = true → ∃ t, exec (.launchDue q) s = .next t ∧ t.net.txq = s.net.txq ∧ t.net.lqWait = [q.val]) ∧
        (∀ u f, v.lqBehind q e = false → v.memRead 1 (blockUnit netB) (leAt e 0 5) len = (u, .ok f) →
          ∃ t, exec (.launchDue q) s = .next t ∧ t.getF netB (F.LQ_SENT_COUNT.nth q) =
            (s.getF netB (F.LQ_SENT_COUNT.nth q) + 1) % 2 ^ F.LQ_SENT_COUNT.width ∧ s.net.lqBusy < t.net.lqBusy ∧
          ∃ x ∈ t.net.txq, x.prio = launchPrio q ∧ s.net.txq.count x < t.net.txq.count x)) ∧
      (∀ u f, (at' + 8) * 2 ^ 40 < s.localT → v.memRead 1 (blockUnit netB) (leAt e 0 5) len = (u, .ok f) →
        ∃ t, exec (.launchDue q) s = .next t ∧
        t.getF netB (F.LQ_LATE_COUNT.nth q) = satAdd F.LQ_LATE_COUNT.width (s.getF netB (F.LQ_LATE_COUNT.nth q)) 1 ∧
        (s.flag netB (F.LQ_CFG_LATE_FLAG.nth q) = false → t.net.txq = s.net.txq)))) ∧
  (∀ (s : State) (sub : Fin 1024),
    (∀ b hk udp addr port n per, Tab.find sub.val s.subs = some b → b.who = .net hk udp addr port → b.resendTo = b.sent →
      s.canIp addr = true → s.streamMade b = true →
      n = diff32 (s.ring b.ring).prod b.sent → per = s.streamLimit s.activePort / (s.ring b.ring).esize →
      (n ≠ 0 → s.streamUp = true → ∃ t b', exec (.streamFlushTimer sub) s = .next t ∧ Tab.find sub.val t.subs = some b' ∧
        b'.sent = (b.sent + min n per) % 2 ^ 32 ∧ b'.seq = (b.seq + 1) % 2 ^ 32 ∧ b'.cursor = b.cursor ∧ t.rings = s.rings) ∧
      (n = 0 ∨ s.streamUp = false → exec (.streamFlushTimer sub) s = .next s)) ∧
    (∀ b hk udp addr port, Tab.find sub.val s.subs = some b → b.who = .net hk udp addr port →
      s.canIp addr = false ∨ s.streamMade b = false → exec (.streamFlushTimer sub) s = .next s) ∧
    (Tab.find sub.val s.subs = none → exec (.streamFlushTimer sub) s = .next s ∧ exec (.sentHoldExpiry sub) s = .next s) ∧
    (∀ b, Tab.find sub.val s.subs = some b →
      (b.inFlight = [] → exec (.sentHoldExpiry sub) s = .next s) ∧
      (∀ e rest, b.inFlight = e :: rest → ∃ t b', exec (.sentHoldExpiry sub) s = .next t ∧
        Tab.find sub.val t.subs = some b' ∧ b'.cursor = e.1 ∧ b'.inFlight = rest ∧ b'.sent = b.sent ∧ t.rings = s.rings)))

/-- Time. An adjustment runs for its ticks and then has moved the clock by their product. INCR takes what is written, after a
switch within SWITCH_PPB of the increment held then (log entry 21), and ends the fallback; a step moves the clock at once while
no group runs. The first announcement heard in an enabled domain makes its source known, the second within four of its intervals
gives the domain its master (log entry 22); a sync gives, on the port in use, the path delay of the last answered request and
the offset, a delay response its path delay; each port keeps its own exchange; an announce timeout takes the lock away, and the
master, unless another stands ready. A servo that falls back runs from the increment it finds,
and the preferred domain takes over again once it is locked. -/
def Obligations.TimeAndPtp : Prop :=
  (∀ (s : State) (delta ticks : BitVec 32), ∃ t, exec (.timeAdjWrite delta ticks) s = .next t ∧
    t.time.delta = toInt 32 delta.toNat ∧ t.time.ticks = ticks.toNat ∧ t.getF timB F.TIME_ADJ_DELTA = delta.toNat ∧
    t.getF timB F.TIME_ADJ_TICKS = ticks.toNat ∧ t.localT = s.localT) ∧
  (∀ s : State, ∃ t, exec .timeAdjEnd s = .next t ∧ t.time.ticks = 0 ∧ t.regs = s.regs ∧
    t.localT = ((Int.ofNat s.localT + Int.ofNat s.time.ticks * s.time.delta) % clockMod).toNat) ∧
  (∀ (s : State) (incr : BitVec 48), ∃ t, exec (.timeIncrWrite incr) s = .next t ∧
    (s.time.held = none → t.getF timB F.TIME_INCR_INCR = incr.toNat) ∧
    (∀ h w, s.time.held = some h → w = ppbUnits (s.getF timB F.SLEW_CFG_SWITCH_PPB) →
      t.getF timB F.TIME_INCR_INCR = ofInt 48 (clampI (h - w) (h + w) (Int.ofNat incr.toNat))) ∧
    t.getF timB F.PTP_STATE_SERVO_FB = 0 ∧ t.localT = s.localT) ∧
  (∀ (s : State) (step : BitVec 64),
    (s.anyRunning = true → exec (.timeStepWrite step) s = .next s) ∧
    (s.anyRunning = false → ∃ t, exec (.timeStepWrite step) s = .next t ∧
      t.localT = ((Int.ofNat s.localT + toInt 64 step.toNat * 2 ^ 40) % clockMod).toNat ∧
      t.getF timB F.PTP_EVENT_STEP_EV = 1 ∧ t.grp = s.grp)) ∧
  (∀ (s : State) (p d : Fin 2) (m : List Byte),
    (m.length < 64 ∨ ptpOurs m = false ∨ beAt m 0 1 % 16 ≠ 0xB → exec (.ptpAnnounceReceived p m) s = .next s) ∧
    (64 ≤ m.length → ptpOurs m = true → beAt m 0 1 % 16 = 0xB → s.ptpEn d = true → (s.pt d).dom = beAt m 4 1 →
      (s.pt d).best = none →
      ((s.pt d).masters = [] → ∃ t, exec (.ptpAnnounceReceived p m) s = .next t ∧ (t.pt d).best = none ∧
        (t.pt d).masters =
          [⟨beAt m 20 10, announceKey m, beAt m 53 8, s.now, beAt m 33 1, false, [p.val], 0⟩] ∧
        t.ptpState d = s.ptpState d ∧ t.localT = s.localT) ∧
      (∀ e, (s.pt d).masters = [e] → e.src = beAt m 20 10 → s.now ≤ e.last + 4 * logCycles e.log →
        ∃ t, exec (.ptpAnnounceReceived p m) s = .next t ∧ (t.pt d).best = some e.src ∧
          (t.pt d).ports = (if e.ports.contains p.val then e.ports else p.val :: e.ports) ∧
          t.ptpState d = 2 ∧ t.localT = s.localT))) ∧
  (∀ (s : State) (p d : Fin 2) (t1 t2 : Int),
    (s.ptpEn d = true → (s.pt d).best.isSome = true → s.ptpPort (s.pt d) = p.val → ∃ t,
      exec (.ptpSyncReceived p d t1 t2) s = .next t ∧ t.ptpState d = 3 ∧ ((t.pt d).on p).t1 = some t1 ∧
      ((t.pt d).on p).t2 = t2 ∧ t.grp = s.grp ∧
      (((s.pt d).on p).back = none →
        t.getF timB (ptpF d F.MPD_A_DELAY F.MPD_B_DELAY) = s.getF timB (ptpF d F.MPD_A_DELAY F.MPD_B_DELAY)) ∧
      (∀ b, ((s.pt d).on p).back = some b →
        t.getF timB (ptpF d F.MPD_A_DELAY F.MPD_B_DELAY) = ofInt 64 (Int.fdiv ((t2 - t1) + b) 2)) ∧
      t.getF timB (ptpF d F.OFFSET_A_OFFSET F.OFFSET_B_OFFSET) =
        ofInt 64 (t2 - t1 - t.getI timB (ptpF d F.MPD_A_DELAY F.MPD_B_DELAY))) ∧
    (s.ptpEn d = true → (s.pt d).best.isSome = true → s.ptpPort (s.pt d) ≠ p.val → ∃ t,
      exec (.ptpSyncReceived p d t1 t2) s = .next t ∧ ((t.pt d).on p).t1 = some t1 ∧ ((t.pt d).on p).t2 = t2 ∧ t.regs = s.regs) ∧
    (s.ptpEn d = false ∨ (s.pt d).best = none → exec (.ptpSyncReceived p d t1 t2) s = .next s ∧
      exec (.ptpDelayReqSend d) s = .next s ∧ exec (.announceTimeout d) s = .next s)) ∧
  (∀ (s : State) (d : Fin 2), s.ptpEn d = true →
    ((s.pt d).best.isSome = true → 2 ≤ s.ptpState d → ∃ t, exec (.ptpDelayReqSend d) s = .next t ∧ t.localT = s.localT ∧
      ∀ q : Fin 2, s.linkIsUp q = true → ((t.pt d).on q).t3 = some (s.txStamp q) ∧
        ((t.pt d).on q).seq = (((s.pt d).on q).seq + 1) % 65536) ∧
    (∀ (t4 t1 t3 : Int) (e : PtpEx), e = (s.pt d).on (s.ptpPort (s.pt d)) → e.t1 = some t1 → e.t3 = some t3 →
      ∃ t, exec (.ptpDelayRespReceived d t4) s = .next t ∧
      t.getF timB (ptpF d F.MPD_A_DELAY F.MPD_B_DELAY) = ofInt 64 (Int.fdiv ((e.t2 - t1) + (t4 - t3)) 2) ∧
      (t.pt d).on (s.ptpPort (s.pt d)) = { e with t3 := none, back := some (t4 - t3) } ∧ t.localT = s.localT) ∧
    (∀ t4 : Int, ((s.pt d).on (s.ptpPort (s.pt d))).t3 = none → exec (.ptpDelayRespReceived d t4) s = .next s) ∧
    ((s.pt d).best.isSome = true →
      ((∀ e ∈ (s.pt d).masters, (s.pt d).best = some e.src) → ∃ t, exec (.announceTimeout d) s = .next t ∧ (t.pt d).best = none ∧
        t.ptpState d = 1 ∧ t.ptpLocked d = false ∧ t.grp = s.grp) ∧
      (∀ e, (s.liveMasters (s.pt d)).filter (fun x => (s.pt d).best != some x.src) = [e] → e.qual = true →
        ∃ t, exec (.announceTimeout d) s = .next t ∧ (t.pt d).best = some e.src ∧ t.ptpState d = 2 ∧ t.ptpLocked d = false))) ∧
  (∀ s : State,
    (∀ d, s.time.sel = some d → (s.pt d).synced = true → s.servoOn = false → ∃ t, exec .servoFallback s = .next t ∧
      t.servoOn = true ∧ t.getF timB F.PTP_EVENT_FB_EV = 1 ∧ t.getF timB F.TIME_INCR_INCR = s.getF timB F.TIME_INCR_INCR) ∧
    (s.time.sel = none ∨ s.servoOn = true → exec .servoFallback s = .next s) ∧
    (s.ptpLocked s.ptpPref = true → ∃ t, exec .ptpReturn s = .next t ∧ t.time.sel = some s.ptpPref ∧ t.grp = s.grp) ∧
    (s.ptpLocked s.ptpPref = false → exec .ptpReturn s = .next s))

/-! ## Views and panel (18_views, 19_panel) -/

/-- Views, display and panel. A row of a view that is due is skipped and counted, or comes out where its wales are there; a
look-back row takes the group's next row, and its view ends where the row has been overwritten, was never written or can no
longer come. VBLANK latches the newest row
of each displayed view. A plug reads the monitor, and a link that cannot train says so; an unplug clears it. A touch read and a
host transfer each take the idle bus, and their ends set the flags of their answers. A key changes with the DEB-th equal
sample. The blink phases toggle, and the buzzer sounds and pauses its repetitions; a start in the cycle of a stop wins. -/
def Obligations.ViewsAndPanel : Prop :=
  (∀ (s : State) (v : Fin 16) (b g n r : Nat), b = viewB v → g = s.getF b F.VIEW_CTRL_GROUP →
    n = 2 ^ s.getF b F.VIEW_CTRL_SY_LOG → r = Tab.get 0 v.val s.view → s.flag b F.VIEW_CTRL_EN = true →
    s.flag b F.VIEW_CTRL_SRC = false → ((s.g g).st = 2 →
    (s.seamDone g (n * (r + 1) - 1) = true →
      (∃ t, exec (.viewRow v true) s = .next t ∧ Tab.get 0 v.val t.view = r + 1 ∧ t.grp = s.grp ∧ t.mem = s.mem ∧
        t.getF b F.ROW_SKIP_COUNT = satAdd F.ROW_SKIP_COUNT.width (s.getF b F.ROW_SKIP_COUNT) 1) ∧
      (∀ rows, ((List.range n).map (· + n * r)).mapM (s.waleRow g) = some rows → ∃ t, exec (.viewRow v false) s = .next t ∧
        Tab.get 0 v.val t.view = r + 1 ∧ t.grp = s.grp ∧
        t.getF b F.VIEW_ROWS_ROWS = (s.getF b F.VIEW_ROWS_ROWS + 1) % 2 ^ F.VIEW_ROWS_ROWS.width)) ∧
    (s.seamDone g (n * (r + 1) - 1) = false → ∀ skip, exec (.viewRow v skip) s = .next s)) ∧
    ((s.g g).st ≠ 2 → ∀ skip, exec (.viewRow v skip) s = .next s)) ∧
  (∀ (s : State) (v : Fin 16) (skip : Bool), s.flag (viewB v) F.VIEW_CTRL_EN = false → exec (.viewRow v skip) s = .next s ∧
    exec (.lookbackPace v) s = .next s) ∧
  (∀ (s : State) (g : Fin 16) (r : Nat), r = Tab.get 0 g.val s.lbNext →
    (s.flag (lbB g) F.LB_CFG_LB_EN = true → (s.g g).st = 2 ∨ (s.g g).st = 3 → s.getF (lbB g) F.LB_CFG_LB_ROWS ≠ 0 →
      s.seamDone g (4 * r + 3) = true → ∃ t, exec (.lookbackRow g) s = .next t ∧ Tab.get 0 g.val t.lbNext = r + 1 ∧
      t.grp = s.grp ∧ t.view = s.view) ∧
    (s.flag (lbB g) F.LB_CFG_LB_EN = false ∨ s.seamDone g (4 * r + 3) = false → exec (.lookbackRow g) s = .next s)) ∧
  (∀ (s : State) (v : Fin 16) (b g n r newest : Nat), b = viewB v → g = s.getF b F.VIEW_CTRL_GROUP →
    n = 2 ^ (s.getF b F.VIEW_CTRL_SY_LOG - 2) → r = Tab.get 0 v.val s.view → newest = Tab.get 0 g s.lbNext →
    s.flag b F.VIEW_CTRL_EN = true → s.flag b F.VIEW_CTRL_SRC = true → s.flag b F.VIEW_STATUS_ACTIVE = true →
    (r * n + s.getF (lbB g) F.LB_CFG_LB_ROWS < newest ∨ (∃ k, (g, k) ∈ s.lbGone ∧ r * n ≤ k ∧ k < r * n + n) ∨
      (newest < r * n + n ∧ s.flag (lbB g) F.LB_CFG_LB_EN = false) → ∃ t, exec (.lookbackPace v) s = .next t ∧
      t.flag b F.VIEW_STATUS_ACTIVE = false ∧ t.getF b F.VIEW_STATUS_LB_END = 1 ∧ t.view = s.view) ∧
    (newest < r * n + n → s.lbLost g (r * n) (r * n + n) = false → exec (.lookbackPace v) s = .next s) ∧
    (r * n + n ≤ newest → s.lbLost g (r * n) (r * n + n) = false → ∃ t, exec (.lookbackPace v) s = .next t ∧
      Tab.get 0 v.val t.view = r + 1 ∧ t.getF b F.VIEW_ROWS_ROWS = (s.getF b F.VIEW_ROWS_ROWS + 1) % 2 ^ F.VIEW_ROWS_ROWS.width)) ∧
  (∀ s : State,
    (s.flag dpB F.DP_STATUS_TRAINED = true → s.flag dpB F.DP_STATUS_MODE_FAIL = false → Tab.rising s.dpRow = true →
      ∃ t, exec .vblankLatch s = .next t ∧ t.grp = s.grp ∧ t.mem = s.mem ∧ ∀ v < 16, Tab.find v t.dpRow =
        if s.flag (viewB v) F.VIEW_CTRL_DP_EN = true ∧ 0 < s.getF (viewB v) F.VIEW_ROWS_ROWS
          then some (s.getF (viewB v) F.VIEW_ROWS_ROWS - 1) else none) ∧
    (s.flag dpB F.DP_STATUS_TRAINED = false ∨ s.flag dpB F.DP_STATUS_MODE_FAIL = true → exec .vblankLatch s = .next s)) ∧
  (∀ (s : State) (rate lanes : Fin 5) (edid : List Byte) (trains : List (Fin 5 × Fin 5)),
    (s.domOn 94 = true → s.flag dpB F.DP_STATUS_HPD = false → ∃ t, exec (.hpdPlug rate lanes edid trains) s = .next t ∧
      t.flag dpB F.DP_STATUS_HPD = true ∧ t.getF dpB F.DP_EVENT_PLUG_EV = 1 ∧ t.dpMon.rate = rate ∧ t.dpMon.lanes = lanes ∧
      t.dpMon.edid = edid ∧ (s.flag dpB F.DP_CTRL_EN = true → trains = [] → t.getF dpB F.DP_EVENT_TRAIN_FAIL_EV = 1 ∧
        t.flag dpB F.DP_STATUS_TRAINED = false)) ∧
    (s.flag dpB F.DP_STATUS_HPD = true → exec (.hpdPlug rate lanes edid trains) s = .next s) ∧
    (s.domOn 94 = true → s.flag dpB F.DP_STATUS_HPD = true →
      (∃ t, exec .hpdUnplug s = .next t ∧ t.flag dpB F.DP_STATUS_HPD = false ∧ t.flag dpB F.DP_STATUS_TRAINED = false ∧
        t.getF dpB F.DP_EVENT_UNPLUG_EV = 1 ∧ t.dpMon = {}) ∧
      (s.flag dpB F.DP_CTRL_EN = true → trains = [] → ∃ t, exec (.irqHpd true trains) s = .next t ∧
        t.flag dpB F.DP_STATUS_TRAINED = false ∧ t.getF dpB F.DP_EVENT_TRAIN_FAIL_EV = 1 ∧ t.dpMon.trains = [])) ∧
    (s.flag dpB F.DP_STATUS_HPD = false → exec .hpdUnplug s = .next s) ∧ exec (.irqHpd false trains) s = .next s) ∧
  (∀ (s : State) (ack : Bool) (bytes : List Byte),
    (s.domOn 91 = true → s.flag pnlB F.PNL_TOUCH_TOUCH_EN = true → s.pnl.bus = 0 → ∃ t, exec .touchRead s = .next t ∧
      t.pnl.bus = 1 ∧ t.pnl.touchDue = false ∧ t.out = s.out ++ [.i2c (s.getF pnlB F.PNL_TOUCH_TOUCH_ADDR)
        [BitVec.ofNat 8 (s.getF pnlB F.PNL_TOUCH_TOUCH_REG)] (s.getF pnlB F.PNL_TOUCH_TOUCH_LEN)] ∧ t.regs = s.regs) ∧
    (s.flag pnlB F.PNL_TOUCH_TOUCH_EN = false ∨ s.pnl.bus = 1 → exec .touchRead s = .next s) ∧
    (s.domOn 91 = true → s.flag pnlB F.PNL_TOUCH_TOUCH_EN = true → s.pnl.bus = 2 → ∃ t, exec .touchRead s = .next t ∧
      t.pnl = { s.pnl with touchDue := true } ∧ t.regs = s.regs ∧ t.out = s.out) ∧
    (s.pnl.bus = 1 → s.pnl.touchDue = false → s.pnl.hostDue = false → ∃ t, exec (.touchReadDone ack bytes) s = .next t ∧
      t.pnl.bus = 0 ∧ (ack = false →
        t.getF pnlB F.TOUCH_NACK_COUNT = satAdd F.TOUCH_NACK_COUNT.width (s.getF pnlB F.TOUCH_NACK_COUNT) 1)) ∧
    (s.pnl.bus ≠ 1 → exec (.touchReadDone ack bytes) s = .next s) ∧
    (∀ (addr : BitVec 7) (wlen rlen : BitVec 6), s.domOn 91 = true → s.flag pnlB F.I2C_STATUS_BUSY = false →
      wlen.toNat ≤ 32 → rlen.toNat ≤ 32 → s.pnl.bus = 0 → s.pnl.touchDue = false →
      ∃ t, exec (.i2cCmd addr wlen rlen) s = .next t ∧ t.flag pnlB F.I2C_STATUS_BUSY = true ∧ t.pnl.bus = 2 ∧
        t.getF pnlB F.I2C_CMD_ADDR = addr.toNat ∧ t.getF pnlB F.I2C_CMD_WLEN = wlen.toNat ∧
        t.getF pnlB F.I2C_CMD_RLEN = rlen.toNat ∧ t.out = s.out ++ [.i2c addr.toNat (s.i2cBytes wlen.toNat) rlen.toNat]) ∧
    (∀ (addr : BitVec 7) (wlen rlen : BitVec 6), s.flag pnlB F.I2C_STATUS_BUSY = true ∨ 32 < wlen.toNat ∨ 32 < rlen.toNat →
      exec (.i2cCmd addr wlen rlen) s = .next s) ∧
    (s.pnl.bus = 2 → ∃ t, exec (.i2cDone ack bytes) s = .next t ∧ t.flag pnlB F.I2C_STATUS_BUSY = false ∧
      t.getF pnlB (if ack then F.I2C_STATUS_DONE else F.I2C_STATUS_NACK) = 1) ∧
    (s.pnl.bus ≠ 2 → exec (.i2cDone ack bytes) s = .next s)) ∧
  (∀ (s : State) (levels : BitVec 16), Tab.rising s.pnl.keyCnt = true → s.domOn 91 = true →
    ∃ t, exec (.keySample levels) s = .next t ∧ t.grp = s.grp ∧ ∀ k < 16, bit (t.getF pnlB F.KEY_STATE_ACTIVE) k =
      if (bit levels.toNat k == bit (s.getF pnlB F.KEY_CFG_KEY_POL) k) ≠ bit (s.getF pnlB F.KEY_STATE_ACTIVE) k ∧
          s.getF pnlB F.KEY_CFG_DEB ≤ Tab.get 0 k s.pnl.keyCnt + 1
        then (bit levels.toNat k == bit (s.getF pnlB F.KEY_CFG_KEY_POL) k)
        else bit (s.getF pnlB F.KEY_STATE_ACTIVE) k) ∧
  (∀ s : State, s.domOn 91 = true →
    (∃ t, exec (.ledBlinkToggle true) s = .next t ∧ t.pnl = { s.pnl with fastOn := !s.pnl.fastOn } ∧ t.regs = s.regs) ∧
    (∃ t, exec (.ledBlinkToggle false) s = .next t ∧ t.pnl = { s.pnl with slowOn := !s.pnl.slowOn } ∧ t.regs = s.regs) ∧
    (∃ t, exec .buzStart s = .next t ∧ t.pnl.buz = 1 ∧ t.pnl.buzLeft = s.getF pnlB F.BUZ_CFG_BUZ_REP ∧
      t.out = s.out ++ [.wave .buzzer (s.getF pnlB F.BUZ_CFG_BUZ_HZ) 1]) ∧
    (s.pnl.buzAt = some s.now → exec .buzStop s = .next s) ∧
    (s.pnl.buzAt ≠ some s.now → ∃ t, exec .buzStop s = .next t ∧ t.pnl.buz = 0 ∧ t.out = s.out ++ [.level .buzzer false])) ∧
  (∀ s : State, (s.pnl.buz = 1 → ∃ t, exec .buzPhaseEnd s = .next t ∧ t.pnl.buz = 2 ∧ t.pnl.buzLeft = s.pnl.buzLeft ∧
      t.out = s.out ++ [.level .buzzer false]) ∧
    (s.pnl.buz = 2 → s.pnl.buzLeft = 1 → ∃ t, exec .buzPhaseEnd s = .next t ∧ t.pnl.buz = 0 ∧ t.out = s.out) ∧
    (s.pnl.buz = 2 → s.pnl.buzLeft ≠ 1 → ∃ t, exec .buzPhaseEnd s = .next t ∧ t.pnl.buz = 1 ∧
      t.pnl.buzLeft = s.pnl.buzLeft - 1 ∧ t.out = s.out ++ [.wave .buzzer (s.getF pnlB F.BUZ_CFG_BUZ_HZ) 1]) ∧
    (s.pnl.buz = 0 → exec .buzPhaseEnd s = .next s))

/-! ## Yarn, auxiliary inputs and faults (15_yarn, 21_aux, 22_faults) -/

/-- Triggers, auxiliary inputs and fault rows. A producer reaches the channels that listen to it, a fire is counted in its
window, and the window's end shows the counts with STORM_EV at the limit. An auxiliary clock and channel start where they may,
the modulator bit of the chosen clock edge enters the integrators, and a sync is counted and waited for. A channel fault takes
the channel out of service, for its spare or masked from its oldest uncommitted course on; the spare takes over from that course;
a restore brings back the
channels that no run holds. A fault of a cluster, a region or a die link stops what it names. -/
def Obligations.TriggersAuxAndFaults : Prop :=
  (∀ (s : State) (n : Fin 256),
    (isProducer n = false ∨ s.prodOn n = false → exec (.producerFire n) s = .next s) ∧
    (isProducer n = true → s.prodOn n = true →
      (s.listeners n = [] → exec (.producerFire n) s = .next { s with yarn := { s.yarn with due := s.yarn.due.erase n.val } }) ∧
      (∀ c, s.listeners n = [c] → ∃ t, exec (.producerFire n) s = .next t ∧
        Tab.get 0 c t.yarn.fires = satAdd 16 (Tab.get 0 c s.yarn.fires) 1 ∧ t.grp = s.grp))) ∧
  (∀ (s : State) (c : Fin 64), ∃ t, exec (.yarnFire c) s = .next t ∧
    Tab.get 0 c.val t.yarn.fires = satAdd 16 (Tab.get 0 c.val s.yarn.fires) 1 ∧
    (∀ k, k ≠ c.val → Tab.get 0 k t.yarn.fires = Tab.get 0 k s.yarn.fires) ∧ t.grp = s.grp) ∧
  (∀ s : State, ∃ t, exec .stormWindowEnd s = .next t ∧ t.yarn.fires = [] ∧ t.grp = s.grp ∧
    (∀ c < 64, t.getF yarnB (F.YC_ACT_COUNT.nth c) = Tab.get 0 c s.yarn.fires % 2 ^ F.YC_ACT_COUNT.width) ∧
    (∀ c < 64, s.getF yarnB F.YARN_CFG_STORM_THR ≤ Tab.get 0 c s.yarn.fires →
      t.getF yarnB F.YARN_STATUS_STORM_EV = 1 ∧ bit (t.getF yarnB F.STORM_CH_CH) c = true)) ∧
  (∀ (s : State) (k : Fin 4) (mdiv : BitVec 8),
    (s.domOn 95 = true → s.mdivStatus k mdiv.toNat = 0 → ∃ t, exec (.auxClkWrite k mdiv) s = .next t ∧
      t.getF auxG (mdivF k) = mdiv.toNat % 2 ^ (mdivF k).width ∧ Tab.find k.val t.mclkAt = some s.now) ∧
    (s.domOn 95 = false ∨ s.mdivStatus k mdiv.toNat ≠ 0 → exec (.auxClkWrite k mdiv) s = .next s)) ∧
  (∀ (s : State) (c : Fin 32),
    (s.domOn 95 = true → s.auxRun c = false → s.auxStatus c = 0 → ∃ t n, exec (.auxRunRise c) s = .next t ∧
      n = s.getF (auxB c) F.AUX_CTRL_CIC_N ∧ t.auxRun c = true ∧
      t.ax c = { integ := List.replicate n 0, comb := List.replicate n 0 } ∧ (∀ k, k ≠ c.val → t.ax k = s.ax k)) ∧
    (s.auxRun c = true ∨ s.auxStatus c ≠ 0 → exec (.auxRunRise c) s = .next s) ∧
    (s.auxRun c = true → ∃ t, exec (.auxRunFall c) s = .next t ∧ t.auxRun c = false ∧ t.ax c = {} ∧
      (∀ k, k ≠ c.val → t.ax k = s.ax k)) ∧
    (s.auxRun c = false → exec (.auxRunFall c) s = .next s ∧ exec (.syncPhaseReset c) s = .next s ∧
      ∀ bits, exec (.auxOutput c bits) s = .next s) ∧
    (s.clk 0 = false → ∀ bits, exec (.auxOutput c bits) s = .next s) ∧
    (∀ rise fall, s.clk 0 = true → s.domOn 95 = true → s.auxRun c = true → (s.ax c).cicPhase + 1 < s.getF (auxB c) F.AUX_CTRL_CIC_R →
      s.getF auxG (mdivF (s.getF (auxB c) F.AUX_CTRL_CLK_SEL)) ≠ 0 →
      exec (.auxOutput c [(rise, fall)]) s = .next (s.setAx c { s.ax c with
        integ := (cicIntegrate (if (if s.flag (auxB c) F.AUX_CTRL_CLK_EDGE then fall else rise) then 1 else 2 ^ 62 - 1)
          (s.ax c).integ).1
        cicPhase := (s.ax c).cicPhase + 1 })) ∧
    (s.getF auxG (mdivF (s.getF (auxB c) F.AUX_CTRL_CLK_SEL)) = 0 → ∀ bits, exec (.auxOutput c bits) s = .next s) ∧
    (s.auxRun c = true → (s.ax c).syncWait = true → ∃ t, exec (.syncPhaseReset c) s = .next t ∧
      (t.ax c).syncWait = false ∧ (t.ax c).cicPhase = 0 ∧ (t.ax c).firPhase = 0 ∧ t.regs = s.regs)) ∧
  (∀ (s : State) (i : Instr), i = .auxSyncWrite ∨ i = .auxsyncEdge →
    (s.domOn 95 = true → ∃ t, exec i s = .next t ∧ (∀ c < 32, s.auxRun c = true → (t.ax c).syncWait = true) ∧
      t.getF auxG F.AUX_SYNC_CNT_COUNT = satAdd F.AUX_SYNC_CNT_COUNT.width (s.getF auxG F.AUX_SYNC_CNT_COUNT) 1) ∧
    (s.domOn 95 = false → i = .auxSyncWrite → exec i s = .next s)) ∧
  (∀ (s : State) (ch : Fin 128) (r : Nat), r = ch.val / 16 → s.outOfService ch = false →
    ∃ t, exec (.channelFaultDetect ch) s = .next t ∧ t.outOfService ch = true ∧ t.grp = s.grp ∧
      (s.flag fmB F.FM_CTRL_AUTO_SPARE = true → s.spareFree r = true → t.spareDue = s.spareDue ++ [ch.val] ∧ t.chan = s.chan) ∧
      (s.flag fmB F.FM_CTRL_AUTO_SPARE = false ∨ s.spareFree r = false →
        (t.ch ch).lostAt = some (s.uncommitted ch) ∧ ∀ k, k ≠ ch.val → t.ch k = s.ch k)) ∧
  (∀ (s : State) (r : Fin 8),
    (∀ ch, s.spareDue.find? (fun x => x / 16 == r.val) = some ch → s.getF (spareB r) F.SPARE_STATUS_STATE = 0 →
      ∃ t, exec (.spareTakeover r) s = .next t ∧ t.getF (spareB r) F.SPARE_STATUS_STATE = 1 ∧
        t.getF (spareB r) F.SPARE_STATUS_FOR = ch ∧ (t.ch ch).spares = (s.ch ch).spares ++ [(s.uncommitted ch, none)] ∧
        t.spareDue = s.spareDue.erase ch ∧
        t.getF (spareB r) F.SPARE_TAKES_COUNT = satAdd F.SPARE_TAKES_COUNT.width (s.getF (spareB r) F.SPARE_TAKES_COUNT) 1) ∧
    (s.spareDue.find? (fun x => x / 16 == r.val) = none → exec (.spareTakeover r) s = .next s) ∧
    (∀ mask : BitVec 16, ∃ t, exec (.rgnRestore r mask) s = .next t ∧ t.grp = s.grp ∧
      ∀ i < 16, (bit mask.toNat i = true ∧ s.groupOf (16 * r.val + i) = none →
          bit (t.getF (rgnB r) F.RGN_FAILED_CH) i = false ∧ (t.ch (16 * r.val + i)).lostAt = none) ∧
        (bit mask.toNat i = false ∨ s.groupOf (16 * r.val + i) ≠ none →
          bit (t.getF (rgnB r) F.RGN_FAILED_CH) i = bit (s.getF (rgnB r) F.RGN_FAILED_CH) i ∧
          t.ch (16 * r.val + i) = s.ch (16 * r.val + i))) ∧
    (∃ t, exec (.regionFault r) s = .next t ∧ bit t.boot.faulty r = true ∧ bit t.boot.avail r = false ∧
      (∀ i < 4, bit t.stopped (4 * r.val + i) = true) ∧ t.grp = s.grp)) ∧
  (∀ (s : State) (c : Fin 32), ∃ t, exec (.clusterFault c) s = .next t ∧ bit t.stopped c = true ∧
    t.getF (clB c) F.CL_STATUS_FAULT = 1 ∧ t.grp = s.grp) ∧
  (∀ (s : State) (l : Fin 7), ∃ t, exec (.dieLinkFault l) s = .next t ∧
    (∀ g < 16, (s.g g).st = 2 → s.crosses l g = true → (t.g g).st = 3) ∧
    (∀ g < 16, s.crosses l g = false → t.g g = s.g g) ∧
    (s.held = [] → s.live = [] → t.getF (dlB l) F.LINK_STATUS_FAULT_EV = 1))
end

