-- ==== Sys2Proof/Laws/Tab.lean ====
section
/-!
SUPPORT. Laws of tables kept in rising key order: what is found after a write or a removal, and that every operation
keeps the order; with them the laws of memory and of the flash.
-/

namespace Sys2Proof.Machine

variable {β : Type}

/-! ## Finding -/

/-- A write is found under its key and nowhere else. -/
@[simp] theorem Tab.find_put (j k : Nat) (v : β) (t : List (Nat × β)) :
    Tab.find j (Tab.put k v t) = if j = k then some v else Tab.find j t := by
  induction t with
  | nil => by_cases h : j = k <;> simp [Tab.put, Tab.find, h]
  | cons e t ih =>
    obtain ⟨i, w⟩ := e
    simp only [Tab.put]
    split
    · by_cases h : j = k <;> simp [Tab.find, h]
    · split
      · by_cases h : j = k
        · simp [Tab.find, h]
        · rename_i hk
          subst hk
          simp [Tab.find, h]
      · by_cases h : j = i
        · subst h
          rename_i hk
          simp [Tab.find, Ne.symm hk]
        · by_cases hj : j = k
          · subst hj; simp [Tab.find, h, ih]
          · simp [Tab.find, h, ih, hj]

/-- A write is read back under its key and nowhere else. -/
@[simp] theorem Tab.get_put (d v : β) (j k : Nat) (t : List (Nat × β)) :
    Tab.get d j (Tab.put k v t) = if j = k then v else Tab.get d j t := by
  unfold Tab.get
  rw [Tab.find_put]
  split <;> rfl

@[simp] theorem Tab.get_nil (d : β) (k : Nat) : Tab.get d k [] = d := rfl

/-! ## Order -/

/-- Every key of a table lies above `k`. -/
def Tab.above (k : Nat) (t : List (Nat × β)) : Prop := ∀ e ∈ t, k < e.1

/-- A table in order: its tail is, and lies above its head. -/
theorem Tab.rising_cons (k : Nat) (v : β) (t : List (Nat × β)) :
    Tab.rising ((k, v) :: t) = true ↔ Tab.above k t ∧ Tab.rising t = true := by
  induction t generalizing k v with
  | nil => simp [Tab.rising, Tab.above]
  | cons e t ih =>
    obtain ⟨j, w⟩ := e
    simp only [Tab.rising, Bool.and_eq_true, decide_eq_true_eq]
    constructor
    · rintro ⟨h, r⟩
      refine ⟨?_, r⟩
      intro e he
      rcases List.mem_cons.1 he with rfl | he
      · exact h
      · exact Nat.lt_trans h (((ih j w).1 r).1 e he)
    · rintro ⟨h, r⟩
      exact ⟨h (j, w) List.mem_cons_self, r⟩

/-- A write adds no key but its own. -/
theorem Tab.mem_put {k : Nat} {v : β} {t : List (Nat × β)} {e : Nat × β} (h : e ∈ Tab.put k v t) :
    e = (k, v) ∨ e ∈ t := by
  induction t with
  | nil => simpa [Tab.put] using h
  | cons x t ih =>
    obtain ⟨j, w⟩ := x
    simp only [Tab.put] at h
    split at h
    · simpa using h
    · split at h
      · rcases List.mem_cons.1 h with h | h
        · exact .inl h
        · exact .inr (List.mem_cons_of_mem _ h)
      · rcases List.mem_cons.1 h with h | h
        · exact .inr (h ▸ List.mem_cons_self)
        · exact (ih h).imp id (List.mem_cons_of_mem _)

/-- A removal adds nothing. -/
theorem Tab.mem_del {k : Nat} {t : List (Nat × β)} {e : Nat × β} (h : e ∈ Tab.del k t) : e ∈ t := by
  induction t with
  | nil => exact h
  | cons x t ih =>
    obtain ⟨j, w⟩ := x
    simp only [Tab.del] at h
    split at h
    · exact List.mem_cons_of_mem _ h
    · rcases List.mem_cons.1 h with h | h
      · exact h ▸ List.mem_cons_self
      · exact List.mem_cons_of_mem _ (ih h)

/-- A write keeps the order. -/
@[simp] theorem Tab.rising_put {k : Nat} {v : β} {t : List (Nat × β)} (h : Tab.rising t = true) :
    Tab.rising (Tab.put k v t) = true := by
  induction t with
  | nil => rfl
  | cons x t ih =>
    obtain ⟨j, w⟩ := x
    have ht := (Tab.rising_cons j w t).1 h
    simp only [Tab.put]
    split
    · rename_i hk
      refine (Tab.rising_cons _ _ _).2 ⟨?_, h⟩
      intro e he
      rcases List.mem_cons.1 he with rfl | he
      · exact hk
      · exact Nat.lt_trans hk (ht.1 e he)
    · split
      · rename_i hk
        subst hk
        exact (Tab.rising_cons _ _ _).2 ht
      · refine (Tab.rising_cons _ _ _).2 ⟨?_, ih ht.2⟩
        intro e he
        rcases Tab.mem_put he with rfl | he
        · show j < k; omega
        · exact ht.1 e he

/-- A removal keeps the order. -/
theorem Tab.rising_del {k : Nat} {t : List (Nat × β)} (h : Tab.rising t = true) : Tab.rising (Tab.del k t) = true := by
  induction t with
  | nil => rfl
  | cons x t ih =>
    obtain ⟨j, w⟩ := x
    have ht := (Tab.rising_cons j w t).1 h
    simp only [Tab.del]
    split
    · exact ht.2
    · exact (Tab.rising_cons _ _ _).2 ⟨fun e he => ht.1 e (Tab.mem_del he), ih ht.2⟩

/-- A part of a table in order is in order. -/
theorem Tab.rising_filter {t : List (Nat × β)} (p : Nat × β → Bool) (h : Tab.rising t = true) :
    Tab.rising (t.filter p) = true := by
  induction t with
  | nil => rfl
  | cons x t ih =>
    obtain ⟨j, w⟩ := x
    have ht := (Tab.rising_cons j w t).1 h
    simp only [List.filter_cons]
    split
    · exact (Tab.rising_cons _ _ _).2 ⟨fun e he => ht.1 e (List.mem_filter.1 he).1, ih ht.2⟩
    · exact ih ht.2

/-! ## Tables without default entries -/

/-- A write into a table that lists no default keeps its form. -/
theorem Tab.putD_keeps [DecidableEq β] {d v : β} {k : Nat} {t : List (Nat × β)}
    (h : Tab.rising t = true ∧ ∀ e ∈ t, e.2 ≠ d) :
    Tab.rising (Tab.putD d k v t) = true ∧ ∀ e ∈ Tab.putD d k v t, e.2 ≠ d := by
  unfold Tab.putD
  split
  · exact ⟨Tab.rising_del h.1, fun e he => h.2 e (Tab.mem_del he)⟩
  · rename_i hv
    refine ⟨Tab.rising_put h.1, fun e he => ?_⟩
    rcases Tab.mem_put he with rfl | he
    · exact hv
    · exact h.2 e he

/-- Memory in canonical form. -/
theorem Memory.wf_iff (m : List Host.Cell) :
    Memory.wf m = true ↔ Tab.rising m = true ∧ ∀ e ∈ m, e.2 ≠ (0 : Byte) := by
  simp [Memory.wf, List.all_eq_true]

/-- A flash in canonical form. -/
theorem Flash.wf_iff (m : List (Nat × Byte)) :
    Flash.wf m = true ↔ Tab.rising m = true ∧ ∀ e ∈ m, e.2 ≠ (0xFF : Byte) := by
  simp [Flash.wf, List.all_eq_true]

/-- Writing a byte keeps the canonical form. -/
theorem Memory.wf_memPut {m : List Host.Cell} (h : Memory.wf m = true) (a : Nat) (v : Byte) :
    Memory.wf (memPut m a v) = true :=
  (Memory.wf_iff _).2 (Tab.putD_keeps ((Memory.wf_iff _).1 h))

/-- Writing bytes keeps the canonical form. -/
theorem Memory.wf_memPuts {m : List Host.Cell} (h : Memory.wf m = true) (a : Nat) (bs : List Byte) :
    Memory.wf (memPuts m a bs) = true := by
  induction bs generalizing m a with
  | nil => exact h
  | cons b bs ih => exact ih (Memory.wf_memPut h a b) (a + 1)

/-- A part of a memory in canonical form is in canonical form. -/
theorem Memory.wf_filter {m : List Host.Cell} (p : Host.Cell → Bool) (h : Memory.wf m = true) :
    Memory.wf (m.filter p) = true := by
  rw [Memory.wf_iff] at h ⊢
  exact ⟨Tab.rising_filter p h.1, fun e he => h.2 e (List.mem_filter.1 he).1⟩

/-- Writing bytes to the flash keeps the canonical form. -/
theorem Flash.wf_puts (cs a : Nat) (bs : List Byte) {t : List (Nat × Byte)} (h : Flash.wf t = true) :
    Flash.wf (flashPuts cs a bs t) = true := by
  induction bs generalizing t a with
  | nil => exact h
  | cons b bs ih => exact ih (a + 1) ((Flash.wf_iff _).2 (Tab.putD_keeps ((Flash.wf_iff _).1 h)))

/-- Erasing sectors keeps the canonical form. -/
theorem Flash.wf_erase (cs a n : Nat) {t : List (Nat × Byte)} (h : Flash.wf t = true) :
    Flash.wf (flashErase cs a n t) = true := by
  rw [Flash.wf_iff] at h ⊢
  exact ⟨Tab.rising_filter _ h.1, fun e he => h.2 e (List.mem_filter.1 he).1⟩

/-! ## Read after write in tables without defaults -/

/-- In a table in order, what is removed is not found, and all else is. -/
theorem Tab.find_del {j k : Nat} {t : List (Nat × β)} (h : Tab.rising t = true) :
    Tab.find j (Tab.del k t) = if j = k then none else Tab.find j t := by
  induction t with
  | nil => simp [Tab.del, Tab.find]
  | cons x t ih =>
    obtain ⟨i, w⟩ := x
    have ht := (Tab.rising_cons i w t).1 h
    have gone : Tab.find i t = none := by
      have : ∀ (u : List (Nat × β)), Tab.above i u → Tab.find i u = none := by
        intro u hu
        induction u with
        | nil => rfl
        | cons y u ihu =>
          obtain ⟨n, z⟩ := y
          have hn : i < n := hu (n, z) List.mem_cons_self
          simp only [Tab.find]
          rw [if_neg (by omega)]
          exact ihu (fun e he => hu e (List.mem_cons_of_mem _ he))
      exact this t ht.1
    simp only [Tab.del]
    split
    · rename_i hk
      subst hk
      by_cases hj : j = k
      · subst hj; simp [gone]
      · simp [Tab.find, hj]
    · by_cases hj : j = i
      · subst hj
        rename_i hk
        simp [Tab.find, Ne.symm hk]
      · simp [Tab.find, hj, ih ht.2]

/-- Read after write of one byte of memory. -/
theorem Memory.get_put {m : List Host.Cell} (h : Memory.wf m = true) (a b : Nat) (v : Byte) :
    memGet (memPut m a v) b = if b = a then v else memGet m b := by
  have hr := ((Memory.wf_iff _).1 h).1
  unfold memGet memPut Tab.putD
  split
  · rename_i hv
    unfold Tab.get
    rw [Tab.find_del hr]
    split
    · exact hv.symm
    · rfl
  · rw [Tab.get_put]

/-- Read after write of bytes of memory. -/
theorem Memory.get_puts {m : List Host.Cell} (h : Memory.wf m = true) (a b : Nat) (bs : List Byte) :
    memGet (memPuts m a bs) b = if a ≤ b ∧ b < a + bs.length then bs.getD (b - a) 0 else memGet m b := by
  induction bs generalizing m a with
  | nil => rw [if_neg (by simp)]; rfl
  | cons c bs ih =>
    rw [memPuts, ih (Memory.wf_memPut h a c), Memory.get_put h]
    simp only [List.length_cons]
    by_cases h1 : b = a
    · subst h1
      rw [if_neg (by omega), if_pos rfl, if_pos (by omega)]
      simp
    · by_cases h2 : a + 1 ≤ b ∧ b < a + 1 + bs.length
      · rw [if_pos h2, if_pos (by omega)]
        obtain ⟨n, rfl⟩ : ∃ n, b = a + 1 + n := ⟨b - (a + 1), by omega⟩
        have e1 : a + 1 + n - (a + 1) = n := by omega
        have e2 : a + 1 + n - a = n + 1 := by omega
        rw [e1, e2]
        simp
      · rw [if_neg h2, if_neg h1, if_neg (by omega)]

end Sys2Proof.Machine
end

