-- ==== Sys2Proof/Laws/Grows.lean ====
section
/-!
SUPPORT. What every command keeps, as a relation between the state before and after: the queue and the model's clock are
untouched, what has been sent stays sent, a blown fuse stays blown, the counter of free values never falls, and a state in
canonical form stays in it. The other files Laws/Grows*.lean show it of every operation.
-/

namespace Sys2Proof.Machine

/-- What every command keeps of state `s` in state `t`. -/
structure Grows (s t : State) : Prop where
  now : t.now = s.now
  pending : t.pending = s.pending
  out : ∃ l, t.out = s.out ++ l
  fuses : ∀ n, bit s.fuses n = true → bit t.fuses n = true
  free : s.freeCtr ≤ t.freeCtr
  canon : s.canon = true → t.canon = true

variable {s0 s t : State}

theorem Grows.refl (s : State) : Grows s s := ⟨rfl, rfl, ⟨[], by simp⟩, fun _ h => h, Nat.le_refl _, id⟩

theorem Grows.trans (a : Grows s0 s) (b : Grows s t) : Grows s0 t :=
  ⟨b.now.trans a.now, b.pending.trans a.pending,
    by
      obtain ⟨l, hl⟩ := a.out
      obtain ⟨m, hm⟩ := b.out
      exact ⟨l ++ m, by rw [hm, hl, List.append_assoc]⟩,
    fun n h => b.fuses n (a.fuses n h), Nat.le_trans a.free b.free, fun h => b.canon (a.canon h)⟩

/-- The canonical form, part by part. -/
theorem State.canon_iff (s : State) : s.canon = true ↔ Memory.wf s.mem = true ∧ Flash.wf s.flash = true ∧
    Tab.rising s.regs = true ∧ Tab.rising s.act = true ∧ Tab.rising s.shd = true := by
  simp [State.canon, and_assoc]

/-- A change of the parts that the relation does not speak of. -/
theorem Grows.upd (h : Grows s0 s) (now : t.now = s.now) (pending : t.pending = s.pending) (out : t.out = s.out)
    (fuses : t.fuses = s.fuses) (free : t.freeCtr = s.freeCtr) (mem : t.mem = s.mem) (flash : t.flash = s.flash)
    (regs : t.regs = s.regs) (act : t.act = s.act) (shd : t.shd = s.shd) : Grows s0 t :=
  h.trans ⟨now, pending, ⟨[], by simp [out]⟩, fun n hn => by rw [fuses]; exact hn, Nat.le_of_eq free.symm,
    fun hc => by rw [State.canon_iff] at hc ⊢; rw [mem, flash, regs, act, shd]; exact hc⟩

/-- A change of the parts that the relation does not speak of, as a state written out. -/
theorem Grows.mk'
    {x_pos : List (Nat × PosCh)} {x_grp : List (Nat × Grp)} {x_flight : List Stamped} {x_arrived : List Stamped}
    {x_live : List LiveWrite} {x_held : List Held} {x_devView : Nat} {x_sync : Sync} {x_copying : List CopyBack}
    {x_wakeFrom : Int} {x_localT : Nat} {x_time : TimeSt} {x_ptp : List (Nat × Ptp)} {x_lane : List (Nat × Lane)}
    {x_chan : List (Nat × Chan)} {x_seam : List (Nat × SeamCh)} {x_seamG : List (Nat × SeamGrp)} {x_segG : List (Nat ×
    SegGrp)} {x_tal : List (Nat × TalGrp)} {x_tallyLast : Nat} {x_csw : List Csw} {x_hist : List (Nat × List Hist)}
    {x_oldL : List (Nat × Int × Nat)} {x_sess : List Session} {x_rings : List (Nat × RingCtx)} {x_resv : List
    Reservation} {x_subs : List (Nat × Sub)} {x_ctxCache : List Nat} {x_binds : List (Nat × Nat × Bool)} {x_ringWait :
    List (Nat × Nat)} {x_starved : List Nat} {x_dma : List (Nat × Dma)} {x_memQ : List MemReq} {x_hank : List (Nat ×
    HankJob)} {x_memBad : List (Nat × Nat)} {x_dram : List (Nat × Dram)} {x_retrain : List (Nat × Nat × Nat)} {x_cmp : List (Nat × Cmp)} {x_rezero
    : List (Nat × Int × Int)} {x_tag : Tag} {x_cass : Cass} {x_cassKey : List Byte} {x_aux : List (Nat × AuxCh)}
    {x_mclkAt : List (Nat × Nat)} {x_yarn : Yarn} {x_pnl : Panel} {x_dpMon : Monitor} {x_view : List (Nat × Nat)}
    {x_viewOld : List (Nat × Nat × Nat)} {x_lbNext : List (Nat × Nat)} {x_dpRow : List (Nat × Nat)} {x_rep : Replay}
    {x_stopped : Nat} {x_spareDue : List Nat} {x_net : Net} {x_boot : Boot} {x_power : Power} {x_jtag : Nat} {x_pins :
    List (Pin × Bool)} {x_banksOff : Bool} {x_degShown : Nat} {x_annKey : List Byte} {x_keys : List (Nat × List Byte)}
    {x_accepts : Nat} {x_lbGone : List (Nat × Nat)} {x_dpBuf : List (Nat × DispBuf)} {x_gated : Nat} {x_dup : Bool}
    (h : Grows s0 s) : Grows s0 ⟨
      s.now, s.regs, s.act, s.shd, s.mem, s.flash, s.out, s.freeCtr, x_pos, x_grp, x_flight, x_arrived, x_live,
      x_held, x_devView, x_sync, x_copying, x_accepts, x_wakeFrom, x_localT, x_time, x_ptp, x_lane, x_chan, x_seam, x_seamG,
      x_segG, x_tal, x_tallyLast, x_csw, x_hist, x_oldL, x_sess, x_rings, x_resv, x_subs, x_ctxCache, x_binds,
      x_ringWait, x_starved, x_dma, x_memQ, x_hank, x_memBad, x_dram, x_retrain, x_cmp, x_rezero, x_tag, x_cass, x_cassKey,
      x_aux, x_mclkAt, x_yarn, x_pnl, x_dpMon, x_view, x_viewOld, x_lbNext, x_lbGone, x_dpRow, x_dpBuf, x_rep, x_stopped, x_spareDue,
      x_net, x_boot, s.fuses, x_power, x_jtag, x_pins, x_banksOff, x_gated, x_degShown, x_annKey, x_keys, x_dup, s.pending⟩ :=
  h.upd rfl rfl rfl rfl rfl rfl rfl rfl rfl rfl

/-- A change of memory, flash and registers that keeps each canonical. -/
theorem Grows.updC (h : Grows s0 s) (now : t.now = s.now) (pending : t.pending = s.pending) (out : t.out = s.out)
    (fuses : t.fuses = s.fuses) (free : t.freeCtr = s.freeCtr)
    (mem : Memory.wf s.mem = true → Memory.wf t.mem = true) (flash : Flash.wf s.flash = true → Flash.wf t.flash = true)
    (regs : Tab.rising s.regs = true → Tab.rising t.regs = true)
    (act : Tab.rising s.act = true → Tab.rising t.act = true)
    (shd : Tab.rising s.shd = true → Tab.rising t.shd = true) : Grows s0 t :=
  h.trans ⟨now, pending, ⟨[], by simp [out]⟩, fun n hn => by rw [fuses]; exact hn, Nat.le_of_eq free.symm,
    fun hc => by
      rw [State.canon_iff] at hc ⊢
      exact ⟨mem hc.1, flash hc.2.1, regs hc.2.2.1, act hc.2.2.2.1, shd hc.2.2.2.2⟩⟩

/-- A change of registers that keeps the order of their tables, as a state written out. -/
theorem Grows.mkC {x_regs x_act x_shd : List (Nat × Nat)}
    {x_pos : List (Nat × PosCh)} {x_grp : List (Nat × Grp)} {x_flight : List Stamped} {x_arrived : List Stamped}
    {x_live : List LiveWrite} {x_held : List Held} {x_devView : Nat} {x_sync : Sync} {x_copying : List CopyBack}
    {x_wakeFrom : Int} {x_localT : Nat} {x_time : TimeSt} {x_ptp : List (Nat × Ptp)} {x_lane : List (Nat × Lane)}
    {x_chan : List (Nat × Chan)} {x_seam : List (Nat × SeamCh)} {x_seamG : List (Nat × SeamGrp)} {x_segG : List (Nat ×
    SegGrp)} {x_tal : List (Nat × TalGrp)} {x_tallyLast : Nat} {x_csw : List Csw} {x_hist : List (Nat × List Hist)}
    {x_oldL : List (Nat × Int × Nat)} {x_sess : List Session} {x_rings : List (Nat × RingCtx)} {x_resv : List
    Reservation} {x_subs : List (Nat × Sub)} {x_ctxCache : List Nat} {x_binds : List (Nat × Nat × Bool)} {x_ringWait :
    List (Nat × Nat)} {x_starved : List Nat} {x_dma : List (Nat × Dma)} {x_memQ : List MemReq} {x_hank : List (Nat ×
    HankJob)} {x_memBad : List (Nat × Nat)} {x_dram : List (Nat × Dram)} {x_retrain : List (Nat × Nat × Nat)} {x_cmp : List (Nat × Cmp)} {x_rezero
    : List (Nat × Int × Int)} {x_tag : Tag} {x_cass : Cass} {x_cassKey : List Byte} {x_aux : List (Nat × AuxCh)}
    {x_mclkAt : List (Nat × Nat)} {x_yarn : Yarn} {x_pnl : Panel} {x_dpMon : Monitor} {x_view : List (Nat × Nat)}
    {x_viewOld : List (Nat × Nat × Nat)} {x_lbNext : List (Nat × Nat)} {x_dpRow : List (Nat × Nat)} {x_rep : Replay}
    {x_stopped : Nat} {x_spareDue : List Nat} {x_net : Net} {x_boot : Boot} {x_power : Power} {x_jtag : Nat} {x_pins :
    List (Pin × Bool)} {x_banksOff : Bool} {x_degShown : Nat} {x_annKey : List Byte} {x_keys : List (Nat × List Byte)}
    {x_accepts : Nat} {x_lbGone : List (Nat × Nat)} {x_dpBuf : List (Nat × DispBuf)} {x_gated : Nat} {x_dup : Bool}
    (h : Grows s0 s) (regs : Tab.rising s.regs = true → Tab.rising x_regs = true)
    (act : Tab.rising s.act = true → Tab.rising x_act = true) (shd : Tab.rising s.shd = true → Tab.rising x_shd = true) :
    Grows s0 ⟨
      s.now, x_regs, x_act, x_shd, s.mem, s.flash, s.out, s.freeCtr, x_pos, x_grp, x_flight, x_arrived, x_live,
      x_held, x_devView, x_sync, x_copying, x_accepts, x_wakeFrom, x_localT, x_time, x_ptp, x_lane, x_chan, x_seam, x_seamG,
      x_segG, x_tal, x_tallyLast, x_csw, x_hist, x_oldL, x_sess, x_rings, x_resv, x_subs, x_ctxCache, x_binds,
      x_ringWait, x_starved, x_dma, x_memQ, x_hank, x_memBad, x_dram, x_retrain, x_cmp, x_rezero, x_tag, x_cass, x_cassKey,
      x_aux, x_mclkAt, x_yarn, x_pnl, x_dpMon, x_view, x_viewOld, x_lbNext, x_lbGone, x_dpRow, x_dpBuf, x_rep, x_stopped, x_spareDue,
      x_net, x_boot, s.fuses, x_power, x_jtag, x_pins, x_banksOff, x_gated, x_degShown, x_annKey, x_keys, x_dup, s.pending⟩ :=
  h.updC rfl rfl rfl rfl rfl id id regs act shd

/-- More of the counter of free values is used. -/
theorem Grows.updFree (n : Nat) (h : Grows s0 s) : Grows s0 { s with freeCtr := s.freeCtr + n } :=
  h.trans ⟨rfl, rfl, ⟨[], by simp⟩, fun _ hn => hn, Nat.le_add_right _ _,
    fun hc => by rw [State.canon_iff] at hc ⊢; exact hc⟩

/-- The first part of a pair that a function answers. -/
theorem Grows.fst {α : Type} {p : State × α} {a : α} (e : p = (t, a)) (h : Grows s0 p.1) : Grows s0 t := by
  subst e; exact h

theorem Grows.forL {α : Type} {f : α → State → State} (l : List α) (hf : ∀ x t, Grows s0 t → Grows s0 (f x t))
    (h : Grows s0 s) : Grows s0 (forL l f s) := by
  unfold Machine.forL
  induction l generalizing s with
  | nil => exact h
  | cons x l ih => exact ih (hf x s h)

theorem Grows.forN {f : Nat → State → State} (n : Nat) (hf : ∀ x t, Grows s0 t → Grows s0 (f x t))
    (h : Grows s0 s) : Grows s0 (forN n f s) := Grows.forL _ hf h

theorem Grows.foldl {α : Type} {f : State → α → State} (l : List α) (hf : ∀ x t, Grows s0 t → Grows s0 (f t x))
    (h : Grows s0 s) : Grows s0 (l.foldl f s) := by
  induction l generalizing s with
  | nil => exact h
  | cons x l ih => exact ih (hf x s h)

theorem Grows.foldlP {α β : Type} {f : State × β → α → State × β} (l : List α)
    (hf : ∀ x p, Grows s0 p.1 → Grows s0 (f p x).1) {p : State × β} (h : Grows s0 p.1) : Grows s0 (l.foldl f p).1 := by
  induction l generalizing p with
  | nil => exact h
  | cons x l ih => exact ih (hf x p h)

theorem Grows.ite {c : Prop} [Decidable c] {a b : State} (ha : Grows s0 a) (hb : Grows s0 b) :
    Grows s0 (if c then a else b) := by
  split
  · exact ha
  · exact hb

theorem Grows.iteP {α : Type} {c : Prop} [Decidable c] {a b : State × α} (ha : Grows s0 a.1) (hb : Grows s0 b.1) :
    Grows s0 (if c then a else b).1 := by
  split
  · exact ha
  · exact hb

/-- A command that answers a next state has kept these things. -/
def GrowsO (s : State) (o : Host.Outcome State Fault Refusal) : Prop := ∀ t, o = .next t → Grows s t

theorem GrowsO.next (h : Grows s t) : GrowsO s (.next t) := fun _ e => by injection e with e; exact e ▸ h

/-! ## The register file and what is sent -/

theorem setF_grows (b : Nat) (f : Fld) (v : Nat) (h : Grows s0 s) : Grows s0 (s.setF b f v) := by
  unfold State.setF
  split
  · exact h.updC rfl rfl rfl rfl rfl id id id Tab.rising_put id
  · exact h.updC rfl rfl rfl rfl rfl id id Tab.rising_put id id

theorem setSh_grows (b : Nat) (f : Fld) (v : Nat) (h : Grows s0 s) : Grows s0 (s.setSh b f v) := by
  unfold State.setSh
  split
  · exact h.updC rfl rfl rfl rfl rfl id id id id Tab.rising_put
  · exact h.updC rfl rfl rfl rfl rfl id id Tab.rising_put id id

theorem emit_grows (o : Out) (h : Grows s0 s) : Grows s0 (s.emit o) :=
  h.trans ⟨rfl, rfl, ⟨[o], rfl⟩, fun _ hn => hn, Nat.le_refl _,
    fun hc => by rw [State.canon_iff] at hc ⊢; exact hc⟩

theorem tickFree_grows (h : Grows s0 s) : Grows s0 s.tickFree := Grows.updFree 1 h

/-- Bytes written to memory (R469, R499, R502). -/
theorem pokes_grows (a : Nat) (bs : List Byte) (h : Grows s0 s) : Grows s0 (s.pokes a bs) := by
  refine h.updC rfl rfl rfl rfl rfl ?_ id id id id
  intro hm
  have h1 : Memory.wf (if s.mcState (devOf a) = 3 ∨ !s.domOn (memDom (devOf a)) then s.mem else memPuts s.mem a bs) = true := by
    split
    · exact hm
    · exact Memory.wf_memPuts hm _ _
  unfold State.pokes
  dsimp only
  split
  · exact Memory.wf_memPuts h1 _ _
  · exact h1

end Sys2Proof.Machine
end

