-- ==== Sys2Proof/Laws/Quiet.lean ====
section
/-!
SUPPORT. What sending, logging, the journal, the rings and device memory leave alone, as a relation between the state
before and after: every part of the state but their own, and every register outside the hub's blocks of the fault
manager, replay, rings, codecs, network, time, views, DisplayPort and panel, and outside the memory controllers and
codecs of the regions. One lemma per operation; with it a claim about a command need not unfold any of them.
-/

set_option linter.unusedTactic false
set_option linter.unreachableTactic false

namespace Sys2Proof.Machine

/-- Whether the key of a register field lies outside those blocks. -/
def prot (k : Nat) : Bool :=
  let a := k / 64
  decide (a < 0xE0000) || (decide (0x110000 ≤ a) && decide (a < 0x120000)) ||
    (decide (0x190000 ≤ a) && decide (a < 0x10000000)) || (decide (0x10000000 ≤ a) && decide (a % 0x1000000 < 0x700000))

/-- What those operations keep of state `s` in state `t`. -/
structure Quiet (s t : State) : Prop where
  regs : ∀ k, prot k = true → Tab.find k t.regs = Tab.find k s.regs
  free : s.freeCtr ≤ t.freeCtr
  now : t.now = s.now
  act : t.act = s.act
  shd : t.shd = s.shd
  flash : t.flash = s.flash
  pos : t.pos = s.pos
  grp : t.grp = s.grp
  flight : t.flight = s.flight
  arrived : t.arrived = s.arrived
  live : t.live = s.live
  held : t.held = s.held
  devView : t.devView = s.devView
  sync : t.sync = s.sync
  copying : t.copying = s.copying
  accepts : t.accepts = s.accepts
  wakeFrom : t.wakeFrom = s.wakeFrom
  localT : t.localT = s.localT
  time : t.time = s.time
  ptp : t.ptp = s.ptp
  lane : t.lane = s.lane
  chan : t.chan = s.chan
  seam : t.seam = s.seam
  seamG : t.seamG = s.seamG
  segG : t.segG = s.segG
  tal : t.tal = s.tal
  tallyLast : t.tallyLast = s.tallyLast
  hist : t.hist = s.hist
  oldL : t.oldL = s.oldL
  dma : t.dma = s.dma
  hank : t.hank = s.hank
  retrain : t.retrain = s.retrain
  cmp : t.cmp = s.cmp
  rezero : t.rezero = s.rezero
  tag : t.tag = s.tag
  cass : t.cass = s.cass
  cassKey : t.cassKey = s.cassKey
  aux : t.aux = s.aux
  mclkAt : t.mclkAt = s.mclkAt
  pnl : t.pnl = s.pnl
  dpMon : t.dpMon = s.dpMon
  view : t.view = s.view
  viewOld : t.viewOld = s.viewOld
  lbNext : t.lbNext = s.lbNext
  lbGone : t.lbGone = s.lbGone
  dpRow : t.dpRow = s.dpRow
  dpBuf : t.dpBuf = s.dpBuf
  stopped : t.stopped = s.stopped
  spareDue : t.spareDue = s.spareDue
  boot : t.boot = s.boot
  fuses : t.fuses = s.fuses
  power : t.power = s.power
  jtag : t.jtag = s.jtag
  banksOff : t.banksOff = s.banksOff
  gated : t.gated = s.gated
  degShown : t.degShown = s.degShown
  annKey : t.annKey = s.annKey
  keys : t.keys = s.keys
  dup : t.dup = s.dup
  pending : t.pending = s.pending

variable {s0 s t : State}

theorem Quiet.refl (s : State) : Quiet s s :=
  ⟨fun _ _ => rfl, Nat.le_refl _, rfl, rfl, rfl, rfl, rfl, rfl, rfl, rfl, rfl, rfl, rfl, rfl, rfl, rfl, rfl, rfl, rfl, rfl, rfl, rfl,
    rfl, rfl, rfl, rfl, rfl, rfl, rfl, rfl, rfl, rfl, rfl, rfl, rfl, rfl, rfl, rfl, rfl, rfl, rfl, rfl, rfl, rfl, rfl,
    rfl, rfl, rfl, rfl, rfl, rfl, rfl, rfl, rfl, rfl, rfl, rfl, rfl, rfl, rfl⟩

theorem Quiet.trans (a : Quiet s0 s) (b : Quiet s t) : Quiet s0 t :=
  ⟨fun k hk => (b.regs k hk).trans (a.regs k hk), Nat.le_trans a.free b.free, b.now.trans a.now, b.act.trans a.act,
    b.shd.trans a.shd, b.flash.trans a.flash, b.pos.trans a.pos, b.grp.trans a.grp, b.flight.trans a.flight,
    b.arrived.trans a.arrived, b.live.trans a.live, b.held.trans a.held, b.devView.trans a.devView, b.sync.trans
    a.sync, b.copying.trans a.copying, b.accepts.trans a.accepts, b.wakeFrom.trans a.wakeFrom, b.localT.trans a.localT, b.time.trans a.time,
    b.ptp.trans a.ptp, b.lane.trans a.lane, b.chan.trans a.chan, b.seam.trans a.seam, b.seamG.trans a.seamG,
    b.segG.trans a.segG, b.tal.trans a.tal, b.tallyLast.trans a.tallyLast, b.hist.trans a.hist, b.oldL.trans a.oldL,
    b.dma.trans a.dma, b.hank.trans a.hank, b.retrain.trans a.retrain, b.cmp.trans a.cmp, b.rezero.trans a.rezero,
    b.tag.trans a.tag, b.cass.trans a.cass, b.cassKey.trans a.cassKey, b.aux.trans a.aux, b.mclkAt.trans a.mclkAt,
    b.pnl.trans a.pnl, b.dpMon.trans a.dpMon, b.view.trans a.view, b.viewOld.trans a.viewOld, b.lbNext.trans a.lbNext, b.lbGone.trans a.lbGone,
    b.dpRow.trans a.dpRow, b.dpBuf.trans a.dpBuf, b.stopped.trans a.stopped, b.spareDue.trans a.spareDue, b.boot.trans a.boot, b.fuses.trans
    a.fuses, b.power.trans a.power, b.jtag.trans a.jtag, b.banksOff.trans a.banksOff, b.gated.trans a.gated, b.degShown.trans a.degShown,
    b.annKey.trans a.annKey, b.keys.trans a.keys, b.dup.trans a.dup, b.pending.trans a.pending⟩

/-- A change of their own parts, as a state written out. -/
theorem Quiet.mk'
    {x_mem : List Host.Cell} {x_out : List Out} {x_csw : List Csw} {x_sess : List Session} {x_rings : List (Nat ×
    RingCtx)} {x_resv : List Reservation} {x_subs : List (Nat × Sub)} {x_ctxCache : List Nat} {x_binds : List (Nat ×
    Nat × Bool)} {x_ringWait : List (Nat × Nat)} {x_starved : List Nat} {x_memQ : List MemReq} {x_memBad : List (Nat ×
    Nat)} {x_dram : List (Nat × Dram)} {x_yarn : Yarn} {x_rep : Replay} {x_net : Net} {x_pins : List (Pin × Bool)}
    (h : Quiet s0 s) : Quiet s0 ⟨
      s.now, s.regs, s.act, s.shd, x_mem, s.flash, x_out, s.freeCtr, s.pos, s.grp, s.flight, s.arrived, s.live,
      s.held, s.devView, s.sync, s.copying, s.accepts, s.wakeFrom, s.localT, s.time, s.ptp, s.lane, s.chan, s.seam, s.seamG,
      s.segG, s.tal, s.tallyLast, x_csw, s.hist, s.oldL, x_sess, x_rings, x_resv, x_subs, x_ctxCache, x_binds,
      x_ringWait, x_starved, s.dma, x_memQ, s.hank, x_memBad, x_dram, s.retrain, s.cmp, s.rezero, s.tag, s.cass, s.cassKey,
      s.aux, s.mclkAt, x_yarn, s.pnl, s.dpMon, s.view, s.viewOld, s.lbNext, s.lbGone, s.dpRow, s.dpBuf, x_rep, s.stopped, s.spareDue,
      x_net, s.boot, s.fuses, s.power, s.jtag, x_pins, s.banksOff, s.gated, s.degShown, s.annKey, s.keys, s.dup, s.pending⟩ :=
  h.trans ⟨fun _ _ => rfl, Nat.le_refl _, rfl, rfl, rfl, rfl, rfl, rfl, rfl, rfl, rfl, rfl, rfl, rfl, rfl, rfl, rfl, rfl, rfl, rfl, rfl,
  rfl, rfl, rfl, rfl, rfl, rfl, rfl, rfl, rfl, rfl, rfl, rfl, rfl, rfl, rfl, rfl, rfl, rfl, rfl, rfl, rfl, rfl, rfl,
  rfl, rfl, rfl, rfl, rfl, rfl, rfl, rfl, rfl, rfl, rfl, rfl, rfl, rfl, rfl, rfl⟩

theorem Quiet.ite {c : Prop} [Decidable c] {a b : State} (ha : Quiet s0 a) (hb : Quiet s0 b) :
    Quiet s0 (if c then a else b) := by
  split
  · exact ha
  · exact hb

theorem Quiet.iteP {α : Type} {c : Prop} [Decidable c] {a b : State × α} (ha : Quiet s0 a.1) (hb : Quiet s0 b.1) :
    Quiet s0 (if c then a else b).1 := by
  split
  · exact ha
  · exact hb

theorem Quiet.forL {α : Type} {f : α → State → State} (l : List α) (hf : ∀ x t, Quiet s0 t → Quiet s0 (f x t))
    (h : Quiet s0 s) : Quiet s0 (forL l f s) := by
  unfold Machine.forL
  induction l generalizing s with
  | nil => exact h
  | cons x l ih => exact ih (hf x s h)

theorem Quiet.forN {f : Nat → State → State} (n : Nat) (hf : ∀ x t, Quiet s0 t → Quiet s0 (f x t))
    (h : Quiet s0 s) : Quiet s0 (forN n f s) := Quiet.forL _ hf h

theorem Quiet.fst {α : Type} {p : State × α} {a : α} (e : p = (t, a)) (h : Quiet s0 p.1) : Quiet s0 t := by
  subst e; exact h

/-- A protected register field reads as before. -/
theorem Quiet.getF (h : Quiet s t) (b : Nat) (f : Fld) (hp : prot (f.key b) = true) : t.getF b f = s.getF b f := by
  unfold State.getF Tab.get
  split
  · rw [h.act]
  · rw [h.regs _ hp]

/-! ## Keys outside -/

theorem prot_eth (p : Nat) (f : Fld) (h : f.off < 0x10000 ∧ f.lo < 64) : prot (f.key (ethB p)) = false := by
  have e : f.key (ethB p) / 64 = ethB p + f.off := by
    unfold Fld.key
    generalize ethB p = b
    omega
  unfold ethB at *
  simp [prot, e]
  omega

theorem prot_mc (d : Nat) (f : Fld) (h : f.off < 0x10000 ∧ f.lo < 64) : prot (f.key (mcB d)) = false := by
  have e : f.key (mcB d) / 64 = mcB d + f.off := by
    unfold Fld.key
    generalize mcB d = b
    omega
  unfold mcB at *
  simp [prot, e]
  omega

theorem prot_hk (k : Nat) (f : Fld) (h : f.off < 0x10000 ∧ f.lo < 64) : prot (f.key (hkB k)) = false := by
  have e : f.key (hkB k) / 64 = hkB k + f.off := by
    unfold Fld.key
    generalize hkB k = b
    omega
  unfold prot
  simp only [e]
  unfold hkB
  split <;> simp <;> omega

theorem setF_quiet (b : Nat) (f : Fld) (v : Nat) (hf : f.pat = false) (hp : prot (f.key b) = false) (h : Quiet s0 s) :
    Quiet s0 (s.setF b f v) := by
  unfold State.setF
  rw [if_neg (by simp [hf])]
  refine h.trans ⟨fun k hk => ?_, Nat.le_refl _, rfl, rfl, rfl, rfl, rfl, rfl, rfl, rfl, rfl, rfl, rfl, rfl, rfl, rfl, rfl, rfl, rfl, rfl,
    rfl, rfl, rfl, rfl, rfl, rfl, rfl, rfl, rfl, rfl, rfl, rfl, rfl, rfl, rfl, rfl, rfl, rfl, rfl, rfl, rfl, rfl, rfl,
    rfl, rfl, rfl, rfl, rfl, rfl, rfl, rfl, rfl, rfl, rfl, rfl, rfl, rfl, rfl, rfl, rfl⟩
  simp only [Tab.find_put]
  rw [if_neg]
  rintro rfl
  simp [hp] at hk

theorem incF_quiet (b : Nat) (f : Fld) (n : Nat) (hf : f.pat = false) (hp : prot (f.key b) = false) (h : Quiet s0 s) :
    Quiet s0 (s.incF b f n) := setF_quiet _ _ _ hf hp h

theorem satF_quiet (b : Nat) (f : Fld) (n : Nat) (hf : f.pat = false) (hp : prot (f.key b) = false) (h : Quiet s0 s) :
    Quiet s0 (s.satF b f n) := setF_quiet _ _ _ hf hp h

theorem mark_quiet (b : Nat) (f : Fld) (hf : f.pat = false) (hp : prot (f.key b) = false) (h : Quiet s0 s) :
    Quiet s0 (s.mark b f) := setF_quiet _ _ _ hf hp h

theorem pokes_quiet (a : Nat) (bs : List Byte) (h : Quiet s0 s) : Quiet s0 (s.pokes a bs) :=
  h.trans ⟨fun _ _ => rfl, Nat.le_refl _, rfl, rfl, rfl, rfl, rfl, rfl, rfl, rfl, rfl, rfl, rfl, rfl, rfl, rfl, rfl, rfl, rfl, rfl, rfl,
    rfl, rfl, rfl, rfl, rfl, rfl, rfl, rfl, rfl, rfl, rfl, rfl, rfl, rfl, rfl, rfl, rfl, rfl, rfl, rfl, rfl, rfl, rfl,
    rfl, rfl, rfl, rfl, rfl, rfl, rfl, rfl, rfl, rfl, rfl, rfl, rfl, rfl, rfl, rfl⟩

/-! ## The operations -/

theorem emit_quiet (o : Out) (h : Quiet s0 s) : Quiet s0 (s.emit o) := by
  unfold State.emit
  exact Quiet.mk' h

theorem fire_quiet {s0 : State} (s : State) (n : Nat) (h : Quiet s0 s) : Quiet s0 (State.fire s n) := by
  unfold State.fire
  try dsimp only
  repeat' first
    | intro _
    | with_reducible assumption
    | fail_if_no_progress with_reducible apply Quiet.mk'
    | with_reducible refine Quiet.ite ?_ ?_
    | with_reducible refine Quiet.iteP ?_ ?_
    | split
    | dsimp only

theorem raise_quiet (b : Nat) (f : Fld) (p : Nat) (hf : f.pat = false) (hp : prot (f.key b) = false) (h : Quiet s0 s) :
    Quiet s0 (s.raise b f p) := fire_quiet _ _ (setF_quiet _ _ _ hf hp h)

theorem finishOp_quiet {s0 : State} (s : State) (op : Nat) (sel : Outstanding → Bool) (status : Nat) (params : List Byte) (h : Quiet s0 s) :
    Quiet s0 (State.finishOp s op sel status params) := by
  unfold State.finishOp
  try dsimp only
  repeat' first
    | intro _
    | with_reducible assumption
    | fail_if_no_progress with_reducible apply Quiet.mk'
    | with_reducible refine Quiet.ite ?_ ?_
    | with_reducible refine Quiet.iteP ?_ ?_
    | split
    | dsimp only

theorem freezeInst_quiet {s0 : State} (s : State) (h : Quiet s0 s) : Quiet s0 (State.freezeInst s) := by
  unfold State.freezeInst
  try dsimp only
  repeat' first
    | intro _
    | with_reducible assumption
    | with_reducible apply finishOp_quiet
    | with_reducible refine mark_quiet _ _ (by first | rfl | decide) (by first | decide | exact prot_mc _ _ (by decide) | exact prot_eth _ _ (by decide) | exact prot_hk _ _ (by decide)) ?_
    | with_reducible refine setF_quiet _ _ _ (by first | rfl | decide) (by first | decide | exact prot_mc _ _ (by decide) | exact prot_eth _ _ (by decide) | exact prot_hk _ _ (by decide)) ?_
    | fail_if_no_progress with_reducible apply Quiet.mk'
    | with_reducible refine Quiet.ite ?_ ?_
    | with_reducible refine Quiet.iteP ?_ ?_
    | split
    | dsimp only

theorem freezeTrigger_quiet {s0 : State} (s : State) (h : Quiet s0 s) : Quiet s0 (State.freezeTrigger s) := by
  unfold State.freezeTrigger
  try dsimp only
  repeat' first
    | intro _
    | with_reducible assumption
    | with_reducible apply freezeInst_quiet
    | with_reducible refine setF_quiet _ _ _ (by first | rfl | decide) (by first | decide | exact prot_mc _ _ (by decide) | exact prot_eth _ _ (by decide) | exact prot_hk _ _ (by decide)) ?_
    | fail_if_no_progress with_reducible apply Quiet.mk'
    | with_reducible refine Quiet.ite ?_ ?_
    | with_reducible refine Quiet.iteP ?_ ?_
    | split
    | dsimp only

theorem logAs_quiet {s0 : State} (s : State) (code : LogCode) (sev : Nat) (level : Nat) (unit : Nat) (grp : Nat) (payload : List Byte) (h : Quiet s0 s) :
    Quiet s0 (State.logAs s code sev level unit grp payload) := by
  unfold State.logAs
  try dsimp only
  repeat' first
    | intro _
    | with_reducible assumption
    | with_reducible apply freezeTrigger_quiet
    | with_reducible apply pokes_quiet
    | with_reducible refine satF_quiet _ _ _ (by first | rfl | decide) (by first | decide | exact prot_mc _ _ (by decide) | exact prot_eth _ _ (by decide) | exact prot_hk _ _ (by decide)) ?_
    | with_reducible refine setF_quiet _ _ _ (by first | rfl | decide) (by first | decide | exact prot_mc _ _ (by decide) | exact prot_eth _ _ (by decide) | exact prot_hk _ _ (by decide)) ?_
    | fail_if_no_progress with_reducible apply Quiet.mk'
    | with_reducible refine Quiet.ite ?_ ?_
    | with_reducible refine Quiet.iteP ?_ ?_
    | split
    | dsimp only

theorem log_quiet {s0 : State} (s : State) (code : LogCode) (unit : Nat) (grp : Nat) (payload : List Byte) (h : Quiet s0 s) :
    Quiet s0 (State.log s code unit grp payload) := by
  unfold State.log
  try dsimp only
  repeat' first
    | intro _
    | with_reducible assumption
    | with_reducible apply logAs_quiet
    | fail_if_no_progress with_reducible apply Quiet.mk'
    | with_reducible refine Quiet.ite ?_ ?_
    | with_reducible refine Quiet.iteP ?_ ?_
    | split
    | dsimp only

theorem logReg_quiet {s0 : State} (s : State) (code : LogCode) (unit : Nat) (grp : Nat) (addr : Nat) (h : Quiet s0 s) :
    Quiet s0 (State.logReg s code unit grp addr) := by
  unfold State.logReg
  try dsimp only
  repeat' first
    | intro _
    | with_reducible assumption
    | with_reducible apply log_quiet
    | with_reducible refine Quiet.ite ?_ ?_
    | with_reducible refine Quiet.iteP ?_ ?_
    | split
    | dsimp only

theorem setBad_quiet {s0 : State} (s : State) (a : Nat) (n : Nat) (h : Quiet s0 s) : Quiet s0 (State.setBad s a n) := by
  unfold State.setBad
  try dsimp only
  repeat' first
    | intro _
    | with_reducible assumption
    | fail_if_no_progress with_reducible apply Quiet.mk'
    | with_reducible refine Quiet.ite ?_ ?_
    | with_reducible refine Quiet.iteP ?_ ?_
    | split
    | dsimp only

theorem setDr_quiet {s0 : State} (s : State) (d : Nat) (x : Dram) (h : Quiet s0 s) : Quiet s0 (State.setDr s d x) := by
  unfold State.setDr
  try dsimp only
  repeat' first
    | intro _
    | with_reducible assumption
    | fail_if_no_progress with_reducible apply Quiet.mk'
    | with_reducible refine Quiet.ite ?_ ?_
    | with_reducible refine Quiet.iteP ?_ ?_
    | split
    | dsimp only

theorem memDown_quiet {s0 : State} (s : State) (d : Nat) (h : Quiet s0 s) : Quiet s0 (State.memDown s d) := by
  unfold State.memDown
  try dsimp only
  repeat' first
    | intro _
    | with_reducible assumption
    | with_reducible apply logAs_quiet
    | with_reducible refine raise_quiet _ _ _ (by first | rfl | decide) (by first | decide | exact prot_mc _ _ (by decide) | exact prot_eth _ _ (by decide) | exact prot_hk _ _ (by decide)) ?_
    | with_reducible apply setDr_quiet
    | with_reducible refine setF_quiet _ _ _ (by first | rfl | decide) (by first | decide | exact prot_mc _ _ (by decide) | exact prot_eth _ _ (by decide) | exact prot_hk _ _ (by decide)) ?_
    | fail_if_no_progress with_reducible apply Quiet.mk'
    | with_reducible refine Quiet.ite ?_ ?_
    | with_reducible refine Quiet.iteP ?_ ?_
    | split
    | dsimp only

theorem ueNote_quiet {s0 : State} (s : State) (d : Nat) (h : Quiet s0 s) : Quiet s0 (State.ueNote s d) := by
  unfold State.ueNote
  try dsimp only
  repeat' first
    | intro _
    | with_reducible assumption
    | with_reducible apply memDown_quiet
    | with_reducible apply setDr_quiet
    | fail_if_no_progress with_reducible apply Quiet.mk'
    | with_reducible refine Quiet.ite ?_ ?_
    | with_reducible refine Quiet.iteP ?_ ?_
    | split
    | dsimp only

theorem xfer_quiet {s0 : State} (s : State) (d : Nat) (h : Quiet s0 s) : Quiet s0 (State.xfer s d).1 := by
  unfold State.xfer
  try dsimp only
  repeat' first
    | intro _
    | with_reducible assumption
    | with_reducible apply memDown_quiet
    | with_reducible refine satF_quiet _ _ _ (by first | rfl | decide) (by first | decide | exact prot_mc _ _ (by decide) | exact prot_eth _ _ (by decide) | exact prot_hk _ _ (by decide)) ?_
    | with_reducible apply setDr_quiet
    | fail_if_no_progress with_reducible apply Quiet.mk'
    | with_reducible refine Quiet.ite ?_ ?_
    | with_reducible refine Quiet.iteP ?_ ?_
    | split
    | dsimp only

theorem ueEvent_quiet {s0 : State} (s : State) (a : Nat) (kind : Nat) (cls : Nat) (unit : Nat) (mirror : Nat) (h : Quiet s0 s) :
    Quiet s0 (State.ueEvent s a kind cls unit mirror) := by
  unfold State.ueEvent
  try dsimp only
  repeat' first
    | intro _
    | with_reducible assumption
    | with_reducible apply logAs_quiet
    | with_reducible refine raise_quiet _ _ _ (by first | rfl | decide) (by first | decide | exact prot_mc _ _ (by decide) | exact prot_eth _ _ (by decide) | exact prot_hk _ _ (by decide)) ?_
    | with_reducible refine satF_quiet _ _ _ (by first | rfl | decide) (by first | decide | exact prot_mc _ _ (by decide) | exact prot_eth _ _ (by decide) | exact prot_hk _ _ (by decide)) ?_
    | with_reducible refine setF_quiet _ _ _ (by first | rfl | decide) (by first | decide | exact prot_mc _ _ (by decide) | exact prot_eth _ _ (by decide) | exact prot_hk _ _ (by decide)) ?_
    | with_reducible apply ueNote_quiet
    | with_reducible refine Quiet.ite ?_ ?_
    | with_reducible refine Quiet.iteP ?_ ?_
    | split
    | dsimp only

theorem ceEvent_quiet {s0 : State} (s : State) (d : Nat) (a : Nat) (h : Quiet s0 s) :
    Quiet s0 (State.ceEvent s d a) := by
  unfold State.ceEvent
  try dsimp only
  repeat' first
    | intro _
    | with_reducible assumption
    | with_reducible refine mark_quiet _ _ (by first | rfl | decide) (by first | decide | exact prot_mc _ _ (by decide) | exact prot_eth _ _ (by decide) | exact prot_hk _ _ (by decide)) ?_
    | with_reducible refine satF_quiet _ _ _ (by first | rfl | decide) (by first | decide | exact prot_mc _ _ (by decide) | exact prot_eth _ _ (by decide) | exact prot_hk _ _ (by decide)) ?_
    | fail_if_no_progress with_reducible apply Quiet.mk'
    | with_reducible refine Quiet.ite ?_ ?_
    | with_reducible refine Quiet.iteP ?_ ?_
    | split
    | dsimp only

theorem drain_quiet {s0 : State} (s : State) (a : Nat) (h : Quiet s0 s) : Quiet s0 (State.drain s a) := by
  unfold State.drain
  try dsimp only
  repeat' first
    | intro _
    | with_reducible assumption
    | with_reducible apply setBad_quiet
    | fail_if_no_progress with_reducible apply Quiet.mk'
    | with_reducible refine Quiet.ite ?_ ?_
    | with_reducible refine Quiet.iteP ?_ ?_
    | split
    | dsimp only

theorem readOne_quiet {s0 : State} (s : State) (kind : Nat) (a : Nat) (h : Quiet s0 s) :
    Quiet s0 (State.readOne s kind a).1 := by
  unfold State.readOne
  try dsimp only
  repeat' first
    | intro _
    | with_reducible assumption
    | with_reducible apply ceEvent_quiet
    | with_reducible apply drain_quiet
    | with_reducible apply xfer_quiet
    | with_reducible refine Quiet.ite ?_ ?_
    | with_reducible refine Quiet.iteP ?_ ?_
    | split
    | dsimp only

theorem readBlock_quiet {s0 : State} (s : State) (kind : Nat) (cls : Nat) (unit : Nat) (a : Nat) (h : Quiet s0 s) :
    Quiet s0 (State.readBlock s kind cls unit a).1 := by
  unfold State.readBlock
  try dsimp only
  repeat' first
    | intro _
    | with_reducible assumption
    | with_reducible apply readOne_quiet
    | with_reducible apply setBad_quiet
    | with_reducible apply ueEvent_quiet
    | fail_if_no_progress with_reducible apply Quiet.mk'
    | with_reducible refine Quiet.ite ?_ ?_
    | with_reducible refine Quiet.iteP ?_ ?_
    | split
    | dsimp only

theorem readBlocks_quiet (kind cls unit : Nat) (l : List Nat) (h : Quiet s0 s) :
    Quiet s0 (s.readBlocks kind cls unit l).1 := by
  induction l generalizing s with
  | nil => exact h
  | cons b bs ih =>
    unfold State.readBlocks
    have hb := readBlock_quiet s kind cls unit (b * 64) h
    rcases hr : s.readBlock kind cls unit (b * 64) with ⟨t, ok⟩
    rw [hr] at hb
    dsimp only
    exact Quiet.iteP (ih hb) hb

theorem memRead_quiet {s0 : State} (s : State) (cls : Nat) (unit : Nat) (a : Nat) (n : Nat) (h : Quiet s0 s) :
    Quiet s0 (State.memRead s cls unit a n).1 := by
  unfold State.memRead
  try dsimp only
  repeat' first
    | intro _
    | with_reducible assumption
    | with_reducible apply readBlocks_quiet
    | fail_if_no_progress with_reducible apply Quiet.mk'
    | with_reducible refine Quiet.ite ?_ ?_
    | with_reducible refine Quiet.iteP ?_ ?_
    | split
    | with_reducible refine Quiet.fst (by assumption) ?_
    | dsimp only

/-- More of the counter of free values is used. -/
theorem Quiet.updFree (n : Nat) (h : Quiet s0 s) : Quiet s0 { s with freeCtr := s.freeCtr + n } :=
  ⟨h.regs, Nat.le_trans h.free (Nat.le_add_right _ _), h.now, h.act, h.shd, h.flash, h.pos, h.grp, h.flight, h.arrived, h.live, h.held, h.devView, h.sync, h.copying, h.accepts, h.wakeFrom, h.localT, h.time, h.ptp, h.lane, h.chan, h.seam, h.seamG, h.segG, h.tal, h.tallyLast, h.hist, h.oldL, h.dma, h.hank, h.retrain, h.cmp, h.rezero, h.tag, h.cass, h.cassKey, h.aux, h.mclkAt, h.pnl, h.dpMon, h.view, h.viewOld, h.lbNext, h.lbGone, h.dpRow, h.dpBuf, h.stopped, h.spareDue, h.boot, h.fuses, h.power, h.jtag, h.banksOff, h.gated, h.degShown, h.annKey, h.keys, h.dup, h.pending⟩

theorem readFree_quiet (cls unit a n : Nat) (h : Quiet s0 s) : Quiet s0 (s.readFree cls unit a n).1 := by
  unfold State.readFree
  dsimp only
  split
  · exact memRead_quiet _ _ _ _ _ h
  · exact Quiet.updFree _ (memRead_quiet _ _ _ _ _ h)

theorem xferBlocks_quiet (cls unit : Nat) (l : List Nat) (h : Quiet s0 s) : Quiet s0 (s.xferBlocks cls unit l).1 := by
  induction l generalizing s with
  | nil => exact h
  | cons b bs ih =>
    unfold State.xferBlocks
    dsimp only
    refine Quiet.iteP (ih (xfer_quiet _ _ h)) (ueEvent_quiet _ _ _ _ _ _ (xfer_quiet _ _ h))

theorem putRange_quiet {s0 : State} (s : State) (a : Nat) (bs : List Byte) (h : Quiet s0 s) :
    Quiet s0 (State.putRange s a bs) := by
  unfold State.putRange
  try dsimp only
  repeat' first
    | intro _
    | with_reducible assumption
    | with_reducible apply pokes_quiet
    | with_reducible apply setBad_quiet
    | with_reducible refine Quiet.forL _ ?_ ?_
    | fail_if_no_progress with_reducible apply Quiet.mk'
    | with_reducible refine Quiet.ite ?_ ?_
    | with_reducible refine Quiet.iteP ?_ ?_
    | split
    | dsimp only

theorem memWrite_quiet {s0 : State} (s : State) (cls : Nat) (unit : Nat) (a : Nat) (bs : List Byte) (h : Quiet s0 s) :
    Quiet s0 (State.memWrite s cls unit a bs).1 := by
  unfold State.memWrite
  try dsimp only
  repeat' first
    | intro _
    | with_reducible assumption
    | with_reducible apply putRange_quiet
    | with_reducible apply readBlocks_quiet
    | with_reducible apply ueEvent_quiet
    | with_reducible apply xferBlocks_quiet
    | fail_if_no_progress with_reducible apply Quiet.mk'
    | with_reducible refine Quiet.ite ?_ ?_
    | with_reducible refine Quiet.iteP ?_ ?_
    | split
    | with_reducible refine Quiet.fst (by assumption) ?_
    | dsimp only

theorem toPort_quiet {s0 : State} (s : State) (port : Nat) (prio : Nat) (o : Out) (h : Quiet s0 s) :
    Quiet s0 (State.toPort s port prio o) := by
  unfold State.toPort
  try dsimp only
  repeat' first
    | intro _
    | with_reducible assumption
    | fail_if_no_progress with_reducible apply Quiet.mk'
    | with_reducible refine Quiet.ite ?_ ?_
    | with_reducible refine Quiet.iteP ?_ ?_
    | split
    | dsimp only

theorem sendOn_quiet {s0 : State} (s : State) (port : Nat) (prio : Nat) (o : Out) (h : Quiet s0 s) :
    Quiet s0 (State.sendOn s port prio o) := by
  unfold State.sendOn
  try dsimp only
  repeat' first
    | intro _
    | with_reducible assumption
    | with_reducible apply toPort_quiet
    | with_reducible refine Quiet.forL _ ?_ ?_
    | fail_if_no_progress with_reducible apply Quiet.mk'
    | with_reducible refine Quiet.ite ?_ ?_
    | with_reducible refine Quiet.iteP ?_ ?_
    | split
    | dsimp only

theorem solicit_quiet {s0 : State} (s : State) (port : Nat) (hop : Nat) (h : Quiet s0 s) :
    Quiet s0 (State.solicit s port hop) := by
  unfold State.solicit
  try dsimp only
  repeat' first
    | intro _
    | with_reducible assumption
    | with_reducible apply sendOn_quiet
    | with_reducible refine Quiet.ite ?_ ?_
    | with_reducible refine Quiet.iteP ?_ ?_
    | split
    | dsimp only

theorem sendIp_quiet {s0 : State} (s : State) (port : Nat) (prio : Nat) (dst : Nat) (bytes : List Byte) (h : Quiet s0 s) :
    Quiet s0 (State.sendIp s port prio dst bytes) := by
  unfold State.sendIp
  try dsimp only
  repeat' first
    | intro _
    | with_reducible assumption
    | with_reducible apply sendOn_quiet
    | with_reducible apply solicit_quiet
    | fail_if_no_progress with_reducible apply Quiet.mk'
    | with_reducible refine Quiet.ite ?_ ?_
    | with_reducible refine Quiet.iteP ?_ ?_
    | split
    | dsimp only

theorem sendUdp_quiet {s0 : State} (s : State) (port : Nat) (addr : Nat) (dport : Nat) (sport : Nat) (pcpF : Fld) (payload : List Byte) (h : Quiet s0 s) :
    Quiet s0 (State.sendUdp s port addr dport sport pcpF payload) := by
  unfold State.sendUdp
  try dsimp only
  repeat' first
    | intro _
    | with_reducible assumption
    | with_reducible apply sendIp_quiet
    | fail_if_no_progress with_reducible apply Quiet.mk'
    | with_reducible refine Quiet.ite ?_ ?_
    | with_reducible refine Quiet.iteP ?_ ?_
    | split
    | dsimp only

theorem sendWaited_quiet {s0 : State} (s : State) (mac : Nat) (w : IpPkt) (h : Quiet s0 s) :
    Quiet s0 (State.sendWaited s mac w) := by
  unfold State.sendWaited
  try dsimp only
  repeat' first
    | intro _
    | with_reducible assumption
    | with_reducible apply sendOn_quiet
    | with_reducible refine Quiet.ite ?_ ?_
    | with_reducible refine Quiet.iteP ?_ ?_
    | split
    | dsimp only

theorem learn_quiet {s0 : State} (s : State) (addr : Nat) (mac : Nat) (h : Quiet s0 s) :
    Quiet s0 (State.learn s addr mac) := by
  unfold State.learn
  try dsimp only
  repeat' first
    | intro _
    | with_reducible assumption
    | with_reducible apply sendWaited_quiet
    | with_reducible refine Quiet.forL _ ?_ ?_
    | fail_if_no_progress with_reducible apply Quiet.mk'
    | with_reducible refine Quiet.ite ?_ ?_
    | with_reducible refine Quiet.iteP ?_ ?_
    | split
    | dsimp only

theorem hkCount_quiet {s0 : State} (s : State) (k : Nat) (blocks : Nat) (inN : Nat) (outN : Nat) (h : Quiet s0 s) :
    Quiet s0 (State.hkCount s k blocks inN outN) := by
  unfold State.hkCount
  try dsimp only
  repeat' first
    | intro _
    | with_reducible assumption
    | with_reducible refine incF_quiet _ _ _ (by first | rfl | decide) (by first | decide | exact prot_mc _ _ (by decide) | exact prot_eth _ _ (by decide) | exact prot_hk _ _ (by decide)) ?_
    | with_reducible refine Quiet.ite ?_ ?_
    | with_reducible refine Quiet.iteP ?_ ?_
    | split
    | dsimp only

theorem setRing_quiet {s0 : State} (s : State) (id : Nat) (c : RingCtx) (h : Quiet s0 s) :
    Quiet s0 (State.setRing s id c) := by
  unfold State.setRing
  try dsimp only
  repeat' first
    | intro _
    | with_reducible assumption
    | with_reducible apply pokes_quiet
    | with_reducible refine setF_quiet _ _ _ (by first | rfl | decide) (by first | decide | exact prot_mc _ _ (by decide) | exact prot_eth _ _ (by decide) | exact prot_hk _ _ (by decide)) ?_
    | fail_if_no_progress with_reducible apply Quiet.mk'
    | with_reducible refine Quiet.ite ?_ ?_
    | with_reducible refine Quiet.iteP ?_ ?_
    | split
    | dsimp only

theorem loadCtx_quiet {s0 : State} (s : State) (id : Nat) (h : Quiet s0 s) : Quiet s0 (State.loadCtx s id) := by
  unfold State.loadCtx
  try dsimp only
  repeat' first
    | intro _
    | with_reducible assumption
    | with_reducible apply memRead_quiet
    | fail_if_no_progress with_reducible apply Quiet.mk'
    | with_reducible refine Quiet.ite ?_ ?_
    | with_reducible refine Quiet.iteP ?_ ?_
    | split
    | dsimp only

theorem touchRing_quiet {s0 : State} (s : State) (id : Nat) (h : Quiet s0 s) : Quiet s0 (State.touchRing s id) := by
  unfold State.touchRing
  try dsimp only
  repeat' first
    | intro _
    | with_reducible assumption
    | with_reducible refine incF_quiet _ _ _ (by first | rfl | decide) (by first | decide | exact prot_mc _ _ (by decide) | exact prot_eth _ _ (by decide) | exact prot_hk _ _ (by decide)) ?_
    | with_reducible apply loadCtx_quiet
    | fail_if_no_progress with_reducible apply Quiet.mk'
    | with_reducible refine Quiet.ite ?_ ?_
    | with_reducible refine Quiet.iteP ?_ ?_
    | split
    | dsimp only

theorem rebind_quiet {s0 : State} (s : State) (id : Nat) (h : Quiet s0 s) : Quiet s0 (State.rebind s id) := by
  unfold State.rebind
  try dsimp only
  repeat' first
    | intro _
    | with_reducible assumption
    | with_reducible apply setRing_quiet
    | fail_if_no_progress with_reducible apply Quiet.mk'
    | with_reducible refine Quiet.ite ?_ ?_
    | with_reducible refine Quiet.iteP ?_ ?_
    | split
    | dsimp only

theorem bind_quiet {s0 : State} (s : State) (id : Nat) (binder : Nat) (writes : Bool) (h : Quiet s0 s) :
    Quiet s0 (State.bind s id binder writes) := by
  unfold State.bind
  try dsimp only
  repeat' first
    | intro _
    | with_reducible assumption
    | with_reducible apply rebind_quiet
    | with_reducible apply touchRing_quiet
    | fail_if_no_progress with_reducible apply Quiet.mk'
    | with_reducible refine Quiet.ite ?_ ?_
    | with_reducible refine Quiet.iteP ?_ ?_
    | split
    | dsimp only

theorem unbind_quiet {s0 : State} (s : State) (binder : Nat) (h : Quiet s0 s) : Quiet s0 (State.unbind s binder) := by
  unfold State.unbind
  try dsimp only
  repeat' first
    | intro _
    | with_reducible assumption
    | with_reducible apply rebind_quiet
    | with_reducible refine Quiet.forL _ ?_ ?_
    | fail_if_no_progress with_reducible apply Quiet.mk'
    | with_reducible refine Quiet.ite ?_ ?_
    | with_reducible refine Quiet.iteP ?_ ?_
    | split
    | dsimp only

theorem streamRead_quiet (unit id first n : Nat) (h : Quiet s0 s) : Quiet s0 (s.streamRead unit id first n).1 := by
  induction n generalizing s first with
  | zero => exact h
  | succ n ih => exact ih _ (readFree_quiet _ _ _ _ h)

theorem sendStream_quiet {s0 : State} (s : State) (k : Nat) (n : Nat) (h : Quiet s0 s) :
    Quiet s0 (State.sendStream s k n) := by
  unfold State.sendStream
  try dsimp only
  repeat' first
    | intro _
    | with_reducible assumption
    | with_reducible apply hkCount_quiet
    | with_reducible refine satF_quiet _ _ _ (by first | rfl | decide) (by first | decide | exact prot_mc _ _ (by decide) | exact prot_eth _ _ (by decide) | exact prot_hk _ _ (by decide)) ?_
    | with_reducible apply sendUdp_quiet
    | with_reducible apply streamRead_quiet
    | fail_if_no_progress with_reducible apply Quiet.mk'
    | with_reducible refine Quiet.ite ?_ ?_
    | with_reducible refine Quiet.iteP ?_ ?_
    | split
    | dsimp only

theorem streamOne_quiet {s0 : State} (s : State) (k : Nat) (h : Quiet s0 s) : Quiet s0 (State.streamOne s k) := by
  unfold State.streamOne
  try dsimp only
  repeat' first
    | intro _
    | with_reducible assumption
    | with_reducible apply sendStream_quiet
    | fail_if_no_progress with_reducible apply Quiet.mk'
    | with_reducible refine Quiet.ite ?_ ?_
    | with_reducible refine Quiet.iteP ?_ ?_
    | split
    | dsimp only

theorem streamServe_quiet {s0 : State} (s : State) (ks : List Nat) (h : Quiet s0 s) :
    Quiet s0 (State.streamServe s ks) := by
  unfold State.streamServe
  try dsimp only
  repeat' first
    | intro _
    | with_reducible assumption
    | with_reducible apply streamOne_quiet
    | with_reducible refine Quiet.forL _ ?_ ?_
    | with_reducible refine Quiet.forN _ ?_ ?_
    | with_reducible refine Quiet.ite ?_ ?_
    | with_reducible refine Quiet.iteP ?_ ?_
    | split
    | dsimp only

theorem streamKick_quiet {s0 : State} (s : State) (id : Nat) (h : Quiet s0 s) : Quiet s0 (State.streamKick s id) := by
  unfold State.streamKick
  try dsimp only
  repeat' first
    | intro _
    | with_reducible assumption
    | with_reducible apply streamServe_quiet
    | with_reducible refine Quiet.forL _ ?_ ?_
    | fail_if_no_progress with_reducible apply Quiet.mk'
    | with_reducible refine Quiet.ite ?_ ?_
    | with_reducible refine Quiet.iteP ?_ ?_
    | split
    | dsimp only

theorem advance_quiet {s0 : State} (s : State) (id : Nat) (h : Quiet s0 s) : Quiet s0 (State.advance s id) := by
  unfold State.advance
  try dsimp only
  repeat' first
    | intro _
    | with_reducible assumption
    | with_reducible apply setRing_quiet
    | with_reducible apply streamKick_quiet
    | fail_if_no_progress with_reducible apply Quiet.mk'
    | with_reducible refine Quiet.ite ?_ ?_
    | with_reducible refine Quiet.iteP ?_ ?_
    | split
    | dsimp only

theorem writeEntries_quiet (id first : Nat) (item : List Byte) (n : Nat) (h : Quiet s0 s) :
    Quiet s0 (s.writeEntries id first item n) := by
  induction n generalizing s first item with
  | zero => exact h
  | succ n ih => exact ih _ _ (memWrite_quiet _ _ _ _ _ h)

theorem ringDrop_quiet {s0 : State} (s : State) (id : Nat) (h : Quiet s0 s) : Quiet s0 (State.ringDrop s id) := by
  unfold State.ringDrop
  try dsimp only
  repeat' first
    | intro _
    | with_reducible assumption
    | with_reducible refine raise_quiet _ _ _ (by first | rfl | decide) (by first | decide | exact prot_mc _ _ (by decide) | exact prot_eth _ _ (by decide) | exact prot_hk _ _ (by decide)) ?_
    | with_reducible apply setRing_quiet
    | fail_if_no_progress with_reducible apply Quiet.mk'
    | with_reducible refine Quiet.ite ?_ ?_
    | with_reducible refine Quiet.iteP ?_ ?_
    | split
    | dsimp only

theorem ringWrite_quiet {s0 : State} (s : State) (id : Nat) (item : List Byte) (h : Quiet s0 s) :
    Quiet s0 (State.ringWrite s id item) := by
  unfold State.ringWrite
  try dsimp only
  repeat' first
    | intro _
    | with_reducible assumption
    | with_reducible apply advance_quiet
    | with_reducible apply touchRing_quiet
    | with_reducible apply writeEntries_quiet
    | fail_if_no_progress with_reducible apply Quiet.mk'
    | with_reducible refine Quiet.ite ?_ ?_
    | with_reducible refine Quiet.iteP ?_ ?_
    | split
    | dsimp only

theorem ringPush_quiet {s0 : State} (s : State) (id : Nat) (item : List Byte) (h : Quiet s0 s) :
    Quiet s0 (State.ringPush s id item).1 := by
  unfold State.ringPush
  try dsimp only
  repeat' first
    | intro _
    | with_reducible assumption
    | with_reducible apply ringDrop_quiet
    | with_reducible apply ringWrite_quiet
    | with_reducible refine Quiet.ite ?_ ?_
    | with_reducible refine Quiet.iteP ?_ ?_
    | split
    | dsimp only

theorem ringStarve_quiet {s0 : State} (s : State) (id : Nat) (h : Quiet s0 s) : Quiet s0 (State.ringStarve s id) := by
  unfold State.ringStarve
  try dsimp only
  repeat' first
    | intro _
    | with_reducible assumption
    | fail_if_no_progress with_reducible apply Quiet.mk'
    | with_reducible refine Quiet.ite ?_ ?_
    | with_reducible refine Quiet.iteP ?_ ?_
    | split
    | dsimp only

theorem addSub_quiet {s0 : State} (s : State) (k : Nat) (id : Nat) (who : Subscriber) (key : List Byte) (h : Quiet s0 s) :
    Quiet s0 (State.addSub s k id who key) := by
  unfold State.addSub
  try dsimp only
  repeat' first
    | intro _
    | with_reducible assumption
    | with_reducible refine setF_quiet _ _ _ (by first | rfl | decide) (by first | decide | exact prot_mc _ _ (by decide) | exact prot_eth _ _ (by decide) | exact prot_hk _ _ (by decide)) ?_
    | with_reducible apply setRing_quiet
    | fail_if_no_progress with_reducible apply Quiet.mk'
    | with_reducible refine Quiet.ite ?_ ?_
    | with_reducible refine Quiet.iteP ?_ ?_
    | split
    | dsimp only

theorem grantOne_quiet {s0 : State} (s : State) (w : Nat × Nat) (h : Quiet s0 s) : Quiet s0 (State.grantOne s w) := by
  unfold State.grantOne
  try dsimp only
  repeat' first
    | intro _
    | with_reducible assumption
    | fail_if_no_progress with_reducible apply Quiet.mk'
    | with_reducible refine Quiet.ite ?_ ?_
    | with_reducible refine Quiet.iteP ?_ ?_
    | split
    | dsimp only

theorem grant_quiet {s0 : State} (s : State) (id : Nat) (h : Quiet s0 s) : Quiet s0 (State.grant s id) := by
  unfold State.grant
  try dsimp only
  repeat' first
    | intro _
    | with_reducible assumption
    | with_reducible apply grantOne_quiet
    | with_reducible refine Quiet.forL _ ?_ ?_
    | with_reducible refine Quiet.ite ?_ ?_
    | with_reducible refine Quiet.iteP ?_ ?_
    | split
    | dsimp only

theorem dropSub_quiet {s0 : State} (s : State) (k : Nat) (h : Quiet s0 s) : Quiet s0 (State.dropSub s k) := by
  unfold State.dropSub
  try dsimp only
  repeat' first
    | intro _
    | with_reducible assumption
    | with_reducible apply grant_quiet
    | with_reducible refine setF_quiet _ _ _ (by first | rfl | decide) (by first | decide | exact prot_mc _ _ (by decide) | exact prot_eth _ _ (by decide) | exact prot_hk _ _ (by decide)) ?_
    | with_reducible apply setRing_quiet
    | fail_if_no_progress with_reducible apply Quiet.mk'
    | with_reducible refine Quiet.ite ?_ ?_
    | with_reducible refine Quiet.iteP ?_ ?_
    | split
    | dsimp only

theorem moveSub_quiet {s0 : State} (s : State) (k : Nat) (n : Nat) (h : Quiet s0 s) :
    Quiet s0 (State.moveSub s k n) := by
  unfold State.moveSub
  try dsimp only
  repeat' first
    | intro _
    | with_reducible assumption
    | with_reducible apply grant_quiet
    | fail_if_no_progress with_reducible apply Quiet.mk'
    | with_reducible refine Quiet.ite ?_ ?_
    | with_reducible refine Quiet.iteP ?_ ?_
    | split
    | dsimp only

theorem take_quiet {s0 : State} (s : State) (id : Nat) (b : Nat) (n : Nat) (h : Quiet s0 s) :
    Quiet s0 (State.take s id b n) := by
  unfold State.take
  try dsimp only
  repeat' first
    | intro _
    | with_reducible assumption
    | with_reducible apply moveSub_quiet
    | fail_if_no_progress with_reducible apply Quiet.mk'
    | with_reducible refine Quiet.ite ?_ ?_
    | with_reducible refine Quiet.iteP ?_ ?_
    | split
    | dsimp only

theorem readEntry_quiet {s0 : State} (s : State) (id : Nat) (b : Nat) (off : Nat) (unit : Nat) (h : Quiet s0 s) :
    Quiet s0 (State.readEntry s id b off unit).1 := by
  unfold State.readEntry
  try dsimp only
  repeat' first
    | intro _
    | with_reducible assumption
    | with_reducible apply memRead_quiet
    | with_reducible refine Quiet.ite ?_ ?_
    | with_reducible refine Quiet.iteP ?_ ?_
    | split
    | dsimp only

theorem consIrq_quiet {s0 : State} (s : State) (id : Nat) (h : Quiet s0 s) : Quiet s0 (State.consIrq s id) := by
  unfold State.consIrq
  try dsimp only
  repeat' first
    | intro _
    | with_reducible assumption
    | with_reducible refine raise_quiet _ _ _ (by first | rfl | decide) (by first | decide | exact prot_mc _ _ (by decide) | exact prot_eth _ _ (by decide) | exact prot_hk _ _ (by decide)) ?_
    | with_reducible refine setF_quiet _ _ _ (by first | rfl | decide) (by first | decide | exact prot_mc _ _ (by decide) | exact prot_eth _ _ (by decide) | exact prot_hk _ _ (by decide)) ?_
    | with_reducible refine Quiet.ite ?_ ?_
    | with_reducible refine Quiet.iteP ?_ ?_
    | split
    | dsimp only

theorem subBlock_quiet {s0 : State} (s : State) (id : Nat) (b : Nat) (h : Quiet s0 s) :
    Quiet s0 (State.subBlock s id b) := by
  unfold State.subBlock
  try dsimp only
  repeat' first
    | intro _
    | with_reducible assumption
    | with_reducible apply addSub_quiet
    | fail_if_no_progress with_reducible apply Quiet.mk'
    | with_reducible refine Quiet.ite ?_ ?_
    | with_reducible refine Quiet.iteP ?_ ?_
    | split
    | dsimp only

theorem unsubBlock_quiet {s0 : State} (s : State) (id : Nat) (b : Nat) (h : Quiet s0 s) :
    Quiet s0 (State.unsubBlock s id b) := by
  unfold State.unsubBlock
  try dsimp only
  repeat' first
    | intro _
    | with_reducible assumption
    | with_reducible apply dropSub_quiet
    | fail_if_no_progress with_reducible apply Quiet.mk'
    | with_reducible refine Quiet.ite ?_ ?_
    | with_reducible refine Quiet.iteP ?_ ?_
    | split
    | dsimp only

theorem reserve_quiet {s0 : State} (s : State) (id : Nat) (n : Nat) (waits : Bool) (h : Quiet s0 s) :
    Quiet s0 (State.reserve s id n waits) := by
  unfold State.reserve
  try dsimp only
  repeat' first
    | intro _
    | with_reducible assumption
    | with_reducible apply ringDrop_quiet
    | with_reducible apply ringStarve_quiet
    | fail_if_no_progress with_reducible apply Quiet.mk'
    | with_reducible refine Quiet.ite ?_ ?_
    | with_reducible refine Quiet.iteP ?_ ?_
    | split
    | dsimp only

theorem evictItems_quiet (ring len n : Nat) (h : Quiet s0 s) : Quiet s0 (s.evictItems ring len n) := by
  induction n generalizing s with
  | zero => exact h
  | succ n ih =>
    unfold State.evictItems
    refine Quiet.ite h ?_
    split
    · exact h
    · exact ih (take_quiet _ _ _ _ (Quiet.mk' h))

theorem repWrite_quiet {s0 : State} (s : State) (ring : Nat) (item : List Byte) (kind : Nat) (unit : Nat) (course : Nat) (h : Quiet s0 s) :
    Quiet s0 (State.repWrite s ring item kind unit course).1 := by
  unfold State.repWrite
  try dsimp only
  repeat' first
    | intro _
    | with_reducible assumption
    | with_reducible apply evictItems_quiet
    | with_reducible apply ringWrite_quiet
    | fail_if_no_progress with_reducible apply Quiet.mk'
    | with_reducible refine Quiet.ite ?_ ?_
    | with_reducible refine Quiet.iteP ?_ ?_
    | split
    | dsimp only

theorem jrnFlush_quiet {s0 : State} (s : State) (h : Quiet s0 s) : Quiet s0 (State.jrnFlush s) := by
  unfold State.jrnFlush
  try dsimp only
  repeat' first
    | intro _
    | with_reducible assumption
    | with_reducible apply repWrite_quiet
    | fail_if_no_progress with_reducible apply Quiet.mk'
    | with_reducible refine Quiet.ite ?_ ?_
    | with_reducible refine Quiet.iteP ?_ ?_
    | split
    | dsimp only

theorem jrnPut_quiet {s0 : State} (s : State) (cont : Bool) (r : List Byte) (h : Quiet s0 s) :
    Quiet s0 (State.jrnPut s cont r) := by
  unfold State.jrnPut
  try dsimp only
  repeat' first
    | intro _
    | with_reducible assumption
    | with_reducible refine incF_quiet _ _ _ (by first | rfl | decide) (by first | decide | exact prot_mc _ _ (by decide) | exact prot_eth _ _ (by decide) | exact prot_hk _ _ (by decide)) ?_
    | with_reducible apply jrnFlush_quiet
    | fail_if_no_progress with_reducible apply Quiet.mk'
    | with_reducible refine Quiet.ite ?_ ?_
    | with_reducible refine Quiet.iteP ?_ ?_
    | split
    | dsimp only

theorem jrn_quiet {s0 : State} (s : State) (ty : Nat) (grp : Nat) (cls : Nat) (src : Nat) (lag : Int) (stamp : Int) (data : List Byte) (h : Quiet s0 s) :
    Quiet s0 (State.jrn s ty grp cls src lag stamp data) := by
  unfold State.jrn
  try dsimp only
  repeat' first
    | intro _
    | with_reducible assumption
    | with_reducible apply jrnPut_quiet
    | with_reducible refine Quiet.forL _ ?_ ?_
    | with_reducible refine Quiet.ite ?_ ?_
    | with_reducible refine Quiet.iteP ?_ ?_
    | split
    | dsimp only

theorem capGap_quiet {s0 : State} (s : State) (g : Nat) (ch : Nat) (course : Nat) (h : Quiet s0 s) :
    Quiet s0 (State.capGap s g ch course) := by
  unfold State.capGap
  try dsimp only
  repeat' first
    | intro _
    | with_reducible assumption
    | with_reducible apply jrn_quiet
    | with_reducible apply logReg_quiet
    | with_reducible refine mark_quiet _ _ (by first | rfl | decide) (by first | decide | exact prot_mc _ _ (by decide) | exact prot_eth _ _ (by decide) | exact prot_hk _ _ (by decide)) ?_
    | with_reducible apply repWrite_quiet
    | with_reducible refine satF_quiet _ _ _ (by first | rfl | decide) (by first | decide | exact prot_mc _ _ (by decide) | exact prot_eth _ _ (by decide) | exact prot_hk _ _ (by decide)) ?_
    | with_reducible refine Quiet.ite ?_ ?_
    | with_reducible refine Quiet.iteP ?_ ?_
    | split
    | dsimp only

theorem capItem_quiet {s0 : State} (s : State) (g : Nat) (ch : Nat) (course : Nat) (upper : Bool) (image : Option (List Byte)) (h : Quiet s0 s) :
    Quiet s0 (State.capItem s g ch course upper image) := by
  unfold State.capItem
  try dsimp only
  repeat' first
    | intro _
    | with_reducible assumption
    | with_reducible apply capGap_quiet
    | with_reducible apply hkCount_quiet
    | with_reducible apply repWrite_quiet
    | fail_if_no_progress with_reducible apply Quiet.mk'
    | with_reducible refine Quiet.ite ?_ ?_
    | with_reducible refine Quiet.iteP ?_ ?_
    | split
    | dsimp only

theorem setCsw_quiet {s0 : State} (s : State) (c : Csw) (h : Quiet s0 s) : Quiet s0 (State.setCsw s c) := by
  unfold State.setCsw
  try dsimp only
  repeat' first
    | intro _
    | with_reducible assumption
    | fail_if_no_progress with_reducible apply Quiet.mk'
    | with_reducible refine Quiet.ite ?_ ?_
    | with_reducible refine Quiet.iteP ?_ ?_
    | split
    | dsimp only

theorem cswSet_quiet {s0 : State} (s : State) (g : Nat) (k : Nat) (b : Nat) (h : Quiet s0 s) :
    Quiet s0 (State.cswSet s g k b) := by
  unfold State.cswSet
  try dsimp only
  repeat' first
    | intro _
    | with_reducible assumption
    | with_reducible apply setCsw_quiet
    | fail_if_no_progress with_reducible apply Quiet.mk'
    | with_reducible refine Quiet.ite ?_ ?_
    | with_reducible refine Quiet.iteP ?_ ?_
    | split
    | dsimp only

theorem cswMiss_quiet {s0 : State} (s : State) (g : Nat) (k : Nat) (h : Quiet s0 s) :
    Quiet s0 (State.cswMiss s g k) := by
  unfold State.cswMiss
  try dsimp only
  repeat' first
    | intro _
    | with_reducible assumption
    | with_reducible apply setCsw_quiet
    | fail_if_no_progress with_reducible apply Quiet.mk'
    | with_reducible refine Quiet.ite ?_ ?_
    | with_reducible refine Quiet.iteP ?_ ?_
    | split
    | dsimp only

theorem announce_quiet {s0 : State} (s : State) (kind : Nat) (h : Quiet s0 s) : Quiet s0 (State.announce s kind) := by
  unfold State.announce
  try dsimp only
  repeat' first
    | intro _
    | with_reducible assumption
    | with_reducible apply sendUdp_quiet
    | with_reducible refine Quiet.forL _ ?_ ?_
    | fail_if_no_progress with_reducible apply Quiet.mk'
    | with_reducible refine Quiet.ite ?_ ?_
    | with_reducible refine Quiet.iteP ?_ ?_
    | split
    | dsimp only

theorem reports_quiet {s0 : State} (s : State) (p : Nat) (ty : Nat) (h : Quiet s0 s) :
    Quiet s0 (State.reports s p ty) := by
  unfold State.reports
  try dsimp only
  repeat' first
    | intro _
    | with_reducible assumption
    | with_reducible apply sendOn_quiet
    | with_reducible refine Quiet.forL _ ?_ ?_
    | with_reducible refine Quiet.ite ?_ ?_
    | with_reducible refine Quiet.iteP ?_ ?_
    | split
    | dsimp only

end Sys2Proof.Machine
end

