-- ==== Sys2Proof/Laws/State.lean ====
section
/-!
SUPPORT. The small laws of the state: what is read after each named update. One lemma per field for a write of a
register field; for the updates of the other tables, what their own table and the register file read afterwards (any
other field after them is as before by rfl).
-/

namespace Sys2Proof.Machine

/-! ## A write of a register field -/

@[simp] theorem setF_now (s : State) (b : Nat) (f : Fld) (v : Nat) : (s.setF b f v).now = s.now := by
  unfold State.setF; split <;> rfl

@[simp] theorem setF_mem (s : State) (b : Nat) (f : Fld) (v : Nat) : (s.setF b f v).mem = s.mem := by
  unfold State.setF; split <;> rfl

@[simp] theorem setF_flash (s : State) (b : Nat) (f : Fld) (v : Nat) : (s.setF b f v).flash = s.flash := by
  unfold State.setF; split <;> rfl

@[simp] theorem setF_out (s : State) (b : Nat) (f : Fld) (v : Nat) : (s.setF b f v).out = s.out := by
  unfold State.setF; split <;> rfl

@[simp] theorem setF_freeCtr (s : State) (b : Nat) (f : Fld) (v : Nat) : (s.setF b f v).freeCtr = s.freeCtr := by
  unfold State.setF; split <;> rfl

@[simp] theorem setF_pos (s : State) (b : Nat) (f : Fld) (v : Nat) : (s.setF b f v).pos = s.pos := by
  unfold State.setF; split <;> rfl

@[simp] theorem setF_grp (s : State) (b : Nat) (f : Fld) (v : Nat) : (s.setF b f v).grp = s.grp := by
  unfold State.setF; split <;> rfl

@[simp] theorem setF_flight (s : State) (b : Nat) (f : Fld) (v : Nat) : (s.setF b f v).flight = s.flight := by
  unfold State.setF; split <;> rfl

@[simp] theorem setF_arrived (s : State) (b : Nat) (f : Fld) (v : Nat) : (s.setF b f v).arrived = s.arrived := by
  unfold State.setF; split <;> rfl

@[simp] theorem setF_live (s : State) (b : Nat) (f : Fld) (v : Nat) : (s.setF b f v).live = s.live := by
  unfold State.setF; split <;> rfl

@[simp] theorem setF_held (s : State) (b : Nat) (f : Fld) (v : Nat) : (s.setF b f v).held = s.held := by
  unfold State.setF; split <;> rfl

@[simp] theorem setF_devView (s : State) (b : Nat) (f : Fld) (v : Nat) : (s.setF b f v).devView = s.devView := by
  unfold State.setF; split <;> rfl

@[simp] theorem setF_sync (s : State) (b : Nat) (f : Fld) (v : Nat) : (s.setF b f v).sync = s.sync := by
  unfold State.setF; split <;> rfl

@[simp] theorem setF_copying (s : State) (b : Nat) (f : Fld) (v : Nat) : (s.setF b f v).copying = s.copying := by
  unfold State.setF; split <;> rfl

@[simp] theorem setF_accepts (s : State) (b : Nat) (f : Fld) (v : Nat) : (s.setF b f v).accepts = s.accepts := by
  unfold State.setF; split <;> rfl

@[simp] theorem setF_wakeFrom (s : State) (b : Nat) (f : Fld) (v : Nat) : (s.setF b f v).wakeFrom = s.wakeFrom := by
  unfold State.setF; split <;> rfl

@[simp] theorem setF_localT (s : State) (b : Nat) (f : Fld) (v : Nat) : (s.setF b f v).localT = s.localT := by
  unfold State.setF; split <;> rfl

@[simp] theorem setF_time (s : State) (b : Nat) (f : Fld) (v : Nat) : (s.setF b f v).time = s.time := by
  unfold State.setF; split <;> rfl

@[simp] theorem setF_ptp (s : State) (b : Nat) (f : Fld) (v : Nat) : (s.setF b f v).ptp = s.ptp := by
  unfold State.setF; split <;> rfl

@[simp] theorem setF_lane (s : State) (b : Nat) (f : Fld) (v : Nat) : (s.setF b f v).lane = s.lane := by
  unfold State.setF; split <;> rfl

@[simp] theorem setF_chan (s : State) (b : Nat) (f : Fld) (v : Nat) : (s.setF b f v).chan = s.chan := by
  unfold State.setF; split <;> rfl

@[simp] theorem setF_seam (s : State) (b : Nat) (f : Fld) (v : Nat) : (s.setF b f v).seam = s.seam := by
  unfold State.setF; split <;> rfl

@[simp] theorem setF_seamG (s : State) (b : Nat) (f : Fld) (v : Nat) : (s.setF b f v).seamG = s.seamG := by
  unfold State.setF; split <;> rfl

@[simp] theorem setF_segG (s : State) (b : Nat) (f : Fld) (v : Nat) : (s.setF b f v).segG = s.segG := by
  unfold State.setF; split <;> rfl

@[simp] theorem setF_tal (s : State) (b : Nat) (f : Fld) (v : Nat) : (s.setF b f v).tal = s.tal := by
  unfold State.setF; split <;> rfl

@[simp] theorem setF_tallyLast (s : State) (b : Nat) (f : Fld) (v : Nat) : (s.setF b f v).tallyLast = s.tallyLast := by
  unfold State.setF; split <;> rfl

@[simp] theorem setF_csw (s : State) (b : Nat) (f : Fld) (v : Nat) : (s.setF b f v).csw = s.csw := by
  unfold State.setF; split <;> rfl

@[simp] theorem setF_hist (s : State) (b : Nat) (f : Fld) (v : Nat) : (s.setF b f v).hist = s.hist := by
  unfold State.setF; split <;> rfl

@[simp] theorem setF_oldL (s : State) (b : Nat) (f : Fld) (v : Nat) : (s.setF b f v).oldL = s.oldL := by
  unfold State.setF; split <;> rfl

@[simp] theorem setF_sess (s : State) (b : Nat) (f : Fld) (v : Nat) : (s.setF b f v).sess = s.sess := by
  unfold State.setF; split <;> rfl

@[simp] theorem setF_rings (s : State) (b : Nat) (f : Fld) (v : Nat) : (s.setF b f v).rings = s.rings := by
  unfold State.setF; split <;> rfl

@[simp] theorem setF_resv (s : State) (b : Nat) (f : Fld) (v : Nat) : (s.setF b f v).resv = s.resv := by
  unfold State.setF; split <;> rfl

@[simp] theorem setF_subs (s : State) (b : Nat) (f : Fld) (v : Nat) : (s.setF b f v).subs = s.subs := by
  unfold State.setF; split <;> rfl

@[simp] theorem setF_ctxCache (s : State) (b : Nat) (f : Fld) (v : Nat) : (s.setF b f v).ctxCache = s.ctxCache := by
  unfold State.setF; split <;> rfl

@[simp] theorem setF_binds (s : State) (b : Nat) (f : Fld) (v : Nat) : (s.setF b f v).binds = s.binds := by
  unfold State.setF; split <;> rfl

@[simp] theorem setF_ringWait (s : State) (b : Nat) (f : Fld) (v : Nat) : (s.setF b f v).ringWait = s.ringWait := by
  unfold State.setF; split <;> rfl

@[simp] theorem setF_starved (s : State) (b : Nat) (f : Fld) (v : Nat) : (s.setF b f v).starved = s.starved := by
  unfold State.setF; split <;> rfl

@[simp] theorem setF_dma (s : State) (b : Nat) (f : Fld) (v : Nat) : (s.setF b f v).dma = s.dma := by
  unfold State.setF; split <;> rfl

@[simp] theorem setF_memQ (s : State) (b : Nat) (f : Fld) (v : Nat) : (s.setF b f v).memQ = s.memQ := by
  unfold State.setF; split <;> rfl

@[simp] theorem setF_hank (s : State) (b : Nat) (f : Fld) (v : Nat) : (s.setF b f v).hank = s.hank := by
  unfold State.setF; split <;> rfl

@[simp] theorem setF_memBad (s : State) (b : Nat) (f : Fld) (v : Nat) : (s.setF b f v).memBad = s.memBad := by
  unfold State.setF; split <;> rfl

@[simp] theorem setF_dram (s : State) (b : Nat) (f : Fld) (v : Nat) : (s.setF b f v).dram = s.dram := by
  unfold State.setF; split <;> rfl

@[simp] theorem setF_retrain (s : State) (b : Nat) (f : Fld) (v : Nat) : (s.setF b f v).retrain = s.retrain := by
  unfold State.setF; split <;> rfl

@[simp] theorem setF_cmp (s : State) (b : Nat) (f : Fld) (v : Nat) : (s.setF b f v).cmp = s.cmp := by
  unfold State.setF; split <;> rfl

@[simp] theorem setF_rezero (s : State) (b : Nat) (f : Fld) (v : Nat) : (s.setF b f v).rezero = s.rezero := by
  unfold State.setF; split <;> rfl

@[simp] theorem setF_tag (s : State) (b : Nat) (f : Fld) (v : Nat) : (s.setF b f v).tag = s.tag := by
  unfold State.setF; split <;> rfl

@[simp] theorem setF_cass (s : State) (b : Nat) (f : Fld) (v : Nat) : (s.setF b f v).cass = s.cass := by
  unfold State.setF; split <;> rfl

@[simp] theorem setF_cassKey (s : State) (b : Nat) (f : Fld) (v : Nat) : (s.setF b f v).cassKey = s.cassKey := by
  unfold State.setF; split <;> rfl

@[simp] theorem setF_aux (s : State) (b : Nat) (f : Fld) (v : Nat) : (s.setF b f v).aux = s.aux := by
  unfold State.setF; split <;> rfl

@[simp] theorem setF_mclkAt (s : State) (b : Nat) (f : Fld) (v : Nat) : (s.setF b f v).mclkAt = s.mclkAt := by
  unfold State.setF; split <;> rfl

@[simp] theorem setF_yarn (s : State) (b : Nat) (f : Fld) (v : Nat) : (s.setF b f v).yarn = s.yarn := by
  unfold State.setF; split <;> rfl

@[simp] theorem setF_pnl (s : State) (b : Nat) (f : Fld) (v : Nat) : (s.setF b f v).pnl = s.pnl := by
  unfold State.setF; split <;> rfl

@[simp] theorem setF_dpMon (s : State) (b : Nat) (f : Fld) (v : Nat) : (s.setF b f v).dpMon = s.dpMon := by
  unfold State.setF; split <;> rfl

@[simp] theorem setF_view (s : State) (b : Nat) (f : Fld) (v : Nat) : (s.setF b f v).view = s.view := by
  unfold State.setF; split <;> rfl

@[simp] theorem setF_viewOld (s : State) (b : Nat) (f : Fld) (v : Nat) : (s.setF b f v).viewOld = s.viewOld := by
  unfold State.setF; split <;> rfl

@[simp] theorem setF_lbNext (s : State) (b : Nat) (f : Fld) (v : Nat) : (s.setF b f v).lbNext = s.lbNext := by
  unfold State.setF; split <;> rfl

@[simp] theorem setF_lbGone (s : State) (b : Nat) (f : Fld) (v : Nat) : (s.setF b f v).lbGone = s.lbGone := by
  unfold State.setF; split <;> rfl

@[simp] theorem setF_dpRow (s : State) (b : Nat) (f : Fld) (v : Nat) : (s.setF b f v).dpRow = s.dpRow := by
  unfold State.setF; split <;> rfl

@[simp] theorem setF_dpBuf (s : State) (b : Nat) (f : Fld) (v : Nat) : (s.setF b f v).dpBuf = s.dpBuf := by
  unfold State.setF; split <;> rfl

@[simp] theorem setF_rep (s : State) (b : Nat) (f : Fld) (v : Nat) : (s.setF b f v).rep = s.rep := by
  unfold State.setF; split <;> rfl

@[simp] theorem setF_stopped (s : State) (b : Nat) (f : Fld) (v : Nat) : (s.setF b f v).stopped = s.stopped := by
  unfold State.setF; split <;> rfl

@[simp] theorem setF_spareDue (s : State) (b : Nat) (f : Fld) (v : Nat) : (s.setF b f v).spareDue = s.spareDue := by
  unfold State.setF; split <;> rfl

@[simp] theorem setF_net (s : State) (b : Nat) (f : Fld) (v : Nat) : (s.setF b f v).net = s.net := by
  unfold State.setF; split <;> rfl

@[simp] theorem setF_boot (s : State) (b : Nat) (f : Fld) (v : Nat) : (s.setF b f v).boot = s.boot := by
  unfold State.setF; split <;> rfl

@[simp] theorem setF_fuses (s : State) (b : Nat) (f : Fld) (v : Nat) : (s.setF b f v).fuses = s.fuses := by
  unfold State.setF; split <;> rfl

@[simp] theorem setF_power (s : State) (b : Nat) (f : Fld) (v : Nat) : (s.setF b f v).power = s.power := by
  unfold State.setF; split <;> rfl

@[simp] theorem setF_jtag (s : State) (b : Nat) (f : Fld) (v : Nat) : (s.setF b f v).jtag = s.jtag := by
  unfold State.setF; split <;> rfl

@[simp] theorem setF_pins (s : State) (b : Nat) (f : Fld) (v : Nat) : (s.setF b f v).pins = s.pins := by
  unfold State.setF; split <;> rfl

@[simp] theorem setF_banksOff (s : State) (b : Nat) (f : Fld) (v : Nat) : (s.setF b f v).banksOff = s.banksOff := by
  unfold State.setF; split <;> rfl

@[simp] theorem setF_gated (s : State) (b : Nat) (f : Fld) (v : Nat) : (s.setF b f v).gated = s.gated := by
  unfold State.setF; split <;> rfl

@[simp] theorem setF_degShown (s : State) (b : Nat) (f : Fld) (v : Nat) : (s.setF b f v).degShown = s.degShown := by
  unfold State.setF; split <;> rfl

@[simp] theorem setF_annKey (s : State) (b : Nat) (f : Fld) (v : Nat) : (s.setF b f v).annKey = s.annKey := by
  unfold State.setF; split <;> rfl

@[simp] theorem setF_keys (s : State) (b : Nat) (f : Fld) (v : Nat) : (s.setF b f v).keys = s.keys := by
  unfold State.setF; split <;> rfl

@[simp] theorem setF_dup (s : State) (b : Nat) (f : Fld) (v : Nat) : (s.setF b f v).dup = s.dup := by
  unfold State.setF; split <;> rfl

@[simp] theorem setF_pending (s : State) (b : Nat) (f : Fld) (v : Nat) : (s.setF b f v).pending = s.pending := by
  unfold State.setF; split <;> rfl

/-- A field written reads as the value cut to its width, and every other field as before. -/
theorem getF_setF (s : State) (b : Nat) (f : Fld) (v : Nat) (b' : Nat) (f' : Fld) :
    (s.setF b f v).getF b' f' =
      if f'.pat = f.pat ∧ f'.key b' = f.key b then v % 2 ^ f.width else s.getF b' f' := by
  unfold State.setF State.getF
  by_cases hp : f.pat = true <;> by_cases hq : f'.pat = true <;> simp [hp, hq]

/-- A field written reads as the value cut to its width. -/
@[simp] theorem getF_setF_same (s : State) (b : Nat) (f : Fld) (v : Nat) :
    (s.setF b f v).getF b f = v % 2 ^ f.width := by
  rw [getF_setF, if_pos ⟨rfl, rfl⟩]

/-- A field of another key reads as before. -/
theorem getF_setF_ne (s : State) (b : Nat) (f : Fld) (v : Nat) (b' : Nat) (f' : Fld) (h : f'.key b' ≠ f.key b) :
    (s.setF b f v).getF b' f' = s.getF b' f' := by
  rw [getF_setF, if_neg (fun e => h e.2)]

/-- Two fields of one block have one key only if they lie at one place. -/
theorem key_inj (b : Nat) (f g : Fld) (hf : f.lo < 64) (hg : g.lo < 64) :
    f.key b = g.key b ↔ f.off = g.off ∧ f.lo = g.lo := by
  unfold Fld.key
  constructor
  · intro h
    omega
  · rintro ⟨h1, h2⟩
    rw [h1, h2]

/-- A counter that adds `n`. -/
@[simp] theorem getF_incF_same (s : State) (b : Nat) (f : Fld) (n : Nat) :
    (s.incF b f n).getF b f = (s.getF b f + n) % 2 ^ f.width := getF_setF_same _ _ _ _

/-- A counter that saturates. -/
@[simp] theorem getF_satF_same (s : State) (b : Nat) (f : Fld) (n : Nat) :
    (s.satF b f n).getF b f = satAdd f.width (s.getF b f) n % 2 ^ f.width := getF_setF_same _ _ _ _

/-- A flag that is set reads 1. -/
@[simp] theorem getF_mark_same (s : State) (b : Nat) (f : Fld) : (s.mark b f).getF b f = 1 % 2 ^ f.width :=
  getF_setF_same _ _ _ _

/-- The firing of a producer changes what the router still has to route, and nothing else. -/
theorem fire_eq (s : State) (n : Nat) :
    s.fire n = s ∨ s.fire n = { s with yarn := { s.yarn with due := s.yarn.due ++ [n] } } := by
  unfold State.fire
  split
  · exact .inr rfl
  · exact .inl rfl

@[simp] theorem getF_fire (s : State) (n b : Nat) (f : Fld) : (s.fire n).getF b f = s.getF b f := by
  rcases fire_eq s n with h | h <;> rw [h]
  rfl

/-- A flag that is a producer is set and fires. -/
@[simp] theorem getF_raise_same (s : State) (b : Nat) (f : Fld) (p : Nat) :
    (s.raise b f p).getF b f = 1 % 2 ^ f.width := by
  unfold State.raise
  rw [getF_fire, getF_setF_same]

theorem getF_raise_ne (s : State) (b : Nat) (f : Fld) (p b' : Nat) (f' : Fld) (h : f'.key b' ≠ f.key b) :
    (s.raise b f p).getF b' f' = s.getF b' f' := by
  unfold State.raise
  rw [getF_fire, getF_setF_ne _ _ _ _ _ _ h]

/-! ## Updates of the other tables -/

@[simp] theorem getF_emit (s : State) (o : Out) (b : Nat) (f : Fld) :
    (s.emit o).getF b f = s.getF b f := rfl

@[simp] theorem getF_tickFree (s : State) (b : Nat) (f : Fld) :
    (s.tickFree).getF b f = s.getF b f := rfl

@[simp] theorem getF_setG (s : State) (g : Nat) (x : Grp) (b : Nat) (f : Fld) :
    (s.setG g x).getF b f = s.getF b f := rfl

@[simp] theorem g_setG (s : State) (g : Nat) (x : Grp) (k : Nat) :
    (s.setG g x).g k = if k = g then x else s.g k := by
  simp [State.g, State.setG]

@[simp] theorem getF_setPx (s : State) (g : Nat) (x : PosCh) (b : Nat) (f : Fld) :
    (s.setPx g x).getF b f = s.getF b f := rfl

@[simp] theorem px_setPx (s : State) (g : Nat) (x : PosCh) (k : Nat) :
    (s.setPx g x).px k = if k = g then x else s.px k := by
  simp [State.px, State.setPx]

@[simp] theorem getF_setLn (s : State) (g : Nat) (x : Lane) (b : Nat) (f : Fld) :
    (s.setLn g x).getF b f = s.getF b f := rfl

@[simp] theorem ln_setLn (s : State) (g : Nat) (x : Lane) (k : Nat) :
    (s.setLn g x).ln k = if k = g then x else s.ln k := by
  simp [State.ln, State.setLn]

@[simp] theorem getF_setCh (s : State) (g : Nat) (x : Chan) (b : Nat) (f : Fld) :
    (s.setCh g x).getF b f = s.getF b f := rfl

@[simp] theorem ch_setCh (s : State) (g : Nat) (x : Chan) (k : Nat) :
    (s.setCh g x).ch k = if k = g then x else s.ch k := by
  simp [State.ch, State.setCh]

@[simp] theorem getF_setSm (s : State) (g : Nat) (x : SeamCh) (b : Nat) (f : Fld) :
    (s.setSm g x).getF b f = s.getF b f := rfl

@[simp] theorem sm_setSm (s : State) (g : Nat) (x : SeamCh) (k : Nat) :
    (s.setSm g x).sm k = if k = g then x else s.sm k := by
  simp [State.sm, State.setSm]

@[simp] theorem getF_setSmG (s : State) (g : Nat) (x : SeamGrp) (b : Nat) (f : Fld) :
    (s.setSmG g x).getF b f = s.getF b f := rfl

@[simp] theorem smG_setSmG (s : State) (g : Nat) (x : SeamGrp) (k : Nat) :
    (s.setSmG g x).smG k = if k = g then x else s.smG k := by
  simp [State.smG, State.setSmG]

@[simp] theorem getF_setSg (s : State) (g : Nat) (x : SegGrp) (b : Nat) (f : Fld) :
    (s.setSg g x).getF b f = s.getF b f := rfl

@[simp] theorem sg_setSg (s : State) (g : Nat) (x : SegGrp) (k : Nat) :
    (s.setSg g x).sg k = if k = g then x else s.sg k := by
  simp [State.sg, State.setSg]

@[simp] theorem getF_setTg (s : State) (g : Nat) (x : TalGrp) (b : Nat) (f : Fld) :
    (s.setTg g x).getF b f = s.getF b f := rfl

@[simp] theorem tg_setTg (s : State) (g : Nat) (x : TalGrp) (k : Nat) :
    (s.setTg g x).tg k = if k = g then x else s.tg k := by
  simp [State.tg, State.setTg]

@[simp] theorem getF_setAx (s : State) (g : Nat) (x : AuxCh) (b : Nat) (f : Fld) :
    (s.setAx g x).getF b f = s.getF b f := rfl

@[simp] theorem ax_setAx (s : State) (g : Nat) (x : AuxCh) (k : Nat) :
    (s.setAx g x).ax k = if k = g then x else s.ax k := by
  simp [State.ax, State.setAx]

@[simp] theorem getF_setDm (s : State) (g : Nat) (x : Dma) (b : Nat) (f : Fld) :
    (s.setDm g x).getF b f = s.getF b f := rfl

@[simp] theorem dm_setDm (s : State) (g : Nat) (x : Dma) (k : Nat) :
    (s.setDm g x).dm k = if k = g then x else s.dm k := by
  simp [State.dm, State.setDm]

@[simp] theorem getF_setPt (s : State) (g : Nat) (x : Ptp) (b : Nat) (f : Fld) :
    (s.setPt g x).getF b f = s.getF b f := rfl

@[simp] theorem pt_setPt (s : State) (g : Nat) (x : Ptp) (k : Nat) :
    (s.setPt g x).pt k = if k = g then x else s.pt k := by
  simp [State.pt, State.setPt]

@[simp] theorem getF_setPnl (s : State) (x : Panel) (b : Nat) (f : Fld) :
    (s.setPnl x).getF b f = s.getF b f := rfl

@[simp] theorem getF_setTag (s : State) (x : Tag) (b : Nat) (f : Fld) :
    (s.setTag x).getF b f = s.getF b f := rfl

end Sys2Proof.Machine
end

