-- ==== Sys2Proof/Laws/Commands.lean ====
section
/-!
SUPPORT. The laws of an accepted host command: what the command layer does around the effect of its opcode, and when its
reply has left.
-/

namespace Sys2Proof.Machine

variable {s t : State} {h : Hdr} {op role : Nat}

@[simp] theorem mapSession_sess (s : State) (id : Nat) (f : Session → Session) :
    (s.mapSession id f).sess = s.sess.map (fun e => if e.id = id then f e else e) := rfl

@[simp] theorem mapSession_getF (s : State) (id : Nat) (f : Session → Session) (b : Nat) (x : Fld) :
    (s.mapSession id f).getF b x = s.getF b x := rfl

@[simp] theorem preStatus_mapSession (s : State) (id : Nat) (f : Session → Session) (h : Hdr) (op role early : Nat) :
    (s.mapSession id f).preStatus h op role early = s.preStatus h op role early := rfl

/-- The session that a header finds has the number of the header. -/
theorem findSession_id {e : Session} (hf : s.findSession h = some e) : e.id = h.session.toNat := by
  have := List.find?_some hf
  simp only [Bool.and_eq_true, beq_iff_eq] at this
  exact this.1.1.1

/-- An accepted command is carried out on the accepted state, and answered. -/
theorem commandE_accepted (ha : Accepts s h op role) (body : State → State × Reply) :
    s.commandE h op role 0 body = (body (s.accepted h op)).1.answer h op (body (s.accepted h op)).2 := by
  obtain ⟨hp, hs, e, hf, hw, hn, hl⟩ := ha
  have hid := findSession_id hf
  have hw' : (!seqAbove e.hi h.seq.toNat && !seqWithin e.hi h.seq.toNat) = false := by
    rcases hw with hw | hw <;> simp [hw]
  have hl' : ¬ 256 ≤ e.outst.length := by omega
  unfold State.commandE
  simp only [hp, Bool.not_true, Bool.false_eq_true, if_false, hf, hw', hn, if_neg hl', preStatus_mapSession, hs, ne_eq,
    stOk, not_true_eq_false]
  rw [hid]
  rfl

theorem command_accepted (ha : Accepts s h op role) (body : State → State × Reply) :
    s.command h op role body = (body (s.accepted h op)).1.answer h op (body (s.accepted h op)).2 := commandE_accepted ha body

/-- Changes of a session that keep what a header looks for keep the session that it finds. -/
theorem findSession_map (f : Session → Session) (id : Nat)
    (hk : ∀ e, (f e).id = e.id ∧ (f e).role = e.role ∧ (f e).addr = e.addr ∧ (f e).udp = e.udp) (s : State) (h : Hdr) :
    (s.mapSession id f).findSession h = (s.findSession h).map (fun e => if e.id = id then f e else e) := by
  unfold State.findSession
  rw [mapSession_sess]
  generalize s.sess = l
  induction l with
  | nil => rfl
  | cons a l ih =>
    by_cases ha : a.id = id
    · simp only [List.map_cons, ha, if_true, List.find?_cons]
      have k := hk a
      rw [show (f a).id = id from k.1.trans ha, k.2.1, k.2.2.1, k.2.2.2]
      split
      · simp [ha]
      · exact ih
    · simp only [List.map_cons, if_neg ha, List.find?_cons]
      split
      · simp [ha]
      · exact ih

theorem findSession_congr (u v : State) (e : u.sess = v.sess) (h : Hdr) : u.findSession h = v.findSession h := by
  unfold State.findSession; rw [e]

theorem accepted_sess (s : State) (h : Hdr) (op : Nat) :
    (s.accepted h op).sess = ((s.mapSession h.session.toNat (fun x => { x with heard := s.now })).mapSession h.session.toNat
      (fun x => x.take h op)).sess := by
  unfold State.accepted State.incF
  rw [setF_sess]

/-- Taking a command keeps what a header looks for in a session, and its reply length. -/
theorem take_kept (x : Session) (h : Hdr) (op : Nat) : (x.take h op).id = x.id ∧ (x.take h op).role = x.role ∧
    (x.take h op).addr = x.addr ∧ (x.take h op).udp = x.udp ∧ (x.take h op).maxDgram = x.maxDgram := by
  unfold Session.take
  exact ⟨rfl, rfl, rfl, rfl, rfl⟩

/-- The session of an accepted command on the accepted state. -/
theorem findSession_accepted {e : Session} (hf : s.findSession h = some e) :
    ∃ e', (s.accepted h op).findSession h = some e' ∧ e'.maxDgram = e.maxDgram := by
  have hid := findSession_id hf
  have h1 := findSession_map (fun x => { x with heard := s.now }) h.session.toNat (fun x => ⟨rfl, rfl, rfl, rfl⟩) s h
  have h2 := findSession_map (fun x => x.take h op) h.session.toNat
    (fun x => ⟨(take_kept x h op).1, (take_kept x h op).2.1, (take_kept x h op).2.2.1, (take_kept x h op).2.2.2.1⟩)
    (s.mapSession h.session.toNat (fun x => { x with heard := s.now })) h
  rw [hf, Option.map_some, if_pos hid] at h1
  rw [h1, Option.map_some, if_pos (show ({ e with heard := s.now } : Session).id = _ from hid)] at h2
  refine ⟨_, (findSession_congr _ _ (accepted_sess s h op) h).trans h2, ?_⟩
  exact (take_kept _ h op).2.2.2.2

/-! ## Sending -/

/-- What sending changes: the network state alone, where the frame waits for its port (R578) or for its next hop (R571). -/
def Sent (s t : State) : Prop := t = { s with net := t.net }

theorem Sent.refl (s : State) : Sent s s := rfl

theorem Sent.trans {s t u : State} (a : Sent s t) (b : Sent t u) : Sent s u := by
  have hb := b
  unfold Sent at a hb ⊢
  rw [a] at hb
  exact hb

theorem Sent.net {s t : State} (h : Sent s t) (n : Net) : Sent s { t with net := n } := by
  unfold Sent at h ⊢
  calc { t with net := n } = { { s with net := t.net } with net := n } := by rw [← h]
    _ = _ := rfl

theorem Sent.fields {s t : State} (h : Sent s t) :
    t.sess = s.sess ∧ t.mem = s.mem ∧ t.grp = s.grp ∧ t.act = s.act ∧ t.regs = s.regs ∧ t.out = s.out := by
  rw [show t = { s with net := t.net } from h]; exact ⟨rfl, rfl, rfl, rfl, rfl, rfl⟩

theorem Sent.getF {s t : State} (h : Sent s t) (b : Nat) (f : Fld) : t.getF b f = s.getF b f := by
  unfold State.getF
  rw [h.fields.2.2.2.1, h.fields.2.2.2.2.1]

theorem toPort_sent (s : State) (p pr : Nat) (o : Out) : Sent s (s.toPort p pr o) := rfl

theorem sendOn_sent (s : State) (p pr : Nat) (o : Out) : Sent s (s.sendOn p pr o) := by
  unfold State.sendOn
  split
  · have key : ∀ (l : List Nat) (f : Nat → Out) (u : State), Sent s u →
        Sent s (forL l (fun p t => t.toPort p pr (f p)) u) := by
      intro l f
      induction l with
      | nil => exact fun u h => h
      | cons a l ih => exact fun u h => ih _ (h.trans (toPort_sent u a pr (f a)))
    exact key _ _ _ ((Sent.refl s).net _)
  · exact toPort_sent s p pr _

theorem solicit_sent (s : State) (p hop : Nat) : Sent s (s.solicit p hop) := by
  unfold State.solicit
  split <;> exact sendOn_sent _ _ _ _

theorem sendIp_sent (s : State) (p pr a : Nat) (bs : List Byte) : Sent s (s.sendIp p pr a bs) := by
  unfold State.sendIp
  dsimp only
  split
  · exact Sent.refl s
  · split
    · exact sendOn_sent s p _ _
    · split
      · exact sendOn_sent s p _ _
      · exact ((Sent.refl s).net _).trans (solicit_sent _ _ _)

theorem sendUdp_sent (s : State) (p a d sp : Nat) (f : Fld) (bs : List Byte) : Sent s (s.sendUdp p a d sp f bs) :=
  sendIp_sent s p _ a _

/-! ## Replies -/

/-- A reply within the limit of its session leaves. -/
theorem reply_replied {e : Session} (hf : t.findSession h = some e) {params : List Byte} (hl : t.fits h params.length = true)
    (st : Nat) (course : Int) : Replied (t.reply h op st course params) h op st params := by
  have hid := findSession_id hf
  unfold State.reply
  simp only [hf, hl, if_true]
  unfold Replied State.sendReply
  rw [(sendUdp_sent _ _ _ _ _ _ _).fields.1, mapSession_sess]
  refine ⟨_, List.mem_map.2 ⟨e, ?_, rfl⟩, ?_⟩
  · exact List.mem_of_find?_eq_some hf
  · simp only [if_true, hid, true_and]
    refine ⟨course, tag16 (t.sessKey e) (replyBody h op h.session.toNat st course params), ?_⟩
    simp
end Sys2Proof.Machine
end

