-- ==== Sys2Proof/Laws/GrowsBase.lean ====
section
/-!
SUPPORT. What every operation keeps (Laws/Grows.lean), shown of the shared operations, memory, rings and the journal: one lemma per
operation of the model, named after it.
-/

set_option linter.unusedTactic false
set_option linter.unreachableTactic false
set_option maxRecDepth 4000

namespace Sys2Proof.Machine

/-! ## Ops -/

theorem setI_grows {s0 : State} (s : State) (b : Nat) (f : Fld) (v : Int) (h : Grows s0 s) :
    Grows s0 (State.setI s b f v) := by
  unfold State.setI
  try dsimp only
  repeat' first
    | with_reducible assumption
    | with_reducible apply setF_grows
    | dsimp only

theorem incF_grows {s0 : State} (s : State) (b : Nat) (f : Fld) (n : Nat) (h : Grows s0 s) :
    Grows s0 (State.incF s b f n) := by
  unfold State.incF
  try dsimp only
  repeat' first
    | with_reducible assumption
    | with_reducible apply setF_grows
    | dsimp only

theorem satF_grows {s0 : State} (s : State) (b : Nat) (f : Fld) (n : Nat) (h : Grows s0 s) :
    Grows s0 (State.satF s b f n) := by
  unfold State.satF
  try dsimp only
  repeat' first
    | with_reducible assumption
    | with_reducible apply setF_grows
    | dsimp only

/-! ## Operands -/

/-! ## Flags -/

theorem setDom_grows {s0 : State} (s : State) (d : Nat) (on : Bool) (h : Grows s0 s) :
    Grows s0 (State.setDom s d on) := by
  unfold State.setDom
  try dsimp only
  repeat' first
    | with_reducible assumption
    | with_reducible apply setF_grows
    | with_reducible refine Grows.ite ?_ ?_
    | split
    | dsimp only

theorem fire_grows {s0 : State} (s : State) (n : Nat) (h : Grows s0 s) : Grows s0 (State.fire s n) := by
  unfold State.fire
  try dsimp only
  repeat' first
    | with_reducible assumption
    | fail_if_no_progress with_reducible apply Grows.mk'
    | with_reducible refine Grows.ite ?_ ?_
    | split
    | dsimp only

theorem raise_grows {s0 : State} (s : State) (b : Nat) (f : Fld) (prod : Nat) (h : Grows s0 s) :
    Grows s0 (State.raise s b f prod) := by
  unfold State.raise
  try dsimp only
  repeat' first
    | with_reducible assumption
    | with_reducible apply fire_grows
    | with_reducible apply setF_grows
    | dsimp only

theorem mark_grows {s0 : State} (s : State) (b : Nat) (f : Fld) (h : Grows s0 s) : Grows s0 (State.mark s b f) := by
  unfold State.mark
  try dsimp only
  repeat' first
    | with_reducible assumption
    | with_reducible apply setF_grows
    | dsimp only

theorem setG_grows {s0 : State} (s : State) (g : Nat) (r : Grp) (h : Grows s0 s) : Grows s0 (State.setG s g r) := by
  unfold State.setG
  try dsimp only
  repeat' first
    | with_reducible assumption
    | fail_if_no_progress with_reducible apply Grows.mk'
    | dsimp only

theorem clkShow_grows {s0 : State} (s : State) (h : Grows s0 s) : Grows s0 (State.clkShow s) := by
  unfold State.clkShow
  try dsimp only
  repeat' first
    | intro _
    | with_reducible assumption
    | with_reducible apply setF_grows
    | with_reducible refine Grows.forN _ ?_ ?_
    | dsimp only

theorem emits_grows {s0 : State} (s : State) (l : List Out) (h : Grows s0 s) : Grows s0 (State.emits s l) := by
  unfold State.emits
  try dsimp only
  repeat' first
    | intro _
    | with_reducible assumption
    | with_reducible apply emit_grows
    | with_reducible refine Grows.forL _ ?_ ?_
    | dsimp only

theorem pinsRest_grows {s0 : State} (s : State) (which : Pin → Bool) (h : Grows s0 s) :
    Grows s0 (State.pinsRest s which) := by
  unfold State.pinsRest
  try dsimp only
  repeat' first
    | intro _
    | with_reducible assumption
    | with_reducible apply emit_grows
    | with_reducible refine Grows.forL _ ?_ ?_
    | with_reducible refine Grows.iteP ?_ ?_
    | dsimp only

/-! ## Faults -/

theorem finishOp_grows {s0 : State} (s : State) (op : Nat) (sel : Outstanding → Bool) (status : Nat) (params : List Byte) (h : Grows s0 s) :
    Grows s0 (State.finishOp s op sel status params) := by
  unfold State.finishOp
  try dsimp only
  repeat' first
    | intro _
    | with_reducible assumption
    | fail_if_no_progress with_reducible apply Grows.mk'
    | with_reducible refine Grows.ite ?_ ?_
    | with_reducible refine Grows.iteP ?_ ?_
    | split
    | dsimp only

theorem freezeInst_grows {s0 : State} (s : State) (h : Grows s0 s) : Grows s0 (State.freezeInst s) := by
  unfold State.freezeInst
  try dsimp only
  repeat' first
    | intro _
    | with_reducible assumption
    | with_reducible apply finishOp_grows
    | with_reducible apply mark_grows
    | with_reducible apply setF_grows
    | fail_if_no_progress with_reducible apply Grows.mk'
    | with_reducible refine Grows.iteP ?_ ?_
    | dsimp only

theorem freezeTrigger_grows {s0 : State} (s : State) (h : Grows s0 s) : Grows s0 (State.freezeTrigger s) := by
  unfold State.freezeTrigger
  try dsimp only
  repeat' first
    | with_reducible assumption
    | with_reducible apply freezeInst_grows
    | with_reducible apply setF_grows
    | fail_if_no_progress with_reducible apply Grows.mk'
    | with_reducible refine Grows.ite ?_ ?_
    | split
    | dsimp only

theorem logAs_grows {s0 : State} (s : State) (code : LogCode) (sev : Nat) (level : Nat) (unit : Nat) (grp : Nat) (payload : List Byte) (h : Grows s0 s) :
    Grows s0 (State.logAs s code sev level unit grp payload) := by
  unfold State.logAs
  try dsimp only
  repeat' first
    | with_reducible assumption
    | with_reducible apply freezeTrigger_grows
    | with_reducible apply pokes_grows
    | with_reducible apply satF_grows
    | with_reducible apply setF_grows
    | fail_if_no_progress with_reducible apply Grows.mk'
    | with_reducible refine Grows.ite ?_ ?_
    | split
    | dsimp only

theorem log_grows {s0 : State} (s : State) (code : LogCode) (unit : Nat) (grp : Nat) (payload : List Byte) (h : Grows s0 s) :
    Grows s0 (State.log s code unit grp payload) := by
  unfold State.log
  try dsimp only
  repeat' first
    | with_reducible assumption
    | with_reducible apply logAs_grows
    | fail_if_no_progress with_reducible apply Grows.mk'
    | dsimp only

theorem logReg_grows {s0 : State} (s : State) (code : LogCode) (unit : Nat) (grp : Nat) (addr : Nat) (h : Grows s0 s) :
    Grows s0 (State.logReg s code unit grp addr) := by
  unfold State.logReg
  try dsimp only
  repeat' first
    | with_reducible assumption
    | with_reducible apply log_grows
    | dsimp only

/-! ## Memory -/

theorem setBad_grows {s0 : State} (s : State) (a : Nat) (n : Nat) (h : Grows s0 s) : Grows s0 (State.setBad s a n) := by
  unfold State.setBad
  try dsimp only
  repeat' first
    | with_reducible assumption
    | fail_if_no_progress with_reducible apply Grows.mk'
    | dsimp only

theorem setDr_grows {s0 : State} (s : State) (d : Nat) (x : Dram) (h : Grows s0 s) : Grows s0 (State.setDr s d x) := by
  unfold State.setDr
  try dsimp only
  repeat' first
    | with_reducible assumption
    | fail_if_no_progress with_reducible apply Grows.mk'
    | dsimp only

theorem memDown_grows {s0 : State} (s : State) (d : Nat) (h : Grows s0 s) : Grows s0 (State.memDown s d) := by
  unfold State.memDown
  try dsimp only
  repeat' first
    | intro _
    | with_reducible assumption
    | with_reducible apply logAs_grows
    | with_reducible apply raise_grows
    | with_reducible apply setDr_grows
    | with_reducible apply setF_grows
    | fail_if_no_progress with_reducible apply Grows.mk'
    | with_reducible refine Grows.ite ?_ ?_
    | split
    | dsimp only

theorem ueNote_grows {s0 : State} (s : State) (d : Nat) (h : Grows s0 s) : Grows s0 (State.ueNote s d) := by
  unfold State.ueNote
  try dsimp only
  repeat' first
    | with_reducible assumption
    | with_reducible apply memDown_grows
    | with_reducible apply setDr_grows
    | fail_if_no_progress with_reducible apply Grows.mk'
    | with_reducible refine Grows.ite ?_ ?_
    | split
    | dsimp only

theorem xfer_grows {s0 : State} (s : State) (d : Nat) (h : Grows s0 s) : Grows s0 (State.xfer s d).1 := by
  unfold State.xfer
  try dsimp only
  repeat' first
    | with_reducible assumption
    | with_reducible apply memDown_grows
    | with_reducible apply satF_grows
    | with_reducible apply setDr_grows
    | fail_if_no_progress with_reducible apply Grows.mk'
    | with_reducible refine Grows.ite ?_ ?_
    | with_reducible refine Grows.iteP ?_ ?_
    | split
    | dsimp only

theorem ueEvent_grows {s0 : State} (s : State) (a : Nat) (kind : Nat) (cls : Nat) (unit : Nat) (mirror : Nat) (h : Grows s0 s) :
    Grows s0 (State.ueEvent s a kind cls unit mirror) := by
  unfold State.ueEvent
  try dsimp only
  repeat' first
    | with_reducible assumption
    | with_reducible apply logAs_grows
    | with_reducible apply raise_grows
    | with_reducible apply satF_grows
    | with_reducible apply setF_grows
    | with_reducible apply ueNote_grows
    | with_reducible refine Grows.ite ?_ ?_
    | split
    | dsimp only

theorem ceEvent_grows {s0 : State} (s : State) (d : Nat) (a : Nat) (h : Grows s0 s) :
    Grows s0 (State.ceEvent s d a) := by
  unfold State.ceEvent
  try dsimp only
  repeat' first
    | intro _
    | with_reducible assumption
    | with_reducible apply mark_grows
    | with_reducible apply satF_grows
    | fail_if_no_progress with_reducible apply Grows.mk'
    | with_reducible refine Grows.ite ?_ ?_
    | split
    | dsimp only

theorem drain_grows {s0 : State} (s : State) (a : Nat) (h : Grows s0 s) : Grows s0 (State.drain s a) := by
  unfold State.drain
  try dsimp only
  repeat' first
    | intro _
    | with_reducible assumption
    | with_reducible apply setBad_grows
    | fail_if_no_progress with_reducible apply Grows.mk'
    | with_reducible refine Grows.ite ?_ ?_
    | split
    | dsimp only

theorem readOne_grows {s0 : State} (s : State) (kind : Nat) (a : Nat) (h : Grows s0 s) :
    Grows s0 (State.readOne s kind a).1 := by
  unfold State.readOne
  try dsimp only
  repeat' first
    | with_reducible assumption
    | with_reducible apply ceEvent_grows
    | with_reducible apply drain_grows
    | with_reducible apply xfer_grows
    | with_reducible refine Grows.ite ?_ ?_
    | with_reducible refine Grows.iteP ?_ ?_
    | split
    | dsimp only

theorem readBlock_grows {s0 : State} (s : State) (kind : Nat) (cls : Nat) (unit : Nat) (a : Nat) (h : Grows s0 s) :
    Grows s0 (State.readBlock s kind cls unit a).1 := by
  unfold State.readBlock
  try dsimp only
  repeat' first
    | with_reducible assumption
    | with_reducible apply readOne_grows
    | with_reducible apply setBad_grows
    | with_reducible apply ueEvent_grows
    | fail_if_no_progress with_reducible apply Grows.mk'
    | with_reducible refine Grows.ite ?_ ?_
    | with_reducible refine Grows.iteP ?_ ?_
    | split
    | dsimp only

theorem readBlocks_grows {s0 : State} (kind cls unit : Nat) (l : List Nat) {s : State} (h : Grows s0 s) :
    Grows s0 (s.readBlocks kind cls unit l).1 := by
  induction l generalizing s with
  | nil => exact h
  | cons b bs ih =>
    unfold State.readBlocks
    have hb := readBlock_grows s kind cls unit (b * 64) h
    rcases hr : s.readBlock kind cls unit (b * 64) with ⟨t, ok⟩
    rw [hr] at hb
    dsimp only
    split
    · exact ih hb
    · exact hb

theorem memRead_grows {s0 : State} (s : State) (cls : Nat) (unit : Nat) (a : Nat) (n : Nat) (h : Grows s0 s) :
    Grows s0 (State.memRead s cls unit a n).1 := by
  unfold State.memRead
  try dsimp only
  repeat' first
    | with_reducible assumption
    | with_reducible apply readBlocks_grows
    | fail_if_no_progress with_reducible apply Grows.mk'
    | with_reducible refine Grows.ite ?_ ?_
    | with_reducible refine Grows.iteP ?_ ?_
    | split
    | with_reducible refine Grows.fst (by assumption) ?_
    | dsimp only

theorem readFree_grows {s0 : State} (s : State) (cls unit a n : Nat) (h : Grows s0 s) :
    Grows s0 (s.readFree cls unit a n).1 := by
  unfold State.readFree
  dsimp only
  split
  · exact memRead_grows _ _ _ _ _ h
  · exact Grows.updFree _ (memRead_grows _ _ _ _ _ h)

theorem xferBlocks_grows {s0 : State} (s : State) (cls unit : Nat) (l : List Nat) (h : Grows s0 s) :
    Grows s0 (s.xferBlocks cls unit l).1 := by
  induction l generalizing s with
  | nil => exact h
  | cons b bs ih =>
    unfold State.xferBlocks
    dsimp only
    repeat' first
      | intro _
      | with_reducible assumption
      | with_reducible exact Grows.refl _
      | with_reducible apply ih
      | with_reducible apply ueEvent_grows
      | with_reducible apply xfer_grows
      | with_reducible refine Grows.forL _ ?_ ?_
      | with_reducible refine Grows.forN _ ?_ ?_
      | with_reducible refine Grows.foldl _ ?_ ?_
      | with_reducible refine Grows.foldlP _ ?_ ?_
      | fail_if_no_progress with_reducible apply Grows.mk'
      | with_reducible refine Grows.ite ?_ ?_
      | with_reducible refine Grows.iteP ?_ ?_
      | split
      | with_reducible refine Grows.fst (by assumption) ?_
      | dsimp only
      | omega

theorem putRange_grows {s0 : State} (s : State) (a : Nat) (bs : List Byte) (h : Grows s0 s) :
    Grows s0 (State.putRange s a bs) := by
  unfold State.putRange
  try dsimp only
  repeat' first
    | intro _
    | with_reducible assumption
    | with_reducible apply pokes_grows
    | with_reducible apply setBad_grows
    | with_reducible refine Grows.forL _ ?_ ?_
    | fail_if_no_progress with_reducible apply Grows.mk'
    | with_reducible refine Grows.ite ?_ ?_
    | split
    | dsimp only

theorem memWrite_grows {s0 : State} (s : State) (cls : Nat) (unit : Nat) (a : Nat) (bs : List Byte) (h : Grows s0 s) :
    Grows s0 (State.memWrite s cls unit a bs).1 := by
  unfold State.memWrite
  try dsimp only
  repeat' first
    | intro _
    | with_reducible assumption
    | with_reducible apply putRange_grows
    | with_reducible apply readBlocks_grows
    | with_reducible apply ueEvent_grows
    | with_reducible apply xferBlocks_grows
    | fail_if_no_progress with_reducible apply Grows.mk'
    | with_reducible refine Grows.ite ?_ ?_
    | with_reducible refine Grows.iteP ?_ ?_
    | split
    | with_reducible refine Grows.fst (by assumption) ?_
    | dsimp only

/-! ## Net -/

theorem toPort_grows {s0 : State} (s : State) (port : Nat) (prio : Nat) (o : Out) (h : Grows s0 s) :
    Grows s0 (State.toPort s port prio o) := by
  unfold State.toPort
  try dsimp only
  repeat' first
    | with_reducible assumption
    | fail_if_no_progress with_reducible apply Grows.mk'
    | dsimp only

theorem txOne_grows {s0 : State} (s : State) (port : Nat) (h : Grows s0 s) : Grows s0 (State.txOne s port) := by
  unfold State.txOne
  try dsimp only
  repeat' first
    | with_reducible assumption
    | with_reducible apply emit_grows
    | with_reducible apply incF_grows
    | fail_if_no_progress with_reducible apply Grows.mk'
    | with_reducible refine Grows.ite ?_ ?_
    | split
    | dsimp only

theorem transmit_grows {s0 : State} (s : State) (h : Grows s0 s) : Grows s0 (State.transmit s) := by
  unfold State.transmit
  try dsimp only
  repeat' first
    | with_reducible assumption
    | with_reducible apply txOne_grows
    | dsimp only

theorem transmitAll_grows {s0 : State} (s : State) (h : Grows s0 s) : Grows s0 (State.transmitAll s) := by
  unfold State.transmitAll
  try dsimp only
  repeat' first
    | intro _
    | with_reducible assumption
    | with_reducible apply transmit_grows
    | with_reducible refine Grows.forN _ ?_ ?_
    | dsimp only

theorem txDrop_grows {s0 : State} (s : State) (port : Nat) (h : Grows s0 s) : Grows s0 (State.txDrop s port) := by
  unfold State.txDrop
  try dsimp only
  repeat' first
    | intro _
    | with_reducible assumption
    | fail_if_no_progress with_reducible apply Grows.mk'
    | dsimp only

theorem sendOn_grows {s0 : State} (s : State) (port : Nat) (prio : Nat) (o : Out) (h : Grows s0 s) :
    Grows s0 (State.sendOn s port prio o) := by
  unfold State.sendOn
  try dsimp only
  repeat' first
    | intro _
    | with_reducible assumption
    | with_reducible apply toPort_grows
    | with_reducible refine Grows.forL _ ?_ ?_
    | fail_if_no_progress with_reducible apply Grows.mk'
    | with_reducible refine Grows.ite ?_ ?_
    | split
    | dsimp only

theorem solicit_grows {s0 : State} (s : State) (port : Nat) (hop : Nat) (h : Grows s0 s) :
    Grows s0 (State.solicit s port hop) := by
  unfold State.solicit
  try dsimp only
  repeat' first
    | with_reducible assumption
    | with_reducible apply sendOn_grows
    | with_reducible refine Grows.ite ?_ ?_
    | split
    | dsimp only

theorem sendIp_grows {s0 : State} (s : State) (port : Nat) (prio : Nat) (dst : Nat) (bytes : List Byte) (h : Grows s0 s) :
    Grows s0 (State.sendIp s port prio dst bytes) := by
  unfold State.sendIp
  try dsimp only
  repeat' first
    | with_reducible assumption
    | with_reducible apply sendOn_grows
    | with_reducible apply solicit_grows
    | fail_if_no_progress with_reducible apply Grows.mk'
    | with_reducible refine Grows.ite ?_ ?_
    | split
    | dsimp only

theorem sendUdp_grows {s0 : State} (s : State) (port : Nat) (addr : Nat) (dport : Nat) (sport : Nat) (pcpF : Fld) (payload : List Byte) (h : Grows s0 s) :
    Grows s0 (State.sendUdp s port addr dport sport pcpF payload) := by
  unfold State.sendUdp
  try dsimp only
  repeat' first
    | with_reducible assumption
    | with_reducible apply sendIp_grows
    | fail_if_no_progress with_reducible apply Grows.mk'
    | dsimp only

theorem sendWaited_grows {s0 : State} (s : State) (mac : Nat) (w : IpPkt) (h : Grows s0 s) :
    Grows s0 (State.sendWaited s mac w) := by
  unfold State.sendWaited
  try dsimp only
  repeat' first
    | with_reducible assumption
    | with_reducible apply sendOn_grows
    | with_reducible refine Grows.ite ?_ ?_
    | split
    | dsimp only

theorem learn_grows {s0 : State} (s : State) (addr : Nat) (mac : Nat) (h : Grows s0 s) :
    Grows s0 (State.learn s addr mac) := by
  unfold State.learn
  try dsimp only
  repeat' first
    | intro _
    | with_reducible assumption
    | with_reducible apply sendWaited_grows
    | with_reducible refine Grows.forL _ ?_ ?_
    | fail_if_no_progress with_reducible apply Grows.mk'
    | with_reducible refine Grows.ite ?_ ?_
    | with_reducible refine Grows.iteP ?_ ?_
    | split
    | dsimp only

/-! ## Rings -/

theorem hkCount_grows {s0 : State} (s : State) (k : Nat) (blocks : Nat) (inN : Nat) (outN : Nat) (h : Grows s0 s) :
    Grows s0 (State.hkCount s k blocks inN outN) := by
  unfold State.hkCount
  try dsimp only
  repeat' first
    | with_reducible assumption
    | with_reducible apply incF_grows
    | dsimp only

theorem hkFail_grows {s0 : State} (s : State) (k : Nat) (h : Grows s0 s) : Grows s0 (State.hkFail s k) := by
  unfold State.hkFail
  try dsimp only
  repeat' first
    | with_reducible assumption
    | with_reducible apply incF_grows
    | with_reducible apply satF_grows
    | dsimp only

theorem hkUnpack_grows {s0 : State} (s : State) (k : Nat) (block : List Byte) (h : Grows s0 s) :
    Grows s0 (State.hkUnpack s k block).1 := by
  unfold State.hkUnpack
  try dsimp only
  repeat' first
    | with_reducible assumption
    | with_reducible apply hkCount_grows
    | with_reducible apply hkFail_grows
    | fail_if_no_progress with_reducible apply Grows.mk'
    | with_reducible refine Grows.iteP ?_ ?_
    | split
    | dsimp only

theorem setRing_grows {s0 : State} (s : State) (id : Nat) (c : RingCtx) (h : Grows s0 s) :
    Grows s0 (State.setRing s id c) := by
  unfold State.setRing
  try dsimp only
  repeat' first
    | with_reducible assumption
    | with_reducible apply pokes_grows
    | with_reducible apply setF_grows
    | fail_if_no_progress with_reducible apply Grows.mk'
    | dsimp only

theorem loadCtx_grows {s0 : State} (s : State) (id : Nat) (h : Grows s0 s) : Grows s0 (State.loadCtx s id) := by
  unfold State.loadCtx
  try dsimp only
  repeat' first
    | with_reducible assumption
    | with_reducible apply memRead_grows
    | fail_if_no_progress with_reducible apply Grows.mk'
    | with_reducible refine Grows.iteP ?_ ?_
    | split
    | dsimp only

theorem touchRing_grows {s0 : State} (s : State) (id : Nat) (h : Grows s0 s) : Grows s0 (State.touchRing s id) := by
  unfold State.touchRing
  try dsimp only
  repeat' first
    | intro _
    | with_reducible assumption
    | with_reducible apply incF_grows
    | with_reducible apply loadCtx_grows
    | fail_if_no_progress with_reducible apply Grows.mk'
    | with_reducible refine Grows.ite ?_ ?_
    | split
    | dsimp only

theorem ringUse_grows {s0 : State} (s : State) (id : Nat) (h : Grows s0 s) : Grows s0 (State.ringUse s id) := by
  unfold State.ringUse
  try dsimp only
  repeat' first
    | intro _
    | with_reducible assumption
    | with_reducible apply touchRing_grows
    | with_reducible refine Grows.ite ?_ ?_
    | with_reducible refine Grows.iteP ?_ ?_
    | split
    | dsimp only

theorem rebind_grows {s0 : State} (s : State) (id : Nat) (h : Grows s0 s) : Grows s0 (State.rebind s id) := by
  unfold State.rebind
  try dsimp only
  repeat' first
    | intro _
    | with_reducible assumption
    | with_reducible apply setRing_grows
    | fail_if_no_progress with_reducible apply Grows.mk'
    | with_reducible refine Grows.iteP ?_ ?_
    | dsimp only

theorem bind_grows {s0 : State} (s : State) (id : Nat) (binder : Nat) (writes : Bool) (h : Grows s0 s) :
    Grows s0 (State.bind s id binder writes) := by
  unfold State.bind
  try dsimp only
  repeat' first
    | with_reducible assumption
    | with_reducible apply rebind_grows
    | with_reducible apply touchRing_grows
    | fail_if_no_progress with_reducible apply Grows.mk'
    | dsimp only

theorem unbind_grows {s0 : State} (s : State) (binder : Nat) (h : Grows s0 s) : Grows s0 (State.unbind s binder) := by
  unfold State.unbind
  try dsimp only
  repeat' first
    | intro _
    | with_reducible assumption
    | with_reducible apply rebind_grows
    | with_reducible refine Grows.forL _ ?_ ?_
    | fail_if_no_progress with_reducible apply Grows.mk'
    | with_reducible refine Grows.iteP ?_ ?_
    | dsimp only

theorem streamRead_grows {s0 : State} (s : State) (unit id first n : Nat) (h : Grows s0 s) :
    Grows s0 (s.streamRead unit id first n).1 := by
  induction n generalizing s first with
  | zero => exact h
  | succ n ih => exact ih _ _ (readFree_grows _ _ _ _ _ h)

theorem sendStream_grows {s0 : State} (s : State) (k : Nat) (n : Nat) (h : Grows s0 s) :
    Grows s0 (State.sendStream s k n) := by
  unfold State.sendStream
  try dsimp only
  repeat' first
    | with_reducible assumption
    | with_reducible apply hkCount_grows
    | with_reducible apply satF_grows
    | with_reducible apply sendUdp_grows
    | with_reducible apply streamRead_grows
    | fail_if_no_progress with_reducible apply Grows.mk'
    | with_reducible refine Grows.ite ?_ ?_
    | with_reducible refine Grows.iteP ?_ ?_
    | split
    | dsimp only

theorem streamOne_grows {s0 : State} (s : State) (k : Nat) (h : Grows s0 s) : Grows s0 (State.streamOne s k) := by
  unfold State.streamOne
  try dsimp only
  repeat' first
    | with_reducible assumption
    | with_reducible apply sendStream_grows
    | fail_if_no_progress with_reducible apply Grows.mk'
    | with_reducible refine Grows.ite ?_ ?_
    | split
    | dsimp only

theorem streamServe_grows {s0 : State} (s : State) (ks : List Nat) (h : Grows s0 s) :
    Grows s0 (State.streamServe s ks) := by
  unfold State.streamServe
  try dsimp only
  repeat' first
    | intro _
    | with_reducible assumption
    | with_reducible apply streamOne_grows
    | with_reducible refine Grows.forL _ ?_ ?_
    | with_reducible refine Grows.forN _ ?_ ?_
    | with_reducible refine Grows.foldl _ ?_ ?_
    | with_reducible refine Grows.foldlP _ ?_ ?_
    | dsimp only

theorem streamKick_grows {s0 : State} (s : State) (id : Nat) (h : Grows s0 s) : Grows s0 (State.streamKick s id) := by
  unfold State.streamKick
  try dsimp only
  repeat' first
    | intro _
    | with_reducible assumption
    | with_reducible apply streamServe_grows
    | with_reducible refine Grows.forL _ ?_ ?_
    | fail_if_no_progress with_reducible apply Grows.mk'
    | split
    | dsimp only

theorem advance_grows {s0 : State} (s : State) (id : Nat) (h : Grows s0 s) : Grows s0 (State.advance s id) := by
  unfold State.advance
  try dsimp only
  repeat' first
    | intro _
    | with_reducible assumption
    | with_reducible apply setRing_grows
    | with_reducible apply streamKick_grows
    | fail_if_no_progress with_reducible apply Grows.mk'
    | with_reducible refine Grows.ite ?_ ?_
    | split
    | dsimp only

theorem writeEntries_grows {s0 : State} (s : State) (id first : Nat) (item : List Byte) (n : Nat) (h : Grows s0 s) :
    Grows s0 (s.writeEntries id first item n) := by
  induction n generalizing s first item with
  | zero => exact h
  | succ n ih => exact ih _ _ _ (memWrite_grows _ _ _ _ _ h)

theorem ringDrop_grows {s0 : State} (s : State) (id : Nat) (h : Grows s0 s) : Grows s0 (State.ringDrop s id) := by
  unfold State.ringDrop
  try dsimp only
  repeat' first
    | with_reducible assumption
    | with_reducible apply raise_grows
    | with_reducible apply setRing_grows
    | fail_if_no_progress with_reducible apply Grows.mk'
    | with_reducible refine Grows.ite ?_ ?_
    | split
    | dsimp only

theorem ringWrite_grows {s0 : State} (s : State) (id : Nat) (item : List Byte) (h : Grows s0 s) :
    Grows s0 (State.ringWrite s id item) := by
  unfold State.ringWrite
  try dsimp only
  repeat' first
    | with_reducible assumption
    | with_reducible apply advance_grows
    | with_reducible apply touchRing_grows
    | with_reducible apply writeEntries_grows
    | fail_if_no_progress with_reducible apply Grows.mk'
    | dsimp only

theorem ringPush_grows {s0 : State} (s : State) (id : Nat) (item : List Byte) (h : Grows s0 s) :
    Grows s0 (State.ringPush s id item).1 := by
  unfold State.ringPush
  try dsimp only
  repeat' first
    | with_reducible assumption
    | with_reducible apply ringDrop_grows
    | with_reducible apply ringWrite_grows
    | with_reducible refine Grows.ite ?_ ?_
    | with_reducible refine Grows.iteP ?_ ?_
    | split
    | dsimp only

theorem ringStarve_grows {s0 : State} (s : State) (id : Nat) (h : Grows s0 s) : Grows s0 (State.ringStarve s id) := by
  unfold State.ringStarve
  try dsimp only
  repeat' first
    | with_reducible assumption
    | fail_if_no_progress with_reducible apply Grows.mk'
    | with_reducible refine Grows.ite ?_ ?_
    | split
    | dsimp only

theorem addSub_grows {s0 : State} (s : State) (k : Nat) (id : Nat) (who : Subscriber) (key : List Byte) (h : Grows s0 s) :
    Grows s0 (State.addSub s k id who key) := by
  unfold State.addSub
  try dsimp only
  repeat' first
    | with_reducible assumption
    | with_reducible apply setF_grows
    | with_reducible apply setRing_grows
    | fail_if_no_progress with_reducible apply Grows.mk'
    | split
    | dsimp only

theorem grantOne_grows {s0 : State} (s : State) (w : Nat × Nat) (h : Grows s0 s) : Grows s0 (State.grantOne s w) := by
  unfold State.grantOne
  try dsimp only
  repeat' first
    | with_reducible assumption
    | fail_if_no_progress with_reducible apply Grows.mk'
    | with_reducible refine Grows.ite ?_ ?_
    | with_reducible refine Grows.iteP ?_ ?_
    | split
    | dsimp only

theorem grant_grows {s0 : State} (s : State) (id : Nat) (h : Grows s0 s) : Grows s0 (State.grant s id) := by
  unfold State.grant
  try dsimp only
  repeat' first
    | intro _
    | with_reducible assumption
    | with_reducible apply grantOne_grows
    | with_reducible refine Grows.forL _ ?_ ?_
    | with_reducible refine Grows.iteP ?_ ?_
    | dsimp only

theorem dropSub_grows {s0 : State} (s : State) (k : Nat) (h : Grows s0 s) : Grows s0 (State.dropSub s k) := by
  unfold State.dropSub
  try dsimp only
  repeat' first
    | with_reducible assumption
    | with_reducible apply grant_grows
    | with_reducible apply setF_grows
    | with_reducible apply setRing_grows
    | fail_if_no_progress with_reducible apply Grows.mk'
    | with_reducible refine Grows.ite ?_ ?_
    | split
    | dsimp only

theorem moveSub_grows {s0 : State} (s : State) (k : Nat) (n : Nat) (h : Grows s0 s) :
    Grows s0 (State.moveSub s k n) := by
  unfold State.moveSub
  try dsimp only
  repeat' first
    | with_reducible assumption
    | with_reducible apply grant_grows
    | fail_if_no_progress with_reducible apply Grows.mk'
    | split
    | dsimp only

theorem take_grows {s0 : State} (s : State) (id : Nat) (b : Nat) (n : Nat) (h : Grows s0 s) :
    Grows s0 (State.take s id b n) := by
  unfold State.take
  try dsimp only
  repeat' first
    | with_reducible assumption
    | with_reducible apply moveSub_grows
    | fail_if_no_progress with_reducible apply Grows.mk'
    | split
    | dsimp only

theorem readEntry_grows {s0 : State} (s : State) (id : Nat) (b : Nat) (off : Nat) (unit : Nat) (h : Grows s0 s) :
    Grows s0 (State.readEntry s id b off unit).1 := by
  unfold State.readEntry
  try dsimp only
  repeat' first
    | with_reducible assumption
    | with_reducible apply memRead_grows
    | with_reducible refine Grows.iteP ?_ ?_
    | dsimp only

theorem consIrq_grows {s0 : State} (s : State) (id : Nat) (h : Grows s0 s) : Grows s0 (State.consIrq s id) := by
  unfold State.consIrq
  try dsimp only
  repeat' first
    | with_reducible assumption
    | with_reducible apply raise_grows
    | with_reducible apply setF_grows
    | dsimp only

theorem subBlock_grows {s0 : State} (s : State) (id : Nat) (b : Nat) (h : Grows s0 s) :
    Grows s0 (State.subBlock s id b) := by
  unfold State.subBlock
  try dsimp only
  repeat' first
    | with_reducible assumption
    | with_reducible apply addSub_grows
    | fail_if_no_progress with_reducible apply Grows.mk'
    | with_reducible refine Grows.ite ?_ ?_
    | split
    | dsimp only

theorem unsubAll_grows {s0 : State} (s : State) (b : Nat) (h : Grows s0 s) : Grows s0 (State.unsubAll s b) := by
  unfold State.unsubAll
  try dsimp only
  repeat' first
    | intro _
    | with_reducible assumption
    | with_reducible apply dropSub_grows
    | with_reducible refine Grows.forL _ ?_ ?_
    | with_reducible refine Grows.iteP ?_ ?_
    | dsimp only

theorem unsubBlock_grows {s0 : State} (s : State) (id : Nat) (b : Nat) (h : Grows s0 s) :
    Grows s0 (State.unsubBlock s id b) := by
  unfold State.unsubBlock
  try dsimp only
  repeat' first
    | with_reducible assumption
    | with_reducible apply dropSub_grows
    | fail_if_no_progress with_reducible apply Grows.mk'
    | split
    | dsimp only

theorem reserve_grows {s0 : State} (s : State) (id : Nat) (n : Nat) (waits : Bool) (h : Grows s0 s) :
    Grows s0 (State.reserve s id n waits) := by
  unfold State.reserve
  try dsimp only
  repeat' first
    | with_reducible assumption
    | with_reducible apply ringDrop_grows
    | with_reducible apply ringStarve_grows
    | fail_if_no_progress with_reducible apply Grows.mk'
    | with_reducible refine Grows.ite ?_ ?_
    | split
    | dsimp only

/-! ## Journal -/

theorem evictItems_grows {s0 : State} (s : State) (ring len n : Nat) (h : Grows s0 s) :
    Grows s0 (s.evictItems ring len n) := by
  induction n generalizing s with
  | zero => exact h
  | succ n ih =>
    unfold State.evictItems
    dsimp only
    repeat' first
      | intro _
      | with_reducible assumption
      | with_reducible exact Grows.refl _
      | with_reducible apply ih
      | with_reducible apply take_grows
      | with_reducible refine Grows.forL _ ?_ ?_
      | with_reducible refine Grows.forN _ ?_ ?_
      | with_reducible refine Grows.foldl _ ?_ ?_
      | with_reducible refine Grows.foldlP _ ?_ ?_
      | fail_if_no_progress with_reducible apply Grows.mk'
      | with_reducible refine Grows.ite ?_ ?_
      | with_reducible refine Grows.iteP ?_ ?_
      | split
      | with_reducible refine Grows.fst (by assumption) ?_
      | dsimp only
      | omega

theorem repWrite_grows {s0 : State} (s : State) (ring : Nat) (item : List Byte) (kind : Nat) (unit : Nat) (course : Nat) (h : Grows s0 s) :
    Grows s0 (State.repWrite s ring item kind unit course).1 := by
  unfold State.repWrite
  try dsimp only
  repeat' first
    | with_reducible assumption
    | with_reducible apply evictItems_grows
    | with_reducible apply ringWrite_grows
    | fail_if_no_progress with_reducible apply Grows.mk'
    | with_reducible refine Grows.ite ?_ ?_
    | with_reducible refine Grows.iteP ?_ ?_
    | split
    | dsimp only

theorem jrnFlush_grows {s0 : State} (s : State) (h : Grows s0 s) : Grows s0 (State.jrnFlush s) := by
  unfold State.jrnFlush
  try dsimp only
  repeat' first
    | with_reducible assumption
    | with_reducible apply repWrite_grows
    | fail_if_no_progress with_reducible apply Grows.mk'
    | with_reducible refine Grows.ite ?_ ?_
    | with_reducible refine Grows.iteP ?_ ?_
    | split
    | dsimp only

theorem jrnPut_grows {s0 : State} (s : State) (cont : Bool) (r : List Byte) (h : Grows s0 s) :
    Grows s0 (State.jrnPut s cont r) := by
  unfold State.jrnPut
  try dsimp only
  repeat' first
    | with_reducible assumption
    | with_reducible apply incF_grows
    | with_reducible apply jrnFlush_grows
    | fail_if_no_progress with_reducible apply Grows.mk'
    | with_reducible refine Grows.ite ?_ ?_
    | split
    | dsimp only

theorem jrn_grows {s0 : State} (s : State) (ty : Nat) (grp : Nat) (cls : Nat) (src : Nat) (lag : Int) (stamp : Int) (data : List Byte) (h : Grows s0 s) :
    Grows s0 (State.jrn s ty grp cls src lag stamp data) := by
  unfold State.jrn
  try dsimp only
  repeat' first
    | intro _
    | with_reducible assumption
    | with_reducible apply jrnPut_grows
    | with_reducible refine Grows.forL _ ?_ ?_
    | with_reducible refine Grows.ite ?_ ?_
    | split
    | dsimp only

theorem capGap_grows {s0 : State} (s : State) (g : Nat) (ch : Nat) (course : Nat) (h : Grows s0 s) :
    Grows s0 (State.capGap s g ch course) := by
  unfold State.capGap
  try dsimp only
  repeat' first
    | with_reducible assumption
    | with_reducible apply jrn_grows
    | with_reducible apply logReg_grows
    | with_reducible apply mark_grows
    | with_reducible apply repWrite_grows
    | with_reducible apply satF_grows
    | with_reducible refine Grows.iteP ?_ ?_
    | dsimp only

theorem capItem_grows {s0 : State} (s : State) (g : Nat) (ch : Nat) (course : Nat) (upper : Bool) (image : Option (List Byte)) (h : Grows s0 s) :
    Grows s0 (State.capItem s g ch course upper image) := by
  unfold State.capItem
  try dsimp only
  repeat' first
    | with_reducible assumption
    | with_reducible apply capGap_grows
    | with_reducible apply hkCount_grows
    | with_reducible apply repWrite_grows
    | fail_if_no_progress with_reducible apply Grows.mk'
    | with_reducible refine Grows.ite ?_ ?_
    | with_reducible refine Grows.iteP ?_ ?_
    | split
    | dsimp only

/-! ## Csw -/

theorem setCsw_grows {s0 : State} (s : State) (c : Csw) (h : Grows s0 s) : Grows s0 (State.setCsw s c) := by
  unfold State.setCsw
  try dsimp only
  repeat' first
    | intro _
    | with_reducible assumption
    | fail_if_no_progress with_reducible apply Grows.mk'
    | dsimp only

theorem cswSet_grows {s0 : State} (s : State) (g : Nat) (k : Nat) (b : Nat) (h : Grows s0 s) :
    Grows s0 (State.cswSet s g k b) := by
  unfold State.cswSet
  try dsimp only
  repeat' first
    | with_reducible assumption
    | with_reducible apply setCsw_grows
    | fail_if_no_progress with_reducible apply Grows.mk'
    | dsimp only

theorem cswMiss_grows {s0 : State} (s : State) (g : Nat) (k : Nat) (h : Grows s0 s) :
    Grows s0 (State.cswMiss s g k) := by
  unfold State.cswMiss
  try dsimp only
  repeat' first
    | with_reducible assumption
    | with_reducible apply setCsw_grows
    | fail_if_no_progress with_reducible apply Grows.mk'
    | dsimp only

theorem cswFinish_grows {s0 : State} (s : State) (g : Nat) (k : Nat) (h : Grows s0 s) :
    Grows s0 (State.cswFinish s g k) := by
  unfold State.cswFinish
  try dsimp only
  repeat' first
    | intro _
    | with_reducible assumption
    | with_reducible apply ringPush_grows
    | with_reducible apply setF_grows
    | fail_if_no_progress with_reducible apply Grows.mk'
    | with_reducible refine Grows.ite ?_ ?_
    | with_reducible refine Grows.iteP ?_ ?_
    | split
    | dsimp only

end Sys2Proof.Machine
end

