-- ==== Sys2Proof/Laws/GrowsPanel.lean ====
section
/-!
SUPPORT. What every operation keeps (Laws/Grows.lean), shown of the panel, marking, the aux chain, the flash and DMA: one lemma per
operation of the model, named after it.
-/

set_option linter.unusedTactic false
set_option linter.unreachableTactic false
set_option maxRecDepth 4000

namespace Sys2Proof.Machine

/-! ## Panel -/

theorem pnlEvent_grows {s0 : State} (s : State) (kind : Nat) (index : Nat) (code : Nat) (touch : List Byte) (h : Grows s0 s) :
    Grows s0 (State.pnlEvent s kind index code touch) := by
  unfold State.pnlEvent
  try dsimp only
  repeat' first
    | with_reducible assumption
    | fail_if_no_progress with_reducible apply Grows.mk'
    | with_reducible refine Grows.ite ?_ ?_
    | split
    | dsimp only

theorem pnlFlush_grows {s0 : State} (s : State) (h : Grows s0 s) : Grows s0 (State.pnlFlush s) := by
  unfold State.pnlFlush
  try dsimp only
  repeat' first
    | intro _
    | with_reducible assumption
    | with_reducible apply ringPush_grows
    | with_reducible refine Grows.forL _ ?_ ?_
    | fail_if_no_progress with_reducible apply Grows.mk'
    | with_reducible refine Grows.iteP ?_ ?_
    | dsimp only

theorem setPnl_grows {s0 : State} (s : State) (p : Panel) (h : Grows s0 s) : Grows s0 (State.setPnl s p) := by
  unfold State.setPnl
  try dsimp only
  repeat' first
    | with_reducible assumption
    | fail_if_no_progress with_reducible apply Grows.mk'
    | dsimp only

theorem pnlNext_grows {s0 : State} (s : State) (h : Grows s0 s) : Grows s0 (State.pnlNext s) := by
  unfold State.pnlNext
  try dsimp only
  repeat' first
    | with_reducible assumption
    | with_reducible apply emit_grows
    | with_reducible apply setPnl_grows
    | fail_if_no_progress with_reducible apply Grows.mk'
    | with_reducible refine Grows.ite ?_ ?_
    | split
    | dsimp only

theorem execTouchRead_grows (s : State) : GrowsO s (execTouchRead s) := by
  unfold execTouchRead
  try dsimp only
  try refine GrowsO.next ?_
  repeat' first
    | refine GrowsO.next ?_
    | with_reducible assumption
    | with_reducible exact Grows.refl _
    | with_reducible apply pnlNext_grows
    | with_reducible apply setPnl_grows
    | fail_if_no_progress with_reducible apply Grows.mk'
    | with_reducible refine Grows.ite ?_ ?_
    | split
    | dsimp only

theorem execTouchReadDone_grows (ack : Bool) (bytes : List Byte) (s : State) :
    GrowsO s (execTouchReadDone ack bytes s) := by
  unfold execTouchReadDone
  try dsimp only
  try refine GrowsO.next ?_
  repeat' first
    | refine GrowsO.next ?_
    | with_reducible assumption
    | with_reducible exact Grows.refl _
    | with_reducible apply pnlEvent_grows
    | with_reducible apply pnlNext_grows
    | with_reducible apply satF_grows
    | with_reducible apply setPnl_grows
    | fail_if_no_progress with_reducible apply Grows.mk'
    | with_reducible refine Grows.ite ?_ ?_
    | split
    | dsimp only

theorem i2cStart_grows {s0 : State} (s : State) (addr : Nat) (wlen : Nat) (rlen : Nat) (h : Grows s0 s) :
    Grows s0 (State.i2cStart s addr wlen rlen) := by
  unfold State.i2cStart
  try dsimp only
  repeat' first
    | with_reducible assumption
    | with_reducible apply pnlNext_grows
    | with_reducible apply setF_grows
    | with_reducible apply setPnl_grows
    | fail_if_no_progress with_reducible apply Grows.mk'
    | dsimp only

theorem execI2cCmd_grows (addr : BitVec 7) (wlen : BitVec 6) (rlen : BitVec 6) (s : State) :
    GrowsO s (execI2cCmd addr wlen rlen s) := by
  unfold execI2cCmd
  try dsimp only
  try refine GrowsO.next ?_
  repeat' first
    | refine GrowsO.next ?_
    | with_reducible assumption
    | with_reducible exact Grows.refl _
    | with_reducible apply i2cStart_grows
    | with_reducible refine Grows.ite ?_ ?_
    | split
    | dsimp only

theorem i2cPut_grows {s0 : State} (s : State) (bs : List Byte) (h : Grows s0 s) : Grows s0 (State.i2cPut s bs) := by
  unfold State.i2cPut
  try dsimp only
  repeat' first
    | intro _
    | with_reducible assumption
    | with_reducible apply setF_grows
    | with_reducible refine Grows.forN _ ?_ ?_
    | dsimp only

theorem execI2cDone_grows (ack : Bool) (bytes : List Byte) (s : State) : GrowsO s (execI2cDone ack bytes s) := by
  unfold execI2cDone
  try dsimp only
  try refine GrowsO.next ?_
  repeat' first
    | refine GrowsO.next ?_
    | with_reducible assumption
    | with_reducible exact Grows.refl _
    | with_reducible apply i2cPut_grows
    | with_reducible apply mark_grows
    | with_reducible apply pnlNext_grows
    | with_reducible apply setF_grows
    | with_reducible apply setPnl_grows
    | fail_if_no_progress with_reducible apply Grows.mk'
    | with_reducible refine Grows.ite ?_ ?_
    | split
    | dsimp only

theorem keyOne_grows {s0 : State} (s : State) (k : Nat) (high : Bool) (h : Grows s0 s) :
    Grows s0 (State.keyOne s k high) := by
  unfold State.keyOne
  try dsimp only
  repeat' first
    | with_reducible assumption
    | with_reducible apply fire_grows
    | with_reducible apply pnlEvent_grows
    | with_reducible apply setF_grows
    | with_reducible apply setPnl_grows
    | fail_if_no_progress with_reducible apply Grows.mk'
    | with_reducible refine Grows.ite ?_ ?_
    | split
    | dsimp only

theorem execKeySample_grows (levels : BitVec 16) (s : State) : GrowsO s (execKeySample levels s) := by
  unfold execKeySample
  try dsimp only
  try refine GrowsO.next ?_
  repeat' first
    | refine GrowsO.next ?_
    | intro _
    | with_reducible assumption
    | with_reducible exact Grows.refl _
    | with_reducible apply keyOne_grows
    | with_reducible refine Grows.forN _ ?_ ?_
    | with_reducible refine Grows.ite ?_ ?_
    | split
    | dsimp only

theorem ledDrive_grows {s0 : State} (s : State) (k : Nat) (h : Grows s0 s) : Grows s0 (State.ledDrive s k) := by
  unfold State.ledDrive
  try dsimp only
  repeat' first
    | with_reducible assumption
    | with_reducible apply emit_grows
    | with_reducible refine Grows.ite ?_ ?_
    | split
    | dsimp only

theorem execLedBlinkToggle_grows (fast : Bool) (s : State) : GrowsO s (execLedBlinkToggle fast s) := by
  unfold execLedBlinkToggle
  try dsimp only
  try refine GrowsO.next ?_
  repeat' first
    | refine GrowsO.next ?_
    | intro _
    | with_reducible assumption
    | with_reducible exact Grows.refl _
    | with_reducible apply ledDrive_grows
    | with_reducible apply setPnl_grows
    | with_reducible refine Grows.forN _ ?_ ?_
    | fail_if_no_progress with_reducible apply Grows.mk'
    | with_reducible refine Grows.ite ?_ ?_
    | split
    | dsimp only

theorem buzSound_grows {s0 : State} (s : State) (h : Grows s0 s) : Grows s0 (State.buzSound s) := by
  unfold State.buzSound
  try dsimp only
  repeat' first
    | with_reducible assumption
    | with_reducible apply emit_grows
    | dsimp only

theorem buzStart_grows {s0 : State} (s : State) (h : Grows s0 s) : Grows s0 (State.buzStart s) := by
  unfold State.buzStart
  try dsimp only
  repeat' first
    | with_reducible assumption
    | with_reducible apply buzSound_grows
    | with_reducible apply setPnl_grows
    | fail_if_no_progress with_reducible apply Grows.mk'
    | dsimp only

theorem buzStop_grows {s0 : State} (s : State) (h : Grows s0 s) : Grows s0 (State.buzStop s) := by
  unfold State.buzStop
  try dsimp only
  repeat' first
    | with_reducible assumption
    | with_reducible apply emit_grows
    | with_reducible apply setPnl_grows
    | fail_if_no_progress with_reducible apply Grows.mk'
    | with_reducible refine Grows.ite ?_ ?_
    | split
    | dsimp only

theorem execBuzStart_grows (s : State) : GrowsO s (execBuzStart s) := by
  unfold execBuzStart
  try dsimp only
  try refine GrowsO.next ?_
  repeat' first
    | refine GrowsO.next ?_
    | with_reducible assumption
    | with_reducible exact Grows.refl _
    | with_reducible apply buzStart_grows
    | with_reducible refine Grows.ite ?_ ?_
    | split
    | dsimp only

theorem execBuzStop_grows (s : State) : GrowsO s (execBuzStop s) := by
  unfold execBuzStop
  try dsimp only
  try refine GrowsO.next ?_
  repeat' first
    | refine GrowsO.next ?_
    | with_reducible assumption
    | with_reducible exact Grows.refl _
    | with_reducible apply buzStop_grows
    | with_reducible refine Grows.ite ?_ ?_
    | split
    | dsimp only

theorem execBuzPhaseEnd_grows (s : State) : GrowsO s (execBuzPhaseEnd s) := by
  unfold execBuzPhaseEnd
  try dsimp only
  try refine GrowsO.next ?_
  repeat' first
    | refine GrowsO.next ?_
    | with_reducible assumption
    | with_reducible exact Grows.refl _
    | with_reducible apply buzSound_grows
    | with_reducible apply emit_grows
    | with_reducible apply setPnl_grows
    | fail_if_no_progress with_reducible apply Grows.mk'
    | with_reducible refine Grows.ite ?_ ?_
    | split
    | dsimp only

theorem pnlAck_grows {s0 : State} (s : State) (h : Grows s0 s) : Grows s0 (State.pnlAck s) := by
  unfold State.pnlAck
  try dsimp only
  repeat' first
    | intro _
    | with_reducible assumption
    | with_reducible apply buzStop_grows
    | with_reducible apply ledDrive_grows
    | with_reducible apply setF_grows
    | with_reducible refine Grows.forN _ ?_ ?_
    | with_reducible refine Grows.ite ?_ ?_
    | split
    | dsimp only

theorem dpDown_grows {s0 : State} (s : State) (h : Grows s0 s) : Grows s0 (State.dpDown s) := by
  unfold State.dpDown
  try dsimp only
  repeat' first
    | with_reducible assumption
    | with_reducible apply emit_grows
    | with_reducible apply setF_grows
    | with_reducible refine Grows.ite ?_ ?_
    | split
    | dsimp only

theorem dpTrain_grows {s0 : State} (s : State) (h : Grows s0 s) : Grows s0 (State.dpTrain s) := by
  unfold State.dpTrain
  try dsimp only
  repeat' first
    | intro _
    | with_reducible assumption
    | with_reducible apply dpDown_grows
    | with_reducible apply emit_grows
    | with_reducible apply mark_grows
    | with_reducible apply pnlEvent_grows
    | with_reducible apply setF_grows
    | fail_if_no_progress with_reducible apply Grows.mk'
    | with_reducible refine Grows.ite ?_ ?_
    | with_reducible refine Grows.iteP ?_ ?_
    | split
    | dsimp only

theorem execHpdPlug_grows (maxRate : Fin 5) (maxLanes : Fin 5) (edid : List Byte) (trains : List (Fin 5 × Fin 5)) (s : State) :
    GrowsO s (execHpdPlug maxRate maxLanes edid trains s) := by
  unfold execHpdPlug
  try dsimp only
  try refine GrowsO.next ?_
  repeat' first
    | refine GrowsO.next ?_
    | with_reducible assumption
    | with_reducible exact Grows.refl _
    | with_reducible apply dpTrain_grows
    | with_reducible apply pnlEvent_grows
    | with_reducible apply raise_grows
    | with_reducible apply setF_grows
    | fail_if_no_progress with_reducible apply Grows.mk'
    | with_reducible refine Grows.ite ?_ ?_
    | split
    | dsimp only

theorem execHpdUnplug_grows (s : State) : GrowsO s (execHpdUnplug s) := by
  unfold execHpdUnplug
  try dsimp only
  try refine GrowsO.next ?_
  repeat' first
    | refine GrowsO.next ?_
    | with_reducible assumption
    | with_reducible exact Grows.refl _
    | with_reducible apply dpDown_grows
    | with_reducible apply pnlEvent_grows
    | with_reducible apply raise_grows
    | with_reducible apply setF_grows
    | fail_if_no_progress with_reducible apply Grows.mk'
    | with_reducible refine Grows.ite ?_ ?_
    | split
    | dsimp only

theorem execIrqHpd_grows (linkLost : Bool) (trains : List (Fin 5 × Fin 5)) (s : State) :
    GrowsO s (execIrqHpd linkLost trains s) := by
  unfold execIrqHpd
  try dsimp only
  try refine GrowsO.next ?_
  repeat' first
    | refine GrowsO.next ?_
    | intro _
    | with_reducible assumption
    | with_reducible exact Grows.refl _
    | with_reducible apply dpTrain_grows
    | fail_if_no_progress with_reducible apply Grows.mk'
    | with_reducible refine Grows.ite ?_ ?_
    | with_reducible refine Grows.iteP ?_ ?_
    | split
    | dsimp only

/-! ## Marking -/

theorem markEmit_grows {s0 : State} (s : State) (o : Out) (h : Grows s0 s) : Grows s0 (State.markEmit s o) := by
  unfold State.markEmit
  try dsimp only
  repeat' first
    | with_reducible assumption
    | with_reducible apply emit_grows
    | with_reducible refine Grows.ite ?_ ?_
    | split
    | dsimp only

theorem setC_grows {s0 : State} (s : State) (u : Nat) (c : Cmp) (h : Grows s0 s) : Grows s0 (State.setC s u c) := by
  unfold State.setC
  try dsimp only
  repeat' first
    | with_reducible assumption
    | with_reducible apply setF_grows
    | with_reducible apply setI_grows
    | fail_if_no_progress with_reducible apply Grows.mk'
    | with_reducible refine Grows.iteP ?_ ?_
    | dsimp only

theorem flog_grows {s0 : State} (s : State) (u : Nat) (e : Int × Nat) (flags : Nat) (h : Grows s0 s) :
    Grows s0 (State.flog s u e flags) := by
  unfold State.flog
  try dsimp only
  repeat' first
    | with_reducible assumption
    | with_reducible apply ringPush_grows
    | with_reducible apply satF_grows
    | with_reducible refine Grows.ite ?_ ?_
    | with_reducible refine Grows.iteP ?_ ?_
    | split
    | dsimp only

theorem autoJob_grows {s0 : State} (s : State) (id : Nat) (h : Grows s0 s) : Grows s0 (State.autoJob s id) := by
  unfold State.autoJob
  try dsimp only
  repeat' first
    | with_reducible assumption
    | with_reducible apply satF_grows
    | fail_if_no_progress with_reducible apply Grows.mk'
    | with_reducible refine Grows.ite ?_ ?_
    | split
    | dsimp only

theorem cmpPin_grows {s0 : State} (s : State) (u : Nat) (active : Bool) (h : Grows s0 s) :
    Grows s0 (State.cmpPin s u active) := by
  unfold State.cmpPin
  try dsimp only
  repeat' first
    | with_reducible assumption
    | with_reducible apply markEmit_grows
    | with_reducible apply setF_grows
    | with_reducible refine Grows.ite ?_ ?_
    | split
    | dsimp only

theorem cmpFireOne_grows {s0 : State} (s : State) (u : Nat) (extra : Bool) (e : Int × Nat) (h : Grows s0 s) :
    Grows s0 (State.cmpFireOne s u extra e) := by
  unfold State.cmpFireOne
  try dsimp only
  repeat' first
    | with_reducible assumption
    | with_reducible apply autoJob_grows
    | with_reducible apply cmpPin_grows
    | with_reducible apply flog_grows
    | with_reducible apply raise_grows
    | with_reducible apply satF_grows
    | with_reducible apply setC_grows
    | fail_if_no_progress with_reducible apply Grows.mk'
    | with_reducible refine Grows.ite ?_ ?_
    | split
    | dsimp only

theorem cmpFireAll_grows {s0 : State} (s : State) (u : Nat) (x2 : List (Int × Nat)) (h : Grows s0 s) :
    Grows s0 (State.cmpFireAll s u x2) := by
  unfold State.cmpFireAll
  try dsimp only
  repeat' first
    | intro _
    | with_reducible assumption
    | with_reducible exact Grows.refl _
    | with_reducible apply cmpFireOne_grows
    | with_reducible refine Grows.forL _ ?_ ?_
    | with_reducible refine Grows.forN _ ?_ ?_
    | with_reducible refine Grows.foldl _ ?_ ?_
    | with_reducible refine Grows.foldlP _ ?_ ?_
    | fail_if_no_progress with_reducible apply Grows.mk'
    | with_reducible refine Grows.ite ?_ ?_
    | with_reducible refine Grows.iteP ?_ ?_
    | split
    | with_reducible refine Grows.fst (by assumption) ?_
    | dsimp only
    | omega

theorem cmpScan_grows {s0 : State} (s : State) (u : Nat) (h : Grows s0 s) : Grows s0 (State.cmpScan s u) := by
  unfold State.cmpScan
  try dsimp only
  repeat' first
    | intro _
    | with_reducible assumption
    | with_reducible apply cmpFireAll_grows
    | with_reducible apply setC_grows
    | fail_if_no_progress with_reducible apply Grows.mk'
    | with_reducible refine Grows.ite ?_ ?_
    | with_reducible refine Grows.iteP ?_ ?_
    | split
    | dsimp only

theorem cmpFollow_grows {s0 : State} (s : State) (u : Nat) (h : Grows s0 s) : Grows s0 (State.cmpFollow s u) := by
  unfold State.cmpFollow
  try dsimp only
  repeat' first
    | with_reducible assumption
    | with_reducible apply cmpScan_grows
    | with_reducible apply setI_grows
    | with_reducible refine Grows.ite ?_ ?_
    | split
    | dsimp only

theorem cmpMove_grows {s0 : State} (s : State) (p : Nat) (h : Grows s0 s) : Grows s0 (State.cmpMove s p) := by
  unfold State.cmpMove
  try dsimp only
  repeat' first
    | intro _
    | with_reducible assumption
    | with_reducible apply cmpFollow_grows
    | with_reducible refine Grows.forL _ ?_ ?_
    | dsimp only

theorem leadCnt_grows {s0 : State} (s : State) (u : Nat) (h : Grows s0 s) : Grows s0 (State.leadCnt s u) := by
  unfold State.leadCnt
  try dsimp only
  repeat' first
    | with_reducible assumption
    | with_reducible apply setF_grows
    | dsimp only

theorem cmpSpeed_grows {s0 : State} (s : State) (p : Nat) (h : Grows s0 s) : Grows s0 (State.cmpSpeed s p) := by
  unfold State.cmpSpeed
  try dsimp only
  repeat' first
    | intro _
    | with_reducible assumption
    | with_reducible apply cmpFollow_grows
    | with_reducible apply leadCnt_grows
    | with_reducible refine Grows.forL _ ?_ ?_
    | dsimp only

theorem cmpRezero_grows {s0 : State} (s : State) (p : Nat) (d : Int) (h : Grows s0 s) :
    Grows s0 (State.cmpRezero s p d) := by
  unfold State.cmpRezero
  try dsimp only
  repeat' first
    | intro _
    | with_reducible assumption
    | with_reducible apply setC_grows
    | with_reducible apply setI_grows
    | with_reducible refine Grows.forL _ ?_ ?_
    | fail_if_no_progress with_reducible apply Grows.mk'
    | with_reducible refine Grows.iteP ?_ ?_
    | dsimp only

theorem cmpInsert_grows {s0 : State} (s : State) (u : Nat) (e : Int × Nat) (h : Grows s0 s) :
    Grows s0 (State.cmpInsert s u e) := by
  unfold State.cmpInsert
  try dsimp only
  repeat' first
    | with_reducible assumption
    | with_reducible apply flog_grows
    | with_reducible apply raise_grows
    | with_reducible apply satF_grows
    | with_reducible apply setC_grows
    | fail_if_no_progress with_reducible apply Grows.mk'
    | with_reducible refine Grows.ite ?_ ?_
    | with_reducible refine Grows.iteP ?_ ?_
    | split
    | dsimp only

theorem cmpClear_grows {s0 : State} (s : State) (u : Nat) (h : Grows s0 s) : Grows s0 (State.cmpClear s u) := by
  unfold State.cmpClear
  try dsimp only
  repeat' first
    | with_reducible assumption
    | with_reducible apply setC_grows
    | fail_if_no_progress with_reducible apply Grows.mk'
    | dsimp only

theorem cmpStart_grows {s0 : State} (s : State) (u : Nat) (h : Grows s0 s) : Grows s0 (State.cmpStart s u) := by
  unfold State.cmpStart
  try dsimp only
  repeat' first
    | with_reducible assumption
    | with_reducible apply bind_grows
    | with_reducible apply cmpFollow_grows
    | with_reducible apply leadCnt_grows
    | with_reducible apply setF_grows
    | with_reducible apply setI_grows
    | with_reducible apply subBlock_grows
    | with_reducible refine Grows.ite ?_ ?_
    | split
    | dsimp only

theorem cmpStop_grows {s0 : State} (s : State) (u : Nat) (h : Grows s0 s) : Grows s0 (State.cmpStop s u) := by
  unfold State.cmpStop
  try dsimp only
  repeat' first
    | with_reducible assumption
    | with_reducible apply setF_grows
    | with_reducible apply unbind_grows
    | with_reducible apply unsubBlock_grows
    | dsimp only

theorem execCmpEnable_grows (u : Fin 16) (s : State) : GrowsO s (execCmpEnable u s) := by
  unfold execCmpEnable
  try dsimp only
  try refine GrowsO.next ?_
  repeat' first
    | refine GrowsO.next ?_
    | with_reducible assumption
    | with_reducible exact Grows.refl _
    | with_reducible apply cmpStart_grows
    | with_reducible refine Grows.ite ?_ ?_
    | split
    | dsimp only

theorem strobeCut_grows {s0 : State} (s : State) (h : Grows s0 s) : Grows s0 (State.strobeCut s) := by
  unfold State.strobeCut
  try dsimp only
  repeat' first
    | with_reducible assumption
    | with_reducible apply emit_grows
    | with_reducible refine Grows.ite ?_ ?_
    | split
    | dsimp only

theorem markQuiet_grows {s0 : State} (s : State) (h : Grows s0 s) : Grows s0 (State.markQuiet s) := by
  unfold State.markQuiet
  try dsimp only
  repeat' first
    | intro _
    | with_reducible assumption
    | with_reducible apply cmpPin_grows
    | with_reducible apply setC_grows
    | with_reducible apply strobeCut_grows
    | with_reducible refine Grows.forL _ ?_ ?_
    | fail_if_no_progress with_reducible apply Grows.mk'
    | with_reducible refine Grows.ite ?_ ?_
    | split
    | dsimp only

theorem execCmpLateFire_grows (u : Fin 16) (s : State) : GrowsO s (execCmpLateFire u s) := by
  unfold execCmpLateFire
  try dsimp only
  try refine GrowsO.next ?_
  repeat' first
    | refine GrowsO.next ?_
    | with_reducible assumption
    | with_reducible exact Grows.refl _
    | with_reducible apply cmpFireAll_grows
    | with_reducible apply setC_grows
    | fail_if_no_progress with_reducible apply Grows.mk'
    | with_reducible refine Grows.ite ?_ ?_
    | split
    | dsimp only

theorem execCmpPulseEnd_grows (u : Fin 16) (s : State) : GrowsO s (execCmpPulseEnd u s) := by
  unfold execCmpPulseEnd
  try dsimp only
  try refine GrowsO.next ?_
  repeat' first
    | refine GrowsO.next ?_
    | with_reducible assumption
    | with_reducible exact Grows.refl _
    | with_reducible apply cmpPin_grows
    | with_reducible apply setC_grows
    | fail_if_no_progress with_reducible apply Grows.mk'
    | with_reducible refine Grows.ite ?_ ?_
    | split
    | dsimp only

theorem execCmpFillRecord_grows (u : Fin 16) (s : State) : GrowsO s (execCmpFillRecord u s) := by
  unfold execCmpFillRecord
  try dsimp only
  try refine GrowsO.next ?_
  repeat' first
    | refine GrowsO.next ?_
    | with_reducible assumption
    | with_reducible exact Grows.refl _
    | with_reducible apply cmpInsert_grows
    | with_reducible apply readEntry_grows
    | with_reducible apply take_grows
    | fail_if_no_progress with_reducible apply Grows.mk'
    | with_reducible refine Grows.ite ?_ ?_
    | split
    | with_reducible refine Grows.fst (by assumption) ?_
    | dsimp only

theorem execListInsert_grows (u : Fin 16) (s : State) : GrowsO s (execListInsert u s) := by
  unfold execListInsert
  try dsimp only
  try refine GrowsO.next ?_
  repeat' first
    | refine GrowsO.next ?_
    | with_reducible assumption
    | with_reducible exact Grows.refl _
    | with_reducible apply cmpInsert_grows
    | fail_if_no_progress with_reducible apply Grows.mk'
    | dsimp only

theorem execListClear_grows (u : Fin 16) (s : State) : GrowsO s (execListClear u s) := by
  unfold execListClear
  try dsimp only
  try refine GrowsO.next ?_
  repeat' first
    | refine GrowsO.next ?_
    | with_reducible assumption
    | with_reducible exact Grows.refl _
    | with_reducible apply cmpClear_grows
    | fail_if_no_progress with_reducible apply Grows.mk'
    | dsimp only

theorem markHold_grows {s0 : State} (s : State) (on : Bool) (h : Grows s0 s) : Grows s0 (State.markHold s on) := by
  unfold State.markHold
  try dsimp only
  repeat' first
    | with_reducible assumption
    | with_reducible apply setF_grows
    | with_reducible refine Grows.ite ?_ ?_
    | split
    | dsimp only

theorem execMarkHoldCtrlWrite_grows (hold : Bool) (s : State) : GrowsO s (execMarkHoldCtrlWrite hold s) := by
  unfold execMarkHoldCtrlWrite
  try dsimp only
  try refine GrowsO.next ?_
  repeat' first
    | refine GrowsO.next ?_
    | with_reducible assumption
    | with_reducible exact Grows.refl _
    | with_reducible apply markHold_grows
    | dsimp only

theorem freshNonce_grows {s0 : State} (s : State) (h : Grows s0 s) : Grows s0 (State.freshNonce s).1 := by
  unfold State.freshNonce
  try dsimp only
  repeat' first
    | with_reducible assumption
    | with_reducible apply tickFree_grows
    | with_reducible refine Grows.iteP ?_ ?_
    | dsimp only

theorem cassSend_grows {s0 : State} (s : State) (h : Grows s0 s) : Grows s0 (State.cassSend s) := by
  unfold State.cassSend
  try dsimp only
  repeat' first
    | intro _
    | with_reducible assumption
    | with_reducible apply markEmit_grows
    | with_reducible refine Grows.iteP ?_ ?_
    | dsimp only

theorem cassStart_grows {s0 : State} (s : State) (cmd : Nat) (nonce : List Byte) (h : Grows s0 s) :
    Grows s0 (State.cassStart s cmd nonce) := by
  unfold State.cassStart
  try dsimp only
  repeat' first
    | intro _
    | with_reducible assumption
    | with_reducible apply cassSend_grows
    | fail_if_no_progress with_reducible apply Grows.mk'
    | with_reducible refine Grows.iteP ?_ ?_
    | dsimp only

theorem authenticate_grows {s0 : State} (s : State) (h : Grows s0 s) : Grows s0 (State.authenticate s) := by
  unfold State.authenticate
  try dsimp only
  repeat' first
    | with_reducible assumption
    | with_reducible apply cassStart_grows
    | fail_if_no_progress with_reducible apply Grows.mk'
    | with_reducible refine Grows.ite ?_ ?_
    | split
    | dsimp only

theorem cassEnd_grows {s0 : State} (s : State) (h : Grows s0 s) : Grows s0 (State.cassEnd s) := by
  unfold State.cassEnd
  try dsimp only
  repeat' first
    | with_reducible assumption
    | with_reducible apply authenticate_grows
    | fail_if_no_progress with_reducible apply Grows.mk'
    | with_reducible refine Grows.ite ?_ ?_
    | split
    | dsimp only

theorem cassFail_grows {s0 : State} (s : State) (h : Grows s0 s) : Grows s0 (State.cassFail s) := by
  unfold State.cassFail
  try dsimp only
  repeat' first
    | intro _
    | with_reducible assumption
    | with_reducible apply cassEnd_grows
    | with_reducible apply finishOp_grows
    | with_reducible apply logReg_grows
    | with_reducible apply pnlEvent_grows
    | with_reducible apply raise_grows
    | with_reducible apply setF_grows
    | fail_if_no_progress with_reducible apply Grows.mk'
    | with_reducible refine Grows.ite ?_ ?_
    | split
    | dsimp only

theorem setTag_grows {s0 : State} (s : State) (t : Tag) (h : Grows s0 s) : Grows s0 (State.setTag s t) := by
  unfold State.setTag
  try dsimp only
  repeat' first
    | with_reducible assumption
    | fail_if_no_progress with_reducible apply Grows.mk'
    | dsimp only

theorem tagPhase_grows {s0 : State} (s : State) (p : TagPhase) (h : Grows s0 s) : Grows s0 (State.tagPhase s p) := by
  unfold State.tagPhase
  try dsimp only
  repeat' first
    | with_reducible assumption
    | fail_if_no_progress with_reducible apply Grows.mk'
    | dsimp only

theorem tagFeed_grows {s0 : State} (s : State) (h : Grows s0 s) : Grows s0 (State.tagFeed s) := by
  unfold State.tagFeed
  try dsimp only
  repeat' first
    | with_reducible assumption
    | with_reducible apply markEmit_grows
    | with_reducible apply tagPhase_grows
    | with_reducible refine Grows.ite ?_ ?_
    | split
    | dsimp only

theorem tagVoid_grows {s0 : State} (s : State) (status : Nat) (h : Grows s0 s) : Grows s0 (State.tagVoid s status) := by
  unfold State.tagVoid
  try dsimp only
  repeat' first
    | with_reducible assumption
    | with_reducible apply logReg_grows
    | with_reducible apply markEmit_grows
    | with_reducible apply raise_grows
    | with_reducible apply satF_grows
    | with_reducible apply setF_grows
    | with_reducible apply setTag_grows
    | with_reducible apply tagFeed_grows
    | fail_if_no_progress with_reducible apply Grows.mk'
    | with_reducible refine Grows.ite ?_ ?_
    | split
    | dsimp only

theorem tagCheck_grows {s0 : State} (s : State) (h : Grows s0 s) : Grows s0 (State.tagCheck s) := by
  unfold State.tagCheck
  try dsimp only
  repeat' first
    | with_reducible assumption
    | with_reducible apply tagFeed_grows
    | with_reducible apply tagVoid_grows
    | fail_if_no_progress with_reducible apply Grows.mk'
    | with_reducible refine Grows.ite ?_ ?_
    | split
    | dsimp only

theorem tagTemp_grows {s0 : State} (s : State) (y3 : Int) (h : Grows s0 s) : Grows s0 (State.tagTemp s y3) := by
  unfold State.tagTemp
  try dsimp only
  repeat' first
    | with_reducible assumption
    | with_reducible apply logReg_grows
    | with_reducible apply raise_grows
    | with_reducible apply satF_grows
    | with_reducible apply setF_grows
    | with_reducible apply tagCheck_grows
    | fail_if_no_progress with_reducible apply Grows.mk'
    | with_reducible refine Grows.ite ?_ ?_
    | split
    | dsimp only

theorem tagNoTemp_grows {s0 : State} (s : State) (h : Grows s0 s) : Grows s0 (State.tagNoTemp s) := by
  unfold State.tagNoTemp
  try dsimp only
  repeat' first
    | with_reducible assumption
    | with_reducible apply setF_grows
    | with_reducible apply tagCheck_grows
    | fail_if_no_progress with_reducible apply Grows.mk'
    | dsimp only

theorem thStart_grows {s0 : State} (s : State) (h : Grows s0 s) : Grows s0 (State.thStart s) := by
  unfold State.thStart
  try dsimp only
  repeat' first
    | with_reducible assumption
    | with_reducible apply authenticate_grows
    | with_reducible apply bind_grows
    | with_reducible apply setF_grows
    | with_reducible apply subBlock_grows
    | fail_if_no_progress with_reducible apply Grows.mk'
    | dsimp only

theorem thStop_grows {s0 : State} (s : State) (h : Grows s0 s) : Grows s0 (State.thStop s) := by
  unfold State.thStop
  try dsimp only
  repeat' first
    | with_reducible assumption
    | with_reducible apply markEmit_grows
    | with_reducible apply setF_grows
    | with_reducible apply unbind_grows
    | with_reducible apply unsubBlock_grows
    | fail_if_no_progress with_reducible apply Grows.mk'
    | with_reducible refine Grows.ite ?_ ?_
    | split
    | dsimp only

theorem execThEnable_grows (s : State) : GrowsO s (execThEnable s) := by
  unfold execThEnable
  try dsimp only
  try refine GrowsO.next ?_
  repeat' first
    | refine GrowsO.next ?_
    | with_reducible assumption
    | with_reducible exact Grows.refl _
    | with_reducible apply thStart_grows
    | with_reducible refine Grows.ite ?_ ?_
    | split
    | dsimp only

theorem execAuthReq_grows (s : State) : GrowsO s (execAuthReq s) := by
  unfold execAuthReq
  try dsimp only
  try refine GrowsO.next ?_
  repeat' first
    | refine GrowsO.next ?_
    | with_reducible assumption
    | with_reducible exact Grows.refl _
    | with_reducible apply authenticate_grows
    | with_reducible refine Grows.ite ?_ ?_
    | split
    | dsimp only

theorem nextJob_grows {s0 : State} (s : State) (h : Grows s0 s) : Grows s0 (State.nextJob s).1 := by
  unfold State.nextJob
  try dsimp only
  repeat' first
    | with_reducible assumption
    | with_reducible apply consIrq_grows
    | with_reducible apply readEntry_grows
    | with_reducible apply take_grows
    | fail_if_no_progress with_reducible apply Grows.mk'
    | with_reducible refine Grows.ite ?_ ?_
    | with_reducible refine Grows.iteP ?_ ?_
    | split
    | with_reducible refine Grows.fst (by assumption) ?_
    | dsimp only

theorem jobEnd_grows {s0 : State} (s : State) (status : Nat) (h : Grows s0 s) : Grows s0 (State.jobEnd s status) := by
  unfold State.jobEnd
  try dsimp only
  repeat' first
    | with_reducible assumption
    | fail_if_no_progress with_reducible apply Grows.mk'
    | dsimp only

theorem jobBegin_grows {s0 : State} (s : State) (h : Grows s0 s) : Grows s0 (State.jobBegin s) := by
  unfold State.jobBegin
  try dsimp only
  repeat' first
    | with_reducible assumption
    | with_reducible apply cassStart_grows
    | with_reducible apply freshNonce_grows
    | with_reducible apply jobEnd_grows
    | with_reducible apply raise_grows
    | with_reducible apply tagPhase_grows
    | fail_if_no_progress with_reducible apply Grows.mk'
    | with_reducible refine Grows.ite ?_ ?_
    | split
    | with_reducible refine Grows.fst (by assumption) ?_
    | dsimp only

theorem jobHead_grows {s0 : State} (s : State) (j : TagJob) (h : Grows s0 s) : Grows s0 (State.jobHead s j) := by
  unfold State.jobHead
  try dsimp only
  repeat' first
    | with_reducible assumption
    | with_reducible apply jobEnd_grows
    | with_reducible apply setTag_grows
    | with_reducible apply tagPhase_grows
    | fail_if_no_progress with_reducible apply Grows.mk'
    | with_reducible refine Grows.ite ?_ ?_
    | split
    | dsimp only

theorem execTagJobStart_grows (s : State) : GrowsO s (execTagJobStart s) := by
  unfold execTagJobStart
  try dsimp only
  try refine GrowsO.next ?_
  repeat' first
    | refine GrowsO.next ?_
    | intro _
    | with_reducible assumption
    | with_reducible exact Grows.refl _
    | with_reducible apply jobBegin_grows
    | with_reducible apply jobHead_grows
    | with_reducible apply nextJob_grows
    | with_reducible refine Grows.forL _ ?_ ?_
    | with_reducible refine Grows.forN _ ?_ ?_
    | with_reducible refine Grows.foldl _ ?_ ?_
    | with_reducible refine Grows.foldlP _ ?_ ?_
    | fail_if_no_progress with_reducible apply Grows.mk'
    | with_reducible refine Grows.ite ?_ ?_
    | with_reducible refine Grows.iteP ?_ ?_
    | split
    | with_reducible refine Grows.fst (by assumption) ?_
    | dsimp only
    | omega

theorem lineEnd_grows {s0 : State} (s : State) (h : Grows s0 s) : Grows s0 (State.lineEnd s) := by
  unfold State.lineEnd
  try dsimp only
  repeat' first
    | with_reducible assumption
    | with_reducible apply jobEnd_grows
    | with_reducible apply markEmit_grows
    | with_reducible apply setF_grows
    | with_reducible apply setTag_grows
    | fail_if_no_progress with_reducible apply Grows.mk'
    | with_reducible refine Grows.ite ?_ ?_
    | split
    | dsimp only

theorem nextPass_grows {s0 : State} (s : State) (h : Grows s0 s) : Grows s0 (State.nextPass s) := by
  unfold State.nextPass
  try dsimp only
  repeat' first
    | intro _
    | with_reducible assumption
    | with_reducible apply lineEnd_grows
    | with_reducible apply markEmit_grows
    | with_reducible refine Grows.forL _ ?_ ?_
    | fail_if_no_progress with_reducible apply Grows.mk'
    | split
    | dsimp only

theorem fetchRow_grows {s0 : State} (s : State) (n : Nat) (h : Grows s0 s) : Grows s0 (State.fetchRow s n) := by
  unfold State.fetchRow
  try dsimp only
  repeat' first
    | with_reducible assumption
    | with_reducible apply memRead_grows
    | with_reducible apply setF_grows
    | fail_if_no_progress with_reducible apply Grows.mk'
    | with_reducible refine Grows.iteP ?_ ?_
    | split
    | dsimp only

theorem fetchRows_grows {s0 : State} (s : State) (n : Nat) (h : Grows s0 s) : Grows s0 (State.fetchRows s n) := by
  unfold State.fetchRows
  try dsimp only
  repeat' first
    | intro _
    | with_reducible assumption
    | with_reducible apply fetchRow_grows
    | with_reducible refine Grows.forL _ ?_ ?_
    | with_reducible refine Grows.ite ?_ ?_
    | split
    | dsimp only

theorem lineBegin_grows {s0 : State} (s : State) (row : List Byte) (rest : List (List Byte)) (h : Grows s0 s) :
    Grows s0 (State.lineBegin s row rest) := by
  unfold State.lineBegin
  try dsimp only
  repeat' first
    | intro _
    | with_reducible assumption
    | with_reducible apply fetchRows_grows
    | with_reducible apply nextPass_grows
    | with_reducible apply setTag_grows
    | fail_if_no_progress with_reducible apply Grows.mk'
    | with_reducible refine Grows.ite ?_ ?_
    | split
    | dsimp only

theorem underrun_grows {s0 : State} (s : State) (h : Grows s0 s) : Grows s0 (State.underrun s) := by
  unfold State.underrun
  try dsimp only
  repeat' first
    | with_reducible assumption
    | with_reducible apply satF_grows
    | fail_if_no_progress with_reducible apply Grows.mk'
    | with_reducible refine Grows.ite ?_ ?_
    | split
    | dsimp only

theorem execTagLineStart_grows (arrived : Bool) (s : State) : GrowsO s (execTagLineStart arrived s) := by
  unfold execTagLineStart
  try dsimp only
  try refine GrowsO.next ?_
  repeat' first
    | refine GrowsO.next ?_
    | with_reducible assumption
    | with_reducible exact Grows.refl _
    | with_reducible apply fetchRows_grows
    | with_reducible apply lineBegin_grows
    | with_reducible apply underrun_grows
    | fail_if_no_progress with_reducible apply Grows.mk'
    | with_reducible refine Grows.ite ?_ ?_
    | split
    | dsimp only

theorem execTagStrobeEnd_grows (s : State) : GrowsO s (execTagStrobeEnd s) := by
  unfold execTagStrobeEnd
  try dsimp only
  try refine GrowsO.next ?_
  repeat' first
    | refine GrowsO.next ?_
    | with_reducible assumption
    | with_reducible exact Grows.refl _
    | with_reducible apply nextPass_grows
    | with_reducible refine Grows.ite ?_ ?_
    | split
    | dsimp only

theorem execTagUnderrunTimeout_grows (s : State) : GrowsO s (execTagUnderrunTimeout s) := by
  unfold execTagUnderrunTimeout
  try dsimp only
  try refine GrowsO.next ?_
  repeat' first
    | refine GrowsO.next ?_
    | with_reducible assumption
    | with_reducible exact Grows.refl _
    | with_reducible apply tagVoid_grows
    | with_reducible refine Grows.ite ?_ ?_
    | split
    | dsimp only

theorem execTagSensorEdge_grows (sensor : Fin 3) (level : Bool) (s : State) :
    GrowsO s (execTagSensorEdge sensor level s) := by
  unfold execTagSensorEdge
  try dsimp only
  try refine GrowsO.next ?_
  repeat' first
    | refine GrowsO.next ?_
    | with_reducible assumption
    | with_reducible exact Grows.refl _
    | with_reducible apply pnlEvent_grows
    | with_reducible apply setF_grows
    | with_reducible apply tagCheck_grows
    | fail_if_no_progress with_reducible apply Grows.mk'
    | with_reducible refine Grows.ite ?_ ?_
    | split
    | dsimp only

theorem execTagJobResult_grows (s : State) : GrowsO s (execTagJobResult s) := by
  unfold execTagJobResult
  try dsimp only
  try refine GrowsO.next ?_
  repeat' first
    | refine GrowsO.next ?_
    | with_reducible assumption
    | with_reducible exact Grows.refl _
    | with_reducible apply ringPush_grows
    | with_reducible apply tagPhase_grows
    | with_reducible refine Grows.ite ?_ ?_
    | with_reducible refine Grows.iteP ?_ ?_
    | split
    | dsimp only

theorem execCassOpenClearDelay_grows (s : State) : GrowsO s (execCassOpenClearDelay s) := by
  unfold execCassOpenClearDelay
  try dsimp only
  try refine GrowsO.next ?_
  repeat' first
    | refine GrowsO.next ?_
    | with_reducible assumption
    | with_reducible exact Grows.refl _
    | with_reducible apply authenticate_grows
    | fail_if_no_progress with_reducible apply Grows.mk'
    | with_reducible refine Grows.ite ?_ ?_
    | split
    | dsimp only

theorem execCassResponse_grows (bytes : List Byte) (s : State) : GrowsO s (execCassResponse bytes s) := by
  unfold execCassResponse
  try dsimp only
  try refine GrowsO.next ?_
  repeat' first
    | refine GrowsO.next ?_
    | intro _
    | with_reducible assumption
    | with_reducible exact Grows.refl _
    | with_reducible apply cassEnd_grows
    | with_reducible apply cassFail_grows
    | with_reducible apply cassStart_grows
    | with_reducible apply fetchRows_grows
    | with_reducible apply finishOp_grows
    | with_reducible apply freshNonce_grows
    | with_reducible apply pnlEvent_grows
    | with_reducible apply setF_grows
    | with_reducible apply tagCheck_grows
    | with_reducible apply tagPhase_grows
    | fail_if_no_progress with_reducible apply Grows.mk'
    | with_reducible refine Grows.ite ?_ ?_
    | with_reducible refine Grows.iteP ?_ ?_
    | split
    | with_reducible refine Grows.fst (by assumption) ?_
    | dsimp only

theorem execCassRetry_grows (s : State) : GrowsO s (execCassRetry s) := by
  unfold execCassRetry
  try dsimp only
  try refine GrowsO.next ?_
  repeat' first
    | refine GrowsO.next ?_
    | with_reducible assumption
    | with_reducible exact Grows.refl _
    | with_reducible apply cassSend_grows
    | with_reducible refine Grows.ite ?_ ?_
    | split
    | dsimp only

theorem execCassExchangeTimeout_grows (s : State) : GrowsO s (execCassExchangeTimeout s) := by
  unfold execCassExchangeTimeout
  try dsimp only
  try refine GrowsO.next ?_
  repeat' first
    | refine GrowsO.next ?_
    | with_reducible assumption
    | with_reducible exact Grows.refl _
    | with_reducible apply cassFail_grows
    | fail_if_no_progress with_reducible apply Grows.mk'
    | with_reducible refine Grows.ite ?_ ?_
    | split
    | dsimp only

/-! ## AuxChain -/

theorem setAx_grows {s0 : State} (s : State) (c : Nat) (a : AuxCh) (h : Grows s0 s) : Grows s0 (State.setAx s c a) := by
  unfold State.setAx
  try dsimp only
  repeat' first
    | with_reducible assumption
    | fail_if_no_progress with_reducible apply Grows.mk'
    | dsimp only

theorem submit_grows {s0 : State} (s : State) (g : Nat) (cls : Nat) (src : Nat) (what : Payload) (h : Grows s0 s) :
    Grows s0 (State.submit s g cls src what) := by
  unfold State.submit
  try dsimp only
  repeat' first
    | with_reducible assumption
    | fail_if_no_progress with_reducible apply Grows.mk'
    | dsimp only

theorem accept_grows {s0 : State} (s : State) (h : Grows s0 s) : Grows s0 (State.accept s) := by
  unfold State.accept
  try dsimp only
  repeat' first
    | intro _
    | with_reducible assumption
    | fail_if_no_progress with_reducible apply Grows.mk'
    | with_reducible refine Grows.iteP ?_ ?_
    | dsimp only

theorem holdNow_grows {s0 : State} (s : State) (g : Nat) (h : Grows s0 s) : Grows s0 (State.holdNow s g) := by
  unfold State.holdNow
  try dsimp only
  repeat' first
    | with_reducible assumption
    | with_reducible apply accept_grows
    | with_reducible apply submit_grows
    | with_reducible refine Grows.ite ?_ ?_
    | split
    | dsimp only

theorem execMaskHoldNow_grows (g : Fin 16) (s : State) : GrowsO s (execMaskHoldNow g s) := by
  unfold execMaskHoldNow
  try dsimp only
  try refine GrowsO.next ?_
  repeat' first
    | refine GrowsO.next ?_
    | with_reducible assumption
    | with_reducible exact Grows.refl _
    | with_reducible apply holdNow_grows
    | dsimp only

theorem auxSat_grows {s0 : State} (s : State) (c : Nat) (h : Grows s0 s) : Grows s0 (State.auxSat s c) := by
  unfold State.auxSat
  try dsimp only
  repeat' first
    | with_reducible assumption
    | with_reducible apply mark_grows
    | with_reducible apply satF_grows
    | dsimp only

theorem auxClamp_grows {s0 : State} (s : State) (c : Nat) (w : Nat) (v : Int) (h : Grows s0 s) :
    Grows s0 (State.auxClamp s c w v).1 := by
  unfold State.auxClamp
  try dsimp only
  repeat' first
    | with_reducible assumption
    | with_reducible apply auxSat_grows
    | with_reducible refine Grows.ite ?_ ?_
    | with_reducible refine Grows.iteP ?_ ?_
    | split
    | dsimp only

theorem auxRingPut_grows {s0 : State} (s : State) (c : Nat) (h : Grows s0 s) : Grows s0 (State.auxRingPut s c) := by
  unfold State.auxRingPut
  try dsimp only
  repeat' first
    | intro _
    | with_reducible assumption
    | with_reducible apply ringPush_grows
    | with_reducible apply setAx_grows
    | fail_if_no_progress with_reducible apply Grows.mk'
    | with_reducible refine Grows.iteP ?_ ?_
    | dsimp only

theorem auxRing_grows {s0 : State} (s : State) (c : Nat) (y3 : Int) (h : Grows s0 s) :
    Grows s0 (State.auxRing s c y3) := by
  unfold State.auxRing
  try dsimp only
  repeat' first
    | with_reducible assumption
    | with_reducible apply auxRingPut_grows
    | with_reducible apply setAx_grows
    | fail_if_no_progress with_reducible apply Grows.mk'
    | with_reducible refine Grows.ite ?_ ?_
    | split
    | dsimp only

theorem auxThreshold_grows {s0 : State} (s : State) (c : Nat) (y3 : Int) (h : Grows s0 s) :
    Grows s0 (State.auxThreshold s c y3) := by
  unfold State.auxThreshold
  try dsimp only
  repeat' first
    | with_reducible assumption
    | with_reducible apply raise_grows
    | with_reducible apply setF_grows
    | with_reducible refine Grows.ite ?_ ?_
    | split
    | dsimp only

theorem auxSample_grows {s0 : State} (s : State) (c : Nat) (y3 : Int) (h : Grows s0 s) :
    Grows s0 (State.auxSample s c y3) := by
  unfold State.auxSample
  try dsimp only
  repeat' first
    | intro _
    | with_reducible assumption
    | with_reducible apply auxRing_grows
    | with_reducible apply auxThreshold_grows
    | with_reducible apply incF_grows
    | with_reducible apply mark_grows
    | with_reducible apply setAx_grows
    | with_reducible apply setI_grows
    | with_reducible apply submit_grows
    | with_reducible apply tagTemp_grows
    | with_reducible refine Grows.forL _ ?_ ?_
    | fail_if_no_progress with_reducible apply Grows.mk'
    | with_reducible refine Grows.ite ?_ ?_
    | split
    | dsimp only

theorem auxMedian_grows {s0 : State} (s : State) (c : Nat) (y2 : Int) (h : Grows s0 s) :
    Grows s0 (State.auxMedian s c y2) := by
  unfold State.auxMedian
  try dsimp only
  repeat' first
    | with_reducible assumption
    | with_reducible apply auxSample_grows
    | with_reducible apply setAx_grows
    | fail_if_no_progress with_reducible apply Grows.mk'
    | with_reducible refine Grows.ite ?_ ?_
    | split
    | dsimp only

theorem auxFir_grows {s0 : State} (s : State) (c : Nat) (y1 : Int) (h : Grows s0 s) :
    Grows s0 (State.auxFir s c y1) := by
  unfold State.auxFir
  try dsimp only
  repeat' first
    | with_reducible assumption
    | with_reducible apply auxClamp_grows
    | with_reducible apply auxMedian_grows
    | with_reducible apply setAx_grows
    | fail_if_no_progress with_reducible apply Grows.mk'
    | with_reducible refine Grows.ite ?_ ?_
    | with_reducible refine Grows.iteP ?_ ?_
    | split
    | dsimp only

theorem auxBit_grows {s0 : State} (s : State) (c : Nat) (v : Bool) (h : Grows s0 s) :
    Grows s0 (State.auxBit s c v) := by
  unfold State.auxBit
  try dsimp only
  repeat' first
    | with_reducible assumption
    | with_reducible apply auxClamp_grows
    | with_reducible apply auxFir_grows
    | with_reducible apply setAx_grows
    | fail_if_no_progress with_reducible apply Grows.mk'
    | with_reducible refine Grows.ite ?_ ?_
    | with_reducible refine Grows.iteP ?_ ?_
    | split
    | with_reducible refine Grows.fst (by assumption) ?_
    | dsimp only

theorem auxStart_grows {s0 : State} (s : State) (c : Nat) (h : Grows s0 s) : Grows s0 (State.auxStart s c) := by
  unfold State.auxStart
  try dsimp only
  repeat' first
    | with_reducible assumption
    | with_reducible apply bind_grows
    | with_reducible apply setAx_grows
    | with_reducible apply setF_grows
    | with_reducible refine Grows.ite ?_ ?_
    | split
    | dsimp only

theorem auxStop_grows {s0 : State} (s : State) (c : Nat) (h : Grows s0 s) : Grows s0 (State.auxStop s c) := by
  unfold State.auxStop
  try dsimp only
  repeat' first
    | with_reducible assumption
    | with_reducible apply auxRingPut_grows
    | with_reducible apply setAx_grows
    | with_reducible apply setF_grows
    | with_reducible apply tagNoTemp_grows
    | with_reducible apply unbind_grows
    | with_reducible refine Grows.ite ?_ ?_
    | split
    | dsimp only

theorem auxSync_grows {s0 : State} (s : State) (h : Grows s0 s) : Grows s0 (State.auxSync s) := by
  unfold State.auxSync
  try dsimp only
  repeat' first
    | intro _
    | with_reducible assumption
    | with_reducible apply satF_grows
    | with_reducible apply setAx_grows
    | with_reducible refine Grows.forL _ ?_ ?_
    | fail_if_no_progress with_reducible apply Grows.mk'
    | dsimp only

theorem auxSyncDrive_grows {s0 : State} (s : State) (h : Grows s0 s) : Grows s0 (State.auxSyncDrive s) := by
  unfold State.auxSyncDrive
  try dsimp only
  repeat' first
    | with_reducible assumption
    | with_reducible apply auxSync_grows
    | with_reducible apply emit_grows
    | with_reducible apply fire_grows
    | fail_if_no_progress with_reducible apply Grows.mk'
    | with_reducible refine Grows.ite ?_ ?_
    | split
    | dsimp only

theorem mdivWrite_grows {s0 : State} (s : State) (k : Nat) (v : Nat) (h : Grows s0 s) :
    Grows s0 (State.mdivWrite s k v) := by
  unfold State.mdivWrite
  try dsimp only
  repeat' first
    | with_reducible assumption
    | with_reducible apply emit_grows
    | with_reducible apply setF_grows
    | fail_if_no_progress with_reducible apply Grows.mk'
    | with_reducible refine Grows.ite ?_ ?_
    | split
    | dsimp only

theorem execAuxClkWrite_grows (k : Fin 4) (mdiv : BitVec 8) (s : State) : GrowsO s (execAuxClkWrite k mdiv s) := by
  unfold execAuxClkWrite
  try dsimp only
  try refine GrowsO.next ?_
  repeat' first
    | refine GrowsO.next ?_
    | with_reducible assumption
    | with_reducible exact Grows.refl _
    | with_reducible apply mdivWrite_grows
    | with_reducible refine Grows.ite ?_ ?_
    | split
    | dsimp only

theorem execAuxRunRise_grows (c : Fin 32) (s : State) : GrowsO s (execAuxRunRise c s) := by
  unfold execAuxRunRise
  try dsimp only
  try refine GrowsO.next ?_
  repeat' first
    | refine GrowsO.next ?_
    | with_reducible assumption
    | with_reducible exact Grows.refl _
    | with_reducible apply auxStart_grows
    | with_reducible refine Grows.ite ?_ ?_
    | split
    | dsimp only

theorem execAuxRunFall_grows (c : Fin 32) (s : State) : GrowsO s (execAuxRunFall c s) := by
  unfold execAuxRunFall
  try dsimp only
  try refine GrowsO.next ?_
  repeat' first
    | refine GrowsO.next ?_
    | with_reducible assumption
    | with_reducible exact Grows.refl _
    | with_reducible apply auxStop_grows
    | with_reducible refine Grows.ite ?_ ?_
    | split
    | dsimp only

theorem execAuxOutput_grows (c : Fin 32) (mdat : List (Bool × Bool)) (s : State) :
    GrowsO s (execAuxOutput c mdat s) := by
  unfold execAuxOutput
  try dsimp only
  try refine GrowsO.next ?_
  repeat' first
    | refine GrowsO.next ?_
    | intro _
    | with_reducible assumption
    | with_reducible exact Grows.refl _
    | with_reducible apply auxBit_grows
    | with_reducible refine Grows.forL _ ?_ ?_
    | fail_if_no_progress with_reducible apply Grows.mk'
    | with_reducible refine Grows.ite ?_ ?_
    | split
    | dsimp only

theorem execAuxSyncWrite_grows (s : State) : GrowsO s (execAuxSyncWrite s) := by
  unfold execAuxSyncWrite
  try dsimp only
  try refine GrowsO.next ?_
  repeat' first
    | refine GrowsO.next ?_
    | with_reducible assumption
    | with_reducible exact Grows.refl _
    | with_reducible apply auxSyncDrive_grows
    | with_reducible refine Grows.ite ?_ ?_
    | split
    | dsimp only

theorem execAuxsyncEdge_grows (s : State) : GrowsO s (execAuxsyncEdge s) := by
  unfold execAuxsyncEdge
  try dsimp only
  try refine GrowsO.next ?_
  repeat' first
    | refine GrowsO.next ?_
    | with_reducible assumption
    | with_reducible exact Grows.refl _
    | with_reducible apply auxSync_grows
    | with_reducible apply fire_grows
    | with_reducible refine Grows.ite ?_ ?_
    | split
    | dsimp only

theorem execSyncPhaseReset_grows (c : Fin 32) (s : State) : GrowsO s (execSyncPhaseReset c s) := by
  unfold execSyncPhaseReset
  try dsimp only
  try refine GrowsO.next ?_
  repeat' first
    | refine GrowsO.next ?_
    | with_reducible assumption
    | with_reducible exact Grows.refl _
    | with_reducible apply setAx_grows
    | fail_if_no_progress with_reducible apply Grows.mk'
    | with_reducible refine Grows.ite ?_ ?_
    | split
    | dsimp only

/-! ## Flash -/

/-- Outputs leave the flash as it is. -/
theorem emits_flash (s : State) (l : List Out) : (s.emits l).flash = s.flash := by
  unfold State.emits forL
  induction l generalizing s with
  | nil => rfl
  | cons o l ih => exact ih _

theorem xspiGo_grows {s0 : State} (s : State) (op : Nat) (h : Grows s0 s) : Grows s0 (s.xspiGo op) := by
  have hb := setF_grows fuseB F.XSPI_STATUS_BUSY 1 h
  unfold State.xspiGo
  dsimp only
  split
  · have hw := fun o a bs => memWrite_grows _ 2 (blockUnit fuseB) a bs (emit_grows o hb)
    split
    · exact mark_grows _ _ _ (hw _ _ _)
    · exact hw _ _ _
  · split
    · have hr := fun a n => memRead_grows _ 2 (blockUnit fuseB) a n hb
      split
      · exact Grows.updC (emits_grows _ _ (hr _ _)) rfl rfl rfl rfl rfl id (fun hf => Flash.wf_puts _ _ _ (by rwa [emits_flash] at hf)) id id id
      · exact mark_grows _ _ _ (hr _ _)
    · exact Grows.updC (emits_grows _ _ hb) rfl rfl rfl rfl rfl id (fun hf => Flash.wf_erase _ _ _ (by rwa [emits_flash] at hf)) id id id

theorem xspiRow_grows {s0 : State} (s : State) (op : Nat) (h : Grows s0 s) : Grows s0 (State.xspiRow s op) := by
  unfold State.xspiRow
  try dsimp only
  repeat' first
    | with_reducible assumption
    | with_reducible apply setF_grows
    | with_reducible apply xspiGo_grows
    | fail_if_no_progress with_reducible apply Grows.mk'
    | with_reducible refine Grows.ite ?_ ?_
    | split
    | dsimp only

theorem execXspiRead_grows (s : State) : GrowsO s (execXspiRead s) := by
  unfold execXspiRead
  try dsimp only
  try refine GrowsO.next ?_
  repeat' first
    | refine GrowsO.next ?_
    | with_reducible assumption
    | with_reducible exact Grows.refl _
    | with_reducible apply xspiRow_grows
    | fail_if_no_progress with_reducible apply Grows.mk'
    | dsimp only

theorem execXspiProgram_grows (s : State) : GrowsO s (execXspiProgram s) := by
  unfold execXspiProgram
  try dsimp only
  try refine GrowsO.next ?_
  repeat' first
    | refine GrowsO.next ?_
    | with_reducible assumption
    | with_reducible exact Grows.refl _
    | with_reducible apply xspiRow_grows
    | fail_if_no_progress with_reducible apply Grows.mk'
    | dsimp only

theorem execXspiErase_grows (s : State) : GrowsO s (execXspiErase s) := by
  unfold execXspiErase
  try dsimp only
  try refine GrowsO.next ?_
  repeat' first
    | refine GrowsO.next ?_
    | with_reducible assumption
    | with_reducible exact Grows.refl _
    | with_reducible apply xspiRow_grows
    | fail_if_no_progress with_reducible apply Grows.mk'
    | dsimp only

theorem execXspiDone_grows (err : Bool) (s : State) : GrowsO s (execXspiDone err s) := by
  unfold execXspiDone
  try dsimp only
  try refine GrowsO.next ?_
  repeat' first
    | refine GrowsO.next ?_
    | with_reducible assumption
    | with_reducible exact Grows.refl _
    | with_reducible apply mark_grows
    | with_reducible apply setF_grows
    | with_reducible refine Grows.ite ?_ ?_
    | split
    | dsimp only

/-! ## Dma -/

theorem setDm_grows {s0 : State} (s : State) (c : Nat) (d : Dma) (h : Grows s0 s) : Grows s0 (State.setDm s c d) := by
  unfold State.setDm
  try dsimp only
  repeat' first
    | with_reducible assumption
    | fail_if_no_progress with_reducible apply Grows.mk'
    | dsimp only

theorem dmaSums_grows {s0 : State} (s : State) (h : Grows s0 s) : Grows s0 (State.dmaSums s) := by
  unfold State.dmaSums
  try dsimp only
  repeat' first
    | intro _
    | with_reducible assumption
    | with_reducible apply setF_grows
    | dsimp only

theorem dmaGo_grows {s0 : State} (s : State) (c : Nat) (a : Nat) (h : Grows s0 s) : Grows s0 (State.dmaGo s c a) := by
  unfold State.dmaGo
  try dsimp only
  repeat' first
    | with_reducible assumption
    | with_reducible apply setDm_grows
    | with_reducible apply setF_grows
    | dsimp only

theorem dmaHalt_grows {s0 : State} (s : State) (c : Nat) (code : Nat) (addr : Nat) (h : Grows s0 s) :
    Grows s0 (State.dmaHalt s c code addr) := by
  unfold State.dmaHalt
  try dsimp only
  repeat' first
    | with_reducible assumption
    | with_reducible apply dmaSums_grows
    | with_reducible apply logReg_grows
    | with_reducible apply raise_grows
    | with_reducible apply setF_grows
    | dsimp only

theorem dmaPark_grows {s0 : State} (s : State) (c : Nat) (h : Grows s0 s) : Grows s0 (State.dmaPark s c) := by
  unfold State.dmaPark
  try dsimp only
  repeat' first
    | with_reducible assumption
    | with_reducible apply setF_grows
    | dsimp only

theorem dmaStatusByte_grows {s0 : State} (s : State) (c : Nat) (v : Nat) (h : Grows s0 s) :
    Grows s0 (State.dmaStatusByte s c v).1 := by
  unfold State.dmaStatusByte
  try dsimp only
  repeat' first
    | with_reducible assumption
    | with_reducible apply memWrite_grows
    | with_reducible refine Grows.ite ?_ ?_
    | with_reducible refine Grows.iteP ?_ ?_
    | split
    | dsimp only

theorem dmaBusErr_grows {s0 : State} (s : State) (c : Nat) (addr : Nat) (dir : Nat) (h : Grows s0 s) :
    Grows s0 (State.dmaBusErr s c addr dir) := by
  unfold State.dmaBusErr
  try dsimp only
  repeat' first
    | with_reducible assumption
    | with_reducible apply dmaHalt_grows
    | with_reducible apply dmaStatusByte_grows
    | with_reducible apply setF_grows
    | with_reducible refine Grows.iteP ?_ ?_
    | dsimp only

theorem dmaLink_grows {s0 : State} (s : State) (c : Nat) (h : Grows s0 s) : Grows s0 (State.dmaLink s c).1 := by
  unfold State.dmaLink
  try dsimp only
  repeat' first
    | with_reducible assumption
    | with_reducible apply dmaBusErr_grows
    | with_reducible apply dmaGo_grows
    | with_reducible apply memRead_grows
    | fail_if_no_progress with_reducible apply Grows.mk'
    | with_reducible refine Grows.ite ?_ ?_
    | with_reducible refine Grows.iteP ?_ ?_
    | split
    | dsimp only

theorem dmaNext_grows {s0 : State} (s : State) (c : Nat) (h : Grows s0 s) : Grows s0 (State.dmaNext s c) := by
  unfold State.dmaNext
  try dsimp only
  repeat' first
    | with_reducible assumption
    | with_reducible apply dmaLink_grows
    | with_reducible apply dmaPark_grows
    | with_reducible apply setF_grows
    | with_reducible refine Grows.ite ?_ ?_
    | with_reducible refine Grows.iteP ?_ ?_
    | split
    | dsimp only

theorem dmaStart_grows {s0 : State} (s : State) (c : Nat) (desc : Nat) (h : Grows s0 s) :
    Grows s0 (State.dmaStart s c desc).1 := by
  unfold State.dmaStart
  try dsimp only
  repeat' first
    | with_reducible assumption
    | with_reducible apply dmaGo_grows
    | with_reducible apply dmaLink_grows
    | with_reducible apply setF_grows
    | with_reducible refine Grows.ite ?_ ?_
    | with_reducible refine Grows.iteP ?_ ?_
    | split
    | dsimp only

theorem dmaFetch_grows {s0 : State} (s : State) (c : Nat) (h : Grows s0 s) : Grows s0 (State.dmaFetch s c) := by
  unfold State.dmaFetch
  try dsimp only
  repeat' first
    | with_reducible assumption
    | with_reducible apply dmaHalt_grows
    | with_reducible apply memRead_grows
    | with_reducible apply setDm_grows
    | fail_if_no_progress with_reducible apply Grows.mk'
    | with_reducible refine Grows.ite ?_ ?_
    | with_reducible refine Grows.iteP ?_ ?_
    | split
    | dsimp only

theorem execDmaDescFetch_grows (c : Fin 64) (s : State) : GrowsO s (execDmaDescFetch c s) := by
  unfold execDmaDescFetch
  try dsimp only
  try refine GrowsO.next ?_
  repeat' first
    | refine GrowsO.next ?_
    | with_reducible assumption
    | with_reducible exact Grows.refl _
    | with_reducible apply dmaFetch_grows
    | with_reducible refine Grows.ite ?_ ?_
    | split
    | dsimp only

theorem dmaRead_grows {s0 : State} (s : State) (c : Nat) (l : List Nat) (h : Grows s0 s) :
    Grows s0 (s.dmaRead c l).1 := by
  induction l generalizing s with
  | nil => exact h
  | cons x l ih =>
    unfold State.dmaRead
    dsimp only
    repeat' first
      | intro _
      | with_reducible assumption
      | with_reducible exact Grows.refl _
      | with_reducible apply ih
      | with_reducible apply memRead_grows
      | with_reducible refine Grows.forL _ ?_ ?_
      | with_reducible refine Grows.forN _ ?_ ?_
      | with_reducible refine Grows.foldl _ ?_ ?_
      | with_reducible refine Grows.foldlP _ ?_ ?_
      | fail_if_no_progress with_reducible apply Grows.mk'
      | with_reducible refine Grows.ite ?_ ?_
      | with_reducible refine Grows.iteP ?_ ?_
      | split
      | with_reducible refine Grows.fst (by assumption) ?_
      | dsimp only
      | omega

theorem dmaCopy_grows {s0 : State} (s : State) (c : Nat) (d : Dma) (l : List (Nat × Nat)) (h : Grows s0 s) :
    Grows s0 (s.dmaCopy c d l).1 := by
  induction l generalizing s with
  | nil => exact h
  | cons x l ih =>
    unfold State.dmaCopy
    dsimp only
    repeat' first
      | intro _
      | with_reducible assumption
      | with_reducible exact Grows.refl _
      | with_reducible apply ih
      | with_reducible apply dmaRead_grows
      | with_reducible apply incF_grows
      | with_reducible apply memWrite_grows
      | with_reducible apply setDm_grows
      | with_reducible refine Grows.forL _ ?_ ?_
      | with_reducible refine Grows.forN _ ?_ ?_
      | with_reducible refine Grows.foldl _ ?_ ?_
      | with_reducible refine Grows.foldlP _ ?_ ?_
      | fail_if_no_progress with_reducible apply Grows.mk'
      | with_reducible refine Grows.ite ?_ ?_
      | with_reducible refine Grows.iteP ?_ ?_
      | split
      | with_reducible refine Grows.fst (by assumption) ?_
      | dsimp only
      | omega

theorem dmaRun_grows {s0 : State} (s : State) (c : Nat) (h : Grows s0 s) : Grows s0 (State.dmaRun s c) := by
  unfold State.dmaRun
  try dsimp only
  repeat' first
    | with_reducible assumption
    | with_reducible apply dmaBusErr_grows
    | with_reducible apply dmaCopy_grows
    | with_reducible apply dmaNext_grows
    | with_reducible apply dmaStatusByte_grows
    | with_reducible apply dmaSums_grows
    | with_reducible apply raise_grows
    | fail_if_no_progress with_reducible apply Grows.mk'
    | with_reducible refine Grows.ite ?_ ?_
    | with_reducible refine Grows.iteP ?_ ?_
    | split
    | dsimp only

theorem dmaSoFar_grows {s0 : State} (s : State) (c : Nat) (h : Grows s0 s) : Grows s0 (State.dmaSoFar s c) := by
  unfold State.dmaSoFar
  try dsimp only
  repeat' first
    | with_reducible assumption
    | with_reducible apply dmaBusErr_grows
    | with_reducible apply dmaCopy_grows
    | with_reducible apply dmaFetch_grows
    | with_reducible apply tickFree_grows
    | fail_if_no_progress with_reducible apply Grows.mk'
    | with_reducible refine Grows.ite ?_ ?_
    | with_reducible refine Grows.iteP ?_ ?_
    | split
    | dsimp only

theorem dmaAbort_grows {s0 : State} (s : State) (c : Nat) (h : Grows s0 s) : Grows s0 (State.dmaAbort s c) := by
  unfold State.dmaAbort
  try dsimp only
  repeat' first
    | with_reducible assumption
    | with_reducible apply dmaSoFar_grows
    | with_reducible apply dmaStatusByte_grows
    | with_reducible apply mark_grows
    | with_reducible apply setDm_grows
    | with_reducible apply setF_grows
    | with_reducible refine Grows.ite ?_ ?_
    | with_reducible refine Grows.iteP ?_ ?_
    | split
    | dsimp only

theorem execDmaDescEnd_grows (c : Fin 64) (s : State) : GrowsO s (execDmaDescEnd c s) := by
  unfold execDmaDescEnd
  try dsimp only
  try refine GrowsO.next ?_
  repeat' first
    | refine GrowsO.next ?_
    | with_reducible assumption
    | with_reducible exact Grows.refl _
    | with_reducible apply dmaRun_grows
    | with_reducible refine Grows.ite ?_ ?_
    | split
    | dsimp only

theorem execDmaBusError_grows (c : Fin 64) (s : State) : GrowsO s (execDmaBusError c s) := by
  unfold execDmaBusError
  try dsimp only
  try refine GrowsO.next ?_
  repeat' first
    | refine GrowsO.next ?_
    | with_reducible assumption
    | with_reducible exact Grows.refl _
    | with_reducible apply dmaCopy_grows
    | with_reducible apply dmaRun_grows
    | with_reducible refine Grows.ite ?_ ?_
    | split
    | dsimp only

end Sys2Proof.Machine
end

