-- ==== Sys2Proof/Laws/GrowsLanes.lean ====
section
/-!
SUPPORT. What every operation keeps (Laws/Grows.lean), shown of lanes, correction and gauge, and seams: one lemma per
operation of the model, named after it.
-/

set_option linter.unusedTactic false
set_option linter.unreachableTactic false
set_option maxRecDepth 4000

namespace Sys2Proof.Machine

/-! ## Lanes -/

theorem setLn_grows {s0 : State} (s : State) (l : Nat) (x : Lane) (h : Grows s0 s) : Grows s0 (State.setLn s l x) := by
  unfold State.setLn
  try dsimp only
  repeat' first
    | with_reducible assumption
    | fail_if_no_progress with_reducible apply Grows.mk'
    | dsimp only

theorem setCh_grows {s0 : State} (s : State) (c : Nat) (x : Chan) (h : Grows s0 s) : Grows s0 (State.setCh s c x) := by
  unfold State.setCh
  try dsimp only
  repeat' first
    | with_reducible assumption
    | fail_if_no_progress with_reducible apply Grows.mk'
    | dsimp only

theorem clearLane_grows {s0 : State} (s : State) (l : Nat) (h : Grows s0 s) : Grows s0 (State.clearLane s l) := by
  unfold State.clearLane
  try dsimp only
  repeat' first
    | intro _
    | with_reducible assumption
    | with_reducible apply setLn_grows
    | fail_if_no_progress with_reducible apply Grows.mk'
    | with_reducible refine Grows.iteP ?_ ?_
    | dsimp only

theorem setLane_grows {s0 : State} (s : State) (l : Nat) (st : Nat) (h : Grows s0 s) :
    Grows s0 (State.setLane s l st) := by
  unfold State.setLane
  try dsimp only
  repeat' first
    | with_reducible assumption
    | with_reducible apply setF_grows
    | dsimp only

theorem laneEvent_grows {s0 : State} (s : State) (l : Nat) (f : Fld) (h : Grows s0 s) :
    Grows s0 (State.laneEvent s l f) := by
  unfold State.laneEvent
  try dsimp only
  repeat' first
    | with_reducible assumption
    | with_reducible apply raise_grows
    | dsimp only

theorem laneLog_grows {s0 : State} (s : State) (code : LogCode) (l : Nat) (h : Grows s0 s) :
    Grows s0 (State.laneLog s code l) := by
  unfold State.laneLog
  try dsimp only
  repeat' first
    | with_reducible assumption
    | with_reducible apply logReg_grows
    | dsimp only

theorem pktBad_grows {s0 : State} (s : State) (l : Nat) (x2 : PktCheck) (h : Grows s0 s) :
    Grows s0 (State.pktBad s l x2) := by
  unfold State.pktBad
  try dsimp only
  repeat' first
    | intro _
    | with_reducible assumption
    | with_reducible exact Grows.refl _
    | with_reducible apply laneEvent_grows
    | with_reducible apply satF_grows
    | with_reducible refine Grows.forL _ ?_ ?_
    | with_reducible refine Grows.forN _ ?_ ?_
    | with_reducible refine Grows.foldl _ ?_ ?_
    | with_reducible refine Grows.foldlP _ ?_ ?_
    | fail_if_no_progress with_reducible apply Grows.mk'
    | with_reducible refine Grows.ite ?_ ?_
    | with_reducible refine Grows.iteP ?_ ?_
    | split
    | with_reducible refine Grows.fst (by assumption) ?_
    | dsimp only
    | omega

theorem seqNote_grows {s0 : State} (s : State) (l : Nat) (vc : Nat) (seq : Nat) (h : Grows s0 s) :
    Grows s0 (State.seqNote s l vc seq) := by
  unfold State.seqNote
  try dsimp only
  repeat' first
    | with_reducible assumption
    | with_reducible apply setLn_grows
    | fail_if_no_progress with_reducible apply Grows.mk'
    | with_reducible refine Grows.ite ?_ ?_
    | split
    | dsimp only

theorem sendBlocks_grows {s0 : State} (s : State) (l : Nat) (bs : List (Bool × Nat)) (h : Grows s0 s) :
    Grows s0 (State.sendBlocks s l bs) := by
  unfold State.sendBlocks
  try dsimp only
  repeat' first
    | with_reducible assumption
    | with_reducible apply emit_grows
    | with_reducible apply setLn_grows
    | fail_if_no_progress with_reducible apply Grows.mk'
    | with_reducible refine Grows.iteP ?_ ?_
    | dsimp only

theorem sendBack_grows {s0 : State} (s : State) (l : Nat) (vc : Nat) (dt : Nat) (ws : List Nat) (h : Grows s0 s) :
    Grows s0 (State.sendBack s l vc dt ws) := by
  unfold State.sendBack
  try dsimp only
  repeat' first
    | with_reducible assumption
    | with_reducible apply sendBlocks_grows
    | with_reducible apply setLn_grows
    | fail_if_no_progress with_reducible apply Grows.mk'
    | dsimp only

theorem laneLeaves_grows {s0 : State} (s : State) (l : Nat) (h : Grows s0 s) : Grows s0 (State.laneLeaves s l) := by
  unfold State.laneLeaves
  try dsimp only
  repeat' first
    | intro _
    | with_reducible assumption
    | with_reducible apply laneLog_grows
    | with_reducible apply setCh_grows
    | with_reducible refine Grows.forL _ ?_ ?_
    | fail_if_no_progress with_reducible apply Grows.mk'
    | with_reducible refine Grows.ite ?_ ?_
    | split
    | dsimp only

theorem unalign_grows {s0 : State} (s : State) (l : Nat) (h : Grows s0 s) : Grows s0 (State.unalign s l) := by
  unfold State.unalign
  try dsimp only
  repeat' first
    | with_reducible assumption
    | with_reducible apply setLn_grows
    | fail_if_no_progress with_reducible apply Grows.mk'
    | dsimp only

theorem laneTo_grows {s0 : State} (s : State) (l : Nat) (st : Nat) (h : Grows s0 s) :
    Grows s0 (State.laneTo s l st) := by
  unfold State.laneTo
  try dsimp only
  repeat' first
    | with_reducible assumption
    | with_reducible apply laneLeaves_grows
    | with_reducible apply setLane_grows
    | with_reducible apply unalign_grows
    | with_reducible refine Grows.ite ?_ ?_
    | split
    | dsimp only

theorem laneRemove_grows {s0 : State} (s : State) (l : Nat) (h : Grows s0 s) : Grows s0 (State.laneRemove s l) := by
  unfold State.laneRemove
  try dsimp only
  repeat' first
    | with_reducible assumption
    | with_reducible apply laneEvent_grows
    | with_reducible apply laneLog_grows
    | with_reducible apply laneTo_grows
    | with_reducible apply pnlEvent_grows
    | with_reducible apply setLn_grows
    | fail_if_no_progress with_reducible apply Grows.mk'
    | dsimp only

theorem laneJoin_grows {s0 : State} (s : State) (l : Nat) (h : Grows s0 s) : Grows s0 (State.laneJoin s l) := by
  unfold State.laneJoin
  try dsimp only
  repeat' first
    | with_reducible assumption
    | with_reducible apply setLane_grows
    | with_reducible apply setLn_grows
    | fail_if_no_progress with_reducible apply Grows.mk'
    | dsimp only

theorem chanJoin_grows {s0 : State} (s : State) (g : Nat) (ch : Nat) (c : Nat) (h : Grows s0 s) :
    Grows s0 (State.chanJoin s g ch c) := by
  unfold State.chanJoin
  try dsimp only
  repeat' first
    | intro _
    | with_reducible assumption
    | with_reducible apply cswSet_grows
    | with_reducible apply jrn_grows
    | with_reducible apply laneJoin_grows
    | with_reducible apply pnlEvent_grows
    | with_reducible apply setCh_grows
    | with_reducible apply setF_grows
    | with_reducible refine Grows.forL _ ?_ ?_
    | fail_if_no_progress with_reducible apply Grows.mk'
    | dsimp only

theorem lanesBack_grows {s0 : State} (s : State) (ch : Nat) (h : Grows s0 s) : Grows s0 (State.lanesBack s ch) := by
  unfold State.lanesBack
  try dsimp only
  repeat' first
    | intro _
    | with_reducible assumption
    | with_reducible apply setLane_grows
    | with_reducible refine Grows.forL _ ?_ ?_
    | with_reducible refine Grows.ite ?_ ?_
    | split
    | dsimp only

theorem chanLeave_grows {s0 : State} (s : State) (g : Nat) (ch : Nat) (c : Nat) (h : Grows s0 s) :
    Grows s0 (State.chanLeave s g ch c) := by
  unfold State.chanLeave
  try dsimp only
  repeat' first
    | with_reducible assumption
    | with_reducible apply cswSet_grows
    | with_reducible apply jrn_grows
    | with_reducible apply lanesBack_grows
    | with_reducible apply pnlEvent_grows
    | with_reducible apply setCh_grows
    | with_reducible apply setF_grows
    | fail_if_no_progress with_reducible apply Grows.mk'
    | dsimp only

theorem members_grows {s0 : State} (s : State) (g : Nat) (c : Nat) (h : Grows s0 s) :
    Grows s0 (State.members s g c) := by
  unfold State.members
  try dsimp only
  repeat' first
    | intro _
    | with_reducible assumption
    | with_reducible apply chanJoin_grows
    | with_reducible apply chanLeave_grows
    | with_reducible apply laneJoin_grows
    | with_reducible refine Grows.forL _ ?_ ?_
    | with_reducible refine Grows.ite ?_ ?_
    | split
    | dsimp only

theorem sendTrigs_grows {s0 : State} (s : State) (g : Nat) (c : Nat) (h : Grows s0 s) :
    Grows s0 (State.sendTrigs s g c) := by
  unfold State.sendTrigs
  try dsimp only
  repeat' first
    | intro _
    | with_reducible assumption
    | with_reducible apply sendBack_grows
    | with_reducible apply sendBlocks_grows
    | with_reducible refine Grows.forL _ ?_ ?_
    | fail_if_no_progress with_reducible apply Grows.mk'
    | with_reducible refine Grows.ite ?_ ?_
    | split
    | dsimp only

theorem declareMissing_grows {s0 : State} (s : State) (g : Nat) (ch : Nat) (k : Nat) (h : Grows s0 s) :
    Grows s0 (State.declareMissing s g ch k) := by
  unfold State.declareMissing
  try dsimp only
  repeat' first
    | intro _
    | with_reducible assumption
    | with_reducible apply capItem_grows
    | with_reducible apply cswMiss_grows
    | with_reducible apply satF_grows
    | with_reducible apply setCh_grows
    | fail_if_no_progress with_reducible apply Grows.mk'
    | dsimp only

theorem acceptLine_grows {s0 : State} (s : State) (g : Nat) (ch : Nat) (l : Nat) (ln : Line) (h : Grows s0 s) :
    Grows s0 (State.acceptLine s g ch l ln) := by
  unfold State.acceptLine
  try dsimp only
  repeat' first
    | intro _
    | with_reducible assumption
    | with_reducible apply cswSet_grows
    | with_reducible apply declareMissing_grows
    | with_reducible apply satF_grows
    | with_reducible apply setCh_grows
    | with_reducible apply setF_grows
    | with_reducible apply setI_grows
    | with_reducible apply setLn_grows
    | with_reducible refine Grows.forL _ ?_ ?_
    | fail_if_no_progress with_reducible apply Grows.mk'
    | with_reducible refine Grows.ite ?_ ?_
    | split
    | dsimp only

theorem lineBad_grows {s0 : State} (s : State) (g : Nat) (ch : Nat) (l : Nat) (h : Grows s0 s) :
    Grows s0 (State.lineBad s g ch l) := by
  unfold State.lineBad
  try dsimp only
  repeat' first
    | intro _
    | with_reducible assumption
    | with_reducible apply acceptLine_grows
    | with_reducible apply cswSet_grows
    | with_reducible apply satF_grows
    | with_reducible apply setCh_grows
    | fail_if_no_progress with_reducible apply Grows.mk'
    | with_reducible refine Grows.ite ?_ ?_
    | split
    | dsimp only

theorem lineChecks_grows {s0 : State} (s : State) (g : Nat) (ch : Nat) (l : Nat) (dt : Nat) (ws : List Nat) (image : List Byte) (h : Grows s0 s) :
    Grows s0 (State.lineChecks s g ch l dt ws image) := by
  unfold State.lineChecks
  try dsimp only
  repeat' first
    | with_reducible assumption
    | with_reducible apply acceptLine_grows
    | with_reducible apply satF_grows
    | with_reducible apply setCh_grows
    | fail_if_no_progress with_reducible apply Grows.mk'
    | with_reducible refine Grows.ite ?_ ?_
    | split
    | dsimp only

theorem settle_grows {s0 : State} (s : State) (g : Nat) (ch : Nat) (h : Grows s0 s) :
    Grows s0 (State.settle s g ch) := by
  unfold State.settle
  try dsimp only
  repeat' first
    | with_reducible assumption
    | with_reducible apply lanesBack_grows
    | with_reducible apply setF_grows
    | with_reducible refine Grows.ite ?_ ?_
    | split
    | dsimp only

theorem lineTo_grows {s0 : State} (s : State) (l : Nat) (f : Nat → Nat → State → State)
    (hf : ∀ g ch t, Grows s0 t → Grows s0 (f g ch t)) (h : Grows s0 s) : Grows s0 (s.lineTo l f) := by
  unfold State.lineTo
  repeat' first
    | intro _
    | with_reducible assumption
    | with_reducible exact Grows.refl _
    | with_reducible apply hf
    | with_reducible apply settle_grows
    | with_reducible refine Grows.forL _ ?_ ?_
    | with_reducible refine Grows.forN _ ?_ ?_
    | with_reducible refine Grows.foldl _ ?_ ?_
    | with_reducible refine Grows.foldlP _ ?_ ?_
    | fail_if_no_progress with_reducible apply Grows.mk'
    | with_reducible refine Grows.ite ?_ ?_
    | with_reducible refine Grows.iteP ?_ ?_
    | split
    | with_reducible refine Grows.fst (by assumption) ?_
    | dsimp only
    | omega

theorem linePacket_grows {s0 : State} (s : State) (l : Nat) (ws : List Nat) (cut : Bool) (h : Grows s0 s) :
    Grows s0 (State.linePacket s l ws cut) := by
  unfold State.linePacket
  try dsimp only
  repeat' first
    | intro _
    | with_reducible assumption
    | with_reducible apply lineBad_grows
    | with_reducible apply lineChecks_grows
    | with_reducible apply lineTo_grows
    | with_reducible apply pktBad_grows
    | with_reducible apply seqNote_grows
    | fail_if_no_progress with_reducible apply Grows.mk'
    | with_reducible refine Grows.ite ?_ ?_
    | split
    | dsimp only

theorem execLinePacketReceived_grows (l : Fin 128) (words : List (BitVec 64)) (cut : Bool) (s : State) :
    GrowsO s (execLinePacketReceived l words cut s) := by
  unfold execLinePacketReceived
  try dsimp only
  try refine GrowsO.next ?_
  repeat' first
    | refine GrowsO.next ?_
    | with_reducible assumption
    | with_reducible exact Grows.refl _
    | with_reducible apply linePacket_grows
    | with_reducible refine Grows.ite ?_ ?_
    | split
    | dsimp only

theorem execLineTimeout_grows (l : Fin 128) (s : State) : GrowsO s (execLineTimeout l s) := by
  unfold execLineTimeout
  try dsimp only
  try refine GrowsO.next ?_
  repeat' first
    | refine GrowsO.next ?_
    | intro _
    | with_reducible assumption
    | with_reducible exact Grows.refl _
    | with_reducible apply acceptLine_grows
    | with_reducible apply declareMissing_grows
    | with_reducible apply settle_grows
    | fail_if_no_progress with_reducible apply Grows.mk'
    | with_reducible refine Grows.ite ?_ ?_
    | split
    | dsimp only

theorem msrcUpdate_grows {s0 : State} (s : State) (h : Grows s0 s) : Grows s0 (State.msrcUpdate s) := by
  unfold State.msrcUpdate
  try dsimp only
  repeat' first
    | intro _
    | with_reducible assumption
    | with_reducible apply laneTo_grows
    | with_reducible apply setLane_grows
    | with_reducible refine Grows.forN _ ?_ ?_
    | with_reducible refine Grows.ite ?_ ?_
    | split
    | dsimp only

theorem laneBind_grows {s0 : State} (s : State) (l : Nat) (h : Grows s0 s) : Grows s0 (State.laneBind s l) := by
  unfold State.laneBind
  try dsimp only
  repeat' first
    | intro _
    | with_reducible assumption
    | with_reducible exact Grows.refl _
    | with_reducible apply bind_grows
    | with_reducible apply subBlock_grows
    | with_reducible apply unbind_grows
    | with_reducible apply unsubAll_grows
    | with_reducible refine Grows.forL _ ?_ ?_
    | with_reducible refine Grows.forN _ ?_ ?_
    | with_reducible refine Grows.foldl _ ?_ ?_
    | with_reducible refine Grows.foldlP _ ?_ ?_
    | fail_if_no_progress with_reducible apply Grows.mk'
    | with_reducible refine Grows.ite ?_ ?_
    | with_reducible refine Grows.iteP ?_ ?_
    | split
    | with_reducible refine Grows.fst (by assumption) ?_
    | dsimp only
    | omega

theorem msrcLine_grows {s0 : State} (s : State) (l : Nat) (c : Nat) (count : Nat) (im : Option (List Byte)) (h : Grows s0 s) :
    Grows s0 (State.msrcLine s l c count im) := by
  unfold State.msrcLine
  try dsimp only
  repeat' first
    | intro _
    | with_reducible assumption
    | with_reducible apply lineBad_grows
    | with_reducible apply lineChecks_grows
    | with_reducible apply lineTo_grows
    | with_reducible apply pktBad_grows
    | fail_if_no_progress with_reducible apply Grows.mk'
    | split
    | dsimp only

theorem msrcDeliver_grows {s0 : State} (s : State) (l : Nat) (c : Nat) (h : Grows s0 s) :
    Grows s0 (State.msrcDeliver s l c) := by
  unfold State.msrcDeliver
  try dsimp only
  repeat' first
    | with_reducible assumption
    | with_reducible apply consIrq_grows
    | with_reducible apply hkUnpack_grows
    | with_reducible apply memRead_grows
    | with_reducible apply msrcLine_grows
    | with_reducible apply readEntry_grows
    | with_reducible apply setLn_grows
    | with_reducible apply take_grows
    | fail_if_no_progress with_reducible apply Grows.mk'
    | with_reducible refine Grows.ite ?_ ?_
    | with_reducible refine Grows.iteP ?_ ?_
    | split
    | dsimp only

theorem msrcTrigger_grows {s0 : State} (s : State) (g : Nat) (c : Nat) (h : Grows s0 s) :
    Grows s0 (State.msrcTrigger s g c) := by
  unfold State.msrcTrigger
  try dsimp only
  repeat' first
    | intro _
    | with_reducible assumption
    | with_reducible apply msrcDeliver_grows
    | with_reducible refine Grows.forL _ ?_ ?_
    | fail_if_no_progress with_reducible apply Grows.mk'
    | dsimp only

theorem camData_grows {s0 : State} (s : State) (l : Nat) (vc : Nat) (dt : Nat) (ws : List Nat) (h : Grows s0 s) :
    Grows s0 (State.camData s l vc dt ws) := by
  unfold State.camData
  try dsimp only
  repeat' first
    | intro _
    | with_reducible assumption
    | with_reducible apply ringPush_grows
    | with_reducible refine Grows.ite ?_ ?_
    | with_reducible refine Grows.iteP ?_ ?_
    | split
    | dsimp only

theorem execCameraDataPacket_grows (l : Fin 128) (words : List (BitVec 64)) (cut : Bool) (s : State) :
    GrowsO s (execCameraDataPacket l words cut s) := by
  unfold execCameraDataPacket
  try dsimp only
  try refine GrowsO.next ?_
  repeat' first
    | refine GrowsO.next ?_
    | with_reducible assumption
    | with_reducible exact Grows.refl _
    | with_reducible apply camData_grows
    | with_reducible apply pktBad_grows
    | with_reducible apply seqNote_grows
    | fail_if_no_progress with_reducible apply Grows.mk'
    | with_reducible refine Grows.ite ?_ ?_
    | split
    | dsimp only

theorem tagDone_grows {s0 : State} (s : State) (l : Nat) (tag : Nat) (status : Nat) (params : List Byte) (h : Grows s0 s) :
    Grows s0 (State.tagDone s l tag status params) := by
  unfold State.tagDone
  try dsimp only
  repeat' first
    | intro _
    | with_reducible assumption
    | with_reducible apply setLn_grows
    | fail_if_no_progress with_reducible apply Grows.mk'
    | with_reducible refine Grows.ite ?_ ?_
    | with_reducible refine Grows.iteP ?_ ?_
    | split
    | dsimp only

theorem execControlReplyReceived_grows (l : Fin 128) (words : List (BitVec 64)) (s : State) :
    GrowsO s (execControlReplyReceived l words s) := by
  unfold execControlReplyReceived
  try dsimp only
  try refine GrowsO.next ?_
  repeat' first
    | refine GrowsO.next ?_
    | intro _
    | with_reducible assumption
    | with_reducible exact Grows.refl _
    | with_reducible apply camData_grows
    | with_reducible apply pktBad_grows
    | with_reducible apply seqNote_grows
    | with_reducible apply tagDone_grows
    | fail_if_no_progress with_reducible apply Grows.mk'
    | with_reducible refine Grows.ite ?_ ?_
    | with_reducible refine Grows.iteP ?_ ?_
    | split
    | dsimp only

theorem execControlReplyTimeout_grows (l : Fin 128) (tag : Fin 16) (s : State) :
    GrowsO s (execControlReplyTimeout l tag s) := by
  unfold execControlReplyTimeout
  try dsimp only
  try refine GrowsO.next ?_
  repeat' first
    | refine GrowsO.next ?_
    | with_reducible assumption
    | with_reducible exact Grows.refl _
    | with_reducible apply tagDone_grows
    | fail_if_no_progress with_reducible apply Grows.mk'
    | with_reducible refine Grows.iteP ?_ ?_
    | split
    | dsimp only

theorem ident_grows {s0 : State} (s : State) (l : Nat) (ws : List Nat) (h : Grows s0 s) :
    Grows s0 (State.ident s l ws) := by
  unfold State.ident
  try dsimp only
  repeat' first
    | with_reducible assumption
    | with_reducible apply laneEvent_grows
    | with_reducible apply laneLog_grows
    | with_reducible apply laneTo_grows
    | with_reducible apply pnlEvent_grows
    | with_reducible apply setF_grows
    | with_reducible apply setLn_grows
    | fail_if_no_progress with_reducible apply Grows.mk'
    | with_reducible refine Grows.ite ?_ ?_
    | split
    | dsimp only

theorem execIdentReceived_grows (l : Fin 128) (words : List (BitVec 64)) (s : State) :
    GrowsO s (execIdentReceived l words s) := by
  unfold execIdentReceived
  try dsimp only
  try refine GrowsO.next ?_
  repeat' first
    | refine GrowsO.next ?_
    | with_reducible assumption
    | with_reducible exact Grows.refl _
    | with_reducible apply ident_grows
    | with_reducible apply pktBad_grows
    | with_reducible apply seqNote_grows
    | fail_if_no_progress with_reducible apply Grows.mk'
    | with_reducible refine Grows.ite ?_ ?_
    | split
    | dsimp only

theorem execLosAssert_grows (l : Fin 128) (s : State) : GrowsO s (execLosAssert l s) := by
  unfold execLosAssert
  try dsimp only
  try refine GrowsO.next ?_
  repeat' first
    | refine GrowsO.next ?_
    | with_reducible assumption
    | with_reducible exact Grows.refl _
    | with_reducible apply laneEvent_grows
    | with_reducible apply setF_grows
    | with_reducible refine Grows.ite ?_ ?_
    | split
    | dsimp only

theorem execLosClear_grows (l : Fin 128) (s : State) : GrowsO s (execLosClear l s) := by
  unfold execLosClear
  try dsimp only
  try refine GrowsO.next ?_
  repeat' first
    | refine GrowsO.next ?_
    | with_reducible assumption
    | with_reducible exact Grows.refl _
    | with_reducible apply setF_grows
    | with_reducible apply setLn_grows
    | fail_if_no_progress with_reducible apply Grows.mk'
    | with_reducible refine Grows.ite ?_ ?_
    | split
    | dsimp only

theorem sendFrame_grows {s0 : State} (s : State) (l : Nat) (trn : Nat) (h : Grows s0 s) :
    Grows s0 (State.sendFrame s l trn) := by
  unfold State.sendFrame
  try dsimp only
  repeat' first
    | with_reducible assumption
    | with_reducible apply sendBlocks_grows
    | with_reducible apply setLn_grows
    | fail_if_no_progress with_reducible apply Grows.mk'
    | dsimp only

theorem trainStart_grows {s0 : State} (s : State) (l : Nat) (preset : optParam Bool false) (h : Grows s0 s) :
    Grows s0 (State.trainStart s l preset) := by
  unfold State.trainStart
  try dsimp only
  repeat' first
    | with_reducible assumption
    | with_reducible apply laneTo_grows
    | with_reducible apply sendFrame_grows
    | with_reducible apply setF_grows
    | with_reducible apply setLn_grows
    | fail_if_no_progress with_reducible apply Grows.mk'
    | with_reducible refine Grows.ite ?_ ?_
    | split
    | dsimp only

theorem execInsertDebounce_grows (l : Fin 128) (s : State) : GrowsO s (execInsertDebounce l s) := by
  unfold execInsertDebounce
  try dsimp only
  try refine GrowsO.next ?_
  repeat' first
    | refine GrowsO.next ?_
    | with_reducible assumption
    | with_reducible exact Grows.refl _
    | with_reducible apply laneEvent_grows
    | with_reducible apply pnlEvent_grows
    | with_reducible apply trainStart_grows
    | with_reducible refine Grows.ite ?_ ?_
    | split
    | dsimp only

theorem execBlockLock_grows (l : Fin 128) (bad : Nat) (s : State) : GrowsO s (execBlockLock l bad s) := by
  unfold execBlockLock
  try dsimp only
  try refine GrowsO.next ?_
  repeat' first
    | refine GrowsO.next ?_
    | with_reducible assumption
    | with_reducible exact Grows.refl _
    | with_reducible apply laneTo_grows
    | with_reducible apply satF_grows
    | with_reducible apply setF_grows
    | with_reducible apply setLn_grows
    | fail_if_no_progress with_reducible apply Grows.mk'
    | with_reducible refine Grows.ite ?_ ?_
    | split
    | dsimp only

theorem execLockLoss_grows (l : Fin 128) (bad : Nat) (s : State) : GrowsO s (execLockLoss l bad s) := by
  unfold execLockLoss
  try dsimp only
  try refine GrowsO.next ?_
  repeat' first
    | refine GrowsO.next ?_
    | with_reducible assumption
    | with_reducible exact Grows.refl _
    | with_reducible apply laneEvent_grows
    | with_reducible apply satF_grows
    | with_reducible apply setF_grows
    | with_reducible apply unalign_grows
    | with_reducible refine Grows.ite ?_ ?_
    | split
    | dsimp only

theorem execLolGraceExpiry_grows (l : Fin 128) (s : State) : GrowsO s (execLolGraceExpiry l s) := by
  unfold execLolGraceExpiry
  try dsimp only
  try refine GrowsO.next ?_
  repeat' first
    | refine GrowsO.next ?_
    | with_reducible assumption
    | with_reducible exact Grows.refl _
    | with_reducible apply laneTo_grows
    | with_reducible refine Grows.ite ?_ ?_
    | split
    | dsimp only

theorem execLosRemoveTimeout_grows (l : Fin 128) (s : State) : GrowsO s (execLosRemoveTimeout l s) := by
  unfold execLosRemoveTimeout
  try dsimp only
  try refine GrowsO.next ?_
  repeat' first
    | refine GrowsO.next ?_
    | with_reducible assumption
    | with_reducible exact Grows.refl _
    | with_reducible apply laneRemove_grows
    | with_reducible refine Grows.ite ?_ ?_
    | split
    | dsimp only

theorem dfeAdapts_grows {s0 : State} (s : State) (l : Nat) (h : Grows s0 s) : Grows s0 (State.dfeAdapts s l) := by
  unfold State.dfeAdapts
  try dsimp only
  repeat' first
    | with_reducible assumption
    | with_reducible apply setF_grows
    | with_reducible apply tickFree_grows
    | with_reducible refine Grows.ite ?_ ?_
    | split
    | dsimp only

theorem adapted_grows {s0 : State} (s : State) (l : Nat) (h : Grows s0 s) : Grows s0 (State.adapted s l) := by
  unfold State.adapted
  try dsimp only
  repeat' first
    | with_reducible assumption
    | with_reducible apply dfeAdapts_grows
    | with_reducible apply setF_grows
    | with_reducible apply tickFree_grows
    | with_reducible refine Grows.ite ?_ ?_
    | split
    | dsimp only

theorem trainEnd_grows {s0 : State} (s : State) (l : Nat) (h : Grows s0 s) : Grows s0 (State.trainEnd s l) := by
  unfold State.trainEnd
  try dsimp only
  repeat' first
    | with_reducible assumption
    | with_reducible apply laneTo_grows
    | with_reducible apply sendBlocks_grows
    | with_reducible refine Grows.ite ?_ ?_
    | split
    | dsimp only

theorem execTrainingFrameReceived_grows (l : Fin 128) (trn : BitVec 64) (ready : Bool) (s : State) :
    GrowsO s (execTrainingFrameReceived l trn ready s) := by
  unfold execTrainingFrameReceived
  try dsimp only
  try refine GrowsO.next ?_
  repeat' first
    | refine GrowsO.next ?_
    | with_reducible assumption
    | with_reducible exact Grows.refl _
    | with_reducible apply adapted_grows
    | with_reducible apply sendFrame_grows
    | with_reducible apply setF_grows
    | with_reducible apply setLn_grows
    | with_reducible apply trainEnd_grows
    | fail_if_no_progress with_reducible apply Grows.mk'
    | with_reducible refine Grows.ite ?_ ?_
    | with_reducible refine Grows.iteP ?_ ?_
    | split
    | dsimp only

theorem execTrainingTimeout_grows (l : Fin 128) (s : State) : GrowsO s (execTrainingTimeout l s) := by
  unfold execTrainingTimeout
  try dsimp only
  try refine GrowsO.next ?_
  repeat' first
    | refine GrowsO.next ?_
    | with_reducible assumption
    | with_reducible exact Grows.refl _
    | with_reducible apply laneEvent_grows
    | with_reducible apply laneLog_grows
    | with_reducible apply laneTo_grows
    | with_reducible apply pnlEvent_grows
    | fail_if_no_progress with_reducible apply Grows.mk'
    | with_reducible refine Grows.ite ?_ ?_
    | split
    | dsimp only

theorem execFailedRetry_grows (l : Fin 128) (s : State) : GrowsO s (execFailedRetry l s) := by
  unfold execFailedRetry
  try dsimp only
  try refine GrowsO.next ?_
  repeat' first
    | refine GrowsO.next ?_
    | with_reducible assumption
    | with_reducible exact Grows.refl _
    | with_reducible apply trainStart_grows
    | with_reducible refine Grows.ite ?_ ?_
    | split
    | dsimp only

theorem execLockingTimeout_grows (l : Fin 128) (s : State) : GrowsO s (execLockingTimeout l s) := by
  unfold execLockingTimeout
  try dsimp only
  try refine GrowsO.next ?_
  repeat' first
    | refine GrowsO.next ?_
    | with_reducible assumption
    | with_reducible exact Grows.refl _
    | with_reducible apply trainStart_grows
    | fail_if_no_progress with_reducible apply Grows.mk'
    | with_reducible refine Grows.ite ?_ ?_
    | split
    | dsimp only

theorem execIdentTimeout_grows (l : Fin 128) (s : State) : GrowsO s (execIdentTimeout l s) := by
  unfold execIdentTimeout
  try dsimp only
  try refine GrowsO.next ?_
  repeat' first
    | refine GrowsO.next ?_
    | with_reducible assumption
    | with_reducible exact Grows.refl _
    | with_reducible apply laneTo_grows
    | fail_if_no_progress with_reducible apply Grows.mk'
    | with_reducible refine Grows.ite ?_ ?_
    | split
    | dsimp only

theorem execIdleEntReceived_grows (l : Fin 128) (s : State) : GrowsO s (execIdleEntReceived l s) := by
  unfold execIdleEntReceived
  try dsimp only
  try refine GrowsO.next ?_
  repeat' first
    | refine GrowsO.next ?_
    | with_reducible assumption
    | with_reducible exact Grows.refl _
    | with_reducible apply laneTo_grows
    | with_reducible apply setLn_grows
    | fail_if_no_progress with_reducible apply Grows.mk'
    | with_reducible refine Grows.ite ?_ ?_
    | split
    | dsimp only

theorem execAlignReceived_grows (l : Fin 128) (block : AlignBlock) (s : State) :
    GrowsO s (execAlignReceived l block s) := by
  unfold execAlignReceived
  try dsimp only
  try refine GrowsO.next ?_
  repeat' first
    | refine GrowsO.next ?_
    | intro _
    | with_reducible assumption
    | with_reducible exact Grows.refl _
    | with_reducible apply laneEvent_grows
    | with_reducible apply laneLog_grows
    | with_reducible apply setLn_grows
    | with_reducible refine Grows.forL _ ?_ ?_
    | fail_if_no_progress with_reducible apply Grows.mk'
    | with_reducible refine Grows.ite ?_ ?_
    | split
    | dsimp only

theorem laneEn_grows {s0 : State} (s : State) (l : Nat) (on : Bool) (h : Grows s0 s) :
    Grows s0 (State.laneEn s l on) := by
  unfold State.laneEn
  try dsimp only
  repeat' first
    | with_reducible assumption
    | with_reducible apply laneBind_grows
    | with_reducible apply laneTo_grows
    | with_reducible apply msrcUpdate_grows
    | with_reducible apply setF_grows
    | with_reducible apply setLane_grows
    | with_reducible apply setLn_grows
    | fail_if_no_progress with_reducible apply Grows.mk'
    | with_reducible refine Grows.ite ?_ ?_
    | split
    | dsimp only

theorem execLaneEnable_grows (l : Fin 128) (on : Bool) (s : State) : GrowsO s (execLaneEnable l on s) := by
  unfold execLaneEnable
  try dsimp only
  try refine GrowsO.next ?_
  repeat' first
    | refine GrowsO.next ?_
    | with_reducible assumption
    | with_reducible exact Grows.refl _
    | with_reducible apply laneEn_grows
    | fail_if_no_progress with_reducible apply Grows.mk'
    | with_reducible refine Grows.ite ?_ ?_
    | split
    | dsimp only

theorem laneIdle_grows {s0 : State} (s : State) (l : Nat) (h : Grows s0 s) : Grows s0 (State.laneIdle s l) := by
  unfold State.laneIdle
  try dsimp only
  repeat' first
    | with_reducible assumption
    | with_reducible apply laneTo_grows
    | with_reducible apply sendBlocks_grows
    | with_reducible apply setLn_grows
    | fail_if_no_progress with_reducible apply Grows.mk'
    | with_reducible refine Grows.ite ?_ ?_
    | split
    | dsimp only

theorem execLaneIdleReq_grows (l : Fin 128) (s : State) : GrowsO s (execLaneIdleReq l s) := by
  unfold execLaneIdleReq
  try dsimp only
  try refine GrowsO.next ?_
  repeat' first
    | refine GrowsO.next ?_
    | with_reducible assumption
    | with_reducible exact Grows.refl _
    | with_reducible apply laneIdle_grows
    | with_reducible apply setF_grows
    | dsimp only

theorem laneWake_grows {s0 : State} (s : State) (l : Nat) (h : Grows s0 s) : Grows s0 (State.laneWake s l) := by
  unfold State.laneWake
  try dsimp only
  repeat' first
    | with_reducible assumption
    | with_reducible apply sendBlocks_grows
    | with_reducible apply sendFrame_grows
    | with_reducible apply setLn_grows
    | with_reducible apply trainStart_grows
    | fail_if_no_progress with_reducible apply Grows.mk'
    | with_reducible refine Grows.ite ?_ ?_
    | split
    | dsimp only

theorem execLaneWakeReq_grows (l : Fin 128) (s : State) : GrowsO s (execLaneWakeReq l s) := by
  unfold execLaneWakeReq
  try dsimp only
  try refine GrowsO.next ?_
  repeat' first
    | refine GrowsO.next ?_
    | with_reducible assumption
    | with_reducible exact Grows.refl _
    | with_reducible apply laneWake_grows
    | with_reducible apply setF_grows
    | dsimp only

theorem execWakeBurstTimeout_grows (l : Fin 128) (s : State) : GrowsO s (execWakeBurstTimeout l s) := by
  unfold execWakeBurstTimeout
  try dsimp only
  try refine GrowsO.next ?_
  repeat' first
    | refine GrowsO.next ?_
    | with_reducible assumption
    | with_reducible exact Grows.refl _
    | with_reducible apply laneEvent_grows
    | with_reducible apply laneRemove_grows
    | fail_if_no_progress with_reducible apply Grows.mk'
    | with_reducible refine Grows.ite ?_ ?_
    | split
    | dsimp only

/-! ## Correction -/

theorem setSm_grows {s0 : State} (s : State) (ch : Nat) (x : SeamCh) (h : Grows s0 s) :
    Grows s0 (State.setSm s ch x) := by
  unfold State.setSm
  try dsimp only
  repeat' first
    | with_reducible assumption
    | fail_if_no_progress with_reducible apply Grows.mk'
    | dsimp only

theorem lampApply_grows {s0 : State} (s : State) (g : Nat) (k : Int) (ch : Nat) (aux : Nat) (v : Int) (h : Grows s0 s) :
    Grows s0 (State.lampApply s g k ch aux v) := by
  unfold State.lampApply
  try dsimp only
  repeat' first
    | intro _
    | with_reducible assumption
    | with_reducible apply raise_grows
    | with_reducible apply setCh_grows
    | with_reducible apply setI_grows
    | with_reducible refine Grows.forN _ ?_ ?_
    | fail_if_no_progress with_reducible apply Grows.mk'
    | with_reducible refine Grows.ite ?_ ?_
    | split
    | dsimp only

theorem lampGain_grows {s0 : State} (s : State) (g : Nat) (k : Int) (ch : Nat) (z : Nat) (h : Grows s0 s) :
    Grows s0 (State.lampGain s g k ch z) := by
  unfold State.lampGain
  try dsimp only
  repeat' first
    | with_reducible assumption
    | with_reducible apply setF_grows
    | fail_if_no_progress with_reducible apply Grows.mk'
    | with_reducible refine Grows.ite ?_ ?_
    | split
    | dsimp only

theorem lampCourse_grows {s0 : State} (s : State) (g : Nat) (ch : Nat) (k : Nat) (h : Grows s0 s) :
    Grows s0 (State.lampCourse s g ch k) := by
  unfold State.lampCourse
  try dsimp only
  repeat' first
    | intro _
    | with_reducible assumption
    | with_reducible apply lampApply_grows
    | with_reducible apply lampGain_grows
    | with_reducible apply setCh_grows
    | with_reducible refine Grows.forL _ ?_ ?_
    | with_reducible refine Grows.forN _ ?_ ?_
    | fail_if_no_progress with_reducible apply Grows.mk'
    | with_reducible refine Grows.iteP ?_ ?_
    | dsimp only

theorem statClose_grows {s0 : State} (s : State) (ch : Nat) (kind : Nat) (last : Nat) (st : Stat) (h : Grows s0 s) :
    Grows s0 (State.statClose s ch kind last st) := by
  unfold State.statClose
  try dsimp only
  repeat' first
    | with_reducible assumption
    | with_reducible apply ringPush_grows
    | with_reducible apply satF_grows
    | with_reducible refine Grows.ite ?_ ?_
    | with_reducible refine Grows.iteP ?_ ?_
    | split
    | dsimp only

theorem statCourse_grows {s0 : State} (s : State) (ch : Nat) (kind : Nat) (k : Nat) (acc : Option Stat) (line : Option Line) (spare : Bool) (pix : List Pix) (h : Grows s0 s) :
    Grows s0 (State.statCourse s ch kind k acc line spare pix).1 := by
  unfold State.statCourse
  try dsimp only
  repeat' first
    | intro _
    | with_reducible assumption
    | with_reducible apply statClose_grows
    | with_reducible refine Grows.foldl _ ?_ ?_
    | with_reducible refine Grows.foldlP _ ?_ ?_
    | fail_if_no_progress with_reducible apply Grows.mk'
    | with_reducible refine Grows.ite ?_ ?_
    | with_reducible refine Grows.iteP ?_ ?_
    | split
    | dsimp only

theorem statEnd_grows {s0 : State} (s : State) (ch : Nat) (last : Nat) (h : Grows s0 s) :
    Grows s0 (State.statEnd s ch last) := by
  unfold State.statEnd
  try dsimp only
  repeat' first
    | with_reducible assumption
    | with_reducible apply setCh_grows
    | with_reducible apply statClose_grows
    | fail_if_no_progress with_reducible apply Grows.mk'
    | with_reducible refine Grows.ite ?_ ?_
    | split
    | dsimp only

theorem gaugePend_grows {s0 : State} (s : State) (ch : Nat) (h : Grows s0 s) : Grows s0 (State.gaugePend s ch) := by
  unfold State.gaugePend
  try dsimp only
  repeat' first
    | with_reducible assumption
    | with_reducible apply setF_grows
    | with_reducible refine Grows.ite ?_ ?_
    | split
    | dsimp only

theorem gaugeReq_grows {s0 : State} (s : State) (ch : Nat) (course : Int) (temp : Int) (pages : List Nat) (h : Grows s0 s) :
    Grows s0 (State.gaugeReq s ch course temp pages) := by
  unfold State.gaugeReq
  try dsimp only
  repeat' first
    | with_reducible assumption
    | with_reducible apply gaugePend_grows
    | with_reducible apply setCh_grows
    | fail_if_no_progress with_reducible apply Grows.mk'
    | split
    | dsimp only

theorem tempCheck_grows {s0 : State} (s : State) (g : Nat) (c : Nat) (h : Grows s0 s) :
    Grows s0 (State.tempCheck s g c) := by
  unfold State.tempCheck
  try dsimp only
  repeat' first
    | intro _
    | with_reducible assumption
    | with_reducible apply gaugeReq_grows
    | with_reducible apply raise_grows
    | with_reducible refine Grows.forL _ ?_ ?_
    | fail_if_no_progress with_reducible apply Grows.mk'
    | with_reducible refine Grows.ite ?_ ?_
    | split
    | dsimp only

theorem gaugeRead_grows {s0 : State} (s : State) (ch : Nat) (a : Nat) (n : Nat) (h : Grows s0 s) :
    Grows s0 (State.gaugeRead s ch a n).1 := by
  unfold State.gaugeRead
  try dsimp only
  repeat' first
    | with_reducible assumption
    | with_reducible apply memRead_grows
    | fail_if_no_progress with_reducible apply Grows.mk'
    | with_reducible refine Grows.iteP ?_ ?_
    | split
    | dsimp only

theorem gaugePoint_grows {s0 : State} (s : State) (ch : Nat) (base : Nat) (npix : Nat) (i : Nat) (crc : Nat) (h : Grows s0 s) :
    Grows s0 (State.gaugePoint s ch base npix i crc).1 := by
  unfold State.gaugePoint
  try dsimp only
  repeat' first
    | intro _
    | with_reducible assumption
    | with_reducible apply gaugeRead_grows
    | fail_if_no_progress with_reducible apply Grows.mk'
    | with_reducible refine Grows.ite ?_ ?_
    | with_reducible refine Grows.iteP ?_ ?_
    | split
    | dsimp only

theorem gaugeCompute_grows {s0 : State} (s : State) (ch : Nat) (sel : Nat) (temp : Option Int) (h : Grows s0 s) :
    Grows s0 (State.gaugeCompute s ch sel temp).1 := by
  unfold State.gaugeCompute
  try dsimp only
  repeat' first
    | intro _
    | with_reducible assumption
    | with_reducible apply gaugePoint_grows
    | with_reducible apply gaugeRead_grows
    | with_reducible apply mark_grows
    | fail_if_no_progress with_reducible apply Grows.mk'
    | with_reducible refine Grows.ite ?_ ?_
    | with_reducible refine Grows.iteP ?_ ?_
    | split
    | dsimp only

theorem gaugeFail_grows {s0 : State} (s : State) (ch : Nat) (e : GaugeErr) (h : Grows s0 s) :
    Grows s0 (State.gaugeFail s ch e) := by
  unfold State.gaugeFail
  try dsimp only
  repeat' first
    | with_reducible assumption
    | with_reducible apply logReg_grows
    | with_reducible apply raise_grows
    | fail_if_no_progress with_reducible apply Grows.mk'
    | split
    | dsimp only

theorem calRecord_grows {s0 : State} (s : State) (ch : Nat) (c : Nat) (temp : Int) (h : Grows s0 s) :
    Grows s0 (State.calRecord s ch c temp) := by
  unfold State.calRecord
  try dsimp only
  repeat' first
    | with_reducible assumption
    | with_reducible apply incF_grows
    | with_reducible apply setF_grows
    | with_reducible apply setI_grows
    | dsimp only

theorem calStamp_grows {s0 : State} (s : State) (ch : Nat) (sec : Nat) (ns : Nat) (h : Grows s0 s) :
    Grows s0 (State.calStamp s ch sec ns) := by
  unfold State.calStamp
  try dsimp only
  repeat' first
    | with_reducible assumption
    | with_reducible apply setCh_grows
    | with_reducible apply setF_grows
    | fail_if_no_progress with_reducible apply Grows.mk'
    | dsimp only

theorem calTime_grows {s0 : State} (s : State) (ch : Nat) (h : Grows s0 s) : Grows s0 (State.calTime s ch) := by
  unfold State.calTime
  try dsimp only
  repeat' first
    | with_reducible assumption
    | with_reducible apply calStamp_grows
    | dsimp only

theorem jrnGauge_grows {s0 : State} (s : State) (g : Nat) (ch : Nat) (c : Nat) (t : GaugeTab) (h : Grows s0 s) :
    Grows s0 (State.jrnGauge s g ch c t) := by
  unfold State.jrnGauge
  try dsimp only
  repeat' first
    | with_reducible assumption
    | with_reducible apply jrn_grows
    | dsimp only

theorem gaugeTrigger_grows {s0 : State} (s : State) (g : Nat) (c : Nat) (h : Grows s0 s) :
    Grows s0 (State.gaugeTrigger s g c) := by
  unfold State.gaugeTrigger
  try dsimp only
  repeat' first
    | intro _
    | with_reducible assumption
    | with_reducible apply calRecord_grows
    | with_reducible apply calTime_grows
    | with_reducible apply jrnGauge_grows
    | with_reducible apply setCh_grows
    | with_reducible refine Grows.forL _ ?_ ?_
    | fail_if_no_progress with_reducible apply Grows.mk'
    | with_reducible refine Grows.ite ?_ ?_
    | split
    | dsimp only

theorem gaugeFirst_grows {s0 : State} (s : State) (g : Nat) (l : List Nat) (h : Grows s0 s) :
    Grows s0 (s.gaugeFirst g l).1 := by
  induction l generalizing s with
  | nil => exact h
  | cons x l ih =>
    unfold State.gaugeFirst
    dsimp only
    repeat' first
      | intro _
      | with_reducible assumption
      | with_reducible exact Grows.refl _
      | with_reducible apply ih
      | with_reducible apply calRecord_grows
      | with_reducible apply calTime_grows
      | with_reducible apply gaugeCompute_grows
      | with_reducible apply gaugeFail_grows
      | with_reducible apply jrnGauge_grows
      | with_reducible apply setCh_grows
      | with_reducible refine Grows.forL _ ?_ ?_
      | with_reducible refine Grows.forN _ ?_ ?_
      | with_reducible refine Grows.foldl _ ?_ ?_
      | with_reducible refine Grows.foldlP _ ?_ ?_
      | fail_if_no_progress with_reducible apply Grows.mk'
      | with_reducible refine Grows.ite ?_ ?_
      | with_reducible refine Grows.iteP ?_ ?_
      | split
      | with_reducible refine Grows.fst (by assumption) ?_
      | dsimp only
      | omega

theorem capLine_grows {s0 : State} (s : State) (g : Nat) (ch : Nat) (k : Nat) (h : Grows s0 s) :
    Grows s0 (State.capLine s g ch k) := by
  unfold State.capLine
  try dsimp only
  repeat' first
    | intro _
    | with_reducible assumption
    | with_reducible apply capItem_grows
    | fail_if_no_progress with_reducible apply Grows.mk'
    | with_reducible refine Grows.ite ?_ ?_
    | split
    | dsimp only

theorem correctCourse_grows {s0 : State} (s : State) (g : Nat) (ch : Nat) (k : Nat) (ecc : List Nat) (h : Grows s0 s) :
    Grows s0 (State.correctCourse s g ch k ecc) := by
  unfold State.correctCourse
  try dsimp only
  repeat' first
    | intro _
    | with_reducible assumption
    | with_reducible apply cswSet_grows
    | with_reducible apply gaugeReq_grows
    | with_reducible apply incF_grows
    | with_reducible apply lampCourse_grows
    | with_reducible apply mark_grows
    | with_reducible apply satF_grows
    | with_reducible apply setCh_grows
    | with_reducible apply setF_grows
    | with_reducible apply statCourse_grows
    | with_reducible apply statEnd_grows
    | fail_if_no_progress with_reducible apply Grows.mk'
    | with_reducible refine Grows.ite ?_ ?_
    | with_reducible refine Grows.iteP ?_ ?_
    | split
    | dsimp only

theorem execChannelCourseStart_grows (ch : Fin 128) (ecc : List Nat) (s : State) :
    GrowsO s (execChannelCourseStart ch ecc s) := by
  unfold execChannelCourseStart
  try dsimp only
  try refine GrowsO.next ?_
  repeat' first
    | refine GrowsO.next ?_
    | with_reducible assumption
    | with_reducible exact Grows.refl _
    | with_reducible apply capLine_grows
    | with_reducible apply correctCourse_grows
    | fail_if_no_progress with_reducible apply Grows.mk'
    | with_reducible refine Grows.ite ?_ ?_
    | split
    | dsimp only

theorem execGaugeJobStart_grows (region : Fin 8) (s : State) : GrowsO s (execGaugeJobStart region s) := by
  unfold execGaugeJobStart
  try dsimp only
  try refine GrowsO.next ?_
  repeat' first
    | refine GrowsO.next ?_
    | intro _
    | with_reducible assumption
    | with_reducible exact Grows.refl _
    | with_reducible apply gaugePend_grows
    | with_reducible apply setCh_grows
    | fail_if_no_progress with_reducible apply Grows.mk'
    | split
    | dsimp only

theorem execGaugeJobComplete_grows (region : Fin 8) (s : State) : GrowsO s (execGaugeJobComplete region s) := by
  unfold execGaugeJobComplete
  try dsimp only
  try refine GrowsO.next ?_
  repeat' first
    | refine GrowsO.next ?_
    | with_reducible assumption
    | with_reducible exact Grows.refl _
    | with_reducible apply gaugeCompute_grows
    | with_reducible apply gaugeFail_grows
    | with_reducible apply gaugePend_grows
    | with_reducible apply setCh_grows
    | fail_if_no_progress with_reducible apply Grows.mk'
    | with_reducible refine Grows.ite ?_ ?_
    | with_reducible refine Grows.iteP ?_ ?_
    | split
    | dsimp only

/-! ## Seam -/

theorem setSmG_grows {s0 : State} (s : State) (g : Nat) (x : SeamGrp) (h : Grows s0 s) :
    Grows s0 (State.setSmG s g x) := by
  unfold State.setSmG
  try dsimp only
  repeat' first
    | with_reducible assumption
    | fail_if_no_progress with_reducible apply Grows.mk'
    | dsimp only

theorem seamGeometry_grows {s0 : State} (s : State) (g : Nat) (h : Grows s0 s) : Grows s0 (State.seamGeometry s g) := by
  unfold State.seamGeometry
  try dsimp only
  repeat' first
    | intro _
    | with_reducible assumption
    | with_reducible apply setF_grows
    | with_reducible refine Grows.forL _ ?_ ?_
    | dsimp only

theorem setOff_grows {s0 : State} (s : State) (ch : Nat) (k : Nat) (keep : Bool) (d : Int × Int) (h : Grows s0 s) :
    Grows s0 (State.setOff s ch k keep d) := by
  unfold State.setOff
  try dsimp only
  repeat' first
    | with_reducible assumption
    | with_reducible apply setI_grows
    | with_reducible apply setSm_grows
    | fail_if_no_progress with_reducible apply Grows.mk'
    | with_reducible refine Grows.iteP ?_ ?_
    | dsimp only

theorem initOff_grows {s0 : State} (s : State) (g : Nat) (ch : Nat) (k : Nat) (h : Grows s0 s) :
    Grows s0 (State.initOff s g ch k) := by
  unfold State.initOff
  try dsimp only
  repeat' first
    | with_reducible assumption
    | with_reducible apply setOff_grows
    | dsimp only

theorem seamJoins_grows {s0 : State} (s : State) (g : Nat) (c : Nat) (h : Grows s0 s) :
    Grows s0 (State.seamJoins s g c) := by
  unfold State.seamJoins
  try dsimp only
  repeat' first
    | intro _
    | with_reducible assumption
    | with_reducible apply initOff_grows
    | with_reducible refine Grows.forL _ ?_ ?_
    | with_reducible refine Grows.iteP ?_ ?_
    | dsimp only

theorem seamStart_grows {s0 : State} (s : State) (g : Nat) (h : Grows s0 s) : Grows s0 (State.seamStart s g) := by
  unfold State.seamStart
  try dsimp only
  repeat' first
    | intro _
    | with_reducible assumption
    | with_reducible apply initOff_grows
    | with_reducible apply seamGeometry_grows
    | with_reducible apply setF_grows
    | with_reducible apply setSmG_grows
    | with_reducible apply setSm_grows
    | with_reducible refine Grows.forL _ ?_ ?_
    | dsimp only

theorem measure_grows {s0 : State} (s : State) (g : Nat) (ch : Nat) (k : Nat) (za : List (Option Int)) (zb : List (Option Int)) (h : Grows s0 s) :
    Grows s0 (State.measure s g ch k za zb) := by
  unfold State.measure
  try dsimp only
  repeat' first
    | intro _
    | with_reducible assumption
    | with_reducible apply setSm_grows
    | fail_if_no_progress with_reducible apply Grows.mk'
    | with_reducible refine Grows.ite ?_ ?_
    | with_reducible refine Grows.iteP ?_ ?_
    | split
    | dsimp only

theorem showHold_grows {s0 : State} (s : State) (g : Nat) (h : Grows s0 s) : Grows s0 (State.showHold s g) := by
  unfold State.showHold
  try dsimp only
  repeat' first
    | intro _
    | with_reducible assumption
    | with_reducible apply setF_grows
    | dsimp only

theorem seamTo_grows {s0 : State} (s : State) (ch : Nat) (st : Nat) (h : Grows s0 s) :
    Grows s0 (State.seamTo s ch st) := by
  unfold State.seamTo
  try dsimp only
  repeat' first
    | with_reducible assumption
    | with_reducible apply raise_grows
    | with_reducible apply setF_grows
    | with_reducible refine Grows.ite ?_ ?_
    | split
    | dsimp only

theorem evalSeam_grows {s0 : State} (s : State) (g : Nat) (ch : Nat) (c : Nat) (len : Nat) (h : Grows s0 s) :
    Grows s0 (State.evalSeam s g ch c len).1 := by
  unfold State.evalSeam
  try dsimp only
  repeat' first
    | intro _
    | with_reducible assumption
    | with_reducible apply logReg_grows
    | with_reducible apply mark_grows
    | with_reducible apply raise_grows
    | with_reducible apply satF_grows
    | with_reducible apply seamTo_grows
    | with_reducible apply setF_grows
    | with_reducible apply setI_grows
    | with_reducible refine Grows.foldl _ ?_ ?_
    | with_reducible refine Grows.foldlP _ ?_ ?_
    | fail_if_no_progress with_reducible apply Grows.mk'
    | with_reducible refine Grows.ite ?_ ?_
    | with_reducible refine Grows.iteP ?_ ?_
    | split
    | dsimp only

theorem seamPush_grows {s0 : State} (s : State) (g : Nat) (e : List Byte) (h : Grows s0 s) :
    Grows s0 (State.seamPush s g e) := by
  unfold State.seamPush
  try dsimp only
  repeat' first
    | with_reducible assumption
    | with_reducible apply ringPush_grows
    | with_reducible refine Grows.ite ?_ ?_
    | with_reducible refine Grows.iteP ?_ ?_
    | split
    | dsimp only

theorem evalSeams_grows {s0 : State} (s : State) (g c len : Nat) (l : List Nat) (h : Grows s0 s) :
    Grows s0 (s.evalSeams g c len l).1 := by
  induction l generalizing s with
  | nil => exact h
  | cons x l ih => exact ih _ (evalSeam_grows s g x c len h)

theorem blockEnd_grows {s0 : State} (s : State) (g : Nat) (k : Nat) (h : Grows s0 s) :
    Grows s0 (State.blockEnd s g k) := by
  unfold State.blockEnd
  try dsimp only
  repeat' first
    | intro _
    | with_reducible assumption
    | with_reducible apply evalSeams_grows
    | with_reducible apply raise_grows
    | with_reducible apply seamPush_grows
    | with_reducible apply setOff_grows
    | with_reducible apply setSmG_grows
    | with_reducible apply setSm_grows
    | with_reducible apply showHold_grows
    | with_reducible refine Grows.forL _ ?_ ?_
    | fail_if_no_progress with_reducible apply Grows.mk'
    | with_reducible refine Grows.ite ?_ ?_
    | with_reducible refine Grows.iteP ?_ ?_
    | split
    | dsimp only

theorem seamOpen_grows {s0 : State} (s : State) (g : Nat) (k : Nat) (h : Grows s0 s) :
    Grows s0 (State.seamOpen s g k) := by
  unfold State.seamOpen
  try dsimp only
  repeat' first
    | intro _
    | with_reducible assumption
    | with_reducible apply cswSet_grows
    | with_reducible apply seamTo_grows
    | with_reducible apply setF_grows
    | with_reducible apply setSmG_grows
    | with_reducible apply setSm_grows
    | with_reducible apply showHold_grows
    | with_reducible refine Grows.forL _ ?_ ?_
    | fail_if_no_progress with_reducible apply Grows.mk'
    | with_reducible refine Grows.ite ?_ ?_
    | split
    | dsimp only

theorem selvCourse_grows {s0 : State} (s : State) (g : Nat) (k : Nat) (h : Grows s0 s) :
    Grows s0 (State.selvCourse s g k) := by
  unfold State.selvCourse
  try dsimp only
  repeat' first
    | intro _
    | with_reducible assumption
    | with_reducible apply raise_grows
    | with_reducible apply setI_grows
    | with_reducible apply setSmG_grows
    | fail_if_no_progress with_reducible apply Grows.mk'
    | with_reducible refine Grows.ite ?_ ?_
    | split
    | dsimp only

theorem selvRun_grows {s0 : State} (s : State) (g n : Nat) (h : Grows s0 s) : Grows s0 (s.selvRun g n) := by
  induction n generalizing s with
  | zero => exact h
  | succ n ih =>
    unfold State.selvRun
    dsimp only
    exact Grows.ite (ih _ (setSmG_grows _ _ _ (selvCourse_grows _ _ _ h))) h

theorem slotFree_grows {s0 : State} (s : State) (ch : Nat) (k : Nat) (h : Grows s0 s) :
    Grows s0 (State.slotFree s ch k) := by
  unfold State.slotFree
  try dsimp only
  repeat' first
    | intro _
    | with_reducible assumption
    | with_reducible apply setCh_grows
    | fail_if_no_progress with_reducible apply Grows.mk'
    | dsimp only

theorem seamTrim_grows {s0 : State} (s : State) (g : Nat) (ch : Nat) (h : Grows s0 s) :
    Grows s0 (State.seamTrim s g ch) := by
  unfold State.seamTrim
  try dsimp only
  repeat' first
    | intro _
    | with_reducible assumption
    | with_reducible apply setCh_grows
    | fail_if_no_progress with_reducible apply Grows.mk'
    | with_reducible refine Grows.ite ?_ ?_
    | with_reducible refine Grows.iteP ?_ ?_
    | split
    | dsimp only

theorem haloWait_grows {s0 : State} (s : State) (g : Nat) (ch : Nat) (k : Nat) (h : Grows s0 s) :
    Grows s0 (State.haloWait s g ch k) := by
  unfold State.haloWait
  try dsimp only
  repeat' first
    | with_reducible assumption
    | with_reducible apply satF_grows
    | with_reducible refine Grows.ite ?_ ?_
    | split
    | dsimp only

theorem seamCourse_grows {s0 : State} (s : State) (g : Nat) (ch : Nat) (k : Nat) (h : Grows s0 s) :
    Grows s0 (State.seamCourse s g ch k) := by
  unfold State.seamCourse
  try dsimp only
  repeat' first
    | with_reducible assumption
    | with_reducible apply cswFinish_grows
    | with_reducible apply haloWait_grows
    | with_reducible apply measure_grows
    | with_reducible apply raise_grows
    | with_reducible apply satF_grows
    | with_reducible apply seamOpen_grows
    | with_reducible apply seamTrim_grows
    | with_reducible apply selvRun_grows
    | with_reducible apply setSm_grows
    | with_reducible apply slotFree_grows
    | fail_if_no_progress with_reducible apply Grows.mk'
    | with_reducible refine Grows.ite ?_ ?_
    | with_reducible refine Grows.iteP ?_ ?_
    | split
    | dsimp only

theorem execSeamOutputStart_grows (ch : Fin 128) (s : State) : GrowsO s (execSeamOutputStart ch s) := by
  unfold execSeamOutputStart
  try dsimp only
  try refine GrowsO.next ?_
  repeat' first
    | refine GrowsO.next ?_
    | with_reducible assumption
    | with_reducible exact Grows.refl _
    | with_reducible apply seamCourse_grows
    | fail_if_no_progress with_reducible apply Grows.mk'
    | with_reducible refine Grows.ite ?_ ?_
    | split
    | dsimp only

theorem execRegBlockEnd_grows (g : Fin 16) (s : State) : GrowsO s (execRegBlockEnd g s) := by
  unfold execRegBlockEnd
  try dsimp only
  try refine GrowsO.next ?_
  repeat' first
    | refine GrowsO.next ?_
    | with_reducible assumption
    | with_reducible exact Grows.refl _
    | with_reducible apply blockEnd_grows
    | with_reducible refine Grows.ite ?_ ?_
    | split
    | dsimp only

end Sys2Proof.Machine
end

