-- ==== Sys2Proof/Laws/GrowsSegment.lean ====
section
/-!
SUPPORT. What every operation keeps (Laws/Grows.lean), shown of segmentation, tally and views: one lemma per
operation of the model, named after it.
-/

set_option linter.unusedTactic false
set_option linter.unreachableTactic false
set_option maxRecDepth 4000

namespace Sys2Proof.Machine

/-! ## Segment -/

theorem setSg_grows {s0 : State} (s : State) (g : Nat) (x : SegGrp) (h : Grows s0 s) :
    Grows s0 (State.setSg s g x) := by
  unfold State.setSg
  try dsimp only
  repeat' first
    | with_reducible assumption
    | fail_if_no_progress with_reducible apply Grows.mk'
    | dsimp only

theorem segStart_grows {s0 : State} (s : State) (g : Nat) (h : Grows s0 s) : Grows s0 (State.segStart s g) := by
  unfold State.segStart
  try dsimp only
  repeat' first
    | intro _
    | with_reducible assumption
    | with_reducible apply setF_grows
    | with_reducible apply setSg_grows
    | with_reducible refine Grows.ite ?_ ?_
    | split
    | dsimp only

theorem segJoins_grows {s0 : State} (s : State) (g : Nat) (c : Nat) (h : Grows s0 s) :
    Grows s0 (State.segJoins s g c) := by
  unfold State.segJoins
  try dsimp only
  repeat' first
    | with_reducible assumption
    | with_reducible apply setF_grows
    | with_reducible refine Grows.ite ?_ ?_
    | split
    | dsimp only

theorem holdShow_grows {s0 : State} (s : State) (g : Nat) (h : Grows s0 s) : Grows s0 (State.holdShow s g) := by
  unfold State.holdShow
  try dsimp only
  repeat' first
    | with_reducible assumption
    | with_reducible apply setF_grows
    | fail_if_no_progress with_reducible apply Grows.mk'
    | with_reducible refine Grows.ite ?_ ?_
    | split
    | dsimp only

theorem holdFrom_grows {s0 : State} (s : State) (g : Nat) (c : Nat) (h : Grows s0 s) :
    Grows s0 (State.holdFrom s g c) := by
  unfold State.holdFrom
  try dsimp only
  repeat' first
    | intro _
    | with_reducible assumption
    | with_reducible apply holdShow_grows
    | with_reducible apply setSg_grows
    | fail_if_no_progress with_reducible apply Grows.mk'
    | with_reducible refine Grows.ite ?_ ?_
    | split
    | dsimp only

theorem combTo_grows {s0 : State} (s : State) (g : Nat) (k : Nat) (h : Grows s0 s) : Grows s0 (State.combTo s g k) := by
  unfold State.combTo
  try dsimp only
  repeat' first
    | intro _
    | with_reducible assumption
    | with_reducible apply setSg_grows
    | with_reducible refine Grows.forL _ ?_ ?_
    | fail_if_no_progress with_reducible apply Grows.mk'
    | dsimp only

theorem thrCourse_grows {s0 : State} (s : State) (g : Nat) (k : Nat) (h : Grows s0 s) :
    Grows s0 (State.thrCourse s g k) := by
  unfold State.thrCourse
  try dsimp only
  repeat' first
    | intro _
    | with_reducible assumption
    | with_reducible apply satF_grows
    | with_reducible apply setF_grows
    | with_reducible apply setSg_grows
    | with_reducible refine Grows.foldl _ ?_ ?_
    | with_reducible refine Grows.foldlP _ ?_ ?_
    | fail_if_no_progress with_reducible apply Grows.mk'
    | with_reducible refine Grows.ite ?_ ?_
    | with_reducible refine Grows.iteP ?_ ?_
    | split
    | dsimp only

theorem thrTo_grows {s0 : State} (s : State) (g : Nat) (k : Nat) (h : Grows s0 s) : Grows s0 (State.thrTo s g k) := by
  unfold State.thrTo
  try dsimp only
  repeat' first
    | intro _
    | with_reducible assumption
    | with_reducible apply combTo_grows
    | with_reducible apply thrCourse_grows
    | with_reducible refine Grows.forL _ ?_ ?_
    | dsimp only

theorem mapCourse_grows {s0 : State} (s : State) (g : Nat) (c : Nat) (h : Grows s0 s) :
    Grows s0 (State.mapCourse s g c) := by
  unfold State.mapCourse
  try dsimp only
  repeat' first
    | intro _
    | with_reducible assumption
    | with_reducible apply satF_grows
    | with_reducible apply setSg_grows
    | with_reducible apply thrTo_grows
    | with_reducible refine Grows.forL _ ?_ ?_
    | fail_if_no_progress with_reducible apply Grows.mk'
    | with_reducible refine Grows.iteP ?_ ?_
    | dsimp only

theorem execSegmentMapCourse_grows (g : Fin 16) (s : State) : GrowsO s (execSegmentMapCourse g s) := by
  unfold execSegmentMapCourse
  try dsimp only
  try refine GrowsO.next ?_
  repeat' first
    | refine GrowsO.next ?_
    | with_reducible assumption
    | with_reducible exact Grows.refl _
    | with_reducible apply mapCourse_grows
    | with_reducible refine Grows.ite ?_ ?_
    | split
    | dsimp only

theorem takeChunk_grows {s0 : State} (s : State) (g : Nat) (h : Grows s0 s) : Grows s0 (State.takeChunk s g).1 := by
  unfold State.takeChunk
  try dsimp only
  repeat' first
    | with_reducible assumption
    | with_reducible apply setF_grows
    | with_reducible apply setSg_grows
    | fail_if_no_progress with_reducible apply Grows.mk'
    | with_reducible refine Grows.iteP ?_ ?_
    | split
    | dsimp only

theorem appendRun_grows {s0 : State} (s : State) (g : Nat) (seg : Seg) (bs : List Byte) (n : Nat) (h : Grows s0 s) :
    Grows s0 (s.appendRun g seg bs n).1 := by
  induction n generalizing s seg bs with
  | zero => exact h
  | succ n ih =>
    unfold State.appendRun
    dsimp only
    repeat' first
      | intro _
      | with_reducible assumption
      | with_reducible exact Grows.refl _
      | with_reducible apply ih
      | with_reducible apply memWrite_grows
      | with_reducible apply takeChunk_grows
      | with_reducible refine Grows.forL _ ?_ ?_
      | with_reducible refine Grows.forN _ ?_ ?_
      | with_reducible refine Grows.foldl _ ?_ ?_
      | with_reducible refine Grows.foldlP _ ?_ ?_
      | fail_if_no_progress with_reducible apply Grows.mk'
      | with_reducible refine Grows.ite ?_ ?_
      | with_reducible refine Grows.iteP ?_ ?_
      | split
      | with_reducible refine Grows.fst (by assumption) ?_
      | dsimp only
      | omega

theorem runDropped_grows {s0 : State} (s : State) (g : Nat) (c : Nat) (r : Run) (h : Grows s0 s) :
    Grows s0 (State.runDropped s g c r) := by
  unfold State.runDropped
  try dsimp only
  repeat' first
    | intro _
    | with_reducible assumption
    | with_reducible apply jrn_grows
    | with_reducible apply logReg_grows
    | with_reducible apply raise_grows
    | with_reducible apply satF_grows
    | with_reducible apply setSg_grows
    | fail_if_no_progress with_reducible apply Grows.mk'
    | with_reducible refine Grows.ite ?_ ?_
    | split
    | dsimp only

theorem storeRun_grows {s0 : State} (s : State) (g : Nat) (c : Nat) (seg : Seg) (r : Run) (h : Grows s0 s) :
    Grows s0 (State.storeRun s g c seg r).1 := by
  unfold State.storeRun
  try dsimp only
  repeat' first
    | with_reducible assumption
    | with_reducible apply appendRun_grows
    | with_reducible apply runDropped_grows
    | fail_if_no_progress with_reducible apply Grows.mk'
    | with_reducible refine Grows.ite ?_ ?_
    | with_reducible refine Grows.iteP ?_ ?_
    | split
    | dsimp only

theorem segAdd_grows {s0 : State} (s : State) (g : Nat) (c : Nat) (overC : Bool) (seg : Seg) (r : Run) (h : Grows s0 s) :
    Grows s0 (State.segAdd s g c overC seg r).1 := by
  unfold State.segAdd
  try dsimp only
  repeat' first
    | with_reducible assumption
    | with_reducible apply storeRun_grows
    | fail_if_no_progress with_reducible apply Grows.mk'
    | with_reducible refine Grows.ite ?_ ?_
    | with_reducible refine Grows.iteP ?_ ?_
    | split
    | dsimp only

theorem segAddAll_grows {s0 : State} (s : State) (g c : Nat) (v : Bool) (seg : Seg) (l : List Run) (h : Grows s0 s) :
    Grows s0 (s.segAddAll g c v seg l).1 := by
  induction l generalizing s seg with
  | nil => exact h
  | cons x l ih => exact ih _ _ (segAdd_grows _ _ _ _ _ _ h)

theorem segJoin_grows {s0 : State} (s : State) (g : Nat) (a : Seg) (b : Seg) (h : Grows s0 s) :
    Grows s0 (State.segJoin s g a b).1 := by
  unfold State.segJoin
  try dsimp only
  repeat' first
    | with_reducible assumption
    | with_reducible apply memWrite_grows
    | fail_if_no_progress with_reducible apply Grows.mk'
    | with_reducible refine Grows.ite ?_ ?_
    | with_reducible refine Grows.iteP ?_ ?_
    | split
    | dsimp only

theorem resolveReal_grows {s0 : State} (s : State) (g c : Nat) (x : SegGrp) (w : ResWork) (r : RunSet) (h :
    Grows s0 s) :
    Grows s0 (s.resolveReal g c x w r).1 := by
  unfold State.resolveReal
  dsimp only
  split
  · exact h
  · exact segAddAll_grows _ _ _ _ _ _ (Grows.foldlP _ (fun _ _ hp => segJoin_grows _ _ _ _ hp) h)

theorem resolveNew_grows {s0 : State} (s : State) (g : Nat) (c : Nat) (avail : Nat) (w : ResWork) (r : RunSet) (h : Grows s0 s) :
    Grows s0 (State.resolveNew s g c avail w r).1 := by
  unfold State.resolveNew
  try dsimp only
  repeat' first
    | with_reducible assumption
    | with_reducible apply segAddAll_grows
    | fail_if_no_progress with_reducible apply Grows.mk'
    | with_reducible refine Grows.ite ?_ ?_
    | with_reducible refine Grows.iteP ?_ ?_
    | split
    | dsimp only

theorem showOpen_grows {s0 : State} (s : State) (g : Nat) (h : Grows s0 s) : Grows s0 (State.showOpen s g) := by
  unfold State.showOpen
  try dsimp only
  repeat' first
    | with_reducible assumption
    | with_reducible apply setF_grows
    | dsimp only

theorem overNote_grows {s0 : State} (s : State) (g : Nat) (c : Nat) (pix : Nat) (h : Grows s0 s) :
    Grows s0 (State.overNote s g c pix) := by
  unfold State.overNote
  try dsimp only
  repeat' first
    | intro _
    | with_reducible assumption
    | with_reducible apply cswSet_grows
    | with_reducible apply logReg_grows
    | with_reducible apply raise_grows
    | with_reducible apply satF_grows
    | with_reducible apply setSg_grows
    | fail_if_no_progress with_reducible apply Grows.mk'
    | with_reducible refine Grows.ite ?_ ?_
    | split
    | dsimp only

theorem resolveOver_grows {s0 : State} (s : State) (g : Nat) (c : Nat) (x : SegGrp) (runs : List Run) (bridge : Bool) (row : List (Bool × Nat)) (h : Grows s0 s) :
    Grows s0 (State.resolveOver s g c x runs bridge row).1 := by
  unfold State.resolveOver
  try dsimp only
  repeat' first
    | intro _
    | with_reducible assumption
    | with_reducible apply segAddAll_grows
    | with_reducible refine Grows.foldl _ ?_ ?_
    | with_reducible refine Grows.foldlP _ ?_ ?_
    | fail_if_no_progress with_reducible apply Grows.mk'
    | with_reducible refine Grows.ite ?_ ?_
    | with_reducible refine Grows.iteP ?_ ?_
    | split
    | dsimp only

theorem resolve_grows {s0 : State} (s : State) (g : Nat) (c : Nat) (runs : List Run) (h : Grows s0 s) :
    Grows s0 (State.resolve s g c runs) := by
  unfold State.resolve
  try dsimp only
  repeat' first
    | intro _
    | with_reducible assumption
    | with_reducible apply cswFinish_grows
    | with_reducible apply overNote_grows
    | with_reducible apply resolveNew_grows
    | with_reducible apply resolveOver_grows
    | with_reducible apply resolveReal_grows
    | with_reducible apply setSg_grows
    | with_reducible apply showOpen_grows
    | with_reducible refine Grows.foldl _ ?_ ?_
    | with_reducible refine Grows.foldlP _ ?_ ?_
    | fail_if_no_progress with_reducible apply Grows.mk'
    | with_reducible refine Grows.ite ?_ ?_
    | with_reducible refine Grows.iteP ?_ ?_
    | split
    | dsimp only

theorem execResolution_grows (g : Fin 16) (s : State) : GrowsO s (execResolution g s) := by
  unfold execResolution
  try dsimp only
  try refine GrowsO.next ?_
  repeat' first
    | refine GrowsO.next ?_
    | with_reducible assumption
    | with_reducible exact Grows.refl _
    | with_reducible apply resolve_grows
    | with_reducible apply setSg_grows
    | fail_if_no_progress with_reducible apply Grows.mk'
    | with_reducible refine Grows.ite ?_ ?_
    | split
    | dsimp only

theorem segStop_grows {s0 : State} (s : State) (g : Nat) (h : Grows s0 s) : Grows s0 (State.segStop s g) := by
  unfold State.segStop
  try dsimp only
  repeat' first
    | intro _
    | with_reducible assumption
    | with_reducible apply setSg_grows
    | with_reducible apply showOpen_grows
    | fail_if_no_progress with_reducible apply Grows.mk'
    | with_reducible refine Grows.ite ?_ ?_
    | split
    | dsimp only

theorem execDescriptorHand_grows (g : Fin 16) (s : State) : GrowsO s (execDescriptorHand g s) := by
  unfold execDescriptorHand
  try dsimp only
  try refine GrowsO.next ?_
  repeat' first
    | refine GrowsO.next ?_
    | with_reducible assumption
    | with_reducible exact Grows.refl _
    | with_reducible apply incF_grows
    | with_reducible apply ringStarve_grows
    | with_reducible apply ringWrite_grows
    | with_reducible apply setSg_grows
    | fail_if_no_progress with_reducible apply Grows.mk'
    | with_reducible refine Grows.ite ?_ ?_
    | split
    | dsimp only

theorem descWait_grows {s0 : State} (s : State) (g : Nat) (h : Grows s0 s) : Grows s0 (State.descWait s g) := by
  unfold State.descWait
  try dsimp only
  repeat' first
    | with_reducible assumption
    | with_reducible apply satF_grows
    | with_reducible refine Grows.ite ?_ ?_
    | split
    | dsimp only

/-! ## Classify -/

theorem readCls_grows {s0 : State} (s : State) (unit : Nat) (a : Nat) (h : Grows s0 s) :
    Grows s0 (State.readCls s unit a).1 := by
  unfold State.readCls
  try dsimp only
  repeat' first
    | with_reducible assumption
    | with_reducible apply memRead_grows
    | fail_if_no_progress with_reducible apply Grows.mk'
    | with_reducible refine Grows.iteP ?_ ?_
    | split
    | dsimp only

theorem slotsOk_grows {s0 : State} (s : State) (g : Nat) (sh : Bool) (l : List Nat) (h : Grows s0 s) :
    Grows s0 (s.slotsOk g sh l).1 := by
  induction l generalizing s with
  | nil => exact h
  | cons x l ih =>
    unfold State.slotsOk
    dsimp only
    repeat' first
      | intro _
      | with_reducible assumption
      | with_reducible exact Grows.refl _
      | with_reducible apply ih
      | with_reducible apply readCls_grows
      | with_reducible refine Grows.forL _ ?_ ?_
      | with_reducible refine Grows.forN _ ?_ ?_
      | with_reducible refine Grows.foldl _ ?_ ?_
      | with_reducible refine Grows.foldlP _ ?_ ?_
      | fail_if_no_progress with_reducible apply Grows.mk'
      | with_reducible refine Grows.ite ?_ ?_
      | with_reducible refine Grows.iteP ?_ ?_
      | split
      | with_reducible refine Grows.fst (by assumption) ?_
      | dsimp only
      | omega

/-! ## Tally -/

theorem setTg_grows {s0 : State} (s : State) (g : Nat) (x : TalGrp) (h : Grows s0 s) :
    Grows s0 (State.setTg s g x) := by
  unfold State.setTg
  try dsimp only
  repeat' first
    | with_reducible assumption
    | fail_if_no_progress with_reducible apply Grows.mk'
    | dsimp only

theorem showJobs_grows {s0 : State} (s : State) (g : Nat) (h : Grows s0 s) : Grows s0 (State.showJobs s g) := by
  unfold State.showJobs
  try dsimp only
  repeat' first
    | with_reducible assumption
    | with_reducible apply setF_grows
    | dsimp only

theorem giveJob_grows {s0 : State} (s : State) (g : Nat) (e : Nat) (j : Job) (h : Grows s0 s) :
    Grows s0 (State.giveJob s g e j) := by
  unfold State.giveJob
  try dsimp only
  repeat' first
    | intro _
    | with_reducible assumption
    | with_reducible apply setF_grows
    | with_reducible apply setTg_grows
    | fail_if_no_progress with_reducible apply Grows.mk'
    | dsimp only

theorem execJobDispatch_grows (g : Fin 16) (s : State) : GrowsO s (execJobDispatch g s) := by
  unfold execJobDispatch
  try dsimp only
  try refine GrowsO.next ?_
  repeat' first
    | refine GrowsO.next ?_
    | intro _
    | with_reducible assumption
    | with_reducible exact Grows.refl _
    | with_reducible apply giveJob_grows
    | with_reducible apply readEntry_grows
    | with_reducible apply setF_grows
    | with_reducible apply setTg_grows
    | with_reducible apply showJobs_grows
    | with_reducible apply take_grows
    | fail_if_no_progress with_reducible apply Grows.mk'
    | with_reducible refine Grows.ite ?_ ?_
    | with_reducible refine Grows.iteP ?_ ?_
    | split
    | dsimp only

theorem readPieces_grows {s0 : State} (s : State) (unit a n fuel : Nat) (h : Grows s0 s) :
    Grows s0 (s.readPieces unit a n fuel).1 := by
  induction fuel generalizing s a n with
  | zero => exact h
  | succ fuel ih =>
    unfold State.readPieces
    dsimp only
    exact Grows.iteP h (ih _ _ _ (memRead_grows _ _ _ _ _ h))

theorem readChain_grows {s0 : State} (s : State) (unit a n : Nat) (h : Grows s0 s) :
    Grows s0 (s.readChain unit a n).1 := by
  induction n generalizing s a with
  | zero => exact h
  | succ n ih =>
    unfold State.readChain
    dsimp only
    repeat' first
      | intro _
      | with_reducible assumption
      | with_reducible exact Grows.refl _
      | with_reducible apply ih
      | with_reducible apply memRead_grows
      | with_reducible apply readPieces_grows
      | with_reducible refine Grows.forL _ ?_ ?_
      | with_reducible refine Grows.forN _ ?_ ?_
      | with_reducible refine Grows.foldl _ ?_ ?_
      | with_reducible refine Grows.foldlP _ ?_ ?_
      | fail_if_no_progress with_reducible apply Grows.mk'
      | with_reducible refine Grows.ite ?_ ?_
      | with_reducible refine Grows.iteP ?_ ?_
      | split
      | with_reducible refine Grows.fst (by assumption) ?_
      | dsimp only
      | omega

theorem histWrite_grows {s0 : State} (s : State) (g : Nat) (c : Nat) (enc : Int) (h : Grows s0 s) :
    Grows s0 (State.histWrite s g c enc) := by
  unfold State.histWrite
  try dsimp only
  repeat' first
    | with_reducible assumption
    | with_reducible apply memWrite_grows
    | with_reducible refine Grows.ite ?_ ?_
    | with_reducible refine Grows.iteP ?_ ?_
    | split
    | dsimp only

theorem histRead_grows {s0 : State} (s : State) (g : Nat) (unit : Nat) (c : Int) (h : Grows s0 s) :
    Grows s0 (State.histRead s g unit c).1 := by
  unfold State.histRead
  try dsimp only
  repeat' first
    | with_reducible assumption
    | with_reducible apply memRead_grows
    | fail_if_no_progress with_reducible apply Grows.mk'
    | with_reducible refine Grows.iteP ?_ ?_
    | split
    | dsimp only

theorem placeOf_grows {s0 : State} (s : State) (g : Nat) (unit : Nat) (d : SegData) (f : Feat) (h : Grows s0 s) :
    Grows s0 (State.placeOf s g unit d f).1 := by
  unfold State.placeOf
  try dsimp only
  repeat' first
    | intro _
    | with_reducible assumption
    | with_reducible apply histRead_grows
    | with_reducible apply tickFree_grows
    | fail_if_no_progress with_reducible apply Grows.mk'
    | with_reducible refine Grows.ite ?_ ?_
    | with_reducible refine Grows.iteP ?_ ?_
    | split
    | dsimp only

theorem classify_grows {s0 : State} (s : State) (g : Nat) (unit : Nat) (hd : Int) (d : SegData) (fv : List Int) (p : Option Patch) (h : Grows s0 s) :
    Grows s0 (State.classify s g unit hd d fv p).1 := by
  unfold State.classify
  try dsimp only
  repeat' first
    | with_reducible assumption
    | with_reducible apply readCls_grows
    | with_reducible apply tickFree_grows
    | fail_if_no_progress with_reducible apply Grows.mk'
    | with_reducible refine Grows.ite ?_ ?_
    | with_reducible refine Grows.iteP ?_ ?_
    | split
    | dsimp only

theorem returnChunks_grows {s0 : State} (s : State) (g : Nat) (cs : List Nat) (h : Grows s0 s) :
    Grows s0 (State.returnChunks s g cs) := by
  unfold State.returnChunks
  try dsimp only
  repeat' first
    | with_reducible assumption
    | with_reducible apply setF_grows
    | with_reducible apply setSg_grows
    | fail_if_no_progress with_reducible apply Grows.mk'
    | dsimp only

theorem rerunCompare_grows {s0 : State} (s : State) (g : Nat) (id : Nat) (bytes : List Byte) (h : Grows s0 s) :
    Grows s0 (State.rerunCompare s g id bytes) := by
  unfold State.rerunCompare
  try dsimp only
  repeat' first
    | intro _
    | with_reducible assumption
    | with_reducible apply log_grows
    | with_reducible apply satF_grows
    | fail_if_no_progress with_reducible apply Grows.mk'
    | with_reducible refine Grows.ite ?_ ?_
    | with_reducible refine Grows.iteP ?_ ?_
    | split
    | dsimp only

theorem recordDone_grows {s0 : State} (s : State) (g : Nat) (j : Job) (course : Nat) (bytes : List Byte) (src : Nat) (idx : Nat) (chunks : List Nat) (h : Grows s0 s) :
    Grows s0 (State.recordDone s g j course bytes src idx chunks) := by
  unfold State.recordDone
  try dsimp only
  repeat' first
    | intro _
    | with_reducible assumption
    | with_reducible apply incF_grows
    | with_reducible apply jrn_grows
    | with_reducible apply rerunCompare_grows
    | with_reducible apply returnChunks_grows
    | with_reducible apply setTg_grows
    | with_reducible apply showJobs_grows
    | fail_if_no_progress with_reducible apply Grows.mk'
    | with_reducible refine Grows.ite ?_ ?_
    | split
    | dsimp only

theorem patchWrite_grows {s0 : State} (s : State) (g : Nat) (id : Nat) (en : Bool) (bytes : List Byte) (h : Grows s0 s) :
    Grows s0 (State.patchWrite s g id en bytes).1 := by
  unfold State.patchWrite
  try dsimp only
  repeat' first
    | intro _
    | with_reducible assumption
    | with_reducible apply raise_grows
    | with_reducible apply ringPush_grows
    | with_reducible apply satF_grows
    | fail_if_no_progress with_reducible apply Grows.mk'
    | with_reducible refine Grows.ite ?_ ?_
    | with_reducible refine Grows.iteP ?_ ?_
    | split
    | dsimp only

theorem fillOf_grows {s0 : State} (s : State) (d : SegData) (h : Grows s0 s) : Grows s0 (State.fillOf s d).1 := by
  unfold State.fillOf
  try dsimp only
  repeat' first
    | with_reducible assumption
    | with_reducible apply tickFree_grows
    | with_reducible refine Grows.ite ?_ ?_
    | with_reducible refine Grows.iteP ?_ ?_
    | split
    | dsimp only

theorem rerunFails_grows {s0 : State} (s : State) (g : Nat) (bad : Bool) (h : Grows s0 s) :
    Grows s0 (State.rerunFails s g bad) := by
  unfold State.rerunFails
  try dsimp only
  repeat' first
    | with_reducible assumption
    | with_reducible apply setF_grows
    | with_reducible refine Grows.ite ?_ ?_
    | split
    | dsimp only

theorem completeJob_grows {s0 : State} (s : State) (g : Nat) (unit : Nat) (j : Job) (failed : Bool) (h : Grows s0 s) :
    Grows s0 (State.completeJob s g unit j failed) := by
  unfold State.completeJob
  try dsimp only
  repeat' first
    | intro _
    | with_reducible assumption
    | with_reducible apply classify_grows
    | with_reducible apply fillOf_grows
    | with_reducible apply patchWrite_grows
    | with_reducible apply placeOf_grows
    | with_reducible apply raise_grows
    | with_reducible apply readChain_grows
    | with_reducible apply recordDone_grows
    | with_reducible apply rerunFails_grows
    | fail_if_no_progress with_reducible apply Grows.mk'
    | with_reducible refine Grows.ite ?_ ?_
    | with_reducible refine Grows.iteP ?_ ?_
    | split
    | dsimp only

theorem execJobComplete_grows (e : Fin 128) (s : State) : GrowsO s (execJobComplete e s) := by
  unfold execJobComplete
  try dsimp only
  try refine GrowsO.next ?_
  repeat' first
    | refine GrowsO.next ?_
    | with_reducible assumption
    | with_reducible exact Grows.refl _
    | with_reducible apply completeJob_grows
    | with_reducible apply incF_grows
    | with_reducible apply setF_grows
    | fail_if_no_progress with_reducible apply Grows.mk'
    | with_reducible refine Grows.ite ?_ ?_
    | split
    | dsimp only

theorem releaseTo_grows {s0 : State} (s : State) (g : Nat) (r : Nat) (h : Grows s0 s) :
    Grows s0 (State.releaseTo s g r) := by
  unfold State.releaseTo
  try dsimp only
  repeat' first
    | intro _
    | with_reducible assumption
    | with_reducible apply ringPush_grows
    | with_reducible apply ringStarve_grows
    | with_reducible apply ringWrite_grows
    | with_reducible apply satF_grows
    | with_reducible apply setTg_grows
    | fail_if_no_progress with_reducible apply Grows.mk'
    | with_reducible refine Grows.ite ?_ ?_
    | with_reducible refine Grows.iteP ?_ ?_
    | split
    | dsimp only

theorem execRecordRelease_grows (g : Fin 16) (s : State) : GrowsO s (execRecordRelease g s) := by
  unfold execRecordRelease
  try dsimp only
  try refine GrowsO.next ?_
  repeat' first
    | refine GrowsO.next ?_
    | intro _
    | with_reducible assumption
    | with_reducible exact Grows.refl _
    | with_reducible apply releaseTo_grows
    | with_reducible apply setTg_grows
    | with_reducible apply showJobs_grows
    | with_reducible refine Grows.forN _ ?_ ?_
    | fail_if_no_progress with_reducible apply Grows.mk'
    | with_reducible refine Grows.ite ?_ ?_
    | split
    | dsimp only

theorem engineFails_grows {s0 : State} (s : State) (e : Nat) (f : Fld) (h : Grows s0 s) :
    Grows s0 (State.engineFails s e f) := by
  unfold State.engineFails
  try dsimp only
  repeat' first
    | intro _
    | with_reducible assumption
    | with_reducible apply completeJob_grows
    | with_reducible apply logReg_grows
    | with_reducible apply raise_grows
    | with_reducible apply satF_grows
    | with_reducible apply setF_grows
    | with_reducible apply setTg_grows
    | with_reducible refine Grows.forL _ ?_ ?_
    | fail_if_no_progress with_reducible apply Grows.mk'
    | with_reducible refine Grows.ite ?_ ?_
    | with_reducible refine Grows.iteP ?_ ?_
    | split
    | dsimp only

theorem execEngineFault_grows (e : Fin 128) (residue : Bool) (s : State) : GrowsO s (execEngineFault e residue s) := by
  unfold execEngineFault
  try dsimp only
  try refine GrowsO.next ?_
  repeat' first
    | refine GrowsO.next ?_
    | with_reducible assumption
    | with_reducible exact Grows.refl _
    | with_reducible apply engineFails_grows
    | with_reducible refine Grows.ite ?_ ?_
    | split
    | dsimp only

theorem execEngineWatchdog_grows (e : Fin 128) (s : State) : GrowsO s (execEngineWatchdog e s) := by
  unfold execEngineWatchdog
  try dsimp only
  try refine GrowsO.next ?_
  repeat' first
    | refine GrowsO.next ?_
    | with_reducible assumption
    | with_reducible exact Grows.refl _
    | with_reducible apply engineFails_grows
    | with_reducible refine Grows.ite ?_ ?_
    | split
    | dsimp only

theorem teRestore_grows {s0 : State} (s : State) (e : Nat) (h : Grows s0 s) : Grows s0 (State.teRestore s e) := by
  unfold State.teRestore
  try dsimp only
  repeat' first
    | with_reducible assumption
    | with_reducible apply setF_grows
    | with_reducible refine Grows.ite ?_ ?_
    | split
    | dsimp only

theorem execTeRestore_grows (e : Fin 128) (s : State) : GrowsO s (execTeRestore e s) := by
  unfold execTeRestore
  try dsimp only
  try refine GrowsO.next ?_
  repeat' first
    | refine GrowsO.next ?_
    | with_reducible assumption
    | with_reducible exact Grows.refl _
    | with_reducible apply teRestore_grows
    | dsimp only

theorem releaseRings_grows {s0 : State} (s : State) (g : Nat) (h : Grows s0 s) : Grows s0 (State.releaseRings s g) := by
  unfold State.releaseRings
  try dsimp only
  repeat' first
    | intro _
    | with_reducible assumption
    | with_reducible exact Grows.refl _
    | with_reducible apply unbind_grows
    | with_reducible apply unsubAll_grows
    | with_reducible refine Grows.forL _ ?_ ?_
    | with_reducible refine Grows.forN _ ?_ ?_
    | with_reducible refine Grows.foldl _ ?_ ?_
    | with_reducible refine Grows.foldlP _ ?_ ?_
    | fail_if_no_progress with_reducible apply Grows.mk'
    | with_reducible refine Grows.ite ?_ ?_
    | with_reducible refine Grows.iteP ?_ ?_
    | split
    | with_reducible refine Grows.fst (by assumption) ?_
    | dsimp only
    | omega

theorem execDrainEnd_grows (g : Fin 16) (s : State) : GrowsO s (execDrainEnd g s) := by
  unfold execDrainEnd
  try dsimp only
  try refine GrowsO.next ?_
  repeat' first
    | refine GrowsO.next ?_
    | intro _
    | with_reducible assumption
    | with_reducible exact Grows.refl _
    | with_reducible apply releaseRings_grows
    | with_reducible apply setF_grows
    | with_reducible apply setG_grows
    | with_reducible apply statEnd_grows
    | with_reducible refine Grows.forL _ ?_ ?_
    | fail_if_no_progress with_reducible apply Grows.mk'
    | with_reducible refine Grows.ite ?_ ?_
    | split
    | dsimp only

/-! ## Views -/

theorem viewShow_grows {s0 : State} (s : State) (v : Nat) (on : Bool) (h : Grows s0 s) :
    Grows s0 (State.viewShow s v on) := by
  unfold State.viewShow
  try dsimp only
  repeat' first
    | with_reducible assumption
    | with_reducible apply setF_grows
    | with_reducible refine Grows.ite ?_ ?_
    | split
    | dsimp only

theorem viewStart_grows {s0 : State} (s : State) (v : Nat) (h : Grows s0 s) : Grows s0 (State.viewStart s v) := by
  unfold State.viewStart
  try dsimp only
  repeat' first
    | intro _
    | with_reducible assumption
    | with_reducible apply bind_grows
    | with_reducible apply viewShow_grows
    | fail_if_no_progress with_reducible apply Grows.mk'
    | with_reducible refine Grows.ite ?_ ?_
    | with_reducible refine Grows.iteP ?_ ?_
    | split
    | dsimp only

theorem viewStop_grows {s0 : State} (s : State) (v : Nat) (h : Grows s0 s) : Grows s0 (State.viewStop s v) := by
  unfold State.viewStop
  try dsimp only
  repeat' first
    | with_reducible assumption
    | with_reducible apply unbind_grows
    | with_reducible apply viewShow_grows
    | dsimp only

theorem viewsGroup_grows {s0 : State} (s : State) (g : Nat) (on : Bool) (h : Grows s0 s) :
    Grows s0 (State.viewsGroup s g on) := by
  unfold State.viewsGroup
  try dsimp only
  repeat' first
    | intro _
    | with_reducible assumption
    | with_reducible apply viewShow_grows
    | with_reducible refine Grows.forN _ ?_ ?_
    | fail_if_no_progress with_reducible apply Grows.mk'
    | with_reducible refine Grows.ite ?_ ?_
    | with_reducible refine Grows.iteP ?_ ?_
    | split
    | dsimp only

theorem viewKeep_grows {s0 : State} (s : State) (v : Nat) (key : Nat) (old : Nat) (h : Grows s0 s) :
    Grows s0 (State.viewKeep s v key old) := by
  unfold State.viewKeep
  try dsimp only
  repeat' first
    | intro _
    | with_reducible assumption
    | fail_if_no_progress with_reducible apply Grows.mk'
    | with_reducible refine Grows.ite ?_ ?_
    | with_reducible refine Grows.iteP ?_ ?_
    | split
    | dsimp only

theorem rising_foldl_put (l : List (Nat × Nat × Nat)) (t : List (Nat × Nat)) (h : Tab.rising t = true) :
    Tab.rising (l.foldl (fun t o => Tab.put o.2.1 o.2.2 t) t) = true := by
  induction l generalizing t with
  | nil => exact h
  | cons o l ih => exact ih _ (Tab.rising_put h)

theorem viewAs_grows {s0 : State} (s : State) (v : Nat) (h : Grows s0 s) : Grows s0 (s.viewAs v) :=
  h.updC rfl rfl rfl rfl rfl id id (rising_foldl_put _ _) id id

theorem trigTime_grows {s0 : State} (s : State) (g : Nat) (k : Nat) (h : Grows s0 s) :
    Grows s0 (State.trigTime s g k).1 := by
  unfold State.trigTime
  try dsimp only
  repeat' first
    | intro _
    | with_reducible assumption
    | with_reducible exact Grows.refl _
    | with_reducible apply readFree_grows
    | with_reducible apply tickFree_grows
    | with_reducible refine Grows.forL _ ?_ ?_
    | with_reducible refine Grows.forN _ ?_ ?_
    | with_reducible refine Grows.foldl _ ?_ ?_
    | with_reducible refine Grows.foldlP _ ?_ ?_
    | fail_if_no_progress with_reducible apply Grows.mk'
    | with_reducible refine Grows.ite ?_ ?_
    | with_reducible refine Grows.iteP ?_ ?_
    | split
    | with_reducible refine Grows.fst (by assumption) ?_
    | dsimp only
    | omega

theorem dpHold_grows {s0 : State} (s : State) (v : Nat) (pw : Nat) (m : Nat) (h : Grows s0 s) :
    Grows s0 (State.dpHold s v pw m) := by
  unfold State.dpHold
  try dsimp only
  repeat' first
    | intro _
    | with_reducible assumption
    | fail_if_no_progress with_reducible apply Grows.mk'
    | dsimp only

theorem putRow_grows {s0 : State} (s : State) (v : Nat) (course : Nat) (px : List (Nat × Nat)) (flags : Nat) (h : Grows s0 s) :
    Grows s0 (State.putRow s v course px flags) := by
  unfold State.putRow
  try dsimp only
  repeat' first
    | with_reducible assumption
    | with_reducible apply dpHold_grows
    | with_reducible apply incF_grows
    | with_reducible apply memWrite_grows
    | with_reducible apply raise_grows
    | with_reducible apply ringPush_grows
    | with_reducible apply trigTime_grows
    | fail_if_no_progress with_reducible apply Grows.mk'
    | with_reducible refine Grows.ite ?_ ?_
    | with_reducible refine Grows.iteP ?_ ?_
    | split
    | dsimp only

theorem execViewRow_grows (v : Fin 16) (skip : Bool) (s : State) : GrowsO s (execViewRow v skip s) := by
  unfold execViewRow
  try dsimp only
  try refine GrowsO.next ?_
  repeat' first
    | refine GrowsO.next ?_
    | intro _
    | with_reducible assumption
    | with_reducible exact Grows.refl _
    | with_reducible apply putRow_grows
    | with_reducible apply satF_grows
    | with_reducible apply viewAs_grows
    | fail_if_no_progress with_reducible apply Grows.mk'
    | with_reducible refine Grows.ite ?_ ?_
    | with_reducible refine Grows.iteP ?_ ?_
    | split
    | dsimp only

theorem execLookbackRow_grows (g : Fin 16) (s : State) : GrowsO s (execLookbackRow g s) := by
  unfold execLookbackRow
  refine GrowsO.next ?_
  split
  · dsimp only
    split
    · exact (Grows.refl s).upd rfl rfl rfl rfl rfl rfl rfl rfl rfl rfl
    · refine memWrite_grows _ _ _ _ _ ?_
      refine (Grows.updFree (s.lbCols g) (Grows.refl s)).upd rfl rfl rfl rfl rfl rfl rfl rfl rfl rfl
  · exact Grows.refl s

theorem lbRead_grows {s0 : State} (s : State) (g v r : Nat) (h : Grows s0 s) : Grows s0 (s.lbRead g v r).1 := by
  unfold State.lbRead
  dsimp only
  split
  · exact memRead_grows _ _ _ _ _ h
  · exact Grows.updFree _ (memRead_grows _ _ _ _ _ h)

theorem lbReads_grows {s0 : State} (s : State) (g v : Nat) (l : List Nat) (h : Grows s0 s) :
    Grows s0 (s.lbReads g v l).1 := by
  induction l generalizing s with
  | nil => exact h
  | cons x l ih => exact ih _ (lbRead_grows s g v x h)

theorem execLookbackPace_grows (v : Fin 16) (s : State) : GrowsO s (execLookbackPace v s) := by
  unfold execLookbackPace
  try dsimp only
  try refine GrowsO.next ?_
  repeat' first
    | refine GrowsO.next ?_
    | intro _
    | with_reducible assumption
    | with_reducible exact Grows.refl _
    | with_reducible apply lbReads_grows
    | with_reducible apply mark_grows
    | with_reducible apply putRow_grows
    | with_reducible apply viewShow_grows
    | fail_if_no_progress with_reducible apply Grows.mk'
    | with_reducible refine Grows.ite ?_ ?_
    | with_reducible refine Grows.iteP ?_ ?_
    | split
    | dsimp only

theorem dpRead_grows {s0 : State} (s : State) (v : Nat) (h : Grows s0 s) : Grows s0 (State.dpRead s v) := by
  unfold State.dpRead
  try dsimp only
  repeat' first
    | intro _
    | with_reducible assumption
    | with_reducible exact Grows.refl _
    | with_reducible apply readFree_grows
    | with_reducible refine Grows.forL _ ?_ ?_
    | with_reducible refine Grows.forN _ ?_ ?_
    | with_reducible refine Grows.foldl _ ?_ ?_
    | with_reducible refine Grows.foldlP _ ?_ ?_
    | fail_if_no_progress with_reducible apply Grows.mk'
    | with_reducible refine Grows.ite ?_ ?_
    | with_reducible refine Grows.iteP ?_ ?_
    | split
    | with_reducible refine Grows.fst (by assumption) ?_
    | dsimp only
    | omega

theorem execVblankLatch_grows (s : State) : GrowsO s (execVblankLatch s) := by
  unfold execVblankLatch
  try dsimp only
  try refine GrowsO.next ?_
  repeat' first
    | refine GrowsO.next ?_
    | intro _
    | with_reducible assumption
    | with_reducible exact Grows.refl _
    | with_reducible apply dpRead_grows
    | with_reducible refine Grows.forN _ ?_ ?_
    | fail_if_no_progress with_reducible apply Grows.mk'
    | with_reducible refine Grows.ite ?_ ?_
    | split
    | dsimp only

end Sys2Proof.Machine
end

