-- ==== Sys2Proof/Laws/GrowsCourses.lean ====
section
/-!
SUPPORT. What every operation keeps (Laws/Grows.lean), shown of course boundaries, courses and groups: one lemma per
operation of the model, named after it.
-/

set_option linter.unusedTactic false
set_option linter.unreachableTactic false
set_option maxRecDepth 4000

namespace Sys2Proof.Machine

/-! ## Boundary -/

/-- Fields put into a bank keep its order. -/
theorem rising_putAll (l bank : List (Nat × Nat)) (h : Tab.rising bank = true) : Tab.rising (putAll l bank) = true := by
  unfold putAll
  induction l generalizing bank with
  | nil => exact h
  | cons e l ih => exact ih _ (Tab.rising_put h)

theorem putKey_grows {s0 : State} (s : State) (w : FieldWrite) (rst : Nat) (h : Grows s0 s) :
    Grows s0 (s.putKey w rst) :=
  h.updC rfl rfl rfl rfl rfl id id Tab.rising_put id id

theorem applyL_grows {s0 : State} (s : State) (g : Nat) (c : Option Nat) (w : FieldWrite) (h : Grows s0 s) :
    Grows s0 (State.applyL s g c w) := by
  unfold State.applyL
  try dsimp only
  repeat' first
    | intro _
    | with_reducible assumption
    | with_reducible apply holdFrom_grows
    | with_reducible apply laneEn_grows
    | with_reducible apply laneIdle_grows
    | with_reducible apply laneWake_grows
    | with_reducible apply putKey_grows
    | fail_if_no_progress with_reducible apply Grows.mk'
    | with_reducible refine Grows.ite ?_ ?_
    | split
    | dsimp only

theorem keepOld_grows {s0 : State} (s : State) (c : Nat) (w : FieldWrite) (h : Grows s0 s) :
    Grows s0 (State.keepOld s c w) := by
  unfold State.keepOld
  try dsimp only
  repeat' first
    | with_reducible assumption
    | fail_if_no_progress with_reducible apply Grows.mk'
    | with_reducible refine Grows.ite ?_ ?_
    | split
    | dsimp only

theorem applyAt_grows {s0 : State} (s : State) (g : Nat) (c : Nat) (w : FieldWrite) (h : Grows s0 s) :
    Grows s0 (State.applyAt s g c w) := by
  unfold State.applyAt
  try dsimp only
  repeat' first
    | with_reducible assumption
    | with_reducible apply applyL_grows
    | with_reducible apply keepOld_grows
    | dsimp only

theorem applyAll_grows {s0 : State} (s : State) (g : Nat) (c : Nat) (l : List FieldWrite) (h : Grows s0 s) :
    Grows s0 (State.applyAll s g c l) := by
  unfold State.applyAll
  try dsimp only
  repeat' first
    | intro _
    | with_reducible assumption
    | with_reducible apply applyAt_grows
    | with_reducible refine Grows.forL _ ?_ ?_
    | with_reducible refine Grows.iteP ?_ ?_
    | dsimp only

theorem writesAt_grows {s0 : State} (s : State) (g : Nat) (c : Nat) (h : Grows s0 s) :
    Grows s0 (State.writesAt s g c) := by
  unfold State.writesAt
  try dsimp only
  repeat' first
    | intro _
    | with_reducible assumption
    | with_reducible apply applyAll_grows
    | with_reducible apply setF_grows
    | with_reducible refine Grows.forL _ ?_ ?_
    | fail_if_no_progress with_reducible apply Grows.mk'
    | dsimp only

theorem writesStop_grows {s0 : State} (s : State) (g : Nat) (h : Grows s0 s) : Grows s0 (State.writesStop s g) := by
  unfold State.writesStop
  try dsimp only
  repeat' first
    | intro _
    | with_reducible assumption
    | with_reducible apply applyAll_grows
    | with_reducible apply log_grows
    | with_reducible apply raise_grows
    | with_reducible apply satF_grows
    | with_reducible apply setF_grows
    | with_reducible refine Grows.forL _ ?_ ?_
    | fail_if_no_progress with_reducible apply Grows.mk'
    | with_reducible refine Grows.iteP ?_ ?_
    | split
    | dsimp only

theorem consumeOne_grows {s0 : State} (s : State) (i : Stamped) (h : Grows s0 s) : Grows s0 (State.consumeOne s i) := by
  unfold State.consumeOne
  try dsimp only
  repeat' first
    | intro _
    | with_reducible assumption
    | with_reducible apply holdFrom_grows
    | with_reducible apply jrn_grows
    | with_reducible apply setCh_grows
    | with_reducible refine Grows.forL _ ?_ ?_
    | fail_if_no_progress with_reducible apply Grows.mk'
    | with_reducible refine Grows.ite ?_ ?_
    | split
    | dsimp only

theorem consumeAt_grows {s0 : State} (s : State) (g : Nat) (k : Int) (h : Grows s0 s) :
    Grows s0 (State.consumeAt s g k) := by
  unfold State.consumeAt
  try dsimp only
  repeat' first
    | intro _
    | with_reducible assumption
    | with_reducible apply consumeOne_grows
    | with_reducible refine Grows.forL _ ?_ ?_
    | fail_if_no_progress with_reducible apply Grows.mk'
    | dsimp only

theorem submitDev_grows {s0 : State} (s : State) (cls : Nat) (src : Nat) (what : Payload) (h : Grows s0 s) :
    Grows s0 (State.submitDev s cls src what) := by
  unfold State.submitDev
  try dsimp only
  repeat' first
    | with_reducible assumption
    | with_reducible apply consumeOne_grows
    | fail_if_no_progress with_reducible apply Grows.mk'
    | split
    | dsimp only

theorem takeWrite_grows {s0 : State} (s : State) (g : Nat) (before : Int) (items : List FieldWrite) (no : Nat) (h : Grows s0 s) :
    Grows s0 (State.takeWrite s g before items no) := by
  unfold State.takeWrite
  try dsimp only
  repeat' first
    | with_reducible assumption
    | with_reducible apply applyAll_grows
    | fail_if_no_progress with_reducible apply Grows.mk'
    | with_reducible refine Grows.ite ?_ ?_
    | split
    | dsimp only

theorem arrive_grows {s0 : State} (s : State) (i : Stamped) (h : Grows s0 s) : Grows s0 (State.arrive s i) := by
  unfold State.arrive
  try dsimp only
  repeat' first
    | with_reducible assumption
    | with_reducible apply consumeOne_grows
    | with_reducible apply cswSet_grows
    | with_reducible apply satF_grows
    | with_reducible apply takeWrite_grows
    | fail_if_no_progress with_reducible apply Grows.mk'
    | with_reducible refine Grows.ite ?_ ?_
    | split
    | dsimp only

theorem flightEnds_grows {s0 : State} (s : State) (g : Nat) (h : Grows s0 s) : Grows s0 (State.flightEnds s g) := by
  unfold State.flightEnds
  try dsimp only
  repeat' first
    | intro _
    | with_reducible assumption
    | with_reducible apply arrive_grows
    | with_reducible refine Grows.forL _ ?_ ?_
    | fail_if_no_progress with_reducible apply Grows.mk'
    | dsimp only

theorem execStampedInputArrival_grows (cls : Fin 8) (source : Nat) (s : State) :
    GrowsO s (execStampedInputArrival cls source s) := by
  unfold execStampedInputArrival
  try dsimp only
  try refine GrowsO.next ?_
  repeat' first
    | refine GrowsO.next ?_
    | intro _
    | with_reducible assumption
    | with_reducible exact Grows.refl _
    | with_reducible apply arrive_grows
    | fail_if_no_progress with_reducible apply Grows.mk'
    | split
    | dsimp only

theorem flip_grows {s0 : State} (s : State) (set : Nat) (h : Grows s0 s) : Grows s0 (s.flip set) :=
  h.updC rfl rfl rfl rfl rfl id id id (fun r => rising_putAll _ _ (Tab.rising_filter _ r))
    (fun r => rising_putAll _ _ (Tab.rising_filter _ r))

theorem copyBank_grows {s0 : State} (s : State) (set : Nat) (h : Grows s0 s) : Grows s0 (s.copyBank set) :=
  h.updC rfl rfl rfl rfl rfl id id id id (fun r => rising_putAll _ _ (Tab.rising_filter _ r))

theorem copyBack_grows {s0 : State} (s : State) (e : CopyBack) (h : Grows s0 s) : Grows s0 (s.copyBack e) :=
  h.updC rfl rfl rfl rfl rfl id id id id (fun hs => rising_putAll _ _ (Tab.rising_filter _ hs))

theorem keepBank_grows {s0 : State} (s : State) (set : Nat) (c : Int) (h : Grows s0 s) :
    Grows s0 (State.keepBank s set c) := by
  unfold State.keepBank
  try dsimp only
  repeat' first
    | intro _
    | with_reducible assumption
    | fail_if_no_progress with_reducible apply Grows.mk'
    | with_reducible refine Grows.ite ?_ ?_
    | with_reducible refine Grows.iteP ?_ ?_
    | split
    | dsimp only

theorem swapNow_grows {s0 : State} (s : State) (set : Nat) (c : Int) (h : Grows s0 s) :
    Grows s0 (State.swapNow s set c) := by
  unfold State.swapNow
  try dsimp only
  repeat' first
    | intro _
    | with_reducible assumption
    | with_reducible apply flip_grows
    | with_reducible apply gaugeReq_grows
    | with_reducible apply jrn_grows
    | with_reducible apply keepBank_grows
    | with_reducible apply setF_grows
    | with_reducible refine Grows.forL _ ?_ ?_
    | fail_if_no_progress with_reducible apply Grows.mk'
    | with_reducible refine Grows.ite ?_ ?_
    | with_reducible refine Grows.iteP ?_ ?_
    | split
    | dsimp only

theorem swapDue_grows {s0 : State} (s : State) (set : Nat) (c : Nat) (h : Grows s0 s) :
    Grows s0 (State.swapDue s set c) := by
  unfold State.swapDue
  try dsimp only
  repeat' first
    | with_reducible assumption
    | with_reducible apply swapNow_grows
    | with_reducible refine Grows.ite ?_ ?_
    | split
    | dsimp only

theorem swapCancel_grows {s0 : State} (s : State) (set : Nat) (h : Grows s0 s) : Grows s0 (State.swapCancel s set) := by
  unfold State.swapCancel
  try dsimp only
  repeat' first
    | with_reducible assumption
    | with_reducible apply logReg_grows
    | with_reducible apply raise_grows
    | with_reducible apply setF_grows
    | with_reducible refine Grows.ite ?_ ?_
    | split
    | dsimp only

theorem idleEnd_grows {s0 : State} (s : State) (h : Grows s0 s) : Grows s0 (State.idleEnd s) := by
  unfold State.idleEnd
  try dsimp only
  repeat' first
    | intro _
    | with_reducible assumption
    | with_reducible exact Grows.refl _
    | with_reducible apply clkShow_grows
    | with_reducible apply laneWake_grows
    | with_reducible apply setF_grows
    | with_reducible refine Grows.forL _ ?_ ?_
    | with_reducible refine Grows.forN _ ?_ ?_
    | with_reducible refine Grows.foldl _ ?_ ?_
    | with_reducible refine Grows.foldlP _ ?_ ?_
    | fail_if_no_progress with_reducible apply Grows.mk'
    | with_reducible refine Grows.ite ?_ ?_
    | with_reducible refine Grows.iteP ?_ ?_
    | split
    | with_reducible refine Grows.fst (by assumption) ?_
    | dsimp only
    | omega

/-! ## Courses -/

theorem checkpoint_grows {s0 : State} (s : State) (g : Nat) (c : Nat) (h : Grows s0 s) :
    Grows s0 (State.checkpoint s g c) := by
  unfold State.checkpoint
  try dsimp only
  repeat' first
    | intro _
    | with_reducible assumption
    | with_reducible exact Grows.refl _
    | with_reducible apply hkCount_grows
    | with_reducible apply jrn_grows
    | with_reducible apply repWrite_grows
    | with_reducible refine Grows.forL _ ?_ ?_
    | with_reducible refine Grows.forN _ ?_ ?_
    | with_reducible refine Grows.foldl _ ?_ ?_
    | with_reducible refine Grows.foldlP _ ?_ ?_
    | fail_if_no_progress with_reducible apply Grows.mk'
    | with_reducible refine Grows.ite ?_ ?_
    | with_reducible refine Grows.iteP ?_ ?_
    | split
    | with_reducible refine Grows.fst (by assumption) ?_
    | dsimp only
    | omega

theorem freezeDue_grows {s0 : State} (s : State) (h : Grows s0 s) : Grows s0 (State.freezeDue s) := by
  unfold State.freezeDue
  try dsimp only
  repeat' first
    | with_reducible assumption
    | with_reducible apply freezeInst_grows
    | with_reducible apply jrnFlush_grows
    | with_reducible refine Grows.ite ?_ ?_
    | split
    | dsimp only

theorem syncSlip_grows {s0 : State} (s : State) (h : Grows s0 s) : Grows s0 (State.syncSlip s) := by
  unfold State.syncSlip
  try dsimp only
  repeat' first
    | with_reducible assumption
    | with_reducible apply logReg_grows
    | with_reducible apply raise_grows
    | dsimp only

theorem syncTrigger_grows {s0 : State} (s : State) (g : Nat) (c : Nat) (h : Grows s0 s) :
    Grows s0 (State.syncTrigger s g c) := by
  unfold State.syncTrigger
  try dsimp only
  repeat' first
    | with_reducible assumption
    | with_reducible apply emit_grows
    | with_reducible apply fire_grows
    | with_reducible apply syncSlip_grows
    | fail_if_no_progress with_reducible apply Grows.mk'
    | with_reducible refine Grows.ite ?_ ?_
    | split
    | dsimp only

theorem syncExpire_grows {s0 : State} (s : State) (h : Grows s0 s) : Grows s0 (State.syncExpire s) := by
  unfold State.syncExpire
  try dsimp only
  repeat' first
    | with_reducible assumption
    | with_reducible apply syncSlip_grows
    | fail_if_no_progress with_reducible apply Grows.mk'
    | with_reducible refine Grows.ite ?_ ?_
    | split
    | dsimp only

theorem swapsAt_grows {s0 : State} (s : State) (g : Nat) (c : Nat) (h : Grows s0 s) :
    Grows s0 (State.swapsAt s g c) := by
  unfold State.swapsAt
  try dsimp only
  repeat' first
    | with_reducible assumption
    | with_reducible apply swapDue_grows
    | with_reducible refine Grows.ite ?_ ?_
    | split
    | dsimp only

theorem courseOpened_grows {s0 : State} (s : State) (g : Nat) (c : Nat) (enc : Int) (h : Grows s0 s) :
    Grows s0 (State.courseOpened s g c enc) := by
  unfold State.courseOpened
  try dsimp only
  repeat' first
    | with_reducible assumption
    | with_reducible apply descWait_grows
    | with_reducible apply freezeDue_grows
    | with_reducible apply histWrite_grows
    | with_reducible apply holdShow_grows
    | with_reducible apply msrcTrigger_grows
    | with_reducible apply seamJoins_grows
    | with_reducible apply segJoins_grows
    | with_reducible apply sendTrigs_grows
    | with_reducible apply setI_grows
    | with_reducible apply syncTrigger_grows
    | with_reducible apply tempCheck_grows
    | with_reducible refine Grows.ite ?_ ?_
    | split
    | dsimp only

theorem trigger_grows {s0 : State} (s : State) (g : Nat) (enc : Int) (h : Grows s0 s) :
    Grows s0 (State.trigger s g enc) := by
  unfold State.trigger
  try dsimp only
  repeat' first
    | with_reducible assumption
    | with_reducible apply checkpoint_grows
    | with_reducible apply consumeAt_grows
    | with_reducible apply courseOpened_grows
    | with_reducible apply gaugeTrigger_grows
    | with_reducible apply members_grows
    | with_reducible apply setF_grows
    | with_reducible apply setG_grows
    | with_reducible apply swapsAt_grows
    | with_reducible apply writesAt_grows
    | fail_if_no_progress with_reducible apply Grows.mk'
    | with_reducible refine Grows.ite ?_ ?_
    | split
    | dsimp only

theorem issueCourse_grows {s0 : State} (s : State) (g : Nat) (enc : Int) (h : Grows s0 s) :
    Grows s0 (State.issueCourse s g enc) := by
  unfold State.issueCourse
  try dsimp only
  repeat' first
    | with_reducible assumption
    | with_reducible apply raise_grows
    | with_reducible apply satF_grows
    | with_reducible apply setG_grows
    | with_reducible apply trigger_grows
    | fail_if_no_progress with_reducible apply Grows.mk'
    | with_reducible refine Grows.ite ?_ ?_
    | split
    | dsimp only

theorem divideOnce_grows {s0 : State} (s : State) (g : Nat) (h : Grows s0 s) : Grows s0 (State.divideOnce s g) := by
  unfold State.divideOnce
  try dsimp only
  repeat' first
    | with_reducible assumption
    | with_reducible apply idleEnd_grows
    | with_reducible apply issueCourse_grows
    | with_reducible apply setG_grows
    | with_reducible apply setI_grows
    | fail_if_no_progress with_reducible apply Grows.mk'
    | with_reducible refine Grows.ite ?_ ?_
    | split
    | dsimp only

theorem courseStart_grows {s0 : State} (s : State) (g : Nat) (h : Grows s0 s) : Grows s0 (State.courseStart s g) := by
  unfold State.courseStart
  try dsimp only
  repeat' first
    | intro _
    | with_reducible assumption
    | with_reducible apply raise_grows
    | with_reducible apply setF_grows
    | with_reducible apply setG_grows
    | with_reducible apply setI_grows
    | fail_if_no_progress with_reducible apply Grows.mk'
    | with_reducible refine Grows.ite ?_ ?_
    | with_reducible refine Grows.iteP ?_ ?_
    | split
    | dsimp only

theorem setPx_grows {s0 : State} (s : State) (p : Nat) (x : PosCh) (h : Grows s0 s) : Grows s0 (State.setPx s p x) := by
  unfold State.setPx
  try dsimp only
  repeat' first
    | with_reducible assumption
    | fail_if_no_progress with_reducible apply Grows.mk'
    | dsimp only

theorem posFlag_grows {s0 : State} (s : State) (p : Nat) (f : Fld) (h : Grows s0 s) :
    Grows s0 (State.posFlag s p f) := by
  unfold State.posFlag
  try dsimp only
  repeat' first
    | with_reducible assumption
    | with_reducible apply raise_grows
    | fail_if_no_progress with_reducible apply Grows.mk'
    | dsimp only

theorem setValid_grows {s0 : State} (s : State) (p : Nat) (v : Bool) (h : Grows s0 s) :
    Grows s0 (State.setValid s p v) := by
  unfold State.setValid
  try dsimp only
  repeat' first
    | intro _
    | with_reducible assumption
    | with_reducible apply raise_grows
    | with_reducible apply setF_grows
    | with_reducible refine Grows.forL _ ?_ ?_
    | with_reducible refine Grows.ite ?_ ?_
    | split
    | dsimp only

theorem posMove_grows {s0 : State} (s : State) (p : Nat) (d : Int) (h : Grows s0 s) :
    Grows s0 (State.posMove s p d) := by
  unfold State.posMove
  try dsimp only
  repeat' first
    | intro _
    | with_reducible assumption
    | with_reducible apply cmpMove_grows
    | with_reducible apply divideOnce_grows
    | with_reducible apply setI_grows
    | with_reducible apply setPx_grows
    | with_reducible refine Grows.forL _ ?_ ?_
    | fail_if_no_progress with_reducible apply Grows.mk'
    | with_reducible refine Grows.ite ?_ ?_
    | split
    | dsimp only

theorem put32_grows {s0 : State} (s : State) (b : Nat) (f : Fld) (v : Int) (h : Grows s0 s) :
    Grows s0 (State.put32 s b f v) := by
  unfold State.put32
  try dsimp only
  repeat' first
    | with_reducible assumption
    | with_reducible apply setF_grows
    | with_reducible apply setI_grows
    | with_reducible apply tickFree_grows
    | with_reducible refine Grows.ite ?_ ?_
    | split
    | dsimp only

theorem posSpeed_grows {s0 : State} (s : State) (p : Nat) (v : Int) (h : Grows s0 s) :
    Grows s0 (State.posSpeed s p v) := by
  unfold State.posSpeed
  try dsimp only
  repeat' first
    | with_reducible assumption
    | with_reducible apply cmpSpeed_grows
    | with_reducible apply put32_grows
    | dsimp only

theorem quadChange_grows {s0 : State} (s : State) (p : Nat) (pins : Nat) (now : Nat) (h : Grows s0 s) :
    Grows s0 (State.quadChange s p pins now) := by
  unfold State.quadChange
  try dsimp only
  repeat' first
    | with_reducible assumption
    | with_reducible apply posFlag_grows
    | with_reducible apply posMove_grows
    | with_reducible apply setPx_grows
    | fail_if_no_progress with_reducible apply Grows.mk'
    | with_reducible refine Grows.ite ?_ ?_
    | split
    | dsimp only

theorem hallStep_grows {s0 : State} (s : State) (p : Nat) (d : Nat) (now : Nat) (h : Grows s0 s) :
    Grows s0 (State.hallStep s p d now) := by
  unfold State.hallStep
  try dsimp only
  repeat' first
    | with_reducible assumption
    | with_reducible apply posFlag_grows
    | with_reducible apply posMove_grows
    | with_reducible apply posSpeed_grows
    | with_reducible apply setPx_grows
    | fail_if_no_progress with_reducible apply Grows.mk'
    | with_reducible refine Grows.ite ?_ ?_
    | split
    | dsimp only

theorem hallChange_grows {s0 : State} (s : State) (p : Nat) (pins : Nat) (now : Nat) (h : Grows s0 s) :
    Grows s0 (State.hallChange s p pins now) := by
  unfold State.hallChange
  try dsimp only
  repeat' first
    | with_reducible assumption
    | with_reducible apply hallStep_grows
    | with_reducible apply posFlag_grows
    | with_reducible apply setPx_grows
    | with_reducible apply setValid_grows
    | fail_if_no_progress with_reducible apply Grows.mk'
    | with_reducible refine Grows.ite ?_ ?_
    | split
    | dsimp only

theorem pinsTo_grows {s0 : State} (s : State) (p : Nat) (pins : Nat) (now : Nat) (h : Grows s0 s) :
    Grows s0 (State.pinsTo s p pins now) := by
  unfold State.pinsTo
  try dsimp only
  repeat' first
    | with_reducible assumption
    | with_reducible apply hallChange_grows
    | with_reducible apply quadChange_grows
    | with_reducible apply setPx_grows
    | fail_if_no_progress with_reducible apply Grows.mk'
    | with_reducible refine Grows.ite ?_ ?_
    | split
    | dsimp only

theorem execEncoderTransition_grows (p : Fin 8) (pins : PinSample) (s : State) :
    GrowsO s (execEncoderTransition p pins s) := by
  unfold execEncoderTransition
  try dsimp only
  try refine GrowsO.next ?_
  repeat' first
    | refine GrowsO.next ?_
    | intro _
    | with_reducible assumption
    | with_reducible exact Grows.refl _
    | with_reducible apply pinsTo_grows
    | with_reducible apply setPx_grows
    | with_reducible refine Grows.forL _ ?_ ?_
    | fail_if_no_progress with_reducible apply Grows.mk'
    | with_reducible refine Grows.iteP ?_ ?_
    | dsimp only

theorem execHallSpeedTimeout_grows (p : Fin 8) (s : State) : GrowsO s (execHallSpeedTimeout p s) := by
  unfold execHallSpeedTimeout
  try dsimp only
  try refine GrowsO.next ?_
  repeat' first
    | refine GrowsO.next ?_
    | with_reducible assumption
    | with_reducible exact Grows.refl _
    | with_reducible apply posSpeed_grows
    | with_reducible refine Grows.ite ?_ ?_
    | split
    | dsimp only

theorem posStart_grows {s0 : State} (s : State) (p : Nat) (h : Grows s0 s) : Grows s0 (State.posStart s p) := by
  unfold State.posStart
  try dsimp only
  repeat' first
    | with_reducible assumption
    | with_reducible apply posFlag_grows
    | with_reducible apply setF_grows
    | with_reducible apply setPx_grows
    | with_reducible apply setValid_grows
    | fail_if_no_progress with_reducible apply Grows.mk'
    | with_reducible refine Grows.ite ?_ ?_
    | split
    | dsimp only

theorem posStop_grows {s0 : State} (s : State) (p : Nat) (h : Grows s0 s) : Grows s0 (State.posStop s p) := by
  unfold State.posStop
  try dsimp only
  repeat' first
    | with_reducible assumption
    | with_reducible apply setF_grows
    | with_reducible apply setValid_grows
    | dsimp only

theorem execPosRunSet_grows (p : Fin 8) (s : State) : GrowsO s (execPosRunSet p s) := by
  unfold execPosRunSet
  try dsimp only
  try refine GrowsO.next ?_
  repeat' first
    | refine GrowsO.next ?_
    | with_reducible assumption
    | with_reducible exact Grows.refl _
    | with_reducible apply posStart_grows
    | with_reducible refine Grows.ite ?_ ?_
    | split
    | dsimp only

theorem execSerFrameRequest_grows (p : Fin 8) (s : State) : GrowsO s (execSerFrameRequest p s) := by
  unfold execSerFrameRequest
  try dsimp only
  try refine GrowsO.next ?_
  repeat' first
    | refine GrowsO.next ?_
    | with_reducible assumption
    | with_reducible exact Grows.refl _
    | with_reducible apply emit_grows
    | with_reducible apply setPx_grows
    | fail_if_no_progress with_reducible apply Grows.mk'
    | with_reducible refine Grows.ite ?_ ?_
    | split
    | dsimp only

theorem serGood_grows {s0 : State} (s : State) (p : Nat) (pos : Nat) (h : Grows s0 s) :
    Grows s0 (State.serGood s p pos) := by
  unfold State.serGood
  try dsimp only
  repeat' first
    | with_reducible assumption
    | with_reducible apply posMove_grows
    | with_reducible apply setPx_grows
    | with_reducible apply setValid_grows
    | fail_if_no_progress with_reducible apply Grows.mk'
    | split
    | dsimp only

theorem execSerFrameReceived_grows (p : Fin 8) (err : Bool) (pos : BitVec 48) (crc : BitVec 16) (s : State) :
    GrowsO s (execSerFrameReceived p err pos crc s) := by
  unfold execSerFrameReceived
  try dsimp only
  try refine GrowsO.next ?_
  repeat' first
    | refine GrowsO.next ?_
    | with_reducible assumption
    | with_reducible exact Grows.refl _
    | with_reducible apply posFlag_grows
    | with_reducible apply serGood_grows
    | with_reducible apply setPx_grows
    | with_reducible apply setValid_grows
    | fail_if_no_progress with_reducible apply Grows.mk'
    | with_reducible refine Grows.ite ?_ ?_
    | split
    | dsimp only

theorem execSerTimeout_grows (p : Fin 8) (s : State) : GrowsO s (execSerTimeout p s) := by
  unfold execSerTimeout
  try dsimp only
  try refine GrowsO.next ?_
  repeat' first
    | refine GrowsO.next ?_
    | with_reducible assumption
    | with_reducible exact Grows.refl _
    | with_reducible apply posFlag_grows
    | with_reducible apply setPx_grows
    | with_reducible apply setValid_grows
    | fail_if_no_progress with_reducible apply Grows.mk'
    | with_reducible refine Grows.ite ?_ ?_
    | split
    | dsimp only

theorem execSpeedWindowEnd_grows (p : Fin 8) (s : State) : GrowsO s (execSpeedWindowEnd p s) := by
  unfold execSpeedWindowEnd
  try dsimp only
  try refine GrowsO.next ?_
  repeat' first
    | refine GrowsO.next ?_
    | with_reducible assumption
    | with_reducible exact Grows.refl _
    | with_reducible apply posSpeed_grows
    | with_reducible apply setPx_grows
    | fail_if_no_progress with_reducible apply Grows.mk'
    | with_reducible refine Grows.ite ?_ ?_
    | split
    | dsimp only

theorem posRezero_grows {s0 : State} (s : State) (p : Nat) (d : Int) (h : Grows s0 s) :
    Grows s0 (State.posRezero s p d) := by
  unfold State.posRezero
  try dsimp only
  repeat' first
    | intro _
    | with_reducible assumption
    | with_reducible apply cmpRezero_grows
    | with_reducible apply setI_grows
    | with_reducible refine Grows.forL _ ?_ ?_
    | fail_if_no_progress with_reducible apply Grows.mk'
    | with_reducible refine Grows.ite ?_ ?_
    | split
    | dsimp only

theorem indexEvent_grows {s0 : State} (s : State) (p : Nat) (h : Grows s0 s) : Grows s0 (State.indexEvent s p) := by
  unfold State.indexEvent
  try dsimp only
  repeat' first
    | with_reducible assumption
    | with_reducible apply logReg_grows
    | with_reducible apply posFlag_grows
    | with_reducible apply posRezero_grows
    | with_reducible apply put32_grows
    | with_reducible apply setI_grows
    | with_reducible apply setPx_grows
    | fail_if_no_progress with_reducible apply Grows.mk'
    | with_reducible refine Grows.ite ?_ ?_
    | split
    | dsimp only

theorem zRaw_grows {s0 : State} (s : State) (p : Nat) (z : Bool) (n : Nat) (h : Grows s0 s) :
    Grows s0 (State.zRaw s p z n) := by
  unfold State.zRaw
  try dsimp only
  repeat' first
    | with_reducible assumption
    | with_reducible apply fire_grows
    | with_reducible apply setPx_grows
    | fail_if_no_progress with_reducible apply Grows.mk'
    | with_reducible refine Grows.ite ?_ ?_
    | split
    | dsimp only

theorem execIndexEvent_grows (e : ZSample) (s : State) : GrowsO s (execIndexEvent e s) := by
  unfold execIndexEvent
  try dsimp only
  try refine GrowsO.next ?_
  repeat' first
    | refine GrowsO.next ?_
    | with_reducible assumption
    | with_reducible exact Grows.refl _
    | with_reducible apply indexEvent_grows
    | with_reducible apply setPx_grows
    | with_reducible apply zRaw_grows
    | fail_if_no_progress with_reducible apply Grows.mk'
    | with_reducible refine Grows.ite ?_ ?_
    | split
    | dsimp only

theorem execCourseTimerExpiry_grows (g : Fin 16) (s : State) : GrowsO s (execCourseTimerExpiry g s) := by
  unfold execCourseTimerExpiry
  try dsimp only
  try refine GrowsO.next ?_
  repeat' first
    | refine GrowsO.next ?_
    | with_reducible assumption
    | with_reducible exact Grows.refl _
    | with_reducible apply trigger_grows
    | with_reducible refine Grows.ite ?_ ?_
    | split
    | dsimp only

theorem execOverrateDelayEnd_grows (g : Fin 16) (s : State) : GrowsO s (execOverrateDelayEnd g s) := by
  unfold execOverrateDelayEnd
  try dsimp only
  try refine GrowsO.next ?_
  repeat' first
    | refine GrowsO.next ?_
    | with_reducible assumption
    | with_reducible exact Grows.refl _
    | with_reducible apply trigger_grows
    | fail_if_no_progress with_reducible apply Grows.mk'
    | with_reducible refine Grows.ite ?_ ?_
    | split
    | dsimp only

theorem execCoursesyncEdge_grows (s : State) : GrowsO s (execCoursesyncEdge s) := by
  unfold execCoursesyncEdge
  try dsimp only
  try refine GrowsO.next ?_
  repeat' first
    | refine GrowsO.next ?_
    | with_reducible assumption
    | with_reducible exact Grows.refl _
    | with_reducible apply courseStart_grows
    | with_reducible apply fire_grows
    | with_reducible apply idleEnd_grows
    | with_reducible apply setG_grows
    | with_reducible apply syncSlip_grows
    | with_reducible apply trigger_grows
    | fail_if_no_progress with_reducible apply Grows.mk'
    | with_reducible refine Grows.ite ?_ ?_
    | split
    | dsimp only

theorem execCourseClose_grows (g : Fin 16) (s : State) : GrowsO s (execCourseClose g s) := by
  unfold execCourseClose
  try dsimp only
  try refine GrowsO.next ?_
  repeat' first
    | refine GrowsO.next ?_
    | with_reducible assumption
    | with_reducible exact Grows.refl _
    | with_reducible apply consumeAt_grows
    | with_reducible apply jrn_grows
    | with_reducible apply setG_grows
    | fail_if_no_progress with_reducible apply Grows.mk'
    | with_reducible refine Grows.ite ?_ ?_
    | split
    | dsimp only

/-! ## Groups -/

theorem startStatus_grows {s0 : State} (s : State) (g : Nat) (h : Grows s0 s) : Grows s0 (State.startStatus s g).1 := by
  unfold State.startStatus
  try dsimp only
  repeat' first
    | intro _
    | with_reducible assumption
    | with_reducible apply gaugeFirst_grows
    | with_reducible apply slotsOk_grows
    | with_reducible refine Grows.ite ?_ ?_
    | with_reducible refine Grows.iteP ?_ ?_
    | split
    | dsimp only

theorem bindGroup_grows {s0 : State} (s : State) (g : Nat) (h : Grows s0 s) : Grows s0 (State.bindGroup s g) := by
  unfold State.bindGroup
  try dsimp only
  repeat' first
    | intro _
    | with_reducible assumption
    | with_reducible apply bind_grows
    | with_reducible apply subBlock_grows
    | with_reducible refine Grows.forL _ ?_ ?_
    | with_reducible refine Grows.iteP ?_ ?_
    | dsimp only

theorem lanesFree_grows {s0 : State} (s : State) (g : Nat) (h : Grows s0 s) : Grows s0 (State.lanesFree s g) := by
  unfold State.lanesFree
  try dsimp only
  repeat' first
    | intro _
    | with_reducible assumption
    | with_reducible exact Grows.refl _
    | with_reducible apply lanesBack_grows
    | with_reducible apply setF_grows
    | with_reducible refine Grows.forL _ ?_ ?_
    | with_reducible refine Grows.forN _ ?_ ?_
    | with_reducible refine Grows.foldl _ ?_ ?_
    | with_reducible refine Grows.foldlP _ ?_ ?_
    | fail_if_no_progress with_reducible apply Grows.mk'
    | with_reducible refine Grows.ite ?_ ?_
    | with_reducible refine Grows.iteP ?_ ?_
    | split
    | with_reducible refine Grows.fst (by assumption) ?_
    | dsimp only
    | omega

theorem pastItems_grows {s0 : State} (s : State) (g : Nat) (h : Grows s0 s) : Grows s0 (State.pastItems s g) := by
  unfold State.pastItems
  try dsimp only
  repeat' first
    | intro _
    | with_reducible assumption
    | fail_if_no_progress with_reducible apply Grows.mk'
    | with_reducible refine Grows.ite ?_ ?_
    | split
    | dsimp only

theorem groupStart_grows {s0 : State} (s : State) (g : Nat) (arm : Bool) (h : Grows s0 s) :
    Grows s0 (State.groupStart s g arm) := by
  unfold State.groupStart
  try dsimp only
  repeat' first
    | intro _
    | with_reducible assumption
    | with_reducible apply bindGroup_grows
    | with_reducible apply courseStart_grows
    | with_reducible apply flightEnds_grows
    | with_reducible apply gaugeFirst_grows
    | with_reducible apply gaugePend_grows
    | with_reducible apply idleEnd_grows
    | with_reducible apply lanesFree_grows
    | with_reducible apply pastItems_grows
    | with_reducible apply seamStart_grows
    | with_reducible apply segStart_grows
    | with_reducible apply setCh_grows
    | with_reducible apply setG_grows
    | with_reducible apply setTg_grows
    | with_reducible apply viewsGroup_grows
    | with_reducible refine Grows.forL _ ?_ ?_
    | fail_if_no_progress with_reducible apply Grows.mk'
    | with_reducible refine Grows.ite ?_ ?_
    | with_reducible refine Grows.iteP ?_ ?_
    | split
    | dsimp only

theorem lanesStop_grows {s0 : State} (s : State) (g : Nat) (h : Grows s0 s) : Grows s0 (State.lanesStop s g) := by
  unfold State.lanesStop
  try dsimp only
  repeat' first
    | intro _
    | with_reducible assumption
    | with_reducible apply setCh_grows
    | with_reducible apply settle_grows
    | with_reducible refine Grows.forL _ ?_ ?_
    | fail_if_no_progress with_reducible apply Grows.mk'
    | dsimp only

theorem inputsStop_grows {s0 : State} (s : State) (g : Nat) (h : Grows s0 s) : Grows s0 (State.inputsStop s g) := by
  unfold State.inputsStop
  try dsimp only
  repeat' first
    | intro _
    | with_reducible assumption
    | with_reducible apply consumeOne_grows
    | with_reducible refine Grows.forL _ ?_ ?_
    | fail_if_no_progress with_reducible apply Grows.mk'
    | dsimp only

theorem disarm_grows {s0 : State} (s : State) (g : Nat) (h : Grows s0 s) : Grows s0 (State.disarm s g) := by
  unfold State.disarm
  try dsimp only
  repeat' first
    | with_reducible assumption
    | with_reducible apply inputsStop_grows
    | with_reducible apply releaseRings_grows
    | with_reducible apply setG_grows
    | with_reducible apply viewsGroup_grows
    | with_reducible apply writesStop_grows
    | fail_if_no_progress with_reducible apply Grows.mk'
    | dsimp only

theorem swapsStop_grows {s0 : State} (s : State) (g : Nat) (h : Grows s0 s) : Grows s0 (State.swapsStop s g) := by
  unfold State.swapsStop
  try dsimp only
  repeat' first
    | with_reducible assumption
    | with_reducible apply swapCancel_grows
    | with_reducible refine Grows.ite ?_ ?_
    | split
    | dsimp only

theorem groupStop_grows {s0 : State} (s : State) (g : Nat) (h : Grows s0 s) : Grows s0 (State.groupStop s g) := by
  unfold State.groupStop
  try dsimp only
  repeat' first
    | with_reducible assumption
    | with_reducible apply disarm_grows
    | with_reducible apply inputsStop_grows
    | with_reducible apply lanesStop_grows
    | with_reducible apply segStop_grows
    | with_reducible apply setF_grows
    | with_reducible apply setG_grows
    | with_reducible apply swapsStop_grows
    | with_reducible apply viewsGroup_grows
    | with_reducible apply writesStop_grows
    | fail_if_no_progress with_reducible apply Grows.mk'
    | with_reducible refine Grows.ite ?_ ?_
    | split
    | dsimp only

theorem forceStop_grows {s0 : State} (s : State) (g : Nat) (h : Grows s0 s) : Grows s0 (State.forceStop s g) := by
  unfold State.forceStop
  try dsimp only
  repeat' first
    | with_reducible assumption
    | with_reducible apply releaseRings_grows
    | with_reducible apply setF_grows
    | with_reducible apply setG_grows
    | with_reducible apply setSg_grows
    | with_reducible apply setTg_grows
    | with_reducible apply showJobs_grows
    | fail_if_no_progress with_reducible apply Grows.mk'
    | with_reducible refine Grows.ite ?_ ?_
    | split
    | dsimp only

theorem endGroup_grows {s0 : State} (s : State) (g : Nat) (h : Grows s0 s) : Grows s0 (State.endGroup s g) := by
  unfold State.endGroup
  try dsimp only
  repeat' first
    | with_reducible assumption
    | with_reducible apply disarm_grows
    | with_reducible apply forceStop_grows
    | with_reducible refine Grows.ite ?_ ?_
    | split
    | dsimp only

theorem stopAll_grows {s0 : State} (s : State) (h : Grows s0 s) : Grows s0 (State.stopAll s) := by
  unfold State.stopAll
  try dsimp only
  repeat' first
    | intro _
    | with_reducible assumption
    | with_reducible apply groupStop_grows
    | with_reducible refine Grows.forN _ ?_ ?_
    | dsimp only

theorem stopGroups_grows {s0 : State} (s : State) (p : Nat → Bool) (h : Grows s0 s) :
    Grows s0 (State.stopGroups s p) := by
  unfold State.stopGroups
  try dsimp only
  repeat' first
    | intro _
    | with_reducible assumption
    | with_reducible apply groupStop_grows
    | with_reducible refine Grows.forL _ ?_ ?_
    | dsimp only

end Sys2Proof.Machine
end

