-- ==== Sys2Proof/Laws/GrowsUnits.lean ====
section
/-!
SUPPORT. What every operation keeps (Laws/Grows.lean), shown of power, time, ports, faults, Hank, patterns, rings, Yarn and DRAM: one lemma per
operation of the model, named after it.
-/

set_option linter.unusedTactic false
set_option linter.unreachableTactic false
set_option maxRecDepth 4000

namespace Sys2Proof.Machine

/-! ## Power -/

theorem hiddenOff_grows {s0 : State} (s : State) (d : Nat) (h : Grows s0 s) : Grows s0 (s.hiddenOff d) := by
  unfold State.hiddenOff
  refine Grows.ite (Grows.forN _ (fun _ _ ht => ht.upd rfl rfl rfl rfl rfl rfl rfl rfl rfl rfl)
      (h.upd rfl rfl rfl rfl rfl rfl rfl rfl rfl rfl)) ?_
  refine Grows.ite (Grows.forN _ (fun _ _ ht => clearLane_grows _ _ ht) h) ?_
  refine Grows.ite (Grows.ite (h.updC rfl rfl rfl rfl rfl (Memory.wf_filter _) id id id id) h) ?_
  refine Grows.ite (h.upd rfl rfl rfl rfl rfl rfl rfl rfl rfl rfl) ?_
  refine Grows.ite (h.upd rfl rfl rfl rfl rfl rfl rfl rfl rfl rfl) ?_
  exact Grows.ite ((pinsRest_grows _ _ (strobeCut_grows _ h)).upd rfl rfl rfl rfl rfl rfl rfl rfl rfl rfl) h

theorem regsOff_grows {s0 : State} (s : State) (d : Nat) (h : Grows s0 s) : Grows s0 (s.regsOff d) :=
  h.updC rfl rfl rfl rfl rfl id id (Tab.rising_filter _) (Tab.rising_filter _) (Tab.rising_filter _)

theorem showDom_grows {s0 : State} (s : State) (d : Nat) (on : Bool) (h : Grows s0 s) :
    Grows s0 (State.showDom s d on) := by
  unfold State.showDom
  try dsimp only
  repeat' first
    | with_reducible assumption
    | with_reducible apply setF_grows
    | with_reducible refine Grows.ite ?_ ?_
    | split
    | dsimp only

theorem releaseDom_grows {s0 : State} (s : State) (d : Nat) (h : Grows s0 s) : Grows s0 (State.releaseDom s d) := by
  unfold State.releaseDom
  try dsimp only
  repeat' first
    | intro _
    | with_reducible assumption
    | with_reducible apply dropSub_grows
    | with_reducible apply unbind_grows
    | with_reducible refine Grows.forL _ ?_ ?_
    | fail_if_no_progress with_reducible apply Grows.mk'
    | with_reducible refine Grows.iteP ?_ ?_
    | split
    | dsimp only

theorem domainOff_grows {s0 : State} (s : State) (d : Nat) (h : Grows s0 s) : Grows s0 (State.domainOff s d) := by
  unfold State.domainOff
  try dsimp only
  repeat' first
    | with_reducible assumption
    | with_reducible apply hiddenOff_grows
    | with_reducible apply msrcUpdate_grows
    | with_reducible apply regsOff_grows
    | with_reducible apply releaseDom_grows
    | with_reducible apply setDom_grows
    | with_reducible apply showDom_grows
    | fail_if_no_progress with_reducible apply Grows.mk'
    | with_reducible refine Grows.ite ?_ ?_
    | split
    | dsimp only

theorem mirrorShow_grows {s0 : State} (s : State) (r : Nat) (h : Grows s0 s) : Grows s0 (State.mirrorShow s r) := by
  unfold State.mirrorShow
  try dsimp only
  repeat' first
    | with_reducible assumption
    | with_reducible apply setF_grows
    | with_reducible refine Grows.ite ?_ ?_
    | split
    | dsimp only

theorem domainOn_grows {s0 : State} (s : State) (d : Nat) (h : Grows s0 s) : Grows s0 (State.domainOn s d) := by
  unfold State.domainOn
  try dsimp only
  repeat' first
    | intro _
    | with_reducible assumption
    | with_reducible apply hiddenOff_grows
    | with_reducible apply mirrorShow_grows
    | with_reducible apply regsOff_grows
    | with_reducible apply setDom_grows
    | with_reducible apply setF_grows
    | with_reducible apply showDom_grows
    | with_reducible refine Grows.forL _ ?_ ?_
    | with_reducible refine Grows.ite ?_ ?_
    | split
    | dsimp only

theorem loomOff_grows {s0 : State} (s : State) (h : Grows s0 s) : Grows s0 (State.loomOff s) := by
  unfold State.loomOff
  try dsimp only
  repeat' first
    | intro _
    | with_reducible assumption
    | with_reducible apply domainOff_grows
    | with_reducible apply setF_grows
    | with_reducible refine Grows.forL _ ?_ ?_
    | with_reducible refine Grows.forN _ ?_ ?_
    | dsimp only

theorem idleEnter_grows {s0 : State} (s : State) (h : Grows s0 s) : Grows s0 (State.idleEnter s) := by
  unfold State.idleEnter
  try dsimp only
  repeat' first
    | intro _
    | with_reducible assumption
    | with_reducible exact Grows.refl _
    | with_reducible apply clkShow_grows
    | with_reducible apply laneIdle_grows
    | with_reducible apply raise_grows
    | with_reducible apply setF_grows
    | with_reducible refine Grows.forL _ ?_ ?_
    | with_reducible refine Grows.forN _ ?_ ?_
    | with_reducible refine Grows.foldl _ ?_ ?_
    | with_reducible refine Grows.foldlP _ ?_ ?_
    | fail_if_no_progress with_reducible apply Grows.mk'
    | with_reducible refine Grows.ite ?_ ?_
    | with_reducible refine Grows.iteP ?_ ?_
    | split
    | with_reducible refine Grows.fst (by assumption) ?_
    | dsimp only
    | omega

theorem loomQueueEnd_grows {s0 : State} (s : State) (h : Grows s0 s) : Grows s0 (State.loomQueueEnd s) := by
  unfold State.loomQueueEnd
  try dsimp only
  repeat' first
    | intro _
    | with_reducible assumption
    | with_reducible apply finishOp_grows
    | fail_if_no_progress with_reducible apply Grows.mk'
    | with_reducible refine Grows.iteP ?_ ?_
    | dsimp only

theorem standbyEnter_grows {s0 : State} (s : State) (h : Grows s0 s) : Grows s0 (State.standbyEnter s) := by
  unfold State.standbyEnter
  try dsimp only
  repeat' first
    | intro _
    | with_reducible assumption
    | with_reducible exact Grows.refl _
    | with_reducible apply endGroup_grows
    | with_reducible apply loomOff_grows
    | with_reducible apply loomQueueEnd_grows
    | with_reducible apply setF_grows
    | with_reducible refine Grows.forL _ ?_ ?_
    | with_reducible refine Grows.forN _ ?_ ?_
    | with_reducible refine Grows.foldl _ ?_ ?_
    | with_reducible refine Grows.foldlP _ ?_ ?_
    | fail_if_no_progress with_reducible apply Grows.mk'
    | with_reducible refine Grows.ite ?_ ?_
    | with_reducible refine Grows.iteP ?_ ?_
    | split
    | with_reducible refine Grows.fst (by assumption) ?_
    | dsimp only
    | omega

theorem sleepEnter_grows {s0 : State} (s : State) (h : Grows s0 s) : Grows s0 s.sleepEnter := by
  unfold State.sleepEnter
  refine setF_grows _ _ _ ((pinsRest_grows _ (fun _ => true) (strobeCut_grows _ h)).updC rfl rfl rfl rfl rfl
    (fun _ => rfl) id ?_ ?_ ?_) <;> exact Tab.rising_filter _

theorem wake_grows {s0 : State} (s : State) (cause : Nat) (h : Grows s0 s) : Grows s0 (State.wake s cause) := by
  unfold State.wake
  try dsimp only
  repeat' first
    | with_reducible assumption
    | with_reducible apply setF_grows
    | with_reducible apply tickFree_grows
    | fail_if_no_progress with_reducible apply Grows.mk'
    | with_reducible refine Grows.ite ?_ ?_
    | split
    | dsimp only

theorem execAutoIdleEntry_grows (s : State) : GrowsO s (execAutoIdleEntry s) := by
  unfold execAutoIdleEntry
  try dsimp only
  try refine GrowsO.next ?_
  repeat' first
    | refine GrowsO.next ?_
    | with_reducible assumption
    | with_reducible exact Grows.refl _
    | with_reducible apply idleEnter_grows
    | with_reducible refine Grows.ite ?_ ?_
    | split
    | dsimp only

theorem execWakeCountReached_grows (s : State) : GrowsO s (execWakeCountReached s) := by
  unfold execWakeCountReached
  try dsimp only
  try refine GrowsO.next ?_
  repeat' first
    | refine GrowsO.next ?_
    | with_reducible assumption
    | with_reducible exact Grows.refl _
    | with_reducible apply wake_grows
    | with_reducible refine Grows.ite ?_ ?_
    | split
    | dsimp only

theorem loopLost_grows {s0 : State} (s : State) (n : Nat) (h : Grows s0 s) : Grows s0 (State.loopLost s n) := by
  unfold State.loopLost
  try dsimp only
  repeat' first
    | with_reducible assumption
    | with_reducible apply fire_grows
    | with_reducible apply setF_grows
    | dsimp only

theorem execXaFail_grows (s : State) : GrowsO s (execXaFail s) := by
  unfold execXaFail
  try dsimp only
  try refine GrowsO.next ?_
  repeat' first
    | refine GrowsO.next ?_
    | intro _
    | with_reducible assumption
    | with_reducible exact Grows.refl _
    | with_reducible apply logReg_grows
    | with_reducible apply loopLost_grows
    | with_reducible apply setF_grows
    | with_reducible apply stopAll_grows
    | with_reducible refine Grows.forN _ ?_ ?_
    | with_reducible refine Grows.ite ?_ ?_
    | split
    | dsimp only

theorem execLoopLossOfLock_grows (loop : Fin 16) (s : State) : GrowsO s (execLoopLossOfLock loop s) := by
  unfold execLoopLossOfLock
  try dsimp only
  try refine GrowsO.next ?_
  repeat' first
    | refine GrowsO.next ?_
    | intro _
    | with_reducible assumption
    | with_reducible exact Grows.refl _
    | with_reducible apply clkShow_grows
    | with_reducible apply logReg_grows
    | with_reducible apply loopLost_grows
    | with_reducible apply stopGroups_grows
    | with_reducible refine Grows.forL _ ?_ ?_
    | with_reducible refine Grows.forN _ ?_ ?_
    | with_reducible refine Grows.foldl _ ?_ ?_
    | with_reducible refine Grows.foldlP _ ?_ ?_
    | fail_if_no_progress with_reducible apply Grows.mk'
    | with_reducible refine Grows.ite ?_ ?_
    | with_reducible refine Grows.iteP ?_ ?_
    | split
    | with_reducible refine Grows.fst (by assumption) ?_
    | dsimp only
    | omega

theorem execLoopRelock_grows (loop : Fin 16) (s : State) : GrowsO s (execLoopRelock loop s) := by
  unfold execLoopRelock
  try dsimp only
  try refine GrowsO.next ?_
  repeat' first
    | refine GrowsO.next ?_
    | intro _
    | with_reducible assumption
    | with_reducible exact Grows.refl _
    | with_reducible apply clkShow_grows
    | with_reducible apply setF_grows
    | with_reducible refine Grows.forL _ ?_ ?_
    | with_reducible refine Grows.forN _ ?_ ?_
    | with_reducible refine Grows.foldl _ ?_ ?_
    | with_reducible refine Grows.foldlP _ ?_ ?_
    | fail_if_no_progress with_reducible apply Grows.mk'
    | with_reducible refine Grows.ite ?_ ?_
    | with_reducible refine Grows.iteP ?_ ?_
    | split
    | with_reducible refine Grows.fst (by assumption) ?_
    | dsimp only
    | omega

theorem thermWarn_grows {s0 : State} (s : State) (h : Grows s0 s) : Grows s0 (State.thermWarn s) := by
  unfold State.thermWarn
  try dsimp only
  repeat' first
    | with_reducible assumption
    | with_reducible apply raise_grows
    | fail_if_no_progress with_reducible apply Grows.mk'
    | with_reducible refine Grows.ite ?_ ?_
    | split
    | dsimp only

theorem thermThrottle_grows {s0 : State} (s : State) (die : Nat) (h : Grows s0 s) :
    Grows s0 (State.thermThrottle s die) := by
  unfold State.thermThrottle
  try dsimp only
  repeat' first
    | with_reducible assumption
    | with_reducible apply logReg_grows
    | with_reducible apply setF_grows
    | with_reducible refine Grows.ite ?_ ?_
    | split
    | dsimp only

theorem tripOff_grows {s0 : State} (s : State) (die : Nat) (h : Grows s0 s) : Grows s0 (State.tripOff s die) := by
  unfold State.tripOff
  try dsimp only
  repeat' first
    | with_reducible assumption
    | with_reducible apply setF_grows
    | with_reducible apply sleepEnter_grows
    | with_reducible apply standbyEnter_grows
    | with_reducible refine Grows.ite ?_ ?_
    | split
    | dsimp only

theorem thermTrip_grows {s0 : State} (s : State) (die : Nat) (h : Grows s0 s) : Grows s0 (State.thermTrip s die) := by
  unfold State.thermTrip
  try dsimp only
  repeat' first
    | with_reducible assumption
    | with_reducible apply logReg_grows
    | with_reducible apply raise_grows
    | with_reducible apply stopAll_grows
    | with_reducible apply tripOff_grows
    | fail_if_no_progress with_reducible apply Grows.mk'
    | with_reducible refine Grows.ite ?_ ?_
    | split
    | dsimp only

theorem execThermalSample_grows (die : Fin 5) (temp : BitVec 16) (s : State) :
    GrowsO s (execThermalSample die temp s) := by
  unfold execThermalSample
  try dsimp only
  try refine GrowsO.next ?_
  repeat' first
    | refine GrowsO.next ?_
    | with_reducible assumption
    | with_reducible exact Grows.refl _
    | with_reducible apply setF_grows
    | with_reducible apply setI_grows
    | with_reducible apply submitDev_grows
    | with_reducible apply thermThrottle_grows
    | with_reducible apply thermTrip_grows
    | with_reducible apply thermWarn_grows
    | fail_if_no_progress with_reducible apply Grows.mk'
    | with_reducible refine Grows.ite ?_ ?_
    | split
    | dsimp only

theorem execDomainPowerOnDone_grows (d : Fin 96) (ok : Bool) (s : State) : GrowsO s (execDomainPowerOnDone d ok s) := by
  unfold execDomainPowerOnDone
  try dsimp only
  try refine GrowsO.next ?_
  repeat' first
    | refine GrowsO.next ?_
    | intro _
    | with_reducible assumption
    | with_reducible exact Grows.refl _
    | with_reducible apply domainOn_grows
    | with_reducible apply finishOp_grows
    | with_reducible apply laneEn_grows
    | with_reducible apply logReg_grows
    | with_reducible apply raise_grows
    | with_reducible refine Grows.forN _ ?_ ?_
    | fail_if_no_progress with_reducible apply Grows.mk'
    | with_reducible refine Grows.ite ?_ ?_
    | with_reducible refine Grows.iteP ?_ ?_
    | split
    | dsimp only

/-! ## Time -/

theorem clockMove_grows {s0 : State} (s : State) (d : Int) (h : Grows s0 s) : Grows s0 (State.clockMove s d) := by
  unfold State.clockMove
  try dsimp only
  repeat' first
    | with_reducible assumption
    | fail_if_no_progress with_reducible apply Grows.mk'
    | dsimp only

theorem clockStep_grows {s0 : State} (s : State) (d : Int) (h : Grows s0 s) : Grows s0 (State.clockStep s d) := by
  unfold State.clockStep
  try dsimp only
  repeat' first
    | with_reducible assumption
    | with_reducible apply clockMove_grows
    | with_reducible apply raise_grows
    | dsimp only

theorem timeTick_grows {s0 : State} (s : State) (h : Grows s0 s) : Grows s0 (State.timeTick s) := by
  unfold State.timeTick
  try dsimp only
  repeat' first
    | with_reducible assumption
    | with_reducible apply clockMove_grows
    | fail_if_no_progress with_reducible apply Grows.mk'
    | with_reducible refine Grows.ite ?_ ?_
    | split
    | dsimp only

theorem timeAdj_grows {s0 : State} (s : State) (delta : Int) (ticks : Nat) (h : Grows s0 s) :
    Grows s0 (State.timeAdj s delta ticks) := by
  unfold State.timeAdj
  try dsimp only
  repeat' first
    | with_reducible assumption
    | fail_if_no_progress with_reducible apply Grows.mk'
    | dsimp only

theorem execTimeAdjWrite_grows (delta : BitVec 32) (ticks : BitVec 32) (s : State) :
    GrowsO s (execTimeAdjWrite delta ticks s) := by
  unfold execTimeAdjWrite
  try dsimp only
  try refine GrowsO.next ?_
  repeat' first
    | refine GrowsO.next ?_
    | with_reducible assumption
    | with_reducible exact Grows.refl _
    | with_reducible apply setF_grows
    | with_reducible apply timeAdj_grows
    | dsimp only

theorem execTimeAdjEnd_grows (s : State) : GrowsO s (execTimeAdjEnd s) := by
  unfold execTimeAdjEnd
  try dsimp only
  try refine GrowsO.next ?_
  repeat' first
    | refine GrowsO.next ?_
    | with_reducible assumption
    | with_reducible exact Grows.refl _
    | with_reducible apply clockMove_grows
    | fail_if_no_progress with_reducible apply Grows.mk'
    | dsimp only

theorem timeIncr_grows {s0 : State} (s : State) (incr : Nat) (h : Grows s0 s) : Grows s0 (State.timeIncr s incr) := by
  unfold State.timeIncr
  try dsimp only
  repeat' first
    | with_reducible assumption
    | with_reducible apply setF_grows
    | with_reducible apply setI_grows
    | dsimp only

theorem execTimeIncrWrite_grows (incr : BitVec 48) (s : State) : GrowsO s (execTimeIncrWrite incr s) := by
  unfold execTimeIncrWrite
  try dsimp only
  try refine GrowsO.next ?_
  repeat' first
    | refine GrowsO.next ?_
    | with_reducible assumption
    | with_reducible exact Grows.refl _
    | with_reducible apply timeIncr_grows
    | dsimp only

theorem timeStep_grows {s0 : State} (s : State) (ns : Int) (h : Grows s0 s) : Grows s0 (State.timeStep s ns) := by
  unfold State.timeStep
  try dsimp only
  repeat' first
    | with_reducible assumption
    | with_reducible apply clockStep_grows
    | dsimp only

theorem execTimeStepWrite_grows (step : BitVec 64) (s : State) : GrowsO s (execTimeStepWrite step s) := by
  unfold execTimeStepWrite
  try dsimp only
  try refine GrowsO.next ?_
  repeat' first
    | refine GrowsO.next ?_
    | with_reducible assumption
    | with_reducible exact Grows.refl _
    | with_reducible apply timeStep_grows
    | with_reducible refine Grows.ite ?_ ?_
    | split
    | dsimp only

theorem setPt_grows {s0 : State} (s : State) (d : Nat) (p : Ptp) (h : Grows s0 s) : Grows s0 (State.setPt s d p) := by
  unfold State.setPt
  try dsimp only
  repeat' first
    | with_reducible assumption
    | fail_if_no_progress with_reducible apply Grows.mk'
    | dsimp only

theorem setEx_grows {s0 : State} (s : State) (d : Nat) (port : Nat) (e : PtpEx) (h : Grows s0 s) :
    Grows s0 (State.setEx s d port e) := by
  unfold State.setEx
  try dsimp only
  repeat' first
    | with_reducible assumption
    | with_reducible apply setPt_grows
    | fail_if_no_progress with_reducible apply Grows.mk'
    | dsimp only

theorem setPtpState_grows {s0 : State} (s : State) (d : Nat) (v : Nat) (h : Grows s0 s) :
    Grows s0 (State.setPtpState s d v) := by
  unfold State.setPtpState
  try dsimp only
  repeat' first
    | with_reducible assumption
    | with_reducible apply setF_grows
    | dsimp only

theorem ptpSwitch_grows {s0 : State} (s : State) (d : Nat) (h : Grows s0 s) : Grows s0 (State.ptpSwitch s d) := by
  unfold State.ptpSwitch
  try dsimp only
  repeat' first
    | with_reducible assumption
    | with_reducible apply logReg_grows
    | with_reducible apply raise_grows
    | with_reducible apply satF_grows
    | with_reducible apply setF_grows
    | fail_if_no_progress with_reducible apply Grows.mk'
    | dsimp only

theorem ptpStep_grows {s0 : State} (s : State) (d : Nat) (h : Grows s0 s) : Grows s0 (State.ptpStep s d) := by
  unfold State.ptpStep
  try dsimp only
  repeat' first
    | with_reducible assumption
    | with_reducible apply clockStep_grows
    | with_reducible refine Grows.ite ?_ ?_
    | split
    | dsimp only

theorem ptpSelect_grows {s0 : State} (s : State) (now' : Bool) (h : Grows s0 s) :
    Grows s0 (State.ptpSelect s now') := by
  unfold State.ptpSelect
  try dsimp only
  repeat' first
    | with_reducible assumption
    | with_reducible apply ptpStep_grows
    | with_reducible apply ptpSwitch_grows
    | with_reducible apply setF_grows
    | fail_if_no_progress with_reducible apply Grows.mk'
    | with_reducible refine Grows.ite ?_ ?_
    | split
    | dsimp only

theorem ptpLose_grows {s0 : State} (s : State) (d : Nat) (h : Grows s0 s) : Grows s0 (State.ptpLose s d) := by
  unfold State.ptpLose
  try dsimp only
  repeat' first
    | with_reducible assumption
    | with_reducible apply logAs_grows
    | with_reducible apply ptpSelect_grows
    | with_reducible apply raise_grows
    | with_reducible apply setF_grows
    | with_reducible refine Grows.ite ?_ ?_
    | split
    | dsimp only

theorem ptpEnable_grows {s0 : State} (s : State) (d : Nat) (on : Bool) (h : Grows s0 s) :
    Grows s0 (State.ptpEnable s d on) := by
  unfold State.ptpEnable
  try dsimp only
  repeat' first
    | with_reducible assumption
    | with_reducible apply ptpSelect_grows
    | with_reducible apply setF_grows
    | with_reducible apply setPt_grows
    | with_reducible apply setPtpState_grows
    | with_reducible refine Grows.ite ?_ ?_
    | split
    | dsimp only

theorem ptpBest_grows {s0 : State} (s : State) (d : Nat) (ms : List Master) (b : Master) (h : Grows s0 s) :
    Grows s0 (State.ptpBest s d ms b) := by
  unfold State.ptpBest
  try dsimp only
  repeat' first
    | intro _
    | with_reducible assumption
    | with_reducible apply setF_grows
    | with_reducible apply setPt_grows
    | with_reducible apply setPtpState_grows
    | fail_if_no_progress with_reducible apply Grows.mk'
    | with_reducible refine Grows.ite ?_ ?_
    | with_reducible refine Grows.iteP ?_ ?_
    | split
    | dsimp only

theorem ptpAnnounce_grows {s0 : State} (s : State) (d : Nat) (port : Nat) (trans : Nat) (m : List Byte) (h : Grows s0 s) :
    Grows s0 (State.ptpAnnounce s d port trans m) := by
  unfold State.ptpAnnounce
  try dsimp only
  repeat' first
    | with_reducible assumption
    | with_reducible apply ptpBest_grows
    | with_reducible apply setPt_grows
    | fail_if_no_progress with_reducible apply Grows.mk'
    | with_reducible refine Grows.ite ?_ ?_
    | split
    | dsimp only

theorem ptpAnnounceAll_grows {s0 : State} (s : State) (port : Nat) (trans : Nat) (m : List Byte) (h : Grows s0 s) :
    Grows s0 (State.ptpAnnounceAll s port trans m) := by
  unfold State.ptpAnnounceAll
  try dsimp only
  repeat' first
    | intro _
    | with_reducible assumption
    | with_reducible apply ptpAnnounce_grows
    | with_reducible refine Grows.forN _ ?_ ?_
    | with_reducible refine Grows.ite ?_ ?_
    | split
    | dsimp only

theorem execPtpAnnounceReceived_grows (port : Fin 2) (frame : List Byte) (s : State) :
    GrowsO s (execPtpAnnounceReceived port frame s) := by
  unfold execPtpAnnounceReceived
  try dsimp only
  try refine GrowsO.next ?_
  repeat' first
    | refine GrowsO.next ?_
    | with_reducible assumption
    | with_reducible exact Grows.refl _
    | with_reducible apply ptpAnnounceAll_grows
    | dsimp only

theorem ptpGone_grows {s0 : State} (s : State) (d : Nat) (h : Grows s0 s) : Grows s0 (State.ptpGone s d) := by
  unfold State.ptpGone
  try dsimp only
  repeat' first
    | intro _
    | with_reducible assumption
    | with_reducible apply ptpBest_grows
    | with_reducible apply setPt_grows
    | with_reducible apply setPtpState_grows
    | fail_if_no_progress with_reducible apply Grows.mk'
    | with_reducible refine Grows.ite ?_ ?_
    | with_reducible refine Grows.iteP ?_ ?_
    | split
    | dsimp only

theorem execAnnounceTimeout_grows (domain : Fin 2) (s : State) : GrowsO s (execAnnounceTimeout domain s) := by
  unfold execAnnounceTimeout
  try dsimp only
  try refine GrowsO.next ?_
  repeat' first
    | refine GrowsO.next ?_
    | with_reducible assumption
    | with_reducible exact Grows.refl _
    | with_reducible apply ptpGone_grows
    | with_reducible apply ptpLose_grows
    | with_reducible refine Grows.ite ?_ ?_
    | split
    | dsimp only

theorem servo_grows {s0 : State} (s : State) (e : Int) (h : Grows s0 s) : Grows s0 (State.servo s e) := by
  unfold State.servo
  try dsimp only
  repeat' first
    | with_reducible assumption
    | with_reducible apply setI_grows
    | fail_if_no_progress with_reducible apply Grows.mk'
    | with_reducible refine Grows.ite ?_ ?_
    | split
    | dsimp only

theorem ptpCount_grows {s0 : State} (s : State) (d : Nat) (off : Int) (h : Grows s0 s) :
    Grows s0 (State.ptpCount s d off) := by
  unfold State.ptpCount
  try dsimp only
  repeat' first
    | with_reducible assumption
    | with_reducible apply ptpLose_grows
    | with_reducible apply ptpSelect_grows
    | with_reducible apply setF_grows
    | with_reducible apply setPt_grows
    | fail_if_no_progress with_reducible apply Grows.mk'
    | with_reducible refine Grows.ite ?_ ?_
    | split
    | dsimp only

theorem ptpDelay_grows {s0 : State} (s : State) (d : Nat) (e : PtpEx) (h : Grows s0 s) :
    Grows s0 (State.ptpDelay s d e) := by
  unfold State.ptpDelay
  try dsimp only
  repeat' first
    | with_reducible assumption
    | with_reducible apply setI_grows
    | fail_if_no_progress with_reducible apply Grows.mk'
    | split
    | dsimp only

theorem ptpMeasure_grows {s0 : State} (s : State) (d : Nat) (off : Int) (h : Grows s0 s) :
    Grows s0 (State.ptpMeasure s d off) := by
  unfold State.ptpMeasure
  try dsimp only
  repeat' first
    | with_reducible assumption
    | with_reducible apply ptpCount_grows
    | with_reducible apply servo_grows
    | with_reducible apply setI_grows
    | with_reducible apply setPtpState_grows
    | fail_if_no_progress with_reducible apply Grows.mk'
    | with_reducible refine Grows.ite ?_ ?_
    | split
    | dsimp only

theorem ptpSync_grows {s0 : State} (s : State) (d : Nat) (port : Nat) (t1 : Int) (t2 : Int) (h : Grows s0 s) :
    Grows s0 (State.ptpSync s d port t1 t2) := by
  unfold State.ptpSync
  try dsimp only
  repeat' first
    | with_reducible assumption
    | with_reducible apply ptpDelay_grows
    | with_reducible apply ptpMeasure_grows
    | with_reducible apply setEx_grows
    | with_reducible apply setPt_grows
    | fail_if_no_progress with_reducible apply Grows.mk'
    | with_reducible refine Grows.ite ?_ ?_
    | split
    | dsimp only

theorem execPtpSyncReceived_grows (port : Fin 2) (domain : Fin 2) (t1 : Int) (t2 : Int) (s : State) :
    GrowsO s (execPtpSyncReceived port domain t1 t2 s) := by
  unfold execPtpSyncReceived
  try dsimp only
  try refine GrowsO.next ?_
  repeat' first
    | refine GrowsO.next ?_
    | with_reducible assumption
    | with_reducible exact Grows.refl _
    | with_reducible apply ptpSync_grows
    | fail_if_no_progress with_reducible apply Grows.mk'
    | with_reducible refine Grows.ite ?_ ?_
    | split
    | dsimp only

theorem delayReqOn_grows {s0 : State} (s : State) (d : Nat) (port : Nat) (h : Grows s0 s) :
    Grows s0 (State.delayReqOn s d port) := by
  unfold State.delayReqOn
  try dsimp only
  repeat' first
    | with_reducible assumption
    | with_reducible apply setEx_grows
    | with_reducible apply toPort_grows
    | fail_if_no_progress with_reducible apply Grows.mk'
    | dsimp only

theorem execPtpDelayReqSend_grows (domain : Fin 2) (s : State) : GrowsO s (execPtpDelayReqSend domain s) := by
  unfold execPtpDelayReqSend
  try dsimp only
  try refine GrowsO.next ?_
  repeat' first
    | refine GrowsO.next ?_
    | intro _
    | with_reducible assumption
    | with_reducible exact Grows.refl _
    | with_reducible apply delayReqOn_grows
    | with_reducible refine Grows.forL _ ?_ ?_
    | with_reducible refine Grows.ite ?_ ?_
    | split
    | dsimp only

theorem ptpResp_grows {s0 : State} (s : State) (d : Nat) (port : Nat) (t4 : Int) (h : Grows s0 s) :
    Grows s0 (State.ptpResp s d port t4) := by
  unfold State.ptpResp
  try dsimp only
  repeat' first
    | with_reducible assumption
    | with_reducible apply ptpDelay_grows
    | with_reducible apply setEx_grows
    | fail_if_no_progress with_reducible apply Grows.mk'
    | with_reducible refine Grows.ite ?_ ?_
    | split
    | dsimp only

theorem execPtpDelayRespReceived_grows (domain : Fin 2) (t4 : Int) (s : State) :
    GrowsO s (execPtpDelayRespReceived domain t4 s) := by
  unfold execPtpDelayRespReceived
  try dsimp only
  try refine GrowsO.next ?_
  repeat' first
    | refine GrowsO.next ?_
    | with_reducible assumption
    | with_reducible exact Grows.refl _
    | with_reducible apply ptpResp_grows
    | with_reducible refine Grows.ite ?_ ?_
    | split
    | dsimp only

theorem execServoFallback_grows (s : State) : GrowsO s (execServoFallback s) := by
  unfold execServoFallback
  try dsimp only
  try refine GrowsO.next ?_
  repeat' first
    | refine GrowsO.next ?_
    | with_reducible assumption
    | with_reducible exact Grows.refl _
    | with_reducible apply logReg_grows
    | with_reducible apply raise_grows
    | with_reducible apply setF_grows
    | fail_if_no_progress with_reducible apply Grows.mk'
    | with_reducible refine Grows.ite ?_ ?_
    | split
    | dsimp only

theorem execPtpReturn_grows (s : State) : GrowsO s (execPtpReturn s) := by
  unfold execPtpReturn
  try dsimp only
  try refine GrowsO.next ?_
  repeat' first
    | refine GrowsO.next ?_
    | with_reducible assumption
    | with_reducible exact Grows.refl _
    | with_reducible apply ptpSelect_grows
    | with_reducible refine Grows.ite ?_ ?_
    | split
    | dsimp only

/-! ## Ports -/

theorem announce_grows {s0 : State} (s : State) (kind : Nat) (h : Grows s0 s) : Grows s0 (State.announce s kind) := by
  unfold State.announce
  try dsimp only
  repeat' first
    | intro _
    | with_reducible assumption
    | with_reducible apply sendUdp_grows
    | with_reducible refine Grows.forL _ ?_ ?_
    | fail_if_no_progress with_reducible apply Grows.mk'
    | with_reducible refine Grows.ite ?_ ?_
    | split
    | dsimp only

theorem execAnnouncePeriodic_grows (s : State) : GrowsO s (execAnnouncePeriodic s) := by
  unfold execAnnouncePeriodic
  try dsimp only
  try refine GrowsO.next ?_
  repeat' first
    | refine GrowsO.next ?_
    | with_reducible assumption
    | with_reducible exact Grows.refl _
    | with_reducible apply announce_grows
    | with_reducible refine Grows.ite ?_ ?_
    | split
    | dsimp only

theorem execDegradedChange_grows (s : State) : GrowsO s (execDegradedChange s) := by
  unfold execDegradedChange
  try dsimp only
  try refine GrowsO.next ?_
  repeat' first
    | refine GrowsO.next ?_
    | with_reducible assumption
    | with_reducible exact Grows.refl _
    | with_reducible apply announce_grows
    | with_reducible apply raise_grows
    | with_reducible apply setF_grows
    | fail_if_no_progress with_reducible apply Grows.mk'
    | with_reducible refine Grows.ite ?_ ?_
    | split
    | dsimp only

theorem annReceived_grows {s0 : State} (s : State) (m : List Byte) (h : Grows s0 s) :
    Grows s0 (State.annReceived s m) := by
  unfold State.annReceived
  try dsimp only
  repeat' first
    | with_reducible assumption
    | with_reducible apply logReg_grows
    | with_reducible apply raise_grows
    | fail_if_no_progress with_reducible apply Grows.mk'
    | with_reducible refine Grows.ite ?_ ?_
    | split
    | dsimp only

theorem execAnnounceReceived_grows (frame : List Byte) (s : State) : GrowsO s (execAnnounceReceived frame s) := by
  unfold execAnnounceReceived
  try dsimp only
  try refine GrowsO.next ?_
  repeat' first
    | refine GrowsO.next ?_
    | with_reducible assumption
    | with_reducible exact Grows.refl _
    | with_reducible apply annReceived_grows
    | with_reducible refine Grows.ite ?_ ?_
    | split
    | dsimp only

theorem streamRestart_grows {s0 : State} (s : State) (h : Grows s0 s) : Grows s0 (State.streamRestart s) := by
  unfold State.streamRestart
  try dsimp only
  repeat' first
    | intro _
    | with_reducible assumption
    | fail_if_no_progress with_reducible apply Grows.mk'
    | with_reducible refine Grows.iteP ?_ ?_
    | split
    | dsimp only

theorem streamAll_grows {s0 : State} (s : State) (h : Grows s0 s) : Grows s0 (State.streamAll s) := by
  unfold State.streamAll
  try dsimp only
  repeat' first
    | with_reducible assumption
    | with_reducible apply streamServe_grows
    | with_reducible refine Grows.iteP ?_ ?_
    | dsimp only

theorem execStreamFlushTimer_grows (sub : Fin 1024) (s : State) : GrowsO s (execStreamFlushTimer sub s) := by
  unfold execStreamFlushTimer
  try dsimp only
  try refine GrowsO.next ?_
  repeat' first
    | refine GrowsO.next ?_
    | with_reducible assumption
    | with_reducible exact Grows.refl _
    | with_reducible apply sendStream_grows
    | fail_if_no_progress with_reducible apply Grows.mk'
    | with_reducible refine Grows.ite ?_ ?_
    | split
    | dsimp only

theorem execSentHoldExpiry_grows (sub : Fin 1024) (s : State) : GrowsO s (execSentHoldExpiry sub s) := by
  unfold execSentHoldExpiry
  try dsimp only
  try refine GrowsO.next ?_
  repeat' first
    | refine GrowsO.next ?_
    | with_reducible assumption
    | with_reducible exact Grows.refl _
    | with_reducible apply grant_grows
    | fail_if_no_progress with_reducible apply Grows.mk'
    | with_reducible refine Grows.iteP ?_ ?_
    | split
    | dsimp only

theorem reports_grows {s0 : State} (s : State) (p : Nat) (ty : Nat) (h : Grows s0 s) :
    Grows s0 (State.reports s p ty) := by
  unfold State.reports
  try dsimp only
  repeat' first
    | intro _
    | with_reducible assumption
    | with_reducible apply sendOn_grows
    | with_reducible refine Grows.forL _ ?_ ?_
    | with_reducible refine Grows.ite ?_ ?_
    | split
    | dsimp only

theorem gratuitous_grows {s0 : State} (s : State) (p : Nat) (h : Grows s0 s) : Grows s0 (State.gratuitous s p) := by
  unfold State.gratuitous
  try dsimp only
  repeat' first
    | intro _
    | with_reducible assumption
    | with_reducible apply sendOn_grows
    | with_reducible refine Grows.forN _ ?_ ?_
    | with_reducible refine Grows.ite ?_ ?_
    | split
    | dsimp only

theorem failover_grows {s0 : State} (s : State) (p : Nat) (h : Grows s0 s) : Grows s0 (State.failover s p) := by
  unfold State.failover
  try dsimp only
  repeat' first
    | with_reducible assumption
    | with_reducible apply gratuitous_grows
    | with_reducible apply logReg_grows
    | with_reducible apply raise_grows
    | with_reducible apply setF_grows
    | with_reducible apply streamAll_grows
    | with_reducible apply streamRestart_grows
    | dsimp only

theorem linkRise_grows {s0 : State} (s : State) (p : Nat) (h : Grows s0 s) : Grows s0 (State.linkRise s p) := by
  unfold State.linkRise
  try dsimp only
  repeat' first
    | with_reducible assumption
    | with_reducible apply announce_grows
    | with_reducible apply failover_grows
    | with_reducible apply mark_grows
    | with_reducible apply reports_grows
    | with_reducible apply setF_grows
    | with_reducible apply streamAll_grows
    | fail_if_no_progress with_reducible apply Grows.mk'
    | with_reducible refine Grows.ite ?_ ?_
    | split
    | dsimp only

theorem execLinkUp_grows (port : Fin 2) (s : State) : GrowsO s (execLinkUp port s) := by
  unfold execLinkUp
  try dsimp only
  try refine GrowsO.next ?_
  repeat' first
    | refine GrowsO.next ?_
    | with_reducible assumption
    | with_reducible exact Grows.refl _
    | with_reducible apply linkRise_grows
    | with_reducible refine Grows.ite ?_ ?_
    | split
    | dsimp only

theorem linkFall_grows {s0 : State} (s : State) (p : Nat) (remFault : Bool) (h : Grows s0 s) :
    Grows s0 (State.linkFall s p remFault) := by
  unfold State.linkFall
  try dsimp only
  repeat' first
    | with_reducible assumption
    | with_reducible apply failover_grows
    | with_reducible apply logReg_grows
    | with_reducible apply raise_grows
    | with_reducible apply setF_grows
    | with_reducible apply streamRestart_grows
    | with_reducible apply txDrop_grows
    | fail_if_no_progress with_reducible apply Grows.mk'
    | with_reducible refine Grows.ite ?_ ?_
    | split
    | dsimp only

theorem execLinkDown_grows (port : Fin 2) (remFault : Bool) (s : State) : GrowsO s (execLinkDown port remFault s) := by
  unfold execLinkDown
  try dsimp only
  try refine GrowsO.next ?_
  repeat' first
    | refine GrowsO.next ?_
    | with_reducible assumption
    | with_reducible exact Grows.refl _
    | with_reducible apply linkFall_grows
    | with_reducible refine Grows.ite ?_ ?_
    | split
    | dsimp only

theorem execPortRevert_grows (s : State) : GrowsO s (execPortRevert s) := by
  unfold execPortRevert
  try dsimp only
  try refine GrowsO.next ?_
  repeat' first
    | refine GrowsO.next ?_
    | with_reducible assumption
    | with_reducible exact Grows.refl _
    | with_reducible apply failover_grows
    | fail_if_no_progress with_reducible apply Grows.mk'
    | with_reducible refine Grows.ite ?_ ?_
    | split
    | dsimp only

theorem execNeighbourTimeout_grows (port : Fin 2) (s : State) : GrowsO s (execNeighbourTimeout port s) := by
  unfold execNeighbourTimeout
  try dsimp only
  try refine GrowsO.next ?_
  repeat' first
    | refine GrowsO.next ?_
    | intro _
    | with_reducible assumption
    | with_reducible exact Grows.refl _
    | fail_if_no_progress with_reducible apply Grows.mk'
    | split
    | dsimp only

theorem execPrpSupervision_grows (s : State) : GrowsO s (execPrpSupervision s) := by
  unfold execPrpSupervision
  try dsimp only
  try refine GrowsO.next ?_
  repeat' first
    | refine GrowsO.next ?_
    | with_reducible assumption
    | with_reducible exact Grows.refl _
    | with_reducible apply sendOn_grows
    | fail_if_no_progress with_reducible apply Grows.mk'
    | with_reducible refine Grows.ite ?_ ?_
    | split
    | dsimp only

theorem lqStart_grows {s0 : State} (s : State) (q : Nat) (h : Grows s0 s) : Grows s0 (State.lqStart s q) := by
  unfold State.lqStart
  try dsimp only
  repeat' first
    | intro _
    | with_reducible assumption
    | with_reducible apply bind_grows
    | with_reducible apply subBlock_grows
    | dsimp only

theorem lqStop_grows {s0 : State} (s : State) (q : Nat) (h : Grows s0 s) : Grows s0 (State.lqStop s q) := by
  unfold State.lqStop
  try dsimp only
  repeat' first
    | with_reducible assumption
    | with_reducible apply unbind_grows
    | with_reducible apply unsubBlock_grows
    | fail_if_no_progress with_reducible apply Grows.mk'
    | dsimp only

theorem lqEnd_grows {s0 : State} (s : State) (q : Nat) (status : Nat) (txSec : Nat) (txNs : Nat) (h : Grows s0 s) :
    Grows s0 (State.lqEnd s q status txSec txNs) := by
  unfold State.lqEnd
  try dsimp only
  repeat' first
    | with_reducible assumption
    | with_reducible apply memWrite_grows
    | with_reducible apply take_grows
    | with_reducible refine Grows.iteP ?_ ?_
    | dsimp only

theorem lqNone_grows {s0 : State} (s : State) (q status : Nat) (h : Grows s0 s) : Grows s0 (s.lqNone q status) :=
  lqEnd_grows _ _ _ _ _ (Grows.updFree 2 h)

theorem lqSend_grows {s0 : State} (s : State) (q : Nat) (status : Nat) (frame : List Byte) (due : Nat) (h : Grows s0 s) :
    Grows s0 (State.lqSend s q status frame due) := by
  unfold State.lqSend
  try dsimp only
  repeat' first
    | with_reducible assumption
    | with_reducible apply incF_grows
    | with_reducible apply lqEnd_grows
    | with_reducible apply sendOn_grows
    | fail_if_no_progress with_reducible apply Grows.mk'
    | dsimp only

theorem lqWith_grows {s0 : State} (s : State) (q : Nat) (e : List Byte) (f : State → List Byte → State)
    (hf : ∀ t b, Grows s0 t → Grows s0 (f t b)) (h : Grows s0 s) : Grows s0 (s.lqWith q e f) := by
  unfold State.lqWith
  dsimp only
  repeat' first
    | intro _
    | with_reducible assumption
    | with_reducible exact Grows.refl _
    | with_reducible apply hf
    | with_reducible apply lqNone_grows
    | with_reducible apply memRead_grows
    | with_reducible refine Grows.forL _ ?_ ?_
    | with_reducible refine Grows.forN _ ?_ ?_
    | with_reducible refine Grows.foldl _ ?_ ?_
    | with_reducible refine Grows.foldlP _ ?_ ?_
    | fail_if_no_progress with_reducible apply Grows.mk'
    | with_reducible refine Grows.ite ?_ ?_
    | with_reducible refine Grows.iteP ?_ ?_
    | split
    | with_reducible refine Grows.fst (by assumption) ?_
    | dsimp only
    | omega

theorem lqOnTime_grows {s0 : State} (s : State) (q : Nat) (e : List Byte) (h : Grows s0 s) :
    Grows s0 (s.lqOnTime q e) := by
  unfold State.lqOnTime
  refine lqWith_grows _ _ _ _ (fun t b ht => ?_) h
  repeat' first
    | intro _
    | with_reducible assumption
    | with_reducible exact Grows.refl _
    | with_reducible assumption
    | with_reducible apply lqSend_grows
    | with_reducible apply lqWith_grows
    | with_reducible apply tickFree_grows
    | with_reducible refine Grows.forL _ ?_ ?_
    | with_reducible refine Grows.forN _ ?_ ?_
    | with_reducible refine Grows.foldl _ ?_ ?_
    | with_reducible refine Grows.foldlP _ ?_ ?_
    | fail_if_no_progress with_reducible apply Grows.mk'
    | with_reducible refine Grows.ite ?_ ?_
    | with_reducible refine Grows.iteP ?_ ?_
    | split
    | with_reducible refine Grows.fst (by assumption) ?_
    | dsimp only
    | omega

theorem lqLate_grows {s0 : State} (s : State) (q : Nat) (e : List Byte) (h : Grows s0 s) : Grows s0 (s.lqLate q e) := by
  unfold State.lqLate
  refine lqWith_grows _ _ _ _ (fun t b ht => ?_) h
  dsimp only
  repeat' first
    | intro _
    | with_reducible assumption
    | with_reducible exact Grows.refl _
    | with_reducible assumption
    | with_reducible apply lqNone_grows
    | with_reducible apply lqSend_grows
    | with_reducible apply lqWith_grows
    | with_reducible apply satF_grows
    | with_reducible refine Grows.forL _ ?_ ?_
    | with_reducible refine Grows.forN _ ?_ ?_
    | with_reducible refine Grows.foldl _ ?_ ?_
    | with_reducible refine Grows.foldlP _ ?_ ?_
    | fail_if_no_progress with_reducible apply Grows.mk'
    | with_reducible refine Grows.ite ?_ ?_
    | with_reducible refine Grows.iteP ?_ ?_
    | split
    | with_reducible refine Grows.fst (by assumption) ?_
    | dsimp only
    | omega

theorem launch_grows {s0 : State} (s : State) (q : Nat) (e : List Byte) (h : Grows s0 s) :
    Grows s0 (State.launch s q e) := by
  unfold State.launch
  try dsimp only
  repeat' first
    | with_reducible assumption
    | with_reducible apply lqLate_grows
    | with_reducible apply lqNone_grows
    | with_reducible apply lqOnTime_grows
    | fail_if_no_progress with_reducible apply Grows.mk'
    | with_reducible refine Grows.ite ?_ ?_
    | split
    | dsimp only

theorem lqServe_grows {s0 : State} (s : State) (h : Grows s0 s) : Grows s0 (State.lqServe s) := by
  unfold State.lqServe
  try dsimp only
  repeat' first
    | intro _
    | with_reducible assumption
    | with_reducible apply lqOnTime_grows
    | with_reducible refine Grows.forN _ ?_ ?_
    | fail_if_no_progress with_reducible apply Grows.mk'
    | with_reducible refine Grows.ite ?_ ?_
    | split
    | dsimp only

theorem lqDue_grows {s0 : State} (s : State) (q : Nat) (h : Grows s0 s) : Grows s0 (State.lqDue s q) := by
  unfold State.lqDue
  try dsimp only
  repeat' first
    | with_reducible assumption
    | with_reducible apply launch_grows
    | with_reducible apply lqNone_grows
    | with_reducible apply readEntry_grows
    | fail_if_no_progress with_reducible apply Grows.mk'
    | with_reducible refine Grows.ite ?_ ?_
    | with_reducible refine Grows.iteP ?_ ?_
    | split
    | dsimp only

theorem execLaunchDue_grows (q : Fin 8) (s : State) : GrowsO s (execLaunchDue q s) := by
  unfold execLaunchDue
  try dsimp only
  try refine GrowsO.next ?_
  repeat' first
    | refine GrowsO.next ?_
    | with_reducible assumption
    | with_reducible exact Grows.refl _
    | with_reducible apply lqDue_grows
    | with_reducible apply lqServe_grows
    | with_reducible refine Grows.ite ?_ ?_
    | split
    | dsimp only

/-! ## FaultRows -/

theorem maskLost_grows {s0 : State} (s : State) (ch : Nat) (h : Grows s0 s) : Grows s0 (State.maskLost s ch) := by
  unfold State.maskLost
  try dsimp only
  repeat' first
    | intro _
    | with_reducible assumption
    | with_reducible apply cswSet_grows
    | with_reducible apply jrn_grows
    | with_reducible apply logReg_grows
    | with_reducible apply setCh_grows
    | with_reducible refine Grows.forL _ ?_ ?_
    | fail_if_no_progress with_reducible apply Grows.mk'
    | with_reducible refine Grows.ite ?_ ?_
    | with_reducible refine Grows.iteP ?_ ?_
    | split
    | dsimp only

theorem channelFails_grows {s0 : State} (s : State) (ch : Nat) (h : Grows s0 s) :
    Grows s0 (State.channelFails s ch) := by
  unfold State.channelFails
  try dsimp only
  repeat' first
    | with_reducible assumption
    | with_reducible apply log_grows
    | with_reducible apply maskLost_grows
    | with_reducible apply setF_grows
    | fail_if_no_progress with_reducible apply Grows.mk'
    | with_reducible refine Grows.ite ?_ ?_
    | split
    | dsimp only

theorem execChannelFaultDetect_grows (ch : Fin 128) (s : State) : GrowsO s (execChannelFaultDetect ch s) := by
  unfold execChannelFaultDetect
  try dsimp only
  try refine GrowsO.next ?_
  repeat' first
    | refine GrowsO.next ?_
    | with_reducible assumption
    | with_reducible exact Grows.refl _
    | with_reducible apply channelFails_grows
    | dsimp only

theorem spareBegins_grows {s0 : State} (s : State) (ch : Nat) (h : Grows s0 s) : Grows s0 (State.spareBegins s ch) := by
  unfold State.spareBegins
  try dsimp only
  repeat' first
    | intro _
    | with_reducible assumption
    | with_reducible apply cswSet_grows
    | with_reducible apply incF_grows
    | with_reducible apply setCh_grows
    | with_reducible refine Grows.forL _ ?_ ?_
    | fail_if_no_progress with_reducible apply Grows.mk'
    | split
    | dsimp only

theorem execSpareTakeover_grows (region : Fin 8) (s : State) : GrowsO s (execSpareTakeover region s) := by
  unfold execSpareTakeover
  try dsimp only
  try refine GrowsO.next ?_
  repeat' first
    | refine GrowsO.next ?_
    | intro _
    | with_reducible assumption
    | with_reducible exact Grows.refl _
    | with_reducible apply maskLost_grows
    | with_reducible apply satF_grows
    | with_reducible apply setF_grows
    | with_reducible apply spareBegins_grows
    | fail_if_no_progress with_reducible apply Grows.mk'
    | with_reducible refine Grows.ite ?_ ?_
    | split
    | dsimp only

theorem restoreChan_grows {s0 : State} (s : State) (ch : Nat) (h : Grows s0 s) : Grows s0 (State.restoreChan s ch) := by
  unfold State.restoreChan
  try dsimp only
  repeat' first
    | with_reducible assumption
    | with_reducible apply setCh_grows
    | with_reducible apply setF_grows
    | fail_if_no_progress with_reducible apply Grows.mk'
    | with_reducible refine Grows.ite ?_ ?_
    | split
    | dsimp only

theorem rgnRestore_grows {s0 : State} (s : State) (r : Nat) (mask : Nat) (h : Grows s0 s) :
    Grows s0 (State.rgnRestore s r mask) := by
  unfold State.rgnRestore
  try dsimp only
  repeat' first
    | intro _
    | with_reducible assumption
    | with_reducible apply restoreChan_grows
    | with_reducible refine Grows.forL _ ?_ ?_
    | dsimp only

theorem execRgnRestore_grows (region : Fin 8) (mask : BitVec 16) (s : State) :
    GrowsO s (execRgnRestore region mask s) := by
  unfold execRgnRestore
  try dsimp only
  try refine GrowsO.next ?_
  repeat' first
    | refine GrowsO.next ?_
    | with_reducible assumption
    | with_reducible exact Grows.refl _
    | with_reducible apply rgnRestore_grows
    | dsimp only

theorem stopCluster_grows {s0 : State} (s : State) (c : Nat) (h : Grows s0 s) : Grows s0 (State.stopCluster s c) := by
  unfold State.stopCluster
  try dsimp only
  repeat' first
    | with_reducible assumption
    | fail_if_no_progress with_reducible apply Grows.mk'
    | dsimp only

theorem clusterFails_grows {s0 : State} (s : State) (c : Nat) (h : Grows s0 s) : Grows s0 (State.clusterFails s c) := by
  unfold State.clusterFails
  try dsimp only
  repeat' first
    | with_reducible assumption
    | with_reducible apply logReg_grows
    | with_reducible apply mark_grows
    | with_reducible apply stopCluster_grows
    | dsimp only

theorem execClusterFault_grows (c : Fin 32) (s : State) : GrowsO s (execClusterFault c s) := by
  unfold execClusterFault
  try dsimp only
  try refine GrowsO.next ?_
  repeat' first
    | refine GrowsO.next ?_
    | with_reducible assumption
    | with_reducible exact Grows.refl _
    | with_reducible apply clusterFails_grows
    | dsimp only

theorem execRegionFault_grows (region : Fin 8) (s : State) : GrowsO s (execRegionFault region s) := by
  unfold execRegionFault
  try dsimp only
  try refine GrowsO.next ?_
  repeat' first
    | refine GrowsO.next ?_
    | intro _
    | with_reducible assumption
    | with_reducible exact Grows.refl _
    | with_reducible apply log_grows
    | with_reducible apply stopCluster_grows
    | with_reducible refine Grows.forN _ ?_ ?_
    | fail_if_no_progress with_reducible apply Grows.mk'
    | dsimp only

theorem execDieLinkFault_grows (l : Fin 7) (s : State) : GrowsO s (execDieLinkFault l s) := by
  unfold execDieLinkFault
  try dsimp only
  try refine GrowsO.next ?_
  repeat' first
    | refine GrowsO.next ?_
    | intro _
    | with_reducible assumption
    | with_reducible exact Grows.refl _
    | with_reducible apply logReg_grows
    | with_reducible apply raise_grows
    | with_reducible apply stopGroups_grows
    | dsimp only

theorem execSeamLinkFault_grows (ch : Fin 128) (s : State) : GrowsO s (execSeamLinkFault ch s) := by
  unfold execSeamLinkFault
  try dsimp only
  try refine GrowsO.next ?_
  repeat' first
    | refine GrowsO.next ?_
    | intro _
    | with_reducible assumption
    | with_reducible exact Grows.refl _
    | with_reducible apply logAs_grows
    | with_reducible apply log_grows
    | with_reducible apply raise_grows
    | with_reducible apply stopGroups_grows
    | with_reducible refine Grows.ite ?_ ?_
    | split
    | dsimp only

/-! ## Hank -/

theorem setJob_grows {s0 : State} (s : State) (k : Nat) (l : Nat) (j : HankJob) (h : Grows s0 s) :
    Grows s0 (State.setJob s k l j) := by
  unfold State.setJob
  try dsimp only
  repeat' first
    | with_reducible assumption
    | fail_if_no_progress with_reducible apply Grows.mk'
    | dsimp only

theorem hkShow_grows {s0 : State} (s : State) (k : Nat) (h : Grows s0 s) : Grows s0 (State.hkShow s k) := by
  unfold State.hkShow
  try dsimp only
  repeat' first
    | intro _
    | with_reducible assumption
    | with_reducible apply setF_grows
    | with_reducible refine Grows.iteP ?_ ?_
    | dsimp only

theorem hkStart_grows {s0 : State} (s : State) (k : Nat) (h : Grows s0 s) : Grows s0 (State.hkStart s k) := by
  unfold State.hkStart
  try dsimp only
  repeat' first
    | with_reducible assumption
    | with_reducible apply bind_grows
    | with_reducible apply setF_grows
    | with_reducible apply subBlock_grows
    | dsimp only

theorem hkRelease_grows {s0 : State} (s : State) (k : Nat) (h : Grows s0 s) : Grows s0 (State.hkRelease s k) := by
  unfold State.hkRelease
  try dsimp only
  repeat' first
    | intro _
    | with_reducible assumption
    | with_reducible apply unbind_grows
    | with_reducible apply unsubBlock_grows
    | with_reducible refine Grows.ite ?_ ?_
    | with_reducible refine Grows.iteP ?_ ?_
    | split
    | dsimp only

theorem hkMake_grows {s0 : State} (s : State) (k : Nat) (e : List Byte) (h : Grows s0 s) :
    Grows s0 (State.hkMake s k e).1 := by
  unfold State.hkMake
  try dsimp only
  repeat' first
    | intro _
    | with_reducible assumption
    | with_reducible apply memRead_grows
    | fail_if_no_progress with_reducible apply Grows.mk'
    | with_reducible refine Grows.ite ?_ ?_
    | with_reducible refine Grows.iteP ?_ ?_
    | split
    | dsimp only

theorem hkPut_grows {s0 : State} (s : State) (k : Nat) (bufs : List (Nat × Nat)) (p : Nat) (bs : List Byte) (n : Nat)
    (h : Grows s0 s) : Grows s0 (s.hkPut k bufs p bs n).1 := by
  induction n generalizing s p bs with
  | zero => exact h
  | succ n ih =>
    unfold State.hkPut
    dsimp only
    repeat' first
      | intro _
      | with_reducible assumption
      | with_reducible exact Grows.refl _
      | with_reducible apply ih
      | with_reducible apply memWrite_grows
      | with_reducible refine Grows.forL _ ?_ ?_
      | with_reducible refine Grows.forN _ ?_ ?_
      | with_reducible refine Grows.foldl _ ?_ ?_
      | with_reducible refine Grows.foldlP _ ?_ ?_
      | fail_if_no_progress with_reducible apply Grows.mk'
      | with_reducible refine Grows.ite ?_ ?_
      | with_reducible refine Grows.iteP ?_ ?_
      | split
      | with_reducible refine Grows.fst (by assumption) ?_
      | dsimp only
      | omega

theorem hkJunk_grows {s0 : State} (s : State) (k : Nat) (j : HankJob) (p n : Nat) (h : Grows s0 s) :
    Grows s0 (s.hkJunk k j p n).1 := hkPut_grows _ _ _ _ _ _ (Grows.updFree _ h)

theorem hkBreak_grows {s0 : State} (s : State) (k : Nat) (l : Nat) (j : HankJob) (n : Nat) (st : Nat) (h : Grows s0 s) :
    Grows s0 (State.hkBreak s k l j n st) := by
  unfold State.hkBreak
  try dsimp only
  repeat' first
    | with_reducible assumption
    | with_reducible apply hkJunk_grows
    | with_reducible apply setJob_grows
    | fail_if_no_progress with_reducible apply Grows.mk'
    | with_reducible refine Grows.ite ?_ ?_
    | with_reducible refine Grows.iteP ?_ ?_
    | split
    | dsimp only

theorem hkEmit_grows {s0 : State} (s : State) (k : Nat) (l : Nat) (j : HankJob) (gap : Nat) (bs : List Byte) (n : Nat) (h : Grows s0 s) :
    Grows s0 (State.hkEmit s k l j gap bs n) := by
  unfold State.hkEmit
  try dsimp only
  repeat' first
    | with_reducible assumption
    | with_reducible apply hkBreak_grows
    | with_reducible apply hkPut_grows
    | with_reducible apply incF_grows
    | with_reducible apply memWrite_grows
    | with_reducible apply setJob_grows
    | fail_if_no_progress with_reducible apply Grows.mk'
    | with_reducible refine Grows.ite ?_ ?_
    | with_reducible refine Grows.iteP ?_ ?_
    | split
    | dsimp only

theorem hkCompress_grows {s0 : State} (s : State) (k : Nat) (l : Nat) (j : HankJob) (h : Grows s0 s) :
    Grows s0 (State.hkCompress s k l j) := by
  unfold State.hkCompress
  try dsimp only
  repeat' first
    | with_reducible assumption
    | with_reducible apply hkEmit_grows
    | with_reducible apply memRead_grows
    | with_reducible apply setJob_grows
    | fail_if_no_progress with_reducible apply Grows.mk'
    | with_reducible refine Grows.iteP ?_ ?_
    | split
    | dsimp only

theorem hkFetch_grows {s0 : State} (s : State) (k : Nat) (stop : List Byte → Bool) (fuel a n : Nat) (acc : List Byte)
    (h : Grows s0 s) : Grows s0 (s.hkFetch k stop fuel a n acc).1 := by
  induction fuel generalizing s a n acc with
  | zero => exact h
  | succ fuel ih =>
    unfold State.hkFetch
    dsimp only
    repeat' first
      | intro _
      | with_reducible assumption
      | with_reducible exact Grows.refl _
      | with_reducible apply ih
      | with_reducible apply memRead_grows
      | with_reducible refine Grows.forL _ ?_ ?_
      | with_reducible refine Grows.forN _ ?_ ?_
      | with_reducible refine Grows.foldl _ ?_ ?_
      | with_reducible refine Grows.foldlP _ ?_ ?_
      | fail_if_no_progress with_reducible apply Grows.mk'
      | with_reducible refine Grows.ite ?_ ?_
      | with_reducible refine Grows.iteP ?_ ?_
      | split
      | with_reducible refine Grows.fst (by assumption) ?_
      | dsimp only
      | omega

theorem hkDecode_grows {s0 : State} (s : State) (k : Nat) (l : Nat) (j : HankJob) (h : Grows s0 s) :
    Grows s0 (State.hkDecode s k l j) := by
  unfold State.hkDecode
  try dsimp only
  repeat' first
    | with_reducible assumption
    | with_reducible apply hkBreak_grows
    | with_reducible apply hkEmit_grows
    | with_reducible apply hkFetch_grows
    | fail_if_no_progress with_reducible apply Grows.mk'
    | with_reducible refine Grows.ite ?_ ?_
    | with_reducible refine Grows.iteP ?_ ?_
    | split
    | dsimp only

theorem hkEnd_grows {s0 : State} (s : State) (k : Nat) (l : Nat) (j : HankJob) (status : Nat) (h : Grows s0 s) :
    Grows s0 (State.hkEnd s k l j status) := by
  unfold State.hkEnd
  try dsimp only
  repeat' first
    | with_reducible assumption
    | with_reducible apply hkRelease_grows
    | with_reducible apply hkShow_grows
    | with_reducible apply incF_grows
    | with_reducible apply raise_grows
    | with_reducible apply ringStarve_grows
    | with_reducible apply ringWrite_grows
    | with_reducible apply satF_grows
    | with_reducible apply tickFree_grows
    | fail_if_no_progress with_reducible apply Grows.mk'
    | with_reducible refine Grows.ite ?_ ?_
    | split
    | dsimp only

theorem execHankJobTake_grows (codec : Fin 9) (s : State) : GrowsO s (execHankJobTake codec s) := by
  unfold execHankJobTake
  try dsimp only
  try refine GrowsO.next ?_
  repeat' first
    | refine GrowsO.next ?_
    | with_reducible assumption
    | with_reducible exact Grows.refl _
    | with_reducible apply hkEnd_grows
    | with_reducible apply hkMake_grows
    | with_reducible apply hkShow_grows
    | with_reducible apply readEntry_grows
    | with_reducible apply setJob_grows
    | with_reducible apply take_grows
    | with_reducible apply tickFree_grows
    | fail_if_no_progress with_reducible apply Grows.mk'
    | with_reducible refine Grows.ite ?_ ?_
    | with_reducible refine Grows.iteP ?_ ?_
    | split
    | dsimp only

theorem hkRetry_grows {s0 : State} (s : State) (h : Grows s0 s) : Grows s0 (State.hkRetry s) := by
  unfold State.hkRetry
  try dsimp only
  repeat' first
    | intro _
    | with_reducible assumption
    | with_reducible apply hkEnd_grows
    | with_reducible refine Grows.forL _ ?_ ?_
    | fail_if_no_progress with_reducible apply Grows.mk'
    | with_reducible refine Grows.ite ?_ ?_
    | with_reducible refine Grows.iteP ?_ ?_
    | split
    | dsimp only

theorem execHankBlockDone_grows (codec : Fin 9) (lane : Fin 32) (s : State) :
    GrowsO s (execHankBlockDone codec lane s) := by
  unfold execHankBlockDone
  try dsimp only
  try refine GrowsO.next ?_
  repeat' first
    | refine GrowsO.next ?_
    | with_reducible assumption
    | with_reducible exact Grows.refl _
    | with_reducible apply hkCompress_grows
    | with_reducible apply hkDecode_grows
    | with_reducible apply hkEnd_grows
    | fail_if_no_progress with_reducible apply Grows.mk'
    | with_reducible refine Grows.ite ?_ ?_
    | split
    | dsimp only

theorem hkStop_grows {s0 : State} (s : State) (k : Nat) (h : Grows s0 s) : Grows s0 (State.hkStop s k) := by
  unfold State.hkStop
  try dsimp only
  repeat' first
    | intro _
    | with_reducible assumption
    | with_reducible apply hkRelease_grows
    | with_reducible apply setF_grows
    | fail_if_no_progress with_reducible apply Grows.mk'
    | with_reducible refine Grows.ite ?_ ?_
    | with_reducible refine Grows.iteP ?_ ?_
    | split
    | dsimp only

theorem execHankDisable_grows (codec : Fin 9) (s : State) : GrowsO s (execHankDisable codec s) := by
  unfold execHankDisable
  try dsimp only
  try refine GrowsO.next ?_
  repeat' first
    | refine GrowsO.next ?_
    | with_reducible assumption
    | with_reducible exact Grows.refl _
    | with_reducible apply hkStop_grows
    | with_reducible refine Grows.ite ?_ ?_
    | split
    | dsimp only

/-! ## Patterns -/

theorem shadowOk_grows {s0 : State} (s : State) (set : Nat) (h : Grows s0 s) : Grows s0 (State.shadowOk s set).1 := by
  unfold State.shadowOk
  try dsimp only
  repeat' first
    | with_reducible assumption
    | with_reducible apply slotsOk_grows
    | with_reducible refine Grows.ite ?_ ?_
    | with_reducible refine Grows.iteP ?_ ?_
    | split
    | dsimp only

theorem swapReq_grows {s0 : State} (s : State) (set : Nat) (when' : Nat) (course : Nat) (h : Grows s0 s) :
    Grows s0 (State.swapReq s set when' course).1 := by
  unfold State.swapReq
  try dsimp only
  repeat' first
    | with_reducible assumption
    | with_reducible apply satF_grows
    | with_reducible apply setF_grows
    | with_reducible apply setI_grows
    | with_reducible apply shadowOk_grows
    | with_reducible apply swapNow_grows
    | with_reducible refine Grows.ite ?_ ?_
    | with_reducible refine Grows.iteP ?_ ?_
    | split
    | dsimp only

theorem revertReq_grows {s0 : State} (s : State) (set : Nat) (h : Grows s0 s) : Grows s0 (State.revertReq s set).1 := by
  unfold State.revertReq
  try dsimp only
  repeat' first
    | with_reducible assumption
    | with_reducible apply copyBank_grows
    | with_reducible refine Grows.ite ?_ ?_
    | with_reducible refine Grows.iteP ?_ ?_
    | split
    | dsimp only

theorem execCopyBackStart_grows (set : Fin 17) (s : State) : GrowsO s (execCopyBackStart set s) := by
  unfold execCopyBackStart
  try dsimp only
  try refine GrowsO.next ?_
  repeat' first
    | refine GrowsO.next ?_
    | intro _
    | with_reducible assumption
    | with_reducible exact Grows.refl _
    | fail_if_no_progress with_reducible apply Grows.mk'
    | with_reducible refine Grows.ite ?_ ?_
    | split
    | dsimp only

theorem copyEnd_grows {s0 : State} (s : State) (set : Nat) (h : Grows s0 s) : Grows s0 (State.copyEnd s set) := by
  unfold State.copyEnd
  try dsimp only
  repeat' first
    | intro _
    | with_reducible assumption
    | with_reducible apply copyBack_grows
    | with_reducible apply incF_grows
    | with_reducible apply raise_grows
    | with_reducible apply setF_grows
    | fail_if_no_progress with_reducible apply Grows.mk'
    | with_reducible refine Grows.ite ?_ ?_
    | split
    | dsimp only

theorem execCopyBackEnd_grows (set : Fin 17) (s : State) : GrowsO s (execCopyBackEnd set s) := by
  unfold execCopyBackEnd
  try dsimp only
  try refine GrowsO.next ?_
  repeat' first
    | refine GrowsO.next ?_
    | intro _
    | with_reducible assumption
    | with_reducible exact Grows.refl _
    | with_reducible apply copyEnd_grows
    | fail_if_no_progress with_reducible apply Grows.mk'
    | with_reducible refine Grows.ite ?_ ?_
    | split
    | dsimp only

/-! ## RingRows -/

theorem execRingReserve_grows (ring : BitVec 20) (n : Nat) (s : State) : GrowsO s (execRingReserve ring n s) := by
  unfold execRingReserve
  try dsimp only
  try refine GrowsO.next ?_
  repeat' first
    | refine GrowsO.next ?_
    | with_reducible assumption
    | with_reducible exact Grows.refl _
    | with_reducible apply evictItems_grows
    | with_reducible apply reserve_grows
    | with_reducible refine Grows.ite ?_ ?_
    | split
    | dsimp only

theorem execProdAdvance_grows (ring : BitVec 20) (s : State) : GrowsO s (execProdAdvance ring s) := by
  unfold execProdAdvance
  try dsimp only
  try refine GrowsO.next ?_
  repeat' first
    | refine GrowsO.next ?_
    | with_reducible assumption
    | with_reducible exact Grows.refl _
    | with_reducible apply advance_grows
    | fail_if_no_progress with_reducible apply Grows.mk'
    | dsimp only

theorem doorbell_grows {s0 : State} (s : State) (id : Nat) (prod : Nat) (h : Grows s0 s) :
    Grows s0 (State.doorbell s id prod).1 := by
  unfold State.doorbell
  try dsimp only
  repeat' first
    | with_reducible assumption
    | with_reducible apply ringUse_grows
    | with_reducible apply setRing_grows
    | with_reducible apply streamKick_grows
    | fail_if_no_progress with_reducible apply Grows.mk'
    | with_reducible refine Grows.ite ?_ ?_
    | with_reducible refine Grows.iteP ?_ ?_
    | split
    | dsimp only

theorem execRingDoorbell_grows (ring : BitVec 20) (prod : BitVec 32) (s : State) :
    GrowsO s (execRingDoorbell ring prod s) := by
  unfold execRingDoorbell
  try dsimp only
  try refine GrowsO.next ?_
  repeat' first
    | refine GrowsO.next ?_
    | with_reducible assumption
    | with_reducible exact Grows.refl _
    | with_reducible apply doorbell_grows
    | with_reducible refine Grows.iteP ?_ ?_
    | dsimp only

theorem execSubEviction_grows (sub : Fin 1024) (s : State) : GrowsO s (execSubEviction sub s) := by
  unfold execSubEviction
  try dsimp only
  try refine GrowsO.next ?_
  repeat' first
    | refine GrowsO.next ?_
    | with_reducible assumption
    | with_reducible exact Grows.refl _
    | with_reducible apply dropSub_grows
    | with_reducible apply logReg_grows
    | with_reducible apply raise_grows
    | with_reducible apply satF_grows
    | with_reducible refine Grows.ite ?_ ?_
    | split
    | dsimp only

theorem execContextLoad_grows (ring : BitVec 20) (parity : Bool) (s : State) :
    GrowsO s (execContextLoad ring parity s) := by
  unfold execContextLoad
  try dsimp only
  try refine GrowsO.next ?_
  repeat' first
    | refine GrowsO.next ?_
    | intro _
    | with_reducible assumption
    | with_reducible exact Grows.refl _
    | with_reducible apply loadCtx_grows
    | with_reducible apply satF_grows
    | with_reducible apply touchRing_grows
    | with_reducible refine Grows.forL _ ?_ ?_
    | with_reducible refine Grows.forN _ ?_ ?_
    | with_reducible refine Grows.foldl _ ?_ ?_
    | with_reducible refine Grows.foldlP _ ?_ ?_
    | fail_if_no_progress with_reducible apply Grows.mk'
    | with_reducible refine Grows.ite ?_ ?_
    | with_reducible refine Grows.iteP ?_ ?_
    | split
    | with_reducible refine Grows.fst (by assumption) ?_
    | dsimp only
    | omega

/-! ## Yarn -/

theorem taskMerge_grows {s0 : State} (s : State) (t : Nat) (h : Grows s0 s) : Grows s0 (State.taskMerge s t) := by
  unfold State.taskMerge
  try dsimp only
  repeat' first
    | with_reducible assumption
    | with_reducible apply satF_grows
    | fail_if_no_progress with_reducible apply Grows.mk'
    | with_reducible refine Grows.ite ?_ ?_
    | split
    | dsimp only

theorem notify_grows {s0 : State} (s : State) (n : Nat) (h : Grows s0 s) : Grows s0 (State.notify s n) := by
  unfold State.notify
  try dsimp only
  repeat' first
    | with_reducible assumption
    | with_reducible apply ringPush_grows
    | fail_if_no_progress with_reducible apply Grows.mk'
    | with_reducible refine Grows.ite ?_ ?_
    | with_reducible refine Grows.iteP ?_ ?_
    | split
    | dsimp only

theorem fwIrq_grows {s0 : State} (s : State) (n : Nat) (h : Grows s0 s) : Grows s0 (State.fwIrq s n) := by
  unfold State.fwIrq
  try dsimp only
  repeat' first
    | with_reducible assumption
    | with_reducible apply emit_grows
    | fail_if_no_progress with_reducible apply Grows.mk'
    | with_reducible refine Grows.ite ?_ ?_
    | split
    | dsimp only

theorem cmpMark_grows {s0 : State} (s : State) (u : Nat) (h : Grows s0 s) : Grows s0 (State.cmpMark s u) := by
  unfold State.cmpMark
  try dsimp only
  repeat' first
    | with_reducible assumption
    | with_reducible apply cmpInsert_grows
    | with_reducible refine Grows.ite ?_ ?_
    | split
    | dsimp only

theorem segHoldTask_grows {s0 : State} (s : State) (g : Nat) (h : Grows s0 s) : Grows s0 (State.segHoldTask s g) := by
  unfold State.segHoldTask
  try dsimp only
  repeat' first
    | with_reducible assumption
    | with_reducible apply submit_grows
    | fail_if_no_progress with_reducible apply Grows.mk'
    | with_reducible refine Grows.ite ?_ ?_
    | split
    | dsimp only

theorem taskAct_grows {s0 : State} (s : State) (t : Nat) (h : Grows s0 s) : Grows s0 (State.taskAct s t) := by
  unfold State.taskAct
  try dsimp only
  repeat' first
    | with_reducible assumption
    | with_reducible apply auxSyncDrive_grows
    | with_reducible apply buzStart_grows
    | with_reducible apply cmpMark_grows
    | with_reducible apply freezeTrigger_grows
    | with_reducible apply fwIrq_grows
    | with_reducible apply markHold_grows
    | with_reducible apply notify_grows
    | with_reducible apply pnlAck_grows
    | with_reducible apply segHoldTask_grows
    | with_reducible apply wake_grows
    | with_reducible refine Grows.ite ?_ ?_
    | split
    | dsimp only

theorem taskFire_grows {s0 : State} (s : State) (t : Nat) (h : Grows s0 s) : Grows s0 (State.taskFire s t) := by
  unfold State.taskFire
  try dsimp only
  repeat' first
    | with_reducible assumption
    | with_reducible apply satF_grows
    | with_reducible apply taskAct_grows
    | with_reducible apply taskMerge_grows
    | fail_if_no_progress with_reducible apply Grows.mk'
    | with_reducible refine Grows.ite ?_ ?_
    | split
    | dsimp only

theorem yarnFire_grows {s0 : State} (s : State) (c : Nat) (h : Grows s0 s) : Grows s0 (State.yarnFire s c) := by
  unfold State.yarnFire
  try dsimp only
  repeat' first
    | intro _
    | with_reducible assumption
    | with_reducible apply taskFire_grows
    | with_reducible refine Grows.forL _ ?_ ?_
    | fail_if_no_progress with_reducible apply Grows.mk'
    | dsimp only

theorem execProducerFire_grows (n : Fin 256) (s : State) : GrowsO s (execProducerFire n s) := by
  unfold execProducerFire
  try dsimp only
  try refine GrowsO.next ?_
  repeat' first
    | refine GrowsO.next ?_
    | intro _
    | with_reducible assumption
    | with_reducible exact Grows.refl _
    | with_reducible apply yarnFire_grows
    | with_reducible refine Grows.forL _ ?_ ?_
    | fail_if_no_progress with_reducible apply Grows.mk'
    | with_reducible refine Grows.ite ?_ ?_
    | split
    | dsimp only

theorem execYarnFire_grows (c : Fin 64) (s : State) : GrowsO s (execYarnFire c s) := by
  unfold execYarnFire
  try dsimp only
  try refine GrowsO.next ?_
  repeat' first
    | refine GrowsO.next ?_
    | with_reducible assumption
    | with_reducible exact Grows.refl _
    | with_reducible apply yarnFire_grows
    | dsimp only

theorem stormOne_grows {s0 : State} (s : State) (c : Nat) (h : Grows s0 s) : Grows s0 (State.stormOne s c) := by
  unfold State.stormOne
  try dsimp only
  repeat' first
    | with_reducible assumption
    | with_reducible apply logReg_grows
    | with_reducible apply raise_grows
    | with_reducible apply setF_grows
    | with_reducible refine Grows.ite ?_ ?_
    | split
    | dsimp only

theorem execStormWindowEnd_grows (s : State) : GrowsO s (execStormWindowEnd s) := by
  unfold execStormWindowEnd
  try dsimp only
  try refine GrowsO.next ?_
  repeat' first
    | refine GrowsO.next ?_
    | intro _
    | with_reducible assumption
    | with_reducible exact Grows.refl _
    | with_reducible apply stormOne_grows
    | with_reducible refine Grows.forN _ ?_ ?_
    | fail_if_no_progress with_reducible apply Grows.mk'
    | dsimp only

/-! ## DramRows -/

theorem execRefreshSlot_grows (d : Fin 16) (s : State) : GrowsO s (execRefreshSlot d s) := by
  unfold execRefreshSlot
  try dsimp only
  try refine GrowsO.next ?_
  repeat' first
    | refine GrowsO.next ?_
    | with_reducible assumption
    | with_reducible exact Grows.refl _
    | with_reducible apply incF_grows
    | with_reducible refine Grows.ite ?_ ?_
    | split
    | dsimp only

theorem execMemTempRead_grows (d : Fin 16) (temp : BitVec 16) (s : State) : GrowsO s (execMemTempRead d temp s) := by
  unfold execMemTempRead
  try dsimp only
  try refine GrowsO.next ?_
  repeat' first
    | refine GrowsO.next ?_
    | with_reducible assumption
    | with_reducible exact Grows.refl _
    | with_reducible apply setF_grows
    | with_reducible refine Grows.ite ?_ ?_
    | split
    | dsimp only

theorem execMemRequestServe_grows (d : Fin 16) (crc : Nat) (s : State) : GrowsO s (execMemRequestServe d crc s) := by
  unfold execMemRequestServe
  try dsimp only
  try refine GrowsO.next ?_
  repeat' first
    | refine GrowsO.next ?_
    | intro _
    | with_reducible assumption
    | with_reducible exact Grows.refl _
    | with_reducible apply readBlock_grows
    | with_reducible apply setBad_grows
    | with_reducible apply setDr_grows
    | with_reducible apply ueEvent_grows
    | with_reducible apply xfer_grows
    | with_reducible refine Grows.forL _ ?_ ?_
    | with_reducible refine Grows.forN _ ?_ ?_
    | with_reducible refine Grows.foldl _ ?_ ?_
    | with_reducible refine Grows.foldlP _ ?_ ?_
    | fail_if_no_progress with_reducible apply Grows.mk'
    | with_reducible refine Grows.ite ?_ ?_
    | with_reducible refine Grows.iteP ?_ ?_
    | split
    | with_reducible refine Grows.fst (by assumption) ?_
    | dsimp only
    | omega

theorem symbolsFail_grows {s0 : State} (s : State) (d : Nat) (h : Grows s0 s) : Grows s0 (State.symbolsFail s d) := by
  unfold State.symbolsFail
  try dsimp only
  repeat' first
    | intro _
    | with_reducible assumption
    | with_reducible apply setBad_grows
    | with_reducible apply tickFree_grows
    | with_reducible refine Grows.ite ?_ ?_
    | with_reducible refine Grows.iteP ?_ ?_
    | split
    | dsimp only

theorem execScrubPass_grows (d : Fin 16) (s : State) : GrowsO s (execScrubPass d s) := by
  unfold execScrubPass
  try dsimp only
  try refine GrowsO.next ?_
  repeat' first
    | refine GrowsO.next ?_
    | intro _
    | with_reducible assumption
    | with_reducible exact Grows.refl _
    | with_reducible apply readBlock_grows
    | with_reducible apply symbolsFail_grows
    | with_reducible refine Grows.forL _ ?_ ?_
    | with_reducible refine Grows.ite ?_ ?_
    | with_reducible refine Grows.iteP ?_ ?_
    | split
    | dsimp only

theorem recut_grows {s0 : State} (s : State) (g : Nat) (p : HeldPatch) (h : Grows s0 s) :
    Grows s0 (State.recut s g p).1 := by
  unfold State.recut
  try dsimp only
  repeat' first
    | intro _
    | with_reducible assumption
    | with_reducible apply lbReads_grows
    | with_reducible refine Grows.iteP ?_ ?_
    | dsimp only

theorem patchFails_grows {s0 : State} (s : State) (g : Nat) (id : Nat) (p : HeldPatch) (h : Grows s0 s) :
    Grows s0 (State.patchFails s g id p) := by
  unfold State.patchFails
  try dsimp only
  repeat' first
    | intro _
    | with_reducible assumption
    | with_reducible apply log_grows
    | with_reducible apply recut_grows
    | with_reducible apply ringWrite_grows
    | with_reducible refine Grows.ite ?_ ?_
    | with_reducible refine Grows.iteP ?_ ?_
    | split
    | dsimp only

theorem patchesFail_grows {s0 : State} (s : State) (d : Nat) (h : Grows s0 s) : Grows s0 (State.patchesFail s d) := by
  unfold State.patchesFail
  try dsimp only
  repeat' first
    | intro _
    | with_reducible assumption
    | with_reducible exact Grows.refl _
    | with_reducible apply patchFails_grows
    | with_reducible apply setDr_grows
    | with_reducible refine Grows.forL _ ?_ ?_
    | with_reducible refine Grows.forN _ ?_ ?_
    | with_reducible refine Grows.foldl _ ?_ ?_
    | with_reducible refine Grows.foldlP _ ?_ ?_
    | fail_if_no_progress with_reducible apply Grows.mk'
    | with_reducible refine Grows.ite ?_ ?_
    | with_reducible refine Grows.iteP ?_ ?_
    | split
    | with_reducible refine Grows.fst (by assumption) ?_
    | dsimp only
    | omega

theorem memFail_grows {s0 : State} (s : State) (d : Nat) (h : Grows s0 s) : Grows s0 (State.memFail s d) := by
  unfold State.memFail
  try dsimp only
  repeat' first
    | intro _
    | with_reducible assumption
    | with_reducible exact Grows.refl _
    | with_reducible apply memDown_grows
    | with_reducible apply patchesFail_grows
    | with_reducible refine Grows.forL _ ?_ ?_
    | with_reducible refine Grows.forN _ ?_ ?_
    | with_reducible refine Grows.foldl _ ?_ ?_
    | with_reducible refine Grows.foldlP _ ?_ ?_
    | fail_if_no_progress with_reducible apply Grows.mk'
    | with_reducible refine Grows.ite ?_ ?_
    | with_reducible refine Grows.iteP ?_ ?_
    | split
    | with_reducible refine Grows.fst (by assumption) ?_
    | dsimp only
    | omega

theorem execMemDeviceFail_grows (d : Fin 16) (s : State) : GrowsO s (execMemDeviceFail d s) := by
  unfold execMemDeviceFail
  try dsimp only
  try refine GrowsO.next ?_
  repeat' first
    | refine GrowsO.next ?_
    | with_reducible assumption
    | with_reducible exact Grows.refl _
    | with_reducible apply memFail_grows
    | with_reducible apply patchesFail_grows
    | with_reducible refine Grows.ite ?_ ?_
    | split
    | dsimp only

theorem execRetrainStep_grows (d : Fin 16) (ch : Fin 4) (ok : Bool) (s : State) :
    GrowsO s (execRetrainStep d ch ok s) := by
  unfold execRetrainStep
  try dsimp only
  try refine GrowsO.next ?_
  repeat' first
    | refine GrowsO.next ?_
    | with_reducible assumption
    | with_reducible exact Grows.refl _
    | with_reducible apply incF_grows
    | with_reducible apply memFail_grows
    | fail_if_no_progress with_reducible apply Grows.mk'
    | with_reducible refine Grows.ite ?_ ?_
    | with_reducible refine Grows.iteP ?_ ?_
    | split
    | dsimp only

theorem execRetrainWait_grows (d : Fin 16) (s : State) : GrowsO s (execRetrainWait d s) := by
  unfold execRetrainWait
  try dsimp only
  try refine GrowsO.next ?_
  repeat' first
    | refine GrowsO.next ?_
    | with_reducible assumption
    | with_reducible exact Grows.refl _
    | with_reducible apply setF_grows
    | with_reducible refine Grows.ite ?_ ?_
    | split
    | dsimp only

end Sys2Proof.Machine
end

