-- ==== Sys2Proof/Laws/GrowsRegs.lean ====
section
/-!
SUPPORT. What every operation keeps (Laws/Grows.lean), shown of register writes, the image and cast-on: one lemma per
operation of the model, named after it.
-/

set_option linter.unusedTactic false
set_option linter.unreachableTactic false
set_option maxRecDepth 4000

namespace Sys2Proof.Machine

/-! ## RegWrite -/

theorem storeItem_grows {s0 : State} (s : State) (c : WriteCtx) (i : WItem) (h : Grows s0 s) :
    Grows s0 (s.storeItem c i) := by
  have hs : Grows s0 { s with shd := Tab.put i.key i.val s.shd } :=
    h.updC rfl rfl rfl rfl rfl id id id id Tab.rising_put
  unfold State.storeItem
  split
  · dsimp only
    split
    · exact hs.updC rfl rfl rfl rfl rfl id id id Tab.rising_put id
    · exact hs
  · split
    · exact h
    · dsimp only
      refine putKey_grows _ _ _ ?_
      split
      · exact keepOld_grows _ _ _ h
      · exact h

theorem fuseBlow_grows {s0 : State} (s : State) (h : Grows s0 s) : Grows s0 (State.fuseBlow s) := by
  unfold State.fuseBlow
  try dsimp only
  repeat' first
    | with_reducible assumption
    | with_reducible apply setF_grows
    | fail_if_no_progress with_reducible apply Grows.mk'
    | dsimp only

theorem rearm_grows {s0 : State} (s : State) (h : Grows s0 s) : Grows s0 (State.rearm s) := by
  unfold State.rearm
  try dsimp only
  repeat' first
    | intro _
    | with_reducible assumption
    | with_reducible apply setF_grows
    | with_reducible apply take_grows
    | with_reducible refine Grows.forL _ ?_ ?_
    | fail_if_no_progress with_reducible apply Grows.mk'
    | dsimp only

theorem armReplay_grows {s0 : State} (s : State) (h : Grows s0 s) : Grows s0 (State.armReplay s) := by
  unfold State.armReplay
  try dsimp only
  repeat' first
    | intro _
    | with_reducible assumption
    | with_reducible apply bind_grows
    | with_reducible apply rearm_grows
    | with_reducible apply setF_grows
    | with_reducible apply subBlock_grows
    | with_reducible refine Grows.forL _ ?_ ?_
    | dsimp only

theorem disarmReplay_grows {s0 : State} (s : State) (h : Grows s0 s) : Grows s0 (State.disarmReplay s) := by
  unfold State.disarmReplay
  try dsimp only
  repeat' first
    | intro _
    | with_reducible assumption
    | with_reducible apply setF_grows
    | with_reducible apply unbind_grows
    | with_reducible apply unsubBlock_grows
    | with_reducible refine Grows.forL _ ?_ ?_
    | fail_if_no_progress with_reducible apply Grows.mk'
    | with_reducible refine Grows.ite ?_ ?_
    | split
    | dsimp only

theorem bindEvent_grows {s0 : State} (s : State) (b : Nat) (on : Bool) (ring : Nat) (h : Grows s0 s) :
    Grows s0 (State.bindEvent s b on ring) := by
  unfold State.bindEvent
  try dsimp only
  repeat' first
    | with_reducible assumption
    | with_reducible apply bind_grows
    | with_reducible apply unbind_grows
    | with_reducible refine Grows.ite ?_ ?_
    | split
    | dsimp only

theorem enable_grows {s0 : State} (s : State) (was on : Bool) (up down : State → State)
    (hu : ∀ t, Grows s0 t → Grows s0 (up t)) (hd : ∀ t, Grows s0 t → Grows s0 (down t)) (h : Grows s0 s) :
    Grows s0 (s.enable was on up down) := by
  unfold State.enable
  split
  · exact hu _ h
  · split
    · exact hd _ h
    · exact h

theorem actNet_grows {s0 : State} (s : State) (i : WItem) (h : Grows s0 s) : Grows s0 (State.actNet s i) := by
  unfold State.actNet
  try dsimp only
  repeat' first
    | intro _
    | with_reducible assumption
    | with_reducible apply enable_grows
    | with_reducible apply linkFall_grows
    | with_reducible apply lqStart_grows
    | with_reducible apply lqStop_grows
    | with_reducible apply ptpEnable_grows
    | with_reducible apply ptpSelect_grows
    | with_reducible apply setF_grows
    | with_reducible apply timeAdj_grows
    | with_reducible apply timeIncr_grows
    | with_reducible apply timeStep_grows
    | fail_if_no_progress with_reducible apply Grows.mk'
    | with_reducible refine Grows.ite ?_ ?_
    | split
    | dsimp only

theorem actSide_grows {s0 : State} (s : State) (i : WItem) (last : Bool) (h : Grows s0 s) :
    Grows s0 (State.actSide s i last) := by
  unfold State.actSide
  try dsimp only
  repeat' first
    | intro _
    | with_reducible assumption
    | with_reducible apply auxStart_grows
    | with_reducible apply auxStop_grows
    | with_reducible apply auxSyncDrive_grows
    | with_reducible apply bindEvent_grows
    | with_reducible apply buzStart_grows
    | with_reducible apply buzStop_grows
    | with_reducible apply dpDown_grows
    | with_reducible apply dpTrain_grows
    | with_reducible apply enable_grows
    | with_reducible apply i2cStart_grows
    | with_reducible apply ledDrive_grows
    | with_reducible apply mdivWrite_grows
    | with_reducible apply setF_grows
    | with_reducible apply viewStart_grows
    | with_reducible apply viewStop_grows
    | with_reducible apply yarnFire_grows
    | fail_if_no_progress with_reducible apply Grows.mk'
    | with_reducible refine Grows.ite ?_ ?_
    | split
    | dsimp only

theorem actItem_grows {s0 : State} (s : State) (i : WItem) (last : Bool) (h : Grows s0 s) :
    Grows s0 (State.actItem s i last) := by
  unfold State.actItem
  try dsimp only
  repeat' first
    | intro _
    | with_reducible assumption
    | with_reducible exact Grows.refl _
    | with_reducible apply actNet_grows
    | with_reducible apply actSide_grows
    | with_reducible apply applyL_grows
    | with_reducible apply armReplay_grows
    | with_reducible apply authenticate_grows
    | with_reducible apply cmpClear_grows
    | with_reducible apply cmpInsert_grows
    | with_reducible apply cmpPin_grows
    | with_reducible apply cmpStart_grows
    | with_reducible apply cmpStop_grows
    | with_reducible apply disarmReplay_grows
    | with_reducible apply dmaSums_grows
    | with_reducible apply doorbell_grows
    | with_reducible apply enable_grows
    | with_reducible apply fuseBlow_grows
    | with_reducible apply hkStart_grows
    | with_reducible apply hkStop_grows
    | with_reducible apply laneBind_grows
    | with_reducible apply msrcUpdate_grows
    | with_reducible apply posStart_grows
    | with_reducible apply posStop_grows
    | with_reducible apply rgnRestore_grows
    | with_reducible apply teRestore_grows
    | with_reducible apply thStart_grows
    | with_reducible apply thStop_grows
    | with_reducible apply xspiGo_grows
    | with_reducible refine Grows.forL _ ?_ ?_
    | with_reducible refine Grows.forN _ ?_ ?_
    | with_reducible refine Grows.foldl _ ?_ ?_
    | with_reducible refine Grows.foldlP _ ?_ ?_
    | fail_if_no_progress with_reducible apply Grows.mk'
    | with_reducible refine Grows.ite ?_ ?_
    | with_reducible refine Grows.iteP ?_ ?_
    | split
    | with_reducible refine Grows.fst (by assumption) ?_
    | dsimp only
    | omega

theorem actAll_grows {s0 : State} (s : State) (l : List WItem) (h : Grows s0 s) : Grows s0 (s.actAll l) := by
  induction l generalizing s with
  | nil => exact h
  | cons x l ih => exact ih _ (actItem_grows _ _ _ h)

theorem keepRow_grows {s0 : State} (s : State) (i : WItem) (h : Grows s0 s) : Grows s0 (State.keepRow s i) := by
  unfold State.keepRow
  try dsimp only
  repeat' first
    | with_reducible assumption
    | with_reducible apply viewKeep_grows
    | fail_if_no_progress with_reducible apply Grows.mk'
    | with_reducible refine Grows.ite ?_ ?_
    | split
    | dsimp only

theorem writeNow_grows {s0 : State} (s : State) (c : WriteCtx) (l : List WItem) (h : Grows s0 s) :
    Grows s0 (State.writeNow s c l) := by
  unfold State.writeNow
  try dsimp only
  repeat' first
    | intro _
    | with_reducible assumption
    | with_reducible apply actAll_grows
    | with_reducible apply keepRow_grows
    | with_reducible apply storeItem_grows
    | with_reducible refine Grows.forL _ ?_ ?_
    | dsimp only

theorem submitWrite_grows {s0 : State} (s : State) (groups : List Nat) (later : List (Nat × FieldWrite)) (what : List FieldWrite → Payload) (h : Grows s0 s) :
    Grows s0 (State.submitWrite s groups later what) := by
  unfold State.submitWrite
  try dsimp only
  repeat' first
    | intro _
    | with_reducible assumption
    | with_reducible apply submitDev_grows
    | with_reducible apply submit_grows
    | with_reducible refine Grows.forL _ ?_ ?_
    | fail_if_no_progress with_reducible apply Grows.mk'
    | with_reducible refine Grows.ite ?_ ?_
    | with_reducible refine Grows.iteP ?_ ?_
    | split
    | dsimp only

theorem carryOut_grows {s0 : State} (s : State) (c : WriteCtx) (modify : Bool) (addr : Nat) (words : List (Nat × Nat)) (l : List WItem) (h : Grows s0 s) :
    Grows s0 (State.carryOut s c modify addr words l).1 := by
  unfold State.carryOut
  try dsimp only
  repeat' first
    | intro _
    | with_reducible assumption
    | with_reducible exact Grows.refl _
    | with_reducible apply accept_grows
    | with_reducible apply submitWrite_grows
    | with_reducible apply writeNow_grows
    | with_reducible refine Grows.forL _ ?_ ?_
    | with_reducible refine Grows.forN _ ?_ ?_
    | with_reducible refine Grows.foldl _ ?_ ?_
    | with_reducible refine Grows.foldlP _ ?_ ?_
    | fail_if_no_progress with_reducible apply Grows.mk'
    | with_reducible refine Grows.ite ?_ ?_
    | with_reducible refine Grows.iteP ?_ ?_
    | split
    | with_reducible refine Grows.fst (by assumption) ?_
    | dsimp only
    | omega

theorem writeReq_grows {s0 : State} (s : State) (c : WriteCtx) (modify : Bool) (addr : Nat) (words : List (Nat × Nat)) (h : Grows s0 s) :
    Grows s0 (State.writeReq s c modify addr words).1 := by
  unfold State.writeReq
  try dsimp only
  repeat' first
    | with_reducible assumption
    | with_reducible apply carryOut_grows
    | fail_if_no_progress with_reducible apply Grows.mk'
    | with_reducible refine Grows.iteP ?_ ?_
    | split
    | dsimp only

theorem writeAt_grows {s0 : State} (s : State) (c : WriteCtx) (modify : Bool) (addr : Nat) (words : List (Nat × Nat)) (g : Nat) (course : Nat) (h : Grows s0 s) :
    Grows s0 (State.writeAt s c modify addr words g course).1 := by
  unfold State.writeAt
  try dsimp only
  repeat' first
    | intro _
    | with_reducible assumption
    | with_reducible exact Grows.refl _
    | with_reducible apply accept_grows
    | with_reducible apply carryOut_grows
    | with_reducible apply setF_grows
    | with_reducible refine Grows.forL _ ?_ ?_
    | with_reducible refine Grows.forN _ ?_ ?_
    | with_reducible refine Grows.foldl _ ?_ ?_
    | with_reducible refine Grows.foldlP _ ?_ ?_
    | fail_if_no_progress with_reducible apply Grows.mk'
    | with_reducible refine Grows.ite ?_ ?_
    | with_reducible refine Grows.iteP ?_ ?_
    | split
    | with_reducible refine Grows.fst (by assumption) ?_
    | dsimp only
    | omega

theorem refresh_grows {s0 : State} (s : State) (h : Grows s0 s) : Grows s0 (State.refresh s) := by
  unfold State.refresh
  try dsimp only
  repeat' first
    | with_reducible assumption
    | with_reducible apply dmaSums_grows
    | with_reducible apply setF_grows
    | fail_if_no_progress with_reducible apply Grows.mk'
    | with_reducible refine Grows.ite ?_ ?_
    | split
    | dsimp only

theorem dfeNow_grows {s0 : State} (s : State) (a : Nat) (h : Grows s0 s) : Grows s0 (State.dfeNow s a) := by
  unfold State.dfeNow
  try dsimp only
  repeat' first
    | with_reducible assumption
    | with_reducible apply dfeAdapts_grows
    | fail_if_no_progress with_reducible apply Grows.mk'
    | with_reducible refine Grows.ite ?_ ?_
    | split
    | dsimp only

theorem countFree_grows {s0 : State} (s : State) (b : Nat) (f : Fld) (h : Grows s0 s) :
    Grows s0 (State.countFree s b f) := by
  unfold State.countFree
  try dsimp only
  repeat' first
    | intro _
    | with_reducible assumption
    | with_reducible apply satF_grows
    | with_reducible apply tickFree_grows
    | with_reducible refine Grows.iteP ?_ ?_
    | dsimp only

theorem overruns_grows {s0 : State} (s : State) (b : Nat) (flag : Fld) (cnt : Fld) (h : Grows s0 s) :
    Grows s0 (State.overruns s b flag cnt) := by
  unfold State.overruns
  try dsimp only
  repeat' first
    | with_reducible assumption
    | with_reducible apply countFree_grows
    | with_reducible apply mark_grows
    | with_reducible refine Grows.ite ?_ ?_
    | split
    | dsimp only

theorem countNow_grows {s0 : State} (s : State) (a : Nat) (h : Grows s0 s) : Grows s0 (State.countNow s a) := by
  unfold State.countNow
  try dsimp only
  repeat' first
    | intro _
    | with_reducible assumption
    | with_reducible apply countFree_grows
    | with_reducible apply overruns_grows
    | fail_if_no_progress with_reducible apply Grows.mk'
    | with_reducible refine Grows.ite ?_ ?_
    | with_reducible refine Grows.iteP ?_ ?_
    | split
    | dsimp only

theorem readNow_grows {s0 : State} (s : State) (as' : List Nat) (h : Grows s0 s) : Grows s0 (State.readNow s as') := by
  unfold State.readNow
  try dsimp only
  repeat' first
    | intro _
    | with_reducible assumption
    | with_reducible apply countNow_grows
    | with_reducible apply dfeNow_grows
    | with_reducible apply refresh_grows
    | with_reducible refine Grows.forL _ ?_ ?_
    | dsimp only

theorem readClear_grows {s0 : State} (s : State) (a : Nat) (h : Grows s0 s) : Grows s0 (s.readClear a) := by
  unfold State.readClear
  split
  · exact Grows.forL _ (fun _ _ ht => ht.updC rfl rfl rfl rfl rfl id id Tab.rising_put id id) (Grows.ite (Grows.mk' h) h)
  · exact h

theorem readReq_grows {s0 : State} (s : State) (shadow : Bool) (addr : Nat) (n : Nat) (h : Grows s0 s) :
    Grows s0 (State.readReq s shadow addr n).1 := by
  unfold State.readReq
  try dsimp only
  repeat' first
    | intro _
    | with_reducible assumption
    | with_reducible apply readClear_grows
    | with_reducible apply readNow_grows
    | with_reducible refine Grows.forL _ ?_ ?_
    | fail_if_no_progress with_reducible apply Grows.mk'
    | with_reducible refine Grows.iteP ?_ ?_
    | split
    | dsimp only

/-! ## Image -/

theorem setting_grows {s0 : State} (s : State) (e : Nat × Nat) (h : Grows s0 s) : Grows s0 (s.setting e) := by
  unfold State.setting
  split
  · exact h
  · exact Grows.forL _ (fun _ _ ht => ht.updC rfl rfl rfl rfl rfl id id Tab.rising_put id id) h

/-! ## Boot -/

/-- Setting a bit clears none. -/
theorem bit_setBit_mono (x k n : Nat) (h : bit x n = true) : bit (setBit x k) n = true := by
  unfold setBit
  split
  · exact h
  · rename_i hk
    simp only [bit, beq_iff_eq] at h hk ⊢
    rcases Nat.lt_trichotomy n k with hn | hn | hn
    · obtain ⟨m, rfl⟩ : ∃ m, k = n + (m + 1) := ⟨k - n - 1, by omega⟩
      rw [Nat.pow_add, Nat.add_mul_div_left _ _ (Nat.two_pow_pos n), Nat.pow_succ]
      omega
    · exact absurd (hn ▸ h) hk
    · obtain ⟨m, rfl⟩ : ∃ m, n = k + (1 + m) := ⟨n - k - 1, by omega⟩
      rw [Nat.pow_add, Nat.pow_add, ← Nat.div_div_eq_div_mul, ← Nat.div_div_eq_div_mul] at h ⊢
      have e : (x + 2 ^ k) / 2 ^ k = x / 2 ^ k + 1 := Nat.add_div_right _ (Nat.two_pow_pos k)
      have e2 : (x / 2 ^ k + 1) / 2 ^ 1 = x / 2 ^ k / 2 ^ 1 := by omega
      rw [e, e2]
      exact h

theorem regionOn_grows {s0 : State} (s : State) (r : Nat) (h : Grows s0 s) : Grows s0 (State.regionOn s r) := by
  unfold State.regionOn
  try dsimp only
  repeat' first
    | intro _
    | with_reducible assumption
    | with_reducible apply domainOn_grows
    | with_reducible apply mirrorShow_grows
    | with_reducible apply setF_grows
    | with_reducible refine Grows.forL _ ?_ ?_
    | with_reducible refine Grows.ite ?_ ?_
    | split
    | dsimp only

theorem linksShow_grows {s0 : State} (s : State) (h : Grows s0 s) : Grows s0 (State.linksShow s) := by
  unfold State.linksShow
  try dsimp only
  repeat' first
    | intro _
    | with_reducible assumption
    | with_reducible apply setF_grows
    | with_reducible refine Grows.forN _ ?_ ?_
    | with_reducible refine Grows.ite ?_ ?_
    | split
    | dsimp only

theorem chanDead_grows {s0 : State} (s : State) (ch : Nat) (h : Grows s0 s) : Grows s0 (State.chanDead s ch) := by
  unfold State.chanDead
  try dsimp only
  repeat' first
    | with_reducible assumption
    | with_reducible apply setCh_grows
    | with_reducible apply setF_grows
    | fail_if_no_progress with_reducible apply Grows.mk'
    | with_reducible refine Grows.ite ?_ ?_
    | split
    | dsimp only

theorem failShow_grows {s0 : State} (s : State) (e : Nat × Nat) (h : Grows s0 s) : Grows s0 (State.failShow s e) := by
  unfold State.failShow
  try dsimp only
  repeat' first
    | with_reducible assumption
    | with_reducible apply chanDead_grows
    | with_reducible apply logAs_grows
    | with_reducible apply setF_grows
    | fail_if_no_progress with_reducible apply Grows.mk'
    | with_reducible refine Grows.ite ?_ ?_
    | with_reducible refine Grows.iteP ?_ ?_
    | split
    | dsimp only

theorem loomUp_grows {s0 : State} (s : State) (h : Grows s0 s) : Grows s0 (State.loomUp s) := by
  unfold State.loomUp
  try dsimp only
  repeat' first
    | intro _
    | with_reducible assumption
    | with_reducible apply failShow_grows
    | with_reducible apply linksShow_grows
    | with_reducible apply regionOn_grows
    | with_reducible refine Grows.forL _ ?_ ?_
    | fail_if_no_progress with_reducible apply Grows.mk'
    | dsimp only

theorem clocksShow_grows {s0 : State} (s : State) (h : Grows s0 s) : Grows s0 (State.clocksShow s) := by
  unfold State.clocksShow
  try dsimp only
  repeat' first
    | with_reducible assumption
    | with_reducible apply setF_grows
    | with_reducible refine Grows.ite ?_ ?_
    | split
    | dsimp only

theorem bootShow_grows {s0 : State} (s : State) (im : Image) (h : Grows s0 s) : Grows s0 (State.bootShow s im) := by
  unfold State.bootShow
  try dsimp only
  repeat' first
    | with_reducible assumption
    | with_reducible apply setF_grows
    | with_reducible refine Grows.ite ?_ ?_
    | split
    | dsimp only

theorem hubDoms_grows {s0 : State} (s : State) (h : Grows s0 s) : Grows s0 (State.hubDoms s) := by
  unfold State.hubDoms
  try dsimp only
  repeat' first
    | intro _
    | with_reducible assumption
    | with_reducible apply setDom_grows
    | with_reducible refine Grows.forL _ ?_ ?_
    | dsimp only

theorem release_grows {s0 : State} (s : State) (im : Image) (h : Grows s0 s) : Grows s0 (s.release im) := by
  unfold State.release
  dsimp only
  refine Grows.forL _ (fun _ _ ht => setting_grows _ _ ht) (bootShow_grows _ _ (clocksShow_grows _ ?_))
  refine setF_grows _ _ _ (setF_grows _ _ _ (Grows.forL _ (fun _ _ ht => setF_grows _ _ _ (setF_grows _ _ _ ht)) ?_))
  refine hubDoms_grows _ (setF_grows _ _ _ (setF_grows _ _ _ (setF_grows _ _ _ ?_)))
  refine h.updC rfl rfl rfl rfl rfl (fun _ => rfl) id ?_ ?_ ?_ <;> exact Tab.rising_filter _

theorem loadAll_grows {s0 : State} (cs : Nat) (l : List Section) (s t : State) (h : Grows s0 s)
    (e : State.loadAll s cs l = .ok t) : Grows s0 t := by
  induction l generalizing s with
  | nil => simp only [State.loadAll, Except.ok.injEq] at e; exact e ▸ h
  | cons x l ih =>
    simp only [State.loadAll] at e
    split at e
    · cases e
    · split at e
      · cases e
      · exact ih _ (memWrite_grows _ _ _ _ _ h) e

theorem patterns_grows {s0 : State} (r : Bool) (l : List (Nat × Nat)) (s t : State) (h : Grows s0 s)
    (e : State.patterns r l s = some t) : Grows s0 t := by
  induction l generalizing s with
  | nil => simp only [State.patterns, Option.some.injEq] at e; exact e ▸ h
  | cons x l ih =>
    obtain ⟨a, v⟩ := x
    unfold State.patterns at e
    split at e
    · split at e
      · exact ih _ h e
      · split at e
        · exact ih _ (writeNow_grows _ _ _ h) e
        · cases e
    · split at e
      · cases e
      · split at e
        · exact ih _ (writeNow_grows _ _ _ h) e
        · cases e

theorem loomLoad_grows {s0 : State} (l : List Section) (r : Bool) (s t : State) (h : Grows s0 s)
    (e : s.loomLoad l r = .ok t) : Grows s0 t := by
  simp only [State.loomLoad] at e
  split at e
  · cases e
  · rename_i ha
    split at e
    · cases e
    · split at e
      · cases e
      · rename_i hp
        injection e with e
        subst e
        exact patterns_grows _ _ _ _ (loadAll_grows _ _ _ _ h ha) hp

theorem attempt_grows {s0 : State} (s t : State) (h : Grows s0 s) (e : s.attempt = .ok t) : Grows s0 t := by
  simp only [State.attempt] at e
  split at e
  · cases e
  · exact loomLoad_grows _ _ _ _ (loomUp_grows _ (release_grows _ _ h)) e

theorem firstPort_grows {s0 : State} (s : State) (h : Grows s0 s) : Grows s0 (State.firstPort s) := by
  unfold State.firstPort
  try dsimp only
  repeat' first
    | with_reducible assumption
    | with_reducible apply setF_grows
    | with_reducible refine Grows.ite ?_ ?_
    | split
    | dsimp only

theorem readyNow_grows {s0 : State} (s : State) (h : Grows s0 s) : Grows s0 (State.readyNow s) := by
  unfold State.readyNow
  try dsimp only
  repeat' first
    | intro _
    | with_reducible assumption
    | with_reducible apply announce_grows
    | with_reducible apply firstPort_grows
    | with_reducible apply raise_grows
    | with_reducible apply reports_grows
    | with_reducible apply setF_grows
    | with_reducible refine Grows.forL _ ?_ ?_
    | fail_if_no_progress with_reducible apply Grows.mk'
    | with_reducible refine Grows.ite ?_ ?_
    | with_reducible refine Grows.iteP ?_ ?_
    | split
    | dsimp only

theorem bootFail_grows {s0 : State} (s : State) (code : Nat) (lockstep : Bool) (h : Grows s0 s) :
    Grows s0 (State.bootFail s code lockstep) := by
  unfold State.bootFail
  try dsimp only
  repeat' first
    | with_reducible assumption
    | with_reducible apply emit_grows
    | with_reducible apply setF_grows
    | fail_if_no_progress with_reducible apply Grows.mk'
    | with_reducible refine Grows.ite ?_ ?_
    | split
    | dsimp only

theorem irqsRun_grows {s0 : State} (s : State) (h : Grows s0 s) : Grows s0 (State.irqsRun s) := by
  unfold State.irqsRun
  try dsimp only
  repeat' first
    | with_reducible assumption
    | with_reducible apply emits_grows
    | fail_if_no_progress with_reducible apply Grows.mk'
    | dsimp only

theorem hubUp_grows {s0 : State} (s : State) (h : Grows s0 s) : Grows s0 (State.hubUp s) := by
  unfold State.hubUp
  try dsimp only
  repeat' first
    | with_reducible assumption
    | with_reducible apply hubDoms_grows
    | with_reducible apply irqsRun_grows
    | with_reducible apply setF_grows
    | fail_if_no_progress with_reducible apply Grows.mk'
    | dsimp only

theorem castHead_grows {s0 : State} (s : State) (h : Grows s0 s) : Grows s0 s.castHead.1 := by
  unfold State.castHead
  refine Grows.iteP ?_ h
  dsimp only
  split
  · exact emits_grows _ _ h
  · exact hubUp_grows _ (emits_grows _ _ h)

theorem castTail_grows {s0 : State} (s : State) (h : Grows s0 s) : Grows s0 s.castTail.1 := by
  unfold State.castTail
  dsimp only
  split
  · exact emits_grows _ _ h
  · rename_i ha
    exact readyNow_grows _ (attempt_grows _ _ (emits_grows _ _ h) ha)

theorem castWhole_grows {s0 : State} (s : State) (h : Grows s0 s) : Grows s0 s.castWhole.1 := by
  have hh := castHead_grows s h
  unfold State.castWhole
  split
  · rename_i e
    rw [e] at hh
    exact castTail_grows _ hh
  · exact hh

theorem castOn_grows {s0 : State} (part : State → State × Option Nat) (hp : ∀ s, Grows s0 s → Grows s0 (part s).1)
    (n : Nat) (s : State) (h : Grows s0 s) : Grows s0 (State.castOn part n s) := by
  induction n generalizing s with
  | zero => exact h
  | succ n ih =>
    unfold State.castOn
    have h1 := hp s h
    split
    · rename_i e
      rw [e] at h1
      exact h1
    · rename_i e
      rw [e] at h1
      exact Grows.ite (bootFail_grows _ _ _ h1) (ih _ (bootFail_grows _ _ _ h1))

theorem castAgain_grows {s0 : State} (s : State) (code : Nat) (lockstep : Bool) (h : Grows s0 s) :
    Grows s0 (s.castAgain code lockstep) := by
  unfold State.castAgain
  exact Grows.ite (bootFail_grows _ _ _ h)
    (castOn_grows _ (fun _ ht => castHead_grows _ ht) _ _ (bootFail_grows _ _ _ h))

theorem resumeEnd_grows {s0 : State} (s : State) (status : Nat) (h : Grows s0 s) :
    Grows s0 (State.resumeEnd s status) := by
  unfold State.resumeEnd
  try dsimp only
  repeat' first
    | intro _
    | with_reducible assumption
    | with_reducible apply finishOp_grows
    | fail_if_no_progress with_reducible apply Grows.mk'
    | with_reducible refine Grows.iteP ?_ ?_
    | dsimp only

theorem resumeRun_grows {s0 : State} (s : State) (h : Grows s0 s) : Grows s0 s.resumeRun := by
  unfold State.resumeRun
  split
  · exact resumeEnd_grows _ _ h
  · dsimp only
    split
    · exact resumeEnd_grows _ _ (emits_grows _ _ h)
    · rename_i e
      exact resumeEnd_grows _ _ (setF_grows _ _ _ (loomLoad_grows _ _ _ _ (loomUp_grows _ (emits_grows _ _ h)) e))

theorem execReady_grows (s : State) : GrowsO s (execReady s) := by
  unfold execReady
  refine GrowsO.next (Grows.ite (resumeRun_grows _ (Grows.refl s)) (Grows.ite ?_ (Grows.refl s)))
  exact castOn_grows _ (fun _ ht => castWhole_grows _ ht) _ _ (Grows.refl s)

theorem execCastOnWatchdog_grows (s : State) : GrowsO s (execCastOnWatchdog s) := by
  unfold execCastOnWatchdog
  try dsimp only
  try refine GrowsO.next ?_
  repeat' first
    | refine GrowsO.next ?_
    | with_reducible assumption
    | with_reducible exact Grows.refl _
    | with_reducible apply castAgain_grows
    | fail_if_no_progress with_reducible apply Grows.mk'
    | with_reducible refine Grows.ite ?_ ?_
    | split
    | dsimp only

theorem pornLow_grows {s0 : State} (s : State) (h : Grows s0 s) : Grows s0 s.pornLow :=
  h.trans ⟨rfl, rfl, (pinsRest_grows _ (fun _ => true) (strobeCut_grows _ (Grows.refl s))).out, fun _ hn => hn,
    Nat.le_refl _, fun hc => by
      rw [State.canon_iff] at hc ⊢
      exact ⟨rfl, hc.2.1, rfl, rfl, rfl⟩⟩

theorem execPornFall_grows (s : State) : GrowsO s (execPornFall s) := by
  unfold execPornFall
  try dsimp only
  try refine GrowsO.next ?_
  repeat' first
    | refine GrowsO.next ?_
    | with_reducible assumption
    | with_reducible exact Grows.refl _
    | with_reducible apply pornLow_grows
    | dsimp only

theorem execAonUndervolt_grows (s : State) : GrowsO s (execAonUndervolt s) := by
  unfold execAonUndervolt
  try dsimp only
  try refine GrowsO.next ?_
  repeat' first
    | refine GrowsO.next ?_
    | with_reducible assumption
    | with_reducible exact Grows.refl _
    | with_reducible apply emit_grows
    | with_reducible apply pornLow_grows
    | fail_if_no_progress with_reducible apply Grows.mk'
    | dsimp only

theorem execPornRise_grows (fusesAgree : Bool) (fails : List (Fin 10 × Nat)) (s : State) :
    GrowsO s (execPornRise fusesAgree fails s) := by
  unfold execPornRise
  try dsimp only
  try refine GrowsO.next ?_
  repeat' first
    | refine GrowsO.next ?_
    | intro _
    | with_reducible assumption
    | with_reducible exact Grows.refl _
    | with_reducible apply setF_grows
    | fail_if_no_progress with_reducible apply Grows.mk'
    | with_reducible refine Grows.ite ?_ ?_
    | with_reducible refine Grows.iteP ?_ ?_
    | split
    | dsimp only

theorem stepFour_grows {s0 : State} (s : State) (hz : Nat) (h : Grows s0 s) : Grows s0 (State.stepFour s hz) := by
  unfold State.stepFour
  try dsimp only
  repeat' first
    | with_reducible assumption
    | with_reducible apply clocksShow_grows
    | with_reducible apply setF_grows
    | fail_if_no_progress with_reducible apply Grows.mk'
    | dsimp only

theorem execXaStableDelayEnd_grows (hz : Nat) (s : State) : GrowsO s (execXaStableDelayEnd hz s) := by
  unfold execXaStableDelayEnd
  refine GrowsO.next (Grows.ite ?_ (Grows.refl s))
  refine Grows.ite (castOn_grows _ (fun _ ht => castHead_grows _ ht) _ _ (stepFour_grows _ _ (Grows.refl s))) ?_
  exact (setF_grows clkB F.XA_MEAS_HZ hz (Grows.refl s)).upd rfl rfl rfl rfl rfl rfl rfl rfl rfl rfl

theorem coreFault_grows {s0 : State} (s : State) (pair : Nat) (h : Grows s0 s) : Grows s0 (State.coreFault s pair) := by
  unfold State.coreFault
  try dsimp only
  repeat' first
    | intro _
    | with_reducible assumption
    | with_reducible apply logAs_grows
    | with_reducible apply logReg_grows
    | with_reducible apply raise_grows
    | with_reducible apply satF_grows
    | with_reducible apply setF_grows
    | fail_if_no_progress with_reducible apply Grows.mk'
    | with_reducible refine Grows.ite ?_ ?_
    | with_reducible refine Grows.iteP ?_ ?_
    | split
    | dsimp only

theorem execLockstepFault_grows (s : State) : GrowsO s (execLockstepFault s) := by
  unfold execLockstepFault
  try dsimp only
  try refine GrowsO.next ?_
  repeat' first
    | refine GrowsO.next ?_
    | with_reducible assumption
    | with_reducible exact Grows.refl _
    | with_reducible apply castAgain_grows
    | with_reducible apply coreFault_grows
    | with_reducible refine Grows.ite ?_ ?_
    | split
    | dsimp only

theorem execFuseProgGo_grows (b : Fin 4096) (s : State) : GrowsO s (execFuseProgGo b s) := by
  unfold execFuseProgGo
  try dsimp only
  try refine GrowsO.next ?_
  repeat' first
    | refine GrowsO.next ?_
    | with_reducible assumption
    | with_reducible exact Grows.refl _
    | with_reducible apply fuseBlow_grows
    | with_reducible apply setF_grows
    | fail_if_no_progress with_reducible apply Grows.mk'
    | with_reducible refine Grows.ite ?_ ?_
    | split
    | dsimp only

theorem execFuseProgDone_grows (readsOne : Bool) (s : State) : GrowsO s (execFuseProgDone readsOne s) := by
  have hb := setF_grows fuseB F.FUSE_STATUS_PROG_BUSY 0 (Grows.refl s)
  have hf : Grows s { s.setF fuseB F.FUSE_STATUS_PROG_BUSY 0 with
      fuses := setBit (s.setF fuseB F.FUSE_STATUS_PROG_BUSY 0).fuses (s.setF fuseB F.FUSE_STATUS_PROG_BUSY 0).boot.fuseAt } :=
    hb.trans ⟨rfl, rfl, ⟨[], by simp⟩, fun n hn => bit_setBit_mono _ _ _ hn, Nat.le_refl _, id⟩
  unfold execFuseProgDone
  refine GrowsO.next (Grows.ite ?_ (Grows.refl s))
  dsimp only
  refine Grows.ite (Grows.ite (setF_grows _ _ _ (setF_grows _ _ _ hf)) hf) (mark_grows _ _ _ hb)

theorem jtagLoad_grows {s0 : State} (s : State) (code : Nat) (kept : Bool) (h : Grows s0 s) :
    Grows s0 (State.jtagLoad s code kept) := by
  unfold State.jtagLoad
  try dsimp only
  repeat' first
    | with_reducible assumption
    | fail_if_no_progress with_reducible apply Grows.mk'
    | with_reducible refine Grows.ite ?_ ?_
    | split
    | dsimp only

theorem execExtest_grows (s : State) : GrowsO s (execExtest s) := by
  unfold execExtest
  try dsimp only
  try refine GrowsO.next ?_
  repeat' first
    | refine GrowsO.next ?_
    | with_reducible assumption
    | with_reducible exact Grows.refl _
    | with_reducible apply jtagLoad_grows
    | dsimp only

theorem execSamplePreload_grows (s : State) : GrowsO s (execSamplePreload s) := by
  unfold execSamplePreload
  try dsimp only
  try refine GrowsO.next ?_
  repeat' first
    | refine GrowsO.next ?_
    | with_reducible assumption
    | with_reducible exact Grows.refl _
    | with_reducible apply jtagLoad_grows
    | dsimp only

theorem execIdcode_grows (s : State) : GrowsO s (execIdcode s) := by
  unfold execIdcode
  try dsimp only
  try refine GrowsO.next ?_
  repeat' first
    | refine GrowsO.next ?_
    | with_reducible assumption
    | with_reducible exact Grows.refl _
    | with_reducible apply emit_grows
    | with_reducible apply jtagLoad_grows
    | dsimp only

theorem execScanTest_grows (s : State) : GrowsO s (execScanTest s) := by
  unfold execScanTest
  try dsimp only
  try refine GrowsO.next ?_
  repeat' first
    | refine GrowsO.next ?_
    | with_reducible assumption
    | with_reducible exact Grows.refl _
    | with_reducible apply jtagLoad_grows
    | with_reducible refine Grows.ite ?_ ?_
    | split
    | dsimp only

theorem execHighz_grows (s : State) : GrowsO s (execHighz s) := by
  unfold execHighz
  try dsimp only
  try refine GrowsO.next ?_
  repeat' first
    | refine GrowsO.next ?_
    | with_reducible assumption
    | with_reducible exact Grows.refl _
    | with_reducible apply jtagLoad_grows
    | dsimp only

theorem execClamp_grows (s : State) : GrowsO s (execClamp s) := by
  unfold execClamp
  try dsimp only
  try refine GrowsO.next ?_
  repeat' first
    | refine GrowsO.next ?_
    | with_reducible assumption
    | with_reducible exact Grows.refl _
    | with_reducible apply jtagLoad_grows
    | dsimp only

theorem execBypass_grows (s : State) : GrowsO s (execBypass s) := by
  unfold execBypass
  try dsimp only
  try refine GrowsO.next ?_
  repeat' first
    | refine GrowsO.next ?_
    | with_reducible assumption
    | with_reducible exact Grows.refl _
    | with_reducible apply jtagLoad_grows
    | dsimp only

theorem dbgAccess_grows {s0 : State} (s : State) (write : Bool) (mem : Bool) (addr : Nat) (data : Nat) (h : Grows s0 s) :
    Grows s0 (State.dbgAccess s write mem addr data) := by
  unfold State.dbgAccess
  try dsimp only
  repeat' first
    | with_reducible assumption
    | with_reducible apply emit_grows
    | with_reducible apply memRead_grows
    | with_reducible apply memWrite_grows
    | with_reducible apply readReq_grows
    | with_reducible apply writeReq_grows
    | fail_if_no_progress with_reducible apply Grows.mk'
    | with_reducible refine Grows.ite ?_ ?_
    | with_reducible refine Grows.iteP ?_ ?_
    | split
    | dsimp only

theorem execDbgAccess_grows (write : Bool) (mem : Bool) (addr : BitVec 40) (data : BitVec 32) (s : State) :
    GrowsO s (execDbgAccess write mem addr data s) := by
  unfold execDbgAccess
  try dsimp only
  try refine GrowsO.next ?_
  repeat' first
    | refine GrowsO.next ?_
    | with_reducible assumption
    | with_reducible exact Grows.refl _
    | with_reducible apply dbgAccess_grows
    | with_reducible apply jtagLoad_grows
    | with_reducible refine Grows.ite ?_ ?_
    | split
    | dsimp only

end Sys2Proof.Machine
end

