-- ==== Sys2Proof/Laws/GrowsCommands.lean ====
section
/-!
SUPPORT. What every operation keeps (Laws/Grows.lean), shown of sessions and the commands of the hosts: one lemma per
operation of the model, named after it.
-/

set_option linter.unusedTactic false
set_option linter.unreachableTactic false
set_option maxRecDepth 4000

namespace Sys2Proof.Machine

/-! ## Session -/

/-- What follows a reply keeps these things. -/
structure GrowsA (s0 : State) (r : Reply) : Prop where
  keep : ∀ u, Grows s0 u → Grows s0 (r.after u)

theorem of_growsA (s0 : State) (n : Nat) : GrowsA s0 (Reply.of n) := ⟨fun _ h => h⟩

theorem ok_growsA (s0 : State) (l : List Byte) : GrowsA s0 (Reply.ok l) := ⟨fun _ h => h⟩

theorem later_growsA (s0 : State) (n : Nat) : GrowsA s0 (Reply.later n) := ⟨fun _ h => h⟩

theorem Grows.id {s0 u : State} (h : Grows s0 u) : Grows s0 (id u) := h

theorem Grows.iteA {α : Type} {s0 : State} {c : Prop} [Decidable c] {a b : α × Reply} (ha : GrowsA s0 a.2)
    (hb : GrowsA s0 b.2) : GrowsA s0 (if c then a else b).2 := by
  split
  · exact ha
  · exact hb

theorem Grows.iteR {s0 : State} {c : Prop} [Decidable c] {a b : Reply} (ha : GrowsA s0 a)
    (hb : GrowsA s0 b) : GrowsA s0 (if c then a else b) := by
  split
  · exact ha
  · exact hb

theorem sendReply_grows {s0 : State} (s : State) (hd : Hdr) (bytes : List Byte) (h : Grows s0 s) :
    Grows s0 (State.sendReply s hd bytes) := by
  unfold State.sendReply
  try dsimp only
  repeat' first
    | intro _
    | with_reducible assumption
    | with_reducible apply sendUdp_grows
    | with_reducible refine Grows.iteP ?_ ?_
    | dsimp only

theorem quick_grows {s0 : State} (s : State) (hd : Hdr) (op : Nat) (status : Nat) (key : Option (List Byte)) (params : List Byte) (h : Grows s0 s) :
    Grows s0 (State.quick s hd op status key params) := by
  unfold State.quick
  try dsimp only
  repeat' first
    | with_reducible assumption
    | with_reducible apply sendReply_grows
    | with_reducible apply tickFree_grows
    | fail_if_no_progress with_reducible apply Grows.mk'
    | split
    | dsimp only

theorem deny_grows {s0 : State} (s : State) (hd : Hdr) (op : Nat) (status : Nat) (key : Option (List Byte)) (h : Grows s0 s) :
    Grows s0 (State.deny s hd op status key) := by
  unfold State.deny
  try dsimp only
  repeat' first
    | with_reducible assumption
    | with_reducible apply quick_grows
    | with_reducible apply raise_grows
    | with_reducible apply satF_grows
    | fail_if_no_progress with_reducible apply Grows.mk'
    | with_reducible refine Grows.ite ?_ ?_
    | with_reducible refine Grows.iteP ?_ ?_
    | split
    | dsimp only

theorem mapSession_grows {s0 : State} (s : State) (id : Nat) (f : Session → Session) (h : Grows s0 s) :
    Grows s0 (State.mapSession s id f) := by
  unfold State.mapSession
  try dsimp only
  repeat' first
    | intro _
    | with_reducible assumption
    | fail_if_no_progress with_reducible apply Grows.mk'
    | with_reducible refine Grows.ite ?_ ?_
    | split
    | dsimp only

theorem showSessions_grows {s0 : State} (s : State) (h : Grows s0 s) : Grows s0 (State.showSessions s) := by
  unfold State.showSessions
  try dsimp only
  repeat' first
    | with_reducible assumption
    | with_reducible apply setF_grows
    | dsimp only

theorem closeSession_grows {s0 : State} (s : State) (id : Nat) (h : Grows s0 s) :
    Grows s0 (State.closeSession s id) := by
  unfold State.closeSession
  try dsimp only
  repeat' first
    | intro _
    | with_reducible assumption
    | with_reducible apply showSessions_grows
    | fail_if_no_progress with_reducible apply Grows.mk'
    | with_reducible refine Grows.iteP ?_ ?_
    | dsimp only

theorem execSessionTimeout_grows (session : BitVec 16) (s : State) : GrowsO s (execSessionTimeout session s) := by
  unfold execSessionTimeout
  try dsimp only
  try refine GrowsO.next ?_
  repeat' first
    | refine GrowsO.next ?_
    | intro _
    | with_reducible assumption
    | with_reducible exact Grows.refl _
    | with_reducible apply closeSession_grows
    | fail_if_no_progress with_reducible apply Grows.mk'
    | with_reducible refine Grows.iteP ?_ ?_
    | dsimp only

theorem reply_grows {s0 : State} (s : State) (hd : Hdr) (op : Nat) (status : Nat) (course : Int) (params : List Byte) (h : Grows s0 s) :
    Grows s0 (State.reply s hd op status course params) := by
  unfold State.reply
  try dsimp only
  repeat' first
    | intro _
    | with_reducible assumption
    | with_reducible apply mapSession_grows
    | with_reducible apply sendReply_grows
    | fail_if_no_progress with_reducible apply Grows.mk'
    | with_reducible refine Grows.ite ?_ ?_
    | with_reducible refine Grows.iteP ?_ ?_
    | split
    | dsimp only

theorem setUnit_grows {s0 : State} (s : State) (hd : Hdr) (unit : Nat) (h : Grows s0 s) :
    Grows s0 (State.setUnit s hd unit) := by
  unfold State.setUnit
  try dsimp only
  repeat' first
    | intro _
    | with_reducible assumption
    | with_reducible apply mapSession_grows
    | fail_if_no_progress with_reducible apply Grows.mk'
    | with_reducible refine Grows.ite ?_ ?_
    | with_reducible refine Grows.iteP ?_ ?_
    | split
    | dsimp only

theorem replyDone_grows {s0 : State} (s : State) (hd : Hdr) (op : Nat) (h : Grows s0 s) :
    Grows s0 (State.replyDone s hd op) := by
  unfold State.replyDone
  try dsimp only
  repeat' first
    | intro _
    | with_reducible assumption
    | with_reducible apply reply_grows
    | fail_if_no_progress with_reducible apply Grows.mk'
    | with_reducible refine Grows.iteP ?_ ?_
    | split
    | dsimp only

theorem answer_grows {s0 : State} (s : State) (hd : Hdr) (op : Nat) (r : Reply) (hr : GrowsA s0 r) (h : Grows s0 s) :
    Grows s0 (s.answer hd op r) := by
  unfold State.answer
  exact Grows.ite (replyDone_grows _ _ _ (setUnit_grows _ _ _ h)) (hr.keep _ (reply_grows _ _ _ _ _ _ h))

theorem commandE_grows {s0 : State} (s : State) (hd : Hdr) (op role early : Nat) (body : State → State × Reply)
    (hb : ∀ t, Grows s0 t → Grows s0 (body t).1) (ha : ∀ t, GrowsA s0 (body t).2) (h : Grows s0 s) :
    Grows s0 (s.commandE hd op role early body) := by
  unfold State.commandE
  refine Grows.ite h ?_
  split
  · exact deny_grows _ _ _ _ _ h
  · have h1 := fun id f => mapSession_grows s id f h
    dsimp only
    refine Grows.ite (quick_grows _ _ _ _ _ _ (h1 _ _)) (Grows.ite ?_ (Grows.ite (quick_grows _ _ _ _ _ _ (h1 _ _)) ?_))
    · split
      · exact sendReply_grows _ _ _ (h1 _ _)
      · exact h1 _ _
    · have h2 := fun id f => mapSession_grows _ id f (h1 id f)
      refine Grows.ite (answer_grows _ _ _ _ (of_growsA _ _) (mapSession_grows _ _ _ (h1 _ _))) ?_
      exact answer_grows _ _ _ _ (ha _) (hb _ (incF_grows _ _ _ _ (mapSession_grows _ _ _ (h1 _ _))))

theorem command_grows {s0 : State} (s : State) (hd : Hdr) (op role : Nat) (body : State → State × Reply)
    (hb : ∀ t, Grows s0 t → Grows s0 (body t).1) (ha : ∀ t, GrowsA s0 (body t).2) (h : Grows s0 s) :
    Grows s0 (s.command hd op role body) := commandE_grows _ _ _ _ _ _ hb ha h

theorem openSession_grows {s0 : State} (s : State) (hd : Hdr) (key : List Byte) (nonce : Nat) (timeout : Nat) (maxDgram : Nat) (h : Grows s0 s) :
    Grows s0 (State.openSession s hd key nonce timeout maxDgram) := by
  unfold State.openSession
  try dsimp only
  repeat' first
    | with_reducible assumption
    | with_reducible apply incF_grows
    | with_reducible apply sendReply_grows
    | with_reducible apply showSessions_grows
    | with_reducible apply tickFree_grows
    | fail_if_no_progress with_reducible apply Grows.mk'
    | with_reducible refine Grows.ite ?_ ?_
    | split
    | dsimp only

theorem execSessionOpen_grows (hd : Hdr) (nonce : BitVec 128) (timeout : BitVec 16) (maxDgram : BitVec 16) (s : State) :
    GrowsO s (execSessionOpen hd nonce timeout maxDgram s) := by
  unfold execSessionOpen
  try dsimp only
  try refine GrowsO.next ?_
  repeat' first
    | refine GrowsO.next ?_
    | intro _
    | with_reducible assumption
    | with_reducible exact Grows.refl _
    | with_reducible apply deny_grows
    | with_reducible apply openSession_grows
    | with_reducible apply quick_grows
    | with_reducible apply sendReply_grows
    | fail_if_no_progress with_reducible apply Grows.mk'
    | with_reducible refine Grows.ite ?_ ?_
    | split
    | dsimp only

theorem execSessionClose_grows (hd : Hdr) (s : State) : GrowsO s (execSessionClose hd s) := by
  unfold execSessionClose
  try dsimp only
  try refine GrowsO.next ?_
  repeat' first
    | refine GrowsO.next ?_
    | intro _
    | with_reducible exact of_growsA _ _
    | with_reducible exact ok_growsA _ _
    | with_reducible exact later_growsA _ _
    | with_reducible apply Grows.id
    | with_reducible refine Grows.iteA ?_ ?_
    | with_reducible refine Grows.iteR ?_ ?_
    | with_reducible assumption
    | with_reducible exact Grows.refl _
    | with_reducible apply closeSession_grows
    | with_reducible apply command_grows
    | with_reducible refine Grows.iteP ?_ ?_
    | dsimp only
    | with_reducible exact ⟨fun _ hu => hu⟩
    | refine ⟨fun _ _ => ?_⟩

theorem execKeepalive_grows (hd : Hdr) (s : State) : GrowsO s (execKeepalive hd s) := by
  unfold execKeepalive
  try dsimp only
  try refine GrowsO.next ?_
  repeat' first
    | refine GrowsO.next ?_
    | intro _
    | with_reducible exact of_growsA _ _
    | with_reducible exact ok_growsA _ _
    | with_reducible exact later_growsA _ _
    | with_reducible apply Grows.id
    | with_reducible refine Grows.iteA ?_ ?_
    | with_reducible refine Grows.iteR ?_ ?_
    | with_reducible assumption
    | with_reducible exact Grows.refl _
    | with_reducible apply command_grows
    | with_reducible refine Grows.iteP ?_ ?_
    | dsimp only
    | with_reducible exact ⟨fun _ hu => hu⟩
    | refine ⟨fun _ _ => ?_⟩

theorem execSessionList_grows (hd : Hdr) (s : State) : GrowsO s (execSessionList hd s) := by
  unfold execSessionList
  try dsimp only
  try refine GrowsO.next ?_
  repeat' first
    | refine GrowsO.next ?_
    | intro _
    | with_reducible exact of_growsA _ _
    | with_reducible exact ok_growsA _ _
    | with_reducible exact later_growsA _ _
    | with_reducible apply Grows.id
    | with_reducible refine Grows.iteA ?_ ?_
    | with_reducible refine Grows.iteR ?_ ?_
    | with_reducible assumption
    | with_reducible exact Grows.refl _
    | with_reducible apply command_grows
    | with_reducible refine Grows.iteP ?_ ?_
    | dsimp only
    | with_reducible exact ⟨fun _ hu => hu⟩
    | refine ⟨fun _ _ => ?_⟩

theorem execSessionKill_grows (hd : Hdr) (session : BitVec 16) (s : State) :
    GrowsO s (execSessionKill hd session s) := by
  unfold execSessionKill
  try dsimp only
  try refine GrowsO.next ?_
  repeat' first
    | refine GrowsO.next ?_
    | intro _
    | with_reducible exact of_growsA _ _
    | with_reducible exact ok_growsA _ _
    | with_reducible exact later_growsA _ _
    | with_reducible apply Grows.id
    | with_reducible refine Grows.iteA ?_ ?_
    | with_reducible refine Grows.iteR ?_ ?_
    | with_reducible assumption
    | with_reducible exact Grows.refl _
    | with_reducible apply closeSession_grows
    | with_reducible apply command_grows
    | with_reducible refine Grows.ite ?_ ?_
    | with_reducible refine Grows.iteP ?_ ?_
    | split
    | dsimp only
    | with_reducible exact ⟨fun _ hu => hu⟩
    | refine ⟨fun _ _ => ?_⟩

/-! ## Commands -/

theorem execDeviceInfo_grows (hd : Hdr) (s : State) : GrowsO s (execDeviceInfo hd s) := by
  unfold execDeviceInfo
  try dsimp only
  try refine GrowsO.next ?_
  repeat' first
    | refine GrowsO.next ?_
    | intro _
    | with_reducible exact of_growsA _ _
    | with_reducible exact ok_growsA _ _
    | with_reducible exact later_growsA _ _
    | with_reducible apply Grows.id
    | with_reducible refine Grows.iteA ?_ ?_
    | with_reducible refine Grows.iteR ?_ ?_
    | with_reducible assumption
    | with_reducible exact Grows.refl _
    | with_reducible apply command_grows
    | with_reducible refine Grows.iteP ?_ ?_
    | dsimp only
    | with_reducible exact ⟨fun _ hu => hu⟩
    | refine ⟨fun _ _ => ?_⟩

theorem execRegRead_grows (hd : Hdr) (addr : BitVec 32) (count : BitVec 16) (set : BitVec 8) (s : State) :
    GrowsO s (execRegRead hd addr count set s) := by
  unfold execRegRead
  try dsimp only
  try refine GrowsO.next ?_
  repeat' first
    | refine GrowsO.next ?_
    | intro _
    | with_reducible exact of_growsA _ _
    | with_reducible exact ok_growsA _ _
    | with_reducible exact later_growsA _ _
    | with_reducible apply Grows.id
    | with_reducible refine Grows.iteA ?_ ?_
    | with_reducible refine Grows.iteR ?_ ?_
    | with_reducible assumption
    | with_reducible exact Grows.refl _
    | with_reducible apply command_grows
    | with_reducible apply readReq_grows
    | with_reducible refine Grows.ite ?_ ?_
    | with_reducible refine Grows.iteP ?_ ?_
    | split
    | dsimp only
    | with_reducible exact ⟨fun _ hu => hu⟩
    | refine ⟨fun _ _ => ?_⟩

theorem writeCmd_grows {s0 : State} (s : State) (hd : Hdr) (set : Nat) (modify : Bool) (addr : Nat) (words : List (Nat × Nat)) (ok : List Byte) (h : Grows s0 s) :
    Grows s0 (State.writeCmd s hd set modify addr words ok).1 := by
  unfold State.writeCmd
  try dsimp only
  repeat' first
    | intro _
    | with_reducible assumption
    | with_reducible apply writeAt_grows
    | with_reducible apply writeReq_grows
    | fail_if_no_progress with_reducible apply Grows.mk'
    | with_reducible refine Grows.ite ?_ ?_
    | with_reducible refine Grows.iteP ?_ ?_
    | split
    | dsimp only

theorem writeCmd_growsA {s0 : State} (s : State) (hd : Hdr) (set : Nat) (modify : Bool) (addr : Nat) (words : List (Nat × Nat)) (ok : List Byte) :
    GrowsA s0 (State.writeCmd s hd set modify addr words ok).2 := by
  unfold State.writeCmd
  try dsimp only
  repeat' first
    | with_reducible exact of_growsA _ _
    | with_reducible exact ok_growsA _ _
    | with_reducible exact later_growsA _ _
    | with_reducible apply Grows.id
    | with_reducible refine Grows.iteA ?_ ?_
    | with_reducible refine Grows.iteR ?_ ?_
    | with_reducible exact ⟨fun _ hu => hu⟩
    | refine ⟨fun u hu => ?_⟩
    | with_reducible assumption
    | with_reducible apply writeAt_grows
    | with_reducible apply writeReq_grows
    | split

theorem execRegWrite_grows (hd : Hdr) (addr : BitVec 32) (count : BitVec 16) (set : BitVec 8) (words : List Word) (s : State) :
    GrowsO s (execRegWrite hd addr count set words s) := by
  unfold execRegWrite
  try dsimp only
  try refine GrowsO.next ?_
  repeat' first
    | refine GrowsO.next ?_
    | intro _
    | with_reducible exact of_growsA _ _
    | with_reducible exact ok_growsA _ _
    | with_reducible exact later_growsA _ _
    | with_reducible apply Grows.id
    | with_reducible refine Grows.iteA ?_ ?_
    | with_reducible refine Grows.iteR ?_ ?_
    | with_reducible apply writeCmd_growsA
    | with_reducible assumption
    | with_reducible exact Grows.refl _
    | with_reducible apply commandE_grows
    | with_reducible apply writeCmd_grows
    | with_reducible refine Grows.ite ?_ ?_
    | with_reducible refine Grows.iteP ?_ ?_
    | split
    | dsimp only
    | with_reducible exact ⟨fun _ hu => hu⟩
    | refine ⟨fun _ _ => ?_⟩

theorem execRegModify_grows (hd : Hdr) (addr : BitVec 32) (set : BitVec 8) (mask : Word) (value : Word) (s : State) :
    GrowsO s (execRegModify hd addr set mask value s) := by
  unfold execRegModify
  try dsimp only
  try refine GrowsO.next ?_
  repeat' first
    | refine GrowsO.next ?_
    | intro _
    | with_reducible exact of_growsA _ _
    | with_reducible exact ok_growsA _ _
    | with_reducible exact later_growsA _ _
    | with_reducible apply Grows.id
    | with_reducible refine Grows.iteA ?_ ?_
    | with_reducible refine Grows.iteR ?_ ?_
    | with_reducible apply writeCmd_growsA
    | with_reducible assumption
    | with_reducible exact Grows.refl _
    | with_reducible apply command_grows
    | with_reducible apply refresh_grows
    | with_reducible apply writeCmd_grows
    | with_reducible refine Grows.ite ?_ ?_
    | with_reducible refine Grows.iteP ?_ ?_
    | split
    | dsimp only
    | with_reducible exact ⟨fun _ hu => hu⟩
    | refine ⟨fun _ _ => ?_⟩

theorem execPatternSwap_grows (hd : Hdr) (group : BitVec 8) (when' : BitVec 8) (course : BitVec 64) (s : State) :
    GrowsO s (execPatternSwap hd group when' course s) := by
  unfold execPatternSwap
  try dsimp only
  try refine GrowsO.next ?_
  repeat' first
    | refine GrowsO.next ?_
    | intro _
    | with_reducible exact of_growsA _ _
    | with_reducible exact ok_growsA _ _
    | with_reducible exact later_growsA _ _
    | with_reducible apply Grows.id
    | with_reducible refine Grows.iteA ?_ ?_
    | with_reducible refine Grows.iteR ?_ ?_
    | with_reducible assumption
    | with_reducible exact Grows.refl _
    | with_reducible apply command_grows
    | with_reducible apply swapReq_grows
    | fail_if_no_progress with_reducible apply Grows.mk'
    | with_reducible refine Grows.ite ?_ ?_
    | with_reducible refine Grows.iteP ?_ ?_
    | split
    | dsimp only
    | with_reducible exact ⟨fun _ hu => hu⟩
    | refine ⟨fun _ _ => ?_⟩

theorem execPatternRevert_grows (hd : Hdr) (group : BitVec 8) (s : State) :
    GrowsO s (execPatternRevert hd group s) := by
  unfold execPatternRevert
  try dsimp only
  try refine GrowsO.next ?_
  repeat' first
    | refine GrowsO.next ?_
    | intro _
    | with_reducible exact of_growsA _ _
    | with_reducible exact ok_growsA _ _
    | with_reducible exact later_growsA _ _
    | with_reducible apply Grows.id
    | with_reducible refine Grows.iteA ?_ ?_
    | with_reducible refine Grows.iteR ?_ ?_
    | with_reducible assumption
    | with_reducible exact Grows.refl _
    | with_reducible apply command_grows
    | with_reducible apply revertReq_grows
    | fail_if_no_progress with_reducible apply Grows.mk'
    | with_reducible refine Grows.iteP ?_ ?_
    | split
    | dsimp only
    | with_reducible exact ⟨fun _ hu => hu⟩
    | refine ⟨fun _ _ => ?_⟩

theorem execPatternStatus_grows (hd : Hdr) (group : BitVec 8) (s : State) :
    GrowsO s (execPatternStatus hd group s) := by
  unfold execPatternStatus
  try dsimp only
  try refine GrowsO.next ?_
  repeat' first
    | refine GrowsO.next ?_
    | intro _
    | with_reducible exact of_growsA _ _
    | with_reducible exact ok_growsA _ _
    | with_reducible exact later_growsA _ _
    | with_reducible apply Grows.id
    | with_reducible refine Grows.iteA ?_ ?_
    | with_reducible refine Grows.iteR ?_ ?_
    | with_reducible assumption
    | with_reducible exact Grows.refl _
    | with_reducible apply command_grows
    | fail_if_no_progress with_reducible apply Grows.mk'
    | with_reducible refine Grows.iteP ?_ ?_
    | split
    | dsimp only
    | with_reducible exact ⟨fun _ hu => hu⟩
    | refine ⟨fun _ _ => ?_⟩

theorem runInput_grows {s0 : State} (s : State) (session : Nat) (g : Nat) (op : Nat) (flags : Nat) (h : Grows s0 s) :
    Grows s0 (State.runInput s session g op flags) := by
  unfold State.runInput
  try dsimp only
  repeat' first
    | intro _
    | with_reducible assumption
    | with_reducible exact Grows.refl _
    | with_reducible apply accept_grows
    | with_reducible refine Grows.forL _ ?_ ?_
    | with_reducible refine Grows.forN _ ?_ ?_
    | with_reducible refine Grows.foldl _ ?_ ?_
    | with_reducible refine Grows.foldlP _ ?_ ?_
    | fail_if_no_progress with_reducible apply Grows.mk'
    | with_reducible refine Grows.ite ?_ ?_
    | with_reducible refine Grows.iteP ?_ ?_
    | split
    | with_reducible refine Grows.fst (by assumption) ?_
    | dsimp only
    | omega

theorem execGroupStart_grows (hd : Hdr) (group : BitVec 8) (flags : BitVec 8) (s : State) :
    GrowsO s (execGroupStart hd group flags s) := by
  unfold execGroupStart
  try dsimp only
  try refine GrowsO.next ?_
  repeat' first
    | refine GrowsO.next ?_
    | intro _
    | with_reducible exact of_growsA _ _
    | with_reducible exact ok_growsA _ _
    | with_reducible exact later_growsA _ _
    | with_reducible apply Grows.id
    | with_reducible refine Grows.iteA ?_ ?_
    | with_reducible refine Grows.iteR ?_ ?_
    | with_reducible assumption
    | with_reducible exact Grows.refl _
    | with_reducible apply command_grows
    | with_reducible apply groupStart_grows
    | with_reducible apply runInput_grows
    | with_reducible apply startStatus_grows
    | fail_if_no_progress with_reducible apply Grows.mk'
    | with_reducible refine Grows.ite ?_ ?_
    | with_reducible refine Grows.iteP ?_ ?_
    | split
    | dsimp only
    | with_reducible exact ⟨fun _ hu => hu⟩
    | refine ⟨fun _ _ => ?_⟩

theorem execGroupStop_grows (hd : Hdr) (group : BitVec 8) (s : State) : GrowsO s (execGroupStop hd group s) := by
  unfold execGroupStop
  try dsimp only
  try refine GrowsO.next ?_
  repeat' first
    | refine GrowsO.next ?_
    | intro _
    | with_reducible exact of_growsA _ _
    | with_reducible exact ok_growsA _ _
    | with_reducible exact later_growsA _ _
    | with_reducible apply Grows.id
    | with_reducible refine Grows.iteA ?_ ?_
    | with_reducible refine Grows.iteR ?_ ?_
    | with_reducible assumption
    | with_reducible exact Grows.refl _
    | with_reducible apply command_grows
    | with_reducible apply groupStop_grows
    | with_reducible apply runInput_grows
    | with_reducible refine Grows.ite ?_ ?_
    | with_reducible refine Grows.iteP ?_ ?_
    | split
    | dsimp only
    | with_reducible exact ⟨fun _ hu => hu⟩
    | refine ⟨fun _ _ => ?_⟩

theorem execGroupStatus_grows (hd : Hdr) (group : BitVec 8) (s : State) : GrowsO s (execGroupStatus hd group s) := by
  unfold execGroupStatus
  try dsimp only
  try refine GrowsO.next ?_
  repeat' first
    | refine GrowsO.next ?_
    | intro _
    | with_reducible exact of_growsA _ _
    | with_reducible exact ok_growsA _ _
    | with_reducible exact later_growsA _ _
    | with_reducible apply Grows.id
    | with_reducible refine Grows.iteA ?_ ?_
    | with_reducible refine Grows.iteR ?_ ?_
    | with_reducible assumption
    | with_reducible exact Grows.refl _
    | with_reducible apply command_grows
    | with_reducible refine Grows.ite ?_ ?_
    | with_reducible refine Grows.iteP ?_ ?_
    | split
    | dsimp only
    | with_reducible exact ⟨fun _ hu => hu⟩
    | refine ⟨fun _ _ => ?_⟩

theorem execExposure_grows (hd : Hdr) (channel : BitVec 16) (expId : BitVec 16) (exp : BitVec 32) (gain : BitVec 16) (rsv : BitVec 16) (target : BitVec 64) (s : State) :
    GrowsO s (execExposure hd channel expId exp gain rsv target s) := by
  unfold execExposure
  try dsimp only
  try refine GrowsO.next ?_
  repeat' first
    | refine GrowsO.next ?_
    | intro _
    | with_reducible exact of_growsA _ _
    | with_reducible exact ok_growsA _ _
    | with_reducible exact later_growsA _ _
    | with_reducible apply Grows.id
    | with_reducible refine Grows.iteA ?_ ?_
    | with_reducible refine Grows.iteR ?_ ?_
    | with_reducible assumption
    | with_reducible exact Grows.refl _
    | with_reducible apply command_grows
    | with_reducible apply sendBack_grows
    | fail_if_no_progress with_reducible apply Grows.mk'
    | with_reducible refine Grows.ite ?_ ?_
    | with_reducible refine Grows.iteP ?_ ?_
    | split
    | dsimp only
    | with_reducible exact ⟨fun _ hu => hu⟩
    | refine ⟨fun _ _ => ?_⟩

theorem execCameraCtrl_grows (hd : Hdr) (channel : BitVec 16) (op : BitVec 8) (addr : BitVec 32) (count : BitVec 8) (data : List (BitVec 64)) (s : State) :
    GrowsO s (execCameraCtrl hd channel op addr count data s) := by
  unfold execCameraCtrl
  try dsimp only
  try refine GrowsO.next ?_
  repeat' first
    | refine GrowsO.next ?_
    | intro _
    | with_reducible exact of_growsA _ _
    | with_reducible exact ok_growsA _ _
    | with_reducible exact later_growsA _ _
    | with_reducible apply Grows.id
    | with_reducible refine Grows.iteA ?_ ?_
    | with_reducible refine Grows.iteR ?_ ?_
    | with_reducible assumption
    | with_reducible exact Grows.refl _
    | with_reducible apply commandE_grows
    | with_reducible apply sendBack_grows
    | with_reducible apply setLn_grows
    | fail_if_no_progress with_reducible apply Grows.mk'
    | with_reducible refine Grows.ite ?_ ?_
    | with_reducible refine Grows.iteP ?_ ?_
    | split
    | dsimp only
    | with_reducible exact ⟨fun _ hu => hu⟩
    | refine ⟨fun _ _ => ?_⟩

theorem execCameraIdent_grows (hd : Hdr) (channel : BitVec 16) (s : State) :
    GrowsO s (execCameraIdent hd channel s) := by
  unfold execCameraIdent
  try dsimp only
  try refine GrowsO.next ?_
  repeat' first
    | refine GrowsO.next ?_
    | intro _
    | with_reducible exact of_growsA _ _
    | with_reducible exact ok_growsA _ _
    | with_reducible exact later_growsA _ _
    | with_reducible apply Grows.id
    | with_reducible refine Grows.iteA ?_ ?_
    | with_reducible refine Grows.iteR ?_ ?_
    | with_reducible assumption
    | with_reducible exact Grows.refl _
    | with_reducible apply command_grows
    | with_reducible apply sendBack_grows
    | with_reducible refine Grows.ite ?_ ?_
    | with_reducible refine Grows.iteP ?_ ?_
    | split
    | dsimp only
    | with_reducible exact ⟨fun _ hu => hu⟩
    | refine ⟨fun _ _ => ?_⟩

theorem execAuxsync_grows (hd : Hdr) (s : State) : GrowsO s (execAuxsync hd s) := by
  unfold execAuxsync
  try dsimp only
  try refine GrowsO.next ?_
  repeat' first
    | refine GrowsO.next ?_
    | intro _
    | with_reducible exact of_growsA _ _
    | with_reducible exact ok_growsA _ _
    | with_reducible exact later_growsA _ _
    | with_reducible apply Grows.id
    | with_reducible refine Grows.iteA ?_ ?_
    | with_reducible refine Grows.iteR ?_ ?_
    | with_reducible assumption
    | with_reducible exact Grows.refl _
    | with_reducible apply auxSyncDrive_grows
    | with_reducible apply command_grows
    | with_reducible refine Grows.ite ?_ ?_
    | with_reducible refine Grows.iteP ?_ ?_
    | split
    | dsimp only
    | with_reducible exact ⟨fun _ hu => hu⟩
    | refine ⟨fun _ _ => ?_⟩

theorem stopDone_grows {s0 : State} (s : State) (o : Outstanding) (h : Grows s0 s) : Grows s0 (State.stopDone s o) := by
  unfold State.stopDone
  try dsimp only
  repeat' first
    | with_reducible assumption
    | with_reducible apply reply_grows
    | with_reducible refine Grows.ite ?_ ?_
    | split
    | dsimp only

theorem execCommandComplete_grows (session : BitVec 16) (seq : BitVec 32) (s : State) :
    GrowsO s (execCommandComplete session seq s) := by
  unfold execCommandComplete
  try dsimp only
  try refine GrowsO.next ?_
  repeat' first
    | refine GrowsO.next ?_
    | intro _
    | with_reducible assumption
    | with_reducible exact Grows.refl _
    | with_reducible apply replyDone_grows
    | with_reducible apply stopDone_grows
    | fail_if_no_progress with_reducible apply Grows.mk'
    | with_reducible refine Grows.ite ?_ ?_
    | with_reducible refine Grows.iteP ?_ ?_
    | split
    | dsimp only

/-! ## MemCommands -/

theorem execRingConfig_grows (hd : Hdr) (ring : BitVec 32) (base : BitVec 64) (depthLog : BitVec 8) (entry : BitVec 8) (s : State) :
    GrowsO s (execRingConfig hd ring base depthLog entry s) := by
  unfold execRingConfig
  try dsimp only
  try refine GrowsO.next ?_
  repeat' first
    | refine GrowsO.next ?_
    | intro _
    | with_reducible exact of_growsA _ _
    | with_reducible exact ok_growsA _ _
    | with_reducible exact later_growsA _ _
    | with_reducible apply Grows.id
    | with_reducible refine Grows.iteA ?_ ?_
    | with_reducible refine Grows.iteR ?_ ?_
    | with_reducible assumption
    | with_reducible exact Grows.refl _
    | with_reducible apply command_grows
    | with_reducible apply msrcUpdate_grows
    | with_reducible apply ringUse_grows
    | with_reducible apply setRing_grows
    | with_reducible refine Grows.ite ?_ ?_
    | with_reducible refine Grows.iteP ?_ ?_
    | split
    | dsimp only
    | with_reducible exact ⟨fun _ hu => hu⟩
    | refine ⟨fun _ _ => ?_⟩

theorem execRingRelease_grows (hd : Hdr) (ring : BitVec 32) (s : State) : GrowsO s (execRingRelease hd ring s) := by
  unfold execRingRelease
  try dsimp only
  try refine GrowsO.next ?_
  repeat' first
    | refine GrowsO.next ?_
    | intro _
    | with_reducible exact of_growsA _ _
    | with_reducible exact ok_growsA _ _
    | with_reducible exact later_growsA _ _
    | with_reducible apply Grows.id
    | with_reducible refine Grows.iteA ?_ ?_
    | with_reducible refine Grows.iteR ?_ ?_
    | with_reducible assumption
    | with_reducible exact Grows.refl _
    | with_reducible apply command_grows
    | with_reducible apply msrcUpdate_grows
    | with_reducible apply ringUse_grows
    | with_reducible apply setRing_grows
    | fail_if_no_progress with_reducible apply Grows.mk'
    | with_reducible refine Grows.ite ?_ ?_
    | with_reducible refine Grows.iteP ?_ ?_
    | split
    | dsimp only
    | with_reducible exact ⟨fun _ hu => hu⟩
    | refine ⟨fun _ _ => ?_⟩

theorem execRingSubscribe_grows (hd : Hdr) (ring : BitVec 32) (flags : BitVec 16) (udp : BitVec 16) (addr : BitVec 128) (s : State) :
    GrowsO s (execRingSubscribe hd ring flags udp addr s) := by
  unfold execRingSubscribe
  try dsimp only
  try refine GrowsO.next ?_
  repeat' first
    | refine GrowsO.next ?_
    | intro _
    | with_reducible exact of_growsA _ _
    | with_reducible exact ok_growsA _ _
    | with_reducible exact later_growsA _ _
    | with_reducible apply Grows.id
    | with_reducible refine Grows.iteA ?_ ?_
    | with_reducible refine Grows.iteR ?_ ?_
    | with_reducible assumption
    | with_reducible exact Grows.refl _
    | with_reducible apply addSub_grows
    | with_reducible apply command_grows
    | with_reducible apply ringUse_grows
    | fail_if_no_progress with_reducible apply Grows.mk'
    | with_reducible refine Grows.ite ?_ ?_
    | with_reducible refine Grows.iteP ?_ ?_
    | split
    | dsimp only
    | with_reducible exact ⟨fun _ hu => hu⟩
    | refine ⟨fun _ _ => ?_⟩

theorem execRingUnsubscribe_grows (hd : Hdr) (sub : BitVec 16) (s : State) :
    GrowsO s (execRingUnsubscribe hd sub s) := by
  unfold execRingUnsubscribe
  try dsimp only
  try refine GrowsO.next ?_
  repeat' first
    | refine GrowsO.next ?_
    | intro _
    | with_reducible exact of_growsA _ _
    | with_reducible exact ok_growsA _ _
    | with_reducible exact later_growsA _ _
    | with_reducible apply Grows.id
    | with_reducible refine Grows.iteA ?_ ?_
    | with_reducible refine Grows.iteR ?_ ?_
    | with_reducible assumption
    | with_reducible exact Grows.refl _
    | with_reducible apply command_grows
    | with_reducible apply dropSub_grows
    | fail_if_no_progress with_reducible apply Grows.mk'
    | with_reducible refine Grows.iteP ?_ ?_
    | split
    | dsimp only
    | with_reducible exact ⟨fun _ hu => hu⟩
    | refine ⟨fun _ _ => ?_⟩

theorem readEntries_grows {s0 : State} (s : State) (id n i : Nat) (h : Grows s0 s) :
    Grows s0 (s.readEntries id n i).1 := by
  induction n generalizing s i with
  | zero => exact h
  | succ n ih =>
    unfold State.readEntries
    dsimp only
    repeat' first
      | intro _
      | with_reducible assumption
      | with_reducible exact Grows.refl _
      | with_reducible apply ih
      | with_reducible apply memRead_grows
      | with_reducible refine Grows.forL _ ?_ ?_
      | with_reducible refine Grows.forN _ ?_ ?_
      | with_reducible refine Grows.foldl _ ?_ ?_
      | with_reducible refine Grows.foldlP _ ?_ ?_
      | fail_if_no_progress with_reducible apply Grows.mk'
      | with_reducible refine Grows.ite ?_ ?_
      | with_reducible refine Grows.iteP ?_ ?_
      | split
      | with_reducible refine Grows.fst (by assumption) ?_
      | dsimp only
      | omega

theorem execRingRead_grows (hd : Hdr) (ring : BitVec 32) (index : BitVec 32) (count : BitVec 16) (s : State) :
    GrowsO s (execRingRead hd ring index count s) := by
  unfold execRingRead
  try dsimp only
  try refine GrowsO.next ?_
  repeat' first
    | refine GrowsO.next ?_
    | intro _
    | with_reducible exact of_growsA _ _
    | with_reducible exact ok_growsA _ _
    | with_reducible exact later_growsA _ _
    | with_reducible apply Grows.id
    | with_reducible refine Grows.iteA ?_ ?_
    | with_reducible refine Grows.iteR ?_ ?_
    | with_reducible assumption
    | with_reducible exact Grows.refl _
    | with_reducible apply command_grows
    | with_reducible apply readEntries_grows
    | with_reducible apply ringUse_grows
    | fail_if_no_progress with_reducible apply Grows.mk'
    | with_reducible refine Grows.ite ?_ ?_
    | with_reducible refine Grows.iteP ?_ ?_
    | split
    | dsimp only
    | with_reducible exact ⟨fun _ hu => hu⟩
    | refine ⟨fun _ _ => ?_⟩

theorem execRingStatus_grows (hd : Hdr) (ring : BitVec 32) (s : State) : GrowsO s (execRingStatus hd ring s) := by
  unfold execRingStatus
  try dsimp only
  try refine GrowsO.next ?_
  repeat' first
    | refine GrowsO.next ?_
    | intro _
    | with_reducible exact of_growsA _ _
    | with_reducible exact ok_growsA _ _
    | with_reducible exact later_growsA _ _
    | with_reducible apply Grows.id
    | with_reducible refine Grows.iteA ?_ ?_
    | with_reducible refine Grows.iteR ?_ ?_
    | with_reducible assumption
    | with_reducible exact Grows.refl _
    | with_reducible apply command_grows
    | with_reducible apply ringUse_grows
    | with_reducible refine Grows.ite ?_ ?_
    | with_reducible refine Grows.iteP ?_ ?_
    | split
    | dsimp only
    | with_reducible exact ⟨fun _ hu => hu⟩
    | refine ⟨fun _ _ => ?_⟩

theorem execRingConsume_grows (hd : Hdr) (ring : BitVec 32) (index : BitVec 32) (s : State) :
    GrowsO s (execRingConsume hd ring index s) := by
  unfold execRingConsume
  try dsimp only
  try refine GrowsO.next ?_
  repeat' first
    | refine GrowsO.next ?_
    | intro _
    | with_reducible exact of_growsA _ _
    | with_reducible exact ok_growsA _ _
    | with_reducible exact later_growsA _ _
    | with_reducible apply Grows.id
    | with_reducible refine Grows.iteA ?_ ?_
    | with_reducible refine Grows.iteR ?_ ?_
    | with_reducible assumption
    | with_reducible exact Grows.refl _
    | with_reducible apply command_grows
    | with_reducible apply grant_grows
    | with_reducible apply ringUse_grows
    | with_reducible apply setRing_grows
    | fail_if_no_progress with_reducible apply Grows.mk'
    | with_reducible refine Grows.ite ?_ ?_
    | with_reducible refine Grows.iteP ?_ ?_
    | split
    | dsimp only
    | with_reducible exact ⟨fun _ hu => hu⟩
    | refine ⟨fun _ _ => ?_⟩

theorem execMemRead_grows (hd : Hdr) (addr : BitVec 64) (len : BitVec 32) (s : State) :
    GrowsO s (execMemRead hd addr len s) := by
  unfold execMemRead
  try dsimp only
  try refine GrowsO.next ?_
  repeat' first
    | refine GrowsO.next ?_
    | intro _
    | with_reducible exact of_growsA _ _
    | with_reducible exact ok_growsA _ _
    | with_reducible exact later_growsA _ _
    | with_reducible apply Grows.id
    | with_reducible refine Grows.iteA ?_ ?_
    | with_reducible refine Grows.iteR ?_ ?_
    | with_reducible assumption
    | with_reducible exact Grows.refl _
    | with_reducible apply command_grows
    | with_reducible apply memRead_grows
    | fail_if_no_progress with_reducible apply Grows.mk'
    | with_reducible refine Grows.ite ?_ ?_
    | with_reducible refine Grows.iteP ?_ ?_
    | split
    | dsimp only
    | with_reducible exact ⟨fun _ hu => hu⟩
    | refine ⟨fun _ _ => ?_⟩

theorem execMemWrite_grows (hd : Hdr) (addr : BitVec 64) (data : List Byte) (s : State) :
    GrowsO s (execMemWrite hd addr data s) := by
  unfold execMemWrite
  try dsimp only
  try refine GrowsO.next ?_
  repeat' first
    | refine GrowsO.next ?_
    | intro _
    | with_reducible exact of_growsA _ _
    | with_reducible exact ok_growsA _ _
    | with_reducible exact later_growsA _ _
    | with_reducible apply Grows.id
    | with_reducible refine Grows.iteA ?_ ?_
    | with_reducible refine Grows.iteR ?_ ?_
    | with_reducible assumption
    | with_reducible exact Grows.refl _
    | with_reducible apply command_grows
    | with_reducible apply memWrite_grows
    | fail_if_no_progress with_reducible apply Grows.mk'
    | with_reducible refine Grows.ite ?_ ?_
    | with_reducible refine Grows.iteP ?_ ?_
    | split
    | dsimp only
    | with_reducible exact ⟨fun _ hu => hu⟩
    | refine ⟨fun _ _ => ?_⟩

theorem execDmaStart_grows (hd : Hdr) (channel : BitVec 8) (desc : BitVec 64) (s : State) :
    GrowsO s (execDmaStart hd channel desc s) := by
  unfold execDmaStart
  try dsimp only
  try refine GrowsO.next ?_
  repeat' first
    | refine GrowsO.next ?_
    | intro _
    | with_reducible exact of_growsA _ _
    | with_reducible exact ok_growsA _ _
    | with_reducible exact later_growsA _ _
    | with_reducible apply Grows.id
    | with_reducible refine Grows.iteA ?_ ?_
    | with_reducible refine Grows.iteR ?_ ?_
    | with_reducible assumption
    | with_reducible exact Grows.refl _
    | with_reducible apply command_grows
    | with_reducible apply dmaStart_grows
    | with_reducible refine Grows.ite ?_ ?_
    | with_reducible refine Grows.iteP ?_ ?_
    | split
    | dsimp only
    | with_reducible exact ⟨fun _ hu => hu⟩
    | refine ⟨fun _ _ => ?_⟩

theorem execDmaAbort_grows (hd : Hdr) (channel : BitVec 8) (s : State) : GrowsO s (execDmaAbort hd channel s) := by
  unfold execDmaAbort
  try dsimp only
  try refine GrowsO.next ?_
  repeat' first
    | refine GrowsO.next ?_
    | intro _
    | with_reducible exact of_growsA _ _
    | with_reducible exact ok_growsA _ _
    | with_reducible exact later_growsA _ _
    | with_reducible apply Grows.id
    | with_reducible refine Grows.iteA ?_ ?_
    | with_reducible refine Grows.iteR ?_ ?_
    | with_reducible assumption
    | with_reducible exact Grows.refl _
    | with_reducible apply command_grows
    | with_reducible apply dmaAbort_grows
    | with_reducible refine Grows.ite ?_ ?_
    | with_reducible refine Grows.iteP ?_ ?_
    | split
    | dsimp only
    | with_reducible exact ⟨fun _ hu => hu⟩
    | refine ⟨fun _ _ => ?_⟩

theorem execDmaStatus_grows (hd : Hdr) (channel : BitVec 8) (s : State) : GrowsO s (execDmaStatus hd channel s) := by
  unfold execDmaStatus
  try dsimp only
  try refine GrowsO.next ?_
  repeat' first
    | refine GrowsO.next ?_
    | intro _
    | with_reducible exact of_growsA _ _
    | with_reducible exact ok_growsA _ _
    | with_reducible exact later_growsA _ _
    | with_reducible apply Grows.id
    | with_reducible refine Grows.iteA ?_ ?_
    | with_reducible refine Grows.iteR ?_ ?_
    | with_reducible assumption
    | with_reducible exact Grows.refl _
    | with_reducible apply command_grows
    | with_reducible refine Grows.ite ?_ ?_
    | with_reducible refine Grows.iteP ?_ ?_
    | split
    | dsimp only
    | with_reducible exact ⟨fun _ hu => hu⟩
    | refine ⟨fun _ _ => ?_⟩

/-! ## UnitCommands -/

theorem calOne_grows {s0 : State} (s : State) (g : Nat) (ch : Nat) (h : Grows s0 s) :
    Grows s0 (State.calOne s g ch) := by
  unfold State.calOne
  try dsimp only
  repeat' first
    | intro _
    | with_reducible assumption
    | with_reducible apply gaugeReq_grows
    | with_reducible refine Grows.iteP ?_ ?_
    | dsimp only

theorem execCalRequest_grows (hd : Hdr) (channel : BitVec 16) (s : State) : GrowsO s (execCalRequest hd channel s) := by
  unfold execCalRequest
  try dsimp only
  try refine GrowsO.next ?_
  repeat' first
    | refine GrowsO.next ?_
    | intro _
    | with_reducible exact of_growsA _ _
    | with_reducible exact ok_growsA _ _
    | with_reducible exact later_growsA _ _
    | with_reducible apply Grows.id
    | with_reducible refine Grows.iteA ?_ ?_
    | with_reducible refine Grows.iteR ?_ ?_
    | with_reducible assumption
    | with_reducible exact Grows.refl _
    | with_reducible apply calOne_grows
    | with_reducible apply command_grows
    | with_reducible refine Grows.forL _ ?_ ?_
    | fail_if_no_progress with_reducible apply Grows.mk'
    | with_reducible refine Grows.ite ?_ ?_
    | with_reducible refine Grows.iteP ?_ ?_
    | split
    | dsimp only
    | with_reducible exact ⟨fun _ hu => hu⟩
    | refine ⟨fun _ _ => ?_⟩

theorem execCalStatus_grows (hd : Hdr) (channel : BitVec 16) (s : State) : GrowsO s (execCalStatus hd channel s) := by
  unfold execCalStatus
  try dsimp only
  try refine GrowsO.next ?_
  repeat' first
    | refine GrowsO.next ?_
    | intro _
    | with_reducible exact of_growsA _ _
    | with_reducible exact ok_growsA _ _
    | with_reducible exact later_growsA _ _
    | with_reducible apply Grows.id
    | with_reducible refine Grows.iteA ?_ ?_
    | with_reducible refine Grows.iteR ?_ ?_
    | with_reducible assumption
    | with_reducible exact Grows.refl _
    | with_reducible apply command_grows
    | with_reducible refine Grows.ite ?_ ?_
    | with_reducible refine Grows.iteP ?_ ?_
    | split
    | dsimp only
    | with_reducible exact ⟨fun _ hu => hu⟩
    | refine ⟨fun _ _ => ?_⟩

theorem execLaneAdapt_grows (hd : Hdr) (lane : BitVec 16) (s : State) : GrowsO s (execLaneAdapt hd lane s) := by
  unfold execLaneAdapt
  try dsimp only
  try refine GrowsO.next ?_
  repeat' first
    | refine GrowsO.next ?_
    | intro _
    | with_reducible exact of_growsA _ _
    | with_reducible exact ok_growsA _ _
    | with_reducible exact later_growsA _ _
    | with_reducible apply Grows.id
    | with_reducible refine Grows.iteA ?_ ?_
    | with_reducible refine Grows.iteR ?_ ?_
    | with_reducible assumption
    | with_reducible exact Grows.refl _
    | with_reducible apply adapted_grows
    | with_reducible apply command_grows
    | with_reducible refine Grows.ite ?_ ?_
    | with_reducible refine Grows.iteP ?_ ?_
    | split
    | dsimp only
    | with_reducible exact ⟨fun _ hu => hu⟩
    | refine ⟨fun _ _ => ?_⟩

theorem execTimeGet_grows (hd : Hdr) (s : State) : GrowsO s (execTimeGet hd s) := by
  unfold execTimeGet
  try dsimp only
  try refine GrowsO.next ?_
  repeat' first
    | refine GrowsO.next ?_
    | intro _
    | with_reducible exact of_growsA _ _
    | with_reducible exact ok_growsA _ _
    | with_reducible exact later_growsA _ _
    | with_reducible apply Grows.id
    | with_reducible refine Grows.iteA ?_ ?_
    | with_reducible refine Grows.iteR ?_ ?_
    | with_reducible assumption
    | with_reducible exact Grows.refl _
    | with_reducible apply command_grows
    | fail_if_no_progress with_reducible apply Grows.mk'
    | with_reducible refine Grows.ite ?_ ?_
    | with_reducible refine Grows.iteP ?_ ?_
    | split
    | dsimp only
    | with_reducible exact ⟨fun _ hu => hu⟩
    | refine ⟨fun _ _ => ?_⟩

theorem execTimeSet_grows (hd : Hdr) (sec : BitVec 64) (ns : BitVec 32) (s : State) :
    GrowsO s (execTimeSet hd sec ns s) := by
  unfold execTimeSet
  try dsimp only
  try refine GrowsO.next ?_
  repeat' first
    | refine GrowsO.next ?_
    | intro _
    | with_reducible exact of_growsA _ _
    | with_reducible exact ok_growsA _ _
    | with_reducible exact later_growsA _ _
    | with_reducible apply Grows.id
    | with_reducible refine Grows.iteA ?_ ?_
    | with_reducible refine Grows.iteR ?_ ?_
    | with_reducible assumption
    | with_reducible exact Grows.refl _
    | with_reducible apply clockStep_grows
    | with_reducible apply command_grows
    | with_reducible refine Grows.ite ?_ ?_
    | with_reducible refine Grows.iteP ?_ ?_
    | split
    | dsimp only
    | with_reducible exact ⟨fun _ hu => hu⟩
    | refine ⟨fun _ _ => ?_⟩

theorem execPtpStatus_grows (hd : Hdr) (s : State) : GrowsO s (execPtpStatus hd s) := by
  unfold execPtpStatus
  try dsimp only
  try refine GrowsO.next ?_
  repeat' first
    | refine GrowsO.next ?_
    | intro _
    | with_reducible exact of_growsA _ _
    | with_reducible exact ok_growsA _ _
    | with_reducible exact later_growsA _ _
    | with_reducible apply Grows.id
    | with_reducible refine Grows.iteA ?_ ?_
    | with_reducible refine Grows.iteR ?_ ?_
    | with_reducible assumption
    | with_reducible exact Grows.refl _
    | with_reducible apply command_grows
    | with_reducible refine Grows.iteP ?_ ?_
    | dsimp only
    | with_reducible exact ⟨fun _ hu => hu⟩
    | refine ⟨fun _ _ => ?_⟩

theorem execPtpPrefer_grows (hd : Hdr) (domain : BitVec 8) (s : State) : GrowsO s (execPtpPrefer hd domain s) := by
  unfold execPtpPrefer
  try dsimp only
  try refine GrowsO.next ?_
  repeat' first
    | refine GrowsO.next ?_
    | intro _
    | with_reducible exact of_growsA _ _
    | with_reducible exact ok_growsA _ _
    | with_reducible exact later_growsA _ _
    | with_reducible apply Grows.id
    | with_reducible refine Grows.iteA ?_ ?_
    | with_reducible refine Grows.iteR ?_ ?_
    | with_reducible assumption
    | with_reducible exact Grows.refl _
    | with_reducible apply command_grows
    | with_reducible apply ptpSelect_grows
    | with_reducible apply setF_grows
    | with_reducible refine Grows.ite ?_ ?_
    | with_reducible refine Grows.iteP ?_ ?_
    | split
    | dsimp only
    | with_reducible exact ⟨fun _ hu => hu⟩
    | refine ⟨fun _ _ => ?_⟩

theorem markUnit_grows {s0 : State} (unit : Nat) (f : State → State × Reply) (t : State)
    (hf : Grows s0 (f t).1) (h : Grows s0 t) : Grows s0 (markUnit unit f t).1 := by
  unfold markUnit
  exact Grows.iteP h (Grows.iteP h hf)

theorem markUnit_growsA {s0 : State} (unit : Nat) (f : State → State × Reply) (t : State)
    (hf : GrowsA s0 (f t).2) : GrowsA s0 (markUnit unit f t).2 := by
  unfold markUnit
  exact Grows.iteA (of_growsA _ _) (Grows.iteA (of_growsA _ _) hf)

theorem execMarkInsert_grows (hd : Hdr) (unit : BitVec 8) (pos : BitVec 64) (id : BitVec 64) (s : State) :
    GrowsO s (execMarkInsert hd unit pos id s) := by
  unfold execMarkInsert
  try dsimp only
  try refine GrowsO.next ?_
  repeat' first
    | refine GrowsO.next ?_
    | intro _
    | with_reducible exact of_growsA _ _
    | with_reducible exact ok_growsA _ _
    | with_reducible exact later_growsA _ _
    | with_reducible apply Grows.id
    | with_reducible refine Grows.iteA ?_ ?_
    | with_reducible refine Grows.iteR ?_ ?_
    | with_reducible apply markUnit_growsA
    | with_reducible assumption
    | with_reducible exact Grows.refl _
    | with_reducible apply cmpInsert_grows
    | with_reducible apply command_grows
    | with_reducible apply markUnit_grows
    | with_reducible refine Grows.iteP ?_ ?_
    | dsimp only
    | with_reducible exact ⟨fun _ hu => hu⟩
    | refine ⟨fun _ _ => ?_⟩

theorem execMarkClear_grows (hd : Hdr) (unit : BitVec 8) (s : State) : GrowsO s (execMarkClear hd unit s) := by
  unfold execMarkClear
  try dsimp only
  try refine GrowsO.next ?_
  repeat' first
    | refine GrowsO.next ?_
    | intro _
    | with_reducible exact of_growsA _ _
    | with_reducible exact ok_growsA _ _
    | with_reducible exact later_growsA _ _
    | with_reducible apply Grows.id
    | with_reducible refine Grows.iteA ?_ ?_
    | with_reducible refine Grows.iteR ?_ ?_
    | with_reducible apply markUnit_growsA
    | with_reducible assumption
    | with_reducible exact Grows.refl _
    | with_reducible apply cmpClear_grows
    | with_reducible apply command_grows
    | with_reducible apply markUnit_grows
    | with_reducible refine Grows.iteP ?_ ?_
    | dsimp only
    | with_reducible exact ⟨fun _ hu => hu⟩
    | refine ⟨fun _ _ => ?_⟩

theorem execMarkHold_grows (hd : Hdr) (hold : BitVec 8) (s : State) : GrowsO s (execMarkHold hd hold s) := by
  unfold execMarkHold
  try dsimp only
  try refine GrowsO.next ?_
  repeat' first
    | refine GrowsO.next ?_
    | intro _
    | with_reducible exact of_growsA _ _
    | with_reducible exact ok_growsA _ _
    | with_reducible exact later_growsA _ _
    | with_reducible apply Grows.id
    | with_reducible refine Grows.iteA ?_ ?_
    | with_reducible refine Grows.iteR ?_ ?_
    | with_reducible apply markUnit_growsA
    | with_reducible assumption
    | with_reducible exact Grows.refl _
    | with_reducible apply command_grows
    | with_reducible apply markHold_grows
    | with_reducible apply markUnit_grows
    | with_reducible refine Grows.ite ?_ ?_
    | with_reducible refine Grows.iteP ?_ ?_
    | split
    | dsimp only
    | with_reducible exact ⟨fun _ hu => hu⟩
    | refine ⟨fun _ _ => ?_⟩

theorem execCassAuth_grows (hd : Hdr) (s : State) : GrowsO s (execCassAuth hd s) := by
  unfold execCassAuth
  try dsimp only
  try refine GrowsO.next ?_
  repeat' first
    | refine GrowsO.next ?_
    | intro _
    | with_reducible exact of_growsA _ _
    | with_reducible exact ok_growsA _ _
    | with_reducible exact later_growsA _ _
    | with_reducible apply Grows.id
    | with_reducible refine Grows.iteA ?_ ?_
    | with_reducible refine Grows.iteR ?_ ?_
    | with_reducible apply markUnit_growsA
    | with_reducible assumption
    | with_reducible exact Grows.refl _
    | with_reducible apply authenticate_grows
    | with_reducible apply command_grows
    | with_reducible apply markUnit_grows
    | with_reducible refine Grows.iteP ?_ ?_
    | dsimp only
    | with_reducible exact ⟨fun _ hu => hu⟩
    | refine ⟨fun _ _ => ?_⟩

theorem execTagStatus_grows (hd : Hdr) (s : State) : GrowsO s (execTagStatus hd s) := by
  unfold execTagStatus
  try dsimp only
  try refine GrowsO.next ?_
  repeat' first
    | refine GrowsO.next ?_
    | intro _
    | with_reducible exact of_growsA _ _
    | with_reducible exact ok_growsA _ _
    | with_reducible exact later_growsA _ _
    | with_reducible apply Grows.id
    | with_reducible refine Grows.iteA ?_ ?_
    | with_reducible refine Grows.iteR ?_ ?_
    | with_reducible apply markUnit_growsA
    | with_reducible assumption
    | with_reducible exact Grows.refl _
    | with_reducible apply command_grows
    | with_reducible apply markUnit_grows
    | with_reducible refine Grows.iteP ?_ ?_
    | dsimp only
    | with_reducible exact ⟨fun _ hu => hu⟩
    | refine ⟨fun _ _ => ?_⟩

theorem execCaptureFreeze_grows (hd : Hdr) (s : State) : GrowsO s (execCaptureFreeze hd s) := by
  unfold execCaptureFreeze
  try dsimp only
  try refine GrowsO.next ?_
  repeat' first
    | refine GrowsO.next ?_
    | intro _
    | with_reducible exact of_growsA _ _
    | with_reducible exact ok_growsA _ _
    | with_reducible exact later_growsA _ _
    | with_reducible apply Grows.id
    | with_reducible refine Grows.iteA ?_ ?_
    | with_reducible refine Grows.iteR ?_ ?_
    | with_reducible assumption
    | with_reducible exact Grows.refl _
    | with_reducible apply command_grows
    | with_reducible apply freezeTrigger_grows
    | with_reducible refine Grows.ite ?_ ?_
    | with_reducible refine Grows.iteP ?_ ?_
    | split
    | dsimp only
    | with_reducible exact ⟨fun _ hu => hu⟩
    | refine ⟨fun _ _ => ?_⟩

theorem execCaptureRearm_grows (hd : Hdr) (s : State) : GrowsO s (execCaptureRearm hd s) := by
  unfold execCaptureRearm
  try dsimp only
  try refine GrowsO.next ?_
  repeat' first
    | refine GrowsO.next ?_
    | intro _
    | with_reducible exact of_growsA _ _
    | with_reducible exact ok_growsA _ _
    | with_reducible exact later_growsA _ _
    | with_reducible apply Grows.id
    | with_reducible refine Grows.iteA ?_ ?_
    | with_reducible refine Grows.iteR ?_ ?_
    | with_reducible assumption
    | with_reducible exact Grows.refl _
    | with_reducible apply command_grows
    | with_reducible apply rearm_grows
    | with_reducible refine Grows.ite ?_ ?_
    | with_reducible refine Grows.iteP ?_ ?_
    | split
    | dsimp only
    | with_reducible exact ⟨fun _ hu => hu⟩
    | refine ⟨fun _ _ => ?_⟩

theorem readLog_grows {s0 : State} (s : State) (n i : Nat) (h : Grows s0 s) : Grows s0 (s.readLog n i).1 := by
  induction n generalizing s i with
  | zero => exact h
  | succ n ih =>
    unfold State.readLog
    dsimp only
    repeat' first
      | intro _
      | with_reducible assumption
      | with_reducible exact Grows.refl _
      | with_reducible apply ih
      | with_reducible apply memRead_grows
      | with_reducible refine Grows.forL _ ?_ ?_
      | with_reducible refine Grows.forN _ ?_ ?_
      | with_reducible refine Grows.foldl _ ?_ ?_
      | with_reducible refine Grows.foldlP _ ?_ ?_
      | fail_if_no_progress with_reducible apply Grows.mk'
      | with_reducible refine Grows.ite ?_ ?_
      | with_reducible refine Grows.iteP ?_ ?_
      | split
      | with_reducible refine Grows.fst (by assumption) ?_
      | dsimp only
      | omega

theorem logFrom_grows {s0 : State} (s : State) (hd : Hdr) (i count old nxt : Nat) (h : Grows s0 s) :
    Grows s0 (s.logFrom hd i count old nxt).1 := by
  unfold State.logFrom
  refine Grows.iteP h (Grows.iteP h ?_)
  have hr := readLog_grows s (min count (diff32 nxt i)) i h
  dsimp only
  split <;> exact hr

theorem logFrom_growsA {s0 : State} (s : State) (hd : Hdr) (i count old nxt : Nat) :
    GrowsA s0 (s.logFrom hd i count old nxt).2 := by
  unfold State.logFrom
  refine Grows.iteA (of_growsA _ _) (Grows.iteA (of_growsA _ _) ?_)
  dsimp only
  split
  · exact ok_growsA _ _
  · exact of_growsA _ _
  · exact of_growsA _ _

theorem logRead_grows {s0 : State} (hd : Hdr) (i count : Nat) (t : State) (h : Grows s0 t) :
    Grows s0 (logRead hd i count t).1 := by
  rw [logRead]
  exact logFrom_grows _ _ _ _ _ _ h

theorem logRead_growsA {s0 : State} (hd : Hdr) (i count : Nat) (t : State) : GrowsA s0 (logRead hd i count t).2 := by
  rw [logRead]
  exact logFrom_growsA _ _ _ _ _ _

theorem execLogRead_grows (hd : Hdr) (index : BitVec 32) (count : BitVec 16) (s : State) :
    GrowsO s (execLogRead hd index count s) :=
  GrowsO.next (command_grows s hd 0x0A00 0 (logRead hd index.toNat count.toNat) (fun t ht => logRead_grows _ _ _ t ht)
    (fun t => logRead_growsA _ _ _ t) (Grows.refl s))

theorem execLogClear_grows (hd : Hdr) (s : State) : GrowsO s (execLogClear hd s) := by
  unfold execLogClear
  try dsimp only
  try refine GrowsO.next ?_
  repeat' first
    | refine GrowsO.next ?_
    | intro _
    | with_reducible exact of_growsA _ _
    | with_reducible exact ok_growsA _ _
    | with_reducible exact later_growsA _ _
    | with_reducible apply Grows.id
    | with_reducible refine Grows.iteA ?_ ?_
    | with_reducible refine Grows.iteR ?_ ?_
    | with_reducible assumption
    | with_reducible exact Grows.refl _
    | with_reducible apply command_grows
    | with_reducible apply setF_grows
    | with_reducible refine Grows.iteP ?_ ?_
    | dsimp only
    | with_reducible exact ⟨fun _ hu => hu⟩
    | refine ⟨fun _ _ => ?_⟩

theorem execSelftest_grows (hd : Hdr) (cls : BitVec 8) (index : BitVec 16) (s : State) :
    GrowsO s (execSelftest hd cls index s) := by
  unfold execSelftest
  try dsimp only
  try refine GrowsO.next ?_
  repeat' first
    | refine GrowsO.next ?_
    | intro _
    | with_reducible exact of_growsA _ _
    | with_reducible exact ok_growsA _ _
    | with_reducible exact later_growsA _ _
    | with_reducible apply Grows.id
    | with_reducible refine Grows.iteA ?_ ?_
    | with_reducible refine Grows.iteR ?_ ?_
    | with_reducible assumption
    | with_reducible exact Grows.refl _
    | with_reducible apply command_grows
    | with_reducible apply logAs_grows
    | with_reducible apply tickFree_grows
    | with_reducible refine Grows.ite ?_ ?_
    | with_reducible refine Grows.iteP ?_ ?_
    | split
    | dsimp only
    | with_reducible exact ⟨fun _ hu => hu⟩
    | refine ⟨fun _ _ => ?_⟩

theorem spareFails_grows {s0 : State} (s : State) (r : Nat) (h : Grows s0 s) : Grows s0 (State.spareFails s r) := by
  unfold State.spareFails
  try dsimp only
  repeat' first
    | with_reducible assumption
    | with_reducible apply channelFails_grows
    | with_reducible apply logReg_grows
    | with_reducible apply setF_grows
    | with_reducible refine Grows.ite ?_ ?_
    | split
    | dsimp only

theorem inject_grows {s0 : State} (s : State) (cls : Nat) (i : Nat) (h : Grows s0 s) :
    Grows s0 (State.inject s cls i) := by
  unfold State.inject
  try dsimp only
  repeat' first
    | with_reducible assumption
    | with_reducible apply channelFails_grows
    | with_reducible apply coreFault_grows
    | with_reducible apply engineFails_grows
    | with_reducible apply laneRemove_grows
    | with_reducible apply linkFall_grows
    | with_reducible apply memFail_grows
    | with_reducible apply spareFails_grows
    | with_reducible refine Grows.ite ?_ ?_
    | split
    | dsimp only

theorem execFaultInject_grows (hd : Hdr) (cls : BitVec 8) (index : BitVec 16) (s : State) :
    GrowsO s (execFaultInject hd cls index s) := by
  unfold execFaultInject
  try dsimp only
  try refine GrowsO.next ?_
  repeat' first
    | refine GrowsO.next ?_
    | intro _
    | with_reducible exact of_growsA _ _
    | with_reducible exact ok_growsA _ _
    | with_reducible exact later_growsA _ _
    | with_reducible apply Grows.id
    | with_reducible refine Grows.iteA ?_ ?_
    | with_reducible refine Grows.iteR ?_ ?_
    | with_reducible assumption
    | with_reducible exact Grows.refl _
    | with_reducible apply command_grows
    | with_reducible apply inject_grows
    | with_reducible refine Grows.ite ?_ ?_
    | with_reducible refine Grows.iteP ?_ ?_
    | split
    | dsimp only
    | with_reducible exact ⟨fun _ hu => hu⟩
    | refine ⟨fun _ _ => ?_⟩

end Sys2Proof.Machine
end

