-- ==== Sys2Proof/Laws/GrowsReplay.lean ====
section
/-!
SUPPORT. What every operation keeps (Laws/Grows.lean), shown of replay, the clock, re-run, power commands and received frames: one lemma per
operation of the model, named after it.
-/

set_option linter.unusedTactic false
set_option linter.unreachableTactic false
set_option maxRecDepth 4000

namespace Sys2Proof.Machine

/-! ## Replay -/

theorem execReplayArm_grows (s : State) : GrowsO s (execReplayArm s) := by
  unfold execReplayArm
  try dsimp only
  try refine GrowsO.next ?_
  repeat' first
    | refine GrowsO.next ?_
    | with_reducible assumption
    | with_reducible exact Grows.refl _
    | with_reducible apply armReplay_grows
    | with_reducible refine Grows.ite ?_ ?_
    | split
    | dsimp only

theorem execReplayDisarm_grows (s : State) : GrowsO s (execReplayDisarm s) := by
  unfold execReplayDisarm
  try dsimp only
  try refine GrowsO.next ?_
  repeat' first
    | refine GrowsO.next ?_
    | with_reducible assumption
    | with_reducible exact Grows.refl _
    | with_reducible apply disarmReplay_grows
    | with_reducible refine Grows.ite ?_ ?_
    | split
    | dsimp only

theorem execFreezeInstant_grows (s : State) : GrowsO s (execFreezeInstant s) := by
  unfold execFreezeInstant
  try dsimp only
  try refine GrowsO.next ?_
  repeat' first
    | refine GrowsO.next ?_
    | with_reducible assumption
    | with_reducible exact Grows.refl _
    | with_reducible apply freezeDue_grows
    | dsimp only

theorem itemsRead_grows {s0 : State} (s : State)  (l : List RepItem) (h : Grows s0 s) : Grows s0 (s.itemsRead l).1 := by
  induction l generalizing s with
  | nil => exact h
  | cons x l ih => exact ih _ (streamRead_grows _ _ _ _ _ h)

theorem setBytes_grows {s0 : State} (s : State) (a : Nat) (h : Grows s0 s) : Grows s0 (State.setBytes s a).1 := by
  unfold State.setBytes
  try dsimp only
  repeat' first
    | intro _
    | with_reducible assumption
    | with_reducible exact Grows.refl _
    | with_reducible apply readFree_grows
    | with_reducible refine Grows.forL _ ?_ ?_
    | with_reducible refine Grows.forN _ ?_ ?_
    | with_reducible refine Grows.foldl _ ?_ ?_
    | with_reducible refine Grows.foldlP _ ?_ ?_
    | fail_if_no_progress with_reducible apply Grows.mk'
    | with_reducible refine Grows.ite ?_ ?_
    | with_reducible refine Grows.iteP ?_ ?_
    | split
    | with_reducible refine Grows.fst (by assumption) ?_
    | dsimp only
    | omega

theorem clsBytes_grows {s0 : State} (s : State) (a : Nat) (h : Grows s0 s) : Grows s0 (State.clsBytes s a).1 := by
  unfold State.clsBytes
  try dsimp only
  repeat' first
    | intro _
    | with_reducible assumption
    | with_reducible exact Grows.refl _
    | with_reducible apply readFree_grows
    | with_reducible refine Grows.forL _ ?_ ?_
    | with_reducible refine Grows.forN _ ?_ ?_
    | with_reducible refine Grows.foldl _ ?_ ?_
    | with_reducible refine Grows.foldlP _ ?_ ?_
    | fail_if_no_progress with_reducible apply Grows.mk'
    | with_reducible refine Grows.ite ?_ ?_
    | with_reducible refine Grows.iteP ?_ ?_
    | split
    | with_reducible refine Grows.fst (by assumption) ?_
    | dsimp only
    | omega

theorem capSects_grows {s0 : State} (s : State) (g k0 kf : Nat) (l : List Nat) (h : Grows s0 s) :
    Grows s0 (s.capSects g k0 kf l).1 := by
  induction l generalizing s with
  | nil => exact h
  | cons x l ih => exact ih _ (itemsRead_grows _ _ h)

theorem slotSects_grows {s0 : State} (s : State) (g : Nat) (l : List (Nat × Nat)) (h : Grows s0 s) :
    Grows s0 (s.slotSects g l).1 := by
  induction l generalizing s with
  | nil => exact h
  | cons x l ih => exact ih _ (clsBytes_grows _ _ h)

theorem setSects_grows {s0 : State} (s : State) (g : Nat) (l : List (Nat × Nat × Nat)) (h : Grows s0 s) :
    Grows s0 (s.setSects g l).1 := by
  induction l generalizing s with
  | nil => exact h
  | cons x l ih => exact ih _ (setBytes_grows _ _ h)

theorem groupSects_grows {s0 : State} (s : State) (g : Nat) (k0 : Nat) (kf : Nat) (h : Grows s0 s) :
    Grows s0 (State.groupSects s g k0 kf).1 := by
  unfold State.groupSects
  try dsimp only
  repeat' first
    | intro _
    | with_reducible assumption
    | with_reducible apply capSects_grows
    | with_reducible apply itemsRead_grows
    | with_reducible apply setSects_grows
    | with_reducible apply slotSects_grows
    | fail_if_no_progress with_reducible apply Grows.mk'
    | with_reducible refine Grows.iteP ?_ ?_
    | split
    | dsimp only

theorem sectsOf_grows {s0 : State} (s : State)  (l : List (Nat × Nat × Nat)) (h : Grows s0 s) :
    Grows s0 (s.sectsOf l).1 := by
  induction l generalizing s with
  | nil => exact h
  | cons x l ih => exact ih _ (groupSects_grows _ _ _ _ h)

theorem bundle_grows {s0 : State} (s : State) (h : Grows s0 s) : Grows s0 (State.bundle s).1 := by
  unfold State.bundle
  try dsimp only
  repeat' first
    | intro _
    | with_reducible assumption
    | with_reducible apply itemsRead_grows
    | with_reducible apply sectsOf_grows
    | with_reducible refine Grows.iteP ?_ ?_
    | dsimp only

theorem pump_grows {s0 : State} (s : State) (n : Nat) (h : Grows s0 s) : Grows s0 (s.pump n) := by
  induction n generalizing s with
  | zero => exact h
  | succ n ih =>
    unfold State.pump
    dsimp only
    repeat' first
      | intro _
      | with_reducible assumption
      | with_reducible exact Grows.refl _
      | with_reducible apply ih
      | with_reducible apply ringStarve_grows
      | with_reducible apply ringWrite_grows
      | with_reducible refine Grows.forL _ ?_ ?_
      | with_reducible refine Grows.forN _ ?_ ?_
      | with_reducible refine Grows.foldl _ ?_ ?_
      | with_reducible refine Grows.foldlP _ ?_ ?_
      | fail_if_no_progress with_reducible apply Grows.mk'
      | with_reducible refine Grows.ite ?_ ?_
      | with_reducible refine Grows.iteP ?_ ?_
      | split
      | with_reducible refine Grows.fst (by assumption) ?_
      | dsimp only
      | omega

theorem pumpAll_grows {s0 : State} (s : State) (h : Grows s0 s) : Grows s0 (State.pumpAll s) := by
  unfold State.pumpAll
  try dsimp only
  repeat' first
    | with_reducible assumption
    | with_reducible apply pump_grows
    | dsimp only

theorem exportGo_grows {s0 : State} (s : State) (h : Grows s0 s) : Grows s0 (State.exportGo s) := by
  unfold State.exportGo
  try dsimp only
  repeat' first
    | with_reducible assumption
    | with_reducible apply pumpAll_grows
    | with_reducible refine Grows.ite ?_ ?_
    | split
    | dsimp only

theorem execBundleExport_grows (hd : Hdr) (ring : BitVec 32) (s : State) : GrowsO s (execBundleExport hd ring s) := by
  unfold execBundleExport
  try dsimp only
  try refine GrowsO.next ?_
  repeat' first
    | refine GrowsO.next ?_
    | intro _
    | with_reducible exact of_growsA _ _
    | with_reducible exact ok_growsA _ _
    | with_reducible exact later_growsA _ _
    | with_reducible apply Grows.id
    | with_reducible refine Grows.iteA ?_ ?_
    | with_reducible refine Grows.iteR ?_ ?_
    | with_reducible assumption
    | with_reducible exact Grows.refl _
    | with_reducible apply bind_grows
    | with_reducible apply bundle_grows
    | with_reducible apply command_grows
    | with_reducible apply jrnFlush_grows
    | with_reducible apply pumpAll_grows
    | with_reducible apply setF_grows
    | fail_if_no_progress with_reducible apply Grows.mk'
    | with_reducible refine Grows.ite ?_ ?_
    | with_reducible refine Grows.iteP ?_ ?_
    | split
    | dsimp only
    | with_reducible exact ⟨fun _ hu => hu⟩
    | refine ⟨fun _ _ => ?_⟩

theorem execExportEnd_grows (s : State) : GrowsO s (execExportEnd s) := by
  unfold execExportEnd
  try dsimp only
  try refine GrowsO.next ?_
  repeat' first
    | refine GrowsO.next ?_
    | with_reducible assumption
    | with_reducible exact Grows.refl _
    | with_reducible apply mark_grows
    | with_reducible apply pumpAll_grows
    | with_reducible apply setF_grows
    | with_reducible apply unbind_grows
    | with_reducible refine Grows.ite ?_ ?_
    | split
    | dsimp only

/-! ## Clock -/

/-- A cycle of PSCLK moves the clock and keeps the rest. -/
theorem clockTick_grows (s : State) : Grows { s with now := s.now + 1 } s.clockTick := by
  unfold State.clockTick
  dsimp only
  have h1 := Grows.ite (c := s.timeRuns = true) (timeTick_grows _ (timeTick_grows _ (Grows.refl { s with now := s.now + 1 })))
    (Grows.refl _)
  exact pnlFlush_grows _ (transmit_grows _ (exportGo_grows _ (hkRetry_grows _ (syncExpire_grows _
    (Grows.ite (Grows.forL _ (fun _ _ ht => divideOnce_grows _ _ ht) h1) h1)))))

/-! ## Rerun -/

/-- A bank loaded from a checkpoint is in order where the bank was. -/
theorem rising_loadBank (g : Nat) (chs : List Nat) (img bank : List (Nat × Nat)) (h : Tab.rising bank = true) :
    Tab.rising (loadBank g chs img bank) = true := rising_putAll _ _ (Tab.rising_filter _ h)

theorem readSects_grows {s0 : State} (s : State) (a : Nat) (l : List (List Byte)) (h : Grows s0 s) :
    Grows s0 (s.readSects a l).1 := by
  induction l generalizing s with
  | nil => exact h
  | cons x l ih =>
    unfold State.readSects
    dsimp only
    repeat' first
      | intro _
      | with_reducible assumption
      | with_reducible exact Grows.refl _
      | with_reducible apply ih
      | with_reducible apply memRead_grows
      | with_reducible refine Grows.forL _ ?_ ?_
      | with_reducible refine Grows.forN _ ?_ ?_
      | with_reducible refine Grows.foldl _ ?_ ?_
      | with_reducible refine Grows.foldlP _ ?_ ?_
      | fail_if_no_progress with_reducible apply Grows.mk'
      | with_reducible refine Grows.ite ?_ ?_
      | with_reducible refine Grows.iteP ?_ ?_
      | split
      | with_reducible refine Grows.fst (by assumption) ?_
      | dsimp only
      | omega

theorem readBundle_grows {s0 : State} (s : State) (a : Nat) (h : Grows s0 s) : Grows s0 (State.readBundle s a).1 := by
  unfold State.readBundle
  try dsimp only
  repeat' first
    | intro _
    | with_reducible assumption
    | with_reducible apply memRead_grows
    | with_reducible apply readSects_grows
    | fail_if_no_progress with_reducible apply Grows.mk'
    | with_reducible refine Grows.ite ?_ ?_
    | with_reducible refine Grows.iteP ?_ ?_
    | split
    | dsimp only

theorem execRerunStart_grows (hd : Hdr) (addr : BitVec 64) (s : State) : GrowsO s (execRerunStart hd addr s) := by
  unfold execRerunStart
  try dsimp only
  try refine GrowsO.next ?_
  repeat' first
    | refine GrowsO.next ?_
    | intro _
    | with_reducible exact of_growsA _ _
    | with_reducible exact ok_growsA _ _
    | with_reducible exact later_growsA _ _
    | with_reducible apply Grows.id
    | with_reducible refine Grows.iteA ?_ ?_
    | with_reducible refine Grows.iteR ?_ ?_
    | with_reducible assumption
    | with_reducible exact Grows.refl _
    | with_reducible apply command_grows
    | with_reducible apply markQuiet_grows
    | with_reducible apply readBundle_grows
    | with_reducible apply setF_grows
    | fail_if_no_progress with_reducible apply Grows.mk'
    | with_reducible refine Grows.ite ?_ ?_
    | with_reducible refine Grows.iteP ?_ ?_
    | split
    | dsimp only
    | with_reducible exact ⟨fun _ hu => hu⟩
    | refine ⟨fun _ _ => ?_⟩

theorem execRerunStatus_grows (hd : Hdr) (s : State) : GrowsO s (execRerunStatus hd s) := by
  unfold execRerunStatus
  try dsimp only
  try refine GrowsO.next ?_
  repeat' first
    | refine GrowsO.next ?_
    | intro _
    | with_reducible exact of_growsA _ _
    | with_reducible exact ok_growsA _ _
    | with_reducible exact later_growsA _ _
    | with_reducible apply Grows.id
    | with_reducible refine Grows.iteA ?_ ?_
    | with_reducible refine Grows.iteR ?_ ?_
    | with_reducible assumption
    | with_reducible exact Grows.refl _
    | with_reducible apply command_grows
    | with_reducible refine Grows.ite ?_ ?_
    | with_reducible refine Grows.iteP ?_ ?_
    | split
    | dsimp only
    | with_reducible exact ⟨fun _ hu => hu⟩
    | refine ⟨fun _ _ => ?_⟩

theorem saveFields_grows {s0 : State} (s : State) (l : List (Nat × Fld)) (h : Grows s0 s) :
    Grows s0 (State.saveFields s l) := by
  unfold State.saveFields
  try dsimp only
  repeat' first
    | intro _
    | with_reducible assumption
    | fail_if_no_progress with_reducible apply Grows.mk'
    | with_reducible refine Grows.iteP ?_ ?_
    | dsimp only

theorem place_grows {s0 : State} (s : State) (ok : Bool) (a : Nat) (bs : List Byte) (h : Grows s0 s) :
    Grows s0 (State.place s ok a bs).1 := by
  unfold State.place
  try dsimp only
  repeat' first
    | with_reducible assumption
    | with_reducible apply memWrite_grows
    | with_reducible refine Grows.iteP ?_ ?_
    | dsimp only

theorem placeSects_grows {s0 : State} (s : State) (ok : Bool) (g : Nat) (sets : List (Nat × Nat × Nat)) (a : Nat)
    (l : List BSect) (h : Grows s0 s) : Grows s0 (s.placeSects ok g sets a l).1 := by
  induction l generalizing s ok sets a with
  | nil => exact h
  | cons x l ih =>
    unfold State.placeSects
    dsimp only
    repeat' first
      | intro _
      | with_reducible assumption
      | with_reducible exact Grows.refl _
      | with_reducible apply ih
      | with_reducible apply place_grows
      | with_reducible apply setF_grows
      | with_reducible apply setSh_grows
      | with_reducible refine Grows.forL _ ?_ ?_
      | with_reducible refine Grows.forN _ ?_ ?_
      | with_reducible refine Grows.foldl _ ?_ ?_
      | with_reducible refine Grows.foldlP _ ?_ ?_
      | fail_if_no_progress with_reducible apply Grows.mk'
      | with_reducible refine Grows.ite ?_ ?_
      | with_reducible refine Grows.iteP ?_ ?_
      | split
      | with_reducible refine Grows.fst (by assumption) ?_
      | dsimp only
      | omega

theorem loadImage_grows {s0 : State} (s : State) (b : Bundle) (im : GroupImage) (g k0 a : Nat) (h : Grows s0 s) :
    Grows s0 (s.loadImage b im g k0 a).1 := by
  unfold State.loadImage
  dsimp only
  repeat' first
    | intro _
    | with_reducible assumption
    | with_reducible exact Grows.refl _
    | fail_if_no_progress with_reducible refine Grows.mkC ?_ (rising_loadBank _ _ _ _) id id
    | fail_if_no_progress with_reducible refine Grows.mkC ?_ (rising_loadBank _ _ _ _) (rising_loadBank _ _ _ _) (rising_loadBank _ _ _ _)
    | with_reducible apply place_grows
    | with_reducible apply saveFields_grows
    | with_reducible apply setCh_grows
    | with_reducible apply setF_grows
    | with_reducible apply setG_grows
    | with_reducible apply setLane_grows
    | with_reducible apply setSg_grows
    | with_reducible apply setSmG_grows
    | with_reducible apply setSm_grows
    | with_reducible apply setTg_grows
    | with_reducible refine Grows.forL _ ?_ ?_
    | with_reducible refine Grows.forN _ ?_ ?_
    | with_reducible refine Grows.foldl _ ?_ ?_
    | with_reducible refine Grows.foldlP _ ?_ ?_
    | fail_if_no_progress with_reducible apply Grows.mk'
    | with_reducible refine Grows.ite ?_ ?_
    | with_reducible refine Grows.iteP ?_ ?_
    | split
    | with_reducible refine Grows.fst (by assumption) ?_
    | dsimp only
    | omega

theorem rerunRings_grows {s0 : State} (s : State) (g : Nat) (h : Grows s0 s) : Grows s0 (State.rerunRings s g) := by
  unfold State.rerunRings
  try dsimp only
  repeat' first
    | intro _
    | with_reducible assumption
    | with_reducible apply bind_grows
    | with_reducible apply setF_grows
    | with_reducible apply subBlock_grows
    | with_reducible refine Grows.forL _ ?_ ?_
    | with_reducible refine Grows.ite ?_ ?_
    | with_reducible refine Grows.iteP ?_ ?_
    | split
    | dsimp only

theorem rerunLive_grows {s0 : State} (s : State) (g : Nat) (r : JRec) (h : Grows s0 s) :
    Grows s0 (State.rerunLive s g r) := by
  unfold State.rerunLive
  try dsimp only
  repeat' first
    | intro _
    | with_reducible assumption
    | with_reducible apply applyAll_grows
    | with_reducible refine Grows.ite ?_ ?_
    | with_reducible refine Grows.iteP ?_ ?_
    | split
    | dsimp only

theorem feed_grows {s0 : State} (s : State) (g : Nat) (ch : Nat) (i : CapItem) (h : Grows s0 s) :
    Grows s0 (State.feed s g ch i) := by
  unfold State.feed
  try dsimp only
  repeat' first
    | intro _
    | with_reducible assumption
    | with_reducible apply acceptLine_grows
    | with_reducible apply declareMissing_grows
    | with_reducible apply hkUnpack_grows
    | fail_if_no_progress with_reducible apply Grows.mk'
    | with_reducible refine Grows.ite ?_ ?_
    | with_reducible refine Grows.iteP ?_ ?_
    | split
    | dsimp only

theorem loadGroup_grows {s0 : State} (s : State) (b : Bundle) (w : Nat × Nat × Nat) (a : Nat) (h : Grows s0 s) :
    Grows s0 (State.loadGroup s b w a).1 := by
  unfold State.loadGroup
  try dsimp only
  repeat' first
    | intro _
    | with_reducible assumption
    | with_reducible apply consumeOne_grows
    | with_reducible apply feed_grows
    | with_reducible apply loadImage_grows
    | with_reducible apply placeSects_grows
    | with_reducible apply rerunLive_grows
    | with_reducible apply rerunRings_grows
    | with_reducible apply saveFields_grows
    | with_reducible refine Grows.forL _ ?_ ?_
    | fail_if_no_progress with_reducible apply Grows.mk'
    | with_reducible refine Grows.ite ?_ ?_
    | with_reducible refine Grows.iteP ?_ ?_
    | split
    | dsimp only

theorem loadGroups_grows {s0 : State} (s : State) (b : Bundle) (a : Nat) (l : List (Nat × Nat × Nat)) (h : Grows s0 s) :
    Grows s0 (s.loadGroups b a l).1 := by
  induction l generalizing s a with
  | nil => exact h
  | cons x l ih =>
    unfold State.loadGroups
    dsimp only
    repeat' first
      | intro _
      | with_reducible assumption
      | with_reducible exact Grows.refl _
      | with_reducible apply ih
      | with_reducible apply loadGroup_grows
      | with_reducible refine Grows.forL _ ?_ ?_
      | with_reducible refine Grows.forN _ ?_ ?_
      | with_reducible refine Grows.foldl _ ?_ ?_
      | with_reducible refine Grows.foldlP _ ?_ ?_
      | fail_if_no_progress with_reducible apply Grows.mk'
      | with_reducible refine Grows.ite ?_ ?_
      | with_reducible refine Grows.iteP ?_ ?_
      | split
      | with_reducible refine Grows.fst (by assumption) ?_
      | dsimp only
      | omega

theorem rerunEnd_grows {s0 : State} (s : State) (h : Grows s0 s) : Grows s0 s.rerunEnd := by
  unfold State.rerunEnd
  refine Grows.ite h ?_
  have h1 : Grows s0 { s with regs := putAll s.rep.rrSaved s.regs } :=
    h.updC rfl rfl rfl rfl rfl id id (rising_putAll _ _) id id
  have h2 := fun l => Grows.forL (f := fun (e : Nat × Chan) t => t.setCh e.1 e.2) l
    (fun _ _ ht => setCh_grows _ _ _ ht) h1
  dsimp only
  refine Grows.ite (setF_grows _ _ _ (mark_grows _ _ _ ?_)) (mark_grows _ _ _ ?_) <;>
    exact (h2 _).upd rfl rfl rfl rfl rfl rfl rfl rfl rfl rfl

theorem rerunStop_grows {s0 : State} (s : State) (h : Grows s0 s) : Grows s0 (State.rerunStop s) := by
  unfold State.rerunStop
  try dsimp only
  repeat' first
    | intro _
    | with_reducible assumption
    | with_reducible apply groupStop_grows
    | with_reducible apply rerunEnd_grows
    | with_reducible apply setF_grows
    | with_reducible refine Grows.forL _ ?_ ?_
    | fail_if_no_progress with_reducible apply Grows.mk'
    | with_reducible refine Grows.ite ?_ ?_
    | with_reducible refine Grows.iteP ?_ ?_
    | split
    | dsimp only

theorem execRerunLoaded_grows (s : State) : GrowsO s (execRerunLoaded s) := by
  unfold execRerunLoaded
  try dsimp only
  try refine GrowsO.next ?_
  repeat' first
    | refine GrowsO.next ?_
    | intro _
    | with_reducible assumption
    | with_reducible exact Grows.refl _
    | with_reducible apply idleEnd_grows
    | with_reducible apply loadGroups_grows
    | with_reducible apply readBundle_grows
    | with_reducible apply rerunStop_grows
    | with_reducible apply setF_grows
    | fail_if_no_progress with_reducible apply Grows.mk'
    | with_reducible refine Grows.ite ?_ ?_
    | with_reducible refine Grows.iteP ?_ ?_
    | split
    | dsimp only

theorem rerunShadow_grows {s0 : State} (s : State) (g : Nat) (r : JRec) (h : Grows s0 s) :
    Grows s0 (s.rerunShadow g r) := by
  unfold State.rerunShadow
  dsimp only
  exact Grows.ite (Grows.forL _ (fun _ _ ht => ht.updC rfl rfl rfl rfl rfl id id id id Tab.rising_put) h) h

theorem rerunSwap_grows {s0 : State} (s : State) (g : Nat) (c : Nat) (h : Grows s0 s) :
    Grows s0 (State.rerunSwap s g c) := by
  unfold State.rerunSwap
  try dsimp only
  repeat' first
    | intro _
    | with_reducible assumption
    | with_reducible apply flip_grows
    | with_reducible apply keepBank_grows
    | with_reducible apply setF_grows
    | with_reducible apply setI_grows
    | fail_if_no_progress with_reducible apply Grows.mk'
    | dsimp only

theorem rerunBanks_grows {s0 : State} (s : State) (recs : List JRec) (g : Nat) (k0 : Nat) (c : Nat) (h : Grows s0 s) :
    Grows s0 (State.rerunBanks s recs g k0 c) := by
  unfold State.rerunBanks
  try dsimp only
  repeat' first
    | intro _
    | with_reducible assumption
    | with_reducible exact Grows.refl _
    | with_reducible apply copyEnd_grows
    | with_reducible apply rerunShadow_grows
    | with_reducible apply rerunSwap_grows
    | with_reducible refine Grows.forL _ ?_ ?_
    | with_reducible refine Grows.forN _ ?_ ?_
    | with_reducible refine Grows.foldl _ ?_ ?_
    | with_reducible refine Grows.foldlP _ ?_ ?_
    | fail_if_no_progress with_reducible apply Grows.mk'
    | with_reducible refine Grows.ite ?_ ?_
    | with_reducible refine Grows.iteP ?_ ?_
    | split
    | with_reducible refine Grows.fst (by assumption) ?_
    | dsimp only
    | omega

theorem rerunGauge_grows {s0 : State} (s : State) (g : Nat) (r : JRec) (h : Grows s0 s) :
    Grows s0 (State.rerunGauge s g r).1 := by
  unfold State.rerunGauge
  try dsimp only
  repeat' first
    | with_reducible assumption
    | with_reducible apply calRecord_grows
    | with_reducible apply gaugeCompute_grows
    | with_reducible apply log_grows
    | with_reducible apply satF_grows
    | with_reducible apply setCh_grows
    | fail_if_no_progress with_reducible apply Grows.mk'
    | with_reducible refine Grows.ite ?_ ?_
    | with_reducible refine Grows.iteP ?_ ?_
    | split
    | dsimp only

theorem rerunTimes_grows {s0 : State} (s : State) (mine : List JRec) (g : Nat) (c : Nat) (h : Grows s0 s) :
    Grows s0 (State.rerunTimes s mine g c) := by
  unfold State.rerunTimes
  try dsimp only
  repeat' first
    | intro _
    | with_reducible assumption
    | with_reducible apply calStamp_grows
    | with_reducible refine Grows.forL _ ?_ ?_
    | dsimp only

theorem rerunBoundary_grows {s0 : State} (s : State) (recs : List JRec) (g : Nat) (k0 : Nat) (c : Nat) (h : Grows s0 s) :
    Grows s0 (State.rerunBoundary s recs g k0 c).1 := by
  unfold State.rerunBoundary
  try dsimp only
  repeat' first
    | intro _
    | with_reducible assumption
    | with_reducible apply chanJoin_grows
    | with_reducible apply chanLeave_grows
    | with_reducible apply rerunBanks_grows
    | with_reducible apply rerunGauge_grows
    | with_reducible apply rerunLive_grows
    | with_reducible apply rerunTimes_grows
    | with_reducible apply setCh_grows
    | with_reducible refine Grows.forL _ ?_ ?_
    | with_reducible refine Grows.foldl _ ?_ ?_
    | with_reducible refine Grows.foldlP _ ?_ ?_
    | fail_if_no_progress with_reducible apply Grows.mk'
    | with_reducible refine Grows.ite ?_ ?_
    | with_reducible refine Grows.iteP ?_ ?_
    | split
    | dsimp only

theorem rerunTrigger_grows {s0 : State} (s : State) (recs : List JRec) (g : Nat) (c : Nat) (h : Grows s0 s) :
    Grows s0 (State.rerunTrigger s recs g c) := by
  unfold State.rerunTrigger
  try dsimp only
  repeat' first
    | intro _
    | with_reducible assumption
    | with_reducible apply checkpoint_grows
    | with_reducible apply descWait_grows
    | with_reducible apply freezeDue_grows
    | with_reducible apply holdShow_grows
    | with_reducible apply memWrite_grows
    | with_reducible apply seamJoins_grows
    | with_reducible apply segJoins_grows
    | with_reducible apply setF_grows
    | with_reducible apply setG_grows
    | with_reducible apply syncTrigger_grows
    | fail_if_no_progress with_reducible apply Grows.mk'
    | with_reducible refine Grows.ite ?_ ?_
    | with_reducible refine Grows.iteP ?_ ?_
    | split
    | dsimp only

theorem rerunInputs_grows {s0 : State} (s : State) (recs : List JRec) (g : Nat) (c : Nat) (h : Grows s0 s) :
    Grows s0 (State.rerunInputs s recs g c) := by
  unfold State.rerunInputs
  try dsimp only
  repeat' first
    | intro _
    | with_reducible assumption
    | fail_if_no_progress with_reducible apply Grows.mk'
    | with_reducible refine Grows.ite ?_ ?_
    | split
    | dsimp only

theorem rerunIssue_grows {s0 : State} (s : State) (b : Bundle) (g : Nat) (k0 : Nat) (c : Nat) (h : Grows s0 s) :
    Grows s0 (State.rerunIssue s b g k0 c) := by
  unfold State.rerunIssue
  try dsimp only
  repeat' first
    | intro _
    | with_reducible assumption
    | with_reducible apply feed_grows
    | with_reducible apply rerunBoundary_grows
    | with_reducible apply rerunInputs_grows
    | with_reducible apply rerunStop_grows
    | with_reducible apply rerunTrigger_grows
    | with_reducible apply setF_grows
    | with_reducible refine Grows.forL _ ?_ ?_
    | fail_if_no_progress with_reducible apply Grows.mk'
    | with_reducible refine Grows.ite ?_ ?_
    | with_reducible refine Grows.iteP ?_ ?_
    | split
    | dsimp only

theorem execRerunCourse_grows (g : Fin 16) (s : State) : GrowsO s (execRerunCourse g s) := by
  unfold execRerunCourse
  try dsimp only
  try refine GrowsO.next ?_
  repeat' first
    | refine GrowsO.next ?_
    | intro _
    | with_reducible assumption
    | with_reducible exact Grows.refl _
    | with_reducible apply groupStop_grows
    | with_reducible apply readBundle_grows
    | with_reducible apply rerunEnd_grows
    | with_reducible apply rerunIssue_grows
    | with_reducible apply rerunStop_grows
    | with_reducible refine Grows.forL _ ?_ ?_
    | fail_if_no_progress with_reducible apply Grows.mk'
    | with_reducible refine Grows.ite ?_ ?_
    | with_reducible refine Grows.iteP ?_ ?_
    | split
    | dsimp only

/-! ## PowerCommands -/

theorem powerTo_grows {s0 : State} (t : State) (code : Nat) (h : Grows s0 t) : Grows s0 (State.powerTo t code).1 := by
  unfold State.powerTo
  try dsimp only
  repeat' first
    | intro _
    | with_reducible assumption
    | with_reducible apply idleEnd_grows
    | with_reducible apply idleEnter_grows
    | with_reducible apply sleepEnter_grows
    | with_reducible apply standbyEnter_grows
    | with_reducible apply transmitAll_grows
    | fail_if_no_progress with_reducible apply Grows.mk'
    | with_reducible refine Grows.ite ?_ ?_
    | with_reducible refine Grows.iteP ?_ ?_
    | split
    | dsimp only

theorem powerTo_growsA {s0 : State} (t : State) (code : Nat) : GrowsA s0 (State.powerTo t code).2 := by
  unfold State.powerTo
  try dsimp only
  repeat' first
    | with_reducible exact of_growsA _ _
    | with_reducible exact ok_growsA _ _
    | with_reducible exact later_growsA _ _
    | with_reducible apply Grows.id
    | with_reducible refine Grows.iteA ?_ ?_
    | with_reducible refine Grows.iteR ?_ ?_
    | with_reducible exact ⟨fun _ hu => hu⟩
    | refine ⟨fun u hu => ?_⟩
    | with_reducible assumption
    | with_reducible apply idleEnd_grows
    | with_reducible apply idleEnter_grows
    | with_reducible apply sleepEnter_grows
    | with_reducible apply standbyEnter_grows
    | with_reducible apply transmitAll_grows
    | split

theorem execPowerState_grows (hd : Hdr) (state : BitVec 8) (s : State) : GrowsO s (execPowerState hd state s) := by
  unfold execPowerState
  try dsimp only
  try refine GrowsO.next ?_
  repeat' first
    | refine GrowsO.next ?_
    | intro _
    | with_reducible exact of_growsA _ _
    | with_reducible exact ok_growsA _ _
    | with_reducible exact later_growsA _ _
    | with_reducible apply Grows.id
    | with_reducible refine Grows.iteA ?_ ?_
    | with_reducible refine Grows.iteR ?_ ?_
    | with_reducible apply powerTo_growsA
    | with_reducible assumption
    | with_reducible exact Grows.refl _
    | with_reducible apply command_grows
    | with_reducible apply powerTo_grows
    | with_reducible refine Grows.iteP ?_ ?_
    | dsimp only
    | with_reducible exact ⟨fun _ hu => hu⟩
    | refine ⟨fun _ _ => ?_⟩

theorem powerOff_grows {s0 : State} (t : State) (d : Nat) (h : Grows s0 t) : Grows s0 (State.powerOff t d) := by
  unfold State.powerOff
  try dsimp only
  repeat' first
    | intro _
    | with_reducible assumption
    | with_reducible exact Grows.refl _
    | with_reducible apply domainOff_grows
    | with_reducible apply endGroup_grows
    | with_reducible apply linkFall_grows
    | with_reducible refine Grows.forL _ ?_ ?_
    | with_reducible refine Grows.forN _ ?_ ?_
    | with_reducible refine Grows.foldl _ ?_ ?_
    | with_reducible refine Grows.foldlP _ ?_ ?_
    | fail_if_no_progress with_reducible apply Grows.mk'
    | with_reducible refine Grows.ite ?_ ?_
    | with_reducible refine Grows.iteP ?_ ?_
    | split
    | with_reducible refine Grows.fst (by assumption) ?_
    | dsimp only
    | omega

theorem domainPower_grows {s0 : State} (t : State) (d : Nat) (on : Bool) (port : Nat) (h : Grows s0 t) :
    Grows s0 (State.domainPower t d on port).1 := by
  unfold State.domainPower
  try dsimp only
  repeat' first
    | intro _
    | with_reducible assumption
    | with_reducible apply powerOff_grows
    | fail_if_no_progress with_reducible apply Grows.mk'
    | with_reducible refine Grows.ite ?_ ?_
    | with_reducible refine Grows.iteP ?_ ?_
    | split
    | dsimp only

theorem domainPower_growsA {s0 : State} (t : State) (d : Nat) (on : Bool) (port : Nat) :
    GrowsA s0 (State.domainPower t d on port).2 := by
  unfold State.domainPower
  try dsimp only
  repeat' first
    | with_reducible exact of_growsA _ _
    | with_reducible exact ok_growsA _ _
    | with_reducible exact later_growsA _ _
    | with_reducible apply Grows.id
    | with_reducible refine Grows.iteA ?_ ?_
    | with_reducible refine Grows.iteR ?_ ?_
    | with_reducible exact ⟨fun _ hu => hu⟩
    | refine ⟨fun u hu => ?_⟩
    | with_reducible assumption
    | with_reducible apply powerOff_grows
    | split

theorem execDomainPower_grows (hd : Hdr) (domain : BitVec 8) (on : BitVec 8) (s : State) :
    GrowsO s (execDomainPower hd domain on s) := by
  unfold execDomainPower
  try dsimp only
  try refine GrowsO.next ?_
  repeat' first
    | refine GrowsO.next ?_
    | intro _
    | with_reducible exact of_growsA _ _
    | with_reducible exact ok_growsA _ _
    | with_reducible exact later_growsA _ _
    | with_reducible apply Grows.id
    | with_reducible refine Grows.iteA ?_ ?_
    | with_reducible refine Grows.iteR ?_ ?_
    | with_reducible apply domainPower_growsA
    | with_reducible assumption
    | with_reducible exact Grows.refl _
    | with_reducible apply command_grows
    | with_reducible apply domainPower_grows
    | with_reducible refine Grows.ite ?_ ?_
    | with_reducible refine Grows.iteP ?_ ?_
    | split
    | dsimp only
    | with_reducible exact ⟨fun _ hu => hu⟩
    | refine ⟨fun _ _ => ?_⟩

theorem bindStart_grows {s0 : State} (s : State) (h : Grows s0 s) : Grows s0 (State.bindStart s) := by
  unfold State.bindStart
  try dsimp only
  repeat' first
    | with_reducible assumption
    | with_reducible apply announce_grows
    | with_reducible apply rerunStop_grows
    | with_reducible apply setF_grows
    | with_reducible apply stopAll_grows
    | fail_if_no_progress with_reducible apply Grows.mk'
    | dsimp only

theorem execBindOff_grows (hd : Hdr) (s : State) : GrowsO s (execBindOff hd s) := by
  unfold execBindOff
  try dsimp only
  try refine GrowsO.next ?_
  repeat' first
    | refine GrowsO.next ?_
    | intro _
    | with_reducible exact of_growsA _ _
    | with_reducible exact ok_growsA _ _
    | with_reducible exact later_growsA _ _
    | with_reducible apply Grows.id
    | with_reducible refine Grows.iteA ?_ ?_
    | with_reducible refine Grows.iteR ?_ ?_
    | with_reducible assumption
    | with_reducible exact Grows.refl _
    | with_reducible apply bindStart_grows
    | with_reducible apply command_grows
    | with_reducible refine Grows.ite ?_ ?_
    | with_reducible refine Grows.iteP ?_ ?_
    | split
    | dsimp only
    | with_reducible exact ⟨fun _ hu => hu⟩
    | refine ⟨fun _ _ => ?_⟩

theorem execBindOffFlushEnd_grows (s : State) : GrowsO s (execBindOffFlushEnd s) := by
  unfold execBindOffFlushEnd
  try dsimp only
  try refine GrowsO.next ?_
  repeat' first
    | refine GrowsO.next ?_
    | intro _
    | with_reducible assumption
    | with_reducible exact Grows.refl _
    | with_reducible apply cmpClear_grows
    | with_reducible apply forceStop_grows
    | with_reducible apply laneIdle_grows
    | with_reducible apply log_grows
    | with_reducible apply loomOff_grows
    | with_reducible apply rerunEnd_grows
    | with_reducible apply setF_grows
    | with_reducible apply take_grows
    | with_reducible refine Grows.forL _ ?_ ?_
    | with_reducible refine Grows.forN _ ?_ ?_
    | with_reducible refine Grows.foldl _ ?_ ?_
    | with_reducible refine Grows.foldlP _ ?_ ?_
    | fail_if_no_progress with_reducible apply Grows.mk'
    | with_reducible refine Grows.ite ?_ ?_
    | with_reducible refine Grows.iteP ?_ ?_
    | split
    | with_reducible refine Grows.fst (by assumption) ?_
    | dsimp only
    | omega

theorem resetKeys_grows {s0 : State} (s : State) (p : Nat → Bool) (h : Grows s0 s) : Grows s0 (s.resetKeys p) :=
  h.updC rfl rfl rfl rfl rfl id id (Tab.rising_filter _) (Tab.rising_filter _) (Tab.rising_filter _)

theorem resetJoin_grows {s0 : State} (s : State) (ch : Nat) (h : Grows s0 s) : Grows s0 (State.resetJoin s ch) := by
  unfold State.resetJoin
  try dsimp only
  repeat' first
    | with_reducible assumption
    | with_reducible apply chanLeave_grows
    | fail_if_no_progress with_reducible apply Grows.mk'
    | with_reducible refine Grows.ite ?_ ?_
    | split
    | dsimp only

theorem resetChan_grows {s0 : State} (s : State) (ch : Nat) (h : Grows s0 s) : Grows s0 (State.resetChan s ch) := by
  unfold State.resetChan
  try dsimp only
  repeat' first
    | with_reducible assumption
    | with_reducible apply gaugePend_grows
    | with_reducible apply resetJoin_grows
    | with_reducible apply resetKeys_grows
    | dsimp only

theorem resetLane_grows {s0 : State} (s : State) (l : Nat) (h : Grows s0 s) : Grows s0 (State.resetLane s l) := by
  unfold State.resetLane
  try dsimp only
  repeat' first
    | with_reducible assumption
    | with_reducible apply clearLane_grows
    | with_reducible apply laneEn_grows
    | with_reducible apply resetKeys_grows
    | fail_if_no_progress with_reducible apply Grows.mk'
    | dsimp only

theorem resetLines_grows {s0 : State} (s : State) (ch : Nat) (h : Grows s0 s) : Grows s0 (State.resetLines s ch) := by
  unfold State.resetLines
  try dsimp only
  repeat' first
    | intro _
    | with_reducible assumption
    | with_reducible apply setCh_grows
    | with_reducible apply setSm_grows
    | fail_if_no_progress with_reducible apply Grows.mk'
    | with_reducible refine Grows.iteP ?_ ?_
    | dsimp only

theorem countFlush_grows {s0 : State} (s : State) (c : Nat) (n : Nat) (h : Grows s0 s) :
    Grows s0 (State.countFlush s c n) := by
  unfold State.countFlush
  try dsimp only
  repeat' first
    | with_reducible assumption
    | with_reducible apply satF_grows
    | dsimp only

theorem resetCluster_grows {s0 : State} (s : State) (c : Nat) (h : Grows s0 s) : Grows s0 (State.resetCluster s c) := by
  unfold State.resetCluster
  try dsimp only
  repeat' first
    | intro _
    | with_reducible assumption
    | with_reducible apply countFlush_grows
    | with_reducible apply resetChan_grows
    | with_reducible apply resetKeys_grows
    | with_reducible apply resetLane_grows
    | with_reducible apply resetLines_grows
    | with_reducible apply showDom_grows
    | with_reducible refine Grows.forN _ ?_ ?_
    | fail_if_no_progress with_reducible apply Grows.mk'
    | dsimp only

theorem resetPipe_grows {s0 : State} (s : State) (ch : Nat) (h : Grows s0 s) : Grows s0 (State.resetPipe s ch) := by
  unfold State.resetPipe
  try dsimp only
  repeat' first
    | intro _
    | with_reducible assumption
    | with_reducible apply countFlush_grows
    | with_reducible apply resetChan_grows
    | with_reducible refine Grows.iteP ?_ ?_
    | dsimp only

theorem freeJobs_grows {s0 : State} (s : State) (mine : Nat → Bool) (h : Grows s0 s) :
    Grows s0 (State.freeJobs s mine) := by
  unfold State.freeJobs
  try dsimp only
  repeat' first
    | intro _
    | with_reducible assumption
    | fail_if_no_progress with_reducible apply Grows.mk'
    | with_reducible refine Grows.ite ?_ ?_
    | with_reducible refine Grows.iteP ?_ ?_
    | split
    | dsimp only

theorem resetEngine_grows {s0 : State} (s : State) (e : Nat) (h : Grows s0 s) : Grows s0 (State.resetEngine s e) := by
  unfold State.resetEngine
  try dsimp only
  repeat' first
    | with_reducible assumption
    | with_reducible apply freeJobs_grows
    | with_reducible apply resetKeys_grows
    | dsimp only

theorem resetMc_grows {s0 : State} (s : State) (d : Nat) (h : Grows s0 s) : Grows s0 (State.resetMc s d) := by
  unfold State.resetMc
  try dsimp only
  repeat' first
    | intro _
    | with_reducible assumption
    | with_reducible apply mirrorShow_grows
    | with_reducible apply resetKeys_grows
    | with_reducible apply setF_grows
    | fail_if_no_progress with_reducible apply Grows.mk'
    | with_reducible refine Grows.ite ?_ ?_
    | with_reducible refine Grows.iteP ?_ ?_
    | split
    | dsimp only

theorem resetCodec_grows {s0 : State} (s : State) (k : Nat) (l : Nat) (h : Grows s0 s) :
    Grows s0 (State.resetCodec s k l) := by
  unfold State.resetCodec
  try dsimp only
  repeat' first
    | with_reducible assumption
    | with_reducible apply setJob_grows
    | fail_if_no_progress with_reducible apply Grows.mk'
    | with_reducible refine Grows.ite ?_ ?_
    | split
    | dsimp only

theorem resetRegion_grows {s0 : State} (s : State) (r : Nat) (h : Grows s0 s) : Grows s0 (State.resetRegion s r) := by
  unfold State.resetRegion
  try dsimp only
  repeat' first
    | intro _
    | with_reducible assumption
    | with_reducible apply countFlush_grows
    | with_reducible apply freeJobs_grows
    | with_reducible apply hkStop_grows
    | with_reducible apply mirrorShow_grows
    | with_reducible apply resetCluster_grows
    | with_reducible apply resetKeys_grows
    | with_reducible apply restoreChan_grows
    | with_reducible apply setF_grows
    | with_reducible apply showDom_grows
    | with_reducible refine Grows.forL _ ?_ ?_
    | with_reducible refine Grows.forN _ ?_ ?_
    | fail_if_no_progress with_reducible apply Grows.mk'
    | with_reducible refine Grows.ite ?_ ?_
    | with_reducible refine Grows.iteP ?_ ?_
    | split
    | dsimp only

theorem resetDie_grows {s0 : State} (s : State) (d : Nat) (h : Grows s0 s) : Grows s0 (State.resetDie s d) := by
  unfold State.resetDie
  try dsimp only
  repeat' first
    | intro _
    | with_reducible assumption
    | with_reducible apply mark_grows
    | with_reducible apply resetRegion_grows
    | with_reducible refine Grows.forL _ ?_ ?_
    | dsimp only

/-- A unit's reset keeps these things, whichever unit it is. -/
theorem resetUnit_grows {s0 : State} (i : Nat) (s : State) (d : Nat) (f : State → State) (e : resetUnit i = some (d, f))
    (h : Grows s0 s) : Grows s0 (f s) := by
  unfold resetUnit at e
  repeat' split at e
  all_goals cases e
  all_goals first
    | with_reducible exact resetPipe_grows _ _ h
    | with_reducible exact resetKeys_grows _ _ h
    | with_reducible exact resetEngine_grows _ _ h
    | with_reducible exact resetMc_grows _ _ h
    | with_reducible exact resetLane_grows _ _ h
    | with_reducible exact resetCodec_grows _ _ _ h

theorem execReset_grows (hd : Hdr) (level : BitVec 8) (index : BitVec 16) (s : State) :
    GrowsO s (execReset hd level index s) := by
  unfold execReset
  refine GrowsO.next (command_grows _ _ _ _ _ (fun t ht => ?_) (fun t => ?_) (Grows.refl s))
  · dsimp only
    split
    · split
      · exact ht
      · exact Grows.iteP (resetUnit_grows _ _ _ _ (by assumption) ht) ht
    all_goals first
      | exact Grows.iteP ht (Grows.iteP (resetCluster_grows _ _ ht) ht)
      | exact Grows.iteP ht (Grows.iteP (resetRegion_grows _ _ ht) ht)
      | exact Grows.iteP ht (Grows.iteP (resetDie_grows _ _ ht) ht)
      | exact ht
  · dsimp only
    split
    · split
      · exact of_growsA _ _
      · exact Grows.iteA ⟨fun _ hu => hu⟩ (of_growsA _ _)
    all_goals first
      | exact of_growsA _ _
      | exact Grows.iteA (of_growsA _ _) (Grows.iteA ⟨fun _ hu => hu⟩ (of_growsA _ _))
      | exact Grows.iteA (of_growsA _ _) ⟨fun _ hu => hu⟩

/-! ## Frames -/

theorem resultOr_grows {s : State} {o : Host.Outcome State Fault Refusal} (h : GrowsO s o) :
    Grows s (resultOr s o) := by
  unfold resultOr
  split
  · exact h _ rfl
  · exact Grows.refl s

theorem runOpLow_grows (s : State) (hd : Hdr) (op : Nat) (p : List Byte) : GrowsO s (s.runOpLow hd op p) := by
  unfold State.runOpLow
  split
  all_goals first
    | with_reducible exact execAuxsync_grows _ _
    | with_reducible exact execCameraCtrl_grows _ _ _ _ _ _ _
    | with_reducible exact execCameraIdent_grows _ _ _
    | with_reducible exact execDeviceInfo_grows _ _
    | with_reducible exact execExposure_grows _ _ _ _ _ _ _ _
    | with_reducible exact execGroupStart_grows _ _ _ _
    | with_reducible exact execGroupStatus_grows _ _ _
    | with_reducible exact execGroupStop_grows _ _ _
    | with_reducible exact execKeepalive_grows _ _
    | with_reducible exact execPatternRevert_grows _ _ _
    | with_reducible exact execPatternStatus_grows _ _ _
    | with_reducible exact execPatternSwap_grows _ _ _ _ _
    | with_reducible exact execRegModify_grows _ _ _ _ _ _
    | with_reducible exact execRegRead_grows _ _ _ _ _
    | with_reducible exact execRegWrite_grows _ _ _ _ _ _
    | with_reducible exact execSessionClose_grows _ _
    | with_reducible exact execSessionKill_grows _ _ _
    | with_reducible exact execSessionList_grows _ _
    | with_reducible exact execSessionOpen_grows _ _ _ _ _
    | exact GrowsO.next (Grows.refl s)

theorem runOpMid_grows (s : State) (hd : Hdr) (op : Nat) (p : List Byte) : GrowsO s (s.runOpMid hd op p) := by
  unfold State.runOpMid
  split
  all_goals first
    | with_reducible exact execCalRequest_grows _ _ _
    | with_reducible exact execCalStatus_grows _ _ _
    | with_reducible exact execDmaAbort_grows _ _ _
    | with_reducible exact execDmaStart_grows _ _ _ _
    | with_reducible exact execDmaStatus_grows _ _ _
    | with_reducible exact execLaneAdapt_grows _ _ _
    | with_reducible exact execMemRead_grows _ _ _ _
    | with_reducible exact execMemWrite_grows _ _ _ _
    | with_reducible exact execPtpPrefer_grows _ _ _
    | with_reducible exact execPtpStatus_grows _ _
    | with_reducible exact execRingConfig_grows _ _ _ _ _ _
    | with_reducible exact execRingConsume_grows _ _ _ _
    | with_reducible exact execRingRead_grows _ _ _ _ _
    | with_reducible exact execRingRelease_grows _ _ _
    | with_reducible exact execRingStatus_grows _ _ _
    | with_reducible exact execRingSubscribe_grows _ _ _ _ _ _
    | with_reducible exact execRingUnsubscribe_grows _ _ _
    | with_reducible exact execTimeGet_grows _ _
    | with_reducible exact execTimeSet_grows _ _ _ _
    | exact GrowsO.next (Grows.refl s)

theorem runOpHigh_grows (s : State) (hd : Hdr) (op : Nat) (p : List Byte) : GrowsO s (s.runOpHigh hd op p) := by
  unfold State.runOpHigh
  split
  all_goals first
    | with_reducible exact execBindOff_grows _ _
    | with_reducible exact execBundleExport_grows _ _ _
    | with_reducible exact execCaptureFreeze_grows _ _
    | with_reducible exact execCaptureRearm_grows _ _
    | with_reducible exact execCassAuth_grows _ _
    | with_reducible exact execDomainPower_grows _ _ _ _
    | with_reducible exact execFaultInject_grows _ _ _ _
    | with_reducible exact execLogClear_grows _ _
    | with_reducible exact execLogRead_grows _ _ _ _
    | with_reducible exact execMarkClear_grows _ _ _
    | with_reducible exact execMarkHold_grows _ _ _
    | with_reducible exact execMarkInsert_grows _ _ _ _ _
    | with_reducible exact execPowerState_grows _ _ _
    | with_reducible exact execRerunStart_grows _ _ _
    | with_reducible exact execRerunStatus_grows _ _
    | with_reducible exact execReset_grows _ _ _ _
    | with_reducible exact execSelftest_grows _ _ _ _
    | with_reducible exact execTagStatus_grows _ _
    | exact GrowsO.next (Grows.refl s)

theorem runOp_grows {s0 : State} (s : State) (hd : Hdr) (op : Nat) (p : List Byte) (h : Grows s0 s) :
    Grows s0 (s.runOp hd op p) := by
  unfold State.runOp
  split
  · exact commandE_grows _ _ _ _ _ _ (fun _ ht => ht) (fun _ => ⟨fun _ hu => hu⟩) h
  · refine Grows.ite (h.trans (resultOr_grows ?_))
      (commandE_grows _ _ _ _ _ _ (fun _ ht => ht) (fun _ => ⟨fun _ hu => hu⟩) h)
    split
    · exact runOpLow_grows _ _ _ _
    · split
      · exact runOpMid_grows _ _ _ _
      · exact runOpHigh_grows _ _ _ _

theorem cmdDgram_grows {s0 : State} (s : State) (port : Fin 2) (addr : Nat) (udp : Nat) (m : List Byte) (h : Grows s0 s) :
    Grows s0 (State.cmdDgram s port addr udp m) := by
  unfold State.cmdDgram
  try dsimp only
  repeat' first
    | intro _
    | with_reducible assumption
    | with_reducible apply deny_grows
    | with_reducible apply mapSession_grows
    | with_reducible apply quick_grows
    | with_reducible apply runOp_grows
    | with_reducible apply satF_grows
    | fail_if_no_progress with_reducible apply Grows.mk'
    | with_reducible refine Grows.ite ?_ ?_
    | with_reducible refine Grows.iteP ?_ ?_
    | split
    | dsimp only

theorem ptpOther_grows {s0 : State} (s : State) (d : Nat) (port : Nat) (m : List Byte) (h : Grows s0 s) :
    Grows s0 (State.ptpOther s d port m) := by
  unfold State.ptpOther
  try dsimp only
  repeat' first
    | intro _
    | with_reducible assumption
    | with_reducible exact Grows.refl _
    | with_reducible apply ptpResp_grows
    | with_reducible apply ptpSync_grows
    | with_reducible apply setEx_grows
    | with_reducible apply setPt_grows
    | with_reducible refine Grows.forL _ ?_ ?_
    | with_reducible refine Grows.forN _ ?_ ?_
    | with_reducible refine Grows.foldl _ ?_ ?_
    | with_reducible refine Grows.foldlP _ ?_ ?_
    | fail_if_no_progress with_reducible apply Grows.mk'
    | with_reducible refine Grows.ite ?_ ?_
    | with_reducible refine Grows.iteP ?_ ?_
    | split
    | with_reducible refine Grows.fst (by assumption) ?_
    | dsimp only
    | omega

theorem ptpFrame_grows {s0 : State} (s : State) (port : Nat) (trans : Nat) (m : List Byte) (h : Grows s0 s) :
    Grows s0 (State.ptpFrame s port trans m) := by
  unfold State.ptpFrame
  try dsimp only
  repeat' first
    | intro _
    | with_reducible assumption
    | with_reducible apply ptpAnnounceAll_grows
    | with_reducible apply ptpOther_grows
    | with_reducible refine Grows.forN _ ?_ ?_
    | with_reducible refine Grows.ite ?_ ?_
    | split
    | dsimp only

theorem udpIn_grows {s0 : State} (s : State) (port : Fin 2) (src : Nat) (pseudo : List Byte) (m : List Byte) (h : Grows s0 s) :
    Grows s0 (State.udpIn s port src pseudo m) := by
  unfold State.udpIn
  try dsimp only
  repeat' first
    | with_reducible assumption
    | with_reducible apply annReceived_grows
    | with_reducible apply cmdDgram_grows
    | with_reducible apply ptpFrame_grows
    | with_reducible refine Grows.ite ?_ ?_
    | split
    | dsimp only

theorem ip4In_grows {s0 : State} (s : State) (port : Fin 2) (m : List Byte) (h : Grows s0 s) :
    Grows s0 (State.ip4In s port m) := by
  unfold State.ip4In
  try dsimp only
  repeat' first
    | intro _
    | with_reducible assumption
    | with_reducible exact Grows.refl _
    | with_reducible apply sendIp_grows
    | with_reducible apply sendOn_grows
    | with_reducible apply udpIn_grows
    | with_reducible refine Grows.forL _ ?_ ?_
    | with_reducible refine Grows.forN _ ?_ ?_
    | with_reducible refine Grows.foldl _ ?_ ?_
    | with_reducible refine Grows.foldlP _ ?_ ?_
    | fail_if_no_progress with_reducible apply Grows.mk'
    | with_reducible refine Grows.ite ?_ ?_
    | with_reducible refine Grows.iteP ?_ ?_
    | split
    | with_reducible refine Grows.fst (by assumption) ?_
    | dsimp only
    | omega

theorem icmp6In_grows {s0 : State} (s : State) (port : Fin 2) (mac : Nat) (src : Nat) (dst : Nat) (m : List Byte) (h : Grows s0 s) :
    Grows s0 (State.icmp6In s port mac src dst m) := by
  unfold State.icmp6In
  try dsimp only
  repeat' first
    | intro _
    | with_reducible assumption
    | with_reducible exact Grows.refl _
    | with_reducible apply learn_grows
    | with_reducible apply sendIp_grows
    | with_reducible apply sendOn_grows
    | with_reducible refine Grows.forL _ ?_ ?_
    | with_reducible refine Grows.forN _ ?_ ?_
    | with_reducible refine Grows.foldl _ ?_ ?_
    | with_reducible refine Grows.foldlP _ ?_ ?_
    | fail_if_no_progress with_reducible apply Grows.mk'
    | with_reducible refine Grows.ite ?_ ?_
    | with_reducible refine Grows.iteP ?_ ?_
    | split
    | with_reducible refine Grows.fst (by assumption) ?_
    | dsimp only
    | omega

theorem ip6In_grows {s0 : State} (s : State) (port : Fin 2) (mac : Nat) (m : List Byte) (h : Grows s0 s) :
    Grows s0 (State.ip6In s port mac m) := by
  unfold State.ip6In
  try dsimp only
  repeat' first
    | with_reducible assumption
    | with_reducible apply icmp6In_grows
    | with_reducible apply udpIn_grows
    | fail_if_no_progress with_reducible apply Grows.mk'
    | with_reducible refine Grows.ite ?_ ?_
    | split
    | dsimp only

theorem arpIn_grows {s0 : State} (s : State) (port : Fin 2) (m : List Byte) (h : Grows s0 s) :
    Grows s0 (State.arpIn s port m) := by
  unfold State.arpIn
  try dsimp only
  repeat' first
    | with_reducible assumption
    | with_reducible apply learn_grows
    | with_reducible apply sendOn_grows
    | with_reducible refine Grows.ite ?_ ?_
    | split
    | dsimp only

theorem prpCheck_grows {s0 : State} (s : State) (port : Nat) (src : Nat) (b : List Byte) (h : Grows s0 s) :
    Grows s0 (State.prpCheck s port src b).1 := by
  unfold State.prpCheck
  try dsimp only
  repeat' first
    | intro _
    | with_reducible assumption
    | with_reducible apply satF_grows
    | fail_if_no_progress with_reducible apply Grows.mk'
    | with_reducible refine Grows.ite ?_ ?_
    | with_reducible refine Grows.iteP ?_ ?_
    | split
    | dsimp only

theorem frameIn_grows {s0 : State} (s : State) (port : Fin 2) (b : List Byte) (h : Grows s0 s) :
    Grows s0 (State.frameIn s port b) := by
  unfold State.frameIn
  try dsimp only
  repeat' first
    | with_reducible assumption
    | with_reducible apply arpIn_grows
    | with_reducible apply ip4In_grows
    | with_reducible apply ip6In_grows
    | with_reducible apply ptpFrame_grows
    | fail_if_no_progress with_reducible apply Grows.mk'
    | split
    | dsimp only

theorem execEthFrameReceived_grows (port : Fin 2) (frame : List Byte) (fcsOk : Bool) (s : State) :
    GrowsO s (execEthFrameReceived port frame fcsOk s) := by
  unfold execEthFrameReceived
  try dsimp only
  try refine GrowsO.next ?_
  repeat' first
    | refine GrowsO.next ?_
    | with_reducible assumption
    | with_reducible exact Grows.refl _
    | with_reducible apply frameIn_grows
    | with_reducible apply incF_grows
    | with_reducible apply prpCheck_grows
    | with_reducible apply satF_grows
    | fail_if_no_progress with_reducible apply Grows.mk'
    | with_reducible refine Grows.ite ?_ ?_
    | with_reducible refine Grows.iteP ?_ ?_
    | split
    | dsimp only

end Sys2Proof.Machine
end

