-- ==== Sys2Proof/Tests/Slice0.lean ====
section
/-!
SUPPORT. Tests. `smoke_` theorems: one ill-formed command for each check of `Instr.wf`, which the check refuses. `test_`
theorems: one command on a small state, with the result that the rule of the spec named beside it gives. `wit_` theorems:
for each clause of each statement of Certificates/Slice0/Obligations.lean that has hypotheses, a state and operands that
meet all of them together (`wit_<statement>_<k>`, in the order of the clauses).
-/

namespace Sys2Proof.Tests

open Sys2Proof Sys2Proof.Machine

section

set_option Elab.async false
set_option linter.unusedVariables false

/-! ## Helpers -/

/-- A state with fields set. -/
def wSet (s : State) (fs : List (Nat × Fld × Nat)) : State := fs.foldl (fun t e => t.setF e.1 e.2.1 e.2.2) s

/-- A device at Ready with every domain on. -/
def wDev : State :=
  wSet { State.reset with boot := { step := 10 } }
    [(pwrB, F.DOM_ON_ON.nth 0, 2 ^ 32 - 1), (pwrB, F.DOM_ON_ON.nth 1, 2 ^ 32 - 1), (pwrB, F.DOM_ON_ON.nth 2, 2 ^ 32 - 1)]

/-- The header of a command of session 5, role service. -/
def wHd : Hdr :=
  { port := 0, addr := 0, udp := 40000, session := 5, role := 3, group := 0xFF, seq := 7, atCourse := false, course := 0 }

/-- That session, before the command. -/
def wSess : Session :=
  { id := 5, role := 3, port := 0, addr := 0, udp := 40000, hostNonce := 1, devNonce := 2, timeout := 30, maxDgram := 1400,
    heard := 0, hi := 6, seen := [], cache := [], outst := [], openReply := [] }

/-- The device with that session open. -/
def wCmd : State := { wDev with sess := [wSess] }

/-- `Accepts`, computed. -/
def acceptsB (s : State) (h : Hdr) (op role : Nat) : Bool :=
  s.portOpen && s.preStatus h op role 0 == stOk && match s.findSession h with
    | some e => (seqAbove e.hi h.seq.toNat || seqWithin e.hi h.seq.toNat) && !e.seen.contains h.seq.toNat &&
        decide (e.outst.length < 256)
    | none => false

theorem accepts_of {s : State} {h : Hdr} {op role : Nat} (w : acceptsB s h op role = true) : Accepts s h op role := by
  unfold acceptsB at w
  split at w
  · rename_i e he
    simp only [Bool.and_eq_true, beq_iff_eq, Bool.or_eq_true, Bool.not_eq_true', decide_eq_true_eq] at w
    exact ⟨w.1.1, w.1.2, e, he, w.2.1.1, w.2.1.2, w.2.2⟩
  · simp at w

/-- `x = .ok v`, computed. -/
def okB {ε α : Type} [DecidableEq α] (x : Except ε α) (v : α) : Bool :=
  match x with
  | .ok a => decide (a = v)
  | .error _ => false

theorem ok_of {ε α : Type} [DecidableEq α] {x : Except ε α} {v : α} (w : okB x v = true) : x = .ok v := by
  cases x with
  | ok a => simp only [okB, decide_eq_true_eq] at w; rw [w]
  | error e => simp [okB] at w

theorem pair_of {σ ε α : Type} [DecidableEq α] {p : σ × Except ε α} {v : α} (w : okB p.2 v = true) : p = (p.1, .ok v) := by
  rw [← ok_of w]

/-- `x = .error v`, computed. -/
def errB {ε α : Type} [DecidableEq ε] (x : Except ε α) (v : ε) : Bool :=
  match x with
  | .ok _ => false
  | .error e => decide (e = v)

theorem err_of {ε α : Type} [DecidableEq ε] {x : Except ε α} {v : ε} (w : errB x v = true) : x = .error v := by
  cases x with
  | ok a => simp [errB] at w
  | error e => simp only [errB, decide_eq_true_eq] at w; rw [w]

/-- The state after a command. -/
def after (i : Instr) (s : State) : State :=
  match exec i s with
  | .next t => t
  | _ => s

/-! ## Ill-formed commands -/

/-- More bytes than can arrive in one piece. -/
def long : List Byte := List.replicate 65536 0

theorem long_length : long.length = 65536 := List.length_replicate

theorem smoke_pornRise : (Instr.pornRise true [(9, 0)]).wf = false := by decide
theorem smoke_xaStableDelayEnd : (Instr.xaStableDelayEnd (2 ^ 32)).wf = false := by decide
theorem smoke_announceReceived : (Instr.announceReceived long).wf = false := by simp [Instr.wf, maxFrame, long_length]
theorem smoke_stampedInputArrival : (Instr.stampedInputArrival 0 65536).wf = false := by decide
theorem smoke_blockLock : (Instr.blockLock 0 (2 ^ 32)).wf = false := by decide
theorem smoke_lockLoss : (Instr.lockLoss 0 15).wf = false := by decide
theorem smoke_lockLoss_high : (Instr.lockLoss 0 (2 ^ 32)).wf = false := by decide
theorem smoke_identReceived : (Instr.identReceived 0 []).wf = false := by decide
theorem smoke_linePacketReceived : (Instr.linePacketReceived 0 [] false).wf = false := by decide
theorem smoke_cameraDataPacket : (Instr.cameraDataPacket 0 [] false).wf = false := by decide
theorem smoke_controlReplyReceived : (Instr.controlReplyReceived 0 []).wf = false := by decide
theorem smoke_encoderTransition : (Instr.encoderTransition 0 ⟨1, 0⟩).wf = false := by decide
theorem smoke_indexEvent : (Instr.indexEvent ⟨0, true, 0⟩).wf = false := by decide
theorem smoke_channelCourseStart : (Instr.channelCourseStart 0 [16384]).wf = false := by decide
theorem smoke_cassResponse : (Instr.cassResponse (List.replicate 65 0)).wf = false := by decide
theorem smoke_regWrite : (Instr.regWrite wHd 0 2 0 [1]).wf = false := by decide
theorem smoke_cameraCtrl : (Instr.cameraCtrl wHd 0 0 0 0 (List.replicate 256 0)).wf = false := by decide +kernel
theorem smoke_memWrite : (Instr.memWrite wHd 0 long).wf = false := by simp [Instr.wf, maxFrame, long_length]
theorem smoke_memRequestServe : (Instr.memRequestServe 0 6).wf = false := by decide
theorem smoke_ringReserve : (Instr.ringReserve 0 (2 ^ 32)).wf = false := by decide
theorem smoke_ethFrameReceived : (Instr.ethFrameReceived 0 long true).wf = false := by simp [Instr.wf, maxFrame, long_length]
theorem smoke_ptpAnnounceReceived : (Instr.ptpAnnounceReceived 0 long).wf = false := by simp [Instr.wf, maxFrame, long_length]
theorem smoke_hpdPlug_edid : (Instr.hpdPlug 0 0 (List.replicate 513 0) []).wf = false := by decide +kernel
theorem smoke_hpdPlug_trains : (Instr.hpdPlug 0 0 [] (List.replicate 26 (0, 0))).wf = false := by decide
theorem smoke_irqHpd : (Instr.irqHpd true (List.replicate 26 (0, 0))).wf = false := by decide
theorem smoke_touchReadDone : (Instr.touchReadDone true (List.replicate 33 0)).wf = false := by decide
theorem smoke_touchReadDone_nack : (Instr.touchReadDone false [0]).wf = false := by decide
theorem smoke_i2cDone : (Instr.i2cDone true (List.replicate 33 0)).wf = false := by decide
theorem smoke_i2cDone_nack : (Instr.i2cDone false [0]).wf = false := by decide
theorem smoke_auxOutput : (Instr.auxOutput 0 []).wf = false := by decide

/-! ## One command, with the result the spec gives -/

/-- Position channel 2 runs in quadrature mode at pins `pins` with count 7. -/
def quadAt (pins : Nat) : State :=
  { wSet wDev [(posB 2, F.POS_CTRL_RUN, 1), (posB 2, F.POS_CTRL_MODE, 1), (posB 2, F.POS_COUNT_COUNT, 7)] with
    pos := [(2, { pins := pins })] }

/-- R51: a change of both A and B sets QUAD_ERR and leaves POS_COUNT. -/
theorem test_both_change_sets_quadErr :
    (after (.encoderTransition 2 ⟨3, 4⟩) (quadAt 0)).getF (posB 2) F.POS_STATUS_QUAD_ERR = 1 ∧
      (after (.encoderTransition 2 ⟨3, 4⟩) (quadAt 0)).posCount 2 = 7 := by decide +kernel

/-- R50: a change of one of them moves POS_COUNT by one. -/
theorem test_one_change_counts :
    ((after (.encoderTransition 2 ⟨1, 4⟩) (quadAt 0)).posCount 2 - 7).natAbs = 1 ∧
      (after (.encoderTransition 2 ⟨2, 4⟩) (quadAt 0)).posCount 2 + (after (.encoderTransition 2 ⟨1, 4⟩) (quadAt 0)).posCount 2 = 14 := by
  decide +kernel

/-- R417: after PORN every position channel is off, and counts nothing. -/
theorem test_channel_off_counts_nothing : (after (.encoderTransition 2 ⟨1, 4⟩) wDev).posCount 2 = 0 := by decide +kernel

/-- R320: entries with equal POS keep their order of insertion. -/
theorem test_equal_positions_keep_order : cmpPlace (5, 2) [(3, 9), (5, 1), (6, 0)] = [(3, 9), (5, 1), (5, 2), (6, 0)] := by
  decide

/-- R529: a descriptor of length 0 is bad; one whose ranges touch but do not overlap is good; one that overlaps is bad. -/
theorem test_descriptor_checks :
    badDesc (le 8 0x1000 ++ le 8 0x1000 ++ zeros 16) = true ∧
      badDesc (le 8 0x1000 ++ le 8 0x1040 ++ le 4 0x40 ++ zeros 12) = false ∧
      badDesc (le 8 0x1000 ++ le 8 0x103F ++ le 4 0x40 ++ zeros 12) = true := by decide +kernel

/-- R529: the last byte of memory may be copied, the one after it may not. -/
theorem test_descriptor_end_of_memory :
    badDesc (le 8 0x1DFFFFFFC0 ++ le 8 0 ++ le 4 0x40 ++ zeros 12) = false ∧
      badDesc (le 8 0x1DFFFFFFC1 ++ le 8 0 ++ le 4 0x40 ++ zeros 12) = true := by decide +kernel

/-- R647: a 16-bit saturating counter stays at all ones. -/
theorem test_saturating_counter : satAdd 16 65535 1 = 65535 ∧ satAdd 16 65534 1 = 65535 := by decide

/-- R95: polynomial, initial value and final complement of CRC-32C give its published check value 0xE306_9283 for the digits
1 to 9. -/
theorem test_crc32c_check_value : crc32c ((List.range 9).map (fun k => BitVec.ofNat 8 (0x31 + k))) = 0xE3069283 := by
  decide +kernel

/-- R84: the table of bit pairs, symbols and levels. -/
theorem test_gray_levels :
    (graySyms [false, false, false, true, true, true, true, false]).map pamLevel = [-3, -1, 1, 3] := by decide

/-- R85: y(k) = (x(k) − y(k−1)) mod 4 from y = 0, by hand, and what the receiver recovers from it. -/
theorem test_precoding : precode 0 [1, 2, 3, 0] = ([1, 1, 2, 2], 2) ∧ unprecode 0 [1, 1, 2, 2] = [1, 2, 3, 0] := by decide

/-- R86: from an empty scrambler x^58 + x^39 + 1 a single one comes out again after 39 and after 58 bits. -/
theorem test_scrambler :
    ((scramble 0 (true :: List.replicate 63 false)).1.zipIdx.filter (·.1)).map (·.2) = [0, 39, 58] := by decide +kernel

/-- R48: a state of the pins held for FILT + 1 samples is accepted, one held for a sample less is not (FILT resets to 3). -/
theorem test_filter :
    (after (.encoderTransition 2 ⟨3, 3⟩) (quadAt 0)).getF (posB 2) F.POS_STATUS_QUAD_ERR = 0 ∧
      (after (.encoderTransition 2 ⟨3, 4⟩) (quadAt 0)).getF (posB 2) F.POS_STATUS_QUAD_ERR = 1 := by decide +kernel

/-- R2: device memory is little-endian. -/
theorem test_memory_is_little_endian :
    memGet (wDev.pokes 0x100 (le 4 0x11223344)).mem 0x100 = 0x44 ∧ memGet (wDev.pokes 0x100 (le 4 0x11223344)).mem 0x103 = 0x11 := by
  decide +kernel

/-- Memory keeps its canonical form: writing what an unlisted address reads as lists nothing. -/
theorem test_writing_zero_lists_nothing : ((wDev.pokes 0x100 [1, 2]).pokes 0x100 [0, 0]).mem = [] := by decide +kernel

/-- R640, R647: a producer fires the channels whose mask holds it, and a channel counts its fires. -/
theorem test_producer_reaches_its_listener :
    Tab.get 0 9 (after (.producerFire 0x21) (wSet wDev [(ycB 9, F.YC_PROD_MASK.nth 1, 2)])).yarn.fires = 1 := by decide +kernel

/-- R597: the mean path delay is half the sum of the two differences (correction fields as in IEEE 1588-2019). -/
theorem test_path_delay :
    (after (.ptpDelayRespReceived 0 131) { wSet wDev [(timB, F.PTP_CTRL_EN_A, 1)] with
      ptp := [(0, { best := some 1, ports := [0], ex := [(0, { t1 := some 100, t2 := 110, t3 := some 120 })] })] }).getF timB F.MPD_A_DELAY = 10 := by
  decide +kernel

/-- R591: an adjustment of −3 per tick over 5 ticks takes 15 from the clock. -/
theorem test_adjustment : (after .timeAdjEnd { wDev with localT := 100, time := { delta := -3, ticks := 5 } }).localT = 85 := by
  decide +kernel

/-- R605: the reset latencies of an Ethernet port. -/
theorem test_reset_latencies :
    State.reset.getF (ethB 0) F.TS_LAT_TX_LAT = 15552 ∧ State.reset.getF (ethB 1) F.TS_LAT_RX_LAT = 33568 := by decide +kernel

/-- wCmd with an IPv6 address, and the host that sends its commands in the neighbour cache. -/
def wHost : State := { wSet wCmd [(netB, F.NET_IPV6_ADDR.nth 3, 5)] with net := { neigh := [(0, 0x020000000001)] } }

/-- A service session that reads the time is answered to the MAC of its host, and nothing but its counters moves. -/
theorem test_time_get_is_answered :
    (after (.timeGet wHd) wHost).getF cmdB F.CMD_COUNT_COUNT = 1 ∧ (after (.timeGet wHd) wHost).net.txq.length = 1 ∧
      (after (.timeGet wHd) wHost).localT = wHost.localT := by decide +kernel

/-- A step takes the command at the front of the queue, with the rest left. -/
theorem test_step_takes_front :
    (match step { wDev with pending := [.timeAdjEnd, .bypass] } with
      | .next t => t.pending
      | _ => []) = [.bypass] := by decide +kernel

/-- No row of the table gives bits: no word spells a command. -/
theorem test_no_row_has_bits : decodeTableWord 32 0 = none := by decide

/-! ## Witnesses -/

/-! ### Witnesses: Cast-on, fuses, flash, JTAG and the whole step -/

namespace W1

def wCast : State := { State.reset with boot := { step := 5, tries := 3 } }
def wDbg : State := wSet wDev [(fuseB, F.DBG_CTRL_DBG_EN, 1), (mcB 0, F.MC_STATUS_STATE, 2)]
def wLocked : State := { wDev with fuses := 2 ^ 1998 }
def wAnn : List Byte := [0x48, 0x41, 1, 1, 0, 0, 0, 0, 0, 0, 0, 0, 0, 0, 0, 5] ++ List.replicate 16 0

theorem wit_StepTakesFront_1 :
    ((({ wDev with pending := [Instr.xspiRead] : State }).pending = [Instr.xspiRead])) ∧
    ((wDev.pending = [])) :=
  by decide +kernel

theorem wit_StepKeepsCanonicalForm_1 :
    (wDev.canon = true) ∧
    (step wDev = Host.Outcome.next wDev.clockTick) :=
  ⟨by decide +kernel, rfl⟩

theorem wit_PornLow_1 :
    ((Instr.pornFall = Instr.pornFall) ∧
      (wDev.banksOff = false)) ∧
    ((Instr.aonUndervolt = Instr.aonUndervolt)) :=
  by decide +kernel

theorem wit_CastOnBegins_1 :
    ((State.reset.boot.step = 0) ∧
      (true = true)) ∧
    ((State.reset.boot.step = 0)) ∧
    ((({ State.reset with boot := { step := 3 } : State }).boot.step = 3) ∧
      (({ State.reset with boot := { step := 3 } : State }).boot.halt = 0) ∧
      (({ State.reset with boot := { step := 3 } : State }).asleep = false) ∧
      23750000 < 2 ^ 32) ∧
    ((({ State.reset with boot := { step := 3 } : State }).boot.step = 3) ∧
      (({ State.reset with boot := { step := 3 } : State }).boot.halt = 0) ∧
      (({ State.reset with boot := { step := 3 } : State }).asleep = false) ∧
      26250001 < 2 ^ 32) :=
  by decide +kernel

theorem wit_ImageAttempts_1 :
    ((({ State.reset with boot := { step := 7 } : State }).casting = true) ∧
      7 ≤ ({ State.reset with boot := { step := 7 } : State }).boot.step) ∧
    ((wCast.casting = true) ∧
      wCast.boot.image < 2 ∧
      (wCast.boot.tries = 3) ∧
      (wCast.castWhole.2 = some 1)) ∧
    ((wDev.casting = false) ∧
      (wDev.boot.resume = false)) ∧
    ((wCast.casting = true) ∧
      wCast.boot.image < 2 ∧
      wCast.boot.tries < 4 ∧
      (Instr.castOnWatchdog = Instr.castOnWatchdog ∧ 12 = 12 ∨ Instr.castOnWatchdog = Instr.lockstepFault ∧ 12 = 11) ∧
      (wCast.boot.tries = 3)) ∧
    ((({ wCast with boot := { step := 5 } : State }).casting = true) ∧
      ({ wCast with boot := { step := 5 } : State }).boot.image < 2 ∧
      ({ wCast with boot := { step := 5 } : State }).boot.tries < 4 ∧
      (Instr.lockstepFault = Instr.castOnWatchdog ∧ 11 = 12 ∨ Instr.lockstepFault = Instr.lockstepFault ∧ 11 = 11) ∧
      ({ wCast with boot := { step := 5 } : State }).boot.tries < 3) ∧
    ((({ wDev with boot := { step := 10, resume := true } : State }).boot.resume = true) ∧
      (({ wDev with boot := { step := 10, resume := true } : State }).boot.step = 10) ∧
      (({ wDev with boot := { step := 10, resume := true } : State }).readHub ({ wDev with boot := { step := 10, resume := true } : State }).boot.image = Except.error 1)) :=
  ⟨by decide +kernel,
    by decide +kernel,
    by decide +kernel,
    by decide +kernel,
    by decide +kernel,
    ⟨by decide +kernel, by decide +kernel, err_of (by decide +kernel)⟩⟩

theorem wit_LockstepTakeover_1 :
    ((wSet wDev [(coreB, F.CORE_STATUS_STANDBY_OK, 1)]).boot.step = 10) ∧
    ((wSet wDev [(coreB, F.CORE_STATUS_STANDBY_OK, 1)]).domOn 91 = true) ∧
    ((wSet wDev [(coreB, F.CORE_STATUS_STANDBY_OK, 1)]).getF coreB F.CORE_STATUS_STANDBY_OK = 1) ∧
    (wSet wDev [(coreB, F.CORE_STATUS_STANDBY_OK, 1)]).getF coreB F.CORE_STATUS_ACTIVE < 2 ∧
    ((wSet wDev [(coreB, F.CORE_STATUS_STANDBY_OK, 1)]).getF repB F.REPLAY_CTRL_FRZ_FAULT = 0) :=
  by decide +kernel

theorem wit_JtagPort_1 :
    ((wDev.boot.halt = 0) ∧
      (wDev.debugLocked = false) ∧
      wDev.getF fuseB F.DBG_CTRL_DBG_EN ≠ 1) ∧
    ((wDbg.boot.halt = 0) ∧
      (wDbg.debugLocked = false) ∧
      (wDbg.getF fuseB F.DBG_CTRL_DBG_EN = 1)) ∧
    ((wLocked.boot.halt = 0) ∧
      (wLocked.debugLocked = true) ∧
      wLocked.getF fuseB F.DBG_CTRL_DBG_EN ≠ 1) ∧
    (({ wDev with boot := { step := 2, halt := 1 } : State }).boot.halt ≠ 0 ∧
      ({ wDev with boot := { step := 2, halt := 1 } : State }).getF fuseB F.DBG_CTRL_DBG_EN ≠ 1) ∧
    ((wDev.debugLocked = true ∨ wDev.getF fuseB F.DBG_CTRL_DBG_EN ≠ 1)) ∧
    ((wLocked.debugLocked = true ∨ wLocked.getF fuseB F.DBG_CTRL_DBG_EN ≠ 1)) :=
  by decide +kernel

theorem wit_JtagPort_2 :
    (wDbg.debugLocked = false) ∧
    (wDbg.getF fuseB F.DBG_CTRL_DBG_EN = 1) ∧
    (wDbg.boot.step = 10) ∧
    (wDbg.boot.halt = 0) ∧
    (wDbg.domOn 91 = true) ∧
    (true = true) ∧
    (true = true) ∧
    (64 % 64 = 0) ∧
    (wDbg.canon = true) ∧
    (wDbg.memSound (64) 4 = true) ∧
    (0 < 64 ∨ 64 + 4 ≤ 0) ∧
    (1 < 64 ∨ 64 + 4 ≤ 1) ∧
    (2 < 64 ∨ 64 + 4 ≤ 2) ∧
    (3 < 64 ∨ 64 + 4 ≤ 3) ∧
    (4 < 64 ∨ 64 + 4 ≤ 4) ∧
    (5 < 64 ∨ 64 + 4 ≤ 5) ∧
    (6 < 64 ∨ 64 + 4 ≤ 6) ∧
    (7 < 64 ∨ 64 + 4 ≤ 7) ∧
    (9 < 64 ∨ 64 + 4 ≤ 9) ∧
    (16 < 64 ∨ 64 + 4 ≤ 16) ∧
    (17 < 64 ∨ 64 + 4 ≤ 17) ∧
    (63 < 64 ∨ 64 + 4 ≤ 63) ∧
    (68 < 64 ∨ 64 + 4 ≤ 68) ∧
    (100 < 64 ∨ 64 + 4 ≤ 100) ∧
    (127 < 64 ∨ 64 + 4 ≤ 127) ∧
    (128 < 64 ∨ 64 + 4 ≤ 128) ∧
    (65535 < 64 ∨ 64 + 4 ≤ 65535) ∧
    (65536 < 64 ∨ 64 + 4 ≤ 65536) ∧
    (65537 < 64 ∨ 64 + 4 ≤ 65537) ∧
    (131072 < 64 ∨ 64 + 4 ≤ 131072) :=
  by decide +kernel

theorem wit_FuseAndFlash_1 :
    ((wDev.boot.step = 10) ∧
      (wDev.domOn 91 = true) ∧
      (wDev.anyRunning = false) ∧
      (wDev.fuseClosed 1998 = false)) ∧
    ((({ wSet wDev [(fuseB, F.FUSE_STATUS_PROG_BUSY, 1)] with boot := { step := 10, fuseAt := 1998 } : State }).getF fuseB F.FUSE_STATUS_PROG_BUSY = 1) ∧
      (true = true) ∧
      0 ≠ ({ wSet wDev [(fuseB, F.FUSE_STATUS_PROG_BUSY, 1)] with boot := { step := 10, fuseAt := 1998 } : State }).boot.fuseAt ∧
      1 ≠ ({ wSet wDev [(fuseB, F.FUSE_STATUS_PROG_BUSY, 1)] with boot := { step := 10, fuseAt := 1998 } : State }).boot.fuseAt ∧
      2 ≠ ({ wSet wDev [(fuseB, F.FUSE_STATUS_PROG_BUSY, 1)] with boot := { step := 10, fuseAt := 1998 } : State }).boot.fuseAt ∧
      3 ≠ ({ wSet wDev [(fuseB, F.FUSE_STATUS_PROG_BUSY, 1)] with boot := { step := 10, fuseAt := 1998 } : State }).boot.fuseAt ∧
      4 ≠ ({ wSet wDev [(fuseB, F.FUSE_STATUS_PROG_BUSY, 1)] with boot := { step := 10, fuseAt := 1998 } : State }).boot.fuseAt ∧
      5 ≠ ({ wSet wDev [(fuseB, F.FUSE_STATUS_PROG_BUSY, 1)] with boot := { step := 10, fuseAt := 1998 } : State }).boot.fuseAt ∧
      6 ≠ ({ wSet wDev [(fuseB, F.FUSE_STATUS_PROG_BUSY, 1)] with boot := { step := 10, fuseAt := 1998 } : State }).boot.fuseAt ∧
      7 ≠ ({ wSet wDev [(fuseB, F.FUSE_STATUS_PROG_BUSY, 1)] with boot := { step := 10, fuseAt := 1998 } : State }).boot.fuseAt ∧
      9 ≠ ({ wSet wDev [(fuseB, F.FUSE_STATUS_PROG_BUSY, 1)] with boot := { step := 10, fuseAt := 1998 } : State }).boot.fuseAt ∧
      16 ≠ ({ wSet wDev [(fuseB, F.FUSE_STATUS_PROG_BUSY, 1)] with boot := { step := 10, fuseAt := 1998 } : State }).boot.fuseAt ∧
      17 ≠ ({ wSet wDev [(fuseB, F.FUSE_STATUS_PROG_BUSY, 1)] with boot := { step := 10, fuseAt := 1998 } : State }).boot.fuseAt ∧
      63 ≠ ({ wSet wDev [(fuseB, F.FUSE_STATUS_PROG_BUSY, 1)] with boot := { step := 10, fuseAt := 1998 } : State }).boot.fuseAt ∧
      64 ≠ ({ wSet wDev [(fuseB, F.FUSE_STATUS_PROG_BUSY, 1)] with boot := { step := 10, fuseAt := 1998 } : State }).boot.fuseAt ∧
      65 ≠ ({ wSet wDev [(fuseB, F.FUSE_STATUS_PROG_BUSY, 1)] with boot := { step := 10, fuseAt := 1998 } : State }).boot.fuseAt ∧
      66 ≠ ({ wSet wDev [(fuseB, F.FUSE_STATUS_PROG_BUSY, 1)] with boot := { step := 10, fuseAt := 1998 } : State }).boot.fuseAt ∧
      67 ≠ ({ wSet wDev [(fuseB, F.FUSE_STATUS_PROG_BUSY, 1)] with boot := { step := 10, fuseAt := 1998 } : State }).boot.fuseAt ∧
      68 ≠ ({ wSet wDev [(fuseB, F.FUSE_STATUS_PROG_BUSY, 1)] with boot := { step := 10, fuseAt := 1998 } : State }).boot.fuseAt ∧
      100 ≠ ({ wSet wDev [(fuseB, F.FUSE_STATUS_PROG_BUSY, 1)] with boot := { step := 10, fuseAt := 1998 } : State }).boot.fuseAt ∧
      127 ≠ ({ wSet wDev [(fuseB, F.FUSE_STATUS_PROG_BUSY, 1)] with boot := { step := 10, fuseAt := 1998 } : State }).boot.fuseAt ∧
      128 ≠ ({ wSet wDev [(fuseB, F.FUSE_STATUS_PROG_BUSY, 1)] with boot := { step := 10, fuseAt := 1998 } : State }).boot.fuseAt ∧
      65535 ≠ ({ wSet wDev [(fuseB, F.FUSE_STATUS_PROG_BUSY, 1)] with boot := { step := 10, fuseAt := 1998 } : State }).boot.fuseAt ∧
      65536 ≠ ({ wSet wDev [(fuseB, F.FUSE_STATUS_PROG_BUSY, 1)] with boot := { step := 10, fuseAt := 1998 } : State }).boot.fuseAt ∧
      65537 ≠ ({ wSet wDev [(fuseB, F.FUSE_STATUS_PROG_BUSY, 1)] with boot := { step := 10, fuseAt := 1998 } : State }).boot.fuseAt ∧
      131072 ≠ ({ wSet wDev [(fuseB, F.FUSE_STATUS_PROG_BUSY, 1)] with boot := { step := 10, fuseAt := 1998 } : State }).boot.fuseAt ∧
      (({ wSet wDev [(fuseB, F.FUSE_STATUS_PROG_BUSY, 1)] with boot := { step := 10, fuseAt := 1998 } : State }).boot.fuseAt = 1998)) ∧
    (((wSet wDev [(fuseB, F.FUSE_STATUS_PROG_BUSY, 1)]).getF fuseB F.FUSE_STATUS_PROG_BUSY = 1) ∧
      (false = false)) ∧
    ((Instr.xspiRead = Instr.xspiRead ∧ 0 = 0 ∨ Instr.xspiRead = Instr.xspiProgram ∧ 0 = 1 ∨ Instr.xspiRead = Instr.xspiErase ∧ 0 = 2) ∧
      (wDev.boot.step = 10) ∧
      (wDev.domOn 91 = true) ∧
      (wDev.getF fuseB F.XSPI_STATUS_BUSY = 0) ∧
      (0 = 2 → wDev.getF fuseB F.XSPI_ADDR_ADDR % 65536 = 0) ∧
      (0 = 0)) :=
  by decide +kernel

theorem wit_FuseAndFlash_2 :
    ((Instr.xspiProgram = Instr.xspiRead ∧ 1 = 0 ∨ Instr.xspiProgram = Instr.xspiProgram ∧ 1 = 1 ∨ Instr.xspiProgram = Instr.xspiErase ∧ 1 = 2) ∧
      (wDev.boot.step = 10) ∧
      (wDev.domOn 91 = true) ∧
      (wDev.getF fuseB F.XSPI_STATUS_BUSY = 0) ∧
      (1 = 2 → wDev.getF fuseB F.XSPI_ADDR_ADDR % 65536 = 0) ∧
      (1 = 1) ∧
      (wDev.memSound (wDev.getF fuseB F.XSPI_MEM_ADDR) (wDev.getF fuseB F.XSPI_LEN_LEN) = true)) ∧
    ((Instr.xspiErase = Instr.xspiRead ∧ 2 = 0 ∨ Instr.xspiErase = Instr.xspiProgram ∧ 2 = 1 ∨ Instr.xspiErase = Instr.xspiErase ∧ 2 = 2) ∧
      ((wSet wDev [(fuseB, F.XSPI_ADDR_ADDR, 65536), (fuseB, F.XSPI_LEN_LEN, 1)]).boot.step = 10) ∧
      ((wSet wDev [(fuseB, F.XSPI_ADDR_ADDR, 65536), (fuseB, F.XSPI_LEN_LEN, 1)]).domOn 91 = true) ∧
      ((wSet wDev [(fuseB, F.XSPI_ADDR_ADDR, 65536), (fuseB, F.XSPI_LEN_LEN, 1)]).getF fuseB F.XSPI_STATUS_BUSY = 0) ∧
      (2 = 2 → (wSet wDev [(fuseB, F.XSPI_ADDR_ADDR, 65536), (fuseB, F.XSPI_LEN_LEN, 1)]).getF fuseB F.XSPI_ADDR_ADDR % 65536 = 0) ∧
      (2 = 2) ∧
      ((wSet wDev [(fuseB, F.XSPI_ADDR_ADDR, 65536), (fuseB, F.XSPI_LEN_LEN, 1)]).canon = true) ∧
      0 < 2 ∧
      0 < 2 ^ 32 ∧
      1 < 2 ^ 32 ∧
      2 < 2 ^ 32 ∧
      3 < 2 ^ 32 ∧
      4 < 2 ^ 32 ∧
      5 < 2 ^ 32 ∧
      6 < 2 ^ 32 ∧
      7 < 2 ^ 32 ∧
      9 < 2 ^ 32 ∧
      16 < 2 ^ 32 ∧
      17 < 2 ^ 32 ∧
      63 < 2 ^ 32 ∧
      64 < 2 ^ 32 ∧
      65 < 2 ^ 32 ∧
      66 < 2 ^ 32 ∧
      67 < 2 ^ 32 ∧
      68 < 2 ^ 32 ∧
      100 < 2 ^ 32 ∧
      127 < 2 ^ 32 ∧
      128 < 2 ^ 32 ∧
      65535 < 2 ^ 32 ∧
      65536 < 2 ^ 32 ∧
      65537 < 2 ^ 32 ∧
      131072 < 2 ^ 32 ∧
      1 < 2) :=
  by decide +kernel

theorem wit_FuseAndFlash_3 :
    (((wSet wDev [(fuseB, F.XSPI_STATUS_BUSY, 1)]).getF fuseB F.XSPI_STATUS_BUSY = 1) ∧
      (true = true)) ∧
    (((wSet wDev [(fuseB, F.XSPI_STATUS_BUSY, 1)]).getF fuseB F.XSPI_STATUS_BUSY = 1) ∧
      (false = false)) :=
  by decide +kernel

theorem wit_Announcements_1 :
    (((wSet wDev [(devB, F.ANN_CFG_ANN_PER, 1)]).boot.step = 10) ∧
      (wSet wDev [(devB, F.ANN_CFG_ANN_PER, 1)]).pwrState ≠ 4 ∧
      (wSet wDev [(devB, F.ANN_CFG_ANN_PER, 1)]).getF devB F.ANN_CFG_ANN_PER ≠ 0) ∧
    ((({ wDev with degShown := 2 ^ 31 : State }).boot.step = 10) ∧
      ({ wDev with degShown := 2 ^ 31 : State }).pwrState ≠ 4 ∧
      ({ wDev with degShown := 2 ^ 31 : State }).degraded ≠ ({ wDev with degShown := 2 ^ 31 : State }).degShown) ∧
    ((wDev.boot.step = 10) ∧
      ((wAnn ++ tag16 wDev.annKey wAnn).length = 48) ∧
      (beAt (wAnn ++ tag16 wDev.annKey wAnn) 0 2 = 18497) ∧
      (beAt (wAnn ++ tag16 wDev.annKey wAnn) 2 1 = 1) ∧
      (tag16 wDev.annKey (List.take 32 (wAnn ++ tag16 wDev.annKey wAnn)) = List.drop 32 (wAnn ++ tag16 wDev.annKey wAnn)) ∧
      (beAt (wAnn ++ tag16 wDev.annKey wAnn) 4 2 % 16384 = wDev.getF devB F.DEV_NUM_DEVNUM) ∧
      beAt (wAnn ++ tag16 wDev.annKey wAnn) 8 8 ≠ wDev.getF devB F.DEV_SERIAL_SERIAL) :=
  by decide +kernel

theorem wit_FusesStayBlown_1 :
    (step ({ wDev with fuses := 1 }) = Host.Outcome.next ({ wDev with fuses := 1 : State }).clockTick) ∧
    (bit ({ wDev with fuses := 1 : State }).fuses 0 = true) :=
  ⟨rfl, by decide +kernel⟩


end W1

/-! ### Witnesses: Courses and position -/

namespace W2

def wGrp (x : Grp) (s : State) : State := s.setG 3 x
def wTimer : State := wGrp { st := 2, openC := some 6 } (wSet wDev [(crsB 3, F.CRS_CTRL_TIMER, 1)])
def wDue : State := wGrp { st := 2, dueC := some (-5) } wDev
def wQuad (acc : Nat) (d : Option Int) (now : Nat) : State :=
  { wGrp { st := 2, openC := some 6, acc := acc, dueC := d, lastTrig := some 100 } (wSet wDev [(crsB 3, F.CRS_N_N, 1), (crsB 3, F.CRS_D_D, 4),
    (crsB 3, F.CRS_CTRL_SRC, 2), (posB 2, F.POS_CTRL_RUN, 1), (posB 2, F.POS_CTRL_MODE, 1), (posB 2, F.POS_STATUS_VALID, 1)]) with now := now }
def wPos (mode run : Nat) : State := wSet wDev [(posB 2, F.POS_CTRL_RUN, run), (posB 2, F.POS_CTRL_MODE, mode)]
def wHall : State := (wPos 2 1).setPx 2 { pins := 1, hall := 1 }
def wPosHeld : State := (wPos 1 1).setPx 2 { raw := 1, held := [2, 0, 0] }
def wSer (r : Option Nat) : State := (wPos 3 1).setPx 2 { serAt := some (0, 0), serRef := r }
def wIdx (m : Nat) (x : Option (Int × Int)) : State := (wSet (wPos 1 1) [(posB 2, F.IDX_CFG_IDX_EN, 1), (posB 2, F.POS_CTRL_IDX_MODE, m), (posB 2, F.IDX_PERIOD, 100),
  (posB 2, F.IDX_CFG_IDX_TOL, 4), (posB 2, F.POS_COUNT_COUNT, 105)]).setPx 2 { idx := x }
def wIdxA : State := wIdx 0 (some (1, 1))
def wIdxB : State := wIdx 0 (some (0, 1))
def wIdxC : State := wIdx 1 (some (0, 1))
def wSync (m : Nat) (x : Grp) : State := wGrp x (wSet wDev [(syncB, F.SYNC_CTRL_SYNC_GROUP, 3), (syncB, F.SYNC_CTRL_SYNC_MODE, m), (syncB, F.SYNC_CTRL_SYNC_LOG, 10), (syncB, F.SYNC_CTRL_SYNC_TOL, 8)])
def wFol (c at' : Nat) : State := { wSync 2 { st := 2, openC := some c } with now := 100, sync := { n := 0, trig := some (c, at') } }
def wClose : State := { wGrp { st := 2, openC := some 6, closed := some 5 } wDev with arrived := [⟨3, 3, 0, 5, 6, .segHold, false, 0⟩, ⟨3, 3, 0, 7, 7, .segHold, false, 0⟩] }
def wFly (st : Int) : State := { wGrp { st := 2, openC := some 6, closed := some 5 } wDev with flight := [⟨3, 3, 9, st, 0, .aux 9 5, false, 0⟩] }
def wFlyW (st : Int) : State := { wGrp { st := 2, openC := some 5, closed := some 5 } wDev with flight := [⟨3, 5, 0, st, 0, .write 1 false 0 0 [] [⟨F.MASK_HOLD_HOLD_LEN.key (gsegB 3), 7, false⟩], false, 2⟩] }

theorem wit_CourseBegins_1 :
    ((wTimer.running 3 = true) ∧
      (7 = match (wTimer.g 3).openC with | none => 0 | some k => k + 1) ∧
      (Instr.courseTimerExpiry (3 : Fin 16) = Instr.courseTimerExpiry (3 : Fin 16) ∧ wTimer.clk 0 = true ∧ wTimer.timerOn 3 = true ∧ wTimer.rerunG 3 = false ∧ (0 : Int) = if wTimer.posValid (wTimer.srcOf 3) = true then wTimer.posCount (wTimer.srcOf 3) else (0 : Int))) ∧
    ((wDue.running 3 = true) ∧
      (0 = match (wDue.g 3).openC with | none => 0 | some k => k + 1) ∧
      (Instr.overrateDelayEnd (3 : Fin 16) = Instr.overrateDelayEnd (3 : Fin 16) ∧ (wDue.g 3).dueC = some (-5 : Int))) :=
  by decide +kernel

theorem wit_CourseDivider_1 :
    (((wQuad 0 none 150).posRun 2 = true) ∧
      ((wQuad 0 none 150).posMode 2 = 1) ∧
      (((wQuad 0 none 150).px 2).accepted ((wQuad 0 none 150).filterNeed 2) (1) 4 = [(4, [0])]) ∧
      ((wQuad 0 none 150).g 3).counted ≠ some (wQuad 0 none 150).now ∧
      ((quadPlace (flipPins ((wQuad 0 none 150).px 2).pins [0]) + 4 - quadPlace ((wQuad 0 none 150).px 2).pins) % 4 = 1) ∧
      ((wQuad 0 none 150).flag (posB 2) F.POS_CTRL_DIR = false) ∧
      ((wQuad 0 none 150).runningGroups = [3]) ∧
      ((wQuad 0 none 150).srcOf 3 = 2) ∧
      ((wQuad 0 none 150).timerOn 3 = false) ∧
      ((wQuad 0 none 150).rerunG 3 = false) ∧
      ((wQuad 0 none 150).posValid 2 = true) ∧
      (wQuad 0 none 150).getF pwrB F.PWR_STATE_STATE ≠ 2 ∧
      ((1 : Int) = (wQuad 0 none 150).posCount 2 + (1 : Int)) ∧
      (1 : Int) < (2 : Int) ^ 63 ∧
      ((wQuad 0 none 150).hwm 3 = (wQuad 0 none 150).posCount 2) ∧
      (1 = ((wQuad 0 none 150).g 3).acc + (wQuad 0 none 150).getF (crsB 3) F.CRS_N_N) ∧
      1 < (wQuad 0 none 150).getF (crsB 3) F.CRS_D_D) ∧
    (((wQuad 3 (some (0 : Int)) 150).posRun 2 = true) ∧
      ((wQuad 3 (some (0 : Int)) 150).posMode 2 = 1) ∧
      (((wQuad 3 (some (0 : Int)) 150).px 2).accepted ((wQuad 3 (some (0 : Int)) 150).filterNeed 2) (1) 4 = [(4, [0])]) ∧
      ((wQuad 3 (some (0 : Int)) 150).g 3).counted ≠ some (wQuad 3 (some (0 : Int)) 150).now ∧
      ((quadPlace (flipPins ((wQuad 3 (some (0 : Int)) 150).px 2).pins [0]) + 4 - quadPlace ((wQuad 3 (some (0 : Int)) 150).px 2).pins) % 4 = 1) ∧
      ((wQuad 3 (some (0 : Int)) 150).flag (posB 2) F.POS_CTRL_DIR = false) ∧
      ((wQuad 3 (some (0 : Int)) 150).runningGroups = [3]) ∧
      ((wQuad 3 (some (0 : Int)) 150).srcOf 3 = 2) ∧
      ((wQuad 3 (some (0 : Int)) 150).timerOn 3 = false) ∧
      ((wQuad 3 (some (0 : Int)) 150).rerunG 3 = false) ∧
      ((wQuad 3 (some (0 : Int)) 150).posValid 2 = true) ∧
      (wQuad 3 (some (0 : Int)) 150).getF pwrB F.PWR_STATE_STATE ≠ 2 ∧
      ((1 : Int) = (wQuad 3 (some (0 : Int)) 150).posCount 2 + (1 : Int)) ∧
      (1 : Int) < (2 : Int) ^ 63 ∧
      ((wQuad 3 (some (0 : Int)) 150).hwm 3 = (wQuad 3 (some (0 : Int)) 150).posCount 2) ∧
      (4 = ((wQuad 3 (some (0 : Int)) 150).g 3).acc + (wQuad 3 (some (0 : Int)) 150).getF (crsB 3) F.CRS_N_N) ∧
      (wQuad 3 (some (0 : Int)) 150).getF (crsB 3) F.CRS_D_D ≤ 4 ∧
      ((wQuad 3 (some (0 : Int)) 150).g 3).dueC ≠ none) :=
  by decide +kernel

theorem wit_CourseDivider_2 :
    (((wQuad 3 none 599).posRun 2 = true) ∧
      ((wQuad 3 none 599).posMode 2 = 1) ∧
      (((wQuad 3 none 599).px 2).accepted ((wQuad 3 none 599).filterNeed 2) (1) 4 = [(4, [0])]) ∧
      ((wQuad 3 none 599).g 3).counted ≠ some (wQuad 3 none 599).now ∧
      ((quadPlace (flipPins ((wQuad 3 none 599).px 2).pins [0]) + 4 - quadPlace ((wQuad 3 none 599).px 2).pins) % 4 = 1) ∧
      ((wQuad 3 none 599).flag (posB 2) F.POS_CTRL_DIR = false) ∧
      ((wQuad 3 none 599).runningGroups = [3]) ∧
      ((wQuad 3 none 599).srcOf 3 = 2) ∧
      ((wQuad 3 none 599).timerOn 3 = false) ∧
      ((wQuad 3 none 599).rerunG 3 = false) ∧
      ((wQuad 3 none 599).posValid 2 = true) ∧
      (wQuad 3 none 599).getF pwrB F.PWR_STATE_STATE ≠ 2 ∧
      ((1 : Int) = (wQuad 3 none 599).posCount 2 + (1 : Int)) ∧
      (1 : Int) < (2 : Int) ^ 63 ∧
      ((wQuad 3 none 599).hwm 3 = (wQuad 3 none 599).posCount 2) ∧
      (4 = ((wQuad 3 none 599).g 3).acc + (wQuad 3 none 599).getF (crsB 3) F.CRS_N_N) ∧
      (wQuad 3 none 599).getF (crsB 3) F.CRS_D_D ≤ 4 ∧
      (((wQuad 3 none 599).g 3).dueC = none)) ∧
    (((wQuad 3 none 600).posRun 2 = true) ∧
      ((wQuad 3 none 600).posMode 2 = 1) ∧
      (((wQuad 3 none 600).px 2).accepted ((wQuad 3 none 600).filterNeed 2) (1) 4 = [(4, [0])]) ∧
      ((wQuad 3 none 600).g 3).counted ≠ some (wQuad 3 none 600).now ∧
      ((quadPlace (flipPins ((wQuad 3 none 600).px 2).pins [0]) + 4 - quadPlace ((wQuad 3 none 600).px 2).pins) % 4 = 1) ∧
      ((wQuad 3 none 600).flag (posB 2) F.POS_CTRL_DIR = false) ∧
      ((wQuad 3 none 600).runningGroups = [3]) ∧
      ((wQuad 3 none 600).srcOf 3 = 2) ∧
      ((wQuad 3 none 600).timerOn 3 = false) ∧
      ((wQuad 3 none 600).rerunG 3 = false) ∧
      ((wQuad 3 none 600).posValid 2 = true) ∧
      (wQuad 3 none 600).getF pwrB F.PWR_STATE_STATE ≠ 2 ∧
      ((1 : Int) = (wQuad 3 none 600).posCount 2 + (1 : Int)) ∧
      (1 : Int) < (2 : Int) ^ 63 ∧
      ((wQuad 3 none 600).hwm 3 = (wQuad 3 none 600).posCount 2) ∧
      (4 = ((wQuad 3 none 600).g 3).acc + (wQuad 3 none 600).getF (crsB 3) F.CRS_N_N) ∧
      (wQuad 3 none 600).getF (crsB 3) F.CRS_D_D ≤ 4 ∧
      (((wQuad 3 none 600).g 3).dueC = none) ∧
      (∀ (last : Nat), ((wQuad 3 none 600).g 3).lastTrig = some last → 500 ≤ (wQuad 3 none 600).now - last)) :=
  by decide +kernel

theorem wit_PositionTransition_1 :
    ((∀ i < 3, bit (3) i = bit ((wPos 1 1).px 2).pins i ∨ ((wPos 1 1).px 2).heldAt (3) i + 3 < (wPos 1 1).filterNeed 2)) ∧
    ((((wPos 1 0).px 2).accepted ((wPos 1 0).filterNeed 2) (3) 4 = [(4, [0, 1])]) ∧
      ((wPos 1 0).posRun 2 = false)) ∧
    ((((wPos 1 1).px 2).accepted ((wPos 1 1).filterNeed 2) (2) 4 = [(4, [1])]) ∧
      ((wPos 1 1).posRun 2 = true) ∧
      ((wPos 1 1).drivenBy 2 = []) ∧
      ((wPos 1 1).posMode 2 = 1)) ∧
    ((((wPos 2 1).px 2).accepted ((wPos 2 1).filterNeed 2) (7) 4 = [(4, [0, 1, 2])]) ∧
      ((wPos 2 1).posRun 2 = true) ∧
      ((wPos 2 1).drivenBy 2 = []) ∧
      ((wPos 2 1).posMode 2 = 2) ∧
      (hallPlace (flipPins ((wPos 2 1).px 2).pins [0, 1, 2]) = none)) ∧
    (((wHall.px 2).accepted (wHall.filterNeed 2) (3) 4 = [(4, [1])]) ∧
      (wHall.posRun 2 = true) ∧
      (wHall.drivenBy 2 = []) ∧
      (wHall.posMode 2 = 2)) ∧
    (((wHall.px 2).accepted (wHall.filterNeed 2) (2) 4 = [(4, [0, 1])]) ∧
      (wHall.posRun 2 = true) ∧
      (wHall.drivenBy 2 = []) ∧
      (wHall.posMode 2 = 2)) ∧
    (((wHall.px 2).accepted (wHall.filterNeed 2) (6) 4 = [(4, [0, 1, 2])]) ∧
      (wHall.posRun 2 = true) ∧
      (wHall.drivenBy 2 = []) ∧
      (wHall.posMode 2 = 2)) ∧
    (((wHall.px 2).accepted (wHall.filterNeed 2) (4) 4 = [(4, [0, 2])]) ∧
      (wHall.posRun 2 = true) ∧
      (wHall.drivenBy 2 = []) ∧
      (wHall.posMode 2 = 2)) :=
  by decide +kernel

theorem wit_PositionTransition_2 :
    ((((wPos 1 1).px 2).accepted ((wPos 1 1).filterNeed 2) (3) 4 = [(4, [0, 1])]) ∧
      ((wPos 1 1).posRun 2 = true) ∧
      ((wPos 1 1).drivenBy 2 = []) ∧
      ((wPos 1 1).posMode 2 = 1) ∧
      ((quadPlace (flipPins ((wPos 1 1).px 2).pins [0, 1]) + 4 - quadPlace ((wPos 1 1).px 2).pins) % 4 = 2)) ∧
    (((wPosHeld.px 2).accepted (wPosHeld.filterNeed 2) (3) 4 = [(2, [0]), (4, [1])]) ∧
      (wPosHeld.posRun 2 = true) ∧
      (wPosHeld.posMode 2 = 1) ∧
      (wPosHeld.drivenBy 2 = []) ∧
      ((quadPlace (flipPins (wPosHeld.px 2).pins [0]) + 4 - quadPlace (wPosHeld.px 2).pins) % 4 = if (1 : Int) = (1 : Int) then 1 else 3) ∧
      ((quadPlace (flipPins (flipPins (wPosHeld.px 2).pins [0]) [1]) + 4 - quadPlace (flipPins (wPosHeld.px 2).pins [0])) % 4 = if (1 : Int) = (1 : Int) then 1 else 3) ∧
      ((1 : Int) = (1 : Int) ∨ (1 : Int) = (-1 : Int)) ∧
      ((1 : Int) = (1 : Int) ∨ (1 : Int) = (-1 : Int))) :=
  by decide +kernel

theorem wit_PositionRunAndSpeed_1 :
    (((wPos 1 0).getF (posB 2) F.POS_CTRL_RUN = 0)) ∧
    (((wPos 1 1).getF (posB 2) F.POS_CTRL_RUN = 1)) ∧
    ((wHall.posRun 2 = true) ∧
      (wHall.posMode 2 = 2)) ∧
    (((0 : Int) = truncDiv (((wPos 1 1).posCount 2 - ((wPos 1 1).px 2).winPos) * (250000000 : Int)) ((2 : Int) ^ 18)) ∧
      ((wPos 1 1).posRun 2 = true) ∧
      (wPos 1 1).posMode 2 ≠ 2 ∧
      -(2 : Int) ^ 31 ≤ (0 : Int) ∧
      (0 : Int) < (2 : Int) ^ 31) ∧
    (((-2147482872 : Int) = truncDiv (((wSet (wPos 1 1) [(posB 2, F.POS_COUNT_COUNT, 2 ^ 64 - 2251799)]).posCount 2 - ((wSet (wPos 1 1) [(posB 2, F.POS_COUNT_COUNT, 2 ^ 64 - 2251799)]).px 2).winPos) * (250000000 : Int)) ((2 : Int) ^ 18)) ∧
      ((wSet (wPos 1 1) [(posB 2, F.POS_COUNT_COUNT, 2 ^ 64 - 2251799)]).posRun 2 = true) ∧
      (wSet (wPos 1 1) [(posB 2, F.POS_COUNT_COUNT, 2 ^ 64 - 2251799)]).posMode 2 ≠ 2 ∧
      -(2 : Int) ^ 31 ≤ (-2147482872 : Int) ∧
      (-2147482872 : Int) < (2 : Int) ^ 31) :=
  by decide +kernel

theorem wit_SerialPosition_1 :
    (((wPos 3 1).posRun 2 = true) ∧
      ((wPos 3 1).posMode 2 = 3)) ∧
    (((wSer none).posRun 2 = true) ∧
      ((wSer none).posMode 2 = 3) ∧
      ((wSer none).px 2).serAt ≠ none) ∧
    (((wSer none).posRun 2 = true) ∧
      ((wSer none).posMode 2 = 3) ∧
      ((wSer none).px 2).serAt ≠ none ∧
      (24 = (wSer none).getF (posB 2) F.SER_CFG_WIDTH) ∧
      (5 = 5 % 2 ^ 24) ∧
      (true = true) ∧
      (true = true ∨ (wSer none).serCrc 2 true 5 ≠ 0 % 2 ^ (wSer none).serCrcLen 2)) ∧
    (((wSer none).posRun 2 = true) ∧
      ((wSer none).posMode 2 = 3) ∧
      ((wSer none).px 2).serAt ≠ none ∧
      (24 = (wSer none).getF (posB 2) F.SER_CFG_WIDTH) ∧
      (5 = 5 % 2 ^ 24) ∧
      (false = false) ∧
      ((wSer none).serCrc 2 false 5 = (BitVec.ofNat 16 ((wSer none).serCrc 2 false 5)).toNat % 2 ^ (wSer none).serCrcLen 2) ∧
      ((wSer none).drivenBy 2 = [])) ∧
    (((wSer (some 0)).posRun 2 = true) ∧
      ((wSer (some 0)).posMode 2 = 3) ∧
      ((wSer (some 0)).px 2).serAt ≠ none ∧
      (24 = (wSer (some 0)).getF (posB 2) F.SER_CFG_WIDTH) ∧
      (16777215 = 16777215 % 2 ^ 24) ∧
      (false = false) ∧
      ((wSer (some 0)).serCrc 2 false 16777215 = (BitVec.ofNat 16 ((wSer none).serCrc 2 false 16777215)).toNat % 2 ^ (wSer (some 0)).serCrcLen 2) ∧
      ((wSer (some 0)).drivenBy 2 = [])) :=
  by decide +kernel

theorem wit_IndexEvents_1 :
    (((if (wIdxA.px 2).zRaw = true then (wIdxA.px 2).zHeld + 3 else 3) < wIdxA.filterNeed 2) ∧
      wIdxA.filterNeed 2 ≤ 16) ∧
    (((wIdx 0 none).filterNeed 2 ≤ if ((wIdx 0 none).px 2).zRaw = true then ((wIdx 0 none).px 2).zHeld + 4 else 4) ∧
      (wIdx 0 none).filterNeed 2 ≤ 16 ∧
      ((wIdx 0 none).px 2).z ≠ true ∧
      (true = (wIdx 0 none).zLevel 2) ∧
      ((wIdx 0 none).posRun 2 = true) ∧
      ((wIdx 0 none).getF (posB 2) F.IDX_CFG_IDX_EN = 1) ∧
      (((wIdx 0 none).px 2).idx = none)) ∧
    ((wIdxA.filterNeed 2 ≤ if (wIdxA.px 2).zRaw = true then (wIdxA.px 2).zHeld + 4 else 4) ∧
      wIdxA.filterNeed 2 ≤ 16 ∧
      (wIdxA.px 2).z ≠ true ∧
      (true = wIdxA.zLevel 2) ∧
      (wIdxA.posRun 2 = true) ∧
      (wIdxA.getF (posB 2) F.IDX_CFG_IDX_EN = 1)) ∧
    ((wIdxB.filterNeed 2 ≤ if (wIdxB.px 2).zRaw = true then (wIdxB.px 2).zHeld + 4 else 4) ∧
      wIdxB.filterNeed 2 ≤ 16 ∧
      (wIdxB.px 2).z ≠ true ∧
      (true = wIdxB.zLevel 2) ∧
      (wIdxB.posRun 2 = true) ∧
      (wIdxB.getF (posB 2) F.IDX_CFG_IDX_EN = 1) ∧
      (wIdxB.getF (posB 2) F.POS_CTRL_IDX_MODE = 0)) ∧
    ((wIdxC.filterNeed 2 ≤ if (wIdxC.px 2).zRaw = true then (wIdxC.px 2).zHeld + 4 else 4) ∧
      wIdxC.filterNeed 2 ≤ 16 ∧
      (wIdxC.px 2).z ≠ true ∧
      (true = wIdxC.zLevel 2) ∧
      (wIdxC.posRun 2 = true) ∧
      (wIdxC.getF (posB 2) F.IDX_CFG_IDX_EN = 1) ∧
      (wIdxC.getF (posB 2) F.POS_CTRL_IDX_MODE = 1)) ∧
    ((wIdxA.filterNeed 2 ≤ if (wIdxA.px 2).zRaw = false then (wIdxA.px 2).zHeld + 4 else 4) ∧
      wIdxA.filterNeed 2 ≤ 16 ∧
      ((wIdxA.px 2).z = false)) :=
  by decide +kernel

theorem wit_CourseSync_1 :
    ((3 = (wSync 1 {  : Grp }).getF syncB F.SYNC_CTRL_SYNC_GROUP) ∧
      3 < 16 ∧
      (wSync 1 {  : Grp }).getF syncB F.SYNC_CTRL_SYNC_MODE ≠ 2) ∧
    ((3 = (wSync 2 { st := 1 : Grp }).getF syncB F.SYNC_CTRL_SYNC_GROUP) ∧
      3 < 16 ∧
      ((wSync 2 { st := 1 : Grp }).getF syncB F.SYNC_CTRL_SYNC_MODE = 2) ∧
      (((wSync 2 { st := 1 : Grp }).g 3).st = 1)) ∧
    ((3 = (wSync 2 { st := 3 : Grp }).getF syncB F.SYNC_CTRL_SYNC_GROUP) ∧
      3 < 16 ∧
      ((wSync 2 { st := 3 : Grp }).g 3).st ≠ 1 ∧
      ((wSync 2 { st := 3 : Grp }).running 3 = false)) ∧
    ((3 = (wSync 2 { st := 2 : Grp }).getF syncB F.SYNC_CTRL_SYNC_GROUP) ∧
      3 < 16 ∧
      ((wSync 2 { st := 2 : Grp }).getF syncB F.SYNC_CTRL_SYNC_MODE = 2) ∧
      ((wSync 2 { st := 2 : Grp }).running 3 = true) ∧
      ((wSync 2 { st := 2 : Grp }).sync.trig = none)) ∧
    ((3 = (wFol 1024 92).getF syncB F.SYNC_CTRL_SYNC_GROUP) ∧
      3 < 16 ∧
      ((wFol 1024 92).getF syncB F.SYNC_CTRL_SYNC_MODE = 2) ∧
      ((wFol 1024 92).running 3 = true) ∧
      ((wFol 1024 92).sync.trig = some (1024, 92)) ∧
      (1024 = if (wFol 1024 92).getF syncB F.SYNC_CTRL_SYNC_LOG = 0 then 0 else ((wFol 1024 92).sync.n + 1) * 2 ^ (wFol 1024 92).getF syncB F.SYNC_CTRL_SYNC_LOG) ∧
      (1024 = 1024) ∧
      (wFol 1024 92).now - 92 ≤ (wFol 1024 92).getF syncB F.SYNC_CTRL_SYNC_TOL) ∧
    ((3 = (wFol 1024 91).getF syncB F.SYNC_CTRL_SYNC_GROUP) ∧
      3 < 16 ∧
      ((wFol 1024 91).getF syncB F.SYNC_CTRL_SYNC_MODE = 2) ∧
      ((wFol 1024 91).running 3 = true) ∧
      ((wFol 1024 91).sync.trig = some (1024, 91)) ∧
      (1024 = if (wFol 1024 91).getF syncB F.SYNC_CTRL_SYNC_LOG = 0 then 0 else ((wFol 1024 91).sync.n + 1) * 2 ^ (wFol 1024 91).getF syncB F.SYNC_CTRL_SYNC_LOG) ∧
      (1024 < 1024 ∨ 1024 = 1024 ∧ (wFol 1024 91).getF syncB F.SYNC_CTRL_SYNC_TOL < (wFol 1024 91).now - 91) ∧
      (1024 = 1024)) ∧
    ((3 = (wFol 0 91).getF syncB F.SYNC_CTRL_SYNC_GROUP) ∧
      3 < 16 ∧
      ((wFol 0 91).getF syncB F.SYNC_CTRL_SYNC_MODE = 2) ∧
      ((wFol 0 91).running 3 = true) ∧
      ((wFol 0 91).sync.trig = some (0, 91)) ∧
      (1024 = if (wFol 0 91).getF syncB F.SYNC_CTRL_SYNC_LOG = 0 then 0 else ((wFol 0 91).sync.n + 1) * 2 ^ (wFol 0 91).getF syncB F.SYNC_CTRL_SYNC_LOG) ∧
      0 < 1024) :=
  by decide +kernel

theorem wit_CourseSync_2 :
    (3 = (wFol 2048 91).getF syncB F.SYNC_CTRL_SYNC_GROUP) ∧
    3 < 16 ∧
    ((wFol 2048 91).getF syncB F.SYNC_CTRL_SYNC_MODE = 2) ∧
    ((wFol 2048 91).running 3 = true) ∧
    ((wFol 2048 91).sync.trig = some (2048, 91)) ∧
    (1024 = if (wFol 2048 91).getF syncB F.SYNC_CTRL_SYNC_LOG = 0 then 0 else ((wFol 2048 91).sync.n + 1) * 2 ^ (wFol 2048 91).getF syncB F.SYNC_CTRL_SYNC_LOG) ∧
    (1024 < 2048 ∨ 2048 = 1024 ∧ (wFol 2048 91).getF syncB F.SYNC_CTRL_SYNC_TOL < (wFol 2048 91).now - 91) :=
  by decide +kernel

theorem wit_CourseCloses_1 :
    (((wClose.g 3).openC = some 6) ∧
      wClose.nextClose 3 ≤ 6) ∧
    ((((wGrp { st := 2, openC := some 6, closed := some 6 } wDev).g 3).openC = some 6) ∧
      6 < (wGrp { st := 2, openC := some 6, closed := some 6 } wDev).nextClose 3) :=
  by decide +kernel

theorem wit_StampedInputs_1 :
    ((pick (fun i => i.cls == 3 && i.src == 9) wDev.flight = none)) ∧
    ((pick (fun i => i.cls == 3 && i.src == 9) (wFly (6 : Int)).flight = some ({ grp := 3, cls := 3, src := 9, stamp := (6 : Int), eff := (0 : Int), what := Payload.aux 9 (5 : Int), dev := false }, [])) ∧
      (0 : Int) ≤ { grp := 3, cls := 3, src := 9, stamp := (6 : Int), eff := (0 : Int), what := Payload.aux 9 (5 : Int), dev := false : Stamped }.stamp ∧
      (((wFly (6 : Int)).g { grp := 3, cls := 3, src := 9, stamp := (6 : Int), eff := (0 : Int), what := Payload.aux 9 (5 : Int), dev := false : Stamped }.grp).st = 2) ∧
      ((6 : Int) = max { grp := 3, cls := 3, src := 9, stamp := (6 : Int), eff := (0 : Int), what := Payload.aux 9 (5 : Int), dev := false : Stamped }.stamp (Int.ofNat ((wFly (6 : Int)).nextClose { grp := 3, cls := 3, src := 9, stamp := (6 : Int), eff := (0 : Int), what := Payload.aux 9 (5 : Int), dev := false : Stamped }.grp))) ∧
      ({ grp := 3, cls := 3, src := 9, stamp := (6 : Int), eff := (0 : Int), what := Payload.aux 9 (5 : Int), dev := false : Stamped }.items = []) ∧
      Int.ofNat ((wFly (6 : Int)).nextClose { grp := 3, cls := 3, src := 9, stamp := (6 : Int), eff := (0 : Int), what := Payload.aux 9 (5 : Int), dev := false : Stamped }.grp) ≤ { grp := 3, cls := 3, src := 9, stamp := (6 : Int), eff := (0 : Int), what := Payload.aux 9 (5 : Int), dev := false : Stamped }.stamp) ∧
    ((pick (fun i => i.cls == 3 && i.src == 9) (wFly (5 : Int)).flight = some ({ grp := 3, cls := 3, src := 9, stamp := (5 : Int), eff := (0 : Int), what := Payload.aux 9 (5 : Int), dev := false }, [])) ∧
      (0 : Int) ≤ { grp := 3, cls := 3, src := 9, stamp := (5 : Int), eff := (0 : Int), what := Payload.aux 9 (5 : Int), dev := false : Stamped }.stamp ∧
      (((wFly (5 : Int)).g { grp := 3, cls := 3, src := 9, stamp := (5 : Int), eff := (0 : Int), what := Payload.aux 9 (5 : Int), dev := false : Stamped }.grp).st = 2) ∧
      ((6 : Int) = max { grp := 3, cls := 3, src := 9, stamp := (5 : Int), eff := (0 : Int), what := Payload.aux 9 (5 : Int), dev := false : Stamped }.stamp (Int.ofNat ((wFly (5 : Int)).nextClose { grp := 3, cls := 3, src := 9, stamp := (5 : Int), eff := (0 : Int), what := Payload.aux 9 (5 : Int), dev := false : Stamped }.grp))) ∧
      ({ grp := 3, cls := 3, src := 9, stamp := (5 : Int), eff := (0 : Int), what := Payload.aux 9 (5 : Int), dev := false : Stamped }.items = []) ∧
      { grp := 3, cls := 3, src := 9, stamp := (5 : Int), eff := (0 : Int), what := Payload.aux 9 (5 : Int), dev := false : Stamped }.stamp < Int.ofNat ((wFly (5 : Int)).nextClose { grp := 3, cls := 3, src := 9, stamp := (5 : Int), eff := (0 : Int), what := Payload.aux 9 (5 : Int), dev := false : Stamped }.grp)) ∧
    ((pick (fun i => i.cls == 5 && i.src == 0) (wFlyW (5 : Int)).flight = some ({ grp := 3, cls := 5, src := 0, stamp := (5 : Int), eff := (0 : Int), what := Payload.write 1 false 0 0 [] [{ key := F.MASK_HOLD_HOLD_LEN.key (gsegB 3), val := 7, w1c := false }], dev := false, no := 2 }, [])) ∧
      (0 : Int) ≤ { grp := 3, cls := 5, src := 0, stamp := (5 : Int), eff := (0 : Int), what := Payload.write 1 false 0 0 [] [{ key := F.MASK_HOLD_HOLD_LEN.key (gsegB 3), val := 7, w1c := false }], dev := false, no := 2 : Stamped }.stamp ∧
      (((wFlyW (5 : Int)).g { grp := 3, cls := 5, src := 0, stamp := (5 : Int), eff := (0 : Int), what := Payload.write 1 false 0 0 [] [{ key := F.MASK_HOLD_HOLD_LEN.key (gsegB 3), val := 7, w1c := false }], dev := false, no := 2 : Stamped }.grp).st = 2) ∧
      ((6 : Int) = max { grp := 3, cls := 5, src := 0, stamp := (5 : Int), eff := (0 : Int), what := Payload.write 1 false 0 0 [] [{ key := F.MASK_HOLD_HOLD_LEN.key (gsegB 3), val := 7, w1c := false }], dev := false, no := 2 : Stamped }.stamp (Int.ofNat ((wFlyW (5 : Int)).nextClose { grp := 3, cls := 5, src := 0, stamp := (5 : Int), eff := (0 : Int), what := Payload.write 1 false 0 0 [] [{ key := F.MASK_HOLD_HOLD_LEN.key (gsegB 3), val := 7, w1c := false }], dev := false, no := 2 : Stamped }.grp))) ∧
      { grp := 3, cls := 5, src := 0, stamp := (5 : Int), eff := (0 : Int), what := Payload.write 1 false 0 0 [] [{ key := F.MASK_HOLD_HOLD_LEN.key (gsegB 3), val := 7, w1c := false }], dev := false, no := 2 : Stamped }.stamp < Int.ofNat ((wFlyW (5 : Int)).nextClose { grp := 3, cls := 5, src := 0, stamp := (5 : Int), eff := (0 : Int), what := Payload.write 1 false 0 0 [] [{ key := F.MASK_HOLD_HOLD_LEN.key (gsegB 3), val := 7, w1c := false }], dev := false, no := 2 : Stamped }.grp)) :=
  by decide +kernel


end W2

/-! ### Witnesses: Camera ingest -/

namespace W3

def wGrp (x : Grp) (s : State) : State := s.setG 3 x
def wLane (st : Nat) (fs : List (Nat × Fld × Nat)) : State := wSet wDev ([(ingB 8, F.LANE_STATUS_STATE, st), (corrB 9, F.CORR_CTRL_LAMP_EN, 0)] ++ fs)
def wNoCam : State := wLane 1 []
def wReady : State := wLane 5 []
def wJoin : State := wGrp { st := 2, openC := some 6, closed := some 5 } (wLane 6 [(ingB 8, F.ING_STATUS_JOINED, 1), (gseamB 3, F.GRP_SEAM_FIRST_CH, 8), (gseamB 3, F.GRP_SEAM_COUNT, 2)])
def wTrn (a b : Nat) : Nat := 0x33 * 2 ^ 56 + a * 2 ^ 48 + b * 2 ^ 32
def wTrnF (a b : Nat) : BitVec 64 := BitVec.ofNat 64 (wTrn a b + crc8 (wTrn a b))
def wPkt (vc dt : Nat) (ws : List Nat) : List (BitVec 64) := (packet vc dt 9 ws).map (BitVec.ofNat 64)
def wBadH : List (BitVec 64) := [0x55C0000100000000, 2]
def wId0 : Nat := 0x01 * 2 ^ 56 + 1 * 2 ^ 48 + 0x1234 * 2 ^ 32 + 0x5678 * 2 ^ 16
def wCtl : State := { (wReady.setLn 8 { tags := [(3, 5, 7, 1)] }) with sess := [{ wSess with outst := [⟨wHd, 0x0304, 0, none⟩] }] }
def wBond (b d : Nat) : State := (wLane 3 [(ingB 8, F.LANE_CTRL_BOND, b), (ingB 9, F.LANE_CTRL_BOND, b)]).setLn 9 { align := some (7, d) }
def wAcc (lines : List Line) : State := (wSet wJoin [(ingB 8, F.ING_FMT_DT_EXPECT, 1), (ingB 8, F.ING_CFG_LINE_LEN, 8)]).setCh 8 { spans := [(0, none)], next := 5, lines := lines }
def wLn (e : Nat) : List Nat := [0x55 * 2 ^ 32 + e, 0x0003 * 2 ^ 48 + 8 * 2 ^ 16 + 1 * 2 ^ 8, 0x0102030405060708]

theorem wit_LaneSignals_1 :
    (wNoCam.laneState 8 ≠ 0 ∧
      (wNoCam.laneState 8 ≠ 5 ∧ wNoCam.laneState 8 ≠ 6 ∨ wNoCam.getF (ingB 8) F.LANE_CTRL_SRC_SEL = 1) ∧
      (wNoCam.laneState 8 = 1) ∧
      ((wNoCam.ln 8).announced = false)) ∧
    (wReady.laneState 8 ≠ 0 ∧
      (wReady.laneState 8 = 5 ∨ wReady.laneState 8 = 6) ∧
      (wReady.getF (ingB 8) F.LANE_CTRL_SRC_SEL = 0) ∧
      ((wReady.ln 8).announced = false)) ∧
    ((wLane 3 []).laneState 8 ≠ 0 ∧
      (((wLane 3 []).ln 8).announced = false)) ∧
    (((wLane 7 []).setLn 8 { announced := true : Lane }).laneState 8 ≠ 0 ∧
      ((((wLane 7 []).setLn 8 { announced := true : Lane }).ln 8).announced = true)) ∧
    ((wLane 1 []).laneState 8 ≠ 0 ∧
      (((wLane 1 []).ln 8).announced = false)) ∧
    ((wLane 4 []).laneState 8 ≠ 0 ∧
      (wLane 4 []).laneState 8 ≠ 5 ∧
      (wLane 4 []).laneState 8 ≠ 6) ∧
    (wReady.laneState 8 ≠ 0 ∧
      (wReady.laneState 8 = 5) ∧
      (wReady.getF (ingB 8) F.LANE_CTRL_SRC_SEL = 0)) ∧
    ((wLane 6 [(ingB 8, F.LANE_CTRL_SRC_SEL, 1)]).laneState 8 ≠ 0 ∧
      ((wLane 6 [(ingB 8, F.LANE_CTRL_SRC_SEL, 1)]).getF (ingB 8) F.LANE_CTRL_SRC_SEL = 1)) :=
  by decide +kernel

theorem wit_LaneSignals_2 :
    (wJoin.laneState 8 ≠ 0 ∧
      (wJoin.laneState 8 = 6) ∧
      (wJoin.getF (ingB 8) F.LANE_CTRL_SRC_SEL = 0)) ∧
    ((wLane 1 [(ingB 8, F.LANE_STATUS_LOS, 0)]).laneState 8 ≠ 0 ∧
      ((wLane 1 [(ingB 8, F.LANE_STATUS_LOS, 0)]).laneState 8 = 1) ∧
      ((wLane 1 [(ingB 8, F.LANE_STATUS_LOS, 0)]).getF (ingB 8) F.LANE_STATUS_LOS = 0) ∧
      ((wLane 1 [(ingB 8, F.LANE_STATUS_LOS, 0)]).getF (ingB 8) F.LANE_CTRL_SRC_SEL = 0)) :=
  by decide +kernel

theorem wit_LaneTimeouts_1 :
    (((wLane 2 []).laneState 8 = 2)) ∧
    (((wLane 8 []).laneState 8 = 8)) ∧
    (((wLane 3 []).laneState 8 = 3) ∧
      ((wLane 3 []).getF (ingB 8) F.LANE_STATUS_LOCK = 0)) ∧
    (((wLane 4 []).laneState 8 = 4)) ∧
    (2 ≤ (wLane 2 [(ingB 8, F.LANE_STATUS_LOS, 1)]).laneState 8 ∧
      ((wLane 2 [(ingB 8, F.LANE_STATUS_LOS, 1)]).getF (ingB 8) F.LANE_STATUS_LOS = 1) ∧
      (((wLane 2 [(ingB 8, F.LANE_STATUS_LOS, 1)]).ln 8).announced = false) ∧
      ((wLane 2 [(ingB 8, F.LANE_STATUS_LOS, 1)]).getF (ingB 8) F.LANE_CTRL_SRC_SEL = 0)) ∧
    (((((wLane 7 []).setLn 8 { waking := true : Lane }).ln 8).waking = true) ∧
      (((wLane 7 []).setLn 8 { waking := true : Lane }).laneState 8 = 7)) ∧
    ((wJoin.laneState 8 = 6) ∧
      (wJoin.getF (ingB 8) F.LANE_STATUS_LOCK = 0) ∧
      (wJoin.getF (ingB 8) F.LANE_CTRL_SRC_SEL = 0) ∧
      wJoin.bond 8 ≠ 3) ∧
    (((wSet wJoin [(ingB 8, F.LANE_CTRL_BOND, 3), (ingB 9, F.LANE_CTRL_BOND, 3), (ingB 9, F.LANE_STATUS_STATE, 6)]).laneState 8 = 6) ∧
      ((wSet wJoin [(ingB 8, F.LANE_CTRL_BOND, 3), (ingB 9, F.LANE_CTRL_BOND, 3), (ingB 9, F.LANE_STATUS_STATE, 6)]).getF (ingB 8) F.LANE_STATUS_LOCK = 0) ∧
      ((wSet wJoin [(ingB 8, F.LANE_CTRL_BOND, 3), (ingB 9, F.LANE_CTRL_BOND, 3), (ingB 9, F.LANE_STATUS_STATE, 6)]).getF (ingB 8) F.LANE_CTRL_SRC_SEL = 0) ∧
      ((wSet wJoin [(ingB 8, F.LANE_CTRL_BOND, 3), (ingB 9, F.LANE_CTRL_BOND, 3), (ingB 9, F.LANE_STATUS_STATE, 6)]).bond 8 = 3) ∧
      ((wSet wJoin [(ingB 8, F.LANE_CTRL_BOND, 3), (ingB 9, F.LANE_CTRL_BOND, 3), (ingB 9, F.LANE_STATUS_STATE, 6)]).laneState (if 8 % 2 = 0 then 8 + 1 else 8 - 1) = 6)) :=
  by decide +kernel

theorem wit_LaneRequests_1 :
    (((wSet (wLane 0 []) [(ingB 8, F.LANE_CTRL_BOND, 1)]).bondWhole 8 = false)) ∧
    ((wSet (wLane 0 []) [(ingB 8, F.CAM_RING_CAM_EN, 1)]).laneStatus 8 ≠ stOk) ∧
    (((wLane 5 [(ingB 8, F.LANE_CTRL_SRC_SEL, 1)]).getF (ingB 8) F.LANE_CTRL_SRC_SEL = 1)) ∧
    (((wLane 0 []).laneState 8 = 0) ∧
      ((wLane 0 []).getF (ingB 8) F.LANE_CTRL_SRC_SEL = 0) ∧
      ((wLane 0 []).bondWhole 8 = true) ∧
      ((wLane 0 []).laneStatus 8 = stOk) ∧
      ((wLane 0 []).laneState 8 ≠ 5 ∧ (wLane 0 []).laneState 8 ≠ 6 ∨ (wLane 0 []).getF (ingB 8) F.LANE_CTRL_SRC_SEL = 1) ∧
      ((wLane 0 []).laneState 8 ≠ 7 ∨ (wLane 0 []).getF (ingB 8) F.LANE_CTRL_SRC_SEL = 1)) ∧
    (((wSet (wLane 0 []) [(clkB, F.CLK_SRC_NET_REF, 1)]).laneState 8 = 0) ∧
      ((wSet (wLane 0 []) [(clkB, F.CLK_SRC_NET_REF, 1)]).getF (ingB 8) F.LANE_CTRL_SRC_SEL = 0) ∧
      ((wSet (wLane 0 []) [(clkB, F.CLK_SRC_NET_REF, 1)]).bondWhole 8 = true) ∧
      ((wSet (wLane 0 []) [(clkB, F.CLK_SRC_NET_REF, 1)]).laneStatus 8 = stOk) ∧
      ((wSet (wLane 0 []) [(clkB, F.CLK_SRC_NET_REF, 1)]).laneState 8 ≠ 5 ∧ (wSet (wLane 0 []) [(clkB, F.CLK_SRC_NET_REF, 1)]).laneState 8 ≠ 6 ∨ (wSet (wLane 0 []) [(clkB, F.CLK_SRC_NET_REF, 1)]).getF (ingB 8) F.LANE_CTRL_SRC_SEL = 1) ∧
      ((wSet (wLane 0 []) [(clkB, F.CLK_SRC_NET_REF, 1)]).laneState 8 ≠ 7 ∨ (wSet (wLane 0 []) [(clkB, F.CLK_SRC_NET_REF, 1)]).getF (ingB 8) F.LANE_CTRL_SRC_SEL = 1)) ∧
    ((wReady.laneState 8 = 5 ∨ wReady.laneState 8 = 6) ∧
      (wReady.getF (ingB 8) F.LANE_CTRL_SRC_SEL = 0) ∧
      (wReady.laneState 8 ≠ 7 ∨ wReady.getF (ingB 8) F.LANE_CTRL_SRC_SEL = 1)) ∧
    ((({ wLane 7 [] with now := 2500000000 : State }).laneState 8 ≠ 5 ∧ ({ wLane 7 [] with now := 2500000000 : State }).laneState 8 ≠ 6 ∨ ({ wLane 7 [] with now := 2500000000 : State }).getF (ingB 8) F.LANE_CTRL_SRC_SEL = 1) ∧
      (({ wLane 7 [] with now := 2500000000 : State }).laneState 8 = 7) ∧
      (({ wLane 7 [] with now := 2500000000 : State }).getF (ingB 8) F.LANE_CTRL_SRC_SEL = 0)) ∧
    ((({ wLane 7 [] with now := 2500000001 : State }).laneState 8 ≠ 5 ∧ ({ wLane 7 [] with now := 2500000001 : State }).laneState 8 ≠ 6 ∨ ({ wLane 7 [] with now := 2500000001 : State }).getF (ingB 8) F.LANE_CTRL_SRC_SEL = 1) ∧
      (({ wLane 7 [] with now := 2500000001 : State }).laneState 8 = 7) ∧
      (({ wLane 7 [] with now := 2500000001 : State }).getF (ingB 8) F.LANE_CTRL_SRC_SEL = 0)) :=
  by decide +kernel

theorem wit_LaneTraining_1 :
    (((wLane 2 []).laneState 8 = 2) ∧
      (octet (3674937295934324736) 0 ≠ 51 ∨ octet (3674937295934324736) 7 ≠ crc8 (3674937295934324736))) ∧
    ((((wLane 2 []).setLn 8 { trnReady := 7 : Lane }).laneState 8 = 2) ∧
      (octet (wTrnF 64 160).toNat 0 = 51) ∧
      (octet (wTrnF 64 160).toNat 7 = crc8 (wTrnF 64 160).toNat) ∧
      (8 = if (bit (octet (wTrnF 64 160).toNat 3) 7 && true) = true then (((wLane 2 []).setLn 8 { trnReady := 7 : Lane }).ln 8).trnReady + 1 else 0) ∧
      (((wLane 2 []).setLn 8 { trnReady := 7 : Lane }).flag (ingB 8) F.LANE_CTRL_FIR_OVR = false) ∧
      (bit (octet (wTrnF 64 160).toNat 1) 3 = false) ∧
      (bit (octet (wTrnF 64 160).toNat 3) 5 = true)) ∧
    ((((wLane 2 []).setLn 8 { trnReady := 6, pre := 3, post := 2 : Lane }).laneState 8 = 2) ∧
      (octet (wTrnF 8 128).toNat 0 = 51) ∧
      (octet (wTrnF 8 128).toNat 7 = crc8 (wTrnF 8 128).toNat) ∧
      (0 = if (bit (octet (wTrnF 8 128).toNat 3) 7 && false) = true then (((wLane 2 []).setLn 8 { trnReady := 6, pre := 3, post := 2 : Lane }).ln 8).trnReady + 1 else 0) ∧
      (((wLane 2 []).setLn 8 { trnReady := 6, pre := 3, post := 2 : Lane }).flag (ingB 8) F.LANE_CTRL_FIR_OVR = false) ∧
      (bit (octet (wTrnF 8 128).toNat 1) 3 = true)) ∧
    (((wSet ((wLane 2 []).setLn 8 { trnReady := 6, pre := 3, post := 2 }) [(ingB 8, F.LANE_CTRL_FIR_OVR, 1)]).laneState 8 = 2) ∧
      (octet (wTrnF 64 128).toNat 0 = 51) ∧
      (octet (wTrnF 64 128).toNat 7 = crc8 (wTrnF 64 128).toNat) ∧
      (7 = if (bit (octet (wTrnF 64 128).toNat 3) 7 && true) = true then ((wSet ((wLane 2 []).setLn 8 { trnReady := 6, pre := 3, post := 2 }) [(ingB 8, F.LANE_CTRL_FIR_OVR, 1)]).ln 8).trnReady + 1 else 0) ∧
      ((wSet ((wLane 2 []).setLn 8 { trnReady := 6, pre := 3, post := 2 }) [(ingB 8, F.LANE_CTRL_FIR_OVR, 1)]).flag (ingB 8) F.LANE_CTRL_FIR_OVR = true)) :=
  by decide +kernel

theorem wit_LanePackets_1 :
    ((wLane 4 []).laneState 8 ≠ 0 ∧
      (Instr.identReceived (8 : Fin 128) wBadH = Instr.identReceived (8 : Fin 128) wBadH) ∧
      (checkPacket (List.map BitVec.toNat wBadH) false = PktCheck.hcrc)) ∧
    ((wLane 4 []).laneState 8 ≠ 0 ∧
      (Instr.cameraDataPacket (8 : Fin 128) wBadH false = Instr.cameraDataPacket (8 : Fin 128) wBadH false) ∧
      (checkPacket (List.map BitVec.toNat wBadH) false = PktCheck.hcrc)) ∧
    ((wLane 4 []).laneState 8 ≠ 0 ∧
      (Instr.controlReplyReceived (8 : Fin 128) wBadH = Instr.controlReplyReceived (8 : Fin 128) wBadH) ∧
      (checkPacket (List.map BitVec.toNat wBadH) false = PktCheck.hcrc)) ∧
    ((wLane 4 []).laneState 8 ≠ 0 ∧
      (Instr.identReceived (8 : Fin 128) (wPkt 2 32 [1]) = Instr.identReceived (8 : Fin 128) (wPkt 2 32 [1])) ∧
      (checkPacket (List.map BitVec.toNat (wPkt 2 32 [1])) false = PktCheck.vc)) ∧
    ((wLane 4 []).laneState 8 ≠ 0 ∧
      (Instr.identReceived (8 : Fin 128) [(1 : BitVec 64), (2 : BitVec 64)] = Instr.identReceived (8 : Fin 128) [(1 : BitVec 64), (2 : BitVec 64)]) ∧
      (checkPacket (List.map BitVec.toNat [(1 : BitVec 64), (2 : BitVec 64)]) false = PktCheck.none)) ∧
    ((wLane 4 []).laneState 8 ≠ 0 ∧
      (checkPacket (List.map BitVec.toNat (wPkt 2 48 [wId0, 7, 0, 0])) false = PktCheck.ok 2 48 9 [wId0, 7, 0, 0]) ∧
      (octet ([wId0, 7, 0, 0].headD 0) 0 = 1) ∧
      ((wLane 4 []).laneState 8 = 4)) ∧
    (wJoin.laneState 8 ≠ 0 ∧
      (checkPacket (List.map BitVec.toNat (wPkt 2 48 [wId0, 7, 2 ^ 38, 0])) false = PktCheck.ok 2 48 9 [wId0, 7, 2 ^ 38, 0]) ∧
      (octet ([wId0, 7, 2 ^ 38, 0].headD 0) 0 = 1) ∧
      (wJoin.identBad 8 [wId0, 7, 2 ^ 38, 0] = true) ∧
      wJoin.laneState 8 ≠ 4 ∧
      (wJoin.laneState 8 = 6) ∧
      [wId0, 7, 2 ^ 38, 0].getD 1 0 ≠ wJoin.getF (ingB 8) F.CAM_ID1_ID1) ∧
    (wCtl.laneState 8 ≠ 0 ∧
      (checkPacket (List.map BitVec.toNat (wPkt 2 49 [72902018968059904, 55])) false = PktCheck.ok 2 49 9 [72902018968059904, 55]) ∧
      (Tab.find (octet ([72902018968059904, 55].headD 0) 1) (wCtl.ln 8).tags = some (5, 7, 1))) :=
  by decide +kernel

theorem wit_LanePackets_2 :
    (wCtl.laneState 8 ≠ 0 ∧
      ((wCtl.ln 8).tags[0]? = some (3, 5, 7, 1)) ∧
      (Tab.find 3 (wCtl.ln 8).tags = some (5, 7, 1))) ∧
    (wReady.laneState 8 ≠ 0 ∧
      (1 = 1) ∧
      (checkPacket (List.map BitVec.toNat (wPkt 1 32 [1, 2, 3])) false = PktCheck.ok 1 32 9 [1, 2, 3]) ∧
      (wReady.getF (ingB 8) F.CAM_RING_CAM_EN = 0)) ∧
    (wReady.laneState 8 ≠ 0 ∧
      (3 = 3) ∧
      (checkPacket (List.map BitVec.toNat (wPkt 3 56 [1, 2, 3])) false = PktCheck.ok 3 56 9 [1, 2, 3]) ∧
      (wReady.getF (ingB 8) F.CAM_RING_CAM_EN = 0)) :=
  by decide +kernel

theorem wit_BondAlignment_1 :
    (((wLane 3 []).laneState 8 < 3 ∨ (wLane 3 []).bond 8 = 0 ∨ (wLane 3 []).bond 8 = 3)) ∧
    (((wLane 2 [(ingB 8, F.LANE_CTRL_BOND, 2)]).laneState 8 < 3 ∨ (wLane 2 [(ingB 8, F.LANE_CTRL_BOND, 2)]).bond 8 = 0 ∨ (wLane 2 [(ingB 8, F.LANE_CTRL_BOND, 2)]).bond 8 = 3)) ∧
    (3 ≤ (wBond 1 5).laneState 8 ∧
      ((wBond 1 5).bond 8 = 1) ∧
      (skewOf (7) (List.map (fun m => (((wBond 1 5).setLn 8 (have __src := (wBond 1 5).ln 8; { announced := __src.announced, hold := __src.hold, aligned := __src.aligned, align := some (7, 37), scr := __src.scr, sym := __src.sym, waking := __src.waking, idleSince := __src.idleSince, trnReady := __src.trnReady, frame := __src.frame, pre := __src.pre, post := __src.post, seqTx := __src.seqTx, seqRx := __src.seqRx, seqGaps := __src.seqGaps, tags := __src.tags, nextTag := __src.nextTag, last := __src.last, lineSince := __src.lineSince, memLine := __src.memLine })).ln m).align) ((wBond 1 5).bondLanes 8)) = some 32) ∧
      32 ≤ 32) ∧
    (3 ≤ (wBond 1 5).laneState 8 ∧
      ((wBond 1 5).bond 8 = 1) ∧
      (skewOf (7) (List.map (fun m => (((wBond 1 5).setLn 8 (have __src := (wBond 1 5).ln 8; { announced := __src.announced, hold := __src.hold, aligned := __src.aligned, align := some (7, 38), scr := __src.scr, sym := __src.sym, waking := __src.waking, idleSince := __src.idleSince, trnReady := __src.trnReady, frame := __src.frame, pre := __src.pre, post := __src.post, seqTx := __src.seqTx, seqRx := __src.seqRx, seqGaps := __src.seqGaps, tags := __src.tags, nextTag := __src.nextTag, last := __src.last, lineSince := __src.lineSince, memLine := __src.memLine })).ln m).align) ((wBond 1 5).bondLanes 8)) = some 33) ∧
      32 < 33) ∧
    (3 ≤ (wBond 1 5).laneState 8 ∧
      ((wBond 1 5).bond 8 = 1) ∧
      (skewOf (8) (List.map (fun m => (((wBond 1 5).setLn 8 (have __src := (wBond 1 5).ln 8; { announced := __src.announced, hold := __src.hold, aligned := __src.aligned, align := some (8, 38), scr := __src.scr, sym := __src.sym, waking := __src.waking, idleSince := __src.idleSince, trnReady := __src.trnReady, frame := __src.frame, pre := __src.pre, post := __src.post, seqTx := __src.seqTx, seqRx := __src.seqRx, seqGaps := __src.seqGaps, tags := __src.tags, nextTag := __src.nextTag, last := __src.last, lineSince := __src.lineSince, memLine := __src.memLine })).ln m).align) ((wBond 1 5).bondLanes 8)) = none)) ∧
    (3 ≤ (wBond 2 5).laneState 8 ∧
      ((wBond 2 5).bond 8 = 2) ∧
      (skewOf (7) (List.map (fun m => (((wBond 2 5).setLn 8 (have __src := (wBond 2 5).ln 8; { announced := __src.announced, hold := __src.hold, aligned := __src.aligned, align := some (7, 38), scr := __src.scr, sym := __src.sym, waking := __src.waking, idleSince := __src.idleSince, trnReady := __src.trnReady, frame := __src.frame, pre := __src.pre, post := __src.post, seqTx := __src.seqTx, seqRx := __src.seqRx, seqGaps := __src.seqGaps, tags := __src.tags, nextTag := __src.nextTag, last := __src.last, lineSince := __src.lineSince, memLine := __src.memLine })).ln m).align) ((wBond 2 5).bondLanes 8)) = none)) :=
  by decide +kernel

theorem wit_LineAcceptance_1 :
    ((wAcc []).laneState 8 ≠ 0 ∧
      ((wAcc []).getF (ingB 8) F.LANE_CTRL_SRC_SEL = 0) ∧
      ((wAcc []).bond 8 = 0) ∧
      ((wAcc []).joined 8 = true) ∧
      ((wAcc []).groupOf 8 = some 3) ∧
      (checkPacket (List.map BitVec.toNat (wPkt 0 2 (wLn 7))) false = PktCheck.ok 0 2 9 (wLn 7)) ∧
      ((7 : Int) = extendEcho ((wAcc []).stampG 3) (bits ((wLn 7).headD 0) 31 0)) ∧
      (2 ≠ (wAcc []).getF (ingB 8) F.ING_FMT_DT_EXPECT ∨ (wLn 7).length < 2)) ∧
    ((wAcc []).laneState 8 ≠ 0 ∧
      ((wAcc []).getF (ingB 8) F.LANE_CTRL_SRC_SEL = 0) ∧
      ((wAcc []).bond 8 = 0) ∧
      ((wAcc []).joined 8 = true) ∧
      ((wAcc []).groupOf 8 = some 3) ∧
      (checkPacket (List.map BitVec.toNat (wPkt 0 1 (wLn 7))) false = PktCheck.ok 0 1 9 (wLn 7)) ∧
      ((7 : Int) = extendEcho ((wAcc []).stampG 3) (bits ((wLn 7).headD 0) 31 0)) ∧
      (1 = (wAcc []).getF (ingB 8) F.ING_FMT_DT_EXPECT) ∧
      2 ≤ (wLn 7).length ∧
      (1 = 5 → bits ((wLn 7).getD 1 0) 15 12 = (wAcc []).getF (ingB 8) F.ING_FMT_PLANE_SEL) ∧
      (7 : Int) ≤ (wAcc []).stampG 3 + (1 : Int) ∧
      (0 : Int) ≤ (7 : Int) ∧
      ((wAcc []).decided 8 (7 : Int) = false) ∧
      (((wAcc []).ch 8).holds (Int.toNat (7 : Int)) = false)) ∧
    ((wAcc []).laneState 8 ≠ 0 ∧
      ((wAcc []).getF (ingB 8) F.LANE_CTRL_SRC_SEL = 0) ∧
      ((wAcc []).bond 8 = 0) ∧
      ((wAcc []).joined 8 = true) ∧
      ((wAcc []).groupOf 8 = some 3) ∧
      (checkPacket (List.map BitVec.toNat (wPkt 0 1 (wLn 8))) false = PktCheck.ok 0 1 9 (wLn 8)) ∧
      ((8 : Int) = extendEcho ((wAcc []).stampG 3) (bits ((wLn 8).headD 0) 31 0)) ∧
      (1 = (wAcc []).getF (ingB 8) F.ING_FMT_DT_EXPECT) ∧
      2 ≤ (wLn 8).length ∧
      (1 = 5 → bits ((wLn 8).getD 1 0) 15 12 = (wAcc []).getF (ingB 8) F.ING_FMT_PLANE_SEL) ∧
      (wAcc []).stampG 3 + (1 : Int) < (8 : Int)) :=
  by decide +kernel

theorem wit_LineAcceptance_2 :
    ((wAcc []).laneState 8 ≠ 0 ∧
      ((wAcc []).getF (ingB 8) F.LANE_CTRL_SRC_SEL = 0) ∧
      ((wAcc []).bond 8 = 0) ∧
      ((wAcc []).joined 8 = true) ∧
      ((wAcc []).groupOf 8 = some 3) ∧
      (checkPacket (List.map BitVec.toNat (wPkt 0 1 (wLn 4))) false = PktCheck.ok 0 1 9 (wLn 4)) ∧
      ((4 : Int) = extendEcho ((wAcc []).stampG 3) (bits ((wLn 4).headD 0) 31 0)) ∧
      (1 = (wAcc []).getF (ingB 8) F.ING_FMT_DT_EXPECT) ∧
      2 ≤ (wLn 4).length ∧
      (1 = 5 → bits ((wLn 4).getD 1 0) 15 12 = (wAcc []).getF (ingB 8) F.ING_FMT_PLANE_SEL) ∧
      (4 : Int) ≤ (wAcc []).stampG 3 + (1 : Int) ∧
      ((4 : Int) < (0 : Int) ∨ (wAcc []).decided 8 (4 : Int) = true) ∧
      (0 : Int) ≤ (4 : Int)) ∧
    ((wAcc [{ course := 6 }]).laneState 8 ≠ 0 ∧
      ((wAcc [{ course := 6 }]).getF (ingB 8) F.LANE_CTRL_SRC_SEL = 0) ∧
      ((wAcc [{ course := 6 }]).bond 8 = 0) ∧
      ((wAcc [{ course := 6 }]).joined 8 = true) ∧
      ((wAcc [{ course := 6 }]).groupOf 8 = some 3) ∧
      (checkPacket (List.map BitVec.toNat (wPkt 0 1 (wLn 6))) false = PktCheck.ok 0 1 9 (wLn 6)) ∧
      ((6 : Int) = extendEcho ((wAcc [{ course := 6 }]).stampG 3) (bits ((wLn 6).headD 0) 31 0)) ∧
      (1 = (wAcc [{ course := 6 }]).getF (ingB 8) F.ING_FMT_DT_EXPECT) ∧
      2 ≤ (wLn 6).length ∧
      (1 = 5 → bits ((wLn 6).getD 1 0) 15 12 = (wAcc [{ course := 6 }]).getF (ingB 8) F.ING_FMT_PLANE_SEL) ∧
      (6 : Int) ≤ (wAcc [{ course := 6 }]).stampG 3 + (1 : Int) ∧
      (0 : Int) ≤ (6 : Int) ∧
      ((wAcc [{ course := 6 }]).decided 8 (6 : Int) = false) ∧
      (((wAcc [{ course := 6 }]).ch 8).holds (Int.toNat (6 : Int)) = true)) ∧
    ((wAcc []).laneState 8 ≠ 0 ∧
      ((wAcc []).getF (ingB 8) F.LANE_CTRL_SRC_SEL = 0) ∧
      ((wAcc []).bond 8 = 0) ∧
      ((wAcc []).joined 8 = true) ∧
      ((wAcc []).groupOf 8 = some 3) ∧
      (checkPacket (List.map BitVec.toNat (wPkt 0 1 (wLn 4294967295))) false = PktCheck.ok 0 1 9 (wLn 4294967295)) ∧
      ((-1 : Int) = extendEcho ((wAcc []).stampG 3) (bits ((wLn 4294967295).headD 0) 31 0)) ∧
      (1 = (wAcc []).getF (ingB 8) F.ING_FMT_DT_EXPECT) ∧
      2 ≤ (wLn 4294967295).length ∧
      (1 = 5 → bits ((wLn 4294967295).getD 1 0) 15 12 = (wAcc []).getF (ingB 8) F.ING_FMT_PLANE_SEL) ∧
      (-1 : Int) ≤ (wAcc []).stampG 3 + (1 : Int) ∧
      ((-1 : Int) < (0 : Int) ∨ (wAcc []).decided 8 (-1 : Int) = true)) :=
  by decide +kernel

theorem wit_LineAcceptance_3 :
    ((wSet (wAcc []) [(ingB 8, F.ING_STATUS_JOINED, 0)]).laneState 8 ≠ 0 ∧
      ((wSet (wAcc []) [(ingB 8, F.ING_STATUS_JOINED, 0)]).getF (ingB 8) F.LANE_CTRL_SRC_SEL = 0) ∧
      ((wSet (wAcc []) [(ingB 8, F.ING_STATUS_JOINED, 0)]).bond 8 = 0) ∧
      ((wSet (wAcc []) [(ingB 8, F.ING_STATUS_JOINED, 0)]).joined 8 = false) ∧
      (checkPacket (List.map BitVec.toNat (wPkt 0 1 (wLn 7))) false = PktCheck.ok 0 1 9 (wLn 7))) ∧
    ((wAcc []).laneState 8 ≠ 0 ∧
      ((wAcc []).getF (ingB 8) F.LANE_CTRL_SRC_SEL = 0) ∧
      ((wAcc []).bond 8 = 0) ∧
      ((wAcc []).joined 8 = true) ∧
      ((wAcc []).groupOf 8 = some 3) ∧
      (checkPacket (List.map BitVec.toNat (wPkt 0 1 (wLn 7))) true = PktCheck.hcrc ∨ checkPacket (List.map BitVec.toNat (wPkt 0 1 (wLn 7))) true = PktCheck.pcrc)) :=
  by decide +kernel

theorem wit_LineMissing_1 :
    (((wAcc []).workGroup 8 = some 3) ∧
      (((wAcc []).waitingCourses 3 8).head? = some 5) ∧
      (((wAcc []).g 3).closed = some 5) ∧
      5 ≤ 5 ∧
      (List.find? (fun o => o.course == 5) ((wAcc []).ch 8).uppers = none)) ∧
    ((((wAcc []).setCh 8 ({ (wAcc []).ch 8 with uppers := [{ course := 5 }] })).workGroup 8 = some 3) ∧
      ((((wAcc []).setCh 8 ({ (wAcc []).ch 8 with uppers := [{ course := 5 }] })).waitingCourses 3 8).head? = some 5) ∧
      ((((wAcc []).setCh 8 ({ (wAcc []).ch 8 with uppers := [{ course := 5 }] })).g 3).closed = some 5) ∧
      5 ≤ 5 ∧
      (List.find? (fun o => o.course == 5) (((wAcc []).setCh 8 ({ (wAcc []).ch 8 with uppers := [{ course := 5 }] })).ch 8).uppers = some { course := 5 })) ∧
    ((wDev.workGroup 8 = none)) ∧
    (((wJoin.setCh 8 { next := 7 : Chan }).workGroup 8 = some 3) ∧
      (((wJoin.setCh 8 { next := 7 : Chan }).waitingCourses 3 8).head? = none)) :=
  by decide +kernel


end W3

/-! ### Witnesses: Seams, segments and tally jobs -/

namespace W4

def wRun : State := (wSet wDev [(gseamB 3, F.GRP_SEAM_FIRST_CH, 8), (gseamB 3, F.GRP_SEAM_COUNT, 2), (ingB 8, F.ING_CFG_LINE_LEN, 4), (ingB 9, F.ING_CFG_LINE_LEN, 4),
  (seamB 8, F.SEAM_GEOM_SPAN, 4), (seamB 9, F.SEAM_GEOM_SPAN, 4), (ingB 8, F.ING_CFG_FILL, 7), (seamB 8, F.SEAM_OWN_OWNED, 4), (seamB 9, F.SEAM_OWN_OWNED, 4),
  (seamB 9, F.SEAM_WALE_WALE_BASE, 4), (mcB 0, F.MC_STATUS_STATE, 2), (mcB 1, F.MC_STATUS_STATE, 2)]).setG 3 { st := 2, openC := some 6, closed := some 5 }
def wCh : State := (wRun.setCh 8 { next := 5 }).setSm 8 { next := 2 }
def wPend : State := wRun.setCh 8 { pendingReq := some { course := 3, temp := 20 } }
def wGj (m : Nat) (fs : List (Nat × Fld × Nat)) (bs : List Byte) : State := { (wSet wRun fs).setCh m { running := some { course := 3, temp := 20 } } with mem := memPuts [] 0x1000 bs }
def wPts : List Byte := (List.replicate 4 (le 4 0x40000000)).flatten
def wGauge (crc : Nat) : List Byte := [0x55, 0x47, 1, 1, 4, 0, 0, 0, 20, 0, 0, 0, 0, 0, 0, 0].map (BitVec.ofNat 8) ++ le 4 crc ++ zeros 236 ++ wPts
def wGb : List (Nat × Fld × Nat) := [(corrB 8, F.GAUGE_BASE_A_ADDR, 0x1000), (corrB 8, F.GAUGE_BASE_B_ADDR, 0x1000)]
def wG1 : State := wGj 8 wGb []
def wG2 : State := wGj 8 wGb (wGauge 5)
def wG3 : State := wGj 8 wGb (wGauge (crc32c wPts))
def wG4 : State := { wG3 with memBad := [(0x1000 / 64, 2)] }
def wG5 : State := wSet wG3 [(corrB 8, F.CORR_CTRL_GAUGE_SINGLE, 1)]
def wRq : GaugeReq := { course := 3, temp := 20 }
def wPix : List (Nat × Bool) := [(1, false), (2, false), (3, false), (4, false)]
def wSm : State := ((wRun.setCh 8 { next := 6, out := [(5, wPix)] }).setCh 9 { next := 6, out := [(5, wPix)] }).setSm 8 { next := 5 } |>.setSm 9 { next := 5 }
def wBlk : State := { ((wSet wRun [(gseamB 3, F.SELV_CFG_SELV_EN, 1)]).setSm 8 { next := 258, score := [(0, 5)], n := 3 }).setSm 9 { next := 258 } with seamG := [(3, { next := 258, lostL := true })], grp := [(3, { st := 2, openC := some 300, closed := some 299 })] }
def wMap : State := { (wSet wRun [(gsegB 3, F.SEG_CTRL_SEG_EN, 1)]) with seam := [(8, { next := 6, rows := [(5, wPix)] }), (9, { next := 6, rows := [(5, wPix)] })], segG := [(3, { next := 5, res := 5 })] }
def wRes : State := { wMap with segG := [(3, { next := 6, res := 5, runs := [(5, [])] })] }
def wResL : State := { wRes with grp := [(3, { st := 3, openC := some 5, last := some 5 })], segG := [(3, { next := 6, res := 5, runs := [(5, [{ ch := 8, wale := 1, len := 2, cls := 1 }])] })] }
def wRing (pr : Nat) (s : State) : State := { wSet s [(gsegB 3, F.DESC_RING_RING, 0x200)] with
  rings := [(0x200, { base := 0x100000, depthLog := 6, valid := true, devProd := true, bound := true, prod := pr, subs := [0] })]
  subs := [(0, { ring := 0x200, who := .block (gtalB 3), cursor := 0, moved := 0, sent := 0, inFlight := [], seq := 0, key := [], since := none, resendTo := 0 })] }
def wHand (pr : Nat) : State := wRing pr { wRes with segG := [(3, { next := 6, res := 6, hand := [zeros 64] })] }
def wTal (j : List Job) : State := { wRing 1 (wSet wRun [(gtalB 3, F.TALLY_CTRL_TALLY_EN, 1), (gtalB 3, F.TALLY_SEQ_SEQ, 41)]) with tal := [(3, { jobs := j })] }
def wJob : Job := { seq := 40, desc := zeros 64, prev := 0, engine := none, fails := [7, 8] }
def wEng (f : List Nat) (en : List (Nat × Fld × Nat)) : State := { wSet wRun ([(teB 5, F.TE_STATUS_STATE, 1), (teB 5, F.TE_STATUS_GROUP, 3)] ++ en) with tal := [(3, { jobs := [{ wJob with engine := some 5, fails := f }] })] }
def wRel (pr : Nat) (dropIt : Nat) : State := { wRing pr (wSet wRun [(gtalB 3, F.RES_RING_RING, 0x200), (gtalB 3, F.RES_RING_EN, 1), (gtalB 3, F.RES_RING_FULL_DROP, dropIt)]) with tal := [(3, { done := [(40, zeros 128, [0])] })] }
def wDrain : State := { wSet wRun [(gtalB 3, F.TALLY_STATUS_DRAIN, 1)] with grp := [(3, { st := 3 })] }

theorem wit_ChannelCourse_1 :
    ((5 = (wCh.ch 8).next) ∧
      (wCh.workGroup 8 = some 3) ∧
      (wCh.mayStart 3 8 5 = true) ∧
      (List.find? (fun l => l.course == 5 && !l.missing) (wCh.ch 8).lines = none) ∧
      (wCh.flagK 3 (Int.ofNat 5) (corrB 8) F.CORR_CTRL_DPR_EN = false)) ∧
    ((0 = (wDev.ch 8).next) ∧
      (wDev.workGroup 8 = none)) ∧
    ((6 = ((wRun.setCh 8 { next := 6 : Chan }).ch 8).next) ∧
      ((wRun.setCh 8 { next := 6 : Chan }).workGroup 8 = some 3) ∧
      ((wRun.setCh 8 { next := 6 : Chan }).mayStart 3 8 6 = false)) :=
  by decide +kernel

theorem wit_GaugeJobs_1 :
    ((wPend.gaugeBusy 0 = none) ∧
      (wPend.nextGauge 0 = some ((3 : Int), 8))) ∧
    ((wDev.nextGauge 0 = none)) ∧
    ((wDev.gaugeBusy 0 = none)) ∧
    ((wG1.gaugeBusy 0 = some 8) ∧
      ((wG1.ch 8).running = some wRq)) ∧
    ((wG2.gaugeBusy 0 = some 8) ∧
      ((wG2.ch 8).running = some wRq)) ∧
    ((wG3.gaugeBusy 0 = some 8) ∧
      ((wG3.ch 8).running = some wRq) ∧
      (wG3.flag (corrB 8) F.CORR_CTRL_GAUGE_SINGLE = false)) ∧
    ((wG4.gaugeBusy 0 = some 8) ∧
      ((wG4.ch 8).running = some wRq)) ∧
    ((wG5.gaugeBusy 0 = some 8) ∧
      ((wG5.ch 8).running = some wRq) ∧
      (wG5.flag (corrB 8) F.CORR_CTRL_GAUGE_SINGLE = true)) :=
  by decide +kernel

theorem wit_SeamStage_1 :
    ((wSm.workGroup 8 = some 3) ∧
      (5 = (wSm.sm 8).next) ∧
      (wSm.pixelsOn 8 = true) ∧
      (wSm.seamReady 3 8 5 = true)) ∧
    ((wSm.workGroup 9 = some 3) ∧
      (5 = (wSm.sm 9).next) ∧
      (wSm.pixelsOn 9 = true) ∧
      (wSm.seamReady 3 9 5 = true)) ∧
    (((wRun.setSm 8 { next := 5 : SeamCh }).workGroup 8 = some 3) ∧
      (5 = ((wRun.setSm 8 { next := 5 : SeamCh }).sm 8).next) ∧
      ((wRun.setSm 8 { next := 5 : SeamCh }).seamReady 3 8 5 = false)) ∧
    ((258 = (wBlk.smG 3).next) ∧
      ((wBlk.g 3).st = 2 ∧ Int.ofNat 258 ≤ wBlk.stampG 3) ∧
      (wBlk.blockDue 3 258 = true) ∧
      (wBlk.seamDone 3 (258 - 1) = true)) ∧
    ((0 = (wRun.smG 3).next) ∧
      (wRun.blockDue 3 0 = false)) ∧
    ((127 = 127)) ∧
    (8 ≠ 127 ∧
      0 < 16 ∧
      1 < 16 ∧
      2 < 16 ∧
      3 < 16 ∧
      ((wRun.g 3).st = 2) ∧
      (wRun.inRun 3 8 = true) ∧
      (wRun.inRun 3 (8 + 1) = true) ∧
      4 < 16 ∧
      5 < 16 ∧
      6 < 16 ∧
      7 < 16 ∧
      9 < 16) :=
  by decide +kernel

theorem wit_SeamStage_2 :
    (31 ≠ 127 ∧
      0 < 16 ∧
      1 < 16 ∧
      2 < 16 ∧
      3 < 16 ∧
      4 < 16 ∧
      5 < 16 ∧
      6 < 16 ∧
      7 < 16 ∧
      9 < 16 ∧
      (∀ g < 16, (wDev.g g).st = 0) ∧
      (31 % 32 = 31)) ∧
    (9 ≠ 127 ∧
      0 < 16 ∧
      1 < 16 ∧
      2 < 16 ∧
      3 < 16 ∧
      ((wRun.g 3).st = 2) ∧
      (wRun.inRun 3 9 = true) ∧
      4 < 16 ∧
      5 < 16 ∧
      6 < 16 ∧
      7 < 16 ∧
      9 < 16) :=
  by decide +kernel

theorem wit_SegmentStages_1 :
    ((5 = (wMap.sg 3).next) ∧
      ((wMap.g 3).st = 2) ∧
      (wMap.flag (gsegB 3) F.SEG_CTRL_SEG_EN = true) ∧
      (wMap.hasCourse 3 5 = true) ∧
      (wMap.seamPresent 3 (5 + wMap.delayF 3 (Int.ofNat 5) + wMap.delayM 3 (Int.ofNat 5)) = true) ∧
      (wMap.seamPresent 3 (wMap.mapNeeds 3 5) = true) ∧
      5 < (wMap.sg 3).res + 4) ∧
    ((({ wMap with segG := [(3, { next := 9, res := 5 })] : State }).sg 3).res + 4 ≤ (({ wMap with segG := [(3, { next := 9, res := 5 })] : State }).sg 3).next) ∧
    (((wRes.sg 3).runs = [(5, [])]) ∧
      ((wRes.sg 3).hand = [])) ∧
    (((wResL.sg 3).runs = [(5, [{ ch := 8, wale := 1, len := 2, cls := 1 }])]) ∧
      ((wResL.sg 3).hand = []) ∧
      ((wResL.g 3).last = some 5) ∧
      ((wResL.g 3).st = 3)) ∧
    (((({ wRes with segG := [(3, { next := 6, res := 5, runs := [(5, [])], hand := [zeros 64] })] : State }).sg 3).runs = [(5, [])]) ∧
      (({ wRes with segG := [(3, { next := 6, res := 5, runs := [(5, [])], hand := [zeros 64] })] : State }).sg 3).hand ≠ []) ∧
    (((wMap.sg 3).runs = [])) ∧
    ((((wHand 0).sg 3).hand = [zeros 64]) ∧
      ((wHand 0).ringFits ((wHand 0).getF (gsegB 3) F.DESC_RING_RING) 64 = true)) ∧
    ((((wHand 64).sg 3).hand = [zeros 64]) ∧
      ((wHand 64).ringFits ((wHand 64).getF (gsegB 3) F.DESC_RING_RING) 64 = false)) :=
  by decide +kernel

theorem wit_SegmentStages_2 :
    (((wMap.sg 3).hand = []) ∧
      (wMap.running 3 = true)) ∧
    (((wDev.sg 3).hand = []) ∧
      (wDev.running 3 = false)) :=
  by decide +kernel

theorem wit_TallyJobs_1 :
    ((State.reset.pickEngine 3 = none)) ∧
    (((wTal [wJob]).pickEngine 3 = some 0) ∧
      ((wTal [wJob]).tallyTurn 3 0 = true) ∧
      (List.find? (fun k => k.engine.isNone) ((wTal [wJob]).tg 3).jobs = some wJob)) ∧
    (((wTal []).pickEngine 3 = some 0) ∧
      ((wTal []).tallyTurn 3 0 = true) ∧
      (List.find? (fun k => k.engine.isNone) ((wTal []).tg 3).jobs = none) ∧
      ((wTal []).dispatching 3 = true) ∧
      ((wTal []).tg 3).done.length + ((wTal []).tg 3).jobs.length < 1024 ∧
      0 < (wTal []).avail ((wTal []).getF (gsegB 3) F.DESC_RING_RING) (gtalB 3) ∧
      (((wTal []).readEntry ((wTal []).getF (gsegB 3) F.DESC_RING_RING) (gtalB 3) 0 3).2 = Except.ok (zeros 64))) ∧
    ((({ wTal [wJob] with tal := [(3, { jobs := [wJob] }), (4, { jobs := [wJob] })], tallyLast := 3 : State }).pickEngine 3 = some 0) ∧
      (({ wTal [wJob] with tal := [(3, { jobs := [wJob] }), (4, { jobs := [wJob] })], tallyLast := 3 : State }).tallyTurn 3 0 = false)) ∧
    ((wDev.jobOf 5 = none ∨ wDev.clk 3 = false)) ∧
    (((wEng [] []).clk 3 = true) ∧
      ((wEng [] []).jobOf 5 = some (3, { wJob with engine := some 5, fails := [] })) ∧
      3 < 16) ∧
    (((wEng [] [(gtalB 3, F.RES_RING_EN.nth 2, 1)]).clk 3 = true) ∧
      ((wEng [] [(gtalB 3, F.RES_RING_EN.nth 2, 1)]).jobOf 5 = some (3, { wJob with engine := some 5, fails := [] })) ∧
      3 < 16) :=
  ⟨by decide +kernel,
    by decide +kernel,
    ⟨by decide +kernel, by decide +kernel, by decide +kernel, by decide +kernel, by decide +kernel, by decide +kernel, ok_of (by decide +kernel)⟩,
    by decide +kernel⟩

theorem wit_RecordRelease_1 :
    ((({ wDev with dup := true : State }).dup = true)) ∧
    (((wRel 62 0).dup = false) ∧
      0 < 4 ∧
      (((wRel 62 0).tg 3).done = [(40, zeros 128, [0])]) ∧
      ((wRel 62 0).mayRelease 3 0 40 = true) ∧
      (512 = (wRel 62 0).getF (gtalB 3) (F.RES_RING_RING.nth 0)) ∧
      ((wRel 62 0).ringFits 512 (zeros 128).length = true)) ∧
    (((wRel 63 1).dup = false) ∧
      0 < 4 ∧
      (((wRel 63 1).tg 3).done = [(40, zeros 128, [0])]) ∧
      ((wRel 63 1).mayRelease 3 0 40 = true) ∧
      (512 = (wRel 63 1).getF (gtalB 3) (F.RES_RING_RING.nth 0)) ∧
      ((wRel 63 1).ringFits 512 (zeros 128).length = false) ∧
      ((wRel 63 1).flag (gtalB 3) (F.RES_RING_FULL_DROP.nth 0) = true)) ∧
    (((wRel 63 0).dup = false) ∧
      0 < 4 ∧
      (((wRel 63 0).tg 3).done = [(40, zeros 128, [0])]) ∧
      ((wRel 63 0).mayRelease 3 0 40 = true) ∧
      (512 = (wRel 63 0).getF (gtalB 3) (F.RES_RING_RING.nth 0)) ∧
      ((wRel 63 0).ringFits 512 (zeros 128).length = false) ∧
      ((wRel 63 0).flag (gtalB 3) (F.RES_RING_FULL_DROP.nth 0) = false)) :=
  by decide +kernel

theorem wit_TallyFaults_1 :
    ((Instr.engineFault (5 : Fin 128) false = Instr.engineFault (5 : Fin 128) false ∧ F.TE_STATUS_PARITY = F.TE_STATUS_PARITY)) ∧
    ((Instr.engineFault (5 : Fin 128) true = Instr.engineFault (5 : Fin 128) true ∧ F.TE_STATUS_RESIDUE = F.TE_STATUS_RESIDUE)) ∧
    ((Instr.engineWatchdog (5 : Fin 128) = Instr.engineWatchdog (5 : Fin 128) ∧ F.TE_STATUS_TIMEOUT = F.TE_STATUS_TIMEOUT ∧ (wEng [9] []).jobOf 5 ≠ none ∧ (wEng [9] []).clk 3 = true)) ∧
    ((wDev.jobOf 5 = none ∨ wDev.clk 3 = false)) ∧
    (wDev.teState 5 ≠ 2) ∧
    (((wSet wDev [(teB 5, F.TE_STATUS_STATE, 2)]).teState 5 = 2)) :=
  by decide +kernel

theorem wit_DrainEnds_1 :
    (((wDrain.g 3).st = 3) ∧
      (wDrain.drained 3 = true) ∧
      (wDrain.pixelsDone 3 = true)) ∧
    ((wDev.g 3).st ≠ 3) :=
  by decide +kernel


end W4

/-! ### Witnesses: Marking and tag head -/

namespace W5

def wCmp (on : Nat) (x : Cmp) (fs : List (Nat × Fld × Nat)) : State := { wSet wDev ([(cmpB 2, F.CMP_CTRL_EN, on), (cmpB 2, F.CMP_HWM_CHWM, 100), (cmpB 2, F.LIST_POS_POS, 100), (cmpB 2, F.LIST_ID_ID, 77), (cmpB 2, F.CMP_PULSE_PULSE_W, 3)] ++ fs) with cmp := [(2, x)] }
def wFull : Cmp := { list := List.replicate 4096 (5, 5) }
def wRec : List Byte := (zeros 8 ++ zeros 32 ++ zeros 40 ++ le 8 200 ++ zeros 40)
def wFill (m : Nat) : State := { wCmp 1 {} [(cmpB 2, F.CMP_CTRL_FILL_EN, 1), (cmpB 2, F.CMP_FILL_RING_RING, 0x200), (cmpB 2, F.CMP_LABEL_MASK, m), (cmpB 2, F.CMP_SCORE_SCORE_MIN, 0), (cmpB 2, F.CMP_XMIN_XMIN, 0), (cmpB 2, F.CMP_XMAX_XMAX, 5), (mcB 0, F.MC_STATUS_STATE, 2), (mcB 1, F.MC_STATUS_STATE, 2)] with
  rings := [(0x200, { base := 0x100000, depthLog := 6, valid := true, prod := 2, subs := [0] })], mem := memPuts [] 0x100000 wRec, subs := [(0, { ring := 0x200, who := .block (cmpB 2), cursor := 0, moved := 0, sent := 0, inFlight := [], seq := 0, key := [], since := none, resendTo := 0 })] }
def wFillS (m : Nat) : State := ((wFill m).readEntry 0x200 (cmpB 2) 0 (cmpB 2)).1
def wTh (on : Nat) (x : Tag) (c : Cass) (fs : List (Nat × Fld × Nat)) : State := { wSet wDev ([(thB, F.TH_CTRL_TH_EN, on), (thB, F.TH_JOB_RING_RING, 0x200), (thB, F.TH_RES_RING_RING, 0x201)] ++ fs) with tag := x, cass := c, rings := [(0x200, { base := 0x100000, depthLog := 6, valid := true }), (0x201, { base := 0x200000, depthLog := 6, valid := true })] }
def wT : Tag := { temp := some (-5000000) }
def wJ0 : TagJob := { image := 0x1000, lines := 0 }
def wJ1 : TagJob := { image := 0x1000, lines := 4 }
def wLi (w : Bool) (fs : List (Nat × Fld × Nat)) : State := wTh 1 { wT with phase := .lines, job := wJ1, waiting := w } {} ([(thB, F.TH_CTRL_DOTS, 256), (mcB 0, F.MC_STATUS_STATE, 2), (mcB 1, F.MC_STATUS_STATE, 2)] ++ fs)
def wStr (l : Nat) (ps : List (Nat × Nat)) : State := wTh 1 { wT with phase := .strobe, job := wJ1, line := l, passes := ps, dots := [true] } {} []
def wCs (c : Cass) (x : Tag) : State := wTh 1 x c [(thB, F.CASS_COUNT_COUNT, 9), (thB, F.CASS_SERIAL_SERIAL, 0x1122)]
def wInfo : List Byte := [1, 0, 0, 0, 0, 0, 0, 9, 0, 0, 0, 0, 0, 0, 0x11, 0x22].map (BitVec.ofNat 8)
def wC2 : State := wCs { cmd := 2, counter := 9, serial := 0x1122 } { wT with stopped := true }
def wC3 : State := wCs { cmd := 3, counter := 9, serial := 0x1122 } { wT with phase := .decrement, job := wJ1 }

theorem wit_CompareList_1 :
    ((((100 : Int), 77) = ((wCmp 0 wFull []).getI (cmpB 2) F.LIST_POS_POS, (wCmp 0 wFull []).getF (cmpB 2) F.LIST_ID_ID)) ∧
      4096 ≤ ((wCmp 0 wFull []).c 2).list.length + ((wCmp 0 wFull []).c 2).late.length) ∧
    ((((100 : Int), 77) = ((wCmp 1 { list := [((120 : Int), 1), ((150 : Int), 2)] } []).getI (cmpB 2) F.LIST_POS_POS, (wCmp 1 { list := [((120 : Int), 1), ((150 : Int), 2)] } []).getF (cmpB 2) F.LIST_ID_ID)) ∧
      ((wCmp 1 { list := [((120 : Int), 1), ((150 : Int), 2)] } []).c 2).list.length + ((wCmp 1 { list := [((120 : Int), 1), ((150 : Int), 2)] } []).c 2).late.length < 4096 ∧
      ((wCmp 1 { list := [((120 : Int), 1), ((150 : Int), 2)] } []).cmpOn 2 = true) ∧
      (wCmp 1 { list := [((120 : Int), 1), ((150 : Int), 2)] } []).firePoint 2 ((100 : Int), 77).1 ≤ (wCmp 1 { list := [((120 : Int), 1), ((150 : Int), 2)] } []).chwm 2) ∧
    ((((100 : Int), 77) = ((wCmp 1 { list := [((120 : Int), 1), ((150 : Int), 2)] } [(cmpB 2, F.CMP_CTRL_LATE_MODE, 1)]).getI (cmpB 2) F.LIST_POS_POS, (wCmp 1 { list := [((120 : Int), 1), ((150 : Int), 2)] } [(cmpB 2, F.CMP_CTRL_LATE_MODE, 1)]).getF (cmpB 2) F.LIST_ID_ID)) ∧
      ((wCmp 1 { list := [((120 : Int), 1), ((150 : Int), 2)] } [(cmpB 2, F.CMP_CTRL_LATE_MODE, 1)]).c 2).list.length + ((wCmp 1 { list := [((120 : Int), 1), ((150 : Int), 2)] } [(cmpB 2, F.CMP_CTRL_LATE_MODE, 1)]).c 2).late.length < 4096 ∧
      ((wCmp 1 { list := [((120 : Int), 1), ((150 : Int), 2)] } [(cmpB 2, F.CMP_CTRL_LATE_MODE, 1)]).cmpOn 2 = true) ∧
      (wCmp 1 { list := [((120 : Int), 1), ((150 : Int), 2)] } [(cmpB 2, F.CMP_CTRL_LATE_MODE, 1)]).firePoint 2 ((100 : Int), 77).1 ≤ (wCmp 1 { list := [((120 : Int), 1), ((150 : Int), 2)] } [(cmpB 2, F.CMP_CTRL_LATE_MODE, 1)]).chwm 2) ∧
    ((((101 : Int), 77) = ((wCmp 1 { list := [((101 : Int), 1), ((150 : Int), 2)] } [(cmpB 2, F.LIST_POS_POS, 101)]).getI (cmpB 2) F.LIST_POS_POS, (wCmp 1 { list := [((101 : Int), 1), ((150 : Int), 2)] } [(cmpB 2, F.LIST_POS_POS, 101)]).getF (cmpB 2) F.LIST_ID_ID)) ∧
      ((wCmp 1 { list := [((101 : Int), 1), ((150 : Int), 2)] } [(cmpB 2, F.LIST_POS_POS, 101)]).c 2).list.length + ((wCmp 1 { list := [((101 : Int), 1), ((150 : Int), 2)] } [(cmpB 2, F.LIST_POS_POS, 101)]).c 2).late.length < 4096 ∧
      ((wCmp 1 { list := [((101 : Int), 1), ((150 : Int), 2)] } [(cmpB 2, F.LIST_POS_POS, 101)]).cmpOn 2 = true) ∧
      ((wCmp 1 { list := [((101 : Int), 1), ((150 : Int), 2)] } [(cmpB 2, F.LIST_POS_POS, 101)]).cmpOn 2 = false ∨ (wCmp 1 { list := [((101 : Int), 1), ((150 : Int), 2)] } [(cmpB 2, F.LIST_POS_POS, 101)]).chwm 2 < (wCmp 1 { list := [((101 : Int), 1), ((150 : Int), 2)] } [(cmpB 2, F.LIST_POS_POS, 101)]).firePoint 2 ((101 : Int), 77).1)) :=
  by decide +kernel

theorem wit_CompareUnits_1 :
    (((wCmp 0 {  } []).cmpOn 2 = false) ∧
      ((wCmp 0 {  } []).cmpStatus 2 = 0)) ∧
    (((wCmp 1 {  } []).cmpOn 2 = true)) ∧
    (((wCmp 1 { late := [((90 : Int), 1)] } [(cmpG, F.MARK_HOLD_CTRL_HOLD, 1), (cmpB 2, F.CMP_CTRL_HOLD_EN, 1)]).cmpOn 2 = true) ∧
      (((wCmp 1 { late := [((90 : Int), 1)] } [(cmpG, F.MARK_HOLD_CTRL_HOLD, 1), (cmpB 2, F.CMP_CTRL_HOLD_EN, 1)]).c 2).late = [((90 : Int), 1)]) ∧
      ((wCmp 1 { late := [((90 : Int), 1)] } [(cmpG, F.MARK_HOLD_CTRL_HOLD, 1), (cmpB 2, F.CMP_CTRL_HOLD_EN, 1)]).cmpHeld 2 = true)) ∧
    (((wCmp 1 { late := [((90 : Int), 1)] } []).cmpOn 2 = true) ∧
      (((wCmp 1 { late := [((90 : Int), 1)] } []).c 2).late = [((90 : Int), 1)]) ∧
      ((wCmp 1 { late := [((90 : Int), 1)] } []).cmpHeld 2 = false) ∧
      ((wCmp 1 { late := [((90 : Int), 1)] } []).flag (cmpB 2) F.CMP_CTRL_OUT_SEL = false) ∧
      ((wCmp 1 { late := [((90 : Int), 1)] } []).reRunning = false) ∧
      (((wCmp 1 { late := [((90 : Int), 1)] } []).c 2).pulseEnd = none)) ∧
    (((wCmp 1 { late := [((90 : Int), 1)], pulseEnd := some 5 } []).cmpOn 2 = true) ∧
      (((wCmp 1 { late := [((90 : Int), 1)], pulseEnd := some 5 } []).c 2).late = [((90 : Int), 1)]) ∧
      ((wCmp 1 { late := [((90 : Int), 1)], pulseEnd := some 5 } []).cmpHeld 2 = false) ∧
      ((wCmp 1 { late := [((90 : Int), 1)], pulseEnd := some 5 } []).flag (cmpB 2) F.CMP_CTRL_OUT_SEL = false) ∧
      ((wCmp 1 { late := [((90 : Int), 1)], pulseEnd := some 5 } []).reRunning = false)) ∧
    (((wCmp 0 {  } []).cmpOn 2 = false)) ∧
    (((wCmp 1 { pulseEnd := some 5 } []).c 2).pulseEnd ≠ none) ∧
    ((((wCmp 1 {  } []).c 2).pulseEnd = none)) :=
  by decide +kernel

theorem wit_CompareUnits_2 :
    ((512 = (wFill 1).getF (cmpB 2) F.CMP_FILL_RING_RING) ∧
      ((wFill 1).cmpOn 2 = true) ∧
      ((wFill 1).flag (cmpB 2) F.CMP_CTRL_FILL_EN = true) ∧
      2 ≤ (wFill 1).avail 512 (cmpB 2) ∧
      ((wFill 1).readEntry 512 (cmpB 2) 0 (blockUnit (cmpB 2)) = (wFillS 1, Except.ok (List.take 64 wRec))) ∧
      (((wFillS 1).readEntry 512 (cmpB 2) 1 (blockUnit (cmpB 2))).2 = Except.ok (List.drop 64 wRec)) ∧
      ((wFill 1).cmpWants 2 (List.take 64 wRec ++ List.drop 64 wRec) = true) ∧
      ((wFill 1).c 2).list.length + ((wFill 1).c 2).late.length < 4096 ∧
      (wFill 1).chwm 2 < (wFill 1).firePoint 2 ((wFill 1).cmpEntry 2 (List.take 64 wRec ++ List.drop 64 wRec)).1) ∧
    ((512 = (wFill 0).getF (cmpB 2) F.CMP_FILL_RING_RING) ∧
      ((wFill 0).cmpOn 2 = true) ∧
      ((wFill 0).flag (cmpB 2) F.CMP_CTRL_FILL_EN = true) ∧
      2 ≤ (wFill 0).avail 512 (cmpB 2) ∧
      ((wFill 0).readEntry 512 (cmpB 2) 0 (blockUnit (cmpB 2)) = (wFillS 0, Except.ok (List.take 64 wRec))) ∧
      (((wFillS 0).readEntry 512 (cmpB 2) 1 (blockUnit (cmpB 2))).2 = Except.ok (List.drop 64 wRec)) ∧
      ((wFill 0).cmpWants 2 (List.take 64 wRec ++ List.drop 64 wRec) = false)) :=
  ⟨⟨by decide +kernel, by decide +kernel, by decide +kernel, by decide +kernel, pair_of (by decide +kernel), ok_of (by decide +kernel), by decide +kernel⟩,
    ⟨by decide +kernel, by decide +kernel, by decide +kernel, by decide +kernel, pair_of (by decide +kernel), ok_of (by decide +kernel), by decide +kernel⟩⟩

theorem wit_TagJobs_1 :
    (((wTh 0 {  } {  } []).thOn = false) ∧
      ((wTh 0 {  } {  } []).thStatus = 0)) ∧
    (((wTh 1 {  } {  } []).thOn = true)) ∧
    (((wTh 1 {  } {  } []).thOn = true) ∧
      ((wTh 1 {  } {  } []).cass.cmd = 0)) ∧
    (((wTh 1 {  } { cmd := 3 } []).thOn = true) ∧
      ((wTh 1 {  } { cmd := 3 } []).cass.cmd = 3)) ∧
    (((wTh 1 {  } { cmd := 2 } []).cass.cmd ≠ 0 ∧ (wTh 1 {  } { cmd := 2 } []).cass.cmd ≠ 3)) ∧
    (((wTh 1 ({ wT with autoQ := [wJ0] }) {  } []).thOn = true) ∧
      ((wTh 1 ({ wT with autoQ := [wJ0] }) {  } []).tagCause = none) ∧
      ((wTh 1 ({ wT with autoQ := [wJ0] }) {  } []).tag.stopped = false) ∧
      ((wTh 1 ({ wT with autoQ := [wJ0] }) {  } []).reRunning = false) ∧
      ((wTh 1 ({ wT with autoQ := [wJ0] }) {  } []).tag.phase = TagPhase.idle) ∧
      ((wTh 1 ({ wT with autoQ := [wJ0] }) {  } []).tag.again = []) ∧
      ((wTh 1 ({ wT with autoQ := [wJ0] }) {  } []).tag.autoQ = [wJ0]) ∧
      (wJ0.lines = 0 ∨ wJ0.image % 32 ≠ 0)) ∧
    (((wTh 1 ({ wT with autoQ := [wJ1] }) {  } [(thB, F.TH_STATUS_CASS_OK, 1), (thB, F.CASS_COUNT_COUNT, 9)]).thOn = true) ∧
      ((wTh 1 ({ wT with autoQ := [wJ1] }) {  } [(thB, F.TH_STATUS_CASS_OK, 1), (thB, F.CASS_COUNT_COUNT, 9)]).tagCause = none) ∧
      ((wTh 1 ({ wT with autoQ := [wJ1] }) {  } [(thB, F.TH_STATUS_CASS_OK, 1), (thB, F.CASS_COUNT_COUNT, 9)]).tag.stopped = false) ∧
      ((wTh 1 ({ wT with autoQ := [wJ1] }) {  } [(thB, F.TH_STATUS_CASS_OK, 1), (thB, F.CASS_COUNT_COUNT, 9)]).reRunning = false) ∧
      ((wTh 1 ({ wT with autoQ := [wJ1] }) {  } [(thB, F.TH_STATUS_CASS_OK, 1), (thB, F.CASS_COUNT_COUNT, 9)]).tag.phase = TagPhase.idle) ∧
      ((wTh 1 ({ wT with autoQ := [wJ1] }) {  } [(thB, F.TH_STATUS_CASS_OK, 1), (thB, F.CASS_COUNT_COUNT, 9)]).tag.again = []) ∧
      ((wTh 1 ({ wT with autoQ := [wJ1] }) {  } [(thB, F.TH_STATUS_CASS_OK, 1), (thB, F.CASS_COUNT_COUNT, 9)]).tag.autoQ = [wJ1]) ∧
      wJ1.lines ≠ 0 ∧
      (wJ1.image % 32 = 0) ∧
      wJ1.image + wJ1.lines * (wTh 1 ({ wT with autoQ := [wJ1] }) {  } [(thB, F.TH_STATUS_CASS_OK, 1), (thB, F.CASS_COUNT_COUNT, 9)]).rowBytes ≤ 128849018880 ∧
      (wJ1.atPos = false) ∧
      ((wTh 1 ({ wT with autoQ := [wJ1] }) {  } [(thB, F.TH_STATUS_CASS_OK, 1), (thB, F.CASS_COUNT_COUNT, 9)]).getF thB F.TH_STATUS_CASS_OK = 1) ∧
      (wTh 1 ({ wT with autoQ := [wJ1] }) {  } [(thB, F.TH_STATUS_CASS_OK, 1), (thB, F.CASS_COUNT_COUNT, 9)]).getF thB F.CASS_COUNT_COUNT ≠ 0 ∧
      ((wTh 1 ({ wT with autoQ := [wJ1] }) {  } [(thB, F.TH_STATUS_CASS_OK, 1), (thB, F.CASS_COUNT_COUNT, 9)]).cass.cmd = 0)) :=
  by decide +kernel

theorem wit_TagJobs_2 :
    (((wTh 1 ({ wT with autoQ := [wJ1, wJ0] }) {  } [(thB, F.TH_STATUS_CASS_OK, 1)]).thOn = true) ∧
      ((wTh 1 ({ wT with autoQ := [wJ1, wJ0] }) {  } [(thB, F.TH_STATUS_CASS_OK, 1)]).tagCause = none) ∧
      ((wTh 1 ({ wT with autoQ := [wJ1, wJ0] }) {  } [(thB, F.TH_STATUS_CASS_OK, 1)]).tag.stopped = false) ∧
      ((wTh 1 ({ wT with autoQ := [wJ1, wJ0] }) {  } [(thB, F.TH_STATUS_CASS_OK, 1)]).reRunning = false) ∧
      ((wTh 1 ({ wT with autoQ := [wJ1, wJ0] }) {  } [(thB, F.TH_STATUS_CASS_OK, 1)]).tag.phase = TagPhase.idle) ∧
      ((wTh 1 ({ wT with autoQ := [wJ1, wJ0] }) {  } [(thB, F.TH_STATUS_CASS_OK, 1)]).tag.again = []) ∧
      ((wTh 1 ({ wT with autoQ := [wJ1, wJ0] }) {  } [(thB, F.TH_STATUS_CASS_OK, 1)]).tag.autoQ = [wJ1, wJ0]) ∧
      wJ1.lines ≠ 0 ∧
      (wJ1.image % 32 = 0) ∧
      wJ1.image + wJ1.lines * (wTh 1 ({ wT with autoQ := [wJ1, wJ0] }) {  } [(thB, F.TH_STATUS_CASS_OK, 1)]).rowBytes ≤ 128849018880 ∧
      (wJ1.atPos = false) ∧
      ((wTh 1 ({ wT with autoQ := [wJ1, wJ0] }) {  } [(thB, F.TH_STATUS_CASS_OK, 1)]).getF thB F.TH_STATUS_CASS_OK = 1) ∧
      ((wTh 1 ({ wT with autoQ := [wJ1, wJ0] }) {  } [(thB, F.TH_STATUS_CASS_OK, 1)]).getF thB F.CASS_COUNT_COUNT = 0)) ∧
    ((wDev.thOn = false)) ∧
    (((wTh 1 ({ wT with phase := TagPhase.ended }) {  } []).tag.phase = TagPhase.ended) ∧
      ((wTh 1 ({ wT with phase := TagPhase.ended }) {  } []).reRunning = false)) ∧
    (wDev.tag.phase ≠ TagPhase.ended) :=
  by decide +kernel

theorem wit_TagPrinting_1 :
    (((wLi false []).thOn = true) ∧
      ((wLi false []).tag.phase = TagPhase.lines) ∧
      ((wLi false []).tagClear = true) ∧
      ((wLi false []).tag.waiting = false) ∧
      (∀ h < 4, (wLi false []).energy h ((wLi false []).bandOf ((wLi false []).tag.temp.getD (0 : Int))) = 0)) ∧
    (((wLi true [(thB, F.TH_ENERGY_E_LO, 9)]).thOn = true) ∧
      ((wLi true [(thB, F.TH_ENERGY_E_LO, 9)]).tag.phase = TagPhase.lines) ∧
      ((wLi true [(thB, F.TH_ENERGY_E_LO, 9)]).tagClear = true) ∧
      ((wLi true [(thB, F.TH_ENERGY_E_LO, 9)]).tag.waiting = true) ∧
      (∃ h < 4, (wLi true [(thB, F.TH_ENERGY_E_LO, 9)]).energy h ((wLi true [(thB, F.TH_ENERGY_E_LO, 9)]).bandOf ((wLi true [(thB, F.TH_ENERGY_E_LO, 9)]).tag.temp.getD (0 : Int))) ≠ 0)) ∧
    (wDev.tag.phase ≠ TagPhase.lines) ∧
    (((wStr 0 [(5, 6), (7, 8)]).tag.phase = TagPhase.strobe)) ∧
    (((wStr 2 []).tag.phase = TagPhase.strobe) ∧
      ((wStr 2 []).tag.passes = []) ∧
      (wStr 2 []).tag.line + 1 < (wStr 2 []).tag.job.lines) ∧
    (((wStr 3 []).tag.phase = TagPhase.strobe) ∧
      ((wStr 3 []).tag.passes = []) ∧
      (wStr 3 []).tag.job.lines ≤ (wStr 3 []).tag.line + 1) ∧
    (wDev.tag.phase ≠ TagPhase.strobe) ∧
    (((wLi true []).tag.phase = TagPhase.lines) ∧
      ((wLi true []).tag.waiting = true)) :=
  by decide +kernel

theorem wit_TagPrinting_2 :
    (((0 : Fin 3) = (0 : Fin 3)) ∧
      (true = true)) ∧
    (((0 : Fin 3) = (0 : Fin 3)) ∧
      (false = false)) :=
  by decide +kernel

theorem wit_CassetteExchange_1 :
    (((wCs {  } wT).cass.cmd = 0)) ∧
    (((wCs { cmd := 1 } wT).cass.cmd = 1) ∧
      (wInfo.length = 16) ∧
      (beAt wInfo 0 1 = 1)) ∧
    ((wC2.cass.cmd = 2) ∧
      ((be 4 9 ++ wC2.cassMac [(65 : Byte), (85 : Byte)] 4386 9).length = 20) ∧
      (beAt (be 4 9 ++ wC2.cassMac [(65 : Byte), (85 : Byte)] 4386 9) 0 4 = wC2.cass.counter) ∧
      (sliceB (be 4 9 ++ wC2.cassMac [(65 : Byte), (85 : Byte)] 4386 9) 4 16 = wC2.cassMac [(65 : Byte), (85 : Byte)] wC2.cass.serial (beAt (be 4 9 ++ wC2.cassMac [(65 : Byte), (85 : Byte)] 4386 9) 0 4)) ∧
      (wC2.getF thB F.TH_STATUS_OPEN = 0)) ∧
    (((wSet wC2 [(thB, F.TH_STATUS_OPEN, 1)]).cass.cmd = 2) ∧
      ((wSet wC2 [(thB, F.TH_STATUS_OPEN, 1)]).getF thB F.TH_STATUS_OPEN = 1)) ∧
    ((wC3.cass.cmd = 3) ∧
      ((be 4 8 ++ wC3.cassMac [(68 : Byte), (67 : Byte)] 4386 8).length = 20) ∧
      (beAt (be 4 8 ++ wC3.cassMac [(68 : Byte), (67 : Byte)] 4386 8) 0 4 + 1 = wC3.getF thB F.CASS_COUNT_COUNT) ∧
      (wC3.tagCause = none) ∧
      (wC3.tag.phase = TagPhase.decrement) ∧
      (sliceB (be 4 8 ++ wC3.cassMac [(68 : Byte), (67 : Byte)] 4386 8) 4 16 = wC3.cassMac [(68 : Byte), (67 : Byte)] (wC3.getF thB F.CASS_SERIAL_SERIAL) (beAt (be 4 8 ++ wC3.cassMac [(68 : Byte), (67 : Byte)] 4386 8) 0 4))) ∧
    (wC3.cass.cmd ≠ 0 ∧
      (Instr.cassExchangeTimeout = Instr.cassExchangeTimeout) ∧
      (wC3.cass.cmd = 3) ∧
      (wC3.tag.phase = TagPhase.decrement)) ∧
    (wC2.cass.cmd ≠ 0 ∧
      (Instr.cassResponse [] = Instr.cassResponse [] ∧ ([] : List Byte) = [] ∧ wC2.cass.cmd ≤ 3) ∧
      wC2.cass.cmd ≠ 3) ∧
    (((wCs {  } wT).cass.cmd = 0) ∧
      ((wCs {  } wT).thOn = true) ∧
      ((wCs {  } wT).thOn = false ∨ (wCs {  } wT).cass.closing = false)) :=
  by decide +kernel

theorem wit_CassetteExchange_2 :
    (wC3.cass.cmd ≠ 0 ∧
      (wC3.thOn = true) ∧
      (wC3.thOn = false ∨ wC3.cass.closing = false)) ∧
    (((wCs { closing := true } wT).cass.cmd = 0) ∧
      ((wCs { closing := true } wT).thOn = true) ∧
      ((wCs { closing := true } wT).cass.closing = true) ∧
      ((wCs { closing := true } wT).getF thB F.TH_STATUS_OPEN = 0)) :=
  by decide +kernel


end W5

/-! ### Witnesses: Command port and patterns -/

namespace W6

def wDup : State := { wDev with sess := [{ wSess with hi := 7, seen := [7] }] }
def wHd1 : Hdr := { wHd with role := 1 }
def wCmd1 : State := { wDev with sess := [{ wSess with role := 1 }] }
def wS : State := wSet wCmd [(devB, F.DEV_NUM_DEVNUM, 12), (pwrB, F.PWR_STATE_STATE, 1)]
def wHo : Hdr := { wHd with session := 0, seq := 1 }
def wKeys : State := { wCmd with keys := [(3, zeros 32)] }
def wOut (r : Option (Nat × List Byte)) : Outstanding := ⟨wHd, 0x0304, 0, r⟩
def wPendS (r : Option (Nat × List Byte)) : Session := { wSess with hi := 7, seen := [7], outst := [wOut r] }
def wAd : Nat := crsB 3 + F.CRS_N_N.off
def wGr : State := wCmd.setG 3 { st := 2, openC := some 8 }
def wOut1 : Outstanding := ⟨wHd, 0x0301, 16 * 9 + 3, none⟩
def wPendG : Session := { wSess with hi := 7, seen := [7], outst := [wOut1] }
def wCB (seg : Bool) : CopyBack := ⟨3, [8], 0, seg, seg⟩
def wPat (ph : Nat) (seg : Bool) : State := { wSet wCmd [(patB 3, F.PAT_STATUS_PHASE, ph), (gsegB 3, F.SEG_CTRL_FREEZE_FG, 0), (seamB 8, F.SEAM_ALONG_A0, 5)] with copying := if ph = 2 then [wCB seg] else [] }

theorem wit_CommandChecks_1 :
    ((Instr.command (Instr.keepalive wHd) = some (wHd, 259, 0)) ∧
      (State.reset.portOpen = false)) ∧
    ((Instr.command (Instr.keepalive wHd) = some (wHd, 259, 0)) ∧
      (wDev.portOpen = true) ∧
      259 ≠ 257 ∧
      (wDev.findSession wHd = none)) ∧
    ((Instr.command (Instr.logClear wHd) = some (wHd, 2561, 2)) ∧
      (wDup.portOpen = true) ∧
      2561 ≠ 257 ∧
      (wDup.findSession wHd = some ({ wSess with hi := 7, seen := [7] })) ∧
      (seqWithin ({ wSess with hi := 7, seen := [7] : Session }).hi wHd.seq.toNat = true) ∧
      (({ wSess with hi := 7, seen := [7] : Session }).seen.contains wHd.seq.toNat = true)) ∧
    ((Instr.command (Instr.logClear wHd1) = some (wHd1, 2561, 2)) ∧
      (wCmd1.portOpen = true) ∧
      2561 ≠ 257 ∧
      (wCmd1.findSession wHd1 = some ({ wSess with role := 1 })) ∧
      (seqAbove ({ wSess with role := 1 : Session }).hi wHd1.seq.toNat = true) ∧
      (({ wSess with role := 1 : Session }).seen.contains wHd1.seq.toNat = false) ∧
      ({ wSess with role := 1 : Session }).outst.length < 256 ∧
      wHd1.role.toNat < 2 ∧
      (wCmd1.fits wHd1 0 = true)) :=
  by decide +kernel

theorem wit_QueryCommands_1 :
    (Accepts wS wHd 256 0 ∧
      (wS.fits wHd (be 2 (wS.getF devB F.DEV_NUM_DEVNUM) ++ be 8 (wS.getF devB F.DEV_SERIAL_SERIAL) ++ be 4 (wS.getF devB F.FW_VERSION_FW_VER) ++ be 1 wS.stateByte ++ be 1 (wS.getF devB F.CAST_STATUS_IMAGE) ++ zeros 2 ++ be 4 wS.degraded).length = true)) ∧
    (Accepts wS wHd 259 0 ∧
      (wS.fits wHd ([] : List Byte).length = true)) ∧
    (Accepts wS wHd 260 2 ∧
      (wS.fits wHd (List.flatMap (fun e => be 2 e.id ++ be 1 e.role ++ [(0 : Byte)] ++ be 2 e.outst.length ++ be 2 e.udp ++ be 16 e.addr) (wS.accepted wHd 260).sess).length = true)) ∧
    ((Machine.setOf (255) = some 16) ∧
      Accepts wS wHd 517 0 ∧
      (wS.fits wHd (be 1 (wS.getF (patB 16) F.PAT_STATUS_PHASE) ++ zeros 7 ++ be 8 (wS.getF (patB 16) F.PAT_SWAP_COURSE_COURSE) ++ be 8 (wS.getF (patB 16) F.PAT_SWAPS_COUNT)).length = true)) ∧
    (15 < 16 ∧
      Accepts wS wHd 770 0 ∧
      (wS.fits wHd (be 1 (wS.g (15)).st ++ zeros 7 ++ be 8 (ofInt 64 (wS.stampG (15))) ++ be 8 (wS.getF (crsB (15)) F.CRS_HWM_HWM) ++ be 4 (wS.getF (crsB (15)) F.CRS_LAST_CSW_CSW) ++ List.flatMap (fun k => be 4 (wS.getF (crsB (15)) (F.CRS_LATE_COUNT.nth k))) (List.range 6)).length = true)) ∧
    (63 < 64 ∧
      Accepts wS wHd 1284 0 ∧
      (wS.fits wHd (wS.dmaWord (63) ++ be 8 (wS.getF (dmaB (63)) F.DMA_ADDR_ADDR) ++ be 4 (wS.getF (dmaB (63)) F.DMA_RESIDUE_BYTES)).length = true)) ∧
    (127 < 128 ∧
      (wS.powered (corrB (127)) = true) ∧
      Accepts wS wHd 1537 0 ∧
      (wS.fits wHd (be 4 (wS.getF (corrB (127)) F.CAL_COUNT_COUNT) ++ be 8 (wS.getF (corrB (127)) F.CAL_LAST_COURSE_COURSE) ++ be 2 (wS.getF (corrB (127)) F.CAL_LAST_TEMP_TEMP) ++ be 1 (wS.getF (corrB (127)) F.CORR_STATUS_GAUGE_PEND) ++ [(0 : Byte)]).length = true)) ∧
    (Accepts wS wHd 1792 0 ∧
      (wS.fits wHd (be 8 wS.sec ++ be 4 wS.ns ++ be 4 (wS.localT % 2 ^ 40 / 2 ^ 16) ++ match wS.time.sel with | some d => be 1 d ++ be 1 (if wS.ptpLocked d = true then 1 else 0) | none => [(255 : Byte), (0 : Byte)]).length = true)) :=
  ⟨⟨accepts_of (by decide +kernel), by decide +kernel⟩,
    ⟨accepts_of (by decide +kernel), by decide +kernel⟩,
    ⟨accepts_of (by decide +kernel), by decide +kernel⟩,
    ⟨by decide +kernel, accepts_of (by decide +kernel), by decide +kernel⟩,
    ⟨by decide +kernel, accepts_of (by decide +kernel), by decide +kernel⟩,
    ⟨by decide +kernel, accepts_of (by decide +kernel), by decide +kernel⟩,
    ⟨by decide +kernel, by decide +kernel, accepts_of (by decide +kernel), by decide +kernel⟩,
    ⟨accepts_of (by decide +kernel), by decide +kernel⟩⟩

theorem wit_QueryCommands_2 :
    (Accepts wS wHd 1794 0 ∧
      (wS.fits wHd (wS.ptpBytes 0 ++ wS.ptpBytes 1).length = true)) ∧
    ((wS.domOn 95 = true) ∧
      Accepts wS wHd 2052 0 ∧
      (wS.fits wHd (be 4 (wS.peekReg (thB + F.TH_STATUS_CASS_OK.off)) ++ be 4 (wS.getF thB F.CASS_COUNT_COUNT)).length = true)) ∧
    ((wS.domOn 93 = true) ∧
      Accepts wS wHd 2308 0 ∧
      (wS.fits wHd (be 1 (wS.getF repB F.RR_STATUS_RSTATE) ++ zeros 7 ++ be 8 (wS.getF repB F.RR_COURSE_COURSE) ++ be 4 (wS.getF repB F.RR_MISMATCH_COUNT)).length = true)) :=
  ⟨⟨accepts_of (by decide +kernel), by decide +kernel⟩,
    ⟨by decide +kernel, accepts_of (by decide +kernel), by decide +kernel⟩,
    ⟨by decide +kernel, accepts_of (by decide +kernel), by decide +kernel⟩⟩

theorem wit_SessionCommands_1 :
    ((wKeys.portOpen = true) ∧
      (wHo.session = (0 : BitVec 16)) ∧
      (wKeys.roleKey wHo.role.toNat = some (zeros 32)) ∧
      (∀ e ∈ wKeys.sess, e.hostNonce ≠ 99) ∧
      (wKeys.openStatus wHo (0) (512) = 0)) ∧
    (Accepts wCmd wHd 258 0) ∧
    (Accepts ({ wCmd with sess := [wSess, { wSess with id := 6 }, { wSess with id := 9 }] }) wHd 261 3 ∧
      ({ wSess with id := 9 }) ∈ ({ wCmd with sess := [wSess, { wSess with id := 6 }, { wSess with id := 9 }] : State }).sess ∧
      (({ wSess with id := 9 : Session }).id = 9)) ∧
    ((List.find? (fun x => x.id == 5) ({ wDev with sess := [wPendS (some (0, [(1 : Byte), (2 : Byte)]))] : State }).sess = some (wPendS (some (0, [(1 : Byte), (2 : Byte)])))) ∧
      (List.find? (fun x => x.hdr.seq == (7 : BitVec 32)) (wPendS (some (0, [(1 : Byte), (2 : Byte)]))).outst = some (wOut (some (0, [(1 : Byte), (2 : Byte)])))) ∧
      (wOut (some (0, [(1 : Byte), (2 : Byte)]))).op ≠ 769 ∧
      ((wOut (some (0, [(1 : Byte), (2 : Byte)]))).result = some (0, [(1 : Byte), (2 : Byte)])) ∧
      (({ wDev with sess := [wPendS (some (0, [(1 : Byte), (2 : Byte)]))] : State }).findSession (wOut (some (0, [(1 : Byte), (2 : Byte)]))).hdr = some (wPendS (some (0, [(1 : Byte), (2 : Byte)])))) ∧
      (({ wDev with sess := [wPendS (some (0, [(1 : Byte), (2 : Byte)]))] : State }).fits (wOut (some (0, [(1 : Byte), (2 : Byte)]))).hdr [(1 : Byte), (2 : Byte)].length = true)) ∧
    ((List.find? (fun x => x.id == 5) ({ wDev with sess := [wPendS none] : State }).sess = some (wPendS none)) ∧
      (List.find? (fun x => x.hdr.seq == (7 : BitVec 32)) (wPendS none).outst = some (wOut none)) ∧
      (wOut none).op ≠ 769 ∧
      ((wOut none).result = none) ∧
      (({ wDev with sess := [wPendS none] : State }).findSession (wOut none).hdr = some (wPendS none))) ∧
    ((List.find? (fun x => x.id == 5) ({ wDev with sess := [wPendG] : State }).sess = some wPendG) ∧
      (List.find? (fun x => x.hdr.seq == (7 : BitVec 32)) wPendG.outst = some wOut1) ∧
      (wOut1.op = 769) ∧
      (({ wDev with sess := [wPendG] : State }).compsClosed (wOut1.arg % 16) = true) ∧
      (({ wDev with sess := [wPendG] : State }).findSession wOut1.hdr = some wPendG) ∧
      (({ wDev with sess := [wPendG] : State }).fits wOut1.hdr 8 = true)) ∧
    ((List.find? (fun x => x.id == 5) ({ wSet wDev [(gsegB 3, F.SEG_CTRL_SEG_EN, 1)] with grp := [(3, { st := 3, openC := some 8, last := some 8 })], segG := [(3, { runs := [(5, [])] })], sess := [wPendG] : State }).sess = some wPendG) ∧
      (List.find? (fun x => x.hdr.seq == (7 : BitVec 32)) wPendG.outst = some wOut1) ∧
      (wOut1.op = 769) ∧
      (({ wSet wDev [(gsegB 3, F.SEG_CTRL_SEG_EN, 1)] with grp := [(3, { st := 3, openC := some 8, last := some 8 })], segG := [(3, { runs := [(5, [])] })], sess := [wPendG] : State }).compsClosed (wOut1.arg % 16) = false)) :=
  ⟨by decide +kernel,
    accepts_of (by decide +kernel),
    ⟨accepts_of (by decide +kernel), by decide +kernel⟩,
    by decide +kernel⟩

theorem wit_RegisterCommands_1 :
    (Accepts wS wHd 512 0 ∧
      1 ≤ 4 ∧
      4 ≤ 256 ∧
      0 ≤ 1 ∧
      ((wS.accepted wHd 512).fits wHd (4 * 4) = true) ∧
      (∀ a ∈ wordAddrs (BitVec.ofNat 32 devB).toNat (4), (wS.accepted wHd 512).readStatus ((0 : BitVec 8) == (1 : BitVec 8)) a = 0)) ∧
    (Accepts wS wHd 512 0 ∧
      1 ≤ 1 ∧
      1 ≤ 256 ∧
      0 ≤ 1 ∧
      ((wS.accepted wHd 512).fits wHd (4 * 1) = true) ∧
      (wordAddrs (402653184) (1) = [402653184]) ∧
      ((wS.accepted wHd 512).readStatus ((0 : BitVec 8) == (1 : BitVec 8)) 402653184 = 257) ∧
      257 ≠ 0) ∧
    ((wAd = (BitVec.ofNat 32 wAd).toNat) ∧
      ([(3 : Word)].length = 1) ∧
      1 ≤ 1 ∧
      1 ≤ 256 ∧
      ([(3, 2 ^ 32 - 1)] = List.map (fun w => (BitVec.toNat w, 2 ^ 32 - 1)) [(3 : Word)]) ∧
      Accepts wCmd wHd 513 2 ∧
      0 ≤ 1 ∧
      ((wCmd.accepted wHd 513).planWrite (writerOf wHd (0)) wAd [(3, 2 ^ 32 - 1)] = Except.error (257, 201476)) ∧
      (wHd.atCourse = false) ∧
      ((wCmd.accepted wHd 513).fits wHd 4 = true) ∧
      1 < 257) ∧
    ((402653184 = 402653184) ∧
      ([(3 : Word)].length = 1) ∧
      1 ≤ 1 ∧
      1 ≤ 256 ∧
      ([(3, 2 ^ 32 - 1)] = List.map (fun w => (BitVec.toNat w, 2 ^ 32 - 1)) [(3 : Word)]) ∧
      Accepts wCmd wHd 513 2 ∧
      0 ≤ 1 ∧
      ((wCmd.accepted wHd 513).planWrite (writerOf wHd (0)) 402653184 [(3, 2 ^ 32 - 1)] = Except.error (257, 402653184)) ∧
      (wHd.atCourse = false) ∧
      ((wCmd.accepted wHd 513).fits wHd 4 = true) ∧
      1 < 257) :=
  ⟨⟨accepts_of (by decide +kernel), by decide +kernel⟩,
    ⟨accepts_of (by decide +kernel), by decide +kernel⟩,
    ⟨by decide +kernel, by decide +kernel, by decide +kernel, by decide +kernel, by decide +kernel, accepts_of (by decide +kernel), by decide +kernel, err_of (by decide +kernel), by decide +kernel⟩,
    ⟨by decide +kernel, by decide +kernel, by decide +kernel, by decide +kernel, by decide +kernel, accepts_of (by decide +kernel), by decide +kernel, err_of (by decide +kernel), by decide +kernel⟩⟩

theorem wit_PatternCommands_1 :
    (Accepts wCmd wHd 515 1 ∧
      (Machine.setOf (255) = some 16) ∧
      0 ≤ 1 ∧
      (wCmd.phase 16 = 0) ∧
      (wCmd.lentTo 16 = false) ∧
      (wCmd.rerunSet 16 = false) ∧
      (16 < 16 → wCmd.flag (gtalB 16) F.TALLY_STATUS_DRAIN = false) ∧
      (((wCmd.accepted wHd 515).shadowOk 16).2 = true) ∧
      (wCmd.canon = true) ∧
      (wCmd.setRuns 16 = false)) ∧
    (Accepts wGr wHd 515 1 ∧
      (Machine.setOf (3) = some 3) ∧
      1 ≤ 1 ∧
      (wGr.phase 3 = 0) ∧
      (wGr.lentTo 3 = false) ∧
      (wGr.rerunSet 3 = false) ∧
      (3 < 16 → wGr.flag (gtalB 3) F.TALLY_STATUS_DRAIN = false) ∧
      (((wGr.accepted wHd 515).shadowOk 3).2 = true) ∧
      (wGr.canon = true) ∧
      (wGr.setRuns 3 = true) ∧
      ((9 : Int) = if (1 : BitVec 8) = (0 : BitVec 8) then wGr.setStamp 3 + (1 : Int) else Int.ofNat (9)) ∧
      wGr.setStamp 3 < (9 : Int) ∧
      (9 : Int) ≤ wGr.setStamp 3 + (2 : Int) ^ 32 ∧
      (wGr.fits wHd 0 = true)) ∧
    (Accepts wGr wHd 515 1 ∧
      (Machine.setOf (3) = some 3) ∧
      0 ≤ 1 ∧
      (wGr.phase 3 = 0) ∧
      (wGr.lentTo 3 = false) ∧
      (wGr.rerunSet 3 = false) ∧
      (3 < 16 → wGr.flag (gtalB 3) F.TALLY_STATUS_DRAIN = false) ∧
      (((wGr.accepted wHd 515).shadowOk 3).2 = true) ∧
      (wGr.canon = true) ∧
      (wGr.setRuns 3 = true) ∧
      ((9 : Int) = if (0 : BitVec 8) = (0 : BitVec 8) then wGr.setStamp 3 + (1 : Int) else Int.ofNat (0)) ∧
      wGr.setStamp 3 < (9 : Int) ∧
      (9 : Int) ≤ wGr.setStamp 3 + (2 : Int) ^ 32 ∧
      (wGr.fits wHd 0 = true)) :=
  ⟨⟨accepts_of (by decide +kernel), by decide +kernel⟩,
    ⟨accepts_of (by decide +kernel), by decide +kernel⟩,
    ⟨accepts_of (by decide +kernel), by decide +kernel⟩⟩

theorem wit_PatternCommands_2 :
    (Accepts (wPat 0 false) wHd 516 2 ∧
      (Machine.setOf (3) = some 3) ∧
      ((wPat 0 false).fits wHd 0 = true) ∧
      ((wPat 0 false).phase 3 = 0) ∧
      ((wPat 0 false).lentTo 3 = false) ∧
      ((wPat 0 false).rerunSet 3 = false) ∧
      ((wPat 0 false).canon = true)) ∧
    (Accepts (wPat 1 false) wHd 516 2 ∧
      (Machine.setOf (3) = some 3) ∧
      ((wPat 1 false).fits wHd 0 = true) ∧
      (wPat 1 false).phase 3 ≠ 0) ∧
    ((List.find? (fun x => x.set == 3) (wPat 2 false).copying = some (wCB false)) ∧
      ((wCB false).seg = false)) ∧
    ((List.find? (fun x => x.set == 3) (wPat 2 true).copying = some (wCB true)) ∧
      ((wPat 2 true).phase 3 = 2) ∧
      ((wCB true).seg = true) ∧
      ((wCB true).tally = true) ∧
      ((wPat 2 true).canon = true)) ∧
    ((List.find? (fun x => x.set == 3) (wPat 0 false).copying = none)) :=
  ⟨⟨accepts_of (by decide +kernel), by decide +kernel⟩,
    ⟨accepts_of (by decide +kernel), by decide +kernel⟩,
    by decide +kernel⟩


end W6

/-! ### Witnesses: Command opcodes -/

namespace W7

def wSt : State := wSet wCmd [(posB 0, F.POS_CTRL_RUN, 1), (posB 0, F.POS_CTRL_MODE, 1), (gseamB 3, F.GRP_SEAM_FIRST_CH, 8), (gseamB 3, F.GRP_SEAM_COUNT, 1), (gseamB 3, F.GRP_SEAM_ANCHOR, 0), (crsB 3, F.CRS_CTRL_CLOSE_DLY, 2000)]
def wLn (fs : List (Nat × Fld × Nat)) (x : Lane) : State := { wSet wCmd ([(ingB 8, F.LANE_STATUS_STATE, 6), (ingB 8, F.ING_STATUS_JOINED, 1)] ++ fs) with lane := [(8, x)] }
def wGd : State := (wSet wCmd [(gseamB 3, F.GRP_SEAM_FIRST_CH, 8), (gseamB 3, F.GRP_SEAM_COUNT, 1), (corrB 8, F.CORR_CTRL_FF_EN, 1)]).setG 3 { st := 2, openC := some 4 }
def wCm (fs : List (Nat × Fld × Nat)) (x : Cmp) : State := { wSet wCmd fs with cmp := [(2, x)] }
def wLog : State := wSet wCmd [(fmB, F.LOG_NEXT_INDEX, 2), (mcB 0, F.MC_STATUS_STATE, 2), (mcB 1, F.MC_STATUS_STATE, 2)]

theorem wit_GroupAndCameraCommands_1 :
    Accepts wSt wHd 768 1 ∧
    (3 = 3) ∧
    3 < 16 ∧
    (wSt.fits wHd 0 = true) ∧
    (((wSt.accepted wHd 768).startStatus 3).2 = 0) ∧
    (wSt.runPowered 3 = true) ∧
    0 ≠ 3 ∧
    1 ≠ 3 ∧
    2 ≠ 3 ∧
    4 ≠ 3 ∧
    5 ≠ 3 ∧
    6 ≠ 3 ∧
    7 ≠ 3 ∧
    9 ≠ 3 ∧
    16 ≠ 3 ∧
    17 ≠ 3 ∧
    63 ≠ 3 ∧
    64 ≠ 3 ∧
    65 ≠ 3 ∧
    66 ≠ 3 ∧
    67 ≠ 3 ∧
    68 ≠ 3 ∧
    100 ≠ 3 ∧
    127 ≠ 3 ∧
    128 ≠ 3 ∧
    65535 ≠ 3 ∧
    65536 ≠ 3 ∧
    65537 ≠ 3 ∧
    131072 ≠ 3 :=
  ⟨accepts_of (by decide +kernel), by decide +kernel⟩

theorem wit_GroupAndCameraCommands_2 :
    (Accepts wSt wHd 768 1 ∧
      (3 = 3) ∧
      3 < 16 ∧
      (wSt.fits wHd 0 = true) ∧
      (((wSt.accepted wHd 768).startStatus 3).2 = 0) ∧
      (wSt.runPowered 3 = true) ∧
      0 ≠ 3 ∧
      1 ≠ 3 ∧
      2 ≠ 3 ∧
      4 ≠ 3 ∧
      5 ≠ 3 ∧
      6 ≠ 3 ∧
      7 ≠ 3 ∧
      9 ≠ 3 ∧
      16 ≠ 3 ∧
      17 ≠ 3 ∧
      63 ≠ 3 ∧
      64 ≠ 3 ∧
      65 ≠ 3 ∧
      66 ≠ 3 ∧
      67 ≠ 3 ∧
      68 ≠ 3 ∧
      100 ≠ 3 ∧
      127 ≠ 3 ∧
      128 ≠ 3 ∧
      65535 ≠ 3 ∧
      65536 ≠ 3 ∧
      65537 ≠ 3 ∧
      131072 ≠ 3) ∧
    (Accepts wCmd wHd 768 1 ∧
      (3 = 3) ∧
      3 < 16 ∧
      (wCmd.fits wHd 0 = true) ∧
      ((wCmd.accepted wHd 768).startStatus 3).2 ≠ 0) :=
  ⟨⟨accepts_of (by decide +kernel), by decide +kernel⟩,
    ⟨accepts_of (by decide +kernel), by decide +kernel⟩⟩

theorem wit_GroupAndCameraCommands_3 :
    Accepts (wCmd.setG 3 { st := 2, openC := some 4 }) wHd 769 1 ∧
    (3 = 3) ∧
    3 < 16 ∧
    (((wCmd.setG 3 { st := 2, openC := some 4 : Grp }).g 3).st = 2) ∧
    0 ≠ 3 ∧
    1 ≠ 3 ∧
    2 ≠ 3 ∧
    4 ≠ 3 ∧
    5 ≠ 3 ∧
    6 ≠ 3 ∧
    7 ≠ 3 ∧
    9 ≠ 3 ∧
    16 ≠ 3 ∧
    17 ≠ 3 ∧
    63 ≠ 3 ∧
    64 ≠ 3 ∧
    65 ≠ 3 ∧
    66 ≠ 3 ∧
    67 ≠ 3 ∧
    68 ≠ 3 ∧
    100 ≠ 3 ∧
    127 ≠ 3 ∧
    128 ≠ 3 ∧
    65535 ≠ 3 ∧
    65536 ≠ 3 ∧
    65537 ≠ 3 ∧
    131072 ≠ 3 :=
  ⟨accepts_of (by decide +kernel), by decide +kernel⟩

theorem wit_GroupAndCameraCommands_4 :
    (Accepts (wCmd.setG 3 { st := 1 }) wHd 769 1 ∧
      (3 = 3) ∧
      3 < 16 ∧
      (((wCmd.setG 3 { st := 1 : Grp }).g 3).st = 1) ∧
      0 ≠ 3 ∧
      1 ≠ 3 ∧
      2 ≠ 3 ∧
      4 ≠ 3 ∧
      5 ≠ 3 ∧
      6 ≠ 3 ∧
      7 ≠ 3 ∧
      9 ≠ 3 ∧
      16 ≠ 3 ∧
      17 ≠ 3 ∧
      63 ≠ 3 ∧
      64 ≠ 3 ∧
      65 ≠ 3 ∧
      66 ≠ 3 ∧
      67 ≠ 3 ∧
      68 ≠ 3 ∧
      100 ≠ 3 ∧
      127 ≠ 3 ∧
      128 ≠ 3 ∧
      65535 ≠ 3 ∧
      65536 ≠ 3 ∧
      65537 ≠ 3 ∧
      131072 ≠ 3) ∧
    (Accepts wCmd wHd 769 1 ∧
      (3 = 3) ∧
      3 < 16 ∧
      ((wCmd.g 3).st = 0 ∨ (wCmd.g 3).st = 3) ∧
      (wCmd.compsClosed 3 = true) ∧
      (wCmd.fits wHd 8 = true)) :=
  ⟨⟨accepts_of (by decide +kernel), by decide +kernel⟩,
    ⟨accepts_of (by decide +kernel), by decide +kernel⟩⟩

theorem wit_GroupAndCameraCommands_5 :
    (Accepts (wLn [] { last := some (5, 2 ^ 32 - 1, 77), lineSince := true }) wHd 771 1 ∧
      8 < 128 ∧
      1 ≤ 16777215 ∧
      16777215 ≤ 16777215 ∧
      (((wLn [] { last := some (5, 2 ^ 32 - 1, 77), lineSince := true : Lane }).ln (8)).last = some (5, 2 ^ 32 - 1, 77)) ∧
      ((wLn [] { last := some (5, 2 ^ 32 - 1, 77), lineSince := true : Lane }).laneState (8) = 6) ∧
      (((wLn [] { last := some (5, 2 ^ 32 - 1, 77), lineSince := true : Lane }).ln (8)).lineSince = true) ∧
      ((wLn [] { last := some (5, 2 ^ 32 - 1, 77), lineSince := true : Lane }).fromMem (8) = false) ∧
      5 < 6 ∧
      6 < 5 + 2 ^ 31 ∧
      (0 = (2 ^ 32 - 1 + (6 - 5)) % 2 ^ 32) ∧
      ((wLn [] { last := some (5, 2 ^ 32 - 1, 77), lineSince := true : Lane }).fits wHd 4 = true)) ∧
    (Accepts (wLn [] {  }) wHd 772 2 ∧
      8 < 128 ∧
      ((2 : BitVec 8) = (2 : BitVec 8)) ∧
      ([(1 : BitVec 64), (2 : BitVec 64)].length = if (2 : BitVec 8) = (2 : BitVec 8) then 2 else 0) ∧
      1 ≤ 2 ∧
      2 ≤ 32 ∧
      ((wLn [] {  : Lane }).backOk (8) = true) ∧
      ((wLn [] {  : Lane }).ln (8)).tags.length < 16 ∧
      (0 = (wLn [] {  : Lane }).freeTag (8))) ∧
    (Accepts (wLn [] {  }) wHd 772 2 ∧
      8 < 128 ∧
      ((1 : BitVec 8) = (1 : BitVec 8)) ∧
      (([] : List Byte).length = if (1 : BitVec 8) = (2 : BitVec 8) then 32 else 0) ∧
      1 ≤ 32 ∧
      32 ≤ 32 ∧
      ((wLn [] {  : Lane }).backOk (8) = true) ∧
      ((wLn [] {  : Lane }).ln (8)).tags.length < 16 ∧
      (0 = (wLn [] {  : Lane }).freeTag (8))) ∧
    (Accepts (wLn [] {  }) wHd 773 2 ∧
      8 < 128 ∧
      ((wLn [] {  : Lane }).backOk (8) = true) ∧
      ((wLn [] {  : Lane }).fits wHd 0 = true)) ∧
    (Accepts (wSet wCmd [(auxB 3, F.AUX_CTRL_RUN, 1)]) wHd 774 2 ∧
      ((wSet wCmd [(auxB 3, F.AUX_CTRL_RUN, 1)]).domOn 95 = true) ∧
      ((wSet wCmd [(auxB 3, F.AUX_CTRL_RUN, 1)]).fits wHd 0 = true)) :=
  ⟨⟨accepts_of (by decide +kernel), by decide +kernel⟩,
    ⟨accepts_of (by decide +kernel), by decide +kernel⟩,
    ⟨accepts_of (by decide +kernel), by decide +kernel⟩,
    ⟨accepts_of (by decide +kernel), by decide +kernel⟩,
    ⟨accepts_of (by decide +kernel), by decide +kernel⟩⟩

theorem wit_GroupAndCameraCommands_6 :
    (Accepts wGd wHd 1536 1 ∧
      (8 = 8) ∧
      8 < 128 ∧
      (wGd.groupOf 8 = some 3) ∧
      (wGd.gaugeDouble 8 = true) ∧
      (wGd.fits wHd 0 = true) ∧
      ((wGd.ch 8).pendingReq = none) ∧
      0 ≠ 8 ∧
      1 ≠ 8 ∧
      2 ≠ 8 ∧
      3 ≠ 8 ∧
      4 ≠ 8 ∧
      5 ≠ 8 ∧
      6 ≠ 8 ∧
      7 ≠ 8 ∧
      9 ≠ 8 ∧
      16 ≠ 8 ∧
      17 ≠ 8 ∧
      63 ≠ 8 ∧
      64 ≠ 8 ∧
      65 ≠ 8 ∧
      66 ≠ 8 ∧
      67 ≠ 8 ∧
      68 ≠ 8 ∧
      100 ≠ 8 ∧
      127 ≠ 8 ∧
      128 ≠ 8 ∧
      65535 ≠ 8 ∧
      65536 ≠ 8 ∧
      65537 ≠ 8 ∧
      131072 ≠ 8) ∧
    (Accepts (wLn [] {  }) wHd 1538 2 ∧
      (8 = 8) ∧
      8 < 128 ∧
      ((wLn [] {  : Lane }).quadOn 8 = true) ∧
      ((wLn [] {  : Lane }).fits wHd 0 = true)) :=
  ⟨⟨accepts_of (by decide +kernel), by decide +kernel⟩,
    ⟨accepts_of (by decide +kernel), by decide +kernel⟩⟩

theorem wit_GroupAndCameraCommands_7 :
    Accepts (wLn [(ingB 8, F.LANE_CTRL_ADAPT_FREEZE, 1)] {  }) wHd 1538 2 ∧
    (8 = 8) ∧
    8 < 128 ∧
    ((wLn [(ingB 8, F.LANE_CTRL_ADAPT_FREEZE, 1)] {  : Lane }).quadOn 8 = true) ∧
    ((wLn [(ingB 8, F.LANE_CTRL_ADAPT_FREEZE, 1)] {  : Lane }).fits wHd 0 = true) ∧
    ((wLn [(ingB 8, F.LANE_CTRL_ADAPT_FREEZE, 1)] {  : Lane }).flag (ingB 8) F.LANE_CTRL_ADAPT_FREEZE = true) :=
  ⟨accepts_of (by decide +kernel), by decide +kernel⟩

theorem wit_UnitCommands_1 :
    (Accepts wCmd wHd 1793 3 ∧
      999999999 < 1000000000 ∧
      (wCmd.anyRunning = false) ∧
      (wCmd.ptpLocked 0 = false) ∧
      (wCmd.ptpLocked 1 = false) ∧
      (wCmd.fits wHd 0 = true)) ∧
    (Accepts wCmd wHd 1795 2 ∧
      1 ≤ 1 ∧
      (wCmd.fits wHd 0 = true) ∧
      (wCmd.ptpLocked 0 = false) ∧
      (wCmd.ptpLocked 1 = false)) :=
  ⟨⟨accepts_of (by decide +kernel), by decide +kernel⟩,
    ⟨accepts_of (by decide +kernel), by decide +kernel⟩⟩

theorem wit_UnitCommands_2 :
    Accepts (wCm [] { list := [((9 : Int), 1)] }) wHd 2048 1 ∧
    (2 = 2) ∧
    2 < 16 ∧
    ((wCm [] { list := [((9 : Int), 1)] : Cmp }).domOn 95 = true) ∧
    ((wCm [] { list := [((9 : Int), 1)] : Cmp }).c 2).list.length + ((wCm [] { list := [((9 : Int), 1)] : Cmp }).c 2).late.length < 4096 ∧
    ((wCm [] { list := [((9 : Int), 1)] : Cmp }).cmpOn 2 = false) ∧
    ((wCm [] { list := [((9 : Int), 1)] : Cmp }).fits wHd 2 = true) ∧
    0 ≠ 2 ∧
    1 ≠ 2 ∧
    3 ≠ 2 ∧
    4 ≠ 2 ∧
    5 ≠ 2 ∧
    6 ≠ 2 ∧
    7 ≠ 2 ∧
    9 ≠ 2 ∧
    16 ≠ 2 ∧
    17 ≠ 2 ∧
    63 ≠ 2 ∧
    64 ≠ 2 ∧
    65 ≠ 2 ∧
    66 ≠ 2 ∧
    67 ≠ 2 ∧
    68 ≠ 2 ∧
    100 ≠ 2 ∧
    127 ≠ 2 ∧
    128 ≠ 2 ∧
    65535 ≠ 2 ∧
    65536 ≠ 2 ∧
    65537 ≠ 2 ∧
    131072 ≠ 2 :=
  ⟨accepts_of (by decide +kernel), by decide +kernel⟩

theorem wit_UnitCommands_3 :
    Accepts (wCm [(cmpB 2, F.CMP_CTRL_EN, 1)] { list := [((9 : Int), 1)] }) wHd 2048 1 ∧
    (2 = 2) ∧
    2 < 16 ∧
    ((wCm [(cmpB 2, F.CMP_CTRL_EN, 1)] { list := [((9 : Int), 1)] : Cmp }).domOn 95 = true) ∧
    ((wCm [(cmpB 2, F.CMP_CTRL_EN, 1)] { list := [((9 : Int), 1)] : Cmp }).c 2).list.length + ((wCm [(cmpB 2, F.CMP_CTRL_EN, 1)] { list := [((9 : Int), 1)] : Cmp }).c 2).late.length < 4096 ∧
    (wCm [(cmpB 2, F.CMP_CTRL_EN, 1)] { list := [((9 : Int), 1)] : Cmp }).chwm 2 < (wCm [(cmpB 2, F.CMP_CTRL_EN, 1)] { list := [((9 : Int), 1)] : Cmp }).firePoint 2 (toInt 64 (1)) ∧
    ((wCm [(cmpB 2, F.CMP_CTRL_EN, 1)] { list := [((9 : Int), 1)] : Cmp }).fits wHd 2 = true) ∧
    0 ≠ 2 ∧
    1 ≠ 2 ∧
    3 ≠ 2 ∧
    4 ≠ 2 ∧
    5 ≠ 2 ∧
    6 ≠ 2 ∧
    7 ≠ 2 ∧
    9 ≠ 2 ∧
    16 ≠ 2 ∧
    17 ≠ 2 ∧
    63 ≠ 2 ∧
    64 ≠ 2 ∧
    65 ≠ 2 ∧
    66 ≠ 2 ∧
    67 ≠ 2 ∧
    68 ≠ 2 ∧
    100 ≠ 2 ∧
    127 ≠ 2 ∧
    128 ≠ 2 ∧
    65535 ≠ 2 ∧
    65536 ≠ 2 ∧
    65537 ≠ 2 ∧
    131072 ≠ 2 :=
  ⟨accepts_of (by decide +kernel), by decide +kernel⟩

theorem wit_UnitCommands_4 :
    (Accepts (wCm [] { list := [((9 : Int), 1)] }) wHd 2049 1 ∧
      (2 = 2) ∧
      2 < 16 ∧
      ((wCm [] { list := [((9 : Int), 1)] : Cmp }).domOn 95 = true) ∧
      ((wCm [] { list := [((9 : Int), 1)] : Cmp }).fits wHd 0 = true) ∧
      0 ≠ 2 ∧
      1 ≠ 2 ∧
      3 ≠ 2 ∧
      4 ≠ 2 ∧
      5 ≠ 2 ∧
      6 ≠ 2 ∧
      7 ≠ 2 ∧
      9 ≠ 2 ∧
      16 ≠ 2 ∧
      17 ≠ 2 ∧
      63 ≠ 2 ∧
      64 ≠ 2 ∧
      65 ≠ 2 ∧
      66 ≠ 2 ∧
      67 ≠ 2 ∧
      68 ≠ 2 ∧
      100 ≠ 2 ∧
      127 ≠ 2 ∧
      128 ≠ 2 ∧
      65535 ≠ 2 ∧
      65536 ≠ 2 ∧
      65537 ≠ 2 ∧
      131072 ≠ 2) ∧
    (Accepts wCmd wHd 2050 1 ∧
      1 ≤ 1 ∧
      (wCmd.domOn 95 = true) ∧
      (wCmd.fits wHd 0 = true)) ∧
    (Accepts (wSet wCmd [(thB, F.TH_CTRL_TH_EN, 1)]) wHd 2051 1 ∧
      ((wSet wCmd [(thB, F.TH_CTRL_TH_EN, 1)]).domOn 95 = true) ∧
      ((wSet wCmd [(thB, F.TH_CTRL_TH_EN, 1)]).cass.cmd = 0)) ∧
    (Accepts (wSet wCmd [(thB, F.TH_CTRL_TH_EN, 0)]) wHd 2051 1 ∧
      ((wSet wCmd [(thB, F.TH_CTRL_TH_EN, 0)]).domOn 95 = true) ∧
      ((wSet wCmd [(thB, F.TH_CTRL_TH_EN, 0)]).cass.cmd = 0)) :=
  ⟨⟨accepts_of (by decide +kernel), by decide +kernel⟩,
    ⟨accepts_of (by decide +kernel), by decide +kernel⟩,
    ⟨accepts_of (by decide +kernel), by decide +kernel⟩,
    ⟨accepts_of (by decide +kernel), by decide +kernel⟩⟩

theorem wit_UnitCommands_5 :
    (Accepts wLog wHd 2560 0 ∧
      (0 = wLog.getF fmB F.LOG_OLDEST_INDEX) ∧
      (2 = wLog.getF fmB F.LOG_NEXT_INDEX) ∧
      diff32 (0) 0 ≤ diff32 2 0 ∧
      (wLog.fits wHd (64 * min (5) (diff32 2 (0))) = true) ∧
      (((wLog.accepted wHd 2560).readLog (min (5) (diff32 2 (0))) (0)).2 = Except.ok (zeros 128)) ∧
      (wLog.fits wHd (zeros 128).length = true)) ∧
    (Accepts wLog wHd 2561 2 ∧
      (wLog.fits wHd 0 = true)) ∧
    (Accepts wCmd wHd 2562 3 ∧
      (6 : BitVec 8) ≠ (3 : BitVec 8) ∧
      127 < unitCount (6) ∧
      (wCmd.domOn (unitDomain (6) (127)) = true) ∧
      (wCmd.unitServes (6) (127) = false) ∧
      (wCmd.fits wHd 4 = true)) ∧
    (Accepts wCmd wHd 2563 3 ∧
      (wCmd.debugLocked = false) ∧
      127 < 128 ∧
      (wCmd.domOn (unitDomain 6 (127)) = true)) ∧
    (Accepts (wSet wCmd [(ethB 1, F.ETH_STATUS_LINK_UP, 1)]) wHd 2563 3 ∧
      ((wSet wCmd [(ethB 1, F.ETH_STATUS_LINK_UP, 1)]).debugLocked = false) ∧
      1 < 128 ∧
      1 < 2 ∧
      ((wSet wCmd [(ethB 1, F.ETH_STATUS_LINK_UP, 1)]).domOn (unitDomain 3 (1)) = true) ∧
      ((wSet wCmd [(ethB 1, F.ETH_STATUS_LINK_UP, 1)]).linkIsUp (1) = true)) :=
  ⟨⟨accepts_of (by decide +kernel), by decide +kernel, by decide +kernel, by decide +kernel, by decide +kernel, ok_of (by decide +kernel), by decide +kernel⟩,
    ⟨accepts_of (by decide +kernel), by decide +kernel⟩,
    ⟨accepts_of (by decide +kernel), by decide +kernel⟩,
    ⟨accepts_of (by decide +kernel), by decide +kernel⟩,
    ⟨accepts_of (by decide +kernel), by decide +kernel⟩⟩


end W7

/-! ### Witnesses: Rings, memory, DMA and codecs -/

namespace W8

def wMc (l : List Nat) (st : Nat) : List (Nat × Fld × Nat) := l.map (fun d => (mcB d, F.MC_STATUS_STATE, st))
def wMem : State := wSet wCmd (wMc (List.range 16) 2 ++ [(ringB, F.RING_CTX_BASE_ADDR, 0x100000)])
def wRg (c : RingCtx) : State := { wMem with rings := [(0x101, { valid := true, depthLog := 6, base := 0x4000 }), (0x200, c)], ctxCache := [0x101, 0x200] }
def wSub : Sub := { ring := 0x200, who := .net false 0 0xC0A80101 40001, cursor := 3, moved := 0, sent := 3, inFlight := [], seq := 0, key := [], since := none, resendTo := 3 }
def wRs (c : RingCtx) (b : Sub) : State := { wRg c with subs := [(4, b)] }
def dp (c : RingCtx) : RingCtx := { c with valid := true, devProd := true, depthLog := 6 }
def wRpl : State := { wSet (wRg (dp { prod := 64, cons := 0, subs := [4] })) [(Machine.repB, F.REPLAY_STATUS_STATE, 1)] with
  binds := [(0x200, Machine.repB, true)], subs := [(4, { wSub with who := .block Machine.repB, cursor := 0 })],
  rep := { wMem.rep with items := [{ ring := 0x200, first := 0, n := 3, kind := 0, unit := 0, course := 0 }] } }
def wEv : State := { wRs { valid := true, prod := 67, cons := 3, depthLog := 6, subs := [4] } wSub with starved := [0x200] }
def wSt8 : State := { wMem with mem := [(3, 7), (5, 9)] }
def wHot : State := wSet wSt8 [(mcB 2, F.MC_STATUS_HOT, 1)]
def wScr (n : Nat) : State := { wSt8 with memBad := [(0xF000001, n)] }
def wCut : State := (wSet wMem [(mcB 2, F.MC_STATUS_STATE, 3)]).setDr 2 { recut := true }
def wRq : State := { wSt8 with memQ := [⟨2, 2, true, 0x3C0000000, 1, 0⟩, ⟨2, 0, true, 0x3C0000040, 2, 0⟩], memBad := [(0xF000001, 1)] }
def dsc (ctrl : Nat) : List Byte := le 8 0x5000 ++ le 8 0x6000 ++ le 4 100 ++ [BitVec.ofNat 8 ctrl, 0, 0, 0] ++ le 8 0
def wDd (ctrl : Nat) (st : Nat) (d : Dma) : State := { wSet (wMem.pokes 0x2000 (dsc ctrl)) [(dmaB 63, F.DMA_STATE_STATE, st), (dmaB 63, F.DMA_DESC_ADDR, 0x2000)] with dma := [(63, d)] }
def dF (len ctrl : Nat) : Dma := { src := 0x5000, dst := 0x6000, len := len, ctrl := ctrl, fetched := true }
def wOff : State := wSet (wDd 1 1 { dF 100 1 with src := 0x1E0000000 * 5 }) [(mcB 5, F.MC_STATUS_STATE, 3)]
def wHk (l : List (Nat × HankJob)) : State := { wSet wMem [(hkB 8, F.HK_CTRL_EN, 1), (hkB 8, F.HK_CTRL_HOST_LANES, 4), (hkB 8, F.HK_JOB_RING_RING, 0x200), (hkB 8, F.HK_RES_RING_RING, 0x101)] with hank := l, rings := [(0x101, dp { base := 0x4000 }), (0x200, { valid := true, base := 0x8000, depthLog := 6, prod := 2, subs := [4] })], subs := [(4, { wSub with who := .block (hkB 8), cursor := 0 })] }
def hkV : State := ((wHk []).readEntry 0x200 (hkB 8) 0 8).1
def hkM : State × HankJob := (hkV.take 0x200 (hkB 8) 1).hkMake 8 (zeros 64)
def hkEnt : List Byte := [1] ++ zeros 15 ++ le 4 100 ++ zeros 4 ++ le 8 0x40000 ++ le 2 1 ++ zeros 30
def wHkG : State := ((wHk []).pokes 0x8000 hkEnt).pokes 0x40000 (le 8 0x50000 ++ le 4 200)
def hkV2 : State := (wHkG.readEntry 0x200 (hkB 8) 0 8).1
def hkM2 : State × HankJob := (hkV2.take 0x200 (hkB 8) 1).hkMake 8 hkEnt
def wHk0 : State := { wHk [] with subs := [(4, { wSub with who := .block (hkB 8), cursor := 2 })] }
def jbL : HankJob := { op := 1, src := 0x9000, len := 5, bufs := [(0x40000, 70000)], pos := 3 }
def wHbL : State := (wHk [(64 * 8 + 12, jbL)]).pokes 0x9000 [1, 1, 1, 1, 7]
def rdL : State × Except MemErr (List Byte) := wHbL.memRead 1 8 0x9000 5
def blL : List Byte := [1, 1, 1, 1, 7]
def ptL : State × Bool := rdL.1.hkPut 8 jbL.bufs 3 (zeros 5 ++ hankBlock blL) 2
def wHbW : State := { wHbL with resv := [⟨0x101, 0, 64, false⟩] }
def rdW : State × Except MemErr (List Byte) := wHbW.memRead 1 8 0x9000 5
def ptW : State × Bool := rdW.1.hkPut 8 jbL.bufs 3 (zeros 5 ++ hankBlock blL) 2

theorem wit_Rings_1 :
    Accepts wMem wHd 1024 2 ∧
    256 ≤ 512 ∧
    512 ≤ 1048575 ∧
    6 ≤ 7 ∧
    7 ≤ 24 ∧
    1 ≤ 1 ∧
    (32768 % 256 = 0) ∧
    32768 + { base := 32768, depthLog := 7, valid := true, e256 := (1 : BitVec 8) == (1 : BitVec 8) : RingCtx }.depth * { base := 32768, depthLog := 7, valid := true, e256 := (1 : BitVec 8) == (1 : BitVec 8) : RingCtx }.esize ≤ 128849018880 ∧
    (((wMem.accepted wHd 1024).ringUse (512)).ringHeld (512) = false) ∧
    (wMem.fits wHd 0 = true) ∧
    0 ≠ 512 ∧
    1 ≠ 512 ∧
    2 ≠ 512 ∧
    3 ≠ 512 ∧
    4 ≠ 512 ∧
    5 ≠ 512 ∧
    6 ≠ 512 ∧
    7 ≠ 512 ∧
    9 ≠ 512 ∧
    16 ≠ 512 ∧
    17 ≠ 512 ∧
    63 ≠ 512 ∧
    64 ≠ 512 ∧
    65 ≠ 512 ∧
    66 ≠ 512 ∧
    67 ≠ 512 ∧
    68 ≠ 512 ∧
    100 ≠ 512 ∧
    127 ≠ 512 ∧
    128 ≠ 512 ∧
    65535 ≠ 512 ∧
    65536 ≠ 512 ∧
    65537 ≠ 512 ∧
    131072 ≠ 512 :=
  ⟨accepts_of (by decide +kernel), by decide +kernel⟩

theorem wit_Rings_2 :
    Accepts (wRg {  }) wHd 1024 2 ∧
    256 ≤ 1048575 ∧
    1048575 ≤ 1048575 ∧
    6 ≤ 24 ∧
    24 ≤ 24 ∧
    0 ≤ 1 ∧
    (124554051584 % 256 = 0) ∧
    124554051584 + { base := 124554051584, depthLog := 24, valid := true, e256 := (0 : BitVec 8) == (1 : BitVec 8) : RingCtx }.depth * { base := 124554051584, depthLog := 24, valid := true, e256 := (0 : BitVec 8) == (1 : BitVec 8) : RingCtx }.esize ≤ 128849018880 ∧
    ((((wRg {  : RingCtx }).accepted wHd 1024).ringUse (1048575)).ringHeld (1048575) = false) ∧
    ((wRg {  : RingCtx }).fits wHd 0 = true) ∧
    0 ≠ 1048575 ∧
    1 ≠ 1048575 ∧
    2 ≠ 1048575 ∧
    3 ≠ 1048575 ∧
    4 ≠ 1048575 ∧
    5 ≠ 1048575 ∧
    6 ≠ 1048575 ∧
    7 ≠ 1048575 ∧
    9 ≠ 1048575 ∧
    16 ≠ 1048575 ∧
    17 ≠ 1048575 ∧
    63 ≠ 1048575 ∧
    64 ≠ 1048575 ∧
    65 ≠ 1048575 ∧
    66 ≠ 1048575 ∧
    67 ≠ 1048575 ∧
    68 ≠ 1048575 ∧
    100 ≠ 1048575 ∧
    127 ≠ 1048575 ∧
    128 ≠ 1048575 ∧
    65535 ≠ 1048575 ∧
    65536 ≠ 1048575 ∧
    65537 ≠ 1048575 ∧
    131072 ≠ 1048575 :=
  ⟨accepts_of (by decide +kernel), by decide +kernel⟩

theorem wit_Rings_3 :
    (Accepts (wRg { valid := true }) wHd 1025 2 ∧
      ((((wRg { valid := true : RingCtx }).accepted wHd 1025).ringUse 512).ringNamed 512 = 0) ∧
      ((((wRg { valid := true : RingCtx }).accepted wHd 1025).ringUse 512).ringHeld 512 = false) ∧
      ((wRg { valid := true : RingCtx }).fits wHd 0 = true) ∧
      0 ≠ 512 ∧
      1 ≠ 512 ∧
      2 ≠ 512 ∧
      3 ≠ 512 ∧
      4 ≠ 512 ∧
      5 ≠ 512 ∧
      6 ≠ 512 ∧
      7 ≠ 512 ∧
      9 ≠ 512 ∧
      16 ≠ 512 ∧
      17 ≠ 512 ∧
      63 ≠ 512 ∧
      64 ≠ 512 ∧
      65 ≠ 512 ∧
      66 ≠ 512 ∧
      67 ≠ 512 ∧
      68 ≠ 512 ∧
      100 ≠ 512 ∧
      127 ≠ 512 ∧
      128 ≠ 512 ∧
      65535 ≠ 512 ∧
      65536 ≠ 512 ∧
      65537 ≠ 512 ∧
      131072 ≠ 512) ∧
    (Accepts (wRg { depthLog := 6, valid := true, prod := 9, cons := 3 }) wHd 1026 0 ∧
      ((((wRg { depthLog := 6, valid := true, prod := 9, cons := 3 : RingCtx }).accepted wHd 1026).ringUse 512).ringNamed 512 = 0) ∧
      ((wRg { depthLog := 6, valid := true, prod := 9, cons := 3 : RingCtx }).freeSub = some 0) ∧
      ((((wRg { depthLog := 6, valid := true, prod := 9, cons := 3 : RingCtx }).accepted wHd 1026).ringUse 512).canSub 512 = true) ∧
      ((((wRg { depthLog := 6, valid := true, prod := 9, cons := 3 : RingCtx }).accepted wHd 1026).ringUse 512).canPin [512] = true) ∧
      ((wRg { depthLog := 6, valid := true, prod := 9, cons := 3 : RingCtx }).fits wHd 2 = true)) ∧
    (Accepts (wRs { depthLog := 6, valid := true, prod := 9, cons := 3, subs := [4] } wSub) wHd 1027 0 ∧
      (Tab.find (4) (wRs { depthLog := 6, valid := true, prod := 9, cons := 3, subs := [4] } wSub).subs = some wSub) ∧
      ((wRs { depthLog := 6, valid := true, prod := 9, cons := 3, subs := [4] } wSub).fits wHd 0 = true)) :=
  ⟨⟨accepts_of (by decide +kernel), by decide +kernel⟩,
    ⟨accepts_of (by decide +kernel), by decide +kernel⟩,
    ⟨accepts_of (by decide +kernel), by decide +kernel⟩⟩

theorem wit_Rings_4 :
    (Accepts (wRg { base := 32768, depthLog := 6, valid := true, prod := 9, cons := 3 }) wHd 1028 0 ∧
      ((((wRg { base := 32768, depthLog := 6, valid := true, prod := 9, cons := 3 : RingCtx }).accepted wHd 1028).ringUse 512).ringNamed 512 = 0) ∧
      1 ≤ 2 ∧
      diff32 (4) ((((wRg { base := 32768, depthLog := 6, valid := true, prod := 9, cons := 3 : RingCtx }).accepted wHd 1028).ringUse 512).tail 512) + 2 ≤ (((wRg { base := 32768, depthLog := 6, valid := true, prod := 9, cons := 3 : RingCtx }).accepted wHd 1028).ringUse 512).fill 512 ∧
      ((wRg { base := 32768, depthLog := 6, valid := true, prod := 9, cons := 3 : RingCtx }).fits wHd (2 * ((((wRg { base := 32768, depthLog := 6, valid := true, prod := 9, cons := 3 : RingCtx }).accepted wHd 1028).ringUse 512).ring 512).esize) = true) ∧
      (((((wRg { base := 32768, depthLog := 6, valid := true, prod := 9, cons := 3 : RingCtx }).accepted wHd 1028).ringUse 512).readEntries 512 (2) (4)).2 = Except.ok (zeros 128)) ∧
      ((wRg { base := 32768, depthLog := 6, valid := true, prod := 9, cons := 3 : RingCtx }).fits wHd (zeros 128).length = true)) ∧
    (Accepts (wRg { depthLog := 6, valid := true, prod := 9, cons := 3 }) wHd 1029 0 ∧
      ((((wRg { depthLog := 6, valid := true, prod := 9, cons := 3 : RingCtx }).accepted wHd 1029).ringUse 512).ringNamed 512 = 0) ∧
      ((wRg { depthLog := 6, valid := true, prod := 9, cons := 3 : RingCtx }).fits wHd 12 = true)) ∧
    (Accepts (wRg { depthLog := 6, valid := true, prod := 9, cons := 3 }) wHd 1030 1 ∧
      ((((wRg { depthLog := 6, valid := true, prod := 9, cons := 3 : RingCtx }).accepted wHd 1030).ringUse 512).ringNamed 512 = 0) ∧
      diff32 (9) ((((wRg { depthLog := 6, valid := true, prod := 9, cons := 3 : RingCtx }).accepted wHd 1030).ringUse 512).ring 512).cons ≤ diff32 ((((wRg { depthLog := 6, valid := true, prod := 9, cons := 3 : RingCtx }).accepted wHd 1030).ringUse 512).ring 512).prod ((((wRg { depthLog := 6, valid := true, prod := 9, cons := 3 : RingCtx }).accepted wHd 1030).ringUse 512).ring 512).cons ∧
      (((((wRg { depthLog := 6, valid := true, prod := 9, cons := 3 : RingCtx }).accepted wHd 1030).ringUse 512).ring 512).subs = []) ∧
      ((wRg { depthLog := 6, valid := true, prod := 9, cons := 3 : RingCtx }).fits wHd 0 = true) ∧
      0 ≠ 512 ∧
      1 ≠ 512 ∧
      2 ≠ 512 ∧
      3 ≠ 512 ∧
      4 ≠ 512 ∧
      5 ≠ 512 ∧
      6 ≠ 512 ∧
      7 ≠ 512 ∧
      9 ≠ 512 ∧
      16 ≠ 512 ∧
      17 ≠ 512 ∧
      63 ≠ 512 ∧
      64 ≠ 512 ∧
      65 ≠ 512 ∧
      66 ≠ 512 ∧
      67 ≠ 512 ∧
      68 ≠ 512 ∧
      100 ≠ 512 ∧
      127 ≠ 512 ∧
      128 ≠ 512 ∧
      65535 ≠ 512 ∧
      65536 ≠ 512 ∧
      65537 ≠ 512 ∧
      131072 ≠ 512) :=
  ⟨⟨accepts_of (by decide +kernel), by decide +kernel, by decide +kernel, by decide +kernel, by decide +kernel, ok_of (by decide +kernel), by decide +kernel⟩,
    ⟨accepts_of (by decide +kernel), by decide +kernel⟩,
    ⟨accepts_of (by decide +kernel), by decide +kernel⟩⟩

theorem wit_Rings_5 :
    ((((wRg (dp { prod := 9, cons := 3 })).ring 512).valid = true) ∧
      (((wRg (dp { prod := 9, cons := 3 })).ring 512).devProd = true) ∧
      58 ≠ 0 ∧
      ((wRg (dp { prod := 9, cons := 3 })).replayRing 512 = false) ∧
      58 ≤ (wRg (dp { prod := 9, cons := 3 })).room 512) ∧
    (((({ wRg (dp { prod := 9, cons := 3 }) with binds := [(512, 327680, true)] : State }).ring 512).valid = true) ∧
      ((({ wRg (dp { prod := 9, cons := 3 }) with binds := [(512, 327680, true)] : State }).ring 512).devProd = true) ∧
      59 ≠ 0 ∧
      (({ wRg (dp { prod := 9, cons := 3 }) with binds := [(512, 327680, true)] : State }).replayRing 512 = false) ∧
      ({ wRg (dp { prod := 9, cons := 3 }) with binds := [(512, 327680, true)] : State }).room 512 < 59 ∧
      (({ wRg (dp { prod := 9, cons := 3 }) with binds := [(512, 327680, true)] : State }).prodWaits 512 = true)) ∧
    ((((wRg (dp { prod := 9, cons := 3, drops := 2 ^ 32 - 1 })).ring 512).valid = true) ∧
      (((wRg (dp { prod := 9, cons := 3, drops := 2 ^ 32 - 1 })).ring 512).devProd = true) ∧
      59 ≠ 0 ∧
      ((wRg (dp { prod := 9, cons := 3, drops := 2 ^ 32 - 1 })).replayRing 512 = false) ∧
      (wRg (dp { prod := 9, cons := 3, drops := 2 ^ 32 - 1 })).room 512 < 59 ∧
      ((wRg (dp { prod := 9, cons := 3, drops := 2 ^ 32 - 1 })).prodWaits 512 = false)) ∧
    (((wRpl.ring 512).valid = true) ∧
      ((wRpl.ring 512).devProd = true) ∧
      3 ≠ 0 ∧
      (wRpl.replayRing 512 = true) ∧
      3 ≤ (wRpl.evictItems 512 (3 * (wRpl.ring 512).esize) wRpl.rep.items.length).room 512) ∧
    ((((wRg {  : RingCtx }).ring 512).valid = false ∨ ((wRg {  : RingCtx }).ring 512).devProd = false ∨ 5 = 0)) ∧
    ((((wRg (dp {  })).ring 512).valid = false ∨ ((wRg (dp {  })).ring 512).devProd = false ∨ 0 = 0)) :=
  by decide +kernel

theorem wit_Rings_6 :
    (List.filter (fun r => r.ring == 512) ({ wRg (dp { prod := 2 ^ 32 - 2, cons := 2 ^ 32 - 2 }) with resv := [{ ring := 257, first := 0, n := 1, done := false }, { ring := 512, first := 2 ^ 32 - 2, n := 5, done := false }] : State }).resv = [{ ring := 512, first := 2 ^ 32 - 2, n := 5, done := false }]) ∧
    5 ≠ 0 ∧
    0 ≠ 512 ∧
    1 ≠ 512 ∧
    2 ≠ 512 ∧
    3 ≠ 512 ∧
    4 ≠ 512 ∧
    5 ≠ 512 ∧
    6 ≠ 512 ∧
    7 ≠ 512 ∧
    9 ≠ 512 ∧
    16 ≠ 512 ∧
    17 ≠ 512 ∧
    63 ≠ 512 ∧
    64 ≠ 512 ∧
    65 ≠ 512 ∧
    66 ≠ 512 ∧
    67 ≠ 512 ∧
    68 ≠ 512 ∧
    100 ≠ 512 ∧
    127 ≠ 512 ∧
    128 ≠ 512 ∧
    65535 ≠ 512 ∧
    65536 ≠ 512 ∧
    65537 ≠ 512 ∧
    131072 ≠ 512 :=
  by decide +kernel

theorem wit_Rings_7 :
    (256 ≤ 512 ∧
      ((((wRg { depthLog := 6, valid := true, prod := 9, cons := 3 : RingCtx }).ringUse 512).ring 512).valid = true) ∧
      ((((wRg { depthLog := 6, valid := true, prod := 9, cons := 3 : RingCtx }).ringUse 512).ring 512).devProd = false) ∧
      diff32 (67) (((wRg { depthLog := 6, valid := true, prod := 9, cons := 3 : RingCtx }).ringUse 512).ring 512).prod ≠ 0 ∧
      diff32 (67) (((wRg { depthLog := 6, valid := true, prod := 9, cons := 3 : RingCtx }).ringUse 512).ring 512).prod ≤ ((wRg { depthLog := 6, valid := true, prod := 9, cons := 3 : RingCtx }).ringUse 512).free 512 ∧
      0 ≠ 512 ∧
      1 ≠ 512 ∧
      2 ≠ 512 ∧
      3 ≠ 512 ∧
      4 ≠ 512 ∧
      5 ≠ 512 ∧
      6 ≠ 512 ∧
      7 ≠ 512 ∧
      9 ≠ 512 ∧
      16 ≠ 512 ∧
      17 ≠ 512 ∧
      63 ≠ 512 ∧
      64 ≠ 512 ∧
      65 ≠ 512 ∧
      66 ≠ 512 ∧
      67 ≠ 512 ∧
      68 ≠ 512 ∧
      100 ≠ 512 ∧
      127 ≠ 512 ∧
      128 ≠ 512 ∧
      65535 ≠ 512 ∧
      65536 ≠ 512 ∧
      65537 ≠ 512 ∧
      131072 ≠ 512) ∧
    (256 ≤ 512 ∧
      ((((wRg { depthLog := 6, valid := true, prod := 9, cons := 3 : RingCtx }).ringUse 512).ring 512).valid = true) ∧
      ((((wRg { depthLog := 6, valid := true, prod := 9, cons := 3 : RingCtx }).ringUse 512).ring 512).devProd = false) ∧
      ((wRg { depthLog := 6, valid := true, prod := 9, cons := 3 : RingCtx }).ringUse 512).free 512 < diff32 (68) (((wRg { depthLog := 6, valid := true, prod := 9, cons := 3 : RingCtx }).ringUse 512).ring 512).prod) :=
  by decide +kernel

theorem wit_Rings_8 :
    0 ≠ 512 ∧
    1 ≠ 512 ∧
    2 ≠ 512 ∧
    3 ≠ 512 ∧
    4 ≠ 512 ∧
    5 ≠ 512 ∧
    6 ≠ 512 ∧
    7 ≠ 512 ∧
    9 ≠ 512 ∧
    16 ≠ 512 ∧
    17 ≠ 512 ∧
    63 ≠ 512 ∧
    64 ≠ 512 ∧
    65 ≠ 512 ∧
    66 ≠ 512 ∧
    67 ≠ 512 ∧
    68 ≠ 512 ∧
    100 ≠ 512 ∧
    127 ≠ 512 ∧
    128 ≠ 512 ∧
    65535 ≠ 512 ∧
    65536 ≠ 512 ∧
    65537 ≠ 512 ∧
    131072 ≠ 512 ∧
    (true = true ∨ 512 ∉ ({ wRg (dp {  }) with ctxCache := [257, 512] : State }).ctxCache) ∧
    (true = true) ∧
    512 ∈ ({ wRg (dp {  }) with ctxCache := [257, 512] : State }).ctxCache :=
  by decide +kernel

theorem wit_Rings_9 :
    0 ≠ 512 ∧
    1 ≠ 512 ∧
    2 ≠ 512 ∧
    3 ≠ 512 ∧
    4 ≠ 512 ∧
    5 ≠ 512 ∧
    6 ≠ 512 ∧
    7 ≠ 512 ∧
    9 ≠ 512 ∧
    16 ≠ 512 ∧
    17 ≠ 512 ∧
    63 ≠ 512 ∧
    64 ≠ 512 ∧
    65 ≠ 512 ∧
    66 ≠ 512 ∧
    67 ≠ 512 ∧
    68 ≠ 512 ∧
    100 ≠ 512 ∧
    127 ≠ 512 ∧
    128 ≠ 512 ∧
    65535 ≠ 512 ∧
    65536 ≠ 512 ∧
    65537 ≠ 512 ∧
    131072 ≠ 512 ∧
    (true = true ∨ 512 ∉ ({ wRg (dp {  }) with ctxCache := [257] : State }).ctxCache) ∧
    (true = true) ∧
    512 ∉ ({ wRg (dp {  }) with ctxCache := [257] : State }).ctxCache :=
  by decide +kernel

theorem wit_Rings_10 :
    (0 ≠ 512 ∧
      1 ≠ 512 ∧
      2 ≠ 512 ∧
      3 ≠ 512 ∧
      4 ≠ 512 ∧
      5 ≠ 512 ∧
      6 ≠ 512 ∧
      7 ≠ 512 ∧
      9 ≠ 512 ∧
      16 ≠ 512 ∧
      17 ≠ 512 ∧
      63 ≠ 512 ∧
      64 ≠ 512 ∧
      65 ≠ 512 ∧
      66 ≠ 512 ∧
      67 ≠ 512 ∧
      68 ≠ 512 ∧
      100 ≠ 512 ∧
      127 ≠ 512 ∧
      128 ≠ 512 ∧
      65535 ≠ 512 ∧
      65536 ≠ 512 ∧
      65537 ≠ 512 ∧
      131072 ≠ 512 ∧
      (false = true ∨ 512 ∉ ({ wRg (dp {  }) with ctxCache := [257] : State }).ctxCache) ∧
      (false = false) ∧
      512 ∉ ({ wRg (dp {  }) with ctxCache := [257] : State }).ctxCache) ∧
    (((wSet wEv [(ringB, F.RING_CFG_SUB_TMO, 2)]).evictable 4 = true)) ∧
    ((wMem.evictable 4 = false)) :=
  by decide +kernel

theorem wit_DeviceMemory_1 :
    ((3 = 3) ∧
      1 ≤ 8 ∧
      8 ≤ 8176 ∧
      (wSt8.memSound 3 8 = true) ∧
      (wSt8.canon = true) ∧
      Accepts wSt8 wHd 1280 2 ∧
      (8 = 8) ∧
      (wSt8.fits wHd 8 = true)) ∧
    ((3 = 3) ∧
      1 ≤ 3 ∧
      3 ≤ 8176 ∧
      (wSt8.memSound 3 3 = true) ∧
      (wSt8.canon = true) ∧
      Accepts wSt8 wHd 1281 2 ∧
      ([(1 : Byte), (2 : Byte), (0 : Byte)].length = 3) ∧
      (wSt8.inTable 3 3 = false) ∧
      (wSt8.fits wHd 0 = true) ∧
      (0 < 3 ∨ 3 + 3 ≤ 0) ∧
      (1 < 3 ∨ 3 + 3 ≤ 1) ∧
      (2 < 3 ∨ 3 + 3 ≤ 2) ∧
      (6 < 3 ∨ 3 + 3 ≤ 6) ∧
      (7 < 3 ∨ 3 + 3 ≤ 7) ∧
      (9 < 3 ∨ 3 + 3 ≤ 9) ∧
      (16 < 3 ∨ 3 + 3 ≤ 16) ∧
      (17 < 3 ∨ 3 + 3 ≤ 17) ∧
      (63 < 3 ∨ 3 + 3 ≤ 63) ∧
      (64 < 3 ∨ 3 + 3 ≤ 64) ∧
      (65 < 3 ∨ 3 + 3 ≤ 65) ∧
      (66 < 3 ∨ 3 + 3 ≤ 66) ∧
      (67 < 3 ∨ 3 + 3 ≤ 67) ∧
      (68 < 3 ∨ 3 + 3 ≤ 68) ∧
      (100 < 3 ∨ 3 + 3 ≤ 100) ∧
      (127 < 3 ∨ 3 + 3 ≤ 127) ∧
      (128 < 3 ∨ 3 + 3 ≤ 128) ∧
      (65535 < 3 ∨ 3 + 3 ≤ 65535) ∧
      (65536 < 3 ∨ 3 + 3 ≤ 65536) ∧
      (65537 < 3 ∨ 3 + 3 ≤ 65537) ∧
      (131072 < 3 ∨ 3 + 3 ≤ 131072)) :=
  ⟨⟨by decide +kernel, by decide +kernel, by decide +kernel, by decide +kernel, by decide +kernel, accepts_of (by decide +kernel), by decide +kernel⟩,
    ⟨by decide +kernel, by decide +kernel, by decide +kernel, by decide +kernel, by decide +kernel, accepts_of (by decide +kernel), by decide +kernel⟩⟩

theorem wit_DeviceMemory_2 :
    ((128849018877 = 128849018877) ∧
      1 ≤ 3 ∧
      3 ≤ 8176 ∧
      (wSt8.memSound 128849018877 3 = true) ∧
      (wSt8.canon = true) ∧
      Accepts wSt8 wHd 1281 2 ∧
      ([(1 : Byte), (2 : Byte), (0 : Byte)].length = 3) ∧
      (wSt8.inTable 128849018877 3 = false) ∧
      (wSt8.fits wHd 0 = true) ∧
      (0 < 128849018877 ∨ 128849018877 + 3 ≤ 0) ∧
      (1 < 128849018877 ∨ 128849018877 + 3 ≤ 1) ∧
      (2 < 128849018877 ∨ 128849018877 + 3 ≤ 2) ∧
      (3 < 128849018877 ∨ 128849018877 + 3 ≤ 3) ∧
      (4 < 128849018877 ∨ 128849018877 + 3 ≤ 4) ∧
      (5 < 128849018877 ∨ 128849018877 + 3 ≤ 5) ∧
      (6 < 128849018877 ∨ 128849018877 + 3 ≤ 6) ∧
      (7 < 128849018877 ∨ 128849018877 + 3 ≤ 7) ∧
      (9 < 128849018877 ∨ 128849018877 + 3 ≤ 9) ∧
      (16 < 128849018877 ∨ 128849018877 + 3 ≤ 16) ∧
      (17 < 128849018877 ∨ 128849018877 + 3 ≤ 17) ∧
      (63 < 128849018877 ∨ 128849018877 + 3 ≤ 63) ∧
      (64 < 128849018877 ∨ 128849018877 + 3 ≤ 64) ∧
      (65 < 128849018877 ∨ 128849018877 + 3 ≤ 65) ∧
      (66 < 128849018877 ∨ 128849018877 + 3 ≤ 66) ∧
      (67 < 128849018877 ∨ 128849018877 + 3 ≤ 67) ∧
      (68 < 128849018877 ∨ 128849018877 + 3 ≤ 68) ∧
      (100 < 128849018877 ∨ 128849018877 + 3 ≤ 100) ∧
      (127 < 128849018877 ∨ 128849018877 + 3 ≤ 127) ∧
      (128 < 128849018877 ∨ 128849018877 + 3 ≤ 128) ∧
      (65535 < 128849018877 ∨ 128849018877 + 3 ≤ 65535) ∧
      (65536 < 128849018877 ∨ 128849018877 + 3 ≤ 65536) ∧
      (65537 < 128849018877 ∨ 128849018877 + 3 ≤ 65537) ∧
      (131072 < 128849018877 ∨ 128849018877 + 3 ≤ 131072)) ∧
    ((wSt8.mcState 2 = 2)) ∧
    ((wSt8.mcState 2 = 2)) ∧
    ((wHot.mcState 2 = 2)) ∧
    ((wHot.mcState 2 = 2)) ∧
    ((wSt8.mcState 2 = 2)) ∧
    (((wSet wSt8 [(mcB 2, F.SCRUB_CFG_SCRUB_PER, 0)]).mcState 2 = 2) ∧
      ((wSet wSt8 [(mcB 2, F.SCRUB_CFG_SCRUB_PER, 0)]).getF (mcB 2) F.SCRUB_CFG_SCRUB_PER = 0)) :=
  ⟨⟨by decide +kernel, by decide +kernel, by decide +kernel, by decide +kernel, by decide +kernel, accepts_of (by decide +kernel), by decide +kernel⟩,
    by decide +kernel⟩

theorem wit_DeviceMemory_3 :
    ((wSt8.mcState 2 = 2) ∧
      (wSt8.memBad = [])) ∧
    (((wScr 1).mcState 2 = 2) ∧
      ((wScr 1).memBad = [(251658241, 1)]) ∧
      251658241 * 64 < 128849018880 ∧
      (devOf (251658241 * 64) = 2) ∧
      1 ≠ 0 ∧
      (wScr 1).getF (mcB 2) F.SCRUB_CFG_SCRUB_PER ≠ 0 ∧
      (((wScr 1).dr 2).crc = 0) ∧
      (((wScr 1).dr 2).ues = []) ∧
      (∀ q ∈ (wScr 1).memQ, q.addr ≠ 251658241 * 64) ∧
      (1 = 1)) ∧
    (((wScr 2).mcState 2 = 2) ∧
      ((wScr 2).memBad = [(251658241, 2)]) ∧
      251658241 * 64 < 128849018880 ∧
      (devOf (251658241 * 64) = 2) ∧
      2 ≠ 0 ∧
      (wScr 2).getF (mcB 2) F.SCRUB_CFG_SCRUB_PER ≠ 0 ∧
      (((wScr 2).dr 2).crc = 0) ∧
      (((wScr 2).dr 2).ues = []) ∧
      (∀ q ∈ (wScr 2).memQ, q.addr ≠ 251658241 * 64) ∧
      2 ≤ 2 ∧
      ((wScr 2).mirrored (251658241 * 64) = false) ∧
      ((wScr 2).flag (mcB 2) F.MC_EVENT_UE_EV = false)) ∧
    ((({ wSt8 with retrain := [(10, 5, 0)] : State }).mcState 2 = 2) ∧
      (({ wSt8 with retrain := [(10, 5, 0)] : State }).retrainBusy (4 * 2 + 3) = true)) ∧
    ((({ wSt8 with retrain := [(11, 62, 1)] : State }).mcState 2 = 2) ∧
      (({ wSt8 with retrain := [(11, 62, 1)] : State }).flag (mcB 2) F.MC_STATUS_HOT = false) ∧
      (({ wSt8 with retrain := [(11, 62, 1)] : State }).retrainBusy (4 * 2 + 3) = false) ∧
      (Tab.get (0, 0) (4 * 2 + 3) ({ wSt8 with retrain := [(11, 62, 1)] : State }).retrain).1 + 1 < 64) ∧
    ((({ wSt8 with retrain := [(11, 63, 1)] : State }).mcState 2 = 2) ∧
      (({ wSt8 with retrain := [(11, 63, 1)] : State }).flag (mcB 2) F.MC_STATUS_HOT = false) ∧
      (({ wSt8 with retrain := [(11, 63, 1)] : State }).retrainBusy (4 * 2 + 3) = false) ∧
      64 ≤ (Tab.get (0, 0) (4 * 2 + 3) ({ wSt8 with retrain := [(11, 63, 1)] : State }).retrain).1 + 1) ∧
    ((wHot.mcState 2 = 2) ∧
      (wHot.flag (mcB 2) F.MC_STATUS_HOT = true)) ∧
    ((wHot.mcState 2 = 2) ∧
      (wHot.flag (mcB 2) F.MC_STATUS_HOT = true)) :=
  by decide +kernel

theorem wit_DeviceMemory_4 :
    (wCmd.mcState 2 ≠ 2) ∧
    (wCmd.mcState 2 ≠ 2) ∧
    (wCmd.mcState 2 ≠ 2) ∧
    (wCmd.mcState 2 ≠ 2) ∧
    ((wCut.mcState 2 = 3) ∧
      ((wCut.dr 2).recut = true)) ∧
    (wCmd.mcState 2 ≠ 2 ∧
      wCmd.mcState 2 ≠ 3) ∧
    ((wSet wMem [(mcB 2, F.MC_STATUS_STATE, 3)]).mcState 2 ≠ 2 ∧
      (((wSet wMem [(mcB 2, F.MC_STATUS_STATE, 3)]).dr 2).recut = false)) ∧
    ((({ wMem with gated := 16 : State }).clk 4 = false)) :=
  by decide +kernel

theorem wit_DeviceMemory_5 :
    ((wCmd.nextReq 2 = none) ∧
      wCmd.mcState 2 ≠ 2) ∧
    ((wMem.clk 4 = true) ∧
      (wMem.nextReq 2 = none) ∧
      (wMem.mcState 2 = 2)) ∧
    ((wRq.clk 4 = true) ∧
      (wRq.nextReq 2 = some { dev := 2, cls := 0, write := true, addr := 16106127424, unit := 2, age := 0 })) ∧
    ((wRq.clk 4 = true) ∧
      (wRq.nextReq 2 = some { dev := 2, cls := 0, write := true, addr := 16106127424, unit := 2, age := 0 }) ∧
      ({ dev := 2, cls := 0, write := true, addr := 16106127424, unit := 2, age := 0 : MemReq }.write = true) ∧
      (devOf { dev := 2, cls := 0, write := true, addr := 16106127424, unit := 2, age := 0 : MemReq }.addr = 2) ∧
      4 ≤ 4) ∧
    ((wRq.clk 4 = true) ∧
      (wRq.nextReq 2 = some { dev := 2, cls := 0, write := true, addr := 16106127424, unit := 2, age := 0 }) ∧
      ({ dev := 2, cls := 0, write := true, addr := 16106127424, unit := 2, age := 0 : MemReq }.write = true) ∧
      (devOf { dev := 2, cls := 0, write := true, addr := 16106127424, unit := 2, age := 0 : MemReq }.addr = 2) ∧
      4 < 5) :=
  by decide +kernel

theorem wit_DmaAndCodecs_1 :
    (63 = 63) ∧
    63 < 64 ∧
    (wMem.dmaBound 63 = false) ∧
    Accepts wMem wHd 1282 2 ∧
    (wMem.dmaState 63 = 0) ∧
    (8192 % 32 = 0) ∧
    8192 ≠ 0 ∧
    8192 < 2 ^ 40 ∧
    (wMem.fits wHd 0 = true) ∧
    0 ≠ 63 ∧
    1 ≠ 63 ∧
    2 ≠ 63 ∧
    3 ≠ 63 ∧
    4 ≠ 63 ∧
    5 ≠ 63 ∧
    6 ≠ 63 ∧
    7 ≠ 63 ∧
    9 ≠ 63 ∧
    16 ≠ 63 ∧
    17 ≠ 63 ∧
    64 ≠ 63 ∧
    65 ≠ 63 ∧
    66 ≠ 63 ∧
    67 ≠ 63 ∧
    68 ≠ 63 ∧
    100 ≠ 63 ∧
    127 ≠ 63 ∧
    128 ≠ 63 ∧
    65535 ≠ 63 ∧
    65536 ≠ 63 ∧
    65537 ≠ 63 ∧
    131072 ≠ 63 :=
  ⟨by decide +kernel, by decide +kernel, by decide +kernel, accepts_of (by decide +kernel), by decide +kernel⟩

theorem wit_DmaAndCodecs_2 :
    (63 = 63) ∧
    63 < 64 ∧
    ((wSet wMem [(dmaB 63, F.DMA_STATE_STATE, 1)]).dmaBound 63 = false) ∧
    Accepts (wSet wMem [(dmaB 63, F.DMA_STATE_STATE, 1)]) wHd 1283 2 ∧
    ((wSet wMem [(dmaB 63, F.DMA_STATE_STATE, 1)]).fits wHd 8 = true) ∧
    0 ≠ 63 ∧
    1 ≠ 63 ∧
    2 ≠ 63 ∧
    3 ≠ 63 ∧
    4 ≠ 63 ∧
    5 ≠ 63 ∧
    6 ≠ 63 ∧
    7 ≠ 63 ∧
    9 ≠ 63 ∧
    16 ≠ 63 ∧
    17 ≠ 63 ∧
    64 ≠ 63 ∧
    65 ≠ 63 ∧
    66 ≠ 63 ∧
    67 ≠ 63 ∧
    68 ≠ 63 ∧
    100 ≠ 63 ∧
    127 ≠ 63 ∧
    128 ≠ 63 ∧
    65535 ≠ 63 ∧
    65536 ≠ 63 ∧
    65537 ≠ 63 ∧
    131072 ≠ 63 :=
  ⟨by decide +kernel, by decide +kernel, by decide +kernel, accepts_of (by decide +kernel), by decide +kernel⟩

theorem wit_DmaAndCodecs_3 :
    ((63 = 63) ∧
      63 < 64 ∧
      (wMem.dmaBound 63 = false) ∧
      Accepts wMem wHd 1283 2 ∧
      (wMem.fits wHd 8 = true) ∧
      0 ≠ 63 ∧
      1 ≠ 63 ∧
      2 ≠ 63 ∧
      3 ≠ 63 ∧
      4 ≠ 63 ∧
      5 ≠ 63 ∧
      6 ≠ 63 ∧
      7 ≠ 63 ∧
      9 ≠ 63 ∧
      16 ≠ 63 ∧
      17 ≠ 63 ∧
      64 ≠ 63 ∧
      65 ≠ 63 ∧
      66 ≠ 63 ∧
      67 ≠ 63 ∧
      68 ≠ 63 ∧
      100 ≠ 63 ∧
      127 ≠ 63 ∧
      128 ≠ 63 ∧
      65535 ≠ 63 ∧
      65536 ≠ 63 ∧
      65537 ≠ 63 ∧
      131072 ≠ 63) ∧
    ((8192 = (wDd 1 1 {  : Dma }).getF (dmaB 63) F.DMA_DESC_ADDR) ∧
      ((wDd 1 1 {  : Dma }).clk 1 = true) ∧
      ((wDd 1 1 {  : Dma }).dmaState 63 = 1) ∧
      (((wDd 1 1 {  : Dma }).dm 63).fetched = false) ∧
      (((wDd 1 1 {  : Dma }).memRead 1 63 8192 32).2 = Except.ok (dsc 1)) ∧
      (badDesc (dsc 1) = false)) ∧
    ((8192 = (wDd 8 1 {  : Dma }).getF (dmaB 63) F.DMA_DESC_ADDR) ∧
      ((wDd 8 1 {  : Dma }).clk 1 = true) ∧
      ((wDd 8 1 {  : Dma }).dmaState 63 = 1) ∧
      (((wDd 8 1 {  : Dma }).dm 63).fetched = false) ∧
      (((wDd 8 1 {  : Dma }).memRead 1 63 8192 32).2 = Except.ok (dsc 8)) ∧
      (badDesc (dsc 8) = true)) :=
  ⟨⟨by decide +kernel, by decide +kernel, by decide +kernel, accepts_of (by decide +kernel), by decide +kernel⟩,
    ⟨by decide +kernel, by decide +kernel, by decide +kernel, by decide +kernel, ok_of (by decide +kernel), by decide +kernel⟩,
    ⟨by decide +kernel, by decide +kernel, by decide +kernel, by decide +kernel, ok_of (by decide +kernel), by decide +kernel⟩⟩

theorem wit_DmaAndCodecs_4 :
    ((8192 = (wDd 8 0 {  : Dma }).getF (dmaB 63) F.DMA_DESC_ADDR) ∧
      ((wDd 8 0 {  : Dma }).clk 1 = false ∨ (wDd 8 0 {  : Dma }).dmaState 63 ≠ 1 ∨ ((wDd 8 0 {  : Dma }).dm 63).fetched = true)) ∧
    ((8192 = (wDd 8 0 {  : Dma }).getF (dmaB 63) F.DMA_DESC_ADDR) ∧
      ((wDd 8 0 {  : Dma }).clk 1 = false ∨ (wDd 8 0 {  : Dma }).dmaState 63 ≠ 1 ∨ ((wDd 8 0 {  : Dma }).dm 63).fetched = false)) ∧
    ((8192 = (wDd 1 1 (dF 100 1)).getF (dmaB 63) F.DMA_DESC_ADDR) ∧
      ((wDd 1 1 (dF 100 1)).clk 1 = true) ∧
      ((wDd 1 1 (dF 100 1)).dmaState 63 = 1) ∧
      (((wDd 1 1 (dF 100 1)).dm 63).fetched = true) ∧
      0 < ((wDd 1 1 (dF 100 1)).dm 63).len ∧
      (bit ((wDd 1 1 (dF 100 1)).dm 63).ctrl 2 = false) ∧
      (((wDd 1 1 (dF 100 1)).dmaCopy 63 ((wDd 1 1 (dF 100 1)).dm 63) (dmaParts ((wDd 1 1 (dF 100 1)).dm 63).dst ((wDd 1 1 (dF 100 1)).dm 63).len)).2 = none) ∧
      (bit ((wDd 1 1 (dF 100 1)).dm 63).ctrl 0 = true)) ∧
    ((8192 = (wDd 0 1 (dF 100 0)).getF (dmaB 63) F.DMA_DESC_ADDR) ∧
      ((wDd 0 1 (dF 100 0)).clk 1 = true) ∧
      ((wDd 0 1 (dF 100 0)).dmaState 63 = 1) ∧
      (((wDd 0 1 (dF 100 0)).dm 63).fetched = true) ∧
      0 < ((wDd 0 1 (dF 100 0)).dm 63).len ∧
      (bit ((wDd 0 1 (dF 100 0)).dm 63).ctrl 2 = false) ∧
      (((wDd 0 1 (dF 100 0)).dmaCopy 63 ((wDd 0 1 (dF 100 0)).dm 63) (dmaParts ((wDd 0 1 (dF 100 0)).dm 63).dst ((wDd 0 1 (dF 100 0)).dm 63).len)).2 = none)) ∧
    ((8192 = wOff.getF (dmaB 63) F.DMA_DESC_ADDR) ∧
      (wOff.clk 1 = true) ∧
      (wOff.dmaState 63 = 1) ∧
      ((wOff.dm 63).fetched = true) ∧
      (Instr.dmaDescEnd (63 : Fin 64) = Instr.dmaDescEnd (63 : Fin 64)) ∧
      ((wOff.dmaCopy 63 (wOff.dm 63) (dmaParts (wOff.dm 63).dst (wOff.dm 63).len)).2 = some (8053063680 * 5, 0))) ∧
    ((8192 = wOff.getF (dmaB 63) F.DMA_DESC_ADDR) ∧
      (wOff.clk 1 = true) ∧
      (wOff.dmaState 63 = 1) ∧
      ((wOff.dm 63).fetched = true) ∧
      (Instr.dmaBusError (63 : Fin 64) = Instr.dmaBusError (63 : Fin 64)) ∧
      ((wOff.dmaCopy 63 (wOff.dm 63) (dmaParts (wOff.dm 63).dst (wOff.dm 63).len)).2 = some (8053063680 * 5, 0))) ∧
    ((0 = wMem.getF (hkB 8) F.HK_JOB_RING_RING) ∧
      (wMem.flag (hkB 8) F.HK_CTRL_EN = false)) :=
  by decide +kernel

theorem wit_DmaAndCodecs_5 :
    ((512 = (wHk []).getF (hkB 8) F.HK_JOB_RING_RING) ∧
      ((wHk []).flag (hkB 8) F.HK_CTRL_EN = true) ∧
      ((wHk []).clk 4 = true) ∧
      (wHk []).avail 512 (hkB 8) ≠ 0 ∧
      ((wHk []).hkFree 8 = some 12) ∧
      ((wHk []).readEntry 512 (hkB 8) 0 8 = (hkV, Except.ok (zeros 64))) ∧
      ((hkV.take 512 (hkB 8) 1).hkMake 8 (zeros 64) = (hkM.1, hkM.2)) ∧
      (hkM.2.status = some 6) ∧
      (hkM.1.hkWaits 8 = false)) ∧
    ((512 = wHkG.getF (hkB 8) F.HK_JOB_RING_RING) ∧
      (wHkG.flag (hkB 8) F.HK_CTRL_EN = true) ∧
      (wHkG.clk 4 = true) ∧
      wHkG.avail 512 (hkB 8) ≠ 0 ∧
      (wHkG.hkFree 8 = some 12) ∧
      (wHkG.readEntry 512 (hkB 8) 0 8 = (hkV2, Except.ok hkEnt)) ∧
      ((hkV2.take 512 (hkB 8) 1).hkMake 8 hkEnt = (hkM2.1, hkM2.2)) ∧
      (hkM2.2.status = none)) ∧
    ((512 = wHk0.getF (hkB 8) F.HK_JOB_RING_RING) ∧
      (wHk0.flag (hkB 8) F.HK_CTRL_EN = true) ∧
      (wHk0.avail 512 (hkB 8) = 0)) ∧
    ((512 = ({ wHk [] with gated := 16 : State }).getF (hkB 8) F.HK_JOB_RING_RING) ∧
      (({ wHk [] with gated := 16 : State }).flag (hkB 8) F.HK_CTRL_EN = true) ∧
      (({ wHk [] with gated := 16 : State }).clk 4 = false)) ∧
    ((512 = (wHk [(64 * 8 + 12, {  }), (64 * 8 + 13, {  }), (64 * 8 + 14, {  }), (64 * 8 + 15, {  })]).getF (hkB 8) F.HK_JOB_RING_RING) ∧
      ((wHk [(64 * 8 + 12, {  }), (64 * 8 + 13, {  }), (64 * 8 + 14, {  }), (64 * 8 + 15, {  })]).flag (hkB 8) F.HK_CTRL_EN = true) ∧
      ((wHk [(64 * 8 + 12, {  }), (64 * 8 + 13, {  }), (64 * 8 + 14, {  }), (64 * 8 + 15, {  })]).hkFree 8 = none)) ∧
    ((512 = (wHk []).getF (hkB 8) F.HK_JOB_RING_RING) ∧
      ((wHk []).flag (hkB 8) F.HK_CTRL_EN = true)) ∧
    ((512 = (wHk []).getF (hkB 8) F.HK_JOB_RING_RING) ∧
      ((wHk []).hkJob 8 12 = none)) ∧
    ((512 = ({ wHk [(64 * 8 + 12, { status := some 0 })] with gated := 16 : State }).getF (hkB 8) F.HK_JOB_RING_RING) ∧
      (({ wHk [(64 * 8 + 12, { status := some 0 })] with gated := 16 : State }).clk 4 = false)) :=
  ⟨⟨by decide +kernel, by decide +kernel, by decide +kernel, by decide +kernel, by decide +kernel, pair_of (by decide +kernel), by decide +kernel⟩,
    ⟨by decide +kernel, by decide +kernel, by decide +kernel, by decide +kernel, by decide +kernel, pair_of (by decide +kernel), by decide +kernel⟩,
    by decide +kernel⟩

theorem wit_DmaAndCodecs_6 :
    ((512 = (wHk [(64 * 8 + 12, { status := some 0 })]).getF (hkB 8) F.HK_JOB_RING_RING) ∧
      ((wHk [(64 * 8 + 12, { status := some 0 })]).clk 4 = true) ∧
      ((wHk [(64 * 8 + 12, { status := some 0 })]).hkJob 8 12 = some { status := some 0 }) ∧
      ({ status := some 0 : HankJob }.status = some 0) ∧
      ((wHk [(64 * 8 + 12, { status := some 0 })]).ringFits ((wHk [(64 * 8 + 12, { status := some 0 })]).getF (hkB 8) F.HK_RES_RING_RING) 64 = true)) ∧
    ((512 = ({ wHk [(64 * 8 + 12, { status := some 0 })] with resv := [{ ring := 257, first := 0, n := 64, done := false }] : State }).getF (hkB 8) F.HK_JOB_RING_RING) ∧
      (({ wHk [(64 * 8 + 12, { status := some 0 })] with resv := [{ ring := 257, first := 0, n := 64, done := false }] : State }).clk 4 = true) ∧
      (({ wHk [(64 * 8 + 12, { status := some 0 })] with resv := [{ ring := 257, first := 0, n := 64, done := false }] : State }).hkJob 8 12 = some { status := some 0 }) ∧
      ({ status := some 0 : HankJob }.status = some 0) ∧
      (({ wHk [(64 * 8 + 12, { status := some 0 })] with resv := [{ ring := 257, first := 0, n := 64, done := false }] : State }).ringFits (({ wHk [(64 * 8 + 12, { status := some 0 })] with resv := [{ ring := 257, first := 0, n := 64, done := false }] : State }).getF (hkB 8) F.HK_RES_RING_RING) 64 = false)) ∧
    ((512 = wHbL.getF (hkB 8) F.HK_JOB_RING_RING) ∧
      (wHbL.clk 4 = true) ∧
      (wHbL.hkJob 8 12 = some jbL) ∧
      (jbL.status = none) ∧
      (jbL.op = 1) ∧
      (jbL.index = false) ∧
      (jbL.stop = false) ∧
      (wHbL.memRead 1 8 (jbL.src + jbL.used) jbL.inLen = (rdL.1, Except.ok blL)) ∧
      jbL.len ≤ jbL.used + jbL.inLen ∧
      (5 = (8 - jbL.pos % 8) % 8) ∧
      jbL.pos + 5 + (hankBlock blL).length ≤ jbL.room ∧
      (rdL.1.hkPut 8 jbL.bufs jbL.pos (zeros 5 ++ hankBlock blL) (jbL.bufs.length + 1) = (ptL.1, true)) ∧
      (ptL.1.hkWaits 8 = false)) ∧
    ((512 = wHbW.getF (hkB 8) F.HK_JOB_RING_RING) ∧
      (wHbW.clk 4 = true) ∧
      (wHbW.hkJob 8 12 = some jbL) ∧
      (jbL.status = none) ∧
      (jbL.op = 1) ∧
      (jbL.index = false) ∧
      (jbL.stop = false) ∧
      (wHbW.memRead 1 8 (jbL.src + jbL.used) jbL.inLen = (rdW.1, Except.ok blL)) ∧
      jbL.len ≤ jbL.used + jbL.inLen ∧
      (5 = (8 - jbL.pos % 8) % 8) ∧
      jbL.pos + 5 + (hankBlock blL).length ≤ jbL.room ∧
      (rdW.1.hkPut 8 jbL.bufs jbL.pos (zeros 5 ++ hankBlock blL) (jbL.bufs.length + 1) = (ptW.1, true)) ∧
      (ptW.1.hkWaits 8 = true)) :=
  ⟨by decide +kernel,
    by decide +kernel,
    ⟨by decide +kernel, by decide +kernel, by decide +kernel, by decide +kernel, by decide +kernel, by decide +kernel, by decide +kernel, pair_of (by decide +kernel), by decide +kernel⟩,
    ⟨by decide +kernel, by decide +kernel, by decide +kernel, by decide +kernel, by decide +kernel, by decide +kernel, by decide +kernel, pair_of (by decide +kernel), by decide +kernel⟩⟩


end W8

/-! ### Witnesses: Replay and power -/

namespace W9

def wMem : State := wSet wCmd ((List.range 16).map (fun d => (mcB d, F.MC_STATUS_STATE, 2)) ++ [(ringB, F.RING_CTX_BASE_ADDR, 0x100000)])
def rg6 (b : Nat) (e : Bool) : RingCtx := { valid := true, depthLog := 6, base := b, e256 := e }
def wRep (st : Nat) (fs : List (Nat × Fld × Nat)) : State :=
  { wSet wMem ((repB, F.REPLAY_STATUS_STATE, st) :: fs) with rings := [(0x101, rg6 0x4000 true), (0x102, rg6 0x8000 false)] }
def runG : State → State := fun s => s.setG 3 { st := 2, openC := some 4 }
def bHead (gs : List (Nat × Nat × Nat)) : List Byte :=
  let groups := gs.flatMap (fun w => le 1 w.1 ++ zeros 7 ++ le 8 w.2.1 ++ le 8 w.2.2)
  let head := le 4 0x48424E44 ++ le 1 1 ++ le 1 gs.length ++ le 2 77 ++ le 8 0 ++ le 4 0 ++ le 4 0 ++ le 8 512 ++ padTo 384 groups ++ zeros 92
  head ++ le 4 (crc32c head)
def wBun (gs : List (Nat × Nat × Nat)) (rs : Nat) : State := (wRep 0 [(repB, F.RR_STATUS_RSTATE, rs), (repB, F.RR_RING_RING, 0x102), (repB, F.RR_SIZE_BYTES, 2 ^ 33)]).pokes 0x20000 (bHead gs)
def bnd (s : State) : Bundle := match (s.readBundle 0x20000).2 with | .ok b => b | _ => { dev := 0, fw := 0, groups := [], sects := [] }
def wB1 := wBun [(3, 10, 20)] 0
def wFz : State := wSet (wRep 2 [(repB, F.REPLAY_POST_POST, 4)]) []
def wB0 : State := let s := wBun [] 1; { s with rep := { s.rep with rrAddr := 0x20000 } }
def wRr (c last : Nat) (g : Grp) : State := let s := wBun [(3, 10, 20)] 2; { s.setG 3 g with rep := { s.rep with rrAddr := 0x20000, rrNext := [(3, c)], rrLast := [(3, last)] } }
def wRrW : State := wRr 15 20 { st := 2, openC := some 14 }
def wRrN : State := { wRrW with segG := [(3, { (wRrW.sg 3) with wait := true })] }
def wPw (st : Nat) : State := wSet wMem [(pwrB, F.PWR_STATE_STATE, st)]
def wPo (q : List Nat) : State := let s := wSet (wPw 1) [(pwrB, F.DOM_ON_ON.nth 2, 2 ^ 30 - 1)]; { s with power := { s.power with queue := q } }
def wXa : State := wSet (runG (wPw 1)) [(clkB, F.CLK_SRC_XA_OK, 1), (clkB, F.LOOP_STATUS_LOCK, 63)]
def wTh : State := wSet (wPw 1) [(thmB, F.THERM_CFG_TRIP, 110), (thmB, F.THERM_CFG_THROTTLE, 100)]
def wWk (n : Nat) : State := wSet (wPw 4) [(pwrB, F.WAKE_CFG_WAKE_COUNTS, n), (pwrB, F.WAKE_CFG_WAKE_EN, 1)]

set_option maxRecDepth 4000 in
theorem wit_ReplayCommands_1 :
    (((runG (wRep 1 [])).domOn 93 = true) ∧
      Accepts (runG (wRep 1 [])) wHd 2304 1 ∧
      ((runG (wRep 1 [])).getF repB F.REPLAY_STATUS_STATE = 1) ∧
      ((runG (wRep 1 [])).anyRunning = true)) ∧
    (((wRep 1 []).domOn 93 = true) ∧
      Accepts (wRep 1 []) wHd 2304 1 ∧
      ((wRep 1 []).getF repB F.REPLAY_STATUS_STATE = 1) ∧
      ((wRep 1 []).anyRunning = false)) ∧
    (((wRep 2 []).domOn 93 = true) ∧
      Accepts (wRep 2 []) wHd 2304 1 ∧
      (wRep 2 []).getF repB F.REPLAY_STATUS_STATE ≠ 1 ∧
      ((wRep 2 []).fits wHd 0 = true)) ∧
    (((wRep 3 []).domOn 93 = true) ∧
      Accepts (wRep 3 []) wHd 2305 2 ∧
      ((wRep 3 []).fits wHd 0 = true) ∧
      ((wRep 3 []).getF repB F.REPLAY_STATUS_STATE = 3)) ∧
    (((wRep 4 []).domOn 93 = true) ∧
      Accepts (wRep 4 []) wHd 2305 2 ∧
      ((wRep 4 []).fits wHd 0 = true) ∧
      (wRep 4 []).getF repB F.REPLAY_STATUS_STATE ≠ 3) ∧
    (((wRep 3 []).domOn 93 = true) ∧
      Accepts (wRep 3 []) wHd 2306 2 ∧
      ((wRep 3 []).ringOk (257) true = true) ∧
      ((wRep 3 []).getF repB F.REPLAY_STATUS_STATE = 3) ∧
      ((wRep 3 []).canPin [257] = true) ∧
      ((wRep 3 []).fits wHd 8 = true)) ∧
    ((wB1.domOn 93 = true) ∧
      Accepts wB1 wHd 2307 2 ∧
      (((wB1.accepted wHd 2307).readBundle (131072)).2 = Except.ok (bnd (wB1.accepted wHd 2307))) ∧
      (((wB1.accepted wHd 2307).readBundle (131072)).1.rerunStatus (bnd (wB1.accepted wHd 2307)) = 0) ∧
      (wB1.fits wHd 0 = true)) ∧
    (((wRep 0 [(repB, F.JRN_RING_RING, 257), (repB, F.CAP_RING_RING.nth 0, 257), (repB, F.CKPT_RING_RING, 257)]).domOn 93 = true) ∧
      ((wRep 0 [(repB, F.JRN_RING_RING, 257), (repB, F.CAP_RING_RING.nth 0, 257), (repB, F.CKPT_RING_RING, 257)]).getF repB F.REPLAY_STATUS_STATE = 0) ∧
      ((wRep 0 [(repB, F.JRN_RING_RING, 257), (repB, F.CAP_RING_RING.nth 0, 257), (repB, F.CKPT_RING_RING, 257)]).armStatus = 0)) :=
  ⟨⟨by decide +kernel, accepts_of (by decide +kernel), by decide +kernel⟩,
    ⟨by decide +kernel, accepts_of (by decide +kernel), by decide +kernel⟩,
    ⟨by decide +kernel, accepts_of (by decide +kernel), by decide +kernel⟩,
    ⟨by decide +kernel, accepts_of (by decide +kernel), by decide +kernel⟩,
    ⟨by decide +kernel, accepts_of (by decide +kernel), by decide +kernel⟩,
    ⟨by decide +kernel, accepts_of (by decide +kernel), by decide +kernel⟩,
    ⟨by decide +kernel, accepts_of (by decide +kernel), ok_of (by decide +kernel), by decide +kernel⟩,
    by decide +kernel⟩

theorem wit_ReplayCommands_2 :
    (((wRep 0 []).domOn 93 = false ∨ (wRep 0 []).getF repB F.REPLAY_STATUS_STATE ≠ 0 ∨ (wRep 0 []).armStatus ≠ 0)) ∧
    (((wRep 3 []).domOn 93 = true) ∧
      (wRep 3 []).getF repB F.REPLAY_STATUS_STATE ≠ 0 ∧
      (wRep 3 []).getF repB F.REPLAY_STATUS_STATE ≠ 4 ∧
      (wRep 3 []).getF repB F.REPLAY_STATUS_STATE ≠ 2) ∧
    (((wRep 2 [(repB, F.REPLAY_CTRL_ARM, 1)]).domOn 93 = true) ∧
      ((wRep 2 [(repB, F.REPLAY_CTRL_ARM, 1)]).getF repB F.REPLAY_STATUS_STATE = 2)) ∧
    (((wRep 4 []).domOn 93 = false ∨ (wRep 4 []).getF repB F.REPLAY_STATUS_STATE = 0 ∨ (wRep 4 []).getF repB F.REPLAY_STATUS_STATE = 4)) ∧
    ((({ wFz with rep := { wFz.rep with trig := (-4 : Int) } : State }).getF repB F.REPLAY_STATUS_STATE = 2) ∧
      ({ wFz with rep := { wFz.rep with trig := (-4 : Int) } : State }).rep.trig + Int.ofNat (({ wFz with rep := { wFz.rep with trig := (-4 : Int) } : State }).getF repB F.REPLAY_POST_POST) ≤ ({ wFz with rep := { wFz.rep with trig := (-4 : Int) } : State }).stampDev) ∧
    ((({ wFz with rep := { wFz.rep with trig := 0 } : State }).getF repB F.REPLAY_STATUS_STATE ≠ 2 ∨ ({ wFz with rep := { wFz.rep with trig := 0 } : State }).stampDev < ({ wFz with rep := { wFz.rep with trig := 0 } : State }).rep.trig + Int.ofNat (({ wFz with rep := { wFz.rep with trig := 0 } : State }).getF repB F.REPLAY_POST_POST))) ∧
    (((wRep 4 []).getF repB F.REPLAY_STATUS_STATE = 4) ∧
      ((wRep 4 []).rep.exportLeft = [])) ∧
    ((({ wRep 4 [] with resv := [{ ring := 257, first := 0, n := 64, done := false }], rep := { exportRing := 257, exportLeft := [(1 : Byte)] } : State }).getF repB F.REPLAY_STATUS_STATE = 4) ∧
      ({ wRep 4 [] with resv := [{ ring := 257, first := 0, n := 64, done := false }], rep := { exportRing := 257, exportLeft := [(1 : Byte)] } : State }).rep.exportLeft ≠ [] ∧
      (({ wRep 4 [] with resv := [{ ring := 257, first := 0, n := 64, done := false }], rep := { exportRing := 257, exportLeft := [(1 : Byte)] } : State }).ringFits ({ wRep 4 [] with resv := [{ ring := 257, first := 0, n := 64, done := false }], rep := { exportRing := 257, exportLeft := [(1 : Byte)] } : State }).rep.exportRing 256 = false)) :=
  by decide +kernel

set_option maxRecDepth 4000 in
theorem wit_ReplayCommands_3 :
    ((wRep 3 []).getF repB F.REPLAY_STATUS_STATE ≠ 4) ∧
    ((wB0.getF repB F.RR_STATUS_RSTATE = 1) ∧
      ((wB0.readBundle wB0.rep.rrAddr).2 = Except.ok (bnd wB0)) ∧
      ((bnd wB0).groups = [])) ∧
    (((wRep 0 [(repB, F.RR_STATUS_RSTATE, 1)]).getF repB F.RR_STATUS_RSTATE = 1) ∧
      (((wRep 0 [(repB, F.RR_STATUS_RSTATE, 1)]).readBundle (wRep 0 [(repB, F.RR_STATUS_RSTATE, 1)]).rep.rrAddr).2 = Except.error 257) ∧
      ((wRep 0 [(repB, F.RR_STATUS_RSTATE, 1)]).rep.rrLast = [])) ∧
    ((wRep 0 []).getF repB F.RR_STATUS_RSTATE ≠ 1) ∧
    ((wRep 0 []).getF repB F.RR_STATUS_RSTATE ≠ 2 ∧
      ((wRep 0 []).rep.rrLast = [])) ∧
    ((let s := wRep 0 [(repB, F.RR_STATUS_RSTATE, 4)]; { s.setG 3 { st := 2, openC := some 20 } with rep := { s.rep with rrLast := [(3, 20)] } : State }).getF repB F.RR_STATUS_RSTATE ≠ 2 ∧
      ((let s := wRep 0 [(repB, F.RR_STATUS_RSTATE, 4)]; { s.setG 3 { st := 2, openC := some 20 } with rep := { s.rep with rrLast := [(3, 20)] } : State }).held = []) ∧
      ((let s := wRep 0 [(repB, F.RR_STATUS_RSTATE, 4)]; { s.setG 3 { st := 2, openC := some 20 } with rep := { s.rep with rrLast := [(3, 20)] } : State }).live = [])) ∧
    (((wRr 21 20 { st := 2, openC := some 20 : Grp }).getF repB F.RR_STATUS_RSTATE = 2) ∧
      (Tab.find 3 (wRr 21 20 { st := 2, openC := some 20 : Grp }).rep.rrNext = some 21) ∧
      (Tab.find 3 (wRr 21 20 { st := 2, openC := some 20 : Grp }).rep.rrLast = some 20) ∧
      20 < 21 ∧
      (((wRr 21 20 { st := 2, openC := some 20 : Grp }).g 3).st = 2)) ∧
    ((wRrN.getF repB F.RR_STATUS_RSTATE = 2) ∧
      (Tab.find 3 wRrN.rep.rrNext = some 15) ∧
      (Tab.find 3 wRrN.rep.rrLast = some 20) ∧
      15 ≤ 20 ∧
      (wRrN.rerunReady 3 15 = false)) :=
  ⟨by decide +kernel,
    ⟨by decide +kernel, ok_of (by decide +kernel), by decide +kernel⟩,
    ⟨by decide +kernel, err_of (by decide +kernel), by decide +kernel⟩,
    by decide +kernel⟩

set_option maxRecDepth 4000 in
theorem wit_ReplayCommands_4 :
    (wRrW.getF repB F.RR_STATUS_RSTATE = 2) ∧
    (Tab.find 3 wRrW.rep.rrNext = some 15) ∧
    (Tab.find 3 wRrW.rep.rrLast = some 20) ∧
    15 ≤ 20 ∧
    (wRrW.rerunReady 3 15 = true) ∧
    (wRrW.readBundle wRrW.rep.rrAddr = ((wRrW.readBundle 131072).1, Except.ok (bnd wRrW))) ∧
    (10 = (Option.map (fun x => x.2.1) (List.find? (fun w => w.1 == 3) (bnd wRrW).groups)).getD 15) ∧
    (((wRrW.readBundle 131072).1.rerunBoundary (windowRecs (bnd wRrW).journal 3 10 ((Option.map (fun x => x.2.2) (List.find? (fun w => w.1 == 3) (bnd wRrW).groups)).getD 15)) 3 10 15).2 = true) :=
  ⟨by decide +kernel, by decide +kernel, by decide +kernel, by decide +kernel, by decide +kernel, pair_of (by decide +kernel), by decide +kernel⟩

theorem wit_PowerAndClocks_1 :
    (Accepts (wPw 1) wHd 2816 2 ∧
      ((wPw 1).reRunning = false) ∧
      ((wPw 1).power.bind = false) ∧
      ((wPw 1).pwrState = 1) ∧
      ((2 : BitVec 8) = (2 : BitVec 8)) ∧
      ((wPw 1).timerRuns = false) ∧
      ((wPw 1).fits wHd 0 = true)) ∧
    (Accepts (wPw 2) wHd 2816 2 ∧
      ((wPw 2).reRunning = false) ∧
      ((wPw 2).power.bind = false) ∧
      ((wPw 2).pwrState = 2) ∧
      ((1 : BitVec 8) = (1 : BitVec 8)) ∧
      ((wPw 2).fits wHd 0 = true)) ∧
    (Accepts (wPw 1) wHd 2816 2 ∧
      ((wPw 1).reRunning = false) ∧
      ((wPw 1).power.bind = false) ∧
      ((wPw 1).pwrState = 1) ∧
      ((3 : BitVec 8) = (3 : BitVec 8)) ∧
      ((wPw 1).anyRunning = false)) ∧
    (Accepts ({ wPw 3 with mem := [(5, (5 : BitVec 8))], rings := [(257, rg6 0 true)] }) wHd 2816 2 ∧
      (({ wPw 3 with mem := [(5, (5 : BitVec 8))], rings := [(257, rg6 0 true)] : State }).reRunning = false) ∧
      (({ wPw 3 with mem := [(5, (5 : BitVec 8))], rings := [(257, rg6 0 true)] : State }).power.bind = false) ∧
      (({ wPw 3 with mem := [(5, (5 : BitVec 8))], rings := [(257, rg6 0 true)] : State }).pwrState = 3) ∧
      ((4 : BitVec 8) = (4 : BitVec 8)) ∧
      (({ wPw 3 with mem := [(5, (5 : BitVec 8))], rings := [(257, rg6 0 true)] : State }).boot.resume = false)) ∧
    (Accepts (wPw 3) wHd 2816 2 ∧
      ((wPw 3).reRunning = false) ∧
      ((wPw 3).power.bind = false) ∧
      ((wPw 3).pwrState = 3) ∧
      ((1 : BitVec 8) = (1 : BitVec 8)) ∧
      ((wPw 3).boot.resume = false)) ∧
    (Accepts (wPw 1) wHd 2816 2 ∧
      ((wPw 1).reRunning = false) ∧
      ((wPw 1).power.bind = false) ∧
      (0 < 1 ∨ 4 < 0) ∧
      ((wPw 1).fits wHd 0 = true)) :=
  ⟨⟨accepts_of (by decide +kernel), by decide +kernel⟩,
    ⟨accepts_of (by decide +kernel), by decide +kernel⟩,
    ⟨accepts_of (by decide +kernel), by decide +kernel⟩,
    ⟨accepts_of (by decide +kernel), by decide +kernel⟩,
    ⟨accepts_of (by decide +kernel), by decide +kernel⟩,
    ⟨accepts_of (by decide +kernel), by decide +kernel⟩⟩

theorem wit_PowerAndClocks_2 :
    (Accepts (wPw 1) wHd 2816 2 ∧
      ((wPw 1).reRunning = false) ∧
      ((wPw 1).power.bind = false) ∧
      (5 < 1 ∨ 4 < 5) ∧
      ((wPw 1).fits wHd 0 = true)) ∧
    (Accepts (wPw 1) wHd 2817 2 ∧
      95 < 96 ∧
      ((wPw 1).domOn (95) = true) ∧
      ((wPw 1).domOffBusy (95) (↑wHd.port : Nat) = false)) ∧
    (Accepts (wPw 1) wHd 2817 2 ∧
      91 < 96 ∧
      ((wPw 1).domOn (91) = true) ∧
      ((wPw 1).domOffBusy (91) (↑wHd.port : Nat) = true) ∧
      ((wPw 1).fits wHd 0 = true)) ∧
    (Accepts (wPo []) wHd 2817 2 ∧
      95 < 96 ∧
      ((wPo []).domOn (95) = false) ∧
      (¬(95 < 88 ∧ (wPo []).pwrState = 3))) ∧
    (((wPo [95, 94]).power.queue = [95, 94]) ∧
      (true = true)) ∧
    (((wPo [95, 94]).power.queue = [95, 94]) ∧
      (false = false)) ∧
    ((wPo [95, 94]).power.queue.head? ≠ some 94) ∧
    (Accepts ((runG (wPw 1)).setG 4 { st := 1 }) wHd 2818 2 ∧
      (((runG (wPw 1)).setG 4 { st := 1 : Grp }).power.bind = false) ∧
      (((runG (wPw 1)).setG 4 { st := 1 : Grp }).boot.resume = false) ∧
      (((runG (wPw 1)).setG 4 { st := 1 : Grp }).held = []) ∧
      (((runG (wPw 1)).setG 4 { st := 1 : Grp }).live = []) ∧
      (((runG (wPw 1)).setG 4 { st := 1 : Grp }).reRunning = false)) :=
  ⟨⟨accepts_of (by decide +kernel), by decide +kernel⟩,
    ⟨accepts_of (by decide +kernel), by decide +kernel⟩,
    ⟨accepts_of (by decide +kernel), by decide +kernel⟩,
    ⟨accepts_of (by decide +kernel), by decide +kernel⟩,
    by decide +kernel,
    by decide +kernel,
    by decide +kernel,
    ⟨accepts_of (by decide +kernel), by decide +kernel⟩⟩

theorem wit_PowerAndClocks_3 :
    (((let s := (runG (wPw 1)).setG 5 { st := 3, openC := some 7 }; { now := s.now, regs := s.regs, act := s.act, shd := s.shd, mem := s.mem, flash := s.flash, out := s.out, freeCtr := s.freeCtr, pos := s.pos, grp := s.grp, flight := s.flight, arrived := s.arrived, live := s.live, held := s.held, devView := s.devView, sync := s.sync, copying := s.copying, accepts := s.accepts, wakeFrom := s.wakeFrom, localT := s.localT, time := s.time, ptp := s.ptp, lane := s.lane, chan := s.chan, seam := s.seam, seamG := s.seamG, segG := s.segG, tal := s.tal, tallyLast := s.tallyLast, csw := s.csw, hist := s.hist, oldL := s.oldL, sess := s.sess, rings := s.rings, resv := s.resv, subs := s.subs, ctxCache := s.ctxCache, binds := s.binds, ringWait := s.ringWait, starved := s.starved, dma := s.dma, memQ := s.memQ, hank := s.hank, memBad := s.memBad, dram := s.dram, retrain := s.retrain, cmp := s.cmp, rezero := s.rezero, tag := s.tag, cass := s.cass, cassKey := s.cassKey, aux := s.aux, mclkAt := s.mclkAt, yarn := s.yarn, pnl := s.pnl, dpMon := s.dpMon, view := s.view, viewOld := s.viewOld, lbNext := s.lbNext, lbGone := s.lbGone, dpRow := s.dpRow, dpBuf := s.dpBuf, rep := s.rep, stopped := s.stopped, spareDue := s.spareDue, net := s.net, boot := s.boot, fuses := s.fuses, power := { s.power with bind := true }, jtag := s.jtag, pins := s.pins, banksOff := s.banksOff, gated := s.gated, degShown := s.degShown, annKey := s.annKey, keys := s.keys, dup := s.dup, pending := s.pending : State }).power.bind = true)) ∧
    (((wPw 1).power.bind = false)) ∧
    (Accepts ((wPw 1).setCh 9 { next := 7, lostAt := some 3 }) wHd 2819 3 ∧
      (((wPw 1).setCh 9 { next := 7, lostAt := some 3 : Chan }).fits wHd 0 = true) ∧
      (9 = 9) ∧
      ((0 : BitVec 8) = (0 : BitVec 8)) ∧
      9 < 128 ∧
      (((wPw 1).setCh 9 { next := 7, lostAt := some 3 : Chan }).domOn (9 / 4 : Nat) = true) ∧
      0 ≠ 9 ∧
      1 ≠ 9 ∧
      2 ≠ 9 ∧
      3 ≠ 9 ∧
      4 ≠ 9 ∧
      5 ≠ 9 ∧
      6 ≠ 9 ∧
      7 ≠ 9 ∧
      16 ≠ 9 ∧
      17 ≠ 9 ∧
      63 ≠ 9 ∧
      64 ≠ 9 ∧
      65 ≠ 9 ∧
      66 ≠ 9 ∧
      67 ≠ 9 ∧
      68 ≠ 9 ∧
      100 ≠ 9 ∧
      127 ≠ 9 ∧
      128 ≠ 9 ∧
      65535 ≠ 9 ∧
      65536 ≠ 9 ∧
      65537 ≠ 9 ∧
      131072 ≠ 9 ∧
      (((wPw 1).setCh 9 { next := 7, lostAt := some 3 : Chan }).joined 9 = false)) ∧
    (Accepts (wPw 1) wHd 2819 3 ∧
      ((wPw 1).fits wHd 0 = true) ∧
      (263 = 263) ∧
      ((0 : BitVec 8) = (0 : BitVec 8)) ∧
      (136 + 127 = 263) ∧
      127 < 128 ∧
      ((wPw 1).domOn (65 + 3 * (127 / 16 : Nat)) = true)) :=
  ⟨by decide +kernel,
    by decide +kernel,
    ⟨accepts_of (by decide +kernel), by decide +kernel⟩,
    ⟨accepts_of (by decide +kernel), by decide +kernel⟩⟩

theorem wit_PowerAndClocks_4 :
    (Accepts (wPw 1) wHd 2819 3 ∧
      ((wPw 1).fits wHd 0 = true) ∧
      (279 = 279) ∧
      ((0 : BitVec 8) = (0 : BitVec 8)) ∧
      (264 + 15 = 279) ∧
      15 < 16 ∧
      ((wPw 1).domOn (memDom 15) = true)) ∧
    (Accepts (wPw 1) wHd 2819 3 ∧
      ((wPw 1).fits wHd 0 = true) ∧
      (407 = 407) ∧
      ((0 : BitVec 8) = (0 : BitVec 8)) ∧
      (280 + 127 = 407) ∧
      127 < 128 ∧
      ((wPw 1).domOn (32 + (127 / 4 : Nat)) = true)) ∧
    (Accepts (wSet (wPw 1) [(pwrB, F.DOM_ON_ON.nth 0, 3)]) wHd 2819 3 ∧
      ((wSet (wPw 1) [(pwrB, F.DOM_ON_ON.nth 0, 3)]).fits wHd 0 = true) ∧
      (127 = 127) ∧
      ((0 : BitVec 8) = (0 : BitVec 8)) ∧
      (Option.map (fun x => x.1) (resetUnit 127) = some 31) ∧
      ((wSet (wPw 1) [(pwrB, F.DOM_ON_ON.nth 0, 3)]).domOn 31 = false)) ∧
    (Accepts (wPw 1) wHd 2819 3 ∧
      ((wPw 1).fits wHd 0 = true) ∧
      (680 = 680) ∧
      ((0 : BitVec 8) = (0 : BitVec 8)) ∧
      (Option.map (fun x => x.1) (resetUnit 680) = none)) ∧
    (Accepts (wPw 1) wHd 2819 3 ∧
      ((wPw 1).fits wHd 0 = true) ∧
      (127 = 127) ∧
      3 < 4) ∧
    ((wXa.held = []) ∧
      (wXa.live = []) ∧
      (wXa.flag clkB F.CLK_SRC_XA_OK = true) ∧
      (wXa.boot.step = 10)) ∧
    ((wXa.held = []) ∧
      (wXa.live = []) ∧
      (bit (wXa.getF clkB F.LOOP_STATUS_LOCK) 5 = true) ∧
      5 < 6) :=
  ⟨⟨accepts_of (by decide +kernel), by decide +kernel⟩,
    ⟨accepts_of (by decide +kernel), by decide +kernel⟩,
    ⟨accepts_of (by decide +kernel), by decide +kernel⟩,
    ⟨accepts_of (by decide +kernel), by decide +kernel⟩,
    ⟨accepts_of (by decide +kernel), by decide +kernel⟩,
    by decide +kernel⟩

theorem wit_PowerAndClocks_5 :
    ((wXa.held = []) ∧
      (wXa.live = []) ∧
      (bit (wXa.getF clkB F.LOOP_STATUS_LOCK) 3 = true) ∧
      3 < 6) ∧
    (((wPw 1).flag clkB F.CLK_SRC_XA_OK = false ∨ (wPw 1).boot.step ≠ 10)) ∧
    (5 < 6 ∧
      ((wSet (wPw 1) [(clkB, F.CLK_SRC_XA_OK, 1), (clkB, F.CLK_SRC_NET_REF, 0)]).flag clkB F.CLK_SRC_XA_OK = true) ∧
      ((wSet (wPw 1) [(clkB, F.CLK_SRC_XA_OK, 1), (clkB, F.CLK_SRC_NET_REF, 0)]).flag clkB F.CLK_SRC_NET_REF = false)) ∧
    (6 ≤ 6) ∧
    ((wTh.clk 0 = true) ∧
      ((wTh.setF thmB (F.THERM_DIE_TEMP.nth 4) ((100 : BitVec 16) * (128 : BitVec 16)).toNat).tripOn 4 = false)) ∧
    (((wSet ({ wTh with power := { wTh.power with maxSeen := true } }) [(thmB, F.THERM_STATUS_THROTTLED, 1), (thmB, F.THERM_MAX_TEMP, 96 * 128)]).clk 0 = true) ∧
      (((wSet ({ wTh with power := { wTh.power with maxSeen := true } }) [(thmB, F.THERM_STATUS_THROTTLED, 1), (thmB, F.THERM_MAX_TEMP, 96 * 128)]).setF thmB (F.THERM_DIE_TEMP.nth 4) ((95 : BitVec 16) * (128 : BitVec 16)).toNat).tripOn 4 = false)) ∧
    (((wSet wTh [(thmB, F.THERM_STATUS_THROTTLED, 1)]).clk 0 = true) ∧
      (((wSet wTh [(thmB, F.THERM_STATUS_THROTTLED, 1)]).setF thmB (F.THERM_DIE_TEMP.nth 4) (65408)).tripOn 4 = false)) ∧
    ((({ wTh with gated := 1 : State }).clk 0 = false)) :=
  by decide +kernel

theorem wit_PowerAndClocks_6 :
    (((wSet (runG (wPw 1)) [(pwrB, F.PWR_STATE_AUTO_IDLE, 1)]).pwrState = 1) ∧
      ((wSet (runG (wPw 1)) [(pwrB, F.PWR_STATE_AUTO_IDLE, 1)]).flag pwrB F.PWR_STATE_AUTO_IDLE = true) ∧
      ((wSet (runG (wPw 1)) [(pwrB, F.PWR_STATE_AUTO_IDLE, 1)]).anyRunning = true) ∧
      ((wSet (runG (wPw 1)) [(pwrB, F.PWR_STATE_AUTO_IDLE, 1)]).timerRuns = false)) ∧
    ((wPw 2).pwrState ≠ 1) ∧
    (Int.ofNat (({ wWk 5 with wakeFrom := (-5 : Int) : State }).getF pwrB F.WAKE_CFG_WAKE_COUNTS) ≤ ({ wWk 5 with wakeFrom := (-5 : Int) : State }).posCount (({ wWk 5 with wakeFrom := (-5 : Int) : State }).getF pwrB F.WAKE_CFG_WAKE_SRC) - ({ wWk 5 with wakeFrom := (-5 : Int) : State }).wakeFrom ∧
      (({ wWk 5 with wakeFrom := (-5 : Int) : State }).pwrState = 4) ∧
      (({ wWk 5 with wakeFrom := (-5 : Int) : State }).boot.halt = 0) ∧
      (({ wWk 5 with wakeFrom := (-5 : Int) : State }).boot.wake = false) ∧
      (({ wWk 5 with wakeFrom := (-5 : Int) : State }).flag pwrB F.WAKE_CFG_WAKE_EN = true)) ∧
    ((wWk 5).posCount ((wWk 5).getF pwrB F.WAKE_CFG_WAKE_SRC) - (wWk 5).wakeFrom < Int.ofNat ((wWk 5).getF pwrB F.WAKE_CFG_WAKE_COUNTS)) ∧
    ((wTh.held = []) ∧
      (wTh.live = []) ∧
      (wTh.clk 0 = true) ∧
      ((wTh.setF thmB (F.THERM_DIE_TEMP.nth 4) ((110 : BitVec 16) * (128 : BitVec 16)).toNat).tripOn 4 = true) ∧
      (wTh.power.tripped 4 = false)) ∧
    ((wTh.held = []) ∧
      (wTh.live = []) ∧
      (wTh.clk 0 = true) ∧
      ((wTh.setF thmB (F.THERM_DIE_TEMP.nth 3) ((110 : BitVec 16) * (128 : BitVec 16)).toNat).tripOn 3 = true) ∧
      (wTh.power.tripped 3 = false) ∧
      (3 : Fin 5) ≠ (4 : Fin 5) ∧
      wTh.pwrState ≠ 4) :=
  by decide +kernel


end W9

/-! ### Witnesses: Network and time -/

namespace W10

def wUp (fs : List (Nat × Fld × Nat)) : State := wSet wCmd ([(ethB 0, F.ETH_STATUS_LINK_UP, 1), (ethB 0, F.ETH_STATUS_ACTIVE, 1)] ++ fs)
def fr (et : Nat) : List Byte := be 6 (2 ^ 48 - 1) ++ be 6 1 ++ be 2 et ++ zeros 50
def wEn : State := wSet wCmd [(ethB 1, F.ETH_CTRL_EN, 1)]
def wRev : State := wSet wCmd [(ethB 0, F.ETH_STATUS_LINK_UP, 1), (ethB 1, F.ETH_STATUS_LINK_UP, 1), (ethB 1, F.ETH_STATUS_ACTIVE, 1), (netB, F.NET_CTRL_REVERT, 1), (netB, F.NET_CTRL_PREF_PORT, 0)]
def wNb : State := { wUp [] with net := { wait := [(0, 1, ⟨1, 3, true, []⟩), (1, 2, ⟨0, 3, true, zeros 60⟩)] } }
def tx1 : TxFrame := ⟨0, 3, .eth 0 none (zeros 60)⟩
def tx2 : TxFrame := ⟨0, 2, .eth 0 none (zeros 61)⟩
def wTx : State := { wUp [] with net := { txq := [⟨1, 0, .eth 1 none []⟩, tx1, tx2] } }
def lEnt (t : Nat) : List Byte := le 8 0x20000 ++ le 2 60 ++ le 2 14 ++ le 2 0 ++ le 2 0 ++ le 8 0 ++ le 4 t ++ zeros 36
def wLq (t now : Nat) (fl : Nat) : State := { (((wUp ((List.range 16).map (fun d => (mcB d, F.MC_STATUS_STATE, 2)) ++ [(netB, F.LQ_CFG_EN.nth 7, 1), (netB, F.LQ_CFG_RING.nth 7, 0x200), (netB, F.LQ_CFG_LATE_FLAG.nth 7, fl)])).pokes 0x20000 (zeros 60)).pokes 0x8000 (lEnt t)) with
  rings := [(0x200, { valid := true, base := 0x8000, depthLog := 6, prod := 2, subs := [4] })],
  subs := [(4, { ring := 0x200, who := .block (lqBlock 7), cursor := 0, moved := 0, sent := 3, inFlight := [], seq := 0, key := [], since := none, resendTo := 3 })], localT := now * 2 ^ 40 }
def vv (s : State) := s.readEntry 0x200 (lqBlock 7) 0 (lqBlock 7 / 16 % 65536)
def uu (s : State) := (vv s).1.memRead 1 (lqBlock 7 / 16 % 65536) 0x20000 60
def wLqF : State := { wLq 100 0 0 with localT := 108 * 2 ^ 40 + 1 }
def wLq6 : State := let s := wSet ((wLq 100 100 0).pokes 0x9000 (lEnt 103)) [(netB, F.LQ_CFG_EN.nth 6, 1), (netB, F.LQ_CFG_RING.nth 6, 0x201)]
  { s with rings := s.rings ++ [(0x201, { valid := true, base := 0x9000, depthLog := 6, prod := 1, subs := [5] })]
           subs := s.subs ++ [(5, { ring := 0x201, who := .block (lqBlock 6), cursor := 0, moved := 0, sent := 0, inFlight := [], seq := 0, key := [], since := none, resendTo := 0 })] }
def sb (snt : Nat) (fl : List (Nat × Nat)) : Sub := { ring := 0x200, who := .net false 40001 7 0, cursor := 3, moved := 0, sent := snt, inFlight := fl, seq := 9, key := zeros 16, since := none, resendTo := snt }
def wSb (b : Sub) (p : Nat) : State := { wUp ((netB, F.NET_IPV6_ADDR.nth 3, 5) :: (List.range 16).map (fun d => (mcB d, F.MC_STATUS_STATE, 2))) with
  rings := [(0x200, { valid := true, base := 0x8000, depthLog := 6, prod := p, subs := [4] })], subs := [(4, b)] }
def wT : State := { wCmd with localT := 12345 }
def ann : List Byte := [0x0B, 2, 0, 64, 7] ++ zeros 15 ++ be 8 0x1122334455667788 ++ be 2 1 ++ zeros 17 ++ [128, 6, 0x21, 0x40, 0, 128] ++ be 8 99 ++ zeros 3
def wPtp (fs : List (Nat × Fld × Nat)) (p : Ptp) : State := { wSet wT ((timB, F.PTP_CTRL_EN_B, 1) :: fs) with ptp := [(1, p)] }
def wMas (l : Nat) : State := { wPtp [] { dom := 7, masters := [⟨beAt ann 20 10, announceKey ann, beAt ann 53 8, 10, 1, false, [0], 0⟩] } with now := l }
def pB : Ptp := { dom := 7, best := some 42, ports := [1] }

theorem wit_Network_1 :
    ((wCmd.linkIsUp 0 = false)) ∧
    (((wUp []).linkIsUp 0 = true) ∧
      ((zeros 63).length < 64 ∨ 9216 < (zeros 63).length ∨ true = false)) ∧
    (((wUp []).linkIsUp 0 = true) ∧
      ((zeros 64).length < 64 ∨ 9216 < (zeros 64).length ∨ false = false)) ∧
    (((wUp []).linkIsUp 0 = true) ∧
      64 ≤ (fr 2054).length ∧
      (fr 2054).length ≤ 1522 ∧
      (true = true) ∧
      ((wUp []).untag (fr 2054) = some (List.take 60 (fr 2054))) ∧
      ((wUp []).macMine (beAt (List.take 60 (fr 2054)) 0 6) = true) ∧
      beAt (List.take 60 (fr 2054)) 12 2 ≠ 34824 ∧
      beAt (List.take 60 (fr 2054)) 12 2 ≠ 2048 ∧
      beAt (List.take 60 (fr 2054)) 12 2 ≠ 34525) ∧
    (((wUp []).linkIsUp 0 = true) ∧
      64 ≤ (fr 35063).length ∧
      (fr 35063).length ≤ 1522 ∧
      (true = true) ∧
      ((wUp []).untag (fr 35063) = some (List.take 60 (fr 35063))) ∧
      ((wUp []).macMine (beAt (List.take 60 (fr 35063)) 0 6) = true) ∧
      beAt (List.take 60 (fr 35063)) 12 2 ≠ 34824 ∧
      beAt (List.take 60 (fr 35063)) 12 2 ≠ 2048 ∧
      beAt (List.take 60 (fr 35063)) 12 2 ≠ 34525) ∧
    ((wEn.domOn (if 1 = 0 then 90 else 92) = true) ∧
      (wEn.flag (ethB 1) F.ETH_CTRL_EN = true) ∧
      (wEn.linkIsUp 1 = false) ∧
      7 ≤ wEn.boot.step ∧
      (wEn.boot.halt = 0) ∧
      (wEn.boot.fails = [])) ∧
    (((wSet wCmd [(ethB 1, F.ETH_CTRL_EN, 0)]).linkIsUp 1 = true ∨ (wSet wCmd [(ethB 1, F.ETH_CTRL_EN, 0)]).flag (ethB 1) F.ETH_CTRL_EN = false)) ∧
    (((wUp [(ethB 1, F.ETH_STATUS_LINK_UP, 1)]).linkIsUp 0 = true) ∧
      ((wUp [(ethB 1, F.ETH_STATUS_LINK_UP, 1)]).flag netB F.NET_CTRL_PRP_EN = false) ∧
      ((wUp [(ethB 1, F.ETH_STATUS_LINK_UP, 1)]).activePort = 0) ∧
      ((wUp [(ethB 1, F.ETH_STATUS_LINK_UP, 1)]).linkIsUp (1 - 0) = true)) :=
  by decide +kernel

theorem wit_Network_2 :
    (((wUp []).linkIsUp 0 = true) ∧
      ((wUp []).flag netB F.NET_CTRL_PRP_EN = false) ∧
      ((wUp []).activePort = 0)) ∧
    ((wCmd.linkIsUp 0 = false)) ∧
    ((wRev.getF netB F.NET_CTRL_PREF_PORT = 0) ∧
      (wRev.flag netB F.NET_CTRL_REVERT = true) ∧
      (wRev.flag netB F.NET_CTRL_PRP_EN = false) ∧
      wRev.activePort ≠ 0 ∧
      (wRev.linkIsUp 0 = true)) ∧
    (((wUp []).flag netB F.NET_CTRL_REVERT = false ∨ (wUp []).activePort = (wUp []).getF netB F.NET_CTRL_PREF_PORT)) ∧
    ((List.find? (fun x => x.2.2.port == 0) wNb.net.wait = some (1, 2, { port := 0, prio := 3, v4 := true, bytes := zeros 60 }))) ∧
    (((wUp []).net.wait = [])) ∧
    ((({ wUp [(netB, F.NET_CTRL_PRP_EN, 1)] with net := { supSeq := 65535 } : State }).flag netB F.NET_CTRL_PRP_EN = true) ∧
      (({ wUp [(netB, F.NET_CTRL_PRP_EN, 1)] with net := { supSeq := 65535 } : State }).boot.step = 10)) ∧
    (((wUp []).flag netB F.NET_CTRL_PRP_EN = false)) :=
  by decide +kernel

theorem wit_Network_3 :
    (tx1 ∈ wTx.net.txq ∧
      (wTx.linkIsUp 0 = true) ∧
      (tx1.port = 0) ∧
      tx1.prio < 48 ∧
      tx1.prio % 8 < 6) ∧
    ((0 = (wUp []).getF netB (F.LQ_CFG_RING.nth 7)) ∧
      ((wUp []).flag netB (F.LQ_CFG_EN.nth 7) = false ∨ (wUp []).avail 0 (lqBlock 7) = 0 ∨ (wUp []).streamUp = false)) ∧
    ((512 = (wLq 100 91 0).getF netB (F.LQ_CFG_RING.nth 7)) ∧
      ((wLq 100 91 0).net.lqWait = []) ∧
      ((wLq 100 91 0).flag netB (F.LQ_CFG_EN.nth 7) = true) ∧
      (wLq 100 91 0).avail 512 (lqBlock 7) ≠ 0 ∧
      ((wLq 100 91 0).streamUp = true) ∧
      ((wLq 100 91 0).readEntry 512 (lqBlock 7) 0 (blockUnit netB) = ((vv (wLq 100 91 0)).1, Except.ok (lEnt 100))) ∧
      (60 = leAt (lEnt 100) 8 2) ∧
      60 ≤ 60 ∧
      60 ≤ 1518 ∧
      leAt (lEnt 100) 10 2 < 60 ∧
      (leAt (lEnt 100) 14 2 % 2 = 0) ∧
      (100 = leAt (lEnt 100) 16 8 * 1000000000 + leAt (lEnt 100) 24 4) ∧
      (wLq 100 91 0).localT + 8 * 2 ^ 40 < 100 * 2 ^ 40) ∧
    ((512 = (wLq 100 108 0).getF netB (F.LQ_CFG_RING.nth 7)) ∧
      ((wLq 100 108 0).net.lqWait = []) ∧
      ((wLq 100 108 0).flag netB (F.LQ_CFG_EN.nth 7) = true) ∧
      (wLq 100 108 0).avail 512 (lqBlock 7) ≠ 0 ∧
      ((wLq 100 108 0).streamUp = true) ∧
      ((wLq 100 108 0).readEntry 512 (lqBlock 7) 0 (blockUnit netB) = ((vv (wLq 100 108 0)).1, Except.ok (lEnt 100))) ∧
      (60 = leAt (lEnt 100) 8 2) ∧
      60 ≤ 60 ∧
      60 ≤ 1518 ∧
      leAt (lEnt 100) 10 2 < 60 ∧
      (leAt (lEnt 100) 14 2 % 2 = 0) ∧
      (100 = leAt (lEnt 100) 16 8 * 1000000000 + leAt (lEnt 100) 24 4) ∧
      100 * 2 ^ 40 ≤ (wLq 100 108 0).localT + 8 * 2 ^ 40 ∧
      (wLq 100 108 0).localT ≤ (100 + 8) * 2 ^ 40 ∧
      ((vv (wLq 100 108 0)).1.lqBehind 7 (lEnt 100) = false) ∧
      ((vv (wLq 100 108 0)).1.memRead 1 (blockUnit netB) (leAt (lEnt 100) 0 5) 60 = ((uu (wLq 100 108 0)).1, Except.ok (zeros 60)))) :=
  ⟨by decide +kernel,
    by decide +kernel,
    ⟨by decide +kernel, by decide +kernel, by decide +kernel, by decide +kernel, by decide +kernel, pair_of (by decide +kernel), by decide +kernel⟩,
    ⟨by decide +kernel, by decide +kernel, by decide +kernel, by decide +kernel, by decide +kernel, pair_of (by decide +kernel), by decide +kernel, by decide +kernel, by decide +kernel, by decide +kernel, by decide +kernel, by decide +kernel, by decide +kernel, by decide +kernel, by decide +kernel, pair_of (by decide +kernel)⟩⟩

theorem wit_Network_4 :
    ((512 = (wLq 100 92 0).getF netB (F.LQ_CFG_RING.nth 7)) ∧
      ((wLq 100 92 0).net.lqWait = []) ∧
      ((wLq 100 92 0).flag netB (F.LQ_CFG_EN.nth 7) = true) ∧
      (wLq 100 92 0).avail 512 (lqBlock 7) ≠ 0 ∧
      ((wLq 100 92 0).streamUp = true) ∧
      ((wLq 100 92 0).readEntry 512 (lqBlock 7) 0 (blockUnit netB) = ((vv (wLq 100 92 0)).1, Except.ok (lEnt 100))) ∧
      (60 = leAt (lEnt 100) 8 2) ∧
      60 ≤ 60 ∧
      60 ≤ 1518 ∧
      leAt (lEnt 100) 10 2 < 60 ∧
      (leAt (lEnt 100) 14 2 % 2 = 0) ∧
      (100 = leAt (lEnt 100) 16 8 * 1000000000 + leAt (lEnt 100) 24 4) ∧
      100 * 2 ^ 40 ≤ (wLq 100 92 0).localT + 8 * 2 ^ 40 ∧
      (wLq 100 92 0).localT ≤ (100 + 8) * 2 ^ 40 ∧
      ((vv (wLq 100 92 0)).1.lqBehind 7 (lEnt 100) = false) ∧
      ((vv (wLq 100 92 0)).1.memRead 1 (blockUnit netB) (leAt (lEnt 100) 0 5) 60 = ((uu (wLq 100 92 0)).1, Except.ok (zeros 60)))) ∧
    ((512 = (wLq 100 109 0).getF netB (F.LQ_CFG_RING.nth 7)) ∧
      ((wLq 100 109 0).net.lqWait = []) ∧
      ((wLq 100 109 0).flag netB (F.LQ_CFG_EN.nth 7) = true) ∧
      (wLq 100 109 0).avail 512 (lqBlock 7) ≠ 0 ∧
      ((wLq 100 109 0).streamUp = true) ∧
      ((wLq 100 109 0).readEntry 512 (lqBlock 7) 0 (blockUnit netB) = ((vv (wLq 100 109 0)).1, Except.ok (lEnt 100))) ∧
      (60 = leAt (lEnt 100) 8 2) ∧
      60 ≤ 60 ∧
      60 ≤ 1518 ∧
      leAt (lEnt 100) 10 2 < 60 ∧
      (leAt (lEnt 100) 14 2 % 2 = 0) ∧
      (100 = leAt (lEnt 100) 16 8 * 1000000000 + leAt (lEnt 100) 24 4) ∧
      (100 + 8) * 2 ^ 40 < (wLq 100 109 0).localT ∧
      ((vv (wLq 100 109 0)).1.memRead 1 (blockUnit netB) (leAt (lEnt 100) 0 5) 60 = ((uu (wLq 100 109 0)).1, Except.ok (zeros 60))) ∧
      ((wLq 100 109 0).flag netB (F.LQ_CFG_LATE_FLAG.nth 7) = false)) :=
  ⟨⟨by decide +kernel, by decide +kernel, by decide +kernel, by decide +kernel, by decide +kernel, pair_of (by decide +kernel), by decide +kernel, by decide +kernel, by decide +kernel, by decide +kernel, by decide +kernel, by decide +kernel, by decide +kernel, by decide +kernel, by decide +kernel, pair_of (by decide +kernel)⟩,
    ⟨by decide +kernel, by decide +kernel, by decide +kernel, by decide +kernel, by decide +kernel, pair_of (by decide +kernel), by decide +kernel, by decide +kernel, by decide +kernel, by decide +kernel, by decide +kernel, by decide +kernel, by decide +kernel, pair_of (by decide +kernel), by decide +kernel⟩⟩

theorem wit_Network_5 :
    ((512 = (wLq 100 109 1).getF netB (F.LQ_CFG_RING.nth 7)) ∧
      ((wLq 100 109 1).net.lqWait = []) ∧
      ((wLq 100 109 1).flag netB (F.LQ_CFG_EN.nth 7) = true) ∧
      (wLq 100 109 1).avail 512 (lqBlock 7) ≠ 0 ∧
      ((wLq 100 109 1).streamUp = true) ∧
      ((wLq 100 109 1).readEntry 512 (lqBlock 7) 0 (blockUnit netB) = ((vv (wLq 100 109 1)).1, Except.ok (lEnt 100))) ∧
      (60 = leAt (lEnt 100) 8 2) ∧
      60 ≤ 60 ∧
      60 ≤ 1518 ∧
      leAt (lEnt 100) 10 2 < 60 ∧
      (leAt (lEnt 100) 14 2 % 2 = 0) ∧
      (100 = leAt (lEnt 100) 16 8 * 1000000000 + leAt (lEnt 100) 24 4) ∧
      (100 + 8) * 2 ^ 40 < (wLq 100 109 1).localT ∧
      ((vv (wLq 100 109 1)).1.memRead 1 (blockUnit netB) (leAt (lEnt 100) 0 5) 60 = ((uu (wLq 100 109 1)).1, Except.ok (zeros 60)))) ∧
    ((512 = wLqF.getF netB (F.LQ_CFG_RING.nth 7)) ∧
      (wLqF.net.lqWait = []) ∧
      (wLqF.flag netB (F.LQ_CFG_EN.nth 7) = true) ∧
      wLqF.avail 512 (lqBlock 7) ≠ 0 ∧
      (wLqF.streamUp = true) ∧
      (wLqF.readEntry 512 (lqBlock 7) 0 (blockUnit netB) = ((vv wLqF).1, Except.ok (lEnt 100))) ∧
      (60 = leAt (lEnt 100) 8 2) ∧
      60 ≤ 60 ∧
      60 ≤ 1518 ∧
      leAt (lEnt 100) 10 2 < 60 ∧
      (leAt (lEnt 100) 14 2 % 2 = 0) ∧
      (100 = leAt (lEnt 100) 16 8 * 1000000000 + leAt (lEnt 100) 24 4) ∧
      (100 + 8) * 2 ^ 40 < wLqF.localT ∧
      ((vv wLqF).1.memRead 1 (blockUnit netB) (leAt (lEnt 100) 0 5) 60 = ((uu wLqF).1, Except.ok (zeros 60))) ∧
      (wLqF.flag netB (F.LQ_CFG_LATE_FLAG.nth 7) = false)) :=
  ⟨⟨by decide +kernel, by decide +kernel, by decide +kernel, by decide +kernel, by decide +kernel, pair_of (by decide +kernel), by decide +kernel, by decide +kernel, by decide +kernel, by decide +kernel, by decide +kernel, by decide +kernel, by decide +kernel, pair_of (by decide +kernel)⟩,
    ⟨by decide +kernel, by decide +kernel, by decide +kernel, by decide +kernel, by decide +kernel, pair_of (by decide +kernel), by decide +kernel, by decide +kernel, by decide +kernel, by decide +kernel, by decide +kernel, by decide +kernel, by decide +kernel, pair_of (by decide +kernel), by decide +kernel⟩⟩

theorem wit_Network_6 :
    ((512 = wLq6.getF netB (F.LQ_CFG_RING.nth 7)) ∧
      (wLq6.net.lqWait = []) ∧
      (wLq6.flag netB (F.LQ_CFG_EN.nth 7) = true) ∧
      wLq6.avail 512 (lqBlock 7) ≠ 0 ∧
      (wLq6.streamUp = true) ∧
      (wLq6.readEntry 512 (lqBlock 7) 0 (blockUnit netB) = ((vv wLq6).1, Except.ok (lEnt 100))) ∧
      (60 = leAt (lEnt 100) 8 2) ∧
      60 ≤ 60 ∧
      60 ≤ 1518 ∧
      leAt (lEnt 100) 10 2 < 60 ∧
      (leAt (lEnt 100) 14 2 % 2 = 0) ∧
      (100 = leAt (lEnt 100) 16 8 * 1000000000 + leAt (lEnt 100) 24 4) ∧
      100 * 2 ^ 40 ≤ wLq6.localT + 8 * 2 ^ 40 ∧
      wLq6.localT ≤ (100 + 8) * 2 ^ 40 ∧
      ((vv wLq6).1.lqBehind 7 (lEnt 100) = true)) ∧
    ((512 = ({ wLq6 with net := { wLq6.net with lqWait := [7] } : State }).getF netB (F.LQ_CFG_RING.nth 7)) ∧
      (({ wLq6 with net := { wLq6.net with lqWait := [7] } : State }).net.lqWait = [7]) ∧
      (({ wLq6 with net := { wLq6.net with lqWait := [7] } : State }).lqBehind 7 (({ wLq6 with net := { wLq6.net with lqWait := [7] } : State }).lqHead 7) = true)) ∧
    ((Tab.find 4 (wSb (sb 3 []) 40).subs = some (sb 3 [])) ∧
      ((sb 3 []).who = Subscriber.net false 40001 7 0) ∧
      ((sb 3 []).resendTo = (sb 3 []).sent) ∧
      ((wSb (sb 3 []) 40).canIp 7 = true) ∧
      ((wSb (sb 3 []) 40).streamMade (sb 3 []) = true) ∧
      (37 = diff32 ((wSb (sb 3 []) 40).ring (sb 3 []).ring).prod (sb 3 []).sent) ∧
      (20 = (wSb (sb 3 []) 40).streamLimit (wSb (sb 3 []) 40).activePort / ((wSb (sb 3 []) 40).ring (sb 3 []).ring).esize) ∧
      37 ≠ 0 ∧
      ((wSb (sb 3 []) 40).streamUp = true)) ∧
    ((Tab.find 4 (wSb (sb 3 []) 5).subs = some (sb 3 [])) ∧
      ((sb 3 []).who = Subscriber.net false 40001 7 0) ∧
      ((sb 3 []).resendTo = (sb 3 []).sent) ∧
      ((wSb (sb 3 []) 5).canIp 7 = true) ∧
      ((wSb (sb 3 []) 5).streamMade (sb 3 []) = true) ∧
      (2 = diff32 ((wSb (sb 3 []) 5).ring (sb 3 []).ring).prod (sb 3 []).sent) ∧
      (20 = (wSb (sb 3 []) 5).streamLimit (wSb (sb 3 []) 5).activePort / ((wSb (sb 3 []) 5).ring (sb 3 []).ring).esize) ∧
      2 ≠ 0 ∧
      ((wSb (sb 3 []) 5).streamUp = true)) :=
  ⟨⟨by decide +kernel, by decide +kernel, by decide +kernel, by decide +kernel, by decide +kernel, pair_of (by decide +kernel), by decide +kernel⟩,
    by decide +kernel⟩

theorem wit_Network_7 :
    ((Tab.find 4 (wSb (sb 3 []) 3).subs = some (sb 3 [])) ∧
      ((sb 3 []).who = Subscriber.net false 40001 7 0) ∧
      ((sb 3 []).resendTo = (sb 3 []).sent) ∧
      ((wSb (sb 3 []) 3).canIp 7 = true) ∧
      ((wSb (sb 3 []) 3).streamMade (sb 3 []) = true) ∧
      (0 = diff32 ((wSb (sb 3 []) 3).ring (sb 3 []).ring).prod (sb 3 []).sent) ∧
      (20 = (wSb (sb 3 []) 3).streamLimit (wSb (sb 3 []) 3).activePort / ((wSb (sb 3 []) 3).ring (sb 3 []).ring).esize) ∧
      (0 = 0 ∨ (wSb (sb 3 []) 3).streamUp = false)) ∧
    ((Tab.find 4 wCmd.subs = none)) ∧
    ((Tab.find 4 (wSet (wSb (sb 3 []) 40) [(netB, F.NET_IPV6_ADDR.nth 3, 0)]).subs = some (sb 3 [])) ∧
      ((sb 3 []).who = Subscriber.net false 40001 7 0) ∧
      ((wSet (wSb (sb 3 []) 40) [(netB, F.NET_IPV6_ADDR.nth 3, 0)]).canIp 7 = false)) ∧
    ((Tab.find 4 (wSet (wSb ({ sb 3 [] with who := Subscriber.net true 40001 7 0 }) 40) [(hkB 8, F.HK_CTRL_HOST_LANES, 16)]).subs = some ({ sb 3 [] with who := Subscriber.net true 40001 7 0 })) ∧
      (({ sb 3 [] with who := Subscriber.net true 40001 7 0 : Sub }).who = Subscriber.net true 40001 7 0) ∧
      ((wSet (wSb ({ sb 3 [] with who := Subscriber.net true 40001 7 0 }) 40) [(hkB 8, F.HK_CTRL_HOST_LANES, 16)]).streamMade ({ sb 3 [] with who := Subscriber.net true 40001 7 0 }) = false)) ∧
    ((Tab.find 4 (wSb (sb 6 []) 9).subs = some (sb 6 [])) ∧
      ((sb 6 []).inFlight = [])) ∧
    ((Tab.find 4 (wSb (sb 6 [(5, 1), (6, 2)]) 9).subs = some (sb 6 [(5, 1), (6, 2)])) ∧
      ((sb 6 [(5, 1), (6, 2)]).inFlight = [(5, 1), (6, 2)])) :=
  by decide +kernel

theorem wit_TimeAndPtp_1 :
    (((wSet wT [(timB, F.PTP_STATE_SERVO_FB, 1)]).time.held = none)) ∧
    (((wT.setG 3 { st := 2 : Grp }).anyRunning = true)) ∧
    ((wT.anyRunning = false)) ∧
    (((List.take 63 ann).length < 64 ∨ ptpOurs (List.take 63 ann) = false ∨ beAt (List.take 63 ann) 0 1 % 16 ≠ 11)) ∧
    (64 ≤ ann.length ∧
      (ptpOurs ann = true) ∧
      (beAt ann 0 1 % 16 = 11) ∧
      ((wPtp [] { dom := 7 : Ptp }).ptpEn 1 = true) ∧
      (((wPtp [] { dom := 7 : Ptp }).pt 1).dom = beAt ann 4 1) ∧
      (((wPtp [] { dom := 7 : Ptp }).pt 1).best = none) ∧
      (((wPtp [] { dom := 7 : Ptp }).pt 1).masters = [])) ∧
    (64 ≤ ann.length ∧
      (ptpOurs ann = true) ∧
      (beAt ann 0 1 % 16 = 11) ∧
      ((wMas 2000000010).ptpEn 1 = true) ∧
      (((wMas 2000000010).pt 1).dom = beAt ann 4 1) ∧
      (((wMas 2000000010).pt 1).best = none) ∧
      (((wMas 2000000010).pt 1).masters = [{ src := beAt ann 20 10, key := announceKey ann, gm := beAt ann 53 8, last := 10, log := 1, qual := false, ports := [0], trans := 0 }]) ∧
      ({ src := beAt ann 20 10, key := announceKey ann, gm := beAt ann 53 8, last := 10, log := 1, qual := false, ports := [0], trans := 0 : Master }.src = beAt ann 20 10) ∧
      (wMas 2000000010).now ≤ { src := beAt ann 20 10, key := announceKey ann, gm := beAt ann 53 8, last := 10, log := 1, qual := false, ports := [0], trans := 0 : Master }.last + 4 * logCycles { src := beAt ann 20 10, key := announceKey ann, gm := beAt ann 53 8, last := 10, log := 1, qual := false, ports := [0], trans := 0 : Master }.log) ∧
    (((wPtp [] pB).ptpEn 1 = true) ∧
      (((wPtp [] pB).pt 1).best.isSome = true) ∧
      ((wPtp [] pB).ptpPort ((wPtp [] pB).pt 1) = 1) ∧
      ((((wPtp [] pB).pt 1).on 1).back = none)) ∧
    (((wPtp [(timB, F.PTP_CTRL_SERVO_SEL, 1), (timB, F.PTP_STATE_STATE_B, 3)] ({ pB with good := 100, synced := true })).ptpEn 1 = true) ∧
      (((wPtp [(timB, F.PTP_CTRL_SERVO_SEL, 1), (timB, F.PTP_STATE_STATE_B, 3)] ({ pB with good := 100, synced := true })).pt 1).best.isSome = true) ∧
      ((wPtp [(timB, F.PTP_CTRL_SERVO_SEL, 1), (timB, F.PTP_STATE_STATE_B, 3)] ({ pB with good := 100, synced := true })).ptpPort ((wPtp [(timB, F.PTP_CTRL_SERVO_SEL, 1), (timB, F.PTP_STATE_STATE_B, 3)] ({ pB with good := 100, synced := true })).pt 1) = 1) ∧
      ((((wPtp [(timB, F.PTP_CTRL_SERVO_SEL, 1), (timB, F.PTP_STATE_STATE_B, 3)] ({ pB with good := 100, synced := true })).pt 1).on 1).back = none)) :=
  by decide +kernel

theorem wit_TimeAndPtp_2 :
    (((wPtp [] ({ pB with ex := [(1, { back := some (30 : Int) })] })).ptpEn 1 = true) ∧
      (((wPtp [] ({ pB with ex := [(1, { back := some (30 : Int) })] })).pt 1).best.isSome = true) ∧
      ((wPtp [] ({ pB with ex := [(1, { back := some (30 : Int) })] })).ptpPort ((wPtp [] ({ pB with ex := [(1, { back := some (30 : Int) })] })).pt 1) = 1)) ∧
    (((wPtp [] pB).ptpEn 1 = true) ∧
      (((wPtp [] pB).pt 1).best.isSome = true) ∧
      (wPtp [] pB).ptpPort ((wPtp [] pB).pt 1) ≠ 0) ∧
    ((((wPtp [] {  : Ptp }).pt 1).best = none)) ∧
    (((wPtp [(timB, F.PTP_STATE_STATE_B, 2), (ethB 1, F.ETH_STATUS_LINK_UP, 1)] ({ pB with ex := [(1, { seq := 65535 })] })).ptpEn 1 = true) ∧
      (((wPtp [(timB, F.PTP_STATE_STATE_B, 2), (ethB 1, F.ETH_STATUS_LINK_UP, 1)] ({ pB with ex := [(1, { seq := 65535 })] })).pt 1).best.isSome = true) ∧
      2 ≤ (wPtp [(timB, F.PTP_STATE_STATE_B, 2), (ethB 1, F.ETH_STATUS_LINK_UP, 1)] ({ pB with ex := [(1, { seq := 65535 })] })).ptpState 1) ∧
    (((wPtp [] ({ pB with ex := [(1, { t1 := some (5 : Int), t2 := (10 : Int), t3 := some (30 : Int) })] })).ptpEn 1 = true) ∧
      ((((wPtp [] ({ pB with ex := [(1, { t1 := some (5 : Int), t2 := (10 : Int), t3 := some (30 : Int) })] })).pt 1).on ((wPtp [] ({ pB with ex := [(1, { t1 := some (5 : Int), t2 := (10 : Int), t3 := some (30 : Int) })] })).ptpPort ((wPtp [] ({ pB with ex := [(1, { t1 := some (5 : Int), t2 := (10 : Int), t3 := some (30 : Int) })] })).pt 1))).t1 = some (5 : Int)) ∧
      ((((wPtp [] ({ pB with ex := [(1, { t1 := some (5 : Int), t2 := (10 : Int), t3 := some (30 : Int) })] })).pt 1).on ((wPtp [] ({ pB with ex := [(1, { t1 := some (5 : Int), t2 := (10 : Int), t3 := some (30 : Int) })] })).ptpPort ((wPtp [] ({ pB with ex := [(1, { t1 := some (5 : Int), t2 := (10 : Int), t3 := some (30 : Int) })] })).pt 1))).t3 = some (30 : Int))) ∧
    (((wPtp [] pB).ptpEn 1 = true) ∧
      ((((wPtp [] pB).pt 1).on ((wPtp [] pB).ptpPort ((wPtp [] pB).pt 1))).t3 = none)) ∧
    (((wPtp [(timB, F.PTP_STATE_LOCK_B, 1), (timB, F.PTP_STATE_STATE_B, 3)] ({ pB with masters := [{ src := 42, key := 3, gm := 4, last := 0, log := 1, qual := true, ports := [1], trans := 0 }], synced := true })).ptpEn 1 = true) ∧
      (((wPtp [(timB, F.PTP_STATE_LOCK_B, 1), (timB, F.PTP_STATE_STATE_B, 3)] ({ pB with masters := [{ src := 42, key := 3, gm := 4, last := 0, log := 1, qual := true, ports := [1], trans := 0 }], synced := true })).pt 1).best.isSome = true) ∧
      (∀ e ∈ ((wPtp [(timB, F.PTP_STATE_LOCK_B, 1), (timB, F.PTP_STATE_STATE_B, 3)] ({ pB with masters := [{ src := 42, key := 3, gm := 4, last := 0, log := 1, qual := true, ports := [1], trans := 0 }], synced := true })).pt 1).masters, ((wPtp [(timB, F.PTP_STATE_LOCK_B, 1), (timB, F.PTP_STATE_STATE_B, 3)] ({ pB with masters := [{ src := 42, key := 3, gm := 4, last := 0, log := 1, qual := true, ports := [1], trans := 0 }], synced := true })).pt 1).best = some e.src)) ∧
    (((wPtp [(timB, F.PTP_STATE_LOCK_B, 1), (timB, F.PTP_STATE_STATE_B, 3)] ({ pB with masters := [{ src := 42, key := 3, gm := 4, last := 0, log := 1, qual := true, ports := [1], trans := 0 }, { src := 43, key := 1, gm := 2, last := 0, log := 1, qual := true, ports := [1], trans := 0 }], synced := true })).ptpEn 1 = true) ∧
      (((wPtp [(timB, F.PTP_STATE_LOCK_B, 1), (timB, F.PTP_STATE_STATE_B, 3)] ({ pB with masters := [{ src := 42, key := 3, gm := 4, last := 0, log := 1, qual := true, ports := [1], trans := 0 }, { src := 43, key := 1, gm := 2, last := 0, log := 1, qual := true, ports := [1], trans := 0 }], synced := true })).pt 1).best.isSome = true) ∧
      (List.filter (fun x => ((wPtp [(timB, F.PTP_STATE_LOCK_B, 1), (timB, F.PTP_STATE_STATE_B, 3)] ({ pB with masters := [{ src := 42, key := 3, gm := 4, last := 0, log := 1, qual := true, ports := [1], trans := 0 }, { src := 43, key := 1, gm := 2, last := 0, log := 1, qual := true, ports := [1], trans := 0 }], synced := true })).pt 1).best != some x.src) ((wPtp [(timB, F.PTP_STATE_LOCK_B, 1), (timB, F.PTP_STATE_STATE_B, 3)] ({ pB with masters := [{ src := 42, key := 3, gm := 4, last := 0, log := 1, qual := true, ports := [1], trans := 0 }, { src := 43, key := 1, gm := 2, last := 0, log := 1, qual := true, ports := [1], trans := 0 }], synced := true })).liveMasters ((wPtp [(timB, F.PTP_STATE_LOCK_B, 1), (timB, F.PTP_STATE_STATE_B, 3)] ({ pB with masters := [{ src := 42, key := 3, gm := 4, last := 0, log := 1, qual := true, ports := [1], trans := 0 }, { src := 43, key := 1, gm := 2, last := 0, log := 1, qual := true, ports := [1], trans := 0 }], synced := true })).pt 1)) = [{ src := 43, key := 1, gm := 2, last := 0, log := 1, qual := true, ports := [1], trans := 0 }]) ∧
      ({ src := 43, key := 1, gm := 2, last := 0, log := 1, qual := true, ports := [1], trans := 0 : Master }.qual = true)) :=
  by decide +kernel

theorem wit_TimeAndPtp_3 :
    (((let s := wPtp [] ({ pB with synced := true }); { now := s.now, regs := s.regs, act := s.act, shd := s.shd, mem := s.mem, flash := s.flash, out := s.out, freeCtr := s.freeCtr, pos := s.pos, grp := s.grp, flight := s.flight, arrived := s.arrived, live := s.live, held := s.held, devView := s.devView, sync := s.sync, copying := s.copying, accepts := s.accepts, wakeFrom := s.wakeFrom, localT := s.localT, time := { sel := some 1 }, ptp := s.ptp, lane := s.lane, chan := s.chan, seam := s.seam, seamG := s.seamG, segG := s.segG, tal := s.tal, tallyLast := s.tallyLast, csw := s.csw, hist := s.hist, oldL := s.oldL, sess := s.sess, rings := s.rings, resv := s.resv, subs := s.subs, ctxCache := s.ctxCache, binds := s.binds, ringWait := s.ringWait, starved := s.starved, dma := s.dma, memQ := s.memQ, hank := s.hank, memBad := s.memBad, dram := s.dram, retrain := s.retrain, cmp := s.cmp, rezero := s.rezero, tag := s.tag, cass := s.cass, cassKey := s.cassKey, aux := s.aux, mclkAt := s.mclkAt, yarn := s.yarn, pnl := s.pnl, dpMon := s.dpMon, view := s.view, viewOld := s.viewOld, lbNext := s.lbNext, lbGone := s.lbGone, dpRow := s.dpRow, dpBuf := s.dpBuf, rep := s.rep, stopped := s.stopped, spareDue := s.spareDue, net := s.net, boot := s.boot, fuses := s.fuses, power := s.power, jtag := s.jtag, pins := s.pins, banksOff := s.banksOff, gated := s.gated, degShown := s.degShown, annKey := s.annKey, keys := s.keys, dup := s.dup, pending := s.pending : State }).time.sel = some 1) ∧
      (((let s := wPtp [] ({ pB with synced := true }); { now := s.now, regs := s.regs, act := s.act, shd := s.shd, mem := s.mem, flash := s.flash, out := s.out, freeCtr := s.freeCtr, pos := s.pos, grp := s.grp, flight := s.flight, arrived := s.arrived, live := s.live, held := s.held, devView := s.devView, sync := s.sync, copying := s.copying, accepts := s.accepts, wakeFrom := s.wakeFrom, localT := s.localT, time := { sel := some 1 }, ptp := s.ptp, lane := s.lane, chan := s.chan, seam := s.seam, seamG := s.seamG, segG := s.segG, tal := s.tal, tallyLast := s.tallyLast, csw := s.csw, hist := s.hist, oldL := s.oldL, sess := s.sess, rings := s.rings, resv := s.resv, subs := s.subs, ctxCache := s.ctxCache, binds := s.binds, ringWait := s.ringWait, starved := s.starved, dma := s.dma, memQ := s.memQ, hank := s.hank, memBad := s.memBad, dram := s.dram, retrain := s.retrain, cmp := s.cmp, rezero := s.rezero, tag := s.tag, cass := s.cass, cassKey := s.cassKey, aux := s.aux, mclkAt := s.mclkAt, yarn := s.yarn, pnl := s.pnl, dpMon := s.dpMon, view := s.view, viewOld := s.viewOld, lbNext := s.lbNext, lbGone := s.lbGone, dpRow := s.dpRow, dpBuf := s.dpBuf, rep := s.rep, stopped := s.stopped, spareDue := s.spareDue, net := s.net, boot := s.boot, fuses := s.fuses, power := s.power, jtag := s.jtag, pins := s.pins, banksOff := s.banksOff, gated := s.gated, degShown := s.degShown, annKey := s.annKey, keys := s.keys, dup := s.dup, pending := s.pending : State }).pt 1).synced = true) ∧
      ((let s := wPtp [] ({ pB with synced := true }); { now := s.now, regs := s.regs, act := s.act, shd := s.shd, mem := s.mem, flash := s.flash, out := s.out, freeCtr := s.freeCtr, pos := s.pos, grp := s.grp, flight := s.flight, arrived := s.arrived, live := s.live, held := s.held, devView := s.devView, sync := s.sync, copying := s.copying, accepts := s.accepts, wakeFrom := s.wakeFrom, localT := s.localT, time := { sel := some 1 }, ptp := s.ptp, lane := s.lane, chan := s.chan, seam := s.seam, seamG := s.seamG, segG := s.segG, tal := s.tal, tallyLast := s.tallyLast, csw := s.csw, hist := s.hist, oldL := s.oldL, sess := s.sess, rings := s.rings, resv := s.resv, subs := s.subs, ctxCache := s.ctxCache, binds := s.binds, ringWait := s.ringWait, starved := s.starved, dma := s.dma, memQ := s.memQ, hank := s.hank, memBad := s.memBad, dram := s.dram, retrain := s.retrain, cmp := s.cmp, rezero := s.rezero, tag := s.tag, cass := s.cass, cassKey := s.cassKey, aux := s.aux, mclkAt := s.mclkAt, yarn := s.yarn, pnl := s.pnl, dpMon := s.dpMon, view := s.view, viewOld := s.viewOld, lbNext := s.lbNext, lbGone := s.lbGone, dpRow := s.dpRow, dpBuf := s.dpBuf, rep := s.rep, stopped := s.stopped, spareDue := s.spareDue, net := s.net, boot := s.boot, fuses := s.fuses, power := s.power, jtag := s.jtag, pins := s.pins, banksOff := s.banksOff, gated := s.gated, degShown := s.degShown, annKey := s.annKey, keys := s.keys, dup := s.dup, pending := s.pending : State }).servoOn = false)) ∧
    ((wT.time.sel = none ∨ wT.servoOn = true)) ∧
    (((wPtp [(timB, F.PTP_CTRL_PREF, 1), (timB, F.PTP_STATE_LOCK_B, 1)] pB).ptpLocked (wPtp [(timB, F.PTP_CTRL_PREF, 1), (timB, F.PTP_STATE_LOCK_B, 1)] pB).ptpPref = true)) ∧
    ((wT.ptpLocked wT.ptpPref = false)) :=
  by decide +kernel


end W10

/-! ### Witnesses: Views, panel, triggers, auxiliary inputs and faults -/

namespace W11

def run1 (s : State) : State := s.setG 3 { st := 2, openC := some 4 }
def wV (fs : List (Nat × Fld × Nat)) : State := run1 (wSet wCmd ([(gseamB 3, F.GRP_SEAM_FIRST_CH, 8), (gseamB 3, F.GRP_SEAM_COUNT, 1), (viewB 15, F.VIEW_CTRL_EN, 1), (viewB 15, F.VIEW_CTRL_GROUP, 3)] ++ fs))
def wVr (k : Nat) (rows : List (Nat × List Pix)) (fs : List (Nat × Fld × Nat)) : State := { wV fs with seam := [(8, { next := k, rows := rows })] }
def px : Pix := default
def wLb (k : Nat) (fs : List (Nat × Fld × Nat)) : State := wVr k [] ([(lbB 3, F.LB_CFG_LB_EN, 1), (lbB 3, F.LB_CFG_LB_ROWS, 4)] ++ fs)
def wPc (nx r : Nat) : State := { wLb 4 [(viewB 15, F.VIEW_CTRL_SRC, 1), (viewB 15, F.VIEW_STATUS_ACTIVE, 1), (viewB 15, F.VIEW_CTRL_SY_LOG, 3)] with lbNext := [(3, nx)], view := [(15, r)] }
def wDp (fs : List (Nat × Fld × Nat)) : State := wSet wCmd ([(dpB, F.DP_STATUS_HPD, 1)] ++ fs)
def wPn (fs : List (Nat × Fld × Nat)) (p : Panel) : State := { wSet wCmd fs with pnl := p }
def wKey : State := wPn [(pnlB, F.KEY_CFG_DEB, 3), (pnlB, F.KEY_CFG_KEY_POL, 0x8001), (pnlB, F.KEY_STATE_ACTIVE, 0x8000)] { keyCnt := [(0, 2), (15, 1)] }
def wY (fs : List (Nat × Fld × Nat)) (fi : List (Nat × Nat)) : State := { wSet wCmd fs with yarn := { fires := fi, due := [0xF5, 3] } }
def wAx (r : Nat) (x : AuxCh) (fs : List (Nat × Fld × Nat)) : State := { wSet wCmd ([(auxB 31, F.AUX_CTRL_RUN, r), (auxB 31, F.AUX_CTRL_CIC_N, 3), (auxB 31, F.AUX_CTRL_CIC_R, 8)] ++ fs) with aux := [(31, x)] }
def wRs : State := (((run1 (wSet wCmd [(rgnB 7, F.RGN_FAILED_CH, 0xC003), (gseamB 3, F.GRP_SEAM_FIRST_CH, 112), (gseamB 3, F.GRP_SEAM_COUNT, 1)])).setCh 113 { lostAt := some 4 }).setCh 126 { lostAt := some 4 }).setCh 112 { lostAt := some 5 }

theorem wit_ViewsAndPanel_1 :
    ((viewB 15 = viewB 15) ∧
      (3 = (wVr 2 [] [(viewB 15, F.VIEW_CTRL_SY_LOG, 1)]).getF (viewB 15) F.VIEW_CTRL_GROUP) ∧
      (2 = 2 ^ (wVr 2 [] [(viewB 15, F.VIEW_CTRL_SY_LOG, 1)]).getF (viewB 15) F.VIEW_CTRL_SY_LOG) ∧
      (0 = Tab.get 0 15 (wVr 2 [] [(viewB 15, F.VIEW_CTRL_SY_LOG, 1)]).view) ∧
      ((wVr 2 [] [(viewB 15, F.VIEW_CTRL_SY_LOG, 1)]).flag (viewB 15) F.VIEW_CTRL_EN = true) ∧
      ((wVr 2 [] [(viewB 15, F.VIEW_CTRL_SY_LOG, 1)]).flag (viewB 15) F.VIEW_CTRL_SRC = false) ∧
      (((wVr 2 [] [(viewB 15, F.VIEW_CTRL_SY_LOG, 1)]).g 3).st = 2) ∧
      ((wVr 2 [] [(viewB 15, F.VIEW_CTRL_SY_LOG, 1)]).seamDone 3 (2 * (0 + 1) - 1) = true)) ∧
    ((viewB 15 = viewB 15) ∧
      (3 = (wVr 1 [(0, List.replicate 8 px)] []).getF (viewB 15) F.VIEW_CTRL_GROUP) ∧
      (1 = 2 ^ (wVr 1 [(0, List.replicate 8 px)] []).getF (viewB 15) F.VIEW_CTRL_SY_LOG) ∧
      (0 = Tab.get 0 15 (wVr 1 [(0, List.replicate 8 px)] []).view) ∧
      ((wVr 1 [(0, List.replicate 8 px)] []).flag (viewB 15) F.VIEW_CTRL_EN = true) ∧
      ((wVr 1 [(0, List.replicate 8 px)] []).flag (viewB 15) F.VIEW_CTRL_SRC = false) ∧
      (((wVr 1 [(0, List.replicate 8 px)] []).g 3).st = 2) ∧
      ((wVr 1 [(0, List.replicate 8 px)] []).seamDone 3 (1 * (0 + 1) - 1) = true) ∧
      (List.mapM ((wVr 1 [(0, List.replicate 8 px)] []).waleRow 3) (List.map (fun x => x + 1 * 0) (List.range 1)) = some [List.replicate 8 px])) ∧
    ((viewB 15 = viewB 15) ∧
      (3 = (wVr 0 [] []).getF (viewB 15) F.VIEW_CTRL_GROUP) ∧
      (1 = 2 ^ (wVr 0 [] []).getF (viewB 15) F.VIEW_CTRL_SY_LOG) ∧
      (0 = Tab.get 0 15 (wVr 0 [] []).view) ∧
      ((wVr 0 [] []).flag (viewB 15) F.VIEW_CTRL_EN = true) ∧
      ((wVr 0 [] []).flag (viewB 15) F.VIEW_CTRL_SRC = false) ∧
      (((wVr 0 [] []).g 3).st = 2) ∧
      ((wVr 0 [] []).seamDone 3 (1 * (0 + 1) - 1) = false)) ∧
    ((viewB 15 = viewB 15) ∧
      (3 = ((wVr 0 [] []).setG 3 { st := 3 : Grp }).getF (viewB 15) F.VIEW_CTRL_GROUP) ∧
      (1 = 2 ^ ((wVr 0 [] []).setG 3 { st := 3 : Grp }).getF (viewB 15) F.VIEW_CTRL_SY_LOG) ∧
      (0 = Tab.get 0 15 ((wVr 0 [] []).setG 3 { st := 3 : Grp }).view) ∧
      (((wVr 0 [] []).setG 3 { st := 3 : Grp }).flag (viewB 15) F.VIEW_CTRL_EN = true) ∧
      (((wVr 0 [] []).setG 3 { st := 3 : Grp }).flag (viewB 15) F.VIEW_CTRL_SRC = false) ∧
      (((wVr 0 [] []).setG 3 { st := 3 : Grp }).g 3).st ≠ 2) ∧
    ((wCmd.flag (viewB 3) F.VIEW_CTRL_EN = false)) ∧
    ((0 = Tab.get 0 3 (wLb 4 []).lbNext) ∧
      ((wLb 4 []).flag (lbB 3) F.LB_CFG_LB_EN = true) ∧
      (((wLb 4 []).g 3).st = 2 ∨ ((wLb 4 []).g 3).st = 3) ∧
      (wLb 4 []).getF (lbB 3) F.LB_CFG_LB_ROWS ≠ 0 ∧
      ((wLb 4 []).seamDone 3 (4 * 0 + 3) = true)) ∧
    ((0 = Tab.get 0 3 (wLb 3 []).lbNext) ∧
      ((wLb 3 []).flag (lbB 3) F.LB_CFG_LB_EN = false ∨ (wLb 3 []).seamDone 3 (4 * 0 + 3) = false)) :=
  by decide +kernel

theorem wit_ViewsAndPanel_2 :
    ((viewB 15 = viewB 15) ∧
      (3 = (wPc 11 3).getF (viewB 15) F.VIEW_CTRL_GROUP) ∧
      (2 = 2 ^ ((wPc 11 3).getF (viewB 15) F.VIEW_CTRL_SY_LOG - 2)) ∧
      (3 = Tab.get 0 15 (wPc 11 3).view) ∧
      (11 = Tab.get 0 3 (wPc 11 3).lbNext) ∧
      ((wPc 11 3).flag (viewB 15) F.VIEW_CTRL_EN = true) ∧
      ((wPc 11 3).flag (viewB 15) F.VIEW_CTRL_SRC = true) ∧
      ((wPc 11 3).flag (viewB 15) F.VIEW_STATUS_ACTIVE = true) ∧
      3 * 2 + (wPc 11 3).getF (lbB 3) F.LB_CFG_LB_ROWS < 11) ∧
    ((viewB 15 = viewB 15) ∧
      (3 = ({ wPc 8 3 with lbGone := [(3, 7)] : State }).getF (viewB 15) F.VIEW_CTRL_GROUP) ∧
      (2 = 2 ^ (({ wPc 8 3 with lbGone := [(3, 7)] : State }).getF (viewB 15) F.VIEW_CTRL_SY_LOG - 2)) ∧
      (3 = Tab.get 0 15 ({ wPc 8 3 with lbGone := [(3, 7)] : State }).view) ∧
      (8 = Tab.get 0 3 ({ wPc 8 3 with lbGone := [(3, 7)] : State }).lbNext) ∧
      (({ wPc 8 3 with lbGone := [(3, 7)] : State }).flag (viewB 15) F.VIEW_CTRL_EN = true) ∧
      (({ wPc 8 3 with lbGone := [(3, 7)] : State }).flag (viewB 15) F.VIEW_CTRL_SRC = true) ∧
      (({ wPc 8 3 with lbGone := [(3, 7)] : State }).flag (viewB 15) F.VIEW_STATUS_ACTIVE = true) ∧
      (3, 7) ∈ ({ wPc 8 3 with lbGone := [(3, 7)] : State }).lbGone ∧
      3 * 2 ≤ 7 ∧
      7 < 3 * 2 + 2) ∧
    ((viewB 15 = viewB 15) ∧
      (3 = (wSet (wPc 7 3) [(lbB 3, F.LB_CFG_LB_EN, 0)]).getF (viewB 15) F.VIEW_CTRL_GROUP) ∧
      (2 = 2 ^ ((wSet (wPc 7 3) [(lbB 3, F.LB_CFG_LB_EN, 0)]).getF (viewB 15) F.VIEW_CTRL_SY_LOG - 2)) ∧
      (3 = Tab.get 0 15 (wSet (wPc 7 3) [(lbB 3, F.LB_CFG_LB_EN, 0)]).view) ∧
      (7 = Tab.get 0 3 (wSet (wPc 7 3) [(lbB 3, F.LB_CFG_LB_EN, 0)]).lbNext) ∧
      ((wSet (wPc 7 3) [(lbB 3, F.LB_CFG_LB_EN, 0)]).flag (viewB 15) F.VIEW_CTRL_EN = true) ∧
      ((wSet (wPc 7 3) [(lbB 3, F.LB_CFG_LB_EN, 0)]).flag (viewB 15) F.VIEW_CTRL_SRC = true) ∧
      ((wSet (wPc 7 3) [(lbB 3, F.LB_CFG_LB_EN, 0)]).flag (viewB 15) F.VIEW_STATUS_ACTIVE = true) ∧
      7 < 3 * 2 + 2 ∧
      ((wSet (wPc 7 3) [(lbB 3, F.LB_CFG_LB_EN, 0)]).flag (lbB 3) F.LB_CFG_LB_EN = false)) ∧
    ((viewB 15 = viewB 15) ∧
      (3 = (wPc 7 3).getF (viewB 15) F.VIEW_CTRL_GROUP) ∧
      (2 = 2 ^ ((wPc 7 3).getF (viewB 15) F.VIEW_CTRL_SY_LOG - 2)) ∧
      (3 = Tab.get 0 15 (wPc 7 3).view) ∧
      (7 = Tab.get 0 3 (wPc 7 3).lbNext) ∧
      ((wPc 7 3).flag (viewB 15) F.VIEW_CTRL_EN = true) ∧
      ((wPc 7 3).flag (viewB 15) F.VIEW_CTRL_SRC = true) ∧
      ((wPc 7 3).flag (viewB 15) F.VIEW_STATUS_ACTIVE = true) ∧
      7 < 3 * 2 + 2 ∧
      ((wPc 7 3).lbLost 3 (3 * 2) (3 * 2 + 2) = false)) :=
  by decide +kernel

theorem wit_ViewsAndPanel_3 :
    ((viewB 15 = viewB 15) ∧
      (3 = (wPc 8 3).getF (viewB 15) F.VIEW_CTRL_GROUP) ∧
      (2 = 2 ^ ((wPc 8 3).getF (viewB 15) F.VIEW_CTRL_SY_LOG - 2)) ∧
      (3 = Tab.get 0 15 (wPc 8 3).view) ∧
      (8 = Tab.get 0 3 (wPc 8 3).lbNext) ∧
      ((wPc 8 3).flag (viewB 15) F.VIEW_CTRL_EN = true) ∧
      ((wPc 8 3).flag (viewB 15) F.VIEW_CTRL_SRC = true) ∧
      ((wPc 8 3).flag (viewB 15) F.VIEW_STATUS_ACTIVE = true) ∧
      3 * 2 + 2 ≤ 8 ∧
      ((wPc 8 3).lbLost 3 (3 * 2) (3 * 2 + 2) = false)) ∧
    ((viewB 15 = viewB 15) ∧
      (3 = (wPc 10 3).getF (viewB 15) F.VIEW_CTRL_GROUP) ∧
      (2 = 2 ^ ((wPc 10 3).getF (viewB 15) F.VIEW_CTRL_SY_LOG - 2)) ∧
      (3 = Tab.get 0 15 (wPc 10 3).view) ∧
      (10 = Tab.get 0 3 (wPc 10 3).lbNext) ∧
      ((wPc 10 3).flag (viewB 15) F.VIEW_CTRL_EN = true) ∧
      ((wPc 10 3).flag (viewB 15) F.VIEW_CTRL_SRC = true) ∧
      ((wPc 10 3).flag (viewB 15) F.VIEW_STATUS_ACTIVE = true) ∧
      3 * 2 + 2 ≤ 10 ∧
      ((wPc 10 3).lbLost 3 (3 * 2) (3 * 2 + 2) = false)) ∧
    (((wDp [(dpB, F.DP_STATUS_TRAINED, 1), (viewB 0, F.VIEW_CTRL_DP_EN, 1), (viewB 0, F.VIEW_ROWS_ROWS, 9), (viewB 5, F.VIEW_CTRL_DP_EN, 1)]).flag dpB F.DP_STATUS_TRAINED = true) ∧
      ((wDp [(dpB, F.DP_STATUS_TRAINED, 1), (viewB 0, F.VIEW_CTRL_DP_EN, 1), (viewB 0, F.VIEW_ROWS_ROWS, 9), (viewB 5, F.VIEW_CTRL_DP_EN, 1)]).flag dpB F.DP_STATUS_MODE_FAIL = false) ∧
      (Tab.rising (wDp [(dpB, F.DP_STATUS_TRAINED, 1), (viewB 0, F.VIEW_CTRL_DP_EN, 1), (viewB 0, F.VIEW_ROWS_ROWS, 9), (viewB 5, F.VIEW_CTRL_DP_EN, 1)]).dpRow = true)) ∧
    ((wCmd.flag dpB F.DP_STATUS_TRAINED = false ∨ wCmd.flag dpB F.DP_STATUS_MODE_FAIL = true)) ∧
    (((wSet wCmd [(dpB, F.DP_CTRL_EN, 1)]).domOn 94 = true) ∧
      ((wSet wCmd [(dpB, F.DP_CTRL_EN, 1)]).flag dpB F.DP_STATUS_HPD = false) ∧
      ((wSet wCmd [(dpB, F.DP_CTRL_EN, 1)]).flag dpB F.DP_CTRL_EN = true) ∧
      (([] : List Nat) = [])) ∧
    (((wDp []).flag dpB F.DP_STATUS_HPD = true)) ∧
    (((wDp [(dpB, F.DP_STATUS_TRAINED, 1)]).domOn 94 = true) ∧
      ((wDp [(dpB, F.DP_STATUS_TRAINED, 1)]).flag dpB F.DP_STATUS_HPD = true)) ∧
    (((wDp [(dpB, F.DP_STATUS_TRAINED, 1), (dpB, F.DP_CTRL_EN, 1)]).domOn 94 = true) ∧
      ((wDp [(dpB, F.DP_STATUS_TRAINED, 1), (dpB, F.DP_CTRL_EN, 1)]).flag dpB F.DP_STATUS_HPD = true) ∧
      ((wDp [(dpB, F.DP_STATUS_TRAINED, 1), (dpB, F.DP_CTRL_EN, 1)]).flag dpB F.DP_CTRL_EN = true) ∧
      (([] : List Nat) = [])) :=
  by decide +kernel

theorem wit_ViewsAndPanel_4 :
    ((wCmd.flag dpB F.DP_STATUS_HPD = false)) ∧
    (((wPn [(pnlB, F.PNL_TOUCH_TOUCH_EN, 1)] {  : Panel }).domOn 91 = true) ∧
      ((wPn [(pnlB, F.PNL_TOUCH_TOUCH_EN, 1)] {  : Panel }).flag pnlB F.PNL_TOUCH_TOUCH_EN = true) ∧
      ((wPn [(pnlB, F.PNL_TOUCH_TOUCH_EN, 1)] {  : Panel }).pnl.bus = 0)) ∧
    (((wPn [] {  : Panel }).flag pnlB F.PNL_TOUCH_TOUCH_EN = false)) ∧
    (((wPn [(pnlB, F.PNL_TOUCH_TOUCH_EN, 1)] { bus := 2 : Panel }).domOn 91 = true) ∧
      ((wPn [(pnlB, F.PNL_TOUCH_TOUCH_EN, 1)] { bus := 2 : Panel }).flag pnlB F.PNL_TOUCH_TOUCH_EN = true) ∧
      ((wPn [(pnlB, F.PNL_TOUCH_TOUCH_EN, 1)] { bus := 2 : Panel }).pnl.bus = 2)) ∧
    (((wPn [] { bus := 1 : Panel }).pnl.bus = 1) ∧
      ((wPn [] { bus := 1 : Panel }).pnl.touchDue = false) ∧
      ((wPn [] { bus := 1 : Panel }).pnl.hostDue = false) ∧
      (false = false)) ∧
    (((wPn [] { bus := 1 : Panel }).pnl.bus = 1) ∧
      ((wPn [] { bus := 1 : Panel }).pnl.touchDue = false) ∧
      ((wPn [] { bus := 1 : Panel }).pnl.hostDue = false)) ∧
    ((wPn [] {  : Panel }).pnl.bus ≠ 1) ∧
    (((wPn [] {  : Panel }).domOn 91 = true) ∧
      ((wPn [] {  : Panel }).flag pnlB F.I2C_STATUS_BUSY = false) ∧
      32 ≤ 32 ∧
      32 ≤ 32 ∧
      ((wPn [] {  : Panel }).pnl.bus = 0) ∧
      ((wPn [] {  : Panel }).pnl.touchDue = false)) :=
  by decide +kernel

theorem wit_ViewsAndPanel_5 :
    (((wPn [] {  : Panel }).flag pnlB F.I2C_STATUS_BUSY = true ∨ 32 < 33 ∨ 32 < 0)) ∧
    (((wPn [(pnlB, F.I2C_CMD_RLEN, 2), (pnlB, F.I2C_STATUS_BUSY, 1)] { bus := 2 : Panel }).pnl.bus = 2)) ∧
    (((wPn [(pnlB, F.I2C_STATUS_BUSY, 1), (pnlB, F.PNL_TOUCH_TOUCH_EN, 1)] { bus := 2, touchDue := true : Panel }).pnl.bus = 2)) ∧
    ((wPn [] { bus := 1 : Panel }).pnl.bus ≠ 2) ∧
    ((Tab.rising wKey.pnl.keyCnt = true) ∧
      (wKey.domOn 91 = true)) ∧
    ((Tab.rising wKey.pnl.keyCnt = true) ∧
      (wKey.domOn 91 = true)) ∧
    (((wPn [(pnlB, F.BUZ_CFG_BUZ_REP, 3)] {  : Panel }).domOn 91 = true) ∧
      (wPn [(pnlB, F.BUZ_CFG_BUZ_REP, 3)] {  : Panel }).pnl.buzAt ≠ some (wPn [(pnlB, F.BUZ_CFG_BUZ_REP, 3)] {  : Panel }).now) ∧
    (((wPn [] { buz := 1, buzLeft := 3, buzAt := some wCmd.now : Panel }).domOn 91 = true) ∧
      ((wPn [] { buz := 1, buzLeft := 3, buzAt := some wCmd.now : Panel }).pnl.buzAt = some (wPn [] { buz := 1, buzLeft := 3, buzAt := some wCmd.now : Panel }).now)) :=
  by decide +kernel

theorem wit_ViewsAndPanel_6 :
    (((wPn [] { buz := 1, buzLeft := 3 : Panel }).pnl.buz = 1)) ∧
    (((wPn [] { buz := 2, buzLeft := 1 : Panel }).pnl.buz = 2) ∧
      ((wPn [] { buz := 2, buzLeft := 1 : Panel }).pnl.buzLeft = 1)) ∧
    (((wPn [] { buz := 2, buzLeft := 2 : Panel }).pnl.buz = 2) ∧
      (wPn [] { buz := 2, buzLeft := 2 : Panel }).pnl.buzLeft ≠ 1) ∧
    (((wPn [] {  : Panel }).pnl.buz = 0)) :=
  by decide +kernel

theorem wit_TriggersAuxAndFaults_1 :
    ((isProducer 246 = false)) ∧
    (((wY [(pwrB, F.DOM_ON_ON.nth 2, 0)] []).prodOn 237 = false)) ∧
    ((isProducer 245 = true) ∧
      ((wY [] []).prodOn 245 = true) ∧
      ((wY [] []).listeners 245 = [])) ∧
    ((isProducer 245 = true) ∧
      ((wY [(ycB 63, F.YC_PROD_MASK.nth 7, 1 <<< 21)] [(63, 65535)]).prodOn 245 = true) ∧
      ((wY [(ycB 63, F.YC_PROD_MASK.nth 7, 1 <<< 21)] [(63, 65535)]).listeners 245 = [63])) ∧
    ((isProducer 96 = true) ∧
      ((wY [(ycB 0, F.YC_PROD_MASK.nth 3, 1)] []).prodOn 96 = true) ∧
      ((wY [(ycB 0, F.YC_PROD_MASK.nth 3, 1)] []).listeners 96 = [0])) ∧
    (0 ≠ 5 ∧
      1 ≠ 5 ∧
      2 ≠ 5 ∧
      3 ≠ 5 ∧
      4 ≠ 5 ∧
      6 ≠ 5 ∧
      7 ≠ 5 ∧
      9 ≠ 5 ∧
      16 ≠ 5 ∧
      17 ≠ 5 ∧
      63 ≠ 5 ∧
      64 ≠ 5 ∧
      65 ≠ 5 ∧
      66 ≠ 5 ∧
      67 ≠ 5 ∧
      68 ≠ 5 ∧
      100 ≠ 5 ∧
      127 ≠ 5 ∧
      128 ≠ 5 ∧
      65535 ≠ 5 ∧
      65536 ≠ 5 ∧
      65537 ≠ 5 ∧
      131072 ≠ 5) ∧
    ((wCmd.domOn 95 = true) ∧
      (wCmd.mdivStatus 3 (4) = 0)) ∧
    ((wCmd.domOn 95 = false ∨ wCmd.mdivStatus 3 (3) ≠ 0)) :=
  by decide +kernel

theorem wit_TriggersAuxAndFaults_2 :
    (((wAx 0 {  } []).domOn 95 = true) ∧
      ((wAx 0 {  } []).auxRun 31 = false) ∧
      ((wAx 0 {  } []).auxStatus 31 = 0) ∧
      0 ≠ 31 ∧
      1 ≠ 31 ∧
      2 ≠ 31 ∧
      3 ≠ 31 ∧
      4 ≠ 31 ∧
      5 ≠ 31 ∧
      6 ≠ 31 ∧
      7 ≠ 31 ∧
      9 ≠ 31 ∧
      16 ≠ 31 ∧
      17 ≠ 31 ∧
      63 ≠ 31 ∧
      64 ≠ 31 ∧
      65 ≠ 31 ∧
      66 ≠ 31 ∧
      67 ≠ 31 ∧
      68 ≠ 31 ∧
      100 ≠ 31 ∧
      127 ≠ 31 ∧
      128 ≠ 31 ∧
      65535 ≠ 31 ∧
      65536 ≠ 31 ∧
      65537 ≠ 31 ∧
      131072 ≠ 31) ∧
    (((wAx 1 {  } []).auxRun 31 = true ∨ (wAx 1 {  } []).auxStatus 31 ≠ 0)) :=
  by decide +kernel

theorem wit_TriggersAuxAndFaults_3 :
    (((wAx 1 {  } []).auxRun 31 = true) ∧
      0 ≠ 31 ∧
      1 ≠ 31 ∧
      2 ≠ 31 ∧
      3 ≠ 31 ∧
      4 ≠ 31 ∧
      5 ≠ 31 ∧
      6 ≠ 31 ∧
      7 ≠ 31 ∧
      9 ≠ 31 ∧
      16 ≠ 31 ∧
      17 ≠ 31 ∧
      63 ≠ 31 ∧
      64 ≠ 31 ∧
      65 ≠ 31 ∧
      66 ≠ 31 ∧
      67 ≠ 31 ∧
      68 ≠ 31 ∧
      100 ≠ 31 ∧
      127 ≠ 31 ∧
      128 ≠ 31 ∧
      65535 ≠ 31 ∧
      65536 ≠ 31 ∧
      65537 ≠ 31 ∧
      131072 ≠ 31) ∧
    (((wAx 0 {  } []).auxRun 31 = false)) ∧
    (((wAx 0 {  } []).auxRun 31 = false)) ∧
    (((wAx 1 { integ := [5, 6, 7], comb := [0, 0, 0], cicPhase := 6 } [(auxG, mdivF 0, 4)]).clk 0 = true) ∧
      ((wAx 1 { integ := [5, 6, 7], comb := [0, 0, 0], cicPhase := 6 } [(auxG, mdivF 0, 4)]).domOn 95 = true) ∧
      ((wAx 1 { integ := [5, 6, 7], comb := [0, 0, 0], cicPhase := 6 } [(auxG, mdivF 0, 4)]).auxRun 31 = true) ∧
      ((wAx 1 { integ := [5, 6, 7], comb := [0, 0, 0], cicPhase := 6 } [(auxG, mdivF 0, 4)]).ax 31).cicPhase + 1 < (wAx 1 { integ := [5, 6, 7], comb := [0, 0, 0], cicPhase := 6 } [(auxG, mdivF 0, 4)]).getF (auxB 31) F.AUX_CTRL_CIC_R ∧
      (wAx 1 { integ := [5, 6, 7], comb := [0, 0, 0], cicPhase := 6 } [(auxG, mdivF 0, 4)]).getF auxG (mdivF ((wAx 1 { integ := [5, 6, 7], comb := [0, 0, 0], cicPhase := 6 } [(auxG, mdivF 0, 4)]).getF (auxB 31) F.AUX_CTRL_CLK_SEL)) ≠ 0) ∧
    (((wAx 1 { integ := [5, 6, 7], comb := [0, 0, 0], cicPhase := 6 } [(auxG, mdivF 0, 4), (auxB 31, F.AUX_CTRL_CLK_EDGE, 1)]).clk 0 = true) ∧
      ((wAx 1 { integ := [5, 6, 7], comb := [0, 0, 0], cicPhase := 6 } [(auxG, mdivF 0, 4), (auxB 31, F.AUX_CTRL_CLK_EDGE, 1)]).domOn 95 = true) ∧
      ((wAx 1 { integ := [5, 6, 7], comb := [0, 0, 0], cicPhase := 6 } [(auxG, mdivF 0, 4), (auxB 31, F.AUX_CTRL_CLK_EDGE, 1)]).auxRun 31 = true) ∧
      ((wAx 1 { integ := [5, 6, 7], comb := [0, 0, 0], cicPhase := 6 } [(auxG, mdivF 0, 4), (auxB 31, F.AUX_CTRL_CLK_EDGE, 1)]).ax 31).cicPhase + 1 < (wAx 1 { integ := [5, 6, 7], comb := [0, 0, 0], cicPhase := 6 } [(auxG, mdivF 0, 4), (auxB 31, F.AUX_CTRL_CLK_EDGE, 1)]).getF (auxB 31) F.AUX_CTRL_CIC_R ∧
      (wAx 1 { integ := [5, 6, 7], comb := [0, 0, 0], cicPhase := 6 } [(auxG, mdivF 0, 4), (auxB 31, F.AUX_CTRL_CLK_EDGE, 1)]).getF auxG (mdivF ((wAx 1 { integ := [5, 6, 7], comb := [0, 0, 0], cicPhase := 6 } [(auxG, mdivF 0, 4), (auxB 31, F.AUX_CTRL_CLK_EDGE, 1)]).getF (auxB 31) F.AUX_CTRL_CLK_SEL)) ≠ 0) ∧
    (((wAx 1 { integ := [5, 6, 7], comb := [0, 0, 0], cicPhase := 6 } [(auxG, mdivF 0, 0)]).getF auxG (mdivF ((wAx 1 { integ := [5, 6, 7], comb := [0, 0, 0], cicPhase := 6 } [(auxG, mdivF 0, 0)]).getF (auxB 31) F.AUX_CTRL_CLK_SEL)) = 0)) ∧
    ((({ wAx 1 { integ := [5, 6, 7], comb := [0, 0, 0], cicPhase := 6 } [(auxG, mdivF 0, 4)] with gated := 1 : State }).clk 0 = false)) :=
  by decide +kernel

theorem wit_TriggersAuxAndFaults_4 :
    (((wAx 1 { integ := [5, 6, 7], comb := [0, 0, 0], cicPhase := 6, firPhase := 1, syncWait := true } []).auxRun 31 = true) ∧
      (((wAx 1 { integ := [5, 6, 7], comb := [0, 0, 0], cicPhase := 6, firPhase := 1, syncWait := true } []).ax 31).syncWait = true)) ∧
    ((Instr.auxSyncWrite = Instr.auxSyncWrite ∨ Instr.auxSyncWrite = Instr.auxsyncEdge) ∧
      ((wAx 1 {  } []).domOn 95 = true)) ∧
    ((Instr.auxsyncEdge = Instr.auxSyncWrite ∨ Instr.auxsyncEdge = Instr.auxsyncEdge) ∧
      ((wAx 1 {  } []).domOn 95 = true)) ∧
    ((Instr.auxSyncWrite = Instr.auxSyncWrite ∨ Instr.auxSyncWrite = Instr.auxsyncEdge) ∧
      ((wSet wCmd [(pwrB, F.DOM_ON_ON.nth 2, 2 ^ 31 - 1)]).domOn 95 = false) ∧
      (Instr.auxSyncWrite = Instr.auxSyncWrite)) ∧
    ((7 = 127 / 16) ∧
      ((wSet wCmd [(fmB, F.FM_CTRL_AUTO_SPARE, 1)]).outOfService 127 = false) ∧
      ((wSet wCmd [(fmB, F.FM_CTRL_AUTO_SPARE, 1)]).flag fmB F.FM_CTRL_AUTO_SPARE = true) ∧
      ((wSet wCmd [(fmB, F.FM_CTRL_AUTO_SPARE, 1)]).spareFree 7 = true)) ∧
    ((7 = 127 / 16) ∧
      (((wSet wCmd [(fmB, F.FM_CTRL_AUTO_SPARE, 0)]).setCh 127 { next := 9 : Chan }).outOfService 127 = false) ∧
      (((wSet wCmd [(fmB, F.FM_CTRL_AUTO_SPARE, 0)]).setCh 127 { next := 9 : Chan }).flag fmB F.FM_CTRL_AUTO_SPARE = false ∨ ((wSet wCmd [(fmB, F.FM_CTRL_AUTO_SPARE, 0)]).setCh 127 { next := 9 : Chan }).spareFree 7 = false) ∧
      0 ≠ 127 ∧
      1 ≠ 127 ∧
      2 ≠ 127 ∧
      3 ≠ 127 ∧
      4 ≠ 127 ∧
      5 ≠ 127 ∧
      6 ≠ 127 ∧
      7 ≠ 127 ∧
      9 ≠ 127 ∧
      16 ≠ 127 ∧
      17 ≠ 127 ∧
      63 ≠ 127 ∧
      64 ≠ 127 ∧
      65 ≠ 127 ∧
      66 ≠ 127 ∧
      67 ≠ 127 ∧
      68 ≠ 127 ∧
      100 ≠ 127 ∧
      128 ≠ 127 ∧
      65535 ≠ 127 ∧
      65536 ≠ 127 ∧
      65537 ≠ 127 ∧
      131072 ≠ 127) :=
  by decide +kernel

theorem wit_TriggersAuxAndFaults_5 :
    ((List.find? (fun x => x / 16 == 7) ({ wCmd.setCh 126 { next := 9 } with spareDue := [3, 126] : State }).spareDue = some 126) ∧
      (({ wCmd.setCh 126 { next := 9 } with spareDue := [3, 126] : State }).getF (spareB 7) F.SPARE_STATUS_STATE = 0)) ∧
    ((List.find? (fun x => x / 16 == 7) ({ wCmd with spareDue := [3] : State }).spareDue = none)) ∧
    ((wRs.held = []) ∧
      (wRs.live = [])) ∧
    ((wRs.held = []) ∧
      (wRs.live = [])) :=
  by decide +kernel


end W11

/-! ### Further witnesses: a late write, and the frames of every command -/

/-- The further hypothesis of the late write of `W2.wFlyW` (StampedInputs): the boundary behind its stamp has not come. -/
theorem wit_Stamp_4_boundary : ∀ o, ((W2.wFlyW 5).g 3).openC = some o → Int.ofNat o ≤ max 5 (6 - 1) := by
  intro o h
  cases (show some 5 = some o from h)
  decide

theorem wit_CommandFrame : ∃ t, exec .pornFall wDev = .next t := ⟨_, rfl⟩

theorem wit_CommandParts :
    Instr.mayChange (.timeAdjWrite 3 4) .mem = false ∧ ∃ t, exec (.timeAdjWrite 3 4) wDev = .next t :=
  ⟨by decide, _, rfl⟩

theorem wit_CommandRegisters :
    Instr.regKeys .timeAdjEnd = some [] ∧ ∃ t, exec .timeAdjEnd wDev = .next t :=
  ⟨by decide, _, rfl⟩

end

end Sys2Proof.Tests
end

/-!
The state right after reset. Each part of the statement about reset is a law of every state whose tables list nothing, so that
it serves the states that PORN low leaves (R415) as well.
-/

namespace Sys2Proof.Machine

section Untouched

variable {s : State}

/-- A field that neither the register file nor the active bank lists reads as its Reset column. -/
theorem getF_eq_rst (hregs : s.regs = []) (hact : s.act = []) (b : Nat) (f : Fld) : s.getF b f = f.rst := by
  simp [State.getF, hregs, hact]

/-- A field that neither the register file nor the shadow bank lists reads as its Reset column in the shadow bank. -/
theorem getSh_eq_rst (hregs : s.regs = []) (hshd : s.shd = []) (b : Nat) (f : Fld) : s.getSh b f = f.rst := by
  simp [State.getSh, hregs, hshd]

@[simp] theorem memGet_nil (a : Nat) : memGet [] a = 0 := Tab.get_nil 0 a

/-- A group that the table of groups does not list is stopped. -/
theorem running_eq_false_of_grp_nil (hgrp : s.grp = []) (g : Nat) : s.running g = false := by
  simp [State.running, State.g, hgrp]

/-- The command port is closed before cast-on has come to its last step. -/
theorem portOpen_eq_false_of_step_ne (hstep : s.boot.step ≠ 10) : s.portOpen = false := by
  simp [State.portOpen, hstep]

/-- With the banks on and HIGHZ not loaded, a pin that nothing drives is at its reset level (R705). -/
theorem pinAt_eq_resetLevel (hbanks : s.banksOff = false) (hjtag : s.jtag ≠ 0x12) (hpins : s.pins = []) (p : Pin) :
    s.pinAt p = p.resetLevel := by
  simp [State.pinAt, hbanks, hjtag, hpins]

/-- Where memory and the register file list nothing, the canonical form is that of the flash alone. -/
theorem canon_iff_flash_wf (hmem : s.mem = []) (hregs : s.regs = []) (hact : s.act = []) (hshd : s.shd = []) :
    s.canon = true ↔ Flash.wf s.flash = true := by
  simp [State.canon_iff, hmem, hregs, hact, hshd, Memory.wf, Tab.rising]

end Untouched

end Sys2Proof.Machine

namespace Sys2Proof.Proofs

open Sys2Proof.Machine

/-- Settles O2: `State.reset` lists nothing in any table, so every read falls to its default. -/
theorem resetState : Obligations.ResetState := by
  unfold Obligations.ResetState
  have fields (b : Nat) (f : Fld) : State.reset.getF b f = f.rst ∧ State.reset.getSh b f = f.rst :=
    ⟨getF_eq_rst rfl rfl b f, getSh_eq_rst rfl rfl b f⟩
  have portClosed : State.reset.portOpen = false := portOpen_eq_false_of_step_ne (by decide)
  have pinsAtRest (p : Pin) : State.reset.pinAt p = p.resetLevel := pinAt_eq_resetLevel rfl (by decide) rfl p
  have canonical : State.reset.canon = true := (canon_iff_flash_wf rfl rfl rfl rfl).2 rfl
  exact ⟨fields, memGet_nil, rfl, running_eq_false_of_grp_nil rfl, rfl, rfl, rfl, portClosed, pinsAtRest, canonical⟩

end Sys2Proof.Proofs

/-! # The frame of every command, part by part (O5)

One frame lemma per operation of the model: `same_<op>` says that a part `p` of the state is the same after the operation as
before it, whenever `p` is none of the parts that the operation writes; `kept_exec<Row>` says it of a row. The lemmas are
equivalences that `simp` rewrites with, so the frame of an operation follows from those of the operations that it is made of.
The order is that of the model's files. -/

namespace Sys2Proof.Machine

section Frame

variable {p : Part} {s0 s t : State}

/-! ## What the larger operations write

Each list is tied to the model by the frame lemmas of the operations that its comment names, which take `p ∉` the list as their
premise. -/

/-- What `State.disarm` writes. -/
@[simp] def Footprint.disarm : List Part :=
  [.arrived, .chan, .grp, .held, .lane, .lbGone, .lbNext, .live, .mem, .oldL, .segG, .view, .viewOld]

/-- What the stop of a group writes (`State.groupStop`). -/
@[simp] def Footprint.stop : List Part := .devView :: Footprint.disarm

/-- What the end of a group writes (`State.endGroup`). -/
@[simp] def Footprint.ending : List Part := .tal :: Footprint.disarm

/-- What the trigger of a course writes (`State.trigger`). -/
@[simp] def Footprint.trigger : List Part :=
  [.arrived, .chan, .copying, .csw, .grp, .held, .hist, .lane, .live, .mem, .oldL, .pnl, .seam, .segG, .shd, .sync]

/-- What motion writes (`State.posMove`): courses, comparators and the tag head follow it. -/
@[simp] def Footprint.motion : List Part := Footprint.trigger ++ [.cmp, .pos, .tag]

/-- What a course of a re-run writes (`State.rerunIssue`). -/
@[simp] def Footprint.rerun : List Part := Footprint.trigger ++ [.devView, .lbGone, .lbNext, .view, .viewOld]

/-- What switching a domain writes in its units (`State.domainOff`, `State.domainOn`). -/
@[simp] def Footprint.domain : List Part :=
  [.aux, .cass, .chan, .cmp, .dpBuf, .dpMon, .dpRow, .hank, .lane, .lbGone, .lbNext, .mclkAt, .mem, .retrain, .seam,
    .shd, .stopped, .tag, .view, .viewOld]

/-- What switching a domain off on command writes (`State.powerOff`). -/
@[simp] def Footprint.powerOff : List Part := Footprint.domain ++ [.arrived, .grp, .held, .live, .oldL, .segG, .tal]

/-- What the start of a group writes (`State.groupStart`). -/
@[simp] def Footprint.start : List Part :=
  [.arrived, .chan, .csw, .flight, .grp, .hist, .lane, .lbGone, .lbNext, .live, .mem, .oldL, .rezero, .seam, .seamG,
    .segG, .sync, .tal, .view, .viewOld]

/-- What the actions of written fields write (`State.actItem`). -/
@[simp] def Footprint.act : List Part :=
  [.aux, .boot, .cass, .chan, .cmp, .dup, .flash, .flight, .hank, .lane, .localT, .mclkAt, .mem, .pnl, .pos, .ptp,
    .segG, .spareDue, .tag, .time, .view, .viewOld]

/-- What an immediate write of fields writes (`State.writeNow`). -/
@[simp] def Footprint.write : List Part := Footprint.act ++ [.oldL, .shd]

/-- What a request to write fields writes (`State.writeReq`). -/
@[simp] def Footprint.request : List Part := .accepts :: Footprint.write

/-- What the resets of units write (`State.resetRegion` and below). -/
@[simp] def Footprint.reset : List Part :=
  [.boot, .chan, .csw, .hank, .lane, .mem, .pnl, .retrain, .seam, .shd, .spareDue, .stopped, .tal]

/-- What the image of a group in a bundle writes (`State.loadGroup`). -/
@[simp] def Footprint.bundle : List Part :=
  [.chan, .csw, .grp, .hist, .lane, .mem, .oldL, .seam, .seamG, .segG, .shd, .tal]

/-- What the load of a bundle writes (`execRerunLoaded`). -/
@[simp] def Footprint.reload : List Part := Footprint.bundle ++ [.arrived, .devView, .held, .lbGone, .lbNext, .live, .view, .viewOld]

/-- What the commands below 0x0400 write (`State.runOpLow`). -/
@[simp] def Footprint.lowOps : List Part := Footprint.start ++ [.copying, .devView, .held] ++ Footprint.request

/-! ## The relation, the updates of the state and the loops -/

@[simp] theorem same_refl (p : Part) (s : State) : p.same s s := by cases p <;> rfl

theorem Part.same.trans {a b c : State} (h : p.same a b) (h' : p.same b c) :
    p.same a c := by cases p <;> exact Eq.trans h' h

theorem Part.same.symm {a b : State} (h : p.same a b) : p.same b a := by cases p <;> exact Eq.symm h

/-- The form in which a frame is used: what leaves the part alone can be dropped from the right of `p.same s0`. -/
theorem Part.same.iff (h : p.same s t) : p.same s0 t ↔ p.same s0 s := ⟨fun k => k.trans h.symm, fun k => k.trans h⟩

/-- An update of fields leaves a part alone whose own field, if it is one of those updated, keeps its value. -/
@[simp] theorem same_mk
    {regs act shd mem flash out freeCtr pos grp flight arrived live held devView sync copying accepts wakeFrom
    localT time ptp lane chan seam seamG segG tal tallyLast csw hist oldL sess rings resv subs ctxCache binds
    ringWait starved dma memQ hank memBad dram retrain cmp rezero tag cass cassKey aux mclkAt yarn pnl dpMon view
    viewOld lbNext lbGone dpRow dpBuf rep stopped spareDue net boot fuses power jtag pins banksOff gated degShown
    annKey keys dup}
    (_ : p = .shd → shd = s.shd) (_ : p = .mem → mem = s.mem) (_ : p = .flash → flash = s.flash)
    (_ : p = .pos → pos = s.pos) (_ : p = .grp → grp = s.grp) (_ : p = .flight → flight = s.flight)
    (_ : p = .arrived → arrived = s.arrived) (_ : p = .live → live = s.live) (_ : p = .held → held = s.held)
    (_ : p = .devView → devView = s.devView) (_ : p = .sync → sync = s.sync) (_ : p = .copying → copying = s.copying)
    (_ : p = .accepts → accepts = s.accepts) (_ : p = .wakeFrom → wakeFrom = s.wakeFrom)
    (_ : p = .localT → localT = s.localT) (_ : p = .time → time = s.time) (_ : p = .ptp → ptp = s.ptp)
    (_ : p = .lane → lane = s.lane) (_ : p = .chan → chan = s.chan) (_ : p = .seam → seam = s.seam)
    (_ : p = .seamG → seamG = s.seamG) (_ : p = .segG → segG = s.segG) (_ : p = .tal → tal = s.tal)
    (_ : p = .tallyLast → tallyLast = s.tallyLast) (_ : p = .csw → csw = s.csw) (_ : p = .hist → hist = s.hist)
    (_ : p = .oldL → oldL = s.oldL) (_ : p = .dma → dma = s.dma) (_ : p = .hank → hank = s.hank)
    (_ : p = .retrain → retrain = s.retrain) (_ : p = .cmp → cmp = s.cmp) (_ : p = .rezero → rezero = s.rezero)
    (_ : p = .tag → tag = s.tag) (_ : p = .cass → cass = s.cass) (_ : p = .cassKey → cassKey = s.cassKey)
    (_ : p = .aux → aux = s.aux) (_ : p = .mclkAt → mclkAt = s.mclkAt) (_ : p = .pnl → pnl = s.pnl)
    (_ : p = .dpMon → dpMon = s.dpMon) (_ : p = .view → view = s.view) (_ : p = .viewOld → viewOld = s.viewOld)
    (_ : p = .lbNext → lbNext = s.lbNext) (_ : p = .lbGone → lbGone = s.lbGone) (_ : p = .dpRow → dpRow = s.dpRow)
    (_ : p = .dpBuf → dpBuf = s.dpBuf) (_ : p = .stopped → stopped = s.stopped)
    (_ : p = .spareDue → spareDue = s.spareDue) (_ : p = .boot → boot = s.boot) (_ : p = .fuses → fuses = s.fuses)
    (_ : p = .power → power = s.power) (_ : p = .jtag → jtag = s.jtag) (_ : p = .banksOff → banksOff = s.banksOff)
    (_ : p = .gated → gated = s.gated) (_ : p = .degShown → degShown = s.degShown)
    (_ : p = .annKey → annKey = s.annKey) (_ : p = .keys → keys = s.keys) (_ : p = .dup → dup = s.dup) :
    p.same s0
    ⟨s.now, regs, act, shd, mem, flash, out, freeCtr, pos, grp, flight, arrived, live, held, devView, sync, copying,
    accepts, wakeFrom, localT, time, ptp, lane, chan, seam, seamG, segG, tal, tallyLast, csw, hist, oldL, sess,
    rings, resv, subs, ctxCache, binds, ringWait, starved, dma, memQ, hank, memBad, dram, retrain, cmp, rezero, tag,
    cass, cassKey, aux, mclkAt, yarn, pnl, dpMon, view, viewOld, lbNext, lbGone, dpRow, dpBuf, rep, stopped,
    spareDue, net, boot, fuses, power, jtag, pins, banksOff, gated, degShown, annKey, keys, dup, s.pending⟩ ↔
    p.same s0 s := by
  cases p <;> simp only [Part.same, *]

@[simp] theorem same_ite {c : Prop} [Decidable c] {a b : State} : p.same s0 (if c then a else b) ↔
    if c then p.same s0 a else p.same s0 b := by split <;> rfl

@[simp] theorem same_ite_fst {α : Type} {c : Prop} [Decidable c] {a b : State × α} :
    p.same s0 (if c then a else b).1 ↔ if c then p.same s0 a.1 else p.same s0 b.1 := by split <;> rfl

theorem foldl_same {α : Type} {f : State → α → State} (l : List α) (hf : ∀ t x, p.same t (f t x)) (s : State) :
    p.same s (l.foldl f s) := by
  induction l generalizing s with
  | nil => exact same_refl p s
  | cons x l ih => exact (hf s x).trans (ih (f s x))

theorem foldl_fst_same {α β : Type} {f : State × β → α → State × β} (l : List α) (hf : ∀ q x, p.same q.1 (f q x).1)
    (q : State × β) : p.same q.1 (l.foldl f q).1 := by
  induction l generalizing q with
  | nil => exact same_refl p q.1
  | cons x l ih => exact (hf q x).trans (ih (f q x))

@[simp] theorem same_foldl_fst {α β : Type} {f : State × β → α → State × β} (l : List α)
    (hf : ∀ q x, p.same q.1 (f q x).1) (q : State × β) : p.same s0 (l.foldl f q).1 ↔
    p.same s0 q.1 := (foldl_fst_same l hf q).iff

@[simp] theorem same_forL {α : Type} {f : α → State → State} (l : List α) (hf : ∀ x t, p.same t (f x t)) :
    p.same s0 (forL l f s) ↔ p.same s0 s := (foldl_same l (fun t x => hf x t) s).iff

@[simp] theorem same_forN {f : Nat → State → State} (n : Nat) (hf : ∀ x t, p.same t (f x t)) : p.same s0 (forN n f s)
    ↔ p.same s0 s := same_forL _ hf

@[simp] theorem setF_shd (s : State) (b : Nat) (f : Fld) (v : Nat) : (s.setF b f v).shd = s.shd := by
  unfold State.setF; split <;> rfl

/-- A row completes, and leaves the part alone. -/
def Part.kept (p : Part) (s : State) (o : Host.Outcome State Fault Refusal) : Prop := ∃ t, o = .next t ∧ p.same s t

@[simp] theorem kept_next : p.kept s (.next t) ↔ p.same s t := by simp [Part.kept]

@[simp] theorem kept_ite {c : Prop} [Decidable c] {a b : Host.Outcome State Fault Refusal} :
    p.kept s (if c then a else b) ↔ if c then p.kept s a else p.kept s b := by split <;> rfl

/-! ## The operations of `Sys2Proof/Machine/Ops.lean` -/

@[simp] theorem same_setF (b f v) : p.same s0 (s.setF b f v) ↔ p.same s0 s := by
  simp [State.setF]

@[simp] theorem same_setSh (b f v) (hp : p ≠ .shd) : p.same s0 (s.setSh b f v) ↔ p.same s0 s := by
  simp [State.setSh, hp]

@[simp] theorem same_setI (b f v) : p.same s0 (s.setI b f v) ↔ p.same s0 s := by
  simp [State.setI]

@[simp] theorem same_incF (b f n) : p.same s0 (s.incF b f n) ↔ p.same s0 s := by
  simp [State.incF]

@[simp] theorem same_satF (b f n) : p.same s0 (s.satF b f n) ↔ p.same s0 s := by
  simp [State.satF]

/-! ## The operations of `Sys2Proof/Machine/Flags.lean` -/

@[simp] theorem same_setDom (d on) : p.same s0 (s.setDom d on) ↔ p.same s0 s := by
  simp [State.setDom]

@[simp] theorem same_fire (n) : p.same s0 (s.fire n) ↔ p.same s0 s := by
  simp [State.fire]

@[simp] theorem same_raise (b f prod) : p.same s0 (s.raise b f prod) ↔ p.same s0 s := by
  simp [State.raise]

@[simp] theorem same_mark (b f) : p.same s0 (s.mark b f) ↔ p.same s0 s := by
  simp [State.mark]

@[simp] theorem same_setG (g r) (hp : p ≠ .grp) : p.same s0 (s.setG g r) ↔ p.same s0 s := by
  simp [State.setG, hp]

@[simp] theorem same_clkShow : p.same s0 s.clkShow ↔ p.same s0 s := by
  simp [State.clkShow]

@[simp] theorem same_emit (o) : p.same s0 (s.emit o) ↔ p.same s0 s := by
  simp [State.emit]

@[simp] theorem same_emits (l) : p.same s0 (s.emits l) ↔ p.same s0 s := by
  simp [State.emits]

@[simp] theorem same_pinsRest (which) : p.same s0 (s.pinsRest which) ↔ p.same s0 s := by
  simp [State.pinsRest]

@[simp] theorem same_tickFree : p.same s0 s.tickFree ↔ p.same s0 s := by
  simp [State.tickFree]

/-! ## The operations of `Sys2Proof/Machine/Faults.lean` -/

@[simp] theorem same_pokes (a bs) (hp : p ≠ .mem) : p.same s0 (s.pokes a bs) ↔ p.same s0 s := by
  simp [State.pokes, hp]

@[simp] theorem same_finishOp (op sel status params) : p.same s0 (s.finishOp op sel status params) ↔ p.same s0 s := by
  simp [State.finishOp]

@[simp] theorem same_freezeInst : p.same s0 s.freezeInst ↔ p.same s0 s := by
  simp [State.freezeInst]

@[simp] theorem same_freezeTrigger : p.same s0 s.freezeTrigger ↔ p.same s0 s := by
  simp [State.freezeTrigger]

@[simp] theorem same_logAs (code sev level unit grp payload) (hp : p ≠ .mem) :
    p.same s0 (s.logAs code sev level unit grp payload) ↔ p.same s0 s := by
  simp [State.logAs, hp]

@[simp] theorem same_log (code unit grp payload) (hp : p ≠ .mem) :
    p.same s0 (s.log code unit grp payload) ↔ p.same s0 s := by
  simp [State.log, hp]

@[simp] theorem same_logReg (code unit grp addr) (hp : p ≠ .mem) :
    p.same s0 (s.logReg code unit grp addr) ↔ p.same s0 s := by
  simp [State.logReg, hp]

/-! ## The operations of `Sys2Proof/Machine/Memory.lean` -/

@[simp] theorem same_setBad (a n) : p.same s0 (s.setBad a n) ↔ p.same s0 s := by
  simp [State.setBad]

@[simp] theorem same_setDr (d x) : p.same s0 (s.setDr d x) ↔ p.same s0 s := by
  simp [State.setDr]

@[simp] theorem same_memDown (d) (hp : p ≠ .mem) : p.same s0 (s.memDown d) ↔ p.same s0 s := by
  simp [State.memDown, hp]

@[simp] theorem same_ueNote (d) (hp : p ≠ .mem) : p.same s0 (s.ueNote d) ↔ p.same s0 s := by
  simp [State.ueNote, hp]

@[simp] theorem same_xfer (d) (hp : p ≠ .mem) : p.same s0 (s.xfer d).1 ↔ p.same s0 s := by
  simp [State.xfer, hp]

@[simp] theorem same_ueEvent (a kind cls unit mirror) (hp : p ≠ .mem) :
    p.same s0 (s.ueEvent a kind cls unit mirror) ↔ p.same s0 s := by
  simp [State.ueEvent, hp]

@[simp] theorem same_ceEvent (d a) : p.same s0 (s.ceEvent d a) ↔ p.same s0 s := by
  simp [State.ceEvent]

@[simp] theorem same_drain (a) : p.same s0 (s.drain a) ↔ p.same s0 s := by
  simp [State.drain]

@[simp] theorem same_readOne (kind a) (hp : p ≠ .mem) : p.same s0 (s.readOne kind a).1 ↔ p.same s0 s := by
  simp [State.readOne, hp]

@[simp] theorem same_readBlock (kind cls unit a) (hp : p ≠ .mem) :
    p.same s0 (s.readBlock kind cls unit a).1 ↔ p.same s0 s := by
  unfold State.readBlock
  dsimp only
  repeat' split
  all_goals simp [hp]

@[simp] theorem same_readBlocks (kind cls unit l) (hp : p ≠ .mem) :
    p.same s0 (s.readBlocks kind cls unit l).1 ↔ p.same s0 s := by
  induction l generalizing s with
  | nil => simp [State.readBlocks]
  | cons b bs ih => simp [State.readBlocks, ih, hp]

@[simp] theorem same_memRead (cls unit a n) (hp : p ≠ .mem) : p.same s0 (s.memRead cls unit a n).1 ↔ p.same s0 s := by
  unfold State.memRead
  split <;> simp [hp]

@[simp] theorem same_readFree (cls unit a n) (hp : p ≠ .mem) :
    p.same s0 (s.readFree cls unit a n).1 ↔ p.same s0 s := by
  unfold State.readFree
  dsimp only
  split <;> simp [hp]

@[simp] theorem same_xferBlocks (cls unit l) (hp : p ≠ .mem) : p.same s0 (s.xferBlocks cls unit l).1 ↔ p.same s0 s := by
  induction l generalizing s with
  | nil => simp [State.xferBlocks]
  | cons b bs ih => simp [State.xferBlocks, ih, hp]

@[simp] theorem same_putRange (a bs) (hp : p ≠ .mem) : p.same s0 (s.putRange a bs) ↔ p.same s0 s := by
  simp [State.putRange, hp]

@[simp] theorem same_memWrite (cls unit a bs) (hp : p ≠ .mem) :
    p.same s0 (s.memWrite cls unit a bs).1 ↔ p.same s0 s := by
  unfold State.memWrite
  split
  · simp
  · simp [hp]
    split <;> simp [hp]

/-! ## The operations of `Sys2Proof/Machine/Net.lean` -/

@[simp] theorem same_toPort (port prio o) : p.same s0 (s.toPort port prio o) ↔ p.same s0 s := by
  simp [State.toPort]

@[simp] theorem same_txOne (port) : p.same s0 (s.txOne port) ↔ p.same s0 s := by
  simp [State.txOne]
  split <;> simp

@[simp] theorem same_transmit : p.same s0 s.transmit ↔ p.same s0 s := by
  simp [State.transmit]

@[simp] theorem same_transmitAll : p.same s0 s.transmitAll ↔ p.same s0 s := by
  simp [State.transmitAll]

@[simp] theorem same_txDrop (port) : p.same s0 (s.txDrop port) ↔ p.same s0 s := by
  simp [State.txDrop]

@[simp] theorem same_sendOn (port prio o) : p.same s0 (s.sendOn port prio o) ↔ p.same s0 s := by
  simp [State.sendOn]

@[simp] theorem same_solicit (port hop) : p.same s0 (s.solicit port hop) ↔ p.same s0 s := by
  simp [State.solicit]

@[simp] theorem same_sendIp (port prio dst bytes) : p.same s0 (s.sendIp port prio dst bytes) ↔ p.same s0 s := by
  simp [State.sendIp]
  split <;> simp

@[simp] theorem same_sendUdp (port addr dport sport pcpF payload) :
    p.same s0 (s.sendUdp port addr dport sport pcpF payload) ↔ p.same s0 s := by
  simp [State.sendUdp]

@[simp] theorem same_sendWaited (mac w) : p.same s0 (s.sendWaited mac w) ↔ p.same s0 s := by
  simp [State.sendWaited]

@[simp] theorem same_learn (addr mac) : p.same s0 (s.learn addr mac) ↔ p.same s0 s := by
  simp [State.learn]

/-! ## The operations of `Sys2Proof/Machine/Rings.lean` -/

@[simp] theorem same_hkCount (k blocks inN outN) : p.same s0 (s.hkCount k blocks inN outN) ↔ p.same s0 s := by
  simp [State.hkCount]

@[simp] theorem same_hkFail (k) : p.same s0 (s.hkFail k) ↔ p.same s0 s := by
  simp [State.hkFail]

@[simp] theorem same_hkUnpack (k block) : p.same s0 (s.hkUnpack k block).1 ↔ p.same s0 s := by
  unfold State.hkUnpack
  split <;> simp

@[simp] theorem same_setRing (id c) (hp : p ≠ .mem) : p.same s0 (s.setRing id c) ↔ p.same s0 s := by
  simp [State.setRing, hp]

@[simp] theorem same_loadCtx (id) (hp : p ≠ .mem) : p.same s0 (s.loadCtx id) ↔ p.same s0 s := by
  unfold State.loadCtx
  dsimp only
  split <;> simp [hp]

@[simp] theorem same_touchRing (id) (hp : p ≠ .mem) : p.same s0 (s.touchRing id) ↔ p.same s0 s := by
  simp [State.touchRing, hp]

@[simp] theorem same_ringUse (id) (hp : p ≠ .mem) : p.same s0 (s.ringUse id) ↔ p.same s0 s := by
  simp [State.ringUse, hp]

@[simp] theorem same_rebind (id) (hp : p ≠ .mem) : p.same s0 (s.rebind id) ↔ p.same s0 s := by
  simp [State.rebind, hp]

@[simp] theorem same_bind (id binder writes) (hp : p ≠ .mem) : p.same s0 (s.bind id binder writes) ↔ p.same s0 s := by
  simp [State.bind, hp]

@[simp] theorem same_unbind (binder) (hp : p ≠ .mem) : p.same s0 (s.unbind binder) ↔ p.same s0 s := by
  simp [State.unbind, hp]

@[simp] theorem same_streamRead (unit id first n) (hp : p ≠ .mem) :
    p.same s0 (s.streamRead unit id first n).1 ↔ p.same s0 s := by
  induction n generalizing s first with
  | zero => simp [State.streamRead]
  | succ n ih => simp [State.streamRead, ih, hp]

@[simp] theorem same_sendStream (k n) (hp : p ≠ .mem) : p.same s0 (s.sendStream k n) ↔ p.same s0 s := by
  unfold State.sendStream
  split
  · simp
  · split <;> simp [↓same_mk, hp]

@[simp] theorem same_streamOne (k) (hp : p ≠ .mem) : p.same s0 (s.streamOne k) ↔ p.same s0 s := by
  unfold State.streamOne
  split <;> simp [hp]

@[simp] theorem same_streamServe (ks) (hp : p ≠ .mem) : p.same s0 (s.streamServe ks) ↔ p.same s0 s := by
  simp only [State.streamServe]
  exact same_forN _ fun _ t => by simp [hp]

@[simp] theorem same_streamKick (id) (hp : p ≠ .mem) : p.same s0 (s.streamKick id) ↔ p.same s0 s := by
  unfold State.streamKick
  refine (same_streamServe _ hp).trans (same_forL _ fun k t => ?_)
  split <;> simp

@[simp] theorem same_advance (id) (hp : p ≠ .mem) : p.same s0 (s.advance id) ↔ p.same s0 s := by
  simp [State.advance, hp]

@[simp] theorem same_writeEntries (id first item n) (hp : p ≠ .mem) :
    p.same s0 (s.writeEntries id first item n) ↔ p.same s0 s := by
  induction n generalizing s first item with
  | zero => simp [State.writeEntries]
  | succ n ih => simp [State.writeEntries, ih, hp]

@[simp] theorem same_ringDrop (id) (hp : p ≠ .mem) : p.same s0 (s.ringDrop id) ↔ p.same s0 s := by
  simp [State.ringDrop, hp]

@[simp] theorem same_ringWrite (id item) (hp : p ≠ .mem) : p.same s0 (s.ringWrite id item) ↔ p.same s0 s := by
  simp [State.ringWrite, hp]

@[simp] theorem same_ringPush (id item) (hp : p ≠ .mem) : p.same s0 (s.ringPush id item).1 ↔ p.same s0 s := by
  simp [State.ringPush, hp]

@[simp] theorem same_ringStarve (id) : p.same s0 (s.ringStarve id) ↔ p.same s0 s := by
  simp [State.ringStarve]

@[simp] theorem same_addSub (k id who key) (hp : p ≠ .mem) : p.same s0 (s.addSub k id who key) ↔ p.same s0 s := by
  simp [State.addSub, hp]

@[simp] theorem same_grantOne (w) : p.same s0 (s.grantOne w) ↔ p.same s0 s := by
  simp [State.grantOne]

@[simp] theorem same_grant (id) : p.same s0 (s.grant id) ↔ p.same s0 s := by
  simp [State.grant]

@[simp] theorem same_dropSub (k) (hp : p ≠ .mem) : p.same s0 (s.dropSub k) ↔ p.same s0 s := by
  unfold State.dropSub
  split <;> simp [hp]

@[simp] theorem same_moveSub (k n) : p.same s0 (s.moveSub k n) ↔ p.same s0 s := by
  unfold State.moveSub
  split <;> simp

@[simp] theorem same_take (id b n) : p.same s0 (s.take id b n) ↔ p.same s0 s := by
  unfold State.take
  split <;> simp

@[simp] theorem same_readEntry (id b off unit) (hp : p ≠ .mem) :
    p.same s0 (s.readEntry id b off unit).1 ↔ p.same s0 s := by
  simp [State.readEntry, hp]

@[simp] theorem same_consIrq (id) : p.same s0 (s.consIrq id) ↔ p.same s0 s := by
  simp [State.consIrq]

@[simp] theorem same_subBlock (id b) (hp : p ≠ .mem) : p.same s0 (s.subBlock id b) ↔ p.same s0 s := by
  unfold State.subBlock
  split
  · rfl
  · split
    · simp [hp]
    · rfl

@[simp] theorem same_unsubAll (b) (hp : p ≠ .mem) : p.same s0 (s.unsubAll b) ↔ p.same s0 s := by
  simp [State.unsubAll, hp]

@[simp] theorem same_unsubBlock (id b) (hp : p ≠ .mem) : p.same s0 (s.unsubBlock id b) ↔ p.same s0 s := by
  unfold State.unsubBlock
  split <;> simp [hp]

@[simp] theorem same_reserve (id n waits) (hp : p ≠ .mem) : p.same s0 (s.reserve id n waits) ↔ p.same s0 s := by
  simp [State.reserve, hp]

/-! ## The operations of `Sys2Proof/Machine/Hank.lean` -/

@[simp] theorem same_setJob (k l j) (hp : p ≠ .hank) : p.same s0 (s.setJob k l j) ↔ p.same s0 s := by
  simp [State.setJob, hp]

@[simp] theorem same_hkShow (k) : p.same s0 (s.hkShow k) ↔ p.same s0 s := by
  simp [State.hkShow]

@[simp] theorem same_hkStart (k) (hp : p ≠ .mem) : p.same s0 (s.hkStart k) ↔ p.same s0 s := by
  simp [State.hkStart, hp]

@[simp] theorem same_hkRelease (k) (hp : p ≠ .mem) : p.same s0 (s.hkRelease k) ↔ p.same s0 s := by
  simp [State.hkRelease, hp]

@[simp] theorem same_hkMake (k e) (hp : p ≠ .mem) : p.same s0 (s.hkMake k e).1 ↔ p.same s0 s := by
  simp [State.hkMake]
  split <;> simp [hp]

@[simp] theorem same_hkPut (k bufs q bs n) (hp : p ≠ .mem) : p.same s0 (s.hkPut k bufs q bs n).1 ↔ p.same s0 s := by
  induction n generalizing s q bs with
  | zero => simp [State.hkPut]
  | succ n ih =>
    simp only [State.hkPut, same_ite_fst]
    split
    · rfl
    · split
      · rfl
      · split <;> simp [ih, hp]

@[simp] theorem same_hkJunk (k j q n) (hp : p ≠ .mem) : p.same s0 (s.hkJunk k j q n).1 ↔ p.same s0 s := by
  simp [State.hkJunk, hp]

@[simp] theorem same_hkBreak (k l j n st) (hp : p ≠ .hank ∧ p ≠ .mem) :
    p.same s0 (s.hkBreak k l j n st) ↔ p.same s0 s := by
  simp [State.hkBreak, hp]

@[simp] theorem same_hkEmit (k l j gap bs n) (hp : p ≠ .hank ∧ p ≠ .mem) :
    p.same s0 (s.hkEmit k l j gap bs n) ↔ p.same s0 s := by
  simp [State.hkEmit, hp]

@[simp] theorem same_hkCompress (k l j) (hp : p ≠ .hank ∧ p ≠ .mem) :
    p.same s0 (s.hkCompress k l j) ↔ p.same s0 s := by
  unfold State.hkCompress
  dsimp only
  split <;> simp [hp]

@[simp] theorem same_hkFetch (k stop fuel a n acc) (hp : p ≠ .mem) :
    p.same s0 (s.hkFetch k stop fuel a n acc).1 ↔ p.same s0 s := by
  induction fuel generalizing s a n acc with
  | zero => simp [State.hkFetch]
  | succ fuel ih =>
    simp only [State.hkFetch, same_ite_fst]
    split
    · rfl
    · split <;> simp [ih, hp]

@[simp] theorem same_hkDecode (k l j) (hp : p ≠ .hank ∧ p ≠ .mem) : p.same s0 (s.hkDecode k l j) ↔ p.same s0 s := by
  simp [State.hkDecode, hp]
  split <;> simp [hp]

@[simp] theorem same_hkEnd (k l j status) (hp : p ≠ .hank ∧ p ≠ .mem) :
    p.same s0 (s.hkEnd k l j status) ↔ p.same s0 s := by
  simp [State.hkEnd, hp]

@[simp] theorem kept_execHankJobTake (codec) (hp : p ≠ .hank ∧ p ≠ .mem) : p.kept s (execHankJobTake codec s) := by
  unfold execHankJobTake
  dsimp only
  repeat' split
  all_goals simp [hp]

@[simp] theorem kept_execHankBlockDone (codec lane) (hp : p ≠ .hank ∧ p ≠ .mem) :
    p.kept s (execHankBlockDone codec lane s) := by
  unfold execHankBlockDone
  dsimp only
  repeat' split
  all_goals simp [hp]

@[simp] theorem same_hkStop (k) (hp : p ≠ .hank ∧ p ≠ .mem) : p.same s0 (s.hkStop k) ↔ p.same s0 s := by
  simp [State.hkStop, hp]

@[simp] theorem kept_execHankDisable (codec) (hp : p ≠ .hank ∧ p ≠ .mem) : p.kept s (execHankDisable codec s) := by
  simp [execHankDisable, hp]

/-! ## The operations of `Sys2Proof/Machine/Flash.lean` -/

@[simp] theorem same_xspiGo (op) (hp : p ≠ .flash ∧ p ≠ .mem) : p.same s0 (s.xspiGo op) ↔ p.same s0 s := by
  simp [State.xspiGo, hp]
  split <;> simp [hp]

@[simp] theorem same_xspiRow (op) (hp : p ≠ .flash ∧ p ≠ .mem) : p.same s0 (s.xspiRow op) ↔ p.same s0 s := by
  simp [State.xspiRow, hp]

@[simp] theorem kept_execXspiRead (hp : p ≠ .flash ∧ p ≠ .mem) : p.kept s (execXspiRead s) := by
  simp [execXspiRead, hp]

@[simp] theorem kept_execXspiProgram (hp : p ≠ .flash ∧ p ≠ .mem) : p.kept s (execXspiProgram s) := by
  simp [execXspiProgram, hp]

@[simp] theorem kept_execXspiErase (hp : p ≠ .flash ∧ p ≠ .mem) : p.kept s (execXspiErase s) := by
  simp [execXspiErase, hp]

@[simp] theorem kept_execXspiDone (err) : p.kept s (execXspiDone err s) := by
  simp [execXspiDone]

/-! ## The operations of `Sys2Proof/Machine/Panel.lean` -/

@[simp] theorem same_pnlEvent (kind index code touch) (hp : p ≠ .pnl) :
    p.same s0 (s.pnlEvent kind index code touch) ↔ p.same s0 s := by
  simp [State.pnlEvent, hp]

@[simp] theorem same_setPnl (q) (hp : p ≠ .pnl) : p.same s0 (s.setPnl q) ↔ p.same s0 s := by
  simp [State.setPnl, hp]

@[simp] theorem same_pnlNext (hp : p ≠ .pnl) : p.same s0 s.pnlNext ↔ p.same s0 s := by
  simp [State.pnlNext, hp]

@[simp] theorem kept_execTouchRead (hp : p ≠ .pnl) : p.kept s (execTouchRead s) := by
  simp [execTouchRead, hp]

@[simp] theorem kept_execTouchReadDone (ack bytes) (hp : p ≠ .pnl) : p.kept s (execTouchReadDone ack bytes s) := by
  simp [execTouchReadDone, hp]

@[simp] theorem same_i2cStart (addr wlen rlen) (hp : p ≠ .pnl) :
    p.same s0 (s.i2cStart addr wlen rlen) ↔ p.same s0 s := by
  simp [State.i2cStart, hp]

@[simp] theorem kept_execI2cCmd (addr wlen rlen) (hp : p ≠ .pnl) : p.kept s (execI2cCmd addr wlen rlen s) := by
  simp [execI2cCmd, hp]

@[simp] theorem same_i2cPut (bs) : p.same s0 (s.i2cPut bs) ↔ p.same s0 s := by
  simp [State.i2cPut]

@[simp] theorem kept_execI2cDone (ack bytes) (hp : p ≠ .pnl) : p.kept s (execI2cDone ack bytes s) := by
  simp [execI2cDone, hp]

@[simp] theorem same_keyOne (k high) (hp : p ≠ .pnl) : p.same s0 (s.keyOne k high) ↔ p.same s0 s := by
  simp [State.keyOne, hp]

@[simp] theorem kept_execKeySample (levels) (hp : p ≠ .pnl) : p.kept s (execKeySample levels s) := by
  simp [execKeySample, hp]

@[simp] theorem same_ledDrive (k) : p.same s0 (s.ledDrive k) ↔ p.same s0 s := by
  simp [State.ledDrive]

@[simp] theorem kept_execLedBlinkToggle (fast) (hp : p ≠ .pnl) : p.kept s (execLedBlinkToggle fast s) := by
  simp [execLedBlinkToggle, hp]

@[simp] theorem same_buzSound : p.same s0 s.buzSound ↔ p.same s0 s := by
  simp [State.buzSound]

@[simp] theorem same_buzStart (hp : p ≠ .pnl) : p.same s0 s.buzStart ↔ p.same s0 s := by
  simp [State.buzStart, hp]

@[simp] theorem same_buzStop (hp : p ≠ .pnl) : p.same s0 s.buzStop ↔ p.same s0 s := by
  simp [State.buzStop, hp]

@[simp] theorem kept_execBuzStart (hp : p ≠ .pnl) : p.kept s (execBuzStart s) := by
  simp [execBuzStart, hp]

@[simp] theorem kept_execBuzStop (hp : p ≠ .pnl) : p.kept s (execBuzStop s) := by
  simp [execBuzStop, hp]

@[simp] theorem kept_execBuzPhaseEnd (hp : p ≠ .pnl) : p.kept s (execBuzPhaseEnd s) := by
  simp [execBuzPhaseEnd, hp]

@[simp] theorem same_pnlAck (hp : p ≠ .pnl) : p.same s0 s.pnlAck ↔ p.same s0 s := by
  simp [State.pnlAck, hp]

@[simp] theorem same_dpDown : p.same s0 s.dpDown ↔ p.same s0 s := by
  simp [State.dpDown]

@[simp] theorem same_dpTrain (hp : p ≠ .pnl) : p.same s0 s.dpTrain ↔ p.same s0 s := by
  unfold State.dpTrain
  dsimp only
  split <;> simp [hp]

@[simp] theorem kept_execHpdPlug (maxRate maxLanes edid trains) (hp : p ≠ .dpMon ∧ p ≠ .pnl) :
    p.kept s (execHpdPlug maxRate maxLanes edid trains s) := by
  simp [execHpdPlug, hp]

@[simp] theorem kept_execHpdUnplug (hp : p ≠ .dpMon ∧ p ≠ .pnl) : p.kept s (execHpdUnplug s) := by
  simp [execHpdUnplug, hp]

@[simp] theorem kept_execIrqHpd (linkLost trains) (hp : p ≠ .dpMon ∧ p ≠ .pnl) :
    p.kept s (execIrqHpd linkLost trains s) := by
  simp [execIrqHpd, hp]

/-! ## The operations of `Sys2Proof/Machine/Marking.lean` -/

@[simp] theorem same_markEmit (o) : p.same s0 (s.markEmit o) ↔ p.same s0 s := by
  simp [State.markEmit]

@[simp] theorem same_setC (u c) (hp : p ≠ .cmp) : p.same s0 (s.setC u c) ↔ p.same s0 s := by
  simp [State.setC, hp]

@[simp] theorem same_flog (u e flags) (hp : p ≠ .mem) : p.same s0 (s.flog u e flags) ↔ p.same s0 s := by
  simp [State.flog, hp]

@[simp] theorem same_autoJob (id) (hp : p ≠ .tag) : p.same s0 (s.autoJob id) ↔ p.same s0 s := by
  simp [State.autoJob, hp]

@[simp] theorem same_cmpPin (u active) : p.same s0 (s.cmpPin u active) ↔ p.same s0 s := by
  simp [State.cmpPin]

@[simp] theorem same_cmpFireOne (u extra e) (hp : p ≠ .cmp ∧ p ≠ .mem ∧ p ≠ .tag) :
    p.same s0 (s.cmpFireOne u extra e) ↔ p.same s0 s := by
  simp [State.cmpFireOne, hp]

@[simp] theorem same_cmpFireAll (u l) (hp : p ≠ .cmp ∧ p ≠ .mem ∧ p ≠ .tag) :
    p.same s0 (s.cmpFireAll u l) ↔ p.same s0 s := by
  cases l <;> simp [State.cmpFireAll, hp]

@[simp] theorem same_cmpScan (u) (hp : p ≠ .cmp ∧ p ≠ .mem ∧ p ≠ .tag) : p.same s0 (s.cmpScan u) ↔ p.same s0 s := by
  simp [State.cmpScan, hp]

@[simp] theorem same_cmpFollow (u) (hp : p ≠ .cmp ∧ p ≠ .mem ∧ p ≠ .tag) :
    p.same s0 (s.cmpFollow u) ↔ p.same s0 s := by
  simp [State.cmpFollow, hp]

@[simp] theorem same_cmpMove (q) (hp : p ≠ .cmp ∧ p ≠ .mem ∧ p ≠ .tag) : p.same s0 (s.cmpMove q) ↔ p.same s0 s := by
  simp [State.cmpMove, hp]

@[simp] theorem same_leadCnt (u) : p.same s0 (s.leadCnt u) ↔ p.same s0 s := by
  simp [State.leadCnt]

@[simp] theorem same_cmpSpeed (q) (hp : p ≠ .cmp ∧ p ≠ .mem ∧ p ≠ .tag) : p.same s0 (s.cmpSpeed q) ↔ p.same s0 s := by
  simp [State.cmpSpeed, hp]

@[simp] theorem same_cmpRezero (q d) (hp : p ≠ .cmp) : p.same s0 (s.cmpRezero q d) ↔ p.same s0 s := by
  simp [State.cmpRezero, hp]

@[simp] theorem same_cmpInsert (u e) (hp : p ≠ .cmp ∧ p ≠ .mem) : p.same s0 (s.cmpInsert u e) ↔ p.same s0 s := by
  simp [State.cmpInsert, hp]

@[simp] theorem same_cmpClear (u) (hp : p ≠ .cmp) : p.same s0 (s.cmpClear u) ↔ p.same s0 s := by
  simp [State.cmpClear, hp]

@[simp] theorem same_cmpStart (u) (hp : p ≠ .cmp ∧ p ≠ .mem ∧ p ≠ .tag) : p.same s0 (s.cmpStart u) ↔ p.same s0 s := by
  simp [State.cmpStart, hp]

@[simp] theorem same_cmpStop (u) (hp : p ≠ .mem) : p.same s0 (s.cmpStop u) ↔ p.same s0 s := by
  simp [State.cmpStop, hp]

@[simp] theorem kept_execCmpEnable (u) (hp : p ≠ .cmp ∧ p ≠ .mem ∧ p ≠ .tag) : p.kept s (execCmpEnable u s) := by
  simp [execCmpEnable, hp]

@[simp] theorem same_strobeCut : p.same s0 s.strobeCut ↔ p.same s0 s := by
  simp [State.strobeCut]

@[simp] theorem same_markQuiet (hp : p ≠ .cmp) : p.same s0 s.markQuiet ↔ p.same s0 s := by
  simp [State.markQuiet, hp]

@[simp] theorem kept_execCmpLateFire (u) (hp : p ≠ .cmp ∧ p ≠ .mem ∧ p ≠ .tag) : p.kept s (execCmpLateFire u s) := by
  simp [execCmpLateFire, hp]

@[simp] theorem kept_execCmpPulseEnd (u) (hp : p ≠ .cmp) : p.kept s (execCmpPulseEnd u s) := by
  simp [execCmpPulseEnd, hp]

@[simp] theorem kept_execCmpFillRecord (u) (hp : p ≠ .cmp ∧ p ≠ .mem) : p.kept s (execCmpFillRecord u s) := by
  simp [execCmpFillRecord]
  split <;> simp [hp]

@[simp] theorem kept_execListInsert (u) (hp : p ≠ .cmp ∧ p ≠ .mem) : p.kept s (execListInsert u s) := by
  simp [execListInsert, hp]

@[simp] theorem kept_execListClear (u) (hp : p ≠ .cmp) : p.kept s (execListClear u s) := by
  simp [execListClear, hp]

@[simp] theorem same_markHold (on) : p.same s0 (s.markHold on) ↔ p.same s0 s := by
  simp [State.markHold]

@[simp] theorem kept_execMarkHoldCtrlWrite (hold) : p.kept s (execMarkHoldCtrlWrite hold s) := by
  simp [execMarkHoldCtrlWrite]

@[simp] theorem same_freshNonce : p.same s0 s.freshNonce.1 ↔ p.same s0 s := by
  simp [State.freshNonce]

@[simp] theorem same_cassSend : p.same s0 s.cassSend ↔ p.same s0 s := by
  simp [State.cassSend]

@[simp] theorem same_cassStart (cmd nonce) (hp : p ≠ .cass) : p.same s0 (s.cassStart cmd nonce) ↔ p.same s0 s := by
  simp [State.cassStart, hp]

@[simp] theorem same_authenticate (hp : p ≠ .cass) : p.same s0 s.authenticate ↔ p.same s0 s := by
  simp [State.authenticate, hp]

@[simp] theorem same_cassEnd (hp : p ≠ .cass) : p.same s0 s.cassEnd ↔ p.same s0 s := by
  simp [State.cassEnd, hp]

@[simp] theorem same_cassFail (hp : p ≠ .cass ∧ p ≠ .mem ∧ p ≠ .pnl ∧ p ≠ .tag) :
    p.same s0 s.cassFail ↔ p.same s0 s := by
  simp [State.cassFail, hp]

@[simp] theorem same_setTag (u) (hp : p ≠ .tag) : p.same s0 (s.setTag u) ↔ p.same s0 s := by
  simp [State.setTag, hp]

@[simp] theorem same_tagPhase (q) (hp : p ≠ .tag) : p.same s0 (s.tagPhase q) ↔ p.same s0 s := by
  simp [State.tagPhase, hp]

@[simp] theorem same_tagFeed (hp : p ≠ .tag) : p.same s0 s.tagFeed ↔ p.same s0 s := by
  simp [State.tagFeed, hp]

@[simp] theorem same_tagVoid (status) (hp : p ≠ .mem ∧ p ≠ .tag) : p.same s0 (s.tagVoid status) ↔ p.same s0 s := by
  simp [State.tagVoid, hp]

@[simp] theorem same_tagCheck (hp : p ≠ .mem ∧ p ≠ .tag) : p.same s0 s.tagCheck ↔ p.same s0 s := by
  unfold State.tagCheck
  split <;> simp [hp]

@[simp] theorem same_tagTemp (y3) (hp : p ≠ .mem ∧ p ≠ .tag) : p.same s0 (s.tagTemp y3) ↔ p.same s0 s := by
  simp [State.tagTemp, hp]

@[simp] theorem same_tagNoTemp (hp : p ≠ .mem ∧ p ≠ .tag) : p.same s0 s.tagNoTemp ↔ p.same s0 s := by
  simp [State.tagNoTemp, hp]

@[simp] theorem same_thStart (hp : p ≠ .cass ∧ p ≠ .mem ∧ p ≠ .tag) : p.same s0 s.thStart ↔ p.same s0 s := by
  simp [State.thStart, hp]

@[simp] theorem same_thStop (hp : p ≠ .mem ∧ p ≠ .tag) : p.same s0 s.thStop ↔ p.same s0 s := by
  simp [State.thStop, hp]

@[simp] theorem kept_execThEnable (hp : p ≠ .cass ∧ p ≠ .mem ∧ p ≠ .tag) : p.kept s (execThEnable s) := by
  simp [execThEnable, hp]

@[simp] theorem kept_execAuthReq (hp : p ≠ .cass) : p.kept s (execAuthReq s) := by
  simp [execAuthReq, hp]

@[simp] theorem same_nextJob (hp : p ≠ .mem ∧ p ≠ .tag) : p.same s0 s.nextJob.1 ↔ p.same s0 s := by
  unfold State.nextJob
  dsimp only
  repeat' split
  all_goals simp [hp]

@[simp] theorem same_jobEnd (status) (hp : p ≠ .tag) : p.same s0 (s.jobEnd status) ↔ p.same s0 s := by
  simp [State.jobEnd, hp]

@[simp] theorem same_jobBegin (hp : p ≠ .cass ∧ p ≠ .tag) : p.same s0 s.jobBegin ↔ p.same s0 s := by
  simp [State.jobBegin, hp]

@[simp] theorem same_jobHead (j) (hp : p ≠ .tag) : p.same s0 (s.jobHead j) ↔ p.same s0 s := by
  simp [State.jobHead, hp]

@[simp] theorem kept_execTagJobStart (hp : p ≠ .cass ∧ p ≠ .mem ∧ p ≠ .tag) : p.kept s (execTagJobStart s) := by
  have next := (same_nextJob (s0 := s) hp.2).2 (same_refl p s)
  simp only [execTagJobStart, kept_next]
  generalize s.nextJob = r at next ⊢
  obtain ⟨t, _ | j⟩ := r <;> simp only [same_ite] at next ⊢ <;> simp [next, hp]

@[simp] theorem same_lineEnd (hp : p ≠ .tag) : p.same s0 s.lineEnd ↔ p.same s0 s := by
  simp [State.lineEnd, hp]

@[simp] theorem same_nextPass (hp : p ≠ .tag) : p.same s0 s.nextPass ↔ p.same s0 s := by
  unfold State.nextPass
  split <;> simp [hp]

@[simp] theorem same_fetchRow (n) (hp : p ≠ .mem ∧ p ≠ .tag) : p.same s0 (s.fetchRow n) ↔ p.same s0 s := by
  unfold State.fetchRow
  dsimp only
  split <;> simp [hp]

@[simp] theorem same_fetchRows (n) (hp : p ≠ .mem ∧ p ≠ .tag) : p.same s0 (s.fetchRows n) ↔ p.same s0 s := by
  simp [State.fetchRows, hp]

@[simp] theorem same_lineBegin (row rest) (hp : p ≠ .mem ∧ p ≠ .tag) :
    p.same s0 (s.lineBegin row rest) ↔ p.same s0 s := by
  simp [State.lineBegin, hp]

@[simp] theorem same_underrun (hp : p ≠ .tag) : p.same s0 s.underrun ↔ p.same s0 s := by
  simp [State.underrun, hp]

@[simp] theorem kept_execTagLineStart (arrived) (hp : p ≠ .mem ∧ p ≠ .tag) : p.kept s (execTagLineStart arrived s) := by
  simp [execTagLineStart]
  split <;> simp [hp]

@[simp] theorem kept_execTagStrobeEnd (hp : p ≠ .tag) : p.kept s (execTagStrobeEnd s) := by
  simp [execTagStrobeEnd, hp]

@[simp] theorem kept_execTagUnderrunTimeout (hp : p ≠ .mem ∧ p ≠ .tag) : p.kept s (execTagUnderrunTimeout s) := by
  simp [execTagUnderrunTimeout, hp]

@[simp] theorem kept_execTagSensorEdge (sensor level) (hp : p ≠ .cass ∧ p ≠ .mem ∧ p ≠ .pnl ∧ p ≠ .tag) :
    p.kept s (execTagSensorEdge sensor level s) := by
  simp [execTagSensorEdge, hp]

@[simp] theorem kept_execTagJobResult (hp : p ≠ .mem ∧ p ≠ .tag) : p.kept s (execTagJobResult s) := by
  simp [execTagJobResult, hp]

@[simp] theorem kept_execCassOpenClearDelay (hp : p ≠ .cass) : p.kept s (execCassOpenClearDelay s) := by
  simp [execCassOpenClearDelay, hp]

@[simp] theorem kept_execCassResponse (bytes) (hp : p ≠ .cass ∧ p ≠ .mem ∧ p ≠ .pnl ∧ p ≠ .tag) :
    p.kept s (execCassResponse bytes s) := by
  simp [execCassResponse, hp]

@[simp] theorem kept_execCassRetry : p.kept s (execCassRetry s) := by
  simp [execCassRetry]

@[simp] theorem kept_execCassExchangeTimeout (hp : p ≠ .cass ∧ p ≠ .mem ∧ p ≠ .pnl ∧ p ≠ .tag) :
    p.kept s (execCassExchangeTimeout s) := by
  simp [execCassExchangeTimeout, hp]

/-! ## The operations of `Sys2Proof/Machine/Dma.lean` -/

@[simp] theorem same_setDm (c d) (hp : p ≠ .dma) : p.same s0 (s.setDm c d) ↔ p.same s0 s := by
  simp [State.setDm, hp]

@[simp] theorem same_dmaSums : p.same s0 s.dmaSums ↔ p.same s0 s := by
  simp [State.dmaSums]

@[simp] theorem same_dmaGo (c a) (hp : p ≠ .dma) : p.same s0 (s.dmaGo c a) ↔ p.same s0 s := by
  simp [State.dmaGo, hp]

@[simp] theorem same_dmaHalt (c code addr) (hp : p ≠ .mem) : p.same s0 (s.dmaHalt c code addr) ↔ p.same s0 s := by
  simp [State.dmaHalt, hp]

@[simp] theorem same_dmaPark (c) : p.same s0 (s.dmaPark c) ↔ p.same s0 s := by
  simp [State.dmaPark]

@[simp] theorem same_dmaStatusByte (c v) (hp : p ≠ .mem) : p.same s0 (s.dmaStatusByte c v).1 ↔ p.same s0 s := by
  simp [State.dmaStatusByte, hp]

@[simp] theorem same_dmaBusErr (c addr dir) (hp : p ≠ .mem) : p.same s0 (s.dmaBusErr c addr dir) ↔ p.same s0 s := by
  simp [State.dmaBusErr, hp]

@[simp] theorem same_dmaLink (c) (hp : p ≠ .dma ∧ p ≠ .mem) : p.same s0 (s.dmaLink c).1 ↔ p.same s0 s := by
  unfold State.dmaLink
  dsimp only
  split <;> simp [hp]

@[simp] theorem same_dmaNext (c) (hp : p ≠ .dma ∧ p ≠ .mem) : p.same s0 (s.dmaNext c) ↔ p.same s0 s := by
  simp [State.dmaNext, hp]

@[simp] theorem same_dmaStart (c desc) (hp : p ≠ .dma ∧ p ≠ .mem) :
    p.same s0 (s.dmaStart c desc).1 ↔ p.same s0 s := by
  simp [State.dmaStart, hp]

@[simp] theorem same_dmaFetch (c) (hp : p ≠ .dma ∧ p ≠ .mem) : p.same s0 (s.dmaFetch c) ↔ p.same s0 s := by
  unfold State.dmaFetch
  dsimp only
  split <;> simp [hp]

@[simp] theorem kept_execDmaDescFetch (c) (hp : p ≠ .dma ∧ p ≠ .mem) : p.kept s (execDmaDescFetch c s) := by
  simp [execDmaDescFetch, hp]

@[simp] theorem same_dmaRead (c l) (hp : p ≠ .mem) : p.same s0 (s.dmaRead c l).1 ↔ p.same s0 s := by
  induction l generalizing s with
  | nil => simp [State.dmaRead]
  | cons b bs ih =>
    simp only [State.dmaRead]
    split <;> simp [ih, hp]

@[simp] theorem same_dmaCopy (c d l) (hp : p ≠ .dma ∧ p ≠ .mem) : p.same s0 (s.dmaCopy c d l).1 ↔ p.same s0 s := by
  induction l generalizing s with
  | nil => simp [State.dmaCopy]
  | cons q qs ih =>
    simp only [State.dmaCopy]
    split
    · simp [hp]
    · split <;> simp [ih, hp]

@[simp] theorem same_dmaRun (c) (hp : p ≠ .dma ∧ p ≠ .mem) : p.same s0 (s.dmaRun c) ↔ p.same s0 s := by
  simp only [State.dmaRun]
  split <;> simp [hp]

@[simp] theorem same_dmaSoFar (c) (hp : p ≠ .dma ∧ p ≠ .mem) : p.same s0 (s.dmaSoFar c) ↔ p.same s0 s := by
  unfold State.dmaSoFar
  dsimp only
  split <;> simp [hp]

@[simp] theorem same_dmaAbort (c) (hp : p ≠ .dma ∧ p ≠ .mem) : p.same s0 (s.dmaAbort c) ↔ p.same s0 s := by
  simp [State.dmaAbort, hp]

@[simp] theorem kept_execDmaDescEnd (c) (hp : p ≠ .dma ∧ p ≠ .mem) : p.kept s (execDmaDescEnd c s) := by
  simp [execDmaDescEnd, hp]

@[simp] theorem kept_execDmaBusError (c) (hp : p ≠ .dma ∧ p ≠ .mem) : p.kept s (execDmaBusError c s) := by
  simp [execDmaBusError, hp]

/-! ## The operations of `Sys2Proof/Machine/Journal.lean` -/

@[simp] theorem same_evictItems (ring len n) : p.same s0 (s.evictItems ring len n) ↔ p.same s0 s := by
  induction n generalizing s with
  | zero => simp [State.evictItems]
  | succ n ih =>
    simp only [State.evictItems, same_ite]
    split
    · rfl
    · split <;> simp [ih]

@[simp] theorem same_repWrite (ring item kind unit course) (hp : p ≠ .mem) :
    p.same s0 (s.repWrite ring item kind unit course).1 ↔ p.same s0 s := by
  simp [State.repWrite, hp]

@[simp] theorem same_jrnFlush (hp : p ≠ .mem) : p.same s0 s.jrnFlush ↔ p.same s0 s := by
  simp [State.jrnFlush, hp]

@[simp] theorem same_jrnPut (cont r) (hp : p ≠ .mem) : p.same s0 (s.jrnPut cont r) ↔ p.same s0 s := by
  simp [State.jrnPut, hp]

@[simp] theorem same_jrn (ty grp cls src lag stamp data) (hp : p ≠ .mem) :
    p.same s0 (s.jrn ty grp cls src lag stamp data) ↔ p.same s0 s := by
  simp [State.jrn, hp]

@[simp] theorem same_capGap (g ch course) (hp : p ≠ .mem) : p.same s0 (s.capGap g ch course) ↔ p.same s0 s := by
  simp [State.capGap, hp]

@[simp] theorem same_capItem (g ch course upper image) (hp : p ≠ .mem) :
    p.same s0 (s.capItem g ch course upper image) ↔ p.same s0 s := by
  simp [State.capItem]
  split <;> simp [hp]

/-! ## The operations of `Sys2Proof/Machine/Csw.lean` -/

@[simp] theorem same_setCsw (c) (hp : p ≠ .csw) : p.same s0 (s.setCsw c) ↔ p.same s0 s := by
  simp [State.setCsw, hp]

@[simp] theorem same_cswSet (g k b) (hp : p ≠ .csw) : p.same s0 (s.cswSet g k b) ↔ p.same s0 s := by
  simp [State.cswSet, hp]

@[simp] theorem same_cswMiss (g k) (hp : p ≠ .csw) : p.same s0 (s.cswMiss g k) ↔ p.same s0 s := by
  simp [State.cswMiss, hp]

@[simp] theorem same_cswFinish (g k) (hp : p ≠ .csw ∧ p ≠ .mem) : p.same s0 (s.cswFinish g k) ↔ p.same s0 s := by
  simp [State.cswFinish, hp]

/-! ## The operations of `Sys2Proof/Machine/Lanes.lean` -/

@[simp] theorem same_setLn (l x) (hp : p ≠ .lane) : p.same s0 (s.setLn l x) ↔ p.same s0 s := by
  simp [State.setLn, hp]

@[simp] theorem same_setCh (c x) (hp : p ≠ .chan) : p.same s0 (s.setCh c x) ↔ p.same s0 s := by
  simp [State.setCh, hp]

@[simp] theorem same_clearLane (l) (hp : p ≠ .lane) : p.same s0 (s.clearLane l) ↔ p.same s0 s := by
  simp [State.clearLane, hp]

@[simp] theorem same_setLane (l st) : p.same s0 (s.setLane l st) ↔ p.same s0 s := by
  simp [State.setLane]

@[simp] theorem same_laneEvent (l f) : p.same s0 (s.laneEvent l f) ↔ p.same s0 s := by
  simp [State.laneEvent]

@[simp] theorem same_laneLog (code l) (hp : p ≠ .mem) : p.same s0 (s.laneLog code l) ↔ p.same s0 s := by
  simp [State.laneLog, hp]

@[simp] theorem same_pktBad (l r) : p.same s0 (s.pktBad l r) ↔ p.same s0 s := by
  cases r <;> simp [State.pktBad]

@[simp] theorem same_seqNote (l vc seq) (hp : p ≠ .lane) : p.same s0 (s.seqNote l vc seq) ↔ p.same s0 s := by
  simp [State.seqNote, hp]

@[simp] theorem same_sendBlocks (l bs) (hp : p ≠ .lane) : p.same s0 (s.sendBlocks l bs) ↔ p.same s0 s := by
  simp [State.sendBlocks, hp]

@[simp] theorem same_sendBack (l vc dt ws) (hp : p ≠ .lane) : p.same s0 (s.sendBack l vc dt ws) ↔ p.same s0 s := by
  simp [State.sendBack, hp]

@[simp] theorem same_laneLeaves (l) (hp : p ≠ .chan ∧ p ≠ .mem) : p.same s0 (s.laneLeaves l) ↔ p.same s0 s := by
  simp [State.laneLeaves, hp]

@[simp] theorem same_unalign (l) (hp : p ≠ .lane) : p.same s0 (s.unalign l) ↔ p.same s0 s := by
  simp [State.unalign, hp]

@[simp] theorem same_laneTo (l st) (hp : p ≠ .chan ∧ p ≠ .lane ∧ p ≠ .mem) :
    p.same s0 (s.laneTo l st) ↔ p.same s0 s := by
  simp [State.laneTo, hp]

@[simp] theorem same_laneRemove (l) (hp : p ≠ .chan ∧ p ≠ .lane ∧ p ≠ .mem ∧ p ≠ .pnl) :
    p.same s0 (s.laneRemove l) ↔ p.same s0 s := by
  simp [State.laneRemove, hp]

@[simp] theorem same_laneJoin (l) (hp : p ≠ .lane) : p.same s0 (s.laneJoin l) ↔ p.same s0 s := by
  simp [State.laneJoin, hp]

@[simp] theorem same_chanJoin (g ch c) (hp : p ≠ .chan ∧ p ≠ .csw ∧ p ≠ .lane ∧ p ≠ .mem ∧ p ≠ .pnl) :
    p.same s0 (s.chanJoin g ch c) ↔ p.same s0 s := by
  simp [State.chanJoin, hp]

@[simp] theorem same_lanesBack (ch) : p.same s0 (s.lanesBack ch) ↔ p.same s0 s := by
  simp [State.lanesBack]

@[simp] theorem same_chanLeave (g ch c) (hp : p ≠ .chan ∧ p ≠ .csw ∧ p ≠ .mem ∧ p ≠ .pnl) :
    p.same s0 (s.chanLeave g ch c) ↔ p.same s0 s := by
  simp [State.chanLeave, hp]

@[simp] theorem same_members (g c) (hp : p ≠ .chan ∧ p ≠ .csw ∧ p ≠ .lane ∧ p ≠ .mem ∧ p ≠ .pnl) :
    p.same s0 (s.members g c) ↔ p.same s0 s := by
  exact same_forL _ fun ch t => by simp [hp]

@[simp] theorem same_sendTrigs (g c) (hp : p ≠ .lane) : p.same s0 (s.sendTrigs g c) ↔ p.same s0 s := by
  exact same_forL _ fun ch t => by simp [hp]

@[simp] theorem same_declareMissing (g ch k) (hp : p ≠ .chan ∧ p ≠ .csw ∧ p ≠ .mem) :
    p.same s0 (s.declareMissing g ch k) ↔ p.same s0 s := by
  simp [State.declareMissing, hp]

@[simp] theorem same_acceptLine (g ch l ln) (hp : p ≠ .chan ∧ p ≠ .csw ∧ p ≠ .lane ∧ p ≠ .mem) :
    p.same s0 (s.acceptLine g ch l ln) ↔ p.same s0 s := by
  simp [State.acceptLine, hp]

@[simp] theorem same_lineBad (g ch l) (hp : p ≠ .chan ∧ p ≠ .csw ∧ p ≠ .lane ∧ p ≠ .mem) :
    p.same s0 (s.lineBad g ch l) ↔ p.same s0 s := by
  simp [State.lineBad, hp]
  split <;> simp [hp]

@[simp] theorem same_lineChecks (g ch l dt ws image) (hp : p ≠ .chan ∧ p ≠ .csw ∧ p ≠ .lane ∧ p ≠ .mem) :
    p.same s0 (s.lineChecks g ch l dt ws image) ↔ p.same s0 s := by
  simp [State.lineChecks]
  split <;> simp [hp]

@[simp] theorem same_settle (g ch) : p.same s0 (s.settle g ch) ↔ p.same s0 s := by
  simp [State.settle]

@[simp] theorem same_lineTo (l f) (hf : ∀ g ch t, p.same t (f g ch t)) :
    p.same s0 (s.lineTo l f) ↔ p.same s0 s := by
  refine same_forL _ fun ch t => ?_
  split
  · simp [hf]
  · simp

@[simp] theorem same_linePacket (l ws cut) (hp : p ≠ .chan ∧ p ≠ .csw ∧ p ≠ .lane ∧ p ≠ .mem) :
    p.same s0 (s.linePacket l ws cut) ↔ p.same s0 s := by
  unfold State.linePacket
  dsimp only
  split <;> simp [hp]

@[simp] theorem kept_execLinePacketReceived (l words cut) (hp : p ≠ .chan ∧ p ≠ .csw ∧ p ≠ .lane ∧ p ≠ .mem) :
    p.kept s (execLinePacketReceived l words cut s) := by
  simp [execLinePacketReceived, hp]

@[simp] theorem kept_execLineTimeout (l) (hp : p ≠ .chan ∧ p ≠ .csw ∧ p ≠ .lane ∧ p ≠ .mem) :
    p.kept s (execLineTimeout l s) := by
  unfold execLineTimeout
  rw [kept_next]
  split
  · split
    · simp
      split <;> simp [hp]
    · simp
  · simp

@[simp] theorem same_msrcUpdate (hp : p ≠ .chan ∧ p ≠ .lane ∧ p ≠ .mem) : p.same s0 s.msrcUpdate ↔ p.same s0 s := by
  simp [State.msrcUpdate, hp]

@[simp] theorem same_laneBind (l) (hp : p ≠ .mem) : p.same s0 (s.laneBind l) ↔ p.same s0 s := by
  simp [State.laneBind, hp]

@[simp] theorem same_msrcLine (l c count im) (hp : p ≠ .chan ∧ p ≠ .csw ∧ p ≠ .lane ∧ p ≠ .mem) :
    p.same s0 (s.msrcLine l c count im) ↔ p.same s0 s := by
  unfold State.msrcLine
  split
  · simp [hp]
  · split <;> simp [hp]

@[simp] theorem same_msrcDeliver (l c) (hp : p ≠ .chan ∧ p ≠ .csw ∧ p ≠ .lane ∧ p ≠ .mem) :
    p.same s0 (s.msrcDeliver l c) ↔ p.same s0 s := by
  unfold State.msrcDeliver
  dsimp only
  repeat' split
  all_goals simp [hp]

@[simp] theorem same_msrcTrigger (g c) (hp : p ≠ .chan ∧ p ≠ .csw ∧ p ≠ .lane ∧ p ≠ .mem) :
    p.same s0 (s.msrcTrigger g c) ↔ p.same s0 s := by
  exact same_forL _ fun ch t => by simp [hp]

@[simp] theorem same_camData (l vc dt ws) (hp : p ≠ .mem) : p.same s0 (s.camData l vc dt ws) ↔ p.same s0 s := by
  simp [State.camData, hp]

@[simp] theorem kept_execCameraDataPacket (l words cut) (hp : p ≠ .lane ∧ p ≠ .mem) :
    p.kept s (execCameraDataPacket l words cut s) := by
  simp [execCameraDataPacket]
  split <;> simp [hp]

@[simp] theorem same_tagDone (l tag status params) (hp : p ≠ .lane) :
    p.same s0 (s.tagDone l tag status params) ↔ p.same s0 s := by
  unfold State.tagDone
  split <;> simp [hp]

@[simp] theorem kept_execControlReplyReceived (l words) (hp : p ≠ .lane ∧ p ≠ .mem) :
    p.kept s (execControlReplyReceived l words s) := by
  simp [execControlReplyReceived]
  split <;> simp [hp]

@[simp] theorem kept_execControlReplyTimeout (l tag) (hp : p ≠ .lane) : p.kept s (execControlReplyTimeout l tag s) := by
  unfold execControlReplyTimeout
  split <;> simp [hp]

@[simp] theorem same_ident (l ws) (hp : p ≠ .chan ∧ p ≠ .lane ∧ p ≠ .mem ∧ p ≠ .pnl) :
    p.same s0 (s.ident l ws) ↔ p.same s0 s := by
  simp [State.ident, hp]

@[simp] theorem kept_execIdentReceived (l words) (hp : p ≠ .chan ∧ p ≠ .lane ∧ p ≠ .mem ∧ p ≠ .pnl) :
    p.kept s (execIdentReceived l words s) := by
  simp [execIdentReceived]
  split <;> simp [hp]

@[simp] theorem kept_execLosAssert (l) : p.kept s (execLosAssert l s) := by
  simp [execLosAssert]

@[simp] theorem kept_execLosClear (l) (hp : p ≠ .lane) : p.kept s (execLosClear l s) := by
  simp [execLosClear, hp]

@[simp] theorem same_sendFrame (l trn) (hp : p ≠ .lane) : p.same s0 (s.sendFrame l trn) ↔ p.same s0 s := by
  rw [State.sendFrame, same_setLn _ _ hp, same_sendBlocks _ _ hp]

@[simp] theorem same_trainStart (l preset) (hp : p ≠ .chan ∧ p ≠ .lane ∧ p ≠ .mem) :
    p.same s0 (s.trainStart l preset) ↔ p.same s0 s := by
  simp [State.trainStart, hp]

@[simp] theorem kept_execInsertDebounce (l) (hp : p ≠ .chan ∧ p ≠ .lane ∧ p ≠ .mem ∧ p ≠ .pnl) :
    p.kept s (execInsertDebounce l s) := by
  simp [execInsertDebounce, hp]

@[simp] theorem kept_execBlockLock (l bad) (hp : p ≠ .chan ∧ p ≠ .lane ∧ p ≠ .mem) : p.kept s (execBlockLock l bad s)
    := by
  simp [execBlockLock, hp]

@[simp] theorem kept_execLockLoss (l bad) (hp : p ≠ .lane) : p.kept s (execLockLoss l bad s) := by
  simp [execLockLoss, hp]

@[simp] theorem kept_execLolGraceExpiry (l) (hp : p ≠ .chan ∧ p ≠ .lane ∧ p ≠ .mem) :
    p.kept s (execLolGraceExpiry l s) := by
  simp [execLolGraceExpiry, hp]

@[simp] theorem kept_execLosRemoveTimeout (l) (hp : p ≠ .chan ∧ p ≠ .lane ∧ p ≠ .mem ∧ p ≠ .pnl) :
    p.kept s (execLosRemoveTimeout l s) := by
  simp [execLosRemoveTimeout, hp]

@[simp] theorem same_dfeAdapts (l) : p.same s0 (s.dfeAdapts l) ↔ p.same s0 s := by
  simp [State.dfeAdapts]

@[simp] theorem same_adapted (l) : p.same s0 (s.adapted l) ↔ p.same s0 s := by
  simp [State.adapted]

@[simp] theorem same_trainEnd (l) (hp : p ≠ .chan ∧ p ≠ .lane ∧ p ≠ .mem) :
    p.same s0 (s.trainEnd l) ↔ p.same s0 s := by
  simp [State.trainEnd, hp]

@[simp] theorem kept_execTrainingFrameReceived (l trn ready) (hp : p ≠ .chan ∧ p ≠ .lane ∧ p ≠ .mem) :
    p.kept s (execTrainingFrameReceived l trn ready s) := by
  simp [execTrainingFrameReceived, hp]

@[simp] theorem kept_execTrainingTimeout (l) (hp : p ≠ .chan ∧ p ≠ .lane ∧ p ≠ .mem ∧ p ≠ .pnl) :
    p.kept s (execTrainingTimeout l s) := by
  simp [execTrainingTimeout, hp]

@[simp] theorem kept_execFailedRetry (l) (hp : p ≠ .chan ∧ p ≠ .lane ∧ p ≠ .mem) : p.kept s (execFailedRetry l s) := by
  simp [execFailedRetry, hp]

@[simp] theorem kept_execLockingTimeout (l) (hp : p ≠ .chan ∧ p ≠ .lane ∧ p ≠ .mem) :
    p.kept s (execLockingTimeout l s) := by
  simp [execLockingTimeout, hp]

@[simp] theorem kept_execIdentTimeout (l) (hp : p ≠ .chan ∧ p ≠ .lane ∧ p ≠ .mem) : p.kept s (execIdentTimeout l s)
    := by
  simp [execIdentTimeout, hp]

@[simp] theorem kept_execIdleEntReceived (l) (hp : p ≠ .chan ∧ p ≠ .lane ∧ p ≠ .mem) :
    p.kept s (execIdleEntReceived l s) := by
  simp [execIdleEntReceived, hp]

@[simp] theorem kept_execAlignReceived (l block) (hp : p ≠ .lane ∧ p ≠ .mem) : p.kept s (execAlignReceived l block s)
    := by
  simp [execAlignReceived]
  split <;> simp [hp]

@[simp] theorem same_laneEn (l on) (hp : p ≠ .chan ∧ p ≠ .lane ∧ p ≠ .mem) :
    p.same s0 (s.laneEn l on) ↔ p.same s0 s := by
  simp [State.laneEn, hp]

@[simp] theorem kept_execLaneEnable (l on) (hp : p ≠ .chan ∧ p ≠ .lane ∧ p ≠ .mem) : p.kept s (execLaneEnable l on s)
    := by
  simp [execLaneEnable, hp]

@[simp] theorem same_laneIdle (l) (hp : p ≠ .chan ∧ p ≠ .lane ∧ p ≠ .mem) :
    p.same s0 (s.laneIdle l) ↔ p.same s0 s := by
  simp [State.laneIdle, hp]

@[simp] theorem kept_execLaneIdleReq (l) (hp : p ≠ .chan ∧ p ≠ .lane ∧ p ≠ .mem) : p.kept s (execLaneIdleReq l s) := by
  simp [execLaneIdleReq, hp]

@[simp] theorem same_laneWake (l) (hp : p ≠ .chan ∧ p ≠ .lane ∧ p ≠ .mem) :
    p.same s0 (s.laneWake l) ↔ p.same s0 s := by
  simp [State.laneWake, hp]

@[simp] theorem kept_execLaneWakeReq (l) (hp : p ≠ .chan ∧ p ≠ .lane ∧ p ≠ .mem) : p.kept s (execLaneWakeReq l s) := by
  simp [execLaneWakeReq, hp]

@[simp] theorem kept_execWakeBurstTimeout (l) (hp : p ≠ .chan ∧ p ≠ .lane ∧ p ≠ .mem ∧ p ≠ .pnl) :
    p.kept s (execWakeBurstTimeout l s) := by
  simp [execWakeBurstTimeout, hp]

/-! ## The operations of `Sys2Proof/Machine/Correction.lean` -/

@[simp] theorem same_setSm (ch x) (hp : p ≠ .seam) : p.same s0 (s.setSm ch x) ↔ p.same s0 s := by
  simp [State.setSm, hp]

@[simp] theorem same_lampApply (g k ch aux v) (hp : p ≠ .chan) :
    p.same s0 (s.lampApply g k ch aux v) ↔ p.same s0 s := by
  simp [State.lampApply, hp]

@[simp] theorem same_lampGain (g k ch z) : p.same s0 (s.lampGain g k ch z) ↔ p.same s0 s := by
  simp [State.lampGain]
  split <;> simp

@[simp] theorem same_lampCourse (g ch k) (hp : p ≠ .chan) : p.same s0 (s.lampCourse g ch k) ↔ p.same s0 s := by
  simp [State.lampCourse, hp]

@[simp] theorem same_statClose (ch kind last st) (hp : p ≠ .mem) :
    p.same s0 (s.statClose ch kind last st) ↔ p.same s0 s := by
  simp [State.statClose, hp]

@[simp] theorem same_statCourse (ch kind k acc line spare pix) (hp : p ≠ .mem) :
    p.same s0 (s.statCourse ch kind k acc line spare pix).1 ↔ p.same s0 s := by
  unfold State.statCourse
  dsimp only
  repeat' split
  all_goals simp [hp]

@[simp] theorem same_statEnd (ch last) (hp : p ≠ .chan ∧ p ≠ .mem) : p.same s0 (s.statEnd ch last) ↔ p.same s0 s := by
  unfold State.statEnd
  dsimp only
  repeat' split
  all_goals simp [hp]

@[simp] theorem same_gaugePend (ch) : p.same s0 (s.gaugePend ch) ↔ p.same s0 s := by
  simp [State.gaugePend]

@[simp] theorem same_gaugeReq (ch course temp pages) (hp : p ≠ .chan) :
    p.same s0 (s.gaugeReq ch course temp pages) ↔ p.same s0 s := by
  simp [State.gaugeReq, hp]

@[simp] theorem same_tempCheck (g c) (hp : p ≠ .chan) : p.same s0 (s.tempCheck g c) ↔ p.same s0 s := by
  simp only [State.tempCheck, same_ite]
  split
  · rfl
  · refine same_forL _ fun ch t => ?_
    split <;> simp [hp]

@[simp] theorem same_gaugeRead (ch a n) (hp : p ≠ .mem) : p.same s0 (s.gaugeRead ch a n).1 ↔ p.same s0 s := by
  unfold State.gaugeRead
  dsimp only
  split <;> simp [hp]

@[simp] theorem same_gaugePoint (ch base npix i crc) (hp : p ≠ .mem) :
    p.same s0 (s.gaugePoint ch base npix i crc).1 ↔ p.same s0 s := by
  unfold State.gaugePoint
  dsimp only
  split <;> simp [hp]

@[simp] theorem same_gaugeCompute (ch sel temp) (hp : p ≠ .mem) :
    p.same s0 (s.gaugeCompute ch sel temp).1 ↔ p.same s0 s := by
  unfold State.gaugeCompute
  dsimp only
  repeat' split
  all_goals simp [hp]

@[simp] theorem same_gaugeFail (ch e) (hp : p ≠ .mem) : p.same s0 (s.gaugeFail ch e) ↔ p.same s0 s := by
  unfold State.gaugeFail
  split <;> simp [hp]

@[simp] theorem same_calRecord (ch c temp) : p.same s0 (s.calRecord ch c temp) ↔ p.same s0 s := by
  simp [State.calRecord]

@[simp] theorem same_calStamp (ch sec ns) (hp : p ≠ .chan) : p.same s0 (s.calStamp ch sec ns) ↔ p.same s0 s := by
  simp [State.calStamp, hp]

@[simp] theorem same_calTime (ch) (hp : p ≠ .chan) : p.same s0 (s.calTime ch) ↔ p.same s0 s := by
  simp [State.calTime, hp]

@[simp] theorem same_jrnGauge (g ch c u) (hp : p ≠ .mem) : p.same s0 (s.jrnGauge g ch c u) ↔ p.same s0 s := by
  simp [State.jrnGauge, hp]

@[simp] theorem same_gaugeTrigger (g c) (hp : p ≠ .chan ∧ p ≠ .mem) :
    p.same s0 (s.gaugeTrigger g c) ↔ p.same s0 s := by
  refine same_forL _ fun ch t => ?_
  dsimp only
  split <;> split <;> simp [hp]

@[simp] theorem same_gaugeFirst (g l) (hp : p ≠ .chan ∧ p ≠ .mem) : p.same s0 (s.gaugeFirst g l).1 ↔ p.same s0 s := by
  induction l generalizing s with
  | nil => simp [State.gaugeFirst]
  | cons ch chs ih =>
    simp only [State.gaugeFirst, same_ite_fst]
    split
    · exact ih
    · split <;> simp [ih, hp]

@[simp] theorem same_capLine (g ch k) (hp : p ≠ .mem) : p.same s0 (s.capLine g ch k) ↔ p.same s0 s := by
  unfold State.capLine
  split <;> simp [hp]

@[simp] theorem same_correctCourse (g ch k ecc) (hp : p ≠ .chan ∧ p ≠ .csw ∧ p ≠ .mem) :
    p.same s0 (s.correctCourse g ch k ecc) ↔ p.same s0 s := by
  simp [State.correctCourse, hp]

@[simp] theorem kept_execChannelCourseStart (ch ecc) (hp : p ≠ .chan ∧ p ≠ .csw ∧ p ≠ .mem) :
    p.kept s (execChannelCourseStart ch ecc s) := by
  unfold execChannelCourseStart
  split <;> simp [hp]

@[simp] theorem kept_execGaugeJobStart (region) (hp : p ≠ .chan) : p.kept s (execGaugeJobStart region s) := by
  unfold execGaugeJobStart
  split <;> simp [hp]

@[simp] theorem kept_execGaugeJobComplete (region) (hp : p ≠ .chan ∧ p ≠ .mem) :
    p.kept s (execGaugeJobComplete region s) := by
  unfold execGaugeJobComplete
  dsimp only
  repeat' split
  all_goals simp [hp]

/-! ## The operations of `Sys2Proof/Machine/Seam.lean` -/

@[simp] theorem same_setSmG (g x) (hp : p ≠ .seamG) : p.same s0 (s.setSmG g x) ↔ p.same s0 s := by
  simp [State.setSmG, hp]

@[simp] theorem same_seamGeometry (g) : p.same s0 (s.seamGeometry g) ↔ p.same s0 s := by
  simp [State.seamGeometry]

@[simp] theorem same_setOff (ch k keep d) (hp : p ≠ .seam) : p.same s0 (s.setOff ch k keep d) ↔ p.same s0 s := by
  simp [State.setOff, hp]

@[simp] theorem same_initOff (g ch k) (hp : p ≠ .seam) : p.same s0 (s.initOff g ch k) ↔ p.same s0 s := by
  simp [State.initOff, hp]

@[simp] theorem same_seamJoins (g c) (hp : p ≠ .seam) : p.same s0 (s.seamJoins g c) ↔ p.same s0 s := by
  simp [State.seamJoins, hp]

@[simp] theorem same_seamStart (g) (hp : p ≠ .seam ∧ p ≠ .seamG) : p.same s0 (s.seamStart g) ↔ p.same s0 s := by
  simp [State.seamStart, hp]

@[simp] theorem same_measure (g ch k za zb) (hp : p ≠ .seam) : p.same s0 (s.measure g ch k za zb) ↔ p.same s0 s := by
  simp [State.measure, hp]

@[simp] theorem same_showHold (g) : p.same s0 (s.showHold g) ↔ p.same s0 s := by
  simp [State.showHold]

@[simp] theorem same_seamTo (ch st) : p.same s0 (s.seamTo ch st) ↔ p.same s0 s := by
  simp [State.seamTo]

@[simp] theorem same_evalSeam (g ch c len) (hp : p ≠ .mem) : p.same s0 (s.evalSeam g ch c len).1 ↔ p.same s0 s := by
  simp [State.evalSeam, hp]

@[simp] theorem same_seamPush (g e) (hp : p ≠ .mem) : p.same s0 (s.seamPush g e) ↔ p.same s0 s := by
  simp [State.seamPush, hp]

@[simp] theorem same_evalSeams (g c len l) (hp : p ≠ .mem) : p.same s0 (s.evalSeams g c len l).1 ↔ p.same s0 s := by
  induction l generalizing s with
  | nil => simp [State.evalSeams]
  | cons ch chs ih => simp [State.evalSeams, ih, hp]

@[simp] theorem same_blockEnd (g k) (hp : p ≠ .mem ∧ p ≠ .seam ∧ p ≠ .seamG) :
    p.same s0 (s.blockEnd g k) ↔ p.same s0 s := by
  simp [State.blockEnd, hp]

@[simp] theorem same_seamOpen (g k) (hp : p ≠ .csw ∧ p ≠ .seam ∧ p ≠ .seamG) :
    p.same s0 (s.seamOpen g k) ↔ p.same s0 s := by
  simp [State.seamOpen, hp]

@[simp] theorem same_selvCourse (g k) (hp : p ≠ .seamG) : p.same s0 (s.selvCourse g k) ↔ p.same s0 s := by
  unfold State.selvCourse
  dsimp only
  repeat' split
  all_goals simp [hp]

@[simp] theorem same_selvRun (g n) (hp : p ≠ .seamG) : p.same s0 (s.selvRun g n) ↔ p.same s0 s := by
  induction n generalizing s with
  | zero => simp [State.selvRun]
  | succ n ih => simp [State.selvRun, ih, hp]

@[simp] theorem same_slotFree (ch k) (hp : p ≠ .chan) : p.same s0 (s.slotFree ch k) ↔ p.same s0 s := by
  simp [State.slotFree, hp]

@[simp] theorem same_seamTrim (g ch) (hp : p ≠ .chan) : p.same s0 (s.seamTrim g ch) ↔ p.same s0 s := by
  simp [State.seamTrim, hp]

@[simp] theorem same_haloWait (g ch k) : p.same s0 (s.haloWait g ch k) ↔ p.same s0 s := by
  simp [State.haloWait]

@[simp] theorem same_seamCourse (g ch k) (hp : p ≠ .chan ∧ p ≠ .csw ∧ p ≠ .mem ∧ p ≠ .seam ∧ p ≠ .seamG) :
    p.same s0 (s.seamCourse g ch k) ↔ p.same s0 s := by
  simp [State.seamCourse, hp]

@[simp] theorem kept_execSeamOutputStart (ch) (hp : p ≠ .chan ∧ p ≠ .csw ∧ p ≠ .mem ∧ p ≠ .seam ∧ p ≠ .seamG) :
    p.kept s (execSeamOutputStart ch s) := by
  unfold execSeamOutputStart
  split <;> simp [hp]

@[simp] theorem kept_execRegBlockEnd (g) (hp : p ≠ .mem ∧ p ≠ .seam ∧ p ≠ .seamG) : p.kept s (execRegBlockEnd g s) := by
  simp [execRegBlockEnd, hp]

/-! ## The operations of `Sys2Proof/Machine/Segment.lean` -/

@[simp] theorem same_setSg (g x) (hp : p ≠ .segG) : p.same s0 (s.setSg g x) ↔ p.same s0 s := by
  simp [State.setSg, hp]

@[simp] theorem same_segStart (g) (hp : p ≠ .segG) : p.same s0 (s.segStart g) ↔ p.same s0 s := by
  simp [State.segStart, hp]

@[simp] theorem same_segJoins (g c) : p.same s0 (s.segJoins g c) ↔ p.same s0 s := by
  simp [State.segJoins]

@[simp] theorem same_holdShow (g) : p.same s0 (s.holdShow g) ↔ p.same s0 s := by
  simp [State.holdShow]

@[simp] theorem same_holdFrom (g c) (hp : p ≠ .segG) : p.same s0 (s.holdFrom g c) ↔ p.same s0 s := by
  simp [State.holdFrom, hp]

@[simp] theorem same_combTo (g k) (hp : p ≠ .segG) : p.same s0 (s.combTo g k) ↔ p.same s0 s := by
  simp [State.combTo, hp]

@[simp] theorem same_thrCourse (g k) (hp : p ≠ .segG) : p.same s0 (s.thrCourse g k) ↔ p.same s0 s := by
  simp [State.thrCourse, hp]

@[simp] theorem same_thrTo (g k) (hp : p ≠ .segG) : p.same s0 (s.thrTo g k) ↔ p.same s0 s := by
  simp [State.thrTo, hp]

@[simp] theorem same_mapCourse (g c) (hp : p ≠ .segG) : p.same s0 (s.mapCourse g c) ↔ p.same s0 s := by
  simp [State.mapCourse, hp]

@[simp] theorem kept_execSegmentMapCourse (g) (hp : p ≠ .segG) : p.kept s (execSegmentMapCourse g s) := by
  simp [execSegmentMapCourse, hp]

@[simp] theorem same_takeChunk (g) (hp : p ≠ .segG) : p.same s0 (s.takeChunk g).1 ↔ p.same s0 s := by
  simp [State.takeChunk, hp]

@[simp] theorem same_appendRun (g seg bs n) (hp : p ≠ .mem ∧ p ≠ .segG) :
    p.same s0 (s.appendRun g seg bs n).1 ↔ p.same s0 s := by
  induction n generalizing s seg bs with
  | zero => simp [State.appendRun]
  | succ n ih => simp [State.appendRun, ih, hp]

@[simp] theorem same_runDropped (g c r) (hp : p ≠ .mem ∧ p ≠ .segG) :
    p.same s0 (s.runDropped g c r) ↔ p.same s0 s := by
  simp [State.runDropped, hp]

@[simp] theorem same_storeRun (g c seg r) (hp : p ≠ .mem ∧ p ≠ .segG) :
    p.same s0 (s.storeRun g c seg r).1 ↔ p.same s0 s := by
  simp [State.storeRun, hp]

@[simp] theorem same_segAdd (g c overC seg r) (hp : p ≠ .mem ∧ p ≠ .segG) :
    p.same s0 (s.segAdd g c overC seg r).1 ↔ p.same s0 s := by
  simp [State.segAdd, hp]

@[simp] theorem same_segAddAll (g c overC seg l) (hp : p ≠ .mem ∧ p ≠ .segG) :
    p.same s0 (s.segAddAll g c overC seg l).1 ↔ p.same s0 s := by
  induction l generalizing s seg with
  | nil => simp [State.segAddAll]
  | cons r rs ih => simp [State.segAddAll, ih, hp]

@[simp] theorem same_segJoin (g a b) (hp : p ≠ .mem) : p.same s0 (s.segJoin g a b).1 ↔ p.same s0 s := by
  simp [State.segJoin, hp]

@[simp] theorem same_resolveReal (g c x w r) (hp : p ≠ .mem ∧ p ≠ .segG) :
    p.same s0 (s.resolveReal g c x w r).1 ↔ p.same s0 s := by
  unfold State.resolveReal
  dsimp only
  split <;> simp [hp]

@[simp] theorem same_resolveNew (g c avail w r) (hp : p ≠ .mem ∧ p ≠ .segG) :
    p.same s0 (s.resolveNew g c avail w r).1 ↔ p.same s0 s := by
  simp [State.resolveNew, hp]

@[simp] theorem same_showOpen (g) : p.same s0 (s.showOpen g) ↔ p.same s0 s := by
  simp [State.showOpen]

@[simp] theorem same_overNote (g c pix) (hp : p ≠ .csw ∧ p ≠ .mem ∧ p ≠ .segG) :
    p.same s0 (s.overNote g c pix) ↔ p.same s0 s := by
  simp [State.overNote, hp]

@[simp] theorem same_resolveOver (g c x runs bridge row) (hp : p ≠ .mem ∧ p ≠ .segG) :
    p.same s0 (s.resolveOver g c x runs bridge row).1 ↔ p.same s0 s := by
  simp only [State.resolveOver, same_ite_fst]
  split
  · split <;> rfl
  · simp [hp]

@[simp] theorem same_resolve (g c runs) (hp : p ≠ .csw ∧ p ≠ .mem ∧ p ≠ .segG) :
    p.same s0 (s.resolve g c runs) ↔ p.same s0 s := by
  simp [State.resolve, hp]

@[simp] theorem kept_execResolution (g) (hp : p ≠ .csw ∧ p ≠ .mem ∧ p ≠ .segG) : p.kept s (execResolution g s) := by
  unfold execResolution
  dsimp only
  split <;> simp [hp]

@[simp] theorem same_segStop (g) (hp : p ≠ .segG) : p.same s0 (s.segStop g) ↔ p.same s0 s := by
  simp [State.segStop, hp]

@[simp] theorem kept_execDescriptorHand (g) (hp : p ≠ .mem ∧ p ≠ .segG) : p.kept s (execDescriptorHand g s) := by
  unfold execDescriptorHand
  dsimp only
  split <;> simp [hp]

@[simp] theorem same_descWait (g) : p.same s0 (s.descWait g) ↔ p.same s0 s := by
  simp [State.descWait]

/-! ## The operations of `Sys2Proof/Machine/Classify.lean` -/

@[simp] theorem same_readCls (unit a) (hp : p ≠ .mem) : p.same s0 (s.readCls unit a).1 ↔ p.same s0 s := by
  unfold State.readCls
  dsimp only
  repeat' split
  all_goals simp [hp]

@[simp] theorem same_slotsOk (g shadow l) (hp : p ≠ .mem) : p.same s0 (s.slotsOk g shadow l).1 ↔ p.same s0 s := by
  induction l generalizing s with
  | nil => simp [State.slotsOk]
  | cons i is ih =>
    simp only [State.slotsOk]
    generalize (if shadow = true then s.getSh (gtalB g) (F.SLOT_CTRL_EN.nth i) else s.getF (gtalB g) (F.SLOT_CTRL_EN.nth i)) = en
    rw [same_ite_fst]
    split
    · exact ih
    · split <;> simp [ih, hp]

/-! ## The operations of `Sys2Proof/Machine/Tally.lean` -/

@[simp] theorem same_setTg (g x) (hp : p ≠ .tal) : p.same s0 (s.setTg g x) ↔ p.same s0 s := by
  simp [State.setTg, hp]

@[simp] theorem same_showJobs (g) : p.same s0 (s.showJobs g) ↔ p.same s0 s := by
  simp [State.showJobs]

@[simp] theorem same_giveJob (g e j) (hp : p ≠ .tal) : p.same s0 (s.giveJob g e j) ↔ p.same s0 s := by
  simp [State.giveJob, hp]

@[simp] theorem kept_execJobDispatch (g) (hp : p ≠ .mem ∧ p ≠ .tal ∧ p ≠ .tallyLast) : p.kept s (execJobDispatch g s)
    := by
  unfold execJobDispatch
  dsimp only
  repeat' split
  all_goals simp [hp]

@[simp] theorem same_readPieces (unit a n fuel) (hp : p ≠ .mem) :
    p.same s0 (s.readPieces unit a n fuel).1 ↔ p.same s0 s := by
  induction fuel generalizing s a n with
  | zero => simp [State.readPieces]
  | succ fuel ih => simp [State.readPieces, ih, hp]

@[simp] theorem same_readChain (unit a fuel) (hp : p ≠ .mem) : p.same s0 (s.readChain unit a fuel).1 ↔ p.same s0 s := by
  induction fuel generalizing s a with
  | zero => simp [State.readChain]
  | succ fuel ih =>
    simp only [State.readChain, same_ite_fst]
    split
    · rfl
    · split <;> simp [ih, hp]

@[simp] theorem same_histWrite (g c enc) (hp : p ≠ .mem) : p.same s0 (s.histWrite g c enc) ↔ p.same s0 s := by
  simp [State.histWrite, hp]

@[simp] theorem same_histRead (g unit c) (hp : p ≠ .mem) : p.same s0 (s.histRead g unit c).1 ↔ p.same s0 s := by
  unfold State.histRead
  dsimp only
  split <;> simp [hp]

@[simp] theorem same_placeOf (g unit d f) (hp : p ≠ .mem) : p.same s0 (s.placeOf g unit d f).1 ↔ p.same s0 s := by
  simp [State.placeOf]
  split <;> simp [hp]

@[simp] theorem same_classify (g unit h d fv q) (hp : p ≠ .mem) :
    p.same s0 (s.classify g unit h d fv q).1 ↔ p.same s0 s := by
  unfold State.classify
  dsimp only
  repeat' split
  all_goals simp [hp]

@[simp] theorem same_returnChunks (g cs) (hp : p ≠ .segG) : p.same s0 (s.returnChunks g cs) ↔ p.same s0 s := by
  simp [State.returnChunks, hp]

@[simp] theorem same_rerunCompare (g id bytes) (hp : p ≠ .mem) :
    p.same s0 (s.rerunCompare g id bytes) ↔ p.same s0 s := by
  unfold State.rerunCompare
  split <;> simp [hp]

@[simp] theorem same_recordDone (g j course bytes src idx chunks) (hp : p ≠ .mem ∧ p ≠ .segG ∧ p ≠ .tal) :
    p.same s0 (s.recordDone g j course bytes src idx chunks) ↔ p.same s0 s := by
  simp [State.recordDone, hp]

@[simp] theorem same_patchWrite (g id en bytes) (hp : p ≠ .mem) :
    p.same s0 (s.patchWrite g id en bytes).1 ↔ p.same s0 s := by
  unfold State.patchWrite
  split <;> simp [hp]

@[simp] theorem same_fillOf (d) : p.same s0 (s.fillOf d).1 ↔ p.same s0 s := by
  simp [State.fillOf]

@[simp] theorem same_rerunFails (g bad) : p.same s0 (s.rerunFails g bad) ↔ p.same s0 s := by
  simp [State.rerunFails]

@[simp] theorem same_completeJob (g unit j failed) (hp : p ≠ .mem ∧ p ≠ .segG ∧ p ≠ .tal) :
    p.same s0 (s.completeJob g unit j failed) ↔ p.same s0 s := by
  unfold State.completeJob
  dsimp only
  split <;> simp [hp]

@[simp] theorem kept_execJobComplete (e) (hp : p ≠ .mem ∧ p ≠ .segG ∧ p ≠ .tal) : p.kept s (execJobComplete e s) := by
  simp [execJobComplete]
  split <;> simp [hp]

@[simp] theorem same_releaseTo (g r) (hp : p ≠ .mem ∧ p ≠ .tal) : p.same s0 (s.releaseTo g r) ↔ p.same s0 s := by
  unfold State.releaseTo
  dsimp only
  split <;> simp [hp]

@[simp] theorem kept_execRecordRelease (g) (hp : p ≠ .mem ∧ p ≠ .tal) : p.kept s (execRecordRelease g s) := by
  simp [execRecordRelease, hp]

@[simp] theorem same_engineFails (e f) (hp : p ≠ .mem ∧ p ≠ .segG ∧ p ≠ .tal) :
    p.same s0 (s.engineFails e f) ↔ p.same s0 s := by
  unfold State.engineFails
  dsimp only
  split <;> simp [hp]

@[simp] theorem kept_execEngineFault (e residue) (hp : p ≠ .mem ∧ p ≠ .segG ∧ p ≠ .tal) :
    p.kept s (execEngineFault e residue s) := by
  simp [execEngineFault, hp]

@[simp] theorem kept_execEngineWatchdog (e) (hp : p ≠ .mem ∧ p ≠ .segG ∧ p ≠ .tal) :
    p.kept s (execEngineWatchdog e s) := by
  simp [execEngineWatchdog, hp]

@[simp] theorem same_teRestore (e) : p.same s0 (s.teRestore e) ↔ p.same s0 s := by
  simp [State.teRestore]

@[simp] theorem kept_execTeRestore (e) : p.kept s (execTeRestore e s) := by
  simp [execTeRestore]

@[simp] theorem same_releaseRings (g) (hp : p ≠ .mem) : p.same s0 (s.releaseRings g) ↔ p.same s0 s := by
  simp [State.releaseRings, hp]

@[simp] theorem kept_execDrainEnd (g) (hp : p ≠ .chan ∧ p ≠ .grp ∧ p ≠ .mem) : p.kept s (execDrainEnd g s) := by
  simp [execDrainEnd, hp]

/-! ## The operations of `Sys2Proof/Machine/AuxChain.lean` -/

@[simp] theorem same_setAx (c a) (hp : p ≠ .aux) : p.same s0 (s.setAx c a) ↔ p.same s0 s := by
  simp [State.setAx, hp]

@[simp] theorem same_submit (g cls src what) (hp : p ≠ .flight) :
    p.same s0 (s.submit g cls src what) ↔ p.same s0 s := by
  simp [State.submit, hp]

@[simp] theorem same_accept (hp : p ≠ .accepts) : p.same s0 s.accept ↔ p.same s0 s := by
  simp [State.accept, hp]

@[simp] theorem same_holdNow (g) (hp : p ≠ .accepts ∧ p ≠ .flight) : p.same s0 (s.holdNow g) ↔ p.same s0 s := by
  simp [State.holdNow, hp]

@[simp] theorem kept_execMaskHoldNow (g) (hp : p ≠ .accepts ∧ p ≠ .flight) : p.kept s (execMaskHoldNow g s) := by
  simp [execMaskHoldNow, hp]

@[simp] theorem same_auxSat (c) : p.same s0 (s.auxSat c) ↔ p.same s0 s := by
  simp [State.auxSat]

@[simp] theorem same_auxClamp (c w v) : p.same s0 (s.auxClamp c w v).1 ↔ p.same s0 s := by
  simp [State.auxClamp]

@[simp] theorem same_auxRingPut (c) (hp : p ≠ .aux ∧ p ≠ .mem) : p.same s0 (s.auxRingPut c) ↔ p.same s0 s := by
  simp [State.auxRingPut, hp]

@[simp] theorem same_auxRing (c y3) (hp : p ≠ .aux ∧ p ≠ .mem) : p.same s0 (s.auxRing c y3) ↔ p.same s0 s := by
  simp [State.auxRing, hp]

@[simp] theorem same_auxThreshold (c y3) : p.same s0 (s.auxThreshold c y3) ↔ p.same s0 s := by
  simp [State.auxThreshold]

@[simp] theorem same_auxSample (c y3) (hp : p ≠ .aux ∧ p ≠ .flight ∧ p ≠ .mem ∧ p ≠ .tag) :
    p.same s0 (s.auxSample c y3) ↔ p.same s0 s := by
  simp [State.auxSample, hp]

@[simp] theorem same_auxMedian (c y2) (hp : p ≠ .aux ∧ p ≠ .flight ∧ p ≠ .mem ∧ p ≠ .tag) :
    p.same s0 (s.auxMedian c y2) ↔ p.same s0 s := by
  simp [State.auxMedian, hp]

@[simp] theorem same_auxFir (c y1) (hp : p ≠ .aux ∧ p ≠ .flight ∧ p ≠ .mem ∧ p ≠ .tag) :
    p.same s0 (s.auxFir c y1) ↔ p.same s0 s := by
  unfold State.auxFir
  dsimp only
  repeat' split
  all_goals simp [hp]

@[simp] theorem same_auxBit (c v) (hp : p ≠ .aux ∧ p ≠ .flight ∧ p ≠ .mem ∧ p ≠ .tag) :
    p.same s0 (s.auxBit c v) ↔ p.same s0 s := by
  simp [State.auxBit, hp]

@[simp] theorem same_auxStart (c) (hp : p ≠ .aux ∧ p ≠ .mem) : p.same s0 (s.auxStart c) ↔ p.same s0 s := by
  simp [State.auxStart, hp]

@[simp] theorem same_auxStop (c) (hp : p ≠ .aux ∧ p ≠ .mem ∧ p ≠ .tag) : p.same s0 (s.auxStop c) ↔ p.same s0 s := by
  simp [State.auxStop, hp]

@[simp] theorem same_auxSync (hp : p ≠ .aux) : p.same s0 s.auxSync ↔ p.same s0 s := by
  simp [State.auxSync, hp]

@[simp] theorem same_auxSyncDrive (hp : p ≠ .aux) : p.same s0 s.auxSyncDrive ↔ p.same s0 s := by
  simp [State.auxSyncDrive, hp]

@[simp] theorem same_mdivWrite (k v) (hp : p ≠ .mclkAt) : p.same s0 (s.mdivWrite k v) ↔ p.same s0 s := by
  simp [State.mdivWrite, hp]

@[simp] theorem kept_execAuxClkWrite (k mdiv) (hp : p ≠ .mclkAt) : p.kept s (execAuxClkWrite k mdiv s) := by
  simp [execAuxClkWrite, hp]

@[simp] theorem kept_execAuxRunRise (c) (hp : p ≠ .aux ∧ p ≠ .mem) : p.kept s (execAuxRunRise c s) := by
  simp [execAuxRunRise, hp]

@[simp] theorem kept_execAuxRunFall (c) (hp : p ≠ .aux ∧ p ≠ .mem ∧ p ≠ .tag) : p.kept s (execAuxRunFall c s) := by
  simp [execAuxRunFall, hp]

@[simp] theorem kept_execAuxOutput (c mdat) (hp : p ≠ .aux ∧ p ≠ .flight ∧ p ≠ .mem ∧ p ≠ .tag) :
    p.kept s (execAuxOutput c mdat s) := by
  simp [execAuxOutput, hp]

@[simp] theorem kept_execAuxSyncWrite (hp : p ≠ .aux) : p.kept s (execAuxSyncWrite s) := by
  simp [execAuxSyncWrite, hp]

@[simp] theorem kept_execAuxsyncEdge (hp : p ≠ .aux) : p.kept s (execAuxsyncEdge s) := by
  simp [execAuxsyncEdge, hp]

@[simp] theorem kept_execSyncPhaseReset (c) (hp : p ≠ .aux) : p.kept s (execSyncPhaseReset c s) := by
  simp [execSyncPhaseReset, hp]

/-! ## The operations of `Sys2Proof/Machine/Views.lean` -/

@[simp] theorem same_viewShow (v on) : p.same s0 (s.viewShow v on) ↔ p.same s0 s := by
  simp [State.viewShow]

@[simp] theorem same_viewStart (v) (hp : p ≠ .mem ∧ p ≠ .view ∧ p ≠ .viewOld) :
    p.same s0 (s.viewStart v) ↔ p.same s0 s := by
  simp [State.viewStart, hp]

@[simp] theorem same_viewStop (v) (hp : p ≠ .mem) : p.same s0 (s.viewStop v) ↔ p.same s0 s := by
  simp [State.viewStop, hp]

@[simp] theorem same_viewsGroup (g on) (hp : p ≠ .lbGone ∧ p ≠ .lbNext ∧ p ≠ .view ∧ p ≠ .viewOld) :
    p.same s0 (s.viewsGroup g on) ↔ p.same s0 s := by
  simp [State.viewsGroup, hp]

@[simp] theorem same_viewKeep (v key old) (hp : p ≠ .viewOld) : p.same s0 (s.viewKeep v key old) ↔ p.same s0 s := by
  simp [State.viewKeep, hp]

@[simp] theorem same_trigTime (g k) (hp : p ≠ .mem) : p.same s0 (s.trigTime g k).1 ↔ p.same s0 s := by
  unfold State.trigTime
  split <;> simp [hp]

@[simp] theorem same_dpHold (v pw m) (hp : p ≠ .dpBuf) : p.same s0 (s.dpHold v pw m) ↔ p.same s0 s := by
  simp [State.dpHold, hp]

@[simp] theorem same_putRow (v course px flags) (hp : p ≠ .dpBuf ∧ p ≠ .mem) :
    p.same s0 (s.putRow v course px flags) ↔ p.same s0 s := by
  simp [State.putRow, hp]

@[simp] theorem kept_execViewRow (v skip) (hp : p ≠ .dpBuf ∧ p ≠ .mem ∧ p ≠ .view ∧ p ≠ .viewOld) :
    p.kept s (execViewRow v skip s) := by
  simp [execViewRow]
  split <;> simp [hp]

@[simp] theorem kept_execLookbackRow (g) (hp : p ≠ .lbGone ∧ p ≠ .lbNext ∧ p ≠ .mem) : p.kept s (execLookbackRow g s)
    := by
  simp [execLookbackRow]
  split <;> simp [hp]

@[simp] theorem same_lbRead (g v r) (hp : p ≠ .mem) : p.same s0 (s.lbRead g v r).1 ↔ p.same s0 s := by
  unfold State.lbRead
  dsimp only
  split <;> simp [hp]

@[simp] theorem same_lbReads (g v l) (hp : p ≠ .mem) : p.same s0 (s.lbReads g v l).1 ↔ p.same s0 s := by
  induction l generalizing s with
  | nil => simp [State.lbReads]
  | cons r rs ih => simp [State.lbReads, ih, hp]

@[simp] theorem kept_execLookbackPace (v) (hp : p ≠ .dpBuf ∧ p ≠ .mem ∧ p ≠ .view) : p.kept s (execLookbackPace v s)
    := by
  simp [execLookbackPace, hp]

@[simp] theorem same_dpRead (v) (hp : p ≠ .mem) : p.same s0 (s.dpRead v) ↔ p.same s0 s := by
  refine same_forN _ fun j t => ?_
  split <;> simp [hp]

@[simp] theorem kept_execVblankLatch (hp : p ≠ .dpRow ∧ p ≠ .mem) : p.kept s (execVblankLatch s) := by
  simp [execVblankLatch, hp]

/-! ## The operations of `Sys2Proof/Machine/Boundary.lean` -/

@[simp] theorem same_putKey (w rst) : p.same s0 (s.putKey w rst) ↔ p.same s0 s := by
  simp [State.putKey]

@[simp] theorem same_applyL (g c w) (hp : p ≠ .chan ∧ p ≠ .lane ∧ p ≠ .mem ∧ p ≠ .segG) :
    p.same s0 (s.applyL g c w) ↔ p.same s0 s := by
  unfold State.applyL
  dsimp only
  repeat' split
  all_goals simp [hp]

@[simp] theorem same_keepOld (c w) (hp : p ≠ .oldL) : p.same s0 (s.keepOld c w) ↔ p.same s0 s := by
  simp [State.keepOld, hp]

@[simp] theorem same_applyAt (g c w) (hp : p ≠ .chan ∧ p ≠ .lane ∧ p ≠ .mem ∧ p ≠ .oldL ∧ p ≠ .segG) :
    p.same s0 (s.applyAt g c w) ↔ p.same s0 s := by
  simp [State.applyAt, hp]

@[simp] theorem same_applyAll (g c l) (hp : p ≠ .chan ∧ p ≠ .lane ∧ p ≠ .mem ∧ p ≠ .oldL ∧ p ≠ .segG) :
    p.same s0 (s.applyAll g c l) ↔ p.same s0 s := by
  simp [State.applyAll, hp]

@[simp] theorem same_writesAt (g c) (hp : p ≠ .chan ∧ p ≠ .held ∧ p ≠ .lane ∧ p ≠ .live ∧ p ≠ .mem ∧ p ≠ .oldL ∧
    p ≠ .segG) :
    p.same s0 (s.writesAt g c) ↔ p.same s0 s := by
  simp [State.writesAt, hp]

@[simp] theorem same_writesStop (g) (hp : p ≠ .chan ∧ p ≠ .held ∧ p ≠ .lane ∧ p ≠ .live ∧ p ≠ .mem ∧ p ≠ .oldL ∧
    p ≠ .segG) :
    p.same s0 (s.writesStop g) ↔ p.same s0 s := by
  simp [State.writesStop, hp]

@[simp] theorem same_consumeOne (i) (hp : p ≠ .chan ∧ p ≠ .mem ∧ p ≠ .segG) :
    p.same s0 (s.consumeOne i) ↔ p.same s0 s := by
  unfold State.consumeOne
  dsimp only
  split <;> simp [hp]

@[simp] theorem same_consumeAt (g k) (hp : p ≠ .arrived ∧ p ≠ .chan ∧ p ≠ .mem ∧ p ≠ .segG) :
    p.same s0 (s.consumeAt g k) ↔ p.same s0 s := by
  simp [State.consumeAt, hp]

@[simp] theorem same_submitDev (cls src what) (hp : p ≠ .chan ∧ p ≠ .flight ∧ p ≠ .mem ∧ p ≠ .segG) :
    p.same s0 (s.submitDev cls src what) ↔ p.same s0 s := by
  unfold State.submitDev
  split <;> simp [hp]

@[simp] theorem same_takeWrite (g before items no) (hp : p ≠ .chan ∧ p ≠ .lane ∧ p ≠ .live ∧ p ≠ .mem ∧
    p ≠ .oldL ∧ p ≠ .segG) :
    p.same s0 (s.takeWrite g before items no) ↔ p.same s0 s := by
  simp [State.takeWrite, hp]

@[simp] theorem same_arrive (i) (hp : p ≠ .arrived ∧ p ≠ .chan ∧ p ≠ .csw ∧ p ≠ .lane ∧ p ≠ .live ∧ p ≠ .mem ∧
    p ≠ .oldL ∧ p ≠ .segG) :
    p.same s0 (s.arrive i) ↔ p.same s0 s := by
  simp [State.arrive, hp]

@[simp] theorem same_flightEnds (g) (hp : p ≠ .arrived ∧ p ≠ .chan ∧ p ≠ .csw ∧ p ≠ .flight ∧ p ≠ .lane ∧
    p ≠ .live ∧ p ≠ .mem ∧ p ≠ .oldL ∧ p ≠ .segG) :
    p.same s0 (s.flightEnds g) ↔ p.same s0 s := by
  simp [State.flightEnds, hp]

@[simp] theorem kept_execStampedInputArrival (cls source) (hp : p ≠ .arrived ∧ p ≠ .chan ∧ p ≠ .csw ∧ p ≠ .flight ∧
    p ≠ .lane ∧ p ≠ .live ∧ p ≠ .mem ∧ p ≠ .oldL ∧ p ≠ .segG) :
    p.kept s (execStampedInputArrival cls source s) := by
  unfold execStampedInputArrival
  split <;> simp [hp]

@[simp] theorem same_flip (set) (hp : p ≠ .shd) : p.same s0 (s.flip set) ↔ p.same s0 s := by
  simp [State.flip, hp]

@[simp] theorem same_copyBank (set) (hp : p ≠ .shd) : p.same s0 (s.copyBank set) ↔ p.same s0 s := by
  simp [State.copyBank, hp]

@[simp] theorem same_copyBack (e) (hp : p ≠ .shd) : p.same s0 (s.copyBack e) ↔ p.same s0 s := by
  simp [State.copyBack, hp]

@[simp] theorem same_keepBank (set c) (hp : p ≠ .oldL) : p.same s0 (s.keepBank set c) ↔ p.same s0 s := by
  simp [State.keepBank, hp]

@[simp] theorem same_swapNow (set c) (hp : p ≠ .chan ∧ p ≠ .copying ∧ p ≠ .mem ∧ p ≠ .oldL ∧ p ≠ .shd) :
    p.same s0 (s.swapNow set c) ↔ p.same s0 s := by
  simp [State.swapNow, hp]

@[simp] theorem same_swapDue (set c) (hp : p ≠ .chan ∧ p ≠ .copying ∧ p ≠ .mem ∧ p ≠ .oldL ∧ p ≠ .shd) :
    p.same s0 (s.swapDue set c) ↔ p.same s0 s := by
  simp [State.swapDue, hp]

@[simp] theorem same_swapCancel (set) (hp : p ≠ .mem) : p.same s0 (s.swapCancel set) ↔ p.same s0 s := by
  simp [State.swapCancel, hp]

@[simp] theorem same_idleEnd (hp : p ≠ .chan ∧ p ≠ .lane ∧ p ≠ .mem) : p.same s0 s.idleEnd ↔ p.same s0 s := by
  simp [State.idleEnd, hp]

/-! ## The operations of `Sys2Proof/Machine/Courses.lean` -/

@[simp] theorem same_checkpoint (g c) (hp : p ≠ .mem) : p.same s0 (s.checkpoint g c) ↔ p.same s0 s := by
  simp [State.checkpoint, hp]

@[simp] theorem same_freezeDue (hp : p ≠ .mem) : p.same s0 s.freezeDue ↔ p.same s0 s := by
  simp [State.freezeDue, hp]

@[simp] theorem same_syncSlip (hp : p ≠ .mem) : p.same s0 s.syncSlip ↔ p.same s0 s := by
  simp [State.syncSlip, hp]

@[simp] theorem same_syncTrigger (g c) (hp : p ≠ .mem ∧ p ≠ .sync) : p.same s0 (s.syncTrigger g c) ↔ p.same s0 s := by
  simp [State.syncTrigger]
  split <;> simp [hp]

@[simp] theorem same_swapsAt (g c) (hp : p ≠ .chan ∧ p ≠ .copying ∧ p ≠ .mem ∧ p ≠ .oldL ∧ p ≠ .shd) :
    p.same s0 (s.swapsAt g c) ↔ p.same s0 s := by
  simp [State.swapsAt, hp]

@[simp] theorem same_courseOpened (g c enc) (hp : p ≠ .chan ∧ p ≠ .csw ∧ p ≠ .lane ∧ p ≠ .mem ∧ p ≠ .seam ∧
    p ≠ .sync) :
    p.same s0 (s.courseOpened g c enc) ↔ p.same s0 s := by
  simp [State.courseOpened, hp]

@[simp] theorem same_trigger (g enc) (hp : p ∉ Footprint.trigger) : p.same s0 (s.trigger g enc) ↔ p.same s0 s := by
  simp at hp
  simp [State.trigger, hp]

@[simp] theorem same_issueCourse (g enc) (hp : p ∉ Footprint.trigger) :
    p.same s0 (s.issueCourse g enc) ↔ p.same s0 s := by
  simp at hp
  simp [State.issueCourse, hp]

@[simp] theorem same_divideOnce (g) (hp : p ∉ Footprint.trigger) : p.same s0 (s.divideOnce g) ↔ p.same s0 s := by
  simp at hp
  simp [State.divideOnce, hp]

@[simp] theorem same_courseStart (g) (hp : p ≠ .grp ∧ p ≠ .hist ∧ p ≠ .rezero ∧ p ≠ .sync) :
    p.same s0 (s.courseStart g) ↔ p.same s0 s := by
  simp [State.courseStart, hp]

@[simp] theorem same_setPx (q x) (hp : p ≠ .pos) : p.same s0 (s.setPx q x) ↔ p.same s0 s := by
  simp [State.setPx, hp]

@[simp] theorem same_posFlag (q f) : p.same s0 (s.posFlag q f) ↔ p.same s0 s := by
  simp [State.posFlag]

@[simp] theorem same_setValid (q v) : p.same s0 (s.setValid q v) ↔ p.same s0 s := by
  simp [State.setValid]

@[simp] theorem same_posMove (q d) (hp : p ∉ Footprint.motion) : p.same s0 (s.posMove q d) ↔ p.same s0 s := by
  simp at hp
  simp [State.posMove, hp]

@[simp] theorem same_put32 (b f v) : p.same s0 (s.put32 b f v) ↔ p.same s0 s := by
  simp [State.put32]

@[simp] theorem same_posSpeed (q v) (hp : p ≠ .cmp ∧ p ≠ .mem ∧ p ≠ .tag) :
    p.same s0 (s.posSpeed q v) ↔ p.same s0 s := by
  simp [State.posSpeed, hp]

@[simp] theorem same_quadChange (q pins now) (hp : p ∉ Footprint.motion) :
    p.same s0 (s.quadChange q pins now) ↔ p.same s0 s := by
  simp at hp
  simp [State.quadChange, hp]

@[simp] theorem same_hallStep (q d now) (hp : p ∉ Footprint.motion) :
    p.same s0 (s.hallStep q d now) ↔ p.same s0 s := by
  simp at hp
  unfold State.hallStep
  dsimp only
  split <;> simp [hp]

@[simp] theorem same_hallChange (q pins now) (hp : p ∉ Footprint.motion) :
    p.same s0 (s.hallChange q pins now) ↔ p.same s0 s := by
  simp at hp
  unfold State.hallChange
  dsimp only
  repeat' split
  all_goals simp [hp]

@[simp] theorem same_pinsTo (q pins now) (hp : p ∉ Footprint.motion) :
    p.same s0 (s.pinsTo q pins now) ↔ p.same s0 s := by
  simp at hp
  simp [State.pinsTo, hp]

@[simp] theorem kept_execEncoderTransition (q pins) (hp : p ∉ Footprint.motion) :
    p.kept s (execEncoderTransition q pins s) := by
  simp at hp
  simp [execEncoderTransition, hp]

@[simp] theorem kept_execHallSpeedTimeout (q) (hp : p ≠ .cmp ∧ p ≠ .mem ∧ p ≠ .tag) :
    p.kept s (execHallSpeedTimeout q s) := by
  simp [execHallSpeedTimeout, hp]

@[simp] theorem same_posStart (q) (hp : p ≠ .pos) : p.same s0 (s.posStart q) ↔ p.same s0 s := by
  simp [State.posStart, hp]

@[simp] theorem same_posStop (q) : p.same s0 (s.posStop q) ↔ p.same s0 s := by
  simp [State.posStop]

@[simp] theorem kept_execPosRunSet (q) (hp : p ≠ .pos) : p.kept s (execPosRunSet q s) := by
  simp [execPosRunSet, hp]

@[simp] theorem kept_execSerFrameRequest (q) (hp : p ≠ .pos) : p.kept s (execSerFrameRequest q s) := by
  simp [execSerFrameRequest, hp]

@[simp] theorem same_serGood (q pos) (hp : p ∉ Footprint.motion) : p.same s0 (s.serGood q pos) ↔ p.same s0 s := by
  simp at hp
  unfold State.serGood
  dsimp only
  split <;> simp [hp]

@[simp] theorem kept_execSerFrameReceived (q err pos crc) (hp : p ∉ Footprint.motion) :
    p.kept s (execSerFrameReceived q err pos crc s) := by
  simp at hp
  unfold execSerFrameReceived
  dsimp only
  repeat' split
  all_goals simp [hp]

@[simp] theorem kept_execSerTimeout (q) (hp : p ≠ .pos) : p.kept s (execSerTimeout q s) := by
  simp [execSerTimeout, hp]

@[simp] theorem kept_execSpeedWindowEnd (q) (hp : p ≠ .cmp ∧ p ≠ .mem ∧ p ≠ .pos ∧ p ≠ .tag) :
    p.kept s (execSpeedWindowEnd q s) := by
  simp [execSpeedWindowEnd, hp]

@[simp] theorem same_posRezero (q d) (hp : p ≠ .cmp ∧ p ≠ .rezero) : p.same s0 (s.posRezero q d) ↔ p.same s0 s := by
  simp [State.posRezero, hp]

@[simp] theorem same_indexEvent (q) (hp : p ≠ .cmp ∧ p ≠ .mem ∧ p ≠ .pos ∧ p ≠ .rezero) :
    p.same s0 (s.indexEvent q) ↔ p.same s0 s := by
  unfold State.indexEvent
  dsimp only
  split <;> simp [hp]

@[simp] theorem same_zRaw (q z n) (hp : p ≠ .pos) : p.same s0 (s.zRaw q z n) ↔ p.same s0 s := by
  simp [State.zRaw, hp]

@[simp] theorem kept_execIndexEvent (e) (hp : p ≠ .cmp ∧ p ≠ .mem ∧ p ≠ .pos ∧ p ≠ .rezero) :
    p.kept s (execIndexEvent e s) := by
  simp [execIndexEvent, hp]

@[simp] theorem kept_execCourseTimerExpiry (g) (hp : p ∉ Footprint.trigger) : p.kept s (execCourseTimerExpiry g s) := by
  simp at hp
  simp [execCourseTimerExpiry, hp]

@[simp] theorem kept_execOverrateDelayEnd (g) (hp : p ∉ Footprint.trigger) : p.kept s (execOverrateDelayEnd g s) := by
  simp at hp
  unfold execOverrateDelayEnd
  split <;> simp [hp]

@[simp] theorem kept_execCoursesyncEdge (hp : p ∉ Footprint.trigger ++ [.rezero]) : p.kept s (execCoursesyncEdge s)
    := by
  simp at hp
  simp [execCoursesyncEdge, hp]
  split <;> simp [hp]

@[simp] theorem kept_execCourseClose (g) (hp : p ≠ .arrived ∧ p ≠ .chan ∧ p ≠ .grp ∧ p ≠ .mem ∧ p ≠ .segG) :
    p.kept s (execCourseClose g s) := by
  unfold execCourseClose
  split <;> simp [hp]

/-! ## The operations of `Sys2Proof/Machine/Groups.lean` -/

@[simp] theorem same_startStatus (g) (hp : p ≠ .chan ∧ p ≠ .mem) : p.same s0 (s.startStatus g).1 ↔ p.same s0 s := by
  simp [State.startStatus, hp]

@[simp] theorem same_bindGroup (g) (hp : p ≠ .mem) : p.same s0 (s.bindGroup g) ↔ p.same s0 s := by
  simp [State.bindGroup, hp]

@[simp] theorem same_lanesFree (g) : p.same s0 (s.lanesFree g) ↔ p.same s0 s := by
  simp [State.lanesFree]

@[simp] theorem same_pastItems (g) : p.same s0 (s.pastItems g) ↔ p.same s0 s := by
  simp [State.pastItems]

@[simp] theorem same_groupStart (g arm) (hp : p ∉ Footprint.start) :
    p.same s0 (s.groupStart g arm) ↔ p.same s0 s := by
  simp at hp
  simp [State.groupStart, hp]

@[simp] theorem same_lanesStop (g) (hp : p ≠ .chan) : p.same s0 (s.lanesStop g) ↔ p.same s0 s := by
  simp [State.lanesStop, hp]

@[simp] theorem same_inputsStop (g) (hp : p ≠ .arrived ∧ p ≠ .chan ∧ p ≠ .mem ∧ p ≠ .segG) :
    p.same s0 (s.inputsStop g) ↔ p.same s0 s := by
  simp [State.inputsStop, hp]

@[simp] theorem same_disarm (g) (hp : p ∉ Footprint.disarm) : p.same s0 (s.disarm g) ↔ p.same s0 s := by
  simp at hp
  simp [State.disarm, hp]

@[simp] theorem same_swapsStop (g) (hp : p ≠ .mem) : p.same s0 (s.swapsStop g) ↔ p.same s0 s := by
  simp [State.swapsStop, hp]

@[simp] theorem same_groupStop (g) (hp : p ∉ Footprint.stop) : p.same s0 (s.groupStop g) ↔ p.same s0 s := by
  simp at hp
  simp [State.groupStop, hp]

@[simp] theorem same_forceStop (g) (hp : p ≠ .grp ∧ p ≠ .mem ∧ p ≠ .segG ∧ p ≠ .tal) :
    p.same s0 (s.forceStop g) ↔ p.same s0 s := by
  simp [State.forceStop, hp]

@[simp] theorem same_endGroup (g) (hp : p ∉ Footprint.ending) : p.same s0 (s.endGroup g) ↔ p.same s0 s := by
  simp at hp
  simp [State.endGroup, hp]

@[simp] theorem same_stopAll (hp : p ∉ Footprint.stop) : p.same s0 s.stopAll ↔ p.same s0 s := by
  simp at hp
  simp [State.stopAll, hp]

@[simp] theorem same_stopGroups (q) (hp : p ∉ Footprint.stop) : p.same s0 (s.stopGroups q) ↔ p.same s0 s := by
  simp at hp
  simp [State.stopGroups, hp]

/-! ## The operations of `Sys2Proof/Machine/Power.lean` -/

@[simp] theorem same_hiddenOff (d) (hp : p ∉ Footprint.domain) : p.same s0 (s.hiddenOff d) ↔ p.same s0 s := by
  simp at hp
  simp [State.hiddenOff, hp]

@[simp] theorem same_regsOff (d) (hp : p ≠ .shd) : p.same s0 (s.regsOff d) ↔ p.same s0 s := by
  simp [State.regsOff, hp]

@[simp] theorem same_showDom (d on) : p.same s0 (s.showDom d on) ↔ p.same s0 s := by
  simp [State.showDom]

@[simp] theorem same_releaseDom (d) (hp : p ≠ .mem) : p.same s0 (s.releaseDom d) ↔ p.same s0 s := by
  simp [State.releaseDom, hp]

@[simp] theorem same_domainOff (d) (hp : p ∉ Footprint.domain) : p.same s0 (s.domainOff d) ↔ p.same s0 s := by
  simp at hp
  simp [State.domainOff, hp]

@[simp] theorem same_mirrorShow (r) : p.same s0 (s.mirrorShow r) ↔ p.same s0 s := by
  simp [State.mirrorShow]

@[simp] theorem same_domainOn (d) (hp : p ∉ Footprint.domain) : p.same s0 (s.domainOn d) ↔ p.same s0 s := by
  simp at hp
  simp [State.domainOn, hp]

@[simp] theorem same_loomOff (hp : p ∉ Footprint.domain) : p.same s0 s.loomOff ↔ p.same s0 s := by
  simp at hp
  simp [State.loomOff, hp]

@[simp] theorem same_idleEnter (hp : p ≠ .chan ∧ p ≠ .lane ∧ p ≠ .mem) : p.same s0 s.idleEnter ↔ p.same s0 s := by
  simp [State.idleEnter, hp]

@[simp] theorem same_loomQueueEnd (hp : p ≠ .power) : p.same s0 s.loomQueueEnd ↔ p.same s0 s := by
  simp [State.loomQueueEnd, hp]

@[simp] theorem same_standbyEnter (hp : p ∉ Footprint.powerOff ++ [.power]) :
    p.same s0 s.standbyEnter ↔ p.same s0 s := by
  simp at hp
  simp [State.standbyEnter, hp]

@[simp] theorem same_sleepEnter (hp : p = .flash ∨ p = .fuses ∨ p = .jtag ∨ p = .pos) :
    p.same s0 s.sleepEnter ↔ p.same s0 s := by
  rcases hp with rfl | rfl | rfl | rfl <;> simp [State.sleepEnter]

@[simp] theorem same_wake (cause) (hp : p ≠ .boot) : p.same s0 (s.wake cause) ↔ p.same s0 s := by
  unfold State.wake
  split <;> simp [↓same_mk, hp]

@[simp] theorem kept_execAutoIdleEntry (hp : p ≠ .chan ∧ p ≠ .lane ∧ p ≠ .mem) : p.kept s (execAutoIdleEntry s) := by
  simp [execAutoIdleEntry, hp]

@[simp] theorem kept_execWakeCountReached (hp : p ≠ .boot) : p.kept s (execWakeCountReached s) := by
  simp [execWakeCountReached, hp]

@[simp] theorem same_loopLost (n) : p.same s0 (s.loopLost n) ↔ p.same s0 s := by
  simp [State.loopLost]

@[simp] theorem kept_execXaFail (hp : p ∉ Footprint.stop) : p.kept s (execXaFail s) := by
  simp at hp
  simp [execXaFail, hp]

@[simp] theorem kept_execLoopLossOfLock (loop) (hp : p ∉ Footprint.stop ++ [.gated]) :
    p.kept s (execLoopLossOfLock loop s) := by
  simp at hp
  simp [execLoopLossOfLock, hp]

@[simp] theorem kept_execLoopRelock (loop) (hp : p ≠ .gated) : p.kept s (execLoopRelock loop s) := by
  simp [execLoopRelock, hp]

@[simp] theorem same_thermWarn (hp : p ≠ .power) : p.same s0 s.thermWarn ↔ p.same s0 s := by
  simp [State.thermWarn, hp]

@[simp] theorem same_thermThrottle (die) (hp : p ≠ .mem) : p.same s0 (s.thermThrottle die) ↔ p.same s0 s := by
  simp [State.thermThrottle, hp]

@[simp] theorem same_tripOff (die) (hp : p = .flash ∨ p = .fuses ∨ p = .jtag ∨ p = .pos) :
    p.same s0 (s.tripOff die) ↔ p.same s0 s := by
  rcases hp with rfl | rfl | rfl | rfl <;> simp [State.tripOff]

@[simp] theorem same_thermTrip (die) (hp : p = .flash ∨ p = .fuses ∨ p = .jtag ∨ p = .pos) :
    p.same s0 (s.thermTrip die) ↔ p.same s0 s := by
  rcases hp with rfl | rfl | rfl | rfl <;> simp [State.thermTrip]

@[simp] theorem kept_execThermalSample (die temp) (hp : p = .flash ∨ p = .fuses ∨ p = .jtag ∨ p = .pos) :
    p.kept s (execThermalSample die temp s) := by
  rcases hp with rfl | rfl | rfl | rfl <;> simp [execThermalSample]

@[simp] theorem kept_execDomainPowerOnDone (d ok) (hp : p ∉ Footprint.domain ++ [.power]) :
    p.kept s (execDomainPowerOnDone d ok s) := by
  simp at hp
  unfold execDomainPowerOnDone
  split <;> simp [hp]

/-! ## The operations of `Sys2Proof/Machine/Time.lean` -/

@[simp] theorem same_clockMove (d) (hp : p ≠ .localT) : p.same s0 (s.clockMove d) ↔ p.same s0 s := by
  simp [State.clockMove, hp]

@[simp] theorem same_clockStep (d) (hp : p ≠ .localT) : p.same s0 (s.clockStep d) ↔ p.same s0 s := by
  simp [State.clockStep, hp]

@[simp] theorem same_timeAdj (delta ticks) (hp : p ≠ .time) : p.same s0 (s.timeAdj delta ticks) ↔ p.same s0 s := by
  simp [State.timeAdj, hp]

@[simp] theorem kept_execTimeAdjWrite (delta ticks) (hp : p ≠ .time) : p.kept s (execTimeAdjWrite delta ticks s) := by
  simp [execTimeAdjWrite, hp]

@[simp] theorem kept_execTimeAdjEnd (hp : p ≠ .localT ∧ p ≠ .time) : p.kept s (execTimeAdjEnd s) := by
  simp [execTimeAdjEnd, hp]

@[simp] theorem same_timeIncr (incr) : p.same s0 (s.timeIncr incr) ↔ p.same s0 s := by
  simp [State.timeIncr]

@[simp] theorem kept_execTimeIncrWrite (incr) : p.kept s (execTimeIncrWrite incr s) := by
  simp [execTimeIncrWrite]

@[simp] theorem same_timeStep (ns) (hp : p ≠ .localT) : p.same s0 (s.timeStep ns) ↔ p.same s0 s := by
  simp [State.timeStep, hp]

@[simp] theorem kept_execTimeStepWrite (step) (hp : p ≠ .localT) : p.kept s (execTimeStepWrite step s) := by
  simp [execTimeStepWrite, hp]

@[simp] theorem same_setPt (d q) (hp : p ≠ .ptp) : p.same s0 (s.setPt d q) ↔ p.same s0 s := by
  simp [State.setPt, hp]

@[simp] theorem same_setEx (d port e) (hp : p ≠ .ptp) : p.same s0 (s.setEx d port e) ↔ p.same s0 s := by
  simp [State.setEx, hp]

@[simp] theorem same_setPtpState (d v) : p.same s0 (s.setPtpState d v) ↔ p.same s0 s := by
  simp [State.setPtpState]

@[simp] theorem same_ptpSwitch (d) (hp : p ≠ .mem ∧ p ≠ .time) : p.same s0 (s.ptpSwitch d) ↔ p.same s0 s := by
  simp [State.ptpSwitch, hp]

@[simp] theorem same_ptpStep (d) (hp : p ≠ .localT) : p.same s0 (s.ptpStep d) ↔ p.same s0 s := by
  simp [State.ptpStep, hp]

@[simp] theorem same_ptpSelect (now') (hp : p ≠ .localT ∧ p ≠ .mem ∧ p ≠ .time) :
    p.same s0 (s.ptpSelect now') ↔ p.same s0 s := by
  unfold State.ptpSelect
  dsimp only
  repeat' split
  all_goals simp [hp]

@[simp] theorem same_ptpLose (d) (hp : p ≠ .localT ∧ p ≠ .mem ∧ p ≠ .time) :
    p.same s0 (s.ptpLose d) ↔ p.same s0 s := by
  simp [State.ptpLose, hp]

@[simp] theorem same_ptpEnable (d on) (hp : p ≠ .localT ∧ p ≠ .mem ∧ p ≠ .ptp ∧ p ≠ .time) :
    p.same s0 (s.ptpEnable d on) ↔ p.same s0 s := by
  simp [State.ptpEnable, hp]

@[simp] theorem same_ptpBest (d ms b) (hp : p ≠ .ptp) : p.same s0 (s.ptpBest d ms b) ↔ p.same s0 s := by
  simp [State.ptpBest, hp]

@[simp] theorem same_ptpAnnounce (d port trans m) (hp : p ≠ .ptp) :
    p.same s0 (s.ptpAnnounce d port trans m) ↔ p.same s0 s := by
  unfold State.ptpAnnounce
  dsimp only
  split <;> simp [hp]

@[simp] theorem same_ptpAnnounceAll (port trans m) (hp : p ≠ .ptp) :
    p.same s0 (s.ptpAnnounceAll port trans m) ↔ p.same s0 s := by
  simp [State.ptpAnnounceAll, hp]

@[simp] theorem kept_execPtpAnnounceReceived (port frame) (hp : p ≠ .ptp) :
    p.kept s (execPtpAnnounceReceived port frame s) := by
  simp [execPtpAnnounceReceived, hp]

@[simp] theorem same_ptpGone (d) (hp : p ≠ .ptp) : p.same s0 (s.ptpGone d) ↔ p.same s0 s := by
  unfold State.ptpGone
  dsimp only
  split <;> simp [hp]

@[simp] theorem kept_execAnnounceTimeout (domain) (hp : p ≠ .localT ∧ p ≠ .mem ∧ p ≠ .ptp ∧ p ≠ .time) :
    p.kept s (execAnnounceTimeout domain s) := by
  simp [execAnnounceTimeout, hp]

@[simp] theorem same_servo (e) (hp : p ≠ .time) : p.same s0 (s.servo e) ↔ p.same s0 s := by
  simp [State.servo, hp]

@[simp] theorem same_ptpCount (d off) (hp : p ≠ .localT ∧ p ≠ .mem ∧ p ≠ .ptp ∧ p ≠ .time) :
    p.same s0 (s.ptpCount d off) ↔ p.same s0 s := by
  simp [State.ptpCount, hp]

@[simp] theorem same_ptpDelay (d e) : p.same s0 (s.ptpDelay d e) ↔ p.same s0 s := by
  unfold State.ptpDelay
  split <;> simp

@[simp] theorem same_ptpMeasure (d off) (hp : p ≠ .localT ∧ p ≠ .mem ∧ p ≠ .ptp ∧ p ≠ .time) :
    p.same s0 (s.ptpMeasure d off) ↔ p.same s0 s := by
  simp [State.ptpMeasure, hp]

@[simp] theorem same_ptpSync (d port t1 t2) (hp : p ≠ .localT ∧ p ≠ .mem ∧ p ≠ .ptp ∧ p ≠ .time) :
    p.same s0 (s.ptpSync d port t1 t2) ↔ p.same s0 s := by
  simp [State.ptpSync, hp]

@[simp] theorem kept_execPtpSyncReceived (port domain t1 t2) (hp : p ≠ .localT ∧ p ≠ .mem ∧ p ≠ .ptp ∧ p ≠ .time) :
    p.kept s (execPtpSyncReceived port domain t1 t2 s) := by
  simp [execPtpSyncReceived, hp]

@[simp] theorem same_delayReqOn (d port) (hp : p ≠ .ptp) : p.same s0 (s.delayReqOn d port) ↔ p.same s0 s := by
  simp [State.delayReqOn, hp]

@[simp] theorem kept_execPtpDelayReqSend (domain) (hp : p ≠ .ptp) : p.kept s (execPtpDelayReqSend domain s) := by
  simp [execPtpDelayReqSend, hp]

@[simp] theorem same_ptpResp (d port t4) (hp : p ≠ .ptp) : p.same s0 (s.ptpResp d port t4) ↔ p.same s0 s := by
  unfold State.ptpResp
  dsimp only
  split <;> simp [hp]

@[simp] theorem kept_execPtpDelayRespReceived (domain t4) (hp : p ≠ .ptp) :
    p.kept s (execPtpDelayRespReceived domain t4 s) := by
  simp [execPtpDelayRespReceived, hp]

@[simp] theorem kept_execServoFallback (hp : p ≠ .mem ∧ p ≠ .time) : p.kept s (execServoFallback s) := by
  simp [execServoFallback, hp]

@[simp] theorem kept_execPtpReturn (hp : p ≠ .localT ∧ p ≠ .mem ∧ p ≠ .time) : p.kept s (execPtpReturn s) := by
  simp [execPtpReturn, hp]

/-! ## The operations of `Sys2Proof/Machine/Ports.lean` -/

@[simp] theorem same_announce (kind) : p.same s0 (s.announce kind) ↔ p.same s0 s := by
  simp [State.announce]

@[simp] theorem kept_execAnnouncePeriodic : p.kept s (execAnnouncePeriodic s) := by
  simp [execAnnouncePeriodic]

@[simp] theorem kept_execDegradedChange (hp : p ≠ .degShown) : p.kept s (execDegradedChange s) := by
  simp [execDegradedChange, hp]

@[simp] theorem same_annReceived (m) (hp : p ≠ .dup ∧ p ≠ .mem) : p.same s0 (s.annReceived m) ↔ p.same s0 s := by
  simp [State.annReceived, hp]

@[simp] theorem kept_execAnnounceReceived (frame) (hp : p ≠ .dup ∧ p ≠ .mem) :
    p.kept s (execAnnounceReceived frame s) := by
  simp [execAnnounceReceived, hp]

@[simp] theorem same_streamRestart : p.same s0 s.streamRestart ↔ p.same s0 s := by
  simp [State.streamRestart]

@[simp] theorem same_streamAll (hp : p ≠ .mem) : p.same s0 s.streamAll ↔ p.same s0 s := by
  simp [State.streamAll, hp]

@[simp] theorem kept_execStreamFlushTimer (sub) (hp : p ≠ .mem) : p.kept s (execStreamFlushTimer sub s) := by
  unfold execStreamFlushTimer
  split <;> simp [hp]

@[simp] theorem kept_execSentHoldExpiry (sub) : p.kept s (execSentHoldExpiry sub s) := by
  unfold execSentHoldExpiry
  rw [kept_next]
  split
  · simp
  · split <;> simp

@[simp] theorem same_reports (q ty) : p.same s0 (s.reports q ty) ↔ p.same s0 s := by
  simp [State.reports]

@[simp] theorem same_gratuitous (q) : p.same s0 (s.gratuitous q) ↔ p.same s0 s := by
  simp [State.gratuitous]

@[simp] theorem same_failover (q) (hp : p ≠ .mem) : p.same s0 (s.failover q) ↔ p.same s0 s := by
  simp [State.failover, hp]

@[simp] theorem same_linkRise (q) (hp : p ≠ .boot ∧ p ≠ .mem) : p.same s0 (s.linkRise q) ↔ p.same s0 s := by
  simp [State.linkRise, hp]

@[simp] theorem kept_execLinkUp (port) (hp : p ≠ .boot ∧ p ≠ .mem) : p.kept s (execLinkUp port s) := by
  simp [execLinkUp, hp]

@[simp] theorem same_linkFall (q remFault) (hp : p ≠ .mem) : p.same s0 (s.linkFall q remFault) ↔ p.same s0 s := by
  simp [State.linkFall, hp]

@[simp] theorem kept_execLinkDown (port remFault) (hp : p ≠ .mem) : p.kept s (execLinkDown port remFault s) := by
  simp [execLinkDown, hp]

@[simp] theorem kept_execPortRevert (hp : p ≠ .mem) : p.kept s (execPortRevert s) := by
  simp [execPortRevert, hp]

@[simp] theorem kept_execNeighbourTimeout (port) : p.kept s (execNeighbourTimeout port s) := by
  unfold execNeighbourTimeout
  split <;> simp

@[simp] theorem kept_execPrpSupervision : p.kept s (execPrpSupervision s) := by
  simp [execPrpSupervision]

@[simp] theorem same_lqStart (q) (hp : p ≠ .mem) : p.same s0 (s.lqStart q) ↔ p.same s0 s := by
  simp [State.lqStart, hp]

@[simp] theorem same_lqStop (q) (hp : p ≠ .mem) : p.same s0 (s.lqStop q) ↔ p.same s0 s := by
  simp [State.lqStop, hp]

@[simp] theorem same_lqEnd (q status txSec txNs) (hp : p ≠ .mem) :
    p.same s0 (s.lqEnd q status txSec txNs) ↔ p.same s0 s := by
  simp [State.lqEnd, hp]

@[simp] theorem same_lqNone (q status) (hp : p ≠ .mem) : p.same s0 (s.lqNone q status) ↔ p.same s0 s := by
  simp [State.lqNone, hp]

@[simp] theorem same_lqSend (q status frame due) (hp : p ≠ .mem) :
    p.same s0 (s.lqSend q status frame due) ↔ p.same s0 s := by
  simp [State.lqSend, hp]

@[simp] theorem same_lqWith (q e f) (hp : p ≠ .mem) (hf : ∀ t b, p.same t (f t b)) :
    p.same s0 (s.lqWith q e f) ↔ p.same s0 s := by
  simp only [State.lqWith]
  split
  · simp [hp]
  · exact (hf _ _).iff.trans (same_memRead _ _ _ _ hp)

@[simp] theorem same_lqOnTime (q e) (hp : p ≠ .mem) : p.same s0 (s.lqOnTime q e) ↔ p.same s0 s := by
  simp [State.lqOnTime, hp]

@[simp] theorem same_lqLate (q e) (hp : p ≠ .mem) : p.same s0 (s.lqLate q e) ↔ p.same s0 s := by
  simp [State.lqLate, hp]

@[simp] theorem same_launch (q e) (hp : p ≠ .mem) : p.same s0 (s.launch q e) ↔ p.same s0 s := by
  simp [State.launch, hp]

@[simp] theorem same_lqServe (hp : p ≠ .mem) : p.same s0 s.lqServe ↔ p.same s0 s := by
  simp [State.lqServe, hp]

@[simp] theorem same_lqDue (q) (hp : p ≠ .mem) : p.same s0 (s.lqDue q) ↔ p.same s0 s := by
  simp [State.lqDue]
  split <;> simp [hp]

@[simp] theorem kept_execLaunchDue (q) (hp : p ≠ .mem) : p.kept s (execLaunchDue q s) := by
  simp [execLaunchDue, hp]

/-! ## The operations of `Sys2Proof/Machine/FaultRows.lean` -/

@[simp] theorem same_maskLost (ch) (hp : p ≠ .chan ∧ p ≠ .csw ∧ p ≠ .mem) :
    p.same s0 (s.maskLost ch) ↔ p.same s0 s := by
  unfold State.maskLost
  dsimp only
  repeat' split
  all_goals simp [hp]

@[simp] theorem same_channelFails (ch) (hp : p ≠ .chan ∧ p ≠ .csw ∧ p ≠ .mem ∧ p ≠ .spareDue) :
    p.same s0 (s.channelFails ch) ↔ p.same s0 s := by
  simp [State.channelFails, hp]

@[simp] theorem kept_execChannelFaultDetect (ch) (hp : p ≠ .chan ∧ p ≠ .csw ∧ p ≠ .mem ∧ p ≠ .spareDue) :
    p.kept s (execChannelFaultDetect ch s) := by
  simp [execChannelFaultDetect, hp]

@[simp] theorem same_spareBegins (ch) (hp : p ≠ .chan ∧ p ≠ .csw) : p.same s0 (s.spareBegins ch) ↔ p.same s0 s := by
  unfold State.spareBegins
  dsimp only
  split <;> simp [hp]

@[simp] theorem kept_execSpareTakeover (region) (hp : p ≠ .chan ∧ p ≠ .csw ∧ p ≠ .mem ∧ p ≠ .spareDue) :
    p.kept s (execSpareTakeover region s) := by
  unfold execSpareTakeover
  dsimp only
  split <;> simp [hp]

@[simp] theorem same_restoreChan (ch) (hp : p ≠ .chan ∧ p ≠ .spareDue) :
    p.same s0 (s.restoreChan ch) ↔ p.same s0 s := by
  simp [State.restoreChan, hp]

@[simp] theorem same_rgnRestore (r mask) (hp : p ≠ .chan ∧ p ≠ .spareDue) :
    p.same s0 (s.rgnRestore r mask) ↔ p.same s0 s := by
  simp [State.rgnRestore, hp]

@[simp] theorem kept_execRgnRestore (region mask) (hp : p ≠ .chan ∧ p ≠ .spareDue) :
    p.kept s (execRgnRestore region mask s) := by
  simp [execRgnRestore, hp]

@[simp] theorem same_stopCluster (c) (hp : p ≠ .stopped) : p.same s0 (s.stopCluster c) ↔ p.same s0 s := by
  simp [State.stopCluster, hp]

@[simp] theorem same_clusterFails (c) (hp : p ≠ .mem ∧ p ≠ .stopped) :
    p.same s0 (s.clusterFails c) ↔ p.same s0 s := by
  simp [State.clusterFails, hp]

@[simp] theorem kept_execClusterFault (c) (hp : p ≠ .mem ∧ p ≠ .stopped) : p.kept s (execClusterFault c s) := by
  simp [execClusterFault, hp]

@[simp] theorem kept_execRegionFault (region) (hp : p ≠ .boot ∧ p ≠ .mem ∧ p ≠ .stopped) :
    p.kept s (execRegionFault region s) := by
  simp [execRegionFault, hp]

@[simp] theorem kept_execDieLinkFault (l) (hp : p ∉ Footprint.stop) : p.kept s (execDieLinkFault l s) := by
  simp at hp
  simp [execDieLinkFault, hp]

@[simp] theorem kept_execSeamLinkFault (ch) (hp : p ∉ Footprint.stop) : p.kept s (execSeamLinkFault ch s) := by
  simp at hp
  simp [execSeamLinkFault, hp]

/-! ## The operations of `Sys2Proof/Machine/Patterns.lean` -/

@[simp] theorem same_shadowOk (set) (hp : p ≠ .mem) : p.same s0 (s.shadowOk set).1 ↔ p.same s0 s := by
  simp [State.shadowOk, hp]

@[simp] theorem same_swapReq (set when' course) (hp : p ≠ .chan ∧ p ≠ .copying ∧ p ≠ .mem ∧ p ≠ .oldL ∧ p ≠ .shd) :
    p.same s0 (s.swapReq set when' course).1 ↔ p.same s0 s := by
  simp [State.swapReq, hp]

@[simp] theorem same_revertReq (set) (hp : p ≠ .shd) : p.same s0 (s.revertReq set).1 ↔ p.same s0 s := by
  simp [State.revertReq, hp]

@[simp] theorem kept_execCopyBackStart (set) (hp : p ≠ .copying) : p.kept s (execCopyBackStart set s) := by
  simp [execCopyBackStart, hp]

@[simp] theorem same_copyEnd (set) (hp : p ≠ .copying ∧ p ≠ .shd) : p.same s0 (s.copyEnd set) ↔ p.same s0 s := by
  unfold State.copyEnd
  split <;> simp [hp]

@[simp] theorem kept_execCopyBackEnd (set) (hp : p ≠ .copying ∧ p ≠ .shd) : p.kept s (execCopyBackEnd set s) := by
  unfold execCopyBackEnd
  split <;> simp [hp]

/-! ## The operations of `Sys2Proof/Machine/RingRows.lean` -/

@[simp] theorem kept_execRingReserve (ring n) (hp : p ≠ .mem) : p.kept s (execRingReserve ring n s) := by
  simp [execRingReserve, hp]

@[simp] theorem kept_execProdAdvance (ring) (hp : p ≠ .mem) : p.kept s (execProdAdvance ring s) := by
  simp [execProdAdvance, hp]

@[simp] theorem same_doorbell (id prod) (hp : p ≠ .mem) : p.same s0 (s.doorbell id prod).1 ↔ p.same s0 s := by
  simp [State.doorbell, hp]

@[simp] theorem kept_execRingDoorbell (ring prod) (hp : p ≠ .mem) : p.kept s (execRingDoorbell ring prod s) := by
  simp [execRingDoorbell, hp]

@[simp] theorem kept_execSubEviction (sub) (hp : p ≠ .mem) : p.kept s (execSubEviction sub s) := by
  simp [execSubEviction, hp]

@[simp] theorem kept_execContextLoad (ring parity) (hp : p ≠ .mem) : p.kept s (execContextLoad ring parity s) := by
  simp [execContextLoad, hp]

/-! ## The operations of `Sys2Proof/Machine/Yarn.lean` -/

@[simp] theorem same_taskMerge (u) : p.same s0 (s.taskMerge u) ↔ p.same s0 s := by
  simp [State.taskMerge]

@[simp] theorem same_notify (n) (hp : p ≠ .mem) : p.same s0 (s.notify n) ↔ p.same s0 s := by
  simp [State.notify, hp]

@[simp] theorem same_fwIrq (n) : p.same s0 (s.fwIrq n) ↔ p.same s0 s := by
  simp [State.fwIrq]

@[simp] theorem same_cmpMark (u) (hp : p ≠ .cmp ∧ p ≠ .mem) : p.same s0 (s.cmpMark u) ↔ p.same s0 s := by
  simp [State.cmpMark, hp]

@[simp] theorem same_segHoldTask (g) (hp : p ≠ .flight) : p.same s0 (s.segHoldTask g) ↔ p.same s0 s := by
  simp [State.segHoldTask, hp]

@[simp] theorem same_taskAct (u) (hp : p ≠ .aux ∧ p ≠ .boot ∧ p ≠ .cmp ∧ p ≠ .flight ∧ p ≠ .mem ∧ p ≠ .pnl) :
    p.same s0 (s.taskAct u) ↔ p.same s0 s := by
  simp [State.taskAct, hp]

@[simp] theorem same_taskFire (u) (hp : p ≠ .aux ∧ p ≠ .boot ∧ p ≠ .cmp ∧ p ≠ .flight ∧ p ≠ .mem ∧ p ≠ .pnl) :
    p.same s0 (s.taskFire u) ↔ p.same s0 s := by
  simp [State.taskFire, hp]

@[simp] theorem same_yarnFire (c) (hp : p ≠ .aux ∧ p ≠ .boot ∧ p ≠ .cmp ∧ p ≠ .flight ∧ p ≠ .mem ∧ p ≠ .pnl) :
    p.same s0 (s.yarnFire c) ↔ p.same s0 s := by
  simp [State.yarnFire, hp]

@[simp] theorem kept_execProducerFire (n) (hp : p ≠ .aux ∧ p ≠ .boot ∧ p ≠ .cmp ∧ p ≠ .flight ∧ p ≠ .mem ∧ p ≠ .pnl) :
    p.kept s (execProducerFire n s) := by
  simp [execProducerFire, hp]

@[simp] theorem kept_execYarnFire (c) (hp : p ≠ .aux ∧ p ≠ .boot ∧ p ≠ .cmp ∧ p ≠ .flight ∧ p ≠ .mem ∧ p ≠ .pnl) :
    p.kept s (execYarnFire c s) := by
  simp [execYarnFire, hp]

@[simp] theorem same_stormOne (c) (hp : p ≠ .mem) : p.same s0 (s.stormOne c) ↔ p.same s0 s := by
  simp [State.stormOne, hp]

@[simp] theorem kept_execStormWindowEnd (hp : p ≠ .mem) : p.kept s (execStormWindowEnd s) := by
  simp [execStormWindowEnd, hp]

/-! ## The operations of `Sys2Proof/Machine/RegWrite.lean` -/

@[simp] theorem same_storeItem (c i) (hp : p ≠ .oldL ∧ p ≠ .shd) : p.same s0 (s.storeItem c i) ↔ p.same s0 s := by
  simp [State.storeItem, hp]
  split <;> simp [hp]

@[simp] theorem same_fuseBlow (hp : p ≠ .boot) : p.same s0 s.fuseBlow ↔ p.same s0 s := by
  unfold State.fuseBlow
  dsimp only
  simp [↓same_mk, hp]

@[simp] theorem same_rearm : p.same s0 s.rearm ↔ p.same s0 s := by
  simp [State.rearm]

@[simp] theorem same_armReplay (hp : p ≠ .mem) : p.same s0 s.armReplay ↔ p.same s0 s := by
  simp [State.armReplay, hp]

@[simp] theorem same_disarmReplay (hp : p ≠ .mem) : p.same s0 s.disarmReplay ↔ p.same s0 s := by
  simp [State.disarmReplay, hp]

@[simp] theorem same_bindEvent (b on ring) (hp : p ≠ .mem) : p.same s0 (s.bindEvent b on ring) ↔ p.same s0 s := by
  simp [State.bindEvent, hp]

@[simp] theorem same_enable (was on up down) (hu : ∀ t, p.same t (up t)) (hd : ∀ t, p.same t (down t)) :
    p.same s0 (s.enable was on up down) ↔ p.same s0 s := by
  simp [State.enable, (hu _).iff, (hd _).iff]

@[simp] theorem same_actNet (i) (hp : p ≠ .localT ∧ p ≠ .mem ∧ p ≠ .ptp ∧ p ≠ .time) :
    p.same s0 (s.actNet i) ↔ p.same s0 s := by
  unfold State.actNet
  dsimp only
  split <;> simp [hp]

@[simp] theorem same_actSide (i last) (hp : p ≠ .aux ∧ p ≠ .boot ∧ p ≠ .cmp ∧ p ≠ .flight ∧ p ≠ .mclkAt ∧
    p ≠ .mem ∧ p ≠ .pnl ∧ p ≠ .tag ∧ p ≠ .view ∧ p ≠ .viewOld) :
    p.same s0 (s.actSide i last) ↔ p.same s0 s := by
  unfold State.actSide
  dsimp only
  split <;> simp [hp]

@[simp] theorem same_actItem (i last) (hp : p ∉ Footprint.act) : p.same s0 (s.actItem i last) ↔ p.same s0 s := by
  simp at hp
  simp [State.actItem]
  split <;> simp [hp]

@[simp] theorem same_actAll (l) (hp : p ∉ Footprint.act) : p.same s0 (s.actAll l) ↔ p.same s0 s := by
  induction l generalizing s with
  | nil => simp [State.actAll]
  | cons i is ih =>
    simp only [State.actAll]
    exact ih.trans (same_actItem _ _ hp)

@[simp] theorem same_keepRow (i) (hp : p ≠ .viewOld) : p.same s0 (s.keepRow i) ↔ p.same s0 s := by
  simp [State.keepRow, hp]

@[simp] theorem same_writeNow (c l) (hp : p ∉ Footprint.write) : p.same s0 (s.writeNow c l) ↔ p.same s0 s := by
  simp at hp
  simp [State.writeNow, hp]

@[simp] theorem same_submitWrite (groups later what) (hp : p ≠ .chan ∧ p ≠ .flight ∧ p ≠ .mem ∧ p ≠ .segG) :
    p.same s0 (s.submitWrite groups later what) ↔ p.same s0 s := by
  simp [State.submitWrite, hp]

@[simp] theorem same_carryOut (c modify addr words l) (hp : p ∉ Footprint.request) :
    p.same s0 (s.carryOut c modify addr words l).1 ↔ p.same s0 s := by
  simp at hp
  simp [State.carryOut, hp]

@[simp] theorem same_writeReq (c modify addr words) (hp : p ∉ Footprint.request) :
    p.same s0 (s.writeReq c modify addr words).1 ↔ p.same s0 s := by
  simp at hp
  unfold State.writeReq
  split <;> simp [hp]

@[simp] theorem same_writeAt (c modify addr words g course) (hp : p ∉ Footprint.request ++ [.arrived, .held]) :
    p.same s0 (s.writeAt c modify addr words g course).1 ↔ p.same s0 s := by
  simp at hp
  unfold State.writeAt
  split <;> simp [hp]

@[simp] theorem same_refresh : p.same s0 s.refresh ↔ p.same s0 s := by
  simp [State.refresh]

@[simp] theorem same_dfeNow (a) : p.same s0 (s.dfeNow a) ↔ p.same s0 s := by
  unfold State.dfeNow
  split <;> simp

@[simp] theorem same_countFree (b f) : p.same s0 (s.countFree b f) ↔ p.same s0 s := by
  simp [State.countFree]

@[simp] theorem same_overruns (b flag cnt) : p.same s0 (s.overruns b flag cnt) ↔ p.same s0 s := by
  simp [State.overruns]

@[simp] theorem same_countNow (a) : p.same s0 (s.countNow a) ↔ p.same s0 s := by
  unfold State.countNow
  split <;> simp

@[simp] theorem same_readNow (as') : p.same s0 (s.readNow as') ↔ p.same s0 s := by
  simp [State.readNow]

@[simp] theorem same_readClear (a) (hp : p ≠ .power) : p.same s0 (s.readClear a) ↔ p.same s0 s := by
  unfold State.readClear
  split <;> simp [hp]

@[simp] theorem same_readReq (shadow addr n) (hp : p ≠ .power) :
    p.same s0 (s.readReq shadow addr n).1 ↔ p.same s0 s := by
  unfold State.readReq
  dsimp only
  split <;> simp [hp]

/-! ## The operations of `Sys2Proof/Machine/Image.lean` -/

@[simp] theorem same_setting (e) : p.same s0 (s.setting e) ↔ p.same s0 s := by
  unfold State.setting
  split <;> simp

/-! ## The operations of `Sys2Proof/Machine/Boot.lean` -/

@[simp] theorem same_regionOn (r) (hp : p ∉ Footprint.domain) : p.same s0 (s.regionOn r) ↔ p.same s0 s := by
  simp at hp
  simp [State.regionOn, hp]

@[simp] theorem same_linksShow : p.same s0 s.linksShow ↔ p.same s0 s := by
  simp [State.linksShow]

@[simp] theorem same_chanDead (ch) (hp : p ≠ .chan) : p.same s0 (s.chanDead ch) ↔ p.same s0 s := by
  simp [State.chanDead, hp]

@[simp] theorem same_failShow (e) (hp : p ≠ .chan ∧ p ≠ .mem) : p.same s0 (s.failShow e) ↔ p.same s0 s := by
  unfold State.failShow
  split <;> simp [hp]

@[simp] theorem same_loomUp (hp : p ∉ Footprint.domain ++ [.boot]) : p.same s0 s.loomUp ↔ p.same s0 s := by
  simp at hp
  simp [State.loomUp, hp]

@[simp] theorem same_clocksShow : p.same s0 s.clocksShow ↔ p.same s0 s := by
  simp [State.clocksShow]

@[simp] theorem same_bootShow (im) : p.same s0 (s.bootShow im) ↔ p.same s0 s := by
  simp [State.bootShow]

@[simp] theorem same_hubDoms : p.same s0 s.hubDoms ↔ p.same s0 s := by
  simp [State.hubDoms]

@[simp] theorem same_release (im) (hp : p = .boot ∨ p = .flash ∨ p = .fuses ∨ p = .jtag) :
    p.same s0 (s.release im) ↔ p.same s0 s := by
  rcases hp with rfl | rfl | rfl | rfl <;> simp [State.release]

@[simp] theorem same_firstPort : p.same s0 s.firstPort ↔ p.same s0 s := by
  simp [State.firstPort]

@[simp] theorem same_readyNow (hp : p ≠ .boot ∧ p ≠ .degShown) : p.same s0 s.readyNow ↔ p.same s0 s := by
  simp [State.readyNow, hp]

@[simp] theorem same_bootFail (code lockstep) (hp : p ≠ .boot) :
    p.same s0 (s.bootFail code lockstep) ↔ p.same s0 s := by
  simp [State.bootFail, hp]

@[simp] theorem same_irqsRun : p.same s0 s.irqsRun ↔ p.same s0 s := by
  simp [State.irqsRun]

@[simp] theorem same_hubUp (hp : p ≠ .boot) : p.same s0 s.hubUp ↔ p.same s0 s := by
  unfold State.hubUp
  dsimp only
  simp [↓same_mk, hp]

@[simp] theorem same_castHead (hp : p ≠ .boot) : p.same s0 s.castHead.1 ↔ p.same s0 s := by
  simp [State.castHead]
  split <;> simp [hp]

theorem loadAll_same {cs l u} (hp : p ≠ .mem) (h : State.loadAll s cs l = .ok u) : p.same s u := by
  induction l generalizing s with
  | nil => cases h; exact same_refl p _
  | cons e es ih =>
    simp only [State.loadAll] at h
    split at h
    · cases h
    · split at h
      · cases h
      · exact ((same_memWrite _ _ _ _ hp).2 (same_refl p s)).trans (ih h)

theorem patterns_same {r l u} (hp : p ∉ Footprint.write) (h : State.patterns r l s = some u) : p.same s u := by
  induction l generalizing s with
  | nil => cases h; exact same_refl p _
  | cons e es ih =>
    have write (l) : p.same s (s.writeNow presetCtx l) := (same_writeNow _ _ hp).2 (same_refl p s)
    unfold State.patterns at h
    split at h
    · split at h
      · exact ih h
      · split at h
        · exact (write _).trans (ih h)
        · cases h
    · split at h
      · cases h
      · split at h
        · exact (write _).trans (ih h)
        · cases h

theorem loomLoad_same {l r u} (hp : p ∉ Footprint.write) (h : s.loomLoad l r = .ok u) : p.same s u := by
  unfold State.loomLoad at h
  dsimp only at h
  split at h
  · cases h
  · next loaded =>
    split at h
    · cases h
    · split at h
      · cases h
      · next written =>
        cases h
        exact (loadAll_same (by simp at hp; simp [hp]) loaded).trans (patterns_same hp written)

theorem attempt_same {u} (hp : p = .fuses ∨ p = .jtag) (h : s.attempt = .ok u) : p.same s u := by
  unfold State.attempt at h
  split at h
  · cases h
  · next im l _ =>
    have up : p.same s (s.release im).loomUp :=
      (same_loomUp (by rcases hp with rfl | rfl <;> simp)).2 ((same_release _ (by simp [hp])).2 (same_refl p s))
    exact up.trans (loomLoad_same (by rcases hp with rfl | rfl <;> simp) h)

@[simp] theorem same_castTail (hp : p = .fuses ∨ p = .jtag) : p.same s0 s.castTail.1 ↔ p.same s0 s := by
  have quiet : p ≠ .boot ∧ p ≠ .degShown := by rcases hp with rfl | rfl <;> simp
  unfold State.castTail
  dsimp only
  split
  · simp
  · next done => simpa [quiet] using (attempt_same hp done).iff.trans (same_emits _)

@[simp] theorem same_castWhole (hp : p = .fuses ∨ p = .jtag) : p.same s0 s.castWhole.1 ↔ p.same s0 s := by
  have head := same_castHead (p := p) (s0 := s0) (s := s) (by rcases hp with rfl | rfl <;> simp)
  unfold State.castWhole
  split
  · next heq =>
    rw [heq] at head
    exact (same_castTail hp).trans head
  · exact head

@[simp] theorem same_castOn (part n) (hp : p ≠ .boot) (hpart : ∀ t, p.same t (part t).1) :
    p.same s0 (State.castOn part n s) ↔ p.same s0 s := by
  induction n generalizing s with
  | zero => rfl
  | succ n ih =>
    have first := hpart s
    unfold State.castOn
    split <;> next heq =>
      rw [heq] at first
      simp [ih, hp, first.iff]

@[simp] theorem same_castAgain (code lockstep) (hp : p ≠ .boot) :
    p.same s0 (s.castAgain code lockstep) ↔ p.same s0 s := by
  simp [State.castAgain, hp]

@[simp] theorem same_resumeEnd (status) (hp : p ≠ .boot) : p.same s0 (s.resumeEnd status) ↔ p.same s0 s := by
  simp [State.resumeEnd, hp]

@[simp] theorem same_resumeRun
    (hp : p ∉ Footprint.write ++ [.dpBuf, .dpMon, .dpRow, .lbGone, .lbNext, .retrain, .seam, .stopped]) :
    p.same s0 s.resumeRun ↔ p.same s0 s := by
  simp at hp
  have quiet : p ≠ .boot := by simp [hp]
  have noWrite : p ∉ Footprint.write := by simp [hp]
  have noDomain : p ∉ Footprint.domain ++ [.boot] := by simp [hp]
  unfold State.resumeRun
  split
  · simp [quiet]
  · dsimp only
    split
    · simp [quiet]
    · next done =>
      have up := (loomLoad_same noWrite done).iff (s0 := s0)
      rw [same_resumeEnd _ quiet, same_setF, up, same_loomUp noDomain, same_emits]

@[simp] theorem kept_execReady (hp : p = .fuses ∨ p = .jtag) : p.kept s (execReady s) := by
  rcases hp with rfl | rfl <;> simp [execReady]

@[simp] theorem kept_execCastOnWatchdog (hp : p ≠ .boot) : p.kept s (execCastOnWatchdog s) := by
  simp [execCastOnWatchdog, hp]

@[simp] theorem same_pornLow (hp : p = .fuses) : p.same s s.pornLow := by
  subst hp
  rfl

@[simp] theorem kept_execPornFall (hp : p = .fuses) : p.kept s (execPornFall s) := by
  simp [execPornFall, hp]

@[simp] theorem kept_execAonUndervolt (hp : p = .fuses) : p.kept s (execAonUndervolt s) := by
  simp [execAonUndervolt, hp]

@[simp] theorem kept_execPornRise (fusesAgree fails) (hp : p ≠ .banksOff ∧ p ≠ .boot) :
    p.kept s (execPornRise fusesAgree fails s) := by
  simp [execPornRise, hp]

@[simp] theorem same_stepFour (hz) (hp : p ≠ .boot) : p.same s0 (s.stepFour hz) ↔ p.same s0 s := by
  simp [State.stepFour, hp]

@[simp] theorem kept_execXaStableDelayEnd (hz) (hp : p ≠ .boot) : p.kept s (execXaStableDelayEnd hz s) := by
  simp [execXaStableDelayEnd, hp]

@[simp] theorem same_coreFault (pair) (hp : p ≠ .mem) : p.same s0 (s.coreFault pair) ↔ p.same s0 s := by
  simp [State.coreFault, hp]

@[simp] theorem kept_execLockstepFault (hp : p ≠ .boot ∧ p ≠ .mem) : p.kept s (execLockstepFault s) := by
  simp [execLockstepFault, hp]

@[simp] theorem kept_execFuseProgGo (b) (hp : p ≠ .boot) : p.kept s (execFuseProgGo b s) := by
  simp [execFuseProgGo, hp]

@[simp] theorem kept_execFuseProgDone (readsOne) (hp : p ≠ .fuses) : p.kept s (execFuseProgDone readsOne s) := by
  simp [execFuseProgDone, hp]

@[simp] theorem same_jtagLoad (code kept) (hp : p ≠ .jtag) : p.same s0 (s.jtagLoad code kept) ↔ p.same s0 s := by
  simp [State.jtagLoad, hp]

@[simp] theorem kept_execExtest (hp : p ≠ .jtag) : p.kept s (execExtest s) := by
  simp [execExtest, hp]

@[simp] theorem kept_execSamplePreload (hp : p ≠ .jtag) : p.kept s (execSamplePreload s) := by
  simp [execSamplePreload, hp]

@[simp] theorem kept_execIdcode (hp : p ≠ .jtag) : p.kept s (execIdcode s) := by
  simp [execIdcode, hp]

@[simp] theorem kept_execScanTest (hp : p ≠ .jtag) : p.kept s (execScanTest s) := by
  simp [execScanTest, hp]

@[simp] theorem kept_execHighz (hp : p ≠ .jtag) : p.kept s (execHighz s) := by
  simp [execHighz, hp]

@[simp] theorem kept_execClamp (hp : p ≠ .jtag) : p.kept s (execClamp s) := by
  simp [execClamp, hp]

@[simp] theorem kept_execBypass (hp : p ≠ .jtag) : p.kept s (execBypass s) := by
  simp [execBypass, hp]

@[simp] theorem same_dbgAccess (write mem addr data) (hp : p ∉ Footprint.request ++ [.power]) :
    p.same s0 (s.dbgAccess write mem addr data) ↔ p.same s0 s := by
  simp at hp
  simp [State.dbgAccess, hp]
  split <;> simp [hp]

@[simp] theorem kept_execDbgAccess (write mem addr data) (hp : p ∉ Footprint.request ++ [.jtag, .power]) :
    p.kept s (execDbgAccess write mem addr data s) := by
  simp at hp
  simp [execDbgAccess, hp]

/-! ## The operations of `Sys2Proof/Machine/Session.lean` -/

@[simp] theorem same_sendReply (h bytes) : p.same s0 (s.sendReply h bytes) ↔ p.same s0 s := by
  simp [State.sendReply]

@[simp] theorem same_quick (h op status key params) : p.same s0 (s.quick h op status key params) ↔ p.same s0 s := by
  unfold State.quick
  split <;> simp

@[simp] theorem same_deny (h op status key) : p.same s0 (s.deny h op status key) ↔ p.same s0 s := by
  simp [State.deny]

@[simp] theorem same_mapSession (id f) : p.same s0 (s.mapSession id f) ↔ p.same s0 s := by
  simp [State.mapSession]

@[simp] theorem same_showSessions : p.same s0 s.showSessions ↔ p.same s0 s := by
  simp [State.showSessions]

@[simp] theorem same_closeSession (id) : p.same s0 (s.closeSession id) ↔ p.same s0 s := by
  simp [State.closeSession]

@[simp] theorem kept_execSessionTimeout (session) : p.kept s (execSessionTimeout session s) := by
  simp [execSessionTimeout]

@[simp] theorem same_reply (h op status course params) :
    p.same s0 (s.reply h op status course params) ↔ p.same s0 s := by
  unfold State.reply
  split <;> simp

@[simp] theorem same_setUnit (h unit) : p.same s0 (s.setUnit h unit) ↔ p.same s0 s := by
  simp [State.setUnit]

@[simp] theorem same_replyDone (h op) : p.same s0 (s.replyDone h op) ↔ p.same s0 s := by
  unfold State.replyDone
  split <;> simp

/-- The answer of a command leaves a part alone where its body does: the state that it has reached, and what follows its reply. -/
def Part.answered (p : Part) (s : State) (r : State × Reply) : Prop := p.same s r.1 ∧ ∀ u, p.same u (r.2.after u)

@[simp] theorem Reply.after_of (n) (u : State) : (Reply.of n).after u = u := rfl
@[simp] theorem Reply.after_ok (l) (u : State) : (Reply.ok l).after u = u := rfl
@[simp] theorem Reply.after_later (n) (u : State) : (Reply.later n).after u = u := rfl

@[simp] theorem answered_mk (r : Reply) : p.answered s (t, r) ↔ p.same s t ∧ ∀ u, p.same u (r.after u) := Iff.rfl

@[simp] theorem answered_ite {c : Prop} [Decidable c] {a b : State × Reply} :
    p.answered s (if c then a else b) ↔ if c then p.answered s a else p.answered s b := by split <;> rfl

theorem same_answer (h op r) (ha : ∀ u, p.same u (r.after u)) : p.same s0 (s.answer h op r) ↔ p.same s0 s := by
  unfold State.answer
  split
  · simp
  · exact (ha _).iff.trans (same_reply ..)

@[simp] theorem same_commandE (h op role early body) (hb : ∀ t, p.answered t (body t)) :
    p.same s0 (s.commandE h op role early body) ↔ p.same s0 s := by
  simp only [State.commandE, same_ite]
  split
  · rfl
  · split
    · simp
    · simp only [same_ite]
      split
      · simp
      · split
        · split <;> simp
        · split
          · simp
          · split
            · exact (same_answer _ _ _ fun u => same_refl p u).trans (by simp)
            · exact (same_answer _ _ _ (hb _).2).trans ((hb _).1.iff.trans (by simp))

@[simp] theorem same_command (h op role body) (hb : ∀ t, p.answered t (body t)) :
    p.same s0 (s.command h op role body) ↔ p.same s0 s := same_commandE h op role 0 body hb

theorem kept_commandE (h op role early body) (hb : ∀ t, p.answered t (body t)) :
    p.kept s (.next (s.commandE h op role early body)) := by simp [hb]

theorem kept_command (h op role body) (hb : ∀ t, p.answered t (body t)) :
    p.kept s (.next (s.command h op role body)) := by simp [hb]

@[simp] theorem same_openSession (h key nonce timeout maxDgram) :
    p.same s0 (s.openSession h key nonce timeout maxDgram) ↔ p.same s0 s := by
  simp [State.openSession]

@[simp] theorem kept_execSessionOpen (h nonce timeout maxDgram) :
    p.kept s (execSessionOpen h nonce timeout maxDgram s) := by
  unfold execSessionOpen
  dsimp only
  repeat' split
  all_goals simp

@[simp] theorem kept_execSessionClose (h) : p.kept s (execSessionClose h s) := by
  simp [execSessionClose]

@[simp] theorem kept_execKeepalive (h) : p.kept s (execKeepalive h s) := by
  simp [execKeepalive]

@[simp] theorem kept_execSessionList (h) : p.kept s (execSessionList h s) := by
  simp [execSessionList]

@[simp] theorem kept_execSessionKill (h session) : p.kept s (execSessionKill h session s) := by
  simp [execSessionKill]

/-! ## The operations of `Sys2Proof/Machine/Commands.lean` -/

@[simp] theorem kept_execDeviceInfo (h) : p.kept s (execDeviceInfo h s) := by
  simp [execDeviceInfo]

@[simp] theorem kept_execRegRead (h addr count set) (hp : p ≠ .power) : p.kept s (execRegRead h addr count set s) := by
  simp [execRegRead, hp]

theorem answered_writeCmd (h set modify addr words ok) (hp : p ∉ Footprint.request ++ [.arrived, .held]) :
    p.answered s (s.writeCmd h set modify addr words ok) := by
  simp at hp
  unfold State.writeCmd
  dsimp only
  split <;> simp [hp]

@[simp] theorem kept_execRegWrite (h addr count set words) (hp : p ∉ Footprint.request ++ [.arrived, .held]) :
    p.kept s (execRegWrite h addr count set words s) := by
  exact kept_commandE _ _ _ _ _ fun t => by simp [answered_writeCmd _ _ _ _ _ _ hp]

@[simp] theorem kept_execRegModify (h addr set mask value) (hp : p ∉ Footprint.request ++ [.arrived, .held]) :
    p.kept s (execRegModify h addr set mask value s) := by
  refine kept_command _ _ _ _ fun t => ?_
  simp [answered_writeCmd _ _ _ _ _ _ hp]

@[simp] theorem kept_execPatternSwap (h group when' course) (hp : p ≠ .chan ∧ p ≠ .copying ∧ p ≠ .mem ∧ p ≠ .oldL ∧
    p ≠ .shd) :
    p.kept s (execPatternSwap h group when' course s) := by
  refine kept_command _ _ _ _ fun t => ?_
  split <;> simp [hp]

@[simp] theorem kept_execPatternRevert (h group) (hp : p ≠ .shd) : p.kept s (execPatternRevert h group s) := by
  refine kept_command _ _ _ _ fun t => ?_
  split <;> simp [hp]

@[simp] theorem kept_execPatternStatus (h group) : p.kept s (execPatternStatus h group s) := by
  refine kept_command _ _ _ _ fun t => ?_
  split <;> simp

@[simp] theorem same_runInput (session g op flags) (hp : p ≠ .accepts ∧ p ≠ .flight) :
    p.same s0 (s.runInput session g op flags) ↔ p.same s0 s := by
  simp [State.runInput, hp]

@[simp] theorem kept_execGroupStart (h group flags) (hp : p ∉ Footprint.start ++ [.accepts]) :
    p.kept s (execGroupStart h group flags s) := by
  simp at hp
  simp [execGroupStart, hp]

@[simp] theorem kept_execGroupStop (h group) (hp : p ∉ Footprint.stop ++ [.accepts, .flight]) :
    p.kept s (execGroupStop h group s) := by
  simp at hp
  simp [execGroupStop, hp]

@[simp] theorem kept_execGroupStatus (h group) : p.kept s (execGroupStatus h group s) := by
  simp [execGroupStatus]

@[simp] theorem kept_execExposure (h channel expId exp gain rsv target) (hp : p ≠ .lane) :
    p.kept s (execExposure h channel expId exp gain rsv target s) := by
  refine kept_command _ _ _ _ fun t => ?_
  dsimp only
  split <;> simp
  split <;> simp [hp]

@[simp] theorem kept_execCameraCtrl (h channel op addr count data) (hp : p ≠ .lane) :
    p.kept s (execCameraCtrl h channel op addr count data s) := by
  simp [execCameraCtrl, hp]

@[simp] theorem kept_execCameraIdent (h channel) (hp : p ≠ .lane) : p.kept s (execCameraIdent h channel s) := by
  simp [execCameraIdent, hp]

@[simp] theorem kept_execAuxsync (h) (hp : p ≠ .aux) : p.kept s (execAuxsync h s) := by
  simp [execAuxsync, hp]

@[simp] theorem same_stopDone (o) : p.same s0 (s.stopDone o) ↔ p.same s0 s := by
  simp [State.stopDone]

@[simp] theorem kept_execCommandComplete (session seq) : p.kept s (execCommandComplete session seq s) := by
  unfold execCommandComplete
  split <;> simp

/-! ## The operations of `Sys2Proof/Machine/MemCommands.lean` -/

@[simp] theorem kept_execRingConfig (h ring base depthLog entry) (hp : p ≠ .chan ∧ p ≠ .lane ∧ p ≠ .mem) :
    p.kept s (execRingConfig h ring base depthLog entry s) := by
  simp [execRingConfig, hp]

@[simp] theorem kept_execRingRelease (h ring) (hp : p ≠ .chan ∧ p ≠ .lane ∧ p ≠ .mem) :
    p.kept s (execRingRelease h ring s) := by
  simp [execRingRelease, hp]

@[simp] theorem kept_execRingSubscribe (h ring flags udp addr) (hp : p ≠ .mem) :
    p.kept s (execRingSubscribe h ring flags udp addr s) := by
  refine kept_command _ _ _ _ fun t => ?_
  dsimp only
  split <;> simp [hp]
  split <;> simp [hp]

@[simp] theorem kept_execRingUnsubscribe (h sub) (hp : p ≠ .mem) : p.kept s (execRingUnsubscribe h sub s) := by
  refine kept_command _ _ _ _ fun t => ?_
  split
  · split <;> simp [hp]
  · simp

@[simp] theorem same_readEntries (id n i) (hp : p ≠ .mem) : p.same s0 (s.readEntries id n i).1 ↔ p.same s0 s := by
  induction n generalizing s i with
  | zero => simp [State.readEntries]
  | succ n ih =>
    simp only [State.readEntries]
    split <;> simp [ih, hp]

@[simp] theorem kept_execRingRead (h ring index count) (hp : p ≠ .mem) : p.kept s (execRingRead h ring index count s)
    := by
  refine kept_command _ _ _ _ fun t => ?_
  simp [hp]
  split <;> simp [hp]

@[simp] theorem kept_execRingStatus (h ring) (hp : p ≠ .mem) : p.kept s (execRingStatus h ring s) := by
  simp [execRingStatus, hp]

@[simp] theorem kept_execRingConsume (h ring index) (hp : p ≠ .mem) : p.kept s (execRingConsume h ring index s) := by
  simp [execRingConsume, hp]

@[simp] theorem kept_execMemRead (h addr len) (hp : p ≠ .mem) : p.kept s (execMemRead h addr len s) := by
  refine kept_command _ _ _ _ fun t => ?_
  simp
  split <;> simp [hp]

@[simp] theorem kept_execMemWrite (h addr data) (hp : p ≠ .mem) : p.kept s (execMemWrite h addr data s) := by
  refine kept_command _ _ _ _ fun t => ?_
  simp
  split <;> simp [hp]

@[simp] theorem kept_execDmaStart (h channel desc) (hp : p ≠ .dma ∧ p ≠ .mem) :
    p.kept s (execDmaStart h channel desc s) := by
  simp [execDmaStart, hp]

@[simp] theorem kept_execDmaAbort (h channel) (hp : p ≠ .dma ∧ p ≠ .mem) : p.kept s (execDmaAbort h channel s) := by
  simp [execDmaAbort, hp]

@[simp] theorem kept_execDmaStatus (h channel) : p.kept s (execDmaStatus h channel s) := by
  simp [execDmaStatus]

/-! ## The operations of `Sys2Proof/Machine/Replay.lean` -/

@[simp] theorem kept_execReplayArm (hp : p ≠ .mem) : p.kept s (execReplayArm s) := by
  simp [execReplayArm, hp]

@[simp] theorem kept_execReplayDisarm (hp : p ≠ .mem) : p.kept s (execReplayDisarm s) := by
  simp [execReplayDisarm, hp]

@[simp] theorem kept_execFreezeInstant (hp : p ≠ .mem) : p.kept s (execFreezeInstant s) := by
  simp [execFreezeInstant, hp]

@[simp] theorem same_itemsRead (l) (hp : p ≠ .mem) : p.same s0 (s.itemsRead l).1 ↔ p.same s0 s := by
  induction l generalizing s with
  | nil => simp [State.itemsRead]
  | cons i is ih => simp [State.itemsRead, ih, hp]

@[simp] theorem same_setBytes (a) (hp : p ≠ .mem) : p.same s0 (s.setBytes a).1 ↔ p.same s0 s := by
  simp [State.setBytes, hp]

@[simp] theorem same_clsBytes (a) (hp : p ≠ .mem) : p.same s0 (s.clsBytes a).1 ↔ p.same s0 s := by
  simp [State.clsBytes, hp]

@[simp] theorem same_capSects (g k0 kf l) (hp : p ≠ .mem) : p.same s0 (s.capSects g k0 kf l).1 ↔ p.same s0 s := by
  induction l generalizing s with
  | nil => simp [State.capSects]
  | cons ch chs ih => simp [State.capSects, ih, hp]

@[simp] theorem same_slotSects (g l) (hp : p ≠ .mem) : p.same s0 (s.slotSects g l).1 ↔ p.same s0 s := by
  induction l generalizing s with
  | nil => simp [State.slotSects]
  | cons e es ih => simp [State.slotSects, ih, hp]

@[simp] theorem same_setSects (g l) (hp : p ≠ .mem) : p.same s0 (s.setSects g l).1 ↔ p.same s0 s := by
  induction l generalizing s with
  | nil => simp [State.setSects]
  | cons e es ih => simp [State.setSects, ih, hp]

@[simp] theorem same_groupSects (g k0 kf) (hp : p ≠ .mem) : p.same s0 (s.groupSects g k0 kf).1 ↔ p.same s0 s := by
  unfold State.groupSects
  dsimp only
  split <;> simp [hp]

@[simp] theorem same_sectsOf (l) (hp : p ≠ .mem) : p.same s0 (s.sectsOf l).1 ↔ p.same s0 s := by
  induction l generalizing s with
  | nil => simp [State.sectsOf]
  | cons w ws ih => simp [State.sectsOf, ih, hp]

@[simp] theorem same_bundle (hp : p ≠ .mem) : p.same s0 s.bundle.1 ↔ p.same s0 s := by
  simp [State.bundle, hp]

@[simp] theorem same_pump (n) (hp : p ≠ .mem) : p.same s0 (s.pump n) ↔ p.same s0 s := by
  induction n generalizing s with
  | zero => simp [State.pump]
  | succ n ih => simp [State.pump, ih, hp]

@[simp] theorem same_pumpAll (hp : p ≠ .mem) : p.same s0 s.pumpAll ↔ p.same s0 s := by
  simp [State.pumpAll, hp]

@[simp] theorem kept_execBundleExport (h ring) (hp : p ≠ .mem) : p.kept s (execBundleExport h ring s) := by
  simp [execBundleExport, hp]

@[simp] theorem kept_execExportEnd (hp : p ≠ .mem) : p.kept s (execExportEnd s) := by
  simp [execExportEnd, hp]

/-! ## The operations of `Sys2Proof/Machine/DramRows.lean` -/

@[simp] theorem kept_execRefreshSlot (d) : p.kept s (execRefreshSlot d s) := by
  simp [execRefreshSlot]

@[simp] theorem kept_execMemTempRead (d temp) : p.kept s (execMemTempRead d temp s) := by
  simp [execMemTempRead]

@[simp] theorem kept_execMemRequestServe (d crc) (hp : p ≠ .mem) : p.kept s (execMemRequestServe d crc s) := by
  unfold execMemRequestServe
  split <;> simp [hp]

@[simp] theorem same_symbolsFail (d) : p.same s0 (s.symbolsFail d) ↔ p.same s0 s := by
  simp [State.symbolsFail]

@[simp] theorem kept_execScrubPass (d) (hp : p ≠ .mem) : p.kept s (execScrubPass d s) := by
  simp [execScrubPass, hp]

@[simp] theorem same_recut (g q) (hp : p ≠ .mem) : p.same s0 (s.recut g q).1 ↔ p.same s0 s := by
  simp [State.recut, hp]

@[simp] theorem same_patchFails (g id q) (hp : p ≠ .mem) : p.same s0 (s.patchFails g id q) ↔ p.same s0 s := by
  simp [State.patchFails, hp]

@[simp] theorem same_patchesFail (d) (hp : p ≠ .mem) : p.same s0 (s.patchesFail d) ↔ p.same s0 s := by
  simp [State.patchesFail, hp]

@[simp] theorem same_memFail (d) (hp : p ≠ .mem ∧ p ≠ .retrain) : p.same s0 (s.memFail d) ↔ p.same s0 s := by
  simp [State.memFail, hp]

@[simp] theorem kept_execMemDeviceFail (d) (hp : p ≠ .mem ∧ p ≠ .retrain) : p.kept s (execMemDeviceFail d s) := by
  simp [execMemDeviceFail, hp]

@[simp] theorem kept_execRetrainStep (d ch ok) (hp : p ≠ .mem ∧ p ≠ .retrain) : p.kept s (execRetrainStep d ch ok s)
    := by
  simp [execRetrainStep, hp]

@[simp] theorem kept_execRetrainWait (d) : p.kept s (execRetrainWait d s) := by
  simp [execRetrainWait]

/-! ## The operations of `Sys2Proof/Machine/Rerun.lean` -/

@[simp] theorem same_readSects (a l) (hp : p ≠ .mem) : p.same s0 (s.readSects a l).1 ↔ p.same s0 s := by
  induction l generalizing s with
  | nil => simp [State.readSects]
  | cons e es ih =>
    simp only [State.readSects]
    split <;> simp [ih, hp]

@[simp] theorem same_readBundle (a) (hp : p ≠ .mem) : p.same s0 (s.readBundle a).1 ↔ p.same s0 s := by
  unfold State.readBundle
  dsimp only
  split
  · simp [hp]
  · rw [same_ite_fst]
    split
    · simp [hp]
    · split <;> simp [hp]

@[simp] theorem kept_execRerunStart (h addr) (hp : p ≠ .cmp ∧ p ≠ .mem) : p.kept s (execRerunStart h addr s) := by
  refine kept_command _ _ _ _ fun t => ?_
  simp
  split <;> simp [hp]

@[simp] theorem kept_execRerunStatus (h) : p.kept s (execRerunStatus h s) := by
  simp [execRerunStatus]

@[simp] theorem same_saveFields (l) : p.same s0 (s.saveFields l) ↔ p.same s0 s := by
  simp [State.saveFields]

@[simp] theorem same_place (ok a bs) (hp : p ≠ .mem) : p.same s0 (s.place ok a bs).1 ↔ p.same s0 s := by
  simp [State.place, hp]

@[simp] theorem same_placeSects (ok g sets a l) (hp : p ≠ .mem ∧ p ≠ .shd) :
    p.same s0 (s.placeSects ok g sets a l).1 ↔ p.same s0 s := by
  induction l generalizing s ok sets a with
  | nil => simp [State.placeSects]
  | cons e es ih => simp [State.placeSects, ih, hp]

@[simp] theorem same_loadImage (b im g k0 a) (hp : p ≠ .chan ∧ p ≠ .grp ∧ p ≠ .hist ∧ p ≠ .mem ∧ p ≠ .oldL ∧
    p ≠ .seam ∧ p ≠ .seamG ∧ p ≠ .segG ∧ p ≠ .shd ∧ p ≠ .tal) :
    p.same s0 (s.loadImage b im g k0 a).1 ↔ p.same s0 s := by
  simp [State.loadImage, hp]

@[simp] theorem same_rerunRings (g) (hp : p ≠ .mem) : p.same s0 (s.rerunRings g) ↔ p.same s0 s := by
  simp [State.rerunRings, hp]

@[simp] theorem same_rerunLive (g r) (hp : p ≠ .chan ∧ p ≠ .lane ∧ p ≠ .mem ∧ p ≠ .oldL ∧ p ≠ .segG) :
    p.same s0 (s.rerunLive g r) ↔ p.same s0 s := by
  simp [State.rerunLive, hp]

@[simp] theorem same_feed (g ch i) (hp : p ≠ .chan ∧ p ≠ .csw ∧ p ≠ .lane ∧ p ≠ .mem) :
    p.same s0 (s.feed g ch i) ↔ p.same s0 s := by
  unfold State.feed
  dsimp only
  repeat' split
  all_goals simp [hp]

@[simp] theorem same_loadGroup (b w a) (hp : p ∉ Footprint.bundle) :
    p.same s0 (s.loadGroup b w a).1 ↔ p.same s0 s := by
  unfold State.loadGroup
  split
  · simp
  · next im _ =>
    simp at hp
    dsimp only
    have feeds (ch : Nat) (l : List CapItem) (t : State) : p.same t (forL l (fun i u => u.feed w.1 ch i) t) := by simp [hp]
    simp [feeds, hp]

@[simp] theorem same_loadGroups (b a l) (hp : p ∉ Footprint.bundle) : p.same s0 (s.loadGroups b a l).1 ↔
    p.same s0 s := by
  induction l generalizing s a with
  | nil => simp [State.loadGroups]
  | cons w ws ih => simp [State.loadGroups, ih, same_loadGroup _ _ _ hp]

@[simp] theorem same_rerunEnd (hp : p ≠ .chan) : p.same s0 s.rerunEnd ↔ p.same s0 s := by
  simp [State.rerunEnd, hp]

@[simp] theorem same_rerunStop (hp : p ∉ Footprint.stop) : p.same s0 s.rerunStop ↔ p.same s0 s := by
  simp at hp
  simp [State.rerunStop, hp]

@[simp] theorem kept_execRerunLoaded (hp : p ∉ Footprint.reload) : p.kept s (execRerunLoaded s) := by
  simp at hp
  unfold execRerunLoaded
  simp only [kept_next, same_ite]
  split
  · split
    · simp [hp]
    · simp [hp]
  · simp

@[simp] theorem same_rerunShadow (g r) (hp : p ≠ .shd) : p.same s0 (s.rerunShadow g r) ↔ p.same s0 s := by
  simp [State.rerunShadow, hp]

@[simp] theorem same_rerunSwap (g c) (hp : p ≠ .copying ∧ p ≠ .oldL ∧ p ≠ .shd) :
    p.same s0 (s.rerunSwap g c) ↔ p.same s0 s := by
  simp [State.rerunSwap, hp]

@[simp] theorem same_rerunBanks (recs g k0 c) (hp : p ≠ .copying ∧ p ≠ .oldL ∧ p ≠ .shd) :
    p.same s0 (s.rerunBanks recs g k0 c) ↔ p.same s0 s := by
  simp [State.rerunBanks, hp]

@[simp] theorem same_rerunGauge (g r) (hp : p ≠ .chan ∧ p ≠ .mem) : p.same s0 (s.rerunGauge g r).1 ↔ p.same s0 s := by
  unfold State.rerunGauge
  dsimp only
  split <;> simp [hp]

@[simp] theorem same_rerunTimes (mine g c) (hp : p ≠ .chan) : p.same s0 (s.rerunTimes mine g c) ↔ p.same s0 s := by
  simp [State.rerunTimes, hp]

@[simp] theorem same_rerunBoundary (recs g k0 c) (hp : p ≠ .chan ∧ p ≠ .copying ∧ p ≠ .csw ∧ p ≠ .lane ∧
    p ≠ .mem ∧ p ≠ .oldL ∧ p ≠ .pnl ∧ p ≠ .segG ∧ p ≠ .shd) :
    p.same s0 (s.rerunBoundary recs g k0 c).1 ↔ p.same s0 s := by
  simp [State.rerunBoundary, hp]

@[simp] theorem same_rerunTrigger (recs g c) (hp : p ≠ .grp ∧ p ≠ .hist ∧ p ≠ .mem ∧ p ≠ .seam ∧ p ≠ .sync) :
    p.same s0 (s.rerunTrigger recs g c) ↔ p.same s0 s := by
  simp [State.rerunTrigger, hp]

@[simp] theorem same_rerunInputs (recs g c) (hp : p ≠ .arrived) :
    p.same s0 (s.rerunInputs recs g c) ↔ p.same s0 s := by
  simp [State.rerunInputs, hp]

@[simp] theorem same_rerunIssue (b g k0 c) (hp : p ∉ Footprint.rerun) :
    p.same s0 (s.rerunIssue b g k0 c) ↔ p.same s0 s := by
  simp at hp
  have feeds (ch : Nat) (l : List CapItem) (t : State) : p.same t (forL l (fun i u => u.feed g ch i) t) := by simp [hp]
  simp [State.rerunIssue, feeds, hp]

@[simp] theorem kept_execRerunCourse (g) (hp : p ∉ Footprint.rerun) : p.kept s (execRerunCourse g s) := by
  simp at hp
  unfold execRerunCourse
  dsimp only
  repeat' split
  all_goals simp [hp]

/-! ## The operations of `Sys2Proof/Machine/UnitCommands.lean` -/

@[simp] theorem same_calOne (g ch) (hp : p ≠ .chan) : p.same s0 (s.calOne g ch) ↔ p.same s0 s := by
  simp [State.calOne, hp]

@[simp] theorem kept_execCalRequest (h channel) (hp : p ≠ .chan) : p.kept s (execCalRequest h channel s) := by
  refine kept_command _ _ _ _ fun t => ?_
  have calAll : ∀ k l, p.same t (forL l (fun c u => u.calOne k c) t) := fun k l => by simp [hp]
  simp [calAll]
  split <;> simp [hp]

@[simp] theorem kept_execCalStatus (h channel) : p.kept s (execCalStatus h channel s) := by
  simp [execCalStatus]

@[simp] theorem kept_execLaneAdapt (h lane) : p.kept s (execLaneAdapt h lane s) := by
  simp [execLaneAdapt]

@[simp] theorem kept_execTimeGet (h) : p.kept s (execTimeGet h s) := by
  simp [execTimeGet]

@[simp] theorem kept_execTimeSet (h sec ns) (hp : p ≠ .localT) : p.kept s (execTimeSet h sec ns s) := by
  simp [execTimeSet, hp]

@[simp] theorem kept_execPtpStatus (h) : p.kept s (execPtpStatus h s) := by
  simp [execPtpStatus]

@[simp] theorem kept_execPtpPrefer (h domain) (hp : p ≠ .localT ∧ p ≠ .mem ∧ p ≠ .time) :
    p.kept s (execPtpPrefer h domain s) := by
  simp [execPtpPrefer, hp]

theorem answered_markUnit (unit f) (hf : p.answered s (f s)) : p.answered s (markUnit unit f s) := by
  simp [markUnit, hf]

@[simp] theorem kept_execMarkInsert (h unit pos id) (hp : p ≠ .cmp ∧ p ≠ .mem) :
    p.kept s (execMarkInsert h unit pos id s) :=
  kept_command _ _ _ _ fun t => answered_markUnit _ _ (by simp [hp])

@[simp] theorem kept_execMarkClear (h unit) (hp : p ≠ .cmp) : p.kept s (execMarkClear h unit s) := by
  exact kept_command _ _ _ _ fun t => answered_markUnit _ _ (by simp [hp])

@[simp] theorem kept_execMarkHold (h hold) : p.kept s (execMarkHold h hold s) := by
  exact kept_command _ _ _ _ fun t => answered_markUnit _ _ (by simp)

@[simp] theorem kept_execCassAuth (h) (hp : p ≠ .cass) : p.kept s (execCassAuth h s) := by
  exact kept_command _ _ _ _ fun t => answered_markUnit _ _ (by simp [hp])

@[simp] theorem kept_execTagStatus (h) : p.kept s (execTagStatus h s) := by
  exact kept_command _ _ _ _ fun t => answered_markUnit _ _ (by simp)

@[simp] theorem kept_execCaptureFreeze (h) : p.kept s (execCaptureFreeze h s) := by
  simp [execCaptureFreeze]

@[simp] theorem kept_execCaptureRearm (h) : p.kept s (execCaptureRearm h s) := by
  simp [execCaptureRearm]

@[simp] theorem same_readLog (n i) (hp : p ≠ .mem) : p.same s0 (s.readLog n i).1 ↔ p.same s0 s := by
  induction n generalizing s i with
  | zero => simp [State.readLog]
  | succ n ih =>
    simp only [State.readLog]
    split <;> simp [ih, hp]

theorem answered_logFrom (h i count old nxt) (hp : p ≠ .mem) : p.answered s (s.logFrom h i count old nxt) := by
  simp [State.logFrom]
  split <;> simp [hp]

@[simp] theorem kept_execLogRead (h index count) (hp : p ≠ .mem) : p.kept s (execLogRead h index count s) := by
  exact kept_command _ _ _ _ fun t => answered_logFrom _ _ _ _ _ hp

@[simp] theorem kept_execLogClear (h) : p.kept s (execLogClear h s) := by
  simp [execLogClear]

@[simp] theorem kept_execSelftest (h cls index) (hp : p ≠ .mem) : p.kept s (execSelftest h cls index s) := by
  simp [execSelftest, hp]

@[simp] theorem same_spareFails (r) (hp : p ≠ .chan ∧ p ≠ .csw ∧ p ≠ .mem ∧ p ≠ .spareDue) :
    p.same s0 (s.spareFails r) ↔ p.same s0 s := by
  simp [State.spareFails, hp]

@[simp] theorem same_inject (cls i) (hp : p ≠ .chan ∧ p ≠ .csw ∧ p ≠ .lane ∧ p ≠ .mem ∧ p ≠ .pnl ∧
    p ≠ .retrain ∧ p ≠ .segG ∧ p ≠ .spareDue ∧ p ≠ .tal) :
    p.same s0 (s.inject cls i) ↔ p.same s0 s := by
  simp [State.inject, hp]

@[simp] theorem kept_execFaultInject (h cls index) (hp : p ≠ .chan ∧ p ≠ .csw ∧ p ≠ .lane ∧ p ≠ .mem ∧ p ≠ .pnl ∧
    p ≠ .retrain ∧ p ≠ .segG ∧ p ≠ .spareDue ∧ p ≠ .tal) :
    p.kept s (execFaultInject h cls index s) := by
  simp [execFaultInject, hp]

/-! ## The operations of `Sys2Proof/Machine/PowerCommands.lean` -/

theorem answered_powerTo (code) (hp : p = .flash ∨ p = .fuses ∨ p = .jtag ∨ p = .pos) : p.answered s (s.powerTo code)
    := by
  rcases hp with rfl | rfl | rfl | rfl <;> simp [State.powerTo]

@[simp] theorem kept_execPowerState (h state) (hp : p = .flash ∨ p = .fuses ∨ p = .jtag ∨ p = .pos) :
    p.kept s (execPowerState h state s) := by
  exact kept_command _ _ _ _ fun t => answered_powerTo _ hp

@[simp] theorem same_powerOff (d) (hp : p ∉ Footprint.powerOff) : p.same s0 (s.powerOff d) ↔ p.same s0 s := by
  simp at hp
  simp [State.powerOff, hp]

theorem answered_domainPower (d on port) (hp : p ∉ Footprint.powerOff ++ [.power]) :
    p.answered s (s.domainPower d on port) := by
  simp at hp
  simp [State.domainPower, hp]

@[simp] theorem kept_execDomainPower (h domain on) (hp : p ∉ Footprint.powerOff ++ [.power]) :
    p.kept s (execDomainPower h domain on s) := by
  refine kept_command _ _ _ _ fun t => ?_
  simp [answered_domainPower _ _ _ hp]

@[simp] theorem same_bindStart (hp : p ∉ Footprint.stop ++ [.power]) : p.same s0 s.bindStart ↔ p.same s0 s := by
  simp at hp
  simp [State.bindStart, hp]

@[simp] theorem kept_execBindOff (h) (hp : p ∉ Footprint.stop ++ [.power]) : p.kept s (execBindOff h s) := by
  simp at hp
  simp [execBindOff, hp]

@[simp] theorem kept_execBindOffFlushEnd (hp : p ∉ Footprint.domain ++ [.grp, .power, .segG, .tal]) :
    p.kept s (execBindOffFlushEnd s) := by
  simp at hp
  simp [execBindOffFlushEnd, hp]

@[simp] theorem same_resetKeys (q) (hp : p ≠ .shd) : p.same s0 (s.resetKeys q) ↔ p.same s0 s := by
  simp [State.resetKeys, hp]

@[simp] theorem same_resetJoin (ch) (hp : p ≠ .chan ∧ p ≠ .csw ∧ p ≠ .mem ∧ p ≠ .pnl) :
    p.same s0 (s.resetJoin ch) ↔ p.same s0 s := by
  unfold State.resetJoin
  split <;> simp [hp]

@[simp] theorem same_resetChan (ch) (hp : p ≠ .chan ∧ p ≠ .csw ∧ p ≠ .mem ∧ p ≠ .pnl ∧ p ≠ .shd) :
    p.same s0 (s.resetChan ch) ↔ p.same s0 s := by
  simp [State.resetChan, hp]

@[simp] theorem same_resetLane (l) (hp : p ≠ .chan ∧ p ≠ .lane ∧ p ≠ .mem ∧ p ≠ .shd) :
    p.same s0 (s.resetLane l) ↔ p.same s0 s := by
  simp [State.resetLane, hp]

@[simp] theorem same_resetLines (ch) (hp : p ≠ .chan ∧ p ≠ .seam) : p.same s0 (s.resetLines ch) ↔ p.same s0 s := by
  simp [State.resetLines, hp]

@[simp] theorem same_countFlush (c n) : p.same s0 (s.countFlush c n) ↔ p.same s0 s := by
  simp [State.countFlush]

@[simp] theorem same_resetCluster (c) (hp : p ≠ .chan ∧ p ≠ .csw ∧ p ≠ .lane ∧ p ≠ .mem ∧ p ≠ .pnl ∧ p ≠ .seam ∧
    p ≠ .shd ∧ p ≠ .stopped) :
    p.same s0 (s.resetCluster c) ↔ p.same s0 s := by
  simp [State.resetCluster, hp]

@[simp] theorem same_resetPipe (ch) (hp : p ≠ .chan ∧ p ≠ .csw ∧ p ≠ .mem ∧ p ≠ .pnl ∧ p ≠ .shd) :
    p.same s0 (s.resetPipe ch) ↔ p.same s0 s := by
  simp [State.resetPipe, hp]

@[simp] theorem same_freeJobs (mine) (hp : p ≠ .tal) : p.same s0 (s.freeJobs mine) ↔ p.same s0 s := by
  simp [State.freeJobs, hp]

@[simp] theorem same_resetEngine (e) (hp : p ≠ .shd ∧ p ≠ .tal) : p.same s0 (s.resetEngine e) ↔ p.same s0 s := by
  simp [State.resetEngine, hp]

@[simp] theorem same_resetMc (d) (hp : p ≠ .retrain ∧ p ≠ .shd) : p.same s0 (s.resetMc d) ↔ p.same s0 s := by
  simp [State.resetMc, hp]

@[simp] theorem same_resetCodec (k l) (hp : p ≠ .hank) : p.same s0 (s.resetCodec k l) ↔ p.same s0 s := by
  unfold State.resetCodec
  split <;> simp [hp]

@[simp] theorem same_resetRegion (r) (hp : p ∉ Footprint.reset) : p.same s0 (s.resetRegion r) ↔ p.same s0 s := by
  simp at hp
  simp [State.resetRegion, hp]

@[simp] theorem same_resetDie (d) (hp : p ∉ Footprint.reset) : p.same s0 (s.resetDie d) ↔ p.same s0 s := by
  simp at hp
  simp [State.resetDie, hp]

theorem resetUnit_same {i d f} (hp : p ∉ Footprint.reset) (h : resetUnit i = some (d, f)) : p.same t (f t) := by
  simp at hp
  unfold resetUnit at h
  split_ifs at h <;> simp only [Option.some.injEq, Prod.mk.injEq] at h <;> obtain ⟨-, rfl⟩ := h <;> simp [hp]

@[simp] theorem kept_execReset (h level index) (hp : p ∉ Footprint.reset) : p.kept s (execReset h level index s) := by
  refine kept_command _ _ _ _ fun t => ?_
  dsimp only
  split
  · split
    · simp
    · next d f hu => simp [resetUnit_same hp hu]
  all_goals
    simp at hp
    simp [hp]

/-! ## The operations of `Sys2Proof/Machine/Frames.lean` -/

@[simp] theorem kept_runOpLow (h op q) (hp : p ∉ Footprint.lowOps ++ [.power]) : p.kept s (s.runOpLow h op q) := by
  simp at hp
  unfold State.runOpLow
  split <;> simp [hp]

@[simp] theorem kept_runOpMid (h op q) (hp : p ≠ .chan ∧ p ≠ .dma ∧ p ≠ .lane ∧ p ≠ .localT ∧ p ≠ .mem ∧ p ≠ .time) :
    p.kept s (s.runOpMid h op q) := by
  unfold State.runOpMid
  split <;> simp [hp]

@[simp] theorem kept_runOpHigh (h op q) (hp : p = .flash ∨ p = .fuses ∨ p = .jtag ∨ p = .pos) :
    p.kept s (s.runOpHigh h op q) := by
  rcases hp with rfl | rfl | rfl | rfl <;> unfold State.runOpHigh <;> split <;> simp

@[simp] theorem same_resultOr (o) (ho : p.kept s o) : p.same s (resultOr s o) := by
  obtain ⟨t, rfl, ht⟩ := ho
  exact ht

@[simp] theorem same_runOp (h op q) (hp : p = .fuses ∨ p = .jtag) : p.same s0 (s.runOp h op q) ↔ p.same s0 s := by
  unfold State.runOp
  split
  · simp
  · rw [same_ite]
    split
    · exact (same_resultOr _ (by rcases hp with rfl | rfl <;> simp)).iff
    · simp

@[simp] theorem same_cmdDgram (port addr udp m) (hp : p = .fuses ∨ p = .jtag) :
    p.same s0 (s.cmdDgram port addr udp m) ↔ p.same s0 s := by
  simp only [State.cmdDgram, same_ite]
  split
  · rfl
  · split
    · simp
    · split
      · simp
      · split
        · simp
        · simp only [same_ite]
          split
          · simp
          · split
            · rw [same_quick]
              split <;> simp
            · rw [same_runOp _ _ _ hp]
              split <;> simp

@[simp] theorem same_ptpOther (d port m) (hp : p ≠ .localT ∧ p ≠ .mem ∧ p ≠ .ptp ∧ p ≠ .time) :
    p.same s0 (s.ptpOther d port m) ↔ p.same s0 s := by
  simp [State.ptpOther, hp]
  split <;> simp [hp]

@[simp] theorem same_ptpFrame (port trans m) (hp : p ≠ .localT ∧ p ≠ .mem ∧ p ≠ .ptp ∧ p ≠ .time) :
    p.same s0 (s.ptpFrame port trans m) ↔ p.same s0 s := by
  simp [State.ptpFrame, hp]

@[simp] theorem same_udpIn (port src pseudo m) (hp : p = .fuses ∨ p = .jtag) :
    p.same s0 (s.udpIn port src pseudo m) ↔ p.same s0 s := by
  rcases hp with rfl | rfl <;> simp [State.udpIn]

@[simp] theorem same_ip4In (port m) (hp : p = .fuses ∨ p = .jtag) : p.same s0 (s.ip4In port m) ↔ p.same s0 s := by
  rcases hp with rfl | rfl <;> simp [State.ip4In]

@[simp] theorem same_icmp6In (port mac src dst m) : p.same s0 (s.icmp6In port mac src dst m) ↔ p.same s0 s := by
  unfold State.icmp6In
  dsimp only
  repeat' split
  all_goals simp

@[simp] theorem same_ip6In (port mac m) (hp : p = .fuses ∨ p = .jtag) :
    p.same s0 (s.ip6In port mac m) ↔ p.same s0 s := by
  rcases hp with rfl | rfl <;> simp [State.ip6In]

@[simp] theorem same_arpIn (port m) : p.same s0 (s.arpIn port m) ↔ p.same s0 s := by
  simp [State.arpIn]

@[simp] theorem same_prpCheck (port src b) : p.same s0 (s.prpCheck port src b).1 ↔ p.same s0 s := by
  unfold State.prpCheck
  split <;> simp

@[simp] theorem same_frameIn (port b) (hp : p = .fuses ∨ p = .jtag) : p.same s0 (s.frameIn port b) ↔ p.same s0 s := by
  rcases hp with rfl | rfl <;> simp only [State.frameIn] <;> split <;> simp

@[simp] theorem kept_execEthFrameReceived (port frame fcsOk) (hp : p = .fuses ∨ p = .jtag) :
    p.kept s (execEthFrameReceived port frame fcsOk s) := by
  have frames (t : State) (b) : p.same s (t.frameIn port b) ↔ p.same s t := same_frameIn _ _ hp
  simp only [execEthFrameReceived, kept_next, same_ite]
  repeat' split
  all_goals simp [frames]

/-! ## Every row

`Instr.mayChange` lists what each row may write; a part that it does not list is none of those that the row's frame lemma
excepts. -/

variable {q : Part} {c : Instr}

theorem Part.ne_of_mayChange (h : Instr.mayChange c p = false) (hq : Instr.mayChange c q = true) : p ≠ q := by
  rintro rfl
  simp [h] at hq

theorem Part.notMem_of_mayChange {l : List Part} (h : Instr.mayChange c p = false) (hl : l.all (Instr.mayChange c) = true) :
    p ∉ l :=
  fun hp => ne_of_mayChange h (List.all_eq_true.mp hl p hp) rfl

/-- Every part of the state that a frame is stated for. -/
def Part.all : List Part :=
  [.mem, .fuses, .accepts, .annKey, .arrived, .aux, .banksOff, .boot, .cass, .cassKey, .chan, .cmp, .copying, .csw,
    .degShown, .devView, .dma, .dpBuf, .dpMon, .dpRow, .dup, .flash, .flight, .gated, .grp, .hank, .held, .hist,
    .jtag, .keys, .lane, .lbGone, .lbNext, .live, .localT, .mclkAt, .oldL, .pnl, .pos, .power, .ptp, .retrain,
    .rezero, .seam, .seamG, .segG, .shd, .spareDue, .stopped, .sync, .tag, .tal, .tallyLast, .time, .view, .viewOld,
    .wakeFrom]

theorem Part.mem_all (p : Part) : p ∈ Part.all := by cases p <;> decide

/-- A row that renews nearly all of the state leaves alone a few parts only. -/
theorem Part.mem_of_mayChange (h : Instr.mayChange c p = false) (l : List Part)
    (hl : Part.all.all (fun q => Instr.mayChange c q || l.contains q) = true) : p ∈ l := by
  have listed := List.all_eq_true.mp hl p p.mem_all
  simpa [h] using listed

/-- The frame of every row: it completes, and leaves alone each part that it is not listed to write. -/
theorem exec_kept (h : Instr.mayChange c p = false) : p.kept s (exec c s) := by
  have off : ∀ {q}, Instr.mayChange c q = true → p ≠ q := Part.ne_of_mayChange h
  have offAll : ∀ {l : List Part}, l.all (Instr.mayChange c) = true → p ∉ l := Part.notMem_of_mayChange h
  cases c with
  | pornRise _ _ => exact kept_execPornRise _ _ ⟨off rfl, off rfl⟩
  | pornFall => exact kept_execPornFall (by simpa using Part.mem_of_mayChange h [.fuses] rfl)
  | aonUndervolt => exact kept_execAonUndervolt (by simpa using Part.mem_of_mayChange h [.fuses] rfl)
  | xaStableDelayEnd _ => exact kept_execXaStableDelayEnd _ (off rfl)
  | castOnWatchdog => exact kept_execCastOnWatchdog (off rfl)
  | ready => exact kept_execReady (by simpa using Part.mem_of_mayChange h [.fuses, .jtag] rfl)
  | announcePeriodic => exact kept_execAnnouncePeriodic
  | degradedChange => exact kept_execDegradedChange (off rfl)
  | announceReceived _ => exact kept_execAnnounceReceived _ ⟨off rfl, off rfl⟩
  | fuseProgGo _ => exact kept_execFuseProgGo _ (off rfl)
  | fuseProgDone _ => exact kept_execFuseProgDone _ (off rfl)
  | xspiRead => exact kept_execXspiRead ⟨off rfl, off rfl⟩
  | xspiProgram => exact kept_execXspiProgram ⟨off rfl, off rfl⟩
  | xspiErase => exact kept_execXspiErase ⟨off rfl, off rfl⟩
  | xspiDone _ => exact kept_execXspiDone _
  | extest => exact kept_execExtest (off rfl)
  | samplePreload => exact kept_execSamplePreload (off rfl)
  | idcode => exact kept_execIdcode (off rfl)
  | dbgAccess _ _ _ _ => exact kept_execDbgAccess _ _ _ _ (offAll rfl)
  | scanTest => exact kept_execScanTest (off rfl)
  | highz => exact kept_execHighz (off rfl)
  | clamp => exact kept_execClamp (off rfl)
  | bypass => exact kept_execBypass (off rfl)
  | lockstepFault => exact kept_execLockstepFault ⟨off rfl, off rfl⟩
  | encoderTransition _ _ => exact kept_execEncoderTransition _ _ (offAll rfl)
  | hallSpeedTimeout _ => exact kept_execHallSpeedTimeout _ ⟨off rfl, off rfl, off rfl⟩
  | posRunSet _ => exact kept_execPosRunSet _ (off rfl)
  | serFrameRequest _ => exact kept_execSerFrameRequest _ (off rfl)
  | serFrameReceived _ _ _ _ => exact kept_execSerFrameReceived _ _ _ _ (offAll rfl)
  | serTimeout _ => exact kept_execSerTimeout _ (off rfl)
  | speedWindowEnd _ => exact kept_execSpeedWindowEnd _ ⟨off rfl, off rfl, off rfl, off rfl⟩
  | indexEvent _ => exact kept_execIndexEvent _ ⟨off rfl, off rfl, off rfl, off rfl⟩
  | courseTimerExpiry _ => exact kept_execCourseTimerExpiry _ (offAll rfl)
  | overrateDelayEnd _ => exact kept_execOverrateDelayEnd _ (offAll rfl)
  | coursesyncEdge => exact kept_execCoursesyncEdge (offAll rfl)
  | courseClose _ => exact kept_execCourseClose _ ⟨off rfl, off rfl, off rfl, off rfl, off rfl⟩
  | stampedInputArrival _ _ =>
      exact kept_execStampedInputArrival _ _ ⟨off rfl, off rfl, off rfl, off rfl, off rfl, off rfl, off rfl,
        off rfl, off rfl⟩
  | losAssert _ => exact kept_execLosAssert _
  | losClear _ => exact kept_execLosClear _ (off rfl)
  | insertDebounce _ => exact kept_execInsertDebounce _ ⟨off rfl, off rfl, off rfl, off rfl⟩
  | blockLock _ _ => exact kept_execBlockLock _ _ ⟨off rfl, off rfl, off rfl⟩
  | lockLoss _ _ => exact kept_execLockLoss _ _ (off rfl)
  | lolGraceExpiry _ => exact kept_execLolGraceExpiry _ ⟨off rfl, off rfl, off rfl⟩
  | losRemoveTimeout _ => exact kept_execLosRemoveTimeout _ ⟨off rfl, off rfl, off rfl, off rfl⟩
  | trainingFrameReceived _ _ _ => exact kept_execTrainingFrameReceived _ _ _ ⟨off rfl, off rfl, off rfl⟩
  | trainingTimeout _ => exact kept_execTrainingTimeout _ ⟨off rfl, off rfl, off rfl, off rfl⟩
  | failedRetry _ => exact kept_execFailedRetry _ ⟨off rfl, off rfl, off rfl⟩
  | lockingTimeout _ => exact kept_execLockingTimeout _ ⟨off rfl, off rfl, off rfl⟩
  | identTimeout _ => exact kept_execIdentTimeout _ ⟨off rfl, off rfl, off rfl⟩
  | identReceived _ _ => exact kept_execIdentReceived _ _ ⟨off rfl, off rfl, off rfl, off rfl⟩
  | linePacketReceived _ _ _ => exact kept_execLinePacketReceived _ _ _ ⟨off rfl, off rfl, off rfl, off rfl⟩
  | cameraDataPacket _ _ _ => exact kept_execCameraDataPacket _ _ _ ⟨off rfl, off rfl⟩
  | controlReplyReceived _ _ => exact kept_execControlReplyReceived _ _ ⟨off rfl, off rfl⟩
  | controlReplyTimeout _ _ => exact kept_execControlReplyTimeout _ _ (off rfl)
  | idleEntReceived _ => exact kept_execIdleEntReceived _ ⟨off rfl, off rfl, off rfl⟩
  | alignReceived _ _ => exact kept_execAlignReceived _ _ ⟨off rfl, off rfl⟩
  | lineTimeout _ => exact kept_execLineTimeout _ ⟨off rfl, off rfl, off rfl, off rfl⟩
  | laneEnable _ _ => exact kept_execLaneEnable _ _ ⟨off rfl, off rfl, off rfl⟩
  | laneIdleReq _ => exact kept_execLaneIdleReq _ ⟨off rfl, off rfl, off rfl⟩
  | laneWakeReq _ => exact kept_execLaneWakeReq _ ⟨off rfl, off rfl, off rfl⟩
  | wakeBurstTimeout _ => exact kept_execWakeBurstTimeout _ ⟨off rfl, off rfl, off rfl, off rfl⟩
  | channelCourseStart _ _ => exact kept_execChannelCourseStart _ _ ⟨off rfl, off rfl, off rfl⟩
  | gaugeJobStart _ => exact kept_execGaugeJobStart _ (off rfl)
  | gaugeJobComplete _ => exact kept_execGaugeJobComplete _ ⟨off rfl, off rfl⟩
  | seamOutputStart _ => exact kept_execSeamOutputStart _ ⟨off rfl, off rfl, off rfl, off rfl, off rfl⟩
  | regBlockEnd _ => exact kept_execRegBlockEnd _ ⟨off rfl, off rfl, off rfl⟩
  | seamLinkFault _ => exact kept_execSeamLinkFault _ (offAll rfl)
  | segmentMapCourse _ => exact kept_execSegmentMapCourse _ (off rfl)
  | resolution _ => exact kept_execResolution _ ⟨off rfl, off rfl, off rfl⟩
  | descriptorHand _ => exact kept_execDescriptorHand _ ⟨off rfl, off rfl⟩
  | maskHoldNow _ => exact kept_execMaskHoldNow _ ⟨off rfl, off rfl⟩
  | jobDispatch _ => exact kept_execJobDispatch _ ⟨off rfl, off rfl, off rfl⟩
  | jobComplete _ => exact kept_execJobComplete _ ⟨off rfl, off rfl, off rfl⟩
  | recordRelease _ => exact kept_execRecordRelease _ ⟨off rfl, off rfl⟩
  | engineFault _ _ => exact kept_execEngineFault _ _ ⟨off rfl, off rfl, off rfl⟩
  | engineWatchdog _ => exact kept_execEngineWatchdog _ ⟨off rfl, off rfl, off rfl⟩
  | drainEnd _ => exact kept_execDrainEnd _ ⟨off rfl, off rfl, off rfl⟩
  | teRestore _ => exact kept_execTeRestore _
  | cmpEnable _ => exact kept_execCmpEnable _ ⟨off rfl, off rfl, off rfl⟩
  | cmpLateFire _ => exact kept_execCmpLateFire _ ⟨off rfl, off rfl, off rfl⟩
  | cmpPulseEnd _ => exact kept_execCmpPulseEnd _ (off rfl)
  | cmpFillRecord _ => exact kept_execCmpFillRecord _ ⟨off rfl, off rfl⟩
  | listInsert _ => exact kept_execListInsert _ ⟨off rfl, off rfl⟩
  | listClear _ => exact kept_execListClear _ (off rfl)
  | markHoldCtrlWrite _ => exact kept_execMarkHoldCtrlWrite _
  | thEnable => exact kept_execThEnable ⟨off rfl, off rfl, off rfl⟩
  | authReq => exact kept_execAuthReq (off rfl)
  | tagJobStart => exact kept_execTagJobStart ⟨off rfl, off rfl, off rfl⟩
  | tagLineStart _ => exact kept_execTagLineStart _ ⟨off rfl, off rfl⟩
  | tagStrobeEnd => exact kept_execTagStrobeEnd (off rfl)
  | tagUnderrunTimeout => exact kept_execTagUnderrunTimeout ⟨off rfl, off rfl⟩
  | tagSensorEdge _ _ => exact kept_execTagSensorEdge _ _ ⟨off rfl, off rfl, off rfl, off rfl⟩
  | tagJobResult => exact kept_execTagJobResult ⟨off rfl, off rfl⟩
  | cassOpenClearDelay => exact kept_execCassOpenClearDelay (off rfl)
  | cassResponse _ => exact kept_execCassResponse _ ⟨off rfl, off rfl, off rfl, off rfl⟩
  | cassRetry => exact kept_execCassRetry
  | cassExchangeTimeout => exact kept_execCassExchangeTimeout ⟨off rfl, off rfl, off rfl, off rfl⟩
  | sessionTimeout _ => exact kept_execSessionTimeout _
  | commandComplete _ _ => exact kept_execCommandComplete _ _
  | deviceInfo _ => exact kept_execDeviceInfo _
  | sessionOpen _ _ _ _ => exact kept_execSessionOpen _ _ _ _
  | sessionClose _ => exact kept_execSessionClose _
  | keepalive _ => exact kept_execKeepalive _
  | sessionList _ => exact kept_execSessionList _
  | sessionKill _ _ => exact kept_execSessionKill _ _
  | regRead _ _ _ _ => exact kept_execRegRead _ _ _ _ (off rfl)
  | regWrite _ _ _ _ _ => exact kept_execRegWrite _ _ _ _ _ (offAll rfl)
  | regModify _ _ _ _ _ => exact kept_execRegModify _ _ _ _ _ (offAll rfl)
  | patternSwap _ _ _ _ => exact kept_execPatternSwap _ _ _ _ ⟨off rfl, off rfl, off rfl, off rfl, off rfl⟩
  | patternRevert _ _ => exact kept_execPatternRevert _ _ (off rfl)
  | patternStatus _ _ => exact kept_execPatternStatus _ _
  | groupStart _ _ _ => exact kept_execGroupStart _ _ _ (offAll rfl)
  | groupStop _ _ => exact kept_execGroupStop _ _ (offAll rfl)
  | groupStatus _ _ => exact kept_execGroupStatus _ _
  | exposure _ _ _ _ _ _ _ => exact kept_execExposure _ _ _ _ _ _ _ (off rfl)
  | cameraCtrl _ _ _ _ _ _ => exact kept_execCameraCtrl _ _ _ _ _ _ (off rfl)
  | cameraIdent _ _ => exact kept_execCameraIdent _ _ (off rfl)
  | auxsync _ => exact kept_execAuxsync _ (off rfl)
  | ringConfig _ _ _ _ _ => exact kept_execRingConfig _ _ _ _ _ ⟨off rfl, off rfl, off rfl⟩
  | ringRelease _ _ => exact kept_execRingRelease _ _ ⟨off rfl, off rfl, off rfl⟩
  | ringSubscribe hdr ring flags udp addr => exact kept_execRingSubscribe hdr ring flags udp addr (off rfl)
  | ringUnsubscribe _ _ => exact kept_execRingUnsubscribe _ _ (off rfl)
  | ringRead _ _ _ _ => exact kept_execRingRead _ _ _ _ (off rfl)
  | ringStatus _ _ => exact kept_execRingStatus _ _ (off rfl)
  | ringConsume _ _ _ => exact kept_execRingConsume _ _ _ (off rfl)
  | memRead _ _ _ => exact kept_execMemRead _ _ _ (off rfl)
  | memWrite _ _ _ => exact kept_execMemWrite _ _ _ (off rfl)
  | dmaStart _ _ _ => exact kept_execDmaStart _ _ _ ⟨off rfl, off rfl⟩
  | dmaAbort _ _ => exact kept_execDmaAbort _ _ ⟨off rfl, off rfl⟩
  | dmaStatus _ _ => exact kept_execDmaStatus _ _
  | calRequest _ _ => exact kept_execCalRequest _ _ (off rfl)
  | calStatus _ _ => exact kept_execCalStatus _ _
  | laneAdapt _ _ => exact kept_execLaneAdapt _ _
  | timeGet _ => exact kept_execTimeGet _
  | timeSet _ _ _ => exact kept_execTimeSet _ _ _ (off rfl)
  | ptpStatus _ => exact kept_execPtpStatus _
  | ptpPrefer _ _ => exact kept_execPtpPrefer _ _ ⟨off rfl, off rfl, off rfl⟩
  | markInsert _ _ _ _ => exact kept_execMarkInsert _ _ _ _ ⟨off rfl, off rfl⟩
  | markClear _ _ => exact kept_execMarkClear _ _ (off rfl)
  | markHold _ _ => exact kept_execMarkHold _ _
  | cassAuth _ => exact kept_execCassAuth _ (off rfl)
  | tagStatus _ => exact kept_execTagStatus _
  | captureFreeze _ => exact kept_execCaptureFreeze _
  | captureRearm _ => exact kept_execCaptureRearm _
  | bundleExport _ _ => exact kept_execBundleExport _ _ (off rfl)
  | rerunStart hdr addr => exact kept_execRerunStart hdr addr ⟨off rfl, off rfl⟩
  | rerunStatus _ => exact kept_execRerunStatus _
  | logRead _ _ _ => exact kept_execLogRead _ _ _ (off rfl)
  | logClear _ => exact kept_execLogClear _
  | selftest _ _ _ => exact kept_execSelftest _ _ _ (off rfl)
  | faultInject _ _ _ =>
      exact kept_execFaultInject _ _ _ ⟨off rfl, off rfl, off rfl, off rfl, off rfl, off rfl, off rfl, off rfl,
        off rfl⟩
  | powerState _ _ =>
      exact kept_execPowerState _ _ (by simpa using Part.mem_of_mayChange h [.flash, .fuses, .jtag, .pos] rfl)
  | domainPower _ _ _ => exact kept_execDomainPower _ _ _ (offAll rfl)
  | bindOff _ => exact kept_execBindOff _ (offAll rfl)
  | reset _ _ _ => exact kept_execReset _ _ _ (offAll rfl)
  | copyBackStart _ => exact kept_execCopyBackStart _ (off rfl)
  | copyBackEnd _ => exact kept_execCopyBackEnd _ ⟨off rfl, off rfl⟩
  | bindOffFlushEnd => exact kept_execBindOffFlushEnd (offAll rfl)
  | xaFail => exact kept_execXaFail (offAll rfl)
  | loopLossOfLock _ => exact kept_execLoopLossOfLock _ (offAll rfl)
  | loopRelock _ => exact kept_execLoopRelock _ (off rfl)
  | thermalSample _ _ =>
      exact kept_execThermalSample _ _ (by simpa using Part.mem_of_mayChange h [.flash, .fuses, .jtag, .pos] rfl)
  | autoIdleEntry => exact kept_execAutoIdleEntry ⟨off rfl, off rfl, off rfl⟩
  | wakeCountReached => exact kept_execWakeCountReached (off rfl)
  | domainPowerOnDone _ _ => exact kept_execDomainPowerOnDone _ _ (offAll rfl)
  | refreshSlot _ => exact kept_execRefreshSlot _
  | memTempRead _ _ => exact kept_execMemTempRead _ _
  | memRequestServe _ _ => exact kept_execMemRequestServe _ _ (off rfl)
  | memDeviceFail _ => exact kept_execMemDeviceFail _ ⟨off rfl, off rfl⟩
  | scrubPass _ => exact kept_execScrubPass _ (off rfl)
  | retrainStep _ _ _ => exact kept_execRetrainStep _ _ _ ⟨off rfl, off rfl⟩
  | retrainWait _ => exact kept_execRetrainWait _
  | ringReserve _ _ => exact kept_execRingReserve _ _ (off rfl)
  | prodAdvance _ => exact kept_execProdAdvance _ (off rfl)
  | ringDoorbell _ _ => exact kept_execRingDoorbell _ _ (off rfl)
  | subEviction _ => exact kept_execSubEviction _ (off rfl)
  | contextLoad _ _ => exact kept_execContextLoad _ _ (off rfl)
  | dmaDescFetch _ => exact kept_execDmaDescFetch _ ⟨off rfl, off rfl⟩
  | dmaDescEnd _ => exact kept_execDmaDescEnd _ ⟨off rfl, off rfl⟩
  | dmaBusError _ => exact kept_execDmaBusError _ ⟨off rfl, off rfl⟩
  | hankJobTake _ => exact kept_execHankJobTake _ ⟨off rfl, off rfl⟩
  | hankBlockDone _ _ => exact kept_execHankBlockDone _ _ ⟨off rfl, off rfl⟩
  | hankDisable _ => exact kept_execHankDisable _ ⟨off rfl, off rfl⟩
  | ethFrameReceived _ _ _ =>
      exact kept_execEthFrameReceived _ _ _ (by simpa using Part.mem_of_mayChange h [.fuses, .jtag] rfl)
  | linkUp _ => exact kept_execLinkUp _ ⟨off rfl, off rfl⟩
  | linkDown _ _ => exact kept_execLinkDown _ _ (off rfl)
  | portRevert => exact kept_execPortRevert (off rfl)
  | neighbourTimeout _ => exact kept_execNeighbourTimeout _
  | prpSupervision => exact kept_execPrpSupervision
  | launchDue _ => exact kept_execLaunchDue _ (off rfl)
  | streamFlushTimer _ => exact kept_execStreamFlushTimer _ (off rfl)
  | sentHoldExpiry _ => exact kept_execSentHoldExpiry _
  | timeAdjWrite _ _ => exact kept_execTimeAdjWrite _ _ (off rfl)
  | timeAdjEnd => exact kept_execTimeAdjEnd ⟨off rfl, off rfl⟩
  | timeIncrWrite _ => exact kept_execTimeIncrWrite _
  | timeStepWrite _ => exact kept_execTimeStepWrite _ (off rfl)
  | ptpAnnounceReceived _ _ => exact kept_execPtpAnnounceReceived _ _ (off rfl)
  | ptpSyncReceived _ _ _ _ => exact kept_execPtpSyncReceived _ _ _ _ ⟨off rfl, off rfl, off rfl, off rfl⟩
  | ptpDelayReqSend _ => exact kept_execPtpDelayReqSend _ (off rfl)
  | ptpDelayRespReceived _ _ => exact kept_execPtpDelayRespReceived _ _ (off rfl)
  | announceTimeout _ => exact kept_execAnnounceTimeout _ ⟨off rfl, off rfl, off rfl, off rfl⟩
  | servoFallback => exact kept_execServoFallback ⟨off rfl, off rfl⟩
  | ptpReturn => exact kept_execPtpReturn ⟨off rfl, off rfl, off rfl⟩
  | viewRow _ _ => exact kept_execViewRow _ _ ⟨off rfl, off rfl, off rfl, off rfl⟩
  | lookbackRow _ => exact kept_execLookbackRow _ ⟨off rfl, off rfl, off rfl⟩
  | lookbackPace _ => exact kept_execLookbackPace _ ⟨off rfl, off rfl, off rfl⟩
  | vblankLatch => exact kept_execVblankLatch ⟨off rfl, off rfl⟩
  | hpdPlug _ _ _ _ => exact kept_execHpdPlug _ _ _ _ ⟨off rfl, off rfl⟩
  | hpdUnplug => exact kept_execHpdUnplug ⟨off rfl, off rfl⟩
  | irqHpd _ _ => exact kept_execIrqHpd _ _ ⟨off rfl, off rfl⟩
  | touchRead => exact kept_execTouchRead (off rfl)
  | touchReadDone _ _ => exact kept_execTouchReadDone _ _ (off rfl)
  | i2cCmd _ _ _ => exact kept_execI2cCmd _ _ _ (off rfl)
  | i2cDone _ _ => exact kept_execI2cDone _ _ (off rfl)
  | keySample _ => exact kept_execKeySample _ (off rfl)
  | ledBlinkToggle _ => exact kept_execLedBlinkToggle _ (off rfl)
  | buzStart => exact kept_execBuzStart (off rfl)
  | buzStop => exact kept_execBuzStop (off rfl)
  | buzPhaseEnd => exact kept_execBuzPhaseEnd (off rfl)
  | producerFire _ => exact kept_execProducerFire _ ⟨off rfl, off rfl, off rfl, off rfl, off rfl, off rfl⟩
  | yarnFire _ => exact kept_execYarnFire _ ⟨off rfl, off rfl, off rfl, off rfl, off rfl, off rfl⟩
  | stormWindowEnd => exact kept_execStormWindowEnd (off rfl)
  | auxClkWrite _ _ => exact kept_execAuxClkWrite _ _ (off rfl)
  | auxRunRise _ => exact kept_execAuxRunRise _ ⟨off rfl, off rfl⟩
  | auxRunFall _ => exact kept_execAuxRunFall _ ⟨off rfl, off rfl, off rfl⟩
  | auxOutput _ _ => exact kept_execAuxOutput _ _ ⟨off rfl, off rfl, off rfl, off rfl⟩
  | auxSyncWrite => exact kept_execAuxSyncWrite (off rfl)
  | auxsyncEdge => exact kept_execAuxsyncEdge (off rfl)
  | syncPhaseReset _ => exact kept_execSyncPhaseReset _ (off rfl)
  | replayArm => exact kept_execReplayArm (off rfl)
  | replayDisarm => exact kept_execReplayDisarm (off rfl)
  | freezeInstant => exact kept_execFreezeInstant (off rfl)
  | exportEnd => exact kept_execExportEnd (off rfl)
  | rerunCourse _ => exact kept_execRerunCourse _ (offAll rfl)
  | channelFaultDetect _ => exact kept_execChannelFaultDetect _ ⟨off rfl, off rfl, off rfl, off rfl⟩
  | spareTakeover _ => exact kept_execSpareTakeover _ ⟨off rfl, off rfl, off rfl, off rfl⟩
  | rgnRestore _ _ => exact kept_execRgnRestore _ _ ⟨off rfl, off rfl⟩
  | clusterFault _ => exact kept_execClusterFault _ ⟨off rfl, off rfl⟩
  | regionFault _ => exact kept_execRegionFault _ ⟨off rfl, off rfl, off rfl⟩
  | dieLinkFault _ => exact kept_execDieLinkFault _ (offAll rfl)
  | rerunLoaded => exact kept_execRerunLoaded (offAll rfl)

theorem exists_not_mayChange (c : Instr) : ∃ p, Instr.mayChange c p = false := by
  cases c with
  | fuseProgDone _ => exact ⟨.mem, rfl⟩
  | _ => exact ⟨.fuses, rfl⟩

end Frame

end Sys2Proof.Machine

namespace Sys2Proof.Proofs

open Sys2Proof.Machine

/-- Settles O5: some part is left alone by each row, so the row completes (`exec_kept`), and the state that it completes in is
the one in which every other part that it is not listed to write is as before. -/
theorem commandParts : Obligations.CommandParts := by
  intro c s
  obtain ⟨q, hq⟩ := exists_not_mayChange c
  obtain ⟨t, ht, -⟩ := exec_kept (s := s) hq
  refine ⟨t, ht, fun p hp => ?_⟩
  obtain ⟨u, hu, same⟩ := exec_kept (s := s) hp
  obtain rfl : t = u := Host.Outcome.next.inj (ht.symm.trans hu)
  exact same

end Sys2Proof.Proofs

/-! # The course-stamp contract: the close of a course and the arrival of inputs (O22, O23)

Both rows write few parts of the state by an update that can be written out; what else they run (the journal, the consumers, the
mark in the status word) leaves those parts alone, by the frame lemmas above. -/

namespace Sys2Proof.Machine

section CourseStamps

variable {s t : State} {g : Nat} {i : Stamped}

theorem Part.same.g_eq (h : Part.grp.same s t) (k : Nat) : t.g k = s.g k := congrArg (Tab.get ({} : Grp) k) h

/-- The consumers of a course take its inputs from those that wait, and no others. -/
theorem consumeAt_arrived (s : State) (g : Nat) (k : Int) :
    (s.consumeAt g k).arrived = s.arrived.filter (fun i => !(i.grp == g && i.eff == k)) := by
  have kept : Part.arrived.same { s with arrived := s.arrived.filter (fun i => !(i.grp == g && i.eff == k)) }
      (s.consumeAt g k) := by
    simp only [State.consumeAt]
    simp
  exact kept

/-! ## COURSE_CLOSE -/

/-- With a course to close, the row records it as closed, writes the journal and consumes the inputs of that course. -/
theorem execCourseClose_of_open {g : Fin 16} {o : Nat} (ho : (s.g g).openC = some o) (hk : s.nextClose g ≤ o) :
    ∃ src data, execCourseClose g s = .next (((s.setG g { s.g g with closed := some (s.nextClose g) }).jrn 0x01 g 1 src 0
      (Int.ofNat (s.nextClose g)) data).consumeAt g (Int.ofNat (s.nextClose g))) := by
  unfold execCourseClose
  simp only [ho, hk, if_true]
  exact ⟨_, _, rfl⟩

theorem execCourseClose_of_none {g : Fin 16} (h : (s.g g).openC = none) : execCourseClose g s = .next s := by
  simp [execCourseClose, h]

theorem execCourseClose_of_lt {g : Fin 16} {o : Nat} (ho : (s.g g).openC = some o) (hk : o < s.nextClose g) :
    execCourseClose g s = .next s := by
  simp [execCourseClose, ho, Nat.not_le.2 hk]

/-! ## STAMPED_INPUT_ARRIVAL -/

theorem satAdd_lt (w x n : Nat) : satAdd w x n < 2 ^ w := by
  unfold satAdd
  have := Nat.two_pow_pos w
  split <;> omega

/-- R38, R39: the effective course is the stamp or the first course that has not closed, the later of the two. -/
theorem effOf_eq_max (h : 0 ≤ i.stamp) : s.effOf i = max i.stamp (Int.ofNat (s.nextClose i.grp)) := by
  unfold State.effOf State.nextClose
  cases (s.g i.grp).closed with
  | none => simpa using h
  | some k =>
    simp only [Int.ofNat_eq_natCast]
    split <;> omega

theorem awaits_of_running {k : Int} (hst : (s.g g).st = 2) (hk : 0 ≤ k) : s.awaits g k = true := by
  simp [State.awaits, hst, Int.not_lt.2 hk]

/-- L fields whose boundary has not come wait for it. -/
theorem takeWrite_of_ahead {before : Int} {items : List FieldWrite} {no : Nat} (hst : (s.g g).st = 2)
    (h : items = [] ∨ ∀ o, (s.g g).openC = some o → Int.ofNat o ≤ before) :
    s.takeWrite g before items no =
      { s with live := s.live ++ (if items = [] then [] else [⟨g, before, items, no⟩]) } := by
  unfold State.takeWrite
  by_cases empty : items = []
  · simp [empty]
  · have ahead := h.resolve_left empty
    cases ho : (s.g g).openC with
    | none => simp [empty, hst]
    | some o =>
      have toCome : ¬ (before + 1).toNat ≤ o := by
        have := ahead o ho
        simp only [Int.ofNat_eq_natCast] at this
        omega
      simp [toCome, empty, hst]

/-- The state in which an input that arrives late in course `eff` has been counted, and its course marked (R39). -/
def State.lateFor (s : State) (i : Stamped) (eff : Int) : State :=
  if i.stamp < eff then (s.satF (crsB i.grp) (F.CRS_LATE_COUNT.nth (i.cls - 1)) 1).cswSet i.grp eff.toNat cswLate else s

@[simp] theorem same_lateFor {p : Part} {s0 : State} (eff : Int) (hp : p ≠ .csw) :
    p.same s0 (s.lateFor i eff) ↔ p.same s0 s := by
  simp [State.lateFor, hp]

theorem lateFor_of_onTime {eff : Int} (h : eff ≤ i.stamp) : s.lateFor i eff = s := if_neg (Int.not_lt.2 h)

theorem getF_lateFor {eff : Int} (h : i.stamp < eff) :
    (s.lateFor i eff).getF (crsB i.grp) (F.CRS_LATE_COUNT.nth (i.cls - 1)) =
      satAdd 32 (s.getF (crsB i.grp) (F.CRS_LATE_COUNT.nth (i.cls - 1))) 1 := by
  rw [State.lateFor, if_pos h]
  exact (getF_satF_same ..).trans (Nat.mod_eq_of_lt (satAdd_lt ..))

/-- The arrival of an input at a running group whose L fields, if any, are written ahead of a boundary that has not come. -/
theorem arrive_of_running {eff : Int} (h0 : 0 ≤ i.stamp) (hst : (s.g i.grp).st = 2)
    (heff : eff = max i.stamp (Int.ofNat (s.nextClose i.grp)))
    (hw : i.items = [] ∨ ∀ o, (s.g i.grp).openC = some o → Int.ofNat o ≤ max i.stamp (eff - 1)) :
    s.arrive i = { s.lateFor i eff with
      live := (s.lateFor i eff).live ++ (if i.items = [] then [] else [⟨i.grp, max i.stamp (eff - 1), i.items, i.no⟩])
      arrived := (s.lateFor i eff).arrived ++ [{ i with eff := eff }] } := by
  have waits : s.awaits i.grp eff = true := awaits_of_running hst (by omega)
  have hg : (s.lateFor i eff).g i.grp = s.g i.grp := Part.same.g_eq (by simp) _
  have write := takeWrite_of_ahead (s := s.lateFor i eff) (no := i.no) (by rw [hg]; exact hst) (by rw [hg]; exact hw)
  have heffOf : s.effOf i = eff := (effOf_eq_max h0).trans heff.symm
  simp only [State.arrive, heffOf, waits, Bool.and_true, decide_eq_true_eq, beforeGoverned, if_true]
  by_cases late : i.stamp < eff
  · rw [State.lateFor, if_pos late] at write ⊢
    simp only [late, if_true, write]
  · rw [State.lateFor, if_neg late] at write ⊢
    simp only [late, if_false, write]

end CourseStamps
end Sys2Proof.Machine

namespace Sys2Proof.Proofs

open Sys2Proof.Machine

/-- Settles O22: what follows the record of the close (journal and consumers) leaves the group, the history and the held writes
alone, and of the waiting inputs `consumeAt` takes those of the closed course. -/
theorem courseCloses : Obligations.CourseCloses := by
  intro s g
  refine ⟨fun o ho hk => ?_, ?_⟩
  · obtain ⟨src, data, closes⟩ := execCourseClose_of_open ho hk
    refine ⟨_, closes, ?_⟩
    set k := s.nextClose g
    set u := s.setG g { s.g g with closed := some k }
    set v := u.jrn 0x01 g 1 src 0 (Int.ofNat k) data
    have hg : (v.consumeAt g (Int.ofNat k)).g g = { s.g g with closed := some k } := by
      have kept : Part.grp.same u (v.consumeAt g (Int.ofNat k)) := by simp [v]
      rw [kept.g_eq, g_setG, if_pos rfl]
    have recorded : Part.arrived.same s v := by simp [v, u]
    have hist : Part.hist.same s (v.consumeAt g (Int.ofNat k)) := by simp [v, u]
    have held : Part.held.same s (v.consumeAt g (Int.ofNat k)) := by simp [v, u]
    refine ⟨by rw [hg], by rw [hg, ho], ?_, hist, held⟩
    rw [consumeAt_arrived, show v.arrived = s.arrived from recorded]
  · rintro (h | ⟨o, ho, hk⟩)
    · exact execCourseClose_of_none h
    · exact execCourseClose_of_lt ho hk

/-- Settles O23: the arrival is the update of `arrive_of_running` over the state in which a late input has been counted, and that
state differs from the one before in the late count and a status word only. -/
theorem stampedInputs : Obligations.StampedInputs := by
  intro s cls source
  refine ⟨fun h => ?_, fun i rest h h0 hst eff heff hw => ?_⟩
  · simp [exec, execStampedInputArrival, h]
  · set u : State := { s with flight := rest }
    have arrives : exec (.stampedInputArrival cls source) s = .next (u.arrive i) := by
      simp [exec, execStampedInputArrival, h, u]
    rw [arrive_of_running (s := u) h0 hst heff hw] at arrives
    have flight : Part.flight.same u (u.lateFor i eff) := by simp
    have grp : Part.grp.same u (u.lateFor i eff) := by simp
    have arrived : Part.arrived.same u (u.lateFor i eff) := by simp
    have live : Part.live.same u (u.lateFor i eff) := by simp
    refine ⟨_, arrives, flight, grp, congrArg (· ++ _) arrived, congrArg (· ++ _) live, fun onTime => ?_, fun late => ?_⟩
    · rw [lateFor_of_onTime (by omega)]
    · exact getF_lateFor (s := u) (by omega)

end Sys2Proof.Proofs

/-! # The Skein link: lanes, their packets and their lines (O24 to O31)

The registers of this part lie in the channel windows, at `ingB`. For each operation of the link there is one lemma per thing
that is observed of it: a register of a window (`getF_<op>`), the lane's record (`ln_<op>`), what has been sent
(`out_<op>`). The other parts of the state are those of the frame lemmas above (`same_<op>`). -/

namespace Sys2Proof.Machine

section Link

variable {s t : State} {l m b : Nat} {f f' : Fld}

/-! ## Registers of the channel windows -/

/-- A field that lies within the window of a channel. -/
def Fld.inIng (f : Fld) : Bool := decide (f.off < 0x10000) && decide (f.lo < 64)

/-- Two fields of the windows that lie at different places. -/
def Fld.apart (f f' : Fld) : Bool := f.inIng && f'.inIng && (f.off != f'.off || f.lo != f'.lo)

theorem Fld.inIng_iff : f.inIng = true ↔ f.off < 0x10000 ∧ f.lo < 64 := by simp [Fld.inIng]

theorem Fld.inIng_of_apart (h : f.apart f' = true) : f.inIng = true := by
  simp only [Fld.apart, Bool.and_eq_true] at h
  exact h.1.1

/-- Fields at different places have different keys, in the window of whichever channel. -/
theorem key_ne_of_apart (h : f.apart f' = true) : f.key (ingB m) ≠ f'.key (ingB l) := by
  simp only [Fld.apart, Bool.and_eq_true, Fld.inIng_iff, Bool.or_eq_true, bne_iff_ne] at h
  simp only [Fld.key, ingB, chB]
  omega

/-- Fields of the windows of two channels have different keys. -/
theorem ing_key_ne (hf : f.inIng = true) (hf' : f'.inIng = true) (h : m ≠ l) : f.key (ingB m) ≠ f'.key (ingB l) := by
  rw [Fld.inIng_iff] at hf hf'
  simp only [Fld.key, ingB, chB]
  omega

/-- The registers of the hub lie below the windows of the channels. -/
theorem hub_key_ne (hf' : f'.inIng = true) (hf : f.lo < 64) (hb : b + f.off < 0x10000000) : f.key b ≠ f'.key (ingB l) := by
  rw [Fld.inIng_iff] at hf'
  simp only [Fld.key, ingB, chB]
  omega

theorem prot_ing (hf : f.inIng = true) : prot (f.key (ingB l)) = true := by
  rw [Fld.inIng_iff] at hf
  have haddr : f.key (ingB l) / 64 = ingB l + f.off := by
    generalize ingB l = w
    simp only [Fld.key]
    omega
  have hcluster : l / 4 % 4 < 4 := Nat.mod_lt _ (by decide)
  have hplace : l % 4 < 4 := Nat.mod_lt _ (by decide)
  simp [prot, haddr]
  simp only [ingB, chB]
  generalize l / 4 % 4 = c, l % 4 = k at *
  omega

theorem Quiet.getF_ing (h : Quiet s t) (hf : f.inIng = true) : t.getF (ingB m) f = s.getF (ingB m) f :=
  h.getF _ _ (prot_ing hf)

theorem getF_setF_apart (v : Nat) (h : f.apart f' = true) : (s.setF (ingB l) f' v).getF (ingB m) f = s.getF (ingB m) f :=
  getF_setF_ne _ _ _ _ _ _ (key_ne_of_apart h)

theorem getF_setF_other (v : Nat) (hf : f.inIng = true) (hf' : f'.inIng = true) (h : m ≠ l) :
    (s.setF (ingB l) f' v).getF (ingB m) f = s.getF (ingB m) f := getF_setF_ne _ _ _ _ _ _ (ing_key_ne hf hf' h)

theorem getF_setF_hub (v : Nat) (hf' : f'.inIng = true) (hf : f.lo < 64) (hb : b + f.off < 0x10000000) :
    (s.setF (ingB l) f' v).getF b f = s.getF b f := getF_setF_ne _ _ _ _ _ _ (hub_key_ne hf' hf hb)

theorem getF_setF_of_lt {v : Nat} (h : v < 2 ^ f.width) : (s.setF b f v).getF b f = v := by
  rw [getF_setF_same, Nat.mod_eq_of_lt h]

theorem getF_raise_self (n : Nat) : (s.raise b f n).getF b f = 1 := by
  rw [getF_raise_same, Nat.mod_eq_of_lt (Nat.one_lt_two_pow (by simp [Fld.width]))]

theorem getF_satF_self (n : Nat) : (s.satF b f n).getF b f = satAdd f.width (s.getF b f) n :=
  (getF_satF_same ..).trans (Nat.mod_eq_of_lt (satAdd_lt ..))

@[simp] theorem getF_laneEvent_self : (s.laneEvent l f).getF (ingB l) f = 1 := getF_raise_self _

/-- The log and the panel write none of these registers. -/
@[simp] theorem getF_laneLog (code : LogCode) (hf : f.inIng = true) :
    (s.laneLog code l).getF (ingB m) f = s.getF (ingB m) f := (logReg_quiet _ _ _ _ _ (Quiet.refl s)).getF_ing hf

@[simp] theorem getF_pnlEvent (k i c : Nat) (touch : List Byte) : (s.pnlEvent k i c touch).getF b f = s.getF b f := by
  unfold State.pnlEvent
  split <;> rfl

/-! ## The lane's record and the channel's -/

theorem Part.same.ln_eq (h : Part.lane.same s t) (k : Nat) : t.ln k = s.ln k := congrArg (Tab.get ({} : Lane) k) h

theorem Part.same.lane_eq (h : Part.lane.same s t) : t.lane = s.lane := h

theorem Part.same.chan_eq (h : Part.chan.same s t) : t.chan = s.chan := h

theorem Part.same.ch_eq (h : Part.chan.same s t) (k : Nat) : t.ch k = s.ch k := congrArg (Tab.get ({} : Chan) k) h

@[simp] theorem ln_setF (f : Fld) (v : Nat) : (s.setF b f v).ln m = s.ln m := Part.same.ln_eq (by simp) m

@[simp] theorem ln_satF (f : Fld) (v : Nat) : (s.satF b f v).ln m = s.ln m := Part.same.ln_eq (by simp) m

@[simp] theorem ln_laneEvent : (s.laneEvent l f).ln m = s.ln m := Part.same.ln_eq (by simp) m

@[simp] theorem ln_laneLog (code : LogCode) : (s.laneLog code l).ln m = s.ln m := Part.same.ln_eq (by simp) m

@[simp] theorem ln_pnlEvent (k i c : Nat) (touch : List Byte) : (s.pnlEvent k i c touch).ln m = s.ln m :=
  Part.same.ln_eq (by simp) m

@[simp] theorem ln_setLane (st : Nat) : (s.setLane l st).ln m = s.ln m := ln_setF _ _

@[simp] theorem ln_unalign :
    (s.unalign l).ln m = if m = l then { s.ln l with aligned := false, align := none } else s.ln m := ln_setLn ..

@[simp] theorem ln_laneLeaves : (s.laneLeaves l).ln m = s.ln m := Part.same.ln_eq (by simp) m

/-! ## The state of a lane (R116) -/

@[simp] theorem getF_ite {c : Prop} [Decidable c] {u v : State} :
    (if c then u else v).getF b f = if c then u.getF b f else v.getF b f := apply_ite (fun t : State => t.getF b f) ..

@[simp] theorem getF_forL {α : Type} {g : α → State → State} (L : List α) (h : ∀ x u, (g x u).getF b f = u.getF b f) :
    (forL L g s).getF b f = s.getF b f := by
  induction L generalizing s with
  | nil => rfl
  | cons x L ih => exact ih.trans (h x s)

/-- `getF_setLn` for `simp` to rewrite with: as an unfolding it would have the kernel compare the two states part by part. The
proofs by `(rfl)` below are in parentheses for the same reason. -/
@[simp high] theorem read_setLn (x : Lane) : (s.setLn l x).getF b f = s.getF b f := (rfl)

@[simp] theorem getF_unalign : (s.unalign l).getF b f = s.getF b f := (rfl)

/-- The lane of a pair whose other lane is joined (R126). -/
def State.covered (s : State) (l : Nat) : Prop := s.bond l = 3 ∧ s.laneState (if l % 2 = 0 then l + 1 else l - 1) = 6

theorem laneLeaves_of_covered (h : s.covered l) : s.laneLeaves l = s.laneLog .dualLane l := if_pos h

theorem laneLeaves_of_not_covered (h : ¬ s.covered l) : s.laneLeaves l =
    forL ((s.fedBy l).filter s.joined) (fun ch t => t.setCh ch { t.ch ch with leaving := true }) s := if_neg h

/-- A leave writes a log entry or marks channels as leaving. -/
@[simp] theorem getF_laneLeaves (hf : f.inIng = true) : (s.laneLeaves l).getF (ingB m) f = s.getF (ingB m) f := by
  by_cases h : s.covered l
  · rw [laneLeaves_of_covered h, getF_laneLog _ hf]
  · rw [laneLeaves_of_not_covered h]
    exact getF_forL _ fun _ _ => rfl

/-- A lane that is not joined changes its state, and with one in which it is not locked it loses its alignment. -/
theorem laneTo_of_not_joined {st : Nat} (h : s.laneState l ≠ 6) :
    s.laneTo l st = if st < 3 ∨ 7 ≤ st then (s.setLane l st).unalign l else s.setLane l st := by
  simp [State.laneTo, h]

/-- A joined lane that goes leaves. -/
theorem laneTo_of_joined {st : Nat} (h : s.laneState l = 6) (hst : st ≠ 6) :
    s.laneTo l st = (if st < 3 ∨ 7 ≤ st then (s.setLane l st).unalign l else s.setLane l st).laneLeaves l := by
  simp [State.laneTo, h, hst]

@[simp] theorem ln_ite {c : Prop} [Decidable c] {u v : State} :
    (if c then u else v).ln m = if c then u.ln m else v.ln m := apply_ite (fun t : State => t.ln m) ..

theorem ln_laneTo (l st : Nat) : (s.laneTo l st).ln m =
    if m = l ∧ (st < 3 ∨ 7 ≤ st) then { s.ln l with aligned := false, align := none } else s.ln m := by
  simp only [State.laneTo, ln_ite, ln_laneLeaves, ln_unalign, ln_setLane, ite_self]
  by_cases h : m = l <;> simp [h]

theorem getF_laneTo_apart (st : Nat) (h : f.apart F.LANE_STATUS_STATE = true) :
    (s.laneTo l st).getF (ingB m) f = s.getF (ingB m) f := by
  simp [State.laneTo, State.setLane, getF_setF_apart, h, Fld.inIng_of_apart h]

theorem getF_laneTo_self {st : Nat} (h : st < 16) : (s.laneTo l st).getF (ingB l) F.LANE_STATUS_STATE = st := by
  have hread : (s.setF (ingB l) F.LANE_STATUS_STATE st).getF (ingB l) F.LANE_STATUS_STATE = st := getF_setF_of_lt h
  have hing : F.LANE_STATUS_STATE.inIng = true := rfl
  simp only [State.laneTo, State.setLane, getF_ite, getF_laneLeaves hing, getF_unalign, hread, ite_self]

@[simp] theorem laneState_laneTo_self {st : Nat} (h : st < 16) : (s.laneTo l st).laneState l = st := getF_laneTo_self h

theorem laneState_laneTo_other (st : Nat) (h : m ≠ l) : (s.laneTo l st).laneState m = s.laneState m := by
  have hread : (s.setF (ingB l) F.LANE_STATUS_STATE st).getF (ingB m) F.LANE_STATUS_STATE = s.laneState m :=
    getF_setF_other _ rfl rfl h
  have hing : F.LANE_STATUS_STATE.inIng = true := rfl
  change (s.laneTo l st).getF (ingB m) F.LANE_STATUS_STATE = s.laneState m
  simp only [State.laneTo, State.setLane, getF_ite, getF_laneLeaves hing, getF_unalign, hread, ite_self]

theorem getF_laneEvent_apart (h : f.apart f' = true) : (s.laneEvent l f').getF (ingB m) f = s.getF (ingB m) f :=
  getF_raise_ne _ _ _ _ _ _ (key_ne_of_apart h)

theorem getF_satF_apart (n : Nat) (h : f.apart f' = true) : (s.satF (ingB l) f' n).getF (ingB m) f = s.getF (ingB m) f :=
  getF_setF_apart _ h

theorem laneState_setF (v : Nat) (h : F.LANE_STATUS_STATE.apart f = true) :
    (s.setF (ingB l) f v).laneState m = s.laneState m := getF_setF_apart v h

theorem laneState_satF (n : Nat) (h : F.LANE_STATUS_STATE.apart f = true) :
    (s.satF (ingB l) f n).laneState m = s.laneState m := getF_satF_apart n h

theorem laneState_laneEvent (h : F.LANE_STATUS_STATE.apart f = true) :
    (s.laneEvent l f).laneState m = s.laneState m := getF_laneEvent_apart h

@[simp] theorem laneState_laneLog (code : LogCode) : (s.laneLog code l).laneState m = s.laneState m := getF_laneLog _ rfl

@[simp] theorem laneState_pnlEvent (k i c : Nat) (touch : List Byte) :
    (s.pnlEvent k i c touch).laneState m = s.laneState m := getF_pnlEvent ..

@[simp] theorem laneState_setLn (x : Lane) : (s.setLn l x).laneState m = s.laneState m := (rfl)

@[simp] theorem laneState_unalign : (s.unalign l).laneState m = s.laneState m := (rfl)

/-! ## The back channel (R84 to R86) -/

@[simp] theorem getF_sendBlocks (bs : List (Bool × Nat)) : (s.sendBlocks l bs).getF b f = s.getF b f := (rfl)

@[simp] theorem laneState_sendBlocks (bs : List (Bool × Nat)) : (s.sendBlocks l bs).laneState m = s.laneState m := (rfl)

@[simp] theorem out_sendBlocks (bs : List (Bool × Nat)) : (s.sendBlocks l bs).out =
    s.out ++ [.back l bs (wireForm (s.flag (ingB l) F.LANE_STATUS_PRECODE_TX) (s.ln l).scr (s.ln l).sym bs).1] := (rfl)

@[simp] theorem ln_sendBlocks (bs : List (Bool × Nat)) : (s.sendBlocks l bs).ln m =
    if m = l then
      { s.ln l with
        scr := (wireForm (s.flag (ingB l) F.LANE_STATUS_PRECODE_TX) (s.ln l).scr (s.ln l).sym bs).2.1
        sym := (wireForm (s.flag (ingB l) F.LANE_STATUS_PRECODE_TX) (s.ln l).scr (s.ln l).sym bs).2.2 }
    else s.ln m := ln_setLn ..

@[simp] theorem getF_sendFrame (trn : Nat) : (s.sendFrame l trn).getF b f = s.getF b f := (rfl)

@[simp] theorem laneState_sendFrame (trn : Nat) : (s.sendFrame l trn).laneState m = s.laneState m := (rfl)

@[simp] theorem ln_sendFrame (trn : Nat) :
    (s.sendFrame l trn).ln l = { s.ln l with frame := ((s.ln l).frame + 1) % 256 } := (ln_setLn ..).trans (if_pos rfl)

@[simp] theorem out_setLn (x : Lane) : (s.setLn l x).out = s.out := (rfl)

@[simp] theorem now_setLn (x : Lane) : (s.setLn l x).now = s.now := (rfl)

/-- What a training frame puts on the wire (R112). -/
theorem out_sendFrame (trn : Nat) : ∃ lv, (s.sendFrame l trn).out =
    s.out ++ [.back l ((true, trn) :: List.replicate 255 (false, 0)) lv] := ⟨_, rfl⟩

@[simp] theorem out_raise (n : Nat) : (s.raise b f n).out = s.out := by
  simp only [State.raise]
  rcases fire_eq (s.setF b f 1) n with h | h <;> simp [h]

@[simp] theorem out_laneEvent : (s.laneEvent l f).out = s.out := out_raise _

@[simp] theorem out_pnlEvent (k i c : Nat) (touch : List Byte) : (s.pnlEvent k i c touch).out = s.out := by
  unfold State.pnlEvent
  split <;> rfl

/-- A lane that is not joined changes its state without a word. -/
theorem out_laneTo {st : Nat} (h : s.laneState l ≠ 6) : (s.laneTo l st).out = s.out := by
  rw [laneTo_of_not_joined h]
  split <;> exact setF_out ..

theorem chan_laneTo {st : Nat} (h : s.laneState l ≠ 6) : (s.laneTo l st).chan = s.chan := by
  rw [laneTo_of_not_joined h]
  split <;> exact setF_chan ..

/-! ## Training (R112, R113) -/

/-- The state in which training has begun anew and no frame has been sent yet. -/
def State.trainReset (s : State) (l : Nat) : State :=
  (((s.setF (ingB l) F.LANE_STATUS_PRECODE_RX 0).setF (ingB l) F.LANE_STATUS_PRECODE_TX 0).setLn l
    { s.ln l with
      trnReady := 0
      pre := if s.flag (ingB l) F.LANE_CTRL_FIR_OVR then s.getF (ingB l) F.LANE_TXFIR_PRE else 0
      post := if s.flag (ingB l) F.LANE_CTRL_FIR_OVR then s.getF (ingB l) F.LANE_TXFIR_POST else 0 }).laneTo l 2

theorem getF_trainReset_apart (hst : f.apart F.LANE_STATUS_STATE = true) (hrx : f.apart F.LANE_STATUS_PRECODE_RX = true)
    (htx : f.apart F.LANE_STATUS_PRECODE_TX = true) : (s.trainReset l).getF (ingB m) f = s.getF (ingB m) f := by
  simp only [State.trainReset, getF_laneTo_apart, read_setLn, getF_setF_apart, hst, hrx, htx]

theorem ln_trainReset : (s.trainReset l).ln l =
    { s.ln l with
      trnReady := 0
      pre := if s.flag (ingB l) F.LANE_CTRL_FIR_OVR then s.getF (ingB l) F.LANE_TXFIR_PRE else 0
      post := if s.flag (ingB l) F.LANE_CTRL_FIR_OVR then s.getF (ingB l) F.LANE_TXFIR_POST else 0
      aligned := false
      align := none } := by
  simp [State.trainReset, ln_laneTo]

theorem trainStart_eq (preset : Bool) : s.trainStart l preset = (s.trainReset l).sendFrame l
    (trnBlock preset 0 0 (s.ln l).frame false (s.flag (ingB l) F.LANE_CTRL_PRECODE_ALLOW) false) := by
  have hallow : (s.trainReset l).flag (ingB l) F.LANE_CTRL_PRECODE_ALLOW = s.flag (ingB l) F.LANE_CTRL_PRECODE_ALLOW :=
    congrArg (· == 1) (getF_trainReset_apart rfl rfl rfl)
  have hreset : s.trainStart l preset = (s.trainReset l).sendFrame l (trnBlock preset 0 0 ((s.trainReset l).ln l).frame false
      ((s.trainReset l).flag (ingB l) F.LANE_CTRL_PRECODE_ALLOW) false) := by
    simp (disch := decide) only [State.trainStart, State.trainReset, ln_setF, getF_setF_apart]
  rw [hreset, hallow, ln_trainReset]

@[simp] theorem laneState_trainStart (preset : Bool) : (s.trainStart l preset).laneState l = 2 := by
  rw [trainStart_eq, laneState_sendFrame, State.trainReset, laneState_laneTo_self (by decide)]

theorem getF_trainStart_apart (preset : Bool) (hst : f.apart F.LANE_STATUS_STATE = true)
    (hrx : f.apart F.LANE_STATUS_PRECODE_RX = true) (htx : f.apart F.LANE_STATUS_PRECODE_TX = true) :
    (s.trainStart l preset).getF (ingB m) f = s.getF (ingB m) f := by
  rw [trainStart_eq, getF_sendFrame, getF_trainReset_apart hst hrx htx]

theorem precodeTx_trainStart (preset : Bool) : (s.trainStart l preset).getF (ingB l) F.LANE_STATUS_PRECODE_TX = 0 := by
  simp (disch := decide) only [trainStart_eq, State.trainReset, getF_sendFrame, getF_laneTo_apart, read_setLn, getF_setF_of_lt]

theorem precodeRx_trainStart (preset : Bool) : (s.trainStart l preset).getF (ingB l) F.LANE_STATUS_PRECODE_RX = 0 := by
  simp (disch := decide) only [trainStart_eq, State.trainReset, getF_sendFrame, getF_laneTo_apart, read_setLn,
    getF_setF_apart, getF_setF_of_lt]

theorem ln_trainStart (preset : Bool) : (s.trainStart l preset).ln l =
    { s.ln l with
      trnReady := 0
      pre := if s.flag (ingB l) F.LANE_CTRL_FIR_OVR then s.getF (ingB l) F.LANE_TXFIR_PRE else 0
      post := if s.flag (ingB l) F.LANE_CTRL_FIR_OVR then s.getF (ingB l) F.LANE_TXFIR_POST else 0
      frame := ((s.ln l).frame + 1) % 256
      aligned := false
      align := none } := by
  rw [trainStart_eq, ln_sendFrame, ln_trainReset]

theorem laneState_trainReset_before {x : Lane} : (((s.setF (ingB l) F.LANE_STATUS_PRECODE_RX 0).setF (ingB l)
    F.LANE_STATUS_PRECODE_TX 0).setLn l x).laneState l = s.laneState l := by
  simp (disch := decide) only [laneState_setLn, laneState_setF]

theorem chan_trainStart (preset : Bool) (h : s.laneState l ≠ 6) : (s.trainStart l preset).chan = s.chan := by
  have sent : (s.trainStart l preset).chan = (s.trainReset l).chan := Part.same.chan_eq (by simp [trainStart_eq])
  rw [sent, State.trainReset, chan_laneTo (by rwa [laneState_trainReset_before])]
  exact Part.same.chan_eq (by simp)

/-- Training that begins on a lane that is not joined sends its first frame, and nothing else (R112, R115). -/
theorem out_trainStart (preset : Bool) (h : s.laneState l ≠ 6) : ∃ lv, (s.trainStart l preset).out =
    s.out ++ [.back l ((true, trnBlock preset 0 0 (s.ln l).frame false (s.flag (ingB l) F.LANE_CTRL_PRECODE_ALLOW) false) ::
      List.replicate 255 (false, 0)) lv] := by
  have quiet : (s.trainReset l).out = s.out := by
    rw [State.trainReset, out_laneTo (by rwa [laneState_trainReset_before])]
    simp
  rw [trainStart_eq, ← quiet]
  exact out_sendFrame _

end Link
end Sys2Proof.Machine

namespace Sys2Proof.Machine
section Link
variable {s t : State} {l m b : Nat} {f f' : Fld}

theorem fromMem_of_srcSel_one (h : s.getF (ingB l) F.LANE_CTRL_SRC_SEL = 1) : s.fromMem l = true := by
  simp [State.fromMem, State.flag, h]

theorem fromMem_of_srcSel_zero (h : s.getF (ingB l) F.LANE_CTRL_SRC_SEL = 0) : s.fromMem l = false := by
  simp [State.fromMem, State.flag, h]

@[simp] theorem fromMem_setLn (x : Lane) : (s.setLn l x).fromMem m = s.fromMem m := (rfl)

end Link

section Rows
variable {s : State} {l : Fin 128}

/-! ## Signal and lock (R87, R88, R114, R116) -/

theorem losAssert_signal (h : s.laneState l ≠ 0) : ∃ t, exec (.losAssert l) s = .next t ∧
    t.getF (ingB l) F.LANE_STATUS_LOS = 1 ∧
    t.getF (ingB l) F.LANE_STATUS_LOCK = s.getF (ingB l) F.LANE_STATUS_LOCK ∧ t.getF (ingB l) F.LANE_EVENT_LOS_EV = 1 ∧
    t.laneState l = s.laneState l ∧ t.lane = s.lane ∧ t.chan = s.chan := by
  have runs : exec (.losAssert l) s = .next ((s.setF (ingB l) F.LANE_STATUS_LOS 1).laneEvent l F.LANE_EVENT_LOS_EV) := by
    simp [exec, execLosAssert, h]
  refine ⟨_, runs, ?_, ?_, getF_laneEvent_self, ?_, Part.same.lane_eq (by simp), Part.same.chan_eq (by simp)⟩ <;>
    simp (disch := decide) only [getF_laneEvent_apart, getF_setF_apart, getF_setF_of_lt, laneState_laneEvent, laneState_setF]

theorem losClear_ends (h : s.laneState l ≠ 0) : exec (.losClear l) s =
    .next ((s.setF (ingB l) F.LANE_STATUS_LOS 0).setLn l { s.ln l with waking := false, announced := false }) := by
  simp [exec, execLosClear, h]

theorem idleEnt_announces (h : s.laneState l ≠ 0)
    (hst : (s.laneState l ≠ 5 ∧ s.laneState l ≠ 6) ∨ s.getF (ingB l) F.LANE_CTRL_SRC_SEL = 1) :
    exec (.idleEntReceived l) s = .next (s.setLn l { s.ln l with announced := true }) := by
  have stays : ¬ ((s.laneState l = 5 ∨ s.laneState l = 6) ∧ s.fromMem l = false) := by
    rintro ⟨hjoin, hcam⟩
    rcases hst with hst | hsrc
    · omega
    · simp [fromMem_of_srcSel_one hsrc] at hcam
  simp [exec, execIdleEntReceived, h, stays]

theorem idleEnt_idles (h : s.laneState l = 5 ∨ s.laneState l = 6) (hsrc : s.getF (ingB l) F.LANE_CTRL_SRC_SEL = 0) :
    ∃ t, exec (.idleEntReceived l) s = .next t ∧ t.laneState l = 7 ∧ (t.ln l).announced = true ∧
      (t.ln l).idleSince = s.now ∧ (t.ln l).aligned = false ∧ ∀ m : Fin 128, m ≠ l → t.laneState m = s.laneState m := by
  have h0 : s.laneState l ≠ 0 := by omega
  have runs : exec (.idleEntReceived l) s =
      .next (((s.setLn l { s.ln l with announced := true }).setLn l
        { s.ln l with announced := true, idleSince := s.now }).laneTo l 7) := by
    simp [exec, execIdleEntReceived, h0, h, fromMem_of_srcSel_zero hsrc]
  refine ⟨_, runs, laneState_laneTo_self (by decide), ?_, ?_, ?_, fun m hm => ?_⟩
  · simp [ln_laneTo]
  · simp [ln_laneTo]
  · simp [ln_laneTo]
  · rw [laneState_laneTo_other _ (Fin.val_ne_of_ne hm), laneState_setLn, laneState_setLn]

theorem insertDebounce_trains (h : s.laneState l = 1) (hlos : s.getF (ingB l) F.LANE_STATUS_LOS = 0)
    (hsrc : s.getF (ingB l) F.LANE_CTRL_SRC_SEL = 0) :
    ∃ t r lv, exec (.insertDebounce l) s = .next t ∧ t.laneState l = 2 ∧ t.getF (ingB l) F.LANE_EVENT_INSERT = 1 ∧
      (t.ln l).trnReady = 0 ∧ t.getF (ingB l) F.LANE_STATUS_PRECODE_TX = 0 ∧ t.getF (ingB l) F.LANE_STATUS_PRECODE_RX = 0 ∧
      t.chan = s.chan ∧ t.out = s.out ++ r ++ [.back l ((true, trnBlock false 0 0 (s.ln l).frame false
        (s.flag (ingB l) F.LANE_CTRL_PRECODE_ALLOW) false) :: List.replicate 255 (false, 0)) lv] := by
  set u := (s.laneEvent l F.LANE_EVENT_INSERT).pnlEvent 4 l 1 [] with hu
  have runs : exec (.insertDebounce l) s = .next (u.trainStart l) := by
    simp [exec, execInsertDebounce, h, State.flag, hlos, fromMem_of_srcSel_zero hsrc, hu]
  have still : u.laneState l ≠ 6 := by
    rw [hu, laneState_pnlEvent, laneState_laneEvent rfl]
    omega
  have allow : u.flag (ingB l) F.LANE_CTRL_PRECODE_ALLOW = s.flag (ingB l) F.LANE_CTRL_PRECODE_ALLOW := by
    simp only [State.flag, hu, getF_pnlEvent]
    rw [getF_laneEvent_apart rfl]
  obtain ⟨lv, sends⟩ := out_trainStart false still
  refine ⟨_, [], lv, runs, laneState_trainStart false, ?_, ?_, precodeTx_trainStart false, precodeRx_trainStart false, ?_, ?_⟩
  · rw [getF_trainStart_apart false rfl rfl rfl, hu, getF_pnlEvent, getF_laneEvent_self]
  · rw [ln_trainStart]
  · rw [chan_trainStart false still]
    exact Part.same.chan_eq (by simp [hu])
  · rw [sends, allow, hu, out_pnlEvent, out_laneEvent, ln_pnlEvent, ln_laneEvent, List.append_nil]

theorem blockLock_locks (h : s.laneState l ≠ 0) (bad : Nat) : ∃ t, exec (.blockLock l bad) s = .next t ∧
    t.getF (ingB l) F.LANE_STATUS_LOCK = 1 ∧ (t.ln l).announced = false ∧ (t.ln l).waking = false ∧
    t.getF (ingB l) F.LANE_HDR_ERR_HDR_ERR = satAdd 32 (s.getF (ingB l) F.LANE_HDR_ERR_HDR_ERR) bad ∧
    t.laneState l = (if s.laneState l = 3 then 4 else if s.laneState l = 7 then 5 else s.laneState l) ∧
    t.chan = s.chan := by
  set u := ((s.satF (ingB l) F.LANE_HDR_ERR_HDR_ERR bad).setF (ingB l) F.LANE_STATUS_LOCK 1).setLn l
    { s.ln l with announced := false, waking := false } with hu
  have state : u.laneState l = s.laneState l := by
    simp (disch := decide) only [hu, laneState_setLn, laneState_setF, laneState_satF]
  have runs : exec (.blockLock l bad) s =
      .next (if u.laneState l = 3 then u.laneTo l 4 else if u.laneState l = 7 then u.laneTo l 5 else u) := by
    simp [exec, execBlockLock, h, hu]
  rw [state] at runs
  have chan : u.chan = s.chan := Part.same.chan_eq (by simp [hu])
  have lock : u.getF (ingB l) F.LANE_STATUS_LOCK = 1 := by
    simp (disch := decide) only [hu, read_setLn, getF_setF_of_lt]
  have errors : u.getF (ingB l) F.LANE_HDR_ERR_HDR_ERR = satAdd 32 (s.getF (ingB l) F.LANE_HDR_ERR_HDR_ERR) bad := by
    simp (disch := decide) only [hu, read_setLn, getF_setF_apart, getF_satF_self]
    rfl
  have record : u.ln l = { s.ln l with announced := false, waking := false } := by simp [hu]
  refine ⟨_, runs, ?_⟩
  split_ifs with hlocking hidle
  · have goes : u.laneState l ≠ 6 := by omega
    simp (disch := decide) [getF_laneTo_apart, ln_laneTo, lock, errors, record, chan_laneTo goes, chan]
  · have goes : u.laneState l ≠ 6 := by omega
    simp (disch := decide) [getF_laneTo_apart, ln_laneTo, lock, errors, record, chan_laneTo goes, chan]
  · exact ⟨lock, by rw [record], by rw [record], errors, state, chan⟩

theorem lockLoss_unlocks (h : s.laneState l ≠ 0) (bad : Nat) : ∃ t, exec (.lockLoss l bad) s = .next t ∧
    t.getF (ingB l) F.LANE_STATUS_LOCK = 0 ∧ t.laneState l = s.laneState l ∧
    t.getF (ingB l) F.LANE_HDR_ERR_HDR_ERR = satAdd 32 (s.getF (ingB l) F.LANE_HDR_ERR_HDR_ERR) bad ∧
    ((s.ln l).announced = false → t.getF (ingB l) F.LANE_EVENT_LOL_EV = 1) ∧
    ((s.ln l).announced = true → t.getF (ingB l) F.LANE_EVENT_LOL_EV = s.getF (ingB l) F.LANE_EVENT_LOL_EV) ∧
    (t.ln l).aligned = false ∧ t.chan = s.chan := by
  set u := ((s.satF (ingB l) F.LANE_HDR_ERR_HDR_ERR bad).setF (ingB l) F.LANE_STATUS_LOCK 0).unalign l with hu
  have runs : exec (.lockLoss l bad) s =
      .next (if (s.ln l).announced then u else u.laneEvent l F.LANE_EVENT_LOL_EV) := by
    simp [exec, execLockLoss, h, hu]
  have state : u.laneState l = s.laneState l := by
    simp (disch := decide) only [hu, laneState_unalign, laneState_setF, laneState_satF]
  have lock : u.getF (ingB l) F.LANE_STATUS_LOCK = 0 := by
    simp (disch := decide) only [hu, getF_unalign, getF_setF_of_lt]
  have errors : u.getF (ingB l) F.LANE_HDR_ERR_HDR_ERR = satAdd 32 (s.getF (ingB l) F.LANE_HDR_ERR_HDR_ERR) bad := by
    simp (disch := decide) only [hu, getF_unalign, getF_setF_apart, getF_satF_self]
    rfl
  have lol : u.getF (ingB l) F.LANE_EVENT_LOL_EV = s.getF (ingB l) F.LANE_EVENT_LOL_EV := by
    simp (disch := decide) only [hu, getF_unalign, getF_setF_apart, getF_satF_apart]
  have aligned : (u.ln l).aligned = false := by simp [hu]
  have chan : u.chan = s.chan := Part.same.chan_eq (by simp [hu])
  refine ⟨_, runs, ?_⟩
  split_ifs with hann
  · simp [state, lock, errors, lol, aligned, chan, hann]
  · have chan' : (u.laneEvent l F.LANE_EVENT_LOL_EV).chan = u.chan := Part.same.chan_eq (by simp)
    simp (disch := decide) [getF_laneEvent_apart, laneState_laneEvent, state, lock, errors, aligned, chan, chan', hann]

end Rows
end Sys2Proof.Machine

namespace Sys2Proof.Proofs

open Sys2Proof.Machine

/-- Settles O24: one lemma per row. -/
theorem laneSignals : Obligations.LaneSignals := fun _ _ h =>
  ⟨losAssert_signal h, losClear_ends h, idleEnt_announces h, idleEnt_idles, insertDebounce_trains, fun bad =>
    ⟨blockLock_locks h bad, lockLoss_unlocks h bad⟩⟩

end Sys2Proof.Proofs


/-! ## The timeouts of a lane (O25) -/

namespace Sys2Proof.Machine

section Link
variable {s t : State} {l m b : Nat} {f f' : Fld}

/-- What each round of a loop brings about for its own element, and no round undoes, holds of every element afterwards. -/
theorem forL_reaches {α : Type} {P : α → State → Prop} {g : α → State → State} (sets : ∀ x u, P x (g x u))
    (keeps : ∀ x y u, P x u → P x (g y u)) (L : List α) (s : State) : ∀ x ∈ L, P x (forL L g s) := by
  have kept (x : α) (L : List α) : ∀ u, P x u → P x (forL L g u) := by
    induction L with
    | nil => exact fun _ h => h
    | cons y L ih => exact fun u h => ih _ (keeps x y u h)
  induction L generalizing s with
  | nil => simp
  | cons y L ih =>
    intro x hx
    rcases List.mem_cons.1 hx with rfl | hx
    · exact kept x L _ (sets x s)
    · exact ih _ x hx

/-! ### Removal (R116, R119) -/

@[simp] theorem laneState_laneRemove_self : (s.laneRemove l).laneState l = 1 := by
  simp [State.laneRemove]

theorem laneState_laneRemove_other (h : m ≠ l) : (s.laneRemove l).laneState m = s.laneState m := by
  simp (disch := decide) [State.laneRemove, laneState_laneTo_other _ h, laneState_laneEvent]

theorem getF_laneRemove_apart (hst : f.apart F.LANE_STATUS_STATE = true) (hev : f.apart F.LANE_EVENT_REMOVE = true) :
    (s.laneRemove l).getF (ingB m) f = s.getF (ingB m) f := by
  simp [State.laneRemove, getF_laneTo_apart _ hst, getF_laneEvent_apart hev, Fld.inIng_of_apart hst]

theorem remove_laneRemove : (s.laneRemove l).getF (ingB l) F.LANE_EVENT_REMOVE = 1 := by
  simp (disch := decide) [State.laneRemove, getF_laneTo_apart]

theorem ln_laneRemove : (s.laneRemove l).ln l =
    { s.ln l with announced := false, hold := false, waking := false, aligned := false, align := none } := by
  simp [State.laneRemove, ln_laneTo]

theorem chan_laneRemove (h : s.laneState l ≠ 6) : (s.laneRemove l).chan = s.chan := by
  set u := (s.laneEvent l F.LANE_EVENT_REMOVE).laneLog .remove l with hu
  have still : u.laneState l ≠ 6 := by rwa [hu, laneState_laneLog, laneState_laneEvent rfl]
  have marks : u.chan = s.chan := Part.same.chan_eq (by simp [hu])
  have ends : (s.laneRemove l).chan = (u.laneTo l 1).chan := Part.same.chan_eq (by simp [State.laneRemove, hu])
  rw [ends, chan_laneTo still, marks]

/-! ### Leaves (R119, R124, R126) -/

theorem bond_setLane (st : Nat) : (s.setLane l st).bond m = s.bond m := getF_setF_apart _ rfl

theorem bondLanes_congr (h : t.bond l = s.bond l) : t.bondLanes l = s.bondLanes l := by simp only [State.bondLanes, h]

theorem fedBy_congr (h : t.bond l = s.bond l) : t.fedBy l = s.fedBy l := by
  simp only [State.fedBy, bondLanes_congr h, h]

/-- Every joined channel that a lane feeds, and that its partner does not feed as well, leaves at the next boundary. -/
theorem leaving_laneLeaves (h : ¬ s.covered l) {c : Nat} (hc : c ∈ s.fedBy l) (hj : s.joined c = true) :
    ((s.laneLeaves l).ch c).leaving = true := by
  rw [laneLeaves_of_not_covered h]
  refine forL_reaches (P := fun c u => (u.ch c).leaving = true) (fun c u => by simp) (fun c d u hu => ?_) _ s c
    (List.mem_filter.2 ⟨hc, hj⟩)
  simp only [ch_setCh]
  split_ifs with e
  · rfl
  · exact hu

end Link

section Rows
variable {s : State} {l : Fin 128}

theorem trainingTimeout_fails (h : s.laneState l = 2) : ∃ t, exec (.trainingTimeout l) s = .next t ∧ t.laneState l = 8 ∧
    t.getF (ingB l) F.LANE_EVENT_TRAIN_FAIL = 1 ∧ (t.ln l).aligned = false ∧ t.chan = s.chan := by
  set u := s.laneEvent l F.LANE_EVENT_TRAIN_FAIL with hu
  have runs : exec (.trainingTimeout l) s = .next (((u.laneTo l 8).laneLog .trainFail l).pnlEvent 4 l 6 []) := by
    simp [exec, execTrainingTimeout, h, hu]
  have still : u.laneState l ≠ 6 := by
    rw [hu, laneState_laneEvent rfl]
    omega
  have marks : u.chan = s.chan := Part.same.chan_eq (by simp [hu])
  refine ⟨_, runs, ?_, ?_, ?_, ?_⟩
  · simp
  · simp (disch := decide) [getF_laneTo_apart, hu]
  · simp [ln_laneTo]
  · rw [← marks, ← chan_laneTo (st := 8) still]
    exact Part.same.chan_eq (by simp)

theorem trainStart_restarts (h : s.laneState l ≠ 6) : (s.trainStart l).laneState l = 2 ∧
    ((s.trainStart l).ln l).trnReady = 0 ∧ (s.trainStart l).chan = s.chan :=
  ⟨laneState_trainStart false, by rw [ln_trainStart], chan_trainStart false h⟩

theorem failedRetry_trains (h : s.laneState l = 8) : ∃ t, exec (.failedRetry l) s = .next t ∧ t.laneState l = 2 ∧
    (t.ln l).trnReady = 0 ∧ t.chan = s.chan :=
  ⟨s.trainStart l, by simp [exec, execFailedRetry, h], trainStart_restarts (by omega)⟩

theorem lockingTimeout_trains (h : s.laneState l = 3) (hlock : s.getF (ingB l) F.LANE_STATUS_LOCK = 0) :
    ∃ t, exec (.lockingTimeout l) s = .next t ∧ t.laneState l = 2 ∧ (t.ln l).trnReady = 0 ∧ t.chan = s.chan :=
  ⟨s.trainStart l, by simp [exec, execLockingTimeout, h, State.flag, hlock], trainStart_restarts (by omega)⟩

theorem identTimeout_fails (h : s.laneState l = 4) :
    exec (.identTimeout l) s = .next ((s.setF (ingB l) F.LANE_STATUS_STATE 8).unalign l) := by
  simp [exec, execIdentTimeout, h, laneTo_of_not_joined, State.setLane]

theorem losRemoveTimeout_removes (h : 2 ≤ s.laneState l) (hlos : s.getF (ingB l) F.LANE_STATUS_LOS = 1)
    (hann : (s.ln l).announced = false) (hsrc : s.getF (ingB l) F.LANE_CTRL_SRC_SEL = 0) :
    ∃ t, exec (.losRemoveTimeout l) s = .next t ∧ t.laneState l = 1 ∧ t.getF (ingB l) F.LANE_EVENT_REMOVE = 1 ∧
      (t.ln l).hold = false ∧ (t.ln l).aligned = false ∧ ∀ m : Fin 128, m ≠ l → t.laneState m = s.laneState m :=
  ⟨s.laneRemove l, by simp [exec, execLosRemoveTimeout, h, State.flag, hlos, hann, fromMem_of_srcSel_zero hsrc],
    laneState_laneRemove_self, remove_laneRemove, by rw [ln_laneRemove], by rw [ln_laneRemove],
    fun _ hm => laneState_laneRemove_other (Fin.val_ne_of_ne hm)⟩

theorem wakeBurstTimeout_removes (hwake : (s.ln l).waking = true) (h : s.laneState l = 7 ∨ s.laneState l = 2) :
    ∃ t, exec (.wakeBurstTimeout l) s = .next t ∧ t.laneState l = 1 ∧ t.getF (ingB l) F.LANE_EVENT_IDLE_TMO = 1 ∧
      t.getF (ingB l) F.LANE_EVENT_REMOVE = 1 ∧ (t.ln l).announced = false ∧ (t.ln l).waking = false ∧ t.chan = s.chan := by
  set u := s.laneEvent l F.LANE_EVENT_IDLE_TMO with hu
  have still : u.laneState l ≠ 6 := by
    rw [hu, laneState_laneEvent rfl]
    omega
  have marks : u.chan = s.chan := Part.same.chan_eq (by simp [hu])
  refine ⟨u.laneRemove l, by simp [exec, execWakeBurstTimeout, hwake, h, hu], laneState_laneRemove_self, ?_, remove_laneRemove,
    by rw [ln_laneRemove], by rw [ln_laneRemove], by rw [chan_laneRemove still, marks]⟩
  rw [getF_laneRemove_apart rfl rfl, hu, getF_laneEvent_self]

theorem lolGraceExpiry_leaves (h : s.laneState l = 6) (hlock : s.getF (ingB l) F.LANE_STATUS_LOCK = 0)
    (hsrc : s.getF (ingB l) F.LANE_CTRL_SRC_SEL = 0) :
    ∃ t, exec (.lolGraceExpiry l) s = .next t ∧ t.laneState l = 1 ∧ (t.ln l).aligned = false ∧
      (s.bond l ≠ 3 → ∀ ch ∈ s.fedBy l, s.joined ch = true → (t.ch ch).leaving = true) ∧
      (s.bond l = 3 → s.laneState (if l.val % 2 = 0 then l.val + 1 else l.val - 1) = 6 → t.chan = s.chan) ∧
      ∀ m : Fin 128, m ≠ l → t.laneState m = s.laneState m := by
  set u := (s.setLane l 1).unalign l with hu
  have runs : exec (.lolGraceExpiry l) s = .next (s.laneTo l 1) := by
    simp [exec, execLolGraceExpiry, h, State.flag, hlock, fromMem_of_srcSel_zero hsrc]
  have leaves : s.laneTo l 1 = u.laneLeaves l := by simp [laneTo_of_joined h, hu]
  have bond : u.bond l = s.bond l := bond_setLane 1
  refine ⟨_, runs, laneState_laneTo_self (by decide), by simp [ln_laneTo], fun hbond c hc hj => ?_, fun hbond hother => ?_,
    fun m hm => laneState_laneTo_other 1 (Fin.val_ne_of_ne hm)⟩
  · rw [leaves]
    refine leaving_laneLeaves (fun hcov => hbond (bond ▸ hcov.1)) (by rwa [fedBy_congr bond]) ?_
    rw [← hj]
    exact congrArg (· == 1) (getF_setF_apart _ rfl)
  · have covered : u.covered l := by
      refine ⟨bond.trans hbond, Eq.trans (getF_setF_other _ rfl rfl ?_) hother⟩
      split <;> omega
    rw [leaves, laneLeaves_of_covered covered]
    exact Part.same.chan_eq (by simp [hu])

end Rows
end Sys2Proof.Machine

namespace Sys2Proof.Proofs

open Sys2Proof.Machine

/-- Settles O25: one lemma per row. -/
theorem laneTimeouts : Obligations.LaneTimeouts := fun _ _ =>
  ⟨trainingTimeout_fails, failedRetry_trains, lockingTimeout_trains, identTimeout_fails, losRemoveTimeout_removes,
    wakeBurstTimeout_removes, lolGraceExpiry_leaves⟩

end Sys2Proof.Proofs


/-! ## EN and IDLE_REQ (O26) -/

namespace Sys2Proof.Machine

section Link
variable {s t : State} {l m b : Nat} {f f' : Fld}

/-! ### The training block (R112) -/

/-- A CRC of `w` bits has `w` bits. -/
theorem crcMsb_lt {w poly init : Nat} (hpoly : poly < 2 ^ w) (hinit : init < 2 ^ w) (bs : List Bool) :
    crcMsb w poly init bs < 2 ^ w := by
  induction bs generalizing init with
  | nil => exact hinit
  | cons b bs ih =>
    refine ih ?_
    have hshift : init * 2 % 2 ^ w < 2 ^ w := Nat.mod_lt _ (Nat.two_pow_pos w)
    dsimp only
    split
    · exact hshift
    · exact Nat.xor_lt_two_pow hshift hpoly

theorem crc8_lt (w : Nat) : crc8 w < 256 := crcMsb_lt (w := 8) (by decide) (by decide) _

theorem trnBlock_eq (preset : Bool) (a c frame : Nat) (ready req on : Bool) : ∃ crc < 256,
    trnBlock preset a c frame ready req on = 0x33 * 2 ^ 56 + (if preset then 8 else 0) * 2 ^ 48 + (a * 64 + c * 16) * 2 ^ 40 +
      ((if ready then 128 else 0) + (if req then 64 else 0) + (if on then 32 else 0)) * 2 ^ 32 +
      frame % 256 * 2 ^ 24 + 128 * 2 ^ 16 + crc := ⟨_, crc8_lt _, rfl⟩

/-- The block of a training frame is marked as such. -/
theorem octet_zero_trnBlock (preset : Bool) {a c : Nat} (ha : a ≤ 3) (hc : c ≤ 3) (frame : Nat) (ready req on : Bool) :
    octet (trnBlock preset a c frame ready req on) 0 = 0x33 := by
  obtain ⟨crc, hcrc, block⟩ := trnBlock_eq preset a c frame ready req on
  rw [block, octet]
  split_ifs <;> omega

/-- PRESET is bit 3 of octet 1. -/
theorem preset_trnBlock (preset : Bool) (frame : Nat) (ready req on : Bool) :
    bit (octet (trnBlock preset 0 0 frame ready req on) 1) 3 = preset := by
  obtain ⟨crc, hcrc, block⟩ := trnBlock_eq preset 0 0 frame ready req on
  have statuses : octet (trnBlock preset 0 0 frame ready req on) 1 = if preset then 8 else 0 := by
    rw [block, octet]
    split_ifs <;> omega
  rw [statuses]
  cases preset <;> rfl

/-! ### The rings of a lane -/

theorem unsubAll_quiet {s0 : State} (b : Nat) (h : Quiet s0 s) : Quiet s0 (s.unsubAll b) :=
  Quiet.forL _ (fun k u hu => dropSub_quiet u k hu) h

theorem laneBind_quiet {s0 : State} (h : Quiet s0 s) : Quiet s0 (s.laneBind l) := by
  unfold State.laneBind
  refine Quiet.ite h (Quiet.forL _ (fun r u hu => ?_) (unbind_quiet _ _ (unsubAll_quiet _ h)))
  exact Quiet.ite (bind_quiet _ _ _ _ hu) (subBlock_quiet _ _ _ (bind_quiet _ _ _ _ hu))

theorem getF_laneBind (hf : f.inIng = true) : (s.laneBind l).getF (ingB m) f = s.getF (ingB m) f :=
  (laneBind_quiet (Quiet.refl s)).getF_ing hf

/-- Whether the quad of a lane is on is told by registers and by what bring-up met, none of which EN or its rings touch. -/
theorem quadOn_laneBind_setF (hl : l < 128) (hf : f.inIng = true) (v : Nat) :
    ((s.setF (ingB m) f v).laneBind m).quadOn l = s.quadOn l := by
  have word : (32 + l / 4) / 32 = 1 := by omega
  have quiet := laneBind_quiet (l := m) (Quiet.refl (s.setF (ingB m) f v))
  simp only [State.quadOn, State.domOn, word]
  rw [quiet.getF _ _ (by decide), getF_setF_hub _ hf (by decide) (by decide)]

theorem netRef_laneBind_setF (hf : f.inIng = true) (v : Nat) :
    ((s.setF (ingB m) f v).laneBind m).getF clkB F.CLK_SRC_NET_REF = s.getF clkB F.CLK_SRC_NET_REF := by
  rw [(laneBind_quiet (Quiet.refl _)).getF _ _ (by decide), getF_setF_hub _ hf (by decide) (by decide)]

theorem failsAt_laneBind_setF (k n v : Nat) : ((s.setF (ingB m) f v).laneBind m).failsAt k n = s.failsAt k n := by
  have boot : Part.boot.same s ((s.setF (ingB m) f v).laneBind m) := by simp
  exact congrArg (fun b : Boot => b.fails.contains (k, n)) boot

/-! ### Memory sources (R138) -/

/-- What `State.msrcUpdate` does of one lane. -/
def State.msrcOne (l : Nat) (t : State) : State :=
  if t.fromMem l && t.flag (ingB l) F.LANE_CTRL_EN then
    let ok := t.ringOk (t.getF (ingB l) F.MSRC_RING_RING) false
    if ok && t.laneState l != 5 && t.laneState l != 6 then t.setLane l 5
    else if !ok then t.laneTo l 1 else t
  else t

theorem msrcUpdate_eq : s.msrcUpdate = forL (List.range 128) State.msrcOne s := rfl

theorem getF_msrcOne_apart (h : f.apart F.LANE_STATUS_STATE = true) :
    (s.msrcOne l).getF (ingB m) f = s.getF (ingB m) f := by
  simp [State.msrcOne, State.setLane, getF_setF_apart _ h, getF_laneTo_apart _ h]

theorem getF_msrcUpdate_apart (h : f.apart F.LANE_STATUS_STATE = true) :
    s.msrcUpdate.getF (ingB m) f = s.getF (ingB m) f := by
  rw [msrcUpdate_eq]
  exact getF_forL _ fun _ _ => getF_msrcOne_apart h

theorem forL_invariant {α : Type} {P : State → Prop} {g : α → State → State} (keeps : ∀ x u, P u → P (g x u))
    (L : List α) (h : P s) : P (forL L g s) := by
  induction L generalizing s with
  | nil => exact h
  | cons x L ih => exact ih (keeps x s h)

theorem laneState_msrcOne (h : s.fromMem l = false) : (s.msrcOne m).laneState l = s.laneState l := by
  by_cases e : l = m
  · subst e
    simp [State.msrcOne, h]
  · have ready : (s.setLane m 5).laneState l = s.laneState l := getF_setF_other _ rfl rfl e
    have gone := laneState_laneTo_other (s := s) 1 e
    unfold State.msrcOne
    dsimp only
    split_ifs
    · exact ready
    · exact gone
    · rfl
    · rfl

/-- A lane that takes the wire keeps its state. -/
theorem laneState_msrcUpdate (h : s.fromMem l = false) : s.msrcUpdate.laneState l = s.laneState l := by
  have both : s.msrcUpdate.fromMem l = false ∧ s.msrcUpdate.laneState l = s.laneState l := by
    rw [msrcUpdate_eq]
    refine forL_invariant (P := fun u => u.fromMem l = false ∧ u.laneState l = s.laneState l) (fun k u hu => ?_) _ ⟨h, rfl⟩
    obtain ⟨cam, state⟩ := hu
    have source : (u.msrcOne k).fromMem l = u.fromMem l := congrArg (· == 1) (getF_msrcOne_apart rfl)
    exact ⟨source.trans cam, (laneState_msrcOne cam).trans state⟩
  exact both.2

end Link

section Rows
variable {s : State} {l : Fin 128}

theorem laneEnable_refused (h : s.bondWhole l = false ∨ s.laneStatus l ≠ stOk) : exec (.laneEnable l true) s = .next s := by
  rcases h with h | h <;> simp [exec, execLaneEnable, h]

theorem laneEnable_on (h : s.laneState l = 0) (hsrc : s.getF (ingB l) F.LANE_CTRL_SRC_SEL = 0) (hbond : s.bondWhole l = true)
    (hrings : s.laneStatus l = stOk) : ∃ t, exec (.laneEnable l true) s = .next t ∧ t.getF (ingB l) F.LANE_CTRL_EN = 1 ∧
      t.laneState l =
        (if s.quadOn l = true ∧ s.getF clkB F.CLK_SRC_NET_REF ≠ 1 ∧ s.failsAt 5 (l / 4) = false then 1 else 0) := by
  set u := (s.setF (ingB l) F.LANE_CTRL_EN 1).laneBind l with hu
  have state : u.laneState l = 0 := by
    rw [← h]
    exact (getF_laneBind rfl).trans (getF_setF_apart _ rfl)
  have source : u.getF (ingB l) F.LANE_CTRL_SRC_SEL = 0 := by rw [hu, getF_laneBind rfl, getF_setF_apart _ rfl, hsrc]
  have enabled : u.getF (ingB l) F.LANE_CTRL_EN = 1 := by rw [hu, getF_laneBind rfl, getF_setF_of_lt (by decide)]
  have can : u.laneCan l = true ↔
      s.quadOn l = true ∧ s.getF clkB F.CLK_SRC_NET_REF ≠ 1 ∧ s.failsAt 5 (l / 4) = false := by
    rw [← quadOn_laneBind_setF l.isLt (m := l) (f := F.LANE_CTRL_EN) rfl 1,
      ← netRef_laneBind_setF (m := l) (f := F.LANE_CTRL_EN) rfl 1,
      ← failsAt_laneBind_setF (m := l) (f := F.LANE_CTRL_EN) 5 _ 1]
    simp [State.laneCan, State.flag, fromMem_of_srcSel_zero source, ← hu, and_assoc]
  have runs : exec (.laneEnable l true) s = .next (if u.laneCan l then (u.setLane l 1).msrcUpdate else u) := by
    simp [exec, execLaneEnable, hbond, hrings, State.laneEn, ← hu, state]
  refine ⟨_, runs, ?_⟩
  by_cases hcan : u.laneCan l = true
  · have cam : (u.setLane l 1).fromMem l = false :=
      fromMem_of_srcSel_zero ((getF_setF_apart _ rfl).trans source)
    have started : (u.setLane l 1).laneState l = 1 := getF_setF_of_lt (by decide)
    rw [if_pos hcan, if_pos (can.1 hcan)]
    exact ⟨by rw [getF_msrcUpdate_apart rfl, State.setLane, getF_setF_apart _ rfl, enabled],
      (laneState_msrcUpdate cam).trans started⟩
  · rw [if_neg hcan, if_neg (fun h => hcan (can.2 h))]
    exact ⟨enabled, state⟩

theorem laneEnable_off : ∃ t, exec (.laneEnable l false) s = .next t ∧ t.getF (ingB l) F.LANE_CTRL_EN = 0 ∧
    t.laneState l = 0 ∧ t.getF (ingB l) F.LANE_STATUS_LOCK = 0 ∧ (t.ln l).announced = false ∧ (t.ln l).hold = false ∧
    (t.ln l).aligned = false ∧ ∀ m : Fin 128, m ≠ l → t.laneState m = s.laneState m := by
  set u := (s.setF (ingB l) F.LANE_CTRL_EN 0).laneBind l with hu
  have state (m : Nat) : u.laneState m = s.laneState m := (getF_laneBind rfl).trans (getF_setF_apart _ rfl)
  have disabled : u.getF (ingB l) F.LANE_CTRL_EN = 0 := by rw [hu, getF_laneBind rfl, getF_setF_of_lt (by decide)]
  set v := (u.laneTo l 0).setF (ingB l) F.LANE_STATUS_LOCK 0 with hv
  have runs : exec (.laneEnable l false) s =
      .next (v.setLn l { v.ln l with announced := false, hold := false, waking := false }) := by
    simp [exec, execLaneEnable, State.laneEn, ← hu, ← hv]
  refine ⟨_, runs, ?_, ?_, ?_, ?_, ?_, ?_, fun m hm => ?_⟩
  · rw [read_setLn, hv, getF_setF_apart _ rfl, getF_laneTo_apart _ rfl, disabled]
  · rw [laneState_setLn, hv, laneState_setF _ rfl, laneState_laneTo_self (by decide)]
  · rw [read_setLn, hv, getF_setF_of_lt (by decide)]
  · simp
  · simp
  · simp [hv, ln_laneTo]
  · rw [laneState_setLn, hv, laneState_setF _ rfl, laneState_laneTo_other _ (Fin.val_ne_of_ne hm), state]

/-- The blocks that announce electrical idle (R114). -/
def idleBlocks : List (Bool × Nat) := List.replicate 4 (true, 0x78 * 2 ^ 56)

theorem laneIdle_of_up (h : s.laneState l = 5 ∨ s.laneState l = 6) (hcam : s.fromMem l = false) : s.laneIdle l =
    ((s.sendBlocks l idleBlocks).setLn l { (s.sendBlocks l idleBlocks).ln l with idleSince := s.now }).laneTo l 7 :=
  if_pos ⟨h, by simp [hcam]⟩

theorem laneIdleReq_idles (h : s.laneState l = 5 ∨ s.laneState l = 6) (hsrc : s.getF (ingB l) F.LANE_CTRL_SRC_SEL = 0) :
    ∃ t, exec (.laneIdleReq l) s = .next t ∧ t.getF (ingB l) F.LANE_CTRL_IDLE_REQ = 1 ∧ t.laneState l = 7 ∧
      (t.ln l).idleSince = s.now ∧ ∃ r, t.out = s.out ++ .back l (List.replicate 4 (true, 0x78 * 2 ^ 56))
        (wireForm (s.flag (ingB l) F.LANE_STATUS_PRECODE_TX) (s.ln l).scr (s.ln l).sym
          (List.replicate 4 (true, 0x78 * 2 ^ 56))).1 :: r := by
  set u := s.setF (ingB l) F.LANE_CTRL_IDLE_REQ 1 with hu
  have state : u.laneState l = s.laneState l := laneState_setF _ rfl
  have cam : u.fromMem l = false := fromMem_of_srcSel_zero ((getF_setF_apart _ rfl).trans hsrc)
  have code : u.flag (ingB l) F.LANE_STATUS_PRECODE_TX = s.flag (ingB l) F.LANE_STATUS_PRECODE_TX :=
    congrArg (· == 1) (getF_setF_apart _ rfl)
  have runs : exec (.laneIdleReq l) s = .next (u.laneIdle l) := rfl
  rw [laneIdle_of_up (state ▸ h) cam] at runs
  set v := (u.sendBlocks l idleBlocks).setLn l { (u.sendBlocks l idleBlocks).ln l with idleSince := u.now } with hv
  refine ⟨_, runs, ?_, laneState_laneTo_self (by decide), ?_, ?_⟩
  · rw [getF_laneTo_apart _ rfl, hv, read_setLn, getF_sendBlocks, hu, getF_setF_of_lt (by decide)]
  · simp [ln_laneTo, hv, hu]
  · obtain ⟨r, more⟩ := (laneTo_grows v l 7 (Grows.refl v)).out
    refine ⟨r, ?_⟩
    rw [more, hv, out_setLn, out_sendBlocks, code, hu, setF_out, ln_setF, List.append_assoc]
    rfl

theorem laneIdleReq_stays (h : (s.laneState l ≠ 5 ∧ s.laneState l ≠ 6) ∨ s.getF (ingB l) F.LANE_CTRL_SRC_SEL = 1) :
    exec (.laneIdleReq l) s = .next (s.setF (ingB l) F.LANE_CTRL_IDLE_REQ 1) := by
  set u := s.setF (ingB l) F.LANE_CTRL_IDLE_REQ 1 with hu
  have state : u.laneState l = s.laneState l := laneState_setF _ rfl
  have runs : exec (.laneIdleReq l) s = .next (u.laneIdle l) := rfl
  rw [runs]
  refine congrArg _ (if_neg ?_)
  rintro ⟨hup, hcam⟩
  rcases h with h | hsrc
  · omega
  · have mem : u.fromMem l = true := fromMem_of_srcSel_one ((getF_setF_apart _ rfl).trans hsrc)
    simp [mem] at hcam

/-- The training block that wakes a camera (R115): with PRESET after more than 10 s of idle. -/
def State.wakeBlock (s : State) (l : Nat) : Nat := trnBlock (decide (2500000000 < s.now - (s.ln l).idleSince)) 0 0
  (s.ln l).frame false false (s.flag (ingB l) F.LANE_STATUS_PRECODE_TX)

/-- The state in which an idle lane has been sent its training frame and WAKE (R115). -/
def State.wakeSent (s : State) (l : Nat) : State :=
  let u := (s.sendFrame l (s.wakeBlock l)).sendBlocks l [(true, 0x87 * 2 ^ 56)]
  u.setLn l { u.ln l with waking := true }

theorem laneWake_of_idle (h : s.laneState l = 7) (hcam : s.fromMem l = false) : s.laneWake l =
    if 2500000000 < s.now - (s.ln l).idleSince then (s.wakeSent l).trainStart l true else s.wakeSent l := by
  rw [State.laneWake, if_pos ⟨h, by simp [hcam]⟩]
  simp only [decide_eq_true_eq, State.wakeSent, State.wakeBlock]

theorem out_wakeSent : ∃ lv lw, (s.wakeSent l).out = s.out ++ [.back l ((true, s.wakeBlock l) ::
    List.replicate 255 (false, 0)) lv, .back l [(true, 0x87 * 2 ^ 56)] lw] := by
  obtain ⟨lv, frame⟩ := out_sendFrame (s := s) (l := l) (s.wakeBlock l)
  rw [State.wakeSent, out_setLn, out_sendBlocks, frame, List.append_assoc]
  exact ⟨lv, _, rfl⟩

theorem getF_wakeSent {b : Nat} {f : Fld} : (s.wakeSent l).getF b f = s.getF b f := by
  simp only [State.wakeSent, read_setLn, getF_sendBlocks, getF_sendFrame]

theorem waking_wakeSent : ((s.wakeSent l).ln l).waking = true := by simp [State.wakeSent]

/-- After the training frame and WAKE a lane that has been idle for more than 10 s trains anew (R115). -/
theorem laneWake_sends (h : s.laneState l = 7) (hcam : s.fromMem l = false) : ∃ lv lw r,
    (s.laneWake l).getF (ingB l) F.LANE_CTRL_IDLE_REQ = s.getF (ingB l) F.LANE_CTRL_IDLE_REQ ∧
    ((s.laneWake l).ln l).waking = true ∧
    (s.laneWake l).out = s.out ++ [.back l ((true, s.wakeBlock l) :: List.replicate 255 (false, 0)) lv,
      .back l [(true, 0x87 * 2 ^ 56)] lw] ++ r ∧
    (s.laneWake l).laneState l = (if 2500000000 < s.now - (s.ln l).idleSince then 2 else 7) := by
  obtain ⟨lv, lw, sent⟩ := out_wakeSent (s := s) (l := l)
  have idle : (s.wakeSent l).laneState l = 7 := getF_wakeSent.trans h
  rw [laneWake_of_idle h hcam]
  split_ifs with long
  · obtain ⟨lx, trains⟩ := out_trainStart (s := s.wakeSent l) true (by rw [idle]; decide)
    rw [sent] at trains
    refine ⟨lv, lw, _, ?_, ?_, trains, laneState_trainStart true⟩
    · rw [getF_trainStart_apart true rfl rfl rfl, getF_wakeSent]
    · rw [ln_trainStart]
      exact waking_wakeSent
  · exact ⟨lv, lw, [], getF_wakeSent, waking_wakeSent, by rw [sent, List.append_nil], idle⟩

theorem laneWakeReq_wakes (h : s.laneState l = 7) (hsrc : s.getF (ingB l) F.LANE_CTRL_SRC_SEL = 0) :
    ∃ t b lv lw r, exec (.laneWakeReq l) s = .next t ∧ t.getF (ingB l) F.LANE_CTRL_IDLE_REQ = 0 ∧ (t.ln l).waking = true ∧
      t.out = s.out ++ [.back l ((true, b) :: List.replicate 255 (false, 0)) lv, .back l [(true, 0x87 * 2 ^ 56)] lw] ++ r ∧
      octet b 0 = 0x33 ∧ bit (octet b 1) 3 = decide (2500000000 < s.now - (s.ln l).idleSince) ∧
      t.laneState l = (if 2500000000 < s.now - (s.ln l).idleSince then 2 else 7) := by
  set u := s.setF (ingB l) F.LANE_CTRL_IDLE_REQ 0 with hu
  have state : u.laneState l = 7 := (laneState_setF _ rfl).trans h
  have cam : u.fromMem l = false := fromMem_of_srcSel_zero ((getF_setF_apart _ rfl).trans hsrc)
  have request : u.getF (ingB l) F.LANE_CTRL_IDLE_REQ = 0 := getF_setF_of_lt (by decide)
  have since : u.now - (u.ln l).idleSince = s.now - (s.ln l).idleSince := by rw [hu, setF_now, ln_setF]
  obtain ⟨lv, lw, r, kept, waking, sent, after⟩ := laneWake_sends state cam
  rw [since] at after
  refine ⟨u.laneWake l, u.wakeBlock l, lv, lw, r, rfl, kept.trans request, waking, ?_, ?_, ?_, after⟩
  · rw [sent, hu, setF_out]
  · exact octet_zero_trnBlock _ (Nat.zero_le _) (Nat.zero_le _) _ _ _ _
  · rw [← since]
    exact preset_trnBlock _ _ _ _ _

theorem laneWakeReq_stays (h : s.laneState l ≠ 7 ∨ s.getF (ingB l) F.LANE_CTRL_SRC_SEL = 1) :
    exec (.laneWakeReq l) s = .next (s.setF (ingB l) F.LANE_CTRL_IDLE_REQ 0) := by
  set u := s.setF (ingB l) F.LANE_CTRL_IDLE_REQ 0 with hu
  have state : u.laneState l = s.laneState l := laneState_setF _ rfl
  have runs : exec (.laneWakeReq l) s = .next (u.laneWake l) := rfl
  rw [runs]
  refine congrArg _ (if_neg ?_)
  rintro ⟨hidle, hcam⟩
  rcases h with h | hsrc
  · omega
  · have mem : u.fromMem l = true := fromMem_of_srcSel_one ((getF_setF_apart _ rfl).trans hsrc)
    simp [mem] at hcam

end Rows
end Sys2Proof.Machine

namespace Sys2Proof.Proofs

open Sys2Proof.Machine

/-- Settles O26: one lemma per clause of the rows EN and IDLE_REQ. -/
theorem laneRequests : Obligations.LaneRequests := fun _ _ =>
  ⟨laneEnable_refused, laneEnable_on, laneEnable_off, laneIdleReq_idles, laneIdleReq_stays, laneWakeReq_wakes,
    laneWakeReq_stays⟩

end Sys2Proof.Proofs


/-! ## Training frames (O27) -/

namespace Sys2Proof.Machine

section Link
variable {s t : State} {l m b : Nat} {f f' : Fld}

/-! ### The end of training (R89, R112) -/

theorem getF_adapted_apart (hctle : f.apart F.LANE_RXEQ_CTLE = true) (htaps : f.apart F.LANE_DFE_TAPS = true) :
    (s.adapted l).getF (ingB m) f = s.getF (ingB m) f := by
  have tick (u : State) : u.tickFree.getF (ingB m) f = u.getF (ingB m) f := (rfl)
  simp only [State.adapted, State.dfeAdapts, getF_ite, tick, getF_setF_apart _ hctle, getF_setF_apart _ htaps, ite_self]

theorem ln_adapted : (s.adapted l).ln m = s.ln m := Part.same.ln_eq (by simp) m

theorem out_adapted : (s.adapted l).out = s.out := by
  have tick (u : State) : u.tickFree.out = u.out := (rfl)
  simp only [State.adapted, State.dfeAdapts, apply_ite State.out, tick, setF_out, ite_self]

theorem laneTo_locking (h : s.laneState l ≠ 6) : s.laneTo l 3 = s.setLane l 3 := by simp [laneTo_of_not_joined h]

theorem laneTo_ident (h : s.laneState l ≠ 6) : s.laneTo l 4 = s.setLane l 4 := by simp [laneTo_of_not_joined h]

/-- The IDLE block that follows training (R112). -/
def idleBlock : List (Bool × Nat) := [(true, 0x1E * 2 ^ 56)]

theorem trainEnd_eq (h : s.laneState l ≠ 6) : s.trainEnd l =
    if s.flag (ingB l) F.LANE_STATUS_LOCK then ((s.sendBlocks l idleBlock).setLane l 3).setLane l 4
    else (s.sendBlocks l idleBlock).setLane l 3 := by
  have sent : (s.sendBlocks l idleBlock).laneTo l 3 = (s.sendBlocks l idleBlock).setLane l 3 :=
    laneTo_locking (by rwa [laneState_sendBlocks])
  have waits : ((s.sendBlocks l idleBlock).setLane l 3).laneState l = 3 := getF_setF_of_lt (by decide)
  have lock : ((s.sendBlocks l idleBlock).setLane l 3).flag (ingB l) F.LANE_STATUS_LOCK = s.flag (ingB l) F.LANE_STATUS_LOCK := by
    rw [State.flag, State.setLane, getF_setF_apart _ rfl, getF_sendBlocks, State.flag]
  rw [State.trainEnd, ← idleBlock, sent, lock, laneTo_ident (by rw [waits]; decide)]

theorem laneState_trainEnd (h : s.laneState l ≠ 6) :
    (s.trainEnd l).laneState l = if s.flag (ingB l) F.LANE_STATUS_LOCK then 4 else 3 := by
  have goes {u : State} {st : Nat} (hst : st < 16) : (u.setLane l st).laneState l = st := getF_setF_of_lt hst
  rw [trainEnd_eq h]
  split
  · exact goes (by decide)
  · exact goes (by decide)

theorem getF_trainEnd_apart (h : s.laneState l ≠ 6) (hf : f.apart F.LANE_STATUS_STATE = true) :
    (s.trainEnd l).getF (ingB m) f = s.getF (ingB m) f := by
  simp only [trainEnd_eq h, getF_ite, State.setLane, getF_setF_apart _ hf, getF_sendBlocks, ite_self]

/-- The end of training moves the scrambler and the precoder of the back channel, and nothing else of the lane's record. -/
theorem ln_trainEnd (h : s.laneState l ≠ 6) : ∃ scr sym, (s.trainEnd l).ln l = { s.ln l with scr := scr, sym := sym } := by
  simp only [trainEnd_eq h, ln_ite, ln_setLane, ite_self, ln_sendBlocks, if_true]
  exact ⟨_, _, rfl⟩

theorem out_trainEnd (h : s.laneState l ≠ 6) : ∃ lw, (s.trainEnd l).out = s.out ++ [.back l [(true, 0x1E * 2 ^ 56)] lw] := by
  simp only [trainEnd_eq h, apply_ite State.out, State.setLane, setF_out, ite_self, out_sendBlocks]
  exact ⟨_, rfl⟩

theorem chan_trainEnd (h : s.laneState l ≠ 6) : (s.trainEnd l).chan = s.chan := by
  rw [trainEnd_eq h]
  split <;> exact Part.same.chan_eq (by simp)

/-! ### A frame of the camera (R90, R112) -/

/-- A step of a coefficient answers one of four statuses. -/
theorem firStep_snd_le (r v top other : Nat) : (firStep r v top other).2 ≤ 3 := by
  unfold firStep
  split_ifs <;> simp

/-- PRE after the request of a frame, and the status that answers it. -/
def State.preStep (s : State) (l w : Nat) : Nat × Nat :=
  if s.flag (ingB l) F.LANE_CTRL_FIR_OVR then ((s.ln l).pre, 3)
  else if bit (octet w 1) 3 then (0, 1) else firStep (bits (octet w 1) 7 6) (s.ln l).pre 10 (s.ln l).post

/-- POST after the request of a frame, and the status that answers it. -/
def State.postStep (s : State) (l w : Nat) : Nat × Nat :=
  if s.flag (ingB l) F.LANE_CTRL_FIR_OVR then ((s.ln l).post, 3)
  else if bit (octet w 1) 3 then (0, 1) else firStep (bits (octet w 1) 5 4) (s.ln l).post 16 (s.preStep l w).1

theorem preStep_snd_le (w : Nat) : (s.preStep l w).2 ≤ 3 := by
  unfold State.preStep
  split_ifs
  · simp
  · simp
  · exact firStep_snd_le ..

theorem postStep_snd_le (w : Nat) : (s.postStep l w).2 ≤ 3 := by
  unfold State.postStep
  split_ifs
  · simp
  · simp
  · exact firStep_snd_le ..

/-- The state in which a frame has been noted: its coefficients are in use and `n` frames in a row were ready. -/
def State.frameNoted (s : State) (l w n : Nat) : State :=
  (if bit (octet w 3) 5 then s.setF (ingB l) F.LANE_STATUS_PRECODE_RX 1 else s).setLn l
    { s.ln l with pre := (s.preStep l w).1, post := (s.postStep l w).1, trnReady := n, waking := false }

/-- Whether the device precodes from here on (R85). -/
def State.precodes (s : State) (l w : Nat) : Bool := s.flag (ingB l) F.LANE_STATUS_PRECODE_TX || bit (octet w 3) 6

/-- The block that answers a frame. -/
def State.answerBlock (s : State) (l w : Nat) (ready : Bool) : Nat :=
  trnBlock false (s.preStep l w).2 (s.postStep l w).2 (s.ln l).frame ready (s.flag (ingB l) F.LANE_CTRL_PRECODE_ALLOW)
    (s.precodes l w)

/-- The state in which a frame has been answered. -/
def State.frameAnswered (s : State) (l w n : Nat) (ready : Bool) : State :=
  let u := (s.frameNoted l w n).sendFrame l (s.answerBlock l w ready)
  if s.precodes l w then u.setF (ingB l) F.LANE_STATUS_PRECODE_TX 1 else u

theorem getF_frameNoted_apart (w n : Nat) (h : f.apart F.LANE_STATUS_PRECODE_RX = true) :
    (s.frameNoted l w n).getF (ingB m) f = s.getF (ingB m) f := by
  simp only [State.frameNoted, read_setLn, getF_ite, getF_setF_apart _ h, ite_self]

theorem getF_frameAnswered_apart (w n : Nat) (ready : Bool) (hrx : f.apart F.LANE_STATUS_PRECODE_RX = true)
    (htx : f.apart F.LANE_STATUS_PRECODE_TX = true) : (s.frameAnswered l w n ready).getF (ingB m) f = s.getF (ingB m) f := by
  simp only [State.frameAnswered, getF_ite, getF_setF_apart _ htx, getF_sendFrame, getF_frameNoted_apart _ _ hrx, ite_self]

theorem ln_frameAnswered (w n : Nat) (ready : Bool) : (s.frameAnswered l w n ready).ln l =
    { s.ln l with
      pre := (s.preStep l w).1
      post := (s.postStep l w).1
      trnReady := n
      waking := false
      frame := ((s.ln l).frame + 1) % 256 } := by
  simp [State.frameAnswered, State.frameNoted]

theorem out_frameAnswered (w n : Nat) (ready : Bool) : ∃ lv, (s.frameAnswered l w n ready).out =
    s.out ++ [.back l ((true, s.answerBlock l w ready) :: List.replicate 255 (false, 0)) lv] := by
  obtain ⟨lv, sends⟩ := out_sendFrame (s := s.frameNoted l w n) (l := l) (s.answerBlock l w ready)
  have quiet : (s.frameNoted l w n).out = s.out := by
    simp only [State.frameNoted, out_setLn, apply_ite State.out, setF_out, ite_self]
  refine ⟨lv, ?_⟩
  simp only [State.frameAnswered, apply_ite State.out, setF_out, ite_self, sends, quiet]

theorem chan_frameAnswered (w n : Nat) (ready : Bool) : (s.frameAnswered l w n ready).chan = s.chan :=
  Part.same.chan_eq (by simp [State.frameAnswered, State.frameNoted])

theorem precodeRx_frameAnswered {w : Nat} (n : Nat) (ready : Bool) (h : bit (octet w 3) 5 = true) :
    (s.frameAnswered l w n ready).getF (ingB l) F.LANE_STATUS_PRECODE_RX = 1 := by
  simp (disch := decide) only [State.frameAnswered, State.frameNoted, h, if_true, getF_ite, getF_setF_apart, getF_sendFrame,
    read_setLn, getF_setF_of_lt, ite_self]

theorem precodeTx_frameAnswered {w : Nat} (n : Nat) (ready : Bool) (h : bit (octet w 3) 6 = true) :
    (s.frameAnswered l w n ready).getF (ingB l) F.LANE_STATUS_PRECODE_TX = 1 := by
  simp (disch := decide) only [State.frameAnswered, State.precodes, h, Bool.or_true, if_true, getF_setF_of_lt]

end Link

section Rows
variable {s : State} {l : Fin 128} {trn : BitVec 64} {ready : Bool}

theorem trainingFrameReceived_bad (h : octet trn.toNat 0 ≠ 0x33 ∨ octet trn.toNat 7 ≠ crc8 trn.toNat) :
    exec (.trainingFrameReceived l trn ready) s = .next s := congrArg _ (if_pos (.inr h))

theorem trainingFrameReceived_eq (h : s.laneState l = 2) (hid : octet trn.toNat 0 = 0x33)
    (hcrc : octet trn.toNat 7 = crc8 trn.toNat) {n : Nat}
    (hn : n = if bit (octet trn.toNat 3) 7 && ready then (s.ln l).trnReady + 1 else 0) :
    exec (.trainingFrameReceived l trn ready) s = .next (if 8 ≤ n
      then ((s.frameAnswered l trn.toNat n ready).adapted l).trainEnd l
      else s.frameAnswered l trn.toNat n ready) := by
  have pre : s.preStep l trn.toNat = (if s.flag (ingB l) F.LANE_CTRL_FIR_OVR then ((s.ln l).pre, 3)
      else if bit (octet trn.toNat 1) 3 && !s.flag (ingB l) F.LANE_CTRL_FIR_OVR then (0, 1)
      else firStep (bits (octet trn.toNat 1) 7 6) (s.ln l).pre 10 (s.ln l).post) := by
    cases hovr : s.flag (ingB l) F.LANE_CTRL_FIR_OVR <;> simp [State.preStep, hovr]
  have post : s.postStep l trn.toNat = (if s.flag (ingB l) F.LANE_CTRL_FIR_OVR then ((s.ln l).post, 3)
      else if bit (octet trn.toNat 1) 3 && !s.flag (ingB l) F.LANE_CTRL_FIR_OVR then (0, 1)
      else firStep (bits (octet trn.toNat 1) 5 4) (s.ln l).post 16 (s.preStep l trn.toNat).1) := by
    cases hovr : s.flag (ingB l) F.LANE_CTRL_FIR_OVR <;> simp [State.postStep, hovr]
  have code : (s.frameNoted l trn.toNat n).flag (ingB l) F.LANE_STATUS_PRECODE_TX = s.flag (ingB l) F.LANE_STATUS_PRECODE_TX :=
    congrArg (· == 1) (getF_frameNoted_apart _ _ rfl)
  have allow : (s.frameNoted l trn.toNat n).flag (ingB l) F.LANE_CTRL_PRECODE_ALLOW =
      s.flag (ingB l) F.LANE_CTRL_PRECODE_ALLOW := congrArg (· == 1) (getF_frameNoted_apart _ _ rfl)
  have good : ¬ (s.laneState l ≠ 2 ∨ octet trn.toNat 0 ≠ 0x33 ∨ octet trn.toNat 7 ≠ crc8 trn.toNat) := by
    simp [h, hid, hcrc]
  rw [exec, execTrainingFrameReceived]
  dsimp only
  rw [if_neg good, ← hn, ← pre, ← post, ← State.frameNoted, code, allow, ← State.precodes]
  rfl

/-- What a frame has done once it is answered, and what eight ready frames in a row bring about besides. -/
theorem trainingFrameReceived_trains (h : s.laneState l = 2) (n : Nat) (hid : octet trn.toNat 0 = 0x33)
    (hcrc : octet trn.toNat 7 = crc8 trn.toNat)
    (hn : n = (if bit (octet trn.toNat 3) 7 && ready then (s.ln l).trnReady + 1 else 0)) :
    ∃ t b lv lw, exec (.trainingFrameReceived l trn ready) s = .next t ∧
      t.out = s.out ++ .back l ((true, b) :: List.replicate 255 (false, 0)) lv ::
        (if 8 ≤ n then [.back l [(true, 0x1E * 2 ^ 56)] lw] else []) ∧ octet b 0 = 0x33 ∧
      t.laneState l = (if 8 ≤ n then (if s.flag (ingB l) F.LANE_STATUS_LOCK then 4 else 3) else 2) ∧
      (t.ln l).trnReady = n ∧ (t.ln l).frame = ((s.ln l).frame + 1) % 256 ∧
      (t.ln l).pre = (s.preStep l trn.toNat).1 ∧ (t.ln l).post = (s.postStep l trn.toNat).1 ∧
      (bit (octet trn.toNat 3) 5 = true → t.getF (ingB l) F.LANE_STATUS_PRECODE_RX = 1) ∧
      (bit (octet trn.toNat 3) 6 = true → t.getF (ingB l) F.LANE_STATUS_PRECODE_TX = 1) ∧ t.chan = s.chan := by
  have runs := trainingFrameReceived_eq h hid hcrc hn
  set u := s.frameAnswered l trn.toNat n ready with hu
  have state : u.laneState l = 2 := (getF_frameAnswered_apart _ _ _ rfl rfl).trans h
  have lock : u.flag (ingB l) F.LANE_STATUS_LOCK = s.flag (ingB l) F.LANE_STATUS_LOCK :=
    congrArg (· == 1) (getF_frameAnswered_apart _ _ _ rfl rfl)
  have record : u.ln l = _ := ln_frameAnswered trn.toNat n ready
  obtain ⟨lv, answered⟩ := out_frameAnswered (s := s) (l := l) trn.toNat n ready
  have block : octet (s.answerBlock l trn.toNat ready) 0 = 0x33 :=
    octet_zero_trnBlock _ (preStep_snd_le _) (postStep_snd_le _) _ _ _ _
  have chan : u.chan = s.chan := chan_frameAnswered ..
  by_cases eighth : 8 ≤ n
  · simp only [if_pos eighth] at runs ⊢
    set v := u.adapted l with hv
    have stateV : v.laneState l = 2 := (getF_adapted_apart rfl rfl).trans state
    have still : v.laneState l ≠ 6 := by rw [stateV]; decide
    have lockV : v.flag (ingB l) F.LANE_STATUS_LOCK = s.flag (ingB l) F.LANE_STATUS_LOCK :=
      Eq.trans (congrArg (· == 1) (getF_adapted_apart rfl rfl)) lock
    obtain ⟨lw, ends⟩ := out_trainEnd still
    obtain ⟨scr, sym, recordV⟩ := ln_trainEnd still
    rw [hv, ln_adapted, record, ← hv] at recordV
    have chanV : v.chan = u.chan := Part.same.chan_eq (by simp [hv])
    refine ⟨_, _, lv, lw, runs, ?_, block, ?_, ?_, ?_, ?_, ?_, fun h5 => ?_, fun h6 => ?_, ?_⟩
    · rw [ends, hv, out_adapted, answered, List.append_assoc]
      rfl
    · rw [laneState_trainEnd still, lockV]
    · rw [recordV]
    · rw [recordV]
    · rw [recordV]
    · rw [recordV]
    · rw [getF_trainEnd_apart still rfl, hv, getF_adapted_apart rfl rfl, precodeRx_frameAnswered n ready h5]
    · rw [getF_trainEnd_apart still rfl, hv, getF_adapted_apart rfl rfl, precodeTx_frameAnswered n ready h6]
    · rw [chan_trainEnd still, chanV, chan]
  · simp only [if_neg eighth] at runs ⊢
    refine ⟨_, _, lv, [], runs, answered, block, state, ?_, ?_, ?_, ?_, precodeRx_frameAnswered n ready,
      precodeTx_frameAnswered n ready, chan⟩ <;> rw [record]

end Rows
end Sys2Proof.Machine

namespace Sys2Proof.Proofs

open Sys2Proof.Machine

/-- Settles O27: the coefficients of the frame, `preStep` and `postStep`, are those of the override, of PRESET and of a step. -/
theorem laneTraining : Obligations.LaneTraining := by
  intro s l trn ready h
  refine ⟨trainingFrameReceived_bad, fun n hid hcrc hn => ?_⟩
  obtain ⟨t, b, lv, lw, runs, out, block, state, count, frame, pre, post, rx, tx, chan⟩ :=
    trainingFrameReceived_trains h n hid hcrc hn
  refine ⟨t, b, lv, lw, runs, out, block, state, count, frame, fun ovr => ?_, fun ovr preset => ?_, fun ovr preset => ?_,
    rx, tx, chan⟩
  · simp [pre, post, State.preStep, State.postStep, ovr]
  · simp [pre, post, State.preStep, State.postStep, ovr, preset]
  · simp [pre, post, State.preStep, State.postStep, ovr, preset]

end Sys2Proof.Proofs


/-! ## IDENT, control replies and camera data (O28) -/

namespace Sys2Proof.Machine

section Link
variable {s t : State} {l m b : Nat} {f f' : Fld}

/-! ### What a packet leaves alone (R94 to R96) -/

theorem sess_laneEvent : (s.laneEvent l f).sess = s.sess := by
  rw [State.laneEvent, State.raise]
  rcases fire_eq (s.setF (ingB l) f 1) (0xB0 + f.lo) with h | h <;> rw [h] <;> exact setF_sess ..

@[simp] theorem getF_seqNote (vc q : Nat) : (s.seqNote l vc q).getF b f = s.getF b f := (rfl)

@[simp] theorem laneState_seqNote (vc q : Nat) : (s.seqNote l vc q).laneState m = s.laneState m := (rfl)

theorem tags_seqNote (vc q : Nat) : ((s.seqNote l vc q).ln l).tags = (s.ln l).tags := by simp [State.seqNote]

theorem ln_camData (vc dt : Nat) (ws : List Nat) : (s.camData l vc dt ws).ln m = s.ln m := Part.same.ln_eq (by simp) m

theorem camData_of_disabled (h : s.getF (ingB l) F.CAM_RING_CAM_EN = 0) (vc dt : Nat) (ws : List Nat) :
    s.camData l vc dt ws = s := by
  simp [State.camData, State.flag, h]

/-! ### Control replies (R109) -/

theorem tagDone_of_find {tag sess sq op : Nat} (h : Tab.find tag (s.ln l).tags = some (sess, sq, op)) (status : Nat)
    (params : List Byte) : s.tagDone l tag status params =
      { s.setLn l { s.ln l with tags := Tab.del tag (s.ln l).tags } with
        sess := s.sess.map (fun e =>
          if e.id = sess then { e with outst := e.outst.map (fun o =>
            if o.hdr.seq.toNat = sq then finishIn 0x0304 status params o else o) } else e) } := by
  simp only [State.tagDone, h]
  rfl

theorem result_finishIn {o : Outstanding} (status : Nat) (params : List Byte)
    (h : (finishIn 0x0304 status params o).op = 0x0304) :
    (finishIn 0x0304 status params o).result ≠ none := by
  unfold finishIn at h ⊢
  split_ifs at h ⊢ with waits
  · simp
  · exact fun none => waits ⟨h, none⟩

/-- The tag is free, and the command that waited for its reply has a result. -/
theorem tagDone_completes {tag sess sq op : Nat} (h : Tab.find tag (s.ln l).tags = some (sess, sq, op)) (status : Nat)
    (params : List Byte) : ((s.tagDone l tag status params).ln l).tags = Tab.del tag (s.ln l).tags ∧
      (s.tagDone l tag status params).regs = s.regs ∧
      ∀ e ∈ (s.tagDone l tag status params).sess, e.id = sess →
        ∀ o ∈ e.outst, o.hdr.seq.toNat = sq → o.op = 0x0304 → o.result ≠ none := by
  rw [tagDone_of_find h]
  refine ⟨congrArg Lane.tags ((ln_setLn ..).trans (if_pos rfl)), rfl, fun e he hid o ho hsq hop => ?_⟩
  obtain ⟨e', -, rfl⟩ := List.mem_map.1 he
  by_cases mine : e'.id = sess
  · rw [if_pos mine] at ho
    obtain ⟨o', -, rfl⟩ := List.mem_map.1 ho
    by_cases waiting : o'.hdr.seq.toNat = sq
    · rw [if_pos waiting] at hop ⊢
      exact result_finishIn status params hop
    · rw [if_neg waiting] at hsq
      exact absurd hsq waiting
  · rw [if_neg mine] at hid
    exact absurd hid mine

/-! ### Identification (R110, R111, R116, R119) -/

/-- An IDENT other than the one that the joined camera has sent before. -/
def State.identNew (s : State) (l : Nat) (ws : List Nat) : Bool :=
  s.laneState l == 6 && ws.getD 1 0 != s.getF (ingB l) F.CAM_ID1_ID1

/-- The state in which the words of an IDENT have been taken. -/
def State.identTaken (s : State) (l : Nat) (ws : List Nat) : State :=
  let u := ((s.setF (ingB l) F.CAM_ID0_ID0 (ws.headD 0)).setF (ingB l) F.CAM_ID1_ID1 (ws.getD 1 0)).setF (ingB l)
    F.CAM_ID2_ID2 (ws.getD 2 0)
  u.setLn l { s.ln l with hold := s.identBad l ws }

/-- The state in which an IDENT has been taken, and reported where it is wrong. -/
def State.identMarked (s : State) (l : Nat) (ws : List Nat) : State :=
  if s.identBad l ws then
    (((s.identTaken l ws).laneEvent l F.LANE_EVENT_IDENT_MISMATCH).laneLog .identMismatch l).pnlEvent 4 l 5 []
  else s.identTaken l ws

theorem laneState_identTaken (ws : List Nat) : (s.identTaken l ws).laneState m = s.laneState m := by
  simp (disch := decide) only [State.identTaken, laneState_setLn, laneState_setF]

theorem laneState_identMarked (ws : List Nat) : (s.identMarked l ws).laneState m = s.laneState m := by
  unfold State.identMarked
  split
  · rw [laneState_pnlEvent, laneState_laneLog, laneState_laneEvent rfl, laneState_identTaken]
  · exact laneState_identTaken ws

theorem ln_identMarked (ws : List Nat) : (s.identMarked l ws).ln l = { s.ln l with hold := s.identBad l ws } := by
  simp [State.identMarked, State.identTaken]

theorem getF_identMarked_apart (ws : List Nat) (h : f.apart F.LANE_EVENT_IDENT_MISMATCH = true) :
    (s.identMarked l ws).getF (ingB m) f = (s.identTaken l ws).getF (ingB m) f := by
  simp only [State.identMarked, getF_ite, getF_pnlEvent, getF_laneLog _ (Fld.inIng_of_apart h), getF_laneEvent_apart h,
    ite_self]

theorem id0_identTaken (ws : List Nat) : (s.identTaken l ws).getF (ingB l) F.CAM_ID0_ID0 = ws.headD 0 % 2 ^ 64 := by
  rw [State.identTaken, read_setLn, getF_setF_apart _ rfl, getF_setF_apart _ rfl, getF_setF_same]
  rfl

theorem id2_identTaken (ws : List Nat) : (s.identTaken l ws).getF (ingB l) F.CAM_ID2_ID2 = ws.getD 2 0 % 2 ^ 64 := by
  rw [State.identTaken, read_setLn, getF_setF_same]
  rfl

/-- An IDENT readies a lane that waits for it, and takes a joined lane back where it is wrong or new. -/
theorem ident_eq (ws : List Nat) : s.ident l ws =
    if s.laneState l = 4 ∨ (s.laneState l = 6 ∧ (s.identBad l ws ∨ s.identNew l ws)) then (s.identMarked l ws).laneTo l 5
    else s.identMarked l ws := by
  have marked : s.ident l ws = if (s.identMarked l ws).laneState l = 4 then (s.identMarked l ws).laneTo l 5
      else if (s.identMarked l ws).laneState l = 6 ∧ (s.identBad l ws ∨ s.identNew l ws) then (s.identMarked l ws).laneTo l 5
      else s.identMarked l ws := by
    simp only [State.ident, State.identMarked, State.identTaken, State.identNew, ln_setF]
    rfl
  rw [marked, laneState_identMarked]
  by_cases h4 : s.laneState l = 4 <;> simp [h4]

theorem laneState_ident (ws : List Nat) : (s.ident l ws).laneState l =
    if s.laneState l = 4 ∨ (s.laneState l = 6 ∧ (s.identBad l ws ∨ s.identNew l ws)) then 5 else s.laneState l := by
  rw [ident_eq]
  split
  · exact laneState_laneTo_self (by decide)
  · exact laneState_identMarked ws

theorem ln_ident (ws : List Nat) : (s.ident l ws).ln l = { s.ln l with hold := s.identBad l ws } := by
  simp [ident_eq, ln_laneTo, ln_identMarked]

theorem getF_ident_marked (ws : List Nat) (h : f.apart F.LANE_STATUS_STATE = true) :
    (s.ident l ws).getF (ingB m) f = (s.identMarked l ws).getF (ingB m) f := by
  rw [ident_eq, getF_ite, getF_laneTo_apart 5 h, ite_self]

theorem getF_ident_apart (ws : List Nat) (hst : f.apart F.LANE_STATUS_STATE = true)
    (hev : f.apart F.LANE_EVENT_IDENT_MISMATCH = true) :
    (s.ident l ws).getF (ingB m) f = (s.identTaken l ws).getF (ingB m) f := by
  rw [getF_ident_marked ws hst, getF_identMarked_apart ws hev]

theorem mismatch_identMarked {ws : List Nat} (bad : s.identBad l ws = true) :
    (s.identMarked l ws).getF (ingB l) F.LANE_EVENT_IDENT_MISMATCH = 1 := by
  rw [State.identMarked, if_pos bad, getF_pnlEvent, getF_laneLog _ rfl, getF_laneEvent_self]

theorem identBad_seqNote (vc q : Nat) (ws : List Nat) : (s.seqNote l vc q).identBad l ws = s.identBad l ws := by
  simp only [State.identBad, State.bond, State.flag, getF_seqNote]

theorem identNew_seqNote (vc q : Nat) (ws : List Nat) : (s.seqNote l vc q).identNew l ws = s.identNew l ws := by
  simp only [State.identNew, laneState_seqNote, getF_seqNote]

end Link

section Rows
variable {s : State} {l : Fin 128} {words : List (BitVec 64)}

/-- A packet that a check discards is counted, and that is all, whichever it was to be. -/
theorem exec_of_discarded (hl : s.laneState l ≠ 0) {i : Instr} (hi : i = .identReceived l words ∨
    i = .cameraDataPacket l words false ∨ i = .controlReplyReceived l words)
    (hbad : ∀ vc dt q body, checkPacket (words.map BitVec.toNat) false ≠ .ok vc dt q body) :
    exec i s = .next (s.pktBad l (checkPacket (words.map BitVec.toNat) false)) := by
  rcases hi with rfl | rfl | rfl
  all_goals
    simp only [exec, execIdentReceived, execCameraDataPacket, execControlReplyReceived, if_neg hl]

theorem hcrc_counts (hl : s.laneState l ≠ 0) {i : Instr} (hi : i = .identReceived l words ∨
    i = .cameraDataPacket l words false ∨ i = .controlReplyReceived l words)
    (hc : checkPacket (words.map BitVec.toNat) false = .hcrc) :
    ∃ t, exec i s = .next t ∧ t.getF (ingB l) F.LANE_EVENT_HCRC_ERR = 1 ∧ t.lane = s.lane ∧ t.chan = s.chan ∧
      t.sess = s.sess ∧ t.getF (ingB l) F.LANE_PKT_ERR_HCRC_CNT = satAdd 16 (s.getF (ingB l) F.LANE_PKT_ERR_HCRC_CNT) 1 := by
  refine ⟨_, exec_of_discarded hl hi (by simp [hc]), ?_⟩
  rw [hc, State.pktBad]
  refine ⟨getF_laneEvent_self, Part.same.lane_eq (by simp), Part.same.chan_eq (by simp), ?_, ?_⟩
  · rw [sess_laneEvent]
    exact setF_sess ..
  · rw [getF_laneEvent_apart rfl, getF_satF_self]
    rfl

theorem exec_identReceived (hl : s.laneState l ≠ 0) {q : Nat} {body : List Nat}
    (hc : checkPacket (words.map BitVec.toNat) false = .ok 2 0x30 q body) (hid : octet (body.headD 0) 0 = 1) :
    exec (.identReceived l words) s = .next ((s.seqNote l 2 q).ident l body) := by
  simp only [exec, execIdentReceived, if_neg hl, hc, hid, and_self, if_true]

theorem identReceived_takes (hl : s.laneState l ≠ 0) {q : Nat} {body : List Nat}
    (hc : checkPacket (words.map BitVec.toNat) false = .ok 2 0x30 q body) (hid : octet (body.headD 0) 0 = 1) :
    ∃ t, exec (.identReceived l words) s = .next t ∧ t.getF (ingB l) F.CAM_ID0_ID0 = body.headD 0 % 2 ^ 64 ∧
      t.getF (ingB l) F.CAM_ID2_ID2 = body.getD 2 0 % 2 ^ 64 ∧ (t.ln l).hold = s.identBad l body ∧
      (s.identBad l body = true → t.getF (ingB l) F.LANE_EVENT_IDENT_MISMATCH = 1 ∧ t.laneState l ≠ 6) ∧
      (s.laneState l = 4 → t.laneState l = 5) ∧
      (s.laneState l ≠ 4 → s.laneState l ≠ 6 → t.laneState l = s.laneState l) ∧
      (s.laneState l = 6 → body.getD 1 0 ≠ s.getF (ingB l) F.CAM_ID1_ID1 → t.laneState l = 5) := by
  set u := s.seqNote l 2 q with hu
  have hlane : u.laneState l = s.laneState l := by rw [hu, laneState_seqNote]
  have hbad : u.identBad l body = s.identBad l body := by rw [hu, identBad_seqNote]
  have hnew : u.identNew l body = s.identNew l body := by rw [hu, identNew_seqNote]
  refine ⟨u.ident l body, exec_identReceived hl hc hid, ?_, ?_, ?_, fun bad => ⟨?_, ?_⟩, fun waits => ?_, fun h4 h6 => ?_,
    fun h6 other => ?_⟩
  · rw [getF_ident_apart body rfl rfl, id0_identTaken]
  · rw [getF_ident_apart body rfl rfl, id2_identTaken]
  · rw [ln_ident, hbad]
  · rw [getF_ident_marked body rfl]
    exact mismatch_identMarked (hbad.trans bad)
  · rw [laneState_ident, hlane, hbad, bad]
    by_cases h6 : s.laneState l = 6 <;> by_cases h4 : s.laneState l = 4 <;> simp [h4, h6]
  · rw [laneState_ident, hlane, if_pos (.inl waits)]
  · rw [laneState_ident, hlane, if_neg (by simp [h4, h6])]
  · have new : s.identNew l body = true := by simpa [State.identNew, h6] using other
    rw [laneState_ident, hlane, hnew, if_pos (.inr ⟨h6, .inr new⟩)]

/-! ### The rows of control replies and camera data -/

theorem controlReply_completes (hl : s.laneState l ≠ 0) {q sess sq op : Nat} {body : List Nat}
    (hc : checkPacket (words.map BitVec.toNat) false = .ok 2 0x31 q body)
    (waits : Tab.find (octet (body.headD 0) 1) (s.ln l).tags = some (sess, sq, op)) :
    ∃ t, exec (.controlReplyReceived l words) s = .next t ∧
      (t.ln l).tags = Tab.del (octet (body.headD 0) 1) (s.ln l).tags ∧
      ∀ e ∈ t.sess, e.id = sess → ∀ o ∈ e.outst, o.hdr.seq.toNat = sq → o.op = 0x0304 → o.result ≠ none := by
  have htags : (((s.seqNote l 2 q).camData l 2 0x31 body).ln l).tags = (s.ln l).tags := by rw [ln_camData, tags_seqNote]
  obtain ⟨freed, -, done⟩ := tagDone_completes (htags ▸ waits) 0 (be 1 (octet (body.headD 0) 0) ++ zeros 3 ++
    if ((Tab.find (octet (body.headD 0) 1) ((s.seqNote l 2 q).ln l).tags).map (fun t => t.2.2)).getD 0 = 1 then
      ((body.drop 1).take (octet (body.headD 0) 2)).flatMap (be 8) else [])
  refine ⟨_, ?_, freed.trans (by rw [htags]), done⟩
  simp only [exec, execControlReplyReceived, if_neg hl, hc, and_self, if_true]

theorem controlTimeout_completes {tag : Fin 16} {n sess sq op : Nat} (h : (s.ln l).tags[tag.val]? = some (n, sess, sq, op))
    (waits : Tab.find n (s.ln l).tags = some (sess, sq, op)) :
    ∃ t, exec (.controlReplyTimeout l tag) s = .next t ∧ (t.ln l).tags = Tab.del n (s.ln l).tags ∧ t.regs = s.regs ∧
      ∀ e ∈ t.sess, e.id = sess → ∀ o ∈ e.outst, o.hdr.seq.toNat = sq → o.op = 0x0304 → o.result ≠ none :=
  ⟨_, by simp only [exec, execControlReplyTimeout, h], tagDone_completes waits stHwFault []⟩

theorem exec_cameraDataPacket (hl : s.laneState l ≠ 0) {vc dt q : Nat} {body : List Nat} (hvc : vc = 1 ∨ vc = 3)
    (hc : checkPacket (words.map BitVec.toNat) false = .ok vc dt q body) :
    exec (.cameraDataPacket l words false) s = .next ((s.seqNote l vc q).camData l vc dt body) := by
  have taken : vc = 1 ∨ vc = 3 ∨ (vc = 2 ∧ dt = 0x30 ∧ octet (body.headD 0) 0 ≠ 1) := by
    rcases hvc with h | h <;> simp [h]
  simp only [exec, execCameraDataPacket, if_neg hl, hc, if_pos taken]

end Rows
end Sys2Proof.Machine

namespace Sys2Proof.Proofs

open Sys2Proof.Machine

/-- Settles O28: a packet that a check discards is counted before its kind is looked at, and one that passes does what the row of
its kind says, each for itself. -/
theorem lanePackets : Obligations.LanePackets := by
  unfold Obligations.LanePackets
  intro s l words hl
  refine ⟨fun i hi => ⟨hcrc_counts hl hi, fun hc => ?_, fun hc => ?_⟩, fun q body hc hid => identReceived_takes hl hc hid,
    fun q body sess sq op hc waits => controlReply_completes hl hc waits,
    fun tag n sess sq op h waits => controlTimeout_completes h waits,
    fun vc dt q body hvc hc => ⟨exec_cameraDataPacket hl hvc hc, fun off => ?_⟩⟩
  · rw [exec_of_discarded hl hi (by simp [hc]), hc]
    rfl
  · rw [exec_of_discarded hl hi (by simp [hc]), hc]
    rfl
  · rw [exec_cameraDataPacket hl hvc hc, camData_of_disabled (by rw [getF_seqNote, off])]

end Sys2Proof.Proofs


/-! ## Alignment of bonded lanes (O29) -/

namespace Sys2Proof.Machine

section Link
variable {s t : State} {l m : Nat}

/-- Lanes are aligned together, or together lose their alignment (R123). -/
def State.alignAll (L : List Nat) (v : Bool) (s : State) : State :=
  forL L (fun m u => u.setLn m { u.ln m with aligned := v }) s

theorem aligned_alignAll (L : List Nat) (v : Bool) (s : State) : ∀ m ∈ L, ((s.alignAll L v).ln m).aligned = v := by
  refine forL_reaches (P := fun m u => (u.ln m).aligned = v) (fun m u => by simp) (fun m k u hu => ?_) L s
  simp only [ln_setLn]
  split
  · rfl
  · exact hu

theorem regs_alignAll (L : List Nat) (v : Bool) : (s.alignAll L v).regs = s.regs := by
  refine forL_invariant (P := fun u => u.regs = s.regs) (fun m u h => ?_) L rfl
  exact h

theorem chan_alignAll (L : List Nat) (v : Bool) : (s.alignAll L v).chan = s.chan := by
  refine forL_invariant (P := fun u => u.chan = s.chan) (fun m u h => ?_) L rfl
  exact h

end Link

section Rows
variable {s : State} {l : Fin 128} {marker : BitVec 16} {place : Nat}

/-- The state in which a marker of a lane is held. -/
def State.marked (s : State) (l marker place : Nat) : State := s.setLn l { s.ln l with align := some (marker, place) }

theorem exec_alignReceived_without_bond (h : s.laneState l < 3 ∨ s.bond l = 0 ∨ s.bond l = 3) :
    exec (.alignReceived l ⟨marker, place⟩) s = .next s := by
  simp only [exec, execAlignReceived, if_pos h]

/-- A marker that another lane of the bond has not sent is held. -/
theorem exec_alignReceived_waits (h3 : 3 ≤ s.laneState l) (hb : s.bond l = 1 ∨ s.bond l = 2)
    (hk : skewOf marker.toNat ((s.bondLanes l).map (fun m => ((s.marked l marker.toNat place).ln m).align)) = none) :
    exec (.alignReceived l ⟨marker, place⟩) s = .next (s.marked l marker.toNat place) := by
  have bonded : ¬ (s.laneState l < 3 ∨ s.bond l = 0 ∨ s.bond l = 3) := by omega
  have lanes : (s.marked l marker.toNat place).bondLanes l = s.bondLanes l := bondLanes_congr rfl
  rw [exec, execAlignReceived, if_neg bonded]
  dsimp only
  rw [← State.marked, lanes, hk]

/-- Once all lanes of the bond have sent a marker, their skew decides. -/
theorem exec_alignReceived_decides (h3 : 3 ≤ s.laneState l) (hb : s.bond l = 1 ∨ s.bond l = 2) {k : Nat}
    (hk : skewOf marker.toNat ((s.bondLanes l).map (fun m => ((s.marked l marker.toNat place).ln m).align)) = some k) :
    exec (.alignReceived l ⟨marker, place⟩) s = .next
      (if 32 < k then (((s.marked l marker.toNat place).alignAll (s.bondLanes l) false).laneEvent l
        F.LANE_EVENT_BOND_SKEW).laneLog .bondSkew ((s.bondLanes l).headD l)
      else (s.marked l marker.toNat place).alignAll (s.bondLanes l) true) := by
  have bonded : ¬ (s.laneState l < 3 ∨ s.bond l = 0 ∨ s.bond l = 3) := by omega
  have lanes : (s.marked l marker.toNat place).bondLanes l = s.bondLanes l := bondLanes_congr rfl
  rw [exec, execAlignReceived, if_neg bonded]
  dsimp only
  rw [← State.marked, lanes, hk]
  rfl

/-- Within 32 blocks the bond is aligned; further apart it is not, and BOND_SKEW says so. -/
theorem alignReceived_decides (h3 : 3 ≤ s.laneState l) (hb : s.bond l = 1 ∨ s.bond l = 2) {k : Nat}
    (hk : skewOf marker.toNat ((s.bondLanes l).map (fun m => ((s.marked l marker.toNat place).ln m).align)) = some k) :
    ∃ t, exec (.alignReceived l ⟨marker, place⟩) s = .next t ∧ t.chan = s.chan ∧
      (∀ m ∈ s.bondLanes l, (t.ln m).aligned = decide (k ≤ 32)) ∧
      (32 < k → t.getF (ingB l) F.LANE_EVENT_BOND_SKEW = 1) ∧ (k ≤ 32 → t.regs = s.regs) := by
  have runs := exec_alignReceived_decides h3 hb hk
  set u := s.marked l marker.toNat place
  by_cases apart : 32 < k
  · rw [if_pos apart] at runs
    refine ⟨_, runs, ?_, fun m hm => ?_, fun _ => ?_, fun near => by omega⟩
    · have kept : (u.alignAll (s.bondLanes l) false).chan = s.chan := chan_alignAll ..
      rw [← kept]
      exact Part.same.chan_eq (by simp)
    · rw [ln_laneLog, ln_laneEvent, aligned_alignAll _ _ _ m hm]
      simp [apart]
    · rw [getF_laneLog _ rfl, getF_laneEvent_self]
  · rw [if_neg apart] at runs
    refine ⟨_, runs, ?_, fun m hm => ?_, fun far => absurd far apart, fun _ => ?_⟩
    · exact chan_alignAll ..
    · rw [aligned_alignAll _ _ _ m hm]
      simpa using apart
    · exact regs_alignAll ..

end Rows
end Sys2Proof.Machine

namespace Sys2Proof.Proofs

open Sys2Proof.Machine

/-- Settles O29: each lane of the bond is written in turn, and what is written later of another lane leaves it aligned or not. -/
theorem bondAlignment : Obligations.BondAlignment := by
  unfold Obligations.BondAlignment
  rintro s l marker place
  refine ⟨exec_alignReceived_without_bond, ?_⟩
  rintro u h3 hb rfl
  exact ⟨fun hk => exec_alignReceived_waits h3 hb hk, fun k hk => alignReceived_decides h3 hb hk⟩

end Sys2Proof.Proofs


/-! ## Line packets (O30) -/

namespace Sys2Proof.Machine

section Link
variable {s t : State} {l m b g ch k : Nat} {f : Fld}

theorem Part.same.grp_eq (h : Part.grp.same s t) : t.grp = s.grp := h

/-! ### The course status word writes none of these registers (R134) -/

@[simp] theorem getF_cswSet (x : Nat) (hf : f.inIng = true) : (s.cswSet g k x).getF (ingB m) f = s.getF (ingB m) f :=
  (cswSet_quiet _ _ _ _ (Quiet.refl s)).getF_ing hf

/-- The state in which a course stands as missing among a channel's lines (R129, R131). -/
def State.slotMissing (s : State) (ch k : Nat) : State :=
  s.setCh ch { s.ch ch with
    lines := (s.ch ch).lines.filter (fun l => l.course != k) ++ [({ course := k, missing := true } : Line)] }

theorem declareMissing_eq : s.declareMissing g ch k =
    (State.cswMiss ((s.slotMissing ch k).satF (ingB ch) F.MISS_CNT_COUNT 1) g k).capItem g ch k false none := (rfl)

theorem getF_declareMissing (hf : f.inIng = true) : (s.declareMissing g ch k).getF (ingB m) f =
    ((s.slotMissing ch k).satF (ingB ch) F.MISS_CNT_COUNT 1).getF (ingB m) f := by
  rw [declareMissing_eq]
  exact (capItem_quiet _ _ _ _ _ _ (cswMiss_quiet _ _ _ (Quiet.refl _))).getF_ing hf

theorem getF_declareMissing_apart (h : f.apart F.MISS_CNT_COUNT = true) :
    (s.declareMissing g ch k).getF (ingB m) f = s.getF (ingB m) f := by
  rw [getF_declareMissing (Fld.inIng_of_apart h), getF_satF_apart 1 h]
  rfl

/-! ### The group whose courses a channel takes (R21) -/

theorem fedBy_of_no_bond (h : s.bond l = 0) : s.fedBy l = [l] := by
  simp [State.fedBy, State.bondLanes, h, Nat.mod_one]

/-- What decides to which running group a channel belongs: the groups, and the runs of the groups. -/
theorem groupOf_congr (hgrp : t.grp = s.grp) (hfirst : ∀ g < 16, t.runFirst g = s.runFirst g)
    (hcount : ∀ g < 16, t.runCount g = s.runCount g) : t.groupOf ch = s.groupOf ch := by
  have running : t.runningGroups = s.runningGroups :=
    List.filter_congr fun g _ => by simp only [State.running, State.g, hgrp]
  rw [State.groupOf, State.groupOf, running]
  refine List.find?_congr fun g hg => ?_
  have hlt : g < 16 := List.mem_range.1 (List.mem_filter.1 hg).1
  simp only [State.inRun, hfirst g hlt, hcount g hlt]

theorem workGroup_of_groupOf (h : s.groupOf ch = some g) : s.workGroup ch = some g := by simp [State.workGroup, h]

theorem running_of_groupOf (h : s.groupOf ch = some g) : (s.g g).st = 2 := by
  have mem : g ∈ s.runningGroups := List.mem_of_find?_eq_some h
  simpa [State.running] using (List.mem_filter.1 mem).2

/-- A channel whose group has not stopped keeps its place (R21). -/
theorem settle_of_st (h : (s.g g).st ≠ 3) : s.settle g ch = s := by simp [State.settle, h]

/-- A line of a lane of its own comes to the lane's channel, where that is joined, in the group that runs it. -/
theorem lineTo_of_joined {f : Nat → Nat → State → State} (hb : s.bond l = 0) (hj : s.joined l = true)
    (hg : s.groupOf l = some g) (hgrp : (f g l s).grp = s.grp) : s.lineTo l f = f g l s := by
  have stays : ((f g l s).g g).st ≠ 3 := by
    rw [State.g, hgrp]
    exact fun h3 => by simpa [running_of_groupOf hg] using (show (s.g g).st = 3 from h3)
  simp [State.lineTo, fedBy_of_no_bond hb, hj, workGroup_of_groupOf hg, forL, settle_of_st stays]

theorem lineTo_of_not_joined {f : Nat → Nat → State → State} (hb : s.bond l = 0) (hj : s.joined l = false) :
    s.lineTo l f = s := by
  simp [State.lineTo, fedBy_of_no_bond hb, hj, forL]

/-! ### Packets that fail HCRC or PCRC (R128) -/

theorem getF_pktBad_hub {r : PktCheck} (hf : f.lo < 64) (hb : b + f.off < 0x10000000) :
    (s.pktBad l r).getF b f = s.getF b f := by
  cases r with
  | hcrc =>
    have event : (State.laneEvent (s.satF (ingB l) F.LANE_PKT_ERR_HCRC_CNT 1) l F.LANE_EVENT_HCRC_ERR).getF b f =
      (s.satF (ingB l) F.LANE_PKT_ERR_HCRC_CNT 1).getF b f := getF_raise_ne _ _ _ _ _ _ (hub_key_ne rfl hf hb)
    rw [State.pktBad, event]
    exact getF_setF_hub _ rfl hf hb
  | pcrc => exact getF_setF_hub _ rfl hf hb
  | vc => exact getF_raise_ne _ _ _ _ _ _ (hub_key_ne rfl hf hb)
  | none => rfl
  | ok => rfl

theorem getF_pktBad_apart {r : PktCheck} (hh : f.apart F.LANE_PKT_ERR_HCRC_CNT = true)
    (hp : f.apart F.LANE_PKT_ERR_PCRC_CNT = true) (heh : f.apart F.LANE_EVENT_HCRC_ERR = true)
    (hev : f.apart F.LANE_EVENT_VC_ERR = true) : (s.pktBad l r).getF (ingB m) f = s.getF (ingB m) f := by
  cases r with
  | hcrc => rw [State.pktBad, getF_laneEvent_apart heh, getF_satF_apart 1 hh]
  | pcrc => exact getF_satF_apart 1 hp
  | vc => exact getF_laneEvent_apart hev
  | none => rfl
  | ok => rfl

theorem groupOf_pktBad (r : PktCheck) : (s.pktBad l r).groupOf ch = s.groupOf ch :=
  have hgrp : Part.grp.same s (s.pktBad l r) := by simp
  groupOf_congr hgrp (fun g hg => getF_pktBad_hub (by decide) (by simp only [gseamB, F.GRP_SEAM_FIRST_CH]; omega))
    (fun g hg => getF_pktBad_hub (by decide) (by simp only [gseamB, F.GRP_SEAM_COUNT]; omega))

theorem lineBad_of_no_bond (h : s.bond ch = 0) : s.lineBad g ch l =
    (s.satF (ingB ch) F.CRC_CNT_COUNT 1).cswSet g (State.crcCourse (s.satF (ingB ch) F.CRC_CNT_COUNT 1) g ch) cswCrc := by
  have bond (k : Nat) : ((s.satF (ingB ch) F.CRC_CNT_COUNT 1).cswSet g k cswCrc).bond ch = 0 := by
    rw [State.bond, getF_cswSet _ rfl, getF_satF_apart 1 rfl]
    exact h
  simp [State.lineBad, bond]

/-! ### The check table (R99, R101, R102, R128) -/

variable {dt w q : Nat} {ws : List Nat} {image : List Byte}

theorem lineChecks_of_format (h : dt ≠ s.getF (ingB ch) F.ING_FMT_DT_EXPECT ∨ ws.length < 2) :
    s.lineChecks g ch l dt ws image = s.satF (ingB ch) F.DT_ERR_COUNT 1 := by
  unfold State.lineChecks
  by_cases expected : dt = s.getF (ingB ch) F.ING_FMT_DT_EXPECT
  · simp [expected, h.resolve_left (not_not.2 expected)]
  · simp [expected]

theorem lineChecks_of_plane (hdt : dt = s.getF (ingB ch) F.ING_FMT_DT_EXPECT) (hlen : 2 ≤ ws.length) (h5 : dt = 5)
    (hplane : bits (ws.getD 1 0) 15 12 ≠ s.getF (ingB ch) F.ING_FMT_PLANE_SEL) : s.lineChecks g ch l dt ws image = s := by
  unfold State.lineChecks
  rw [if_neg (not_not.2 hdt), if_neg (Nat.not_lt.2 hlen), if_pos ⟨h5, hplane⟩]

/-- A line of the right format goes by its course. -/
theorem lineChecks_of_width (hb : s.bond ch = 0) (hdt : dt = s.getF (ingB ch) F.ING_FMT_DT_EXPECT) (hlen : 2 ≤ ws.length)
    (hplane : dt = 5 → bits (ws.getD 1 0) 15 12 = s.getF (ingB ch) F.ING_FMT_PLANE_SEL)
    (hw : lineWidth dt (bits (ws.getD 1 0) 11 8) = some w)
    (hfits : dt = 5 → w * s.getF (ingB ch) F.ING_CFG_LINE_LEN ≤ 196608) :
    s.lineChecks g ch l dt ws image =
      if s.stampG g + 1 < extendEcho (s.stampG g) (bits (ws.headD 0) 31 0) then s.satF (ingB ch) F.ECHO_ERR_COUNT 1
      else if extendEcho (s.stampG g) (bits (ws.headD 0) 31 0) < 0 ∨
        s.decided ch (extendEcho (s.stampG g) (bits (ws.headD 0) 31 0)) then s.satF (ingB ch) F.LATE_LINE_COUNT 1
      else if (s.ch ch).holds (extendEcho (s.stampG g) (bits (ws.headD 0) 31 0)).toNat then s.satF (ingB ch) F.DUP_LINE_COUNT 1
      else s.acceptLine g ch l (lineOf (s.getF (ingB ch) F.ING_CFG_LINE_LEN)
        (extendEcho (s.stampG g) (bits (ws.headD 0) 31 0)).toNat w ws image false) := by
  have passed : ¬ (dt = 5 ∧ bits (ws.getD 1 0) 15 12 ≠ s.getF (ingB ch) F.ING_FMT_PLANE_SEL) := fun h => h.2 (hplane h.1)
  have narrow : ¬ (dt = 5 ∧ 196608 < w * s.getF (ingB ch) F.ING_CFG_LINE_LEN) := fun h => Nat.not_lt.2 (hfits h.1) h.2
  have single : (s.bond ch == 3 && l != ch) = false := by simp [hb]
  unfold State.lineChecks
  rw [if_neg (not_not.2 hdt), if_neg (Nat.not_lt.2 hlen), if_neg passed, hw]
  simp only [if_neg narrow, single, Bool.false_and, Bool.false_eq_true, if_false]

/-! ### A line into its slot (R127, R129, R130) -/

/-- The state in which the courses whose slot a line needs have been given up (R129). -/
def State.slotFreed (s : State) (g ch k : Nat) : State :=
  forL (s.slotBefore ch k) (fun j t => (t.declareMissing g ch j).satF (ingB ch) F.BUF_OVR_COUNT 1) s

/-- The state in which a line stands in its slot. -/
def State.slotTaken (s : State) (ch : Nat) (ln : Line) : State :=
  s.setCh ch { s.ch ch with
    lines := (s.ch ch).lines.filter (fun o => !(o.course % 8 == ln.course % 8 && o.course < (s.ch ch).next)) ++ [ln]
    lastExp := some ln.exp
    everLine := true
    temps := ((ln.course, ln.temp) :: (s.ch ch).temps).take 16
    uppers := (s.ch ch).uppers.filter (fun o => o.course != ln.course)
    lowerBad := (s.ch ch).lowerBad.filter (· != ln.course) }

/-- The state in which the last-line registers have taken a line (R130). -/
def State.lineRegs (s : State) (ch : Nat) (ln : Line) : State :=
  (((s.setF (ingB ch) F.ING_LAST_LINE_CAM_LINE ln.cam).setF (ingB ch) F.ING_LAST_EXP_EXP_ID ln.exp).setI (ingB ch)
    F.ING_LAST_EXP_TEMP ln.temp).setF (ingB ch) F.ING_STATUS_DUAL_UPPER (if ln.upper then 1 else 0)

/-- The state in which the lanes that brought a line have noted it. -/
def State.lineNoted (s : State) (ch l : Nat) (ln : Line) : State :=
  forL (if s.bond ch = 1 ∨ s.bond ch = 2 then s.bondLanes ch else [l])
    (fun m t => t.setLn m { t.ln m with last := some (ln.course, ln.cam, ln.exp), lineSince := true }) s

/-- The state in which the counters and flags of a line have been set (R130, R134). -/
def State.lineFlags (s : State) (g ch : Nat) (ln : Line) (before : Option Nat) : State :=
  let s := if decide (ln.samples.length < s.getF (ingB ch) F.ING_CFG_LINE_LEN) then
    (s.satF (ingB ch) F.SHORT_CNT_COUNT 1).cswSet g ln.course cswShort else s
  let s := if ln.long then (s.satF (ingB ch) F.LONG_CNT_COUNT 1).cswSet g ln.course cswLong else s
  let s := if before ≠ none ∧ before ≠ some ln.exp then s.cswSet g ln.course cswExposure else s
  if ln.upper then s.cswSet g ln.course cswFailover else s

theorem acceptLine_eq (ln : Line) : s.acceptLine g ch l ln =
    ((((s.slotFreed g ch ln.course).slotTaken ch ln).lineRegs ch ln).lineNoted ch l ln).lineFlags g ch ln
      ((s.slotFreed g ch ln.course).ch ch).lastExp := (rfl)

theorem lane_lineFlags (ln : Line) (before : Option Nat) : (s.lineFlags g ch ln before).lane = s.lane :=
  Part.same.lane_eq (by simp [State.lineFlags])

theorem chan_lineFlags (ln : Line) (before : Option Nat) : (s.lineFlags g ch ln before).chan = s.chan :=
  Part.same.chan_eq (by simp [State.lineFlags])

theorem getF_lineFlags_apart (ln : Line) (before : Option Nat) (hs : f.apart F.SHORT_CNT_COUNT = true)
    (hl : f.apart F.LONG_CNT_COUNT = true) : (s.lineFlags g ch ln before).getF (ingB m) f = s.getF (ingB m) f := by
  simp only [State.lineFlags, getF_ite, getF_cswSet _ (Fld.inIng_of_apart hs), getF_satF_apart _ hs, getF_satF_apart _ hl,
    ite_self]

theorem chan_lineNoted (ln : Line) : (s.lineNoted ch l ln).chan = s.chan := Part.same.chan_eq (by simp [State.lineNoted])

theorem getF_lineNoted (ln : Line) : (s.lineNoted ch l ln).getF b f = s.getF b f := getF_forL _ fun _ _ => rfl

theorem last_lineNoted (h : s.bond ch = 0) (ln : Line) :
    ((s.lineNoted ch l ln).ln l).last = some (ln.course, ln.cam, ln.exp) := by
  simp [State.lineNoted, h, forL]

theorem chan_lineRegs (ln : Line) : (s.lineRegs ch ln).chan = s.chan :=
  Part.same.chan_eq (by simp [State.lineRegs, State.setI])

theorem camLine_lineRegs (ln : Line) :
    (s.lineRegs ch ln).getF (ingB ch) F.ING_LAST_LINE_CAM_LINE = ln.cam % 2 ^ 32 := by
  simp (disch := decide) only [State.lineRegs, State.setI, getF_setF_apart, getF_setF_same]
  rfl

theorem bond_lineRegs (ln : Line) : (s.lineRegs ch ln).bond m = s.bond m := by
  simp (disch := decide) only [State.bond, State.lineRegs, State.setI, getF_setF_apart]

theorem bond_slotFreed : (s.slotFreed g ch k).bond m = s.bond m :=
  getF_forL _ fun j u => by rw [getF_satF_apart _ rfl, getF_declareMissing_apart rfl]

/-- An accepted line stands in its slot. -/
theorem mem_lines_acceptLine (ln : Line) : ln ∈ ((s.acceptLine g ch l ln).ch ch).lines := by
  have kept : (s.acceptLine g ch l ln).chan = ((s.slotFreed g ch ln.course).slotTaken ch ln).chan := by
    rw [acceptLine_eq, chan_lineFlags, chan_lineNoted, chan_lineRegs]
  rw [Part.same.ch_eq kept, State.slotTaken, ch_setCh, if_pos rfl]
  simp

theorem camLine_acceptLine (ln : Line) :
    (s.acceptLine g ch l ln).getF (ingB ch) F.ING_LAST_LINE_CAM_LINE = ln.cam % 2 ^ 32 := by
  rw [acceptLine_eq, getF_lineFlags_apart _ _ rfl rfl, getF_lineNoted, camLine_lineRegs]

theorem last_acceptLine (h : s.bond ch = 0) (ln : Line) :
    ((s.acceptLine g ch l ln).ln l).last = some (ln.course, ln.cam, ln.exp) := by
  rw [acceptLine_eq, Part.same.ln_eq (lane_lineFlags ..), last_lineNoted]
  rw [bond_lineRegs]
  exact bond_slotFreed.trans h

end Link

section Rows
variable {s : State} {l : Fin 128} {words : List (BitVec 64)} {cut : Bool} {g q : Nat}

theorem exec_linePacketReceived (hl : s.laneState l ≠ 0) (hsrc : s.getF (ingB l) F.LANE_CTRL_SRC_SEL = 0) :
    exec (.linePacketReceived l words cut) s = .next (s.linePacket l (words.map BitVec.toNat) cut) := by
  simp [exec, execLinePacketReceived, hl, fromMem_of_srcSel_zero hsrc]

theorem exec_linePacket_of_ok (hl : s.laneState l ≠ 0) (hsrc : s.getF (ingB l) F.LANE_CTRL_SRC_SEL = 0) {dt : Nat}
    {body : List Nat} (hc : checkPacket (words.map BitVec.toNat) cut = .ok 0 dt q body) :
    exec (.linePacketReceived l words cut) s = .next ((s.seqNote l 0 q).lineTo l
      (fun g ch t => t.lineChecks g ch l dt body (imageOf (words.map BitVec.toNat)))) := by
  rw [exec_linePacketReceived hl hsrc, State.linePacket, hc]
  rfl

/-- What a check of a line packet counts, it counts on the channel and goes no further. -/
theorem count_seqNote {f : Fld} (h : f.width = 32) :
    (State.satF (s.seqNote l 0 q) (ingB l) f 1).chan = s.chan ∧
      (State.satF (s.seqNote l 0 q) (ingB l) f 1).getF (ingB l) f = satAdd 32 (s.getF (ingB l) f) 1 :=
  ⟨Part.same.chan_eq (by simp), by rw [getF_satF_self, getF_seqNote, h]⟩

/-- A packet that fails HCRC or PCRC is counted on the lane, and where it came for a course, on the channel. -/
theorem linePacket_of_failed (hl : s.laneState l ≠ 0) (hsrc : s.getF (ingB l) F.LANE_CTRL_SRC_SEL = 0) (hb : s.bond l = 0)
    (hj : s.joined l = true) (hg : s.groupOf l = some g) {r : PktCheck} (hr : r = .hcrc ∨ r = .pcrc)
    (hc : checkPacket (words.map BitVec.toNat) cut = r) :
    ∃ t, exec (.linePacketReceived l words cut) s = .next t ∧ t.grp = s.grp ∧ t.chan = s.chan ∧ t.lane = s.lane ∧
      t.getF (ingB l) F.CRC_CNT_COUNT = satAdd 32 (s.getF (ingB l) F.CRC_CNT_COUNT) 1 := by
  set u := s.pktBad l r with hu
  have bond : u.bond l = 0 := (getF_pktBad_apart rfl rfl rfl rfl).trans hb
  have joined : u.joined l = true :=
    (congrArg (· == 1) (getF_pktBad_apart (f := F.ING_STATUS_JOINED) rfl rfl rfl rfl)).trans hj
  have group : u.groupOf l = some g := (groupOf_pktBad r).trans hg
  have runs : exec (.linePacketReceived l words cut) s = .next (u.lineTo l (fun g ch t => t.lineBad g ch l)) := by
    rw [exec_linePacketReceived hl hsrc, State.linePacket, hc]
    rcases hr with rfl | rfl <;> rfl
  rw [lineTo_of_joined bond joined group (Part.same.grp_eq (by simp)), lineBad_of_no_bond bond] at runs
  refine ⟨_, runs, Part.same.grp_eq (by simp [hu]), Part.same.chan_eq (by simp [hu]), Part.same.lane_eq (by simp [hu]), ?_⟩
  rw [getF_cswSet _ rfl, getF_satF_self, hu, getF_pktBad_apart rfl rfl rfl rfl]
  rfl

end Rows
end Sys2Proof.Machine

namespace Sys2Proof.Proofs

open Sys2Proof.Machine

/-- Settles O30: the packet's lane feeds its own channel alone, whose group runs, so the packet goes through the check table once
and the channel stays with its group. -/
theorem lineAcceptance : Obligations.LineAcceptance := by
  unfold Obligations.LineAcceptance
  intro s l words cut hl hsrc hb
  refine ⟨fun dt q body hj hc => ?_, fun g hj hg hr => ?_, ?_⟩
  · rw [exec_linePacket_of_ok hl hsrc hc, lineTo_of_not_joined (s := s.seqNote l 0 q) hb hj]
  · exact linePacket_of_failed hl hsrc hb hj hg hr rfl
  · rintro g dt q body v hj hg hc rfl
    set u := s.seqNote l 0 q with hu
    have runs := exec_linePacket_of_ok hl hsrc hc
    rw [lineTo_of_joined (s := u) hb hj hg (Part.same.grp_eq (by simp))] at runs
    refine ⟨_, runs, Part.same.grp_eq (by simp [hu]), fun hfmt => ?_, fun hdt hlen h5 hplane => ?_,
      fun w hdt hlen hplane hw hfits => ?_⟩
    · rw [lineChecks_of_format (s := u) hfmt]
      exact count_seqNote rfl
    · exact lineChecks_of_plane hdt hlen h5 hplane
    · have checks := lineChecks_of_width (s := u) (g := g) (l := l) (image := imageOf (words.map BitVec.toNat)) hb hdt hlen
        hplane hw hfits
      have slot : u.stampG g = s.stampG g ∧ u.decided l = s.decided l ∧ (u.ch l).holds = (s.ch l).holds :=
        ⟨rfl, rfl, rfl⟩
      obtain ⟨stamp, decided, holds⟩ := slot
      rw [stamp, decided, holds] at checks
      rw [checks]
      refine ⟨fun ahead => ?_, fun near late => ?_, fun near pos undecided held => ?_, fun near pos undecided free => ?_⟩
      · rw [if_pos ahead]
        exact count_seqNote rfl
      · rw [if_neg (not_lt.2 near), if_pos late]
        exact count_seqNote rfl
      · rw [if_neg (not_lt.2 near), if_neg (not_or.2 ⟨not_lt.2 pos, Bool.eq_false_iff.1 undecided⟩), if_pos held]
        exact count_seqNote rfl
      · rw [if_neg (not_lt.2 near), if_neg (not_or.2 ⟨not_lt.2 pos, Bool.eq_false_iff.1 undecided⟩),
          if_neg (Bool.eq_false_iff.1 free)]
        refine ⟨mem_lines_acceptLine _, ?_, ?_⟩
        · rw [camLine_acceptLine]
          exact Nat.mod_mod _ _
        · rw [last_acceptLine (s := u) hb]
          rfl

end Sys2Proof.Proofs


/-! ## Missing lines (O31) -/

namespace Sys2Proof.Machine

section Link
variable {s : State} {l m g ch k : Nat} {f : Fld}

theorem chan_declareMissing : (s.declareMissing g ch k).chan = (s.slotMissing ch k).chan := by
  rw [declareMissing_eq]
  exact Part.same.chan_eq (by simp)

theorem ch_declareMissing : (s.declareMissing g ch k).ch ch = { s.ch ch with
    lines := (s.ch ch).lines.filter (fun l => l.course != k) ++ [({ course := k, missing := true } : Line)] } := by
  rw [Part.same.ch_eq chan_declareMissing, State.slotMissing, ch_setCh, if_pos rfl]

theorem missCount_declareMissing : (s.declareMissing g ch k).getF (ingB ch) F.MISS_CNT_COUNT =
    satAdd 32 (s.getF (ingB ch) F.MISS_CNT_COUNT) 1 := by
  rw [getF_declareMissing rfl, getF_satF_self]
  rfl

theorem getF_lanesBack_apart (h : f.apart F.LANE_STATUS_STATE = true) :
    (s.lanesBack ch).getF (ingB m) f = s.getF (ingB m) f := by
  have kept (L : List Nat) : (forL L (fun l t => t.setLane l 5) s).getF (ingB m) f = s.getF (ingB m) f :=
    getF_forL L fun _ _ => getF_setF_apart 5 h
  rw [State.lanesBack, getF_ite, kept, ite_self]

/-- A channel that leaves a stopped group changes its JOINED bit and its lanes' states (R21). -/
theorem getF_settle_apart (hj : f.apart F.ING_STATUS_JOINED = true) (hst : f.apart F.LANE_STATUS_STATE = true) :
    (s.settle g ch).getF (ingB m) f = s.getF (ingB m) f := by
  rw [State.settle, getF_ite, getF_lanesBack_apart hst, getF_setF_apart 0 hj, ite_self]

theorem ch_settle : (s.settle g ch).ch m = s.ch m := Part.same.ch_eq (by simp) m

end Link

section Rows
variable {s : State} {l : Fin 128} {g k c : Nat}

theorem closed_any (hc : (s.g g).closed = some c) (hkc : k ≤ c) :
    (s.g g).closed.any (fun c => decide (k ≤ c)) = true := by simp [hc, hkc]

theorem exec_lineTimeout_without_group (h : s.workGroup l = none) : exec (.lineTimeout l) s = .next s := by
  simp only [exec, execLineTimeout, h]

theorem exec_lineTimeout_without_course (hg : s.workGroup l = some g)
    (h : (s.waitingCourses g l).head? = none ∨ (s.g g).closed = none) : exec (.lineTimeout l) s = .next s := by
  simp only [exec, execLineTimeout, hg]
  rcases h with none | none
  · simp only [none]
  · cases (s.waitingCourses g l).head? <;> simp [none]

theorem lineTimeout_declares (hg : s.workGroup l = some g) (hk : (s.waitingCourses g l).head? = some k)
    (hc : (s.g g).closed = some c) (hkc : k ≤ c) (alone : (s.ch l).uppers.find? (fun o => o.course == k) = none) :
    ∃ t, exec (.lineTimeout l) s = .next t ∧ ({ course := k, missing := true } : Line) ∈ (t.ch l).lines ∧
      (t.ch l).next = (s.ch l).next ∧ t.grp = s.grp ∧ t.lane = s.lane ∧
      t.getF (ingB l) F.MISS_CNT_COUNT = satAdd 32 (s.getF (ingB l) F.MISS_CNT_COUNT) 1 := by
  have runs : exec (.lineTimeout l) s = .next ((s.declareMissing g l k).settle g l) := by
    simp only [exec, execLineTimeout, hg, hk, if_pos (closed_any hc hkc), alone]
  refine ⟨_, runs, ?_, ?_, Part.same.grp_eq (by simp), Part.same.lane_eq (by simp), ?_⟩
  · rw [ch_settle, ch_declareMissing]
    simp
  · rw [ch_settle, ch_declareMissing]
  · rw [getF_settle_apart rfl rfl, missCount_declareMissing]

theorem lineTimeout_takes_upper (hg : s.workGroup l = some g) (hk : (s.waitingCourses g l).head? = some k)
    (hc : (s.g g).closed = some c) (hkc : k ≤ c) {u : Line}
    (waits : (s.ch l).uppers.find? (fun o => o.course == k) = some u) :
    ∃ t, exec (.lineTimeout l) s = .next t ∧ u ∈ (t.ch l).lines ∧ t.grp = s.grp := by
  have runs : exec (.lineTimeout l) s = .next ((s.acceptLine g l (l + 1) u).settle g l) := by
    simp only [exec, execLineTimeout, hg, hk, if_pos (closed_any hc hkc), waits]
  refine ⟨_, runs, ?_, Part.same.grp_eq (by simp)⟩
  rw [ch_settle]
  exact mem_lines_acceptLine u

end Rows
end Sys2Proof.Machine

namespace Sys2Proof.Proofs

open Sys2Proof.Machine

/-- Settles O31: what a stopped group's channel does once its last course is decided leaves the lines and the counter as they
are. -/
theorem lineMissing : Obligations.LineMissing := by
  unfold Obligations.LineMissing
  intro s l
  exact ⟨fun g k c hg hk hc hkc alone => lineTimeout_declares hg hk hc hkc alone,
    fun g k c u hg hk hc hkc waits => lineTimeout_takes_upper hg hk hc hkc waits,
    exec_lineTimeout_without_group, fun g hg h => exec_lineTimeout_without_course hg h⟩

end Sys2Proof.Proofs

/-! # Pixel correction and the gauge engine (O32, O33) -/

namespace Sys2Proof.Machine

section Correction
variable {s0 s t u : State} {ch b g k : Nat} {f : Fld}

/-! ## What the correction of a course leaves alone (R144) -/

/-- What every part of a course's correction keeps: the values of the pattern fields that govern a course, in the active bank and
among those kept for older courses; the length of the channel's lines; and the corrected lines that wait for the seam engine. -/
structure Correcting (ch : Nat) (s t : State) : Prop where
  act : t.act = s.act
  oldL : t.oldL = s.oldL
  lineLen : t.getF (ingB ch) F.ING_CFG_LINE_LEN = s.getF (ingB ch) F.ING_CFG_LINE_LEN
  out : (t.ch ch).out = (s.ch ch).out

@[simp] theorem Correcting.refl : Correcting ch s s := ⟨rfl, rfl, rfl, rfl⟩

theorem Correcting.trans (h : Correcting ch s t) (h' : Correcting ch t u) : Correcting ch s u :=
  ⟨h'.act.trans h.act, h'.oldL.trans h.oldL, h'.lineLen.trans h.lineLen, h'.out.trans h.out⟩

theorem Correcting.symm (h : Correcting ch s t) : Correcting ch t s :=
  ⟨h.act.symm, h.oldL.symm, h.lineLen.symm, h.out.symm⟩

/-- The form in which `simp` drops an operation from the right of the relation. -/
theorem Correcting.iff (h : Correcting ch s t) : Correcting ch s0 t ↔ Correcting ch s0 s :=
  ⟨fun k => k.trans h.symm, fun k => k.trans h⟩

/-- A field of a pattern that governs a course governs it still. -/
theorem Correcting.getK_eq (h : Correcting ch s t) (hf : f.pat = true) (c : Int) : t.getK g c b f = s.getK g c b f := by
  simp only [State.getK, State.getF, hf, if_true, h.act, h.oldL]

theorem Correcting.flagK_eq (h : Correcting ch s t) (hf : f.pat = true) (c : Int) : t.flagK g c b f = s.flagK g c b f :=
  congrArg (· == 1) (h.getK_eq hf c)

/-- A course without a line reads FILL over the whole length of a line (R118, R131). -/
theorem Correcting.ingestPix_none (h : Correcting ch s t) : t.ingestPix g k ch none = s.ingestPix g k ch none := by
  have fill : t.getK g (Int.ofNat k) (ingB ch) F.ING_CFG_FILL = s.getK g (Int.ofNat k) (ingB ch) F.ING_CFG_FILL :=
    h.getK_eq rfl _
  simp only [State.ingestPix, fill, h.lineLen]

theorem Quiet.correcting (h : Quiet s t) : Correcting ch s t :=
  ⟨h.act, h.oldL, h.getF_ing rfl, congrArg Chan.out (Part.same.ch_eq h.chan ch)⟩

theorem setF_correcting (v : Nat) (hf : f.pat = false) (hk : F.ING_CFG_LINE_LEN.key (ingB ch) ≠ f.key b) :
    Correcting ch s (s.setF b f v) :=
  ⟨by simp [State.setF, hf], setF_oldL .., getF_setF_ne _ _ _ _ _ _ hk, congrArg Chan.out (Part.same.ch_eq (by simp) ch)⟩

/-- The registers of correction lie above the length of the lines in the window of a channel. -/
theorem lineLen_key_ne_corr : F.ING_CFG_LINE_LEN.key (ingB ch) ≠ f.key (corrB ch) := by
  simp only [Fld.key, ingB, corrB, F.ING_CFG_LINE_LEN]
  omega

/-- The registers of a region's spare lie outside the windows of the channels. -/
theorem lineLen_key_ne_spare (n : Nat) : F.ING_CFG_LINE_LEN.key (ingB ch) ≠ F.SPARE_COURSES_COUNT.key (spareB n) := by
  simp only [Fld.key, ingB, chB, spareB, F.ING_CFG_LINE_LEN, F.SPARE_COURSES_COUNT]
  omega

@[simp] theorem correcting_setF (v : Nat) (hf : f.pat = false) :
    Correcting ch s0 (s.setF (corrB ch) f v) ↔ Correcting ch s0 s := (setF_correcting v hf lineLen_key_ne_corr).iff

@[simp] theorem correcting_incF_spare (m n : Nat) :
    Correcting ch s0 (s.incF (spareB m) F.SPARE_COURSES_COUNT n) ↔ Correcting ch s0 s :=
  (setF_correcting _ rfl (lineLen_key_ne_spare m)).iff

@[simp] theorem correcting_satF (n : Nat) (hf : f.pat = false) :
    Correcting ch s0 (s.satF (corrB ch) f n) ↔ Correcting ch s0 s := correcting_setF _ hf

@[simp] theorem correcting_mark (hf : f.pat = false) :
    Correcting ch s0 (s.mark (corrB ch) f) ↔ Correcting ch s0 s := correcting_setF _ hf

@[simp] theorem correcting_raise (n : Nat) (hf : f.pat = false) :
    Correcting ch s0 (s.raise (corrB ch) f n) ↔ Correcting ch s0 s :=
  (Quiet.correcting (fire_quiet _ n (Quiet.refl _))).iff.trans (correcting_setF 1 hf)

@[simp] theorem correcting_setCh (x : Chan) (hx : x.out = (s.ch ch).out) :
    Correcting ch s0 (s.setCh ch x) ↔ Correcting ch s0 s :=
  Correcting.iff ⟨rfl, rfl, rfl, by rw [ch_setCh, if_pos rfl, hx]⟩

@[simp] theorem correcting_cswSet (c x : Nat) : Correcting ch s0 (s.cswSet g c x) ↔ Correcting ch s0 s :=
  (Quiet.correcting (cswSet_quiet _ _ _ _ (Quiet.refl s))).iff

@[simp] theorem correcting_capLine : Correcting ch s0 (s.capLine g ch k) ↔ Correcting ch s0 s := by
  have kept : Quiet s (s.capLine g ch k) := by
    unfold State.capLine
    split
    · exact .ite (capItem_quiet _ _ _ _ _ _ (.refl s)) (.refl s)
    · exact .refl s
  exact kept.correcting.iff

@[simp] theorem correcting_ite {c : Prop} [Decidable c] {v w : State} :
    Correcting ch s0 (if c then v else w) ↔ if c then Correcting ch s0 v else Correcting ch s0 w := by split <;> rfl

@[simp] theorem correcting_ite_fst {α : Type} {c : Prop} [Decidable c] {v w : State × α} :
    Correcting ch s0 (if c then v else w).1 ↔ if c then Correcting ch s0 v.1 else Correcting ch s0 w.1 := by split <;> rfl

@[simp] theorem correcting_forL {α : Type} {op : α → State → State} (L : List α) (h : ∀ x v, Correcting ch v (op x v)) :
    Correcting ch s0 (forL L op s) ↔ Correcting ch s0 s := by
  refine Correcting.iff ?_
  induction L generalizing s with
  | nil => exact .refl
  | cons x L ih => exact (h x s).trans ih

@[simp] theorem correcting_forN {op : Nat → State → State} (n : Nat) (h : ∀ i v, Correcting ch v (op i v)) :
    Correcting ch s0 (forN n op s) ↔ Correcting ch s0 s := correcting_forL _ h

/-! ### Lamp gain (R171, R172) -/

@[simp] theorem correcting_lampApply (c : Int) (aux : Nat) (v : Int) :
    Correcting ch s0 (s.lampApply g c ch aux v) ↔ Correcting ch s0 s := by
  have sample (z : Nat) (r : State) : Correcting ch r (r.setI (corrB ch) (F.LAMP_SAMPLE_SAMPLE.nth z) v) :=
    (correcting_setF _ rfl).2 .refl
  unfold State.lampApply
  refine (correcting_forN 8 fun z r => ?_).trans (correcting_setCh _ rfl)
  split
  · simp [sample, F.CORR_STATUS_LAMP_INVALID]
  · exact .refl

@[simp] theorem correcting_lampGain (c : Int) (z : Nat) :
    Correcting ch s0 (s.lampGain g c ch z) ↔ Correcting ch s0 s := by
  have gain (v : Nat) : Correcting ch s0 (s.setF (corrB ch) (F.LAMP_GAIN_GAIN.nth z) v) ↔ Correcting ch s0 s :=
    correcting_setF v rfl
  unfold State.lampGain
  dsimp only
  split
  · rfl
  · split <;> simp [gain]

@[simp] theorem correcting_lampCourse : Correcting ch s0 (s.lampCourse g ch k) ↔ Correcting ch s0 s := by
  simp [State.lampCourse]

/-! ### Statistics (R176, R178) -/

@[simp] theorem correcting_statClose (kind last : Nat) (st : Stat) :
    Correcting ch s0 (s.statClose ch kind last st) ↔ Correcting ch s0 s := by
  have push (id : Nat) (item : List Byte) : Correcting ch s0 (s.ringPush id item).1 ↔ Correcting ch s0 s :=
    (Quiet.correcting (ringPush_quiet _ _ _ (.refl s))).iff
  simp [State.statClose, push, F.STAT_DROP_COUNT]

@[simp] theorem correcting_statCourse (kind : Nat) (acc : Option Stat) (line : Option Line) (spare : Bool) (pix : List Pix) :
    Correcting ch s0 (s.statCourse ch kind k acc line spare pix).1 ↔ Correcting ch s0 s := by
  unfold State.statCourse
  dsimp only
  repeat' split
  all_goals simp

@[simp] theorem correcting_statEnd (last : Nat) : Correcting ch s0 (s.statEnd ch last) ↔ Correcting ch s0 s := by
  unfold State.statEnd
  extract_lets x fin t _
  have closed (kind : Nat) (o : Option Stat) (r : State) : Correcting ch s0 (fin kind o r) ↔ Correcting ch s0 r := by
    cases o with
    | none => rfl
    | some st => simp [fin]
  exact (correcting_setCh _ (by rfl)).trans ((closed 2 x.statCor _).trans (closed 1 x.statRaw s))

@[simp] theorem correcting_gaugeReq (c temp : Int) (pages : List Nat) :
    Correcting ch s0 (s.gaugeReq ch c temp pages) ↔ Correcting ch s0 s := by
  simp [State.gaugeReq, State.gaugePend, F.CORR_STATUS_GAUGE_PEND]

/-! ### Pixels -/

theorem map_snd_indexed {α : Type} (l : List α) : (indexed l).map Prod.snd = l :=
  List.map_snd_zip (by simp)

/-- A pixel that is masked already goes through flat field and lamp gain unchanged (R145). -/
theorem corrLine_of_masked (ff lamp : Bool) (tab : List (Int × Nat)) (knots : List (Nat × Nat)) (bad : List Nat) (fill : Nat)
    {line : List Pix} (h : ∀ e ∈ line, e.2 = true) : (corrLine ff lamp tab knots bad fill line).1 = line := by
  have masked : ∀ e ∈ indexed line, e.2.2 = true := fun e he => h e.2 (List.of_mem_zip he).2
  conv_rhs => rw [← map_snd_indexed line]
  rw [corrLine, List.map_map]
  exact List.map_congr_left fun e he => by simp [masked e he]

/-- The correction of a course ends with its line in the queue of the seam engine (R144). A course without a line comes out as it
was filled, where no defective pixel is replaced: its pixels are masked, which no later step changes (R145). -/
theorem correctCourse_eq (ecc : List Nat) : ∃ u pix, s.correctCourse g ch k ecc =
    u.setCh ch { u.ch ch with out := (u.ch ch).out ++ [(k, pix)], next := k + 1 } ∧ Correcting ch s u ∧
      ((s.ch ch).lines.find? (fun l => l.course == k && !l.missing) = none →
        s.flagK g (Int.ofNat k) (corrB ch) F.CORR_CTRL_DPR_EN = false → pix = s.ingestPix g k ch none) := by
  unfold State.correctCourse
  extract_lets b kk x member opened line spare lamped pix rawTap tapped fill dpr used ordered pix3 ff lamp bad table
    counted _ pooled requested kn knotted out clamped corTap finished _ blocks marked _
  have begun : Correcting ch s lamped := by simp [lamped, opened]
  have replaced : Correcting ch s ordered := by
    simp [ordered, used, tapped, rawTap, b, begun, F.CORR_STATUS_DPR_ORDER, F.DPR_USED_USED]
  have noted : Correcting ch s pooled :=
    (correcting_setCh _ (by rfl)).2 (by simp [counted, b, replaced, F.GAUGE_ECC_COUNT])
  have corrected : Correcting ch s finished := by
    simp [finished, corTap, clamped, knotted, requested, b, noted, replaced, F.CORR_STATUS_LAMP_ORDER, F.CLAMP_LO_COUNT,
      F.CLAMP_HI_COUNT]
  have closed : Correcting ch s blocks := by
    refine correcting_ite.2 ?_
    split
    · exact (correcting_setCh _ (by rfl)).2 corrected
    · simp [corrected]
  refine ⟨marked, out.1, rfl, by simp [marked, closed], fun noLine off => ?_⟩
  have missing : line = none := by simp [line, x, noLine]
  have filled : pix = s.ingestPix g k ch none := (congrArg _ missing).trans begun.ingestPix_none
  have unreplaced : pix3 = pix := by
    have off' : ordered.flagK g kk b F.CORR_CTRL_DPR_EN = false := (replaced.flagK_eq rfl _).trans off
    simp [pix3, off']
  rw [← filled, ← unreplaced]
  refine corrLine_of_masked _ _ _ _ _ _ fun e he => ?_
  rw [unreplaced, filled] at he
  exact congrArg Prod.snd (List.eq_of_mem_replicate he)

end Correction

section CourseRows
variable {s : State} {ch : Fin 128} {g : Nat}

theorem exec_channelCourseStart (hg : s.workGroup ch = some g) (ecc : List Nat) :
    exec (.channelCourseStart ch ecc) s = .next (if s.mayStart g ch (s.ch ch).next then
      (s.capLine g ch (s.ch ch).next).correctCourse g ch (s.ch ch).next ecc else s) := by
  simp only [exec, execChannelCourseStart, hg]

theorem exec_channelCourseStart_without_group (h : s.workGroup ch = none) (ecc : List Nat) :
    exec (.channelCourseStart ch ecc) s = .next s := by
  simp only [exec, execChannelCourseStart, h]

/-- A course that may start is captured and corrected; nothing of it touches a group or a lane. -/
theorem channelCourseStart_corrects (hg : s.workGroup ch = some g) (hm : s.mayStart g ch (s.ch ch).next = true)
    (ecc : List Nat) :
    ∃ t pix, exec (.channelCourseStart ch ecc) s = .next t ∧ (t.ch ch).next = (s.ch ch).next + 1 ∧
      (t.ch ch).out = (s.ch ch).out ++ [((s.ch ch).next, pix)] ∧ t.grp = s.grp ∧ t.lane = s.lane ∧
      ((s.ch ch).lines.find? (fun l => l.course == (s.ch ch).next && !l.missing) = none →
        s.flagK g (Int.ofNat (s.ch ch).next) (corrB ch) F.CORR_CTRL_DPR_EN = false →
        pix = s.ingestPix g (s.ch ch).next ch none) := by
  set k := (s.ch ch).next
  have captured : Correcting ch s (s.capLine g ch k) := correcting_capLine.2 .refl
  have lines : ((s.capLine g ch k).ch ch).lines = (s.ch ch).lines := congrArg Chan.lines (Part.same.ch_eq (by simp) _)
  obtain ⟨u, pix, runs, kept, fills⟩ := correctCourse_eq (s := s.capLine g ch k) (g := g) (ch := ch) (k := k) ecc
  rw [lines, captured.flagK_eq rfl, captured.ingestPix_none] at fills
  refine ⟨_, pix, (exec_channelCourseStart hg ecc).trans (congrArg _ (if_pos hm)), ?_, ?_, Part.same.grp_eq (by simp),
    Part.same.lane_eq (by simp), fills⟩
  · rw [runs, ch_setCh, if_pos rfl]
  · rw [runs, ch_setCh, if_pos rfl, kept.out, captured.out]

end CourseRows

/-! ## The gauge engine -/

section Gauge
variable {s : State} {ch : Nat} {f : Fld}

/-- The registers of correction lie in the channel's window, above those of the link. -/
theorem key_corr : f.key (corrB ch) = ({ f with off := f.off + 0x8000 } : Fld).key (ingB ch) := by
  simp only [Fld.key, corrB, ingB]
  omega

theorem prot_corr (hf : f.off < 0x8000 ∧ f.lo < 64) : prot (f.key (corrB ch)) = true := by
  rw [key_corr]
  exact prot_ing (Fld.inIng_iff.2 ⟨by simpa using Nat.add_lt_add_right hf.1 0x8000, hf.2⟩)

/-- What a channel's GAUGE_PEND reads once it has been shown (R183). -/
theorem gaugePend_shown : (s.gaugePend ch).getF (corrB ch) F.CORR_STATUS_GAUGE_PEND =
    if (s.ch ch).running.isSome || (s.ch ch).pendingReq.isSome then 1 else 0 := by
  rw [State.gaugePend, getF_setF_of_lt]
  split <;> decide

@[simp] theorem ch_gaugePend (m : Nat) : (s.gaugePend ch).ch m = s.ch m := Part.same.ch_eq (by simp) m

theorem single_gaugePend : (s.gaugePend ch).flag (corrB ch) F.CORR_CTRL_GAUGE_SINGLE =
    s.flag (corrB ch) F.CORR_CTRL_GAUGE_SINGLE :=
  congrArg (· == 1) (getF_setF_ne _ _ _ _ _ _ fun h => absurd ((key_inj _ _ _ (by decide) (by decide)).1 h).1 (by decide))

/-- The log writes no register of a channel, so a flag of correction that is raised and logged stands. -/
theorem getF_raise_logReg_corr (hf : f.off < 0x8000 ∧ f.lo < 64) (p unit grp addr : Nat) (code : LogCode) :
    ((s.raise (corrB ch) f p).logReg code unit grp addr).getF (corrB ch) f = 1 := by
  rw [(logReg_quiet _ _ _ _ _ (.refl _)).getF _ _ (prot_corr hf), getF_raise_self]

@[simp] theorem ch_gaugeFail (e : GaugeErr) (m : Nat) : (s.gaugeFail ch e).ch m = s.ch m := Part.same.ch_eq (by simp) m

@[simp] theorem ch_gaugeCompute (sel : Nat) (temp : Option Int) (m : Nat) : (s.gaugeCompute ch sel temp).1.ch m = s.ch m :=
  Part.same.ch_eq (by simp) m

/-- The request that an engine takes next waits on its channel (R165). -/
theorem pendingReq_of_nextGauge {r : Nat} {c : Int} (h : s.nextGauge r = some (c, ch)) :
    ∃ q, (s.ch ch).pendingReq = some q := by
  have waits : ∀ e, s.nextGauge r = some e → ∃ q, (s.ch e.2).pendingReq = some q := by
    unfold State.nextGauge
    refine List.foldlRecOn (motive := fun a : Option (Int × Nat) => ∀ e, a = some e → ∃ q, (s.ch e.2).pendingReq = some q)
      _ _ (fun e he => nomatch he) fun a ih i _ => ?_
    split
    · exact ih
    next q hq =>
      split
      next b =>
        split
        · rintro _ ⟨rfl⟩
          exact ⟨q, hq⟩
        · exact ih
      · rintro _ ⟨rfl⟩
        exact ⟨q, hq⟩
  exact waits _ h

/-! ### The end of a job (R158, R166, R169) -/

/-- What a channel gets from a job that ends with a table: in single mode the rewrite of the request's pages, else the table. -/
def State.gaugeResult (s : State) (ch : Nat) (q : GaugeReq) (tab : GaugeTab) (x : Chan) : Chan :=
  if s.flag (corrB ch) F.CORR_CTRL_GAUGE_SINGLE then { x with rewrite := some q.pages } else { x with done := some tab }

theorem gaugeResult_of_single (h : s.flag (corrB ch) F.CORR_CTRL_GAUGE_SINGLE = true) (q : GaugeReq) (tab : GaugeTab)
    (x : Chan) : s.gaugeResult ch q tab x = { x with rewrite := some q.pages } := if_pos h

theorem gaugeResult_of_double (h : s.flag (corrB ch) F.CORR_CTRL_GAUGE_SINGLE = false) (q : GaugeReq) (tab : GaugeTab)
    (x : Chan) : s.gaugeResult ch q tab x = { x with done := some tab } := if_neg (Bool.eq_false_iff.1 h)

/-- The state after a computation: its flag where it was abandoned, else what the channel gets from its table. -/
def State.gaugeEnds (ch : Nat) (result : GaugeTab → Chan → Chan) (r : State × Except GaugeErr GaugeTab) : State :=
  match r.2 with
  | .error e => r.1.gaugeFail ch e
  | .ok tab => r.1.setCh ch (result tab (r.1.ch ch))

theorem ch_gaugeEnds_of_ok {result : GaugeTab → Chan → Chan} {r : State × Except GaugeErr GaugeTab} {tab : GaugeTab}
    (h : r.2 = .ok tab) : (State.gaugeEnds ch result r).ch ch = result tab (r.1.ch ch) := by
  rw [State.gaugeEnds, h, ch_setCh, if_pos rfl]

theorem gaugeEnds_of_error {result : GaugeTab → Chan → Chan} {r : State × Except GaugeErr GaugeTab} {e : GaugeErr}
    (h : r.2 = .error e) : State.gaugeEnds ch result r = r.1.gaugeFail ch e := by
  rw [State.gaugeEnds, h]

end Gauge

section GaugeRows
variable {s u : State} {r : Fin 8} {ch : Nat}

/-- An idle engine starts its next job, which then runs and waits no more (R165). -/
theorem gaugeJobStart_takes {c : Int} (idle : s.gaugeBusy r = none) (next : s.nextGauge r = some (c, ch)) :
    ∃ t, exec (.gaugeJobStart r) s = .next t ∧
      (t.ch ch).running = (s.ch ch).pendingReq.map (fun q => { q with sel := s.getF (corrB ch) F.GAUGE_CFG_SEL }) ∧
      (t.ch ch).pendingReq = none ∧ (t.ch ch).gauges = (s.ch ch).gauges ∧
      t.getF (corrB ch) F.CORR_STATUS_GAUGE_PEND = 1 := by
  obtain ⟨q, hq⟩ := pendingReq_of_nextGauge next
  simp only [exec, execGaugeJobStart, idle, next, Host.Outcome.next.injEq, exists_eq_left']
  simp [gaugePend_shown, hq]

theorem exec_gaugeJobStart_stays (h : s.gaugeBusy r ≠ none ∨ s.nextGauge r = none) : exec (.gaugeJobStart r) s = .next s := by
  simp only [exec, execGaugeJobStart]
  rcases h with busy | empty
  · obtain ⟨ch, hch⟩ := Option.ne_none_iff_exists'.1 busy
    simp only [hch]
  · cases s.gaugeBusy r <;> simp only [empty]

theorem exec_gaugeJobComplete_idle (h : s.gaugeBusy r = none) : exec (.gaugeJobComplete r) s = .next s := by
  simp only [exec, execGaugeJobComplete, h]

/-- The end of a job computes its table, in single mode that in force again (R164, R168, R169). -/
theorem exec_gaugeJobComplete {q : GaugeReq} {cur : GaugeTab} (busy : s.gaugeBusy r = some ch)
    (runs : (s.ch ch).running = some q) (hu : u = (s.setCh ch { s.ch ch with running := none }).gaugePend ch)
    (hcur : cur = ((s.ch ch).gauges.head?.map (·.2)).getD {}) :
    exec (.gaugeJobComplete r) s = .next (State.gaugeEnds ch (s.gaugeResult ch q)
      (if s.flag (corrB ch) F.CORR_CTRL_GAUGE_SINGLE then u.gaugeCompute ch cur.sel (some cur.temp)
        else u.gaugeCompute ch q.sel (some q.temp))) := by
  have mode : u.flag (corrB ch) F.CORR_CTRL_GAUGE_SINGLE = s.flag (corrB ch) F.CORR_CTRL_GAUGE_SINGLE := by
    rw [hu, single_gaugePend]
    rfl
  simp only [exec, execGaugeJobComplete, busy, runs]
  rw [← hu, ← hcur, mode]
  by_cases single : s.flag (corrB ch) F.CORR_CTRL_GAUGE_SINGLE = true
  · simp only [if_pos single, State.gaugeEnds, State.gaugeResult] <;> rfl
  · simp only [if_neg single, State.gaugeEnds, State.gaugeResult] <;> rfl

end GaugeRows
end Sys2Proof.Machine

namespace Sys2Proof.Proofs

open Sys2Proof.Machine

/-- Settles O32: the length of the lines, the fields that govern the course and the queue of the seam engine are kept by every
step of its correction (`Correcting`). -/
theorem channelCourse : Obligations.ChannelCourse := by
  unfold Obligations.ChannelCourse
  rintro s ch ecc k rfl
  exact ⟨fun g hg hm => channelCourseStart_corrects hg hm ecc, fun h => exec_channelCourseStart_without_group h ecc,
    fun g hg hm => (exec_channelCourseStart hg ecc).trans (congrArg _ (if_neg (Bool.eq_false_iff.1 hm)))⟩

/-- Settles O33: a job that ends runs no longer, whatever its computation answers, and what the channel gets is then that of a
table or of an error. -/
theorem gaugeJobs : Obligations.GaugeJobs := by
  unfold Obligations.GaugeJobs
  intro s r
  refine ⟨fun c ch idle next => gaugeJobStart_takes idle next, exec_gaugeJobStart_stays, exec_gaugeJobComplete_idle, ?_⟩
  intro ch q u cur c busy runs hu hcur hc
  set computed := if s.flag (corrB ch) F.CORR_CTRL_GAUGE_SINGLE then u.gaugeCompute ch cur.sel (some cur.temp)
    else u.gaugeCompute ch q.sel (some q.temp) with hcomputed
  have idle : computed.1.ch ch = { s.ch ch with running := none } := by
    have hch : u.ch ch = { s.ch ch with running := none } := by simp [hu]
    rw [hcomputed]
    split <;> rw [ch_gaugeCompute, hch]
  refine ⟨_, exec_gaugeJobComplete busy runs hu hcur, ?_⟩
  rw [← hcomputed]
  rw [hc]
  cases hres : computed.2 with
  | ok tab =>
    rw [ch_gaugeEnds_of_ok hres, idle]
    cases mode : s.flag (corrB ch) F.CORR_CTRL_GAUGE_SINGLE with
    | false => simp [gaugeResult_of_double mode]
    | true => simp [gaugeResult_of_single mode]
  | error e =>
    rw [gaugeEnds_of_error hres, ch_gaugeFail, idle]
    refine ⟨rfl, rfl, nofun, ?_⟩
    rintro _ ⟨rfl⟩
    refine ⟨rfl, rfl, ?_⟩
    cases e with
    | bad => exact getF_raise_logReg_corr (by decide) ..
    | crc => exact getF_raise_logReg_corr (by decide) ..
    | memerr => exact getF_raise_logReg_corr (by decide) ..

end Sys2Proof.Proofs

/-! # The seam engine (O34) -/

namespace Sys2Proof.Machine

section Seam
variable {s t : State} {g ch k m b : Nat} {f : Fld}

/-! ## The records of the seam engine, and the runs of the groups -/

theorem Part.same.sm_eq (h : Part.seam.same s t) (m : Nat) : t.sm m = s.sm m := congrArg (Tab.get ({} : SeamCh) m) h

theorem Part.same.smG_eq (h : Part.seamG.same s t) (m : Nat) : t.smG m = s.smG m := congrArg (Tab.get ({} : SeamGrp) m) h

theorem runChans_congr (hfirst : t.runFirst g = s.runFirst g) (hcount : t.runCount g = s.runCount g) :
    t.runChans g = s.runChans g := by
  simp only [State.runChans, hfirst, hcount]

theorem inRun_congr (hfirst : t.runFirst g = s.runFirst g) (hcount : t.runCount g = s.runCount g) :
    t.inRun g ch = s.inRun g ch := by
  simp only [State.inRun, hfirst, hcount]

/-- A field of the hub below the fault manager, where neither the log nor a seam's own registers lie. -/
def Fld.low (f : Fld) (b : Nat) : Bool := decide (b + f.off < 0xE0000) && decide (f.lo < 64)

theorem Fld.low_iff : f.low b = true ↔ b + f.off < 0xE0000 ∧ f.lo < 64 := by simp [Fld.low]

theorem low_gseam (hg : g < 16) (ho : f.off < 0x100) (hl : f.lo < 64) : f.low (gseamB g) = true := by
  rw [Fld.low_iff, gseamB]
  omega

theorem prot_of_low (h : f.low b = true) : prot (f.key b) = true := by
  rw [Fld.low_iff] at h
  have haddr : f.key b / 64 = b + f.off := by
    simp only [Fld.key]
    omega
  simp [prot, haddr, h.1]

theorem key_ne_seam (h : f.low b = true) (f' : Fld) : f.key b ≠ f'.key (seamB ch) := by
  rw [Fld.low_iff] at h
  simp only [Fld.key, seamB, chB]
  omega

/-! ## What registration leaves of the hub's registers

Each operation writes registers of its seam, and those of the log. -/

theorem getF_setF_seam (h : f.low b = true) (f' : Fld) (v : Nat) : (s.setF (seamB ch) f' v).getF b f = s.getF b f :=
  getF_setF_ne _ _ _ _ _ _ (key_ne_seam h f')

theorem getF_raise_seam (h : f.low b = true) (f' : Fld) (n : Nat) : (s.raise (seamB ch) f' n).getF b f = s.getF b f :=
  getF_raise_ne _ _ _ _ _ _ (key_ne_seam h f')

theorem getF_logReg_low (h : f.low b = true) (code : LogCode) (unit grp addr : Nat) :
    (s.logReg code unit grp addr).getF b f = s.getF b f :=
  (logReg_quiet _ _ _ _ _ (.refl s)).getF _ _ (prot_of_low h)

theorem getF_seamTo (h : f.low b = true) (st : Nat) : (s.seamTo ch st).getF b f = s.getF b f := by
  simp only [State.seamTo, getF_ite, getF_raise_seam h, getF_setF_seam h, ite_self]

theorem getF_setOff (h : f.low b = true) (keep : Bool) (d : Int × Int) : (s.setOff ch k keep d).getF b f = s.getF b f := by
  simp only [State.setOff, State.setI, getF_setF_seam h]
  rfl

theorem getF_evalSeam (h : f.low b = true) (c len : Nat) : (s.evalSeam g ch c len).1.getF b f = s.getF b f := by
  unfold State.evalSeam
  extract_lets w gb cc x r sc pk q scored r' emin was run counted held hm lost px py ex ey mx my edged placed gain acq track
    lx ly st ended moved
  have hscored : scored.getF b f = s.getF b f := getF_setF_seam h ..
  have hheld : held.getF b f = s.getF b f :=
    (getF_seamTo h 3).trans ((getF_setF_seam h ..).trans ((getF_setF_seam h ..).trans hscored))
  have hlost : lost.getF b f = s.getF b f := by
    simp only [lost, getF_ite, getF_logReg_low h, w, getF_raise_seam h, hheld, ite_self]
  have hedged : edged.getF b f = s.getF b f := by
    simp only [edged, getF_ite, State.mark, w, getF_setF_seam h, hscored, ite_self]
  have hended : ended.getF b f = s.getF b f :=
    (getF_setF_seam h ..).trans ((getF_setF_seam h ..).trans ((getF_setF_seam h ..).trans hedged))
  have hmoved : moved.getF b f = s.getF b f := by
    simp only [moved, getF_ite, getF_seamTo h, hended, ite_self]
  split
  · exact getF_setF_seam h ..
  · split
    · exact hlost
    · exact hmoved

theorem getF_evalSeams (h : f.low b = true) (c len : Nat) (L : List Nat) :
    (s.evalSeams g c len L).1.getF b f = s.getF b f := by
  induction L generalizing s with
  | nil => rfl
  | cons ch L ih => exact ih.trans (getF_evalSeam h c len)

/-! ## The end of a block (R204) -/

/-- Every sum of the channels that a loop clears is empty after it. -/
theorem sm_forL_clear (L : List Nat) : ∀ ch ∈ L,
    ((forL L (fun ch t => t.setSm ch (t.sm ch).clear) s).sm ch).score = [] ∧
      ((forL L (fun ch t => t.setSm ch (t.sm ch).clear) s).sm ch).n = 0 := by
  refine forL_reaches (P := fun ch u => (u.sm ch).score = [] ∧ (u.sm ch).n = 0) ?_ ?_ L s
  · intro ch u
    simp [SeamCh.clear]
  · intro ch m u h
    by_cases e : ch = m
    · simp [e, SeamCh.clear]
    · simpa [e] using h

/-- The end of a block evaluates its seams and moves the cameras (`v`), empties the sums of the run and writes the ring (`u`),
and starts the next block. -/
theorem blockEnd_eq (hg : g < 16) : ∃ v u : State, s.blockEnd g k =
    u.setSmG g { u.smG g with block := k, lostL := false, lostR := false } ∧ v.runChans g = s.runChans g ∧
      u.seam = (forL (v.runChans g) (fun ch t => t.setSm ch (t.sm ch).clear) v).seam ∧ u.seamG = s.seamG := by
  unfold State.blockEnd
  extract_lets c x seams ev evaluated off lim ranged moved cleared shown pushed closed
  have runs : ∀ f : Fld, f.low (gseamB g) = true → moved.getF (gseamB g) f = s.getF (gseamB g) f := by
    intro f h
    have hmoved : moved.getF (gseamB g) f = ranged.getF (gseamB g) f :=
      getF_forL _ fun p t => by simp only [getF_ite, getF_setOff h, ite_self]
    have hranged : ranged.getF (gseamB g) f = evaluated.getF (gseamB g) f :=
      getF_forL _ fun r t => by simp only [getF_ite, getF_raise_seam h, ite_self]
    exact hmoved.trans (hranged.trans (getF_evalSeams h _ _ _))
  refine ⟨moved, closed, rfl, ?_, ?_, ?_⟩
  · exact runChans_congr (runs _ (low_gseam hg (by decide) (by decide))) (runs _ (low_gseam hg (by decide) (by decide)))
  · have kept : Part.seam.same cleared closed := by simp [closed, pushed, shown]
    exact kept
  · have kept : Part.seamG.same s closed := by simp [closed, pushed, shown, cleared, moved, ranged, evaluated, ev]
    exact kept

/-! ## The output of a course (R215) -/

/-- What follows the row of a course (selvages, halo, slots, the course status word) leaves the channels' seam stages alone. -/
theorem seamCourse_eq : ∃ (u : State) (row : List Pix) (n : Nat), 0 < n ∧ Part.seam.same (u.setSm ch { u.sm ch with
    next := k + 1
    rows := ((k, row) :: (u.sm ch).rows).take n }) (s.seamCourse g ch k) := by
  unfold State.seamCourse
  extract_lets b kk opened o own left counted a ranged row measured x put searched waited freed trimmed
  refine ⟨measured, row, max 128 (k + 1 - (measured.smG g).selv), by omega, ?_⟩
  show Part.seam.same put _
  simp [trimmed, freed, waited, searched]

/-- A course that a channel has output stands newest in its rows, and the next one follows. -/
theorem sm_seamCourse : ((s.seamCourse g ch k).sm ch).next = k + 1 ∧
    ∃ row, ((s.seamCourse g ch k).sm ch).rows.head? = some (k, row) := by
  obtain ⟨u, row, n, hn, kept⟩ := seamCourse_eq (s := s) (g := g) (ch := ch) (k := k)
  rw [kept.sm_eq, sm_setSm, if_pos rfl]
  exact ⟨rfl, row, by simp [List.head?_take, hn.ne']⟩

/-! ## The stop of groups (R216) -/

/-- A group once it has been told to stop: an armed one is stopped, a running one drains up to its open course (R382). -/
def Grp.stopped (x : Grp) : Grp :=
  if x.st = 1 then { x with st := 0 } else if x.st = 2 then { x with st := 3, last := x.openC, dueC := none } else x

theorem Grp.stopped_of_running {x : Grp} (h : x.st = 2) : x.stopped = { x with st := 3, last := x.openC, dueC := none } := by
  simp [Grp.stopped, h]

theorem g_disarm : (s.disarm g).g m = if m = g then { s.g g with st := 0 } else s.g m := by
  have kept : Part.grp.same (s.setG g { s.g g with st := 0 }) (s.disarm g) := by simp [State.disarm]
  rw [kept.g_eq, g_setG]

/-- The stop of one group touches the record of no other. -/
theorem g_groupStop : (s.groupStop g).g m = if m = g then (s.g g).stopped else s.g m := by
  unfold State.groupStop Grp.stopped
  split
  · exact g_disarm
  split
  next idle =>
    have notRunning : (s.g g).st ≠ 2 := by simpa [State.running] using idle
    rw [if_neg notRunning]
    split
    next same => rw [same]
    · rfl
  next runs =>
    extract_lets cancelled viewed x stopping drains written consumed lanes seg
    have running : (s.g g).st = 2 := by simpa [State.running] using runs
    have before : Part.grp.same s viewed := by simp [viewed, cancelled]
    have after : Part.grp.same stopping (seg.viewsGroup g false) := by simp [seg, lanes, consumed, written, drains]
    rw [if_pos running, after.g_eq, g_setG, ← before.g_eq, ← before.g_eq]

theorem groupStop_of_stopped (h : (s.g g).st = 0) : s.groupStop g = s := by
  simp [State.groupStop, State.running, h]

theorem g_forL_groupStop (L : List Nat) (distinct : L.Nodup) :
    (forL L (fun g t => t.groupStop g) s).g m = if m ∈ L then (s.g m).stopped else s.g m := by
  induction L generalizing s with
  | nil => rfl
  | cons g L ih =>
    obtain ⟨fresh, distinct⟩ := List.nodup_cons.1 distinct
    refine (ih distinct).trans ?_
    rw [g_groupStop]
    by_cases e : m = g
    · subst e
      simp [fresh]
    · simp [e]

theorem g_stopGroups (p : Nat → Bool) :
    (s.stopGroups p).g m = if m < 16 ∧ p m = true then (s.g m).stopped else s.g m := by
  rw [State.stopGroups, g_forL_groupStop _ (List.nodup_range.filter p)]
  simp

theorem stopGroups_of_stopped (h : ∀ g < 16, (s.g g).st = 0) (p : Nat → Bool) : s.stopGroups p = s := by
  have fixed (L : List Nat) : (∀ g ∈ L, (s.g g).st = 0) → forL L (fun g t => t.groupStop g) s = s := by
    induction L with
    | nil => exact fun _ => rfl
    | cons g L ih =>
      intro hL
      obtain ⟨hd, tl⟩ := List.forall_mem_cons.1 hL
      exact (congrArg (forL L _) (groupStop_of_stopped hd)).trans (ih tl)
  exact fixed _ fun g hg => h g (List.mem_range.1 (List.mem_filter.1 hg).1)

/-! ## A fault of a seam link (R216, R480) -/

/-- The log writes no register of a die link. -/
theorem prot_dieLink {l : Nat} (hl : l < 16) : prot (F.LINK_STATUS_FAULT_EV.key (dlB l)) = true := by
  have haddr : F.LINK_STATUS_FAULT_EV.key (dlB l) / 64 = dlB l := by
    simp only [Fld.key, F.LINK_STATUS_FAULT_EV]
    omega
  have hplace : 0x190000 ≤ dlB l ∧ dlB l < 0x10000000 := by
    rw [dlB]
    omega
  simp [prot, haddr, hplace]

/-- The state in which the die link that joins two loom dies has shown its fault. -/
def State.seamLinkShown (s : State) (ch : Nat) : State :=
  if ch % 32 == 31 then s.raise (dlB (4 + ch / 32)) F.LINK_STATUS_FAULT_EV 0xDF else s

/-- The state in which the groups that use the link have stopped. -/
def State.seamLinkStopped (s : State) (ch : Nat) : State :=
  (s.seamLinkShown ch).stopGroups fun g => (s.seamLinkShown ch).inRun g ch && (s.seamLinkShown ch).inRun g (ch + 1)

theorem inRun_seamLinkShown (hg : g < 16) : (s.seamLinkShown ch).inRun g m = s.inRun g m := by
  have kept (f : Fld) (ho : f.off < 0x100) (hl : f.lo < 64) :
      (s.seamLinkShown ch).getF (gseamB g) f = s.getF (gseamB g) f := by
    unfold State.seamLinkShown
    split
    · refine getF_raise_ne _ _ _ _ _ _ ?_
      simp only [Fld.key, gseamB, dlB]
      omega
    · rfl
  exact inRun_congr (kept _ (by decide) (by decide)) (kept _ (by decide) (by decide))

theorem g_seamLinkShown : (s.seamLinkShown ch).g m = s.g m := Part.same.g_eq (by simp [State.seamLinkShown]) m

theorem g_seamLinkStopped (hg : g < 16) : (s.seamLinkStopped ch).g g =
    if s.inRun g ch = true ∧ s.inRun g (ch + 1) = true then (s.g g).stopped else s.g g := by
  rw [State.seamLinkStopped, g_stopGroups, inRun_seamLinkShown hg, inRun_seamLinkShown hg, g_seamLinkShown]
  simp [hg]

end Seam

section SeamRows
variable {s : State} {ch : Fin 128} {g : Nat}

theorem exec_seamOutputStart (hg : s.workGroup ch = some g) : exec (.seamOutputStart ch) s =
    .next (if s.pixelsOn ch && s.seamReady g ch (s.sm ch).next then s.seamCourse g ch (s.sm ch).next else s) := by
  simp only [exec, execSeamOutputStart, hg]

/-- Seam output of a course that is ready puts its row first and touches neither a group nor a lane. -/
theorem seamOutputStart_outputs (hg : s.workGroup ch = some g) (on : s.pixelsOn ch = true)
    (ready : s.seamReady g ch (s.sm ch).next = true) :
    ∃ t row, exec (.seamOutputStart ch) s = .next t ∧ (t.sm ch).next = (s.sm ch).next + 1 ∧
      (t.sm ch).rows.head? = some ((s.sm ch).next, row) ∧ t.grp = s.grp ∧ t.lane = s.lane := by
  obtain ⟨next, row, rows⟩ := sm_seamCourse (s := s) (g := g) (ch := ch) (k := (s.sm ch).next)
  exact ⟨_, row, (exec_seamOutputStart hg).trans (congrArg _ (if_pos (by rw [on, ready, Bool.and_self]))), next, rows,
    Part.same.grp_eq (by simp), Part.same.lane_eq (by simp)⟩

theorem exec_seamOutputStart_waits (hg : s.workGroup ch = some g)
    (h : s.pixelsOn ch = false ∨ s.seamReady g ch (s.sm ch).next = false) : exec (.seamOutputStart ch) s = .next s := by
  rw [exec_seamOutputStart hg]
  rcases h with h | h <;> simp [h]

/-- The end of a block of a group that runs or drains starts the next block at the course that the group opens next. -/
theorem regBlockEnd_starts_block {g : Fin 16}
    (hst : ((s.g g).st = 2 ∧ Int.ofNat (s.smG g).next ≤ s.stampG g) ∨ (s.g g).st = 3)
    (due : s.blockDue g (s.smG g).next = true) (done : s.seamDone g ((s.smG g).next - 1) = true) :
    ∃ t, exec (.regBlockEnd g) s = .next t ∧ (t.smG g).block = (s.smG g).next ∧ (t.smG g).next = (s.smG g).next ∧
      (t.smG g).lostL = false ∧ (∀ ch ∈ s.runChans g, (t.sm ch).score = [] ∧ (t.sm ch).n = 0) ∧ t.grp = s.grp := by
  have acts : ((s.g g).st = 2 ∨ (s.g g).st = 3) ∧ (Int.ofNat (s.smG g).next ≤ s.stampG g ∨ (s.g g).st = 3) ∧
      s.blockDue g (s.smG g).next = true ∧ s.seamDone g ((s.smG g).next - 1) = true := by
    rcases hst with ⟨runs, known⟩ | drains
    · exact ⟨.inl runs, .inl known, due, done⟩
    · exact ⟨.inr drains, .inr drains, due, done⟩
  obtain ⟨v, u, ends, run, cleared, group⟩ := blockEnd_eq (s := s) (k := (s.smG g).next) g.isLt
  have ends' : exec (.regBlockEnd g) s = .next (s.blockEnd g (s.smG g).next) := by
    simp only [exec, execRegBlockEnd, if_pos acts]
  refine ⟨_, ends', ?_, ?_, ?_, ?_, Part.same.grp_eq (by simp)⟩
  · simp [ends]
  · simp [ends, Part.same.smG_eq group]
  · simp [ends]
  · intro ch hch
    have kept : (s.blockEnd g (s.smG g).next).sm ch =
        (forL (v.runChans g) (fun ch t => t.setSm ch (t.sm ch).clear) v).sm ch := by
      rw [ends]
      exact Part.same.sm_eq cleared ch
    rw [kept]
    exact sm_forL_clear _ ch (run ▸ hch)

theorem exec_regBlockEnd_not_due {g : Fin 16} (h : s.blockDue g (s.smG g).next = false) :
    exec (.regBlockEnd g) s = .next s := by
  simp [exec, execRegBlockEnd, h]

theorem exec_seamLinkFault_last (h : ch.val = 127) : exec (.seamLinkFault ch) s = .next s := by
  simp [exec, execSeamLinkFault, h]

/-- What follows the stops is the log entry. -/
theorem exec_seamLinkFault (h : ch.val ≠ 127) : exec (.seamLinkFault ch) s =
    .next (if ch.val % 32 == 31 then
      (s.seamLinkStopped ch).logAs .seamLink 3 3 (4 + ch / 32) 0xFF ((s.seamLinkStopped ch).payReg (dlB (4 + ch / 32)))
    else (s.seamLinkStopped ch).log .seamLink (ch / 4) 0xFF []) := by
  simp only [exec, execSeamLinkFault, if_neg h]
  rfl

/-- The groups whose run holds both channels of a link stop with its fault, and no other. -/
theorem seamLinkFault_stops (h : ch.val ≠ 127) : ∃ t, exec (.seamLinkFault ch) s = .next t ∧
    (∀ g < 16, t.g g = if s.inRun g ch = true ∧ s.inRun g (ch.val + 1) = true then (s.g g).stopped else s.g g) ∧
    ((∀ g < 16, (s.g g).st = 0) → ch.val % 32 = 31 →
      t.getF (dlB (4 + ch.val / 32)) F.LINK_STATUS_FAULT_EV = 1) := by
  refine ⟨_, exec_seamLinkFault h, ?_, ?_⟩
  · intro g hg
    rw [Part.same.g_eq (s := s.seamLinkStopped ch) (by simp), g_seamLinkStopped hg]
  · intro idle die
    have shown : s.seamLinkShown ch = s.raise (dlB (4 + ch / 32)) F.LINK_STATUS_FAULT_EV 0xDF := by
      simp [State.seamLinkShown, die]
    have stands : s.seamLinkStopped ch = s.seamLinkShown ch :=
      stopGroups_of_stopped (fun g hg => by rw [g_seamLinkShown, idle g hg]) _
    rw [if_pos (by simp [die]), (logAs_quiet _ _ _ _ _ _ _ (.refl _)).getF _ _ (prot_dieLink (by omega)), stands, shown,
      getF_raise_self]

end SeamRows
end Sys2Proof.Machine

namespace Sys2Proof.Proofs

open Sys2Proof.Machine

/-- Settles O34: the registers that say which channels a run holds are written neither by the end of a block nor by the fault of
a link, and what follows a stop, a row or a cleared sum leaves it as it is. -/
theorem seamStage : Obligations.SeamStage := by
  unfold Obligations.SeamStage
  refine ⟨?_, ?_, ?_⟩
  · rintro s ch g k hg rfl
    exact ⟨seamOutputStart_outputs hg, exec_seamOutputStart_waits hg⟩
  · rintro s g k rfl
    exact ⟨regBlockEnd_starts_block, exec_regBlockEnd_not_due⟩
  · intro s ch
    refine ⟨exec_seamLinkFault_last, fun h => ?_⟩
    obtain ⟨t, runs, stops, flagged⟩ := seamLinkFault_stops (s := s) h
    refine ⟨t, runs, fun g hg hst lo hi => ?_, fun g hg out => ?_, flagged⟩
    · rw [stops g hg, if_pos ⟨lo, hi⟩, Grp.stopped_of_running hst]
      exact ⟨rfl, rfl, rfl⟩
    · rw [stops g hg, if_neg]
      rcases out with out | out <;> simp [out]

end Sys2Proof.Proofs

/-! # Segmentation (O35) -/

namespace Sys2Proof.Machine

section Segmentation
variable {s0 s t u : State} {g c : Nat}

/-! ## The records of segmentation -/

theorem Part.same.sg_eq (h : Part.segG.same s t) (m : Nat) : t.sg m = s.sg m := congrArg (Tab.get ({} : SegGrp) m) h

@[simp] theorem sg_incF (b : Nat) (f : Fld) (n m : Nat) : (s.incF b f n).sg m = s.sg m := Part.same.sg_eq (by simp) m

theorem Part.same.mem_eq (h : Part.mem.same s t) : t.mem = s.mem := h

/-- The registers of a group's segmentation lie below the fault manager. -/
theorem low_gseg {f : Fld} (hg : g < 16) (ho : f.off < 0x100) (hl : f.lo < 64) : f.low (gsegB g) = true := by
  rw [Fld.low_iff, gsegB]
  omega

/-! ## What filter, labelling and resolution leave of the queue between them (R243, R246) -/

/-- The labelled courses of a group that wait for its resolution, and the course that it comes to next, are the same. -/
structure SameQueue (g : Nat) (s t : State) : Prop where
  runs : (t.sg g).runs = (s.sg g).runs
  res : (t.sg g).res = (s.sg g).res

@[simp] theorem SameQueue.refl : SameQueue g s s := ⟨rfl, rfl⟩

theorem SameQueue.trans (h : SameQueue g s t) (h' : SameQueue g t u) : SameQueue g s u :=
  ⟨h'.runs.trans h.runs, h'.res.trans h.res⟩

theorem SameQueue.symm (h : SameQueue g s t) : SameQueue g t s := ⟨h.runs.symm, h.res.symm⟩

/-- The form in which `simp` drops an operation from the right of the relation. -/
theorem SameQueue.iff (h : SameQueue g s t) : SameQueue g s0 t ↔ SameQueue g s0 s :=
  ⟨fun k => k.trans h.symm, fun k => k.trans h⟩

/-- An operation that writes no record of segmentation keeps the queue. -/
theorem Part.same.queue_iff (h : Part.segG.same s t) : SameQueue g s0 t ↔ SameQueue g s0 s :=
  SameQueue.iff ⟨congrArg SegGrp.runs (h.sg_eq g), congrArg SegGrp.res (h.sg_eq g)⟩

@[simp] theorem sameQueue_setSg (x : SegGrp) (hruns : x.runs = (s.sg g).runs) (hres : x.res = (s.sg g).res) :
    SameQueue g s0 (s.setSg g x) ↔ SameQueue g s0 s :=
  SameQueue.iff ⟨by simp [hruns], by simp [hres]⟩

@[simp] theorem sameQueue_setF (b : Nat) (f : Fld) (v : Nat) : SameQueue g s0 (s.setF b f v) ↔ SameQueue g s0 s :=
  Part.same.queue_iff (by simp)

@[simp] theorem sameQueue_satF (b : Nat) (f : Fld) (n : Nat) : SameQueue g s0 (s.satF b f n) ↔ SameQueue g s0 s :=
  Part.same.queue_iff (by simp)

@[simp] theorem sameQueue_raise (b : Nat) (f : Fld) (n : Nat) : SameQueue g s0 (s.raise b f n) ↔ SameQueue g s0 s :=
  Part.same.queue_iff (by simp)

@[simp] theorem sameQueue_jrn (ty grp cls src : Nat) (lag stamp : Int) (data : List Byte) :
    SameQueue g s0 (s.jrn ty grp cls src lag stamp data) ↔ SameQueue g s0 s := Part.same.queue_iff (by simp)

@[simp] theorem sameQueue_logReg (code : LogCode) (unit grp addr : Nat) :
    SameQueue g s0 (s.logReg code unit grp addr) ↔ SameQueue g s0 s := Part.same.queue_iff (by simp)

@[simp] theorem sameQueue_memWrite (cls unit a : Nat) (bs : List Byte) :
    SameQueue g s0 (s.memWrite cls unit a bs).1 ↔ SameQueue g s0 s := Part.same.queue_iff (by simp)

@[simp] theorem sameQueue_cswSet (k b : Nat) : SameQueue g s0 (s.cswSet g k b) ↔ SameQueue g s0 s :=
  Part.same.queue_iff (by simp)

@[simp] theorem sameQueue_ite {p : Prop} [Decidable p] {v w : State} :
    SameQueue g s0 (if p then v else w) ↔ if p then SameQueue g s0 v else SameQueue g s0 w := by split <;> rfl

@[simp] theorem sameQueue_ite_fst {α : Type} {p : Prop} [Decidable p] {v w : State × α} :
    SameQueue g s0 (if p then v else w).1 ↔ if p then SameQueue g s0 v.1 else SameQueue g s0 w.1 := by split <;> rfl

@[simp] theorem sameQueue_forL {α : Type} {op : α → State → State} (L : List α) (h : ∀ x v, SameQueue g v (op x v)) :
    SameQueue g s0 (forL L op s) ↔ SameQueue g s0 s :=
  SameQueue.iff (forL_invariant (P := SameQueue g s) (fun x v k => k.trans (h x v)) L .refl)

@[simp] theorem sameQueue_foldl_fst {α β : Type} {op : State × β → α → State × β} (L : List α)
    (h : ∀ q x, SameQueue g q.1 (op q x).1) (q : State × β) :
    SameQueue g s0 (L.foldl op q).1 ↔ SameQueue g s0 q.1 :=
  SameQueue.iff (List.foldlRecOn (motive := fun r : State × β => SameQueue g q.1 r.1) L op .refl
    fun r k x _ => k.trans (h r x))

/-! ## Map courses (R224, R240) -/

@[simp] theorem sameQueue_combTo (k : Nat) : SameQueue g s0 (s.combTo g k) ↔ SameQueue g s0 s := by
  simp [State.combTo]

@[simp] theorem sameQueue_thrCourse (k : Nat) : SameQueue g s0 (s.thrCourse g k) ↔ SameQueue g s0 s := by
  simp [State.thrCourse]

@[simp] theorem sameQueue_thrTo (k : Nat) : SameQueue g s0 (s.thrTo g k) ↔ SameQueue g s0 s := by
  simp [State.thrTo]

/-- A map course that is labelled stands last among those that wait for the resolution. -/
theorem sg_mapCourse : ∃ rs, ((s.mapCourse g c).sg g).next = c + 1 ∧
    ((s.mapCourse g c).sg g).runs = (s.sg g).runs ++ [(c, rs)] ∧ ((s.mapCourse g c).sg g).res = (s.sg g).res := by
  unfold State.mapCourse
  extract_lets filtered fin row runs counted x
  have kept : SameQueue g s counted := by simp [counted, filtered]
  exact ⟨(runs.map (·.2)).flatten, by simp [x, kept.runs, kept.res]⟩

/-! ## The run store (R254 to R257) -/

@[simp] theorem sameQueue_takeChunk : SameQueue g s0 (s.takeChunk g).1 ↔ SameQueue g s0 s := by
  unfold State.takeChunk
  cases back : (s.sg g).back <;> simp [back]

@[simp] theorem sameQueue_appendRun (seg : Seg) (bs : List Byte) (n : Nat) :
    SameQueue g s0 (s.appendRun g seg bs n).1 ↔ SameQueue g s0 s := by
  induction n generalizing s seg bs with
  | zero => simp [State.appendRun]
  | succ n ih => simp [State.appendRun, ih]

@[simp] theorem sameQueue_runDropped (r : Run) : SameQueue g s0 (s.runDropped g c r) ↔ SameQueue g s0 s := by
  simp [State.runDropped]

@[simp] theorem sameQueue_storeRun (seg : Seg) (r : Run) :
    SameQueue g s0 (s.storeRun g c seg r).1 ↔ SameQueue g s0 s := by
  simp [State.storeRun]

/-! ## The resolution (R245) -/

@[simp] theorem sameQueue_segAddAll (overC : Bool) (seg : Seg) (l : List Run) :
    SameQueue g s0 (s.segAddAll g c overC seg l).1 ↔ SameQueue g s0 s := by
  induction l generalizing s seg with
  | nil => simp [State.segAddAll]
  | cons r rs ih => simp [State.segAddAll, State.segAdd, ih]

@[simp] theorem sameQueue_segJoin (a b : Seg) : SameQueue g s0 (s.segJoin g a b).1 ↔ SameQueue g s0 s :=
  Part.same.queue_iff (by simp)

@[simp] theorem sameQueue_resolveReal (x : SegGrp) (w : ResWork) (r : RunSet) :
    SameQueue g s0 (s.resolveReal g c x w r).1 ↔ SameQueue g s0 s := by
  unfold State.resolveReal
  dsimp only
  split <;> simp

@[simp] theorem sameQueue_resolveNew (avail : Nat) (w : ResWork) (r : RunSet) :
    SameQueue g s0 (s.resolveNew g c avail w r).1 ↔ SameQueue g s0 s := by
  simp [State.resolveNew]

@[simp] theorem sameQueue_overNote (pix : Nat) : SameQueue g s0 (s.overNote g c pix) ↔ SameQueue g s0 s := by
  simp [State.overNote]

@[simp] theorem sameQueue_resolveOver (x : SegGrp) (runs : List Run) (bridge : Bool) (row : List (Bool × Nat)) :
    SameQueue g s0 (s.resolveOver g c x runs bridge row).1 ↔ SameQueue g s0 s := by
  simp only [State.resolveOver, sameQueue_ite_fst]
  split
  · split <;> rfl
  · simp

/-- The record of segmentation that the resolution of a course leaves: the courses that wait are as they were and the next course
follows. At the last course of a stopped group it holds no component (R249). -/
theorem sg_resolve (runs : List Run) : ((s.resolve g c runs).sg g).runs = (s.sg g).runs ∧
    ((s.resolve g c runs).sg g).res = c + 1 ∧ ((s.g g).last = some c → (s.g g).st = 3 →
      ((s.resolve g c runs).sg g).comps = [] ∧ ((s.resolve g c runs).sg g).overC = none) := by
  unfold State.resolve
  extract_lets b cc x bridge row sets avail real p fresh q overRuns resolved used idle o noted alive descs stop sl rm y comps
    overC ended
  have kept : SameQueue g s noted := by simp [noted, o, resolved, q, p]
  have group : noted.g g = s.g g := Part.same.g_eq (by simp [noted, o, resolved, q, p]) g
  have shown : ((ended.showOpen g).cswFinish g c).sg g = ended.sg g := Part.same.sg_eq (by simp) g
  rw [shown]
  cases hstop : stop with
  | true => simp [ended, hstop, y, kept.runs]
  | false =>
    refine ⟨by simp [ended, hstop, y, kept.runs], by simp [ended, hstop], fun last st => ?_⟩
    simp [stop, group, last, st] at hstop

end Segmentation

section SegmentRows
variable {s : State} {g : Fin 16}

/-- A map course that is due is labelled, and touches no group and no memory (R240). -/
theorem segmentMapCourse_labels {c : Nat} (hc : c = (s.sg g).next) (st : (s.g g).st = 2 ∨ (s.g g).st = 3)
    (on : s.flag (gsegB g) F.SEG_CTRL_SEG_EN = true) (triggered : s.hasCourse g c = true)
    (present : s.seamPresent g (c + s.delayF g (Int.ofNat c) + s.delayM g (Int.ofNat c)) = true)
    (needs : s.seamPresent g (s.mapNeeds g c) = true) (room : c < (s.sg g).res + 4) :
    ∃ t rs, exec (.segmentMapCourse g) s = .next t ∧ (t.sg g).next = c + 1 ∧ (t.sg g).runs = (s.sg g).runs ++ [(c, rs)] ∧
      (t.sg g).res = (s.sg g).res ∧ t.grp = s.grp ∧ t.mem = s.mem := by
  subst hc
  obtain ⟨rs, next, runs, res⟩ := sg_mapCourse (s := s) (g := g) (c := (s.sg g).next)
  have due : exec (.segmentMapCourse g) s = .next (s.mapCourse g (s.sg g).next) :=
    congrArg Host.Outcome.next (if_pos ⟨st, on, triggered, present, needs, room⟩)
  exact ⟨_, rs, due, next, runs, res, Part.same.grp_eq (by simp), Part.same.mem_eq (by simp)⟩

/-- At 4 courses ahead of the resolution labelling waits (R246). -/
theorem exec_segmentMapCourse_ahead (h : (s.sg g).res + 4 ≤ (s.sg g).next) : exec (.segmentMapCourse g) s = .next s :=
  congrArg Host.Outcome.next (if_neg fun ⟨_, _, _, _, _, room⟩ => absurd room (Nat.not_lt.2 h))

theorem exec_resolution_takes {c : Nat} {rs : List Run} {rest : List (Nat × List Run)}
    (hruns : (s.sg g).runs = (c, rs) :: rest) (hhand : (s.sg g).hand = []) :
    exec (.resolution g) s = .next ((s.setSg g { s.sg g with runs := rest }).resolve g c rs) := by
  simp [exec, execResolution, hruns, hhand]

theorem exec_resolution_waits (h : (s.sg g).hand ≠ []) : exec (.resolution g) s = .next s := by
  simp only [exec, execResolution, List.isEmpty_iff, if_neg h]
  split <;> rfl

theorem exec_resolution_without_course (h : (s.sg g).runs = []) : exec (.resolution g) s = .next s := by
  simp [exec, execResolution, h]

/-- The resolution takes the oldest labelled course. -/
theorem resolution_resolves {c : Nat} {rs : List Run} {rest : List (Nat × List Run)}
    (hruns : (s.sg g).runs = (c, rs) :: rest) (hhand : (s.sg g).hand = []) :
    ∃ t, exec (.resolution g) s = .next t ∧ (t.sg g).runs = rest ∧ (t.sg g).res = c + 1 ∧ t.grp = s.grp ∧
      ((s.g g).last = some c → (s.g g).st = 3 → (t.sg g).comps = [] ∧ (t.sg g).overC = none) := by
  obtain ⟨runs, res, closes⟩ := sg_resolve (s := s.setSg g { s.sg g with runs := rest }) (g := g) (c := c) rs
  exact ⟨_, exec_resolution_takes hruns hhand, by simpa using runs, res, Part.same.grp_eq (by simp), closes⟩

/-- What writes a ring and no protected register leaves DESC_COUNT as it was. -/
theorem getF_descCount_quiet {t : State} (h : Quiet s t) :
    t.getF (gsegB g) F.DESC_COUNT_COUNT = s.getF (gsegB g) F.DESC_COUNT_COUNT :=
  h.getF _ _ (prot_of_low (low_gseg g.isLt (by decide) (by decide)))

theorem exec_descriptorHand {d : List Byte} {ds : List (List Byte)} (hhand : (s.sg g).hand = d :: ds) :
    exec (.descriptorHand g) s = .next (if s.ringFits (s.getF (gsegB g) F.DESC_RING_RING) 64 then
      ((s.ringWrite (s.getF (gsegB g) F.DESC_RING_RING) d).setSg g { s.sg g with hand := ds, wait := false }).incF (gsegB g)
        F.DESC_COUNT_COUNT 1
    else (s.ringStarve (s.getF (gsegB g) F.DESC_RING_RING)).setSg g { s.sg g with wait := true }) := by
  simp only [exec, execDescriptorHand, hhand]

/-- A descriptor for which its ring has room is handed and counted (R258). -/
theorem descriptorHand_hands {d : List Byte} {ds : List (List Byte)} (hhand : (s.sg g).hand = d :: ds)
    (fits : s.ringFits (s.getF (gsegB g) F.DESC_RING_RING) 64 = true) :
    ∃ t, exec (.descriptorHand g) s = .next t ∧ (t.sg g).hand = ds ∧ (t.sg g).wait = false ∧
      (t.sg g).comps = (s.sg g).comps ∧
      t.getF (gsegB g) F.DESC_COUNT_COUNT = (s.getF (gsegB g) F.DESC_COUNT_COUNT + 1) % 2 ^ 64 := by
  have count := getF_descCount_quiet (g := g) (ringWrite_quiet s (s.getF (gsegB g) F.DESC_RING_RING) d (.refl s))
  have width : F.DESC_COUNT_COUNT.width = 64 := rfl
  refine ⟨_, (exec_descriptorHand hhand).trans (congrArg _ (if_pos fits)), ?_⟩
  simp [count, width]

/-- A descriptor for which its ring has no room waits at the head of those to be handed (R258). -/
theorem descriptorHand_waits {d : List Byte} {ds : List (List Byte)} (hhand : (s.sg g).hand = d :: ds)
    (full : s.ringFits (s.getF (gsegB g) F.DESC_RING_RING) 64 = false) :
    ∃ t, exec (.descriptorHand g) s = .next t ∧ (t.sg g).hand = d :: ds ∧ (t.sg g).wait = true ∧
      t.getF (gsegB g) F.DESC_COUNT_COUNT = s.getF (gsegB g) F.DESC_COUNT_COUNT := by
  have count := getF_descCount_quiet (g := g) (ringStarve_quiet s (s.getF (gsegB g) F.DESC_RING_RING) (.refl s))
  refine ⟨_, (exec_descriptorHand hhand).trans (congrArg _ (if_neg (Bool.eq_false_iff.1 full))), ?_⟩
  simp [count, hhand]

theorem exec_descriptorHand_without_descriptor (h : (s.sg g).hand = []) : exec (.descriptorHand g) s = .next s := by
  simp [exec, execDescriptorHand, h]

theorem exec_maskHoldNow : exec (.maskHoldNow g) s = .next (s.holdNow g) := rfl

theorem holdNow_of_running (h : s.running g = true) : s.holdNow g = (s.submit g 5 0 (.write 0 true 0 (gsegB g + 0x70)
    [2 ^ 31, 2 ^ 31] [⟨F.MASK_HOLD_NOW.key (gsegB g), 1, false⟩])).accept := if_pos h

theorem holdNow_of_not_running (h : s.running g = false) : s.holdNow g = s := if_neg (Bool.eq_false_iff.1 h)

end SegmentRows
end Sys2Proof.Machine

namespace Sys2Proof.Proofs

open Sys2Proof.Machine

/-- Settles O35: what labels a course and what resolves it keep the queue between them (`SameQueue`) up to the record that each
writes at its end, and a ring holds none of the group's registers. -/
theorem segmentStages : Obligations.SegmentStages := by
  unfold Obligations.SegmentStages
  intro s g
  refine ⟨fun _ => segmentMapCourse_labels, exec_segmentMapCourse_ahead,
    fun _ _ _ hruns => ⟨resolution_resolves hruns, exec_resolution_waits⟩, exec_resolution_without_course,
    fun _ _ hhand => ⟨descriptorHand_hands hhand, descriptorHand_waits hhand⟩,
    exec_descriptorHand_without_descriptor, fun runs => ?_, fun idle => ?_⟩
  · exact ⟨_, exec_maskHoldNow.trans (congrArg _ (holdNow_of_running runs)), rfl, rfl, rfl, rfl, rfl⟩
  · exact exec_maskHoldNow.trans (congrArg _ (holdNow_of_not_running idle))

end Sys2Proof.Proofs

/-! # Tally: jobs, records, engines and the end of draining (O36 to O39) -/

namespace Sys2Proof.Machine

/-! ## Reads do not depend on whose turn it was (R269)

The dispatcher notes the group it serves before it reads that group's descriptor. Memory, its errors and their log entries take
no notice of it: each operation of a read gives the same with the note made before it as after it. -/

/-- The state in which the dispatcher has noted that it served group `n` last. -/
def State.servedLast (s : State) (n : Nat) : State := { s with tallyLast := n }

section Turn
variable {s : State} (n : Nat)

@[simp] theorem getF_servedLast (b : Nat) (f : Fld) : (s.servedLast n).getF b f = s.getF b f := (rfl)

@[simp] theorem flag_servedLast (b : Nat) (f : Fld) : (s.servedLast n).flag b f = s.flag b f := (rfl)

@[simp] theorem domOn_servedLast (d : Nat) : (s.servedLast n).domOn d = s.domOn d := (rfl)

@[simp] theorem prodOn_servedLast (p : Nat) : (s.servedLast n).prodOn p = s.prodOn p := (rfl)

@[simp] theorem stampDev_servedLast : (s.servedLast n).stampDev = s.stampDev := (rfl)

@[simp] theorem viewOf_servedLast (g : Nat) : (s.servedLast n).viewOf g = s.viewOf g := (rfl)

@[simp] theorem anyRunning_servedLast : (s.servedLast n).anyRunning = s.anyRunning := (rfl)

@[simp] theorem sec_servedLast : (s.servedLast n).sec = s.sec := (rfl)

@[simp] theorem ns_servedLast : (s.servedLast n).ns = s.ns := (rfl)

@[simp] theorem payReg_servedLast (addr : Nat) : (s.servedLast n).payReg addr = s.payReg addr := (rfl)

@[simp] theorem mcState_servedLast (d : Nat) : (s.servedLast n).mcState d = s.mcState d := (rfl)

@[simp] theorem mirrored_servedLast (a : Nat) : (s.servedLast n).mirrored a = s.mirrored a := (rfl)

@[simp] theorem badOf_servedLast (a : Nat) : (s.servedLast n).badOf a = s.badOf a := (rfl)

@[simp] theorem dr_servedLast (d : Nat) : (s.servedLast n).dr d = s.dr d := (rfl)

@[simp] theorem memQ_servedLast : (s.servedLast n).memQ = s.memQ := (rfl)

@[simp] theorem now_servedLast : (s.servedLast n).now = s.now := (rfl)

@[simp] theorem uePayload_servedLast (a kind cls unit mirror : Nat) :
    (s.servedLast n).uePayload a kind cls unit mirror = s.uePayload a kind cls unit mirror := (rfl)

@[simp] theorem rangeCheck_servedLast (a k : Nat) : (s.servedLast n).rangeCheck a k = s.rangeCheck a k := (rfl)

@[simp] theorem setF_servedLast (b : Nat) (f : Fld) (v : Nat) :
    (s.servedLast n).setF b f v = (s.setF b f v).servedLast n := by
  unfold State.setF
  split <;> rfl

@[simp] theorem satF_servedLast (b : Nat) (f : Fld) (v : Nat) :
    (s.servedLast n).satF b f v = (s.satF b f v).servedLast n := by
  simp [State.satF]

@[simp] theorem mark_servedLast (b : Nat) (f : Fld) : (s.servedLast n).mark b f = (s.mark b f).servedLast n :=
  setF_servedLast n b f 1

@[simp] theorem fire_servedLast (p : Nat) : (s.servedLast n).fire p = (s.fire p).servedLast n := by
  simp only [State.fire, prodOn_servedLast]
  split <;> rfl

@[simp] theorem raise_servedLast (b : Nat) (f : Fld) (p : Nat) :
    (s.servedLast n).raise b f p = (s.raise b f p).servedLast n := by
  simp [State.raise]

@[simp] theorem servedLast_ite {c : Prop} [Decidable c] {t u : State} :
    (if c then t.servedLast n else u.servedLast n) = (if c then t else u).servedLast n := by
  split <;> rfl

@[simp] theorem servedLast_ite_fst {α : Type} {c : Prop} [Decidable c] {t u : State} {x y : α} :
    (if c then (t.servedLast n, x) else (u.servedLast n, y)) =
      ((if c then (t, x) else (u, y)).1.servedLast n, (if c then (t, x) else (u, y)).2) := by
  split <;> rfl

@[simp] theorem pokes_servedLast (a : Nat) (bs : List Byte) :
    (s.servedLast n).pokes a bs = (s.pokes a bs).servedLast n := (rfl)

@[simp] theorem freezeInst_servedLast : (s.servedLast n).freezeInst = s.freezeInst.servedLast n := by
  simp only [State.freezeInst, mark_servedLast, setF_servedLast, sec_servedLast, ns_servedLast, stampDev_servedLast]
  rfl

/-- The state in which the freeze has noted its trigger course (R672). -/
def State.triggerNoted (s : State) : State := { s with rep := { s.rep with trig := s.stampDev } }

theorem freezeTrigger_eq : s.freezeTrigger = if s.getF repB F.REPLAY_STATUS_STATE = 1 then
    if (s.triggerNoted.setF repB F.REPLAY_STATUS_STATE 2).anyRunning then s.triggerNoted.setF repB F.REPLAY_STATUS_STATE 2
    else (s.triggerNoted.setF repB F.REPLAY_STATUS_STATE 2).freezeInst
  else s := rfl

@[simp] theorem triggerNoted_servedLast : (s.servedLast n).triggerNoted = s.triggerNoted.servedLast n := (rfl)

@[simp] theorem freezeTrigger_servedLast : (s.servedLast n).freezeTrigger = s.freezeTrigger.servedLast n := by
  simp [freezeTrigger_eq]

@[simp] theorem logAs_servedLast (code : LogCode) (sev level unit grp : Nat) (payload : List Byte) :
    (s.servedLast n).logAs code sev level unit grp payload =
      (s.logAs code sev level unit grp payload).servedLast n := by
  simp [State.logAs]

@[simp] theorem setBad_servedLast (a k : Nat) : (s.servedLast n).setBad a k = (s.setBad a k).servedLast n := (rfl)

@[simp] theorem setDr_servedLast (d : Nat) (x : Dram) : (s.servedLast n).setDr d x = (s.setDr d x).servedLast n := (rfl)

/-- The state in which the requests of a device are gone. -/
def State.reqsGone (s : State) (d : Nat) : State := { s with memQ := s.memQ.filter (fun q => q.dev != d) }

@[simp] theorem reqsGone_servedLast (d : Nat) : (s.servedLast n).reqsGone d = (s.reqsGone d).servedLast n := (rfl)

/-- The state in which a device shows that it has failed (R502). -/
def State.shownFailed (s : State) (d : Nat) : State :=
  (((((s.setF (mcB d) F.MC_STATUS_STATE 3).setF (mcB d) F.MC_STATUS_MIRROR_OK 0).setF (mcB (pairOf d))
    F.MC_STATUS_MIRROR_OK 0).reqsGone d).setDr d { recut := true }).raise (mcB d) F.MC_EVENT_FAIL_EV 0xE0

theorem memDown_eq (d : Nat) : s.memDown d = (s.shownFailed d).logAs .memFail
    (if s.getF (mcB (d / 2 * 2)) F.MC_MIRROR_MIR_SIZE == 0 || s.mcState (pairOf d) == 2 then 1 else 2) 0 d 0xFF
    ((s.shownFailed d).payReg (mcB d + 8)) := rfl

@[simp] theorem memDown_servedLast (d : Nat) : (s.servedLast n).memDown d = (s.memDown d).servedLast n := by
  simp [memDown_eq, State.shownFailed]

@[simp] theorem ueNote_servedLast (d : Nat) : (s.servedLast n).ueNote d = (s.ueNote d).servedLast n := by
  simp [State.ueNote]

@[simp] theorem xfer_servedLast (d : Nat) : (s.servedLast n).xfer d = ((s.xfer d).1.servedLast n, (s.xfer d).2) := by
  simp [State.xfer]

@[simp] theorem ueEvent_servedLast (a kind cls unit mirror : Nat) :
    (s.servedLast n).ueEvent a kind cls unit mirror = (s.ueEvent a kind cls unit mirror).servedLast n := by
  simp [State.ueEvent]

@[simp] theorem ceEvent_servedLast (d a : Nat) : (s.servedLast n).ceEvent d a = (s.ceEvent d a).servedLast n := by
  simp only [State.ceEvent, satF_servedLast, mark_servedLast, memQ_servedLast]
  split <;> rfl

@[simp] theorem drain_servedLast (a : Nat) : (s.servedLast n).drain a = (s.drain a).servedLast n := by
  simp only [State.drain, memQ_servedLast]
  split <;> rfl

@[simp] theorem readOne_servedLast (kind a : Nat) :
    (s.servedLast n).readOne kind a = ((s.readOne kind a).1.servedLast n, (s.readOne kind a).2) := by
  simp [State.readOne]

@[simp] theorem readBlock_servedLast (kind cls unit a : Nat) : (s.servedLast n).readBlock kind cls unit a =
    ((s.readBlock kind cls unit a).1.servedLast n, (s.readBlock kind cls unit a).2) := by
  simp only [State.readBlock, mcState_servedLast, mirrored_servedLast, readOne_servedLast]
  repeat' split
  all_goals simp

@[simp] theorem readBlocks_servedLast (kind cls unit : Nat) (l : List Nat) :
    (s.servedLast n).readBlocks kind cls unit l =
      ((s.readBlocks kind cls unit l).1.servedLast n, (s.readBlocks kind cls unit l).2) := by
  induction l generalizing s with
  | nil => rfl
  | cons b bs ih =>
    simp only [State.readBlocks, readBlock_servedLast, ih]
    split <;> rfl

@[simp] theorem memRead_servedLast (cls unit a k : Nat) : (s.servedLast n).memRead cls unit a k =
    ((s.memRead cls unit a k).1.servedLast n, (s.memRead cls unit a k).2) := by
  simp only [State.memRead, rangeCheck_servedLast, readBlocks_servedLast]
  split <;> rfl

theorem readEntry_servedLast (id b off unit : Nat) : (s.servedLast n).readEntry id b off unit =
    ((s.readEntry id b off unit).1.servedLast n, (s.readEntry id b off unit).2) := memRead_servedLast ..

end Turn
section Tally
variable {s0 s t u : State} {g b b' m : Nat} {e : Nat} {f f' : Fld}

/-! ## The registers of tally and of its engines -/

theorem Part.same.tg_eq (h : Part.tal.same s t) (m : Nat) : t.tg m = s.tg m := congrArg (Tab.get ({} : TalGrp) m) h

@[simp] theorem tg_setF (v : Nat) : (s.setF b f v).tg m = s.tg m := Part.same.tg_eq (by simp) m

/-- Two fields of blocks of 256 bytes that lie at different places. -/
def Fld.apartPage (f f' : Fld) : Bool :=
  decide (f.off < 0x100) && decide (f.lo < 64) && decide (f'.off < 0x100) && decide (f'.lo < 64) &&
    (f.off != f'.off || f.lo != f'.lo)

theorem page_key_ne (h : f.apartPage f' = true) (hb : b % 0x100 = 0) (hb' : b' % 0x100 = 0) : f.key b ≠ f'.key b' := by
  simp only [Fld.apartPage, Bool.and_eq_true, decide_eq_true_eq, Bool.or_eq_true, bne_iff_ne] at h
  simp only [Fld.key]
  omega

theorem gtalB_aligned (g : Nat) : gtalB g % 0x100 = 0 := by
  rw [gtalB]
  omega

theorem gsegB_aligned (g : Nat) : gsegB g % 0x100 = 0 := by
  rw [gsegB]
  omega

theorem teB_aligned (e : Nat) : teB e % 0x100 = 0 := by
  rw [teB]
  omega

/-- The block of a group's tally, or that of a tally engine: the log, the rings and memory write none of its registers. -/
structure TallyBlock (b : Nat) : Prop where
  aligned : b % 0x100 = 0
  prot : ∀ f : Fld, f.off < 0x100 → f.lo < 64 → prot (f.key b) = true

/-- The registers of a group's tally lie below the fault manager. -/
theorem low_gtal (hg : g < 16) (ho : f.off < 0x100) (hl : f.lo < 64) : f.low (gtalB g) = true := by
  rw [Fld.low_iff, gtalB]
  omega

theorem tallyBlock_gtal (hg : g < 16) : TallyBlock (gtalB g) :=
  ⟨gtalB_aligned g, fun _ ho hl => prot_of_low (low_gtal hg ho hl)⟩

theorem tallyBlock_te (he : e < 128) : TallyBlock (teB e) := by
  refine ⟨teB_aligned e, fun f ho hl => ?_⟩
  have haddr : f.key (teB e) / 64 = teB e + f.off := by
    generalize teB e = w
    simp only [Fld.key]
    omega
  have hplace : 0x10000000 ≤ teB e + f.off ∧ (teB e + f.off) % 0x1000000 < 0x700000 := by
    rw [teB]
    omega
  simp [Machine.prot, haddr, hplace]

theorem getF_setF_apartPage (v : Nat) (h : f.apartPage f' = true) (hb : b % 0x100 = 0) (hb' : b' % 0x100 = 0) :
    (s.setF b' f' v).getF b f = s.getF b f := getF_setF_ne _ _ _ _ _ _ (page_key_ne h hb hb')

theorem getF_raise_apartPage (v : Nat) (h : f.apartPage f' = true) (hb : b % 0x100 = 0) (hb' : b' % 0x100 = 0) :
    (s.raise b' f' v).getF b f = s.getF b f := getF_raise_ne _ _ _ _ _ _ (page_key_ne h hb hb')

/-! ## What the reads of a job leave alone -/

theorem tickFree_quiet (h : Quiet s0 s) : Quiet s0 s.tickFree := Quiet.updFree 1 h

theorem readPieces_quiet (unit a n fuel : Nat) (h : Quiet s0 s) : Quiet s0 (s.readPieces unit a n fuel).1 := by
  induction fuel generalizing s a n with
  | zero => exact h
  | succ fuel ih =>
    simp only [State.readPieces]
    split
    · exact h
    · exact ih _ _ (memRead_quiet _ _ _ _ _ h)

theorem readChain_quiet (unit a fuel : Nat) (h : Quiet s0 s) : Quiet s0 (s.readChain unit a fuel).1 := by
  induction fuel generalizing s a with
  | zero => exact h
  | succ fuel ih =>
    have head := memRead_quiet s 1 unit a 16 h
    simp only [State.readChain]
    split
    · exact h
    · split
      · exact head
      · exact ih _ (readPieces_quiet _ _ _ _ head)

theorem histRead_quiet (g unit : Nat) (c : Int) (h : Quiet s0 s) : Quiet s0 (s.histRead g unit c).1 := by
  unfold State.histRead
  dsimp only
  split <;> exact memRead_quiet _ _ _ _ _ h

theorem placeOf_quiet (g unit : Nat) (d : SegData) (x : Feat) (h : Quiet s0 s) : Quiet s0 (s.placeOf g unit d x).1 := by
  unfold State.placeOf
  extract_lets i fr newest lost p q enc e0
  have hp : Quiet s0 p.1 := histRead_quiet _ _ _ h
  have hq : Quiet s0 q.1 := .iteP hp (histRead_quiet _ _ _ hp)
  refine .iteP h ?_
  split
  · exact hq
  · exact tickFree_quiet (tickFree_quiet (tickFree_quiet (tickFree_quiet hq)))

theorem readCls_quiet (unit a : Nat) (h : Quiet s0 s) : Quiet s0 (s.readCls unit a).1 := by
  have head := memRead_quiet s 1 unit a 64 h
  unfold State.readCls
  dsimp only
  split
  · exact head
  · split <;> exact memRead_quiet _ _ _ _ _ head

theorem classify_quiet (g unit : Nat) (k : Int) (d : SegData) (fv : List Int) (p : Option Patch) (h : Quiet s0 s) :
    Quiet s0 (s.classify g unit k d fv p).1 := by
  unfold State.classify
  split
  · exact h
  · extract_lets r free
    have hr : Quiet s0 r.1 := readCls_quiet _ _ h
    have hfree (bad : Bool) : Quiet s0 (free r.1 bad).1 := tickFree_quiet (tickFree_quiet hr)
    split
    · exact hfree true
    · split
      · exact hfree false
      · exact hr

theorem fillOf_quiet (d : SegData) (h : Quiet s0 s) : Quiet s0 (s.fillOf d).1 := .iteP (tickFree_quiet h) h

theorem rerunFails_quiet (g : Nat) (bad : Bool) (h : Quiet s0 s) : Quiet s0 (s.rerunFails g bad) :=
  .ite (setF_quiet _ _ _ rfl (by decide) h) h

theorem rerunCompare_quiet (g id : Nat) (bytes : List Byte) (h : Quiet s0 s) : Quiet s0 (s.rerunCompare g id bytes) := by
  unfold State.rerunCompare
  split
  · exact h
  · exact .ite h (log_quiet _ _ _ _ _ (satF_quiet _ _ _ rfl (by decide) h))

/-! ## What the completion of a job leaves alone -/

/-- The fields that the completion of a job writes, in the blocks of its group. -/
def completionFlds : List Fld :=
  [F.RS_FREE_FREE, F.TALLY_STATUS_HIST_LOST_EV, F.TALLY_STATUS_PATCH_DROP_EV, F.PATCH_DROP_COUNT, F.REC_COUNT_COUNT,
    F.JOBS_OPEN_OPEN]

/-- A field that lies at no place where the completion of a job writes. -/
def Fld.spared (f : Fld) : Bool := completionFlds.all f.apartPage

theorem Fld.apartPage_of_spared (h : f.spared = true) (hf' : f' ∈ completionFlds) : f.apartPage f' = true :=
  List.all_eq_true.1 h f' hf'

theorem Fld.inPage_of_spared (h : f.spared = true) : f.off < 0x100 ∧ f.lo < 64 := by
  have apart : f.apartPage F.RS_FREE_FREE = true := Fld.apartPage_of_spared h (by decide)
  simp only [Fld.apartPage, Bool.and_eq_true, decide_eq_true_eq] at apart
  obtain ⟨⟨⟨⟨ho, hl⟩, -⟩, -⟩, -⟩ := apart
  exact ⟨ho, hl⟩

/-- What every part of a job's completion keeps, up to its record: the jobs and records of every group, and the registers of tally
and of its engines but those of the completion. -/
structure Completing (s t : State) : Prop where
  tal : t.tal = s.tal
  getF : ∀ b f, TallyBlock b → f.spared = true → t.getF b f = s.getF b f

theorem Completing.refl : Completing s s := ⟨rfl, fun _ _ _ _ => rfl⟩

theorem Completing.trans (h : Completing s t) (h' : Completing t u) : Completing s u :=
  ⟨h'.tal.trans h.tal, fun b f hb hf => (h'.getF b f hb hf).trans (h.getF b f hb hf)⟩

theorem Quiet.completing (h : Quiet s t) : Completing s t := by
  refine ⟨h.tal, fun b f hb hf => ?_⟩
  obtain ⟨ho, hl⟩ := Fld.inPage_of_spared hf
  exact h.getF b f (hb.prot f ho hl)

theorem setF_completing (v : Nat) (hb : b % 0x100 = 0) (hf : f ∈ completionFlds) : Completing s (s.setF b f v) :=
  ⟨setF_tal .., fun _ _ hb' hf' => getF_setF_apartPage v (Fld.apartPage_of_spared hf' hf) hb'.aligned hb⟩

theorem satF_completing (v : Nat) (hb : b % 0x100 = 0) (hf : f ∈ completionFlds) : Completing s (s.satF b f v) :=
  setF_completing _ hb hf

theorem raise_completing (v : Nat) (hb : b % 0x100 = 0) (hf : f ∈ completionFlds) : Completing s (s.raise b f v) :=
  (setF_completing 1 hb hf).trans (Quiet.completing (fire_quiet _ v (.refl _)))

theorem returnChunks_completing (cs : List Nat) : Completing s (s.returnChunks g cs) := by
  unfold State.returnChunks
  extract_lets x put
  have hput : Completing s put := ⟨rfl, fun _ _ _ _ => rfl⟩
  exact hput.trans (setF_completing _ (gsegB_aligned g) (by decide))

theorem patchWrite_completing (id : Nat) (en : Bool) (bytes : List Byte) : Completing s (s.patchWrite g id en bytes).1 := by
  have push (ring : Nat) : Quiet s (s.ringPush ring bytes).1 := ringPush_quiet _ _ _ (.refl s)
  unfold State.patchWrite
  extract_lets ring first r
  have hr : Completing s r.1 := Quiet.completing (.iteP (push ring) (.refl s))
  split
  · extract_lets dropped w
    exact Quiet.completing (.ite (push ring) (.refl s))
  · split
    · exact .refl
    · split
      · exact hr
      · have raised : Completing r.1 (r.1.raise (gtalB g) F.TALLY_STATUS_PATCH_DROP_EV 0xC8) :=
          raise_completing _ (gtalB_aligned g) (by decide)
        exact hr.trans (raised.trans (satF_completing (f := F.PATCH_DROP_COUNT) _ (gtalB_aligned g) (by decide)))

/-! ## Completion (R272) -/

/-- The rings that a record of a group is owed to. -/
def State.recordRings (s : State) (g : Nat) : List Nat :=
  (List.range 4).filter (fun r => s.flag (gtalB g) (F.RES_RING_EN.nth r))

/-- The jobs and records of a group once a job has completed with its record. -/
def TalGrp.complete (x : TalGrp) (seq : Nat) (bytes : List Byte) (rings : List Nat) : TalGrp :=
  { x with
    jobs := x.jobs.filter (fun k => k.seq != seq)
    done := if rings.isEmpty then x.done else x.done ++ [(seq, bytes, rings)] }

theorem TalGrp.seq_ne_of_mem_complete {x : TalGrp} {seq : Nat} {bytes : List Byte} {rings : List Nat} :
    ∀ k ∈ (x.complete seq bytes rings).jobs, k.seq ≠ seq := by
  simp [TalGrp.complete]

/-- The record of a job enters a group's jobs and records. -/
def State.recordIn (s : State) (g : Nat) (seq : Nat) (bytes : List Byte) : State :=
  ((s.setTg g ((s.tg g).complete seq bytes (s.recordRings g))).incF (gtalB g) F.REC_COUNT_COUNT 1).showJobs g

theorem recordRings_completing (h : Completing s t) (hg : g < 16) : t.recordRings g = s.recordRings g := by
  have spared : ∀ r < 4, (F.RES_RING_EN.nth r).spared = true := by decide
  refine List.filter_congr (l := List.range 4) fun r hr => ?_
  exact congrArg (· == 1) (h.getF _ _ (tallyBlock_gtal hg) (spared r (List.mem_range.1 hr)))

theorem recordDone_eq (j : Job) (course : Nat) (bytes : List Byte) (src idx : Nat) (chunks : List Nat) :
    ∃ u, Completing s u ∧ s.recordDone g j course bytes src idx chunks = u.recordIn g j.seq bytes := by
  unfold State.recordDone
  extract_lets returned id journalled compared rings x entered
  have hjournalled : Quiet returned journalled := jrn_quiet _ _ _ _ _ _ _ _ (.refl returned)
  have hcompared : Quiet returned compared := rerunCompare_quiet _ _ _ hjournalled
  exact ⟨compared, (returnChunks_completing chunks).trans hcompared.completing, rfl⟩

theorem completeJob_eq (unit : Nat) (j : Job) (failed : Bool) :
    ∃ u bytes, Completing s u ∧ s.completeJob g unit j failed = u.recordIn g j.seq bytes := by
  unfold State.completeJob
  extract_lets d0 id h b mg width rd chained d x xnm pl placed fillV img fl filled lab labelled pw bad written on flags bytes
  have hchained : Completing s chained := Quiet.completing (readChain_quiet _ _ _ (.refl s))
  have hpl : Completing chained pl.1 := Quiet.completing (placeOf_quiet _ _ _ _ (.refl chained))
  have hplaced : Completing pl.1 placed := by
    unfold placed
    split
    · exact raise_completing _ (gtalB_aligned g) (by decide)
    · exact .refl
  have hfilled : Completing placed filled := Quiet.completing (fillOf_quiet _ (.refl placed))
  have hlabelled : Completing filled labelled := Quiet.completing (.iteP (.refl filled) (classify_quiet _ _ _ _ _ _ (.refl filled)))
  have hpw : Completing labelled pw.1 := by
    cases himg : img with
    | none => simpa only [pw, himg] using .refl
    | some r => simpa only [pw, himg] using patchWrite_completing ..
  have hwritten : Completing pw.1 written := Quiet.completing (rerunFails_quiet _ _ (.refl pw.1))
  obtain ⟨u, hu, eq⟩ := recordDone_eq (s := written) (g := g) j (d.first + d.length) bytes
    ((if pl.2.2.1 then 1 else 0) + if pw.2.2 then 2 else 0) pw.2.1 rd.2.2.1
  have classified : Completing s labelled := hchained.trans (hpl.trans (hplaced.trans (hfilled.trans hlabelled)))
  exact ⟨u, bytes, classified.trans (hpw.trans (hwritten.trans hu)), eq⟩

theorem tg_recordIn (seq : Nat) (bytes : List Byte) :
    (s.recordIn g seq bytes).tg g = (s.tg g).complete seq bytes (s.recordRings g) := by
  simp [State.recordIn, State.showJobs, State.incF]

theorem getF_recordIn (seq : Nat) (bytes : List Byte) (hb : TallyBlock b) (hf : f.spared = true) :
    (s.recordIn g seq bytes).getF b f = s.getF b f := by
  have page (f' : Fld) (hf' : f' ∈ completionFlds) (v : Nat) (w : State) :
      (w.setF (gtalB g) f' v).getF b f = w.getF b f :=
    (setF_completing v (gtalB_aligned g) hf').getF b f hb hf
  exact (page _ (by decide) _ _).trans ((page _ (by decide) _ _).trans rfl)

/-- The job is gone from its group, and its record waits for each enabled ring. -/
theorem tg_completeJob (hg : g < 16) (unit : Nat) (j : Job) (failed : Bool) : ∃ bytes,
    (s.completeJob g unit j failed).tg g = (s.tg g).complete j.seq bytes (s.recordRings g) := by
  obtain ⟨u, bytes, kept, eq⟩ := completeJob_eq (s := s) (g := g) unit j failed
  exact ⟨bytes, by rw [eq, tg_recordIn, Part.same.tg_eq kept.tal, recordRings_completing kept hg]⟩

theorem getF_completeJob (unit : Nat) (j : Job) (failed : Bool) (hb : TallyBlock b) (hf : f.spared = true) :
    (s.completeJob g unit j failed).getF b f = s.getF b f := by
  obtain ⟨u, bytes, kept, eq⟩ := completeJob_eq (s := s) (g := g) unit j failed
  rw [eq, getF_recordIn _ _ hb hf, kept.getF b f hb hf]

/-! ## Engines (R269, R270) -/

/-- The masks, the runs and the numbers of the groups lie in the hub, below the engines. -/
theorem getF_setF_te (h : f.low b = true) (v : Nat) : (s.setF (teB e) f' v).getF b f = s.getF b f := by
  refine getF_setF_ne _ _ _ _ _ _ ?_
  rw [Fld.low_iff] at h
  simp only [Fld.key, teB]
  omega

/-- The masks and the runs of the groups settle which engines a group has (R270). -/
theorem inMask_congr (hm : m < 128)
    (hmask : ∀ i < 4, t.getF (gtalB g) (F.ENG_MASK_MASK.nth i) = s.getF (gtalB g) (F.ENG_MASK_MASK.nth i))
    (hfirst : t.runFirst g = s.runFirst g) (hcount : t.runCount g = s.runCount g) : t.inMask g m = s.inMask g m := by
  have word : m / 32 < 4 := by omega
  simp only [State.inMask, hmask 0, hmask 1, hmask 2, hmask 3, hmask _ word, runChans_congr hfirst hcount, Nat.reduceLT]

theorem inMask_setF_te (hg : g < 16) (hm : m < 128) (v : Nat) : (s.setF (teB e) f v).inMask g m = s.inMask g m := by
  have mask : ∀ i < 4, (F.ENG_MASK_MASK.nth i).off < 0x100 ∧ (F.ENG_MASK_MASK.nth i).lo < 64 := by decide
  exact inMask_congr hm (fun i hi => getF_setF_te (low_gtal hg (mask i hi).1 (mask i hi).2) v)
    (getF_setF_te (low_gseam hg (by decide) (by decide)) v) (getF_setF_te (low_gseam hg (by decide) (by decide)) v)

theorem getF_setF_te_apart (v : Nat) (h : f.apartPage f' = true) : (s.setF (teB e) f' v).getF (teB m) f = s.getF (teB m) f :=
  getF_setF_apartPage v h (teB_aligned m) (teB_aligned e)

/-! ## Dispatch (R267, R269, R299) -/

/-- A job given to an engine is under way on it, and the engine is busy with its group. -/
theorem giveJob_gives (hg : g < 16) (j : Job) : (s.giveJob g e j).teState e = 1 ∧
    (s.giveJob g e j).getF (teB e) F.TE_STATUS_GROUP = g ∧
    ({ j with engine := some e } : Job) ∈ ((s.giveJob g e j).tg g).jobs ∧
    ((s.giveJob g e j).tg g).done = (s.tg g).done := by
  have hstate : (s.giveJob g e j).getF (teB e) F.TE_STATUS_STATE = 1 :=
    (getF_setF_te_apart _ (by decide)).trans (getF_setF_of_lt (by decide))
  have hgroup : (s.giveJob g e j).getF (teB e) F.TE_STATUS_GROUP = g :=
    getF_setF_of_lt (Nat.lt_trans hg (by decide))
  exact ⟨hstate, hgroup, by simp [State.giveJob], by simp [State.giveJob]⟩

theorem Part.same.tallyLast_eq (h : Part.tallyLast.same s t) : t.tallyLast = s.tallyLast := h

/-- The registers of the hub keep what they hold when an engine is given a job. -/
theorem getF_giveJob_low (j : Job) (h : f.low b = true) : (s.giveJob g e j).getF b f = s.getF b f :=
  (getF_setF_te h _).trans (getF_setF_te h _)

theorem teState_showJobs : (s.showJobs g).teState e = s.teState e :=
  getF_setF_apartPage _ (by decide) (teB_aligned e) (gtalB_aligned g)

theorem tg_showJobs : (s.showJobs g).tg m = s.tg m := tg_setF _

/-- The state in which a descriptor that has been taken is a job of the next number (R296, R299). -/
def State.newJob (s : State) (g e : Nat) (d : List Byte) : State :=
  let seq := s.getF (gtalB g) F.TALLY_SEQ_SEQ
  let numbered := s.setF (gtalB g) F.TALLY_SEQ_SEQ (seq + 1)
  let c := (numbered.tg g).chainStep (leAt d 0 1) (leAt d 0x28 8) (numbered.recordId g seq)
  let chained := numbered.setTg g c.2
  let j : Job := { seq := seq, desc := d, prev := c.1, engine := none }
  (chained.giveJob g e j).showJobs g

theorem newJob_gives (hg : g < 16) (d : List Byte) : ∃ prev, (s.newJob g e d).tallyLast = s.tallyLast ∧
    (s.newJob g e d).teState e = 1 ∧
    (s.newJob g e d).getF (gtalB g) F.TALLY_SEQ_SEQ =
      (s.getF (gtalB g) F.TALLY_SEQ_SEQ + 1) % 2 ^ F.TALLY_SEQ_SEQ.width ∧
    ({ seq := s.getF (gtalB g) F.TALLY_SEQ_SEQ, desc := d, prev := prev, engine := some e } : Job) ∈
      ((s.newJob g e d).tg g).jobs := by
  unfold State.newJob
  extract_lets seq numbered c chained j
  obtain ⟨busy, -, given, -⟩ := giveJob_gives (s := chained) (e := e) hg j
  have number : ((chained.giveJob g e j).showJobs g).getF (gtalB g) F.TALLY_SEQ_SEQ =
      chained.getF (gtalB g) F.TALLY_SEQ_SEQ :=
    (getF_setF_apartPage _ (by decide) (gtalB_aligned g) (gtalB_aligned g)).trans
      (getF_giveJob_low j (low_gtal hg (by decide) (by decide)))
  refine ⟨c.1, Part.same.tallyLast_eq (by simp [chained, numbered]), teState_showJobs.trans busy,
    number.trans (getF_setF_same ..), ?_⟩
  rw [tg_showJobs]
  exact given

/-- What the dispatcher reads and takes of the ring of descriptors touches no job and no number. -/
theorem taken_quiet (ring unit : Nat) : Quiet s (((s.readEntry ring b 0 unit).1).take ring b 1) :=
  take_quiet _ _ _ _ (readEntry_quiet _ _ _ _ _ (.refl s))

section
variable {g : Fin 16}

theorem exec_jobDispatch_without_engine (h : s.pickEngine g = none) : exec (.jobDispatch g) s = .next s := by
  simp [exec, execJobDispatch, h]

theorem exec_jobDispatch_not_turn (h : s.pickEngine g = some e) (turn : s.tallyTurn g e = false) :
    exec (.jobDispatch g) s = .next s := by
  simp [exec, execJobDispatch, h, turn]

theorem exec_jobDispatch_again {j : Job} (h : s.pickEngine g = some e) (turn : s.tallyTurn g e = true)
    (waits : (s.tg g).jobs.find? (fun k => k.engine.isNone) = some j) :
    exec (.jobDispatch g) s = .next ((s.servedLast g).giveJob g e j) := by
  simp [exec, execJobDispatch, h, turn, waits, State.servedLast]

theorem exec_jobDispatch_next {d : List Byte} (h : s.pickEngine g = some e) (turn : s.tallyTurn g e = true)
    (noneWaits : (s.tg g).jobs.find? (fun k => k.engine.isNone) = none) (may : s.mayTake g = true)
    (entry : (s.readEntry (s.getF (gsegB g) F.DESC_RING_RING) (gtalB g) 0 g).2 = .ok d) :
    exec (.jobDispatch g) s = .next ((((s.servedLast g).readEntry (s.getF (gsegB g) F.DESC_RING_RING) (gtalB g) 0 g).1.take
      (s.getF (gsegB g) F.DESC_RING_RING) (gtalB g) 1).newJob g e d) := by
  have may' : (s.servedLast g).mayTake g = true := may
  have entry' : ((s.servedLast g).readEntry (s.getF (gsegB g) F.DESC_RING_RING) (gtalB g) 0 g).2 = .ok d := by
    rw [readEntry_servedLast, entry]
  simp only [State.servedLast] at may' entry' ⊢
  simp [exec, execJobDispatch, h, turn, noneWaits, may', entry', State.newJob]

/-- A job that an engine has failed goes to the next one before any descriptor does (R308). -/
theorem jobDispatch_again {j : Job} (h : s.pickEngine g = some e) (turn : s.tallyTurn g e = true)
    (waits : (s.tg g).jobs.find? (fun k => k.engine.isNone) = some j) :
    ∃ t, exec (.jobDispatch g) s = .next t ∧ t.tallyLast = g.val ∧ t.teState e = 1 ∧
      t.getF (teB e) F.TE_STATUS_GROUP = g.val ∧ ({ j with engine := some e } : Job) ∈ (t.tg g).jobs ∧
      (t.tg g).done = (s.tg g).done := by
  obtain ⟨busy, group, mem, done⟩ := giveJob_gives (s := s.servedLast g) (e := e) g.isLt j
  exact ⟨_, exec_jobDispatch_again h turn waits, Part.same.tallyLast_eq (s := s.servedLast g) (by simp), busy, group, mem, done⟩

/-- The next descriptor that can be read becomes a job. -/
theorem jobDispatch_next {d : List Byte} (h : s.pickEngine g = some e) (turn : s.tallyTurn g e = true)
    (noneWaits : (s.tg g).jobs.find? (fun k => k.engine.isNone) = none) (may : s.mayTake g = true)
    (entry : (s.readEntry (s.getF (gsegB g) F.DESC_RING_RING) (gtalB g) 0 g).2 = .ok d) :
    ∃ t prev, exec (.jobDispatch g) s = .next t ∧ t.tallyLast = g.val ∧ t.teState e = 1 ∧
      t.getF (gtalB g) F.TALLY_SEQ_SEQ = (s.getF (gtalB g) F.TALLY_SEQ_SEQ + 1) % 2 ^ F.TALLY_SEQ_SEQ.width ∧
      ({ seq := s.getF (gtalB g) F.TALLY_SEQ_SEQ, desc := d, prev := prev, engine := some e } : Job) ∈ (t.tg g).jobs := by
  have taken : Quiet (s.servedLast g) _ :=
    taken_quiet (b := gtalB g) (s.getF (gsegB g) F.DESC_RING_RING) g
  obtain ⟨prev, last, busy, number, mem⟩ := newJob_gives (e := e) (s := (((s.servedLast g).readEntry
    (s.getF (gsegB g) F.DESC_RING_RING) (gtalB g) 0 g).1.take (s.getF (gsegB g) F.DESC_RING_RING) (gtalB g) 1)) g.isLt d
  have seq := taken.getF (gtalB g) F.TALLY_SEQ_SEQ ((tallyBlock_gtal g.isLt).prot _ (by decide) (by decide))
  rw [seq] at number mem
  exact ⟨_, prev, exec_jobDispatch_next h turn noneWaits may entry, last.trans taken.tallyLast, busy, number, mem⟩

end

/-! ## The completion of a job (R272, R456) -/

section
variable {e : Fin 128}

theorem exec_jobComplete_idle (h : s.jobOf e = none ∨ s.clk 3 = false) : exec (.jobComplete e) s = .next s := by
  rcases h with h | h <;> simp [exec, execJobComplete, h]

theorem exec_jobComplete {j : Job} (on : s.clk 3 = true) (h : s.jobOf e = some (g, j)) : exec (.jobComplete e) s =
    .next (((s.completeJob g e j false).setF (teB e) F.TE_STATUS_STATE 0).incF (teB e) F.TE_JOBS_COUNT 1) := by
  simp [exec, execJobComplete, h, on]

/-- A job that completes frees its engine and is counted, and its record waits for each enabled ring. -/
theorem jobComplete_completes {j : Job} (on : s.clk 3 = true) (h : s.jobOf e = some (g, j)) (hg : g < 16) :
    ∃ t bytes, exec (.jobComplete e) s = .next t ∧ t.teState e = 0 ∧
      t.getF (teB e) F.TE_JOBS_COUNT = (s.getF (teB e) F.TE_JOBS_COUNT + 1) % 2 ^ F.TE_JOBS_COUNT.width ∧
      t.tg g = (s.tg g).complete j.seq bytes (s.recordRings g) := by
  obtain ⟨bytes, entered⟩ := tg_completeJob (s := s) hg e j false
  have count : ((s.completeJob g e j false).setF (teB e) F.TE_STATUS_STATE 0).getF (teB e) F.TE_JOBS_COUNT =
      s.getF (teB e) F.TE_JOBS_COUNT :=
    (getF_setF_te_apart 0 (by decide)).trans (getF_completeJob e j false (tallyBlock_te e.isLt) (by decide))
  refine ⟨_, bytes, exec_jobComplete on h, ?_, ?_, ?_⟩
  · exact (getF_setF_te_apart _ (by decide)).trans (getF_setF_of_lt (by decide))
  · rw [getF_incF_same, count]
  · rw [← entered]
    exact (tg_setF _).trans (tg_setF _)

end

/-! ## Records on their way to the rings (R302 to R305) -/

/-- A loop in which all but one round change nothing is that round. -/
theorem forL_only {α : Type} {op : α → State → State} {L : List α} {x : α} (hx : x ∈ L) (distinct : L.Nodup)
    (before : ∀ y ∈ L, y ≠ x → op y s = s) (after : ∀ y ∈ L, y ≠ x → op y (op x s) = op x s) :
    forL L op s = op x s := by
  have fixed (M : List α) (u : State) (h : ∀ y ∈ M, op y u = u) : forL M op u = u := by
    induction M with
    | nil => rfl
    | cons y M ih =>
      obtain ⟨hy, hM⟩ := List.forall_mem_cons.1 h
      exact (congrArg (forL M op) hy).trans (ih hM)
  induction L with
  | nil => simp at hx
  | cons y L ih =>
    obtain ⟨fresh, distinct⟩ := List.nodup_cons.1 distinct
    by_cases e : y = x
    · subst e
      exact fixed L _ fun z hz => after z (.tail _ hz) fun e => fresh (e ▸ hz)
    · refine (congrArg (forL L op) (before y (.head _) e)).trans (ih ?_ distinct ?_ ?_)
      · exact (List.mem_cons.1 hx).resolve_left (Ne.symm e)
      · exact fun z hz => before z (.tail _ hz)
      · exact fun z hz => after z (.tail _ hz)

/-- Nothing leaves for a ring to which no record is owed. -/
theorem releaseTo_of_not_owed {r : Nat} (h : ∀ d ∈ (s.tg g).done, r ∉ d.2.2) : s.releaseTo g r = s := by
  have nothing : (s.tg g).done.find? (fun d => d.2.2.contains r && s.mayRelease g r d.1) = none := by
    refine List.find?_eq_none.2 fun d hd => ?_
    simp [h d hd]
  simp only [State.releaseTo, nothing]

/-- The ring of slot `r` of a group. -/
def State.resRing (s : State) (g r : Nat) : Nat := s.getF (gtalB g) (F.RES_RING_RING.nth r)

/-- Whether a record of `len` bytes is off the hands of slot `r`: its ring has room, or drops it (R305). -/
def State.recordGoes (s : State) (g r len : Nat) : Bool :=
  s.ringFits (s.resRing g r) len || s.flag (gtalB g) (F.RES_RING_FULL_DROP.nth r)

/-- A record is owed to slot `r` no more. -/
def State.paid (s : State) (g r seq : Nat) : State :=
  s.setTg g { s.tg g with
    done := (s.tg g).done.map (fun k => if k.1 = seq then (k.1, k.2.1, k.2.2.filter (· != r)) else k) }

/-- Records that are owed to no ring are gone. -/
def State.recordsOut (s : State) (g : Nat) : State :=
  (s.setTg g { s.tg g with done := (s.tg g).done.filter (fun d => !d.2.2.isEmpty) }).showJobs g

theorem tg_recordsOut : (s.recordsOut g).tg g =
    { s.tg g with done := (s.tg g).done.filter (fun d => !d.2.2.isEmpty) } := by
  simp [State.recordsOut, tg_showJobs]

/-- The counters of records dropped lie beside the number of jobs. -/
theorem resDrop_apart : ∀ r < 4, (F.RES_DROP_COUNT.nth r).apartPage F.JOBS_OPEN_OPEN = true ∧
    (F.RES_DROP_COUNT.nth r).off < 0x100 ∧ (F.RES_DROP_COUNT.nth r).lo < 64 := by decide

theorem getF_resDrop_recordsOut {r : Nat} (hr : r < 4) :
    (s.recordsOut g).getF (gtalB g) (F.RES_DROP_COUNT.nth r) = s.getF (gtalB g) (F.RES_DROP_COUNT.nth r) :=
  getF_setF_apartPage _ (resDrop_apart r hr).1 (gtalB_aligned g) (gtalB_aligned g)

/-! ### A record owed to one ring -/

section Owed
variable {g : Fin 16} {seq r : Nat} {bytes : List Byte} (h : (s.tg g).done = [(seq, bytes, [r])])
  (may : s.mayRelease g r seq = true)
include h may

theorem releaseTo_owed : s.releaseTo g r =
    if s.ringFits (s.resRing g r) bytes.length then (s.ringWrite (s.resRing g r) bytes).paid g r seq
    else if s.flag (gtalB g) (F.RES_RING_FULL_DROP.nth r) then
      ((s.ringPush (s.resRing g r) bytes).1.satF (gtalB g) (F.RES_DROP_COUNT.nth r) 1).paid g r seq
    else s.ringStarve (s.resRing g r) := by
  have next : (s.tg g).done.find? (fun d => d.2.2.contains r && s.mayRelease g r d.1) = some (seq, bytes, [r]) := by
    simp [h, may]
  simp only [State.releaseTo, next]
  rfl

/-- A record owed to one ring is owed to none once it has left or been dropped; a full ring that does not drop keeps it. -/
theorem tg_releaseTo_owed : ((s.releaseTo g r).tg g).jobs = (s.tg g).jobs ∧
    ((s.releaseTo g r).tg g).done = [(seq, bytes, if s.recordGoes g r bytes.length then [] else [r])] := by
  have paid (t : State) (ht : Part.tal.same s t) : ((t.paid g r seq).tg g).jobs = (s.tg g).jobs ∧
      ((t.paid g r seq).tg g).done = [(seq, bytes, [])] := by
    simp [State.paid, ht.tg_eq, h]
  rw [releaseTo_owed h may, State.recordGoes]
  split
  next fits => simpa [fits] using paid _ (ringWrite_quiet _ _ _ (.refl s)).tal
  next full =>
    split
    next drops =>
      have pushed : (s.ringPush (s.resRing g r) bytes).1.tal = s.tal := (ringPush_quiet _ _ _ (.refl s)).tal
      simpa [drops] using paid ((s.ringPush _ bytes).1.satF _ _ 1) ((setF_tal ..).trans pushed)
    next waits =>
      have kept : Part.tal.same s (s.ringStarve (s.resRing g r)) := (ringStarve_quiet _ _ (.refl s)).tal
      simp [kept.tg_eq, h, full, waits]

/-- A record that its ring has no room for is counted as dropped where the ring drops. -/
theorem getF_resDrop_releaseTo (hr : r < 4) (full : s.ringFits (s.resRing g r) bytes.length = false)
    (drops : s.flag (gtalB g) (F.RES_RING_FULL_DROP.nth r) = true) :
    (s.releaseTo g r).getF (gtalB g) (F.RES_DROP_COUNT.nth r) =
      satAdd (F.RES_DROP_COUNT.nth r).width (s.getF (gtalB g) (F.RES_DROP_COUNT.nth r)) 1 := by
  obtain ⟨-, ho, hl⟩ := resDrop_apart r hr
  have pushed (ring : Nat) : (s.ringPush ring bytes).1.getF (gtalB g) (F.RES_DROP_COUNT.nth r) =
      s.getF (gtalB g) (F.RES_DROP_COUNT.nth r) :=
    (ringPush_quiet _ _ _ (.refl s)).getF _ _ ((tallyBlock_gtal g.isLt).prot _ ho hl)
  rw [releaseTo_owed h may, if_neg (Bool.eq_false_iff.1 full), if_pos drops]
  exact (getF_satF_self 1).trans (congrArg (satAdd _ · 1) (pushed _))

/-- The round of the ring that the record is owed to is the only one that changes anything. -/
theorem exec_recordRelease_owed (dup : s.dup = false) (hr : r < 4) :
    exec (.recordRelease g) s = .next ((s.releaseTo g r).recordsOut g) := by
  obtain ⟨-, done⟩ := tg_releaseTo_owed h may
  have only : forN 4 (fun r t => t.releaseTo g r) s = s.releaseTo g r := by
    refine forL_only (op := fun r t => t.releaseTo g r) (List.mem_range.2 hr) List.nodup_range
      (fun y _ hy => releaseTo_of_not_owed ?_) (fun y _ hy => releaseTo_of_not_owed ?_)
    · simp [h, hy]
    · rw [done]
      split <;> simp [hy]
  simp only [exec, execRecordRelease, dup, only, Bool.false_eq_true, if_false, State.recordsOut]

/-- A record owed to one ring leaves, is dropped, or waits. -/
theorem recordRelease_owed (dup : s.dup = false) (hr : r < 4) :
    ∃ t, exec (.recordRelease g) s = .next t ∧ (t.tg g).jobs = (s.tg g).jobs ∧
      (t.tg g).done = (if s.recordGoes g r bytes.length then [] else (s.tg g).done) ∧
      t.getF (gtalB g) (F.RES_DROP_COUNT.nth r) = (s.releaseTo g r).getF (gtalB g) (F.RES_DROP_COUNT.nth r) := by
  obtain ⟨jobs, done⟩ := tg_releaseTo_owed h may
  refine ⟨_, exec_recordRelease_owed h may dup hr, ?_, ?_, getF_resDrop_recordsOut hr⟩
  · rw [tg_recordsOut]
    exact jobs
  · rw [tg_recordsOut, done, h]
    split <;> simp

end Owed

theorem exec_recordRelease_dup {g : Fin 16} (h : s.dup = true) : exec (.recordRelease g) s = .next s := by
  simp [exec, execRecordRelease, h]

/-! ## Engine faults (R306 to R309) -/

/-- The state in which an engine has gone offline with its flag and count. -/
def State.engineOff (s : State) (e : Nat) (f : Fld) : State :=
  ((s.setF (teB e) f 1).satF (teB e) F.TE_FAULTS_COUNT 1).setF (teB e) F.TE_STATUS_STATE 2

/-- The state in which the groups have seen it too. -/
def State.engineShown (s : State) (e : Nat) (f : Fld) : State :=
  forL ((List.range 16).filter (fun g => (s.engineOff e f).inMask g e))
    (fun g t => t.raise (gtalB g) F.TALLY_STATUS_ENG_FAULT 0xC6) (s.engineOff e f)

/-- The state in which the log has it too. -/
def State.engineLogged (s : State) (e : Nat) (f : Fld) : State :=
  (s.engineShown e f).logReg .engFault e (((s.jobOf e).map (·.1)).getD 0xFF) (teB e)

/-- A job after one more engine has failed on it. -/
def Job.failedOn (j : Job) (e : Nat) : Job := { j with engine := none, fails := (e :: j.fails).eraseDups }

/-- A job waits for another engine. -/
def State.jobBack (s : State) (g : Nat) (j : Job) : State :=
  s.setTg g { s.tg g with jobs := (s.tg g).jobs.map (fun k => if k.seq = j.seq then j else k) }

/-- A job that failed on three engines ends. -/
def State.jobFails (s : State) (g e : Nat) (j : Job) : State :=
  ((s.raise (gtalB g) F.TALLY_STATUS_TALLY_FAIL 0xC7).logReg .tallyFail e g (gtalB g + 0x48)).completeJob g e j true

theorem Part.same.jobOf_eq (h : Part.tal.same s t) (e : Nat) : t.jobOf e = s.jobOf e := by
  have tal : t.tal = s.tal := h
  simp only [State.jobOf, tal]

theorem engineFails_idle (h : s.jobOf e = none) : s.engineFails e f = s.engineLogged e f := by
  have job : ((s.setF (teB e) f 1).satF (teB e) F.TE_FAULTS_COUNT 1).jobOf e = none :=
    (Part.same.jobOf_eq (by simp) e).trans h
  simp only [State.engineFails, job, State.engineLogged, h]
  rfl

theorem engineFails_busy {j : Job} (h : s.jobOf e = some (g, j)) : s.engineFails e f =
    if 3 ≤ (j.failedOn e).fails.length then ((s.engineLogged e f).jobBack g (j.failedOn e)).jobFails g e (j.failedOn e)
    else ((s.engineLogged e f).jobBack g (j.failedOn e)).satF (gtalB g) F.REDISPATCH_COUNT 1 := by
  have job : ((s.setF (teB e) f 1).satF (teB e) F.TE_FAULTS_COUNT 1).jobOf e = some (g, j) :=
    (Part.same.jobOf_eq (by simp) e).trans h
  simp only [State.engineFails, job, State.engineLogged, h]
  rfl

/-- The registers of a fault that are not those of its job. -/
def Fld.faultOnly (f : Fld) : Bool := f.spared && f.apartPage F.TALLY_STATUS_TALLY_FAIL && f.apartPage F.REDISPATCH_COUNT

theorem getF_logReg_tally (hb : TallyBlock b) (ho : f.off < 0x100) (hl : f.lo < 64) (code : LogCode) (unit grp addr : Nat) :
    (s.logReg code unit grp addr).getF b f = s.getF b f :=
  (logReg_quiet _ _ _ _ _ (.refl s)).getF _ _ (hb.prot f ho hl)

theorem getF_jobBack (j : Job) : (s.jobBack g j).getF b f = s.getF b f := (rfl)

theorem getF_jobFails (j : Job) (hb : TallyBlock b) (hf : f.spared = true) : (s.jobFails g e j).getF b f =
    (s.raise (gtalB g) F.TALLY_STATUS_TALLY_FAIL 0xC7).getF b f := by
  obtain ⟨ho, hl⟩ := Fld.inPage_of_spared hf
  exact (getF_completeJob _ _ _ hb hf).trans (getF_logReg_tally hb ho hl ..)

/-- What becomes of the job of an engine leaves the marks of its fault. -/
theorem getF_engineFails (hb : TallyBlock b) {f' : Fld} (hf' : f'.faultOnly = true) :
    (s.engineFails e f).getF b f' = (s.engineLogged e f).getF b f' := by
  simp only [Fld.faultOnly, Bool.and_eq_true] at hf'
  obtain ⟨⟨spared, fail⟩, redispatch⟩ := hf'
  cases h : s.jobOf e with
  | none => rw [engineFails_idle h]
  | some job =>
    rw [engineFails_busy h]
    split
    · exact (getF_jobFails _ hb spared).trans (getF_raise_apartPage _ fail hb.aligned (gtalB_aligned _))
    · exact getF_setF_apartPage _ redispatch hb.aligned (gtalB_aligned _)

theorem getF_engineLogged (hb : TallyBlock b) {f' : Fld} (ho : f'.off < 0x100) (hl : f'.lo < 64) :
    (s.engineLogged e f).getF b f' = (s.engineShown e f).getF b f' := getF_logReg_tally hb ho hl ..

theorem getF_engineShown_te {f' : Fld} (h : f'.apartPage F.TALLY_STATUS_ENG_FAULT = true) :
    (s.engineShown e f).getF (teB m) f' = (s.engineOff e f).getF (teB m) f' :=
  getF_forL _ fun g _ => getF_raise_apartPage _ h (teB_aligned m) (gtalB_aligned g)

/-- The registers of the engine that a fault leaves as the engine goes offline. -/
theorem getF_engineFails_te (he : e < 128) {f' : Fld} (hf' : f'.faultOnly = true)
    (h : f'.apartPage F.TALLY_STATUS_ENG_FAULT = true) :
    (s.engineFails e f).getF (teB e) f' = (s.engineOff e f).getF (teB e) f' := by
  have spared : f'.spared = true := by
    simp only [Fld.faultOnly, Bool.and_eq_true] at hf'
    exact hf'.1.1
  obtain ⟨ho, hl⟩ := Fld.inPage_of_spared spared
  have hb := tallyBlock_te he
  exact (getF_engineFails hb hf').trans ((getF_engineLogged hb ho hl).trans (getF_engineShown_te h))

/-- The flags of an engine's faults. -/
def faultFlds : List Fld := [F.TE_STATUS_PARITY, F.TE_STATUS_RESIDUE, F.TE_STATUS_TIMEOUT]

theorem faultFlds_apart : ∀ f ∈ faultFlds, f.faultOnly = true ∧ f.apartPage F.TALLY_STATUS_ENG_FAULT = true ∧
    f.apartPage F.TE_STATUS_STATE = true ∧ f.apartPage F.TE_FAULTS_COUNT = true ∧ F.TE_FAULTS_COUNT.apartPage f = true ∧
    f.width = 1 := by decide

/-- A fault takes its engine offline with its flag and count. -/
theorem engineFails_engine (he : e < 128) (hf : f ∈ faultFlds) : (s.engineFails e f).teState e = 2 ∧
    (s.engineFails e f).getF (teB e) f = 1 ∧ (s.engineFails e f).getF (teB e) F.TE_FAULTS_COUNT =
      satAdd F.TE_FAULTS_COUNT.width (s.getF (teB e) F.TE_FAULTS_COUNT) 1 := by
  obtain ⟨only, mask, state, count, count', width⟩ := faultFlds_apart f hf
  refine ⟨?_, ?_, ?_⟩
  · exact (getF_engineFails_te he (by decide) (by decide)).trans (getF_setF_of_lt (by decide))
  · refine (getF_engineFails_te he only mask).trans ((getF_setF_te_apart 2 state).trans
      ((getF_setF_te_apart _ count).trans (getF_setF_of_lt ?_)))
    simp [width]
  · refine (getF_engineFails_te he (by decide) (by decide)).trans ((getF_setF_te_apart 2 (by decide)).trans
      ((getF_satF_self 1).trans (congrArg (satAdd _ · 1) (getF_setF_te_apart 1 count'))))

theorem inMask_engineOff (hg : g < 16) (he : m < 128) : (s.engineOff e f).inMask g m = s.inMask g m := by
  simp only [State.engineOff, State.satF, inMask_setF_te hg he]

/-- Every group whose mask holds an engine sees its fault. -/
theorem engFault_engineFails (hg : g < 16) (he : e < 128) (h : s.inMask g e = true) :
    (s.engineFails e f).getF (gtalB g) F.TALLY_STATUS_ENG_FAULT = 1 := by
  have hb := tallyBlock_gtal hg
  have shown : (s.engineShown e f).getF (gtalB g) F.TALLY_STATUS_ENG_FAULT = 1 := by
    refine forL_reaches (P := fun g u => u.getF (gtalB g) F.TALLY_STATUS_ENG_FAULT = 1)
      (fun _ _ => getF_raise_self _) ?_ _ _ g ?_
    · intro x y u hx
      by_cases hxy : x = y
      · exact hxy ▸ getF_raise_self _
      · rw [getF_raise_ne _ _ _ _ _ _ ?_]
        · exact hx
        · simp only [Fld.key, gtalB]
          omega
    · simp [hg, inMask_engineOff hg he, h]
  exact (getF_engineFails hb (by decide)).trans ((getF_engineLogged hb (by decide) (by decide)).trans shown)

theorem tg_engineLogged : (s.engineLogged e f).tg m = s.tg m := by
  have shown : Part.tal.same s (s.engineShown e f) := by simp [State.engineShown, State.engineOff]
  exact Part.same.tg_eq (by simpa [State.engineLogged] using shown) m

theorem redispatch_engineLogged (hg : g < 16) : (s.engineLogged e f).getF (gtalB g) F.REDISPATCH_COUNT =
    s.getF (gtalB g) F.REDISPATCH_COUNT := by
  have low : F.REDISPATCH_COUNT.low (gtalB g) = true := low_gtal hg (by decide) (by decide)
  have shown : (s.engineShown e f).getF (gtalB g) F.REDISPATCH_COUNT = (s.engineOff e f).getF (gtalB g) F.REDISPATCH_COUNT :=
    getF_forL _ fun m _ => getF_raise_apartPage _ (by decide) (gtalB_aligned g) (gtalB_aligned m)
  have off : (s.engineOff e f).getF (gtalB g) F.REDISPATCH_COUNT = s.getF (gtalB g) F.REDISPATCH_COUNT := by
    simp only [State.engineOff, State.satF, getF_setF_te low]
  exact (getF_logReg_low low ..).trans (shown.trans off)

/-- A job whose engine has failed waits for another, and is counted, until it has failed on three. -/
theorem engineFails_redispatches {j : Job} (hg : g < 16) (h : s.jobOf e = some (g, j))
    (few : (j.failedOn e).fails.length < 3) (hj : j ∈ (s.tg g).jobs) :
    j.failedOn e ∈ ((s.engineFails e f).tg g).jobs ∧ (s.engineFails e f).getF (gtalB g) F.REDISPATCH_COUNT =
      satAdd F.REDISPATCH_COUNT.width (s.getF (gtalB g) F.REDISPATCH_COUNT) 1 := by
  rw [engineFails_busy h, if_neg (Nat.not_le.2 few)]
  constructor
  · have back : j.failedOn e ∈ (((s.engineLogged e f).jobBack g (j.failedOn e)).tg g).jobs := by
      simp only [State.jobBack, tg_setTg, if_true, tg_engineLogged, List.mem_map]
      exact ⟨j, hj, if_pos rfl⟩
    rwa [State.satF, tg_setF]
  · exact (getF_satF_self 1).trans (congrArg (satAdd _ · 1) ((getF_jobBack _).trans (redispatch_engineLogged hg)))

/-- A job that has failed on three engines sets TALLY_FAIL and ends. -/
theorem engineFails_ends {j : Job} (hg : g < 16) (h : s.jobOf e = some (g, j))
    (many : 3 ≤ (j.failedOn e).fails.length) : (s.engineFails e f).getF (gtalB g) F.TALLY_STATUS_TALLY_FAIL = 1 ∧
      ∀ k ∈ ((s.engineFails e f).tg g).jobs, k.seq ≠ j.seq := by
  rw [engineFails_busy h, if_pos many]
  refine ⟨(getF_jobFails _ (tallyBlock_gtal hg) (by decide)).trans (getF_raise_self _), ?_⟩
  obtain ⟨bytes, ends⟩ := tg_completeJob (s := (((s.engineLogged e f).jobBack g (j.failedOn e)).raise (gtalB g)
    F.TALLY_STATUS_TALLY_FAIL 0xC7).logReg .tallyFail e g (gtalB g + 0x48)) hg e (j.failedOn e) true
  rw [State.jobFails, ends]
  exact TalGrp.seq_ne_of_mem_complete

section
variable {e : Fin 128}

/-- The two faults of an engine and its watchdog do the same, each with its own flag. -/
theorem exec_fault_of_engine {i : Instr} (h : (i = .engineFault e false ∧ f = F.TE_STATUS_PARITY) ∨
    (i = .engineFault e true ∧ f = F.TE_STATUS_RESIDUE) ∨
      (i = .engineWatchdog e ∧ f = F.TE_STATUS_TIMEOUT ∧ s.jobOf e ≠ none ∧ s.clk 3 = true)) :
    exec i s = .next (s.engineFails e f) ∧ f ∈ faultFlds := by
  rcases h with ⟨rfl, rfl⟩ | ⟨rfl, rfl⟩ | ⟨rfl, rfl, works, on⟩
  · exact ⟨rfl, by decide⟩
  · exact ⟨rfl, by decide⟩
  · refine ⟨congrArg Host.Outcome.next (if_pos ?_), by decide⟩
    rw [on, Bool.true_and, Option.isSome_iff_ne_none]
    exact works

theorem exec_engineWatchdog_idle (h : s.jobOf e = none ∨ s.clk 3 = false) : exec (.engineWatchdog e) s = .next s := by
  rcases h with h | h <;> simp [exec, execEngineWatchdog, h]

theorem exec_teRestore_offline (h : s.teState e = 2) :
    exec (.teRestore e) s = .next (s.setF (teB e) F.TE_STATUS_STATE 0) := congrArg Host.Outcome.next (if_pos h)

theorem exec_teRestore_other (h : s.teState e ≠ 2) : exec (.teRestore e) s = .next s :=
  congrArg Host.Outcome.next (if_neg h)

end

/-! ## The end of draining (R273, R382, R514) -/

theorem releaseRings_quiet (g : Nat) : Quiet s (s.releaseRings g) :=
  .forL _ (fun _ _ h => unbind_quiet _ _ h) (.forL _ (fun _ _ h => unbind_quiet _ _ h) (unsubAll_quiet _ (.refl s)))

theorem getF_statClose_low (h : f.low b = true) (ch kind last : Nat) (st : Stat) :
    (s.statClose ch kind last st).getF b f = s.getF b f := by
  have apart (f' : Fld) : f.key b ≠ f'.key (corrB ch) := by
    rw [Fld.low_iff] at h
    simp only [Fld.key, corrB, chB]
    omega
  have push (ring : Nat) (item : List Byte) : (s.ringPush ring item).1.getF b f = s.getF b f :=
    (ringPush_quiet _ _ _ (.refl s)).getF _ _ (prot_of_low h)
  simp only [State.statClose, getF_ite, State.satF, getF_setF_ne _ _ _ _ _ _ (apart _), push, ite_self]

/-- The statistics of a channel that ends are written to their ring and counted in its own window. -/
theorem getF_statEnd_low (h : f.low b = true) (ch last : Nat) : (s.statEnd ch last).getF b f = s.getF b f := by
  unfold State.statEnd
  extract_lets x fin closed
  have hfin (kind : Nat) (o : Option Stat) (t : State) : (fin kind o t).getF b f = t.getF b f := by
    cases o with
    | none => rfl
    | some st => simp only [fin, getF_ite, getF_statClose_low h, ite_self]
  exact (hfin 2 _ _).trans (hfin 1 _ _)

/-- The state in which the statistics of a drained group are closed and its rings released. -/
def State.drainClosed (s : State) (g : Nat) : State :=
  let t := s.setF (gtalB g) F.TALLY_STATUS_DRAIN 0
  (forL (t.runChans g) (fun ch u => u.statEnd ch (((u.g g).last).getD 0)) t).releaseRings g

theorem same_drainClosed {p : Part} (hp : p ≠ .chan ∧ p ≠ .mem) : p.same s (s.drainClosed g) := by
  simp [State.drainClosed, hp]

theorem getF_drain_drainClosed (hg : g < 16) : (s.drainClosed g).getF (gtalB g) F.TALLY_STATUS_DRAIN = 0 := by
  have low : F.TALLY_STATUS_DRAIN.low (gtalB g) = true := low_gtal hg (by decide) (by decide)
  unfold State.drainClosed
  extract_lets t
  exact ((releaseRings_quiet g).getF _ _ (prot_of_low low)).trans
    ((getF_forL _ fun ch u => getF_statEnd_low low ch _).trans (getF_setF_of_lt (by decide)))

section
variable {g : Fin 16}

theorem exec_drainEnd (draining : (s.g g).st = 3) (drained : s.drained g = true) (pixels : s.pixelsDone g = true) :
    ∃ x : Grp, x.st = 0 ∧ exec (.drainEnd g) s = .next ((s.drainClosed g).setG g x) :=
  ⟨_, rfl, congrArg Host.Outcome.next (if_pos ⟨draining, drained, pixels⟩)⟩

theorem exec_drainEnd_not_done (h : (s.g g).st ≠ 3 ∨ s.drained g = false ∨ s.pixelsDone g = false) :
    exec (.drainEnd g) s = .next s := by
  refine congrArg Host.Outcome.next (if_neg fun ⟨draining, drained, pixels⟩ => ?_)
  rcases h with h | h | h
  · exact h draining
  · exact absurd drained (Bool.eq_false_iff.1 h)
  · exact absurd pixels (Bool.eq_false_iff.1 h)

/-- A group that has nothing left to do is stopped, and no other group notices. -/
theorem drainEnd_stops (draining : (s.g g).st = 3) (drained : s.drained g = true) (pixels : s.pixelsDone g = true) :
    ∃ t, exec (.drainEnd g) s = .next t ∧ (t.g g).st = 0 ∧ t.getF (gtalB g) F.TALLY_STATUS_DRAIN = 0 ∧
      (∀ h : Fin 16, h ≠ g → t.g h = s.g h) ∧ t.tal = s.tal := by
  obtain ⟨x, stopped, ends⟩ := exec_drainEnd draining drained pixels
  have groups : Part.grp.same s (s.drainClosed g) := same_drainClosed (by decide)
  have tally : Part.tal.same s ((s.drainClosed g).setG g x) := (same_setG g x (by decide)).2 (same_drainClosed (by decide))
  refine ⟨_, ends, ?_, ?_, fun h hne => ?_, tally⟩
  · rw [g_setG, if_pos rfl, stopped]
  · rw [getF_setG, getF_drain_drainClosed g.isLt]
  · rw [g_setG, if_neg (Fin.val_ne_of_ne hne), groups.g_eq]

end
end Tally
end Sys2Proof.Machine

namespace Sys2Proof.Proofs

open Sys2Proof.Machine

/-- Settles O36: the descriptor is read the same whoever was served last, what a job reads and writes on the way to its record
keeps the records of its group and its rings (`Completing`), and the engine's own registers lie apart. -/
theorem tallyJobs : Obligations.TallyJobs := by
  unfold Obligations.TallyJobs
  refine ⟨fun s g => ⟨exec_jobDispatch_without_engine, fun _ => exec_jobDispatch_not_turn, fun _ _ => jobDispatch_again,
    fun e d he turn noneWaits works open_ waits entry => ?_⟩, fun s e => ⟨exec_jobComplete_idle, fun g j on job hg => ?_⟩⟩
  · refine jobDispatch_next he turn noneWaits ?_ entry
    simp [State.mayTake, works, open_, waits]
  · obtain ⟨t, bytes, completes, idle, count, entered⟩ := jobComplete_completes on job hg
    refine ⟨t, bytes, completes, idle, count, ?_, ?_⟩
    · rw [entered]
      exact TalGrp.seq_ne_of_mem_complete
    · rw [entered]
      rfl

/-- Settles O37: of the rounds that a release makes, only that of the ring to which the record is owed changes anything, and what
it writes of a ring touches no record of tally. -/
theorem recordRelease : Obligations.RecordRelease := by
  unfold Obligations.RecordRelease
  intro s g
  refine ⟨exec_recordRelease_dup, ?_⟩
  rintro seq bytes r ring dup hr done may rfl
  obtain ⟨t, releases, jobs, rest, dropped⟩ := recordRelease_owed done may dup hr
  refine ⟨t, releases, jobs, fun fits => ?_, fun full drops => ⟨?_, ?_⟩, fun full waits => ?_⟩
  · rw [rest, if_pos (by simp [State.recordGoes, State.resRing, fits])]
  · rw [rest, if_pos (by simp [State.recordGoes, drops])]
  · exact dropped.trans (getF_resDrop_releaseTo done may hr full drops)
  · rw [rest, if_neg (by simp [State.recordGoes, State.resRing, full, waits])]

/-- Settles O38: what becomes of the job leaves the marks of the fault (`getF_engineFails`), and the three faults differ in their
flag alone. -/
theorem tallyFaults : Obligations.TallyFaults := by
  unfold Obligations.TallyFaults
  refine ⟨fun s e i f h => ?_, fun s e => exec_engineWatchdog_idle,
    fun s e => ⟨exec_teRestore_offline, exec_teRestore_other⟩⟩
  obtain ⟨fails, flag⟩ := exec_fault_of_engine h
  obtain ⟨offline, flagged, counted⟩ := engineFails_engine (s := s) e.isLt flag
  exact ⟨_, fails, offline, flagged, counted, fun g hg mask => engFault_engineFails hg e.isLt mask,
    fun g j job hg => ⟨engineFails_redispatches hg job, engineFails_ends hg job⟩⟩

/-- Settles O39: what closes the statistics and releases the rings touches no group and no record of tally, and DRAIN lies below
all of it. -/
theorem drainEnds : Obligations.DrainEnds := by
  unfold Obligations.DrainEnds
  exact fun s g => ⟨drainEnd_stops, exec_drainEnd_not_done⟩

end Sys2Proof.Proofs

/-! # Marking: the compare units (O40, O41) -/

namespace Sys2Proof.Machine

section Compare
variable {s t : State} {u m : Nat} {f f' : Fld} {e : Int × Nat}

/-! ## The registers and the record of a unit -/

theorem cmpB_aligned (u : Nat) : cmpB u % 0x100 = 0 := by
  rw [cmpB]
  omega

theorem low_cmp (hu : u < 16) (ho : f.off < 0x100) (hl : f.lo < 64) : f.low (cmpB u) = true := by
  rw [Fld.low_iff, cmpB]
  omega

theorem getF_setF_cmp (v : Nat) (h : f.apartPage f' = true) : (s.setF (cmpB u) f' v).getF (cmpB m) f = s.getF (cmpB m) f :=
  getF_setF_apartPage v h (cmpB_aligned m) (cmpB_aligned u)

theorem getF_satF_cmp (n : Nat) (h : f.apartPage f' = true) : (s.satF (cmpB u) f' n).getF (cmpB m) f = s.getF (cmpB m) f :=
  getF_setF_cmp _ h

theorem getF_raise_cmp (n : Nat) (h : f.apartPage f' = true) : (s.raise (cmpB u) f' n).getF (cmpB m) f = s.getF (cmpB m) f :=
  getF_raise_apartPage n h (cmpB_aligned m) (cmpB_aligned u)

theorem Part.same.cmp_eq (h : Part.cmp.same s t) : t.cmp = s.cmp := h

theorem Part.same.c_eq (h : Part.cmp.same s t) (m : Nat) : t.c m = s.c m := congrArg (Tab.get ({} : Cmp) m) h

@[simp] theorem c_setC (x : Cmp) : (s.setC u x).c m = if m = u then x else s.c m := by
  simp [State.c, State.setC, State.setI]

/-- A write of a unit's record shows in the two registers that follow the list, and in no other (R351). -/
theorem getF_setC (x : Cmp) (hn : f.apartPage F.CMP_NEXT_POS = true) (he : f.apartPage F.CMP_STATUS_ENTRIES = true) :
    (s.setC u x).getF (cmpB m) f = s.getF (cmpB m) f :=
  (getF_setF_cmp _ he).trans (getF_setF_cmp _ hn)

@[simp] theorem out_setC (x : Cmp) : (s.setC u x).out = s.out := by simp [State.setC, State.setI]

theorem Fld.inPage_of_apartPage (h : f.apartPage f' = true) : f.off < 0x100 ∧ f.lo < 64 := by
  simp only [Fld.apartPage, Bool.and_eq_true, decide_eq_true_eq] at h
  omega

/-! ## The fire log (R328) -/

@[simp] theorem c_flog (flags : Nat) : (s.flog u e flags).c m = s.c m := Part.same.c_eq (by simp) m

theorem getF_flog (hm : m < 16) (flags : Nat) (h : f.apartPage F.FLOG_DROP_COUNT = true) :
    (s.flog u e flags).getF (cmpB m) f = s.getF (cmpB m) f := by
  obtain ⟨ho, hl⟩ := Fld.inPage_of_apartPage h
  have push (ring : Nat) (item : List Byte) : (s.ringPush ring item).1.getF (cmpB m) f = s.getF (cmpB m) f :=
    (ringPush_quiet _ _ _ (.refl s)).getF _ _ (prot_of_low (low_cmp hm ho hl))
  simp only [State.flog, getF_ite, getF_satF_cmp 1 h, push, ite_self]

/-! ## An entry on its way into the list (R320, R321, R326) -/

/-- A unit whose list and late entries are full. -/
def Cmp.full (c : Cmp) : Prop := 4096 ≤ c.list.length + c.late.length

/-- The state in which a late entry has been counted and logged (R321, R328). -/
def State.lateCounted (s : State) (u : Nat) (e : Int × Nat) : State :=
  ((s.raise (cmpB u) F.CMP_STATUS_LATE 0xCB).satF (cmpB u) F.CMP_LATE_COUNT 1).flog u e 2

@[simp] theorem c_lateCounted : (s.lateCounted u e).c m = s.c m := Part.same.c_eq (by simp [State.lateCounted]) m

theorem cmpInsert_of_full (h : (s.c u).full) : s.cmpInsert u e =
    (s.raise (cmpB u) F.CMP_STATUS_FULL 0xCA).satF (cmpB u) F.CMP_DROP_COUNT 1 := if_pos h

theorem cmpInsert_of_late (room : ¬ (s.c u).full) (on : s.cmpOn u = true) (passed : s.firePoint u e.1 ≤ s.chwm u) :
    s.cmpInsert u e = if (s.lateCounted u e).flag (cmpB u) F.CMP_CTRL_LATE_MODE then
      (s.lateCounted u e).setC u { s.c u with late := (s.c u).late ++ [e] } else s.lateCounted u e := by
  have late : (s.cmpOn u && decide (s.firePoint u e.1 ≤ s.chwm u)) = true := by simp [on, passed]
  have record : (s.lateCounted u e).c u = s.c u := c_lateCounted
  rw [← record]
  exact (if_neg room).trans (if_pos late)

theorem cmpInsert_of_ahead (room : ¬ (s.c u).full) (ahead : s.cmpOn u = false ∨ s.chwm u < s.firePoint u e.1) :
    s.cmpInsert u e = s.setC u { s.c u with list := cmpPlace e (s.c u).list } := by
  have inTime : ¬ (s.cmpOn u && decide (s.firePoint u e.1 ≤ s.chwm u)) = true := by
    rcases ahead with off | ahead
    · simp [off]
    · simp [ahead]
  exact (if_neg room).trans (if_neg inTime)

/-- A full unit discards the entry, counted, with FULL. -/
theorem cmpInsert_discards (h : (s.c u).full) : (s.cmpInsert u e).cmp = s.cmp ∧
    (s.cmpInsert u e).getF (cmpB u) F.CMP_STATUS_FULL = 1 ∧ (s.cmpInsert u e).getF (cmpB u) F.CMP_DROP_COUNT =
      satAdd F.CMP_DROP_COUNT.width (s.getF (cmpB u) F.CMP_DROP_COUNT) 1 := by
  rw [cmpInsert_of_full h]
  refine ⟨Part.same.cmp_eq (by simp), ?_, ?_⟩
  · exact (getF_satF_cmp 1 (by decide)).trans (getF_raise_self _)
  · exact (getF_satF_self 1).trans (congrArg (satAdd _ · 1) (getF_raise_cmp _ (by decide)))

theorem getF_lateCounted (hu : u < 16) (hl : f.apartPage F.CMP_STATUS_LATE = true)
    (hc : f.apartPage F.CMP_LATE_COUNT = true) (hd : f.apartPage F.FLOG_DROP_COUNT = true) :
    (s.lateCounted u e).getF (cmpB u) f = s.getF (cmpB u) f :=
  (getF_flog hu 2 hd).trans ((getF_satF_cmp 1 hc).trans (getF_raise_cmp _ hl))

/-- The counted state reads LATE, the count and LATE_MODE, which the record's write leaves alone. -/
theorem cmpInsert_reads_of_late (room : ¬ (s.c u).full) (on : s.cmpOn u = true)
    (passed : s.firePoint u e.1 ≤ s.chwm u) (hn : f.apartPage F.CMP_NEXT_POS = true)
    (he : f.apartPage F.CMP_STATUS_ENTRIES = true) :
    (s.cmpInsert u e).getF (cmpB u) f = (s.lateCounted u e).getF (cmpB u) f := by
  rw [cmpInsert_of_late room on passed, getF_ite, getF_setC _ hn he, ite_self]

/-- A late entry is counted, with LATE, and waits for the next cycle in LATE_MODE only. -/
theorem cmpInsert_counts_late (hu : u < 16) (room : ¬ (s.c u).full) (on : s.cmpOn u = true)
    (passed : s.firePoint u e.1 ≤ s.chwm u) : (s.cmpInsert u e).getF (cmpB u) F.CMP_STATUS_LATE = 1 ∧
      ((s.cmpInsert u e).c u).list = (s.c u).list ∧ (s.cmpInsert u e).getF (cmpB u) F.CMP_LATE_COUNT =
        satAdd F.CMP_LATE_COUNT.width (s.getF (cmpB u) F.CMP_LATE_COUNT) 1 ∧ ((s.cmpInsert u e).c u).late =
          if s.flag (cmpB u) F.CMP_CTRL_LATE_MODE then (s.c u).late ++ [e] else (s.c u).late := by
  have mode : (s.lateCounted u e).flag (cmpB u) F.CMP_CTRL_LATE_MODE = s.flag (cmpB u) F.CMP_CTRL_LATE_MODE :=
    congrArg (· == 1) (getF_lateCounted hu (by decide) (by decide) (by decide))
  refine ⟨?_, ?_, ?_, ?_⟩
  · rw [cmpInsert_reads_of_late room on passed (by decide) (by decide)]
    exact (getF_flog hu 2 (by decide)).trans ((getF_satF_cmp 1 (by decide)).trans (getF_raise_self _))
  · rw [cmpInsert_of_late room on passed]
    split <;> simp
  · rw [cmpInsert_reads_of_late room on passed (by decide) (by decide)]
    exact (getF_flog hu 2 (by decide)).trans ((getF_satF_self 1).trans (congrArg (satAdd _ · 1) (getF_raise_cmp _ (by decide))))
  · rw [cmpInsert_of_late room on passed, mode]
    split <;> simp

/-- An empty list shows no entry, and the largest position as the next one (R351). -/
theorem cmpClear_shows_empty : (s.cmpClear u).getF (cmpB u) F.CMP_STATUS_ENTRIES = 0 ∧
    (s.cmpClear u).getF (cmpB u) F.CMP_NEXT_POS = 2 ^ 63 - 1 := by
  have largest : ofInt F.CMP_NEXT_POS.width 0x7FFFFFFFFFFFFFFF % 2 ^ F.CMP_NEXT_POS.width = 2 ^ 63 - 1 := by decide
  exact ⟨getF_setF_of_lt (v := 0) (by decide), (getF_setF_cmp 0 (by decide)).trans ((getF_setF_same ..).trans largest)⟩

end Compare
end Sys2Proof.Machine

namespace Sys2Proof.Proofs

open Sys2Proof.Machine

/-- Settles O40: an entry is discarded, late or ahead of its fire point (`cmpInsert_of_full`, `cmpInsert_of_late`,
`cmpInsert_of_ahead`). -/
theorem compareList : Obligations.CompareList := by
  unfold Obligations.CompareList
  rintro s u e rfl
  refine ⟨⟨_, rfl, Part.same.grp_eq (by simp), cmpInsert_discards, fun room => ?_⟩, _, rfl, ?_, ?_, ?_, ?_, ?_⟩
  · have room : ¬ (s.c u).full := Nat.not_le.2 room
    refine ⟨cmpInsert_counts_late u.isLt room, fun ahead => ?_⟩
    rw [cmpInsert_of_ahead room ahead]
    simp
  · simp [State.cmpClear]
  · simp [State.cmpClear]
  · exact cmpClear_shows_empty.1
  · exact cmpClear_shows_empty.2
  · simp [State.cmpClear]

end Sys2Proof.Proofs

namespace Sys2Proof.Machine

section Source
variable {s t : State} {u m b : Nat} {f f' : Fld} {e : Int × Nat}

/-! ## What a fire leaves of a unit's registers (R318, R319) -/

/-- The fields that a fire writes, and those that follow the list. -/
def fireFlds : List Fld := [F.CMP_FIRES_COUNT, F.CMP_STATUS_FIRE_EV, F.CMP_MERGE_COUNT, F.CMP_HELD_COUNT,
  F.FLOG_DROP_COUNT, F.AUTO_DROP_COUNT, F.CMP_STATUS_ACTIVE, F.CMP_NEXT_POS, F.CMP_STATUS_ENTRIES]

theorem getF_autoJob (id : Nat) (h : f.apartPage F.AUTO_DROP_COUNT = true) :
    (s.autoJob id).getF (cmpB m) f = s.getF (cmpB m) f := by
  have dropped : (s.satF thB F.AUTO_DROP_COUNT 1).getF (cmpB m) f = s.getF (cmpB m) f :=
    getF_setF_apartPage _ h (cmpB_aligned m) rfl
  have queued (t : Tag) : ({ s with tag := t } : State).getF (cmpB m) f = s.getF (cmpB m) f := rfl
  simp only [State.autoJob, getF_ite, dropped, queued, ite_self]

theorem getF_cmpPin (active : Bool) (h : f.apartPage F.CMP_STATUS_ACTIVE = true) :
    (s.cmpPin u active).getF (cmpB m) f = s.getF (cmpB m) f := by
  simp only [State.cmpPin, State.markEmit, getF_ite, getF_emit, getF_setF_cmp _ h, ite_self]

theorem getF_cmpFireOne (hu : u < 16) (extra : Bool) (h : fireFlds.all f.apartPage = true) :
    (s.cmpFireOne u extra e).getF (cmpB u) f = s.getF (cmpB u) f := by
  simp only [fireFlds, List.all_cons, List.all_nil, Bool.and_true, Bool.and_eq_true] at h
  obtain ⟨fires, event, merge, held, flogDrop, autoDrop, active, next, entries⟩ := h
  simp only [State.cmpFireOne, getF_ite, getF_flog hu _ flogDrop, getF_satF_cmp _ held, getF_satF_cmp _ merge,
    getF_raise_cmp _ event, getF_satF_cmp _ fires, getF_autoJob _ autoDrop, getF_setC _ next entries,
    getF_cmpPin _ active, ite_self]

theorem getF_cmpFireAll (hu : u < 16) (h : fireFlds.all f.apartPage = true) (L : List (Int × Nat)) :
    (s.cmpFireAll u L).getF (cmpB u) f = s.getF (cmpB u) f := by
  cases L with
  | nil => rfl
  | cons e L => exact (getF_forL L fun _ _ => getF_cmpFireOne hu true h).trans (getF_cmpFireOne hu false h)

theorem getF_cmpScan (hu : u < 16) (h : fireFlds.all f.apartPage = true) :
    (s.cmpScan u).getF (cmpB u) f = s.getF (cmpB u) f := by
  have listed : f.apartPage F.CMP_NEXT_POS = true ∧ f.apartPage F.CMP_STATUS_ENTRIES = true := by
    simp only [fireFlds, List.all_cons, List.all_nil, Bool.and_true, Bool.and_eq_true] at h
    exact h.2.2.2.2.2.2.2
  simp only [State.cmpScan, getF_ite, getF_cmpFireAll hu h, getF_setC _ listed.1 listed.2, ite_self]

theorem cmpOn_congr (h : t.getF (cmpB u) F.CMP_CTRL_EN = s.getF (cmpB u) F.CMP_CTRL_EN) : t.cmpOn u = s.cmpOn u :=
  congrArg (· == 1) h

theorem chwm_congr (h : t.getF (cmpB u) F.CMP_HWM_CHWM = s.getF (cmpB u) F.CMP_HWM_CHWM) : t.chwm u = s.chwm u :=
  congrArg (toInt _) h

theorem cmpOn_cmpScan (hu : u < 16) : (s.cmpScan u).cmpOn u = s.cmpOn u := cmpOn_congr (getF_cmpScan hu (by decide))

theorem chwm_cmpScan (hu : u < 16) : (s.cmpScan u).chwm u = s.chwm u := chwm_congr (getF_cmpScan hu (by decide))

/-! ## The start of a unit whose source is a position channel (R316) -/

theorem toInt_ofInt_toInt (w n : Nat) : toInt w (ofInt w (toInt w n) % 2 ^ w) = toInt w n := by
  have back : ofInt w (toInt w n) = n % 2 ^ w := by
    have cut : (Int.ofNat (n % 2 ^ w)) % Int.ofNat (2 ^ w) = Int.ofNat (n % 2 ^ w) := by
      exact congrArg Int.ofNat (Nat.mod_mod n (2 ^ w))
    rw [ofInt, toInt]
    split
    · rw [cut]
      rfl
    · rw [Int.sub_emod_right, cut]
      rfl
  rw [back, Nat.mod_mod, toInt, toInt, Nat.mod_mod]

/-- The unit enabled with its mark at the position, before its rings are bound. -/
def State.cmpMarked (s : State) (u : Nat) : State :=
  let s := s.setF (cmpB u) F.CMP_CTRL_EN 1
  (s.setI (cmpB u) F.CMP_HWM_CHWM (s.posCount (s.getF (cmpB u) F.CMP_CTRL_SRC))).leadCnt u

/-- The unit with its rings bound. -/
def State.cmpBound (s : State) (u : Nat) : State :=
  let b := cmpB u
  let s := s.cmpMarked u
  let s := if s.flag b F.CMP_CTRL_FILL_EN then
      (s.bind (s.getF b F.CMP_FILL_RING_RING) b false).subBlock (s.getF b F.CMP_FILL_RING_RING) b
    else s
  if s.flag b F.CMP_CTRL_FLOG_EN then s.bind (s.getF b F.CMP_FLOG_RING_RING) b true else s

theorem cmpStart_eq : s.cmpStart u = (s.cmpBound u).cmpFollow u := rfl

theorem cmpBound_quiet : Quiet (s.cmpMarked u) (s.cmpBound u) := by
  have filled : Quiet (s.cmpMarked u) _ := Quiet.ite (c := (s.cmpMarked u).flag (cmpB u) F.CMP_CTRL_FILL_EN = true)
    (subBlock_quiet _ ((s.cmpMarked u).getF (cmpB u) F.CMP_FILL_RING_RING) (cmpB u)
      (bind_quiet _ ((s.cmpMarked u).getF (cmpB u) F.CMP_FILL_RING_RING) (cmpB u) false (.refl _))) (.refl _)
  exact Quiet.ite (bind_quiet _ _ _ _ filled) filled

/-- A position channel lies below the compare units, which write none of its registers. -/
theorem getF_pos_setF_cmp {p v : Nat} (hp : p < 8) (ho : f.off < 0x100) (hl : f.lo < 64) :
    (s.setF (cmpB u) f' v).getF (posB p) f = s.getF (posB p) f := by
  refine getF_setF_ne _ _ _ _ _ _ ?_
  simp only [Fld.key, posB, cmpB]
  omega

theorem posCount_cmpBound {p : Nat} (hp : p < 8) : (s.cmpBound u).posCount p = s.posCount p := by
  have low : F.POS_COUNT_COUNT.low (posB p) = true := by
    rw [Fld.low_iff, posB]
    exact ⟨by simp only [F.POS_COUNT_COUNT]; omega, by decide⟩
  have marked : (s.cmpMarked u).getF (posB p) F.POS_COUNT_COUNT = s.getF (posB p) F.POS_COUNT_COUNT := by
    simp only [State.cmpMarked, State.leadCnt, State.setI, getF_pos_setF_cmp hp (f := F.POS_COUNT_COUNT) (by decide) (by decide)]
  exact congrArg (toInt _) ((cmpBound_quiet.getF _ _ (prot_of_low low)).trans marked)

theorem getF_cmpBound (hu : u < 16) (ho : f.off < 0x100) (hl : f.lo < 64) :
    (s.cmpBound u).getF (cmpB u) f = (s.cmpMarked u).getF (cmpB u) f :=
  cmpBound_quiet.getF _ _ (prot_of_low (low_cmp hu ho hl))

theorem chwm_setI_posCount (p : Nat) : (t.setI (cmpB u) F.CMP_HWM_CHWM (s.posCount p)).chwm u = s.posCount p := by
  rw [State.chwm, State.getI, State.setI, getF_setF_same]
  exact toInt_ofInt_toInt _ _

/-- A unit with its rings bound is enabled, and its mark is the position of its source. -/
theorem cmpBound_reads (hu : u < 16) : (s.cmpBound u).cmpOn u = true ∧
    (s.cmpBound u).getF (cmpB u) F.CMP_CTRL_SRC = s.getF (cmpB u) F.CMP_CTRL_SRC ∧
    (s.cmpBound u).chwm u = (s.setF (cmpB u) F.CMP_CTRL_EN 1).posCount (s.getF (cmpB u) F.CMP_CTRL_SRC) := by
  have source : (s.setF (cmpB u) F.CMP_CTRL_EN 1).getF (cmpB u) F.CMP_CTRL_SRC = s.getF (cmpB u) F.CMP_CTRL_SRC :=
    getF_setF_cmp 1 (by decide)
  refine ⟨beq_iff_eq.2 ?_, ?_, ?_⟩
  · exact (getF_cmpBound hu (by decide) (by decide)).trans ((getF_setF_cmp _ (by decide)).trans
      ((getF_setF_cmp _ (by decide)).trans (getF_setF_of_lt (by decide))))
  · exact (getF_cmpBound hu (by decide) (by decide)).trans ((getF_setF_cmp _ (by decide)).trans
      ((getF_setF_cmp _ (by decide)).trans source))
  · rw [← source, ← chwm_setI_posCount (t := s.setF (cmpB u) F.CMP_CTRL_EN 1)]
    exact congrArg (toInt _) ((getF_cmpBound hu (by decide) (by decide)).trans (getF_setF_cmp _ (by decide)))

/-- Where the source is a position channel, the unit starts with the position as its mark, whether or not that channel is
valid. -/
theorem cmpStart_marks_position (hu : u < 16) (source : s.getF (cmpB u) F.CMP_CTRL_SRC < 8) :
    (s.cmpStart u).cmpOn u = true ∧ (s.cmpStart u).chwm u = s.posCount (s.getF (cmpB u) F.CMP_CTRL_SRC) := by
  obtain ⟨on, src, mark⟩ := cmpBound_reads (s := s) hu
  generalize s.getF (cmpB u) F.CMP_CTRL_SRC = p at source src mark
  have enabled : (s.setF (cmpB u) F.CMP_CTRL_EN 1).posCount p = s.posCount p :=
    congrArg (toInt _) (getF_pos_setF_cmp source (by decide) (by decide))
  rw [enabled] at mark
  have position : (s.cmpBound u).posCount p = s.posCount p := posCount_cmpBound source
  rw [cmpStart_eq, State.cmpFollow, if_pos on]
  simp only [src, mark, position, max_self]
  rw [cmpOn_cmpScan hu, chwm_cmpScan hu]
  split
  · exact ⟨(cmpOn_congr (getF_setF_cmp _ (by decide))).trans on, chwm_setI_posCount p⟩
  · exact ⟨on, mark⟩

end Source
end Sys2Proof.Machine

namespace Sys2Proof.Machine

/-! ## A source that is no position channel (O41)

CMP_CTRL.SRC has three bits, but a state may hold any number under its key. The page of "channel" 0x106D00 is that of the first
memory controller, and its count lies under the key of MC_EVENT.CE_EV. -/

/-- A unit whose source is that page: its fire log is a ring whose context lies in a block with one wrong symbol, in memory that
is on. Its tables are in canonical order. -/
def State.straySource : State :=
  { State.reset with
    regs := [(F.CMP_CTRL_SRC.key (cmpB 0), 0x106D00), (F.CMP_CTRL_FLOG_EN.key (cmpB 0), 1),
      (F.CMP_FLOG_RING_RING.key (cmpB 0), 0x100), ((F.DOM_ON_ON.nth 2).key pwrB, 4),
      (F.POS_STATUS_VALID.key (posB 0x106D00), 1)]
    rings := [(0x100, { valid := true })]
    memBad := [(0x100, 1)] }

theorem straySource_may_start : State.straySource.cmpOn (0 : Fin 16) = false ∧
    State.straySource.cmpStatus (0 : Fin 16) = 0 := by decide +kernel

/-- The start binds the ring and so reads its context; the corrected error of that read moves the count that the unit follows. -/
theorem straySource_moves :
    State.straySource.posCount (State.straySource.getF (cmpB (0 : Fin 16)) F.CMP_CTRL_SRC) = 0 ∧
      (State.straySource.cmpStart (0 : Fin 16)).chwm (0 : Fin 16) = 1 := by decide +kernel

theorem exec_cmpEnable_of_off {s : State} {u : Fin 16} (off : s.cmpOn u = false) (may : s.cmpStatus u = 0) :
    exec (.cmpEnable u) s = .next (s.cmpStart u) := congrArg Host.Outcome.next (if_pos (by simp [off, may]))

end Sys2Proof.Machine

namespace Sys2Proof.Proofs

open Sys2Proof.Machine

/-- Refutes O41: the statement is of every state, also of one that holds more in SRC than its three bits. There the position may
be a register that the start itself writes, and the high-water mark is then not the position before the start. Where SRC names a
position channel, the clause that fails here holds (`cmpStart_marks_position`). -/
theorem not_compareUnits : ¬ Obligations.CompareUnits := by
  unfold Obligations.CompareUnits
  intro h
  obtain ⟨off, may⟩ := straySource_may_start
  obtain ⟨before, after⟩ := straySource_moves
  obtain ⟨t, starts, -, mark, -⟩ := (h State.straySource 0).1 off may
  obtain rfl := Host.Outcome.next.inj ((exec_cmpEnable_of_off off may).symm.trans starts)
  rw [before, after] at mark
  exact absurd mark (by decide)

end Sys2Proof.Proofs

/-! # Marking: the tag head and its cassette (O42 to O44) -/

namespace Sys2Proof.Machine

section TagHead
variable {s t : State} {b : Nat} {f f' : Fld} {o : Out}

/-! ## The registers of the tag head, and its records -/

theorem low_th (ho : f.off < 0x100) (hl : f.lo < 64) : f.low thB = true := by
  rw [Fld.low_iff, thB]
  omega

theorem getF_setF_th (v : Nat) (h : f.apartPage f' = true) : (s.setF thB f' v).getF thB f = s.getF thB f :=
  getF_setF_apartPage v h rfl rfl

theorem getF_satF_th (n : Nat) (h : f.apartPage f' = true) : (s.satF thB f' n).getF thB f = s.getF thB f :=
  getF_setF_th _ h

theorem getF_raise_th (n : Nat) (h : f.apartPage f' = true) : (s.raise thB f' n).getF thB f = s.getF thB f :=
  getF_raise_apartPage n h rfl rfl

/-- The DMA channels lie above the marking blocks. -/
theorem getF_setF_dma (c v : Nat) (h : f.low b = true) : (s.setF (dmaB c) f' v).getF b f = s.getF b f := by
  refine getF_setF_ne _ _ _ _ _ _ ?_
  rw [Fld.low_iff] at h
  simp only [Fld.key, dmaB]
  omega

theorem getF_markEmit : (s.markEmit o).getF b f = s.getF b f := by
  simp only [State.markEmit, getF_ite, getF_emit, ite_self]

theorem out_markEmit : (s.markEmit o).out = if s.reRunning then s.out else s.out ++ [o] := by
  rw [State.markEmit]
  split <;> rfl

theorem Part.same.tag_eq (h : Part.tag.same s t) : t.tag = s.tag := h

theorem Part.same.cass_eq (h : Part.cass.same s t) : t.cass = s.cass := h

/-! ## The cassette exchange (R346, R348) -/

theorem cass_cassStart (cmd : Nat) (nonce : List Byte) :
    (s.cassStart cmd nonce).cass = { s.cass with cmd := cmd, nonce := nonce } :=
  Part.same.cass_eq (same_cassSend.2 (same_refl _ _))

theorem getF_cassStart (cmd : Nat) (nonce : List Byte) : (s.cassStart cmd nonce).getF b f = s.getF b f := getF_markEmit

theorem regs_cassStart (cmd : Nat) (nonce : List Byte) : (s.cassStart cmd nonce).regs = s.regs := by
  simp only [State.cassStart, State.cassSend, State.markEmit]
  split <;> rfl

theorem authenticate_of_idle (h : s.cass.cmd = 0) : s.authenticate = s.cassStart 1 [] := if_pos h

theorem authenticate_of_decrement (h : s.cass.cmd = 3) :
    s.authenticate = { s with cass := { s.cass with again := true } } := by
  simp [State.authenticate, h]

theorem authenticate_of_authenticating (h0 : s.cass.cmd ≠ 0) (h3 : s.cass.cmd ≠ 3) : s.authenticate = s := by
  simp [State.authenticate, h0, h3]

/-- A request of authentication begins one where no exchange runs. -/
theorem cmd_authenticate : s.authenticate.cass.cmd = if s.cass.cmd = 0 then 1 else s.cass.cmd := by
  unfold State.authenticate
  split
  · rw [cass_cassStart]
  · split <;> rfl

theorem again_authenticate (h : s.cass.cmd = 3) : s.authenticate.cass.again = true := by
  rw [authenticate_of_decrement h]

theorem closing_authenticate : s.authenticate.cass.closing = s.cass.closing := by
  unfold State.authenticate
  split
  · rw [cass_cassStart]
  · split <;> rfl

theorem regs_authenticate : s.authenticate.regs = s.regs := by
  unfold State.authenticate
  split
  · exact regs_cassStart _ _
  · split <;> rfl

theorem getF_authenticate : s.authenticate.getF b f = s.getF b f := by
  simp only [State.authenticate, getF_ite, getF_cassStart]
  split
  · rfl
  · split <;> rfl

theorem tag_authenticate : s.authenticate.tag = s.tag := Part.same.tag_eq (by simp)

/-- The state in which the exchange under way is over. -/
def State.cassIdle (s : State) : State := { s with cass := { s.cass with cmd := 0, nonce := [], again := false } }

theorem cassEnd_eq : s.cassEnd = if s.cass.again then s.cassIdle.authenticate else s.cassIdle := rfl

/-- An authentication that waited for the end of the exchange begins there. -/
theorem cmd_cassEnd : s.cassEnd.cass.cmd = if s.cass.again then 1 else 0 := by
  rw [cassEnd_eq]
  split
  · exact cmd_authenticate
  · rfl

theorem getF_cassEnd : s.cassEnd.getF b f = s.getF b f := by
  rw [cassEnd_eq, getF_ite, getF_authenticate]
  exact ite_self _

theorem tag_cassEnd : s.cassEnd.tag = s.tag := Part.same.tag_eq (by simp)

/-! ## Conditions and voids (R337, R339, R340) -/

/-- The registers that settle the cause of a void. -/
def causeFlds : List Fld := [F.TH_HARD_HARD, F.TH_STATUS_OPEN, F.TH_STATUS_JAM, F.TH_STATUS_STOCK]

theorem tagCause_congr (temp : t.tag.temp = s.tag.temp) (h : ∀ f ∈ causeFlds, t.getF thB f = s.getF thB f) :
    t.tagCause = s.tagCause := by
  have reads (f : Fld) (hf : f ∈ causeFlds) : t.flag thB f = s.flag thB f := congrArg (· == 1) (h f hf)
  have hard : t.getI thB F.TH_HARD_HARD = s.getI thB F.TH_HARD_HARD := congrArg (toInt _) (h _ (by decide))
  unfold State.tagCause
  rw [temp, hard, reads F.TH_STATUS_OPEN (by decide), reads F.TH_STATUS_JAM (by decide),
    reads F.TH_STATUS_STOCK (by decide)]

/-- An open head is the cause where the temperature allows printing. -/
theorem tagCause_of_open {v : Int} (temp : s.tag.temp = some v) (cool : v < s.getI thB F.TH_HARD_HARD)
    (opened : s.getF thB F.TH_STATUS_OPEN = 1) : s.tagCause = some 2 := by
  simp [State.tagCause, temp, cool, State.flag, opened]

theorem tagFeed_of_not_void (h : s.tag.phase ≠ .void) : s.tagFeed = s := by
  simp [State.tagFeed, h]

theorem getF_tagFeed : s.tagFeed.getF b f = s.getF b f := by
  have feeds (l : Nat) : ((s.markEmit (.feed l)).tagPhase .ended).getF b f = s.getF b f := getF_markEmit
  rw [State.tagFeed, getF_ite, feeds, ite_self]

/-- The state in which a void has shown itself: the strobe cut, counted, flagged, logged, and the head no longer busy. -/
def State.voidShown (s : State) : State :=
  ((((s.markEmit (.level .strobe false)).satF thB F.VOID_CNT_COUNT 1).raise thB F.TH_STATUS_VOID_EV 0xCC).logReg
    .tagVoid 9 0xFF (thB + 0x80)).setF thB F.TH_STATUS_BUSY 0

/-- A tag voided with a status. -/
def Tag.voided (t : Tag) (status : Nat) : Tag :=
  { t with
    status := status
    passes := []
    rows := []
    waiting := false
    phase := if status = 1 ∨ status = 3 then .void else .ended
    again := if t.job.reprint then t.again ++ [t.job] else t.again }

theorem tag_voidShown : s.voidShown.tag = s.tag := Part.same.tag_eq (by simp [State.voidShown])

theorem tagVoid_eq (status : Nat) : s.tagVoid status = (s.voidShown.setTag (s.tag.voided status)).tagFeed := by
  rw [← tag_voidShown]
  rfl

/-- A void that does not wait for its cause to clear is over at once. -/
theorem tag_tagVoid {status : Nat} (h : ¬ (status = 1 ∨ status = 3)) : (s.tagVoid status).tag = s.tag.voided status := by
  have ended : (s.tag.voided status).phase = .ended := if_neg h
  rw [tagVoid_eq, tagFeed_of_not_void]
  · rfl
  · simp [State.setTag, ended]

theorem getF_tagVoid (status : Nat) : (s.tagVoid status).getF b f = s.voidShown.getF b f := by
  rw [tagVoid_eq, getF_tagFeed, getF_setTag]

/-- The fields of the head that a void writes. -/
def voidFlds : List Fld := [F.VOID_CNT_COUNT, F.TH_STATUS_VOID_EV, F.TH_STATUS_BUSY]

theorem getF_logReg_th (h : f.apartPage f' = true) (code : LogCode) (unit grp addr : Nat) :
    (s.logReg code unit grp addr).getF thB f = s.getF thB f :=
  getF_logReg_low (low_th (Fld.inPage_of_apartPage h).1 (Fld.inPage_of_apartPage h).2) ..

theorem getF_voidShown (h : voidFlds.all f.apartPage = true) : s.voidShown.getF thB f = s.getF thB f := by
  simp only [voidFlds, List.all_cons, List.all_nil, Bool.and_true, Bool.and_eq_true] at h
  obtain ⟨count, event, busy⟩ := h
  exact (getF_setF_th 0 busy).trans ((getF_logReg_th busy ..).trans ((getF_raise_th _ event).trans
    ((getF_satF_th 1 count).trans getF_markEmit)))

/-- A void is counted and flagged, and the head is no longer busy. -/
theorem tagVoid_shows (status : Nat) : (s.tagVoid status).getF thB F.TH_STATUS_VOID_EV = 1 ∧
    (s.tagVoid status).getF thB F.TH_STATUS_BUSY = 0 ∧ (s.tagVoid status).getF thB F.VOID_CNT_COUNT =
      satAdd F.VOID_CNT_COUNT.width (s.getF thB F.VOID_CNT_COUNT) 1 := by
  have logged {f : Fld} (u : State) (hf : f.apartPage F.TH_STATUS_BUSY = true) :
      ((u.logReg .tagVoid 9 0xFF (thB + 0x80)).setF thB F.TH_STATUS_BUSY 0).getF thB f = u.getF thB f :=
    (getF_setF_th 0 hf).trans (getF_logReg_th hf ..)
  simp only [getF_tagVoid]
  refine ⟨?_, getF_setF_of_lt (by decide), ?_⟩
  · exact (getF_setF_th 0 (by decide)).trans ((getF_logReg_low rfl ..).trans (getF_raise_self _))
  · exact (getF_setF_th 0 (by decide)).trans ((getF_logReg_low rfl ..).trans ((getF_raise_th _ (by decide)).trans
      ((getF_satF_self 1).trans (congrArg (satAdd _ · 1) getF_markEmit))))

theorem tagCheck_of_clear (h : s.tagCause = none) : s.tagCheck = s.tagFeed := by
  simp [State.tagCheck, h]

theorem tagCheck_of_cause {c : Nat} (h : s.tagCause = some c) : s.tagCheck = if s.tag.active then s.tagVoid c else s := by
  simp [State.tagCheck, h]

/-- The conditions of R337 write no other field than a void does. -/
theorem getF_tagCheck (h : voidFlds.all f.apartPage = true) : s.tagCheck.getF thB f = s.getF thB f := by
  cases cause : s.tagCause with
  | none => rw [tagCheck_of_clear cause, getF_tagFeed]
  | some c => rw [tagCheck_of_cause cause, getF_ite, getF_tagVoid, getF_voidShown h, ite_self]

/-! ## The rows of a tag (R331) -/

/-- What the fetch of rows leaves alone: the tag but for its buffer, and the registers below the fault manager. -/
structure Fetched (s t : State) : Prop where
  tag : t.tag = { s.tag with rows := t.tag.rows }
  getF : ∀ (b : Nat) (f : Fld), f.low b = true → t.getF b f = s.getF b f

theorem Fetched.refl (s : State) : Fetched s s := ⟨rfl, fun _ _ _ => rfl⟩

theorem Fetched.trans {u : State} (h : Fetched s t) (k : Fetched t u) : Fetched s u :=
  ⟨by rw [k.tag, h.tag], fun b f hf => (k.getF b f hf).trans (h.getF b f hf)⟩

theorem fetchRow_fetched (n : Nat) : Fetched s (s.fetchRow n) := by
  unfold State.fetchRow
  extract_lets a addressed r
  have read : Quiet addressed r.1 := memRead_quiet _ _ _ _ _ (.refl _)
  have tag : r.1.tag = s.tag := read.tag.trans (by simp [addressed])
  have kept (b : Nat) (f : Fld) (hf : f.low b = true) : r.1.getF b f = s.getF b f :=
    (read.getF b f (prot_of_low hf)).trans (getF_setF_dma _ _ hf)
  split
  · next row _ => exact ⟨congrArg (fun q : Tag => { q with rows := r.1.tag.rows ++ [row] }) tag, kept⟩
  · exact ⟨by simp [tag], kept⟩

theorem fetchRows_fetched (n : Nat) : Fetched s (s.fetchRows n) := by
  refine forL_invariant (P := Fetched s) (fun i u h => ?_) _ (.refl s)
  split
  · exact h.trans (fetchRow_fetched _)
  · exact h

theorem Fetched.bandOf_eq (h : Fetched s t) (v : Int) : t.bandOf v = s.bandOf v := by
  simp only [State.bandOf, State.getI, h.getF thB (F.TH_BAND_BAND.nth 1) rfl, h.getF thB (F.TH_BAND_BAND.nth 2) rfl,
    h.getF thB (F.TH_BAND_BAND.nth 3) rfl]
  rfl

/-- The sixteen energies of the head lie in its page (R335). -/
theorem low_energy : ∀ i < 16,
    (if i % 2 = 1 then F.TH_ENERGY_E_HI.nth (i / 2) else F.TH_ENERGY_E_LO.nth (i / 2)).low thB = true := by
  decide

theorem Fetched.energy_eq (h : Fetched s t) {p n : Nat} (hp : p < 4) (hn : n < 4) : t.energy p n = s.energy p n :=
  h.getF _ _ (low_energy (4 * p + n) (by omega))

theorem bandOf_lt (v : Int) : s.bandOf v < 4 := by
  unfold State.bandOf
  split_ifs <;> decide

end TagHead
end Sys2Proof.Machine

namespace Sys2Proof.Machine

section TagJobs
variable {s t : State} {b : Nat} {f : Fld} {j : TagJob} {js : List TagJob}

/-! ## TH_EN and AUTH_REQ (R334, R348) -/

/-- The head enabled, with the rings that its registers name bound. -/
def State.thBound (s : State) : State :=
  let s := s.setF thB F.TH_CTRL_TH_EN 1
  let jr := s.getF thB F.TH_JOB_RING_RING
  ((s.bind jr thB false).subBlock jr thB).bind (s.getF thB F.TH_RES_RING_RING) thB true

/-- The enabled head shows that it waits for a temperature. -/
def State.thWaits (s : State) : State := s.thBound.setF thB F.TH_STATUS_TEMP_WAIT 1

/-- The head with its DMA channel bound. -/
def State.thFed (s : State) : State := s.thWaits.setF (dmaB (s.thWaits.getF thB F.TH_DMA_CHANNEL)) F.DMA_STATE_BOUND 1

/-- The enabled head without a temperature, before it authenticates its cassette. -/
def State.thCold (s : State) : State := s.thFed.setTag { s.thFed.tag with temp := none, hot := false }

theorem thStart_eq : s.thStart = s.thCold.authenticate := rfl

theorem thBound_quiet : Quiet (s.setF thB F.TH_CTRL_TH_EN 1) s.thBound :=
  bind_quiet _ _ _ _ (subBlock_quiet _ _ _ (bind_quiet _ _ _ _ (.refl _)))

theorem cass_thCold : s.thCold.cass = s.cass :=
  Part.same.cass_eq (by simp [State.thCold, State.thFed, State.thWaits, State.thBound])

theorem getF_thCold (h : f.low b = true) : s.thCold.getF b f = s.thWaits.getF b f := by
  rw [State.thCold, getF_setTag, State.thFed, getF_setF_dma _ _ h]

theorem thOn_thCold : s.thCold.thOn = true := by
  have enabled : s.thBound.getF thB F.TH_CTRL_TH_EN = 1 :=
    (thBound_quiet.getF _ _ (by decide)).trans (getF_setF_of_lt (by decide))
  have shown : s.thWaits.getF thB F.TH_CTRL_TH_EN = 1 := (getF_setF_th 1 (by decide)).trans enabled
  exact congrArg (· == 1) ((getF_thCold (by decide)).trans shown)

theorem tempWait_thCold : s.thCold.getF thB F.TH_STATUS_TEMP_WAIT = 1 := by
  have shown : s.thWaits.getF thB F.TH_STATUS_TEMP_WAIT = 1 := getF_setF_of_lt (by decide)
  exact (getF_thCold (by decide)).trans shown

theorem exec_thEnable_of_off (off : s.thOn = false) (may : s.thStatus = 0) :
    exec .thEnable s = .next s.thCold.authenticate :=
  congrArg Host.Outcome.next ((if_pos (by simp [off, may])).trans thStart_eq)

theorem exec_thEnable_refused (h : s.thOn = true ∨ s.thStatus ≠ 0) : exec .thEnable s = .next s := by
  refine congrArg Host.Outcome.next (if_neg ?_)
  rcases h with on | refused
  · simp [on]
  · simp [refused]

/-- The enabled head has no temperature, and its cassette is authenticated, at once or after the decrement under way. -/
theorem thEnable_enables (off : s.thOn = false) (may : s.thStatus = 0) : ∃ t, exec .thEnable s = .next t ∧ t.thOn = true ∧
    t.tag.temp = none ∧ t.getF thB F.TH_STATUS_TEMP_WAIT = 1 ∧
    t.cass.cmd = (if s.cass.cmd = 0 then 1 else s.cass.cmd) ∧ (s.cass.cmd = 3 → t.cass.again = true) := by
  refine ⟨_, exec_thEnable_of_off off may, ?_, ?_, ?_, ?_, fun decrement => again_authenticate ?_⟩
  · exact (congrArg (· == 1) getF_authenticate).trans thOn_thCold
  · rw [tag_authenticate]
    rfl
  · rw [getF_authenticate, tempWait_thCold]
  · rw [cmd_authenticate, cass_thCold]
  · rw [cass_thCold, decrement]

theorem exec_authReq_of_on (on : s.thOn = true) : exec .authReq s = .next s.authenticate :=
  congrArg Host.Outcome.next (if_pos on)

theorem out_cassStart (cmd : Nat) (nonce : List Byte) : (s.cassStart cmd nonce).out =
    if s.reRunning then s.out else s.out ++ [.bus "TH_CS" (BitVec.ofNat 8 cmd :: nonce)] := out_markEmit

theorem authReq_authenticates (on : s.thOn = true) (idle : s.cass.cmd = 0) : ∃ t, exec .authReq s = .next t ∧
    t.cass = { s.cass with cmd := 1, nonce := [] } ∧
    t.out = (if s.reRunning then s.out else s.out ++ [.bus "TH_CS" [1]]) ∧ t.regs = s.regs :=
  ⟨_, (exec_authReq_of_on on).trans (congrArg _ (authenticate_of_idle idle)), cass_cassStart 1 [], out_cassStart 1 [],
    regs_cassStart 1 []⟩

theorem exec_authReq_unheard (h : s.thOn = false ∨ s.cass.cmd ≠ 0 ∧ s.cass.cmd ≠ 3) : exec .authReq s = .next s := by
  rcases h with off | ⟨busy, notDecrement⟩
  · exact congrArg Host.Outcome.next (if_neg (by simp [off]))
  · cases on : s.thOn with
    | false => exact congrArg Host.Outcome.next (if_neg (by simp [on]))
    | true => rw [exec_authReq_of_on on, authenticate_of_authenticating busy notDecrement]

/-! ## The job that reaches the head (R341 to R345) -/

/-- The state in which the first automatic job has been taken. -/
def State.autoTaken (s : State) (js : List TagJob) : State := { s with tag := { s.tag with autoQ := js } }

/-- The job that has reached the head, with nothing of it printed. -/
def Tag.headed (t : Tag) (j : TagJob) : Tag :=
  { t with job := j, line := 0, status := 0, prev1 := [], prev2 := [], sec := 0, ns := 0, rows := [], waiting := false }

/-- A job of no lines, or whose image is misplaced (R341). -/
def State.misplaced (s : State) (j : TagJob) : Prop :=
  j.lines = 0 ∨ j.image % 32 ≠ 0 ∨ 0x1E00000000 < j.image + j.lines * s.rowBytes

theorem jobHead_misplaced (h : s.misplaced j) : s.jobHead j = (s.setTag (s.tag.headed j)).jobEnd 0x12 := if_pos h

/-- The state in which the job at the head waits for its position. -/
def State.headPlaced (s : State) (j : TagJob) : State := (s.setTag (s.tag.headed j)).tagPhase .position

theorem getF_headPlaced : (s.headPlaced j).getF b f = s.getF b f := rfl

theorem cass_headPlaced : (s.headPlaced j).cass = s.cass := rfl

theorem getF_autoTaken : (s.autoTaken js).getF b f = s.getF b f := rfl

theorem cass_autoTaken : (s.autoTaken js).cass = s.cass := rfl

/-- A job that is to be printed where the web stands waits for no position. -/
theorem jobHead_placed (h : ¬ s.misplaced j) (here : j.atPos = false) : s.jobHead j = s.headPlaced j :=
  (if_neg h).trans (if_neg (by simp [here]))

theorem jobHead_keeps : (s.jobHead j).tag.autoQ = s.tag.autoQ ∧ (s.jobHead j).tag.job = j := by
  simp only [State.jobHead]
  split
  · exact ⟨rfl, rfl⟩
  · split <;> exact ⟨rfl, rfl⟩

/-- The state in which printing has stopped for want of an authenticated cassette or of its count (R344). -/
def State.jobRefused (s : State) : State :=
  let s := s.raise thB F.TH_STATUS_CASS_EV 0xCE
  { s with tag := { s.tag with
    stopped := true, phase := .ended, status := if s.flag thB F.TH_STATUS_CASS_OK then 0x10 else 0x11 } }

theorem jobBegin_refused (h : s.flag thB F.TH_STATUS_CASS_OK = false ∨ s.getF thB F.CASS_COUNT_COUNT = 0) :
    s.jobBegin = s.jobRefused := by
  have okay : (s.raise thB F.TH_STATUS_CASS_EV 0xCE).flag thB F.TH_STATUS_CASS_OK = s.flag thB F.TH_STATUS_CASS_OK :=
    congrArg (· == 1) (getF_raise_th _ (by decide))
  simp only [State.jobRefused, okay]
  exact if_pos (by rcases h with h | h <;> simp [h])

theorem jobBegin_decrements (authentic : s.flag thB F.TH_STATUS_CASS_OK = true) (left : s.getF thB F.CASS_COUNT_COUNT ≠ 0)
    (idle : s.cass.cmd = 0) : ∃ nonce, s.jobBegin = (s.tickFree.tagPhase .decrement).cassStart 3 nonce :=
  ⟨_, (if_neg (by simp [authentic, left])).trans (if_neg (by simp [idle]))⟩

theorem jobRefused_shows : s.jobRefused.tag.phase = .ended ∧
    s.jobRefused.tag.status = (if s.getF thB F.TH_STATUS_CASS_OK = 1 then 0x10 else 0x11) ∧
    s.jobRefused.tag.stopped = true ∧ s.jobRefused.getF thB F.TH_STATUS_CASS_EV = 1 := by
  have okay : (s.raise thB F.TH_STATUS_CASS_EV 0xCE).getF thB F.TH_STATUS_CASS_OK = s.getF thB F.TH_STATUS_CASS_OK :=
    getF_raise_th _ (by decide)
  refine ⟨rfl, ?_, rfl, getF_raise_self _⟩
  simp [State.jobRefused, State.flag, okay]

/-- With a good cassette the job waits for its decrement. -/
theorem jobBegin_of_good (authentic : s.getF thB F.TH_STATUS_CASS_OK = 1) (left : s.getF thB F.CASS_COUNT_COUNT ≠ 0)
    (idle : s.cass.cmd = 0) : s.jobBegin.tag.phase = .decrement ∧ s.jobBegin.cass.cmd = 3 := by
  obtain ⟨nonce, decrements⟩ := jobBegin_decrements (beq_iff_eq.2 authentic) left idle
  have tag : (s.jobBegin).tag = (s.tickFree.tagPhase .decrement).tag := by
    rw [decrements]
    exact Part.same.tag_eq (by simp)
  rw [tag, decrements, cass_cassStart]
  exact ⟨rfl, rfl⟩

/-- A cassette with no count left ends the job with status 0x10, and printing stops. -/
theorem jobBegin_of_spent (authentic : s.getF thB F.TH_STATUS_CASS_OK = 1) (spent : s.getF thB F.CASS_COUNT_COUNT = 0) :
    s.jobBegin.tag.phase = .ended ∧ s.jobBegin.tag.status = 0x10 ∧ s.jobBegin.tag.stopped = true ∧
      s.jobBegin.getF thB F.TH_STATUS_CASS_EV = 1 := by
  rw [jobBegin_refused (Or.inr spent)]
  simpa only [authentic, if_true] using jobRefused_shows (s := s)

/-- A cassette that is not authenticated ends the job with status 0x11, and printing stops. -/
theorem jobBegin_of_foreign (foreign : s.getF thB F.TH_STATUS_CASS_OK = 0) :
    s.jobBegin.tag.phase = .ended ∧ s.jobBegin.tag.status = 0x11 ∧ s.jobBegin.tag.stopped = true ∧
      s.jobBegin.getF thB F.TH_STATUS_CASS_EV = 1 := by
  have unset : s.flag thB F.TH_STATUS_CASS_OK = false := by simp [State.flag, foreign]
  rw [jobBegin_refused (Or.inl unset)]
  simpa [foreign] using jobRefused_shows (s := s)

theorem jobBegin_keeps : s.jobBegin.tag.autoQ = s.tag.autoQ ∧ s.jobBegin.tag.job = s.tag.job := by
  have raised : (s.raise thB F.TH_STATUS_CASS_EV 0xCE).tag = s.tag := Part.same.tag_eq (by simp)
  have started (u : State) (cmd : Nat) (nonce : List Byte) : (u.cassStart cmd nonce).tag = u.tag := Part.same.tag_eq (by simp)
  simp only [State.jobBegin]
  split
  · simp [State.jobEnd, raised]
  · split
    · exact ⟨rfl, rfl⟩
    · simp [started, State.tagPhase, State.freshNonce, State.tickFree]

/-- What a start does of the job at the head once its position is reached (R343). -/
def State.headStarts (s : State) : State :=
  if s.tag.phase == .position &&
      (!s.tag.job.atPos || decide (s.tag.job.startPos ≤ s.posCount (s.getF thB F.TH_CTRL_TH_SRC))) then s.jobBegin else s

theorem headStarts_of_ended (h : s.tag.phase = .ended) : s.headStarts = s := by
  simp [State.headStarts, h]

theorem headStarts_of_position (h : s.tag.phase = .position) (here : s.tag.job.atPos = false) :
    s.headStarts = s.jobBegin := by
  simp [State.headStarts, h, here]

theorem headStarts_keeps : s.headStarts.tag.autoQ = s.tag.autoQ ∧ s.headStarts.tag.job = s.tag.job := by
  unfold State.headStarts
  split
  · exact jobBegin_keeps
  · exact ⟨rfl, rfl⟩

/-- Whether the head takes jobs. -/
def State.printing (s : State) : Bool := s.thOn && s.tagCause.isNone && !s.tag.stopped && !s.reRunning

theorem exec_tagJobStart_auto (on : s.printing = true) (idle : s.tag.phase = .idle) (noVoided : s.tag.again = [])
    (queue : s.tag.autoQ = j :: js) : exec .tagJobStart s = .next ((s.autoTaken js).jobHead j).headStarts := by
  have next : s.nextJob = (s.autoTaken js, some j) := by simp [State.nextJob, noVoided, queue, State.autoTaken]
  refine congrArg Host.Outcome.next ((if_pos on).trans ?_)
  simp only [idle, next]
  rfl

theorem exec_tagJobStart_stopped (h : s.thOn = false ∨ s.tagCause ≠ none ∨ s.tag.stopped = true) :
    exec .tagJobStart s = .next s := by
  refine congrArg Host.Outcome.next (if_neg ?_)
  rcases h with off | cause | stopped
  · simp [off]
  · simp [cause]
  · simp [stopped]

/-- A misplaced job is over with status 0x12. -/
theorem headStarts_misplaced (h : s.misplaced j) :
    (s.jobHead j).headStarts.tag.phase = .ended ∧ (s.jobHead j).headStarts.tag.status = 0x12 := by
  rw [headStarts_of_ended] <;> rw [jobHead_misplaced h] <;> simp [State.jobEnd]

/-- A job that is placed begins at once, on registers and a cassette that are as before. -/
theorem headStarts_placed (h : ¬ s.misplaced j) (here : j.atPos = false) :
    (s.jobHead j).headStarts = (s.headPlaced j).jobBegin := by
  rw [jobHead_placed h here]
  exact headStarts_of_position rfl here

theorem exec_tagJobResult_of_ended (ended : s.tag.phase = .ended) (live : s.reRunning = false) :
    ∃ ring item, exec .tagJobResult s = .next ((s.ringPush ring item).1.tagPhase .idle) :=
  ⟨_, _, congrArg Host.Outcome.next (if_pos (by simp [ended, live]))⟩

theorem exec_tagJobResult_of_not_ended (h : s.tag.phase ≠ .ended) : exec .tagJobResult s = .next s :=
  congrArg Host.Outcome.next (if_neg (by simp [h]))

/-- The result of a job that is over leaves the head idle, and its tag as it is. -/
theorem tagJobResult_idles (ended : s.tag.phase = .ended) (live : s.reRunning = false) :
    ∃ t, exec .tagJobResult s = .next t ∧ t.tag = { s.tag with phase := .idle } := by
  obtain ⟨ring, item, writes⟩ := exec_tagJobResult_of_ended ended live
  have tag : (s.ringPush ring item).1.tag = s.tag := (ringPush_quiet _ _ _ (.refl s)).tag
  exact ⟨_, writes, congrArg (fun q : Tag => { q with phase := .idle }) tag⟩

end TagJobs
end Sys2Proof.Machine

namespace Sys2Proof.Proofs

open Sys2Proof.Machine

/-- Settles O42: a job that reaches the head is over at once or begins, and what begins it is the cassette's state alone. -/
theorem tagJobs : Obligations.TagJobs := by
  unfold Obligations.TagJobs
  intro s
  refine ⟨thEnable_enables, exec_thEnable_refused, authReq_authenticates, fun on decrement => ?_, exec_authReq_unheard,
    fun j js on cause running live idle noVoided queue => ?_, exec_tagJobStart_stopped, tagJobResult_idles,
    exec_tagJobResult_of_not_ended⟩
  · rw [exec_authReq_of_on on, authenticate_of_decrement decrement]
  · have printing : s.printing = true := by simp [State.printing, on, cause, running, live]
    obtain ⟨queueLeft, job⟩ := jobHead_keeps (s := s.autoTaken js) (j := j)
    obtain ⟨queueKept, jobKept⟩ := headStarts_keeps (s := (s.autoTaken js).jobHead j)
    refine ⟨_, exec_tagJobStart_auto printing idle noVoided queue, queueKept.trans queueLeft, jobKept.trans job,
      fun bad => headStarts_misplaced (bad.imp_right Or.inl), fun lines aligned fits here => ?_⟩
    have placed : ¬ (s.autoTaken js).misplaced j := by
      rintro (none | misaligned | beyond)
      · exact lines none
      · exact misaligned aligned
      · exact absurd fits (Nat.not_le.2 beyond)
    rw [headStarts_placed placed here]
    have reads (f : Fld) : ((s.autoTaken js).headPlaced j).getF thB f = s.getF thB f :=
      getF_headPlaced.trans getF_autoTaken
    have cass : ((s.autoTaken js).headPlaced j).cass = s.cass := cass_headPlaced.trans cass_autoTaken
    simp only [← reads, ← cass]
    exact ⟨jobBegin_of_good, jobBegin_of_spent, jobBegin_of_foreign⟩

end Sys2Proof.Proofs

namespace Sys2Proof.Machine

section TagPrinting
variable {s t : State} {b : Nat} {f : Fld}

/-! ## The passes of a line (R335) -/

theorem mem_insertNat {x y : Nat} {l : List Nat} : y ∈ insertNat x l ↔ y = x ∨ y ∈ l := by
  induction l with
  | nil => simp [insertNat]
  | cons z l ih =>
    rw [insertNat]
    split
    · simp
    · rw [List.mem_cons, ih, List.mem_cons]
      tauto

theorem mem_foldr_insertNat {y : Nat} {l : List Nat} : y ∈ l.foldr insertNat [] ↔ y ∈ l := by
  induction l with
  | nil => simp
  | cons x l ih => rw [List.foldr_cons, mem_insertNat, ih, List.mem_cons]

/-- A line has no pass where no threshold rises above the one before. -/
theorem passesOf_eq_nil {prev : Nat} {l : List Nat} : passesOf prev l = [] ↔ ∀ e ∈ l, e = prev := by
  induction l with
  | nil => simp [passesOf]
  | cons e l ih =>
    by_cases same : e = prev
    · simp [passesOf, same, ih]
    · simp [passesOf, same]

/-- The passes of a line printed in a band. -/
def State.linePasses (s : State) (band : Nat) : List (Nat × Nat) :=
  passesOf 0 (((List.range 4).map (fun h => s.energy h band)).foldr insertNat [])

theorem linePasses_eq_nil {band : Nat} : s.linePasses band = [] ↔ ∀ h < 4, s.energy h band = 0 := by
  simp only [State.linePasses, passesOf_eq_nil, mem_foldr_insertNat, List.mem_map, List.mem_range]
  exact ⟨fun k h hh => k _ ⟨h, hh, rfl⟩, fun k e ⟨h, hh, he⟩ => he ▸ k h hh⟩

theorem Fetched.linePasses_eq_nil_iff (k : Fetched s t) {band : Nat} (hb : band < 4) :
    t.linePasses band = [] ↔ s.linePasses band = [] := by
  rw [linePasses_eq_nil, linePasses_eq_nil]
  exact forall₂_congr fun h hh => by rw [k.energy_eq hh hb]

/-! ## Strobes (R335, R336) -/

/-- A tag whose line is over. -/
def Tag.nextLine (t : Tag) : Tag := { t with line := t.line + 1, prev1 := t.dots, prev2 := t.prev1, phase := .lines }

/-- The state in which the feed has stepped to the next line. -/
def State.lineFed (s : State) : State := (s.markEmit (.feed 1)).setTag (s.markEmit (.feed 1)).tag.nextLine

theorem tag_lineFed : s.lineFed.tag = s.tag.nextLine :=
  congrArg Tag.nextLine (Part.same.tag_eq (t := s.markEmit (.feed 1)) (by simp))

/-- The state in which the last line is over: the tag is fed, and the head no longer busy (R341). -/
def State.tagPrinted (s : State) : State :=
  ((s.markEmit (.feed s.tag.job.feedAfter)).setF thB F.TH_STATUS_BUSY 0).jobEnd 0

theorem lineEnd_eq : s.lineEnd =
    if s.lineFed.tag.line < s.lineFed.tag.job.lines then s.lineFed else s.lineFed.tagPrinted := rfl

theorem nextPass_of_none (h : s.tag.passes = []) : s.nextPass = s.lineEnd := by
  simp [State.nextPass, h]

/-- The state in which a pass has been shifted, latched and strobed. -/
def State.passSent (s : State) (e d : Nat) : State := forL (s.passOuts e d) (fun o t => t.markEmit o) s

theorem tag_passSent (e d : Nat) : (s.passSent e d).tag = s.tag := Part.same.tag_eq (by simp [State.passSent])

theorem reRunning_markEmit (o : Out) : (s.markEmit o).reRunning = s.reRunning := by
  rw [State.markEmit]
  split <;> rfl

theorem out_forL_markEmit (L : List Out) :
    (forL L (fun o t => t.markEmit o) s).out = if s.reRunning then s.out else s.out ++ L := by
  induction L generalizing s with
  | nil => simp [forL]
  | cons o L ih =>
    refine ih.trans ?_
    rw [reRunning_markEmit, out_markEmit]
    split <;> simp

theorem nextPass_of_some {e d : Nat} {ps : List (Nat × Nat)} (h : s.tag.passes = (e, d) :: ps) :
    s.nextPass = (s.passSent e d).setTag { s.tag with passes := ps, phase := .strobe } := by
  rw [← tag_passSent e d]
  simp [State.nextPass, h, State.passSent, State.setTag]

theorem exec_tagStrobeEnd_of_strobe (h : s.tag.phase = .strobe) : exec .tagStrobeEnd s = .next s.nextPass :=
  congrArg Host.Outcome.next (if_pos (by simp [h]))

theorem exec_tagStrobeEnd_other (h : s.tag.phase ≠ .strobe) : exec .tagStrobeEnd s = .next s :=
  congrArg Host.Outcome.next (if_neg (by simp [h]))

theorem tag_tagPrinted : s.tagPrinted.tag = { s.tag with phase := .ended, status := 0 } := by
  have tag : ((s.markEmit (.feed s.tag.job.feedAfter)).setF thB F.TH_STATUS_BUSY 0).tag = s.tag :=
    Part.same.tag_eq (by simp)
  exact congrArg (fun q : Tag => { q with phase := .ended, status := 0 }) tag

/-- The tag after its line: the next line is due, or the tag is over. -/
theorem tag_lineEnd : s.lineEnd.tag = if s.tag.line + 1 < s.tag.job.lines then s.tag.nextLine else
    { s.tag.nextLine with phase := .ended, status := 0 } := by
  rw [lineEnd_eq, apply_ite State.tag, tag_tagPrinted, tag_lineFed]
  rfl

theorem busy_lineEnd (h : s.tag.job.lines ≤ s.tag.line + 1) : s.lineEnd.getF thB F.TH_STATUS_BUSY = 0 := by
  have idle (u : State) : u.tagPrinted.getF thB F.TH_STATUS_BUSY = 0 := getF_setF_of_lt (by decide)
  have last : ¬ s.tag.nextLine.line < s.tag.nextLine.job.lines := Nat.not_lt.2 h
  rw [lineEnd_eq, tag_lineFed, if_neg last, idle]

/-! ## A line that is due (R331 to R335) -/

/-- The tag whose row is being printed, in the band of the temperature and with the passes of that band. -/
def State.lineTag (s : State) (row : List Byte) (rest : List (List Byte)) : Tag :=
  let band := s.bandOf (s.tag.temp.getD 0)
  let t := s.tag
  { t with
    waiting := false
    rows := rest
    dots := (row.map (fun b => (List.range 8).map (fun i => bit b.toNat i))).flatten
    band := band
    sec := if t.line == 0 then s.sec else t.sec
    ns := if t.line == 0 then s.ns else t.ns
    passes := s.linePasses band }

theorem lineBegin_eq (row : List Byte) (rest : List (List Byte)) :
    s.lineBegin row rest = ((s.setTag (s.lineTag row rest)).fetchRows (s.tag.line + 1)).nextPass := rfl

/-- A row that is printed strobes its first pass, and a line without a pass is over at once. -/
theorem lineBegin_prints (row : List Byte) (rest : List (List Byte)) : (s.lineBegin row rest).tag.waiting = false ∧
    (s.lineBegin row rest).tag.band = s.bandOf (s.tag.temp.getD 0) ∧
    (s.lineBegin row rest).tag.dots = (row.map (fun b => (List.range 8).map (fun i => bit b.toNat i))).flatten ∧
    (s.linePasses (s.bandOf (s.tag.temp.getD 0)) ≠ [] →
      (s.lineBegin row rest).tag.phase = .strobe ∧ (s.lineBegin row rest).tag.line = s.tag.line) ∧
    (s.linePasses (s.bandOf (s.tag.temp.getD 0)) = [] → (s.lineBegin row rest).tag.line = s.tag.line + 1) := by
  rw [lineBegin_eq]
  generalize buffered : (s.setTag (s.lineTag row rest)).fetchRows (s.tag.line + 1) = u
  have tag : u.tag = { s.lineTag row rest with rows := u.tag.rows } := buffered ▸ (fetchRows_fetched _).tag
  have passes : u.tag.passes = s.linePasses (s.bandOf (s.tag.temp.getD 0)) := by
    rw [tag]
    rfl
  cases first : s.linePasses (s.bandOf (s.tag.temp.getD 0)) with
  | nil =>
    rw [nextPass_of_none (passes.trans first), tag_lineEnd, tag]
    split <;> simp [Tag.nextLine, State.lineTag]
  | cons p ps =>
    rw [nextPass_of_some (passes.trans first), tag]
    simp [State.setTag, State.lineTag]

section
variable (on : s.thOn = true) (lines : s.tag.phase = .lines) (clear : s.tagClear = true)
include on lines clear

theorem exec_tagLineStart_not_arrived : exec (.tagLineStart false) s = .next s.underrun :=
  congrArg Host.Outcome.next (if_pos (by simp [on, lines, clear]))

theorem exec_tagLineStart_no_row (h : (s.fetchRows s.tag.line).tag.rows = []) :
    exec (.tagLineStart true) s = .next (s.fetchRows s.tag.line).underrun := by
  refine congrArg Host.Outcome.next ((if_pos (by simp [on, lines, clear])).trans ?_)
  simp only [if_true, h]

theorem exec_tagLineStart_row {row : List Byte} {rest : List (List Byte)}
    (h : (s.fetchRows s.tag.line).tag.rows = row :: rest) :
    exec (.tagLineStart true) s = .next ((s.fetchRows s.tag.line).lineBegin row rest) := by
  refine congrArg Host.Outcome.next ((if_pos (by simp [on, lines, clear])).trans ?_)
  simp only [if_true, h]

end

theorem exec_tagLineStart_other (arrived : Bool) (h : s.tag.phase ≠ .lines) : exec (.tagLineStart arrived) s = .next s :=
  congrArg Host.Outcome.next (if_neg (by simp [h]))

theorem underrun_of_waiting (h : s.tag.waiting = true) : s.underrun = s := if_pos h

theorem underrun_counts (h : s.tag.waiting = false) : s.underrun.tag = { s.tag with waiting := true } ∧
    s.underrun.getF thB F.UNDERRUN_COUNT = satAdd F.UNDERRUN_COUNT.width (s.getF thB F.UNDERRUN_COUNT) 1 := by
  have counted : s.underrun = (s.setTag { s.tag with waiting := true }).satF thB F.UNDERRUN_COUNT 1 := if_neg (by simp [h])
  rw [counted]
  exact ⟨Part.same.tag_eq (s := s.setTag _) (by simp), (getF_satF_self 1).trans (congrArg (satAdd _ · 1) (getF_setTag ..))⟩

/-! ## Voids of a tag, and the sensors (R331, R337, R340) -/

theorem exec_tagUnderrunTimeout_waiting (lines : s.tag.phase = .lines) (waits : s.tag.waiting = true) :
    exec .tagUnderrunTimeout s = .next (s.tagVoid 5) := congrArg Host.Outcome.next (if_pos (by simp [lines, waits]))

/-- The state in which the head shows itself open or closed: an open head is no longer authentic, and the panel is told. -/
def State.openShown (s : State) (level : Bool) : State :=
  let s := s.setF thB F.TH_STATUS_OPEN (if level then 1 else 0)
  let s := if level then (s.setF thB F.TH_STATUS_CASS_OK 0).pnlEvent 5 0 3 [] else s
  { s with cass := { s.cass with closing := !level } }

theorem exec_tagSensorEdge_open (level : Bool) : exec (.tagSensorEdge 0 level) s = .next (s.openShown level).tagCheck := rfl

theorem exec_tagSensorEdge_stock (level : Bool) : exec (.tagSensorEdge 1 level) s =
    .next (s.setF thB F.TH_STATUS_STOCK (if level then 1 else 0)).tagCheck := rfl

theorem exec_tagSensorEdge_jam (level : Bool) : exec (.tagSensorEdge 2 level) s =
    .next (s.setF thB F.TH_STATUS_JAM (if level then 1 else 0)).tagCheck := rfl

theorem tag_openShown (level : Bool) : (s.openShown level).tag = s.tag := by
  refine Part.same.tag_eq ?_
  simp [State.openShown]

/-- The registers that an edge of the head's sensor writes: OPEN, and CASS_OK of a head that opens. -/
theorem getF_openShown (level : Bool) (ho : f.apartPage F.TH_STATUS_OPEN = true)
    (hc : f.apartPage F.TH_STATUS_CASS_OK = true) : (s.openShown level).getF thB f = s.getF thB f := by
  cases level with
  | false => exact getF_setF_th 0 ho
  | true => exact (getF_pnlEvent ..).trans ((getF_setF_th 0 hc).trans (getF_setF_th 1 ho))

theorem open_openShown (level : Bool) : (s.openShown level).getF thB F.TH_STATUS_OPEN = if level then 1 else 0 := by
  cases level with
  | false => exact getF_setF_of_lt (by decide)
  | true => exact (getF_pnlEvent ..).trans ((getF_setF_th 0 (by decide)).trans (getF_setF_of_lt (by decide)))

theorem cassOk_openShown (level : Bool) : (s.openShown level).getF thB F.TH_STATUS_CASS_OK =
    if level then 0 else s.getF thB F.TH_STATUS_CASS_OK := by
  cases level with
  | false => exact getF_setF_th (f' := F.TH_STATUS_OPEN) 0 (by decide)
  | true => exact (getF_pnlEvent ..).trans (getF_setF_of_lt (by decide))

theorem cass_tagCheck : s.tagCheck.cass = s.cass := Part.same.cass_eq (by simp)

/-- A head that opens voids the tag under way with status 2, where no hotter head does first. -/
theorem tagCheck_openShown_voids {v : Int} (temp : s.tag.temp = some v) (cool : v < s.getI thB F.TH_HARD_HARD)
    (active : s.tag.active = true) : (s.openShown true).tagCheck.tag.status = 2 ∧
      (s.openShown true).tagCheck.getF thB F.TH_STATUS_VOID_EV = 1 := by
  have hard : (s.openShown true).getI thB F.TH_HARD_HARD = s.getI thB F.TH_HARD_HARD :=
    congrArg (toInt _) (getF_openShown true (by decide) (by decide))
  have cause : (s.openShown true).tagCause = some 2 :=
    tagCause_of_open (by rw [tag_openShown, temp]) (by rwa [hard]) (open_openShown true)
  rw [tagCheck_of_cause cause, tag_openShown, if_pos active]
  exact ⟨by rw [tag_tagVoid (by decide)]; rfl, (tagVoid_shows 2).1⟩

end TagPrinting
end Sys2Proof.Machine

namespace Sys2Proof.Proofs

open Sys2Proof.Machine

/-- Settles O43: what fetches the rows keeps the energies and the bands (`fetchRows_fetched`), so a line has a first pass just
where one of its energies is not 0 (`linePasses_eq_nil`), and what checks the conditions writes a void's registers only
(`getF_tagCheck`). -/
theorem tagPrinting : Obligations.TagPrinting := by
  unfold Obligations.TagPrinting
  intro s
  refine ⟨fun on lines clear => ⟨fun ready => ?_, fun waits => ?_, exec_tagLineStart_no_row on lines clear,
    fun row rest rows => ?_⟩, exec_tagLineStart_other true, fun strobe => ?_, exec_tagStrobeEnd_other,
    fun lines waits => ?_, fun n level => ?_⟩
  · exact ⟨_, exec_tagLineStart_not_arrived on lines clear, underrun_counts ready⟩
  · rw [exec_tagLineStart_not_arrived on lines clear, underrun_of_waiting waits]
  · have fetched : Fetched s (s.fetchRows s.tag.line) := fetchRows_fetched _
    obtain ⟨waiting, band, dots, strobes, skips⟩ := lineBegin_prints (s := s.fetchRows s.tag.line) row rest
    have temp : (s.fetchRows s.tag.line).tag.temp = s.tag.temp := by rw [fetched.tag]
    have line : (s.fetchRows s.tag.line).tag.line = s.tag.line := by rw [fetched.tag]
    rw [temp, fetched.bandOf_eq] at band strobes skips
    rw [ne_eq, fetched.linePasses_eq_nil_iff (bandOf_lt _), linePasses_eq_nil, line] at strobes
    rw [fetched.linePasses_eq_nil_iff (bandOf_lt _), linePasses_eq_nil, line] at skips
    refine ⟨_, exec_tagLineStart_row on lines clear rows, waiting, band, dots, fun ⟨h, hh, heats⟩ => ?_, skips⟩
    exact strobes fun cold => heats (cold h hh)
  · refine ⟨_, exec_tagStrobeEnd_of_strobe strobe, fun e d ps passes => ?_, fun done => ?_⟩
    · rw [nextPass_of_some passes]
      refine ⟨?_, out_forL_markEmit _⟩
      simp [State.setTag, ← strobe]
    · rw [nextPass_of_none done, tag_lineEnd]
      refine ⟨?_, ?_, ?_, fun more => ?_, fun last => ⟨?_, ?_, busy_lineEnd last⟩⟩
      · split <;> rfl
      · split <;> rfl
      · split <;> rfl
      · rw [if_pos more]
        rfl
      · rw [if_neg (Nat.not_lt.2 last)]
      · rw [if_neg (Nat.not_lt.2 last)]
  · obtain ⟨event, busy, count⟩ := tagVoid_shows (s := s) 5
    have tag : (s.tagVoid 5).tag = s.tag.voided 5 := tag_tagVoid (by decide)
    refine ⟨_, exec_tagUnderrunTimeout_waiting lines waits, ?_, ?_, event, busy, ?_, count⟩ <;> rw [tag] <;> rfl
  · have fits : (if level then 1 else 0) < 2 := by cases level <;> decide
    match n with
    | 0 =>
      refine ⟨_, exec_tagSensorEdge_open level, (getF_tagCheck (by decide)).trans (open_openShown level), ?_, ?_⟩
      · rintro - rfl
        refine ⟨(getF_tagCheck (by decide)).trans (cassOk_openShown true), ?_, fun v temp cool active =>
          tagCheck_openShown_voids temp cool active⟩
        rw [cass_tagCheck]
        rfl
      · rintro - rfl
        refine ⟨?_, (getF_tagCheck (by decide)).trans (cassOk_openShown false)⟩
        rw [cass_tagCheck]
        rfl
    | 1 => exact ⟨_, exec_tagSensorEdge_stock level, (getF_tagCheck (by decide)).trans (getF_setF_of_lt fits),
        fun h => absurd h (by decide), fun h => absurd h (by decide)⟩
    | 2 => exact ⟨_, exec_tagSensorEdge_jam level, (getF_tagCheck (by decide)).trans (getF_setF_of_lt fits),
        fun h => absurd h (by decide), fun h => absurd h (by decide)⟩

end Sys2Proof.Proofs

namespace Sys2Proof.Machine

section Cassette
variable {s t : State} {b : Nat} {f : Fld} {bytes : List Byte}

/-! ## An exchange that fails (R346, R348, R349) -/

/-- The state in which a failed exchange has shown itself: CASS_OK clear, CASS_FAIL set and logged, the panel told. -/
def State.cassDown (s : State) : State :=
  (((s.setF thB F.TH_STATUS_CASS_OK 0).raise thB F.TH_STATUS_CASS_FAIL 0xCF).logReg .cassFail 9 0xFF (thB + 0x80)).pnlEvent
    5 0 2 []

/-- The state in which the job that waited for its decrement is over, and printing stopped. -/
def State.jobLost (s : State) : State :=
  let s := s.raise thB F.TH_STATUS_CASS_EV 0xCE
  s.setTag { s.tag with phase := .ended, status := 0x11, stopped := true }

theorem cassDown_shows : s.cassDown.getF thB F.TH_STATUS_CASS_OK = 0 ∧ s.cassDown.getF thB F.TH_STATUS_CASS_FAIL = 1 := by
  constructor
  · exact (getF_pnlEvent ..).trans ((getF_logReg_low rfl ..).trans ((getF_raise_th _ (by decide)).trans
      (getF_setF_of_lt (by decide))))
  · exact (getF_pnlEvent ..).trans ((getF_logReg_low rfl ..).trans (getF_raise_self _))

theorem cass_cassDown : s.cassDown.cass = s.cass := Part.same.cass_eq (by simp [State.cassDown])

theorem tag_cassDown : s.cassDown.tag = s.tag := Part.same.tag_eq (by simp [State.cassDown])

theorem cass_jobLost : s.jobLost.cass = s.cass := Part.same.cass_eq (by simp [State.jobLost])

theorem getF_jobLost (h : f.apartPage F.TH_STATUS_CASS_EV = true) : s.jobLost.getF thB f = s.getF thB f :=
  (getF_setTag ..).trans (getF_raise_th _ h)

/-- The state in which the job at the head, where it waits for its decrement, is over. -/
def State.decrementLost (s : State) : State := if s.tag.phase == .decrement then s.jobLost else s

theorem cass_decrementLost : s.decrementLost.cass = s.cass := by
  rw [State.decrementLost]
  split
  · exact cass_jobLost
  · rfl

theorem getF_decrementLost (h : f.apartPage F.TH_STATUS_CASS_EV = true) : s.decrementLost.getF thB f = s.getF thB f := by
  rw [State.decrementLost, getF_ite, getF_jobLost h, ite_self]

theorem cassFail_of_decrement (h : s.cass.cmd = 3) : s.cassFail = s.cassDown.decrementLost.cassEnd := by
  simp only [State.cassFail, h, beq_self_eq_true, Bool.true_and, if_true]
  rfl

theorem cassFail_of_authentication (h : s.cass.cmd ≠ 3) :
    s.cassFail = s.cassDown.cassEnd.finishOp 0x0803 (fun _ => true) stHwFault [] := by
  simp only [State.cassFail, beq_eq_false_iff_ne.2 h, Bool.false_and, Bool.false_eq_true, if_false]
  rfl

theorem cmd_cassFail : s.cassFail.cass.cmd = if s.cass.again then 1 else 0 := by
  by_cases h : s.cass.cmd = 3
  · rw [cassFail_of_decrement h, cmd_cassEnd, cass_decrementLost, cass_cassDown]
  · rw [cassFail_of_authentication h]
    exact cmd_cassEnd.trans (by rw [cass_cassDown])

/-- The registers of the head after a failed exchange are those in which it has shown itself, but for CASS_EV. -/
theorem getF_cassFail (h : f.apartPage F.TH_STATUS_CASS_EV = true) : s.cassFail.getF thB f = s.cassDown.getF thB f := by
  by_cases decrement : s.cass.cmd = 3
  · rw [cassFail_of_decrement decrement, getF_cassEnd, getF_decrementLost h]
  · rw [cassFail_of_authentication decrement]
    exact getF_cassEnd

theorem cassFail_shows : s.cassFail.getF thB F.TH_STATUS_CASS_OK = 0 ∧ s.cassFail.getF thB F.TH_STATUS_CASS_FAIL = 1 := by
  rw [getF_cassFail (by decide), getF_cassFail (by decide)]
  exact cassDown_shows

theorem tag_cassFail_of_authentication (h : s.cass.cmd ≠ 3) : s.cassFail.tag = s.tag := by
  rw [cassFail_of_authentication h]
  exact tag_cassEnd.trans tag_cassDown

/-- A job that waited for its decrement is over with status 0x11, and printing stops. -/
theorem tag_cassFail_of_decrement (h : s.cass.cmd = 3) (waits : s.tag.phase = .decrement) :
    s.cassFail.tag.phase = .ended ∧ s.cassFail.tag.status = 0x11 ∧ s.cassFail.tag.stopped = true := by
  have lost : s.cassDown.decrementLost = s.cassDown.jobLost := if_pos (by simp [tag_cassDown, waits])
  rw [cassFail_of_decrement h, tag_cassEnd, lost]
  exact ⟨rfl, rfl, rfl⟩

/-! ## The answers of the cassette (R346 to R349) -/

/-- What INFO's answer leaves in the cassette's record and registers. -/
def State.infoTaken (s : State) (bytes : List Byte) : State :=
  let s := { s with cass := { s.cass with counter := beAt bytes 4 4, serial := beAt bytes 8 8 } }
  (s.setF thB F.CASS_SERIAL_SERIAL (beAt bytes 8 8)).setF thB F.CASS_COUNT_COUNT (beAt bytes 4 4)

theorem exec_cassResponse_idle (h : s.cass.cmd = 0) : exec (.cassResponse bytes) s = .next s := by
  simp [exec, execCassResponse, h]

theorem exec_cassResponse_info (h : s.cass.cmd = 1) (len : bytes.length = 16) (good : beAt bytes 0 1 = 1) :
    ∃ nonce, exec (.cassResponse bytes) s = .next ((s.infoTaken bytes).tickFree.cassStart 2 nonce) :=
  ⟨_, congrArg Host.Outcome.next ((if_pos h).trans (if_neg (by simp [len, good])))⟩

/-- What an answer of AUTH must be to be right, while the head is closed. -/
def State.authRight (s : State) (bytes : List Byte) : Prop :=
  bytes.length = 20 ∧ beAt bytes 0 4 = s.cass.counter ∧
    sliceB bytes 4 16 = s.cassMac [0x41, 0x55] s.cass.serial (beAt bytes 0 4) ∧ !s.flag thB F.TH_STATUS_OPEN

/-- The state in which the cassette is authentic, and printing may go on. -/
def State.authentic (s : State) : State :=
  let s := s.setF thB F.TH_STATUS_CASS_OK 1
  s.cassEnd.setTag { s.tag with stopped := false }

theorem exec_cassResponse_auth (h : s.cass.cmd = 2) (right : s.authRight bytes) : ∃ params, exec (.cassResponse bytes) s =
    .next ((s.authentic.pnlEvent 5 0 1 []).finishOp 0x0803 (fun _ => true) 0 params) :=
  ⟨_, congrArg Host.Outcome.next ((if_neg (by omega)).trans ((if_pos h).trans (if_pos right)))⟩

theorem exec_cassResponse_auth_wrong (h : s.cass.cmd = 2) (wrong : ¬ s.authRight bytes) :
    exec (.cassResponse bytes) s = .next s.cassFail :=
  congrArg Host.Outcome.next ((if_neg (by omega)).trans ((if_pos h).trans (if_neg wrong)))

/-- What an answer of DEC must be to be right. -/
def State.decRight (s : State) (bytes : List Byte) : Prop :=
  bytes.length = 20 ∧ beAt bytes 0 4 + 1 = s.getF thB F.CASS_COUNT_COUNT ∧
    sliceB bytes 4 16 = s.cassMac [0x44, 0x43] (s.getF thB F.CASS_SERIAL_SERIAL) (beAt bytes 0 4)

/-- The state in which the new count has been taken and the exchange is over. -/
def State.decremented (s : State) (count : Nat) : State :=
  let s := s.setF thB F.CASS_COUNT_COUNT count
  (if count = 0 then s.pnlEvent 5 0 4 [] else s).cassEnd

/-- The state in which the tag begins, with its first rows fetched. -/
def State.tagBegun (s : State) : State := ((s.tagPhase .lines).fetchRows 0).setF thB F.TH_STATUS_BUSY 1

theorem tag_decremented (count : Nat) : (s.decremented count).tag = s.tag := by
  rw [State.decremented, tag_cassEnd]
  split
  · exact Part.same.tag_eq (by simp)
  · exact Part.same.tag_eq (by simp)

theorem exec_cassResponse_dec (h : s.cass.cmd = 3) (right : s.decRight bytes) (waits : s.tag.phase = .decrement) :
    exec (.cassResponse bytes) s = .next (s.decremented (beAt bytes 0 4)).tagBegun.tagCheck := by
  refine congrArg Host.Outcome.next ((if_neg (by omega)).trans ((if_neg (by omega)).trans ((if_pos h).trans
    ((if_pos right).trans (if_pos ?_)))))
  change ((s.decremented (beAt bytes 0 4)).tag.phase == .decrement) = true
  rw [tag_decremented, waits]
  rfl

theorem exec_cassResponse_dec_wrong (h : s.cass.cmd = 3) (wrong : ¬ s.decRight bytes) :
    exec (.cassResponse bytes) s = .next s.cassFail :=
  congrArg Host.Outcome.next ((if_neg (by omega)).trans ((if_neg (by omega)).trans ((if_pos h).trans (if_neg wrong))))

/-- INFO's answer fills serial and count, and AUTH follows. -/
theorem cassResponse_info (h : s.cass.cmd = 1) (len : bytes.length = 16) (good : beAt bytes 0 1 = 1) :
    ∃ t, exec (.cassResponse bytes) s = .next t ∧ t.cass.cmd = 2 ∧
      t.getF thB F.CASS_COUNT_COUNT = beAt bytes 4 4 % 2 ^ F.CASS_COUNT_COUNT.width ∧
      t.getF thB F.CASS_SERIAL_SERIAL = beAt bytes 8 8 % 2 ^ F.CASS_SERIAL_SERIAL.width ∧ t.tag = s.tag := by
  obtain ⟨nonce, follows⟩ := exec_cassResponse_info h len good
  refine ⟨_, follows, by rw [cass_cassStart], ?_, ?_, Part.same.tag_eq (by simp [State.infoTaken])⟩
  · rw [getF_cassStart, getF_tickFree, State.infoTaken, getF_setF_same]
  · rw [getF_cassStart, getF_tickFree, State.infoTaken, getF_setF_th _ (by decide), getF_setF_same]

/-- AUTH's right answer makes the cassette authentic, and printing goes on. -/
theorem cassResponse_auth (h : s.cass.cmd = 2) (right : s.authRight bytes) : ∃ t, exec (.cassResponse bytes) s = .next t ∧
    t.cass.cmd = (if s.cass.again then 1 else 0) ∧ t.getF thB F.TH_STATUS_CASS_OK = 1 ∧
    t.tag = { s.tag with stopped := false } := by
  obtain ⟨params, answers⟩ := exec_cassResponse_auth h right
  have cass : s.authentic.cass.cmd = if s.cass.again then 1 else 0 := by
    have marked : (s.setF thB F.TH_STATUS_CASS_OK 1).cass = s.cass := setF_cass ..
    rw [← marked]
    exact cmd_cassEnd
  have okay : s.authentic.getF thB F.TH_STATUS_CASS_OK = 1 := by
    rw [State.authentic, getF_setTag, getF_cassEnd]
    exact getF_setF_of_lt (by decide)
  have tag : s.authentic.tag = { s.tag with stopped := false } :=
    congrArg (fun q : Tag => { q with stopped := false }) (setF_tag ..)
  refine ⟨_, answers, ?_, ?_, ?_⟩
  · rw [Part.same.cass_eq (s := s.authentic) (by simp), cass]
  · exact (getF_pnlEvent ..).trans okay
  · rw [Part.same.tag_eq (s := s.authentic) (by simp), tag]

theorem cass_decremented (count : Nat) : (s.decremented count).cass.cmd = if s.cass.again then 1 else 0 := by
  rw [State.decremented, cmd_cassEnd]
  split <;> rw [Part.same.cass_eq (s := s) (by simp)]

theorem getF_decremented (count : Nat) : (s.decremented count).getF b f = (s.setF thB F.CASS_COUNT_COUNT count).getF b f := by
  rw [State.decremented, getF_cassEnd, getF_ite, getF_pnlEvent, ite_self]

/-- The tag that begins keeps all but its phase and its rows. -/
theorem tag_tagBegun : s.tagBegun.tag = { s.tag with phase := .lines, rows := s.tagBegun.tag.rows } := by
  have tag : s.tagBegun.tag = ((s.tagPhase .lines).fetchRows 0).tag := setF_tag ..
  rw [tag]
  exact (fetchRows_fetched 0).tag

theorem busy_tagBegun : s.tagBegun.getF thB F.TH_STATUS_BUSY = 1 := getF_setF_of_lt (by decide)

theorem getF_tagBegun (h : f.apartPage F.TH_STATUS_BUSY = true) : s.tagBegun.getF thB f = s.getF thB f := by
  have fetched : Fetched (s.tagPhase .lines) ((s.tagPhase .lines).fetchRows 0) := fetchRows_fetched 0
  obtain ⟨ho, hl⟩ := Fld.inPage_of_apartPage h
  exact (getF_setF_th 1 h).trans (fetched.getF thB f (low_th ho hl))

theorem cass_tagBegun : s.tagBegun.cass = s.cass := Part.same.cass_eq (by simp [State.tagBegun])

/-- DEC's right answer takes the new count, and the tag begins. -/
theorem cassResponse_dec (h : s.cass.cmd = 3) (right : s.decRight bytes) (clear : s.tagCause = none)
    (waits : s.tag.phase = .decrement) : ∃ t, exec (.cassResponse bytes) s = .next t ∧
      t.cass.cmd = (if s.cass.again then 1 else 0) ∧ t.tag = { s.tag with phase := .lines, rows := t.tag.rows } ∧
      t.getF thB F.TH_STATUS_BUSY = 1 ∧ t.getF thB F.CASS_COUNT_COUNT = beAt bytes 0 4 % 2 ^ F.CASS_COUNT_COUNT.width := by
  have tag := tag_tagBegun (s := s.decremented (beAt bytes 0 4))
  have busy := busy_tagBegun (s := s.decremented (beAt bytes 0 4))
  rw [tag_decremented] at tag
  generalize begun : (s.decremented (beAt bytes 0 4)).tagBegun = u at tag busy
  have reads {f : Fld} (hb : f.apartPage F.TH_STATUS_BUSY = true) :
      u.getF thB f = (s.setF thB F.CASS_COUNT_COUNT (beAt bytes 0 4)).getF thB f :=
    begun ▸ (getF_tagBegun hb).trans (getF_decremented _)
  have cause : u.tagCause = none := by
    rw [← clear]
    refine tagCause_congr (by rw [tag]) fun f hf => ?_
    obtain ⟨hb, hc⟩ := (by decide : ∀ f ∈ causeFlds, f.apartPage F.TH_STATUS_BUSY = true ∧
      f.apartPage F.CASS_COUNT_COUNT = true) f hf
    exact (reads hb).trans (getF_setF_th _ hc)
  have phase : u.tag.phase = .lines := by rw [tag]
  have prints : u.tagCheck = u := by
    rw [tagCheck_of_clear cause, tagFeed_of_not_void (by simp [phase])]
  refine ⟨u, ?_, ?_, tag, busy, (reads (by decide)).trans (getF_setF_same ..)⟩
  · rw [exec_cassResponse_dec h right waits, begun, prints]
  · rw [← begun, cass_tagBegun, cass_decremented]

/-- No answer at all is a wrong one. -/
theorem exec_cassResponse_nil (h : s.cass.cmd ≠ 0) (h3 : s.cass.cmd ≤ 3) :
    exec (.cassResponse []) s = .next s.cassFail := by
  have : s.cass.cmd = 1 ∨ s.cass.cmd = 2 ∨ s.cass.cmd = 3 := by omega
  rcases this with info | auth | dec
  · exact congrArg Host.Outcome.next ((if_pos info).trans (if_pos (Or.inl (by decide))))
  · exact exec_cassResponse_auth_wrong auth fun right => absurd right.1 (by decide)
  · exact exec_cassResponse_dec_wrong dec fun right => absurd right.1 (by decide)

theorem exec_cassExchangeTimeout (h : s.cass.cmd ≠ 0) : exec .cassExchangeTimeout s = .next s.cassFail :=
  congrArg Host.Outcome.next (if_neg h)

theorem exec_cassExchangeTimeout_idle (h : s.cass.cmd = 0) : exec .cassExchangeTimeout s = .next s :=
  congrArg Host.Outcome.next (if_pos h)

theorem exec_cassRetry (h : s.cass.cmd ≠ 0) : exec .cassRetry s = .next s.cassSend :=
  congrArg Host.Outcome.next (if_neg h)

theorem exec_cassRetry_idle (h : s.cass.cmd = 0) : exec .cassRetry s = .next s :=
  congrArg Host.Outcome.next (if_pos h)

/-! ## The head that has closed (R348) -/

/-- The state in which the 100 ms after the head has closed are over. -/
def State.headClosed (s : State) : State := { s with cass := { s.cass with closing := false } }

theorem exec_cassOpenClearDelay (on : s.thOn = true) (closing : s.cass.closing = true)
    (closed : s.getF thB F.TH_STATUS_OPEN = 0) : exec .cassOpenClearDelay s = .next s.headClosed.authenticate :=
  congrArg Host.Outcome.next (if_pos (by simp [on, closing, State.flag, closed]))

theorem exec_cassOpenClearDelay_other (h : s.thOn = false ∨ s.cass.closing = false) :
    exec .cassOpenClearDelay s = .next s :=
  congrArg Host.Outcome.next (if_neg (by rcases h with h | h <;> simp [h]))

end Cassette
end Sys2Proof.Machine

namespace Sys2Proof.Proofs

open Sys2Proof.Machine

/-- Settles O44: an answer is right or the exchange fails (`cassFail_of_decrement`, `cassFail_of_authentication`), and either end
goes through `State.cassEnd`, where an authentication that waited begins. -/
theorem cassetteExchange : Obligations.CassetteExchange := by
  unfold Obligations.CassetteExchange
  refine ⟨fun s bytes => ⟨exec_cassResponse_idle, cassResponse_info, fun auth len counter mac closed => ?_,
    fun auth opened => ?_, fun dec len count clear waits mac => ?_⟩, fun s i busy h => ?_,
    fun s => ⟨fun idle => ⟨exec_cassExchangeTimeout_idle idle, exec_cassRetry_idle idle⟩, exec_cassRetry,
      fun on closing closed => ?_, exec_cassOpenClearDelay_other⟩⟩
  · exact cassResponse_auth auth ⟨len, counter, mac, by simp [State.flag, closed]⟩
  · have wrong : ¬ s.authRight bytes := fun ⟨_, _, _, shut⟩ => by simp [State.flag, opened] at shut
    exact ⟨_, exec_cassResponse_auth_wrong auth wrong, cassFail_shows.1, cassFail_shows.2,
      tag_cassFail_of_authentication (by omega)⟩
  · exact cassResponse_dec dec ⟨len, count, mac⟩ clear waits
  · have fails : exec i s = .next s.cassFail := by
      rcases h with rfl | ⟨_, rfl, rfl, known⟩
      · exact exec_cassExchangeTimeout busy
      · exact exec_cassResponse_nil busy known
    exact ⟨_, fails, cmd_cassFail, cassFail_shows.1, cassFail_shows.2, tag_cassFail_of_decrement,
      tag_cassFail_of_authentication⟩
  · exact ⟨_, exec_cassOpenClearDelay on closing closed, closing_authenticate, cmd_authenticate,
      again_authenticate (s := s.headClosed), regs_authenticate⟩

end Sys2Proof.Proofs

/-! # The command port: what every command shares (O45) -/

namespace Sys2Proof.Machine

section CommandPort

variable {s t : State} {h : Hdr} {op role early : Nat} {body : State → State × Reply} {e : Session}

/-! ## Sending a reply -/

theorem Sent.rings_held {s t : State} (h : Sent s t) : t.rings = s.rings ∧ t.held = s.held := by
  rw [show t = { s with net := t.net } from h]
  exact ⟨rfl, rfl⟩

theorem sendReply_sent (h : Hdr) (bytes : List Byte) : Sent s (s.sendReply h bytes) := sendUdp_sent _ _ _ _ _ _ _

@[simp] theorem sess_sendReply (h : Hdr) (bytes : List Byte) : (s.sendReply h bytes).sess = s.sess :=
  (sendReply_sent h bytes).fields.1

@[simp] theorem rings_sendReply (h : Hdr) (bytes : List Byte) : (s.sendReply h bytes).rings = s.rings :=
  (sendReply_sent h bytes).rings_held.1

@[simp] theorem held_sendReply (h : Hdr) (bytes : List Byte) : (s.sendReply h bytes).held = s.held :=
  (sendReply_sent h bytes).rings_held.2

@[simp] theorem getF_sendReply (h : Hdr) (bytes : List Byte) (b : Nat) (f : Fld) :
    (s.sendReply h bytes).getF b f = s.getF b f := (sendReply_sent h bytes).getF b f

/-- A reply that is not cached leaves the sessions, the rings and the held writes. -/
theorem quick_keeps (h : Hdr) (op status : Nat) (key : Option (List Byte)) (params : List Byte) :
    (s.quick h op status key params).sess = s.sess ∧ (s.quick h op status key params).rings = s.rings ∧
      (s.quick h op status key params).held = s.held := by
  cases key <;> simp [State.quick, State.tickFree]

@[simp] theorem getF_quick (h : Hdr) (op status : Nat) (key : Option (List Byte)) (params : List Byte) (b : Nat) (f : Fld) :
    (s.quick h op status key params).getF b f = s.getF b f := by
  cases key <;> simp [State.quick]

@[simp] theorem getF_reply (h : Hdr) (op status : Nat) (course : Int) (params : List Byte) (b : Nat) (f : Fld) :
    (s.reply h op status course params).getF b f = s.getF b f := by
  unfold State.reply
  split <;> simp

@[simp] theorem rings_reply (h : Hdr) (op status : Nat) (course : Int) (params : List Byte) :
    (s.reply h op status course params).rings = s.rings := by
  unfold State.reply
  split <;> simp [State.mapSession]

@[simp] theorem held_reply (h : Hdr) (op status : Nat) (course : Int) (params : List Byte) :
    (s.reply h op status course params).held = s.held := by
  unfold State.reply
  split <;> simp [State.mapSession]

@[simp] theorem reply_mem (h : Hdr) (op status : Nat) (course : Int) (params : List Byte) :
    (s.reply h op status course params).mem = s.mem := by
  unfold State.reply
  split
  · rfl
  · exact (sendReply_sent h _).fields.2.1

@[simp] theorem reply_grp (h : Hdr) (op status : Nat) (course : Int) (params : List Byte) :
    (s.reply h op status course params).grp = s.grp := by
  unfold State.reply
  split
  · rfl
  · exact (sendReply_sent h _).fields.2.2.1

/-- The answer of a command that does not wait: its reply, and what follows it. -/
theorem answer_of_done {r : Reply} (h : Hdr) (op : Nat) (hw : r.wait = false) :
    s.answer h op r = r.after (s.reply h op r.status (r.course.getD (s.hdrView h)) r.params) := by
  simp [State.answer, hw]

/-! ## A refusal for want of a session (R366 step 2, R367) -/

/-- A NO_SESSION reply leaves, or the limit of its port drops it; it is counted all the same. -/
theorem deny_noSession (s : State) (h : Hdr) (op : Nat) (key : Option (List Byte)) :
    (∃ n, s.deny h op stNoSession key =
      ({ s.satF cmdB F.CMD_NO_SESSION_COUNT 1 with net := n } : State).quick h op stNoSession key []) ∨
    s.deny h op stNoSession key = (s.satF cmdB F.CMD_NO_SESSION_COUNT 1).satF cmdB F.CMD_RATE_DROP_COUNT 1 := by
  unfold State.deny
  simp only [stNoSession, stAuthFail, Nat.reduceEqDiff, if_false]
  split_ifs
  · exact .inl ⟨_, rfl⟩
  · exact .inr rfl
  · exact .inl ⟨_, rfl⟩
  · exact .inr rfl

theorem deny_noSession_effect (s : State) (h : Hdr) (op : Nat) (key : Option (List Byte)) :
    (s.deny h op stNoSession key).sess = s.sess ∧ (s.deny h op stNoSession key).rings = s.rings ∧
      (s.deny h op stNoSession key).held = s.held ∧
      (s.deny h op stNoSession key).getF cmdB F.CMD_NO_SESSION_COUNT =
        satAdd F.CMD_NO_SESSION_COUNT.width (s.getF cmdB F.CMD_NO_SESSION_COUNT) 1 := by
  have hc : (s.satF cmdB F.CMD_NO_SESSION_COUNT 1).getF cmdB F.CMD_NO_SESSION_COUNT =
      satAdd F.CMD_NO_SESSION_COUNT.width (s.getF cmdB F.CMD_NO_SESSION_COUNT) 1 := getF_satF_self _
  rcases deny_noSession s h op key with ⟨n, hn⟩ | hn
  · rw [hn]
    obtain ⟨h1, h2, h3⟩ := quick_keeps (s := { s.satF cmdB F.CMD_NO_SESSION_COUNT 1 with net := n }) h op stNoSession key []
    refine ⟨h1.trans ?_, h2.trans ?_, h3.trans ?_, (getF_quick ..).trans hc⟩ <;> rfl
  · rw [hn]
    exact ⟨rfl, rfl, rfl, (getF_setF_ne _ _ _ _ _ _ (by decide)).trans hc⟩

/-! ## The checks of a command (R366 to R370) -/

theorem commandE_closed (hp : s.portOpen = false) : s.commandE h op role early body = s := by
  simp [State.commandE, hp]

theorem commandE_noSession (hp : s.portOpen = true) (hf : s.findSession h = none) :
    s.commandE h op role early body = s.deny h op stNoSession (s.roleKey h.role.toNat) := by
  simp [State.commandE, hp, hf]

/-- The state in which a session has heard a command. -/
def State.heardBy (s : State) (e : Session) : State := s.mapSession e.id (fun x => { x with heard := s.now })

/-- A sequence number of the window that was seen is answered from the cache alone, where its reply still stands there. -/
theorem commandE_seen (hp : s.portOpen = true) (hf : s.findSession h = some e)
    (hw : seqAbove e.hi h.seq.toNat = true ∨ seqWithin e.hi h.seq.toNat = true) (hs : e.seen.contains h.seq.toNat = true) :
    Sent (s.heardBy e) (s.commandE h op role early body) := by
  have hw' : (!seqAbove e.hi h.seq.toNat && !seqWithin e.hi h.seq.toNat) = false := by
    rcases hw with hw | hw <;> simp [hw]
  unfold State.commandE
  simp only [hp, hf, hw', hs, Bool.not_true, Bool.false_eq_true, if_false, if_true]
  split
  · exact sendReply_sent _ _
  · exact Sent.refl _

/-- A role below the lowest of the opcode is answered NOT_PERMITTED, whatever else the opcode's own checks say. -/
theorem commandE_notPermitted (hp : s.portOpen = true) (hf : s.findSession h = some e)
    (hw : seqAbove e.hi h.seq.toNat = true ∨ seqWithin e.hi h.seq.toNat = true) (hn : e.seen.contains h.seq.toNat = false)
    (hl : e.outst.length < 256) (he : early ≠ stBadOpcode) (hr : h.role.toNat < role) :
    s.commandE h op role early body =
      ((s.heardBy e).mapSession e.id (fun x => x.take h op)).reply h op stNotPermitted
        (((s.heardBy e).mapSession e.id (fun x => x.take h op)).hdrView h) [] := by
  have hw' : (!seqAbove e.hi h.seq.toNat && !seqWithin e.hi h.seq.toNat) = false := by
    rcases hw with hw | hw <;> simp [hw]
  have hst : s.preStatus h op role early = stNotPermitted := by simp [State.preStatus, he, hr]
  unfold State.commandE
  simp only [hp, hf, hw', hn, if_neg (show ¬ 256 ≤ e.outst.length by omega), preStatus_mapSession, hst, Bool.not_true,
    Bool.false_eq_true, if_false]
  rfl

/-- Taking a command leaves its session open to its header, with the same limit of a reply. -/
theorem findSession_taken (hf : s.findSession h = some e) (op : Nat) :
    ∃ e', ((s.heardBy e).mapSession e.id (fun x => x.take h op)).findSession h = some e' ∧ e'.maxDgram = e.maxDgram := by
  obtain ⟨e', h1, h2⟩ := findSession_accepted (op := op) hf
  refine ⟨e', ?_, h2⟩
  rw [← h1, State.heardBy, findSession_id hf]
  exact findSession_congr _ _ (accepted_sess s h op).symm h

/-- Taking a command leaves the limit of its reply. -/
theorem fits_taken (hf : s.findSession h = some e) (op n : Nat) :
    ((s.heardBy e).mapSession e.id (fun x => x.take h op)).fits h n = s.fits h n := by
  obtain ⟨e', h1, h2⟩ := findSession_taken hf op
  simp only [State.fits, State.replyLimit, hf, h1, h2]
  rfl

/-- The length check of a command gives no BAD_OPCODE. -/
theorem lengthStatus_ne_badOpcode (c : Prop) [Decidable c] : (if c then 0 else stBadLength) ≠ stBadOpcode := by
  split <;> decide

/-- Every host command but SESSION_OPEN is one of the command layer, with its opcode and its lowest role. -/
theorem exec_command {i : Instr} (hi : Instr.command i = some (h, op, role)) (hop : op ≠ 0x0101) (s : State) :
    ∃ early body, early ≠ stBadOpcode ∧ exec i s = .next (s.commandE h op role early body) := by
  cases i with
  | sessionOpen => cases hi; exact absurd rfl hop
  | regWrite => cases hi; exact ⟨_, _, lengthStatus_ne_badOpcode _, rfl⟩
  | cameraCtrl => cases hi; exact ⟨_, _, lengthStatus_ne_badOpcode _, rfl⟩
  | _ => cases hi <;> exact ⟨0, _, by decide, rfl⟩

/-- No host command acts while the command port is closed. -/
theorem exec_command_closed {i : Instr} (hi : Instr.command i = some (h, op, role)) (hp : s.portOpen = false) :
    exec i s = .next s := by
  by_cases hop : op = 0x0101
  · subst hop
    cases i with
    | sessionOpen => simp [exec, execSessionOpen, hp]
    | _ => cases hi
  · obtain ⟨early, body, -, he⟩ := exec_command hi hop s
    rw [he, commandE_closed hp]

end CommandPort
end Sys2Proof.Machine

namespace Sys2Proof.Proofs
open Sys2Proof.Machine

/-- Settles O45, check by check of R366: the port, the session, the sequence number and the role. -/
theorem commandChecks : Obligations.CommandChecks := by
  intro s i h op role hi
  refine ⟨exec_command_closed hi, fun hp hop => ?_⟩
  obtain ⟨early, body, he, hx⟩ := exec_command hi hop s
  refine ⟨fun hf => ?_, fun e hf hw => ⟨fun hs => ?_, fun hn hl hr hfit => ?_⟩⟩
  · obtain ⟨h1, h2, h3, h4⟩ := deny_noSession_effect s h op (s.roleKey h.role.toNat)
    rw [commandE_noSession hp hf] at hx
    exact ⟨_, hx, h1, Part.same.mem_eq (by simp), Part.same.grp_eq (by simp), h2, h3, h4⟩
  · have hs' := commandE_seen (op := op) (role := role) (early := early) (body := body) hp hf hw hs
    obtain ⟨h1, h2, h3, -⟩ := hs'.fields
    exact ⟨_, hx, h1, h2, h3, hs'.rings_held.1, hs'.rings_held.2, fun b f _ => hs'.getF b f⟩
  · rw [commandE_notPermitted hp hf hw hn hl he hr] at hx
    obtain ⟨e', hf', -⟩ := findSession_taken hf op
    exact ⟨_, hx, reply_replied hf' (params := []) ((fits_taken hf op 0).trans hfit) _ _, reply_mem .., reply_grp ..,
      rings_reply .., held_reply .., fun b f _ => getF_reply ..⟩

end Sys2Proof.Proofs

/-! # The register frame of the commands that write few registers (O6) -/

namespace Sys2Proof.Machine

section CalRequestOfGroup

/-- The header of a CAL_REQUEST for the channels of group 3, by session 5. -/
def calHdr : Hdr :=
  { port := 0, addr := 0, udp := 40000, session := 5, role := 1, group := 3, seq := 7, atCourse := false, course := 0 }

/-- The session that issues it. -/
def calSession : Session :=
  { id := 5, role := 1, port := 0, addr := 0, udp := 40000, hostNonce := 1, devNonce := 2, timeout := 30, maxDgram := 1400,
    heard := 0, hi := 6, seen := [], cache := [], outst := [], openReply := [] }

/-- A device at Ready whose hub has power, with that session open, and with group 3 running on channel 8 in double mode with
flat field. -/
def calState : State :=
  ((((({ State.reset with boot := { step := 10 }, sess := [calSession] }.setF pwrB (F.DOM_ON_ON.nth 2) (2 ^ 32 - 1)).setF
    (gseamB 3) F.GRP_SEAM_FIRST_CH 8).setF (gseamB 3) F.GRP_SEAM_COUNT 1).setF (corrB 8) F.CORR_CTRL_FF_EN 1).setG 3
    { st := 2, openC := some 4 })

theorem calState_accepts : Accepts calState calHdr 0x0600 1 :=
  ⟨by decide +kernel, by decide +kernel, calSession, by decide +kernel, .inl (by decide), by decide, by decide⟩

/-- A CAL_REQUEST for the channels of a running group requests a computation for each that computes tables while it runs. -/
theorem exec_calRequest_group {s u : State} {h : Hdr} (ha : Accepts s h 0x0600 1) (hu : u = s.accepted h 0x0600)
    (hg : h.group.toNat ≤ 15) (run : u.running h.group.toNat = true) :
    exec (.calRequest h 0xFFFF) s = .next ((forL ((u.runChans h.group.toNat).filter u.gaugeDouble)
      (fun c t => t.calOne h.group.toNat c) u).answer h 0x0600 {}) := by
  simp only [exec, execCalRequest, command_accepted ha, ← hu, if_neg (Nat.not_lt.2 hg), run]
  rfl

/-- A channel for which a computation is requested shows it. -/
theorem getF_calOne (s : State) (g ch : Nat) : (s.calOne g ch).getF (corrB ch) F.CORR_STATUS_GAUGE_PEND = 1 := by
  simp [State.calOne, State.gaugeReq, gaugePend_shown]

theorem calState_channels : (calState.accepted calHdr 0x0600).running 3 = true ∧
    ((calState.accepted calHdr 0x0600).runChans 3).filter (calState.accepted calHdr 0x0600).gaugeDouble = [8] ∧
    calState.getF (corrB 8) F.CORR_STATUS_GAUGE_PEND = 0 := by decide +kernel

end CalRequestOfGroup
end Sys2Proof.Machine

namespace Sys2Proof.Proofs
open Sys2Proof.Machine

/-- Refutes O6: a CAL_REQUEST whose channel is 0xFFFF is for the channels of a running group, and sets GAUGE_PEND of each, where
the list of the command names GAUGE_PEND of the page of "channel" 0xFFFF alone. -/
theorem not_commandRegisters : ¬ Obligations.CommandRegisters := by
  unfold Obligations.CommandRegisters
  intro holds
  obtain ⟨run, chans, before⟩ := calState_channels
  obtain ⟨t, ht, frame, -⟩ := holds (.calRequest calHdr 0xFFFF) _ calState rfl
  obtain rfl := Host.Outcome.next.inj ((exec_calRequest_group calState_accepts rfl (by decide) run).symm.trans ht)
  have after := frame (corrB 8) F.CORR_STATUS_GAUGE_PEND (by decide)
  rw [answer_of_done calHdr _ rfl] at after
  simp only [id, getF_reply, show calHdr.group.toNat = 3 from rfl, chans, forL,
    List.foldl_cons, List.foldl_nil, getF_calOne, before] at after
  exact absurd after Nat.one_ne_zero

end Sys2Proof.Proofs

/-! # The commands that only report (O46) -/

namespace Sys2Proof.Machine

section Reports

variable {s t u : State} {h : Hdr} {op role : Nat}

/-! ## The registers of an accepted command

Only the counter of commands, at 0x10020, has moved; every block but those of the device and of the command port lies above
it. -/

theorem getF_accepted (s : State) (h : Hdr) (op : Nat) {b : Nat} {f : Fld} (hk : f.key b ≠ F.CMD_COUNT_COUNT.key cmdB) :
    (s.accepted h op).getF b f = s.getF b f := getF_setF_ne _ _ _ _ _ _ hk

theorem count_key_lt {b : Nat} (hb : 0x10020 < b) (f : Fld) : F.CMD_COUNT_COUNT.key cmdB < f.key b := by
  have : F.CMD_COUNT_COUNT.key cmdB = 0x10020 * 64 := rfl
  unfold Fld.key at *
  omega

@[simp] theorem getF_accepted_above {b : Nat} (hb : 0x10020 < b) (s : State) (h : Hdr) (op : Nat) (f : Fld) :
    (s.accepted h op).getF b f = s.getF b f := getF_accepted s h op (count_key_lt hb f).ne'

@[simp] theorem flag_accepted_above {b : Nat} (hb : 0x10020 < b) (s : State) (h : Hdr) (op : Nat) (f : Fld) :
    (s.accepted h op).flag b f = s.flag b f := congrArg (· == 1) (getF_accepted_above hb s h op f)

@[simp] theorem getI_accepted_above {b : Nat} (hb : 0x10020 < b) (s : State) (h : Hdr) (op : Nat) (f : Fld) :
    (s.accepted h op).getI b f = s.getI b f := congrArg (toInt f.width) (getF_accepted_above hb s h op f)

@[simp] theorem crsB_above (g : Nat) : 0x10020 < crsB g := by unfold crsB; omega
@[simp] theorem gseamB_above (g : Nat) : 0x10020 < gseamB g := by unfold gseamB; omega
@[simp] theorem patB_above (k : Nat) : 0x10020 < patB k := by unfold patB; omega
@[simp] theorem dmaB_above (c : Nat) : 0x10020 < dmaB c := by unfold dmaB; omega
@[simp] theorem corrB_above (n : Nat) : 0x10020 < corrB n := by unfold corrB chB; omega
@[simp] theorem ingB_above (n : Nat) : 0x10020 < ingB n := by unfold ingB chB; omega
@[simp] theorem teB_above (e : Nat) : 0x10020 < teB e := by unfold teB; omega
@[simp] theorem spareB_above (r : Nat) : 0x10020 < spareB r := by unfold spareB; omega
@[simp] theorem mcB_above (d : Nat) : 0x10020 < mcB d := by unfold mcB; omega
@[simp] theorem ethB_above (p : Nat) : 0x10020 < ethB p := by unfold ethB; omega
@[simp] theorem timB_above : 0x10020 < timB := by decide
@[simp] theorem pwrB_above : 0x10020 < pwrB := by decide
@[simp] theorem coreB_above : 0x10020 < coreB := by decide
@[simp] theorem clkB_above : 0x10020 < clkB := by decide
@[simp] theorem thB_above : 0x10020 < thB := by decide
@[simp] theorem repB_above : 0x10020 < repB := by decide

@[simp] theorem g_accepted (s : State) (h : Hdr) (op g : Nat) : (s.accepted h op).g g = s.g g := rfl
@[simp] theorem ch_accepted (s : State) (h : Hdr) (op ch : Nat) : (s.accepted h op).ch ch = s.ch ch := rfl
@[simp] theorem localT_accepted (s : State) (h : Hdr) (op : Nat) : (s.accepted h op).localT = s.localT := rfl
@[simp] theorem time_accepted (s : State) (h : Hdr) (op : Nat) : (s.accepted h op).time = s.time := rfl
@[simp] theorem rep_accepted (s : State) (h : Hdr) (op : Nat) : (s.accepted h op).rep = s.rep := rfl
@[simp] theorem boot_accepted (s : State) (h : Hdr) (op : Nat) : (s.accepted h op).boot = s.boot := rfl

@[simp] theorem domOn_accepted (s : State) (h : Hdr) (op d : Nat) : (s.accepted h op).domOn d = s.domOn d := by
  simp [State.domOn]

@[simp] theorem powered_accepted (s : State) (h : Hdr) (op a : Nat) : (s.accepted h op).powered a = s.powered a := by
  unfold State.powered
  split <;> simp

@[simp] theorem running_accepted (s : State) (h : Hdr) (op g : Nat) : (s.accepted h op).running g = s.running g := rfl

@[simp] theorem runningGroups_accepted (s : State) (h : Hdr) (op : Nat) :
    (s.accepted h op).runningGroups = s.runningGroups := rfl

@[simp] theorem stampG_accepted (s : State) (h : Hdr) (op g : Nat) : (s.accepted h op).stampG g = s.stampG g := by
  simp [State.stampG]

@[simp] theorem groupOf_accepted (s : State) (h : Hdr) (op ch : Nat) : (s.accepted h op).groupOf ch = s.groupOf ch := by
  simp [State.groupOf, State.inRun, State.runFirst, State.runCount]
  rfl

@[simp] theorem ptpLocked_accepted (s : State) (h : Hdr) (op d : Nat) :
    (s.accepted h op).ptpLocked d = s.ptpLocked d := by simp [State.ptpLocked]

@[simp] theorem ptpEn_accepted (s : State) (h : Hdr) (op d : Nat) : (s.accepted h op).ptpEn d = s.ptpEn d := by
  simp [State.ptpEn]

@[simp] theorem portDown_accepted (s : State) (h : Hdr) (op p : Nat) : (s.accepted h op).portDown p = s.portDown p := by
  simp [State.portDown, State.linkIsUp]

@[simp] theorem mcState_accepted (s : State) (h : Hdr) (op d : Nat) : (s.accepted h op).mcState d = s.mcState d := by
  simp [State.mcState]

@[simp] theorem stateByte_accepted (s : State) (h : Hdr) (op : Nat) : (s.accepted h op).stateByte = s.stateByte := by
  simp [State.stateByte, State.pwrState, State.reRunning]
  rfl

@[simp] theorem image_accepted (s : State) (h : Hdr) (op : Nat) :
    (s.accepted h op).getF devB F.CAST_STATUS_IMAGE = s.getF devB F.CAST_STATUS_IMAGE := getF_accepted s h op (by decide)

@[simp] theorem degraded_accepted (s : State) (h : Hdr) (op : Nat) : (s.accepted h op).degraded = s.degraded := by
  simp [State.degraded, State.flag]
  rfl

theorem deviceInfo_accepted (s : State) (h : Hdr) (op : Nat) : (s.accepted h op).deviceInfo = s.deviceInfo := by
  unfold State.deviceInfo
  rw [stateByte_accepted, image_accepted, degraded_accepted, getF_accepted s h op (by decide),
    getF_accepted s h op (by decide), getF_accepted s h op (by decide)]

theorem ptpBytes_accepted (s : State) (h : Hdr) (op d : Nat) : (s.accepted h op).ptpBytes d = s.ptpBytes d := by
  simp [State.ptpBytes, State.ptpState, State.ptpOffset]

/-! ## The words of a register -/

/-- The stored value of a field is that of a field at the address itself. -/
theorem fieldAt_eq_getF (s : State) (a : Nat) (f : Fld) :
    s.fieldAt false a f = s.getF a { f with off := 0, rst := resetAt f a } := rfl

theorem RegSpec.hit_addr {r : RegSpec} {off o : Nat} {up : Bool} (hh : r.hit off = some (o, up)) : off = o ∨ off = o + 4 := by
  have place := Nat.div_add_mod' (off - r.off) r.stride
  simp only [RegSpec.hit] at hh
  split_ifs at hh <;> simp only [Option.some.injEq, Prod.mk.injEq] at hh <;> omega

theorem findIn_addr {off o : Nat} {up : Bool} {r : RegSpec} :
    ∀ {l : List RegSpec}, findIn off l = some (r, o, up) → off = o ∨ off = o + 4
  | [], hh => by simp [findIn] at hh
  | x :: xs, hh => by
    unfold findIn at hh
    split at hh
    · rename_i o' u' hx
      simp only [Option.some.injEq, Prod.mk.injEq] at hh
      obtain ⟨-, rfl, rfl⟩ := hh
      exact RegSpec.hit_addr hx
    · exact findIn_addr hh

theorem flatIndex_le {i off : Nat} :
    ∀ {ds : List (Nat × Nat)} {rem acc : Nat}, flatIndex ds rem acc = some (i, off) → off ≤ rem
  | [], rem, acc, hh => by
    simp only [flatIndex, Option.some.injEq, Prod.mk.injEq] at hh
    omega
  | (st, n) :: ds, rem, acc, hh => by
    unfold flatIndex at hh
    split at hh
    · exact (flatIndex_le hh).trans (Nat.mod_le _ _)
    · cases hh

theorem Area.look_addr {a : Area} {addr : Nat} {x : RegHit} (hh : a.look addr = some x) :
    addr = x.addr ∨ addr = x.addr + 4 := by
  unfold Area.look at hh
  split at hh
  · cases hh
  · split at hh
    · cases hh
    · rename_i i off hi
      split at hh
      · cases hh
      · rename_i r o up hr
        cases hh
        have hle := flatIndex_le hi
        rcases findIn_addr hr with he | he <;> simp only <;> omega

theorem lookIn_addr {addr : Nat} {x : RegHit} :
    ∀ {l : List Area}, lookIn addr l = some x → addr = x.addr ∨ addr = x.addr + 4
  | [], hh => by simp [lookIn] at hh
  | a :: as, hh => by
    unfold lookIn at hh
    split at hh
    · rename_i y hy
      cases hh
      exact Area.look_addr hy
    · exact lookIn_addr hh

/-- The register at a word address lies there, or one word below where the address is that of its upper word. -/
theorem lookReg_addr {addr : Nat} {x : RegHit} (hh : lookReg addr = some x) : addr = x.addr ∨ addr = x.addr + 4 :=
  lookIn_addr hh

theorem peekReg_accepted (s : State) (h : Hdr) (op : Nat) {a : Nat} (ha : 0x10024 < a) :
    (s.accepted h op).peekReg a = s.peekReg a := by
  unfold State.peekReg
  split
  · rename_i x hx
    have hb : 0x10020 < x.addr := by rcases lookReg_addr hx with he | he <;> omega
    simp only [State.wordOf, fieldAt_eq_getF, getF_accepted_above hb]
  · rfl

theorem dmaWord_accepted (s : State) (h : Hdr) (op c : Nat) : (s.accepted h op).dmaWord c = s.dmaWord c := by
  unfold State.dmaWord
  rw [peekReg_accepted]
  unfold dmaB
  omega

/-! ## The reply of a report -/

/-- Carrying out a command leaves the limit of its reply. -/
theorem fits_accepted {e : Session} (hf : s.findSession h = some e) (op n : Nat) : (s.accepted h op).fits h n = s.fits h n := by
  obtain ⟨e', h1, h2⟩ := findSession_accepted (op := op) hf
  simp [State.fits, State.replyLimit, State.portLimit, hf, h1, h2]

/-- What an accepted command that only replies leaves: the reply, every register but the counter of commands, memory and
groups. -/
def Reports (s t : State) (h : Hdr) (op status : Nat) (params : List Byte) : Prop :=
  Replied t h op status params ∧ RegsKept s t ∧ t.mem = s.mem ∧ t.grp = s.grp

theorem Accepts.reports (ha : Accepts s h op role) {status : Nat} {params : List Byte} (hl : s.fits h params.length = true)
    (course : Int) : Reports s ((s.accepted h op).reply h op status course params) h op status params := by
  obtain ⟨-, -, e, hf, -⟩ := ha
  obtain ⟨e', hf', -⟩ := findSession_accepted (op := op) hf
  refine ⟨reply_replied hf' ((fits_accepted hf op _).trans hl) status course, fun b f hk => ?_, ?_, ?_⟩
  · rw [getF_reply, getF_accepted s h op hk]
  · rw [reply_mem]
    exact Part.same.mem_eq (by simp [State.accepted])
  · rw [reply_grp]
    exact Part.same.grp_eq (by simp [State.accepted])

/-- A command whose body answers OK with parameters, and does nothing else, reports them. -/
theorem command_reports {i : Instr} {body : State → State × Reply} {params : List Byte}
    (hx : exec i s = .next (s.command h op role body)) (ha : Accepts s h op role)
    (hb : body (s.accepted h op) = (s.accepted h op, .ok params)) (hl : s.fits h params.length = true) :
    ∃ t, exec i s = .next t ∧ Replied t h op 0 params ∧ RegsKept s t ∧ t.mem = s.mem ∧ t.grp = s.grp := by
  rw [hx, command_accepted ha, hb, answer_of_done h op rfl]
  exact ⟨_, rfl, ha.reports hl _⟩

end Reports
end Sys2Proof.Machine

namespace Sys2Proof.Proofs
open Sys2Proof.Machine

/-- Settles O46: each report is of registers and state that the count of the command leaves (`command_reports`). -/
theorem queryCommands : Obligations.QueryCommands := by
  intro s u i h op role params hu hq ha hl
  subst hu
  rcases hq with ⟨rfl, rfl, rfl, rfl⟩ | ⟨rfl, rfl, rfl, rfl⟩ | ⟨rfl, rfl, rfl, rfl⟩ | ⟨g, k, hk, rfl, rfl, rfl, rfl⟩ |
    ⟨g, hg, rfl, rfl, rfl, rfl⟩ | ⟨c, hc, rfl, rfl, rfl, rfl⟩ | ⟨c, hc, hp, rfl, rfl, rfl, rfl⟩ | ⟨rfl, rfl, rfl, rfl⟩ |
    ⟨rfl, rfl, rfl, rfl⟩ | ⟨hd, rfl, rfl, rfl, rfl⟩ | ⟨hd, rfl, rfl, rfl, rfl⟩
  · exact command_reports rfl ha (by rw [deviceInfo_accepted]; rfl) hl
  · exact command_reports rfl ha rfl hl
  · exact command_reports rfl ha rfl hl
  · exact command_reports rfl ha (by simp [hk, Reply.ok]) hl
  · exact command_reports rfl ha (by simp [show ¬ 15 < g.toNat by omega, Reply.ok, State.viewOf, State.stampOf, hg]) hl
  · exact command_reports rfl ha (by simp [show ¬ 63 < c.toNat by omega, Reply.ok, dmaWord_accepted]) hl
  · exact command_reports rfl ha (by simp [show ¬ 127 < c.toNat by omega, hp, Reply.ok]) hl
  · exact command_reports rfl ha (by simp [Reply.ok, State.sec, State.ns]) hl
  · exact command_reports rfl ha (by rw [ptpBytes_accepted, ptpBytes_accepted]) hl
  · have hw := peekReg_accepted s h 0x0804 (show 0x10024 < thB + F.TH_STATUS_CASS_OK.off by decide)
    exact command_reports rfl ha (by simp [markUnit, hd, Reply.ok, hw]) hl
  · exact command_reports rfl ha (by simp [hd, Reply.ok]) hl

end Sys2Proof.Proofs

/-! # Sessions (O47) -/

namespace Sys2Proof.Machine

section Sessions

variable {s t : State} {h : Hdr} {op role : Nat} {e : Session}

/-! ## The number of a new session (R361) -/

theorem insertInt_eq_orderedInsert (x : Int) (l : List Int) : insertInt x l = l.orderedInsert (· ≤ ·) x := by
  induction l with
  | nil => rfl
  | cons y ys ih => rw [insertInt, List.orderedInsert_cons, ih]

theorem foldr_insertInt (l : List Int) : l.foldr insertInt [] = l.insertionSort (· ≤ ·) := by
  induction l with
  | nil => rfl
  | cons x xs ih => rw [List.foldr_cons, ih, insertInt_eq_orderedInsert, List.insertionSort_cons]

theorem sessIds_eq (s : State) :
    s.sessIds = ((s.sess.map (fun e => Int.ofNat e.id)).insertionSort (· ≤ ·)).map Int.toNat := by
  rw [State.sessIds, foldr_insertInt]

theorem sessIds_pairwise (s : State) : s.sessIds.Pairwise (· ≤ ·) := by
  rw [sessIds_eq, List.pairwise_map]
  exact (List.pairwise_insertionSort (· ≤ ·) _).imp Int.toNat_le_toNat

theorem length_sessIds (s : State) : s.sessIds.length = s.sess.length := by
  rw [sessIds_eq, List.length_map, List.length_insertionSort, List.length_map]

theorem id_mem_sessIds (he : e ∈ s.sess) : e.id ∈ s.sessIds := by
  rw [sessIds_eq, List.mem_map]
  exact ⟨Int.ofNat e.id, (List.mem_insertionSort _).2 (List.mem_map.2 ⟨e, he, rfl⟩), rfl⟩

theorem le_freshId (v : Nat) (l : List Nat) : v ≤ freshId v l := by
  induction l generalizing v with
  | nil => exact Nat.le_refl v
  | cons k ks ih =>
    rw [freshId]
    split
    · exact (Nat.le_succ v).trans (ih (v + 1))
    · exact ih v

theorem freshId_le (v : Nat) (l : List Nat) : freshId v l ≤ v + l.length := by
  induction l generalizing v with
  | nil => exact Nat.le_refl v
  | cons k ks ih =>
    rw [freshId, List.length_cons]
    split
    · exact (ih (v + 1)).trans (by omega)
    · exact (ih v).trans (by omega)

/-- Where every number of the list lies above, the first number is free. -/
theorem freshId_of_lt {v : Nat} {l : List Nat} (hl : ∀ k ∈ l, v < k) : freshId v l = v := by
  induction l with
  | nil => rfl
  | cons k ks ih =>
    rw [freshId, if_neg (Nat.not_le.2 (hl k (by simp)))]
    exact ih (fun x hx => hl x (by simp [hx]))

/-- The number that a new session is given is none of a rising list. -/
theorem freshId_notMem (v : Nat) (l : List Nat) (hl : l.Pairwise (· ≤ ·)) : freshId v l ∉ l := by
  induction l generalizing v with
  | nil => simp
  | cons k ks ih =>
    obtain ⟨hk, hks⟩ := List.pairwise_cons.1 hl
    rw [freshId, List.mem_cons, not_or]
    split
    · next hv => exact ⟨(hv.trans_lt (le_freshId (v + 1) ks)).ne', ih (v + 1) hks⟩
    · next hv =>
      have free := freshId_of_lt (fun x hx => (Nat.lt_of_not_le hv).trans_le (hk x hx))
      exact ⟨by rw [free]; exact (Nat.lt_of_not_le hv).ne, ih v hks⟩

/-! ## SESSION_OPEN (R361, R362) -/

theorem sess_of_openStatus {tmo dgram : Nat} (ho : s.openStatus h tmo dgram = 0) : s.sess.length < 64 := by
  unfold State.openStatus at ho
  split_ifs at ho <;> simp_all [stBadParam, stBusy, stNoResource]

/-- The number of a new session lies in the range of numbers, and no open session has it (R361). -/
theorem newId_free (hl : s.sess.length < 64) {n : Nat}
    (hn : n = freshId ((Config.freeBits 16 s.freeCtr).toNat % (65535 - s.sess.length) + 1) s.sessIds) :
    1 ≤ n ∧ n ≤ 65535 ∧ ∀ x ∈ s.sess, x.id ≠ n := by
  subst hn
  generalize hv : (Config.freeBits 16 s.freeCtr).toNat % (65535 - s.sess.length) = v
  have hmod : v < 65535 - s.sess.length := hv ▸ Nat.mod_lt _ (by omega)
  have hlow := le_freshId (v + 1) s.sessIds
  have hhigh := freshId_le (v + 1) s.sessIds
  rw [length_sessIds] at hhigh
  exact ⟨by omega, by omega, fun x hx he => freshId_notMem (v + 1) _ (sessIds_pairwise s) (he ▸ id_mem_sessIds hx)⟩

/-- What an open adds, and shows. -/
theorem openSession_adds (key : List Byte) (nonce tmo dgram : Nat) (hl : s.sess.length < 64) :
    ∃ e, (s.openSession h key nonce tmo dgram).sess = s.sess ++ [e] ∧ (1 ≤ e.id ∧ e.id ≤ 65535 ∧
      ∀ x ∈ s.sess, x.id ≠ e.id) ∧ e.role = h.role.toNat ∧ e.addr = h.addr.toNat ∧ e.udp = h.udp.toNat ∧
      e.timeout = (if tmo = 0 then 30 else tmo) ∧ e.maxDgram = dgram ∧ e.hi = h.seq.toNat ∧
      (s.openSession h key nonce tmo dgram).getF cmdB F.CMD_STATUS_SESSIONS = s.sess.length + 1 := by
  refine ⟨_, (sess_sendReply _ _).trans rfl, newId_free hl rfl, rfl, rfl, rfl, rfl, rfl, rfl, ?_⟩
  unfold State.openSession
  rw [getF_sendReply, State.incF, getF_setF_ne _ _ _ _ _ _ (by decide), State.showSessions, getF_setF_same]
  have hw : F.CMD_STATUS_SESSIONS.width = 8 := rfl
  simp only [State.tickFree, List.length_append, List.length_singleton, hw]
  omega

/-! ## The end of a session (R363) -/

/-- A change of one session that keeps its number is not seen where that session is left out. -/
theorem filter_mapSession (id : Nat) (f : Session → Session) (hf : ∀ e, (f e).id = e.id) (s : State) :
    (s.mapSession id f).sess.filter (fun e => e.id != id) = s.sess.filter (fun e => e.id != id) := by
  rw [mapSession_sess]
  induction s.sess with
  | nil => rfl
  | cons x xs ih => by_cases hx : x.id = id <;> simp [hx, hf, ih]

theorem filter_accepted (s : State) (h : Hdr) (op : Nat) : (s.accepted h op).sess.filter (fun e => e.id != h.session.toNat) =
    s.sess.filter (fun e => e.id != h.session.toNat) := by
  rw [accepted_sess]
  exact (filter_mapSession _ _ (fun x => (take_kept x h op).1) _).trans (filter_mapSession _ _ (by intro; rfl) s)

theorem filter_reply (s : State) (h : Hdr) (op status : Nat) (course : Int) (params : List Byte) :
    (s.reply h op status course params).sess.filter (fun e => e.id != h.session.toNat) =
      s.sess.filter (fun e => e.id != h.session.toNat) := by
  unfold State.reply
  split
  · rfl
  · next e hf =>
    rw [sess_sendReply, findSession_id hf]
    exact filter_mapSession _ _ (by intro; rfl) s

/-- What a session's close leaves of the others. -/
theorem closeSession_keeps (s : State) (id : Nat) : (s.closeSession id).sess = s.sess.filter (fun e => e.id != id) ∧
    (s.closeSession id).out = s.out ∧ (s.closeSession id).held = s.held ∧ (s.closeSession id).mem = s.mem ∧
    (s.closeSession id).grp = s.grp := ⟨rfl, rfl, rfl, rfl, rfl⟩

/-- An accepted command that replies, and then closes a session. -/
theorem Accepts.closes (ha : Accepts s h op role) {i : Instr} {id : Nat} {body : State → State × Reply}
    (hx : exec i s = .next (s.command h op role body))
    (hb : body (s.accepted h op) = (s.accepted h op, { after := (·.closeSession id) })) :
    ∃ t, exec i s = .next t ∧ (∀ e ∈ t.sess, e.id ≠ id) ∧
      (t.sess.filter (fun e => e.id != h.session.toNat)) =
        (s.sess.filter (fun e => e.id != h.session.toNat)).filter (fun e => e.id != id) ∧
      t.mem = s.mem ∧ t.grp = s.grp ∧ t.held = s.held := by
  rw [hx, command_accepted ha, hb, answer_of_done h op rfl]
  refine ⟨_, rfl, fun e he => ?_, ?_, (reply_mem ..).trans ?_, (reply_grp ..).trans ?_, (held_reply ..).trans ?_⟩
  · simpa using (List.mem_filter.1 he).2
  · dsimp only
    rw [(closeSession_keeps _ _).1, List.filter_comm, filter_reply, filter_accepted]
  · exact Part.same.mem_eq (by simp [State.accepted])
  · exact Part.same.grp_eq (by simp [State.accepted])
  · rfl

theorem sessionClose_ends (ha : Accepts s h 0x0102 0) : ∃ t, exec (.sessionClose h) s = .next t ∧
    t.sess = s.sess.filter (fun e => e.id != h.session.toNat) ∧ t.mem = s.mem ∧ t.grp = s.grp ∧ t.held = s.held := by
  obtain ⟨t, hx, hid, hsess, hrest⟩ := ha.closes (i := .sessionClose h) (id := h.session.toNat) rfl rfl
  refine ⟨t, hx, ?_, hrest⟩
  rw [List.filter_eq_self.2 (fun e he => by simpa using hid e he), List.filter_filter] at hsess
  simpa using hsess

theorem sessionKill_ends {id : BitVec 16} (ha : Accepts s h 0x0105 3) (hid : ∃ e ∈ s.sess, e.id = id.toNat) :
    ∃ t, exec (.sessionKill h id) s = .next t ∧ (∀ e ∈ t.sess, e.id ≠ id.toNat) ∧
      (∀ e ∈ s.sess, e.id ≠ id.toNat → e.id ≠ h.session.toNat → e ∈ t.sess) ∧ t.mem = s.mem ∧ t.grp = s.grp ∧
      t.held = s.held := by
  have any : (s.accepted h 0x0105).sess.any (fun e => e.id == id.toNat) = true := by
    obtain ⟨e, he, hi⟩ := hid
    rw [accepted_sess, mapSession_sess, mapSession_sess, List.any_map, List.any_map, List.any_eq_true]
    refine ⟨e, he, ?_⟩
    by_cases hs : e.id = h.session.toNat <;> simp [hs, hi ▸ hs, take_kept, hi]
  obtain ⟨t, hx, hno, hsess, hrest⟩ := ha.closes (i := .sessionKill h id) (id := id.toNat) rfl (by simp [any])
  refine ⟨t, hx, hno, fun e he h1 h2 => ?_, hrest⟩
  have hm : e ∈ t.sess.filter (fun e => e.id != h.session.toNat) := by
    rw [hsess]
    simp [he, h1, h2]
  exact (List.mem_filter.1 hm).1

/-! ## COMMAND_COMPLETE (R370) -/

theorem exec_commandComplete {id : BitVec 16} {seq : BitVec 32} {o : Outstanding}
    (he : s.sess.find? (fun x => x.id == id.toNat) = some e) (ho : e.outst.find? (fun x => x.hdr.seq == seq) = some o) :
    exec (.commandComplete id seq) s = .next (if o.op = 0x0301 then s.stopDone o else s.replyDone o.hdr o.op) := by
  simp [exec, execCommandComplete, he, ho]

/-- The result of an outstanding command of the session that its header names is the one that it holds. -/
theorem resultOf_outstanding {seq : BitVec 32} {o : Outstanding} (ho : e.outst.find? (fun x => x.hdr.seq == seq) = some o)
    (hf : s.findSession o.hdr = some e) : s.resultOf o.hdr = o.result := by
  have hseq : o.hdr.seq = seq := by simpa using List.find?_some ho
  simp [State.resultOf, hf, hseq, ho]

end Sessions
end Sys2Proof.Machine

namespace Sys2Proof.Proofs
open Sys2Proof.Machine

/-- Settles O47, row by row: the number of a new session is free (`freshId_notMem`), an end leaves the other sessions
(`Accepts.closes`), and a command completes with the result that its session holds. -/
theorem sessionCommands : Obligations.SessionCommands := by
  refine ⟨fun s h nonce tmo dgram key hp h0 hkey hnew ho => ?_, fun s h ha => sessionClose_ends ha,
    fun s h id ha hid => sessionKill_ends ha hid, fun s id => ⟨_, rfl, rfl, rfl, rfl, rfl, getF_setF_same ..⟩,
    fun s id seq e o he ho hop => ⟨fun st ps hr hf hfit => ?_, fun hr hf => ?_⟩,
    fun s id seq e o he ho hop => ⟨fun hc hf hfit => ?_, fun hc => ?_⟩⟩
  · have hnone : s.sess.find? (fun e => e.hostNonce == nonce.toNat && e.addr == h.addr.toNat && e.udp == h.udp.toNat) = none :=
      List.find?_eq_none.2 fun e he => by simp [hnew e he]
    have hx : exec (.sessionOpen h nonce tmo dgram) s =
        .next (s.openSession h key nonce.toNat tmo.toNat dgram.toNat) := by
      simp [exec, execSessionOpen, hp, h0, hkey, hnone, ho]
    obtain ⟨e, h1, ⟨h2, h3, h4⟩, h5, h6, h7, h8, h9, h10, h11⟩ :=
      openSession_adds (h := h) key nonce.toNat tmo.toNat dgram.toNat (sess_of_openStatus ho)
    refine ⟨_, e, hx, h1, h2, h3, h4, h5, h6, h7, h8.trans ?_, h9, h10, h11, Part.same.mem_eq (by simp),
      Part.same.grp_eq (by simp)⟩
    simp [← BitVec.toNat_inj]
  · rw [exec_commandComplete he ho, if_neg hop, State.replyDone, resultOf_outstanding ho hf, hr]
    exact ⟨_, rfl, reply_replied hf hfit _ _, reply_mem .., reply_grp ..⟩
  · rw [exec_commandComplete he ho, if_neg hop, State.replyDone, resultOf_outstanding ho hf, hr]
  · rw [exec_commandComplete he ho, if_pos hop, State.stopDone, if_pos hc]
    exact ⟨_, rfl, reply_mem .., reply_grp .., reply_replied hf (params := lastCourse _) hfit _ _⟩
  · rw [exec_commandComplete he ho, if_pos hop, State.stopDone, if_neg (by simp [hc])]

end Sys2Proof.Proofs

/-! # What a reply still finds after the effect of its command

A reply leaves where its session is still open and its limit is what it was. The operations below change no session but for the
results of outstanding commands, and no register of a port's link: one lemma `wired_<op>` for each, an equivalence that `simp`
rewrites with, as the frame lemmas `same_<op>` are. -/

namespace Sys2Proof.Machine

section Wires

variable {s0 s t : State} {h : Hdr} {op role : Nat}

/-! ## The relation -/

/-- What a header looks for in a session, and the limit of its replies. -/
def Session.who (e : Session) : Nat × Nat × Nat × Nat × Nat := (e.id, e.role, e.addr, e.udp, e.maxDgram)

/-- The keys of the fields of the two ports that the limit of a reply and the state of a link are read from. -/
def wireKeys : List Nat :=
  [F.ETH_CTRL_JUMBO.key (ethB 0), F.ETH_CTRL_JUMBO.key (ethB 1), F.ETH_STATUS_LINK_UP.key (ethB 0),
    F.ETH_STATUS_LINK_UP.key (ethB 1), F.ETH_EVENT_LINK_DN_EV.key (ethB 0), F.ETH_EVENT_LINK_DN_EV.key (ethB 1)]

/-- The sessions that headers name, and those fields of the ports, are as before. -/
def Wired (s t : State) : Prop :=
  (∀ k ∈ wireKeys, Tab.find k t.regs = Tab.find k s.regs) ∧ t.sess.map Session.who = s.sess.map Session.who

/-- A field that is none of those. -/
def Fld.offWire (f : Fld) (b : Nat) : Bool := f.pat || !wireKeys.contains (f.key b)

@[simp] theorem wired_refl (s : State) : Wired s s := ⟨fun _ _ => rfl, rfl⟩

theorem Wired.trans {a b c : State} (h : Wired a b) (h' : Wired b c) : Wired a c :=
  ⟨fun k hk => (h'.1 k hk).trans (h.1 k hk), h'.2.trans h.2⟩

theorem Wired.symm {a b : State} (h : Wired a b) : Wired b a := ⟨fun k hk => (h.1 k hk).symm, h.2.symm⟩

/-- The form in which it is used: what keeps these things can be dropped from the right of `Wired s0`. -/
theorem Wired.iff (h : Wired s t) : Wired s0 t ↔ Wired s0 s := ⟨fun k => k.trans h.symm, fun k => k.trans h⟩

@[simp] theorem wired_mk {now act shd mem flash out freeCtr pos grp flight arrived live held devView sync copying accepts
    wakeFrom localT time ptp lane chan seam seamG segG tal tallyLast csw hist oldL sess rings resv subs ctxCache binds
    ringWait starved dma memQ hank memBad dram retrain cmp rezero tag cass cassKey aux mclkAt yarn pnl dpMon view viewOld lbNext lbGone
    dpRow dpBuf rep stopped spareDue net boot fuses power jtag pins banksOff gated degShown annKey keys dup pending}
    (hs : sess = s.sess) :
    Wired s0
    ⟨now, s.regs, act, shd, mem, flash, out, freeCtr, pos, grp, flight, arrived, live, held, devView, sync, copying,
    accepts, wakeFrom, localT, time, ptp, lane, chan, seam, seamG, segG, tal, tallyLast, csw, hist, oldL, sess,
    rings, resv, subs, ctxCache, binds, ringWait, starved, dma, memQ, hank, memBad, dram, retrain, cmp, rezero, tag,
    cass, cassKey, aux, mclkAt, yarn, pnl, dpMon, view, viewOld, lbNext, lbGone, dpRow, dpBuf, rep, stopped,
    spareDue, net, boot, fuses, power, jtag, pins, banksOff, gated, degShown, annKey, keys, dup, pending⟩ ↔
    Wired s0 s := by
  subst hs
  exact Iff.rfl

@[simp] theorem wired_ite {c : Prop} [Decidable c] {a b : State} :
    Wired s0 (if c then a else b) ↔ if c then Wired s0 a else Wired s0 b := by split <;> rfl

@[simp] theorem wired_ite_fst {α : Type} {c : Prop} [Decidable c] {a b : State × α} :
    Wired s0 (if c then a else b).1 ↔ if c then Wired s0 a.1 else Wired s0 b.1 := by split <;> rfl

theorem forL_wired {α : Type} {f : α → State → State} (l : List α) (hf : ∀ x ∈ l, ∀ t, Wired t (f x t)) (s : State) :
    Wired s (forL l f s) := by
  induction l generalizing s with
  | nil => exact wired_refl s
  | cons x l ih => exact (hf x (by simp) s).trans (ih (fun y hy => hf y (by simp [hy])) (f x s))

@[simp] theorem wired_forL {α : Type} {f : α → State → State} (l : List α) (hf : ∀ x t, Wired t (f x t)) :
    Wired s0 (forL l f s) ↔ Wired s0 s := (forL_wired l (fun x _ t => hf x t) s).iff

@[simp] theorem wired_forN {f : Nat → State → State} (n : Nat) (hf : ∀ x t, Wired t (f x t)) :
    Wired s0 (forN n f s) ↔ Wired s0 s := wired_forL _ hf

/-! ## The registers -/

@[simp] theorem offWire_above {b : Nat} (hb : 0x150000 ≤ b) (f : Fld) : f.offWire b = true := by
  have hk : ∀ k ∈ wireKeys, k < 0x150000 * 64 := by decide
  have hn : f.key b ∉ wireKeys := fun hm => by
    have := hk _ hm
    unfold Fld.key at this
    omega
  simp [Fld.offWire, hn]

@[simp] theorem offWire_mcB (f : Fld) (d : Nat) : f.offWire (mcB d) = true := offWire_above (by unfold mcB; omega) f
@[simp] theorem offWire_corrB (f : Fld) (n : Nat) : f.offWire (corrB n) = true := offWire_above (by unfold corrB chB; omega) f
@[simp] theorem offWire_ingB (f : Fld) (n : Nat) : f.offWire (ingB n) = true := offWire_above (by unfold ingB chB; omega) f
@[simp] theorem offWire_timB (f : Fld) : f.offWire timB = true := offWire_above (by decide) f
@[simp] theorem offWire_dlB (f : Fld) (n : Nat) : f.offWire (dlB n) = true := offWire_above (by unfold dlB; omega) f
@[simp] theorem offWire_clB (f : Fld) (n : Nat) : f.offWire (clB n) = true := offWire_above (by unfold clB; omega) f
@[simp] theorem offWire_coreB (f : Fld) : f.offWire coreB = true := offWire_above (by decide) f

/-- A field of a port that is none of those. -/
theorem offWire_ethB {f : Fld} (p : Nat) (hp : f.offWire (ethB 0) = true ∧ f.offWire (ethB 1) = true) :
    f.offWire (ethB p) = true := by
  rcases Nat.mod_two_eq_zero_or_one p with hm | hm
  · rw [show ethB p = ethB 0 by simp [ethB, hm]]
    exact hp.1
  · rw [show ethB p = ethB 1 by simp [ethB, hm]]
    exact hp.2

theorem offWire_hkB {f : Fld} (k : Nat) (hf : f.offWire 0x120000 = true) : f.offWire (hkB k) = true := by
  unfold hkB
  split
  · exact offWire_above (by omega) f
  · exact hf

@[simp] theorem wired_setF {b : Nat} {f : Fld} (hf : f.offWire b = true) (v : Nat) :
    Wired s0 (s.setF b f v) ↔ Wired s0 s := by
  refine Wired.iff ⟨fun k hk => ?_, by rw [setF_sess]⟩
  unfold State.setF
  split
  · rfl
  · next hp =>
    have hne : k ≠ f.key b := by
      rintro rfl
      simp_all [Fld.offWire]
    simp [hne]

@[simp] theorem wired_setI {b : Nat} {f : Fld} (hf : f.offWire b = true) (v : Int) :
    Wired s0 (s.setI b f v) ↔ Wired s0 s := wired_setF hf _

@[simp] theorem wired_incF {b : Nat} {f : Fld} (hf : f.offWire b = true) (n : Nat) :
    Wired s0 (s.incF b f n) ↔ Wired s0 s := wired_setF hf _

@[simp] theorem wired_satF {b : Nat} {f : Fld} (hf : f.offWire b = true) (n : Nat) :
    Wired s0 (s.satF b f n) ↔ Wired s0 s := wired_setF hf _

@[simp] theorem wired_mark {b : Nat} {f : Fld} (hf : f.offWire b = true) : Wired s0 (s.mark b f) ↔ Wired s0 s :=
  wired_setF hf _

@[simp] theorem wired_fire (n : Nat) : Wired s0 (s.fire n) ↔ Wired s0 s := by simp [State.fire]

@[simp] theorem wired_raise {b : Nat} {f : Fld} (hf : f.offWire b = true) (n : Nat) :
    Wired s0 (s.raise b f n) ↔ Wired s0 s := by simp [State.raise, hf]

@[simp] theorem wired_emit (o : Out) : Wired s0 (s.emit o) ↔ Wired s0 s := by simp [State.emit]

@[simp] theorem wired_tickFree : Wired s0 s.tickFree ↔ Wired s0 s := by simp [State.tickFree]

/-- Changes of sessions that keep what headers look for. -/
theorem wired_sess {l : List Session} (hl : l.map Session.who = s.sess.map Session.who) :
    Wired s0 { s with sess := l } ↔ Wired s0 s := Wired.iff ⟨fun _ _ => rfl, hl⟩

/-! ## Faults and memory -/

@[simp] theorem wired_pokes (a bs) : Wired s0 (s.pokes a bs) ↔ Wired s0 s := by simp [State.pokes]

@[simp] theorem wired_finishOp (op sel status params) : Wired s0 (s.finishOp op sel status params) ↔ Wired s0 s :=
  wired_sess (by simp [Session.who, Function.comp_def])

@[simp] theorem wired_freezeInst : Wired s0 s.freezeInst ↔ Wired s0 s := by simp +decide [State.freezeInst]

@[simp] theorem wired_freezeTrigger : Wired s0 s.freezeTrigger ↔ Wired s0 s := by simp +decide [State.freezeTrigger]

@[simp] theorem wired_logAs (code sev level unit grp payload) :
    Wired s0 (s.logAs code sev level unit grp payload) ↔ Wired s0 s := by simp +decide [State.logAs]

@[simp] theorem wired_log (code unit grp payload) : Wired s0 (s.log code unit grp payload) ↔ Wired s0 s := by
  simp [State.log]

@[simp] theorem wired_logReg (code unit grp addr) : Wired s0 (s.logReg code unit grp addr) ↔ Wired s0 s := by
  simp [State.logReg]

@[simp] theorem wired_setBad (a n) : Wired s0 (s.setBad a n) ↔ Wired s0 s := by simp [State.setBad]

@[simp] theorem wired_setDr (d x) : Wired s0 (s.setDr d x) ↔ Wired s0 s := by simp [State.setDr]

@[simp] theorem wired_memDown (d) : Wired s0 (s.memDown d) ↔ Wired s0 s := by simp [State.memDown]

@[simp] theorem wired_ueNote (d) : Wired s0 (s.ueNote d) ↔ Wired s0 s := by simp [State.ueNote]

@[simp] theorem wired_xfer (d) : Wired s0 (s.xfer d).1 ↔ Wired s0 s := by simp [State.xfer]

@[simp] theorem wired_ueEvent (a kind cls unit mirror) : Wired s0 (s.ueEvent a kind cls unit mirror) ↔ Wired s0 s := by
  simp [State.ueEvent]

@[simp] theorem wired_ceEvent (d a) : Wired s0 (s.ceEvent d a) ↔ Wired s0 s := by simp [State.ceEvent]

@[simp] theorem wired_drain (a) : Wired s0 (s.drain a) ↔ Wired s0 s := by simp [State.drain]

@[simp] theorem wired_readOne (kind a) : Wired s0 (s.readOne kind a).1 ↔ Wired s0 s := by simp [State.readOne]

@[simp] theorem wired_readBlock (kind cls unit a) : Wired s0 (s.readBlock kind cls unit a).1 ↔ Wired s0 s := by
  unfold State.readBlock
  dsimp only
  repeat' split
  all_goals simp

@[simp] theorem wired_readBlocks (kind cls unit l) : Wired s0 (s.readBlocks kind cls unit l).1 ↔ Wired s0 s := by
  induction l generalizing s with
  | nil => rfl
  | cons b bs ih => simp [State.readBlocks, ih]

@[simp] theorem wired_memRead (cls unit a n) : Wired s0 (s.memRead cls unit a n).1 ↔ Wired s0 s := by
  unfold State.memRead
  split <;> simp

@[simp] theorem wired_readFree (cls unit a n) : Wired s0 (s.readFree cls unit a n).1 ↔ Wired s0 s := by
  unfold State.readFree
  dsimp only
  split <;> simp

@[simp] theorem wired_xferBlocks (cls unit l) : Wired s0 (s.xferBlocks cls unit l).1 ↔ Wired s0 s := by
  induction l generalizing s with
  | nil => rfl
  | cons b bs ih => simp [State.xferBlocks, ih]

@[simp] theorem wired_putRange (a bs) : Wired s0 (s.putRange a bs) ↔ Wired s0 s := by simp [State.putRange]

@[simp] theorem wired_memWrite (cls unit a bs) : Wired s0 (s.memWrite cls unit a bs).1 ↔ Wired s0 s := by
  unfold State.memWrite
  split
  · rfl
  · simp only [wired_ite_fst, wired_readBlocks]
    split
    · rfl
    · split <;> simp

/-! ## Sending -/

theorem Sent.wired (hs : Sent s t) : Wired s0 t ↔ Wired s0 s := by rw [show t = { s with net := t.net } from hs, wired_mk rfl]

@[simp] theorem wired_sendOn (port prio o) : Wired s0 (s.sendOn port prio o) ↔ Wired s0 s := (sendOn_sent ..).wired

@[simp] theorem wired_sendUdp (port addr dport sport pcpF payload) :
    Wired s0 (s.sendUdp port addr dport sport pcpF payload) ↔ Wired s0 s := (sendUdp_sent ..).wired

/-! ## Rings -/

@[simp] theorem wired_hkCount (k blocks inN outN) : Wired s0 (s.hkCount k blocks inN outN) ↔ Wired s0 s := by
  have h1 : F.HK_JOBS_COUNT.offWire (hkB k) = true := offWire_hkB k (by decide)
  have h2 : F.HK_BLOCKS_COUNT.offWire (hkB k) = true := offWire_hkB k (by decide)
  have h3 : F.HK_IN_BYTES_COUNT.offWire (hkB k) = true := offWire_hkB k (by decide)
  have h4 : F.HK_OUT_BYTES_COUNT.offWire (hkB k) = true := offWire_hkB k (by decide)
  simp [State.hkCount, h1, h2, h3, h4]

@[simp] theorem wired_setRing (id c) : Wired s0 (s.setRing id c) ↔ Wired s0 s := by simp +decide [State.setRing]

@[simp] theorem wired_loadCtx (id) : Wired s0 (s.loadCtx id) ↔ Wired s0 s := by
  unfold State.loadCtx
  dsimp only
  split <;> simp

@[simp] theorem wired_touchRing (id) : Wired s0 (s.touchRing id) ↔ Wired s0 s := by simp +decide [State.touchRing]

@[simp] theorem wired_streamRead (unit id first n) : Wired s0 (s.streamRead unit id first n).1 ↔ Wired s0 s := by
  induction n generalizing s first with
  | zero => rfl
  | succ n ih => simp [State.streamRead, ih]

@[simp] theorem wired_sendStream (k n) : Wired s0 (s.sendStream k n) ↔ Wired s0 s := by
  unfold State.sendStream
  split
  · rfl
  · split <;> simp +decide [↓wired_mk]

@[simp] theorem wired_streamOne (k) : Wired s0 (s.streamOne k) ↔ Wired s0 s := by
  unfold State.streamOne
  split <;> simp

@[simp] theorem wired_streamServe (ks) : Wired s0 (s.streamServe ks) ↔ Wired s0 s := by
  simp only [State.streamServe]
  exact wired_forN _ fun _ t => by simp

@[simp] theorem wired_streamKick (id) : Wired s0 (s.streamKick id) ↔ Wired s0 s := by
  unfold State.streamKick
  refine (wired_streamServe _).trans (wired_forL _ fun k t => ?_)
  split <;> simp

@[simp] theorem wired_advance (id) : Wired s0 (s.advance id) ↔ Wired s0 s := by simp [State.advance]

@[simp] theorem wired_writeEntries (id first item n) : Wired s0 (s.writeEntries id first item n) ↔ Wired s0 s := by
  induction n generalizing s first item with
  | zero => rfl
  | succ n ih => simp [State.writeEntries, ih]

@[simp] theorem wired_ringWrite (id item) : Wired s0 (s.ringWrite id item) ↔ Wired s0 s := by simp [State.ringWrite]

/-! ## The journal -/

@[simp] theorem wired_grantOne (w) : Wired s0 (s.grantOne w) ↔ Wired s0 s := by simp [State.grantOne]

@[simp] theorem wired_grant (id) : Wired s0 (s.grant id) ↔ Wired s0 s := by simp [State.grant]

@[simp] theorem wired_moveSub (k n) : Wired s0 (s.moveSub k n) ↔ Wired s0 s := by
  unfold State.moveSub
  split <;> simp

@[simp] theorem wired_take (id b n) : Wired s0 (s.take id b n) ↔ Wired s0 s := by
  unfold State.take
  split <;> simp

@[simp] theorem wired_evictItems (ring len fuel) : Wired s0 (s.evictItems ring len fuel) ↔ Wired s0 s := by
  induction fuel generalizing s with
  | zero => rfl
  | succ n ih =>
    unfold State.evictItems
    split
    · rfl
    · split <;> simp [ih]

@[simp] theorem wired_repWrite (ring item kind unit course) :
    Wired s0 (s.repWrite ring item kind unit course).1 ↔ Wired s0 s := by simp [State.repWrite]

@[simp] theorem wired_jrnFlush : Wired s0 s.jrnFlush ↔ Wired s0 s := by simp [State.jrnFlush]

@[simp] theorem wired_jrnPut (cont r) : Wired s0 (s.jrnPut cont r) ↔ Wired s0 s := by simp +decide [State.jrnPut]

@[simp] theorem wired_jrn (ty grp cls src lag stamp data) :
    Wired s0 (s.jrn ty grp cls src lag stamp data) ↔ Wired s0 s := by simp [State.jrn]

/-! ## What the wires say -/

theorem Wired.getF (hw : Wired s t) {b : Nat} {f : Fld} (hf : f.pat = false ∧ f.key b ∈ wireKeys) : t.getF b f = s.getF b f := by
  simp only [State.getF, hf.1, Bool.false_eq_true, if_false, Tab.get]
  rw [hw.1 _ hf.2]

theorem Wired.jumbo (hw : Wired s t) (p : Fin 2) : t.flag (ethB p) F.ETH_CTRL_JUMBO = s.flag (ethB p) F.ETH_CTRL_JUMBO :=
  congrArg (· == 1) (hw.getF ⟨rfl, by revert p; decide⟩)

theorem findSession_who (s : State) (h : Hdr) : (s.findSession h).map Session.who =
    (s.sess.map Session.who).find? (fun w => w.1 == h.session.toNat && w.2.1 == h.role.toNat && w.2.2.1 == h.addr.toNat &&
      w.2.2.2.1 == h.udp.toNat) := by
  rw [List.find?_map]
  rfl

/-- The session of a header is still open, with the same limit of its replies. -/
theorem Wired.findSession (hw : Wired s t) {e : Session} (hf : s.findSession h = some e) :
    ∃ e', t.findSession h = some e' ∧ e'.maxDgram = e.maxDgram := by
  have hm : (t.findSession h).map Session.who = some e.who := by
    rw [findSession_who, hw.2, ← findSession_who, hf, Option.map_some]
  obtain ⟨e', he', hwho⟩ := Option.map_eq_some_iff.1 hm
  exact ⟨e', he', congrArg (·.2.2.2.2) hwho⟩

theorem Wired.fits (hw : Wired s t) {e : Session} (hf : s.findSession h = some e) (n : Nat) : t.fits h n = s.fits h n := by
  obtain ⟨e', h1, h2⟩ := hw.findSession hf
  simp only [State.fits, State.replyLimit, State.portLimit, hf, h1, h2, hw.jumbo]

theorem who_take (x : Session) (h : Hdr) (op : Nat) : (x.take h op).who = x.who := by
  obtain ⟨h1, h2, h3, h4, h5⟩ := take_kept x h op
  simp only [Session.who, h1, h2, h3, h4, h5]

theorem wired_mapSession (id : Nat) {f : Session → Session} (hf : ∀ e, (f e).who = e.who) :
    Wired s0 (s.mapSession id f) ↔ Wired s0 s := by
  refine wired_sess ?_
  rw [List.map_map]
  exact List.map_congr_left fun e _ => by by_cases he : e.id = id <;> simp [he, hf]

/-- Taking a command leaves the wires. -/
theorem wired_accepted (s : State) (h : Hdr) (op : Nat) : Wired s (s.accepted h op) := by
  unfold State.accepted
  refine (wired_incF ?_ 1).2 ((wired_mapSession _ fun x => who_take x h op).2 ((wired_mapSession _ ?_).2 (wired_refl s)))
  · decide
  · exact fun x => rfl

/-- The reply of an accepted command leaves whatever its effect, where that leaves the wires. -/
theorem Accepts.replied (ha : Accepts s h op role) (hw : Wired (s.accepted h op) t) {params : List Byte}
    (hl : s.fits h params.length = true) (status : Nat) (course : Int) :
    Replied (t.reply h op status course params) h op status params := by
  obtain ⟨-, -, e, hf, -⟩ := ha
  have hw' := (wired_accepted s h op).trans hw
  obtain ⟨e', hf', -⟩ := hw'.findSession hf
  exact reply_replied hf' ((hw'.fits hf _).trans hl) status course

end Wires
end Sys2Proof.Machine

/-! # REG_READ, REG_WRITE and REG_MODIFY (O48) -/

namespace Sys2Proof.Machine

section Registers

variable {s t u : State} {h : Hdr} {op role : Nat}

/-! ## The read-to-clear fields (R5)

None of the fields that a reply depends on is read to clear: a word of their registers holds no such field at their bits. -/

/-- The register of a word is one of its area's list. -/
theorem findIn_mem {off o : Nat} {up : Bool} {r : RegSpec} : ∀ {l : List RegSpec}, findIn off l = some (r, o, up) → r ∈ l
  | [], hh => by simp [findIn] at hh
  | x :: xs, hh => by
    unfold findIn at hh
    split at hh
    · cases hh
      exact List.mem_cons_self ..
    · exact List.mem_cons_of_mem _ (findIn_mem hh)

theorem Area.look_mem {a : Area} {addr : Nat} {x : RegHit} (hh : a.look addr = some x) : x.spec ∈ a.regs := by
  unfold Area.look at hh
  split at hh
  · cases hh
  · split at hh
    · cases hh
    · split at hh
      · cases hh
      · next hr =>
        cases hh
        exact findIn_mem hr

theorem lookIn_mem {addr : Nat} {x : RegHit} : ∀ {l : List Area}, lookIn addr l = some x → ∃ a ∈ l, x.spec ∈ a.regs
  | [], hh => by simp [lookIn] at hh
  | a :: as, hh => by
    unfold lookIn at hh
    split at hh
    · next hy =>
      cases hh
      exact ⟨a, List.mem_cons_self .., Area.look_mem hy⟩
    · obtain ⟨b, hb, hx⟩ := lookIn_mem hh
      exact ⟨b, List.mem_cons_of_mem _ hb, hx⟩

/-- Every field of every register begins within its 64 bits. -/
theorem fields_lo_lt : (Area.all.all fun a => a.regs.all fun r => r.fields.all fun f => decide (f.fld.lo < 64)) = true := by
  decide +kernel

theorem lookReg_lo_lt {addr : Nat} {x : RegHit} (hh : lookReg addr = some x) {f : FldSpec} (hf : f ∈ x.spec.fields) :
    f.fld.lo < 64 := by
  obtain ⟨a, ha, hx⟩ := lookIn_mem hh
  have hall := fields_lo_lt
  simp only [List.all_eq_true, decide_eq_true_eq] at hall
  exact hall a ha _ hx f hf

/-- The words of the registers of a port that those fields lie in hold no field that a read clears. -/
theorem wire_words_hold_no_rc : ∀ k ∈ wireKeys, ∀ a ∈ [k / 64, k / 64 + 4], ((lookReg a).all fun x =>
    x.spec.fields.all fun f => f.acc != .rc || !wireKeys.contains (x.addr * 64 + f.fld.lo)) = true := by decide +kernel

theorem rc_key_notMem {addr : Nat} {x : RegHit} (hh : lookReg addr = some x) {f : FldSpec} (hf : f ∈ x.spec.fields)
    (hrc : f.acc = .rc) : x.addr * 64 + f.fld.lo ∉ wireKeys := by
  intro hk
  have hlo := lookReg_lo_lt hh hf
  have hdiv : (x.addr * 64 + f.fld.lo) / 64 = x.addr := by omega
  have hword := wire_words_hold_no_rc _ hk addr (by rw [hdiv]; simpa using lookReg_addr hh)
  rw [hh] at hword
  have hno := List.all_eq_true.1 hword f hf
  simp [hrc, hk] at hno

theorem wired_putRegs {k v : Nat} (hk : k ∉ wireKeys) (s : State) : Wired s { s with regs := Tab.put k v s.regs } :=
  ⟨fun j hj => by simp [show j ≠ k from fun he => hk (he ▸ hj)], rfl⟩

@[simp] theorem wired_readClear (a : Nat) : Wired s0 (s.readClear a) ↔ Wired s0 s := by
  unfold State.readClear
  split
  · next x hx =>
    refine (forL_wired _ (fun f hf t => wired_putRegs ?_ t) _).iff.trans (by split <;> rfl)
    obtain ⟨hm, hc⟩ := List.mem_filter.1 hf
    exact rc_key_notMem hx hm (by simpa using (Bool.and_eq_true_iff.1 hc).1)
  · rfl

/-! ## The limit of a reply -/

theorem Accepts.fits (ha : Accepts s h op role) (n : Nat) : (s.accepted h op).fits h n = s.fits h n := by
  obtain ⟨-, -, e, hf, -⟩ := ha
  exact fits_accepted hf op n

theorem fits_mono {m n : Nat} (hmn : m ≤ n) (hl : s.fits h n = true) : s.fits h m = true := by
  simp only [State.fits, decide_eq_true_eq] at *
  omega

/-! ## What a read brings up to date -/

@[simp] theorem wired_refresh : Wired s0 s.refresh ↔ Wired s0 s := by simp +decide [State.refresh, State.dmaSums]

@[simp] theorem wired_dfeNow (a : Nat) : Wired s0 (s.dfeNow a) ↔ Wired s0 s := by
  unfold State.dfeNow
  split
  · simp [State.dfeAdapts]
  · rfl

@[simp] theorem wired_countFree {b : Nat} {f : Fld} (hf : f.offWire b = true) :
    Wired s0 (s.countFree b f) ↔ Wired s0 s := by simp [State.countFree, hf]

@[simp] theorem wired_countNow (a : Nat) : Wired s0 (s.countNow a) ↔ Wired s0 s := by
  have h1 (p : Nat) : F.FEC_CORR_COUNT.offWire (ethB p) = true := offWire_ethB p (by decide)
  have h2 (p : Nat) : F.FEC_UNCORR_COUNT.offWire (ethB p) = true := offWire_ethB p (by decide)
  unfold State.countNow
  split
  · simp [State.overruns, h1, h2]
  · rfl

@[simp] theorem wired_readNow (l : List Nat) : Wired s0 (s.readNow l) ↔ Wired s0 s := by simp [State.readNow]

/-! ## REG_READ -/

theorem length_le (n v : Nat) : (le n v).length = n := by
  induction n generalizing v with
  | zero => rfl
  | succ n ih => rw [le, List.length_cons, ih]

@[simp] theorem length_be (n v : Nat) : (be n v).length = n := by rw [be, List.length_reverse, length_le]

theorem length_words (addr n : Nat) (f : Nat → Nat) : ((wordAddrs addr n).flatMap (fun a => be 4 (f a))).length = 4 * n := by
  simp [wordAddrs, List.length_flatMap, Function.comp_def, Nat.mul_comm]

/-- A read whose number of words and whose bank are in range is that of its words. -/
theorem exec_regRead {addr : BitVec 32} {n : BitVec 16} {set : BitVec 8} {v : State} {st : Nat} {ws : List Nat}
    (ha : Accepts s h 0x0200 0) (h1 : 1 ≤ n.toNat) (h256 : n.toNat ≤ 256) (hset : set.toNat ≤ 1)
    (hl : (s.accepted h 0x0200).fits h (4 * n.toNat) = true)
    (hq : (s.accepted h 0x0200).readReq (set == 1) addr.toNat n.toNat = (v, st, ws)) :
    exec (.regRead h addr n set) s =
      .next (v.answer h 0x0200 (if st = stOk then .ok (ws.flatMap (be 4)) else .of st)) := by
  simp only [exec, execRegRead, command_accepted ha]
  rw [if_neg (by omega), hl]
  simp only [Bool.not_true, Bool.false_eq_true, if_false, hq]
  split <;> rfl

theorem readReq_ok {shadow : Bool} {addr n : Nat} (hok : ∀ a ∈ wordAddrs addr n, s.readStatus shadow a = 0) :
    s.readReq shadow addr n = (forL (wordAddrs addr n) (fun a u => u.readClear a) (s.readNow (wordAddrs addr n)), stOk,
      (wordAddrs addr n).map ((s.readNow (wordAddrs addr n)).readWord shadow)) := by
  have hnone : (wordAddrs addr n).find? (fun a => s.readStatus shadow a != 0) = none :=
    List.find?_eq_none.2 fun a ha => by simp [hok a ha]
  simp only [State.readReq, hnone]

/-- A word that may not be read gives its status. -/
theorem readReq_bad {shadow : Bool} {addr n a : Nat} (hw : wordAddrs addr n = [a]) (hbad : s.readStatus shadow a ≠ 0) :
    s.readReq shadow addr n = (s, s.readStatus shadow a, []) := by
  simp [State.readReq, hw, hbad]

theorem answer_ok (s : State) (h : Hdr) (op : Nat) (params : List Byte) :
    s.answer h op (.ok params) = s.reply h op 0 (s.hdrView h) params := rfl

theorem answer_status (s : State) (h : Hdr) (op st : Nat) : s.answer h op (.of st) = s.reply h op st (s.hdrView h) [] := rfl

/-! ## REG_WRITE and REG_MODIFY -/

@[simp] theorem getSh_reply (h : Hdr) (op status : Nat) (course : Int) (params : List Byte) (b : Nat) (f : Fld) :
    (s.reply h op status course params).getSh b f = s.getSh b f := by
  have hsent (v : State) (bytes : List Byte) : (v.sendReply h bytes).getSh b f = v.getSh b f := by
    rw [show v.sendReply h bytes = { v with net := (v.sendReply h bytes).net } from sendReply_sent h bytes]
    rfl
  unfold State.reply
  split
  · rfl
  · exact hsent _ _

theorem reply_banks (h : Hdr) (op status : Nat) (course : Int) (params : List Byte) :
    (s.reply h op status course params).act = s.act ∧ (s.reply h op status course params).shd = s.shd := by
  unfold State.reply
  split
  · exact ⟨rfl, rfl⟩
  · refine ⟨(sendReply_sent h _).fields.2.2.2.1, ?_⟩
    exact show Part.shd.same s _ by simp

/-- What the two instructions that write for a host share: their address, whether they modify, and their words. -/
def Instr.writes (i : Instr) (h : Hdr) (op addr : Nat) (set : BitVec 8) (mod : Bool) (ws : List (Nat × Nat)) : Prop :=
  (∃ (a : BitVec 32) (n : BitVec 16) (words : List Word), i = .regWrite h a n set words ∧ op = 0x0201 ∧ addr = a.toNat ∧
    mod = false ∧ words.length = n.toNat ∧ 1 ≤ n.toNat ∧ n.toNat ≤ 256 ∧ ws = words.map (fun w => (w.toNat, 2 ^ 32 - 1))) ∨
  (∃ (a : BitVec 32) (mask value : Word), i = .regModify h a set mask value ∧ op = 0x0202 ∧ addr = a.toNat ∧ mod = true ∧
    ws = [(value.toNat, mask.toNat)])

/-- A write whose parameters are in range is the write of its words, at once or at its course. -/
theorem exec_write {i : Instr} {addr : Nat} {set : BitVec 8} {mod : Bool} {ws : List (Nat × Nat)}
    (hi : Instr.writes i h op addr set mod ws) (hu : u = s.accepted h op) (ha : Accepts s h op 2) (hset : set.toNat ≤ 1) :
    ∃ ok, exec i s =
      .next ((u.writeCmd h set.toNat mod addr ws ok).1.answer h op (u.writeCmd h set.toNat mod addr ws ok).2) := by
  rcases hi with ⟨a, n, words, rfl, rfl, rfl, rfl, hlen, h1, h256, rfl⟩ | ⟨a, mask, value, rfl, rfl, rfl, rfl, rfl⟩
  · refine ⟨[], ?_⟩
    simp only [exec, execRegWrite, if_pos hlen, commandE_accepted ha, ← hu]
    rw [if_neg (by omega)]
  · refine ⟨be 4 (u.refresh.readWord (set == 1) a.toNat), ?_⟩
    simp only [exec, execRegModify, command_accepted ha, ← hu]
    rw [if_neg (by omega)]

variable {set addr g c : Nat} {mod : Bool} {ws : List (Nat × Nat)} {l : List WItem} {ok : List Byte}

theorem writeCmd_now (hp : u.planWrite (writerOf h set) addr ws = .ok l) (hc : h.atCourse = false) :
    (u.writeCmd h set mod addr ws ok).1 = (u.carryOut (writerOf h set) mod addr ws l).1 := by
  simp [State.writeCmd, hc, State.writeReq, hp]

theorem writeCmd_refused {e : Nat × Nat} (hp : u.planWrite (writerOf h set) addr ws = .error e) (hc : h.atCourse = false)
    (hst : 1 < e.1) : u.writeCmd h set mod addr ws ok = (u, { status := e.1, course := none, params := be 4 e.2 }) := by
  simp [State.writeCmd, hc, State.writeReq, hp, Nat.not_lt.2 hst]

/-- The state in which a write of L fields waits for its course (R378). -/
theorem writeCmd_held (hp : u.planWrite (writerOf h set) addr ws = .ok l) (hc : h.atCourse = true) (hg : h.group.toNat = g)
    (hg16 : g < 16) (hcourse : h.course.toNat = c) (hroom : u.held.length < 4096)
    (hL : (l.all fun x => x.fs.kind == .L && u.groupAt x.addr == some g) = true) (hlate : u.stampG g < Int.ofNat c)
    (hfar : Int.ofNat c ≤ u.stampG g + 2 ^ 32) :
    ∃ arr, (u.writeCmd h set mod addr ws ok).1 = ({ u.accept with
      held := u.held ++ [(⟨h.session.toNat, g, c, l.map WItem.write, u.accepts⟩ : Held)], arrived := arr } : State).setF cmdB
        F.CMD_STATUS_HELD (u.held.length + 1) := by
  have hno : ¬ (16 ≤ g ∨ (l.any fun i => i.fs.kind != .L || u.groupAt i.addr != some g) = true) := by
    rintro (hge | hany)
    · omega
    · obtain ⟨x, hx, hbad⟩ := List.any_eq_true.1 hany
      have := List.all_eq_true.1 hL x hx
      simp_all
  unfold State.writeCmd State.writeAt
  simp only [hc, if_true, hp, hg, hcourse]
  rw [if_neg hno, if_neg (by omega), if_neg (by omega), if_neg (by omega), if_neg (by omega)]
  simp only [List.length_append, List.length_singleton]
  exact ⟨_, rfl⟩

theorem groupAt_accepted (s : State) (h : Hdr) (op a : Nat) : (s.accepted h op).groupAt a = s.groupAt a := by
  unfold State.groupAt
  split
  · rfl
  · split <;> simp

end Registers
end Sys2Proof.Machine

namespace Sys2Proof.Proofs
open Sys2Proof.Machine

/-- Settles O48: a read goes word by word (`readReq_ok`, `readReq_bad`), a write is that of its words (`exec_write`), and what
either leaves of the wires lets its reply go out (`Accepts.replied`). -/
theorem registerCommands : Obligations.RegisterCommands := by
  refine ⟨fun s u h addr n set hu ha h1 h256 hset hl => ⟨fun hok => ?_, fun a st hw hst hbad => ?_⟩,
    fun s u h i op addr set mod ws hi hu ha hset => ⟨fun l hp => ⟨fun hc => ?_,
      fun g c hc hg hg16 hcourse hroom hL hlate hfar => ?_⟩, fun st a hp hc hl hst => ?_⟩⟩
  · subst hu
    obtain ⟨t, ht, hmem⟩ := exec_kept (p := .mem) (c := .regRead h addr n set) (s := s) rfl
    obtain ⟨t', ht', hgrp⟩ := exec_kept (p := .grp) (c := .regRead h addr n set) (s := s) rfl
    obtain rfl := Host.Outcome.next.inj (ht.symm.trans ht')
    refine ⟨t, ht, hmem.mem_eq, hgrp.grp_eq, ?_⟩
    have hx := exec_regRead ha h1 h256 hset hl (readReq_ok hok)
    rw [if_pos rfl, answer_ok, List.flatMap_map] at hx
    rw [← Host.Outcome.next.inj (hx.symm.trans ht)]
    refine ha.replied (by simp) ?_ _ _
    rw [length_words, ← ha.fits, hl]
  · subst hu
    have hx := exec_regRead ha h1 h256 hset hl (readReq_bad hw (hst ▸ hbad))
    rw [hst, if_neg (show st ≠ stOk from hbad), answer_status] at hx
    obtain ⟨hrep, hregs, -⟩ := ha.reports (params := []) (status := st) (fits_mono (Nat.zero_le _) (ha.fits _ ▸ hl))
      ((s.accepted h 0x0200).hdrView h)
    exact ⟨_, hx, hrep, hregs⟩
  · obtain ⟨ok, hx⟩ := exec_write hi hu ha hset
    rw [answer_of_done h _ rfl] at hx
    refine ⟨_, hx, fun b f => ?_⟩
    rw [writeCmd_now hp hc]
    exact ⟨getF_reply .., getSh_reply ..⟩
  · obtain ⟨ok, hx⟩ := exec_write hi hu ha hset
    subst hu
    simp only [← groupAt_accepted s h op, ← stampG_accepted s h op] at hL hlate hfar
    obtain ⟨arr, hheld⟩ := writeCmd_held (mod := mod) (ok := ok) hp hc hg hg16 hcourse hroom hL hlate hfar
    rw [answer_of_done h _ rfl, hheld] at hx
    refine ⟨_, hx, (held_reply ..).trans rfl, ?_, (reply_banks ..).1.trans rfl, (reply_banks ..).2.trans rfl,
      (reply_mem ..).trans ?_⟩
    · refine (getF_reply ..).trans ((getF_setF_of_lt ?_).trans rfl)
      have hlt : (s.accepted h op).held.length < 4096 := hroom
      have hwidth : 2 ^ F.CMD_STATUS_HELD.width = 8192 := rfl
      omega
    · exact Part.same.mem_eq (by simp [State.accept, State.accepted])
  · obtain ⟨ok, hx⟩ := exec_write hi hu ha hset
    rw [writeCmd_refused hp hc hst, answer_of_done h _ rfl] at hx
    subst hu
    obtain ⟨hrep, hregs, -⟩ := ha.reports (params := be 4 a) (status := st) (by rw [length_be, ← ha.fits, hl])
      ((s.accepted h op).hdrView h)
    exact ⟨_, hx, hrep, hregs, (reply_banks ..).1.trans rfl, (reply_banks ..).2.trans rfl,
      (held_reply ..).trans rfl⟩

end Sys2Proof.Proofs

/-! # Groups, cameras, AUXSYNC, calibration and adaptation (O50) -/

namespace Sys2Proof.Machine

section GroupCommands

variable {s0 s t u : State} {h : Hdr} {op role : Nat}

/-! ## What an answer leaves -/

/-- What telling a host leaves: all but the sessions and what waits to be sent. -/
def Told (s t : State) : Prop := t = { s with sess := t.sess, net := t.net }

/-- Whatever the sessions and the network state do not decide is as before. -/
theorem Told.eq (ht : Told s t) {α : Type} (f : State → α)
    (hf : ∀ (w : State) l n, f { w with sess := l, net := n } = f w := by intros; rfl) : f t = f s :=
  (congrArg f ht).trans (hf s t.sess t.net)

theorem told_of_sent {l : List Session} (hs : Sent { s with sess := l } t) : Told s t := by
  have hl : t.sess = l := hs.fields.1
  unfold Told
  rw [hl]
  exact hs

theorem reply_told (s : State) (h : Hdr) (op status : Nat) (course : Int) (params : List Byte) :
    Told s (s.reply h op status course params) := by
  unfold State.reply
  split
  · rfl
  · exact told_of_sent (sendReply_sent h _)

theorem replyDone_told (s : State) (h : Hdr) (op : Nat) : Told s (s.replyDone h op) := by
  unfold State.replyDone
  split
  · exact reply_told ..
  · rfl

/-- The answer of a command after whose reply nothing follows. -/
theorem answer_told (s : State) (h : Hdr) (op : Nat) {r : Reply} (hr : r.after = id) : Told s (s.answer h op r) := by
  unfold State.answer
  split
  · have ht := replyDone_told (s.setUnit h r.unit) h op
    unfold Told at *
    exact ht
  · rw [hr]
    exact reply_told ..

/-- An accepted command whose body is known leaves the state of its effect, but for what telling the host leaves. -/
theorem command_told {i : Instr} {body : State → State × Reply} {v : State} {r : Reply}
    (hx : exec i s = .next (s.command h op role body)) (ha : Accepts s h op role) (hb : body (s.accepted h op) = (v, r))
    (hr : r.after = id := by rfl) : ∃ t, exec i s = .next t ∧ Told v t := by
  rw [hx, command_accepted ha, hb]
  exact ⟨_, rfl, answer_told v h op hr⟩

/-- Where it does not wait, and its effect leaves the wires, it is answered. -/
theorem command_replied {i : Instr} {body : State → State × Reply} {v : State} {r : Reply}
    (hx : exec i s = .next (s.command h op role body)) (ha : Accepts s h op role) (hb : body (s.accepted h op) = (v, r))
    (hw : Wired (s.accepted h op) v) (hl : s.fits h r.params.length = true) (hwait : r.wait = false := by rfl)
    (hr : r.after = id := by rfl) : ∃ t, exec i s = .next t ∧ Replied t h op r.status r.params ∧ Told v t := by
  rw [hx, command_accepted ha, hb]
  refine ⟨_, rfl, ?_, answer_told v h op hr⟩
  rw [answer_of_done h op hwait, hr]
  exact ha.replied hw hl _ _

/-! ## Starts (R62, R158, R301, R382) -/

section Wires

@[simp] theorem wired_gaugeRead (ch a n) : Wired s0 (s.gaugeRead ch a n).1 ↔ Wired s0 s := by
  unfold State.gaugeRead
  dsimp only
  split <;> simp

@[simp] theorem wired_gaugePoint (ch base npix i crc) : Wired s0 (s.gaugePoint ch base npix i crc).1 ↔ Wired s0 s := by
  unfold State.gaugePoint
  dsimp only
  split
  · simp
  · split <;> simp

@[simp] theorem wired_gaugeCompute (ch sel temp) : Wired s0 (s.gaugeCompute ch sel temp).1 ↔ Wired s0 s := by
  unfold State.gaugeCompute
  dsimp only
  split
  · simp
  · repeat' split
    all_goals simp

@[simp] theorem wired_gaugeFail (ch e) : Wired s0 (s.gaugeFail ch e) ↔ Wired s0 s := by cases e <;> simp [State.gaugeFail]

@[simp] theorem wired_setCh (ch x) : Wired s0 (s.setCh ch x) ↔ Wired s0 s := by simp [State.setCh]

@[simp] theorem wired_calRecord (ch c temp) : Wired s0 (s.calRecord ch c temp) ↔ Wired s0 s := by
  simp +decide [State.calRecord]

@[simp] theorem wired_calTime (ch) : Wired s0 (s.calTime ch) ↔ Wired s0 s := by
  simp +decide [State.calTime, State.calStamp]

@[simp] theorem wired_jrnGauge (g ch c t) : Wired s0 (s.jrnGauge g ch c t) ↔ Wired s0 s := by simp [State.jrnGauge]

@[simp] theorem wired_gaugeFirst (g l) : Wired s0 (s.gaugeFirst g l).1 ↔ Wired s0 s := by
  induction l generalizing s with
  | nil => rfl
  | cons ch chs ih =>
    unfold State.gaugeFirst
    split
    · exact ih
    · dsimp only
      split <;> simp [ih]

@[simp] theorem wired_readCls (unit a) : Wired s0 (s.readCls unit a).1 ↔ Wired s0 s := by
  unfold State.readCls
  dsimp only
  split
  · simp
  · split <;> simp

@[simp] theorem wired_slotsOk (g shadow l) : Wired s0 (s.slotsOk g shadow l).1 ↔ Wired s0 s := by
  induction l generalizing s with
  | nil => rfl
  | cons i is ih =>
    simp only [State.slotsOk]
    generalize (if shadow = true then s.getSh (gtalB g) (F.SLOT_CTRL_EN.nth i) else s.getF (gtalB g) (F.SLOT_CTRL_EN.nth i)) = en
    rw [wired_ite_fst]
    split
    · exact ih
    · split <;> simp [ih]

@[simp] theorem wired_startStatus (g) : Wired s0 (s.startStatus g).1 ↔ Wired s0 s := by
  simp [State.startStatus]

end Wires

theorem startStatus_grp (s : State) (g : Nat) : (s.startStatus g).1.grp = s.grp := Part.same.grp_eq (by simp)

@[simp] theorem runPowered_accepted (s : State) (h : Hdr) (op g : Nat) : (s.accepted h op).runPowered g = s.runPowered g := by
  simp [State.runPowered, State.runChans, State.runCount, State.runFirst]

/-- The start of a group's courses: none is open, and none is the last. -/
theorem g_courseStart {g m : Nat} : ∃ acc, (s.courseStart g).g m = if m = g then { s.g g with
    acc := acc
    counted := none
    openC := none
    lastTrig := none
    dueC := none
    closed := none
    last := none } else s.g m := by
  unfold State.courseStart
  extract_lets b marked zeroed record grouped cleared synced
  have before : Part.grp.same s zeroed := by simp [zeroed, marked]
  have after : Part.grp.same grouped (if !synced.timerOn g && !synced.posValid (synced.srcOf g) then
      synced.raise b F.CRS_STATUS_SRC_FAULT (0x40 + 2 * g) else synced) := by simp [synced, cleared]
  have hrecord : record = s.g g := before.g_eq g
  exact ⟨_, by rw [after.g_eq, g_setG, hrecord, before.g_eq]⟩

/-- What the start of a group makes of its record; no other changes. -/
theorem g_groupStart {g m : Nat} {arm : Bool} :
    (m = g → ((s.groupStart g arm).g m).st = (if arm then 1 else 2) ∧ ((s.groupStart g arm).g m).openC = none ∧
      ((s.groupStart g arm).g m).last = none) ∧ (m ≠ g → (s.groupStart g arm).g m = s.g m) := by
  unfold State.groupStart
  extract_lets ended cut freed fresh gauged set counted seamed segmented tallied viewed
  have before : Part.grp.same s gauged := by simp [gauged, fresh, freed, cut, ended]
  have after : Part.grp.same counted (viewed.bindGroup g) := by simp [viewed, tallied, segmented, seamed]
  obtain ⟨acc, hcounted⟩ := g_courseStart (s := set) (g := g) (m := m)
  rw [after.g_eq, hcounted]
  refine ⟨fun hm => ?_, fun hm => ?_⟩
  · rw [if_pos hm]
    simp [set]
  · rw [if_neg hm]
    simp [set, hm, before.g_eq]

/-! ### The count of courses -/

/-- Blocks above the position block leave the count of a group's courses. -/
theorem courseCount_setF {g b : Nat} (hg : g < 16) (hb : 0x32000 ≤ b) (f : Fld) (v : Nat) :
    (s.setF b f v).getF (crsB g) F.CRS_COUNT_COURSE = s.getF (crsB g) F.CRS_COUNT_COURSE := by
  refine getF_setF_ne _ _ _ _ _ _ (Nat.ne_of_lt ?_)
  simp only [Fld.key, crsB, F.CRS_COUNT_COURSE]
  omega

theorem low_courseCount {g : Nat} (hg : g < 16) : F.CRS_COUNT_COURSE.low (crsB g) = true := by
  simp only [Fld.low_iff, crsB, F.CRS_COUNT_COURSE]
  omega

theorem courseCount_courseStart {g : Nat} : (s.courseStart g).getF (crsB g) F.CRS_COUNT_COURSE = 0 := by
  unfold State.courseStart
  extract_lets b marked zeroed record grouped cleared synced
  have hzero : zeroed.getF (crsB g) F.CRS_COUNT_COURSE = 0 := getF_setF_of_lt (by decide)
  have hsynced : synced.getF (crsB g) F.CRS_COUNT_COURSE = 0 := by
    simp only [synced, getF_ite]
    split <;> exact hzero
  rw [getF_ite]
  split
  · refine (getF_raise_ne _ _ _ _ _ _ ?_).trans hsynced
    simp only [Fld.key, b, F.CRS_COUNT_COURSE, F.CRS_STATUS_SRC_FAULT]
    omega
  · exact hsynced

theorem courseCount_seamStart {g : Nat} (hg : g < 16) :
    (s.seamStart g).getF (crsB g) F.CRS_COUNT_COURSE = s.getF (crsB g) F.CRS_COUNT_COURSE := by
  have hseam (ch : Nat) : 0x32000 ≤ seamB ch := by unfold seamB chB; omega
  have hgseam : 0x32000 ≤ gseamB g := by unfold gseamB; omega
  unfold State.seamStart State.seamGeometry
  refine (getF_forL _ fun ch v => ?_).trans ?_
  · exact (getF_setOff (low_courseCount hg) _ _).trans
      ((courseCount_setF hg (hseam ch) _ _).trans (courseCount_setF hg (hseam ch) _ _))
  · refine (courseCount_setF hg hgseam _ _).trans ((courseCount_setF hg hgseam _ _).trans (getF_forL _ fun ch v => ?_))
    exact (courseCount_setF hg (hseam ch) _ _).trans (courseCount_setF hg (hseam ch) _ _)

theorem courseCount_segStart {g : Nat} (hg : g < 16) :
    (s.segStart g).getF (crsB g) F.CRS_COUNT_COURSE = s.getF (crsB g) F.CRS_COUNT_COURSE := by
  have hseg : 0x32000 ≤ gsegB g := by unfold gsegB; omega
  unfold State.segStart
  simp only [courseCount_setF hg hseg]
  rfl

theorem courseCount_viewsGroup {g : Nat} (hg : g < 16) (on : Bool) :
    (s.viewsGroup g on).getF (crsB g) F.CRS_COUNT_COURSE = s.getF (crsB g) F.CRS_COUNT_COURSE := by
  unfold State.viewsGroup
  refine (getF_forL _ fun v u => ?_).trans (by split <;> rfl)
  rw [getF_ite]
  split
  · exact courseCount_setF hg (by unfold viewB; omega) _ _
  · rfl

theorem courseCount_bindGroup {g : Nat} (hg : g < 16) :
    (s.bindGroup g).getF (crsB g) F.CRS_COUNT_COURSE = s.getF (crsB g) F.CRS_COUNT_COURSE := by
  have quiet : Quiet s (s.bindGroup g) :=
    .forL _ (fun id u hu => subBlock_quiet u id _ hu) (.forL _ (fun r u hu => bind_quiet u _ _ _ hu) (.refl s))
  exact quiet.getF _ _ (prot_of_low (low_courseCount hg))

theorem courseCount_groupStart {g : Nat} (hg : g < 16) (arm : Bool) :
    (s.groupStart g arm).getF (crsB g) F.CRS_COUNT_COURSE = 0 := by
  unfold State.groupStart
  extract_lets ended cut freed fresh gauged set counted seamed segmented tallied viewed
  calc (viewed.bindGroup g).getF (crsB g) F.CRS_COUNT_COURSE
    _ = viewed.getF (crsB g) F.CRS_COUNT_COURSE := courseCount_bindGroup hg
    _ = tallied.getF (crsB g) F.CRS_COUNT_COURSE := courseCount_viewsGroup hg true
    _ = segmented.getF (crsB g) F.CRS_COUNT_COURSE := getF_setTg ..
    _ = seamed.getF (crsB g) F.CRS_COUNT_COURSE := courseCount_segStart hg
    _ = counted.getF (crsB g) F.CRS_COUNT_COURSE := courseCount_seamStart hg
    _ = 0 := courseCount_courseStart

/-! ### The row -/

theorem g_runInput (session g op flags m : Nat) : (s.runInput session g op flags).g m = s.g m := rfl

theorem getF_runInput (session g op flags b : Nat) (f : Fld) : (s.runInput session g op flags).getF b f = s.getF b f := rfl

/-- The start of group `g` by a command: it runs or is armed at course 0, and no other group changes. -/
theorem groupStart_starts {group flags : BitVec 8} {g : Nat} (ha : Accepts s h 0x0300 1) (hg : g = group.toNat) (h16 : g < 16)
    (hok : ((s.accepted h 0x0300).startStatus g).2 = 0) (hp : s.runPowered g = true) :
    ∃ t, exec (.groupStart h group flags) s = .next t ∧ (t.g g).st = (if bit flags.toNat 0 then 1 else 2) ∧
      (t.g g).openC = none ∧ (t.g g).last = none ∧ t.getF (crsB g) F.CRS_COUNT_COURSE = 0 ∧ (∀ k, k ≠ g → t.g k = s.g k) := by
  generalize hv : ((s.accepted h 0x0300).startStatus g).1 = v
  have hother (k : Nat) : v.g k = s.g k := congrArg (Tab.get ({} : Grp) k) (hv ▸ startStatus_grp _ g)
  obtain ⟨t, hx, told⟩ := command_told (i := .groupStart h group flags) (r := {})
    (v := (v.groupStart g (bit flags.toNat 0)).runInput h.session.toNat g 1 flags.toNat) rfl ha
    (by simp [← hg, show ¬ 15 < g by omega, hok, stOk, hp, hv])
  obtain ⟨hst, hopen, hlast⟩ := (g_groupStart (s := v) (arm := bit flags.toNat 0)).1 (rfl : g = g)
  have hgrp (k : Nat) : t.g k = (v.groupStart g (bit flags.toNat 0)).g k :=
    (told.eq (·.g k)).trans (g_runInput ..)
  refine ⟨t, hx, ?_, ?_, ?_, ?_, fun k hk => ?_⟩
  · rw [hgrp, hst]
  · rw [hgrp, hopen]
  · rw [hgrp, hlast]
  · exact (told.eq (·.getF (crsB g) F.CRS_COUNT_COURSE)).trans ((getF_runInput ..).trans (courseCount_groupStart h16 _))
  · rw [hgrp, g_groupStart.2 hk, hother]

/-- A start that its checks refuse. -/
theorem groupStart_refused {group flags : BitVec 8} {g : Nat} (ha : Accepts s h 0x0300 1) (hg : g = group.toNat)
    (h16 : g < 16) (hl : s.fits h 0 = true) (hno : ((s.accepted h 0x0300).startStatus g).2 ≠ 0) :
    ∃ t, exec (.groupStart h group flags) s = .next t ∧
      Replied t h 0x0300 ((s.accepted h 0x0300).startStatus g).2 [] ∧ t.grp = s.grp := by
  obtain ⟨t, hx, hrep, told⟩ := command_replied (i := .groupStart h group flags)
    (v := ((s.accepted h 0x0300).startStatus g).1) (r := .of ((s.accepted h 0x0300).startStatus g).2) rfl ha
    (by simp [← hg, show ¬ 15 < g by omega, hno, stOk]) (by simp) hl
  exact ⟨t, hx, hrep, (told.eq (·.grp)).trans (startStatus_grp _ g)⟩

/-! ## Stops (R62, R382) -/

/-- The state on which a GROUP_STOP acts: where the group had started, its stop is a stamped input. -/
def State.stopInput (s : State) (h : Hdr) (g : Nat) : State :=
  if (s.g g).st == 1 || (s.g g).st == 2 then s.runInput h.session.toNat g 2 0 else s

theorem g_stopInput (g m : Nat) : (s.stopInput h g).g m = s.g m := by
  unfold State.stopInput
  split <;> rfl

/-- What a GROUP_STOP answers: the last course, once the components of the group have closed. -/
def State.stopReply (s : State) (g : Nat) : Reply :=
  if s.compsClosed g then .ok (lastCourse (s.g g).last) else .later (stopUnit g (s.g g).last)

theorem stopReply_after (g : Nat) : (s.stopReply g).after = id := by
  unfold State.stopReply
  split <;> rfl

theorem ite_stopReply (g : Nat) : (if s.compsClosed g then (s, Reply.ok (lastCourse (s.g g).last))
    else (s, Reply.later (stopUnit g (s.g g).last))) = (s, s.stopReply g) := by
  unfold State.stopReply
  split <;> rfl

/-- A stop acts on the record of its own group alone. -/
theorem groupStop_stops {group : BitVec 8} {g : Nat} (ha : Accepts s h 0x0301 1) (hg : g = group.toNat) (h16 : g < 16) :
    ∃ t, exec (.groupStop h group) s = .next t ∧ t.g g = (s.g g).stopped ∧ (∀ k, k ≠ g → t.g k = s.g k) := by
  obtain ⟨t, hx, told⟩ := command_told (i := .groupStop h group) rfl ha
    (by rw [if_neg (show ¬ 15 < group.toNat by omega), ← hg]; exact ite_stopReply g) (stopReply_after g)
  have hgrp (k : Nat) : t.g k = (((s.accepted h 0x0301).stopInput h g).groupStop g).g k := told.eq (·.g k)
  refine ⟨t, hx, ?_, fun k hk => ?_⟩
  · rw [hgrp, g_groupStop, if_pos rfl, g_stopInput, g_accepted]
  · rw [hgrp, g_groupStop, if_neg hk, g_stopInput, g_accepted]

theorem compsClosed_accepted (s : State) (h : Hdr) (op : Nat) {g : Nat} :
    (s.accepted h op).compsClosed g = s.compsClosed g := by
  have hseg : 0x10020 < gsegB g := by unfold gsegB; omega
  simp only [State.compsClosed, flag_accepted_above hseg]
  rfl

/-- A stop of a group that has stopped, or that stops and has closed its components, is answered at once. -/
theorem groupStop_again {group : BitVec 8} {g : Nat} (ha : Accepts s h 0x0301 1) (hg : g = group.toNat) (h16 : g < 16)
    (hst : (s.g g).st = 0 ∨ (s.g g).st = 3) (hc : s.compsClosed g = true) (hl : s.fits h 8 = true) :
    ∃ t, exec (.groupStop h group) s = .next t ∧ Replied t h 0x0301 0 (lastCourse (s.g g).last) ∧ t.grp = s.grp := by
  have hne : (s.g g).st ≠ 1 ∧ (s.g g).st ≠ 2 := by omega
  have hstop : (s.accepted h 0x0301).groupStop g = s.accepted h 0x0301 := by simp [State.groupStop, State.running, hne]
  obtain ⟨t, hx, hrep, told⟩ := command_replied (i := .groupStop h group) (v := s.accepted h 0x0301)
    (r := .ok (lastCourse (s.g g).last)) rfl ha
    (by simp [← hg, show ¬ 15 < g by omega, hne, hstop, compsClosed_accepted, hc]) (wired_refl _) hl
  exact ⟨t, hx, hrep, (told.eq (·.grp)).trans (Part.same.grp_eq (by simp [State.accepted]))⟩

/-! ## The back channel (R93, R106, R109) -/

@[simp] theorem ln_accepted (s : State) (h : Hdr) (op l : Nat) : (s.accepted h op).ln l = s.ln l := rfl

@[simp] theorem out_accepted (s : State) (h : Hdr) (op : Nat) : (s.accepted h op).out = s.out := rfl

@[simp] theorem grp_accepted (s : State) (h : Hdr) (op : Nat) : (s.accepted h op).grp = s.grp := rfl

@[simp] theorem laneState_accepted (s : State) (h : Hdr) (op l : Nat) : (s.accepted h op).laneState l = s.laneState l := by
  simp [State.laneState]

@[simp] theorem fromMem_accepted (s : State) (h : Hdr) (op l : Nat) : (s.accepted h op).fromMem l = s.fromMem l := by
  simp [State.fromMem]

@[simp] theorem backOk_accepted (s : State) (h : Hdr) (op l : Nat) : (s.accepted h op).backOk l = s.backOk l := by
  simp [State.backOk]

@[simp] theorem freeTag_accepted (s : State) (h : Hdr) (op l : Nat) : (s.accepted h op).freeTag l = s.freeTag l := rfl

/-- A packet that is sent goes out last, with the next sequence number of its channel. -/
theorem out_sendBack (s : State) (l vc dt : Nat) (ws : List Nat) : ∃ wire, (s.sendBack l vc dt ws).out =
    s.out ++ [.back l (packetBlocks (packet vc dt ((s.ln l).seqTx.getD vc 0) ws)) wire] := ⟨_, rfl⟩

theorem getF_sendBack (s : State) (l vc dt : Nat) (ws : List Nat) (b : Nat) (f : Fld) :
    (s.sendBack l vc dt ws).getF b f = s.getF b f := rfl

theorem tags_sendBack (s : State) (l vc dt : Nat) (ws : List Nat) : ((s.sendBack l vc dt ws).ln l).tags = (s.ln l).tags := by
  simp [State.sendBack]

@[simp] theorem wired_sendBack (l vc dt ws) : Wired s0 (s.sendBack l vc dt ws) ↔ Wired s0 s := by
  simp [State.sendBack, State.sendBlocks, State.setLn]

/-- A command whose effect is a packet on the back channel writes no other register than the count of commands, and no
group; `v` is the state that the packet leaves from. -/
theorem sendBack_told {v : State} {l vc dt : Nat} {ws : List Nat} (told : Told (v.sendBack l vc dt ws) t)
    (hregs : v.regs = (s.accepted h op).regs ∧ v.act = s.act) (hgrp : v.grp = s.grp) (hout : v.out = s.out)
    (hseq : (v.ln l).seqTx = (s.ln l).seqTx) :
    RegsKept s t ∧ t.grp = s.grp ∧ ∃ wire, t.out =
      s.out ++ [.back l (packetBlocks (packet vc dt ((s.ln l).seqTx.getD vc 0) ws)) wire] := by
  obtain ⟨wire, hwire⟩ := out_sendBack v l vc dt ws
  refine ⟨fun b f hk => ?_, (told.eq (·.grp)).trans (Eq.trans rfl hgrp), wire, ?_⟩
  · have hv : v.getF b f = (s.accepted h op).getF b f := by
      simp only [State.getF, hregs]
      rfl
    exact (told.eq (·.getF b f)).trans ((getF_sendBack ..).trans (hv.trans (getF_accepted s h op hk)))
  · rw [told.eq (·.out), hwire, hout, hseq]

/-- EXPOSURE sends the line of its target course. -/
theorem exposure_sends {chan expId gain : BitVec 16} {exp : BitVec 32} {target : BitVec 64} {v line x w : Nat}
    (ha : Accepts s h 0x0303 1) (hch : chan.toNat < 128) (h1 : 1 ≤ exp.toNat) (hmax : exp.toNat ≤ 16777215)
    (hlast : (s.ln chan.toNat).last = some (v, line, w)) (hst : s.laneState chan.toNat = 6)
    (hsince : (s.ln chan.toNat).lineSince = true) (hmem : s.fromMem chan.toNat = false) (hlo : v < target.toNat)
    (hhi : target.toNat < v + 2 ^ 31) (hx : x = (line + (target.toNat - v)) % 2 ^ 32) (hl : s.fits h 4 = true) :
    ∃ t wire, exec (.exposure h chan expId exp gain 0 target) s = .next t ∧ Replied t h 0x0303 0 (be 4 x) ∧
      t.out = s.out ++ [.back chan.toNat (packetBlocks (packet 1 0x41 ((s.ln chan.toNat).seqTx.getD 1 0)
        [expId.toNat * 2 ^ 48 + x * 2 ^ 16, exp.toNat * 2 ^ 40 + gain.toNat * 2 ^ 24])) wire] ∧ RegsKept s t ∧ t.grp = s.grp := by
  obtain ⟨t, ht, hrep, told⟩ := command_replied (i := .exposure h chan expId exp gain 0 target)
    (v := (s.accepted h 0x0303).sendBack chan.toNat 1 0x41
      [expId.toNat * 2 ^ 48 + x * 2 ^ 16, exp.toNat * 2 ^ 40 + gain.toNat * 2 ^ 24])
    (r := .ok (be 4 x)) rfl ha
    (by simp [show ¬ 127 < chan.toNat by omega, show ¬ exp.toNat < 1 by omega, show ¬ 16777215 < exp.toNat by omega, hlast,
        hst, hsince, hmem, show ¬ target.toNat ≤ v by omega, hx]; omega)
    (by simp) hl
  obtain ⟨hregs, hgrp, wire, hout⟩ := sendBack_told told ⟨rfl, rfl⟩ rfl rfl rfl
  exact ⟨t, wire, ht, hrep, hout, hregs, hgrp⟩

/-- CAMERA_CTRL sends its request under a free tag, and waits for the answer to it. -/
theorem cameraCtrl_sends {chan : BitVec 16} {o count : BitVec 8} {addr : BitVec 32} {data : List (BitVec 64)}
    (ha : Accepts s h 0x0304 2) (hch : chan.toNat < 128) (ho : o = 1 ∨ o = 2)
    (hlen : data.length = (if o = 2 then count.toNat else 0)) (h1 : 1 ≤ count.toNat) (h32 : count.toNat ≤ 32)
    (hback : s.backOk chan.toNat = true) (htags : (s.ln chan.toNat).tags.length < 16) :
    ∃ t wire, exec (.cameraCtrl h chan o addr count data) s = .next t ∧
      Tab.find (s.freeTag chan.toNat) (t.ln chan.toNat).tags = some (h.session.toNat, h.seq.toNat, o.toNat) ∧
      t.out = s.out ++ [.back chan.toNat (packetBlocks (packet 2 0x43 ((s.ln chan.toNat).seqTx.getD 2 0)
        ((o.toNat * 2 ^ 56 + s.freeTag chan.toNat * 2 ^ 48 + count.toNat * 2 ^ 40 + addr.toNat) ::
          data.map BitVec.toNat))) wire] ∧ RegsKept s t ∧ t.grp = s.grp := by
  obtain ⟨t, ht, told⟩ := command_told (i := .cameraCtrl h chan o addr count data) (r := .later chan.toNat)
    (v := State.sendBack ((s.accepted h 0x0304).setLn chan.toNat { s.ln chan.toNat with
      tags := Tab.put (s.freeTag chan.toNat) (h.session.toNat, h.seq.toNat, o.toNat) (s.ln chan.toNat).tags
      nextTag := (s.freeTag chan.toNat + 1) % 256 }) chan.toNat 2 0x43
      (controlWords o.toNat (s.freeTag chan.toNat) count.toNat addr.toNat (data.map BitVec.toNat)))
    (by simp only [exec, execCameraCtrl, if_pos hlen]; rfl) ha
    (by
      have hop : ¬ (o.toNat ≠ 1 ∧ o.toNat ≠ 2) := by rcases ho with rfl | rfl <;> simp
      rw [if_neg (by omega)]
      simp [hback, htags])
  obtain ⟨hregs, hgrp, wire, hout⟩ := sendBack_told (s := s) told ⟨rfl, rfl⟩ rfl rfl (by simp)
  refine ⟨t, wire, ht, ?_, hout, hregs, hgrp⟩
  rw [told.eq (fun w => w.ln chan.toNat), tags_sendBack]
  simp

/-- CAMERA_IDENT sends its own request. -/
theorem cameraIdent_sends {chan : BitVec 16} (ha : Accepts s h 0x0305 2) (hch : chan.toNat < 128)
    (hback : s.backOk chan.toNat = true) (hl : s.fits h 0 = true) :
    ∃ t wire, exec (.cameraIdent h chan) s = .next t ∧ Replied t h 0x0305 0 [] ∧ RegsKept s t ∧
      t.out = s.out ++ [.back chan.toNat (packetBlocks (packet 2 0x43 ((s.ln chan.toNat).seqTx.getD 2 0)
        [3 * 2 ^ 56 + s.freeTag chan.toNat * 2 ^ 48])) wire] := by
  obtain ⟨t, ht, hrep, told⟩ := command_replied (i := .cameraIdent h chan)
    (v := (s.accepted h 0x0305).sendBack chan.toNat 2 0x43 [3 * 2 ^ 56 + s.freeTag chan.toNat * 2 ^ 48]) (r := {}) rfl ha
    (by simp [show ¬ 127 < chan.toNat by omega, hback, controlWords]) (by simp) hl
  obtain ⟨hregs, -, wire, hout⟩ := sendBack_told told ⟨rfl, rfl⟩ rfl rfl rfl
  exact ⟨t, wire, ht, hrep, hregs, hout⟩

end GroupCommands
end Sys2Proof.Machine

namespace Sys2Proof.Machine

section GroupCommandsRest

variable {s0 s t u : State} {h : Hdr} {op role : Nat}

/-! ## AUXSYNC (R658) -/

theorem auxRun_satF (c n : Nat) : (s.satF auxG F.AUX_SYNC_CNT_COUNT n).auxRun c = s.auxRun c := by
  refine congrArg (· == 1) (getF_setF_ne _ _ _ _ _ _ ?_)
  simp only [Fld.key, auxB, auxG, F.AUX_CTRL_RUN, F.AUX_SYNC_CNT_COUNT]
  omega

theorem auxRun_accepted (s : State) (h : Hdr) (op c : Nat) : (s.accepted h op).auxRun c = s.auxRun c :=
  flag_accepted_above (b := auxB c) (by unfold auxB; omega) s h op _

@[simp] theorem wired_setAx (c x) : Wired s0 (s.setAx c x) ↔ Wired s0 s := by simp [State.setAx]

@[simp] theorem wired_auxSync : Wired s0 s.auxSync ↔ Wired s0 s := by
  unfold State.auxSync
  exact (wired_forL _ fun c v => by simp).trans (wired_satF (by decide) 1)

@[simp] theorem wired_auxSyncDrive : Wired s0 s.auxSyncDrive ↔ Wired s0 s := by
  simp [State.auxSyncDrive]

/-- The pulse on the pin is no sync of a channel. -/
theorem ax_auxSyncDrive (c : Nat) : s.auxSyncDrive.ax c = s.auxSync.ax c := by
  unfold State.auxSyncDrive
  dsimp only
  split
  · rcases fire_eq (s.auxSync.emit (.pulse .auxsync 40)) 0xA9 with hf | hf <;> rw [hf] <;> rfl
  · rfl

/-- Every running channel waits for its next modulator edge. -/
theorem auxSyncDrive_waits {c : Nat} (hc : c < 32) (run : s.auxRun c = true) : (s.auxSyncDrive.ax c).syncWait = true := by
  rw [ax_auxSyncDrive]
  refine forL_reaches (P := fun c u => (u.ax c).syncWait = true) (fun c u => by simp) (fun c d u hu => ?_) _ _ c
    (by simp [hc, auxRun_satF, run])
  rw [ax_setAx]
  split
  · rfl
  · exact hu

/-- What no round of a loop changes is as before it. -/
theorem forL_keeps {α β : Type} {p : State → β} {g : α → State → State} (L : List α) (h : ∀ x ∈ L, ∀ u, p (g x u) = p u)
    (s : State) : p (forL L g s) = p s := by
  induction L generalizing s with
  | nil => rfl
  | cons x L ih => exact (ih (fun y hy => h y (by simp [hy])) (g x s)).trans (h x (by simp) s)

/-- The others go on as they were. -/
theorem auxSyncDrive_leaves {c : Nat} (run : s.auxRun c = false) : s.auxSyncDrive.ax c = s.ax c := by
  rw [ax_auxSyncDrive]
  refine forL_keeps (p := (·.ax c)) _ (fun d hd u => ?_) _
  have hne : c ≠ d := by
    rintro rfl
    simp [auxRun_satF, run] at hd
  rw [ax_setAx, if_neg hne]

theorem syncCount_auxSyncDrive : s.auxSyncDrive.getF auxG F.AUX_SYNC_CNT_COUNT =
    satAdd F.AUX_SYNC_CNT_COUNT.width (s.getF auxG F.AUX_SYNC_CNT_COUNT) 1 := by
  have hsync : s.auxSync.getF auxG F.AUX_SYNC_CNT_COUNT =
      satAdd F.AUX_SYNC_CNT_COUNT.width (s.getF auxG F.AUX_SYNC_CNT_COUNT) 1 :=
    (getF_forL _ fun c v => getF_setAx ..).trans (getF_satF_self 1)
  simp only [State.auxSyncDrive, getF_ite, getF_fire, getF_emit, hsync, ite_self]

/-- AUXSYNC counts, and every running channel waits. -/
theorem auxsync_syncs (ha : Accepts s h 0x0306 2) (hon : s.domOn 95 = true) (hl : s.fits h 0 = true) :
    ∃ t, exec (.auxsync h) s = .next t ∧ Replied t h 0x0306 0 [] ∧ t.grp = s.grp ∧ t.mem = s.mem ∧
      t.getF auxG F.AUX_SYNC_CNT_COUNT = satAdd F.AUX_SYNC_CNT_COUNT.width (s.getF auxG F.AUX_SYNC_CNT_COUNT) 1 ∧
      (∀ c < 32, s.auxRun c = true → (t.ax c).syncWait = true) ∧ (∀ c < 32, s.auxRun c = false → t.ax c = s.ax c) := by
  obtain ⟨t, hx, hrep, told⟩ := command_replied (i := .auxsync h) (v := (s.accepted h 0x0306).auxSyncDrive) (r := {}) rfl ha
    (by simp [hon]) (by simp) hl
  refine ⟨t, hx, hrep, ?_, ?_, ?_, fun c hc run => ?_, fun c hc run => ?_⟩
  · exact (told.eq (·.grp)).trans (Part.same.grp_eq (by simp [State.accepted]))
  · exact (told.eq (·.mem)).trans (Part.same.mem_eq (by simp [State.accepted]))
  · rw [told.eq (·.getF auxG F.AUX_SYNC_CNT_COUNT), syncCount_auxSyncDrive, getF_accepted s h 0x0306 (by decide)]
  · rw [told.eq (·.ax c)]
    exact auxSyncDrive_waits hc (by rw [auxRun_accepted, run])
  · rw [told.eq (·.ax c)]
    exact auxSyncDrive_leaves (by rw [auxRun_accepted, run])

/-! ## CAL_REQUEST (R163, R164) -/

@[simp] theorem gaugeDouble_accepted (s : State) (h : Hdr) (op ch : Nat) :
    (s.accepted h op).gaugeDouble ch = s.gaugeDouble ch := by
  simp [State.gaugeDouble]

@[simp] theorem reqTemp_accepted (s : State) (h : Hdr) (op ch : Nat) (c : Int) :
    (s.accepted h op).reqTemp ch c = s.reqTemp ch c := by
  simp [State.reqTemp]

@[simp] theorem wired_calOne (g ch) : Wired s0 (s.calOne g ch) ↔ Wired s0 s := by
  simp [State.calOne, State.gaugeReq, State.gaugePend]

/-- A request is left for the channel alone. -/
theorem ch_calOne (g ch k : Nat) (hk : k ≠ ch) : (s.calOne g ch).ch k = s.ch k := by
  simp [State.calOne, State.gaugeReq, hk]

theorem calOne_pends (g ch : Nat) : ((s.calOne g ch).ch ch).pendingReq.isSome = true := by
  simp [State.calOne, State.gaugeReq]

/-- Where none waited, it is for the present course. -/
theorem calOne_request {g ch : Nat} (hn : (s.ch ch).pendingReq = none) :
    ((s.calOne g ch).ch ch).pendingReq = some ⟨s.stampG g, s.reqTemp ch (s.stampG g), [], 0⟩ := by
  simp [State.calOne, State.gaugeReq, hn]

theorem calRequest_requests {chan : BitVec 16} {ch g : Nat} (ha : Accepts s h 0x0600 1) (hch : ch = chan.toNat)
    (h128 : ch < 128) (hg : s.groupOf ch = some g) (hd : s.gaugeDouble ch = true) (hl : s.fits h 0 = true) :
    ∃ t, exec (.calRequest h chan) s = .next t ∧ Replied t h 0x0600 0 [] ∧ (t.ch ch).pendingReq.isSome = true ∧
      ((s.ch ch).pendingReq = none → (t.ch ch).pendingReq = some ⟨s.stampG g, s.reqTemp ch (s.stampG g), [], 0⟩) ∧
      t.getF (corrB ch) F.CORR_STATUS_GAUGE_PEND = 1 ∧ (∀ k, k ≠ ch → t.ch k = s.ch k) ∧ t.grp = s.grp := by
  obtain ⟨t, hx, hrep, told⟩ := command_replied (i := .calRequest h chan) (v := (s.accepted h 0x0600).calOne g ch) (r := {})
    rfl ha (by simp [← hch, hg, hd, show ch ≠ 65535 by omega, show ¬ 127 < ch by omega]) (by simp) hl
  refine ⟨t, hx, hrep, ?_, fun hn => ?_, ?_, fun k hk => ?_, ?_⟩
  · rw [told.eq (·.ch ch), calOne_pends]
  · rw [told.eq (·.ch ch), calOne_request (by simpa using hn), stampG_accepted, reqTemp_accepted]
  · rw [told.eq (·.getF (corrB ch) F.CORR_STATUS_GAUGE_PEND), getF_calOne]
  · rw [told.eq (·.ch k), ch_calOne g ch k hk, ch_accepted]
  · exact (told.eq (·.grp)).trans (Part.same.grp_eq (by simp [State.accepted]))

/-! ## LANE_ADAPT (R89) -/

@[simp] theorem quadOn_accepted (s : State) (h : Hdr) (op l : Nat) : (s.accepted h op).quadOn l = s.quadOn l := by
  simp [State.quadOn]

@[simp] theorem wired_adapted (l) : Wired s0 (s.adapted l) ↔ Wired s0 s := by
  simp [State.adapted, State.dfeAdapts]

/-- What LANE_ADAPT does to a lane of a powered quad. -/
def State.laneAdapted (s : State) (l : Nat) : State :=
  if s.flag (ingB l) F.LANE_CTRL_ADAPT_FREEZE ∨ s.laneState l < 2 then s else s.adapted l

theorem ite_laneAdapted (l : Nat) : (if s.flag (ingB l) F.LANE_CTRL_ADAPT_FREEZE ∨ s.laneState l < 2 then (s, ({} : Reply))
    else (s.adapted l, {})) = (s.laneAdapted l, {}) := by
  unfold State.laneAdapted
  split <;> rfl

theorem laneAdapted_frozen {l : Nat} (hf : s.flag (ingB l) F.LANE_CTRL_ADAPT_FREEZE = true) : s.laneAdapted l = s :=
  if_pos (.inl hf)

@[simp] theorem wired_laneAdapted (l) : Wired s0 (s.laneAdapted l) ↔ Wired s0 s := by simp [State.laneAdapted]

theorem laneState_laneAdapted (l : Nat) : (s.laneAdapted l).laneState l = s.laneState l := by
  unfold State.laneAdapted
  split
  · rfl
  · exact getF_adapted_apart rfl rfl

theorem lane_laneAdapted (l : Nat) : (s.laneAdapted l).lane = s.lane := by
  unfold State.laneAdapted
  split
  · rfl
  · exact Part.same.lane_eq (by simp)

theorem laneAdapt_adapts {lane : BitVec 16} {l : Nat} (ha : Accepts s h 0x0602 2) (hlane : l = lane.toNat) (h128 : l < 128)
    (hq : s.quadOn l = true) (hl : s.fits h 0 = true) :
    ∃ t, exec (.laneAdapt h lane) s = .next t ∧ Replied t h 0x0602 0 [] ∧ t.laneState l = s.laneState l ∧ t.lane = s.lane ∧
      (s.flag (ingB l) F.LANE_CTRL_ADAPT_FREEZE = true → RegsKept s t ∧ t.freeCtr = s.freeCtr) := by
  obtain ⟨t, hx, hrep, told⟩ := command_replied (i := .laneAdapt h lane) (v := (s.accepted h 0x0602).laneAdapted l) (r := {})
    rfl ha (by rw [if_neg (by omega), ← hlane, quadOn_accepted, hq]; exact ite_laneAdapted l) (by simp) hl
  refine ⟨t, hx, hrep, ?_, ?_, fun hf => ?_⟩
  · rw [told.eq (·.laneState l), laneState_laneAdapted, laneState_accepted]
  · exact (told.eq (·.lane)).trans ((lane_laneAdapted l).trans rfl)
  · rw [laneAdapted_frozen (by simpa using hf)] at told
    exact ⟨fun b f hk => (told.eq (·.getF b f)).trans (getF_accepted s h 0x0602 hk), (told.eq (·.freeCtr)).trans rfl⟩

end GroupCommandsRest
end Sys2Proof.Machine

namespace Sys2Proof.Proofs
open Sys2Proof.Machine

/-- Settles O50, a command at a time: each body, on an accepted command, gives the state named in its clause, and what telling
the host leaves of that state shows what the clause claims. -/
theorem groupAndCameraCommands : Obligations.GroupAndCameraCommands := by
  refine ⟨?_, ?_, ?_, ?_, ?_, ?_, ?_, ?_⟩
  · rintro s u h group flags g rfl ha hg h16 hl
    exact ⟨fun hok hp => groupStart_starts ha hg h16 hok hp, fun hno => groupStart_refused ha hg h16 hl hno⟩
  · intro s h group g ha hg h16
    obtain ⟨t, hx, hself, hother⟩ := groupStop_stops (group := group) ha hg h16
    refine ⟨fun hst => ⟨t, hx, ?_⟩, fun hst => ⟨t, hx, ?_⟩, fun hst hc hl => groupStop_again ha hg h16 hst hc hl⟩
    · rw [hself, Grp.stopped_of_running hst]
      exact ⟨rfl, rfl, rfl, hother⟩
    · rw [hself]
      exact ⟨by simp [Grp.stopped, hst], hother⟩
  · intro s h chan expId gain exp target v line x w ha hch h1 hmax hlast hst hsince hmem hlo hhi hx hl
    exact exposure_sends ha hch h1 hmax hlast hst hsince hmem hlo hhi hx hl
  · rintro s h chan o count addr data tag ha hch ho hlen h1 h32 hback htags rfl
    exact cameraCtrl_sends ha hch ho hlen h1 h32 hback htags
  · exact fun s h chan ha hch hback hl => cameraIdent_sends ha hch hback hl
  · exact fun s h ha hon hl => auxsync_syncs ha hon hl
  · exact fun s h chan ch g ha hch h128 hg hd hl => calRequest_requests ha hch h128 hg hd hl
  · exact fun s h lane l ha hlane h128 hq hl => laneAdapt_adapts ha hlane h128 hq hl

end Sys2Proof.Proofs

/-! # Clock, marking, log, self-test and fault injection (O51) -/

namespace Sys2Proof.Machine

section UnitCommands

variable {s0 s t u : State} {h : Hdr} {op role : Nat}

/-! ## The clock (R593, R601, R602) -/

@[simp] theorem anyRunning_accepted (s : State) (h : Hdr) (op : Nat) : (s.accepted h op).anyRunning = s.anyRunning := by
  simp [State.anyRunning]

@[simp] theorem wired_clockMove (d) : Wired s0 (s.clockMove d) ↔ Wired s0 s := by simp [State.clockMove]

@[simp] theorem wired_clockStep (d) : Wired s0 (s.clockStep d) ↔ Wired s0 s := by simp [State.clockStep]

/-- A step by what is missing to a time moves the clock to it. -/
theorem localT_clockStep_to {target : Nat} (hr : Int.ofNat target < clockMod) :
    (s.clockStep (Int.ofNat target - Int.ofNat s.localT)).localT = target := by
  have hraise : (s.clockStep (Int.ofNat target - Int.ofNat s.localT)).localT =
      ((Int.ofNat s.localT + (Int.ofNat target - Int.ofNat s.localT)) % clockMod).toNat := by
    simp only [State.clockStep, State.raise]
    rcases fire_eq ((s.clockMove (Int.ofNat target - Int.ofNat s.localT)).setF timB F.PTP_EVENT_STEP_EV 1) 0xF1 with hf | hf <;>
      rw [hf]
    · exact setF_localT ..
    · exact setF_localT ..
  have hmod : Int.ofNat target % clockMod = Int.ofNat target := Int.emod_eq_of_lt (Int.natCast_nonneg target) hr
  rw [hraise, add_sub_cancel, hmod]
  rfl

/-- A time of TIME_SET lies within the range of the clock. -/
theorem timeSet_range (sec : BitVec 64) {ns : BitVec 32} (hns : ns.toNat < 1000000000) :
    Int.ofNat ((sec.toNat * 1000000000 + ns.toNat) * 2 ^ 40) < clockMod := by
  have hsec := sec.isLt
  simp only [clockMod, Int.ofNat_eq_natCast]
  omega

theorem timeSet_steps {sec : BitVec 64} {ns : BitVec 32} (ha : Accepts s h 0x0701 3) (hns : ns.toNat < 1000000000)
    (hrun : s.anyRunning = false) (h0 : s.ptpLocked 0 = false) (h1 : s.ptpLocked 1 = false) (hl : s.fits h 0 = true) :
    ∃ t, exec (.timeSet h sec ns) s = .next t ∧ Replied t h 0x0701 0 [] ∧
      t.localT = (sec.toNat * 1000000000 + ns.toNat) * 2 ^ 40 ∧ t.getF timB F.PTP_EVENT_STEP_EV = 1 ∧
      t.grp = s.grp ∧ t.mem = s.mem := by
  obtain ⟨t, hx, hrep, told⟩ := command_replied (i := .timeSet h sec ns) (v := (s.accepted h 0x0701).clockStep
      (Int.ofNat ((sec.toNat * 1000000000 + ns.toNat) * 2 ^ 40) - Int.ofNat (s.accepted h 0x0701).localT)) (r := {}) rfl ha
    (by rw [if_neg (by omega), anyRunning_accepted, ptpLocked_accepted, ptpLocked_accepted, hrun, h0, h1]; rfl) (by simp) hl
  refine ⟨t, hx, hrep, ?_, ?_, ?_, ?_⟩
  · exact (told.eq (·.localT)).trans (localT_clockStep_to (timeSet_range sec hns))
  · exact (told.eq (·.getF timB F.PTP_EVENT_STEP_EV)).trans (getF_raise_self _)
  · exact (told.eq (·.grp)).trans (Part.same.grp_eq (by simp [State.accepted]))
  · exact (told.eq (·.mem)).trans (Part.same.mem_eq (by simp [State.accepted]))

/-! ### The preferred domain -/

/-- A write of a register below a block leaves the block. -/
theorem getF_setF_below {b b' : Nat} {f' : Fld} (hb : 0x100000 ≤ b) (hk : f'.key b' < 0x4000000) (v : Nat) (f : Fld) :
    (s.setF b' f' v).getF b f = s.getF b f := by
  refine getF_setF_ne _ _ _ _ _ _ (Nat.ne_of_gt (hk.trans_le ?_))
  unfold Fld.key
  omega

/-- A freeze shows in the registers of the recorder. -/
theorem getF_freezeTrigger_above {b : Nat} (hb : 0x100000 ≤ b) (f : Fld) : s.freezeTrigger.getF b f = s.getF b f := by
  have hfreeze (v : State) : v.freezeInst.getF b f = v.getF b f := by
    refine Eq.trans (b := (((((v.mark repB F.REPLAY_STATUS_FREEZE_EV).setF repB F.FREEZE_SEC_SEC _).setF repB F.FREEZE_NS_NS
      _).setF repB F.FREEZE_COURSE_COURSE _).setF repB F.REPLAY_STATUS_STATE 3).getF b f) rfl ?_
    simp +decide only [getF_setF_below hb, State.mark]
  have hset (v : State) : (v.setF repB F.REPLAY_STATUS_STATE 2).getF b f = v.getF b f := getF_setF_below hb (by decide) 2 f
  simp only [State.freezeTrigger, getF_ite, hfreeze, hset]
  split
  · split <;> rfl
  · rfl

/-- The log is kept in the registers of the fault manager. -/
theorem getF_logAs_above {b : Nat} (hb : 0x100000 ≤ b) (code : LogCode) (sev level unit grp : Nat) (payload : List Byte)
    (f : Fld) : (s.logAs code sev level unit grp payload).getF b f = s.getF b f := by
  have hpoke (v : State) (a : Nat) (bs : List Byte) : (v.pokes a bs).getF b f = v.getF b f := rfl
  simp +decide only [State.logAs, getF_ite, getF_freezeTrigger_above hb, State.satF, getF_setF_below hb, hpoke, ite_self]

theorem getF_logReg_above {b : Nat} (hb : 0x100000 ≤ b) (code : LogCode) (unit grp addr : Nat) (f : Fld) :
    (s.logReg code unit grp addr).getF b f = s.getF b f := getF_logAs_above hb ..

@[simp] theorem wired_ptpSwitch (d) : Wired s0 (s.ptpSwitch d) ↔ Wired s0 s := by simp [State.ptpSwitch]

@[simp] theorem wired_ptpStep (d) : Wired s0 (s.ptpStep d) ↔ Wired s0 s := by simp [State.ptpStep]

/-- The domain that is to drive the correction: the preferred one, or else the other, if it is locked. -/
def State.ptpWanted (s : State) : Option Nat :=
  if s.ptpLocked s.ptpPref then some s.ptpPref else if s.ptpLocked (1 - s.ptpPref) then some (1 - s.ptpPref) else none

theorem ptpSelect_of_unwanted {now' : Bool} (hw : s.ptpWanted = none) : s.ptpSelect now' =
    if s.time.sel.isSome then { s with time := { s.time with sel := none } }.setF timB F.PTP_STATE_HOLDOVER 1 else s := by
  unfold State.ptpWanted at hw
  simp only [State.ptpSelect, hw]

/-- The first lock, or a return from holdover. -/
theorem ptpSelect_of_first {now' : Bool} {d : Nat} (hw : s.ptpWanted = some d) (hs : s.time.sel = none) : s.ptpSelect now' =
    ((if s.flag timB F.PTP_STATE_HOLDOVER && s.getF timB F.PTP_STATE_SEL != d then s.ptpSwitch d
      else { s with time := { s.time with sel := some d } }.setF timB F.PTP_STATE_SEL d).setF timB
        F.PTP_STATE_HOLDOVER 0).ptpStep d := by
  unfold State.ptpWanted at hw
  simp only [State.ptpSelect, hw, hs]

theorem ptpSelect_of_driven {now' : Bool} {c d : Nat} (hw : s.ptpWanted = some d) (hs : s.time.sel = some c) :
    s.ptpSelect now' = if c = d then s else if !s.ptpLocked c ∨ now' then s.ptpSwitch d else s := by
  unfold State.ptpWanted at hw
  simp only [State.ptpSelect, hw, hs]

@[simp] theorem wired_ptpSelect (now') : Wired s0 (s.ptpSelect now') ↔ Wired s0 s := by
  cases hw : s.ptpWanted with
  | none => simp [ptpSelect_of_unwanted hw]
  | some d =>
    cases hs : s.time.sel with
    | none => simp [ptpSelect_of_first hw hs]
    | some c => simp [ptpSelect_of_driven hw hs]

theorem pref_clockStep (d : Int) : (s.clockStep d).getF timB F.PTP_CTRL_PREF = s.getF timB F.PTP_CTRL_PREF :=
  getF_raise_ne _ _ _ _ _ _ (by decide)

theorem pref_setF {f : Fld} (hf : F.PTP_CTRL_PREF.key timB ≠ f.key timB) (v : Nat) :
    (s.setF timB f v).getF timB F.PTP_CTRL_PREF = s.getF timB F.PTP_CTRL_PREF := getF_setF_ne _ _ _ _ _ _ hf

theorem pref_ptpSwitch (d : Nat) : (s.ptpSwitch d).getF timB F.PTP_CTRL_PREF = s.getF timB F.PTP_CTRL_PREF := by
  refine (getF_logReg_above (by decide) ..).trans ((pref_setF (by decide) _).trans
    ((getF_raise_ne _ _ _ _ _ _ (by decide)).trans ?_))
  exact (pref_setF (by decide) _).trans (pref_setF (by decide) _)

theorem pref_ptpStep (d : Nat) : (s.ptpStep d).getF timB F.PTP_CTRL_PREF = s.getF timB F.PTP_CTRL_PREF := by
  simp only [State.ptpStep, getF_ite, pref_clockStep, ite_self]

/-- The selection of a domain leaves the preference. -/
theorem pref_ptpSelect (now' : Bool) : (s.ptpSelect now').getF timB F.PTP_CTRL_PREF = s.getF timB F.PTP_CTRL_PREF := by
  cases hw : s.ptpWanted with
  | none =>
    rw [ptpSelect_of_unwanted hw]
    split
    · exact pref_setF (by decide) _
    · rfl
  | some d =>
    cases hs : s.time.sel with
    | none =>
      rw [ptpSelect_of_first hw hs]
      refine (pref_ptpStep d).trans ((pref_setF (by decide) _).trans ?_)
      split
      · exact pref_ptpSwitch d
      · exact pref_setF (by decide) _
    | some c => simp only [ptpSelect_of_driven hw hs, getF_ite, pref_ptpSwitch, ite_self]

/-- With no domain locked, no correction is made. -/
theorem localT_ptpSelect_of_unwanted (now' : Bool) (hw : s.ptpWanted = none) : (s.ptpSelect now').localT = s.localT := by
  rw [ptpSelect_of_unwanted hw]
  split
  · exact setF_localT ..
  · rfl

theorem ptpPrefer_prefers {d : BitVec 8} (ha : Accepts s h 0x0703 2) (hd : d.toNat ≤ 1) (hl : s.fits h 0 = true) :
    ∃ t, exec (.ptpPrefer h d) s = .next t ∧ Replied t h 0x0703 0 [] ∧ t.getF timB F.PTP_CTRL_PREF = d.toNat ∧
      (s.ptpLocked 0 = false → s.ptpLocked 1 = false → t.localT = s.localT) ∧ t.grp = s.grp := by
  generalize hv : (s.accepted h 0x0703).setF timB F.PTP_CTRL_PREF d.toNat = v
  have hpref : v.getF timB F.PTP_CTRL_PREF = d.toNat := hv ▸ getF_setF_of_lt (by simp only [Fld.width, F.PTP_CTRL_PREF]; omega)
  have hlocked : ∀ k ≤ 1, v.ptpLocked k = s.ptpLocked k := fun k hk => by
    rw [← ptpLocked_accepted s h 0x0703, ← hv]
    refine congrArg (· == 1) (getF_setF_ne _ _ _ _ _ _ ?_)
    interval_cases k <;> decide
  obtain ⟨t, hx, hrep, told⟩ := command_replied (i := .ptpPrefer h d) (v := v.ptpSelect true) (r := {}) rfl ha
    (by rw [if_neg (by omega), hv]) (by rw [wired_ptpSelect, ← hv]; simp) hl
  refine ⟨t, hx, hrep, ?_, fun h0 h1 => ?_, ?_⟩
  · rw [told.eq (·.getF timB F.PTP_CTRL_PREF), pref_ptpSelect, hpref]
  · have hnone : ∀ k ≤ 1, v.ptpLocked k = false := fun k hk => by
      rw [hlocked k hk]
      interval_cases k
      · exact h0
      · exact h1
    have hw : v.ptpWanted = none := by
      simp [State.ptpWanted, hnone v.ptpPref (hpref.trans_le hd), hnone _ (Nat.sub_le 1 v.ptpPref)]
    rw [told.eq (·.localT), localT_ptpSelect_of_unwanted true hw, ← hv, setF_localT, localT_accepted]
  · refine (told.eq (·.grp)).trans (Part.same.grp_eq ?_)
    rw [same_ptpSelect true (by decide), ← hv]
    simp [State.accepted]

/-! ## Marking (R320, R323, R348, R351) -/

@[simp] theorem cmpB_above (u : Nat) : 0x10020 < cmpB u := by unfold cmpB; omega

@[simp] theorem c_accepted (s : State) (h : Hdr) (op u : Nat) : (s.accepted h op).c u = s.c u := rfl

@[simp] theorem cmpOn_accepted (s : State) (h : Hdr) (op u : Nat) : (s.accepted h op).cmpOn u = s.cmpOn u := by
  simp [State.cmpOn]

@[simp] theorem chwm_accepted (s : State) (h : Hdr) (op u : Nat) : (s.accepted h op).chwm u = s.chwm u := by
  simp [State.chwm]

@[simp] theorem firePoint_accepted (s : State) (h : Hdr) (op u : Nat) (pos : Int) :
    (s.accepted h op).firePoint u pos = s.firePoint u pos := by
  simp [State.firePoint]

@[simp] theorem reRunning_accepted (s : State) (h : Hdr) (op : Nat) : (s.accepted h op).reRunning = s.reRunning := by
  simp [State.reRunning]

/-- The fields of a compare unit lie below the ports. -/
theorem offWire_cmpB {f : Fld} {u : Nat} (hu : u < 16) (hf : f.off < 0x100 ∧ f.lo < 64) : f.offWire (cmpB u) = true := by
  have hw : ∀ k ∈ wireKeys, 0x130000 * 64 ≤ k := by decide
  have hn : f.key (cmpB u) ∉ wireKeys := fun hm => by
    have := hw _ hm
    unfold Fld.key cmpB at this
    omega
  simp [Fld.offWire, hn]

theorem wired_setC {u : Nat} (hu : u < 16) (x : Cmp) : Wired s0 (s.setC u x) ↔ Wired s0 s := by
  unfold State.setC
  exact (wired_setF (offWire_cmpB hu (by decide)) _).trans ((wired_setI (offWire_cmpB hu (by decide)) _).trans (wired_mk rfl))

/-- ENTRIES shows how long a list is. -/
theorem entries_setC (u : Nat) (x : Cmp) :
    (s.setC u x).getF (cmpB u) F.CMP_STATUS_ENTRIES = x.list.length % 2 ^ F.CMP_STATUS_ENTRIES.width :=
  getF_setF_same ..

theorem markInsert_inserts {unit : BitVec 8} {pos id : BitVec 64} {u : Nat} (ha : Accepts s h 0x0800 1) (hu : u = unit.toNat)
    (h16 : u < 16) (hon : s.domOn 95 = true) (hroom : (s.c u).list.length + (s.c u).late.length < 4096)
    (hahead : s.cmpOn u = false ∨ s.chwm u < s.firePoint u (toInt 64 pos.toNat)) (hl : s.fits h 2 = true) :
    ∃ t, exec (.markInsert h unit pos id) s = .next t ∧
      Replied t h 0x0800 0
        (be 2 ((cmpPlace (toInt 64 pos.toNat, id.toNat) (s.c u).list).length % 2 ^ F.CMP_STATUS_ENTRIES.width)) ∧
      (t.c u).list = cmpPlace (toInt 64 pos.toNat, id.toNat) (s.c u).list ∧ (t.c u).late = (s.c u).late ∧
      (∀ k, k ≠ u → t.c k = s.c k) ∧ t.grp = s.grp := by
  generalize hx : ({ s.c u with list := cmpPlace (toInt 64 pos.toNat, id.toNat) (s.c u).list } : Cmp) = x
  have hlist : x.list = cmpPlace (toInt 64 pos.toNat, id.toNat) (s.c u).list := hx ▸ rfl
  have hlate : x.late = (s.c u).late := hx ▸ rfl
  have hins : (s.accepted h 0x0800).cmpInsert u (toInt 64 pos.toNat, id.toNat) = (s.accepted h 0x0800).setC u x := by
    rw [← hx]
    exact cmpInsert_of_ahead (by simpa [Cmp.full] using hroom) (by simpa using hahead)
  obtain ⟨t, hxt, hrep, told⟩ := command_replied (i := .markInsert h unit pos id) (v := (s.accepted h 0x0800).setC u x)
    (r := .ok (be 2 (x.list.length % 2 ^ F.CMP_STATUS_ENTRIES.width))) rfl ha
    (by rw [markUnit, ← hu, if_neg (by omega), domOn_accepted, hon, hins, ← entries_setC]; rfl)
    ((wired_setC h16 x).2 (wired_refl _)) (by rwa [Reply.ok, length_be])
  have hc (k : Nat) : t.c k = if k = u then x else s.c k := (told.eq (·.c k)).trans (c_setC x)
  refine ⟨t, hxt, hlist ▸ hrep, ?_, ?_, fun k hk => ?_, ?_⟩
  · rw [hc, if_pos rfl, hlist]
  · rw [hc, if_pos rfl, hlate]
  · rw [hc, if_neg hk]
  · exact (told.eq (·.grp)).trans (Part.same.grp_eq (by simp [State.accepted]))

theorem markClear_clears {unit : BitVec 8} {u : Nat} (ha : Accepts s h 0x0801 1) (hu : u = unit.toNat) (h16 : u < 16)
    (hon : s.domOn 95 = true) (hl : s.fits h 0 = true) :
    ∃ t, exec (.markClear h unit) s = .next t ∧ Replied t h 0x0801 0 [] ∧ (t.c u).list = [] ∧ (t.c u).late = [] ∧
      (∀ k, k ≠ u → t.c k = s.c k) ∧ t.grp = s.grp := by
  obtain ⟨t, hx, hrep, told⟩ := command_replied (i := .markClear h unit) (v := (s.accepted h 0x0801).cmpClear u) (r := {}) rfl ha
    (by simp [markUnit, ← hu, show ¬ 15 < u by omega, hon]) ((wired_setC h16 _).2 (wired_refl _)) hl
  have hc (k : Nat) : t.c k = if k = u then { s.c u with list := [], late := [] } else s.c k :=
    (told.eq (·.c k)).trans (c_setC _)
  refine ⟨t, hx, hrep, ?_, ?_, fun k hk => ?_, ?_⟩
  · rw [hc, if_pos rfl]
  · rw [hc, if_pos rfl]
  · rw [hc, if_neg hk]
  · exact (told.eq (·.grp)).trans (Part.same.grp_eq (by simp [State.accepted]))

@[simp] theorem wired_markHold (on) : Wired s0 (s.markHold on) ↔ Wired s0 s := by simp +decide [State.markHold]

theorem markHold_holds {hold : BitVec 8} (ha : Accepts s h 0x0802 1) (hh : hold.toNat ≤ 1) (hon : s.domOn 95 = true)
    (hl : s.fits h 0 = true) :
    ∃ t, exec (.markHold h hold) s = .next t ∧ Replied t h 0x0802 0 [] ∧ t.getF cmpG F.MARK_HOLD_CTRL_HOLD = hold.toNat ∧
      t.cmp = s.cmp ∧ t.grp = s.grp := by
  obtain ⟨t, hx, hrep, told⟩ := command_replied (i := .markHold h hold) (v := (s.accepted h 0x0802).markHold (hold == 1))
    (r := {}) rfl ha (by simp [markUnit, show ¬ 1 < hold.toNat by omega, hon]) (by simp) hl
  refine ⟨t, hx, hrep, ?_, ?_, ?_⟩
  · rw [told.eq (·.getF cmpG F.MARK_HOLD_CTRL_HOLD), State.markHold, getF_setF_same]
    have hcode : hold.toNat = 0 ∨ hold.toNat = 1 := by omega
    rcases hcode with hz | ho
    · simp [BitVec.eq_of_toNat_eq (x := hold) (y := 0) hz]
    · simp [BitVec.eq_of_toNat_eq (x := hold) (y := 1) ho, F.MARK_HOLD_CTRL_HOLD, Fld.width]
  · exact (told.eq (·.cmp)).trans (Part.same.cmp_eq (by simp [State.accepted]))
  · exact (told.eq (·.grp)).trans (Part.same.grp_eq (by simp [State.accepted]))

theorem cassAuth_opens (ha : Accepts s h 0x0803 1) (hon : s.domOn 95 = true) (idle : s.cass.cmd = 0) :
    ∃ t, exec (.cassAuth h) s = .next t ∧ t.cass.cmd = 1 ∧ RegsKept s t ∧
      t.out = (if s.reRunning then s.out else s.out ++ [.bus "TH_CS" [1]]) := by
  obtain ⟨t, hx, told⟩ := command_told (i := .cassAuth h) (v := (s.accepted h 0x0803).cassStart 1 []) (r := .later 0) rfl ha
    (by simp [markUnit, hon, authenticate_of_idle (s := s.accepted h 0x0803) idle])
  refine ⟨t, hx, ?_, fun b f hk => ?_, ?_⟩
  · rw [told.eq (·.cass), cass_cassStart]
  · rw [told.eq (·.getF b f), getF_cassStart, getF_accepted s h 0x0803 hk]
  · rw [told.eq (·.out), out_cassStart, reRunning_accepted, out_accepted]
    rfl

/-! ## The fault log (R690) -/

@[simp] theorem wired_readLog (n i) : Wired s0 (s.readLog n i).1 ↔ Wired s0 s := by
  induction n generalizing s i with
  | zero => rfl
  | succ n ih =>
    unfold State.readLog
    dsimp only
    split <;> simp [ih]

theorem logRead_reads {i : BitVec 32} {n : BitVec 16} {bs : List Byte} {old nxt : Nat} (ha : Accepts s h 0x0A00 0)
    (hold : old = s.getF fmB F.LOG_OLDEST_INDEX) (hnxt : nxt = s.getF fmB F.LOG_NEXT_INDEX)
    (hin : diff32 i.toNat old ≤ diff32 nxt old) (hfit : s.fits h (64 * min n.toNat (diff32 nxt i.toNat)) = true)
    (hread : ((s.accepted h 0x0A00).readLog (min n.toNat (diff32 nxt i.toNat)) i.toNat).2 = .ok bs)
    (hl : s.fits h bs.length = true) :
    ∃ t, exec (.logRead h i n) s = .next t ∧ Replied t h 0x0A00 0 bs ∧ t.grp = s.grp := by
  obtain ⟨t, hx, hrep, told⟩ := command_replied (i := .logRead h i n)
    (v := ((s.accepted h 0x0A00).readLog (min n.toNat (diff32 nxt i.toNat)) i.toNat).1) (r := .ok bs) rfl ha
    (by
      rw [logRead, getF_accepted s h _ (by decide), getF_accepted s h _ (by decide), ← hold, ← hnxt, State.logFrom,
        if_neg (Nat.not_lt.2 hin), ha.fits, hfit]
      simp only [hread]
      rfl) (by simp) hl
  exact ⟨t, hx, hrep, (told.eq (·.grp)).trans (Part.same.grp_eq (by simp [State.accepted]))⟩

theorem logClear_clears (ha : Accepts s h 0x0A01 2) (hl : s.fits h 0 = true) :
    ∃ t, exec (.logClear h) s = .next t ∧ Replied t h 0x0A01 0 [] ∧
      t.getF fmB F.LOG_OLDEST_INDEX = s.getF fmB F.LOG_NEXT_INDEX % 2 ^ F.LOG_OLDEST_INDEX.width ∧
      t.getF fmB F.LOG_NEXT_INDEX = s.getF fmB F.LOG_NEXT_INDEX ∧ t.mem = s.mem ∧ t.grp = s.grp := by
  have hnext : (s.accepted h 0x0A01).getF fmB F.LOG_NEXT_INDEX = s.getF fmB F.LOG_NEXT_INDEX := getF_accepted s h _ (by decide)
  obtain ⟨t, hx, hrep, told⟩ := command_replied (i := .logClear h)
    (v := (s.accepted h 0x0A01).setF fmB F.LOG_OLDEST_INDEX (s.getF fmB F.LOG_NEXT_INDEX)) (r := {}) rfl ha (by rw [hnext])
    (by simp +decide) hl
  refine ⟨t, hx, hrep, ?_, ?_, ?_, ?_⟩
  · rw [told.eq (·.getF fmB F.LOG_OLDEST_INDEX), getF_setF_same]
  · rw [told.eq (·.getF fmB F.LOG_NEXT_INDEX), getF_setF_ne _ _ _ _ _ _ (by decide), hnext]
  · exact (told.eq (·.mem)).trans (Part.same.mem_eq (by simp [State.accepted]))
  · exact (told.eq (·.grp)).trans (Part.same.grp_eq (by simp [State.accepted]))

/-! ## Self-test (R689) -/

@[simp] theorem gtalB_above (g : Nat) : 0x10020 < gtalB g := by unfold gtalB; omega
@[simp] theorem gsegB_above (g : Nat) : 0x10020 < gsegB g := by unfold gsegB; omega

@[simp] theorem runChans_accepted (s : State) (h : Hdr) (op g : Nat) : (s.accepted h op).runChans g = s.runChans g := by
  simp [State.runChans, State.runCount, State.runFirst]

@[simp] theorem fedBy_accepted (s : State) (h : Hdr) (op l : Nat) : (s.accepted h op).fedBy l = s.fedBy l :=
  fedBy_congr (getF_accepted_above (ingB_above l) s h op _)

@[simp] theorem inMask_accepted (s : State) (h : Hdr) (op g e : Nat) : (s.accepted h op).inMask g e = s.inMask g e := by
  simp [State.inMask]

@[simp] theorem ring_accepted (s : State) (h : Hdr) (op id : Nat) : (s.accepted h op).ring id = s.ring id := rfl

@[simp] theorem statsOn_accepted (s : State) (h : Hdr) (op ch : Nat) : (s.accepted h op).statsOn ch = s.statsOn ch := by
  simp [State.statsOn]

@[simp] theorem groupRings_accepted (s : State) (h : Hdr) (op g : Nat) : (s.accepted h op).groupRings g = s.groupRings g := by
  have hstats : (s.accepted h op).statsOn = s.statsOn := funext (statsOn_accepted s h op)
  simp [State.groupRings, State.resRings, hstats]

/-- Whether a group uses a device of the memory is as it was before the command arrived. -/
theorem groupUses_accepted (s : State) (h : Hdr) (op g : Nat) {i : Nat} (hi : i < 16) :
    (s.accepted h op).groupUses g (memDom i) = s.groupUses g (memDom i) := by
  have hlo : ¬ memDom i < 32 ∧ ¬ memDom i < 64 ∧ memDom i < 88 := by unfold memDom; omega
  simp [State.groupUses, hlo]

theorem unitServes_accepted (s : State) (h : Hdr) (op : Nat) {cls i : Nat} (hi : cls = 7 → i < 16)
    (hc : cls ∈ [1, 2, 5, 6, 7]) : (s.accepted h op).unitServes cls i = s.unitServes cls i := by
  simp only [List.mem_cons, List.not_mem_nil, or_false] at hc
  rcases hc with rfl | rfl | rfl | rfl | rfl
  · simp [State.unitServes]
  · simp [State.unitServes]
  · simp [State.unitServes]
  · simp [State.unitServes]
  · simp [State.unitServes, groupUses_accepted s h op _ (hi rfl)]

/-- The classes whose units a self-test takes are those of the other classes that have units. -/
theorem class_of_unitCount {cls i : Nat} (h3 : cls ≠ 3) (hi : i < unitCount cls) :
    cls ∈ [1, 2, 5, 6, 7] ∧ (cls = 7 → i < 16) := by
  refine ⟨?_, by rintro rfl; exact hi⟩
  by_contra hno
  simp only [List.mem_cons, List.not_mem_nil, or_false, not_or] at hno
  obtain ⟨h1, h2, h5, h6, h7⟩ := hno
  simp [unitCount, h1, h2, h3, h5, h6, h7] at hi

/-- What a self-test leaves: its result is a free value, and a failure is logged. -/
def State.selfTested (s : State) (i : Nat) : State :=
  if (Config.freeBits 32 s.freeCtr).toNat = 0 then s.tickFree else s.tickFree.logAs .selftestFail 2 0 i 0xFF []

@[simp] theorem wired_selfTested (i) : Wired s0 (s.selfTested i) ↔ Wired s0 s := by simp [State.selfTested]

theorem grp_selfTested (i : Nat) : (s.selfTested i).grp = s.grp := by
  unfold State.selfTested
  split
  · rfl
  · exact Part.same.grp_eq (by simp)

theorem selftest_answers {cls : BitVec 8} {index : BitVec 16} (ha : Accepts s h 0x0A02 3) (h3 : cls ≠ 3)
    (hi : index.toNat < unitCount cls.toNat) (hon : s.domOn (unitDomain cls.toNat index.toNat) = true)
    (hidle : s.unitServes cls.toNat index.toNat = false) (hl : s.fits h 4 = true) :
    ∃ t r, exec (.selftest h cls index) s = .next t ∧ Replied t h 0x0A02 0 (be 4 r) ∧ r < 2 ^ 32 ∧ t.grp = s.grp := by
  have hcls : cls.toNat ≠ 3 := fun hc => h3 (BitVec.eq_of_toNat_eq hc)
  obtain ⟨hmem, h7⟩ := class_of_unitCount hcls hi
  obtain ⟨t, hx, hrep, told⟩ := command_replied (i := .selftest h cls index)
    (v := (s.accepted h 0x0A02).selfTested index.toNat) (r := .ok (be 4 (Config.freeBits 32 s.freeCtr).toNat)) rfl ha
    (by
      rw [if_neg (by omega), domOn_accepted, hon, unitServes_accepted s h _ h7 hmem, hidle]
      rfl)
    (by simp) (by rwa [Reply.ok, length_be])
  exact ⟨t, _, hx, hrep, BitVec.isLt _, (told.eq (·.grp)).trans (grp_selfTested _)⟩

/-! ## Fault injection (R682, R689) -/

theorem debugLocked_accepted (s : State) (h : Hdr) (op : Nat) : (s.accepted h op).debugLocked = s.debugLocked := rfl

@[simp] theorem linkIsUp_accepted (s : State) (h : Hdr) (op p : Nat) : (s.accepted h op).linkIsUp p = s.linkIsUp p := by
  simp [State.linkIsUp]

/-- A fault that the checks allow is brought about. -/
theorem faultInject_injects {cls : BitVec 8} {index : BitVec 16} (ha : Accepts s h 0x0A03 3) (hd : s.debugLocked = false)
    (hi : index.toNat < unitCount cls.toNat) (hon : s.domOn (unitDomain cls.toNat index.toNat) = true) :
    ∃ t, exec (.faultInject h cls index) s = .next t ∧ Told ((s.accepted h 0x0A03).inject cls.toNat index.toNat) t :=
  command_told (i := .faultInject h cls index) (r := {}) rfl ha
    (by simp [debugLocked_accepted, hd, hon, show ¬ unitCount cls.toNat ≤ index.toNat by omega])

theorem faultInject_engine {index : BitVec 16} (ha : Accepts s h 0x0A03 3) (hd : s.debugLocked = false)
    (hi : index.toNat < 128) (hon : s.domOn (unitDomain 6 index.toNat) = true) :
    ∃ t, exec (.faultInject h 6 index) s = .next t ∧ t.teState index.toNat = 2 ∧
      t.getF (teB index.toNat) F.TE_STATUS_PARITY = 1 := by
  obtain ⟨t, hx, told⟩ := faultInject_injects (cls := 6) (index := index) ha hd hi hon
  obtain ⟨hstate, hflag, -⟩ := engineFails_engine (s := s.accepted h 0x0A03) (f := F.TE_STATUS_PARITY) hi (by simp [faultFlds])
  exact ⟨t, hx, (told.eq (·.teState index.toNat)).trans hstate,
    (told.eq (·.getF (teB index.toNat) F.TE_STATUS_PARITY)).trans hflag⟩

/-! ### The fall of a link (R568, R574) -/

@[simp] theorem wired_gratuitous (p) : Wired s0 (s.gratuitous p) ↔ Wired s0 s := by simp [State.gratuitous]

@[simp] theorem wired_streamRestart : Wired s0 s.streamRestart ↔ Wired s0 s := by simp [State.streamRestart]

@[simp] theorem wired_streamAll : Wired s0 s.streamAll ↔ Wired s0 s := by simp [State.streamAll]

@[simp] theorem wired_failover (p) : Wired s0 (s.failover p) ↔ Wired s0 s := by
  simp [State.failover, offWire_ethB p (f := F.ETH_STATUS_ACTIVE) (by decide),
    offWire_ethB (1 - p) (f := F.ETH_STATUS_ACTIVE) (by decide), offWire_ethB p (f := F.ETH_EVENT_FAILOVER_EV) (by decide)]

/-- The state in which the fall of a link shows. -/
def State.linkDown (s : State) (p : Nat) (remFault : Bool) : State :=
  let s := s.setF (ethB p) F.ETH_STATUS_LINK_UP 0
  let s := (s.setF (ethB p) F.ETH_STATUS_FEC_LOCK (if remFault then 1 else 0)).setF (ethB p) F.ETH_STATUS_REM_FAULT
    (if remFault then 1 else 0)
  ({ s with net := { s.net with upAt := Tab.del p s.net.upAt } }.txDrop p).raise (ethB p) F.ETH_EVENT_LINK_DN_EV (0xEA + 2 * p)

/-- What follows it: the log, and the failover to the other port. -/
theorem wired_linkFall (p : Nat) (remFault : Bool) : Wired (s.linkDown p remFault) (s.linkFall p remFault) := by
  simp [State.linkFall, State.linkDown]

theorem ethB_aligned (p : Nat) : ethB p % 0x100 = 0 := by
  unfold ethB
  omega

theorem linkUp_linkDown (p : Nat) (remFault : Bool) : (s.linkDown p remFault).getF (ethB p) F.ETH_STATUS_LINK_UP = 0 := by
  have hal := ethB_aligned p
  refine (getF_raise_apartPage _ (by decide) hal hal).trans ?_
  refine Eq.trans (b := ((((s.setF (ethB p) F.ETH_STATUS_LINK_UP 0).setF (ethB p) F.ETH_STATUS_FEC_LOCK _).setF (ethB p)
    F.ETH_STATUS_REM_FAULT _).getF (ethB p) F.ETH_STATUS_LINK_UP)) rfl ?_
  exact (getF_setF_apartPage _ (by decide) hal hal).trans ((getF_setF_apartPage _ (by decide) hal hal).trans
    (getF_setF_of_lt (by decide)))

/-- A link that falls is down, and its event stands. -/
theorem linkFall_shows {p : Nat} (hp : p < 2) (remFault : Bool) : (s.linkFall p remFault).linkIsUp p = false ∧
    (s.linkFall p remFault).getF (ethB p) F.ETH_EVENT_LINK_DN_EV = 1 := by
  have hw := wired_linkFall (s := s) p remFault
  have hup : F.ETH_STATUS_LINK_UP.key (ethB p) ∈ wireKeys := by interval_cases p <;> decide
  have hdn : F.ETH_EVENT_LINK_DN_EV.key (ethB p) ∈ wireKeys := by interval_cases p <;> decide
  constructor
  · rw [State.linkIsUp, State.flag, hw.getF ⟨rfl, hup⟩, linkUp_linkDown]
    rfl
  · rw [hw.getF ⟨rfl, hdn⟩]
    exact getF_raise_self _

theorem faultInject_port {index : BitVec 16} (ha : Accepts s h 0x0A03 3) (hd : s.debugLocked = false) (hi : index.toNat < 2)
    (hon : s.domOn (unitDomain 3 index.toNat) = true) (hup : s.linkIsUp index.toNat = true) :
    ∃ t, exec (.faultInject h 3 index) s = .next t ∧ t.linkIsUp index.toNat = false ∧
      t.getF (ethB index.toNat) F.ETH_EVENT_LINK_DN_EV = 1 := by
  obtain ⟨t, hx, told⟩ := faultInject_injects (cls := 3) (index := index) ha hd hi hon
  have hfall : (s.accepted h 0x0A03).inject 3 index.toNat = (s.accepted h 0x0A03).linkFall index.toNat false :=
    by simp [State.inject, hup]
  obtain ⟨hdown, hev⟩ := linkFall_shows (s := s.accepted h 0x0A03) hi false
  exact ⟨t, hx, (told.eq (·.linkIsUp index.toNat)).trans ((congrArg (·.linkIsUp index.toNat) hfall).trans hdown),
    (told.eq (·.getF (ethB index.toNat) F.ETH_EVENT_LINK_DN_EV)).trans
      ((congrArg (·.getF (ethB index.toNat) F.ETH_EVENT_LINK_DN_EV) hfall).trans hev)⟩

end UnitCommands
end Sys2Proof.Machine

namespace Sys2Proof.Proofs
open Sys2Proof.Machine

/-- Settles O51, a command at a time: each body, on an accepted command, gives the state named in its clause, and what telling
the host leaves of that state shows what the clause claims. -/
theorem unitCommands : Obligations.UnitCommands := by
  refine ⟨?_, ?_, ?_, ?_, ?_, ?_, ?_, ?_, ?_, ?_⟩
  · exact fun s h sec ns ha hns hrun h0 h1 hl => timeSet_steps ha hns hrun h0 h1 hl
  · exact fun s h d ha hd hl => ptpPrefer_prefers ha hd hl
  · exact fun s h unit pos id u ha hu h16 hon hroom hahead hl => markInsert_inserts ha hu h16 hon hroom hahead hl
  · exact fun s h unit u ha hu h16 hon hl => markClear_clears ha hu h16 hon hl
  · exact fun s h hold ha hh hon hl => markHold_holds ha hh hon hl
  · exact fun s h ha hon idle => cassAuth_opens ha hon idle
  · rintro s u h i n bs old nxt rfl ha hold hnxt hin hfit hread hl
    exact logRead_reads ha hold hnxt hin hfit hread hl
  · exact fun s h ha hl => logClear_clears ha hl
  · exact fun s h cls index ha h3 hi hon hidle hl => selftest_answers ha h3 hi hon hidle hl
  · exact fun s h index ha hd hi => ⟨fun hon => faultInject_engine ha hd hi hon,
      fun hi2 hon hup => faultInject_port ha hd hi2 hon hup⟩

end Sys2Proof.Proofs

/-! # Pattern sets: swap, revert and copy-back (O49) -/

namespace Sys2Proof.Machine

section PatternBanks

variable {s0 s t u : State} {h : Hdr} {op role k : Nat} {c : Int}

/-! ## Tables put over one another (R392, R400, R404) -/

theorem Tab.find_eq_none_of_above {β : Type} {j : Nat} {l : List (Nat × β)} (hl : Tab.above j l) : Tab.find j l = none := by
  induction l with
  | nil => rfl
  | cons e l ih =>
    have hlt : j < e.1 := hl e List.mem_cons_self
    rw [Tab.find, if_neg (by omega)]
    exact ih fun x hx => hl x (List.mem_cons_of_mem _ hx)

theorem Tab.find_filter {β : Type} (p : Nat → Bool) (j : Nat) (l : List (Nat × β)) :
    Tab.find j (l.filter (fun e => p e.1)) = if p j then Tab.find j l else none := by
  induction l with
  | nil => simp [Tab.find]
  | cons e l ih =>
    by_cases hj : j = e.1
    · subst hj
      by_cases hp : p e.1 = true
      · simp [hp, Tab.find]
      · simp [hp, ih]
    · by_cases hp : p e.1 = true <;> simp [hp, Tab.find, hj, ih]

/-- Of a list without repeated keys, each entry is found in the bank that it is put into. -/
theorem find_putAll {l : List (Nat × Nat)} (hl : Tab.rising l = true) (bank : List (Nat × Nat)) (j : Nat) :
    Tab.find j (putAll l bank) = (Tab.find j l).or (Tab.find j bank) := by
  induction l generalizing bank with
  | nil => rfl
  | cons e l ih =>
    obtain ⟨habove, hrest⟩ := (Tab.rising_cons e.1 e.2 l).1 hl
    have hstep : Tab.find j (putAll (e :: l) bank) = (Tab.find j l).or (Tab.find j (Tab.put e.1 e.2 bank)) := ih hrest _
    rw [hstep, Tab.find_put, Tab.find]
    by_cases hj : j = e.1
    · subst hj
      simp [Tab.find_eq_none_of_above habove]
    · simp [hj]

/-- The entries of `a` whose keys `p` names, over those of `b` whose keys it does not. -/
theorem find_merge {a : List (Nat × Nat)} (ha : Tab.rising a = true) (p : Nat → Bool) (b : List (Nat × Nat)) (j : Nat) :
    Tab.find j (putAll (a.filter (fun e => p e.1)) (b.filter (fun e => !p e.1))) =
      if p j then Tab.find j a else Tab.find j b := by
  rw [find_putAll (Tab.rising_filter _ ha), Tab.find_filter, Tab.find_filter (fun n => !p n)]
  by_cases hj : p j = true <;> simp [hj]

/-! ## The banks of a set -/

theorem getF_pat {b : Nat} {f : Fld} (hf : f.pat = true) (s : State) : s.getF b f = Tab.get f.rst (f.key b) s.act := by
  simp [State.getF, hf]

theorem getSh_pat {b : Nat} {f : Fld} (hf : f.pat = true) (s : State) : s.getSh b f = Tab.get f.rst (f.key b) s.shd := by
  simp [State.getSh, hf]

theorem find_flip_act (hshd : Tab.rising s.shd = true) (k j : Nat) :
    Tab.find j (s.flip k).act = if s.setAt (j / 64) = k then Tab.find j s.shd else Tab.find j s.act :=
  (find_merge hshd (fun n => s.setAt (n / 64) == k) s.act j).trans (by simp)

theorem find_copyBank_shd (hact : Tab.rising s.act = true) (k j : Nat) :
    Tab.find j (s.copyBank k).shd = if s.setAt (j / 64) = k then Tab.find j s.act else Tab.find j s.shd :=
  (find_merge hact (fun n => s.setAt (n / 64) == k) s.shd j).trans (by simp)

theorem find_copyBack_shd (hact : Tab.rising s.act = true) (e : CopyBack) (j : Nat) :
    Tab.find j (s.copyBack e).shd = if e.covers j then Tab.find j s.act else Tab.find j s.shd :=
  find_merge hact e.covers s.shd j

/-- The shadow bank that a flip leaves is the one that a revert leaves. -/
theorem flip_shd (s : State) (k : Nat) : (s.flip k).shd = (s.copyBank k).shd := rfl

theorem State.canon_banks (hc : s.canon = true) : Tab.rising s.act = true ∧ Tab.rising s.shd = true := by
  obtain ⟨-, -, -, hact, hshd⟩ := (State.canon_iff s).1 hc
  exact ⟨hact, hshd⟩

theorem getSh_copyBank (hact : Tab.rising s.act = true) {b : Nat} {f : Fld} (hf : f.pat = true) (k : Nat) :
    (s.copyBank k).getSh b f = if s.setAt (f.key b / 64) = k then s.getF b f else s.getSh b f := by
  rw [getSh_pat hf, getSh_pat hf, getF_pat hf, Tab.get, find_copyBank_shd hact]
  split <;> rfl

theorem getSh_copyBack (hact : Tab.rising s.act = true) {b : Nat} {f : Fld} (hf : f.pat = true) (e : CopyBack) :
    (s.copyBack e).getSh b f = if e.covers (f.key b) then s.getF b f else s.getSh b f := by
  rw [getSh_pat hf, getSh_pat hf, getF_pat hf, Tab.get, find_copyBack_shd hact]
  split <;> rfl

theorem getF_flip (hshd : Tab.rising s.shd = true) {b : Nat} {f : Fld} (hf : f.pat = true) (k : Nat) :
    (s.flip k).getF b f = if s.setAt (f.key b / 64) = k then s.getSh b f else s.getF b f := by
  rw [getF_pat hf, getSh_pat hf, getF_pat hf, Tab.get, find_flip_act hshd]
  split <;> rfl

theorem getSh_flip (hact : Tab.rising s.act = true) {b : Nat} {f : Fld} (hf : f.pat = true) (k : Nat) :
    (s.flip k).getSh b f = if s.setAt (f.key b / 64) = k then s.getF b f else s.getSh b f := by
  rw [getSh_pat hf, flip_shd, ← getSh_pat hf, getSh_copyBank hact hf]

/-! ## To whom channels and fields belong

Nothing but the groups and the runs of the groups decides it (R21, R390). -/

/-- The groups and their runs are as before. -/
def RunsKept (s t : State) : Prop :=
  t.grp = s.grp ∧ ∀ g < 16, t.runFirst g = s.runFirst g ∧ t.runCount g = s.runCount g

theorem RunsKept.groupOf (hr : RunsKept s t) (ch : Nat) : t.groupOf ch = s.groupOf ch :=
  groupOf_congr hr.1 (fun g hg => (hr.2 g hg).1) fun g hg => (hr.2 g hg).2

theorem RunsKept.setAt (hr : RunsKept s t) (a : Nat) : t.setAt a = s.setAt a := by
  simp only [State.setAt, State.groupAt, hr.groupOf]

theorem RunsKept.setChans (hr : RunsKept s t) (k : Nat) : t.setChans k = s.setChans k := by
  simp only [State.setChans, hr.groupOf]

theorem RunsKept.trans (hr : RunsKept s t) (hr' : RunsKept t u) : RunsKept s u :=
  ⟨hr'.1.trans hr.1, fun g hg => ⟨((hr'.2 g hg).1).trans (hr.2 g hg).1, ((hr'.2 g hg).2).trans (hr.2 g hg).2⟩⟩

theorem runsKept_accepted (s : State) (h : Hdr) (op : Nat) : RunsKept s (s.accepted h op) :=
  ⟨grp_accepted s h op, fun g _ => by simp [State.runFirst, State.runCount]⟩

theorem Quiet.runsKept (hq : Quiet s t) : RunsKept s t :=
  ⟨hq.grp, fun g hg => ⟨hq.getF _ _ (prot_of_low (low_gseam hg (by decide) (by decide))),
    hq.getF _ _ (prot_of_low (low_gseam hg (by decide) (by decide)))⟩⟩

/-! ## The registers of a set (R394) -/

/-- A field of the block of a pattern set. -/
def Fld.inPat (f : Fld) : Bool := decide (f.off < 0x20) && decide (f.lo < 64)

theorem low_patB {f : Fld} (hf : f.inPat = true) (hk : k < 17) : f.low (patB k) = true := by
  simp only [Fld.inPat, Bool.and_eq_true, decide_eq_true_eq] at hf
  rw [Fld.low_iff, patB]
  omega

theorem ofInt_lt (w : Nat) (i : Int) : ofInt w i < 2 ^ w := by
  have hpos : (0 : Int) < Int.ofNat (2 ^ w) := Int.ofNat_lt.2 (Nat.two_pow_pos w)
  have hlt := Int.emod_lt_of_pos i hpos
  have hnonneg := Int.emod_nonneg i hpos.ne'
  unfold ofInt
  exact (Int.toNat_lt hnonneg).2 hlt

theorem key_ne_corr {b ch : Nat} {f : Fld} (hf : f.low b = true) (f' : Fld) : f.key b ≠ f'.key (corrB ch) := by
  rw [Fld.low_iff] at hf
  simp only [Fld.key, corrB, chB]
  omega

theorem pat_key_ne {f f' : Fld} (hlo : f.lo < 64 ∧ f'.lo < 64) (hne : ¬ (f.off = f'.off ∧ f.lo = f'.lo)) (b : Nat) :
    f.key b ≠ f'.key b := fun he => hne ((key_inj b f f' hlo.1 hlo.2).1 he)

/-- No register of the runs of the groups lies in the block of a set. -/
theorem runsKept_setF_pat {f : Fld} (hf : f.inPat = true) (hk : k < 17) (v : Nat) : RunsKept s (s.setF (patB k) f v) := by
  have hne (g : Nat) (f' : Fld) : f'.key (gseamB g) ≠ f.key (patB k) := by
    simp only [Fld.inPat, Bool.and_eq_true, decide_eq_true_eq] at hf
    simp only [Fld.key, gseamB, patB]
    omega
  exact ⟨setF_grp .., fun g _ => ⟨getF_setF_ne _ _ _ _ _ _ (hne g _), getF_setF_ne _ _ _ _ _ _ (hne g _)⟩⟩

theorem offWire_of_low {b : Nat} {f : Fld} (hf : f.low b = true) : f.offWire b = true := by
  have hwires : ∀ j ∈ wireKeys, 0xE0000 * 64 ≤ j := by decide
  have hn : f.key b ∉ wireKeys := fun hm => by
    have hge := hwires _ hm
    rw [Fld.low_iff] at hf
    unfold Fld.key at hge
    omega
  simp [Fld.offWire, hn]

/-! ## The check of a shadow set (R395) -/

theorem slotsOk_quiet (g : Nat) (shadow : Bool) (l : List Nat) (s : State) : Quiet s (s.slotsOk g shadow l).1 := by
  induction l generalizing s with
  | nil => exact .refl s
  | cons i is ih =>
    unfold State.slotsOk
    dsimp only
    generalize (if shadow = true then s.getSh (gtalB g) (F.SLOT_DESC_ADDR.nth i) else s.getF (gtalB g) (F.SLOT_DESC_ADDR.nth i))
      * 256 = a
    have hread : Quiet s (s.readCls g a).1 := readCls_quiet g a (.refl s)
    refine .iteP (ih s) ?_
    split
    · exact hread
    · exact .iteP (hread.trans (ih _)) hread

/-- The check reads the descriptors of the slots, and changes nothing of the set. -/
theorem shadowOk_quiet (s : State) (k : Nat) : Quiet s (s.shadowOk k).1 := by
  unfold State.shadowOk
  refine .iteP (.refl s) (.iteP ?_ (.refl s))
  exact .iteP (.refl s) (slotsOk_quiet ..)

@[simp] theorem wired_shadowOk (k) : Wired s0 (s.shadowOk k).1 ↔ Wired s0 s := by simp [State.shadowOk]

/-! ## What an accepted command finds of a set -/

theorem setOf_lt {g : Nat} (hk : setOf g = some k) : k < 17 := by
  unfold setOf at hk
  split at hk
  · cases hk
    omega
  · split at hk <;> cases hk
    decide

@[simp] theorem phase_accepted (s : State) (h : Hdr) (op k : Nat) : (s.accepted h op).phase k = s.phase k := by
  simp [State.phase]

@[simp] theorem setChans_accepted (s : State) (h : Hdr) (op k : Nat) : (s.accepted h op).setChans k = s.setChans k :=
  (runsKept_accepted s h op).setChans k

@[simp] theorem copying_accepted (s : State) (h : Hdr) (op : Nat) : (s.accepted h op).copying = s.copying := rfl

@[simp] theorem lentTo_accepted (s : State) (h : Hdr) (op k : Nat) : (s.accepted h op).lentTo k = s.lentTo k := by
  simp [State.lentTo]

@[simp] theorem rerunSet_accepted (s : State) (h : Hdr) (op k : Nat) : (s.accepted h op).rerunSet k = s.rerunSet k := by
  have hrun (g : Nat) : (s.accepted h op).inRun g = s.inRun g :=
    funext fun ch => inRun_congr (getF_accepted_above (gseamB_above g) ..) (getF_accepted_above (gseamB_above g) ..)
  simp [State.rerunSet, State.rerunG, hrun]

@[simp] theorem setRuns_accepted (s : State) (h : Hdr) (op k : Nat) : (s.accepted h op).setRuns k = s.setRuns k := rfl

@[simp] theorem setStamp_accepted (s : State) (h : Hdr) (op k : Nat) : (s.accepted h op).setStamp k = s.setStamp k := by
  have hfollowed : (s.accepted h op).followed = s.followed := rfl
  simp only [State.setStamp, State.stampDev, hfollowed, stampG_accepted]
  rfl

/-! ## Swap (R394 to R403) -/

/-- A set for which nothing is under way: no swap, no copy-back over a channel of it, no re-run. -/
def State.setFree (s : State) (k : Nat) : Prop := s.phase k = 0 ∧ s.lentTo k = false ∧ s.rerunSet k = false

/-- The state in which a set has swapped, before the journal and the gauge tables learn of it. -/
def State.swapped (s : State) (k : Nat) (c : Int) : State :=
  let v := ((s.keepBank k c).flip k).setF (patB k) F.PAT_STATUS_PHASE 2
  { v with copying := v.copying.filter (fun e => e.set != k) ++ [⟨k, s.setChans k, c, !s.running k, !s.running k⟩] }

/-- What neither a journal record nor a gauge request changes is as the swap left it. -/
theorem swapNow_keeps {β : Type} {p : State → β}
    (hjrn : ∀ (w : State) ty g cls src lag c data, p (w.jrn ty g cls src lag c data) = p w)
    (hgauge : ∀ (w : State) ch c temp pages, p (w.gaugeReq ch c temp pages) = p w) (s : State) (k : Nat) (c : Int) :
    p (s.swapNow k c) = p (s.swapped k c) := by
  unfold State.swapNow
  refine (forL_keeps _ (fun x _ w => ?_) _).trans (hjrn ..)
  split
  · exact hgauge ..
  · rfl

theorem act_gaugeReq (ch : Nat) (c temp : Int) (pages : List Nat) : (s.gaugeReq ch c temp pages).act = s.act := rfl

theorem getF_gaugeReq_low {b : Nat} {f : Fld} (hf : f.low b = true) (ch : Nat) (c temp : Int) (pages : List Nat) :
    (s.gaugeReq ch c temp pages).getF b f = s.getF b f := getF_setF_ne _ _ _ _ _ _ (key_ne_corr hf _)

theorem act_swapNow (s : State) (k : Nat) (c : Int) : (s.swapNow k c).act = (s.flip k).act :=
  swapNow_keeps (p := (·.act)) (fun w _ _ _ _ _ _ _ => (jrn_quiet w _ _ _ _ _ _ _ (.refl w)).act)
    (fun _ _ _ _ _ => act_gaugeReq ..) s k c

theorem shd_swapNow (s : State) (k : Nat) (c : Int) : (s.swapNow k c).shd = (s.flip k).shd :=
  swapNow_keeps (p := (·.shd)) (fun w _ _ _ _ _ _ _ => (jrn_quiet w _ _ _ _ _ _ _ (.refl w)).shd)
    (fun w _ _ _ _ => show Part.shd.same w _ by simp) s k c

theorem copying_swapNow (s : State) (k : Nat) (c : Int) : (s.swapNow k c).copying =
    s.copying.filter (fun e => e.set != k) ++ [⟨k, s.setChans k, c, !s.running k, !s.running k⟩] :=
  swapNow_keeps (p := (·.copying)) (fun w _ _ _ _ _ _ _ => (jrn_quiet w _ _ _ _ _ _ _ (.refl w)).copying)
    (fun w _ _ _ _ => show Part.copying.same w _ by simp) s k c

theorem phase_swapNow (hk : k < 17) (s : State) (c : Int) : (s.swapNow k c).phase k = 2 := by
  have hlow : F.PAT_STATUS_PHASE.low (patB k) = true := low_patB (by decide) hk
  refine (swapNow_keeps (p := (·.phase k))
    (fun w _ _ _ _ _ _ _ => (jrn_quiet w _ _ _ _ _ _ _ (.refl w)).getF _ _ (prot_of_low hlow))
    (fun _ _ _ _ _ => getF_gaugeReq_low hlow ..) s k c).trans ?_
  exact getF_setF_same ((s.keepBank k c).flip k) (patB k) F.PAT_STATUS_PHASE 2

/-- The state in which the swap of a stopped set takes place: the check has read its shadow, and its course is shown. -/
def State.swapReady (s : State) (k : Nat) : State :=
  (s.shadowOk k).1.setI (patB k) F.PAT_SWAP_COURSE_COURSE (s.setStamp k)

/-- A set that is free and whose shadow passes the check swaps at once where it has stopped (R401). -/
theorem swapReq_stopped {wh course : Nat} (hfree : s.setFree k)
    (hdrain : (decide (k < 16) && s.flag (gtalB k) F.TALLY_STATUS_DRAIN) = false) (hok : (s.shadowOk k).2 = true)
    (hrun : s.setRuns k = false) : s.swapReq k wh course =
      ((s.swapReady k).swapNow k (s.setStamp k), stOk, s.setStamp k) := by
  obtain ⟨hphase, hlent, hrerun⟩ := hfree
  simp [State.swapReq, State.swapReady, hphase, hlent, hrerun, hdrain, hok, hrun]

/-- One that runs waits for a course to come (R394, R398). -/
theorem swapReq_running {wh course : Nat} (hfree : s.setFree k)
    (hdrain : (decide (k < 16) && s.flag (gtalB k) F.TALLY_STATUS_DRAIN) = false) (hok : (s.shadowOk k).2 = true)
    (hrun : s.setRuns k = true) (hc : c = if wh = 0 then s.setStamp k + 1 else Int.ofNat course) (hlate : s.setStamp k < c)
    (hfar : c ≤ s.setStamp k + 2 ^ 32) : s.swapReq k wh course =
      (((s.shadowOk k).1.setF (patB k) F.PAT_STATUS_PHASE 1).setI (patB k) F.PAT_SWAP_COURSE_COURSE c, stAccepted, c) := by
  obtain ⟨hphase, hlent, hrerun⟩ := hfree
  have hpassed : decide (c ≤ s.setStamp k) = false := by simpa using hlate
  have hbeyond : decide (s.setStamp k + 2 ^ 32 < c) = false := by simpa using hfar
  unfold State.swapReq
  simp only [← hc, hpassed, hbeyond]
  simp [hphase, hlent, hrerun, hdrain, hok, hrun]

theorem setFree_accepted (hfree : s.setFree k) : (s.accepted h op).setFree k := by simpa [State.setFree] using hfree

theorem drain_accepted (hdrain : k < 16 → s.flag (gtalB k) F.TALLY_STATUS_DRAIN = false) :
    (decide (k < 16) && (s.accepted h op).flag (gtalB k) F.TALLY_STATUS_DRAIN) = false := by
  rw [flag_accepted_above (show 0x10020 < gtalB k by unfold gtalB; omega)]
  by_cases hk : k < 16 <;> simp [hk, hdrain]

/-- By then neither the acceptance of the command nor the check has changed a bank, or to whom a field belongs. -/
theorem swapReady_accepted (s : State) (h : Hdr) (op : Nat) (hk : k < 17) :
    ((s.accepted h op).swapReady k).act = s.act ∧ ((s.accepted h op).swapReady k).shd = s.shd ∧
      RunsKept s ((s.accepted h op).swapReady k) := by
  have hq := shadowOk_quiet (s.accepted h op) k
  exact ⟨hq.act.trans rfl, hq.shd.trans rfl,
    ((runsKept_accepted s h op).trans hq.runsKept).trans (runsKept_setF_pat (by decide) hk _)⟩

theorem patternSwap_swaps {group wh : BitVec 8} {course : BitVec 64} (ha : Accepts s h 0x0203 1)
    (hset : setOf group.toNat = some k) (hwh : wh.toNat ≤ 1) (hfree : s.setFree k)
    (hdrain : k < 16 → s.flag (gtalB k) F.TALLY_STATUS_DRAIN = false) (hok : ((s.accepted h 0x0203).shadowOk k).2 = true)
    (hc : s.canon = true) (hrun : s.setRuns k = false) :
    ∃ t, exec (.patternSwap h group wh course) s = .next t ∧ t.phase k = 2 ∧
      (∃ e ∈ t.copying, e.set = k ∧ e.chans = s.setChans k) ∧
      (∀ b f, f.pat = true → s.setAt (f.key b / 64) = k → t.getF b f = s.getSh b f ∧ t.getSh b f = s.getF b f) ∧
      (∀ b f, f.pat = true → s.setAt (f.key b / 64) ≠ k → t.getF b f = s.getF b f ∧ t.getSh b f = s.getSh b f) := by
  obtain ⟨hact, hshd⟩ := State.canon_banks hc
  obtain ⟨hwact, hwshd, hruns⟩ := swapReady_accepted s h 0x0203 (setOf_lt hset)
  have hreq := swapReq_stopped (wh := wh.toNat) (course := course.toNat) (setFree_accepted hfree) (drain_accepted hdrain) hok
    ((setRuns_accepted s h 0x0203 k).trans hrun)
  generalize (s.accepted h 0x0203).swapReady k = w at *
  rw [setStamp_accepted] at hreq
  obtain ⟨t, hx, told⟩ := command_told (i := .patternSwap h group wh course) (v := w.swapNow k (s.setStamp k))
    (r := { course := some (s.setStamp k) }) rfl ha (by simp [hset, Nat.not_lt.2 hwh, hreq, stOk])
  have hF {b : Nat} {f : Fld} (hf : f.pat = true) :
      t.getF b f = if s.setAt (f.key b / 64) = k then s.getSh b f else s.getF b f := by
    rw [told.eq (·.getF b f), getF_pat hf, act_swapNow, ← getF_pat hf, getF_flip (hwshd ▸ hshd) hf, hruns.setAt]
    simp only [getF_pat hf, getSh_pat hf, hwact, hwshd]
  have hSh {b : Nat} {f : Fld} (hf : f.pat = true) :
      t.getSh b f = if s.setAt (f.key b / 64) = k then s.getF b f else s.getSh b f := by
    rw [told.eq (·.getSh b f), getSh_pat hf, shd_swapNow, ← getSh_pat hf, getSh_flip (hwact ▸ hact) hf, hruns.setAt]
    simp only [getF_pat hf, getSh_pat hf, hwact, hwshd]
  refine ⟨t, hx, ?_, ?_, fun b f hf hin => ?_, fun b f hf hout => ?_⟩
  · rw [told.eq (·.phase k), phase_swapNow (setOf_lt hset)]
  · rw [told.eq (·.copying), copying_swapNow]
    exact ⟨_, List.mem_append_right _ (List.mem_singleton_self _), rfl, hruns.setChans k⟩
  · rw [hF hf, hSh hf, if_pos hin, if_pos hin]
    exact ⟨rfl, rfl⟩
  · rw [hF hf, hSh hf, if_neg hout, if_neg hout]
    exact ⟨rfl, rfl⟩

theorem patternSwap_waits {group wh : BitVec 8} {course : BitVec 64} (ha : Accepts s h 0x0203 1)
    (hset : setOf group.toNat = some k) (hwh : wh.toNat ≤ 1) (hfree : s.setFree k)
    (hdrain : k < 16 → s.flag (gtalB k) F.TALLY_STATUS_DRAIN = false) (hok : ((s.accepted h 0x0203).shadowOk k).2 = true)
    (hrun : s.setRuns k = true) (hc : c = if wh = 0 then s.setStamp k + 1 else Int.ofNat course.toNat)
    (hlate : s.setStamp k < c) (hfar : c ≤ s.setStamp k + 2 ^ 32) (hl : s.fits h 0 = true) :
    ∃ t, exec (.patternSwap h group wh course) s = .next t ∧ Replied t h 0x0203 stAccepted [] ∧ t.phase k = 1 ∧
      t.getF (patB k) F.PAT_SWAP_COURSE_COURSE = ofInt 64 c ∧ t.act = s.act ∧ t.shd = s.shd := by
  have hk := setOf_lt hset
  have hoff {f : Fld} (hf : f.inPat = true) : f.offWire (patB k) = true := offWire_of_low (low_patB hf hk)
  have hq := shadowOk_quiet (s.accepted h 0x0203) k
  have hnow : c = if wh.toNat = 0 then (s.accepted h 0x0203).setStamp k + 1 else Int.ofNat course.toNat := by
    rw [hc, setStamp_accepted]
    exact if_congr (BitVec.toNat_inj (y := 0)).symm rfl rfl
  have hreq := swapReq_running (setFree_accepted hfree) (drain_accepted hdrain) hok
    ((setRuns_accepted s h 0x0203 k).trans hrun) hnow (by rwa [setStamp_accepted]) (by rwa [setStamp_accepted])
  obtain ⟨t, hx, hrep, told⟩ := command_replied (i := .patternSwap h group wh course)
    (r := { status := stAccepted, course := some c }) rfl ha
    (by simp only [hset, if_neg (Nat.not_lt.2 hwh), hreq]; rfl)
    ((wired_setI (hoff (by decide)) _).2 ((wired_setF (hoff (by decide)) _).2 (by simp))) hl
  refine ⟨t, hx, hrep, ?_, ?_, ?_, ?_⟩
  · refine (told.eq (·.phase k)).trans ((getF_setF_ne _ _ _ _ _ _ (pat_key_ne (by decide) (by decide) _)).trans ?_)
    exact getF_setF_same ((s.accepted h 0x0203).shadowOk k).1 (patB k) F.PAT_STATUS_PHASE 1
  · exact (told.eq (·.getF (patB k) F.PAT_SWAP_COURSE_COURSE)).trans (getF_setF_of_lt (ofInt_lt 64 c))
  · exact (told.eq (·.act)).trans (hq.act.trans rfl)
  · exact (told.eq (·.shd)).trans (hq.shd.trans rfl)

/-! ## Revert (R396, R404) -/

theorem patternRevert_copies {group : BitVec 8} (ha : Accepts s h 0x0204 2) (hset : setOf group.toNat = some k)
    (hl : s.fits h 0 = true) (hfree : s.setFree k) (hc : s.canon = true) :
    ∃ t, exec (.patternRevert h group) s = .next t ∧ Replied t h 0x0204 0 [] ∧ t.act = s.act ∧
      (∀ b f, f.pat = true → t.getSh b f = if s.setAt (f.key b / 64) = k then s.getF b f else s.getSh b f) := by
  obtain ⟨hphase, hlent, hrerun⟩ := setFree_accepted (h := h) (op := 0x0204) hfree
  obtain ⟨t, hx, hrep, told⟩ := command_replied (i := .patternRevert h group)
    (v := (s.accepted h 0x0204).copyBank k) (r := .of stOk) rfl ha
    (by simp [hset, State.revertReq, hphase, hlent, hrerun]) (by simp [State.copyBank]) hl
  refine ⟨t, hx, hrep, (told.eq (·.act)).trans rfl, fun b f hf => ?_⟩
  have hact : Tab.rising (s.accepted h 0x0204).act = true := (State.canon_banks hc).1
  rw [told.eq (·.getSh b f), getSh_copyBank hact hf, (runsKept_accepted s h 0x0204).setAt]
  simp only [getF_pat hf, getSh_pat hf]
  rfl

theorem patternRevert_busy {group : BitVec 8} (ha : Accepts s h 0x0204 2) (hset : setOf group.toNat = some k)
    (hl : s.fits h 0 = true) (hbusy : s.phase k ≠ 0 ∨ s.lentTo k = true ∨ s.rerunSet k = true) :
    ∃ t, exec (.patternRevert h group) s = .next t ∧ Replied t h 0x0204 stBusy [] ∧ t.act = s.act ∧ t.shd = s.shd := by
  have hreq : (s.accepted h 0x0204).revertReq k = (s.accepted h 0x0204, stBusy) :=
    if_pos (by simpa [or_assoc] using hbusy)
  obtain ⟨t, hx, hrep, told⟩ := command_replied (i := .patternRevert h group) (v := s.accepted h 0x0204) (r := .of stBusy) rfl
    ha (by simp only [hset, hreq]) (wired_refl _) hl
  exact ⟨t, hx, hrep, (told.eq (·.act)).trans rfl, (told.eq (·.shd)).trans rfl⟩

/-! ## Copy-back (R399, R400) -/

theorem copyStarts_of_set {e : CopyBack} (hk : e.set = k) : s.copyStarts e =
    { e with seg := e.seg || s.segDone k e.course, tally := e.tally || s.talliesDone k e.course } := by
  subst hk
  rfl

theorem copyBackStart_begins (s : State) (k : Fin 17) :
    ∃ t, exec (.copyBackStart k) s = .next t ∧ t.regs = s.regs ∧ t.act = s.act ∧ t.shd = s.shd ∧
      t.copying.length = s.copying.length ∧ (∀ e ∈ s.copying, e.set ≠ k.val → e ∈ t.copying) ∧
      (∀ e ∈ s.copying, e.set = k.val → ({ e with
        seg := e.seg || s.segDone k.val e.course
        tally := e.tally || s.talliesDone k.val e.course } : CopyBack) ∈ t.copying) := by
  refine ⟨_, rfl, rfl, rfl, rfl, List.length_map _, fun e he hk => ?_, fun e he hk => ?_⟩
  · exact List.mem_map.2 ⟨e, he, if_neg hk⟩
  · exact List.mem_map.2 ⟨e, he, (if_pos hk).trans (copyStarts_of_set hk)⟩

/-- The state in which the copy-back of a set has ended. -/
def State.copied (s : State) (e : CopyBack) (k : Nat) : State :=
  (((State.copyBack { s with copying := s.copying.filter (fun x => x.set != k) } e).setF (patB k) F.PAT_STATUS_PHASE 0).incF
    (patB k) F.PAT_SWAPS_COUNT 1).raise (patB k) F.PAT_STATUS_SWAP_EV 0xD3

section CopyBackEnd

variable {e : CopyBack} {n : Fin 17}

theorem exec_copyBackEnd_none (hn : s.copying.find? (fun x => x.set == n.val) = none) :
    exec (.copyBackEnd n) s = .next s := by
  simp only [exec, execCopyBackEnd, hn]

theorem exec_copyBackEnd_waits (he : s.copying.find? (fun x => x.set == n.val) = some e)
    (hw : s.phase n ≠ 2 ∨ e.seg = false ∨ e.tally = false) : exec (.copyBackEnd n) s = .next s := by
  simp only [exec, execCopyBackEnd, he, State.copyEnd]
  rcases hw with hw | hw | hw <;> simp [hw]

theorem exec_copyBackEnd_ends (he : s.copying.find? (fun x => x.set == n.val) = some e) (hp : s.phase n = 2)
    (hseg : e.seg = true) (htally : e.tally = true) : exec (.copyBackEnd n) s = .next (s.copied e n) := by
  simp only [exec, execCopyBackEnd, he, State.copyEnd, hp, hseg, htally, and_self, if_true]
  rfl

theorem phase_copied : (s.copied e k).phase k = 0 :=
  (getF_raise_ne _ _ _ _ _ _ (pat_key_ne (by decide) (by decide) _)).trans
    ((getF_setF_ne _ _ _ _ _ _ (pat_key_ne (by decide) (by decide) _)).trans (getF_setF_of_lt (by decide)))

theorem swaps_copied : (s.copied e k).getF (patB k) F.PAT_SWAPS_COUNT =
    (s.getF (patB k) F.PAT_SWAPS_COUNT + 1) % 2 ^ F.PAT_SWAPS_COUNT.width := by
  refine (getF_raise_ne _ _ _ _ _ _ (pat_key_ne (by decide) (by decide) _)).trans ((getF_incF_same ..).trans ?_)
  rw [getF_setF_ne _ _ _ _ _ _ (pat_key_ne (by decide) (by decide) _)]
  rfl

theorem event_copied : (s.copied e k).getF (patB k) F.PAT_STATUS_SWAP_EV = 1 := getF_raise_self _

/-- Beyond the registers, the end of copy-back changes the shadow bank and the list of copy-backs alone. -/
theorem copied_banks : (s.copied e k).act = s.act ∧ (s.copied e k).shd = (s.copyBack e).shd ∧
    (s.copied e k).copying = s.copying.filter (fun x => x.set != k) := by
  have hfired : Quiet _ (s.copied e k) := fire_quiet _ 0xD3 (.refl _)
  exact ⟨hfired.act.trans rfl, hfired.shd.trans rfl, hfired.copying.trans rfl⟩

end CopyBackEnd

end PatternBanks
end Sys2Proof.Machine

namespace Sys2Proof.Proofs
open Sys2Proof.Machine

/-- Settles O49, a row at a time: what a swap, a revert and a copy-back leave of the two banks is what one table put over part of
another holds (`find_merge`). -/
theorem patternCommands : Obligations.PatternCommands := by
  refine ⟨?_, fun s h group k ha hset hl => ⟨?_, ?_⟩, fun s k => ⟨copyBackStart_begins s k, fun e he => ⟨?_, ?_⟩, ?_⟩⟩
  · rintro s u h group wh course k rfl ha hset hwh hphase hlent hrerun hdrain hok hc
    have hfree : s.setFree k := ⟨hphase, hlent, hrerun⟩
    exact ⟨fun hrun => patternSwap_swaps ha hset hwh hfree hdrain hok hc hrun,
      fun c hrun hwhen hlate hfar hl => patternSwap_waits ha hset hwh hfree hdrain hok hrun hwhen hlate hfar hl⟩
  · exact fun hphase hlent hrerun hc => patternRevert_copies ha hset hl ⟨hphase, hlent, hrerun⟩ hc
  · exact fun hbusy => patternRevert_busy ha hset hl hbusy
  · intro hp hseg htally hc
    have hact := (State.canon_banks hc).1
    obtain ⟨hactive, hshadow, hcopying⟩ := copied_banks (s := s) (e := e) (k := k)
    refine ⟨_, exec_copyBackEnd_ends he hp hseg htally, phase_copied, fun x hx => ?_, hactive, swaps_copied, event_copied,
      fun b f hf => ?_⟩
    · rw [hcopying] at hx
      simpa using (List.mem_filter.1 hx).2
    · rw [getSh_pat hf, hshadow, ← getSh_pat hf, getSh_copyBack hact hf]
  · exact fun hw => exec_copyBackEnd_waits he hw
  · exact fun hn => exec_copyBackEnd_none hn

end Sys2Proof.Proofs
